-- ==== Sys2Proof/Word.lean ====
section
/-! DEFINITION. The word types of the device and their plainest arithmetic. Multi-byte fields are little-endian
and bit 0 is the least significant bit (R9). -/

namespace Sys2Proof

/-- One byte. -/
abbrev Byte := BitVec 8

/-- A 32-bit register word or FP32 bit pattern. -/
abbrev Word := BitVec 32

/-- The body of a command, a completion or a packet, byte 0 first. -/
abbrev Body := List Byte

end Sys2Proof
end

