-- ==== Sys2Proof/Syntax.lean ====
section
/-! DEFINITION. The commands of the block: one constructor of `Instr` for each row of spec/opcode_table.json, with
the operands the rule of the row gives it. Numbers that name things (islands, functions, tags, slots) are `Nat`;
`Instr.wf` (WellFormed.lean) bounds them. -/

namespace Sys2Proof

/-- The three paths to a register page (R432). -/
inductive Path where
  | host | core | mgmt
  deriving DecidableEq, Repr

/-- The four straits of an island (R16). -/
inductive Dir where
  | north | south | east | west
  deriving DecidableEq, Repr

/-- A 64-byte transfer between two islands of one die (R17). -/
structure Transfer where
  src : Nat
  dst : Nat
  data : Body
  deriving DecidableEq, Repr

/-- The formats of R26 Table 1 and R28, with FP32 and INT32 as operands of the vector unit. -/
inductive Fmt where
  | int4 | int8 | fp4 | e4m3 | e5m2 | bf16 | fp16 | mxint8 | mxfp8 | mxfp8e5 | mxfp4 | mxfp6 | fp32 | int32
  deriving DecidableEq, Repr

/-- Block scales (R29). -/
inductive ScaleFmt where
  | none | e8m0 | e4m3
  deriving DecidableEq, Repr

/-- The accumulators of R32 Table 3. -/
inductive AccKind where
  | acc16 | acc32 | wide
  deriving DecidableEq, Repr

/-- How a tile starts (R32). -/
inductive InitKind where
  | clear | bias | onto
  deriving DecidableEq, Repr

/-- The readout formats of R32. -/
inductive Readout where
  | none | int32 | fp32 | bf16 | fp16 | int64
  deriving DecidableEq, Repr

/-- Rounding: to nearest with ties to even, or stochastic. -/
inductive Rnd where
  | rne | sr
  deriving DecidableEq, Repr

/-- The parameters of a matrix operation (R32 Table 3), with the islet-memory offsets of its operands, its scale
arrays, its bias row and its readout, the size of its MX blocks (R28) and the task it belongs to. -/
structure MatOp where
  fmtA : Fmt
  fmtB : Fmt
  scaleA : ScaleFmt
  scaleB : ScaleFmt
  mxBlock : Nat
  acc : AccKind
  m : Nat
  n : Nat
  k : Nat
  tile : Nat
  init : InitKind
  preshift : Nat
  seed : Nat
  winLsb : Int
  readout : Readout
  readRnd : Rnd
  aOff : Nat
  bOff : Nat
  saOff : Nat
  sbOff : Nat
  biasOff : Nat
  outOff : Nat
  func : Nat
  tag : Nat
  deriving DecidableEq, Repr

/-- The derived functions of R51 Table 8. -/
inductive DerivedFn where
  | exp2 | log2 | exp | recip | rsqrt | div
  deriving DecidableEq, Repr

/-- The lane operations of R50 and R52, and the 64-lane reductions of R53. -/
inductive VecKind where
  | fma | add | mul | max | min | compare | select
  | iadd | shl | shr | band | bor | bxor | bnot
  | derived (f : DerivedFn)
  | convert (dst : Fmt) (saturate : Bool)
  | reduceSum | reduceMax | reduceMin
  deriving DecidableEq, Repr

/-- One vector instruction: registers `a`, `b`, `c` are read and `d` is written (R50). `seed` feeds the lane
generators when `rnd` is stochastic; `store` is the islet-memory offset at which the lanes of the result are written as well, if they
are (R33). -/
structure VecOp where
  kind : VecKind
  a : Nat
  b : Nat
  c : Nat
  d : Nat
  rnd : Rnd
  seed : Nat
  store : Option Nat
  deriving DecidableEq, Repr

/-- Who issues an atomic and to which device address (R54, R255). `seqr` marks a sequencer that was granted the
system area. -/
structure AtomicReq where
  islet : Nat
  addr : Nat
  ctxSlot : Nat
  seqr : Bool
  func : Nat
  tag : Nat
  deriving DecidableEq, Repr

/-- Operand types of atomic add (R55). -/
inductive AddTy where
  | int32 | int64 | fp32
  deriving DecidableEq, Repr

/-- Value types of atomic max and min (R56). -/
inductive MaxTy where
  | int32 | uint32 | fp32
  deriving DecidableEq, Repr

/-- A CMD header (R325 Table 2). `reserved` holds the reserved bits, `opcode` the OPCODE field as sent. -/
structure CmdHdr where
  opcode : Nat
  func : Nat
  fence : Bool
  channel : Nat
  tag : Nat
  srcOrd : Nat
  dstOrd : Nat
  ring : Nat
  inlineLen : Nat
  xferLen : Nat
  reserved : Nat
  deriving DecidableEq, Repr

/-- A DATA packet (R333). -/
structure DataPkt where
  func : Nat
  tag : Nat
  handle : Nat
  offset : Nat
  bytes : Body
  deriving DecidableEq, Repr

/-- A CPL packet as it reaches the bridge (R334 Table 4). -/
structure CplPkt where
  status : Nat
  func : Nat
  kind : Nat
  dupTag : Bool
  last : Bool
  channel : Nat
  tag : Nat
  srcOrd : Nat
  ring : Nat
  bodyLen : Nat
  fragOff : Nat
  time : Nat
  bytes : Body
  deriving DecidableEq, Repr

/-- An EVENT packet (R337). -/
structure EventPkt where
  code : Nat
  func : Nat
  wide : Bool
  srcOrd : Nat
  data : Nat
  time : Nat
  deriving DecidableEq, Repr

/-- A submission entry (R344 Table 7). -/
structure SqEntry where
  dstOrd : Nat
  opcode : Nat
  fence : Bool
  channel : Nat
  tag : Nat
  bodyAddr : Nat
  bodyLen : Nat
  respAddr : Nat
  respLen : Nat
  reserved : Nat
  deriving DecidableEq, Repr

/-- The frame classes of R357. -/
inductive FClass where
  | req | rsp | ctl
  deriving DecidableEq, Repr

/-- A frame as a port receives it: route header (R357 Table 2), trailer LSEQ and KEY_PHASE, and whether its CRC
and its encryption tag are good. `ptype` and `body` are the packet. -/
structure FrameIn where
  dst : Nat
  src : Nat
  cls : FClass
  vc : Nat
  mc : Bool
  group : Nat
  eseq : Nat
  lseq : Nat
  keyPhase : Nat
  crcOk : Bool
  tagOk : Bool
  ptype : Nat
  body : Body
  deriving DecidableEq, Repr

/-- What the two ends exchange at training (R365, R361, R424). -/
structure TrainInfo where
  peerOrd : Nat
  peerDims : Nat
  peerEnc : Bool
  peerBridge : Bool
  authOk : Bool
  flightNs : Nat
  laneMask : Nat
  deriving DecidableEq, Repr

/-- Why a lane is retired (R356). -/
inductive LaneCause where
  | margin | errorRate | lockLost
  deriving DecidableEq, Repr

/-- What an ECC-checked read finds (R398, R275). -/
inductive ScrubResult where
  | clean | corrected | uncorrectable
  deriving DecidableEq, Repr

/-- The contents of a T0 or T1 line that fails its check (R399). -/
inductive SramUse where
  | taskData
  | published (released : Bool)
  | centroidCopy | walkerCache
  deriving DecidableEq, Repr

/-- Where an uncorrectable weight was repaired from (R242). -/
inductive RepairSource where
  | parity | flash | replica | lost
  deriving DecidableEq, Repr

/-- A ferry descriptor (R265 Table 4). `reserved` holds its reserved bits. -/
structure FerryDesc where
  src : Nat
  dst : Nat
  len : Nat
  rowsM1 : Nat
  srcStride : Nat
  dstStride : Nat
  mode : Nat
  mergeOk : Bool
  irq : Bool
  chain : Bool
  next : Nat
  func : Nat
  ctx : Nat
  mcastSet : Nat
  reserved : Nat
  deriving DecidableEq, Repr

/-- A unit that can be fenced (R401): an islet of an island, or a whole island. -/
structure FenceUnit where
  whole : Bool
  island : Nat
  islet : Nat
  deriving DecidableEq, Repr

/-- The fence causes of R401 Table 2. -/
inductive FenceCause where
  | checkMismatch | secondUe | selfTest | request | fourIslets | selectParity | ferryFault | straitsCut
  deriving DecidableEq, Repr

/-- A reading of the power controller (R393): input voltage in 10 mV and power in W. -/
structure PowerReading where
  centiVolt : Nat
  watt : Nat
  deriving DecidableEq, Repr

/-- A reading of the coolant sensors (R395, R397). Temperatures in degrees Celsius, flow in 0.1 L/min,
`stackMax` the hottest DRAM die and `dieMax` the hottest junction of any die. -/
structure CoolReading where
  inlet : Nat
  outlet : Nat
  flow : Nat
  inPress : Nat
  outPress : Nat
  pumpHz : Nat
  stackMax : Nat
  dieMax : Nat
  inRange : Bool
  deriving DecidableEq, Repr

/-- The coolant conditions of R395 Table 5 that lead to HOLD. -/
inductive CoolCond where
  | inletHot | flowLow | pumpStopped | sensorRange
  deriving DecidableEq, Repr

/-- The two transports of MCTP (R441), which are also the two paths of SPDM (R426). -/
inductive Transport where
  | i3c | vdm
  deriving DecidableEq, Repr

/-- Names a query or any other command in flight: its function and tag (R328). -/
structure CmdRef where
  func : Nat
  tag : Nat
  deriving DecidableEq, Repr

/-- A page of the key-value cache: sequence slot, layer, head group, page number (R190). -/
structure PageRef where
  seq : Nat
  layer : Nat
  group : Nat
  page : Nat
  deriving DecidableEq, Repr

/-- An entry of a cohort step in flight, one layer and head group of it. -/
structure AttnRef where
  slot : Nat
  entry : Nat
  layer : Nat
  group : Nat
  deriving DecidableEq, Repr

/-- An entry of a ragged length table (R167 Table 3). -/
structure BwdEntry where
  seq : Nat
  qlen : Nat
  pos0 : Nat
  rowBase : Nat
  deriving DecidableEq, Repr

/-- The inputs of a backward recomputation stage of one layer (R187): the ragged length table; for each row of the step its query, output
and output gradient of all query heads, with m and L of each head, all FP32 bit patterns; and the saved page lists of the entries in
table order and head groups in ascending order. -/
structure BwdReq where
  func : Nat
  layer : Nat
  table : List BwdEntry
  q : List (List Word)
  o : List (List Word)
  dO : List (List Word)
  m : List (List Word)
  l : List (List Word)
  pages : List (List Nat)
  outObj : Nat
  deriving DecidableEq, Repr

/-- A buffer handle (R235 Table 8). -/
structure BufHandle where
  island : Nat
  buf : Nat
  half : Nat
  cohort : Nat
  stage : Nat
  layer : Nat
  mb : Nat
  rowsM1 : Nat
  deriving DecidableEq, Repr

/-- A weight tile of a cohort step: slot, layer, projection, column block and K block (R223, R224). -/
structure TileRef where
  slot : Nat
  layer : Nat
  proj : Nat
  col : Nat
  kblk : Nat
  deriving DecidableEq, Repr

/-- What an uncorrectable weight read was for (R242): a tile, the gain before attention, before the feed-forward block or of the final
norm, or the embedding row of a token. -/
inductive WeightRef where
  | tile (t : TileRef)
  | gain (layer : Nat) (second : Bool)
  | finalGain
  | embed (token : Nat)
  deriving DecidableEq, Repr

/-- A repair of an uncorrectable weight, with the source that served it (R242). -/
structure WeightRepair where
  weight : WeightRef
  src : RepairSource
  deriving DecidableEq, Repr

/-- One cycle count of each island over a 1 ms sample (R315), for the islands that a reading names. -/
structure CycleReading where
  island : Nat
  cycles : Nat
  deriving DecidableEq, Repr

/-- Energy of one 1 ms sample in µJ (R317, R318): of one island, of one stack, of links, of flash, and in all. -/
structure EnergyReading where
  perIsland : List (Nat × Nat)
  perStack : List (Nat × Nat)
  links : Nat
  flash : Nat
  total : Nat
  deriving DecidableEq, Repr

/-- Where the bytes of an XWRITE or XREAD stand at the target (R371): at ADDR, or in the place that a hardware sequencer of the target
keeps for them. The spec gives these places no addresses, so the packet names them (DESIGN CHOICE, log entry 71): the hold of a sequence
(R211), part `part` of `of` of a device's page list or of the final one (R174), the partials of one row over a split of `pages` pages whose
first is `p.page` (R181), a fresh row (R211), part 0 to 3 of a mirrored page's codes, part 4, its metadata, or part 5, its tokens (R212).
`pos` is POS0 of the entry, and the position of a fresh row. -/
inductive XPlace where
  | memory
  | hold (ctx : Nat) (seq : Nat) (on : Bool)
  | pageList (ctx : Nat) (pos : Nat) (p : PageRef) (part : Nat) (of : Nat)
  | finalList (ctx : Nat) (pos : Nat) (p : PageRef) (part : Nat) (of : Nat)
  | partials (ctx : Nat) (pos : Nat) (p : PageRef) (pages : Nat) (row : Nat)
  | fresh (ctx : Nat) (pos : Nat) (p : PageRef)
  | mirror (ctx : Nat) (p : PageRef) (part : Nat)
  | weights (w : WeightRef)
  deriving DecidableEq, Repr

/-- A received XWRITE, XREAD, XACK or XREAD_RSP (R370 Table 3). -/
structure XPkt where
  srcOrd : Nat
  func : Nat
  xid : Nat
  addr : Nat
  lenM1 : Nat
  replyAddr : Nat
  err : Bool
  data : Body
  place : XPlace
  deriving DecidableEq, Repr

/-- A REG_RD, REG_WR or REG_RSP packet (R350). -/
structure RegPkt where
  wide : Bool
  srcOrd : Nat
  rid : Nat
  addr : Nat
  data : Nat
  err : Bool
  deriving DecidableEq, Repr

/-- The commands: one constructor per row of spec/opcode_table.json, in the table's order; those without operands come last. -/
inductive Instr where
  -- registers
  | registerWrite (p : Path) (addr : Nat) (wide : Bool) (data : Nat)
  | localReset (p : Path) (page : Nat)
  | localResetDone (page : Nat)
  | blkIrqSet (p : Path) (page : Nat) (data : Nat)
  | eventsClear (p : Path) (data : Nat)
  | devtimeLoRead (p : Path)
  -- strait fabric
  | straitTransfer (here : Nat) (out : Dir) (fresh : Option Transfer) (crcOk : Bool)
  -- arithmetic
  | matrixOpIssue (islet : Nat) (op : MatOp)
  | matrixPassEnd (islet : Nat) (checkOk : Bool)
  | matrixOpComplete (islet : Nat)
  | vectorOp (islet : Nat) (v : VecOp)
  | atomicAdd (r : AtomicReq) (ty : AddTy) (x : Nat)
  | atomicMax (r : AtomicReq) (ty : MaxTy) (v : Nat) (idx : Nat)
  | atomicMin (r : AtomicReq) (ty : MaxTy) (v : Nat) (idx : Nat)
  | compareAndSwap (r : AtomicReq) (wide : Bool) (expected : Nat) (new : Nat)
  | dbgHalt (p : Path) (die : Nat) (data : Nat)
  | dbgDataRead (p : Path) (die : Nat) (word : Nat)
  -- index objects
  | indexLoad (h : CmdHdr) (b : Body)
  | indexImageCopied (idx : Nat)
  | centroidCopyBuilt (idx : Nat)
  | indexSave (h : CmdHdr) (b : Body)
  | indexSaveDone (idx : Nat)
  | indexUnload (h : CmdHdr) (b : Body)
  | indexUnloadDone (idx : Nat)
  | indexCompact (h : CmdHdr) (b : Body)
  -- search and tides
  | search (h : CmdHdr) (b : Body)
  | ingressStamp (island : Nat)
  | boundaryMarker (island : Nat)
  | probeSelectionDone (q : CmdRef)
  | setSeal (idx : Nat)
  | setScanStart (die : Nat)
  | setScanDone (island : Nat) (bad : List Nat)
  | setReportDone (island : Nat)
  | queryRoundMerged (q : CmdRef)
  | rerankDone (q : CmdRef) (unreadable : List Nat)
  | searchComplete (q : CmdRef)
  -- mutation and epochs
  | mutate (h : CmdHdr) (b : Body)
  | mutateStaging (idx : Nat)
  | epochMark (src : Nat) (epoch : Nat)
  | epochReport (src : Nat) (epoch : Nat)
  | compactPassStart (stack : Nat)
  -- selection
  | topk (h : CmdHdr) (b : Body)
  | merge (h : CmdHdr) (b : Body)
  | selectPieceDone (q : CmdRef) (row : Nat) (piece : Nat) (readable : Bool)
  | selectComplete (q : CmdRef)
  -- attention and the cache
  | pageChoiceDone (a : AttnRef) (unreadable : List Nat)
  | recomputeDone (p : PageRef)
  | attnSplitDone (a : AttnRef) (split : Nat) (rowBlock : Nat)
  | attnMerge (a : AttnRef)
  | kvAppend (slot : Nat) (entry : Nat) (layer : Nat)
  | mirrorAck (p : PageRef) (ok : Bool)
  | attnBackward (r : BwdReq)
  | spillDurable (p : PageRef) (ok : Bool)
  | t3PageReadDone (a : AttnRef) (page : Nat) (readable : Bool)
  | promotionDone (p : PageRef)
  | relocationCopyDone (p : PageRef)
  | holdExpire (seq : Nat)
  | config (h : CmdHdr) (b : Body)
  | prefetch (h : CmdHdr) (b : Body)
  | spill (h : CmdHdr) (b : Body)
  -- generation
  | modelLoad (h : CmdHdr) (b : Body)
  | modelUnload (h : CmdHdr) (b : Body)
  | seqOpen (h : CmdHdr) (b : Body)
  | seqClose (h : CmdHdr) (b : Body)
  | step (h : CmdHdr) (b : Body)
  | weightTileLanded (island : Nat) (t : TileRef)
  | swap (consumer : Nat) (b : BufHandle)
  | handleReturn (consumer : Nat) (stage : Nat) (b : BufHandle)
  | taskDispatch (island : Nat)
  | taskAge (island : Nat) (task : Nat)
  | taskEnd (islet : Nat)
  | stepCommit (slot : Nat)
  | weightRepairDone (src : WeightRepair)
  | mcastAck (sender : Nat) (receiver : Nat) (bytes : Nat)
  -- memory tiers
  | alloc (h : CmdHdr) (b : Body)
  | allocZeroed (q : CmdRef)
  | free (h : CmdHdr) (b : Body)
  | move (h : CmdHdr) (b : Body)
  | moveCopyDone (q : CmdRef)
  | promote (h : CmdHdr) (b : Body)
  | evict (h : CmdHdr) (b : Body)
  | share (h : CmdHdr) (b : Body)
  | unshare (h : CmdHdr) (b : Body)
  | parityDeltaAck (stack : Nat) (line : Nat)
  | lineRebuild (stack : Nat) (line : Nat) (ok : Bool)
  | parCfgWrite (p : Path) (die : Nat) (data : Nat)
  | dramScrubRead (stack : Nat) (line : Nat) (r : ScrubResult)
  | granuleRetire (stack : Nat) (granule : Nat)
  | stackThermalTick (stack : Nat) (temp : Nat)
  | lateRead (func : Nat) (tag : Nat)
  | ferryArm (island : Nat) (slot : Nat) (d : FerryDesc)
  | ferryGenerationStart (island : Nat)
  | ferryGenerationDone (island : Nat) (slot : Nat) (readable : Bool)
  -- flash
  | flashReadDone (unit : Nat) (retries : Nat) (readable : Bool)
  | stripeRebuild (unit : Nat) (ok : Bool)
  | flashWriteDurable (unit : Nat)
  | stripeCloseTimeout (group : Nat)
  | gcStep (channel : Nat) (block : Nat)
  | wearLevelMove (channel : Nat) (block : Nat)
  | readDisturbRelocate (channel : Nat)
  | moveMapSwitch (unit : Nat)
  | flashScrubRead (channel : Nat) (page : Nat) (r : ScrubResult)
  | flashChannelFail (channel : Nat)
  | spillCfgWrite (p : Path) (data : Nat)
  -- contexts and scheduling
  | openCtx (h : CmdHdr) (b : Body)
  | admitCtx (h : CmdHdr) (b : Body)
  | retire (h : CmdHdr) (b : Body)
  | retireDone (ctx : Nat)
  | close (h : CmdHdr) (b : Body)
  | chOpen (h : CmdHdr) (b : Body)
  | chClose (h : CmdHdr) (b : Body)
  | chCloseDone (ch : Nat)
  | funcCfgWrite (p : Path) (func : Nat) (data : Nat)
  | funcReset (p : Path) (func : Nat)
  | partitionResetKillsDone (func : Nat)
  | partitionResetDone (func : Nat)
  | preemptWaitExpire (island : Nat)
  | taskKill (islet : Nat)
  | slowSample (rs : List CycleReading)
  | energySample (r : EnergyReading)
  -- command protocol
  | nop (h : CmdHdr) (b : Body)
  | abort (h : CmdHdr) (b : Body)
  | data (d : DataPkt)
  | reservedPtypeDrop (ptype : Nat)
  | busyHintExpire (func : Nat) (queue : Option Nat)
  | regRd (r : RegPkt)
  | regWr (r : RegPkt)
  | regRsp (r : RegPkt)
  | bar2Access (off : Nat) (bytes : Nat) (write : Bool) (data : Nat)
  | regwinTimeout (rid : Nat)
  | sqTailWrite (ring : Nat) (tail : Nat)
  | sqFetch (ring : Nat) (e : SqEntry) (b : Body)
  | xferReady (srcOrd : Nat) (func : Nat) (tag : Nat) (handle : Nat) (grant : Nat)
  | busyRetry (srcOrd : Nat) (func : Nat) (tag : Nat) (cause : Nat) (hint : Nat)
  | busyResend (ring : Nat) (ord : Nat) (tag : Nat)
  | cpl (c : CplPkt)
  | event (e : EventPkt)
  | cqHeadWrite (ring : Nat) (head : Nat)
  | answerTimeout (ord : Nat)
  | pathClear (p : Path) (hi : Bool) (data : Nat)
  -- Zwinyx links
  | frame (port : Nat) (f : FrameIn)
  | ack (port : Nat) (lseq : Nat)
  | nak (port : Nat) (lseq : Nat)
  | credit (port : Nat) (cls : FClass) (vc : Nat) (transit : Bool) (units : Nat)
  | missedAck (port : Nat)
  | laneRetire (lane : Nat) (cause : LaneCause)
  | laneRejoin (lane : Nat)
  | portTrainDone (port : Nat) (t : TrainInfo)
  | trainFail (port : Nat)
  | trainRetry (port : Nat)
  | rekey (port : Nat)
  | keySpent (port : Nat)
  | portCfgWrite (p : Path) (port : Nat) (data : Nat)
  | gapHoldExpire (src : Nat) (cls : FClass) (group : Option Nat)
  | noRouteExpire (dst : Nat)
  | pathLost (srcOrd : Nat) (lost : Nat) (cause : Nat)
  | xwrite (x : XPkt)
  | xack (x : XPkt)
  | xread (x : XPkt)
  | xreadRsp (x : XPkt)
  | xresend (xid : Nat)
  -- power, clocks, cooling
  | wakePinChange (pin : Nat) (level : Bool)
  | debounceExpire (pin : Nat)
  | stuck (pin : Nat)
  | rearm (p : Path) (data : Nat)
  | watchSample (signal : Nat) (r : CoolReading)
  | powerupChecksPassed (r : CoolReading)
  | memRdy (failed : List Nat)
  | logicRdy (strap : Bool)
  | powerSample (r : PowerReading)
  | valveTick (r : CoolReading)
  | coolHoldEnter (c : CoolCond)
  | coolHoldClear (c : CoolCond)
  | enterHold (p : Path)
  | leaveHold (p : Path)
  | enterWatch (p : Path) (force : Bool)
  -- faults and recovery
  | sramScrubRead (t1 : Bool) (unit : Nat) (line : Nat) (r : ScrubResult) (use : SramUse)
  | fenceEffect (u : FenceUnit) (c : FenceCause)
  | fence (p : Path) (u : FenceUnit)
  | readmit (p : Path) (u : FenceUnit)
  | clearList (p : Path)
  | selfTestDone (u : FenceUnit) (failed : List Nat)
  | stackFail (stack : Nat)
  | coreWatchdogExpire (core : Nat)
  | coreRestartDone (core : Nat)
  -- security
  | svnCommit (p : Path)
  | eraseAll (p : Path)
  | unlockGo (p : Path)
  | getVersion (t : Transport)
  | getCapabilities (t : Transport)
  | negotiateAlgorithms (t : Transport)
  | getDigests (t : Transport)
  | getCertificate (t : Transport) (slot : Nat) (off : Nat) (len : Nat)
  | challenge (t : Transport) (slot : Nat) (nonce : Body)
  | getMeasurements (t : Transport) (index : Nat) (nonce : Body)
  | spdmUnsupportedRequest (t : Transport) (code : Nat)
  -- management
  | registerMessageRead (t : Transport) (wide : Bool) (addr : Nat)
  | registerMessageWrite (t : Transport) (wide : Bool) (addr : Nat) (data : Nat)
  | mctpControl (t : Transport) (eid : Nat)
  | mctpDiscard (t : Transport) (ty : Nat) (len : Nat)
  | pldmBaseRequest (t : Transport) (cmd : Nat)
  | pldmSensorRead (t : Transport) (id : Nat)
  | setSensorThresholds (t : Transport) (id : Nat) (warn : Nat) (crit : Nat)
  | setEventReceiver (t : Transport) (eid : Nat)
  | pollForPlatformEventMessage (t : Transport)
  | effecterWrite (t : Transport) (id : Nat) (value : Nat)
  | pldmUnsupported (t : Transport) (ty : Nat) (cmd : Nat)
  | requestUpdate (t : Transport) (imageLen : Nat)
  | requestFirmwareData (off : Nat) (chunk : Body)
  | activateFirmware (t : Transport)
  | cancelUpdate (t : Transport)
  -- rows the table lists last
  | keyExchangeDone (port : Nat) (ok : Bool)
  | rekeyRetry (port : Nat)
  -- commands without operands
  | tideBoundary
  | alignLost
  | stepBoundary
  | modelImageCopied
  | mgmtPeriod
  | vuindigSystemReadDone
  | mapJournalReplayed
  | spillRegionReady
  | residencyStarved
  | acctWindowClose
  | pcieLinkDown
  | functionLevelReset
  | d3hotEntry
  | wakeHoldExpire
  | i3cAddressMatch
  | inputGood
  | inputFail
  | auxLoss
  | auxReturn
  | regRdy
  | oscRdy
  | powerupStepTimeout
  | powerDownDone
  | resetPinAssert
  | resetPinRelease
  | perstAssert
  | perstRelease
  | thermalTrip
  | brownout
  | capTick
  | quiesceDone
  | bootVerifyDone
  | aliasCertIssued
  | unlockCheckDone
  | verifyComplete
  | applyComplete
  | updateTimeout
  | commandEngineReady
  | pcieLinkUp
  deriving DecidableEq, Repr

end Sys2Proof
end

