-- ==== Sys2Proof/Decode.lean ====
section
/-! DEFINITION. The reading of a word by the bits of spec/opcode_table.json. The table gives no row any bits: a command
of this block is a packet, a register access or an event and has no instruction word. -/

namespace Sys2Proof

/-- The command that a word spells by the table's bits: none, since no row has bits. -/
def decodeTableWord (_nbits _w : Nat) : Option Instr := none

end Sys2Proof
end

