-- ==== Sys2Proof/Config.lean ====
section
/-! DEFINITION. What an implementation fixes and the free values: constants with no body, so that no proof can see
what they are. Each is named in a row of the assumption log. A value is drawn with the state's counter `fresh`,
which the drawing step advances. -/

namespace Sys2Proof

/-- A free choice of the device where the spec leaves one open (which free granule, unit, handle or frame, which of
several ready inputs): the `n`-th draw. -/
opaque Config.pick : Nat → Nat

/-- Fresh random bits: nonces and generator output of the security root (R418, R425, R429), the `n`-th draw. -/
opaque Config.random : Nat → Nat

/-- A value the spec leaves undefined (R299: contents of released slices; R318: roundings), the `n`-th draw. -/
opaque Config.freeBits : Nat → Nat

/-- The result of 2 to the power x of R51 Table 8, within its bound of one unit in the last place. -/
opaque Config.exp2 : Word → Word

/-- The result of the base 2 logarithm of R51 Table 8. -/
opaque Config.log2 : Word → Word

/-- The result of the natural exponential of R51 Table 8. -/
opaque Config.expE : Word → Word

/-- The result of the reciprocal of R51 Table 8. -/
opaque Config.recip : Word → Word

/-- The result of the reciprocal square root of R51 Table 8. -/
opaque Config.rsqrt : Word → Word

/-- Which of two lanes whose order the spec does not state the vector unit's max or min takes (R50). -/
opaque Config.vpick : Word → Word → Word

/-- The result of the vector unit's compare, whose encoding the spec does not state (R50). -/
opaque Config.vcompare : Word → Word → Word

/-- A vector shift by 32 or more, whose result the spec does not state (R50). -/
opaque Config.vshift : Word → Word → Word

/-- The sine of a position times a rotary frequency θ in FP32 (R227), within the rule's bound of two units in the last place. -/
opaque Config.sinF : Nat → Word → Word

/-- The cosine of a position times a rotary frequency θ in FP32 (R227), within the rule's bound of two units in the last place. -/
opaque Config.cosF : Nat → Word → Word

/-- The flash block of a channel that holds a physical place: the flash geometry is not given (R279). -/
opaque Config.blockOf : Nat → Nat

/-- The die of a channel that holds a physical place (R279). -/
opaque Config.dieOf : Nat → Nat

/-- The raw size of a flash block in bytes, which the spec does not state (R279). -/
opaque Config.blockBytes : Nat

/-- Whether the `n`-th program or erase of flash fails (R288): the spec gives the block's retirement and not the failures. -/
opaque Config.flashFails : Nat → Bool

/-- The number of reads at which a flash block passes its disturb threshold, which the spec does not state (R287). -/
opaque Config.disturb : Nat

/-- One less than the number of transfers that an input of a strait router holds, which the spec does not state (R17). -/
opaque Config.straitRoom : Nat

/-- The sorted runs that the system area of a lagoon has room for, which the spec does not state (R253). -/
opaque Config.sysRuns : Nat

/-- Where the operands of a sequencer task lie in the system area of its island's lagoon, as offset and length: the spec names the area
alone (R307). -/
opaque Config.seqRange : Nat → Nat × Nat

/-- What AES-256-XTS gives for a byte of a 16-byte block of flash that was enciphered under one at-rest key (first argument) and is
deciphered under another (second argument): the block's number, which holds the tweak and the place in the unit, the block as it was
enciphered, and the byte's place in it (R291). -/
opaque Config.xtsByte : Option Nat → Option Nat → Nat → List Byte → Nat → Byte

/-- What AES-256-GCM makes of a packet: its ciphertext and its tag, for a key, the 96-bit IV, the additional authenticated data and the packet
(R361). -/
opaque Config.gcmSeal : Nat → Nat → List Byte → List Byte → List Byte × List Byte

/-- TASK_ID of an array operation of a search, which the spec does not number (R41): for an index and a shoal that is scanned, or an
index and an island that scores its centroids, told apart by the first argument. -/
opaque Config.searchTask : Bool → Nat → Nat → Nat

/-- SHA-384 of a byte string. -/
opaque Config.sha384 : List Byte → List Byte

/-- An ECDSA P-384 signature by the private key of a public key (first argument) over a byte string. -/
opaque Config.sign : List Byte → List Byte → List Byte

/-- Whether a signature (third argument) over a byte string (second) verifies under a public key (R415). -/
opaque Config.verify : List Byte → List Byte → List Byte → Bool

/-- The public key of firmware signing key `k`, which the boot ROM compares with its fused hash (R414, R419). -/
opaque Config.signKey : Nat → List Byte

/-- The public key of the debug authority (R414). -/
opaque Config.debugKey : List Byte

/-- The alias public key of this part for a CDI input: the firmware digest and the running SVN (R416). -/
opaque Config.aliasKey : List Byte → List Byte

/-- The certificates of the root and the product CA, in DER (R417). -/
opaque Config.caCerts : List Byte

/-- The alias certificate for an alias key and the CDI input that its extension carries (R416, R417). -/
opaque Config.aliasCert : List Byte → List Byte → List Byte

/-- The boot ROM's bytes (R427). -/
opaque Config.bootRom : List Byte

end Sys2Proof
end

