-- ==== Sys2Proof/Machine/Float.lean ====
section
/-! DEFINITION. The number formats of R25 to R29, exact products and sums, and the roundings of R39 and R50: every result
is computed exactly as an integer times a power of two and narrowed once. -/

namespace Sys2Proof.Machine

/-- A decoded number: NaN, an infinity, or `± m × 2^e`. -/
inductive Fv where
  | nan
  | inf (neg : Bool)
  | fin (neg : Bool) (m : Nat) (e : Int)
  deriving DecidableEq, Repr

/-- A floating-point format of R26 Table 1. `top` is the magnitude pattern of the largest finite value; `inf` and `nan`
the magnitude patterns of infinity and of the NaN the device produces, where the format has them. The spec fixes the NaN
produced in FP32 alone: the patterns of E4M3, E5M2, FP16 and BF16 are the model's choice (DESIGN CHOICE, log entry 62). -/
structure FpFmt where
  eb : Nat
  mb : Nat
  bias : Nat
  top : Nat
  inf : Option Nat
  nan : Option Nat
  deriving DecidableEq, Repr

def fp4Fmt : FpFmt := { eb := 2, mb := 1, bias := 1, top := 7, inf := none, nan := none }
def e4m3Fmt : FpFmt := { eb := 4, mb := 3, bias := 7, top := 0x7E, inf := none, nan := some 0x7F }
def e5m2Fmt : FpFmt := { eb := 5, mb := 2, bias := 15, top := 0x7B, inf := some 0x7C, nan := some 0x7F }
def fp16Fmt : FpFmt := { eb := 5, mb := 10, bias := 15, top := 0x7BFF, inf := some 0x7C00, nan := some 0x7E00 }
def bf16Fmt : FpFmt := { eb := 8, mb := 7, bias := 127, top := 0x7F7F, inf := some 0x7F80, nan := some 0x7FC0 }
def fp32Fmt : FpFmt := { eb := 8, mb := 23, bias := 127, top := 0x7F7FFFFF, inf := some 0x7F800000, nan := some 0x7FC00000 }

/-- The exponent of the smallest normal number. -/
def FpFmt.emin (f : FpFmt) : Int := 1 - (f.bias : Int)

/-- The sign weight of a format. -/
def FpFmt.signW (f : FpFmt) : Nat := 2 ^ (f.eb + f.mb)

/-- Decodes a bit pattern; subnormals are kept (R27). -/
def FpFmt.decode (f : FpFmt) (w : Nat) : Fv :=
  let neg := decide (w / f.signW % 2 = 1)
  let mag := w % f.signW
  if mag > f.top then
    (match f.inf with
      | some i => if mag = i then .inf neg else .nan
      | none => .nan)
  else
    let ex := mag / 2 ^ f.mb
    let man := mag % 2 ^ f.mb
    if ex = 0 then .fin neg man (f.emin - f.mb)
    else .fin neg (2 ^ f.mb + man) ((ex : Int) - f.bias - f.mb)

/-- How a result is rounded: to nearest with ties to even, or stochastically with 16 random bits. -/
inductive RndBits where
  | near
  | stoch (r : Nat)
  deriving DecidableEq, Repr

/-- Rounds the magnitude `m × 2^e`, `m > 0`, to `f` without an upper limit: units and their exponent. -/
def FpFmt.roundMag (f : FpFmt) (m : Nat) (e : Int) (r : RndBits) : Nat × Int :=
  let p : Int := (Nat.log2 m : Int) + e
  let ue : Int := max p f.emin - f.mb
  if e ≥ ue then (m * 2 ^ (e - ue).toNat, ue)
  else
    let sh := (ue - e).toNat
    let q := m / 2 ^ sh
    let rem := m % 2 ^ sh
    let up := match r with
      | .near => decide (2 * rem > 2 ^ sh) || (decide (2 * rem = 2 ^ sh) && decide (q % 2 = 1))
      | .stoch b => decide (rem * 65536 / 2 ^ sh + b ≥ 65536)
    (if up then q + 1 else q, ue)

/-- The magnitude pattern of `q` units of exponent `ue`, which may lie above the format's largest finite one. -/
def FpFmt.pack (f : FpFmt) (q : Nat) (ue : Int) : Nat :=
  if q < 2 ^ f.mb then q
  else if q ≥ 2 ^ (f.mb + 1) then ((ue + 1 + f.mb + f.bias).toNat * 2 ^ f.mb) + (q / 2 - 2 ^ f.mb)
  else ((ue + f.mb + f.bias).toNat * 2 ^ f.mb) + (q - 2 ^ f.mb)

/-- What a magnitude that passes the largest finite value becomes. -/
inductive Over where
  | toInf | saturate
  deriving DecidableEq, Repr

/-- Whether the magnitude `m × 2^e` exceeds the format's largest finite value exactly. -/
def FpFmt.exceeds (f : FpFmt) (m : Nat) (e : Int) : Bool :=
  let te : Int := ((f.top / 2 ^ f.mb : Nat) : Int) - f.bias - f.mb
  let tm := 2 ^ f.mb + f.top % 2 ^ f.mb
  if e ≥ te then decide (m * 2 ^ (e - te).toNat > tm) else decide (m > tm * 2 ^ (te - e).toNat)

/-- The bit pattern of a value in a format (R26, R39, R52). A format without an infinity gives its largest finite value also where
saturation is off, since R52 names E5M2, FP16 and BF16 alone (DESIGN CHOICE, log entry 62). -/
def FpFmt.encode (f : FpFmt) (v : Fv) (r : RndBits) (o : Over) : Nat :=
  let sgn (n : Bool) : Nat := if n then f.signW else 0
  match v with
  | .nan => f.nan.getD 0
  | .inf n => sgn n + (match o, f.inf with
      | .toInf, some i => i
      | _, _ => f.top)
  | .fin n m e =>
    if m = 0 then sgn n
    else
      let (q, ue) := f.roundMag m e r
      let mag := f.pack q ue
      let tooBig := decide (mag > f.top) || (match r with
        | .near => false
        | .stoch _ => f.exceeds m e)
      sgn n + (if tooBig then (match o, f.inf with
        | .toInf, some i => i
        | _, _ => f.top) else mag)

/-- The exact product (R27). -/
def Fv.mul : Fv → Fv → Fv
  | .nan, _ => .nan
  | _, .nan => .nan
  | .inf a, .inf b => .inf (a != b)
  | .inf a, .fin b m _ => if m = 0 then .nan else .inf (a != b)
  | .fin a m _, .inf b => if m = 0 then .nan else .inf (a != b)
  | .fin a m e, .fin b n g => .fin (a != b) (m * n) (e + g)

/-- The signed integer of a finite value over the exponent `g ≤ e`. -/
def scaleTo (neg : Bool) (m : Nat) (e g : Int) : Int :=
  let x : Int := ((m * 2 ^ (e - g).toNat : Nat) : Int)
  if neg then -x else x

/-- The exact sum; an exact zero is +0 unless both terms are −0 (R27). So −0 plus an exact +0 product is +0 by R27, where R38 leaves the
other operand unchanged: the model follows R27 (DESIGN CHOICE, log entry 62). -/
def Fv.add : Fv → Fv → Fv
  | .nan, _ => .nan
  | _, .nan => .nan
  | .inf a, .inf b => if a = b then .inf a else .nan
  | .inf a, .fin _ _ _ => .inf a
  | .fin _ _ _, .inf b => .inf b
  | .fin a m e, .fin b n g =>
    let k := min e g
    let x := scaleTo a m e k + scaleTo b n g k
    if x = 0 then .fin (a && b && decide (m = 0) && decide (n = 0)) 0 0
    else .fin (decide (x < 0)) x.natAbs k

/-- The negation. -/
def Fv.neg : Fv → Fv
  | .nan => .nan
  | .inf a => .inf (!a)
  | .fin a m e => .fin (!a) m e

/-- The exact value of an integer. -/
def Fv.ofInt (x : Int) : Fv := .fin (decide (x < 0)) x.natAbs 0

/-- Compares two finite or infinite values: whether `a < b`. A NaN compares as false. -/
def Fv.lt : Fv → Fv → Bool
  | .nan, _ => false
  | _, .nan => false
  | .inf a, .inf b => a && !b
  | .inf a, .fin _ _ _ => a
  | .fin _ _ _, .inf b => !b
  | .fin a m e, .fin b n g => decide (scaleTo a m e (min e g) < scaleTo b n g (min e g))

/-- Two values are equal as numbers; −0 equals +0. -/
def Fv.same : Fv → Fv → Bool
  | .nan, .nan => true
  | .inf a, .inf b => a == b
  | .fin a m e, .fin b n g => decide (scaleTo a m e (min e g) = scaleTo b n g (min e g))
  | _, _ => false

/-! ## FP32 words, rounded to nearest with ties to even -/

/-- The value of an FP32 pattern. -/
def f32 (w : Nat) : Fv := fp32Fmt.decode w

/-- The FP32 pattern of a value, to nearest. -/
def toF32 (v : Fv) : Nat := fp32Fmt.encode v .near .toInf

def fAdd (a b : Nat) : Nat := toF32 ((f32 a).add (f32 b))
def fSub (a b : Nat) : Nat := toF32 ((f32 a).add (f32 b).neg)
def fMul (a b : Nat) : Nat := toF32 ((f32 a).mul (f32 b))
def fFma (a b c : Nat) : Nat := toF32 (((f32 a).mul (f32 b)).add (f32 c))
def fLt (a b : Nat) : Bool := (f32 a).lt (f32 b)
def fNeg (a : Nat) : Nat := toF32 (f32 a).neg
def fOfInt (x : Int) : Nat := toF32 (Fv.ofInt x)
def fIsNan (a : Nat) : Bool := f32 a == .nan
def fIsInf (a : Nat) : Bool := match f32 a with
  | .inf _ => true
  | _ => false

/-- Whether the FP32 pattern `w` lies within `k` units in the last place of every real from `lo` to `hi` times `2^sc`, of the sign
`neg`: the unit is the spacing of FP32 there. -/
def withinUnits (k w : Nat) (neg : Bool) (lo hi : Nat) (sc : Int) : Bool :=
  match f32 w with
  | .fin n m e =>
    let u : Int := max ((Nat.log2 hi : Int) + sc) fp32Fmt.emin - 23
    let g := min (min e u) sc
    let y := m * 2 ^ (e - g).toNat
    let t := k * 2 ^ (u - g).toNat
    n == neg && decide (y ≤ lo * 2 ^ (sc - g).toNat + t) && decide (hi * 2 ^ (sc - g).toNat ≤ y + t)
  | _ => false

/-- A free value where it lies within `k` units of the real number that `lo` and `hi` times `2^sc` enclose, else that number rounded to
nearest: the bound of R51 Table 8 holds whatever the free value is. -/
def withinUlp (k free : Nat) (neg : Bool) (lo hi : Nat) (sc : Int) : Nat :=
  if withinUnits k free neg lo hi sc then free else toF32 (.fin neg (lo * 2 + 1) (sc - 1))

/-- The FP32 pattern nearest to the rational `n / d`, `d > 0`: the quotient is taken with 64 extra bits and a sticky bit. -/
def toF32Ratio (neg : Bool) (n d : Nat) (e : Int) : Nat :=
  if n = 0 then (if neg then 2 ^ 31 else 0)
  else
    let q := n * 2 ^ 64 / d
    let st := if n * 2 ^ 64 % d = 0 then 0 else 1
    toF32 (.fin neg (q * 2 + st) (e - 65))

/-- The reciprocal of R51: within one unit in the last place; 1/±0 is ±∞. -/
def fRecip (w : Nat) : Nat :=
  match f32 w with
  | .nan => 0x7FC00000
  | .inf n => if n then 0x80000000 else 0
  | .fin n m e =>
    if m = 0 then (if n then 0xFF800000 else 0x7F800000)
    else withinUlp 1 (Config.recip (BitVec.ofNat 32 w)).toNat n (2 ^ 128 / m) (2 ^ 128 / m + 1) (-128 - e)

/-- The reciprocal square root of R51: within one unit in the last place. Table 8 gives it no edges: that ±0 gives the infinity of its sign
and a negative number NaN is the model's choice (DESIGN CHOICE, log entry 62). -/
def fRsqrt (w : Nat) : Nat :=
  match f32 w with
  | .nan => 0x7FC00000
  | .inf n => if n then 0x7FC00000 else 0
  | .fin n m e =>
    if m = 0 then (if n then 0xFF800000 else 0x7F800000)
    else if n then 0x7FC00000
    else
      let (m2, e2) := if e % 2 = 0 then (m, e) else (m * 2, e - 1)
      let q := Nat.sqrt (2 ^ 240 / m2)
      withinUlp 1 (Config.rsqrt (BitVec.ofNat 32 w)).toNat false q (q + 2) (-120 - e2 / 2)

/-- Division of R51, computed as x · (1/y), within two units in the last place. Where an operand is NaN, infinite or zero the product has
its edge by R27. -/
def fDiv (a b : Nat) : Nat :=
  match f32 a, f32 b with
  | .fin n m e, .fin k d g =>
    if m = 0 ∨ d = 0 then fMul a (fRecip b)
    else withinUlp 2 (fMul a (fRecip b)) (n != k) (m * 2 ^ 128 / d) (m * 2 ^ 128 / d + 1) (e - g - 128)
  | _, _ => fMul a (fRecip b)

/-- The natural logarithm of 2 in units of 2^-160, rounded down. -/
def ln2 : Nat := 1013035739299659071135698605846798551586536899366

/-- The sum of `n` terms of the exponential series from term `k` on, in units of 2^-160, rounded down term by term: `t` is the term
before and `x` the argument. -/
def expSeries (x : Nat) : Nat → Nat → Nat → Nat
  | 0, _, _ => 0
  | n + 1, k, t => let u := t * x / 2 ^ 160 / k; u + expSeries x n (k + 1) u

/-- 2 to the power `f` in units of 2^-160, for a fraction `f` in the same units, to within 2^-140. -/
def exp2Frac (f : Nat) : Nat := 2 ^ 160 + expSeries (f * ln2 / 2 ^ 160) 45 1 (2 ^ 160)

/-- 2 to the power of a number in units of 2^-160 that the arguments enclose within one unit, as a free value within `k` units in the last
place. Above 127 times the largest finite value it is infinite. -/
def exp2Of (k free : Nat) (x : Int) : Nat :=
  let n := x / 2 ^ 160
  if n ≥ 128 then 0x7F800000
  else if n < -200 then withinUlp k free false 0 1 (-160)
  else
    let q := exp2Frac (x % 2 ^ 160).toNat
    withinUlp k free false (q - 2 ^ 12) (q + 2 ^ 16) (n - 160)

/-- A finite number in units of 2^-160, rounded down. -/
def toFixed (n : Bool) (m : Nat) (e : Int) : Int :=
  let x : Int := ((if e + 160 ≥ 0 then m * 2 ^ (e + 160).toNat else m / 2 ^ (-e - 160).toNat : Nat) : Int)
  if n then -x else x

/-- 2 to the power x (R51), within one unit in the last place, with its edges. -/
def fExp2 (w : Nat) : Nat :=
  match f32 w with
  | .inf true => 0
  | .inf false => 0x7F800000
  | .nan => 0x7FC00000
  | .fin n m e =>
    if Fv.lt (.fin false 256 0) (.fin false m e) then
      (if n then exp2Of 1 (Config.exp2 (BitVec.ofNat 32 w)).toNat (-(256 * 2 ^ 160)) else 0x7F800000)
    else exp2Of 1 (Config.exp2 (BitVec.ofNat 32 w)).toNat (toFixed n m e)

/-- The sum of `n` terms of the series of the inverse hyperbolic tangent from the odd power `k` on, in units of 2^-160: `t` is that power
of the argument and `z2` its square. -/
def atanhSeries (z2 : Nat) : Nat → Nat → Nat → Nat
  | 0, _, _ => 0
  | n + 1, k, t => t / k + atanhSeries z2 n (k + 2) (t * z2 / 2 ^ 160)

/-- The base 2 logarithm of `m / 2^l` from 1 to 2, in units of 2^-160, to within 2^-140. -/
def log2Frac (m l : Nat) : Nat :=
  let z := (m - 2 ^ l) * 2 ^ 160 / (m + 2 ^ l)
  2 * atanhSeries (z * z / 2 ^ 160) 60 1 z * 2 ^ 160 / ln2

/-- The base 2 logarithm (R51), within one unit in the last place, with its edges. -/
def fLog2 (w : Nat) : Nat :=
  match f32 w with
  | .nan => 0x7FC00000
  | .inf n => if n then 0x7FC00000 else 0x7F800000
  | .fin n m e =>
    if m = 0 then 0xFF800000
    else if n then 0x7FC00000
    else
      let l := Nat.log2 m
      let x : Int := ((l : Int) + e) * 2 ^ 160 + (log2Frac m l : Int)
      if x ≥ 0 then withinUlp 1 (Config.log2 (BitVec.ofNat 32 w)).toNat false x.toNat (x.toNat + 2 ^ 16) (-160)
      else withinUlp 1 (Config.log2 (BitVec.ofNat 32 w)).toNat true (x.natAbs - 2 ^ 16) x.natAbs (-160)

/-- The natural exponential (R51), within two units in the last place: +∞ above 88.73. -/
def fExp (w : Nat) : Nat :=
  match f32 w with
  | .nan => 0x7FC00000
  | .inf n => if n then 0 else 0x7F800000
  | .fin n m e => if Fv.lt (.fin false 8873 0) ((Fv.fin n m e).mul (.fin false 100 0)) then 0x7F800000
    else if Fv.lt (.fin false 256 0) (.fin false m e) then exp2Of 2 (Config.expE (BitVec.ofNat 32 w)).toNat (-(256 * 2 ^ 160))
    else exp2Of 2 (Config.expE (BitVec.ofNat 32 w)).toNat (toFixed n m e * 2 ^ 160 / (ln2 : Int))

/-- 2π in units of 2^-400, rounded down. -/
def twoPi : Nat := 16224754493461942477724542702601789038322303200358530407182382075230461810747980997491046721853633630855133559454655152472

/-- The angle `n × w` of the FP32 number `w`, formed exactly and reduced modulo 2π to 64 bits, of which 61 are behind the point (R227; the
place of the point is a DESIGN CHOICE, log entry 15). None where `w` is no finite number. -/
def angleOf (n w : Nat) : Option Nat :=
  match f32 w with
  | .fin s m e =>
    let a := n * m * 2 ^ (e + 400).toNat % twoPi
    some ((if s then twoPi - a else a) / 2 ^ 339)
  | _ => none

/-- The sum of `n` terms of the series of the sine or cosine from the power `k` on, in units of 2^-160: `t` is the term at that power and
`x2` the square of the argument. -/
def trigSeries (x2 : Nat) : Nat → Nat → Nat → Int
  | 0, _, _ => 0
  | n + 1, k, t => (t : Int) - trigSeries x2 n (k + 2) (t * x2 / 2 ^ 160 / ((k + 1) * (k + 2)))

/-- The sine or cosine of an angle as a free value within two units in the last place (R227). For an angle that is no number the rule
states no value, and it is free. -/
def trigOf (sine : Bool) (free : Nat) (angle : Option Nat) : Nat :=
  match angle with
  | none => free
  | some a =>
    let x := a * 2 ^ 99
    let v := if sine then trigSeries (x * x / 2 ^ 160) 60 1 x else trigSeries (x * x / 2 ^ 160) 60 0 (2 ^ 160)
    let err := if a = 0 then 0 else 2 ^ 20
    withinUlp 2 free (decide (v < 0)) (v.natAbs - err) (v.natAbs + err) (-160)

/-! ## Conversions (R52) -/

/-- A value rounded to an integer. -/
def Fv.toIntRnd (v : Fv) (r : RndBits) (lo hi : Int) : Int :=
  match v with
  | .nan => 0
  | .inf n => if n then lo else hi
  | .fin n m e =>
    let q : Nat := if e ≥ 0 then m * 2 ^ e.toNat
      else
        let sh := (-e).toNat
        let f := m / 2 ^ sh
        let rem := m % 2 ^ sh
        let up := match r with
          | .near => decide (2 * rem > 2 ^ sh) || (decide (2 * rem = 2 ^ sh) && decide (f % 2 = 1))
          | .stoch b => decide (rem * 65536 / 2 ^ sh + b ≥ 65536)
        if up then f + 1 else f
    let x : Int := if n then -(q : Int) else q
    max lo (min hi x)

/-- The two's-complement pattern of an integer in `w` bits. -/
def intBits (w : Nat) (x : Int) : Nat := (x % (2 ^ w : Int)).toNat

/-- The integer of a two's-complement pattern of `w` bits. -/
def bitsInt (w v : Nat) : Int := if v % 2 ^ w ≥ 2 ^ (w - 1) then ((v % 2 ^ w : Nat) : Int) - 2 ^ w else ((v % 2 ^ w : Nat) : Int)

/-- The floating-point format behind an element format, if it has one. -/
def fmtFp : Fmt → Option FpFmt
  | .fp4 => some fp4Fmt
  | .mxfp4 => some fp4Fmt
  | .e4m3 => some e4m3Fmt
  | .mxfp8 => some e4m3Fmt
  | .e5m2 => some e5m2Fmt
  | .mxfp8e5 => some e5m2Fmt
  | .bf16 => some bf16Fmt
  | .fp16 => some fp16Fmt
  | .fp32 => some fp32Fmt
  | _ => none

/-- The width of an element in bits. -/
def fmtBits : Fmt → Nat
  | .int4 => 4
  | .fp4 => 4
  | .mxfp4 => 4
  | .mxfp6 => 6
  | .int8 => 8
  | .e4m3 => 8
  | .e5m2 => 8
  | .mxint8 => 8
  | .mxfp8 => 8
  | .mxfp8e5 => 8
  | .bf16 => 16
  | .fp16 => 16
  | .fp32 => 32
  | .int32 => 32

/-- The value of an element (R25, R26, R28). -/
def fmtDecode (f : Fmt) (w : Nat) : Fv :=
  match fmtFp f with
  | some p => p.decode w
  | none => match f with
    | .mxint8 => (Fv.ofInt (bitsInt 8 w)).mul (.fin false 1 (-6))
    | _ => Fv.ofInt (bitsInt (fmtBits f) w)

/-- The pattern of a value converted to a format (R52). -/
def fmtEncode (f : Fmt) (v : Fv) (r : RndBits) (sat : Bool) : Nat :=
  match fmtFp f with
  | some p => p.encode v r (if sat then .saturate else .toInf)
  | none =>
    let v1 := if f = .mxint8 then v.mul (.fin false 64 0) else v
    let w := fmtBits f
    intBits w (v1.toIntRnd r (-(2 ^ (w - 1) : Int)) (2 ^ (w - 1) - 1))

/-- An E8M0 scale; 0xFF is NaN (R26). -/
def e8m0 (w : Nat) : Fv := if w % 256 = 0xFF then .nan else .fin false 1 ((w % 256 : Nat) - 127)

/-! ## The generators of R40 and R41 -/

/-- One step of a column generator: the bit out and the next state. -/
def lfsrStep (st : Nat) : Nat × Nat :=
  let out := st % 2
  let s1 := st / 2
  (out, if out = 1 then s1 ^^^ 0x80200003 else s1)

/-- `n` steps: the bits out, first bit most significant. -/
def lfsrBits : Nat → Nat → Nat → Nat × Nat
  | 0, acc, st => (acc, st)
  | n + 1, acc, st => let (b, s1) := lfsrStep st; lfsrBits n (acc * 2 + b) s1

/-- One draw of 16 random bits (R40). -/
def draw16 (st : Nat) : Nat × Nat := lfsrBits 16 0 st

/-- The state of generator `n` for a seed (R41). -/
def genState (seed n : Nat) : Nat :=
  let x := seed ^^^ (n * 0x85EBCA6B % 2 ^ 32)
  if x = 0 then 1 else x

/-- Rotation left of a 32-bit word. -/
def rotl32 (x n : Nat) : Nat := (x * 2 ^ n % 2 ^ 32) + x % 2 ^ 32 / 2 ^ (32 - n)

/-- The seed of an operation from the context seed, its task's number and its tile's place (R41). -/
def opSeed (ctxSeed task row col : Nat) : Nat :=
  let c := (row % 65536) * 65536 + col % 65536
  (ctxSeed ^^^ (task * 0x9E3779B9 % 2 ^ 32)) ^^^ rotl32 c 13

end Sys2Proof.Machine
end

