-- ==== Sys2Proof/Machine/RegMap.lean ====
section
/-! DEFINITION. The register map: the page index of R439 Table 5 and one row for every register of the page
tables of the chapters (spec/02 to spec/18), with its access code (R11), its reset word, the bits software may
write, the bits a local reset keeps (R437) and the ranges of its fields. -/

namespace Sys2Proof

/-- The access codes of R11 Table 2. -/
inductive Access where
  | ro | cnt | rw | wo | w1c
  deriving DecidableEq, Repr

/-- The range a field of a register accepts; `mult` is the unit a value must be a multiple of. -/
structure FieldRange where
  hi : Nat
  lo : Nat
  min : Nat
  max : Nat
  mult : Nat
  deriving DecidableEq, Repr

/-- One row of a register page table: `cnt` consecutive words from offset `off` of a page of block type `page`. -/
structure RegRow where
  page : Nat
  off : Nat
  cnt : Nat
  acc : Access
  reset : Nat
  wmask : Nat
  keep : Nat
  ranges : List FieldRange
  deriving DecidableEq, Repr

/-- One row of the page index, R439 Table 5. -/
structure PageRow where
  typ : Nat
  base : Nat
  insts : Nat
  bridgeOnly : Bool
  irqLow : Nat
  owned : Bool
  expert : Bool
  deriving DecidableEq, Repr

/-- R439 Table 5: type, base, number of pages, bridge only, implemented interrupt bits 0 to 3, holds
management-owned fields (R434 Table 1), has registers at 0x400 and above. -/
def pageTable : List PageRow := [
  ⟨0x01, 0x000000, 1, false, 0, false, false⟩,
  ⟨0x02, 0x001000, 1, false, 0, true, true⟩,
  ⟨0x03, 0x002000, 1, false, 1, true, true⟩,
  ⟨0x04, 0x003000, 1, false, 3, true, true⟩,
  ⟨0x05, 0x004000, 1, false, 0, true, true⟩,
  ⟨0x06, 0x005000, 1, false, 0, true, true⟩,
  ⟨0x07, 0x006000, 1, false, 7, true, true⟩,
  ⟨0x08, 0x007000, 1, false, 0, false, false⟩,
  ⟨0x09, 0x008000, 1, false, 0, false, false⟩,
  ⟨0x0A, 0x009000, 1, false, 0, false, true⟩,
  ⟨0x0B, 0x00A000, 1, false, 0, false, true⟩,
  ⟨0x0C, 0x00B000, 1, false, 0, false, true⟩,
  ⟨0x0D, 0x00C000, 1, false, 0, true, true⟩,
  ⟨0x0E, 0x00D000, 1, false, 0, true, true⟩,
  ⟨0x0F, 0x00E000, 1, false, 0, true, true⟩,
  ⟨0x10, 0x00F000, 1, true, 0, false, true⟩,
  ⟨0x11, 0x010000, 16, false, 1, false, false⟩,
  ⟨0x12, 0x020000, 8, false, 0, false, true⟩,
  ⟨0x13, 0x028000, 4, false, 0, false, true⟩,
  ⟨0x14, 0x02C000, 4, false, 0, false, true⟩,
  ⟨0x15, 0x030000, 5, false, 0, false, true⟩,
  ⟨0x16, 0x038000, 4, false, 0, false, true⟩,
  ⟨0x17, 0x03C000, 4, false, 0, false, false⟩,
  ⟨0x18, 0x040000, 32, false, 0, false, true⟩,
  ⟨0x19, 0x100000, 256, true, 0, false, false⟩,
  ⟨0x1A, 0x200000, 512, false, 1, false, true⟩]

namespace Reg

/-! Addresses of the DEV registers within the register space of R439. -/
def devPart : Nat := 0x000040
def devIdent : Nat := 0x000044
def devIrqTypes : Nat := 0x000048
def devPages : Nat := 0x00004C

/-! Addresses of the MGMT registers within the register space of R439. -/
def mgmtStat : Nat := 0x001040
def mgmtEid : Nat := 0x001044
def mgmtDieTemp0 : Nat := 0x001048
def mgmtDieTemp1 : Nat := 0x00104C
def mgmtMctpRxCnt : Nat := 0x001050
def mgmtMctpDropCnt : Nat := 0x001054
def mgmtHostDenyCnt : Nat := 0x001058
def mgmtEventDropCnt : Nat := 0x00105C
def mgmtTelemOverrunCnt : Nat := 0x001060
def mgmtMgmtCfg : Nat := 0x001400
def mgmtTelemCfg : Nat := 0x001404

/-! Addresses of the PWR registers within the register space of R439. -/
def pwrStat : Nat := 0x002040
def pwrEvents : Nat := 0x002044
def pwrLastDown : Nat := 0x002048
def pwrInput : Nat := 0x00204C
def pwrCoolStat : Nat := 0x002050
def pwrPress : Nat := 0x002054
def pwrPumpHz : Nat := 0x002058
def pwrDevtimeLo : Nat := 0x00205C
def pwrDevtimeHi : Nat := 0x002060
def pwrWakeStat : Nat := 0x002064
def pwrGlitchCnt : Nat := 0x002068
def pwrWakeCnt : Nat := 0x00206C
def pwrCapCnt : Nat := 0x002070
def pwrHoldCnt : Nat := 0x002074
def pwrTripCnt : Nat := 0x002078
def pwrBrownoutCnt : Nat := 0x00207C
def pwrCoolWarnCnt : Nat := 0x002080
def pwrReq : Nat := 0x0020C0
def pwrCap : Nat := 0x002400
def pwrWatchCfg : Nat := 0x002404
def pwrWakeCfg (k : Nat) : Nat := 0x002408 + 4 * k
def pwrWakeCtl : Nat := 0x002418
def pwrCoolCfg : Nat := 0x00241C

/-! Addresses of the FAULT registers within the register space of R439. -/
def faultStat : Nat := 0x003040
def faultStackFailed : Nat := 0x003044
def faultLogSel : Nat := 0x003048
def faultLogData (k : Nat) : Nat := 0x00304C + 4 * k
def faultLogSeq : Nat := 0x00306C
def faultFenceCnt : Nat := 0x003070
def faultReadmitCnt : Nat := 0x003074
def faultT0CeCnt : Nat := 0x003078
def faultT0UeCnt : Nat := 0x00307C
def faultT1CeCnt : Nat := 0x003080
def faultT1UeCnt : Nat := 0x003084
def faultXferCrcCnt : Nat := 0x003088
def faultStraitCutCnt : Nat := 0x00308C
def faultCoreRestartCnt : Nat := 0x003090
def faultStackFailCnt : Nat := 0x003094
def faultLogLostCnt : Nat := 0x003098
def faultIslandFence (k : Nat) : Nat := 0x003100 + 4 * k
def faultFenceSel : Nat := 0x003140
def faultFenceIslets : Nat := 0x003144
def faultFenceCtl : Nat := 0x003400
def faultFenceCfg : Nat := 0x003404

/-! Addresses of the SEC registers within the register space of R439. -/
def secStat : Nat := 0x004040
def secUidLo : Nat := 0x004044
def secUidHi : Nat := 0x004048
def secSvn : Nat := 0x00404C
def secNonce (k : Nat) : Nat := 0x004050 + 4 * k
def secBootFailCnt : Nat := 0x004060
def secUnlockFailCnt : Nat := 0x004064
def secPeerAuthFailCnt : Nat := 0x004068
def secRekeyCnt : Nat := 0x00406C
def secUnlockBuf (k : Nat) : Nat := 0x004100 + 4 * k
def secCfg : Nat := 0x004400
def secCtl : Nat := 0x004404

/-! Addresses of the CMD registers within the register space of R439. -/
def cmdStat : Nat := 0x005040
def cmdLive : Nat := 0x005044
def cmdCmdCnt : Nat := 0x005048
def cmdCplCnt : Nat := 0x00504C
def cmdBusyRetryCnt : Nat := 0x005050
def cmdTagInUseCnt : Nat := 0x005054
def cmdDataDropCnt : Nat := 0x005058
def cmdPtypeDropCnt : Nat := 0x00505C
def cmdAbortedCnt : Nat := 0x005060
def cmdTooLateCnt : Nat := 0x005064
def cmdAnswerMaxNs : Nat := 0x005068
def cmdIntakeUsed : Nat := 0x00506C
def cmdIntakeCfg : Nat := 0x005400
def cmdRetryCfg : Nat := 0x005404

/-! Addresses of the SCHED registers within the register space of R439. -/
def schedStat : Nat := 0x006040
def schedSwitchCnt : Nat := 0x006044
def schedKillCnt : Nat := 0x006048
def schedPreemptCnt : Nat := 0x00604C
def schedStarveCnt : Nat := 0x006050
def schedSlowEvCnt : Nat := 0x006054
def schedMcastDetachCnt : Nat := 0x006058
def schedGenPredNoneCnt : Nat := 0x00605C
def schedGenDeadlineMissCnt : Nat := 0x006060
def schedAcctWindowLo : Nat := 0x006064
def schedAcctWindowHi : Nat := 0x006068
def schedSlow (k : Nat) : Nat := 0x006080 + 4 * k
def schedCtxSlot (k : Nat) : Nat := 0x0060C0 + 4 * k
def schedAcctSel : Nat := 0x0060E0
def schedAcctData (k : Nat) : Nat := 0x006100 + 4 * k
def schedFuncCfg (k : Nat) : Nat := 0x006400 + 4 * k
def schedFlowCh (k : Nat) : Nat := 0x006440 + 4 * k
def schedPreemptCfg : Nat := 0x006450
def schedStarveCfg : Nat := 0x006454
def schedAcctCfg : Nat := 0x006458

/-! Addresses of the TIDE registers within the register space of R439. -/
def tidePeriod : Nat := 0x007040
def tideTideNoLo : Nat := 0x007044
def tideTideNoHi : Nat := 0x007048
def tideBoundaryTimeLo : Nat := 0x00704C
def tideBoundaryTimeHi : Nat := 0x007050

/-! Addresses of the INDEX registers within the register space of R439. -/
def indexIdxState (k : Nat) : Nat := 0x008040 + 4 * k
def indexCodeClampCnt : Nat := 0x008140
def indexLogFullCnt : Nat := 0x008144
def indexFilterDeferCnt : Nat := 0x008148
def indexLoadErrLog : Nat := 0x00814C
def indexDirCfg : Nat := 0x008150
def indexDirSweepCnt : Nat := 0x008154
def indexDirHoldCnt : Nat := 0x008158
def indexFilterBadCnt : Nat := 0x00815C

/-! Addresses of the MUTATE registers within the register space of R439. -/
def mutateAlignCfg : Nat := 0x009040
def mutateAlignStat : Nat := 0x009044
def mutateMarkEpochLo : Nat := 0x009048
def mutateMarkEpochHi : Nat := 0x00904C
def mutateCommitCnt : Nat := 0x009050
def mutateAbortCnt : Nat := 0x009054
def mutateDeferCnt : Nat := 0x009058
def mutateSkipCnt : Nat := 0x00905C
def mutateAlignLostCnt : Nat := 0x009060
def mutateMoveCnt : Nat := 0x009064
def mutateMoveDropCnt : Nat := 0x009068
def mutateTrimRowsCnt : Nat := 0x00906C
def mutateCompactPassCnt : Nat := 0x009070
def mutateEpochDropCnt : Nat := 0x009074
def mutateCompactCfg : Nat := 0x009400
def mutateVecCeil : Nat := 0x009404
def mutateTideMax : Nat := 0x009408

/-! Addresses of the KV registers within the register space of R439. -/
def kvStat : Nat := 0x00A040
def kvAllocCnt : Nat := 0x00A044
def kvSpillCnt : Nat := 0x00A048
def kvSpillErrCnt : Nat := 0x00A04C
def kvDropCnt : Nat := 0x00A050
def kvPromoteCnt : Nat := 0x00A054
def kvT3ReadCnt : Nat := 0x00A058
def kvPageWaitCnt : Nat := 0x00A05C
def kvQuotaFullCnt : Nat := 0x00A060
def kvRecomputeCnt : Nat := 0x00A064
def kvHoldExpireCnt : Nat := 0x00A068
def kvMirrorCnt : Nat := 0x00A06C
def kvMirrorFailCnt : Nat := 0x00A070
def kvListErrCnt : Nat := 0x00A074
def kvLastFull : Nat := 0x00A078
def kvCtxT2 (k : Nat) : Nat := 0x00A080 + 4 * k
def kvCtxT3 (k : Nat) : Nat := 0x00A0A0 + 4 * k
def kvSpillCfg : Nat := 0x00A400
def kvWaitCfg : Nat := 0x00A404
def kvPromoteCfg : Nat := 0x00A408

/-! Addresses of the GEN registers within the register space of R439. -/
def genModel : Nat := 0x00B040
def genStepsCnt : Nat := 0x00B044
def genTokensCnt : Nat := 0x00B048
def genLateSwitchCnt : Nat := 0x00B04C
def genSwapWaitCnt : Nat := 0x00B050
def genQueueFullCnt : Nat := 0x00B054
def genMcastDetachCnt : Nat := 0x00B058
def genWueParityCnt : Nat := 0x00B05C
def genWueFlashCnt : Nat := 0x00B060
def genWueReplicaCnt : Nat := 0x00B064
def genWueLostCnt : Nat := 0x00B068
def genLevel1Cnt : Nat := 0x00B06C
def genLevel2Cnt : Nat := 0x00B070
def genNanSeqCnt : Nat := 0x00B074
def genSeqActive : Nat := 0x00B078
def genPipeCfg : Nat := 0x00B400
def genReplica : Nat := 0x00B404

/-! Addresses of the MEM registers within the register space of R439. -/
def memStallCfg : Nat := 0x00C040
def memRebuildEv : Nat := 0x00C044
def memT3Ev : Nat := 0x00C048
def memT3rbEv : Nat := 0x00C04C
def memRemoteEv : Nat := 0x00C050
def memThermalEv : Nat := 0x00C054
def memLateEv : Nat := 0x00C058
def memRebuildUs : Nat := 0x00C05C
def memT3Us : Nat := 0x00C060
def memT3rbUs : Nat := 0x00C064
def memRemoteUs : Nat := 0x00C068
def memThermalUs : Nat := 0x00C06C
def memMoveCnt : Nat := 0x00C070
def memPinnedCnt : Nat := 0x00C074
def memUseT2 (k : Nat) : Nat := 0x00C100 + 4 * k
def memUseT3 (k : Nat) : Nat := 0x00C140 + 4 * k
def memPins (k : Nat) : Nat := 0x00C180 + 4 * k
def memQuotaT2 (k : Nat) : Nat := 0x00C400 + 4 * k
def memQuotaT3 (k : Nat) : Nat := 0x00C440 + 4 * k

/-! Addresses of the VUINDIG registers within the register space of R439. -/
def vuindigStat : Nat := 0x00D040
def vuindigCapUnits : Nat := 0x00D044
def vuindigFreeUnits : Nat := 0x00D048
def vuindigReadRetryCnt : Nat := 0x00D04C
def vuindigRebuildCnt : Nat := 0x00D050
def vuindigUeCnt : Nat := 0x00D054
def vuindigMapMissCnt : Nat := 0x00D058
def vuindigRdRelocCnt : Nat := 0x00D05C
def vuindigRdBacklogCnt : Nat := 0x00D060
def vuindigGcThrottleCnt : Nat := 0x00D064
def vuindigBlockRetireCnt : Nat := 0x00D068
def vuindigMoveDropCnt : Nat := 0x00D06C
def vuindigHostWrGib : Nat := 0x00D070
def vuindigNandWrGib : Nat := 0x00D074
def vuindigSpillCfg : Nat := 0x00D400
def vuindigMapCfg : Nat := 0x00D404
def vuindigBgCfg : Nat := 0x00D408
def vuindigStripeCfg : Nat := 0x00D40C

/-! Addresses of the ARCH registers within the register space of R439. -/
def archArchStat : Nat := 0x00E040
def archRerouteCnt : Nat := 0x00E044
def archGapCnt : Nat := 0x00E048
def archDupDropCnt : Nat := 0x00E04C
def archRouteDropCnt : Nat := 0x00E050
def archXresendCnt : Nat := 0x00E054
def archMcastDetachCnt : Nat := 0x00E058
def archHostDropCnt : Nat := 0x00E05C
def archArchCfg : Nat := 0x00E400
def archHoldCfg : Nat := 0x00E404
def archMcast (k : Nat) : Nat := 0x00E408 + 4 * k

/-! Addresses of the HOST registers within the register space of R439. -/
def hostEvqBaseLo : Nat := 0x00F040
def hostEvqBaseHi : Nat := 0x00F044
def hostEvqCfg : Nat := 0x00F048
def hostEvqTail : Nat := 0x00F04C
def hostEvqHead : Nat := 0x00F050
def hostPathDownLo : Nat := 0x00F054
def hostPathDownHi : Nat := 0x00F058
def hostPathClearLo : Nat := 0x00F05C
def hostPathClearHi : Nat := 0x00F060
def hostEvqDropCnt : Nat := 0x00F064
def hostBusyResendCnt : Nat := 0x00F068
def hostLateCplCnt : Nat := 0x00F06C
def hostRegErrCnt : Nat := 0x00F070
def hostLinkfailCfg : Nat := 0x00F400
def hostRegwinCfg : Nat := 0x00F404

/-! Addresses of the FUNC registers within the register space of R439. -/
def funcReset (i : Nat) : Nat := 0x010040 + i * 0x1000
def funcStat (i : Nat) : Nat := 0x010044 + i * 0x1000
def funcResetCnt (i : Nat) : Nat := 0x010048 + i * 0x1000
def funcLastReset (i : Nat) : Nat := 0x01004C + i * 0x1000
def funcCtxMapLo (i : Nat) : Nat := 0x010050 + i * 0x1000
def funcCtxMapHi (i : Nat) : Nat := 0x010054 + i * 0x1000

/-! Addresses of the ZWX registers within the register space of R439. -/
def zwxStat (i : Nat) : Nat := 0x020040 + i * 0x1000
def zwxFecCorrCnt (i : Nat) : Nat := 0x020044 + i * 0x1000
def zwxFecUncorrCnt (i : Nat) : Nat := 0x020048 + i * 0x1000
def zwxNakCnt (i : Nat) : Nat := 0x02004C + i * 0x1000
def zwxReplayCnt (i : Nat) : Nat := 0x020050 + i * 0x1000
def zwxMissedAckCnt (i : Nat) : Nat := 0x020054 + i * 0x1000
def zwxLaneFailCnt (i : Nat) : Nat := 0x020058 + i * 0x1000
def zwxEncFailCnt (i : Nat) : Nat := 0x02005C + i * 0x1000
def zwxDownCnt (i : Nat) : Nat := 0x020060 + i * 0x1000
def zwxFlightNs (i : Nat) : Nat := 0x020064 + i * 0x1000
def zwxLane (i : Nat) (k : Nat) : Nat := 0x020080 + i * 0x1000 + 4 * k
def zwxPortCfg (i : Nat) : Nat := 0x020400 + i * 0x1000
def zwxLaneCfg (i : Nat) : Nat := 0x020404 + i * 0x1000

/-! Addresses of the ARITH registers within the register space of R439. -/
def arithReplayCnt (i : Nat) : Nat := 0x028040 + i * 0x1000
def arithPromoteCnt (i : Nat) : Nat := 0x028044 + i * 0x1000
def arithWinRangeCnt (i : Nat) : Nat := 0x028048 + i * 0x1000
def arithOvfCnt (i : Nat) : Nat := 0x02804C + i * 0x1000
def arithNanCnt (i : Nat) : Nat := 0x028050 + i * 0x1000
def arithCheckErrCnt (i : Nat) : Nat := 0x028054 + i * 0x1000
def arithLastCheckIslet (i : Nat) : Nat := 0x028058 + i * 0x1000
def arithScoreboardWaitCnt (i : Nat) : Nat := 0x02805C + i * 0x1000
def arithLockWaitCnt (i : Nat) : Nat := 0x028060 + i * 0x1000
def arithDbgSel (i : Nat) : Nat := 0x028400 + i * 0x1000
def arithDbgScale (i : Nat) : Nat := 0x028404 + i * 0x1000
def arithDbgHalt (i : Nat) : Nat := 0x028408 + i * 0x1000
def arithDbgData (i : Nat) (k : Nat) : Nat := 0x028500 + i * 0x1000 + 4 * k

/-! Addresses of the SEARCH registers within the register space of R439. -/
def searchSetFullCnt (i : Nat) : Nat := 0x02C040 + i * 0x1000
def searchSetLateCnt (i : Nat) : Nat := 0x02C044 + i * 0x1000
def searchOverrunCnt (i : Nat) : Nat := 0x02C048 + i * 0x1000
def searchWidenCnt (i : Nat) : Nat := 0x02C04C + i * 0x1000
def searchLevel1Cnt (i : Nat) : Nat := 0x02C050 + i * 0x1000
def searchLevel2Cnt (i : Nat) : Nat := 0x02C054 + i * 0x1000
def searchDeadlineMissCnt (i : Nat) : Nat := 0x02C058 + i * 0x1000
def searchScanSkipBlkCnt (i : Nat) : Nat := 0x02C05C + i * 0x1000
def searchRerankErrCnt (i : Nat) : Nat := 0x02C060 + i * 0x1000
def searchSetsCnt (i : Nat) : Nat := 0x02C064 + i * 0x1000
def searchStackBytes (i : Nat) (k : Nat) : Nat := 0x02C080 + i * 0x1000 + 4 * k
def searchSetCfg (i : Nat) : Nat := 0x02C400 + i * 0x1000

/-! Addresses of the SELECT registers within the register space of R439. -/
def selectListsCnt (i : Nat) : Nat := 0x030040 + i * 0x1000
def selectMultipassCnt (i : Nat) : Nat := 0x030044 + i * 0x1000
def selectSpillCnt (i : Nat) : Nat := 0x030048 + i * 0x1000
def selectDupCnt (i : Nat) : Nat := 0x03004C + i * 0x1000
def selectTieTailDropCnt (i : Nat) : Nat := 0x030050 + i * 0x1000
def selectNanCnt (i : Nat) : Nat := 0x030054 + i * 0x1000
def selectShortCnt (i : Nat) : Nat := 0x030058 + i * 0x1000
def selectStageErrCnt (i : Nat) : Nat := 0x03005C + i * 0x1000
def selectListCfg (i : Nat) : Nat := 0x030400 + i * 0x1000

/-! Addresses of the ATTN registers within the register space of R439. -/
def attnSplitsCnt (i : Nat) : Nat := 0x038040 + i * 0x1000
def attnMergeCnt (i : Nat) : Nat := 0x038044 + i * 0x1000
def attnBlockSkipCnt (i : Nat) : Nat := 0x038048 + i * 0x1000
def attnBlockMaskCnt (i : Nat) : Nat := 0x03804C + i * 0x1000
def attnRetrScoreCnt (i : Nat) : Nat := 0x038050 + i * 0x1000
def attnRetrAllCnt (i : Nat) : Nat := 0x038054 + i * 0x1000
def attnLevel1SkipCnt (i : Nat) : Nat := 0x038058 + i * 0x1000
def attnKvClampCnt (i : Nat) : Nat := 0x03805C + i * 0x1000
def attnKvUeCnt (i : Nat) : Nat := 0x038060 + i * 0x1000
def attnT3PageCnt (i : Nat) : Nat := 0x038064 + i * 0x1000
def attnNanRowCnt (i : Nat) : Nat := 0x038068 + i * 0x1000
def attnSplitShortCnt (i : Nat) : Nat := 0x03806C + i * 0x1000
def attnBwdCnt (i : Nat) : Nat := 0x038070 + i * 0x1000
def attnBufCfg (i : Nat) : Nat := 0x038400 + i * 0x1000

/-! Addresses of the LAGOON registers within the register space of R439. -/
def lagoonAtomicCnt (i : Nat) : Nat := 0x03C040 + i * 0x1000
def lagoonTargetErrCnt (i : Nat) : Nat := 0x03C044 + i * 0x1000
def lagoonAlignErrCnt (i : Nat) : Nat := 0x03C048 + i * 0x1000
def lagoonShareUnits (i : Nat) : Nat := 0x03C04C + i * 0x1000
def lagoonBorrowed (i : Nat) : Nat := 0x03C050 + i * 0x1000
def lagoonShareFullCnt (i : Nat) : Nat := 0x03C054 + i * 0x1000

/-! Addresses of the DRAMC registers within the register space of R439. -/
def dramcTherm (i : Nat) : Nat := 0x040040 + i * 0x1000
def dramcBytesRd (i : Nat) : Nat := 0x040044 + i * 0x1000
def dramcBytesWr (i : Nat) : Nat := 0x040048 + i * 0x1000
def dramcUtil (i : Nat) : Nat := 0x04004C + i * 0x1000
def dramcHotObj (i : Nat) : Nat := 0x040050 + i * 0x1000
def dramcHotInfo (i : Nat) : Nat := 0x040054 + i * 0x1000
def dramcCeCnt (i : Nat) : Nat := 0x040058 + i * 0x1000
def dramcUeCnt (i : Nat) : Nat := 0x04005C + i * 0x1000
def dramcRebuildCnt (i : Nat) : Nat := 0x040060 + i * 0x1000
def dramcRetired (i : Nat) : Nat := 0x040064 + i * 0x1000
def dramcRetireDeferCnt (i : Nat) : Nat := 0x040068 + i * 0x1000
def dramcThrottleCnt (i : Nat) : Nat := 0x04006C + i * 0x1000
def dramcFreeGran (i : Nat) : Nat := 0x040070 + i * 0x1000
def dramcParCfg (i : Nat) : Nat := 0x040400 + i * 0x1000
def dramcScrubCfg (i : Nat) : Nat := 0x040404 + i * 0x1000

/-! Addresses of the HRING registers within the register space of R439. -/
def hringSqBaseLo (i : Nat) : Nat := 0x100040 + i * 0x1000
def hringSqBaseHi (i : Nat) : Nat := 0x100044 + i * 0x1000
def hringCqBaseLo (i : Nat) : Nat := 0x100048 + i * 0x1000
def hringCqBaseHi (i : Nat) : Nat := 0x10004C + i * 0x1000
def hringSqCfg (i : Nat) : Nat := 0x100050 + i * 0x1000
def hringCqCfg (i : Nat) : Nat := 0x100054 + i * 0x1000
def hringSqTail (i : Nat) : Nat := 0x100058 + i * 0x1000
def hringSqHead (i : Nat) : Nat := 0x10005C + i * 0x1000
def hringCqHead (i : Nat) : Nat := 0x100060 + i * 0x1000
def hringCqTail (i : Nat) : Nat := 0x100064 + i * 0x1000
def hringOutstanding (i : Nat) : Nat := 0x100068 + i * 0x1000
def hringCqFullCnt (i : Nat) : Nat := 0x10006C + i * 0x1000

/-! Addresses of the FERRY registers within the register space of R439. -/
def ferryMergeCnt (i : Nat) : Nat := 0x200040 + i * 0x1000
def ferryRearmOverwriteCnt (i : Nat) : Nat := 0x200044 + i * 0x1000
def ferryAccessErrCnt (i : Nat) : Nat := 0x200048 + i * 0x1000
def ferryInflight (i : Nat) : Nat := 0x20004C + i * 0x1000
def ferrySlotStat (i : Nat) (k : Nat) : Nat := 0x200100 + i * 0x1000 + 4 * k
def ferrySlotDesc (i : Nat) (k : Nat) : Nat := 0x200800 + i * 0x1000 + 4 * k
def ferrySlotArm (i : Nat) (k : Nat) : Nat := 0x200A00 + i * 0x1000 + 4 * k

end Reg

/-- The DEV page. -/
def devRows : List RegRow := [
  ⟨0x01, 0x040, 1, .ro, 0x2000, 0x0, 0xFF0000, []⟩,
  ⟨0x01, 0x044, 1, .ro, 0x0, 0x0, 0x7F, []⟩,
  ⟨0x01, 0x048, 1, .ro, 0x0, 0x0, 0x0, []⟩,
  ⟨0x01, 0x04C, 1, .ro, 0x0, 0x0, 0x0, []⟩]

/-- The MGMT page. -/
def mgmtRows : List RegRow := [
  ⟨0x02, 0x040, 1, .ro, 0x0, 0x0, 0x0, []⟩,
  ⟨0x02, 0x044, 1, .ro, 0x0, 0x0, 0x0, []⟩,
  ⟨0x02, 0x048, 1, .ro, 0x0, 0x0, 0x0, []⟩,
  ⟨0x02, 0x04C, 1, .ro, 0x0, 0x0, 0x0, []⟩,
  ⟨0x02, 0x050, 1, .cnt, 0x0, 0x0, 0x0, []⟩,
  ⟨0x02, 0x054, 1, .cnt, 0x0, 0x0, 0x0, []⟩,
  ⟨0x02, 0x058, 1, .cnt, 0x0, 0x0, 0x0, []⟩,
  ⟨0x02, 0x05C, 1, .cnt, 0x0, 0x0, 0x0, []⟩,
  ⟨0x02, 0x060, 1, .cnt, 0x0, 0x0, 0x0, []⟩,
  ⟨0x02, 0x400, 1, .rw, 0x25A, 0x37F, 0x7F, [⟨6, 0, 8, 119, 1⟩]⟩,
  ⟨0x02, 0x404, 1, .rw, 0x3E8, 0xFFFF, 0x0, [⟨15, 0, 100, 60000, 1⟩]⟩]

/-- The PWR page. -/
def pwrRows : List RegRow := [
  ⟨0x03, 0x040, 1, .ro, 0xF0, 0x0, 0x0, []⟩,
  ⟨0x03, 0x044, 1, .w1c, 0x0, 0x3F, 0x37, []⟩,
  ⟨0x03, 0x048, 1, .ro, 0x0, 0x0, 0xFF, []⟩,
  ⟨0x03, 0x04C, 1, .ro, 0x0, 0x0, 0x0, []⟩,
  ⟨0x03, 0x050, 1, .ro, 0x0, 0x0, 0x0, []⟩,
  ⟨0x03, 0x054, 1, .ro, 0x0, 0x0, 0x0, []⟩,
  ⟨0x03, 0x058, 1, .ro, 0x0, 0x0, 0x0, []⟩,
  ⟨0x03, 0x05C, 1, .ro, 0x0, 0x0, 0x0, []⟩,
  ⟨0x03, 0x060, 1, .ro, 0x0, 0x0, 0x0, []⟩,
  ⟨0x03, 0x064, 1, .ro, 0x0, 0x0, 0xFF0, []⟩,
  ⟨0x03, 0x068, 1, .cnt, 0x0, 0x0, 0xFFFFFFFF, []⟩,
  ⟨0x03, 0x06C, 1, .cnt, 0x0, 0x0, 0xFFFFFFFF, []⟩,
  ⟨0x03, 0x070, 1, .cnt, 0x0, 0x0, 0x0, []⟩,
  ⟨0x03, 0x074, 1, .cnt, 0x0, 0x0, 0x0, []⟩,
  ⟨0x03, 0x078, 1, .cnt, 0x0, 0x0, 0xFFFFFFFF, []⟩,
  ⟨0x03, 0x07C, 1, .cnt, 0x0, 0x0, 0xFFFFFFFF, []⟩,
  ⟨0x03, 0x080, 1, .cnt, 0x0, 0x0, 0x0, []⟩,
  ⟨0x03, 0x0C0, 1, .wo, 0x0, 0xF, 0x0, []⟩,
  ⟨0x03, 0x400, 1, .rw, 0x7D0, 0xFFF, 0x0, [⟨11, 0, 1400, 2400, 1⟩]⟩,
  ⟨0x03, 0x404, 1, .rw, 0xA30A, 0xFFF3FF, 0xFFF3FF, [⟨7, 0, 1, 100, 1⟩, ⟨15, 12, 4, 15, 1⟩]⟩,
  ⟨0x03, 0x408, 4, .rw, 0x3E80000, 0x3FFF0003, 0x3FFF0003, [⟨29, 16, 1, 10000, 1⟩]⟩,
  ⟨0x03, 0x418, 1, .wo, 0x0, 0xF, 0x0, []⟩,
  ⟨0x03, 0x41C, 1, .rw, 0x143C50, 0xFFFFFF, 0x0, [⟨23, 16, 0, 100, 1⟩, ⟨15, 8, 40, 65, 1⟩, ⟨7, 0, 60, 90, 1⟩]⟩]

/-- The FAULT page. -/
def faultRows : List RegRow := [
  ⟨0x04, 0x040, 1, .ro, 0xF000000, 0x0, 0x0, []⟩,
  ⟨0x04, 0x044, 1, .ro, 0x0, 0x0, 0x0, []⟩,
  ⟨0x04, 0x048, 1, .rw, 0x0, 0x3FF, 0x0, []⟩,
  ⟨0x04, 0x04C, 8, .ro, 0x0, 0x0, 0x0, []⟩,
  ⟨0x04, 0x06C, 1, .ro, 0x0, 0x0, 0x0, []⟩,
  ⟨0x04, 0x070, 1, .cnt, 0x0, 0x0, 0x0, []⟩,
  ⟨0x04, 0x074, 1, .cnt, 0x0, 0x0, 0x0, []⟩,
  ⟨0x04, 0x078, 1, .cnt, 0x0, 0x0, 0x0, []⟩,
  ⟨0x04, 0x07C, 1, .cnt, 0x0, 0x0, 0x0, []⟩,
  ⟨0x04, 0x080, 1, .cnt, 0x0, 0x0, 0x0, []⟩,
  ⟨0x04, 0x084, 1, .cnt, 0x0, 0x0, 0x0, []⟩,
  ⟨0x04, 0x088, 1, .cnt, 0x0, 0x0, 0x0, []⟩,
  ⟨0x04, 0x08C, 1, .cnt, 0x0, 0x0, 0x0, []⟩,
  ⟨0x04, 0x090, 1, .cnt, 0x0, 0x0, 0x0, []⟩,
  ⟨0x04, 0x094, 1, .cnt, 0x0, 0x0, 0x0, []⟩,
  ⟨0x04, 0x098, 1, .cnt, 0x0, 0x0, 0x0, []⟩,
  ⟨0x04, 0x100, 16, .ro, 0x0, 0x0, 0x0, []⟩,
  ⟨0x04, 0x140, 1, .rw, 0x0, 0x1FF, 0x0, []⟩,
  ⟨0x04, 0x144, 1, .ro, 0x0, 0x0, 0x0, []⟩,
  ⟨0x04, 0x400, 1, .wo, 0x0, 0xFFFF, 0x0, []⟩,
  ⟨0x04, 0x404, 1, .rw, 0x3, 0xF, 0x0, [⟨3, 0, 1, 15, 1⟩]⟩]

/-- The SEC page. -/
def secRows : List RegRow := [
  ⟨0x05, 0x040, 1, .ro, 0x0, 0x0, 0x0, []⟩,
  ⟨0x05, 0x044, 1, .ro, 0x0, 0x0, 0x0, []⟩,
  ⟨0x05, 0x048, 1, .ro, 0x0, 0x0, 0x0, []⟩,
  ⟨0x05, 0x04C, 1, .ro, 0x0, 0x0, 0xF007F, []⟩,
  ⟨0x05, 0x050, 4, .ro, 0x0, 0x0, 0x0, []⟩,
  ⟨0x05, 0x060, 1, .cnt, 0x0, 0x0, 0x0, []⟩,
  ⟨0x05, 0x064, 1, .cnt, 0x0, 0x0, 0x0, []⟩,
  ⟨0x05, 0x068, 1, .cnt, 0x0, 0x0, 0x0, []⟩,
  ⟨0x05, 0x06C, 1, .cnt, 0x0, 0x0, 0x0, []⟩,
  ⟨0x05, 0x100, 40, .rw, 0x0, 0xFFFFFFFF, 0x0, []⟩,
  ⟨0x05, 0x400, 1, .rw, 0x0, 0x3, 0x1, []⟩,
  ⟨0x05, 0x404, 1, .wo, 0x0, 0x7, 0x0, []⟩]

/-- The CMD page. -/
def cmdRows : List RegRow := [
  ⟨0x06, 0x040, 1, .ro, 0x0, 0x0, 0x0, []⟩,
  ⟨0x06, 0x044, 1, .ro, 0x0, 0x0, 0x0, []⟩,
  ⟨0x06, 0x048, 1, .cnt, 0x0, 0x0, 0x0, []⟩,
  ⟨0x06, 0x04C, 1, .cnt, 0x0, 0x0, 0x0, []⟩,
  ⟨0x06, 0x050, 1, .cnt, 0x0, 0x0, 0x0, []⟩,
  ⟨0x06, 0x054, 1, .cnt, 0x0, 0x0, 0x0, []⟩,
  ⟨0x06, 0x058, 1, .cnt, 0x0, 0x0, 0x0, []⟩,
  ⟨0x06, 0x05C, 1, .cnt, 0x0, 0x0, 0x0, []⟩,
  ⟨0x06, 0x060, 1, .cnt, 0x0, 0x0, 0x0, []⟩,
  ⟨0x06, 0x064, 1, .cnt, 0x0, 0x0, 0x0, []⟩,
  ⟨0x06, 0x068, 1, .ro, 0x0, 0x0, 0x0, []⟩,
  ⟨0x06, 0x06C, 1, .ro, 0x0, 0x0, 0x0, []⟩,
  ⟨0x06, 0x400, 1, .rw, 0x400, 0x1FFF, 0x0, [⟨12, 0, 256, 4096, 4⟩]⟩,
  ⟨0x06, 0x404, 1, .rw, 0x32, 0xFFFF, 0x0, [⟨15, 0, 1, 1000, 1⟩]⟩]

/-- The SCHED page. -/
def schedRows : List RegRow := [
  ⟨0x07, 0x040, 1, .ro, 0x0, 0x0, 0x0, []⟩,
  ⟨0x07, 0x044, 1, .cnt, 0x0, 0x0, 0x0, []⟩,
  ⟨0x07, 0x048, 1, .cnt, 0x0, 0x0, 0x0, []⟩,
  ⟨0x07, 0x04C, 1, .cnt, 0x0, 0x0, 0x0, []⟩,
  ⟨0x07, 0x050, 1, .cnt, 0x0, 0x0, 0x0, []⟩,
  ⟨0x07, 0x054, 1, .cnt, 0x0, 0x0, 0x0, []⟩,
  ⟨0x07, 0x058, 1, .cnt, 0x0, 0x0, 0x0, []⟩,
  ⟨0x07, 0x05C, 1, .cnt, 0x0, 0x0, 0x0, []⟩,
  ⟨0x07, 0x060, 1, .cnt, 0x0, 0x0, 0x0, []⟩,
  ⟨0x07, 0x064, 1, .ro, 0x0, 0x0, 0x0, []⟩,
  ⟨0x07, 0x068, 1, .ro, 0x0, 0x0, 0x0, []⟩,
  ⟨0x07, 0x080, 16, .ro, 0x0, 0x0, 0x0, []⟩,
  ⟨0x07, 0x0C0, 8, .ro, 0x0, 0x0, 0x0, []⟩,
  ⟨0x07, 0x0E0, 1, .rw, 0x0, 0x1F, 0x0, [⟨4, 0, 0, 16, 1⟩]⟩,
  ⟨0x07, 0x100, 16, .ro, 0x0, 0x0, 0x0, []⟩,
  ⟨0x07, 0x400, 16, .rw, 0x0, 0x1FF7F01, 0x0, [⟨24, 16, 0, 256, 1⟩, ⟨14, 8, 0, 64, 1⟩]⟩,
  ⟨0x07, 0x440, 4, .rw, 0x0, 0x8FFF, 0x0, []⟩,
  ⟨0x07, 0x450, 1, .rw, 0x100C8, 0x13FFF, 0x0, [⟨13, 0, 10, 10000, 1⟩]⟩,
  ⟨0x07, 0x454, 1, .rw, 0x64, 0x3FFF, 0x0, [⟨13, 0, 1, 10000, 1⟩]⟩,
  ⟨0x07, 0x458, 1, .rw, 0x3E8, 0xFFFF, 0x0, [⟨15, 0, 10, 60000, 1⟩]⟩]

/-- The TIDE page. -/
def tideRows : List RegRow := [
  ⟨0x08, 0x040, 1, .rw, 0x1F40, 0x1FFFF, 0x0, [⟨16, 0, 500, 100000, 1⟩]⟩,
  ⟨0x08, 0x044, 1, .ro, 0x0, 0x0, 0x0, []⟩,
  ⟨0x08, 0x048, 1, .ro, 0x0, 0x0, 0x0, []⟩,
  ⟨0x08, 0x04C, 1, .ro, 0x0, 0x0, 0x0, []⟩,
  ⟨0x08, 0x050, 1, .ro, 0x0, 0x0, 0x0, []⟩]

/-- The INDEX page. -/
def indexRows : List RegRow := [
  ⟨0x09, 0x040, 64, .ro, 0x0, 0x0, 0x0, []⟩,
  ⟨0x09, 0x140, 1, .cnt, 0x0, 0x0, 0x0, []⟩,
  ⟨0x09, 0x144, 1, .cnt, 0x0, 0x0, 0x0, []⟩,
  ⟨0x09, 0x148, 1, .cnt, 0x0, 0x0, 0x0, []⟩,
  ⟨0x09, 0x14C, 1, .ro, 0x0, 0x0, 0x0, []⟩,
  ⟨0x09, 0x150, 1, .rw, 0x400, 0xFFFF, 0x0, [⟨15, 0, 16, 65535, 1⟩]⟩,
  ⟨0x09, 0x154, 1, .cnt, 0x0, 0x0, 0x0, []⟩,
  ⟨0x09, 0x158, 1, .cnt, 0x0, 0x0, 0x0, []⟩,
  ⟨0x09, 0x15C, 1, .cnt, 0x0, 0x0, 0x0, []⟩]

/-- The MUTATE page. -/
def mutateRows : List RegRow := [
  ⟨0x0A, 0x040, 1, .rw, 0x10, 0xFF, 0x0, [⟨7, 0, 2, 255, 1⟩]⟩,
  ⟨0x0A, 0x044, 1, .ro, 0x0, 0x0, 0x1, []⟩,
  ⟨0x0A, 0x048, 1, .ro, 0x0, 0x0, 0x0, []⟩,
  ⟨0x0A, 0x04C, 1, .ro, 0x0, 0x0, 0x0, []⟩,
  ⟨0x0A, 0x050, 1, .cnt, 0x0, 0x0, 0x0, []⟩,
  ⟨0x0A, 0x054, 1, .cnt, 0x0, 0x0, 0x0, []⟩,
  ⟨0x0A, 0x058, 1, .cnt, 0x0, 0x0, 0x0, []⟩,
  ⟨0x0A, 0x05C, 1, .cnt, 0x0, 0x0, 0x0, []⟩,
  ⟨0x0A, 0x060, 1, .cnt, 0x0, 0x0, 0x0, []⟩,
  ⟨0x0A, 0x064, 1, .cnt, 0x0, 0x0, 0x0, []⟩,
  ⟨0x0A, 0x068, 1, .cnt, 0x0, 0x0, 0x0, []⟩,
  ⟨0x0A, 0x06C, 1, .cnt, 0x0, 0x0, 0x0, []⟩,
  ⟨0x0A, 0x070, 1, .cnt, 0x0, 0x0, 0x0, []⟩,
  ⟨0x0A, 0x074, 1, .cnt, 0x0, 0x0, 0x0, []⟩,
  ⟨0x0A, 0x400, 1, .rw, 0x4000A12, 0xFFFFF1F, 0x0, [⟨27, 16, 1, 2048, 1⟩, ⟨15, 8, 1, 50, 1⟩, ⟨3, 0, 0, 10, 1⟩]⟩,
  ⟨0x0A, 0x404, 1, .rw, 0x1E0, 0xFFFF, 0x0, [⟨15, 0, 0, 4800, 1⟩]⟩,
  ⟨0x0A, 0x408, 1, .rw, 0x10000, 0x1FFFF, 0x0, [⟨16, 0, 4096, 65536, 1⟩]⟩]

/-- The KV page. -/
def kvRows : List RegRow := [
  ⟨0x0B, 0x040, 1, .ro, 0x0, 0x0, 0x0, []⟩,
  ⟨0x0B, 0x044, 1, .cnt, 0x0, 0x0, 0x0, []⟩,
  ⟨0x0B, 0x048, 1, .cnt, 0x0, 0x0, 0x0, []⟩,
  ⟨0x0B, 0x04C, 1, .cnt, 0x0, 0x0, 0x0, []⟩,
  ⟨0x0B, 0x050, 1, .cnt, 0x0, 0x0, 0x0, []⟩,
  ⟨0x0B, 0x054, 1, .cnt, 0x0, 0x0, 0x0, []⟩,
  ⟨0x0B, 0x058, 1, .cnt, 0x0, 0x0, 0x0, []⟩,
  ⟨0x0B, 0x05C, 1, .cnt, 0x0, 0x0, 0x0, []⟩,
  ⟨0x0B, 0x060, 1, .cnt, 0x0, 0x0, 0x0, []⟩,
  ⟨0x0B, 0x064, 1, .cnt, 0x0, 0x0, 0x0, []⟩,
  ⟨0x0B, 0x068, 1, .cnt, 0x0, 0x0, 0x0, []⟩,
  ⟨0x0B, 0x06C, 1, .cnt, 0x0, 0x0, 0x0, []⟩,
  ⟨0x0B, 0x070, 1, .cnt, 0x0, 0x0, 0x0, []⟩,
  ⟨0x0B, 0x074, 1, .cnt, 0x0, 0x0, 0x0, []⟩,
  ⟨0x0B, 0x078, 1, .ro, 0x0, 0x0, 0x0, []⟩,
  ⟨0x0B, 0x080, 8, .ro, 0x0, 0x0, 0x0, []⟩,
  ⟨0x0B, 0x0A0, 8, .ro, 0x0, 0x0, 0x0, []⟩,
  ⟨0x0B, 0x400, 1, .rw, 0x101000, 0x3FFFFF, 0x0, [⟨21, 16, 1, 40, 1⟩, ⟨15, 0, 64, 65535, 1⟩]⟩,
  ⟨0x0B, 0x404, 1, .rw, 0x10, 0xFF, 0x0, [⟨7, 0, 1, 255, 1⟩]⟩,
  ⟨0x0B, 0x408, 1, .rw, 0x80000400, 0x8FFFFFFF, 0x0, []⟩]

/-- The GEN page. -/
def genRows : List RegRow := [
  ⟨0x0C, 0x040, 1, .ro, 0x0, 0x0, 0x0, []⟩,
  ⟨0x0C, 0x044, 1, .cnt, 0x0, 0x0, 0x0, []⟩,
  ⟨0x0C, 0x048, 1, .cnt, 0x0, 0x0, 0x0, []⟩,
  ⟨0x0C, 0x04C, 1, .cnt, 0x0, 0x0, 0x0, []⟩,
  ⟨0x0C, 0x050, 1, .cnt, 0x0, 0x0, 0x0, []⟩,
  ⟨0x0C, 0x054, 1, .cnt, 0x0, 0x0, 0x0, []⟩,
  ⟨0x0C, 0x058, 1, .cnt, 0x0, 0x0, 0x0, []⟩,
  ⟨0x0C, 0x05C, 1, .cnt, 0x0, 0x0, 0x0, []⟩,
  ⟨0x0C, 0x060, 1, .cnt, 0x0, 0x0, 0x0, []⟩,
  ⟨0x0C, 0x064, 1, .cnt, 0x0, 0x0, 0x0, []⟩,
  ⟨0x0C, 0x068, 1, .cnt, 0x0, 0x0, 0x0, []⟩,
  ⟨0x0C, 0x06C, 1, .cnt, 0x0, 0x0, 0x0, []⟩,
  ⟨0x0C, 0x070, 1, .cnt, 0x0, 0x0, 0x0, []⟩,
  ⟨0x0C, 0x074, 1, .cnt, 0x0, 0x0, 0x0, []⟩,
  ⟨0x0C, 0x078, 1, .ro, 0x0, 0x0, 0x0, []⟩,
  ⟨0x0C, 0x400, 1, .rw, 0x9000200, 0x7FFF07FF, 0x0, [⟨26, 16, 32, 1024, 1⟩, ⟨10, 0, 256, 1024, 1⟩, ⟨30, 27, 1, 8, 1⟩]⟩,
  ⟨0x0C, 0x404, 1, .rw, 0x0, 0x7F7F, 0x0, []⟩]

/-- The MEM page. -/
def memRows : List RegRow := [
  ⟨0x0D, 0x040, 1, .rw, 0x64, 0x3FFF, 0x0, [⟨13, 0, 10, 10000, 1⟩]⟩,
  ⟨0x0D, 0x044, 1, .cnt, 0x0, 0x0, 0x0, []⟩,
  ⟨0x0D, 0x048, 1, .cnt, 0x0, 0x0, 0x0, []⟩,
  ⟨0x0D, 0x04C, 1, .cnt, 0x0, 0x0, 0x0, []⟩,
  ⟨0x0D, 0x050, 1, .cnt, 0x0, 0x0, 0x0, []⟩,
  ⟨0x0D, 0x054, 1, .cnt, 0x0, 0x0, 0x0, []⟩,
  ⟨0x0D, 0x058, 1, .cnt, 0x0, 0x0, 0x0, []⟩,
  ⟨0x0D, 0x05C, 1, .cnt, 0x0, 0x0, 0x0, []⟩,
  ⟨0x0D, 0x060, 1, .cnt, 0x0, 0x0, 0x0, []⟩,
  ⟨0x0D, 0x064, 1, .cnt, 0x0, 0x0, 0x0, []⟩,
  ⟨0x0D, 0x068, 1, .cnt, 0x0, 0x0, 0x0, []⟩,
  ⟨0x0D, 0x06C, 1, .cnt, 0x0, 0x0, 0x0, []⟩,
  ⟨0x0D, 0x070, 1, .cnt, 0x0, 0x0, 0x0, []⟩,
  ⟨0x0D, 0x074, 1, .cnt, 0x0, 0x0, 0x0, []⟩,
  ⟨0x0D, 0x100, 16, .ro, 0x0, 0x0, 0x0, []⟩,
  ⟨0x0D, 0x140, 16, .ro, 0x0, 0x0, 0x0, []⟩,
  ⟨0x0D, 0x180, 16, .ro, 0x0, 0x0, 0x0, []⟩,
  ⟨0x0D, 0x400, 16, .rw, 0x0, 0x3FFFFFF, 0x0, [⟨25, 0, 0, 33554432, 1⟩]⟩,
  ⟨0x0D, 0x440, 16, .rw, 0x0, 0x3FFFFFFF, 0x0, []⟩]

/-- The VUINDIG page. -/
def vuindigRows : List RegRow := [
  ⟨0x0E, 0x040, 1, .ro, 0x0, 0x0, 0xFFFF0000, []⟩,
  ⟨0x0E, 0x044, 1, .ro, 0x0, 0x0, 0x0, []⟩,
  ⟨0x0E, 0x048, 1, .ro, 0x0, 0x0, 0x0, []⟩,
  ⟨0x0E, 0x04C, 1, .cnt, 0x0, 0x0, 0x0, []⟩,
  ⟨0x0E, 0x050, 1, .cnt, 0x0, 0x0, 0x0, []⟩,
  ⟨0x0E, 0x054, 1, .cnt, 0x0, 0x0, 0x0, []⟩,
  ⟨0x0E, 0x058, 1, .cnt, 0x0, 0x0, 0x0, []⟩,
  ⟨0x0E, 0x05C, 1, .cnt, 0x0, 0x0, 0x0, []⟩,
  ⟨0x0E, 0x060, 1, .cnt, 0x0, 0x0, 0x0, []⟩,
  ⟨0x0E, 0x064, 1, .cnt, 0x0, 0x0, 0x0, []⟩,
  ⟨0x0E, 0x068, 1, .cnt, 0x0, 0x0, 0x0, []⟩,
  ⟨0x0E, 0x06C, 1, .cnt, 0x0, 0x0, 0x0, []⟩,
  ⟨0x0E, 0x070, 1, .cnt, 0x0, 0x0, 0x0, []⟩,
  ⟨0x0E, 0x074, 1, .cnt, 0x0, 0x0, 0x0, []⟩,
  ⟨0x0E, 0x400, 1, .rw, 0x0, 0x1F, 0x1F, [⟨4, 0, 0, 16, 1⟩]⟩,
  ⟨0x0E, 0x404, 1, .rw, 0x8, 0x3F, 0x0, [⟨5, 0, 1, 40, 1⟩]⟩,
  ⟨0x0E, 0x408, 1, .rw, 0x1114, 0xFFFF, 0x0, [⟨7, 0, 10, 50, 1⟩, ⟨15, 12, 0, 2, 1⟩, ⟨11, 8, 0, 2, 1⟩]⟩,
  ⟨0x0E, 0x40C, 1, .rw, 0x3E8, 0x3FFF, 0x0, [⟨13, 0, 100, 10000, 1⟩]⟩]

/-- The ARCH page. -/
def archRows : List RegRow := [
  ⟨0x0F, 0x040, 1, .ro, 0x0, 0x0, 0x2, []⟩,
  ⟨0x0F, 0x044, 1, .cnt, 0x0, 0x0, 0x0, []⟩,
  ⟨0x0F, 0x048, 1, .cnt, 0x0, 0x0, 0x0, []⟩,
  ⟨0x0F, 0x04C, 1, .cnt, 0x0, 0x0, 0x0, []⟩,
  ⟨0x0F, 0x050, 1, .cnt, 0x0, 0x0, 0x0, []⟩,
  ⟨0x0F, 0x054, 1, .cnt, 0x0, 0x0, 0x0, []⟩,
  ⟨0x0F, 0x058, 1, .cnt, 0x0, 0x0, 0x0, []⟩,
  ⟨0x0F, 0x05C, 1, .cnt, 0x0, 0x0, 0x0, []⟩,
  ⟨0x0F, 0x400, 1, .rw, 0x0, 0x3F3F, 0x3F3F, []⟩,
  ⟨0x0F, 0x404, 1, .rw, 0x64, 0x3FF, 0x0, [⟨9, 0, 10, 1000, 1⟩]⟩,
  ⟨0x0F, 0x408, 30, .rw, 0x0, 0xFFFFFFFF, 0x0, []⟩]

/-- The HOST page. -/
def hostRows : List RegRow := [
  ⟨0x10, 0x040, 1, .rw, 0x0, 0xFFFFFFC0, 0x0, []⟩,
  ⟨0x10, 0x044, 1, .rw, 0x0, 0xFFFFFFFF, 0x0, []⟩,
  ⟨0x10, 0x048, 1, .rw, 0x400, 0x7FF1F01, 0x0, [⟨12, 8, 4, 16, 1⟩]⟩,
  ⟨0x10, 0x04C, 1, .ro, 0x0, 0x0, 0x0, []⟩,
  ⟨0x10, 0x050, 1, .rw, 0x0, 0xFFFF, 0x0, []⟩,
  ⟨0x10, 0x054, 1, .ro, 0x0, 0x0, 0x0, []⟩,
  ⟨0x10, 0x058, 1, .ro, 0x0, 0x0, 0x0, []⟩,
  ⟨0x10, 0x05C, 1, .wo, 0x0, 0xFFFFFFFF, 0x0, []⟩,
  ⟨0x10, 0x060, 1, .wo, 0x0, 0xFFFFFFFF, 0x0, []⟩,
  ⟨0x10, 0x064, 1, .cnt, 0x0, 0x0, 0x0, []⟩,
  ⟨0x10, 0x068, 1, .cnt, 0x0, 0x0, 0x0, []⟩,
  ⟨0x10, 0x06C, 1, .cnt, 0x0, 0x0, 0x0, []⟩,
  ⟨0x10, 0x070, 1, .cnt, 0x0, 0x0, 0x0, []⟩,
  ⟨0x10, 0x400, 1, .rw, 0x4, 0x1F, 0x0, [⟨4, 0, 3, 20, 1⟩]⟩,
  ⟨0x10, 0x404, 1, .rw, 0x64, 0x3FF, 0x0, [⟨9, 0, 10, 1000, 1⟩]⟩]

/-- The FUNC page. -/
def funcRows : List RegRow := [
  ⟨0x11, 0x040, 1, .wo, 0x0, 0x1, 0x0, []⟩,
  ⟨0x11, 0x044, 1, .ro, 0x0, 0x0, 0x0, []⟩,
  ⟨0x11, 0x048, 1, .cnt, 0x0, 0x0, 0xFFFFFFFF, []⟩,
  ⟨0x11, 0x04C, 1, .ro, 0x0, 0x0, 0x0, []⟩,
  ⟨0x11, 0x050, 1, .ro, 0x0, 0x0, 0x0, []⟩,
  ⟨0x11, 0x054, 1, .ro, 0x0, 0x0, 0x0, []⟩]

/-- The ZWX page. -/
def zwxRows : List RegRow := [
  ⟨0x12, 0x040, 1, .ro, 0x0, 0x0, 0x0, []⟩,
  ⟨0x12, 0x044, 1, .cnt, 0x0, 0x0, 0x0, []⟩,
  ⟨0x12, 0x048, 1, .cnt, 0x0, 0x0, 0x0, []⟩,
  ⟨0x12, 0x04C, 1, .cnt, 0x0, 0x0, 0x0, []⟩,
  ⟨0x12, 0x050, 1, .cnt, 0x0, 0x0, 0x0, []⟩,
  ⟨0x12, 0x054, 1, .cnt, 0x0, 0x0, 0x0, []⟩,
  ⟨0x12, 0x058, 1, .cnt, 0x0, 0x0, 0x0, []⟩,
  ⟨0x12, 0x05C, 1, .cnt, 0x0, 0x0, 0x0, []⟩,
  ⟨0x12, 0x060, 1, .cnt, 0x0, 0x0, 0x0, []⟩,
  ⟨0x12, 0x064, 1, .ro, 0x0, 0x0, 0x0, []⟩,
  ⟨0x12, 0x080, 8, .ro, 0x0, 0x0, 0x0, []⟩,
  ⟨0x12, 0x400, 1, .rw, 0x1, 0x3, 0x0, []⟩,
  ⟨0x12, 0x404, 1, .rw, 0x410, 0xFFF, 0x0, [⟨7, 0, 1, 128, 1⟩, ⟨11, 8, 3, 8, 1⟩]⟩]

/-- The ARITH page. -/
def arithRows : List RegRow := [
  ⟨0x13, 0x040, 1, .cnt, 0x0, 0x0, 0x0, []⟩,
  ⟨0x13, 0x044, 1, .cnt, 0x0, 0x0, 0x0, []⟩,
  ⟨0x13, 0x048, 1, .cnt, 0x0, 0x0, 0x0, []⟩,
  ⟨0x13, 0x04C, 1, .cnt, 0x0, 0x0, 0x0, []⟩,
  ⟨0x13, 0x050, 1, .cnt, 0x0, 0x0, 0x0, []⟩,
  ⟨0x13, 0x054, 1, .cnt, 0x0, 0x0, 0x0, []⟩,
  ⟨0x13, 0x058, 1, .ro, 0x0, 0x0, 0x0, []⟩,
  ⟨0x13, 0x05C, 1, .cnt, 0x0, 0x0, 0x0, []⟩,
  ⟨0x13, 0x060, 1, .cnt, 0x0, 0x0, 0x0, []⟩,
  ⟨0x13, 0x400, 1, .rw, 0x0, 0x3FFFF, 0x0, [⟨12, 11, 0, 2, 1⟩]⟩,
  ⟨0x13, 0x404, 1, .ro, 0x0, 0x0, 0x0, []⟩,
  ⟨0x13, 0x408, 1, .rw, 0x0, 0x1, 0x0, []⟩,
  ⟨0x13, 0x500, 64, .ro, 0x0, 0x0, 0x0, []⟩]

/-- The SEARCH page. -/
def searchRows : List RegRow := [
  ⟨0x14, 0x040, 1, .cnt, 0x0, 0x0, 0x0, []⟩,
  ⟨0x14, 0x044, 1, .cnt, 0x0, 0x0, 0x0, []⟩,
  ⟨0x14, 0x048, 1, .cnt, 0x0, 0x0, 0x0, []⟩,
  ⟨0x14, 0x04C, 1, .cnt, 0x0, 0x0, 0x0, []⟩,
  ⟨0x14, 0x050, 1, .cnt, 0x0, 0x0, 0x0, []⟩,
  ⟨0x14, 0x054, 1, .cnt, 0x0, 0x0, 0x0, []⟩,
  ⟨0x14, 0x058, 1, .cnt, 0x0, 0x0, 0x0, []⟩,
  ⟨0x14, 0x05C, 1, .cnt, 0x0, 0x0, 0x0, []⟩,
  ⟨0x14, 0x060, 1, .cnt, 0x0, 0x0, 0x0, []⟩,
  ⟨0x14, 0x064, 1, .cnt, 0x0, 0x0, 0x0, []⟩,
  ⟨0x14, 0x080, 8, .ro, 0x0, 0x0, 0x0, []⟩,
  ⟨0x14, 0x400, 1, .rw, 0x400, 0x7FF, 0x0, [⟨10, 0, 32, 1024, 1⟩]⟩]

/-- The SELECT page. -/
def selectRows : List RegRow := [
  ⟨0x15, 0x040, 1, .cnt, 0x0, 0x0, 0x0, []⟩,
  ⟨0x15, 0x044, 1, .cnt, 0x0, 0x0, 0x0, []⟩,
  ⟨0x15, 0x048, 1, .cnt, 0x0, 0x0, 0x0, []⟩,
  ⟨0x15, 0x04C, 1, .cnt, 0x0, 0x0, 0x0, []⟩,
  ⟨0x15, 0x050, 1, .cnt, 0x0, 0x0, 0x0, []⟩,
  ⟨0x15, 0x054, 1, .cnt, 0x0, 0x0, 0x0, []⟩,
  ⟨0x15, 0x058, 1, .cnt, 0x0, 0x0, 0x0, []⟩,
  ⟨0x15, 0x05C, 1, .cnt, 0x0, 0x0, 0x0, []⟩,
  ⟨0x15, 0x400, 1, .rw, 0x400, 0x7FF, 0x0, [⟨10, 0, 64, 1024, 1⟩]⟩]

/-- The ATTN page. -/
def attnRows : List RegRow := [
  ⟨0x16, 0x040, 1, .cnt, 0x0, 0x0, 0x0, []⟩,
  ⟨0x16, 0x044, 1, .cnt, 0x0, 0x0, 0x0, []⟩,
  ⟨0x16, 0x048, 1, .cnt, 0x0, 0x0, 0x0, []⟩,
  ⟨0x16, 0x04C, 1, .cnt, 0x0, 0x0, 0x0, []⟩,
  ⟨0x16, 0x050, 1, .cnt, 0x0, 0x0, 0x0, []⟩,
  ⟨0x16, 0x054, 1, .cnt, 0x0, 0x0, 0x0, []⟩,
  ⟨0x16, 0x058, 1, .cnt, 0x0, 0x0, 0x0, []⟩,
  ⟨0x16, 0x05C, 1, .cnt, 0x0, 0x0, 0x0, []⟩,
  ⟨0x16, 0x060, 1, .cnt, 0x0, 0x0, 0x0, []⟩,
  ⟨0x16, 0x064, 1, .cnt, 0x0, 0x0, 0x0, []⟩,
  ⟨0x16, 0x068, 1, .cnt, 0x0, 0x0, 0x0, []⟩,
  ⟨0x16, 0x06C, 1, .cnt, 0x0, 0x0, 0x0, []⟩,
  ⟨0x16, 0x070, 1, .cnt, 0x0, 0x0, 0x0, []⟩,
  ⟨0x16, 0x400, 1, .rw, 0x800040, 0x3FF007F, 0x0, [⟨25, 16, 128, 512, 1⟩, ⟨6, 0, 16, 64, 1⟩]⟩]

/-- The LAGOON page. -/
def lagoonRows : List RegRow := [
  ⟨0x17, 0x040, 1, .cnt, 0x0, 0x0, 0x0, []⟩,
  ⟨0x17, 0x044, 1, .cnt, 0x0, 0x0, 0x0, []⟩,
  ⟨0x17, 0x048, 1, .cnt, 0x0, 0x0, 0x0, []⟩,
  ⟨0x17, 0x04C, 1, .ro, 0x0, 0x0, 0x0, []⟩,
  ⟨0x17, 0x050, 1, .ro, 0x0, 0x0, 0x0, []⟩,
  ⟨0x17, 0x054, 1, .cnt, 0x0, 0x0, 0x0, []⟩]

/-- The DRAMC page. -/
def dramcRows : List RegRow := [
  ⟨0x18, 0x040, 1, .ro, 0x8000, 0x0, 0x0, []⟩,
  ⟨0x18, 0x044, 1, .ro, 0x0, 0x0, 0x0, []⟩,
  ⟨0x18, 0x048, 1, .ro, 0x0, 0x0, 0x0, []⟩,
  ⟨0x18, 0x04C, 1, .ro, 0x0, 0x0, 0x0, []⟩,
  ⟨0x18, 0x050, 1, .ro, 0x0, 0x0, 0x0, []⟩,
  ⟨0x18, 0x054, 1, .ro, 0x0, 0x0, 0x0, []⟩,
  ⟨0x18, 0x058, 1, .cnt, 0x0, 0x0, 0x0, []⟩,
  ⟨0x18, 0x05C, 1, .cnt, 0x0, 0x0, 0x0, []⟩,
  ⟨0x18, 0x060, 1, .cnt, 0x0, 0x0, 0x0, []⟩,
  ⟨0x18, 0x064, 1, .ro, 0x0, 0x0, 0x0, []⟩,
  ⟨0x18, 0x068, 1, .cnt, 0x0, 0x0, 0x0, []⟩,
  ⟨0x18, 0x06C, 1, .cnt, 0x0, 0x0, 0x0, []⟩,
  ⟨0x18, 0x070, 1, .ro, 0x0, 0x0, 0x0, []⟩,
  ⟨0x18, 0x400, 1, .rw, 0x0, 0x1FFFFF, 0x0, [⟨20, 0, 0, 1048576, 8⟩]⟩,
  ⟨0x18, 0x404, 1, .rw, 0x1001, 0xFF0F, 0x0, [⟨15, 8, 1, 255, 1⟩, ⟨3, 0, 1, 5, 1⟩]⟩]

/-- The HRING page. -/
def hringRows : List RegRow := [
  ⟨0x19, 0x040, 1, .rw, 0x0, 0xFFFFFFC0, 0x0, []⟩,
  ⟨0x19, 0x044, 1, .rw, 0x0, 0xFFFFFFFF, 0x0, []⟩,
  ⟨0x19, 0x048, 1, .rw, 0x0, 0xFFFFFFE0, 0x0, []⟩,
  ⟨0x19, 0x04C, 1, .rw, 0x0, 0xFFFFFFFF, 0x0, []⟩,
  ⟨0x19, 0x050, 1, .rw, 0x400, 0x7FF1FF1, 0x0, [⟨12, 8, 4, 16, 1⟩]⟩,
  ⟨0x19, 0x054, 1, .rw, 0x400, 0x7FF1F00, 0x0, [⟨12, 8, 4, 16, 1⟩]⟩,
  ⟨0x19, 0x058, 1, .rw, 0x0, 0xFFFF, 0x0, []⟩,
  ⟨0x19, 0x05C, 1, .ro, 0x0, 0x0, 0x0, []⟩,
  ⟨0x19, 0x060, 1, .rw, 0x0, 0xFFFF, 0x0, []⟩,
  ⟨0x19, 0x064, 1, .ro, 0x0, 0x0, 0x0, []⟩,
  ⟨0x19, 0x068, 1, .ro, 0x0, 0x0, 0x0, []⟩,
  ⟨0x19, 0x06C, 1, .cnt, 0x0, 0x0, 0x0, []⟩]

/-- The bits of word `k` of a ferry descriptor that are not reserved (R265 Table 4). -/
def descMask (k : Nat) : Nat :=
  if k = 8 then 0xFF07F7FF else if k = 1 ∨ k = 3 ∨ k = 5 then 0xFFFF else if k < 8 then 0xFFFFFFFF else 0

/-- The words of SLOT_DESC56 to SLOT_DESC63 (R277): LEN has a range. -/
def descRows : List RegRow := (List.range 128).map (fun n =>
  ⟨0x1A, 0x800 + 4 * n, 1, .rw, 0x0, descMask (n % 16), 0x0, if n % 16 = 4 then [⟨31, 0, 1, 2 ^ 30, 1⟩] else []⟩)

/-- The FERRY page. -/
def ferryRows : List RegRow := descRows ++ [
  ⟨0x1A, 0x040, 1, .cnt, 0x0, 0x0, 0x0, []⟩,
  ⟨0x1A, 0x044, 1, .cnt, 0x0, 0x0, 0x0, []⟩,
  ⟨0x1A, 0x048, 1, .cnt, 0x0, 0x0, 0x0, []⟩,
  ⟨0x1A, 0x04C, 1, .ro, 0x0, 0x0, 0x0, []⟩,
  ⟨0x1A, 0x100, 64, .ro, 0x0, 0x0, 0x0, []⟩,
  ⟨0x1A, 0xA00, 8, .wo, 0x0, 0x1, 0x0, []⟩]

/-- The rows of the page of block type `t`. -/
def pageRows (t : Nat) : List RegRow :=
  match t with
  | 1 => devRows
  | 2 => mgmtRows
  | 3 => pwrRows
  | 4 => faultRows
  | 5 => secRows
  | 6 => cmdRows
  | 7 => schedRows
  | 8 => tideRows
  | 9 => indexRows
  | 10 => mutateRows
  | 11 => kvRows
  | 12 => genRows
  | 13 => memRows
  | 14 => vuindigRows
  | 15 => archRows
  | 16 => hostRows
  | 17 => funcRows
  | 18 => zwxRows
  | 19 => arithRows
  | 20 => searchRows
  | 21 => selectRows
  | 22 => attnRows
  | 23 => lagoonRows
  | 24 => dramcRows
  | 25 => hringRows
  | 26 => ferryRows
  | _ => []

end Sys2Proof
end

