-- ==== Sys2Proof/Machine/TypesCore.lean ====
section
/-! DEFINITION. The state of the device outside the data plane: time, power, faults, memory objects and ferries,
functions, contexts and channels, the command engine and the bridge. Plain data only; the register words that
software reads and writes live in `State.regs`, not here. -/

namespace Sys2Proof.Machine

/-- The answers of a management request (chapter 18, chapter 17). -/
inductive MctpAns where
  | register (err : Bool) (data : Nat)
  | control (code : Nat)
  | pldm (code : Nat) (body : List Nat)
  | spdm (code : Nat) (body : Body)
  | sensorEvent (id : Nat) (value : Nat)
  | oem (cls : Nat) (body : List Nat)
  | needFirmware (off : Nat) (len : Nat)
  deriving DecidableEq, Repr

/-- What the block sends out, in the order it is queued. -/
inductive Out where
  | cpl (dst : Nat) (c : CplPkt)
  | xferReady (dst func tag handle grant : Nat)
  | busyRetry (dst cause func tag hint : Nat)
  | event (e : EventPkt)
  | regRsp (dst : Nat) (r : RegPkt)
  | regAnswer (p : Path) (addr : Nat) (wide : Bool) (val : Nat) (err : Bool)
  | cmd (ord : Nat) (h : CmdHdr) (b : Body)
  | data (ord : Nat) (d : DataPkt)
  | regRead (ord : Nat) (r : RegPkt)
  | regWrite (ord : Nat) (r : RegPkt)
  | hostWrite (addr : Nat) (b : Body)
  | msix (vec : Nat)
  | ack (port lseq : Nat)
  | nak (port lseq : Nat)
  | credit (port : Nat) (cls : FClass) (vc : Nat) (transit : Bool) (units : Nat)
  | frame (port : Nat) (f : FrameIn) (wire : Body)
  | packet (dst : Nat) (group : Bool) (ptype : Nat) (body : Body)
  | xwrite (dst : Nat) (x : XPkt)
  | xmulti (group : Nat) (x : XPkt)
  | xread (dst : Nat) (x : XPkt)
  | xack (dst : Nat) (x : XPkt)
  | xreadRsp (dst : Nat) (x : XPkt)
  | mgmt (t : Transport) (a : MctpAns)
  | atomicOld (islet : Nat) (old : Nat)
  | refusedAtomic (islet : Nat) (status : Nat)
  | keyExchange (port : Nat)
  | flashCommand (unit : Nat) (write : Bool)
  deriving DecidableEq, Repr

/-- The power states of R377 Table 1. -/
inductive PState where
  | run | cap | hold | quiesce | watch | off
  deriving DecidableEq, Repr

/-- One wake pin (R390): its level as active or not, the level last accepted, whether a debounce runs, its mask, its
stuck bit, whether a re-arm waits for the inactive level, and the watch-domain time of its last acceptance. -/
structure PinSt where
  active : Bool
  accepted : Bool
  changedAt : Option Nat
  masked : Bool
  stuck : Bool
  rearm : Bool
  acceptedAt : Nat
  deriving DecidableEq, Repr

/-- A management request that waits for LOGIC_RDY (R386). -/
inductive PReq where
  | hold | leave | watch (force : Bool)
  deriving DecidableEq, Repr

/-- The watch domain and the power, clock and cooling controller (chapter 15). `upStep` is the step of Table 2 in
progress (0: none); `downCause` is the LAST_DOWN cause of an orderly power-down in progress. -/
structure PwrSt where
  st : PState
  upStep : Nat
  downCause : Option Nat
  downStep : Nat
  rdy : Nat
  fullMode : Bool
  coolWait : Bool
  pufails : Nat
  wakeNoted : Bool
  resetHeld : Bool
  perst : Bool
  linkTraining : Bool
  inputGood : Bool
  nCap : Nat
  holdReq : Bool
  conds : List CoolCond
  samples : List Nat
  flowHigh : Nat
  lastCap : Nat
  valve : Nat
  integ : Int
  lastWake : Option Nat
  heldWake : Bool
  pins : List PinSt
  reqs : List PReq
  capBelow : Nat
  deriving DecidableEq, Repr

/-- An entry of the fault log (R409 Table 4). -/
structure FaultEntry where
  time : Nat
  seq : Nat
  blkType : Nat
  blkInst : Nat
  cls : Nat
  action : Nat
  func : Nat
  addr : Nat
  deriving DecidableEq, Repr

/-- An entry of the fence list (R403): the unit, its fences since the list was cleared, whether it is fenced now. -/
structure FenceEntry where
  unit : FenceUnit
  count : Nat
  fenced : Bool
  deriving DecidableEq, Repr

/-- One control core (R406): running, restarting, and the times of its recent restarts. -/
structure CoreSt where
  up : Bool
  restarting : Bool
  restarts : List Nat
  deriving DecidableEq, Repr

/-- Faults, fences and logs (chapter 16). `islands` and `islets` are the fenced units (islets as island × 16 +
index); `flashRing` and `storedList` are what the flash system area holds. -/
structure FaultSt where
  islands : List Nat
  islets : List Nat
  fenceList : List FenceEntry
  storedList : List FenceEntry
  selfTests : List FenceUnit
  log : List FaultEntry
  logSeq : Nat
  copied : Nat
  flashRing : List FaultEntry
  failedStacks : List Nat
  cores : List CoreSt
  lineUe : List (Bool × Nat × Nat)
  causes : List (FenceUnit × FenceCause)
  deriving DecidableEq, Repr

/-- A memory object (R248, R258): owner and handle, where its one copy lies, granules and T3 units in order, the
functions that hold pins, the functions it is shared to with their handles. -/
structure Obj where
  func : Nat
  handle : Nat
  t3Alloc : Bool
  inT2 : Bool
  stack : Nat
  parity : Bool
  size : Nat
  grans : List Nat
  units : List Nat
  pins : List Nat
  shares : List (Nat × Nat)
  key : Option Nat
  deriving DecidableEq, Repr

/-- Why an object is being copied (R260, R261): a MOVE, a PROMOTE or an EVICT, or a retirement-free ALLOC zeroing. -/
inductive MemOpKind where
  | alloc | move | promote | evict
  deriving DecidableEq, Repr

/-- A MEM operation in flight: the command, the object, the target stack and granules, whether the copy has ended
and the switch waits for a tide boundary. -/
structure MemOp where
  kind : MemOpKind
  func : Nat
  tag : Nat
  owner : Nat
  handle : Nat
  dstStack : Nat
  dstGrans : List Nat
  copied : Bool
  deriving DecidableEq, Repr

/-- A MEM command that waits for an earlier one on its object (R262). -/
structure MemWait where
  h : CmdHdr
  b : Body
  owner : Nat
  handle : Nat
  deriving DecidableEq, Repr

/-- The stop codes of FERRY.SLOT_STAT (R277 Table 12). -/
inductive FerryCode where
  | none | access | addr | unreadable | param | abandoned
  deriving DecidableEq, Repr

/-- One ferry slot (R267): generation number, the code of its last stop and whether its last generation stopped with it, working
copy, pending generation, and the descriptor that stands in it. `order` and `pOrder` are the arming counts; `started` says that the
generation runs, `sent` is the count of its start among those of all ferries (R18), `merged` that it runs within an earlier one's transfer
(R269), `waited` that a lock has held it (R33); `acked` are the parity lines already acknowledged (R251). -/
structure SlotSt where
  island : Nat
  slot : Nat
  gen : Nat
  code : FerryCode
  err : Bool
  work : Option FerryDesc
  order : Nat
  started : Bool
  sent : Nat
  merged : Bool
  waited : Bool
  acked : List Nat
  desc : FerryDesc
  pend : Option FerryDesc
  pOrder : Nat
  deriving DecidableEq, Repr

/-- A stack controller's own state (R272 to R275): temperature, refresh and throttle state, thermal ceiling, and the
period's counters, with `late` the accesses at or after the period's end (R7), as (time, function, handle, bytes read, bytes written);
`fb` are the bytes of each function since the last energy sample. `deferred` are the granules whose retirement waits for a free one. `ces` are the corrected errors of each granule in this scrub pass, `bad` the lines that ECC cannot correct,
`ues` the granules that held such a line and await retirement. -/
structure StackSt where
  temp : Nat
  refresh2x : Bool
  throttle : Bool
  nTherm : Nat
  lastTick : Nat
  rd : Nat
  wr : Nat
  objs : List (Nat × Nat × Nat)
  late : List (Nat × Nat × Nat × Nat × Nat)
  fb : List (Nat × Nat)
  ces : List (Nat × Nat)
  bad : List Nat
  ues : List Nat
  deferred : List Nat
  deriving DecidableEq, Repr

/-- A lagoon share (R253): its owner and its units on each island of `islands`. -/
inductive ShareOwner where
  | index (n : Nat) | model | ctx (slot : Nat)
  deriving DecidableEq, Repr

/-- See `ShareOwner`. `die` is the die of a centroid share; every other share lies on every island. `us` gives the units
the share takes on the islands of each die. -/
structure Share where
  owner : ShareOwner
  die : Option Nat
  us : List (Nat × List Nat)
  deriving DecidableEq, Repr

/-- The old place of a page of an object that has moved (R260): its device address and the new one in units of 64 KiB, and the
arming count at the switch. Descriptors armed up to then keep the old address. -/
structure Fwd where
  old : Nat
  new : Nat
  armed : Nat
  deriving DecidableEq, Repr

/-- A run of consecutive granules of a stack that the device holds for itself. -/
structure GranRun where
  stack : Nat
  first : Nat
  n : Nat
  deriving DecidableEq, Repr

/-- The sorted runs of 256 entries that an island's lagoon holds of a long list (R150, R253): the command and the list's number within
it, the island, the runs in the system area, and the borrowed units with the runs that each holds. -/
structure RunList where
  cmd : CmdRef
  key : Nat
  island : Nat
  sys : Nat
  units : List (Nat × Nat)
  deriving DecidableEq, Repr

/-- Memory tiers (chapter 10). `retired` is the stacks' retired lists (stack, granule) and `retiredStored` the
copy in flash; `runs` the sorted runs that lagoons hold (R150); `intake` the intake area (R331) and `intakeUsed` its
granules that bodies hold. -/
structure MemSt where
  objs : List Obj
  ops : List MemOp
  waits : List MemWait
  retired : List (Nat × Nat)
  retiredStored : List (Nat × Nat)
  slots : List SlotSt
  armSeq : Nat
  sendSeq : Nat
  stk : List StackSt
  shares : List Share
  runs : List RunList
  fwds : List Fwd
  intake : List GranRun
  intakeUsed : List (Nat × Nat)
  intakeMiB : Nat
  deriving DecidableEq, Repr

/-- The context states of R298 Table 1; FREE contexts are not listed. -/
inductive CtxState where
  | waiting | resident | retiring
  deriving DecidableEq, Repr

/-- An open context (R298, R299). `slot` and `first` hold while it is resident or retiring. `since` is when it was admitted or went back to
WAITING last, and `done` when a command of its channels left it last (R312). -/
structure Ctx where
  id : Nat
  func : Nat
  prio : Nat
  slices : Nat
  units : Nat
  seed : Nat
  st : CtxState
  slot : Nat
  first : Nat
  retire : Option CmdRef
  since : Nat
  done : Nat
  deriving DecidableEq, Repr

/-- An open channel (R303, R305): its context, ingress island, arrival count, flow entry, the ring and the sender of its CH_OPEN,
the CH_CLOSE that waits, and the commands held unstamped in order (R304). -/
structure Chan where
  num : Nat
  func : Nat
  ctx : Nat
  island : Nat
  flow : Bool
  ring : Nat
  closing : Option CmdRef
  held : List CmdRef
  newIsland : Option Nat
  src : Nat
  deriving DecidableEq, Repr

/-- The states of a function (R323 Table 8) with the cause of the reset under way. -/
inductive FState where
  | disabled | active | resetting (cause : Nat) (killed : Bool)
  deriving DecidableEq, Repr

/-- What a task is for (chapter 12, Dispatch). -/
inductive TaskKind where
  | stage (slot : Nat) (piece : Nat) (st : Nat) (layer : Nat) (chunk : Nat) (col : Nat)
  | split (a : AttnRef) (n : Nat) (rowBlock : Nat)
  | merge (a : AttnRef)
  | piece (row : Nat) (n : Nat)
  | probe
  | scan (block : Nat) (group : Nat)
  | moves (idx : Nat) (shoal : Nat)
  | backward
  | sample (slot : Nat) (entry : Nat)
  deriving DecidableEq, Repr

/-- A task of a dispatch queue (R306 to R311). `ctx` is none for a sequencer task (R307); `islet` the islet it runs
on, `started` when it began there and `since` the time up to which its islet time, or while it is queued its wait, has been charged;
`ran` is the islet time charged of the present run; `tiles` its live tiles at its last yield and `save` the islet that holds their save area
(R309); `homes` the islands to
which a task goes first free, in order of preference, none where its island is settled (R160, R176). -/
structure Task where
  id : Nat
  island : Nat
  kind : TaskKind
  func : Nat
  ctx : Option Nat
  cls : Nat
  aged : Bool
  entered : Nat
  ready : Bool
  islet : Option Nat
  started : Nat
  since : Nat
  killing : Bool
  kills : Nat
  tiles : Nat
  save : Option Nat
  ran : Nat
  cmd : Option CmdRef
  homes : List Nat
  deriving DecidableEq, Repr

/-- An accounting record (R318 Table 3). -/
structure Acct where
  engine : Nat
  t2rd : Nat
  t2wr : Nat
  t3rd : Nat
  t3wr : Nat
  link : Nat
  energy : Nat
  qwait : Nat
  deriving DecidableEq, Repr

/-- The slowdown sums of one slot (R319). -/
structure SlotAcct where
  busy : Nat
  qwait : Nat
  killed : Nat
  switched : Nat
  deriving DecidableEq, Repr

/-- A charge at or after the end of the open accounting window (R7, R317): an event at `t0` = `t1`, or an interval from `t0` to `t1`, of a
function's record and of a slot's sums. -/
structure LateAcct where
  t0 : Nat
  t1 : Nat
  func : Nat
  a : Acct
  slot : Option Nat
  sa : SlotAcct
  deriving DecidableEq, Repr

/-- One island's slow-sample counts (R315): consecutive slow samples, consecutive fast samples, its SLOW bit, the
lowest set clock over the slow samples and the cause. -/
structure SlowSt where
  island : Nat
  slow : Nat
  fast : Nat
  flag : Bool
  minN : Nat
  cause : Nat
  report : Bool
  deriving DecidableEq, Repr

/-- A multicast in flight (R316): the sender, and for each attached receiver the bytes it has acknowledged. -/
structure Mcast where
  sender : Nat
  total : Nat
  recv : List (Nat × Nat)
  detached : List Nat
  weight : Bool
  deriving DecidableEq, Repr

/-- Functions, contexts and the scheduler (chapter 12). `late` holds what belongs to windows after the open one (R317). `snap` holds what each record's link and flash bytes were at the last energy
sample, counted from the start of the open window; `energyAt` is the time of that sample. -/
structure SchedSt where
  funcs : List FState
  ctxs : List Ctx
  chans : List Chan
  tasks : List Task
  nextTask : Nat
  lastPreempt : List (Nat × Nat)
  lastRan : List (Nat × Nat)
  starved : Option Nat
  slow : List SlowSt
  lastSample : Nat
  mcasts : List Mcast
  cur : List Acct
  closed : List Acct
  snap : List (Int × Int)
  energyAt : Nat
  windowStart : Nat
  slotCur : List SlotAcct
  late : List LateAcct
  slotClosed : List Nat
  window : Nat
  windowEnd : Nat
  closedWin : Option Nat
  islandBusy : List (Nat × Nat × Nat)
  deriving DecidableEq, Repr

/-- Where a live command stands (R328, R333, R304, R338). -/
inductive CmdStage where
  | awaiting | held | delivered | running | staged
  deriving DecidableEq, Repr

/-- A live command (R328): header, body, ranges received, handle of its grant, its stage, its stamps, and whether it
has passed its commit point; `came` is the time at which it was taken. -/
structure Live where
  h : CmdHdr
  body : Body
  got : List (Nat × Nat)
  handle : Nat
  intake : List (Nat × Nat)
  stage : CmdStage
  island : Nat
  stamp : Nat
  tide : Nat
  epoch : Nat
  accepted : Nat
  order : Nat
  committed : Bool
  came : Nat
  deriving DecidableEq, Repr

/-- A running back-off (R332): function, channel (none for the function-class queue), cause, its end, and the
BUSY_RETRY answers since the last acceptance. -/
structure Hint where
  func : Nat
  chan : Option Nat
  cause : Nat
  untilNs : Nat
  n : Nat
  deriving DecidableEq, Repr

/-- What the command engine sends to an ingress island in one stream (R96): a command, or the marker of a boundary with its number and
its place in the count of boundaries. -/
inductive Stream where
  | cmd (r : CmdRef) | mark (number bno : Nat)
  deriving DecidableEq, Repr

/-- The command engine (chapter 13). `deliver` is the delivery stream of each ingress island: commands and boundary
markers in order; `counts` the arrival counts of islands. -/
structure CmdSt where
  ready : Bool
  live : List Live
  hints : List Hint
  order : Nat
  counts : List (Nat × Nat)
  deliver : List (Nat × Stream)
  answerMax : Nat
  deriving DecidableEq, Repr

/-- A command the bridge holds for a ring (R345 to R349): `sent` to the device and `answered` by it, or `refused` by BUSY_RETRY and to be
sent again; `retried` says that it has been refused before. -/
structure RingCmd where
  id : Nat
  ring : Nat
  ord : Nat
  h : CmdHdr
  body : Body
  respAddr : Nat
  respLen : Nat
  sent : Bool
  answered : Bool
  refused : Bool
  retried : Bool
  sentAt : Nat
  resendAt : Nat
  deriving DecidableEq, Repr

/-- A completion entry that waits for room in its ring (R347): the CPL it reports, BRIDGE_GEN and TRUNC. -/
structure WaitCpl where
  ring : Nat
  c : CplPkt
  gen : Bool
  trunc : Bool
  deriving DecidableEq, Repr

/-- A window access in flight (R350). -/
structure WinAcc where
  rid : Nat
  ord : Nat
  wide : Bool
  write : Bool
  off : Nat
  sentAt : Nat
  deriving DecidableEq, Repr

/-- The bridge (chapter 13, Rings on the bridge; R362, R363): the commands it holds, the completions that wait, SQ_HEAD of each ring,
the entries written to each completion ring and to the event ring since it was set up, whether the next event carries OVERFLOW, and the
window accesses in flight. -/
structure BridgeSt where
  cmds : List RingCmd
  waits : List WaitCpl
  sqHead : List (Nat × Nat)
  cqTail : List (Nat × Nat)
  evqTail : Nat
  evqOver : Bool
  wins : List WinAcc
  nextRid : Nat
  nextCmd : Nat
  deriving DecidableEq, Repr

end Sys2Proof.Machine
end

