-- ==== Sys2Proof/Machine/TypesData.lean ====
section
/-! DEFINITION. The state of the data plane: indexes and searches, selections, the key-value cache, generation, and the
islets' arithmetic. -/

namespace Sys2Proof.Machine

/-- How the passes of an operation accumulate (R44, R45, R47, R49). -/
inductive AccMode where
  | narrow | full | wide
  deriving DecidableEq, Repr

/-- A matrix operation in flight (R31): the passes done, the attempt of R45, the column generators of R40, and the flags
of its scale word so far. `waits` says that the scoreboard hold has been counted (R35). -/
structure MatRun where
  op : MatOp
  pass : Nat
  attempt : Nat
  mode : AccMode
  promoted : Bool
  winRange : Bool
  gens : List Nat
  ovf : Bool
  nanSeen : Bool
  finished : Bool
  deriving DecidableEq, Repr

/-- An islet (R34 to R36, R50, R61): the 1,024 entries and the scale word of each tile, the operations in flight in issue
order, the vector registers written so far, and the debug halt; `ctx` is the context whose tiles they are, and `vwaits` the vector-unit
writes, by islet-memory offset, that a lock holds (R33). -/
structure IsletSt where
  islet : Nat
  acc0 : List Nat
  acc1 : List Nat
  scale0 : Nat
  scale1 : Nat
  ops : List MatRun
  vregs : List (Nat × List Nat)
  vwaits : List (Nat × List Byte)
  ctx : Option Nat
  halt : Bool
  halted : Bool
  deriving DecidableEq, Repr

/-- The outgoing strait of an island in one direction (R17, R400): failures in a row, cut, and the input it granted last. -/
structure StraitSt where
  island : Nat
  dir : Dir
  fails : Nat
  cut : Bool
  last : Nat
  deriving DecidableEq, Repr

/-- The transfers waiting at an island's router from one input: a neighbour's direction, or none for its own islets. -/
structure InQueue where
  island : Nat
  from_ : Option Dir
  q : List Transfer
  deriving DecidableEq, Repr

/-- The islets' arithmetic and the strait fabric. `arrived` holds the transfers that have reached their islands, in
order. -/
structure ArithSt where
  islets : List IsletSt
  straits : List StraitSt
  inq : List InQueue
  arrived : List Transfer
  deriving DecidableEq, Repr

/-- One entry of the centroid copy (R69, R97): the FP32 centroid it was built from, INT8 codes, one E4M3 scale for each 32 dimensions,
and the word kept beside it. -/
structure CentCopy where
  src : List Nat
  codes : List Int
  scales : List Nat
  word : Nat
  deriving DecidableEq, Repr

/-- An INDEX_SAVE in progress (R88): its command, its target's handle, and the image of the state at its start. -/
structure SaveRun where
  r : CmdRef
  target : Nat
  deriving DecidableEq, Repr

/-- An index that is not absent (R65, R87): number, function, ingress island and the one
that takes its place at the next boundary, STATE (1 loading, 2 ready, 3 unloading), the
host's 64 descriptor bytes, LIVE_COUNT, the image handle of its load (0: none), how far the load has come, the units on each island that
its centroid share will take (R70), the centroid copy, the commands that wait, the count of the last boundary whose seal has happened, the directory page at which the
next sweep begins, and the section digests of the image it was loaded from (R427). -/
structure Index where
  no : Nat
  func : Nat
  ingress : Nat
  newIngress : Option Nat
  st : Nat
  desc : Body
  live : Nat
  img : Nat
  imgDone : Bool
  built : Bool
  due : Nat
  cents : List CentCopy
  loadCmd : Option CmdRef
  unloadCmd : Option CmdRef
  saves : List SaveRun
  sealNo : Nat
  sweep : Nat
  lowDir : Bool
  digests : List Byte
  deriving DecidableEq, Repr

/-- What the device keeps of a shoal beside its header (R125, R126, R129, R138): rows staged and not committed, rows committed while ROWS
cannot pass a staged row below them, abandoned rows above ROWS, and quarantined rows with the boundary count of their trim. -/
structure ShoalSt where
  idx : Nat
  shoal : Nat
  staged : List Nat
  above : List Nat
  abandoned : List Nat
  quar : List (Nat × Nat × Nat)
  deriving DecidableEq, Repr

/-- A compaction candidate or pass (R135): whether it runs, whether its moves are done and the trim waits, the rows its last moves have
left (R138), and the INDEX_COMPACT commands it serves. -/
structure Pass where
  idx : Nat
  shoal : Nat
  running : Bool
  moved : Bool
  left : List Nat
  cmds : List CmdRef
  deriving DecidableEq, Repr

/-- A filter bitmap's commit state (R81, R125): the object, the epoch of its last commit while that is recent, leaves that
wait to be freed with the epoch of the commit that replaced them, the blocks for which staging has written a new leaf with that leaf,
and the blocks whose bits R461 leaves undefined. -/
structure FiltSt where
  func : Nat
  handle : Nat
  idx : Nat
  recent : Option Nat
  toFree : List (Nat × Nat)
  pre : List (Nat × Nat)
  undef : List Nat
  deriving DecidableEq, Repr

/-- One record of a staged MUTATE: status, operation, item, new placements (shoal, row), removed slots, and the filter bits
it sets (handle, slot, bit). -/
structure StRec where
  status : Nat
  op : Nat
  id : Nat
  places : List (Nat × Nat)
  removes : List Nat
  fbits : List (Nat × Nat × Bool)
  deriving DecidableEq, Repr

/-- A stamped MUTATE (R124): its command, index, stamp order, the boundary count of its stamp, COMMIT_AT, its records
once staged, and whether its deferral, its log hold and its directory hold have been counted. -/
structure Staged where
  r : CmdRef
  idx : Nat
  ord : Nat
  bno : Nat
  commitAt : Nat
  count : Nat
  recs : Option (List StRec)
  deferred : Bool
  deriving DecidableEq, Repr

/-- An entry of a list (R143, R144): FP32 score, index, device ordinal, and the slot of a scan candidate. -/
structure Ent where
  score : Nat
  id : Nat
  ord : Nat
  slot : Nat
  deriving DecidableEq, Repr

/-- A query's part in a set: its command and its stamp order, its candidates, the threshold that the island stage publishes for its list
(R149), its visible and passing rows, and whether blocks were skipped. -/
structure SetQ where
  r : CmdRef
  ord : Nat
  thr : Nat
  cand : List Ent
  vis : Nat
  pass : Nat
  skipped : Bool
  out : Bool
  deriving DecidableEq, Repr

/-- The states of a set bank that is not EMPTY (R100 Table 3). -/
inductive BankSt where
  | gather | sealed_ | scan | report
  deriving DecidableEq, Repr

/-- A set bank in use: its shoal, its state, its cap, the boundary count at which it seals, ROWS and the code run as they stood at the
seal (R102), the island that scans it, LAGOON_KIB when its lists were opened (R162), whether its overrun was counted, and its queries in
stamp order. -/
structure Bank where
  idx : Nat
  shoal : Nat
  st : BankSt
  cap : Nat
  target : Nat
  rows : Nat
  code : Option Obj
  island : Nat
  kib : Nat
  late : Bool
  qs : List SetQ
  deriving DecidableEq, Repr

/-- Where a query stands: probe selection, scanning, merged and ready for re-rank, or ready to complete. -/
inductive QSt where
  | probing | scanning | merged | final
  deriving DecidableEq, Repr

/-- A stamped SEARCH (R91 to R117). `bno` is the boundary count of its tide, `order` the shoals by centroid rank, `pos` the
walk's next rank, `taken` the probes taken, `round` the probes of all rounds so far, `waiting` the probes that wait for a
bank, `nBound` those bound whose lists have not arrived, `rounds` the widening rounds, `lists` the list that each die's merge stage holds
for it (R152). -/
structure Query where
  r : CmdRef
  idx : Nat
  ord : Nat
  epoch : Nat
  bno : Nat
  st : QSt
  vec : List Nat
  codes : List Int
  scales : List Nat
  norm : Nat
  order : List (Nat × Nat)
  pos : Nat
  taken : Nat
  probesDone : Nat
  waiting : List Nat
  nBound : Nat
  rounds : Nat
  level : Nat
  vis : Nat
  pass : Nat
  dup : Nat
  skipped : Bool
  rrPart : Bool
  merged : List Ent
  lists : List (Nat × List Ent)
  result : List Ent
  tie : Bool
  deriving DecidableEq, Repr

/-- Where a piece of a row, or a list of a MERGE, runs (R160), with LAGOON_KIB when its list was opened (R162). -/
structure PieceAt where
  row : Nat
  piece : Nat
  island : Nat
  kib : Nat
  deriving DecidableEq, Repr

/-- A stamped SELECT (R154): where its pieces run, the pieces done, the list that each die's merge stage holds of each row (die, row,
list), the NaN entries of each row, and whether a source block was unreadable. -/
structure SelRun where
  r : CmdRef
  at_ : List PieceAt
  done : List (Nat × Nat)
  lists : List (Nat × Nat × List Ent)
  nans : List (Nat × Nat)
  bad : Bool
  deriving DecidableEq, Repr

/-- The last boundary marker that an ingress island has recorded (R96): the boundary's number, its place in the count of boundaries, and
the island's arrival count at the marker. -/
structure Mark where
  island : Nat
  number : Nat
  bno : Nat
  stamp : Nat
  deriving DecidableEq, Repr

/-- Indexes, the tide clock, searches, mutations and selections. `epoch` is the tide number; `bno` counts boundaries;
`period` is the period in force in ns; `marks` gives each ingress island the last boundary whose marker it
has recorded (R96); `markHi` the highest number received in epoch packets
(R132); `setMax` the SET_MAX in force on each die; `scanned` the bytes scanned from each stack in this tide and `lastRate`
those of the tide before, which lasted `lastPeriod` ns; `compact` and `lostTides` the words of COMPACT_CFG and LOST_TIDES in force (R142);
`swept` the flash bytes of the last boundary's directory sweeps (R79). -/
structure IdxSt where
  indexes : List Index
  epoch : Nat
  bno : Nat
  lastBoundary : Nat
  period : Nat
  marks : List Mark
  markHi : Nat
  sinceMark : Nat
  lost : Bool
  setMax : List Nat
  shoals : List ShoalSt
  filts : List FiltSt
  banks : List Bank
  queries : List Query
  staged : List Staged
  passes : List Pass
  sels : List SelRun
  qOrd : Nat
  scanned : List Nat
  lastRate : List Nat
  lastPeriod : Nat
  compact : Nat
  lostTides : Nat
  swept : Nat
  deriving DecidableEq, Repr

end Sys2Proof.Machine
end

