-- ==== Sys2Proof/Machine/TypesGen.lean ====
section
/-! DEFINITION. The state of the key-value cache (chapter 8), attention (chapter 7) and generation (chapter 9). -/

namespace Sys2Proof.Machine

/-- The cache of a configured context (R193, R194, R214): its pools as (frame object, list object), its other objects, mode,
layout and quota, the mode and quota that take effect at the next step boundary, its frames in use as (pool, frame), leaf
slots and directory slots in use, the chunks in use, the age queue with the count of entries ever appended, its spill
frames in use, where the next spill begins to look, and the at-rest key of its function, under which its spill frames are written (R291). -/
structure KvCtx where
  ctx : Nat
  func : Nat
  pools : List (Nat × Nat)
  root : Nat
  ageq : Nat
  drop : Bool
  layout : Nat
  mirror : Bool
  devs : List Nat
  mirs : List Nat
  span : Nat
  quota : Nat
  next : Option (Bool × Nat)
  frames : List (Nat × Nat)
  leaves : List (Nat × Nat)
  dirSlots : List (Nat × Nat)
  chunks : List (Nat × Nat)
  age : List PageRef
  ageTail : Nat
  spill : List Nat
  spillNext : Nat
  key : Option Nat
  deriving DecidableEq, Repr

/-- A page movement in flight: a spill, a promotion or a relocation (R198, R204, R207), with its frame of a pool (the source of a
spill, the target of the others), its spill frame, and the KV command that it serves. `spare` is the waiting sequence that a spill is made
for (R200), `done` a movement whose write has ended and whose frame or switch waits (R198, R205), and `gone` one whose sequence has closed
meanwhile (R205). -/
structure PageMove where
  p : PageRef
  ctx : Nat
  pool : Nat
  frame : Nat
  spill : Nat
  cmd : Option CmdRef
  spare : Option Nat
  done : Bool
  gone : Bool
  deriving DecidableEq, Repr

/-- A mirrored page of another device (R212) whose sequence is not open here: its spill frame, the parts that have come, its metadata and
the tokens of its positions. -/
structure PageCopy where
  ctx : Nat
  p : PageRef
  frame : Nat
  parts : List Nat
  md : List Byte
  toks : List Byte
  deriving DecidableEq, Repr

/-- A PREFETCH or SPILL under way: its pages in flight, and the counts handled and skipped (R214). -/
structure KvRun where
  r : CmdRef
  left : Nat
  handled : Nat
  skipped : Nat
  deriving DecidableEq, Repr

/-- The key-value cache. `relocs` are the relocations under way, `mirroring` the pages whose mirror copy has no answer, `rebuild` the pages
that sequences wait for before their entries restart (R209), `far` the page lists and partials that other devices have sent and no
attention has taken yet (R174, R181), `holds` the sequences that other devices hold, as (context, sequence, device) (R211), and `copies`
the mirrored pages of sequences that are not open here (R212). -/
structure KvSt where
  ctxs : List KvCtx
  spills : List PageMove
  promos : List PageMove
  relocs : List PageMove
  mirroring : List PageRef
  runs : List KvRun
  rebuild : List PageRef
  far : List XPkt
  holds : List (Nat × Nat × Nat)
  copies : List PageCopy
  deriving DecidableEq, Repr

/-- The resident model (R218 to R222): STATE (0 absent, 1 loading, 2 resident, 3 unloading, 4 fault), its function, its
descriptor, image and identity, its load command, WIN_KIB at the load, and the section digests of its image (R427). -/
structure ModelSt where
  st : Nat
  func : Nat
  desc : Body
  img : Nat
  ident : Nat
  loadCmd : Option CmdRef
  winKib : Nat
  digests : List Byte
  deriving DecidableEq, Repr

/-- An open sequence (R229, R230): the fields of Table 6, its context and channel, its written positions, its last sampled
token, its generated tokens, the highest level used, when it became ready, whether it has committed, the step boundary at which it entered PAGE_WAIT
and the entry it waits for, the boundary count at which its reservation began, the boundaries in a row without a candidate, its
SEQ_CLOSE, its flow SEQ_OPEN, whether it has ended, and whether it then keeps its pages until its SEQ_CLOSE. -/
structure Seq where
  slot : Nat
  func : Nat
  ctx : Nat
  chan : Nat
  flow : Bool
  cohort : Nat
  body : Body
  written : Nat
  last : Nat
  tokens : Nat
  level : Nat
  readyAt : Nat
  began : Bool
  wait : Option Nat
  want : Option (Nat × Nat)
  heldAt : Nat
  noCand : Nat
  closeCmd : Option CmdRef
  openCmd : Option CmdRef
  ended : Bool
  keep : Bool
  deriving DecidableEq, Repr

/-- A fresh key and value row (R165, R168): its entry, row within the entry, layer and group, codes and scales. -/
structure Fresh where
  entry : Nat
  row : Nat
  layer : Nat
  group : Nat
  kc : List Int
  vc : List Int
  ks : Nat
  vs : Nat
  deriving DecidableEq, Repr

/-- A split (R175): its pages, whether they lie in T3, its stack, the T3 pages that have landed and the row blocks done. -/
structure Split where
  pages : List Nat
  t3 : Bool
  stack : Nat
  landed : List Nat
  done : List Nat
  deriving DecidableEq, Repr

/-- A partial (o, l, m) of one row of a row block (R177): the split's first page and its count of pages, the row's index among all rows of
the entry and group, in the order of R168. -/
structure Part where
  first : Nat
  pages : Nat
  row : Nat
  o : List Nat
  l : Nat
  m : Nat
  deriving DecidableEq, Repr

/-- The attention of one entry, layer and head group in flight: whether page choice has ended, and whether this device's list has gone to
the device that merges the lists (R174); the retrieved pages, the splits, the partials, the merge island, its lagoon counter (R180), and the
merged rows. -/
structure AttnRun where
  entry : Nat
  layer : Nat
  group : Nat
  chosen : Bool
  listed : Bool
  retr : List Nat
  splits : List Split
  parts : List Part
  merge : Nat
  arrived : Nat
  out : Option (List (List Nat))
  deriving DecidableEq, Repr

/-- An entry of a cohort step: the fields of R167 Table 3, its level, its status, its die, its sampled token, its NaN flag,
the time its token was sampled, and whether it has left the step for a recomputation (R209). -/
structure CEntry where
  seq : Nat
  qlen : Nat
  pos0 : Nat
  rowBase : Nat
  level : Nat
  status : Nat
  die : Nat
  token : Option Nat
  nan : Bool
  doneAt : Nat
  left : Bool
  deriving DecidableEq, Repr

/-- Rows that move through the stages together (R234, R235): up to SWAP32 × 32 rows of one micro-batch, as (entry, row).
`st` and `layer` name the stage that works on them (8: done), `started` says that the stage's tasks have been made, `full`
that the stage has produced every row and its SWAP is due, and `queued` the consumer island whose queue holds their handle. `done`
are the chunks and column blocks that have ended, `parts` the values of finished columns as (row, column block, values), `res` the
residual rows and `cur` the rows that the last stage produced. `swapped` are the islands whose halves of the stage have been handed over;
`again` the column blocks, as (stage, layer, chunk, block), that a fence has made the device produce again, and `owed` the handles that are
then issued again, each with its consumer (R241). -/
structure Piece where
  die : Nat
  mb : Nat
  rows : List (Nat × Nat)
  low : Bool
  chunk0 : Nat
  st : Nat
  layer : Nat
  started : Bool
  full : Bool
  done : List (Nat × Nat)
  parts : List (Nat × Nat × List Nat)
  res : List (List Nat)
  cur : List (List Nat)
  swapped : List Nat
  again : List (Nat × Nat × Nat × Nat)
  owed : List (Nat × BufHandle)
  deriving DecidableEq, Repr

/-- A window of an island's lagoon (R224): the tiles in it. -/
structure Window where
  island : Nat
  tiles : List TileRef
  deriving DecidableEq, Repr

/-- A cohort step in flight (R233): its slot, channel, flow cohort, function and context, its STEP, its number, when it opened,
its entries, pieces, fresh rows, attentions and windows, the islet time its tasks have used, and the bytes and operations of
R313. -/
structure Cohort where
  slot : Nat
  chan : Nat
  flow : Option Nat
  func : Nat
  ctx : Nat
  cmd : Option CmdRef
  no : Nat
  opened : Nat
  entries : List CEntry
  pieces : List Piece
  fresh : List Fresh
  attns : List AttnRun
  wins : List Window
  busy : Nat
  bytes : Nat
  ops : Nat
  deriving DecidableEq, Repr

/-- A consumer's queue of buffer handles (R235). -/
structure HQueue where
  island : Nat
  stage : Nat
  q : List BufHandle
  deriving DecidableEq, Repr

/-- A SWAP that waits (R235): its consumer and handle, and whether it has met a full queue. -/
structure SwapWait where
  consumer : Nat
  b : BufHandle
  full : Bool
  deriving DecidableEq, Repr

/-- The reference of a cohort for the deadline monitor (R313): the duration, bytes, operations and busy time of its last
committed step. -/
structure StepRef where
  chan : Nat
  flow : Option Nat
  dur : Nat
  bytes : Nat
  ops : Nat
  busy : Nat
  at_ : Nat
  deriving DecidableEq, Repr

/-- An islet that a task has left without ending (R308): the islet, the task's context, its live tiles and its number. -/
structure Leave where
  islet : Nat
  ctx : Option Nat
  tiles : Nat
  task : Nat
  deriving DecidableEq, Repr

/-- Generation. `leaving` are the islets whose next task makes a switch; `steps` are the STEP commands stamped and not yet opened, in order; `bufs` gives each stage buffer the half its
producer writes; `boundaries` counts step boundaries and `stepNo` cohort steps. `cfg` are the
configuration words in force since the last step boundary, in the order PIPE_CFG, REPLICA, SPILL_CFG, WAIT_CFG, PROMOTE_CFG, BUF_CFG of
the four dies. -/
structure GenSt where
  model : ModelSt
  seqs : List Seq
  steps : List CmdRef
  cohorts : List Cohort
  queues : List HQueue
  bufs : List (Nat × Nat × Nat)
  swaps : List SwapWait
  refs : List StepRef
  boundaries : Nat
  stepNo : Nat
  cfg : List Nat
  leaving : List Leave
  deriving DecidableEq, Repr

end Sys2Proof.Machine
end

