-- ==== Sys2Proof/Machine/TypesNet.lean ====
section
/-! DEFINITION. The state of the links and the archipelago (chapter 14), the flash tier (chapter 11), the security
root (chapter 17) and the management plane (chapter 18). -/

namespace Sys2Proof.Machine

/-- What straps, fuses and stored fields set at the last device reset: ordinal and dimensions (R364), the bridge role
(R456), DEVICE_UID, stepping, the I3C address and the spill region in force. -/
structure FixSt where
  ord : Nat
  dx : Nat
  dy : Nat
  dz : Nat
  bridge : Bool
  uid : Nat
  stepping : Nat
  i3cAddr : Nat
  spill256 : Nat
  deriving DecidableEq, Repr

/-- The states of a port (R376 Table 6). -/
inductive PortState where
  | down | training | up | host
  deriving DecidableEq, Repr

/-- A frame in a replay buffer (R358): its fields with the packet in plain, its bytes as they were sent, and the time it was sent. -/
structure Sent where
  lseq : Nat
  f : FrameIn
  wire : Body
  at_ : Nat
  deriving DecidableEq, Repr

/-- A port (R353 to R361). `tried` says that it has finished a training since the reset, `flight` is the flight time in ns; `txSeq` is
the LSEQ of the next frame it sends and `rxSeq` of the next it expects; `queue` are the frames routed to it that wait for credit, and
`credit` is what it may send. `enc` is ENC_EN taken at the last training, `keys` the key and the salt of the direction it sends (R361); the phases are those of the current keys, `oldKey` that the
receiver keeps the key before, and `frames` counts the frames sent under the current key; `rekeying` says that an exchange runs, and a
failed one is tried again at `retryAt`. `since` is the device time at which it entered its state. A lane shows its UP bit, SER_EXP and
MARGIN, and what the last management period published of them; `retiredAt` is when each lane was retired (R356). -/
structure Port where
  num : Nat
  st : PortState
  cause : Nat
  peerValid : Bool
  peerOrd : Nat
  peerBridge : Bool
  laneMask : Nat
  tried : Bool
  flight : Nat
  txSeq : Nat
  rxSeq : Nat
  discarding : Bool
  replay : List Sent
  credit : List ((FClass × Nat × Bool) × Nat)
  enc : Bool
  keys : Option (Nat × Nat)
  txPhase : Nat
  rxPhase : Nat
  oldKey : Bool
  frames : Nat
  tagFails : Nat
  rekeying : Bool
  retryAt : Nat
  since : Nat
  queue : List FrameIn
  lanes : List (Nat × Nat × Nat)
  lanesPub : List (Nat × Nat × Nat)
  retiredAt : List Nat
  deriving DecidableEq, Repr

/-- Frames of one source and class (or group) that the target has not yet delivered (R367). -/
structure EseqRx where
  src : Nat
  cls : FClass
  group : Option Nat
  next : Nat
  held : List FrameIn
  since : Nat
  deriving DecidableEq, Repr

/-- A frame without a route (R369). -/
structure RouteHold where
  f : FrameIn
  since : Nat
  deriving DecidableEq, Repr

/-- What a transfer to another device is for (R371). -/
inductive XUse where
  | mirror (p : PageRef) | partialUp | pageList | hold | weight | mcast (id : Nat) | other
  deriving DecidableEq, Repr

/-- A transfer to another device that has no answer yet (R371). -/
structure XferOut where
  xid : Nat
  dst : Nat
  write : Bool
  x : XPkt
  sentAt : Nat
  use : XUse
  deriving DecidableEq, Repr

/-- A multicast across devices (R373): its number, its group, and the bytes each member has acknowledged. -/
structure XMcast where
  id : Nat
  group : Nat
  total : Nat
  recv : List (Nat × Nat)
  detached : List Nat
  deriving DecidableEq, Repr

/-- Links and archipelago. `inbox` holds the packets delivered to the command engine, in order (source, type, body); `owed` is the RSP
sink credit that the bridge withholds (port, VC, units), and `framed` counts the outputs that the link layer has taken. -/
structure ZwxSt where
  ports : List Port
  ready : Bool
  hostUp : Bool
  hostDrop : Bool
  conflict : Bool
  follow : Option Nat
  eseqTx : List ((Nat × FClass × Option Nat) × Nat)
  eseqRx : List EseqRx
  routeHold : List RouteHold
  xfers : List XferOut
  nextXid : Nat
  xmcasts : List XMcast
  inbox : List (Nat × Nat × Body)
  owed : List (Nat × Nat × Nat)
  framed : Nat
  deriving DecidableEq, Repr

/-- A flash block (R283, R286 to R288): whether its cells hold one bit, whether a page of it has been programmed since its last erase,
erase count, reads since its last relocation, rebuilds in this scrub pass, whether it is marked for relocation, counted as backlog, or
retired. -/
structure Blk where
  ch : Nat
  blk : Nat
  slc : Bool
  used : Bool
  erases : Nat
  reads : Nat
  rebuilds : Nat
  marked : Bool
  backlog : Bool
  retired : Bool
  deriving DecidableEq, Repr

/-- Why a map unit is moved in the background. -/
inductive FMoveKind where
  | gc | wear | disturb | rebuilt
  deriving DecidableEq, Repr

/-- A background move of a map unit in flight (R286): the place copied from, the place written, and how often a read has suspended its
programming (R284). -/
structure FMove where
  unit : Nat
  src : Nat
  dst : Nat
  kind : FMoveKind
  susp : Nat
  deriving DecidableEq, Repr

/-- A write of a map unit not yet durable (R282): the unit, its new bytes by offset (none where it leaves the unit's old byte, R280), the
place that will be programmed and its channel, in whose queue it stands, whether it waits for garbage collection (R287), and how often a
read has suspended its programming (R284). An entry with `copy` is the copy of a page of an object or of a key-value frame: its bytes are
taken from the source as it is programmed (R204, R261). -/
structure FWrite where
  unit : Nat
  bytes : List (Option Byte)
  copy : Bool
  place : Nat
  ch : Nat
  waiting : Bool
  susp : Nat
  deriving DecidableEq, Repr

/-- A foreground read in a channel's queue (R284): its map unit, the place that held it at the read's issue and its channel, and whether it
is served before the operation that programs there, or waits for that operation's end. -/
structure FRead where
  unit : Nat
  place : Nat
  ch : Nat
  ahead : Bool
  deriving DecidableEq, Repr

/-- An open stripe (R281, R282): its channel group and number within it, when it opened, its map units with their places and whether each
has been programmed, and whether it takes no more. -/
structure Stripe where
  group : Nat
  no : Nat
  opened : Nat
  units : List (Nat × Nat × Bool)
  shut : Bool
  deriving DecidableEq, Repr

/-- The flash tier. Physical places number a 4 KiB slot: channel in the low 6 bits, then the page slot and block.
`map` gives each written map unit its place; `stripeNo` counts the stripes that each group has begun; `lost` are the units that cannot be read, and `rebuilding` those whose read failed every
retry. `writes` and `reads` are the channel queues, in arrival order (R284). `freeBytes` is the raw size of the free blocks. -/
structure FlashSt where
  sysRead : Bool
  ready : Bool
  spillReady : Bool
  failed : List Nat
  cached : List Nat
  map : List (Nat × Nat)
  nextPlace : Nat
  blocks : List Blk
  stripes : List Stripe
  stripeNo : List (Nat × Nat)
  moves : List FMove
  writes : List FWrite
  reads : List FRead
  lost : List Nat
  freeBytes : Nat
  cacheGrans : List GranRun
  rebuilding : List Nat
  hostBytes : Nat
  nandBytes : Nat
  programs : Nat
  slcPrograms : Nat
  deriving DecidableEq, Repr

/-- How far a boot has come (R419 Table 3). -/
inductive BootStep where
  | verify | identity | done | recovery
  deriving DecidableEq, Repr

/-- The stages of an SPDM connection (R426). -/
inductive SpdmSt where
  | start | version | caps | algs
  deriving DecidableEq, Repr

/-- The security root. `slotA` and `slotB` are the firmware images in the flash system area; `atRest` the key number of
each function that holds an at-rest key; `token` the copy of UNLOCK_BUF and the nonce it is judged by. -/
structure SecSt where
  step : BootStep
  slotA : List Byte
  slotB : List Byte
  okA : Bool
  okB : Bool
  running : Option Bool
  result : Nat
  released : Bool
  fwDigest : List Byte
  svn : Nat
  minSvn : Nat
  revoked : Nat
  keyHashes : List (List Byte)
  debugHash : List Byte
  alias_ : Option (List Byte)
  idevid : List Byte
  nonce : Nat
  token : Option (List Byte × Nat)
  lastUnlock : Nat
  scope : Nat
  atRest : List (Nat × Nat)
  nextKey : Nat
  spdm : List (Transport × SpdmSt)
  deriving DecidableEq, Repr

/-- A firmware update in progress (R447). -/
structure UpdateSt where
  t : Transport
  slotB : Bool
  len : Nat
  got : List Byte
  lastAnswer : Nat
  verified : Option Bool
  applied : Bool
  deriving DecidableEq, Repr

/-- The management plane. `sensors` are the readings published at the last management period; `dieTemps` the hottest
junctions of C0 to C3 and H; `period` the device time at which the current management period began; `rates`
are the events that rate sensors count, as (sensor, time, number), and `rateAt` the end of the last rate window (R445). -/
structure MgmtSt where
  eids : List (Transport × Nat)
  thresholds : List (Nat × Nat × Nat)
  receivers : List (Transport × Nat)
  queue : List (Transport × MctpAns)
  sensors : List (Nat × Nat)
  dieTemps : List Nat
  update : Option UpdateSt
  period : Nat
  rates : List (Nat × Nat × Nat)
  rateAt : Nat
  deriving DecidableEq, Repr

end Sys2Proof.Machine
end

