-- ==== Sys2Proof/Machine/State.lean ====
section
/-! DEFINITION. The state of the device, with the reasons a step can stop and the state after reset. -/

namespace Sys2Proof.Machine

/-- Why a step stops with a fault. -/
inductive Fault where
  /-- POWER_SAMPLE with an input voltage above the absolute maximum of R460, at which the spec gives the module no
  behaviour. Safe: the model stops where the hardware may go on. -/
  | outsideRatings
  deriving DecidableEq, Repr

/-- Why a step is refused. -/
inductive Refusal where
  /-- Raised by exec for a command that has no meaning yet. Safe. -/
  | notModelled (mnemonic : String)
  deriving DecidableEq, Repr

/-- The whole device. `clock` is the watch domain's time and `now` device time (R391), both in ns; `latches` the high
words that a read of their _LO register has latched, by address (R433); `fresh` the model's own counter of free values drawn; `waits` the register accesses that
wait for a local reset or for READY, oldest first. -/
structure State where
  pending : List Instr
  outbox : List Out
  fresh : Nat
  clock : Nat
  now : Nat
  latches : List (Nat × Nat)
  regs : List (Nat × Word)
  busy : List Nat
  notReady : List Nat
  waits : List (Path × Nat × Nat)
  mem : List (Nat × Byte)
  fix : FixSt
  pwr : PwrSt
  flt : FaultSt
  mm : MemSt
  sch : SchedSt
  cmd : CmdSt
  brg : BridgeSt
  zwx : ZwxSt
  fl : FlashSt
  sec : SecSt
  mgmt : MgmtSt
  ar : ArithSt
  idx : IdxSt
  kv : KvSt
  gen : GenSt
  deriving DecidableEq, Repr

/-- A wake pin at reset: inactive, not masked, not stuck. -/
def PinSt.reset : PinSt :=
  { active := false, accepted := false, changedAt := none, masked := false, stuck := false, rearm := false, acceptedAt := 0 }

/-- Power, clocks and cooling right after LOGIC_RDY (R381). -/
def PwrSt.reset : PwrSt :=
  { st := .run, upStep := 0, downCause := none, downStep := 0, rdy := 15, fullMode := true, coolWait := false,
    pufails := 0, wakeNoted := false, resetHeld := false, perst := false, linkTraining := false, inputGood := true,
    nCap := 32, holdReq := false, conds := [], samples := [], flowHigh := 0, lastCap := 0, valve := 20000, integ := 0,
    lastWake := none, heldWake := false, pins := List.replicate 4 PinSt.reset, reqs := [], capBelow := 0 }

/-- Faults right after a device reset: nothing fenced, every core in service. -/
def FaultSt.reset : FaultSt :=
  { islands := [], islets := [], fenceList := [], storedList := [], selfTests := [], log := [],
    logSeq := 0, copied := 0, flashRing := [], failedStacks := [],
    cores := List.replicate 4 { up := true, restarting := false, restarts := [] }, lineUe := [], causes := [] }

/-- A stack controller at reset: thermal ceiling 32, no temperature reported yet (THERM.TEMP resets to 0). -/
def StackSt.reset : StackSt :=
  { temp := 0, refresh2x := false, throttle := false, nTherm := 32, lastTick := 0, rd := 0, wr := 0, objs := [],
    late := [], fb := [], ces := [], bad := [], ues := [], deferred := [] }

/-- Memory tiers at reset (R276): object tables empty, every granule free, no share held, no slot armed. -/
def MemSt.reset : MemSt :=
  { objs := [], ops := [], waits := [], retired := [], retiredStored := [], slots := [], armSeq := 0, sendSeq := 0,
    stk := List.replicate 32 StackSt.reset, shares := [], runs := [], fwds := [], intake := [], intakeUsed := [],
    intakeMiB := 1024 }

/-- An empty accounting record. -/
def Acct.zero : Acct := { engine := 0, t2rd := 0, t2wr := 0, t3rd := 0, t3wr := 0, link := 0, energy := 0, qwait := 0 }

/-- An empty slowdown sum. -/
def SlotAcct.zero : SlotAcct := { busy := 0, qwait := 0, killed := 0, switched := 0 }

/-- The scheduler at reset (R322). -/
def SchedSt.reset : SchedSt :=
  { funcs := List.replicate 16 .disabled, ctxs := [], chans := [], tasks := [], nextTask := 0, lastPreempt := [],
    lastRan := [], starved := none, slow := [], lastSample := 0, mcasts := [],
    cur := List.replicate 17 Acct.zero, closed := List.replicate 17 Acct.zero,
    snap := List.replicate 17 (0, 0), energyAt := 0, windowStart := 0, slotCur := List.replicate 8 SlotAcct.zero, late := [], slotClosed := List.replicate 8 0, window := 0,
    windowEnd := 1000000000, closedWin := none, islandBusy := [] }

/-- The command engine at reset (R351): nothing live, not ready. -/
def CmdSt.reset : CmdSt :=
  { ready := false, live := [], hints := [], order := 0, counts := [], deliver := [], answerMax := 0 }

/-- The bridge at reset: every ring disabled and empty. -/
def BridgeSt.reset : BridgeSt :=
  { cmds := [], waits := [], sqHead := [], cqTail := [], evqTail := 0, evqOver := false, wins := [],
    nextRid := 0, nextCmd := 0 }

/-- Straps, fuses and stored fields of a device that was never configured (R364): ordinal 0, alone. -/
def FixSt.reset : FixSt :=
  { ord := 0, dx := 1, dy := 1, dz := 1, bridge := false, uid := 0, stepping := 0, i3cAddr := 0x5A, spill256 := 0 }

/-- A port at reset: DOWN, nothing sent or received. -/
def Port.reset (n : Nat) : Port :=
  { num := n, st := .down, cause := 0, peerValid := false, peerOrd := 0, peerBridge := false, laneMask := 0,
    tried := false, flight := 0, txSeq := 0, rxSeq := 0, discarding := false, replay := [], credit := [], enc := false,
    keys := none, txPhase := 0, rxPhase := 0, oldKey := false, frames := 0, tagFails := 0, rekeying := false,
    retryAt := 0, since := 0, queue := [], lanes := List.replicate 8 (0, 0, 0), lanesPub := List.replicate 8 (0, 0, 0),
    retiredAt := List.replicate 8 0 }

/-- The links at reset. -/
def ZwxSt.reset : ZwxSt :=
  { ports := (List.range 8).map Port.reset, ready := false, hostUp := false, hostDrop := false, conflict := false,
    follow := none, eseqTx := [], eseqRx := [], routeHold := [], xfers := [], nextXid := 0, xmcasts := [], inbox := [], owed := [], framed := 0 }

/-- The flash tier of a part whose flash holds nothing but the system area: 48 TiB raw less 256 GiB are free (R283 Table 1). -/
def FlashSt.reset : FlashSt :=
  { sysRead := false, ready := false, spillReady := false, failed := [], cached := [], map := [], nextPlace := 0,
    blocks := [], stripes := [], stripeNo := [], moves := [], writes := [], reads := [], lost := [], freeBytes := 191 * 2 ^ 38, cacheGrans := [],
    rebuilding := [], hostBytes := 0, nandBytes := 0, programs := 0, slcPrograms := 0 }

/-- The security root before boot has verified an image (R419), with empty firmware slots. -/
def SecSt.reset : SecSt :=
  { step := .verify, slotA := [], slotB := [], okA := false, okB := false, running := none, result := 0,
    released := false, fwDigest := [], svn := 0, minSvn := 0, revoked := 0, keyHashes := [], debugHash := [],
    alias_ := none, idevid := [], nonce := 0, token := none, lastUnlock := 0, scope := 0, atRest := [], nextKey := 0,
    spdm := [] }

/-- The management plane at reset (R450): no endpoint ID, default thresholds, empty queues. -/
def MgmtSt.reset : MgmtSt :=
  { eids := [], thresholds := [], receivers := [], queue := [], sensors := [], dieTemps := [0, 0, 0, 0, 0],
    update := none, period := 0, rates := [], rateAt := 0 }

/-- No index is loaded, no query or record is held, and tide 0 precedes the first boundary (R95, R118, R141). -/
def IdxSt.reset : IdxSt :=
  { indexes := [], epoch := 0, bno := 0, lastBoundary := 0, period := 8000000, marks := [], markHi := 0, sinceMark := 0,
    lost := false, setMax := [1024, 1024, 1024, 1024], shoals := [], filts := [], banks := [], queries := [], staged := [],
    passes := [], sels := [], qOrd := 0, scanned := List.replicate 32 0, lastRate := List.replicate 32 0, lastPeriod := 8000000,
    compact := 0x04000A12, lostTides := 16, swept := 0 }

/-- The cache at reset (R216): no context has pools, pages or spill frames. -/
def KvSt.reset : KvSt :=
  { ctxs := [], spills := [], promos := [], relocs := [], mirroring := [], runs := [], rebuild := [], far := [], holds := [], copies := [] }

/-- Generation at reset (R188, R244): no model, sequence, cohort step, handle or window. -/
def GenSt.reset : GenSt :=
  { model := { st := 0, func := 0, desc := [], img := 0, ident := 0, loadCmd := none, winKib := 0, digests := [] }, seqs := [], steps := [],
    cohorts := [], queues := [], bufs := [], swaps := [], refs := [], boundaries := 0, stepNo := 0,
    cfg := [0x09000200, 0, 0x00101000, 0x10, 0x80000400, 0x00800040, 0x00800040, 0x00800040, 0x00800040], leaving := [] }

/-- The device right after reset, at device time 0 with LOGIC_RDY just risen (R381, Table 2 step 6). The pages of the
command engine and the flash tier have not started (R450); a device that stands alone expects no port (R365), so its
links are ready at once. -/
def State.reset : State :=
  { pending := [], outbox := [], fresh := 0, clock := 0, now := 0, latches := [], regs := [], busy := [],
    notReady := [0x5000, 0xD000], waits := [], mem := [], fix := FixSt.reset, pwr := PwrSt.reset,
    flt := FaultSt.reset, mm := MemSt.reset, sch := SchedSt.reset, cmd := CmdSt.reset, brg := BridgeSt.reset,
    zwx := { ZwxSt.reset with ready := true }, fl := FlashSt.reset, sec := SecSt.reset, mgmt := MgmtSt.reset,
    ar := { islets := [], straits := [], inq := [], arrived := [] }, idx := IdxSt.reset, kv := KvSt.reset,
    gen := GenSt.reset }

end Sys2Proof.Machine
end

