-- ==== Sys2Proof/Machine/Ops.lean ====
section
/-! DEFINITION. The named operations over registers, counters, logs, time, memory bytes, objects and outputs that
every meaning is written in. -/

namespace Sys2Proof.Machine

/-- Bits `hi` to `lo` of a number. -/
def bits (v hi lo : Nat) : Nat := (v / 2 ^ lo) % 2 ^ (hi + 1 - lo)

/-- Bit `i` of a number, as a Bool. -/
def bit (v i : Nat) : Bool := bits v i i == 1

/-- `w` with bits `hi` to `lo` replaced by `v`. -/
def setBits (w hi lo v : Nat) : Nat :=
  w - bits w hi lo * 2 ^ lo + (v % 2 ^ (hi + 1 - lo)) * 2 ^ lo

/-- 1 for true, 0 for false. -/
def b2n (b : Bool) : Nat := if b then 1 else 0

/-- The number that bytes spell, byte 0 least significant (R9). -/
def leNat : List Byte → Nat
  | [] => 0
  | b :: bs => b.toNat + 256 * leNat bs

/-- The `n` low bytes of a number, byte 0 first. -/
def leBytes : Nat → Nat → List Byte
  | 0, _ => []
  | n + 1, v => BitVec.ofNat 8 v :: leBytes n (v / 256)

/-- `n` bytes of `b` from offset `off`, as a number; bytes past the end read 0. -/
def bodyNat (b : Body) (off n : Nat) : Nat := leNat ((b.drop off).take n)

/-- Bits `hi` to `lo` of a body. -/
def fld (b : Body) (hi lo : Nat) : Nat := bits (bodyNat b (lo / 8) (hi / 8 + 1 - lo / 8)) (hi - lo / 8 * 8) (lo % 8)

/-- Rounds up to a multiple of `m`. -/
def roundUp (v m : Nat) : Nat := (v + m - 1) / m * m

/-- The quotient rounded up. -/
def cdiv (v m : Nat) : Nat := (v + m - 1) / m

/-- The value at key `k` of a sorted sparse map whose unlisted keys hold `d`. -/
def mapGet {α : Type} (d : α) (k : Nat) : List (Nat × α) → α
  | [] => d
  | (a, v) :: m => if a = k then v else mapGet d k m

/-- Writes key `k`, keeping the keys strictly rising and listing no entry equal to the default `d`. -/
def mapPut {α : Type} [DecidableEq α] (d : α) (k : Nat) (v : α) : List (Nat × α) → List (Nat × α)
  | [] => if v = d then [] else [(k, v)]
  | (a, w) :: m =>
    if k < a then (if v = d then (a, w) :: m else (k, v) :: (a, w) :: m)
    else if k = a then (if v = d then m else (k, v) :: m)
    else (a, w) :: mapPut d k v m

/-- Replaces the elements that satisfy `p`. -/
def updWhere {α : Type} (p : α → Bool) (f : α → α) (l : List α) : List α := l.map (fun x => if p x then f x else x)

/-- Replaces element `i`. -/
def updAt {α : Type} (i : Nat) (f : α → α) (l : List α) : List α := l.mapIdx (fun j x => if j = i then f x else x)

/-- The first `n` bytes of a byte string, with zeros behind a shorter one. -/
def exactly (n : Nat) (b : List Byte) : List Byte := (List.range n).map (fun i => b.getD i 0)

/-- A SHA-384 digest: 48 bytes. -/
def sha384 (b : List Byte) : List Byte := exactly 48 (Config.sha384 b)

/-- An ECDSA P-384 signature by the private key of a public key: R and S, 96 bytes (R415). -/
def signature (key b : List Byte) : List Byte := exactly 96 (Config.sign key b)

/-- The public keys of firmware signing key `k`, of the debug authority and of the alias key for a CDI: X and Y, 96 bytes each (R415). -/
def signKey (k : Nat) : List Byte := exactly 96 (Config.signKey k)
def debugKey : List Byte := exactly 96 Config.debugKey
def aliasKey (cdi : List Byte) : List Byte := exactly 96 (Config.aliasKey cdi)

/-- Adds `x` where it is not present. -/
def addOnce {α : Type} [DecidableEq α] (x : α) (l : List α) : List α := if x ∈ l then l else l ++ [x]

/-! ## Registers -/

/-- The page that holds register address `a` (R439), with its number. -/
def pageOf (a : Nat) : Option (PageRow × Nat) :=
  (pageTable.find? (fun p => decide (p.base ≤ a) && decide (a < p.base + p.insts * 0x1000))).map
    (fun p => (p, (a - p.base) / 0x1000))

/-- The base address of the page that holds address `a`. -/
def pageBase (a : Nat) : Nat := a - a % 0x1000

/-- The base of page `i` of block type `t`. -/
def basePage (t i : Nat) : Nat :=
  match pageTable.find? (fun p => p.typ == t) with
  | some p => p.base + i * 0x1000
  | none => 0

/-- The implemented bits of BLK_IRQ_STAT: ERR and the bits of Table 5. -/
def irqMask (p : PageRow) : Nat := 2 ^ 31 + p.irqLow

/-- The rows of the common page (R436 Tables 2 and 3) for a page of the index. -/
def commonRow (p : PageRow) (i off : Nat) : Option RegRow :=
  match off with
  | 0x00 => some ⟨p.typ, off, 1, .ro, p.typ * 65536 + i, 0, 0, []⟩
  | 0x04 => some ⟨p.typ, off, 1, .ro, 0x100, 0, 0, []⟩
  | 0x08 => some ⟨p.typ, off, 1, .ro, p.irqLow * 65536 + b2n p.owned * 4 + b2n p.bridgeOnly * 2 + b2n p.expert, 0, 0, []⟩
  | 0x0C => some ⟨p.typ, off, 1, .rw, 1, 3, 0, []⟩
  | 0x10 => some ⟨p.typ, off, 1, .ro, 0, 0, 0, []⟩
  | 0x14 => some ⟨p.typ, off, 1, .w1c, 0, irqMask p, 0, []⟩
  | 0x18 => some ⟨p.typ, off, 1, .rw, 0, irqMask p, 0, []⟩
  | 0x1C => some ⟨p.typ, off, 1, .wo, 0, irqMask p, 0, []⟩
  | 0x20 => some ⟨p.typ, off, 1, .ro, 0, 0, 0, []⟩
  | 0x24 => some ⟨p.typ, off, 1, .cnt, 0, 0, 0, []⟩
  | _ => none

/-- The row of the register at address `a`, if one stands there. -/
def rowOf (a : Nat) : Option RegRow :=
  match pageOf a with
  | none => none
  | some (p, i) =>
    let off := a % 0x1000
    if off % 4 ≠ 0 then none
    else if off < 0x40 then commonRow p i off
    else (pageRows p.typ).find? (fun r => decide (r.off ≤ off) && decide (off < r.off + 4 * r.cnt))

/-- What register `a` holds after a device reset. -/
def resetWord (a : Nat) : Word :=
  match rowOf a with
  | some r => BitVec.ofNat 32 r.reset
  | none => 0

/-- The stored word of register `a`. -/
def State.rd (s : State) (a : Nat) : Nat := (mapGet (resetWord a) a s.regs).toNat

/-- Stores a word in register `a`. -/
def State.wr (s : State) (a v : Nat) : State :=
  { s with regs := mapPut (resetWord a) a (BitVec.ofNat 32 v) s.regs }

/-- Counts `n` events in a saturating counter, while its page's BLK_CTL.EN is 1 (R436). -/
def State.count (s : State) (a : Nat) (n : Nat := 1) : State :=
  if bit (s.rd (pageBase a + 0x0C)) 0 then s.wr a (min (s.rd a + n) 0xFFFFFFFF) else s

/-- Counts `n` events in a counter that rate sensor `id` is formed over, with the time of the event (R445). -/
def State.countRate (s : State) (id a : Nat) (n : Nat := 1) : State :=
  let s1 := s.count a n
  if bit (s.rd (pageBase a + 0x0C)) 0 then { s1 with mgmt := { s1.mgmt with rates := s1.mgmt.rates ++ [(id, s.now, n)] } } else s1

/-- Sets interrupt bit `i` of the page at `base`. -/
def State.irq (s : State) (base i : Nat) : State :=
  let w := s.rd (base + 0x14)
  s.wr (base + 0x14) (setBits w i i 1)

/-- Records an error of the page at `base`: BLK_ERR_LOG keeps the first, BLK_ERR_CNT counts each, and
BLK_IRQ_STAT.ERR is set (R410, R436). -/
def State.blkErr (s : State) (base cls detail : Nat) : State :=
  let s1 := if s.rd (base + 0x20) = 0 then s.wr (base + 0x20) (cls * 2 ^ 24 + detail % 2 ^ 24) else s
  (s1.wr (base + 0x24) (min (s1.rd (base + 0x24) + 1) 0xFFFFFFFF)).irq base 31

/-- A write that is ignored for its value or by its field's rule: CLASS REG_WRITE, DETAIL the offset (R410). -/
def State.regWriteErr (s : State) (a : Nat) : State := s.blkErr (pageBase a) 0x20 (a % 0x1000)

/-! ## Time -/

/-- Whether the main domains are powered and no power-down has begun (R377, R384). -/
def State.powered (s : State) : Bool :=
  s.pwr.downCause.isNone && (match s.pwr.st with
    | .watch => false
    | .off => false
    | _ => true)

/-- `dt` ns pass on the watch domain's clock, and on device time while the main domains are powered. -/
def State.elapse (s : State) (dt : Nat) : State :=
  { s with clock := s.clock + dt, now := if s.powered then s.now + dt else s.now }

/-- Time passes until device time `t`; a time already reached changes nothing. -/
def State.elapseTo (s : State) (t : Nat) : State := s.elapse (t - s.now)

/-- Device time as the module gives it: it advances by 40 ns at each tick of the 25 MHz crystal oscillator, so it is the model's
nanosecond count rounded down to a multiple of 40 (R391). -/
def State.devTime (s : State) : Nat := s.now / 40 * 40

/-- Time passes until watch-domain time `t`. -/
def State.elapseClock (s : State) (t : Nat) : State := s.elapse (t - s.clock)

/-! ## Outputs and free values -/

/-- Queues an output. -/
def State.emit (s : State) (o : Out) : State := { s with outbox := s.outbox ++ [o] }

/-- Queues several outputs. -/
def State.emits (s : State) (os : List Out) : State := { s with outbox := s.outbox ++ os }

/-- Takes one element of a list by a free choice. -/
def State.draw (s : State) (l : List Nat) : Option Nat × State :=
  (l[Config.pick s.fresh % l.length]?, { s with fresh := s.fresh + 1 })

/-- Takes `n` different elements of a list by free choices. -/
def State.drawN : Nat → List Nat → State → List Nat × State
  | 0, _, s => ([], s)
  | n + 1, l, s =>
    match s.draw l with
    | (none, s1) => ([], s1)
    | (some x, s1) =>
      let r := State.drawN n (l.erase x) s1
      (x :: r.1, r.2)

/-- A free value. -/
def State.freeVal (s : State) : Nat × State := (Config.freeBits s.fresh, { s with fresh := s.fresh + 1 })

/-! ## The fault log -/

/-- Sends an asynchronous event to a transport's receiver, or queues it; a full queue discards its oldest event and counts it (R446). -/
def State.pushEvent (s : State) (t : Transport) (a : MctpAns) : State :=
  match s.mgmt.receivers.find? (fun r => r.1 == t) with
  | some _ => s.emit (.mgmt t a)
  | none =>
    let mine := s.mgmt.queue.filter (fun q => q.1 == t)
    let s1 := if mine.length ≥ 256 then
        { s with mgmt := { s.mgmt with queue := s.mgmt.queue.erase (mine.headD (t, a)) } }.count Reg.mgmtEventDropCnt
      else s
    { s1 with mgmt := { s1.mgmt with queue := s1.mgmt.queue ++ [(t, a)] } }

/-- Queues an asynchronous management event on both transports (R446). -/
def State.mgmtEvent (s : State) (a : MctpAns) : State := (s.pushEvent .i3c a).pushEvent .vdm a

/-- An event of R337 Table 5: an EVENT packet to the bridge, and an OEM event of class 0xFB to management (R446). -/
def State.event (s : State) (code func : Nat) (wide : Bool) (data : Nat) : State :=
  (s.emit (.event { code := code, func := func, wide := wide, srcOrd := s.fix.ord, data := data, time := s.devTime })).mgmtEvent
    (.oem 0xFB [code, data])

/-- Writes a fault-log entry (R409): the newest replaces the oldest of 1,024, an overwritten entry not yet copied
counts in LOG_LOST_CNT, the LOG interrupt is set, and the source page's error log takes it (R410) unless the class is
READMIT or PARTITION_RESET. -/
def State.faultLog (s : State) (typ inst cls action func addr : Nat) : State :=
  let e : FaultEntry := { time := s.devTime, seq := s.flt.logSeq + 1, blkType := typ, blkInst := inst, cls := cls,
                          action := action, func := func, addr := addr }
  let lost := decide (s.flt.log.length ≥ 1024) && decide ((s.flt.log.headD e).seq > s.flt.copied)
  let log := if s.flt.log.length ≥ 1024 then s.flt.log.drop 1 ++ [e] else s.flt.log ++ [e]
  let s1 := { s with flt := { s.flt with log := log, logSeq := e.seq } }
  let s2 := if lost then s1.count Reg.faultLogLostCnt else s1
  let s3 := (s2.irq (basePage 4 0) 0).mgmtEvent (.oem 0xFA [e.time, e.seq, typ, inst, cls, action, func, addr])
  if cls = 0x05 ∨ cls = 0x0B then s3 else s3.blkErr (basePage typ inst) cls (e.seq % 2 ^ 24)

/-! ## Memory bytes and objects -/

/-- The stored byte at a device address; an address that nothing has written reads 0. -/
def State.byte (s : State) (a : Nat) : Byte := mapGet 0 a s.mem

/-- Stores a byte. -/
def State.setByte (s : State) (a : Nat) (v : Byte) : State := { s with mem := mapPut 0 a v s.mem }

/-- Stores bytes from address `a` on. -/
def State.setBytes (s : State) (a : Nat) : List Byte → State
  | [] => s
  | b :: bs => (s.setByte a b).setBytes (a + 1) bs

/-- `n` stored bytes from address `a` on. -/
def State.bytes (s : State) (a n : Nat) : List Byte := (List.range n).map (fun i => s.byte (a + i))

/-- Whether a granule lies in a run. -/
def GranRun.has (r : GranRun) (stack g : Nat) : Bool := r.stack == stack && decide (r.first ≤ g) && decide (g < r.first + r.n)

/-- The granules of runs. -/
def runTotal (rs : List GranRun) : Nat := (rs.map GranRun.n).sum

/-- Granule `k` of runs. -/
def runGran : List GranRun → Nat → Nat × Nat
  | [], _ => (0, 0)
  | r :: rs, k => if k < r.n then (r.stack, r.first + k) else runGran rs (k - r.n)

/-- The first free of `total` numbered places from `k` on, wrapping, within `n` tries. -/
def firstFree (total : Nat) (free : Nat → Bool) : Nat → Nat → Option Nat
  | 0, _ => none
  | n + 1, k => if free (k % total) then some (k % total) else firstFree total free n (k + 1)

/-- Takes `n` free places of `total`, each by a free choice; `used` bounds the places that are not free. -/
def takeFree (total : Nat) (free : Nat → Bool) (used : Nat) : Nat → List Nat → State → List Nat × State
  | 0, acc, s => (acc, s)
  | n + 1, acc, s =>
    match firstFree total (fun k => free k && !acc.contains k) (used + acc.length + 1) (Config.pick s.fresh) with
    | none => (acc, s)
    | some k => takeFree total free used n (acc ++ [k]) { s with fresh := s.fresh + 1 }

/-- Device address of T2 (R246). -/
def t2Addr (stack off : Nat) : Nat := stack * 2 ^ 36 + off

/-- Device address of a lagoon byte. -/
def t1Addr (island off : Nat) : Nat := 0x100000000000 + island * 2 ^ 21 + off

/-- Device address of an islet-memory byte. -/
def t0Addr (islet off : Nat) : Nat := 0x110000000000 + islet * 2 ^ 17 + off

/-- Device address of a Vuindig byte. -/
def t3Addr (off : Nat) : Nat := 0x400000000000 + off

/-- PG of the die that holds a stack (R250). -/
def State.parGran (s : State) (stack : Nat) : Nat := s.rd (Reg.dramcParCfg (stack / 8 * 8))

/-- The stack that holds the parity granule of group `g` on the die of `stack` (R250). -/
def parityStack (stack g : Nat) : Nat := stack / 8 * 8 + g % 8

/-- Whether granule `g` of a stack is a data granule of the parity region. -/
def State.isParityData (s : State) (stack g : Nat) : Bool :=
  decide (g < s.parGran stack) && parityStack stack g != stack

/-- The XOR of the bytes at one offset over the seven other stacks of the die (R250, R252). -/
def State.xorOthers (s : State) (stack off : Nat) : Byte :=
  (List.range 8).foldl (fun x j => let t := stack / 8 * 8 + j; if t = stack then x else x ^^^ s.byte (t2Addr t off)) 0

/-- Whether the 64-byte line at an offset of a stack cannot be delivered by the stack itself: the stack has failed, or ECC
cannot correct the line (R252, R275, R404). -/
def State.lineBad (s : State) (stack line : Nat) : Bool :=
  s.flt.failedStacks.contains stack || ((s.mm.stk[stack]?).map (fun x => x.bad.contains line)).getD false

/-- Whether a line that its stack cannot deliver can be rebuilt: it is parity data, and no other line of its group is bad
(R252). -/
def State.lineRebuilds (s : State) (stack line : Nat) : Bool :=
  s.isParityData stack (line / 1024) &&
    (List.range 8).all (fun j => let t := stack / 8 * 8 + j; t == stack || !s.lineBad t line)

/-- Whether a T2 line can be read, by itself or by rebuild (R252, R404). -/
def State.t2Readable (s : State) (stack off : Nat) : Bool :=
  !s.lineBad stack (off / 64) || s.lineRebuilds stack (off / 64)

/-- Whether every line of a range within one granule can be read. Only the lines that some stack of the die cannot deliver
need a look. -/
def State.t2RangeReadable (s : State) (stack off n : Nat) : Bool :=
  if s.flt.failedStacks.contains stack then
    (List.range (cdiv (off % 64 + n) 64)).all (fun i => s.t2Readable stack (off + 64 * i))
  else (((s.mm.stk[stack]?).map (fun x => x.bad)).getD []).all (fun line =>
    !(decide (off / 64 ≤ line) && decide (line * 64 < off + n)) || s.t2Readable stack (line * 64))

/-- The byte a reader gets from T2: the stored byte, or the rebuilt one where the stack has failed (R252, R404). -/
def State.t2Byte (s : State) (stack off : Nat) : Byte :=
  if s.flt.failedStacks.contains stack && s.isParityData stack (off / 65536) then s.xorOthers stack off
  else s.byte (t2Addr stack off)

/-- Writes a T2 byte and, for parity data, its parity byte (R251; R404 for a failed stack, whose writes reach the
parity line alone). -/
def State.t2Write (s : State) (stack off : Nat) (v : Byte) : State :=
  let s1 := if s.isParityData stack (off / 65536) then
      let pa := t2Addr (parityStack stack (off / 65536)) off
      s.setByte pa (s.byte pa ^^^ s.t2Byte stack off ^^^ v)
    else s
  if s.flt.failedStacks.contains stack && s.isParityData stack (off / 65536) then s1
  else s1.setByte (t2Addr stack off) v

/-- Writes bytes to T2. -/
def State.t2Writes (s : State) (stack off : Nat) : List Byte → State
  | [] => s
  | b :: bs => (s.t2Write stack off b).t2Writes stack (off + 1) bs

/-- Whether the stripe buffer on H holds a map unit's data: its stripe is open (R282). -/
def State.buffered (s : State) (u place : Nat) : Bool := s.fl.stripes.any (fun x => x.units.any (fun e => e.1 == u && e.2.1 == place))

/-- Whether a 4 KiB map unit can be read: it is not lost, and at most one channel of its group has failed (R288, R289, R405) or the stripe
buffer holds it (R282). A spill unit of a failed channel is unreadable, since the spill region has no parity (R281). -/
def State.mapUnitReadable (s : State) (u : Nat) : Bool :=
  !s.fl.lost.contains u &&
  match s.fl.map.find? (fun e => e.1 == u) with
  | none => true
  | some e =>
    let ch := e.2 % 64
    if u ≥ 0x3C0000000 then !s.fl.failed.contains (u / 4 % 64)
    else decide ((s.fl.failed.filter (fun c => c / 16 == ch / 16)).length ≤ 1) || s.buffered u e.2

/-- Whether a 64 KiB object unit of T3 can be read. -/
def State.unitReadable (s : State) (u : Nat) : Bool := (List.range 16).all (fun i => s.mapUnitReadable (u * 16 + i))

/-- The object that function `f` knows under a handle: its own, or one shared to it (R263). -/
def State.obj? (s : State) (f h : Nat) : Option Obj :=
  s.mm.objs.find? (fun o => (o.func == f && o.handle == h) || o.shares.contains (f, h))

/-- Whether a function owns the object it knows under a handle. -/
def Obj.ownedAs (o : Obj) (f h : Nat) : Bool := o.func == f && o.handle == h

/-- Replaces the object that owner and handle name. -/
def State.updObj (s : State) (o : Obj) (f : Obj → Obj) : State :=
  { s with mm := { s.mm with objs := updWhere (fun x => x.func == o.func && x.handle == o.handle) f s.mm.objs } }

/-- The number of the at-rest key that a function holds (R423). -/
def State.atRestKey (s : State) (f : Nat) : Option Nat := (s.sec.atRest.find? (fun k => k.1 == f)).map (fun k => k.2)

/-- A flash byte as its channel controller deciphers it with the at-rest key that function `f` holds, where its unit was enciphered under
key `k` (R291, R422). The state keeps what was enciphered; under another key, or none, a reader gets what the cipher makes of it
(DESIGN CHOICE, log entry 74). -/
def State.t3Byte (s : State) (k : Option Nat) (f a : Nat) : Byte :=
  if s.atRestKey f = k then s.byte a else Config.xtsByte k (s.atRestKey f) (a / 16) (s.bytes (a / 16 * 16) 16) (a % 16)

/-- One byte of an object; `none` past its end. -/
def State.objByte (s : State) (o : Obj) (off : Nat) : Byte :=
  if o.inT2 then
    match o.grans[off / 65536]? with
    | some g => s.t2Byte o.stack (g * 65536 + off % 65536)
    | none => 0
  else
    match o.units[off / 65536]? with
    | some u => s.t3Byte o.key o.func (t3Addr (u * 65536 + off % 65536))
    | none => 0

/-- `n` bytes of an object from an offset. -/
def State.objBytes (s : State) (o : Obj) (off n : Nat) : List Byte := (List.range n).map (fun i => s.objByte o (off + i))

/-- A little-endian number of `n` bytes of an object. -/
def State.objNat (s : State) (o : Obj) (off n : Nat) : Nat := leNat (s.objBytes o off n)

/-- Whether every byte of a range of an object can be read. -/
def State.objReadable (s : State) (o : Obj) (off n : Nat) : Bool :=
  (List.range (cdiv (off % 65536 + n) 65536)).all (fun i =>
    let lo := if i = 0 then off % 65536 else 0
    let hi := min 65536 (off % 65536 + n - i * 65536)
    if o.inT2 then
      match o.grans[off / 65536 + i]? with
      | some g => s.t2RangeReadable o.stack (g * 65536 + lo) (hi - lo)
      | none => false
    else
      match o.units[off / 65536 + i]? with
      | some u => (List.range 16).all (fun j =>
          !(decide (lo < (j + 1) * 4096) && decide (j * 4096 < hi)) || s.mapUnitReadable (u * 16 + j))
      | none => false)

/-- Writes one byte of an object. -/
def State.objPut (s : State) (o : Obj) (off : Nat) (v : Byte) : State :=
  if o.inT2 then
    match o.grans[off / 65536]? with
    | some g => s.t2Write o.stack (g * 65536 + off % 65536) v
    | none => s
  else
    match o.units[off / 65536]? with
    | some u => s.setByte (t3Addr (u * 65536 + off % 65536)) v
    | none => s

/-- Writes bytes of an object from an offset on. -/
def State.objPuts (s : State) (o : Obj) (off : Nat) : List Byte → State
  | [] => s
  | b :: bs => (s.objPut o off b).objPuts o (off + 1) bs

end Sys2Proof.Machine
end

