-- ==== Sys2Proof/Machine/Proto.lean ====
section
/-! DEFINITION. The command protocol's shared operations (chapter 13): header checks, back-off, acceptance, holding,
delivery, stamping and completion. -/

namespace Sys2Proof.Machine

/-! The status codes of R342 Table 6. -/
namespace Status
def ok : Nat := 0x00
def aborted : Nat := 0x01
def tooLate : Nat := 0x02
def filterShort : Nat := 0x10
def budgetShort : Nat := 0x11
def mutatePartial : Nat := 0x12
def selectShort : Nat := 0x13
def genPartial : Nat := 0x14
def pageWait : Nat := 0x15
def itemExists : Nat := 0x20
def itemNotFound : Nat := 0x21
def shoalFull : Nat := 0x22
def filterFull : Nat := 0x23
def itemIdReserved : Nat := 0x24
def nanSeq : Nat := 0x25
def kvQuotaFull : Nat := 0x26
def kvLost : Nat := 0x27
def weightLost : Nat := 0x28
def arithParam : Nat := 0x30
def searchParam : Nat := 0x31
def filterParam : Nat := 0x32
def mutateParam : Nat := 0x33
def selectParam : Nat := 0x34
def attnParam : Nat := 0x35
def kvParam : Nat := 0x36
def modelParam : Nat := 0x37
def genParam : Nat := 0x38
def objParam : Nat := 0x39
def ctxParam : Nat := 0x3A
def indexParam : Nat := 0x3B
def cmdParam : Nat := 0x3C
def tagInUse : Nat := 0x3D
def alignError : Nat := 0x3E
def atomicTarget : Nat := 0x3F
def indexNotReady : Nat := 0x40
def indexLimit : Nat := 0x41
def indexImageBad : Nat := 0x42
def modelAbsent : Nat := 0x43
def modelResident : Nat := 0x44
def modelBusy : Nat := 0x45
def modelImageBad : Nat := 0x46
def seqBusy : Nat := 0x47
def objBound : Nat := 0x48
def pinned : Nat := 0x49
def objShared : Nat := 0x4A
def ctxBusy : Nat := 0x4B
def ctxLimit : Nat := 0x4C
def noSlot : Nat := 0x4D
def sliceFull : Nat := 0x4E
def chBusy : Nat := 0x4F
def chLimit : Nat := 0x50
def chNotOpen : Nat := 0x51
def funcDisabled : Nat := 0x52
def funcReset : Nat := 0x53
def lagoonFull : Nat := 0x60
def stackFull : Nat := 0x61
def quotaExceeded : Nat := 0x62
def imageSpace : Nat := 0x63
def dataUnreadable : Nat := 0x70
def ferryAccess : Nat := 0x71
def ferryAddr : Nat := 0x72
def ferryParam : Nat := 0x73
def opcodeUnknown : Nat := 0x74
def linkFailed : Nat := 0x75
end Status

/-! The opcodes of R326 Table 3. -/
namespace Op
def nop : Nat := 0x00
def abort : Nat := 0x01
def ctx : Nat := 0x02
def mem : Nat := 0x03
def indexLoad : Nat := 0x10
def indexSave : Nat := 0x11
def indexUnload : Nat := 0x12
def indexCompact : Nat := 0x13
def search : Nat := 0x14
def mutate : Nat := 0x15
def select : Nat := 0x16
def modelLoad : Nat := 0x20
def modelUnload : Nat := 0x21
def seqOpen : Nat := 0x22
def seqClose : Nat := 0x23
def step : Nat := 0x24
def kv : Nat := 0x25
end Op

/-- The class of an opcode: `some true` channel class, `some false` function class, `none` reserved (R326). -/
def opClass (o : Nat) : Option Bool :=
  if o ≤ 3 ∨ (0x10 ≤ o ∧ o ≤ 0x13) ∨ o = 0x20 ∨ o = 0x21 then some false
  else if (0x14 ≤ o ∧ o ≤ 0x16) ∨ (0x22 ≤ o ∧ o ≤ 0x25) then some true
  else none

/-- The body length of an opcode whose body is fixed (R326 Table 3). -/
def fixedLen (o : Nat) : Option Nat :=
  if o = 0x00 then some 0 else if o = 0x01 then some 4 else if o = 0x02 ∨ o = 0x03 then some 64
  else if o = 0x10 ∨ o = 0x20 then some 68 else if o = 0x11 then some 8 else if o = 0x12 then some 4
  else if o = 0x13 then some 16 else if o = 0x16 ∨ o = 0x22 ∨ o = 0x24 then some 64
  else if o = 0x21 then some 0 else if o = 0x23 then some 4 else none

end Sys2Proof.Machine

namespace Sys2Proof

/-- The command's name within the device (R328). -/
def CmdHdr.ref (h : CmdHdr) : CmdRef := { func := h.func, tag := h.tag }

/-- The queue of a command: its channel, or none for the function-class queue of its function. -/
def CmdHdr.queue (h : CmdHdr) : Option Nat :=
  if Machine.opClass h.opcode = some true then some h.channel else none

end Sys2Proof

namespace Sys2Proof.Machine

/-- The live command that a function and a tag name. -/
def State.live? (s : State) (r : CmdRef) : Option Live :=
  s.cmd.live.find? (fun l => l.h.func == r.func && l.h.tag == r.tag)

/-- Replaces a live command. -/
def State.updLive (s : State) (r : CmdRef) (f : Live → Live) : State :=
  { s with cmd := { s.cmd with live := updWhere (fun l => l.h.func == r.func && l.h.tag == r.tag) f s.cmd.live } }

/-- The open channel of a number. -/
def State.chan? (s : State) (n : Nat) : Option Chan := s.sch.chans.find? (fun c => c.num == n)

/-- Replaces a channel. -/
def State.updChan (s : State) (n : Nat) (f : Chan → Chan) : State :=
  { s with sch := { s.sch with chans := updWhere (fun c => c.num == n) f s.sch.chans } }

/-- The open context of an ID. -/
def State.ctx? (s : State) (id : Nat) : Option Ctx := s.sch.ctxs.find? (fun c => c.id == id)

/-- Replaces a context. -/
def State.updCtx (s : State) (id : Nat) (f : Ctx → Ctx) : State :=
  { s with sch := { s.sch with ctxs := updWhere (fun c => c.id == id) f s.sch.ctxs } }

/-- The context bound to a channel. -/
def State.chanCtx (s : State) (n : Nat) : Option Ctx := (s.chan? n).bind (fun c => s.ctx? c.ctx)

/-- The state of a function. -/
def State.fstate (s : State) (f : Nat) : FState := s.sch.funcs.getD f .disabled

/-- FUNC_CFG.EN of a function. -/
def State.funcEn (s : State) (f : Nat) : Bool := bit (s.rd (Reg.schedFuncCfg f)) 0

/-- The ordinal of the bridge: this device, or the bridge whose EPOCH_MARKs it follows (R365). -/
def State.bridgeOrd (s : State) : Nat := s.zwx.follow.getD (if s.fix.bridge then s.fix.ord else 0)

/-! ## Completions -/

/-- The CPL packets of one completion: fragments of 4,096 bytes, only the last with LAST = 1 (R334, R335). -/
def cplFrags (h : CmdHdr) (ord now status : Nat) (dup : Bool) (kind ring tag : Nat) (body : Body) : List Out :=
  let n := max 1 (cdiv body.length 4096)
  (List.range n).map (fun i => .cpl h.srcOrd
    { status := status, func := h.func, kind := kind, dupTag := dup, last := decide (i + 1 = n), channel := h.channel,
      tag := tag, srcOrd := ord, ring := ring, bodyLen := body.length, fragOff := i * 4096, time := now,
      bytes := (body.drop (i * 4096)).take 4096 })

/-- Queues the completion of a command that is not live: a refusal of R327. -/
def State.answer (s : State) (h : CmdHdr) (status : Nat) (dup : Bool) (body : Body) : State :=
  (s.emits (cplFrags h s.fix.ord s.devTime status dup 0 h.ring h.tag body)).count Reg.cmdCplCnt

/-- Whether a command of the same queue that is stamped, or will be before this one, is uncompleted (R339). -/
def State.fenceWaits (s : State) (l : Live) : Bool :=
  l.h.fence && s.cmd.live.any (fun x => x.h.func == l.h.func && x.h.queue == l.h.queue && x.h.tag != l.h.tag && x.stage != .awaiting &&
    (x.stage != .held || decide (x.order < l.order)))

/-- Whether a command's context is resident, or it needs none (R304). -/
def State.resident (s : State) (h : CmdHdr) : Bool :=
  match h.queue with
  | none => true
  | some c => match s.chanCtx c with
    | some x => x.st == .resident
    | none => false

/-- The ingress island of the index that a SEARCH, MUTATE or INDEX_COMPACT names (R24, R338). -/
def State.idxIngress (s : State) (h : CmdHdr) (b : Body) : Option Nat :=
  if h.opcode = Op.search ∨ h.opcode = Op.mutate ∨ h.opcode = Op.indexCompact then
    (s.idx.indexes.find? (fun x => x.no == fld b 5 0)).map (fun x => x.ingress)
  else none

/-- The last boundary whose marker an island has recorded: its number and its place in the count of boundaries (R96). An island that
has recorded none has been ingress only since the last boundary. -/
def State.markOf (s : State) (island : Nat) : Nat × Nat :=
  match s.idx.marks.find? (fun m => m.island == island) with
  | some m => (m.number, m.bno)
  | none => (s.idx.epoch, s.idx.bno)

/-- The tide that a command stamped on an island now belongs to (R96). -/
def State.stampTide (s : State) (island : Nat) : Nat := (s.markOf island).1

/-- An island becomes ingress: it stands at the current tide. -/
def State.addMark (s : State) (island : Nat) : State :=
  if s.idx.marks.any (fun m => m.island == island) then s
  else { s with idx := { s.idx with
    marks := s.idx.marks ++ [{ island := island, number := s.idx.epoch, bno := s.idx.bno, stamp := mapGet 0 island s.cmd.counts }] } }

/-- The island on which a command is stamped: its channel's ingress island, or 512 for the count on H (R24, R338).
SEARCH, MUTATE and INDEX_COMPACT are stamped on their index's ingress island. -/
def State.ingressOf (s : State) (l : Live) : Nat :=
  match s.idxIngress l.h l.body with
  | some i => i
  | none => match l.h.queue with
    | none => 512
    | some c => match s.chan? c with
      | some x => x.island
      | none => 512

/-- Puts a command on the delivery stream of its ingress island; commands are delivered in rising order. -/
def State.deliver (s : State) (r : CmdRef) : State :=
  match s.live? r with
  | none => s
  | some l =>
    let i := s.ingressOf l
    { s with cmd := { s.cmd with deliver := s.cmd.deliver ++ [(i, Stream.cmd r)], order := s.cmd.order + 1 } }.updLive r
      (fun l => { l with stage := .delivered, island := i, epoch := s.idx.epoch, order := s.cmd.order + 1 })

/-- The held commands that now may be stamped, in their order: the context is resident and no fence waits. -/
def State.releasable (s : State) : List Live :=
  s.cmd.live.filter (fun l => l.stage == .held && s.resident l.h && !s.fenceWaits l)

/-- The position of a held command: held queues of channels first in their own order (R302, R304). -/
def State.heldOrder (s : State) (l : Live) : Nat :=
  match l.h.queue with
  | none => l.order
  | some c => match s.chan? c with
    | some x => x.held.idxOf l.h.ref
    | none => l.order

/-- Inserts into a list kept in rising order of a key. -/
def insertBy {α : Type} (key : α → Nat) (x : α) : List α → List α
  | [] => [x]
  | y :: ys => if key x < key y then x :: y :: ys else y :: insertBy key x ys

/-- Sorts a list by a key, keeping the order of equal keys. -/
def sortBy {α : Type} (key : α → Nat) (l : List α) : List α := l.foldl (fun acc x => insertBy key x acc) []

/-- Delivers every held command that may go (R304, R339). -/
def State.releaseHeld (s : State) : State :=
  (sortBy s.heldOrder s.releasable).foldl (fun s l =>
    let s1 := match l.h.queue with
      | some c => s.updChan c (fun x => { x with held := x.held.erase l.h.ref })
      | none => s
    s1.deliver l.h.ref) s

/-- Removes a live command with its grant and intake space. -/
def State.dropLive (s : State) (r : CmdRef) : State :=
  match s.live? r with
  | none => s
  | some l =>
    let s1 := match l.h.queue with
      | some c =>
        let t := s.updChan c (fun x => { x with held := x.held.erase r })
        match s.chan? c with
        | some x => t.updCtx x.ctx (fun y => { y with done := s.now })
        | none => t
      | none => s
    { s1 with
      cmd := { s1.cmd with live := s1.cmd.live.filter (fun x => !(x.h.func == r.func && x.h.tag == r.tag))
                           deliver := s1.cmd.deliver.filter (fun d => d.2 != Stream.cmd r) }
      mm := { s1.mm with intakeUsed := s1.mm.intakeUsed.filter (fun g => !l.intake.contains g) } }

/-- An INDEX_LOAD that completes with a status other than OK is recorded in LOAD_ERR_LOG (R87, R90 Table 11): the status and the index
number of its descriptor. -/
def State.noteLoad (s : State) (opcode status : Nat) (b : Body) : State :=
  if opcode = Op.indexLoad ∧ status ≠ Status.ok then s.wr Reg.indexLoadErrLog (status * 2 ^ 8 + fld b 5 0) else s

/-- Queues a live command's completion (R334, R340); its tag, grant and intake are free, and commands that waited
for it behind a fence are delivered. -/
def State.complete (s : State) (r : CmdRef) (status : Nat) (body : Body) : State :=
  match s.live? r with
  | none => s
  | some l => (((s.dropLive r).noteLoad l.h.opcode status l.body).answer l.h status false body).releaseHeld

/-! ## Intake -/

/-- The header checks of R327 in their order: the status of the first that fails, with DUP_TAG. -/
def State.headerCheck (s : State) (h : CmdHdr) (b : Body) : Option (Nat × Bool) :=
  if !s.funcEn h.func then some (Status.funcDisabled, false)
  else if (match s.fstate h.func with | .resetting _ _ => true | _ => false) then some (Status.funcReset, false)
  else if opClass h.opcode = none then some (Status.opcodeUnknown, false)
  else if h.reserved != 0 || h.dstOrd != s.fix.ord || decide (h.inlineLen > 4096) || decide (h.xferLen > 134217728) ||
      b.length != h.inlineLen || (h.inlineLen != 0 && h.xferLen != 0) ||
      (match fixedLen h.opcode with | some n => h.inlineLen + h.xferLen != n | none => false) then
    some (Status.cmdParam, false)
  else if (s.live? h.ref).isSome then some (Status.tagInUse, true)
  else if opClass h.opcode == some true &&
      (match s.chan? h.channel with | some c => c.func != h.func || c.closing.isSome | none => true) then
    some (Status.chNotOpen, false)
  else none

/-- The back-off running on a command's queue. -/
def State.hint? (s : State) (h : CmdHdr) : Option Hint :=
  s.cmd.hints.find? (fun x => x.func == h.func && x.chan == h.queue)

/-- The granules that a body of `n` bytes takes. -/
def intakeNeed (n : Nat) : Nat := cdiv n 65536

/-- The free granules of the intake pool. -/
def State.intakeFree (s : State) : Nat := runTotal s.mm.intake - s.mm.intakeUsed.length

/-- The cause that refuses a command, of the first limit reached (R329, R331): 0 CHANNEL_DEPTH, 1 FUNC_DEPTH,
2 DEVICE_DEPTH, 3 INTAKE. -/
def State.depthCause (s : State) (h : CmdHdr) : Option Nat :=
  let mine := (s.cmd.live.filter (fun l => l.h.func == h.func && l.h.queue == h.queue)).length
  if h.queue.isSome ∧ mine ≥ 4096 then some 0
  else if h.queue.isNone ∧ mine ≥ 256 then some 1
  else if s.cmd.live.length ≥ 65536 then some 2
  else if s.intakeFree < intakeNeed h.xferLen then some 3
  else none

/-- Records an answer time (R330 bounds it by 2,000 ns; the spec fixes no value). -/
def State.answerTime (s : State) : State :=
  { s with cmd := { s.cmd with answerMax := max s.cmd.answerMax (Config.freeBits s.fresh % 2001) }, fresh := s.fresh + 1 }

/-- Answers BUSY_RETRY and counts it (R332). -/
def State.busyRetry (s : State) (h : CmdHdr) (cause hint : Nat) : State :=
  ((s.emit (.busyRetry h.srcOrd cause h.func h.tag hint)).count Reg.cmdBusyRetryCnt).answerTime

/-- The back-off of a refusal: HINT_US doubled for each answer since the last acceptance, up to six times, capped. -/
def State.hintUs (s : State) (n : Nat) : Nat := min 65535 (bits (s.rd Reg.cmdRetryCfg) 15 0 * 2 ^ min n 6)

/-- Refuses a command with a back-off that starts now (R332). -/
def State.backOff (s : State) (h : CmdHdr) (cause : Nat) : State :=
  let n := match s.hint? h with
    | some x => x.n
    | none => 0
  let us := s.hintUs n
  let hint : Hint := { func := h.func, chan := h.queue, cause := cause, untilNs := s.now + us * 1000, n := n + 1 }
  let others := s.cmd.hints.filter (fun x => !(x.func == h.func && x.chan == h.queue))
  ({ s with cmd := { s.cmd with hints := others ++ [hint] } } : State).busyRetry h cause us

/-- The handle of a new grant: 32 bits, not 0, and no live one. -/
def State.grantHandle (s : State) : Nat :=
  (((List.range (s.cmd.live.length + 2)).map (fun i => (s.cmd.order + 1 + i) % 2 ^ 32)).find? (fun h =>
    h != 0 && !s.cmd.live.any (fun l => l.handle == h))).getD 1

/-- Accepts a command: it is live, takes its intake space, and ends its queue's back-off (R328, R329, R331). -/
def State.accept (s : State) (h : CmdHdr) (b : Body) : State :=
  let (ks, s1) := takeFree (runTotal s.mm.intake) (fun k => !s.mm.intakeUsed.contains (runGran s.mm.intake k)) s.mm.intakeUsed.length
    (intakeNeed h.xferLen) [] s
  let grans := ks.map (runGran s.mm.intake)
  let hd := if h.xferLen > 0 then s1.grantHandle else 0
  let l : Live :=
    { h := h, body := if h.xferLen > 0 then List.replicate h.xferLen 0 else b, got := [], handle := hd,
      intake := grans, stage := .awaiting, island := 512, stamp := 0, tide := 0, epoch := 0, accepted := 0, order := 0,
      committed := false, came := s.now }
  let s2 := { s1 with
    cmd := { s1.cmd with live := s1.cmd.live ++ [l], order := s1.cmd.order + 1
                         hints := s1.cmd.hints.filter (fun x => !(x.func == h.func && x.chan == h.queue)) }
    mm := { s1.mm with intakeUsed := s1.mm.intakeUsed ++ grans } }
  let s3 := s2.countRate 127 Reg.cmdCmdCnt
  if h.xferLen > 0 then (s3.emit (.xferReady h.srcOrd h.func h.tag hd h.xferLen)).answerTime else s3

/-- The back-off of a command's queue that has not elapsed (R332). -/
def State.running? (s : State) (h : CmdHdr) : Option Hint := (s.hint? h).filter (fun x => decide (s.now < x.untilNs))

/-- Answers a command within a running back-off with the same cause and the hint that remains (R332). -/
def State.busyAgain (s : State) (h : CmdHdr) (x : Hint) : State :=
  let hs := updWhere (fun (y : Hint) => y.func == h.func && y.chan == h.queue) (fun y => { y with n := y.n + 1 }) s.cmd.hints
  ({ s with cmd := { s.cmd with hints := hs } } : State).busyRetry h x.cause (min 65535 (cdiv (x.untilNs - s.now) 1000))

/-- Refuses a command in QUIESCE: the answer counts as one of its queue's (R332, R379). -/
def State.quiesceBusy (s : State) (h : CmdHdr) : State :=
  let n := ((s.hint? h).map (fun x => x.n)).getD 0
  let hint : Hint := { func := h.func, chan := h.queue, cause := 2, untilNs := s.now + 65535000, n := n + 1 }
  let others := s.cmd.hints.filter (fun x => !(x.func == h.func && x.chan == h.queue))
  ({ s with cmd := { s.cmd with hints := others ++ [hint] } } : State).busyRetry h 2 65535

/-- Takes a CMD packet (R327 to R332). The second part names the command when it was accepted with its whole body. -/
def State.arrive (s : State) (h : CmdHdr) (b : Body) : State × Option CmdRef :=
  if !s.powered then (s, none)
  else if !s.cmd.ready then (match s.running? h with
    | some x => s.busyAgain h x
    | none => s.backOff h 3, none)
  else if s.pwr.st = .quiesce ∧ h.opcode ≠ Op.abort ∧ h.opcode ≠ Op.seqClose then (s.quiesceBusy h, none)
  else match s.headerCheck h b with
  | some (st, dup) =>
    let s1 := if dup then s.count Reg.cmdTagInUseCnt else s
    let s2 := if h.xferLen > 0 then (s1.emit (.xferReady h.srcOrd h.func h.tag 0 0)).answerTime else s1
    ((s2.noteLoad h.opcode st b).answer h st dup [], none)
  | none =>
    match s.running? h with
    | some x => (s.busyAgain h x, none)
    | none =>
      match s.depthCause h with
      | some c => (s.backOff h c, none)
      | none => (s.accept h b, if h.xferLen > 0 then none else some h.ref)

/-- Stamps a command on its ingress island's arrival count (R93, R338): the count, the acceptance
time and the tide; the epoch was tagged at delivery (R96). -/
def State.stamp (s : State) (r : CmdRef) (island : Nat) : State :=
  let n := mapGet 0 island s.cmd.counts
  { s with cmd := { s.cmd with counts := mapPut 0 island ((n + 1) % 2 ^ 32) s.cmd.counts } }.updLive r (fun l =>
    { l with stage := .running, island := island, stamp := n, tide := s.stampTide island, accepted := s.now })

/-- A command whose body is complete takes its place in its queue. It is held while its context is not resident or
its fence waits, delivered to its ingress island otherwise; a command of no tide is
stamped at once where nothing waits on its island and no command of its queue waits to be stamped (R338), and the second part says so. -/
def State.bodyDone (s : State) (r : CmdRef) : State × Bool :=
  let s0 := { s with cmd := { s.cmd with order := s.cmd.order + 1 } }.updLive r (fun l =>
    { l with order := s.cmd.order + 1, stage := .held })
  match s0.live? r with
  | none => (s0, false)
  | some l =>
    let heldBefore := match l.h.queue with
      | some c => (match s0.chan? c with | some x => !x.held.isEmpty && !s0.resident l.h | none => false)
      | none => false
    if !s0.resident l.h || s0.fenceWaits l || heldBefore then
      (match l.h.queue with
        | some c => s0.updChan c (fun x => { x with held := x.held ++ [r] })
        | none => s0, false)
    else
      let i := s0.ingressOf l
      let waits := s0.cmd.live.any (fun x => x.h.func == l.h.func && x.h.queue == l.h.queue && x.stage == .delivered)
      if l.h.opcode = Op.search ∨ l.h.opcode = Op.mutate ∨ l.h.opcode = Op.indexCompact ∨ waits ||
          s0.cmd.deliver.any (fun d => d.1 == i) then
        (s0.deliver r, false)
      else ((s0.updLive r (fun l => { l with epoch := s.idx.epoch })).stamp r i, true)

/-- A body check: the status and the completion body of a refusal, or none. -/
abbrev BodyCheck := State → CmdHdr → Body → Option (Nat × Body)

/-- What a stamped command does. -/
abbrev CmdAct := CmdRef → Live → State → State

/-- Checks a complete body and lets the command run or wait. -/
def State.bodyEnter (s : State) (r : CmdRef) (chk : BodyCheck) (act : CmdAct) : State :=
  match s.live? r with
  | none => s
  | some l =>
    match chk s l.h l.body with
    | some (st, body) => s.complete r st body
    | none =>
      match s.bodyDone r with
      | (s1, false) => s1
      | (s1, true) => match s1.live? r with
        | some l1 => act r l1 s1
        | none => s1

/-- A CMD packet of one row of the opcode table: header checks, acceptance, body check, and the command's action when
it can be stamped at once. A packet whose opcode belongs to another row is not this command and changes nothing. -/
def State.command (s : State) (isRow : CmdHdr → Body → Bool) (chk : BodyCheck) (act : CmdAct) (h : CmdHdr)
    (b : Body) : State :=
  if (opClass h.opcode).isSome && !isRow h b then s
  else match s.arrive h b with
  | (s1, none) => s1
  | (s1, some r) => s1.bodyEnter r chk act

end Sys2Proof.Machine
end

