-- ==== Sys2Proof/Machine/Tasks.lean ====
section
/-! DEFINITION. Shared operations over tasks, functions, clocks and accounting (chapter 12) and the start of a partition
reset (R320). -/

namespace Sys2Proof.Machine

/-- The waiting time that a stall adds is not stated: a free value (R271). -/
def State.stallUs (s : State) (reg : Nat) : State :=
  let (v, s1) := s.freeVal
  s1.count reg v

/-- Data came from a mirror or a replica device: a stall of the cause REMOTE (R271). -/
def State.stallRemote (s : State) : State := (s.count Reg.memRemoteEv).stallUs Reg.memRemoteUs

/-- Data came from a throttled stack: a stall of the cause THERMAL (R271, R274). -/
def State.stallThermal (s : State) : State := (s.count Reg.memThermalEv).stallUs Reg.memThermalUs

/-- The set clock n of an island (R392). -/
def State.setClock (s : State) (island : Nat) : Nat :=
  min s.pwr.nCap (min (match s.mm.stk[island / 16]? with | some x => x.nTherm | none => 32)
    (if s.pwr.st = .hold then 8 else 32))

/-- The sum of two accounting records. -/
def Acct.add (a b : Acct) : Acct :=
  { engine := a.engine + b.engine, t2rd := a.t2rd + b.t2rd, t2wr := a.t2wr + b.t2wr, t3rd := a.t3rd + b.t3rd, t3wr := a.t3wr + b.t3wr
    link := a.link + b.link, energy := a.energy + b.energy, qwait := a.qwait + b.qwait }

/-- The sum of two slowdown sums. -/
def SlotAcct.add (a b : SlotAcct) : SlotAcct :=
  { busy := a.busy + b.busy, qwait := a.qwait + b.qwait, killed := a.killed + b.killed, switched := a.switched + b.switched }

/-- The first `n` ns of an interval's charge. -/
def LateAcct.head (x : LateAcct) (n : Nat) : LateAcct :=
  { x with t1 := x.t0 + n, a := { x.a with engine := min x.a.engine n, qwait := min x.a.qwait n }, sa := { x.sa with qwait := min x.sa.qwait n } }

/-- What follows the first `n` ns of an interval's charge. -/
def LateAcct.tail (x : LateAcct) (n : Nat) : LateAcct :=
  { x with t0 := x.t0 + n, a := { x.a with engine := x.a.engine - n, qwait := x.a.qwait - n }, sa := { x.sa with qwait := x.sa.qwait - n } }

/-- Adds a charge to the open records. -/
def State.chargeNow (s : State) (x : LateAcct) : State :=
  { s with sch := { s.sch with
    cur := updAt x.func (fun a => a.add x.a) s.sch.cur
    slotCur := match x.slot with
      | some k => updAt k (fun a => a.add x.sa) s.sch.slotCur
      | none => s.sch.slotCur } }

/-- Charges an event or an interval: what lies before the window's end goes to the open records, and the rest belongs to a later window;
an interval is split at the edge (R7, R317). -/
def State.chargeSpan (s : State) (x : LateAcct) : State :=
  let e := s.sch.windowEnd
  let later (s : State) (y : LateAcct) : State := { s with sch := { s.sch with late := s.sch.late ++ [y] } }
  if x.t0 ≥ e then later s x
  else if x.t1 ≤ e then s.chargeNow x
  else later (s.chargeNow (x.head (e - x.t0))) (x.tail (e - x.t0))

/-- Charges an event of now to a function's accounting record (R318); record 16 is the unattributed one. `g` adds to one field. -/
def State.charge (s : State) (f : Nat) (g : Acct → Acct) : State :=
  s.chargeSpan { t0 := s.now, t1 := s.now, func := f, a := g Acct.zero, slot := none, sa := SlotAcct.zero }

/-- Charges an event of now to a slot's sums (R319). -/
def State.chargeSlot (s : State) (k : Nat) (sa : SlotAcct) : State :=
  s.chargeSpan { t0 := s.now, t1 := s.now, func := 16, a := Acct.zero, slot := some k, sa := sa }

/-- Replaces a task. -/
def State.updTask (s : State) (id : Nat) (f : Task → Task) : State :=
  { s with sch := { s.sch with tasks := updWhere (fun t => t.id == id) f s.sch.tasks } }

/-- Whether an islet is fenced, itself or with its island. -/
def State.isletFenced (s : State) (islet : Nat) : Bool :=
  s.flt.islands.contains (islet / 16) || s.flt.islets.contains islet

/-- Whether the debug halt of an islet is set, so that no new task is placed on it (R62). -/
def State.isletHalted (s : State) (islet : Nat) : Bool := s.ar.islets.any (fun x => x.islet == islet && x.halt)

/-- The sixteen islets of an island that run no task, are not fenced (R306) and are not halted (R62). -/
def State.freeIslets (s : State) (island : Nat) : List Nat :=
  ((List.range 16).map (fun i => island * 16 + i)).filter (fun i =>
    !s.isletFenced i && !s.isletHalted i && !s.sch.tasks.any (fun t => t.islet == some i))

/-- Puts a task on an island's dispatch queue (R306); its class is its context's PRIO. -/
def State.addTask (s : State) (island : Nat) (kind : TaskKind) (func : Nat) (ctx : Option Nat) (cls : Nat)
    (ready : Bool) (cmd : Option CmdRef) : State :=
  let t : Task :=
    { id := s.sch.nextTask, island := island, kind := kind, func := func, ctx := ctx, cls := cls,
      aged := false, entered := s.now, ready := ready, islet := none, started := 0, since := s.now, killing := false, kills := 0,
      tiles := 0, save := none, ran := 0, cmd := cmd, homes := [] }
  { s with sch := { s.sch with tasks := s.sch.tasks ++ [t], nextTask := s.sch.nextTask + 1 } }

/-- The next island that is not fenced: in ascending order on the same die, then on the next die in ring order (R24). The search goes
from index 127 to index 0 of the same die before it goes to the next die (DESIGN CHOICE, log entry 61). -/
def State.nextIsland (s : State) (i : Nat) : Nat :=
  let d := i / 128
  let own := (List.range 128).map (fun j => d * 128 + (i + j) % 128)
  let rest := [1, 2, 3].flatMap (fun e => (List.range 128).map (fun j => (d + e) % 4 * 128 + j))
  ((own ++ rest).find? (fun j => !s.flt.islands.contains j)).getD i

/-- Where a task goes first free: an own island of the stack, failing that an island of the die; of the die of island `merge` where the
source is in T3 (R160, R176). -/
def State.taskIsland (s : State) (stack : Nat) (t3 : Bool) (merge : Nat) : Nat :=
  let own := (List.range 16).map (fun i => stack * 16 + i)
  let die := if t3 then merge / 128 else stack / 8
  let all := (if t3 then [] else own) ++ (List.range 128).map (fun i => die * 128 + i)
  let idle (i : Nat) : Bool := !s.flt.islands.contains i && decide ((s.sch.tasks.filter (fun t => t.island == i)).length < (s.freeIslets i).length)
  match all.find? idle with
  | some i => i
  | none => (all.find? (fun i => !s.flt.islands.contains i)).getD merge

/-- The islands to which a task goes first free, in order of preference; see `taskIsland`. -/
def homesOf (stack : Nat) (t3 : Bool) (merge : Nat) : List Nat :=
  ((if t3 then [] else (List.range 16).map (fun i => stack * 16 + i)) ++
    (List.range 128).map (fun i => (if t3 then merge / 128 else stack / 8) * 128 + i)).eraseDups

/-- Whether a queued task that goes first free may take an islet of an island: it prefers no other island that has one (R160, R176). -/
def State.roamsTo (s : State) (t : Task) (island : Nat) : Bool :=
  t.save.isNone && t.homes.contains island && (t.homes.takeWhile (fun i => i != island)).all (fun i => s.flt.islands.contains i || (s.freeIslets i).isEmpty)

/-- Queues a task that goes first free. -/
def State.addRoam (s : State) (stack : Nat) (t3 : Bool) (merge : Nat) (kind : TaskKind) (func : Nat) (ctx : Option Nat) (cls : Nat) (ready : Bool)
    (cmd : Option CmdRef) : State :=
  (s.addTask (s.taskIsland stack t3 merge) kind func ctx cls ready cmd).updTask s.sch.nextTask (fun t => { t with homes := homesOf stack t3 merge })

/-- The class of a command's queries and pieces: PRIO of its channel's context (R306, R307). -/
def State.cmdClass (s : State) (r : CmdRef) : Nat := (((s.live? r).bind (fun l => s.chanCtx l.h.channel)).map (fun c => c.prio)).getD 0

/-- Puts a sequencer task on an island's dispatch queue (R307): it belongs to no context, and is ready at once. -/
def State.addSeqTask (s : State) (island : Nat) (kind : TaskKind) (func cls : Nat) (cmd : Option CmdRef) : State :=
  s.addTask island kind func none cls true cmd

/-- Charges the islet time of a running task from `since` to the time `u`, to its function and its island (R318). -/
def State.chargeSince (s : State) (t : Task) (u : Nat) : State :=
  let dt := u - t.since
  let s1 := s.chargeSpan
    { t0 := t.since, t1 := t.since + dt, func := t.func, a := { Acct.zero with engine := dt }, slot := none, sa := SlotAcct.zero }
  { s1 with sch := { s1.sch with
    islandBusy := s1.sch.islandBusy ++ [(t.island, t.func, dt)]
    lastRan := match t.ctx with
      | some c => (s1.sch.lastRan.filter (fun e => e.1 != c)) ++ [(c, s.now)]
      | none => s1.sch.lastRan } }

/-- Charges a running task that stops now (R318, R319): `killed` marks a kill. -/
def State.chargeRun (s : State) (t : Task) (killed : Bool) : State :=
  let dt := s.now - t.since + t.ran
  let s2 := s.chargeSince t s.now
  match t.ctx.bind s2.ctx? with
  | some c => s2.chargeSlot c.slot (if killed then { SlotAcct.zero with killed := dt } else { SlotAcct.zero with busy := dt })
  | none => s2

/-- Charges the time that a queued ready task has waited up to the time `u` (R318, R319). -/
def State.chargeWait (s : State) (t : Task) (u : Nat) : State :=
  let dt := u - t.since
  s.chargeSpan
    { t0 := t.since, t1 := t.since + dt, func := t.func, a := { Acct.zero with qwait := dt }, slot := (t.ctx.bind s.ctx?).map (fun c => c.slot)
      sa := { SlotAcct.zero with qwait := dt } }

/-- Ends the tasks that satisfy `p`: those that run are charged, and all leave their queues. The sequencer's own command says that they have
ended, whether or not TASK_DISPATCH and TASK_END have named them (DESIGN CHOICE, log entry 63). -/
def State.seqOver (s : State) (p : Task → Bool) : State :=
  let s1 := (s.sch.tasks.filter (fun t => p t && t.islet.isSome)).foldl (fun s t => s.chargeRun t false) s
  { s1 with sch := { s1.sch with tasks := s1.sch.tasks.filter (fun t => !p t) } }

/-- Marks the tasks that satisfy `p` for a kill: a running task stops at the end of its pass (R310), a queued task of
a command that has ended leaves its queue. -/
def State.killTasks (s : State) (p : Task → Bool) : State :=
  { s with sch := { s.sch with
    tasks := (s.sch.tasks.map (fun t => if p t && t.islet.isSome then { t with killing := true } else t)) } }

/-- A task leaves its islet without having ended, with `a` live tiles: the next task there makes a switch (R308). -/
def State.leave (s : State) (t : Task) (a : Nat) : State :=
  match t.islet with
  | none => s
  | some i => { s with gen := { s.gen with leaving := s.gen.leaving.filter (fun e => e.islet != i) ++ [{ islet := i, ctx := t.ctx, tiles := a, task := t.id }] } }

/-- A killed task's operations, tiles and unpublished outputs are discarded (R310). -/
def State.clearIslet (s : State) (i : Nat) : State :=
  { s with ar := { s.ar with islets := updWhere (fun x => x.islet == i) (fun x => { x with
      acc0 := List.replicate 1024 0, acc1 := List.replicate 1024 0, scale0 := 0, scale1 := 0, ops := [], vwaits := [] }) s.ar.islets } }

/-- A running task is killed: it is charged and counted, and what it has made is discarded (R310, R319). The task itself stays listed. -/
def State.killRun (s : State) (t : Task) : State :=
  let s1 := ((s.chargeRun t true).count Reg.schedKillCnt).leave t 0
  match t.islet with
  | some i => s1.clearIslet i
  | none => s1

/-- A running task that lacks an input yields its islet (R236, R271): it goes back to its queue with what it has done, and its live tiles, a
free number of them, wait for the switch. An islet whose save area holds the tiles of another task of the context gets none (DESIGN CHOICE,
log entry 77). `ready` says whether it may run again at once. -/
def State.yieldTask (s : State) (t : Task) (ready : Bool) : State :=
  match t.islet with
  | none => s
  | some i =>
    let a := if t.ctx.isNone || s.sch.tasks.any (fun x => x.id != t.id && x.ctx == t.ctx && x.save == some i) then 0 else Config.pick s.fresh % 3
    let s1 : State := { (s.chargeSince t s.now).leave t a with fresh := s.fresh + 1 }
    s1.updTask t.id (fun x => { x with
      islet := none, since := s.now, ran := x.ran + (s.now - x.since), tiles := a, save := if a = 0 then none else some i, ready := ready })

/-- Removes the tasks that satisfy `p` from the dispatch queues; those that run are killed first. -/
def State.dropTasks (s : State) (p : Task → Bool) : State :=
  let run := s.sch.tasks.filter (fun t => p t && t.islet.isSome)
  let s1 := run.foldl State.killRun s
  { s1 with sch := { s1.sch with tasks := s1.sch.tasks.filter (fun t => !p t) } }

/-- Every generation of the slots that satisfy `p` is abandoned by a fence: working and pending copies are dropped (R270). -/
def State.abandon (s : State) (p : SlotSt → Bool) (code : FerryCode) : State :=
  { s with mm := { s.mm with slots := updWhere p (fun x =>
      let had := x.work.isSome || x.pend.isSome
      { x with work := none, pend := none, started := false, sent := 0, acked := [], merged := false, waited := false
               code := if had then code else x.code, err := if had then true else x.err }) s.mm.slots } }

/-- Every generation of function `f` is abandoned (R320); a pending generation of another function then becomes the working one. -/
def State.abandonFunc (s : State) (f : Nat) : State :=
  let mine (d : Option FerryDesc) : Bool := (d.map (fun d => d.func == f)).getD false
  { s with mm := { s.mm with slots := s.mm.slots.map (fun x =>
      let keep := if mine x.pend then none else x.pend
      if mine x.work then
        { x with work := keep, pend := none, order := x.pOrder, started := false, sent := 0, acked := [], merged := false, waited := false
                 gen := if keep.isSome then (x.gen + 1) % 65536 else x.gen }
      else { x with pend := keep }) } }

/-- A job fault of function `f` (R320): it starts a partition reset, or joins the one under way. Steps 1 and 2 of
Table 4: STATE = RESETTING, the function's tasks are killed and its generations abandoned. -/
def State.startReset (s : State) (f cause : Nat) : State :=
  match s.fstate f with
  | .resetting _ _ => s
  | _ =>
    let s1 := { s with sch := { s.sch with funcs := updAt f (fun _ => .resetting cause false) s.sch.funcs } }
    let s2 := (s1.killTasks (fun t => t.func == f))
    s2.abandonFunc f

/-- Records that a cause of R401 Table 2 calls for a fence; FENCE_EFFECT carries it out. -/
def State.fenceCause (s : State) (u : FenceUnit) (c : FenceCause) : State :=
  { s with flt := { s.flt with causes := addOnce (u, c) s.flt.causes } }

/-! ## Groups -/

/-- The size of a dimension. -/
def FixSt.size (x : FixSt) (d : Nat) : Nat := max 1 (match d with
  | 0 => x.dx
  | 1 => x.dy
  | _ => x.dz)

/-- The members of a group (R372). -/
def State.members (s : State) (g : Nat) : List Nat :=
  let n := s.fix.size 0 * s.fix.size 1 * s.fix.size 2
  if g = 0 then List.range n
  else (List.range n).filter (fun o => bit (s.rd (Reg.archMcast (2 * (g - 1) + o / 32))) (o % 32))

end Sys2Proof.Machine
end

