-- ==== Sys2Proof/Machine/Place.lean ====
section
/-! DEFINITION. What accesses leave behind wherever they come from: the bytes that stacks and flash move for functions (R272, R318), and the
places, stripes, blocks and channel queues of the map units in flash (R279 to R291). -/

namespace Sys2Proof.Machine

/-! ## Traffic (R251, R272, R318) -/

/-- Adds an access to the counters of a stack's open period. Accesses of no function, number 16, are of no object. -/
def StackSt.addPeriod (x : StackSt) (f h rd wr : Nat) : StackSt :=
  let old := ((x.objs.find? (fun e => e.1 == f && e.2.1 == h)).map (fun e => e.2.2)).getD 0
  { x with
    rd := x.rd + rd, wr := x.wr + wr
    objs := if f = 16 then x.objs else x.objs.filter (fun e => !(e.1 == f && e.2.1 == h)) ++ [(f, h, old + rd + wr)] }

/-- Bytes that a stack moves for object `h` of function `f`, in the period that holds this moment (R7, R272); function `by_` caused them. -/
def State.traffic (s : State) (stack f h by_ rd wr : Nat) : State :=
  let add (x : StackSt) : StackSt :=
    let y := if s.now ≥ s.mgmt.period + 1000000 then { x with late := x.late ++ [(s.now, f, h, rd, wr)] } else x.addPeriod f h rd wr
    { y with fb := mapPut 0 by_ (mapGet 0 by_ y.fb + rd + wr) y.fb }
  ({ s with mm := { s.mm with stk := updAt stack add s.mm.stk } } : State).charge by_
    (fun a => { a with t2rd := a.t2rd + rd, t2wr := a.t2wr + wr })

/-- Bytes of a granule that a stack moves for an object, charged to `by_`. A write of parity data makes two line accesses on its own stack
and two on the parity stack (R251). -/
def State.granTraffic (s : State) (by_ f h stack g rd wr : Nat) : State :=
  if wr > 0 && s.isParityData stack g then
    (s.traffic stack f h by_ (rd + wr) wr).traffic (parityStack stack g) f h by_ wr wr
  else s.traffic stack f h by_ rd wr

/-- The parts of a range within granules or units of 64 KiB: place and bytes. -/
def partsOf (off n : Nat) : List (Nat × Nat) :=
  if n = 0 then [] else
  (List.range ((off + n - 1) / 65536 - off / 65536 + 1)).map (fun i =>
    let lo := max off ((off / 65536 + i) * 65536)
    (off / 65536 + i, min (off + n) ((off / 65536 + i + 1) * 65536) - lo))

/-- Reads or writes of `n` bytes of an object from an offset on, charged to the function that caused them. -/
def State.objTraffic (s : State) (by_ : Nat) (o : Obj) (write : Bool) (off n : Nat) : State :=
  if o.inT2 then
    (partsOf off n).foldl (fun s p =>
      s.granTraffic by_ o.func o.handle o.stack (o.grans.getD p.1 0) (if write then 0 else p.2) (if write then p.2 else 0)) s
  else s.charge by_ (fun a => if write then { a with t3wr := a.t3wr + n } else { a with t3rd := a.t3rd + n })

/-- Reads or writes of an object by handle. -/
def State.hTraffic (s : State) (by_ f h : Nat) (write : Bool) (off n : Nat) : State :=
  match s.obj? f h with
  | some o => s.objTraffic by_ o write off n
  | none => s

/-- Bytes of flash that no function caused (R318). -/
def State.flashWork (s : State) (rd wr : Nat) : State := s.charge 16 (fun a => { a with t3rd := a.t3rd + rd, t3wr := a.t3wr + wr })

/-! ## Map units and blocks (R279, R283, R287, R288) -/

/-- The place of a map unit. -/
def State.place? (s : State) (u : Nat) : Option Nat := (s.fl.map.find? (fun e => e.1 == u)).map (fun e => e.2)

/-- Whether a map unit belongs to the spill region. -/
def isSpillUnit (u : Nat) : Bool := decide (u ≥ 0x3C0000000)

/-- The first map unit of a spill frame (R278). -/
def spillUnit (f : Nat) : Nat := 0x3C0000000 + 4 * f

/-- The block that holds a unit's place. Spill units lie in blocks of their own, whose cells hold one bit (R283): they have the odd
numbers. -/
def blockNo (u place : Nat) : Nat := 2 * Config.blockOf place + b2n (isSpillUnit u)

/-- A flash block as it stands; one never named is fresh. -/
def State.blk (s : State) (ch b : Nat) : Blk :=
  (s.fl.blocks.find? (fun x => x.ch == ch && x.blk == b)).getD
    { ch := ch, blk := b, slc := b % 2 == 1, used := false, erases := 0, reads := 0, rebuilds := 0, marked := false, backlog := false
      retired := false }

/-- Replaces a flash block. -/
def State.putBlk (s : State) (x : Blk) : State :=
  { s with fl := { s.fl with blocks := s.fl.blocks.filter (fun y => !(y.ch == x.ch && y.blk == x.blk)) ++ [x] } }

/-- The block that holds the place of a unit. -/
def State.blkAt (s : State) (u place : Nat) : Blk := s.blk (place % 64) (blockNo u place)

/-- A block is taken out of use, and another one of the reserve replaces it (R283, R288). What it still holds is to move away. -/
def State.retireBlk (s : State) (x : Blk) : State :=
  let s1 := s.putBlk { x with retired := true, marked := true }
  ({ s1 with fl := { s1.fl with freeBytes := s1.fl.freeBytes - Config.blockBytes } } : State).count Reg.vuindigBlockRetireCnt

/-- A place's page is programmed: the first program of a block takes it from the free ones. -/
def State.takeBlk (s : State) (u place : Nat) : State :=
  let x := s.blkAt u place
  if x.used then s
  else
    let s1 := s.putBlk { x with used := true }
    { s1 with fl := { s1.fl with freeBytes := s1.fl.freeBytes - Config.blockBytes } }

/-! ## Stripes (R281, R282, R289) -/

/-- The channel that carries the parity page of a stripe: F(16q + s mod 16), or the next working one of the group where that has failed
(DESIGN CHOICE, log entry 75). -/
def State.parityCh (s : State) (g no : Nat) : Nat :=
  (((List.range 16).map (fun i => 16 * g + (no + i) % 16)).find? (fun c => !s.fl.failed.contains c)).getD (16 * g + no % 16)

/-- The channels that carry the data pages of a stripe. -/
def State.dataChs (s : State) (g no : Nat) : List Nat :=
  ((List.range 16).map (fun i => 16 * g + i)).filter (fun c => !s.fl.failed.contains c && c != s.parityCh g no)

/-- The stripe of a group that takes pages, or the one that begins. -/
def State.openStripe (s : State) (g : Nat) : Stripe :=
  (s.fl.stripes.find? (fun x => x.group == g && !x.shut)).getD
    { group := g, no := mapGet 0 g s.fl.stripeNo, opened := s.now, units := [], shut := false }

/-- The channels on which a stripe's page has room for a unit: a page holds four. -/
def State.stripeRoom (s : State) (x : Stripe) : List Nat :=
  (s.dataChs x.group x.no).filter (fun c => decide ((x.units.filter (fun e => e.2.1 % 64 == c)).length < 4))

/-- A stripe of this group and number. -/
def Stripe.is (x y : Stripe) : Bool := x.group == y.group && x.no == y.no

/-- Puts a stripe in its place; one that is shut and wholly programmed gets its parity page, and is no longer open (R281, R282). -/
def State.putStripe (s : State) (x : Stripe) : State :=
  let others := s.fl.stripes.filter (fun y => !y.is x)
  let no := mapPut 0 x.group (max (mapGet 0 x.group s.fl.stripeNo) (x.no + 1)) s.fl.stripeNo
  if x.shut && x.units.all (fun e => e.2.2) then
    { s with fl := { s.fl with
        stripes := others, stripeNo := no, programs := s.fl.programs + 4
        nandBytes := if bit (s.rd (pageBase Reg.vuindigStat + 0x0C)) 0 then s.fl.nandBytes + 16384 else s.fl.nandBytes } }
  else { s with fl := { s.fl with stripes := others ++ [x], stripeNo := no } }

/-- A unit joins a stripe at a place; a full stripe takes no more. -/
def State.joinStripe (s : State) (x : Stripe) (u place : Nat) : State :=
  let y := { x with units := x.units ++ [(u, place, false)] }
  s.putStripe { y with shut := y.units.length ≥ 4 * (s.dataChs x.group x.no).length }

/-- The page of a place in a stripe has been programmed; a block that failed has given it the place `new`. -/
def State.stripeDone (s : State) (place new : Nat) : State :=
  match s.fl.stripes.find? (fun x => x.units.any (fun e => e.2.1 == place)) with
  | none => s
  | some x => s.putStripe { x with units := x.units.map (fun e => if e.2.1 = place then (e.1, new, true) else e) }

/-! ## Places for written units -/

/-- The next place on a channel. -/
def State.nextOn (s : State) (c : Nat) : Nat × State :=
  ((s.fl.nextPlace + 1) * 64 + c, { s with fl := { s.fl with nextPlace := s.fl.nextPlace + 1 } })

/-- The channel groups that take new stripes: those with at most one failed channel (R289). -/
def State.goodGroups (s : State) : List Nat :=
  (List.range 4).filter (fun g => decide ((s.fl.failed.filter (fun c => c / 16 == g)).length ≤ 1))

/-- A place for a newly programmed page of a map unit (R280): in the open stripe of a group, on one of its data channels, both a free
choice (R281, R289); a spill frame's on channel f mod 64, in no stripe (R281, R283). None where no group works. -/
def State.newPlace (s : State) (u : Nat) : Option Nat × State :=
  if isSpillUnit u then
    let r := s.nextOn (u / 4 % 64)
    (some r.1, r.2)
  else match s.draw s.goodGroups with
  | (none, s1) => (none, s1)
  | (some g, s1) =>
    let x := s1.openStripe g
    match s1.draw (s1.stripeRoom x) with
    | (none, s2) => (none, s2)
    | (some c, s2) =>
      let r := s2.nextOn c
      (some r.1, r.2.joinStripe x u r.1)

/-- The page of a unit is programmed at its place and the map entry switches to it (R280, R282). `host` are the bytes written for a host or
a spill (R290). A block that fails the program is retired, and the page goes to the next place of the channel (R288). -/
def State.settle (s : State) (u place host : Nat) : State :=
  let bad := Config.flashFails s.fresh
  let s0 : State := { s with fresh := s.fresh + 1 }
  let (p, s1) := if bad then (s0.retireBlk (s0.blkAt u place)).nextOn (place % 64) else (place, s0)
  let s2 := (s1.takeBlk u p).stripeDone place p
  let en := bit (s.rd (pageBase Reg.vuindigStat + 0x0C)) 0
  { s2 with fl := { s2.fl with
      map := mapPut 0 u p s2.fl.map, lost := s2.fl.lost.filter (fun x => x != u)
      hostBytes := if en then s2.fl.hostBytes + host else s2.fl.hostBytes
      nandBytes := if en then s2.fl.nandBytes + 4096 else s2.fl.nandBytes
      programs := if isSpillUnit u then s2.fl.programs else s2.fl.programs + 1
      slcPrograms := if isSpillUnit u then s2.fl.slcPrograms + 1 else s2.fl.slcPrograms } }

/-- A map unit is written at once, with `host` bytes of a host or a spill. -/
def State.mapUnit (s : State) (host u : Nat) : State :=
  match s.newPlace u with
  | (none, s1) => s1
  | (some p, s1) => s1.settle u p host

/-- The map units that bytes from a Vuindig address on touch, with how many of the bytes lie in each. -/
def unitParts (a n : Nat) : List (Nat × Nat) :=
  if n = 0 then [] else
  (List.range ((a + n - 1) / 4096 - a / 4096 + 1)).map (fun i =>
    (a / 4096 + i, min (a + n) ((a / 4096 + i + 1) * 4096) - max a ((a / 4096 + i) * 4096)))

/-- Bytes of T3 from a Vuindig address on have been written: every unit they touch has gone to a new page (R280). -/
def State.mapBytes (s : State) (a n : Nat) : State := (unitParts a n).foldl (fun s p => s.mapUnit p.2 p.1) s

/-! ## Reads of map units (R279, R284, R287, R288) -/

/-- Takes a map page into the map cache; a full cache gives up a page by a free choice (R279). -/
def State.cachePage (s : State) (p : Nat) : State :=
  let cap := bits (s.rd Reg.vuindigMapCfg) 5 0 * 65536
  let (out, s1) := if s.fl.cached.length ≥ cap then s.draw s.fl.cached else (none, s)
  let kept := match out with
    | some x => s1.fl.cached.erase x
    | none => s1.fl.cached
  { s1 with fl := { s1.fl with cached := kept ++ [p] } }

/-- The map entry of a unit is looked up; one that is not cached takes its map page first (R279). -/
def State.mapLook (s : State) (u : Nat) : State :=
  if s.fl.cached.contains (u / 4096) then s else (s.cachePage (u / 4096)).count Reg.vuindigMapMissCnt

/-- A read counts on its block; past the disturb threshold the block is queued, and a queued block whose count doubles counts once
in the backlog (R287). -/
def State.countRead (s : State) (u place : Nat) : State :=
  let x := s.blkAt u place
  let n := x.reads + 1
  let back := x.marked && !x.backlog && decide (n ≥ 2 * (Config.disturb + 1))
  let s1 := s.putBlk { x with reads := n, marked := x.marked || decide (n > Config.disturb), backlog := x.backlog || back }
  if back then s1.count Reg.vuindigRdBacklogCnt else s1

/-- Whether reads that are served first stand in a channel's queue: foreground reads, and reads for rebuilds of its group (R284). -/
def State.chBusy (s : State) (ch : Nat) : Bool :=
  s.fl.reads.any (fun r => r.ch == ch && r.ahead) ||
  s.fl.rebuilding.any (fun u => ((s.place? u).map (fun p => p % 64 / 16 == ch / 16)).getD false)

/-- The write that stands first in a channel's queue. -/
def State.firstWrite (s : State) (ch : Nat) : Option FWrite := s.fl.writes.find? (fun w => w.ch == ch && !w.waiting)

/-- The background copy that a channel programs while no write stands in its queue (R284, R286). -/
def State.firstMove (s : State) (ch : Nat) : Option FMove :=
  if (s.firstWrite ch).isSome then none else s.fl.moves.find? (fun m => m.dst % 64 == ch)

/-- A foreground read joins the queue of the channel that holds its unit (R284). One that finds its die programming suspends that
operation, up to four times; after that it waits for its end. An erase ends in the step that begins it, so no read finds one (DESIGN
CHOICE, log entry 75). A unit that was never written has no page to read. -/
def State.queueRead (s : State) (u : Nat) : State :=
  match s.place? u with
  | none => s
  | some p =>
    let ch := p % 64
    let put (s : State) (ahead : Bool) : State :=
      { s with fl := { s.fl with reads := s.fl.reads ++ [{ unit := u, place := p, ch := ch, ahead := ahead }] } }
    if s.chBusy ch then put s true
    else match s.firstWrite ch, s.firstMove ch with
      | some w, _ =>
        if Config.dieOf w.place ≠ Config.dieOf p then put s true
        else if w.susp < 4 then
          put { s with fl := { s.fl with writes := s.fl.writes.map (fun y => if y = w then { y with susp := y.susp + 1 } else y) } } true
        else put s false
      | none, some m =>
        if Config.dieOf m.dst ≠ Config.dieOf p then put s true
        else if m.susp < 4 then
          put { s with fl := { s.fl with moves := s.fl.moves.map (fun y => if y = m then { y with susp := y.susp + 1 } else y) } } true
        else put s false
      | none, none => put s true

/-- The reads that waited for a channel's operation come next. -/
def State.releaseReads (s : State) (ch : Nat) : State :=
  { s with fl := { s.fl with reads := updWhere (fun r => r.ch == ch) (fun r => { r with ahead := true }) s.fl.reads } }

/-- A read of a unit that its channel serves now: the first of the foreground reads that stand before the channel's operation (R284). A
read that nothing has queued is taken as issued now, so it comes after those queued (DESIGN CHOICE, log entry 75). -/
def State.serveRead (s : State) (u : Nat) : Option (FRead × State) :=
  let s0 := if s.fl.reads.any (fun r => r.unit == u) then s else s.queueRead u
  match s0.fl.reads.find? (fun r => r.unit == u) with
  | none => none
  | some r =>
    if s0.fl.reads.find? (fun x => x.ch == r.ch && x.ahead) = some r then
      some (r, { s0 with fl := { s0.fl with reads := s0.fl.reads.erase r } })
    else none

/-- A read of a unit is served after a look at its map entry and up to seven retries (R279, R287, R288). -/
def State.readPage (s : State) (r : FRead) (retries : Nat) : State :=
  ((s.mapLook r.unit).countRead r.unit r.place).count Reg.vuindigReadRetryCnt (min retries 7)

/-- The read of a spill frame, one page of four units, is queued on its channel. -/
def State.queueSpill (s : State) (f : Nat) : State := s.queueRead (spillUnit f)

/-- The read of a spill frame is served, where its turn has come. One whose frame has no page, as no write of it was durable, is served at
once. -/
def State.serveSpill (s : State) (f : Nat) : Option State :=
  if (s.place? (spillUnit f)).isNone then some (s.mapLook (spillUnit f))
  else (s.serveRead (spillUnit f)).map (fun r => r.2.readPage r.1 0)

/-! ## Writes of map units (R280, R282, R284, R287) -/

/-- Whether free blocks have fallen below 1 % of the reserve of 5 TiB (R283, R287). -/
def State.flashLow (s : State) : Bool := decide (s.fl.freeBytes * 100 < 5 * 2 ^ 40)

/-- A write of class 3 joins its channel's queue; while free blocks lack it waits for garbage collection (R280, R284, R287). -/
def State.queueWrite (s : State) (u : Nat) (bytes : List (Option Byte)) (copy : Bool) : State :=
  let p := s.newPlace u
  let low := s.flashLow
  let w : FWrite := { unit := u, bytes := bytes, copy := copy, place := p.1.getD 0, ch := p.1.getD 0 % 64, waiting := low, susp := 0 }
  let s1 : State := { p.2 with fl := { p.2.fl with writes := p.2.fl.writes ++ [w] } }
  if low then s1.count Reg.vuindigGcThrottleCnt else s1

/-- Whether a write stands first in its channel's queue, with no read served before it (R284). -/
def State.writeTurn (s : State) (w : FWrite) : Bool := !w.waiting && s.firstWrite w.ch == some w && !s.chBusy w.ch

/-- A write leaves its queue; the reads that waited for it come next. -/
def State.dropWrite (s : State) (w : FWrite) : State :=
  ({ s with fl := { s.fl with writes := s.fl.writes.erase w, rebuilding := s.fl.rebuilding.filter (fun u => u != w.unit) } } : State).releaseReads w.ch

/-- The place of a write, or another where its channel has failed since (R280, R289). -/
def State.writePlace (s : State) (w : FWrite) : Option Nat × State :=
  if s.fl.failed.contains w.ch then s.newPlace w.unit else (some w.place, s)

/-- The page of a write and its map-journal page are programmed: the write is durable (R282). -/
def State.endWrite (s : State) (w : FWrite) (host : Nat) : State :=
  match s.writePlace w with
  | (some p, s1) => s1.settle w.unit p host
  | (none, s1) => s1

/-- Writes that will not be programmed leave their queues; their places stay empty, as padding of their stripes. -/
def State.cancelWrites (s : State) (p : FWrite → Bool) : State :=
  let s1 : State := { s with fl := { s.fl with writes := s.fl.writes.filter (fun w => !p w) } }
  (s.fl.writes.filter p).foldl (fun s w => s.stripeDone w.place w.place) s1

/-- Writes bytes of an object for function `by_`, which moves them (R272, R318); in T3 every unit they touch goes to a new page (R280). -/
def State.objStore (s : State) (by_ : Nat) (o : Obj) (off : Nat) (b : List Byte) : State :=
  let s1 := (s.objPuts o off b).objTraffic by_ o true off b.length
  if o.inT2 then s1
  else (partsOf off b.length).foldl (fun s p => match o.units[p.1]? with
    | some u => s.mapBytes (u * 65536 + (max off (p.1 * 65536) - p.1 * 65536)) p.2
    | none => s) s1

/-- The map units of the first `n` bytes of a T3 object. -/
def Obj.flashUnits (o : Obj) (n : Nat) : List Nat := (List.range (cdiv n 4096)).filterMap (fun i => (o.units[i / 16]?).map (fun u => u * 16 + i % 16))

/-- The reads of a whole T3 object are queued on the channels that hold its units (R284). -/
def State.queueObj (s : State) (o : Obj) : State := if o.inT2 then s else (o.flashUnits o.size).foldl State.queueRead s

/-- Whether reads or rebuilds of a T3 object's units are still to be served, or the map is not yet replayed (R284, R288, R294). -/
def State.objWaits (s : State) (o : Obj) : Bool :=
  !o.inT2 && (!s.fl.ready || (o.flashUnits o.size).any (fun u => s.fl.reads.any (fun r => r.unit == u) || s.fl.rebuilding.contains u))

/-- The writes of a T3 object's first bytes are queued on the channels that take its units, as class 3 (R284). -/
def State.queueBytes (s : State) (o : Obj) (b : List Byte) : State :=
  (o.flashUnits b.length).zipIdx.foldl (fun s u => s.queueWrite u.1 (((b.drop (4096 * u.2)).take 4096).map some) false)
    (s.objTraffic o.func o true 0 b.length)

/-- Whether writes of a T3 object's units are still to be programmed. -/
def State.objUnwritten (s : State) (o : Obj) : Bool := s.fl.writes.any (fun w => o.units.contains (w.unit / 16))

/-- Units leave the flash tier's lists: nothing holds them any longer (R294). -/
def State.dropUnits (s : State) (p : Nat → Bool) : State :=
  let s1 := s.cancelWrites (fun w => p w.unit)
  let s2 := (s1.fl.moves.filter (fun m => p m.unit)).foldl (fun s m => s.stripeDone m.dst m.dst) s1
  { s2 with fl := { s2.fl with
      map := s2.fl.map.filter (fun e => !p e.1), lost := s2.fl.lost.filter (fun u => !p u)
      rebuilding := s2.fl.rebuilding.filter (fun u => !p u), reads := s2.fl.reads.filter (fun r => !p r.unit)
      moves := s2.fl.moves.filter (fun m => !p m.unit) } }

end Sys2Proof.Machine
end

