-- ==== Sys2Proof/Machine/Arith.lean ====
section
/-! DEFINITION. Matrix operations, the vector unit and the debug window of an islet (chapter 2). -/

namespace Sys2Proof.Machine

/-! ## Islets -/

/-- An islet that nothing has used since reset: tiles and scale words zero (R60). -/
def isletZero (i : Nat) : IsletSt :=
  { islet := i, acc0 := List.replicate 1024 0, acc1 := List.replicate 1024 0, scale0 := 0, scale1 := 0, ops := [],
    vregs := [], vwaits := [], ctx := none, halt := false, halted := false }

/-- An islet's state. -/
def State.islet (s : State) (i : Nat) : IsletSt := (s.ar.islets.find? (fun x => x.islet == i)).getD (isletZero i)

/-- Stores an islet's state. -/
def State.putIslet (s : State) (x : IsletSt) : State :=
  { s with ar := { s.ar with islets := s.ar.islets.filter (fun y => y.islet != x.islet) ++ [x] } }

/-- The die of an islet. -/
def isletDie (i : Nat) : Nat := i / 2048

/-! ## Parameters (R28 to R32, R47) -/

/-- The product class of an element format: 0 a 4-bit integer, 1 an 8-bit integer, 2 FP4, 3 FP8, 4 BF16 or FP16. -/
def fmtClass : Fmt → Option Nat
  | .int4 => some 0
  | .int8 => some 1
  | .mxint8 => some 1
  | .fp4 => some 2
  | .mxfp4 => some 2
  | .e4m3 => some 3
  | .e5m2 => some 3
  | .mxfp8 => some 3
  | .mxfp8e5 => some 3
  | .bf16 => some 4
  | .fp16 => some 4
  | _ => none

/-- Whether a format is an MX block format, which implies an E8M0 scale (R28). -/
def fmtMx : Fmt → Bool
  | .mxint8 => true
  | .mxfp8 => true
  | .mxfp8e5 => true
  | .mxfp4 => true
  | .mxfp6 => true
  | _ => false

/-- The scale format in force for an operand. An MX format has E8M0 scales whatever the operation names, since R32 says only that MX formats
imply E8M0 (DESIGN CHOICE, log entry 62). -/
def scaleOf (f : Fmt) (s : ScaleFmt) : ScaleFmt := if fmtMx f then .e8m0 else s

/-- Whether the products of an operation are integer, if its operands can meet at all (R31). -/
def opInt (op : MatOp) : Option Bool :=
  match fmtClass op.fmtA, fmtClass op.fmtB with
  | some a, some b =>
    if a ≤ 1 ∧ b ≤ 1 then some true
    else if 2 ≤ a ∧ a ≤ 3 ∧ 2 ≤ b ∧ b ≤ 3 then some false
    else if a = 4 ∧ b = 4 then some false
    else none
  | _, _ => none

/-- Whether both operands are of 4 bits. -/
def op4 (op : MatOp) : Bool := fmtBits op.fmtA == 4 && fmtBits op.fmtB == 4

/-- Whether the operation has BF16 or FP16 operands. -/
def op16 (op : MatOp) : Bool := fmtClass op.fmtA == some 4

/-- Whether an operand carries block scales. -/
def opScaled (op : MatOp) : Bool := scaleOf op.fmtA op.scaleA != .none || scaleOf op.fmtB op.scaleB != .none

/-- The pass depth D (R31 Table 2). -/
def passDepth (op : MatOp) (mode : AccMode) : Nat :=
  if op16 op then 32
  else match mode with
    | .narrow => if op4 op then 128 else 64
    | .full => if op4 op then 64 else 32
    | .wide => 32

/-- The number of passes. -/
def passCount (op : MatOp) (mode : AccMode) : Nat := cdiv op.k (passDepth op mode)

/-- The mode in which an operation starts. -/
def accMode : AccKind → AccMode
  | .acc16 => .narrow
  | .acc32 => .full
  | .wide => .wide

/-- Whether the parameters lie within R32 Table 3 and no rule of the chapter excludes their combination. READOUT = INT32 with ACC = WIDE is
refused, as R47 gives it no meaning (DESIGN CHOICE, log entry 62). -/
def matOpOk (op : MatOp) : Bool :=
  let sa := scaleOf op.fmtA op.scaleA
  let sb := scaleOf op.fmtB op.scaleB
  (opInt op).isSome && op.fmtA != .mxfp6 && op.fmtB != .mxfp6 &&
  (!(fmtMx op.fmtA || fmtMx op.fmtB) || op.mxBlock == 32) &&
  decide (1 ≤ op.m) && decide (op.m ≤ 32) && decide (1 ≤ op.n) && decide (op.n ≤ 32) &&
  decide (1 ≤ op.k) && decide (op.k ≤ 2 ^ 24) && decide (op.tile ≤ 1) && decide (op.preshift ≤ 11) &&
  (op.acc == .acc16 || op.preshift == 0) && (op.acc == .wide || op.winLsb == 0) && decide (-512 ≤ op.winLsb) && decide (op.winLsb ≤ 511) &&
  !(op.init == .onto && op.acc == .acc16) && (!opScaled op || op.k % 32 == 0) &&
  !(op16 op && (opScaled op || op.acc != .acc32)) && !(op.readout == .int64 && op.acc != .wide) &&
  !(op.readout == .int32 && op.acc == .wide) &&
  (op.acc != .wide ||
    (opInt op == some false && sa != .e4m3 && sb != .e4m3 && op.fmtA != .e5m2 && op.fmtB != .e5m2 &&
     op.fmtA != .mxfp8e5 && op.fmtB != .mxfp8e5))

/-! ## Operands in islet memory -/

/-- `w` bits at bit offset `pos` of islet memory from `base`; two 4-bit elements share a byte, the lower in bits 3 to 0. -/
def State.t0Elem (s : State) (islet base idx w : Nat) : Nat :=
  if w = 4 then bits (s.byte (t0Addr islet (base + idx / 2))).toNat (idx % 2 * 4 + 3) (idx % 2 * 4)
  else leNat (s.bytes (t0Addr islet (base + idx * (w / 8))) (w / 8))

/-- A[m][k], rows in order; exact zero beyond M and K (R38). -/
def State.opA (s : State) (islet : Nat) (op : MatOp) (m k : Nat) : Fv :=
  if m < op.m ∧ k < op.k then fmtDecode op.fmtA (s.t0Elem islet op.aOff (m * op.k + k) (fmtBits op.fmtA)) else .fin false 0 0

/-- B[k][n], held column by column so that the reduction axis runs through consecutive elements. -/
def State.opB (s : State) (islet : Nat) (op : MatOp) (k n : Nat) : Fv :=
  if n < op.n ∧ k < op.k then fmtDecode op.fmtB (s.t0Elem islet op.bOff (n * op.k + k) (fmtBits op.fmtB)) else .fin false 0 0

/-- One scale of an operand's scale array (R29): row or column `r`, block `j`. -/
def State.opScale (s : State) (islet base blocks r j : Nat) (f : ScaleFmt) : Fv :=
  match f with
  | .none => .fin false 1 0
  | .e8m0 => e8m0 (s.byte (t0Addr islet (base + r * blocks + j))).toNat
  | .e4m3 => e4m3Fmt.decode (s.byte (t0Addr islet (base + r * blocks + j))).toNat

/-- s_j of R37: the product of the scales of block j of row m and column n. -/
def State.opSj (s : State) (islet : Nat) (op : MatOp) (m n j : Nat) : Fv :=
  let nb := cdiv op.k 32
  (if m < op.m then s.opScale islet op.saOff nb m j (scaleOf op.fmtA op.scaleA) else .fin false 1 0).mul
    (if n < op.n then s.opScale islet op.sbOff nb n j (scaleOf op.fmtB op.scaleB) else .fin false 1 0)

/-! ## One pass (R37 to R45) -/

/-- The accumulator format of a floating-point accumulation: FP16 with ACC = 16, else FP32. -/
def accFp (mode : AccMode) : FpFmt := if mode = .narrow then fp16Fmt else fp32Fmt

/-- A running value with the column generator and whether a 16-bit overflow, a saturation or an infinite entry has been seen. -/
structure Acc where
  v : Fv
  gen : Nat
  ovf : Bool
  deriving DecidableEq, Repr

/-- One rounded result in the accumulator's format: it takes 16 random bits whether or not it needs them. -/
def Acc.rnd (a : Acc) (f : FpFmt) (x : Fv) : Acc :=
  let (r, g) := draw16 a.gen
  let w := f.encode x (.stoch r) .toInf
  let y := f.decode w
  { v := y, gen := g, ovf := a.ovf || (match y with
      | .inf _ => true
      | _ => false) }

/-- The entry that a tile addition leaves. At 32 bits OVF is set by an entry that is infinite, not by a term on the way (R43); with ACC = 16
every infinite result is an overflow (R44). -/
def Acc.entry (mode : AccMode) (a out : Acc) : Acc :=
  if mode = .narrow then out
  else { out with ovf := a.ovf || (match out.v with
    | .inf _ => true
    | _ => false) }

/-- The exponent of the unit in which integer products count: MXINT8 elements are read times 2^-6 (R28). The chain counts in this unit, and
the scale of the block carries it. -/
def intUnit (op : MatOp) : Int := (if op.fmtA = .mxint8 then -6 else 0) + (if op.fmtB = .mxint8 then -6 else 0)

/-- The product p_k, shifted right by the current shift of an operation with ACC = 16 (R44, R45): an integer product is divided and
rounded to nearest with ties to even. -/
def shiftProd (int : Bool) (sh : Nat) (p : Fv) : Fv :=
  if sh > 0 then
    (if int then Fv.ofInt ((p.mul (.fin false 1 (-(sh : Int)))).toIntRnd .near (-(2 ^ 62 : Int)) (2 ^ 62))
     else p.mul (.fin false 1 (-(sh : Int))))
  else p

/-- A floating-point product of an operation with ACC = 16 that falls into FP16's subnormal range is rounded before it is used (R44). -/
def roundSub (sub : Bool) (p : Fv) (a : Acc) : Fv × Acc :=
  match p with
  | .fin n m e =>
    if sub ∧ m ≠ 0 ∧ Fv.lt (.fin false m e) (.fin false 1 (-14)) then
      let b := a.rnd fp16Fmt (.fin n m e)
      (b.v, { a with gen := b.gen })
    else (p, a)
  | _ => (p, a)

/-- The chain p_0 ⊕ … ⊕ p_(n−1), left to right, in floating point. -/
def chainFp (f : FpFmt) (sub : Bool) : List Fv → Acc → Acc
  | [], a => a
  | p :: ps, a =>
    let r := roundSub sub p a
    chainFp f sub ps (r.2.rnd f (r.2.v.add r.1))

/-- The integer chain, exact; with ACC = 16 each partial sum is checked against INT16 (R44). -/
def chainInt (narrow : Bool) : List Fv → Fv → Bool → Fv × Bool
  | [], v, o => (v, o)
  | p :: ps, v, o =>
    let w := v.add p
    chainInt narrow ps w (o || (narrow && (Fv.lt w (Fv.ofInt (-32768)) || Fv.lt (Fv.ofInt 32767) w)))

/-- The scale multiplication of an INT16 accumulation (R37, R44): rounded to nearest with ties to even, as R44 rounds its integers, and
without a draw. A product that is no number counts as an overflow (DESIGN CHOICE, log entry 62). -/
def scaleInt (c sj : Fv) : Fv × Bool :=
  match c.mul sj with
  | .fin n m e =>
    let y := Fv.ofInt ((Fv.fin n m e).toIntRnd .near (-(2 ^ 62 : Int)) (2 ^ 62))
    (y, Fv.lt y (Fv.ofInt (-32768)) || Fv.lt (Fv.ofInt 32767) y)
  | _ => (.fin false 0 0, true)

/-- Adds one block's products to an entry: the chain, the scale multiplication and the tile addition (R37, R40). -/
def blockStep (mode : AccMode) (int scaled sub : Bool) (sj : Fv) (ps : List Fv) (a : Acc) : Acc :=
  let f := accFp mode
  match ps with
  | [] => a
  | p0 :: rest =>
    if int then
      let (c, o) := chainInt (mode = .narrow) rest p0 a.ovf
      if scaled ∧ mode = .narrow then
        let m := scaleInt c sj
        let t := a.v.add m.1
        { a with v := t, ovf := o || m.2 || Fv.lt t (Fv.ofInt (-32768)) || Fv.lt (Fv.ofInt 32767) t }
      else if scaled then
        let m := ({ a with ovf := o }).rnd f (c.mul sj)
        a.entry mode (m.rnd f (a.v.add m.v))
      else
        let t := a.v.add c
        if mode = .narrow then
          { a with v := t, ovf := o || Fv.lt t (Fv.ofInt (-32768)) || Fv.lt (Fv.ofInt 32767) t }
        else
          let lo := Fv.ofInt (-2147483648)
          let hi := Fv.ofInt 2147483647
          if Fv.lt t lo then { a with v := lo, ovf := true }
          else if Fv.lt hi t then { a with v := hi, ovf := true } else { a with v := t, ovf := o }
    else
      let r := roundSub sub p0 a
      let c := chainFp f sub rest { r.2 with v := r.1 }
      if scaled then
        let m := c.rnd f (c.v.mul sj)
        a.entry mode (m.rnd f (a.v.add m.v))
      else a.entry mode (c.rnd f (a.v.add c.v))

/-- The value of a tile entry, and its pattern (R32, R43, R44): INT16 for integer products with ACC = 16, INT32 for unscaled ones at 32
bits, FP16 or FP32 otherwise. -/
def entryDecode (mode : AccMode) (intAcc : Bool) (w : Nat) : Fv :=
  if intAcc then Fv.ofInt (bitsInt (if mode = .narrow then 16 else 32) w) else (accFp mode).decode w

/-- See `entryDecode`. -/
def entryEncode (mode : AccMode) (intAcc : Bool) (v : Fv) : Nat :=
  if intAcc then intBits (if mode = .narrow then 16 else 32) (v.toIntRnd .near (-2147483648) 2147483647)
  else (accFp mode).encode v .near .toInf

/-- Whether the accumulator holds integers. -/
def intAcc (mode : AccMode) (op : MatOp) : Bool := opInt op == some true && (mode == .narrow || !opScaled op)

/-- The operands of an operation as values: A[m][k], B[k][n], and s_j of a row, a column and a block. -/
structure MatIn where
  a : Nat → Nat → Fv
  b : Nat → Nat → Fv
  sj : Nat → Nat → Nat → Fv

/-- The operands in islet memory. -/
def State.matIn (s : State) (islet : Nat) (op : MatOp) : MatIn := { a := s.opA islet op, b := s.opB islet op, sj := s.opSj islet op }

/-- One entry through one pass from reduction index `k0`. -/
def MatIn.entryPass (x : MatIn) (op : MatOp) (mode : AccMode) (sh k0 m n : Nat) (a : Acc) : Acc :=
  let d := passDepth op mode
  let int := opInt op == some true
  let sub := decide (mode = .narrow)
  let live := decide (m < op.m) && decide (n < op.n)
  let prod (k : Nat) : Fv := if live && decide (k < op.k) then shiftProd int sh (((x.a m k).mul (x.b k n)).mul (.fin false 1 (-intUnit op)))
    else .fin false 0 0
  if opScaled op then
    (List.range (d / 32)).foldl (fun a j =>
      let kb := k0 + j * 32
      if live && decide (kb < op.k) then
        blockStep mode int true sub ((x.sj m n (kb / 32)).mul (.fin false 1 (intUnit op))) ((List.range 32).map (fun i => prod (kb + i))) a
      else blockStep mode int true sub (.fin false 1 0) (List.replicate 32 (.fin false 0 0)) a) a
  else blockStep mode int false sub (.fin false 1 0) ((List.range d).map (fun i => prod (k0 + i))) a

/-- One column through one pass, rows in ascending order (R40): the entries, the generator, and the overflow flag. -/
def MatIn.columnPass (x : MatIn) (op : MatOp) (mode : AccMode) (sh k0 n gen : Nat) (tile : List Nat) :
    List Nat × Nat × Bool :=
  (List.range 32).foldl (fun (r : List Nat × Nat × Bool) m =>
    let a := x.entryPass op mode sh k0 m n
      { v := entryDecode mode (intAcc mode op) (tile.getD (m * 32 + n) 0), gen := r.2.1, ovf := r.2.2 }
    (r.1 ++ [entryEncode mode (intAcc mode op) a.v], a.gen, a.ovf)) ([], gen, false)

/-- A whole pass over a 32-bit tile: columns side by side. -/
def MatIn.tilePass (x : MatIn) (op : MatOp) (mode : AccMode) (sh k0 : Nat) (gens tile : List Nat) :
    List Nat × List Nat × Bool :=
  let cols := (List.range 32).map (fun n => x.columnPass op mode sh k0 n (gens.getD n 1) tile)
  ((List.range 1024).map (fun i => ((cols.getD (i % 32) ([], 0, false)).1.getD (i / 32) 0)), cols.map (fun c => c.2.1),
    cols.any (fun c => c.2.2))

/-- One entry through one wide-window pass: the exact sum in units of 2^WIN_LSB; NaN is the most negative value (R47). An entry beyond M or N
takes products of exact zero (R38). -/
def State.widePass (s : State) (islet : Nat) (op : MatOp) (k0 m n : Nat) (c : Int) : Int :=
  if c = -(2 ^ 63) ∨ m ≥ op.m ∨ n ≥ op.n then c
  else
    let t := (List.range 32).foldl (fun (acc : Fv) i =>
      let k := k0 + i
      let sj := if opScaled op then s.opSj islet op m n (k / 32) else .fin false 1 0
      if k < op.k then acc.add (((s.opA islet op m k).mul (s.opB islet op k n)).mul sj) else acc) (.fin false c.natAbs op.winLsb)
    let t1 := if c < 0 then t.add (.fin true (2 * c.natAbs) op.winLsb) else t
    match t1 with
    | .fin n m e => scaleTo n m e op.winLsb
    | _ => -(2 ^ 63)

/-! ## Starting and running an operation -/

/-- Entry `n` of the bias row. Its entries have the width and the format of the accumulator that the operation names, also where the
operation is promoted or falls back (R32, R45, R49). A WIDE operation's are 64-bit two's-complement numbers in units of 2^WIN_LSB
(DESIGN CHOICE, log entry 62). -/
def State.biasEntry (s : State) (islet : Nat) (op : MatOp) (n : Nat) : Fv :=
  match op.acc with
  | .acc16 => entryDecode .narrow (intAcc .narrow op) (s.t0Elem islet op.biasOff n 16)
  | .acc32 => entryDecode .full (intAcc .full op) (s.t0Elem islet op.biasOff n 32)
  | .wide =>
    let v := bitsInt 64 (s.t0Elem islet op.biasOff n 64)
    if v = -(2 ^ 63) then .nan else (Fv.ofInt v).mul (.fin false 1 op.winLsb)

/-- The tile's entries and the column generators at the start of an attempt (R32, R44): zero, the bias row in every row, or the tile as it
stands. A bias entry is shifted as a product is; where it needs rounding, in FP16's subnormal range or for a wide operation that runs
again in FP32, the column's generator draws for it before its first chain (DESIGN CHOICE, log entry 62). `old` are the tile's values
where a wide operation falls back. -/
def State.initTile (s : State) (islet : Nat) (op : MatOp) (mode : AccMode) (sh : Nat) (gens tile : List Nat) (old : List Fv) :
    List Nat × List Nat :=
  let int := intAcc mode op
  let round (v : Fv) (n : Nat) : Fv × Nat :=
    let a : Acc := { v := v, gen := gens.getD n 1, ovf := false }
    if op.acc = .wide then (match v with
      | .nan => (v, a.gen)
      | _ => let b := a.rnd fp32Fmt v; (b.v, b.gen))
    else let b := roundSub (decide (mode = .narrow) && !int) v a; (b.1, b.2.gen)
  match op.init with
  | .clear => (List.replicate 1024 0, gens)
  | .onto =>
    if op.acc = .wide then
      let cols := (List.range 32).map (fun n => (List.range 32).foldl (fun (r : List Nat × Nat) m =>
        let a : Acc := { v := old.getD (m * 32 + n) .nan, gen := r.2, ovf := false }
        match a.v with
        | .nan => (r.1 ++ [entryEncode mode int .nan], r.2)
        | _ => let b := a.rnd fp32Fmt a.v; (r.1 ++ [entryEncode mode int b.v], b.gen)) ([], gens.getD n 1))
      ((List.range 1024).map (fun i => (cols.getD (i % 32) ([], 0)).1.getD (i / 32) 0), cols.map (fun c => c.2))
    else (tile, gens)
  | .bias =>
    let row := (List.range 32).map (fun n =>
      if n < op.n then
        let r := round (shiftProd (opInt op == some true) sh (s.biasEntry islet op n)) n
        (entryEncode mode int r.1, r.2)
      else (0, gens.getD n 1))
    ((List.range 1024).map (fun i => (row.getD (i % 32) (0, 0)).1), row.map (fun r => r.2))

/-- The two words of each wide entry from its 64-bit value: low in ACC0, high in ACC1. -/
def wideSplit (vs : List Int) : List Nat × List Nat :=
  (vs.map (fun v => intBits 64 v % 2 ^ 32), vs.map (fun v => intBits 64 v / 2 ^ 32))

/-- The 64-bit values of a wide tile. -/
def wideJoin (lo hi : List Nat) : List Int := (List.range 1024).map (fun i => bitsInt 64 (lo.getD i 0 + hi.getD i 0 * 2 ^ 32))

/-- The starting values of a wide tile, its bias row in units of 2^WIN_LSB (`State.biasEntry`). -/
def State.initWide (s : State) (islet : Nat) (op : MatOp) (old : List Int) : List Int :=
  match op.init with
  | .clear => List.replicate 1024 0
  | .onto => old
  | .bias => (List.range 1024).map (fun i => if i % 32 < op.n then bitsInt 64 (s.t0Elem islet op.biasOff (i % 32) 64) else 0)

/-- The generators of an operation's 32 columns (R41). -/
def colGens (seed : Nat) : List Nat := (List.range 32).map (genState seed)

/-- All passes of one attempt over a tile: its entries and whether any overflowed. -/
def MatIn.attempt (x : MatIn) (op : MatOp) (mode : AccMode) (sh : Nat) (tile : List Nat) : List Nat × Bool :=
  let r := (List.range (passCount op mode)).foldl (fun (r : List Nat × List Nat × Bool) i =>
    let p := x.tilePass op mode sh (i * passDepth op mode) r.2.1 r.1
    (p.1, p.2.1, r.2.2 || p.2.2)) (tile, colGens op.seed, false)
  (r.1, r.2.2)

/-- The cycles in which the array runs one attempt of an operation (R31). -/
def attemptCycles (op : MatOp) (mode : AccMode) : Nat := 34 + (if op16 op then 128 else if mode = .wide then 64 else 32) * passCount op mode

/-- What operations add to the counters of their die (R62 Table 10): replays, promotions, operations that set OVF, and operations that set
NAN with the NaN conversions of R52; `cycles` are those of the array. -/
structure Tally where
  replay : Nat
  promote : Nat
  ovf : Nat
  nan : Nat
  cycles : Nat
  deriving DecidableEq, Repr

/-- Nothing to count. -/
def Tally.zero : Tally := { replay := 0, promote := 0, ovf := 0, nan := 0, cycles := 0 }

/-- Two tallies together. -/
def Tally.add (x y : Tally) : Tally :=
  { replay := x.replay + y.replay, promote := x.promote + y.promote, ovf := x.ovf + y.ovf, nan := x.nan + y.nan, cycles := x.cycles + y.cycles }

/-- Several tallies together. -/
def tallySum (l : List Tally) : Tally := l.foldl Tally.add Tally.zero

/-- The NaN conversions of FP32 words that are quantised (R52). -/
def nanTally (v : List Nat) : Tally := { Tally.zero with nan := v.countP (fun w => f32 w == .nan) }

/-- Adds a tally to the counters of a die. -/
def State.tally (s : State) (die : Nat) (t : Tally) : State :=
  let add (s : State) (r n : Nat) : State := if n > 0 then s.count r n else s
  add (add (add (add s (Reg.arithReplayCnt die) t.replay) (Reg.arithPromoteCnt die) t.promote) (Reg.arithOvfCnt die) t.ovf) (Reg.arithNanCnt die) t.nan

/-- A whole operation of the sequencers with ACC = 16 or 32 over a starting tile, replays and promotion included (R44,
R45): its entries as FP32 words after the multiplication by 2^SHIFT of R46, and what it counts. -/
def MatIn.run (x : MatIn) (op : MatOp) (tile : List Nat) : List Nat × Tally :=
  let out (mode : AccMode) (sh replay promote : Nat) (t : List Nat × Bool) : List Nat × Tally :=
    (t.1.map (fun w => toF32 ((entryDecode mode (intAcc mode op) w).mul (.fin false (2 ^ sh) 0))),
      { replay := replay, promote := promote, cycles := attemptCycles op mode + replay * attemptCycles op .narrow + promote * attemptCycles op .narrow,
        ovf := b2n t.2, nan := b2n (t.1.any (fun w => entryDecode mode (intAcc mode op) w == .nan)) })
  if op.acc = .acc16 then
    match ((List.range 5).map (fun i => (i, x.attempt op .narrow (op.preshift + i) tile))).find? (fun r => !r.2.2) with
    | some r => out .narrow (op.preshift + r.1) r.1 0 r.2
    | none => out .full op.preshift 4 1 (x.attempt op .full op.preshift tile)
  else out .full 0 0 0 (x.attempt op .full 0 tile)

/-- Whether the block exponents from WIN_LSB plus the base up obey the width rule of R48 Table 7, and no product falls below WIN_LSB. -/
def State.wideOk (s : State) (islet : Nat) (op : MatOp) : Bool :=
  let nb := if opScaled op then cdiv op.k 32 else 0
  let exps : List Int := (List.range nb).flatMap (fun j => (List.range op.m).flatMap (fun m =>
    (List.range op.n).filterMap (fun n => match s.opSj islet op m n j with
      | .fin _ _ e => some e
      | _ => none)))
  let hi := exps.foldl max (exps.headD 0)
  let lo := exps.foldl min (exps.headD 0)
  let kl : Int := (Nat.clog 2 op.k : Nat)
  let e4 := fmtClass op.fmtA == some 3 || fmtClass op.fmtB == some 3
  let (base, lim) : Int × Int := if e4 then (18, 27) else (2, 55)
  decide (hi - (op.winLsb + base) + kl ≤ lim) && decide (op.winLsb ≤ lo - base)

/-- The tiles that an operation names (R35). -/
def opTiles (op : MatOp) : List Nat := if op.acc = .wide then [0, 1] else [op.tile]

/-- Whether an operation in the list must wait for one before it that names a tile of its own. -/
def heldAt (ops : List MatRun) (i : Nat) : Bool :=
  match ops[i]? with
  | none => false
  | some r => (ops.take i).any (fun x => (opTiles x.op).any (fun t => (opTiles r.op).contains t))

/-- The first operation with passes left that nothing holds: the array runs one operation at a time, in issue order. -/
def runningOp (ops : List MatRun) : Option Nat :=
  match (List.range ops.length).find? (fun i => match ops[i]? with
    | some r => !r.finished
    | none => false) with
  | some i => if heldAt ops i then none else some i
  | none => none

/-- The first operation that has finished its passes. -/
def finishedOp (ops : List MatRun) : Option Nat :=
  (List.range ops.length).find? (fun i => match ops[i]? with
    | some r => r.finished
    | none => false)

/-- The context of the task that an islet runs. -/
def State.isletCtx (s : State) (islet : Nat) : Option Nat :=
  (s.sch.tasks.find? (fun t => t.islet == some islet)).bind (fun t => t.ctx)

/-- The islet as a context finds it: no operation of one context reads a tile that another has written, so the tiles of another context read
zero and what its task has left under way is discarded (R61, R310). -/
def IsletSt.forCtx (x : IsletSt) (c : Option Nat) : IsletSt :=
  if x.ctx = c then x
  else { x with
    acc0 := List.replicate 1024 0, acc1 := List.replicate 1024 0, scale0 := 0, scale1 := 0, ops := [], vwaits := [], ctx := c }

/-- The width of a readout entry in bytes. -/
def readoutBytes : Readout → Nat
  | .none => 0
  | .bf16 => 2
  | .fp16 => 2
  | .int64 => 8
  | _ => 4

/-- Whether a readout stays within the islet memory of the context whose task runs on the islet, below its save area (R61, R299). -/
def State.readoutOk (s : State) (islet : Nat) (op : MatOp) : Bool :=
  op.readout == .none || (match s.isletCtx islet with
    | none => true
    | some c => s.sch.ctxs.any (fun x => x.id == c && x.st != .waiting && decide (x.first * 16384 ≤ op.outOff) &&
        decide (op.outOff + op.m * op.n * readoutBytes op.readout + 4 ≤ (x.first + x.slices) * 16384 - 8256)))

/-- MATRIX_OP_ISSUE: the operation joins its islet's operations, holding its operand locks and, behind an operation that
names its tile, the scoreboard; parameters out of range, and a readout outside the context's own islet memory, end its task with ARITH_PARAM
(R32, R33, R35, R61). -/
def execMatrixOpIssue (islet : Nat) (op : MatOp) (s : State) : Host.Outcome State Fault Refusal :=
  .next (if !s.powered || s.isletFenced islet then s
  else if !(matOpOk op && s.readoutOk islet op) then s.complete { func := op.func, tag := op.tag } Status.arithParam []
  else
    let x := (s.islet islet).forCtx (s.isletCtx islet)
    if x.halt then s
    else
      let r : MatRun :=
        { op := op, pass := 0, attempt := 0, mode := accMode op.acc, promoted := false, winRange := false,
          gens := colGens op.seed, ovf := false, nanSeen := false, finished := false }
      let ops := x.ops ++ [r]
      let s1 := s.putIslet { x with ops := ops }
      if heldAt ops x.ops.length then s1.count (Reg.arithScoreboardWaitCnt (isletDie islet)) else s1)

/-- The scale word of an operation (R36 Table 4); ONTO keeps OVF and NAN already set. -/
def scaleWord (r : MatRun) (old : Nat) : Nat :=
  let keep := r.op.init == .onto
  let nan := r.nanSeen || (keep && bit old 11)
  let ovf := r.ovf || (keep && bit old 10)
  let width := match r.mode with
    | .narrow => 0
    | .full => 1
    | .wide => 2
  let shift := if r.op.acc = .acc16 then r.op.preshift + (if r.promoted then 0 else r.attempt) else 0
  let reps := if r.op.acc = .acc16 then (if r.promoted then 4 else r.attempt) else 0
  (if r.mode = .wide then intBits 10 r.op.winLsb * 2 ^ 16 else 0) + b2n r.winRange * 2 ^ 12 + b2n nan * 2 ^ 11 +
    b2n ovf * 2 ^ 10 + b2n r.promoted * 2 ^ 9 + width * 2 ^ 7 + reps * 2 ^ 4 + shift % 16

/-! ## Operand locks (R33) -/

/-- The ranges of islet memory that an operation locks: operands and scales. -/
def lockRanges (op : MatOp) : List (Nat × Nat) :=
  let nb := cdiv op.k 32
  [(op.aOff, cdiv (op.m * op.k * fmtBits op.fmtA) 8), (op.bOff, cdiv (op.n * op.k * fmtBits op.fmtB) 8)] ++
  (if scaleOf op.fmtA op.scaleA = .none then [] else [(op.saOff, op.m * nb)]) ++
  (if scaleOf op.fmtB op.scaleB = .none then [] else [(op.sbOff, op.n * nb)])

/-- Whether two ranges overlap. -/
def overlaps (a n b m : Nat) : Bool := decide (a < b + m) && decide (b < a + n)

/-- Whether a range of an islet's memory is locked. -/
def State.t0Locked (s : State) (islet off len : Nat) : Bool :=
  (s.islet islet).ops.any (fun r => (lockRanges r.op).any (fun g => overlaps off len g.1 g.2))

/-- The vector-unit writes that no lock holds any more reach islet memory, in the order in which they came (R33). -/
def State.vectorWrites (s : State) (islet : Nat) : State :=
  let x := s.islet islet
  let go (w : Nat × List Byte) : Bool := !s.t0Locked islet w.1 w.2.length
  (x.vwaits.filter go).foldl (fun (s : State) w => s.setBytes (t0Addr islet w.1) w.2) (s.putIslet { x with vwaits := x.vwaits.filter (fun w => !go w) })

/-- Discards the operation that failed its check and fences the islet's record (R59); FENCE_EFFECT carries the fence out. -/
def State.checkMismatch (s : State) (islet : Nat) (i : Nat) : State :=
  let x := s.islet islet
  let d := isletDie islet
  let s1 := (s.putIslet { x with ops := x.ops.eraseIdx i }).vectorWrites islet
  let s2 := (s1.count (Reg.arithCheckErrCnt d)).wr (Reg.arithLastCheckIslet d) (islet % 2048)
  (s2.faultLog 0x13 d 0x0C 2 0 (t0Addr islet 0)).fenceCause { whole := false, island := islet / 16, islet := islet % 16 } .checkMismatch

/-- The tiles' scale words are 0 before the first pass of an operation that does not start from the tile's contents (R36). -/
def IsletSt.clearScale (x : IsletSt) (r : MatRun) : IsletSt :=
  if r.pass = 0 ∧ r.op.init ≠ .onto then
    { x with
      scale0 := if r.op.tile = 0 ∨ r.op.acc = .wide then 0 else x.scale0
      scale1 := if r.op.tile ≠ 0 ∨ r.op.acc = .wide then 0 else x.scale1 }
  else x

/-- A wide sum that leaves 64 bits, which only a bias or the tile's own contents can make, is saturated and sets OVF (DESIGN CHOICE, log
entry 62: R47 gives the sum no wrap). -/
def wideClamp (v : Int) : Int × Bool :=
  if v = -(2 ^ 63) then (v, false)
  else if v < -(2 ^ 63) then (-(2 ^ 63) + 1, true)
  else if v > 2 ^ 63 - 1 then (2 ^ 63 - 1, true) else (v, false)

/-- The islet after a pass of a WIDE operation (R36). -/
def State.wideEnd (s : State) (islet i : Nat) (x : IsletSt) (r : MatRun) : IsletSt :=
  let vs0 := wideJoin x.acc0 x.acc1
  let vs := if r.pass = 0 then s.initWide islet r.op vs0 else vs0
  let sums := (List.range 1024).map (fun j => wideClamp (s.widePass islet r.op (r.pass * 32) (j / 32) (j % 32) (vs.getD j 0)))
  let vs1 := sums.map (fun v => v.1)
  let nan := vs1.any (fun v => v == -(2 ^ 63))
  { x with
    acc0 := (wideSplit vs1).1, acc1 := (wideSplit vs1).2
    ops := x.ops.set i { r with
      pass := r.pass + 1, nanSeen := r.nanSeen || nan, ovf := r.ovf || sums.any (fun v => v.2)
      finished := decide (r.pass + 1 ≥ passCount r.op .wide) } }

/-- The value of an entry of a wide tile. -/
def wideFv (op : MatOp) (v : Int) : Fv := if v = -(2 ^ 63) then .nan else .fin (decide (v < 0)) v.natAbs op.winLsb

/-- The tile, the rounding generators and the overflow flag after a pass of an operation that is not WIDE. -/
def State.tileEnd (s : State) (islet : Nat) (x : IsletSt) (r : MatRun) : List Nat × List Nat × Bool :=
  let sh := if r.op.acc = .acc16 then r.op.preshift + (if r.promoted then 0 else r.attempt) else 0
  let tile := if r.op.tile = 0 then x.acc0 else x.acc1
  let t0 := if r.pass = 0 then s.initTile islet r.op r.mode sh r.gens tile ((wideJoin x.acc0 x.acc1).map (wideFv r.op)) else (tile, r.gens)
  (s.matIn islet r.op).tilePass r.op r.mode sh (r.pass * passDepth r.op r.mode) t0.2 t0.1

/-- The islet with a tile and an operation replaced. -/
def IsletSt.putTile (x : IsletSt) (i : Nat) (t : List Nat) (r : MatRun) : IsletSt :=
  if r.op.tile = 0 then { x with acc0 := t, ops := x.ops.set i r } else { x with acc1 := t, ops := x.ops.set i r }

/-- MATRIX_PASS_END: the running operation's next pass ends with its chain sums added into the tile. A residue or parity
mismatch discards the operation; a 16-bit overflow replays it with the shift raised, after four replays at 32 bits; a
wide operation whose scales break the width rule runs again in FP32 (R31, R44, R45, R49, R59). -/
def State.onMatrixPassEnd (s : State) (islet : Nat) (checkOk : Bool) : State :=
  match runningOp (s.islet islet).ops with
  | none => s
  | some i =>
    match (s.islet islet).ops[i]? with
    | none => s
    | some r =>
      let d := isletDie islet
      let x := (s.islet islet).clearScale r
      if (s.islet islet).halted then s
      else if !checkOk then (s.putIslet x).checkMismatch islet i
      else if r.mode = .wide ∧ r.pass = 0 ∧ !s.wideOk islet r.op then
        (s.putIslet { x with ops := x.ops.set i { r with mode := .full, winRange := true } }).count (Reg.arithWinRangeCnt d)
      else if r.mode = .wide then s.putIslet (s.wideEnd islet i x r)
      else
        let e := s.tileEnd islet x r
        if e.2.2 ∧ r.mode = .narrow then
          if r.attempt < 4 then
            (s.putIslet (x.putTile i e.1 { r with pass := 0, attempt := r.attempt + 1, gens := colGens r.op.seed })).count (Reg.arithReplayCnt d)
          else
            (s.putIslet (x.putTile i e.1 { r with pass := 0, mode := .full, promoted := true, gens := colGens r.op.seed })).count
              (Reg.arithPromoteCnt d)
        else
          let nan := e.1.any (fun w => entryDecode r.mode (intAcc r.mode r.op) w == .nan)
          s.putIslet (x.putTile i e.1 { r with
            pass := r.pass + 1, gens := e.2.1, ovf := r.ovf || e.2.2, nanSeen := r.nanSeen || nan
            finished := decide (r.pass + 1 ≥ passCount r.op r.mode) })

/-- MATRIX_PASS_END as a command. -/
def execMatrixPassEnd (islet : Nat) (checkOk : Bool) (s : State) : Host.Outcome State Fault Refusal := .next (s.onMatrixPassEnd islet checkOk)

/-- One readout entry (R32, R52): narrowing rounds as READ_RND directs and saturates; an FP32 readout of an FP32 tile narrows nothing and
keeps an infinity. An INT64 readout of a wide operation that fell back to FP32 rounds the entry to whole units of 1 (DESIGN CHOICE, log
entry 62). -/
def readoutPat (ro : Readout) (v : Fv) (r : RndBits) : Nat :=
  match ro with
  | .none => 0
  | .int32 => intBits 32 (v.toIntRnd r (-2147483648) 2147483647)
  | .fp32 => fp32Fmt.encode v r (match v with
      | .inf _ => .toInf
      | _ => .saturate)
  | .bf16 => bf16Fmt.encode v r .saturate
  | .fp16 => fp16Fmt.encode v r .saturate
  | .int64 => intBits 64 (v.toIntRnd r (-(2 ^ 63)) (2 ^ 63 - 1))

/-- The bytes of a readout, M rows of N entries, then the scale word. A stochastic readout goes on with the generators of the columns, each
for its entries in row order: R32 and R40 name no generator for it (DESIGN CHOICE, log entry 62). -/
def readoutBytesOf (op : MatOp) (vals : Nat → Fv) (gens : List Nat) (scale : Nat) : List Byte :=
  let step (acc : List Byte × List Nat) (i : Nat) : List Byte × List Nat :=
    let n := i % op.n
    let v := vals (i / op.n * 32 + n)
    match op.readRnd with
    | .rne => (acc.1 ++ leBytes (readoutBytes op.readout) (readoutPat op.readout v .near), acc.2)
    | .sr =>
      let (r, g) := draw16 (acc.2.getD n 1)
      (acc.1 ++ leBytes (readoutBytes op.readout) (readoutPat op.readout v (.stoch r)), acc.2.set n g)
  ((List.range (op.m * op.n)).foldl step ([], gens)).1 ++ leBytes 4 scale

/-- The NaN entries that a readout narrows, each of which counts (R52). An FP16 tile read out as FP16 and an FP32 one as FP32 convert
nothing. -/
def readoutNans (op : MatOp) (mode : AccMode) (vals : Nat → Fv) : Nat :=
  let narrows := match op.readout with
    | .none => false
    | .int64 => false
    | .fp32 => decide (mode = AccMode.wide)
    | .fp16 => decide (mode ≠ AccMode.narrow)
    | _ => true
  if narrows then ((List.range (op.m * op.n)).filter (fun j => vals (j / op.n * 32 + j % op.n) == .nan)).length else 0

/-- MATRIX_OP_COMPLETE: the first operation whose passes have ended writes its readout and scale word, counts OVF and NAN,
and releases its locks and its tile; a halt waiting for it takes effect (R31, R33, R36, R61). -/
def execMatrixOpComplete (islet : Nat) (s : State) : Host.Outcome State Fault Refusal :=
  .next (match finishedOp (s.islet islet).ops with
  | none => s
  | some i =>
    let x := s.islet islet
    match x.ops[i]? with
    | none => s
    | some r =>
      let d := isletDie islet
      let wide := decide (r.mode = .wide)
      let sc := scaleWord r (if r.op.tile = 0 ∨ r.op.acc = .wide then x.scale0 else x.scale1)
      let vals (j : Nat) : Fv :=
        if wide then wideFv r.op ((wideJoin x.acc0 x.acc1).getD j 0)
        else entryDecode r.mode (intAcc r.mode r.op) ((if r.op.tile = 0 then x.acc0 else x.acc1).getD j 0)
      let raw := (wideJoin x.acc0 x.acc1)
      let bytes := if r.op.readout = .none then []
        else if r.op.readout = .int64 ∧ wide then
          ((List.range (r.op.m * r.op.n)).flatMap (fun j => leBytes 8 (intBits 64 (raw.getD (j / r.op.n * 32 + j % r.op.n) 0)))) ++
            leBytes 4 sc
        else readoutBytesOf r.op vals r.gens sc
      let ops := x.ops.eraseIdx i
      let x1 := if r.op.acc = .wide then { x with scale0 := sc, scale1 := sc, ops := ops }
        else if r.op.tile = 0 then { x with scale0 := sc, ops := ops } else { x with scale1 := sc, ops := ops }
      let x2 := { x1 with halted := x1.halted || x1.halt }
      let s1 := ((s.putIslet x2).setBytes (t0Addr islet r.op.outOff) bytes).vectorWrites islet
      let s2 := if r.ovf then s1.count (Reg.arithOvfCnt d) else s1
      let n := b2n r.nanSeen + readoutNans r.op r.mode vals
      if n > 0 then s2.count (Reg.arithNanCnt d) n else s2)

/-! ## The vector unit (R50 to R53) -/

/-- The lanes of a vector register; a register never written reads zero. -/
def IsletSt.vreg (x : IsletSt) (r : Nat) : List Nat :=
  match x.vregs.find? (fun e => e.1 == r) with
  | some e => e.2
  | none => List.replicate 64 0

/-- A derived function on lanes (R51). -/
def derivedLane (f : DerivedFn) (a b : Nat) : Nat :=
  match f with
  | .exp2 => fExp2 a
  | .log2 => fLog2 a
  | .exp => fExp a
  | .recip => fRecip a
  | .rsqrt => fRsqrt a
  | .div => fDiv a b

/-- Which of two lanes max or min gives where R50 states no order between them: of zeros of two signs, either one; of a number and a NaN,
the number or the NaN that the device produces (R26), by a free value; of two NaNs, that NaN. -/
def laneTie (a b : Nat) : Nat :=
  let first := decide ((Config.vpick (BitVec.ofNat 32 a) (BitVec.ofNat 32 b)).toNat % 2 = 0)
  if fIsNan a && fIsNan b then 0x7FC00000
  else if fIsNan a then (if first then b else 0x7FC00000)
  else if fIsNan b then (if first then a else 0x7FC00000)
  else if first then a else b

/-- The larger of two lanes. -/
def laneMax (a b : Nat) : Nat := if fLt a b then b else if fLt b a then a else laneTie a b

/-- The smaller of two lanes. -/
def laneMin (a b : Nat) : Nat := if fLt a b then a else if fLt b a then b else laneTie a b

/-- One lane of an operation with its rounding bits: the result pattern. Select takes `b` where the lane of `a` is not the zero word, and a
right shift is logical: R50 names both operations and no more (DESIGN CHOICE, log entry 62). -/
def laneOp (k : VecKind) (a b c : Nat) (r : RndBits) : Nat :=
  let rr (v : Fv) : Nat := fp32Fmt.encode v r .toInf
  match k with
  | .fma => rr (((f32 a).mul (f32 b)).add (f32 c))
  | .add => rr ((f32 a).add (f32 b))
  | .mul => rr ((f32 a).mul (f32 b))
  | .max => laneMax a b
  | .min => laneMin a b
  | .compare => (Config.vcompare (BitVec.ofNat 32 a) (BitVec.ofNat 32 b)).toNat
  | .select => if a ≠ 0 then b else c
  | .iadd => (a + b) % 2 ^ 32
  | .shl => if b < 32 then a * 2 ^ b % 2 ^ 32 else (Config.vshift (BitVec.ofNat 32 a) (BitVec.ofNat 32 b)).toNat
  | .shr => if b < 32 then a / 2 ^ b else (Config.vshift (BitVec.ofNat 32 a) (BitVec.ofNat 32 b)).toNat
  | .band => a &&& b
  | .bor => a ||| b
  | .bxor => a ^^^ b
  | .bnot => 0xFFFFFFFF - a
  | .derived f => derivedLane f a b
  | .convert dst sat => fmtEncode dst (f32 a) r sat
  | _ => a

/-- The tree reduction of R53: in stage s lane l takes lane l + 2^(6−s), for l < 2^(6−s). -/
def laneTree (f : Nat → Nat → Nat → Nat × Nat) (lanes gens : List Nat) : List Nat :=
  ([32, 16, 8, 4, 2, 1].foldl (fun (acc : List Nat × List Nat) w =>
    let res := (List.range w).map (fun l => f (acc.1.getD l 0) (acc.1.getD (l + w) 0) (acc.2.getD l 1))
    (acc.1.mapIdx (fun l x => if l < w then (res.getD l (x, 0)).1 else x),
     acc.2.mapIdx (fun l g => if l < w then (res.getD l (0, g)).2 else g))) (lanes, gens)).1

/-- Whether a conversion of a lane turns a NaN into a target's NaN or 0, which counts (R52). -/
def nanConversions (k : VecKind) (a : List Nat) : Nat :=
  match k with
  | .convert _ _ => (a.filter fIsNan).length
  | _ => 0

/-- A vector-unit write of 64 words to islet memory; one to a locked range waits and is counted (R33). -/
def State.vectorStore (s : State) (islet off : Nat) (lanes : List Nat) : State :=
  let b := lanes.flatMap (fun w => leBytes 4 w)
  if off + b.length > 2 ^ 17 then s
  else if s.t0Locked islet off b.length then
    (s.putIslet { s.islet islet with vwaits := (s.islet islet).vwaits ++ [(off, b)] }).count (Reg.arithLockWaitCnt (isletDie islet))
  else s.setBytes (t0Addr islet off) b

/-- VECTOR_OP: one operation of the 64 lanes, rounded to nearest or stochastically, or a reduction of them (R50 to R53). The result goes to
register `d`, and where the instruction stores it to islet memory too (R33). Max and min across lanes keep the lower lane also where one of
the two is NaN, for which R53 gives no order (DESIGN CHOICE, log entry 62). -/
def execVectorOp (islet : Nat) (v : VecOp) (s : State) : Host.Outcome State Fault Refusal :=
  .next (if !s.powered || s.isletFenced islet then s
  else
    let x := s.islet islet
    let a := x.vreg v.a
    let b := x.vreg v.b
    let c := x.vreg v.c
    let gens := (List.range 64).map (genState v.seed)
    let rb (l : Nat) : RndBits := match v.rnd with
      | .rne => .near
      | .sr => .stoch (draw16 (gens.getD l 1)).1
    let addR (p q g : Nat) : Nat × Nat := match v.rnd with
      | .rne => (fAdd p q, g)
      | .sr => let (r, g1) := draw16 g; (fp32Fmt.encode ((f32 p).add (f32 q)) (.stoch r) .toInf, g1)
    let res := match v.kind with
      | .reduceSum => laneTree addR a gens
      | .reduceMax => laneTree (fun p q g => (if fLt p q then q else p, g)) a gens
      | .reduceMin => laneTree (fun p q g => (if fLt q p then q else p, g)) a gens
      | k => (List.range 64).map (fun l => laneOp k (a.getD l 0) (b.getD l 0) (c.getD l 0) (rb l))
    let s1 := s.putIslet { x with vregs := x.vregs.filter (fun e => e.1 != v.d) ++ [(v.d, res)] }
    let s2 := match v.store with
      | some off => s1.vectorStore islet off res
      | none => s1
    let n := nanConversions v.kind a
    if n > 0 then s2.count (Reg.arithNanCnt (isletDie islet)) n else s2)

/-! ## Debug (R61) -/

/-- The islet that DBG_SEL of a die names. -/
def State.dbgIslet (s : State) (die : Nat) : Nat := die * 2048 + bits (s.rd (Reg.arithDbgSel die)) 10 0

/-- Whether an operation has begun: a pass of it has ended. -/
def MatRun.begun (r : MatRun) : Bool := decide (r.pass > 0) || decide (r.attempt > 0) || r.promoted || r.winRange || r.finished

/-- A write of HALT for the islet that DBG_SEL selects: it is halted once no operation has begun. -/
def State.haltIslet (s : State) (die data : Nat) : State :=
  let x := s.islet (s.dbgIslet die)
  if bit data 0 then s.putIslet { x with halt := true, halted := x.halted || !x.ops.any MatRun.begun }
  else s.putIslet { x with halt := false, halted := false }

/-- DBG_HALT: the selected islet is halted after its current operation, or released. The host path needs EXPERT. -/
def execDbgHalt (p : Path) (die : Nat) (data : Nat) (s : State) : Host.Outcome State Fault Refusal :=
  .next (if !s.powered || (p == .host && !bit (s.rd (basePage 0x13 die + 0x0C)) 1) then s
  else s.haltIslet die data)

/-- The contents of one word of DBG_DATA for the selected tile row. -/
def dbgWord (x : IsletSt) (tile row word : Nat) : Nat :=
  if tile = 2 then (if word % 2 = 0 then x.acc0 else x.acc1).getD (row * 32 + word / 2 % 32) 0
  else if word ≥ 32 then 0
  else (if tile = 0 then x.acc0 else x.acc1).getD (row * 32 + word) 0

/-- A read of a word of DBG_DATA: the tile row's word while a debug unlock grants ACC_DEBUG and the selected islet is halted by
DBG_HALT, otherwise 0 with DENIED set (R61). -/
def State.dbgRead (s : State) (die word : Nat) : Nat × State :=
  let sel := s.rd (Reg.arithDbgSel die)
  let x := s.islet (s.dbgIslet die)
  let ok := bit s.sec.scope 0 && x.halted
  (if ok then dbgWord x (bits sel 12 11) (bits sel 17 13) word else 0, s.wr (Reg.arithDbgSel die) (setBits sel 31 31 (b2n (!ok))))

/-- DBG_DATA_READ: the word is returned only while a debug unlock grants ACC_DEBUG and the selected islet is halted;
otherwise 0 is read and DENIED is set. -/
def execDbgDataRead (p : Path) (die word : Nat) (s : State) : Host.Outcome State Fault Refusal :=
  .next (if !s.powered then s
  else
    let r := s.dbgRead die word
    r.2.emit (.regAnswer p (Reg.arithDbgData die word) false r.1 false))

end Sys2Proof.Machine
end

