-- ==== Sys2Proof/Machine/Rank.lean ====
section
/-! DEFINITION. The order of entries and the merging of lists (R143 to R148), and the encoding and scoring of vectors that
searches share (R71, R73, R74). -/

namespace Sys2Proof.Machine

/-! ## Rank keys and lists -/

/-- Step 1 of R143: −0 becomes +0 and every NaN becomes one pattern. -/
def canonScore (w : Nat) : Nat := if fIsNan w then 0x7FFFFFFF else if w = 0x80000000 then 0 else w

/-- Step 2 of R143 for FP32: the order key. -/
def orderKey (w : Nat) : Nat := if w < 2 ^ 31 then w + 2 ^ 31 else 2 ^ 32 - 1 - w

/-- The rank of an FP32 score (R143); `small` selects smallest-k. -/
def rankF (small : Bool) (w : Nat) : Nat :=
  let c := canonScore w
  if c = 0x7FFFFFFF then 0xFFFFFFFF else if small then orderKey c else 0xFFFFFFFF - orderKey c

/-- The rank of an INT32 score (R143). -/
def rankI (small : Bool) (w : Nat) : Nat :=
  let k := (w + 2 ^ 31) % 2 ^ 32
  if small then k else 0xFFFFFFFF - k

/-- The composite key of a real entry (R144). -/
def Ent.key (rk : Nat → Nat) (e : Ent) : Nat := rk e.score * 2 ^ 54 + e.id * 2 ^ 6 + e.ord

/-- Keeps the first entry of each item (R145); the second part counts the duplicates dropped. -/
def dedupEnts (es : List Ent) : List Ent × Nat :=
  es.foldl (fun (r : List Ent × Nat) e => if r.1.any (fun x => x.id == e.id) then (r.1, r.2 + 1) else (r.1 ++ [e], r.2)) ([], 0)

/-- A merge (R145, R146): ordered by composite key, duplicates removed, then cut to `n` entries. -/
def mergeEnts (rk : Nat → Nat) (n : Nat) (es : List Ent) : List Ent × Nat :=
  let r := dedupEnts (sortBy (Ent.key rk) es)
  (r.1.take n, r.2)

/-- TIE_AT_K of a list that holds its guard entry (R147). -/
def tieAtK (rk : Nat → Nat) (k : Nat) (es : List Ent) : Bool :=
  match es[k]?, es[k - 1]? with
  | some g, some e => rk g.score == rk e.score
  | _, _ => false

/-- The bytes of a result entry (R112 Table 5). -/
def entBytes (e : Ent) : List Byte := leBytes 16 (e.id + e.ord * 2 ^ 48 + e.score * 2 ^ 64)

/-- The pad index of R148. -/
def padId : Nat := 0xFFFFFFFFFFFF

/-- A pad entry (R148). -/
def padEnt (small : Bool) : Ent := { score := if small then 0x7F800000 else 0xFF800000, id := padId, ord := 0, slot := 0 }

/-- `k` entries, completed with pads (R148). -/
def padList (small : Bool) (k : Nat) (es : List Ent) : List Ent := es.take k ++ List.replicate (k - es.length) (padEnt small)

/-! ## Vectors -/

/-- The FP32 value of an element of 16 or 32 bits: 0 FP16, 1 BF16, 2 FP32 (R65, R91). -/
def elemF32 (fmt w : Nat) : Nat :=
  if fmt = 0 then toF32 (fp16Fmt.decode w) else if fmt = 1 then toF32 (bf16Fmt.decode w) else w

/-- Bytes of an element in one of those formats. -/
def elemBytes (fmt : Nat) : Nat := if fmt = 2 then 4 else 2

/-- The elements of a vector as FP32. -/
def vecF32 (fmt dims : Nat) (b : List Byte) : List Nat :=
  (List.range dims).map (fun i => elemF32 fmt (bodyNat b (i * elemBytes fmt) (elemBytes fmt)))

/-- The smallest positive E4M3 value that is at least `a / q`, or 448 where none is, with whether it saturates (R71). -/
def e4m3Scale (a q : Nat) : Nat × Bool :=
  match (List.range 0x7E).find? (fun i => !Fv.lt ((e4m3Fmt.decode (i + 1)).mul (Fv.ofInt q)) (f32 a)) with
  | some i => (i + 1, false)
  | none => (0x7E, true)

/-- Encodes one block of FP32 values (R71): codes, scale, whether the scale saturated. -/
def encBlock (q : Nat) (vs : List Nat) : List Int × Nat × Bool :=
  let a := vs.foldl (fun m v => max m (v % 2 ^ 31)) 0
  if a = 0 then (vs.map (fun _ => 0), 0, false)
  else
    let s := e4m3Scale a q
    let r := fRecip (toF32 (e4m3Fmt.decode s.1))
    (vs.map (fun v => (f32 (fMul v r)).toIntRnd .near (-(q : Int)) q), s.1, s.2)

/-- A whole vector in blocks of 32: codes, scales, and the number of saturated blocks. -/
def encVec (q : Nat) (v : List Nat) : List Int × List Nat × Nat :=
  (List.range (cdiv v.length 32)).foldl (fun (r : List Int × List Nat × Nat) j =>
    let e := encBlock q ((v.drop (j * 32)).take 32)
    (r.1 ++ e.1, r.2.1 ++ [e.2.1], r.2.2 + b2n e.2.2)) ([], [], 0)

/-- The sum of squares in ascending order, one fused multiply-add each (R73). -/
def sumSq (v : List Nat) : Nat := v.foldl (fun a x => fFma x x a) 0

/-- The products of a query block-scaled to INT8 with the rows of a tile, one column of the array (R37, R74): passes in ascending order
and rows in ascending order within a pass, with the roundings of R39 drawn from the column's generator as it runs on (R40). -/
def tileDots (gen : Nat) (qa : List Int) (sa : List Nat) (rows : List (List Int × List Nat)) : List Nat :=
  ((List.range sa.length).foldl (fun (a : List Fv × Nat) j =>
    rows.zipIdx.foldl (fun (b : List Fv × Nat) r =>
      let acc := blockStep .full true true false ((e4m3Fmt.decode (sa.getD j 0)).mul (e4m3Fmt.decode (r.1.2.getD j 0)))
        ((List.range 32).map (fun i => (Fv.ofInt (qa.getD (j * 32 + i) 0)).mul (Fv.ofInt (r.1.1.getD (j * 32 + i) 0))))
        ({ v := a.1.getD r.2 (.fin false 0 0), gen := b.2, ovf := false } : Acc)
      (b.1 ++ [acc.v], acc.gen)) ([], a.2)) (rows.map (fun _ => .fin false 0 0), gen)).1.map toF32

/-- The seed of an array operation of a search (R41). Its tasks belong to no context, so the context seed is the one that holds where no
command gives one; the tile's place is its block of rows and its column block; TASK_ID, which the spec does not number, is a free value
(DESIGN CHOICE, log entry 28). -/
def searchSeed (scan : Bool) (idx part rowBlock colBlock : Nat) : Nat :=
  opSeed 0x5EED0001 (Config.searchTask scan idx part % 2 ^ 32) rowBlock colBlock

/-- What an island stage takes of the runs that its islets send for one list (R149): an entry is sent only when its rank is at most the
threshold, which is the rank of the list's guard entry, the one at place `n`, or 0xFFFFFFFF while the list is shorter. The second part is
the threshold after the last run. -/
def sendRuns (rk : Nat → Nat) (n : Nat) (runs : List (List Ent)) : List Ent × Nat :=
  runs.foldl (fun (a : List Ent × Nat) run =>
    let l := a.1 ++ run.filter (fun e => decide (rk e.score ≤ a.2))
    (l, ((sortBy (fun e => rk e.score) l)[n]?.map (fun g => rk g.score)).getD 0xFFFFFFFF)) ([], 0xFFFFFFFF)

/-- The NaN entries among some (R162). -/
def nanEnts (es : List Ent) : Nat := (es.filter (fun e => fIsNan e.score)).length

/-- The FP32 values of a decoded code row. -/
def decVec (codes : List Int) (scales : List Nat) : List Nat :=
  codes.mapIdx (fun i c => toF32 ((Fv.ofInt c).mul (e4m3Fmt.decode (scales.getD (i / 32) 0))))

/-- A sum of the manual's lane order: lane l takes dimensions d with d mod 64 = l, each by `f`, then the tree of R53. -/
def laneSum (n : Nat) (f : Nat → Nat → Nat) : Nat :=
  let lanes := (List.range 64).map (fun l => (List.range (cdiv n 64)).foldl (fun a i =>
    if i * 64 + l < n then f (i * 64 + l) a else a) 0)
  (laneTree (fun a b g => (fAdd a b, g)) lanes []).headD 0

/-- The re-rank score of a full vector (R109): inner product (0), cosine (1) with 1/‖q‖ and the stored NORM, or squared
Euclidean (2). -/
def rerankScore (metric : Nat) (q x : List Nat) (invQ norm : Nat) : Nat :=
  let t := laneSum q.length (fun d a =>
    if metric = 2 then
      let u := fSub (q.getD d 0) (x.getD d 0)
      fFma u u a
    else fFma (q.getD d 0) (x.getD d 0) a)
  if metric = 1 then fMul (fMul t invQ) norm else t

/-- The scan score of Table 5 from ŝ, the row's NORM and the query's norm word: 1/‖q‖ for cosine, ‖q‖² for squared
Euclidean. A cosine query of zero length scores 0. The spec gives the formula and not the order of its FP32 operations: here (ŝ × NORM) ×
1/‖q‖, and (‖q‖² − 2ŝ) + NORM, each step rounded to nearest (DESIGN CHOICE, log entry 66). -/
def scanScore (metric sHat norm qn : Nat) : Nat :=
  if metric = 1 then (if qn = 0 then 0 else fMul (fMul sHat norm) qn)
  else if metric = 2 then fAdd (fSub qn (fMul 0x40000000 sHat)) norm
  else sHat

end Sys2Proof.Machine
end

