-- ==== Sys2Proof/Machine/IndexObj.lean ====
section
/-! DEFINITION. The objects of an index as bytes (R63 to R86, R461): descriptor fields, shoal headers, code rows, the ID map
and directory, bitmaps, epoch logs and images. -/

namespace Sys2Proof.Machine

/-! ## Objects by handle -/

/-- `n` bytes from offset `off` of the object that function `f` knows as `h`, as a number. -/
def State.hNat (s : State) (f h off n : Nat) : Nat :=
  match s.obj? f h with
  | some o => s.objNat o off n
  | none => 0

/-- Bytes of an object by handle. -/
def State.hBytes (s : State) (f h off n : Nat) : List Byte :=
  match s.obj? f h with
  | some o => s.objBytes o off n
  | none => List.replicate n 0

/-- Writes bytes of an object by handle, for the function that knows it so. -/
def State.hPut (s : State) (f h off : Nat) (b : List Byte) : State :=
  match s.obj? f h with
  | some o => s.objStore f o off b
  | none => s

/-- Lines of an object that are rewritten whole can be read again: the `n` bytes from `off` on, in T2. -/
def State.hHeal (s : State) (f h off n : Nat) : State :=
  match (s.obj? f h).filter (fun o => o.inT2) with
  | none => s
  | some o =>
    let lines := (List.range (n / 64)).map (fun i => o.grans.getD ((off + 64 * i) / 65536) 0 * 1024 + (off + 64 * i) % 65536 / 64)
    { s with mm := { s.mm with stk := updAt o.stack (fun x => { x with bad := x.bad.filter (fun l => !lines.contains l) }) s.mm.stk } }

/-- Bits `hi` to `lo` of a structure that starts at byte `off` of an object. -/
def State.hFld (s : State) (f h off hi lo : Nat) : Nat :=
  bits (s.hNat f h (off + lo / 8) (hi / 8 + 1 - lo / 8)) (hi - lo / 8 * 8) (lo % 8)

/-- Replaces bits `hi` to `lo` of a structure that starts at byte `off` of an object. -/
def State.hSet (s : State) (f h off hi lo v : Nat) : State :=
  let n := hi / 8 + 1 - lo / 8
  let w := s.hNat f h (off + lo / 8) n
  s.hPut f h (off + lo / 8) (leBytes n (setBits w (hi - lo / 8 * 8) (lo % 8) v))

/-! ## Descriptor fields (R65 Table 2) -/

def Index.dims (x : Index) : Nat := 32 * fld x.desc 23 16
def Index.codeFmt (x : Index) : Nat := fld x.desc 25 24
def Index.vecFmt (x : Index) : Nat := fld x.desc 27 26
def Index.metric (x : Index) : Nat := fld x.desc 29 28
def Index.multi (x : Index) : Bool := fld x.desc 30 30 == 1
def Index.nShoals (x : Index) : Nat := fld x.desc 51 32 + 1
def Index.centDie (x : Index) : Nat := fld x.desc 53 52
def Index.slotCap (x : Index) : Nat := fld x.desc 98 64
def Index.hTab (x : Index) : Nat := fld x.desc 159 128
def Index.hCent (x : Index) : Nat := fld x.desc 191 160
def Index.hMap (x : Index) : Nat := fld x.desc 223 192
def Index.hDir (x : Index) : Nat := fld x.desc 255 224
def Index.hVec (x : Index) : Nat := fld x.desc 287 256
def Index.hTomb (x : Index) : Nat := fld x.desc 319 288
def Index.probeDef (x : Index) : Nat := fld x.desc 340 320
def Index.probeMax (x : Index) : Nat := fld x.desc 372 352
def Index.rerankDepth (x : Index) : Nat := fld x.desc 399 384

/-- Whether smaller scores are better (R74 Table 5). -/
def Index.small (x : Index) : Bool := x.metric == 2

/-- The index of a number. -/
def State.index? (s : State) (n : Nat) : Option Index := s.idx.indexes.find? (fun x => x.no == n)

/-- Replaces an index. -/
def State.updIndex (s : State) (n : Nat) (f : Index → Index) : State :=
  { s with idx := { s.idx with indexes := updWhere (fun x => x.no == n) f s.idx.indexes } }

/-! ## Shoal headers (R67 Table 3) -/

/-- A field of the header of shoal `h`. -/
def State.shFld (s : State) (x : Index) (h hi lo : Nat) : Nat := s.hFld x.func x.hTab (32 * h) hi lo

/-- Sets a field of the header of shoal `h`. -/
def State.shSet (s : State) (x : Index) (h hi lo v : Nat) : State := s.hSet x.func x.hTab (32 * h) hi lo v

def State.shBase (s : State) (x : Index) (h : Nat) : Nat := s.shFld x h 33 0
def State.shCap (s : State) (x : Index) (h : Nat) : Nat := s.shFld x h 60 48 * 4096
def State.shRows (s : State) (x : Index) (h : Nat) : Nat := s.shFld x h 120 96
def State.shCode (s : State) (x : Index) (h : Nat) : Nat := s.shFld x h 95 64
def State.shLog (s : State) (x : Index) (h : Nat) : Nat := s.shFld x h 223 192

/-- The stack that holds the code run of a shoal (R68). Once a MOVE has put the code run on another stack this is the stack that holds it,
while the header's STACK field keeps what the host wrote there (DESIGN CHOICE, log entry 66). -/
def State.shStack (s : State) (x : Index) (h : Nat) : Nat :=
  match s.obj? x.func (s.shCode x h) with
  | some o => o.stack
  | none => s.shFld x h 44 40

/-- The shoal and row of a slot. -/
def State.slotPlace (s : State) (x : Index) (slot : Nat) : Option (Nat × Nat) :=
  ((List.range x.nShoals).find? (fun h => decide (s.shBase x h ≤ slot) && decide (slot < s.shBase x h + s.shCap x h))).map
    (fun h => (h, slot - s.shBase x h))

/-- The device's own record of a shoal. -/
def State.shoalSt (s : State) (i h : Nat) : ShoalSt :=
  (s.idx.shoals.find? (fun x => x.idx == i && x.shoal == h)).getD
    { idx := i, shoal := h, staged := [], above := [], abandoned := [], quar := [] }

/-- Stores the device's own record of a shoal. -/
def State.putShoalSt (s : State) (x : ShoalSt) : State :=
  { s with idx := { s.idx with shoals := s.idx.shoals.filter (fun y => !(y.idx == x.idx && y.shoal == x.shoal)) ++ [x] } }

/-! ## Code rows (R72 Table 4) -/

/-- Bytes of the codes of one row. -/
def Index.codeBytes (x : Index) : Nat := if x.codeFmt = 0 then x.dims / 2 else x.dims

/-- Whether code blocks carry a NORM section. -/
def Index.hasNorm (x : Index) : Bool := x.metric != 0

/-- Bytes of a code block. -/
def Index.blockBytes (x : Index) : Nat :=
  roundUp (32 * x.codeBytes + x.dims + (if x.hasNorm then 128 else 0)) 64

/-- Bytes of a code run, where there is one. -/
def State.runBytes (s : State) (o : Option Obj) (off n : Nat) : List Byte :=
  match o with
  | some o => s.objBytes o off n
  | none => List.replicate n 0

/-- The code run of a shoal as it stands. -/
def State.codeRun (s : State) (x : Index) (h : Nat) : Option Obj := s.obj? x.func (s.shCode x h)

/-- The codes of a row of a code run. -/
def State.rowCodes (s : State) (x : Index) (o : Option Obj) (row : Nat) : List Int :=
  let b := s.runBytes o (row / 32 * x.blockBytes + row % 32 * x.codeBytes) x.codeBytes
  (List.range x.dims).map (fun i =>
    if x.codeFmt = 0 then bitsInt 4 (bits (bodyNat b (i / 2) 1) (i % 2 * 4 + 3) (i % 2 * 4)) else bitsInt 8 (bodyNat b i 1))

/-- The scales of a row. -/
def State.rowScales (s : State) (x : Index) (o : Option Obj) (row : Nat) : List Nat :=
  (s.runBytes o (row / 32 * x.blockBytes + 32 * x.codeBytes + row % 32 * (x.dims / 32)) (x.dims / 32)).map (fun b => b.toNat)

/-- The NORM of a row, 0 where the metric has none. -/
def State.rowNorm (s : State) (x : Index) (o : Option Obj) (row : Nat) : Nat :=
  if x.hasNorm then leNat (s.runBytes o (row / 32 * x.blockBytes + 32 * x.codeBytes + x.dims + row % 32 * 4) 4) else 0

/-- The bytes of a row's codes (R25: the lower index in the low half). -/
def packCodes (fmt : Nat) (cs : List Int) : List Byte :=
  if fmt = 0 then (List.range (cs.length / 2)).map (fun i =>
    BitVec.ofNat 8 (intBits 4 (cs.getD (2 * i) 0) + 16 * intBits 4 (cs.getD (2 * i + 1) 0)))
  else cs.map (fun c => BitVec.ofNat 8 (intBits 8 c))

/-- The NORM value of a full vector (R73). -/
def normOf (metric : Nat) (v : List Nat) : Nat :=
  let t := sumSq v
  if metric = 1 then (if t = 0 then 0 else fRsqrt t) else t

/-- The bytes that the sections of a code block take. -/
def Index.blockUsed (x : Index) : Nat := 32 * x.codeBytes + x.dims + (if x.hasNorm then 128 else 0)

/-- Writes the codes, scales and NORM of a row from a full vector and its shoal's centroid, and the zero bytes that pad its block (R71 to
R73). -/
def State.writeRow (s : State) (x : Index) (h row : Nat) (v : List Nat) : State :=
  let c := (List.range x.dims).map (fun i => s.hNat x.func x.hCent ((h * x.dims + i) * 4) 4)
  let r := (List.range x.dims).map (fun i => fSub (v.getD i 0) (c.getD i 0))
  let e := encVec (if x.codeFmt = 0 then 7 else 127) r
  let base := row / 32 * x.blockBytes
  let s0 := s.hTraffic x.func x.func x.hCent false (h * x.dims * 4) (x.dims * 4)
  let s1 := if e.2.2 > 0 then s0.count Reg.indexCodeClampCnt e.2.2 else s0
  let s2 := s1.hPut x.func (s.shCode x h) (base + row % 32 * x.codeBytes) (packCodes x.codeFmt e.1)
  let s3 := s2.hPut x.func (s.shCode x h) (base + 32 * x.codeBytes + row % 32 * (x.dims / 32))
    (e.2.1.map (fun w => BitVec.ofNat 8 w))
  let s4 := s3.hPut x.func (s.shCode x h) (base + x.blockUsed) (List.replicate (x.blockBytes - x.blockUsed) 0)
  if x.hasNorm then
    s4.hPut x.func (s.shCode x h) (base + 32 * x.codeBytes + x.dims + row % 32 * 4) (leBytes 4 (normOf x.metric v))
  else s4

/-- The full vector of a slot, as FP32 (R75). -/
def State.slotVec (s : State) (x : Index) (slot : Nat) : List Nat :=
  let n := x.dims * elemBytes x.vecFmt
  vecF32 x.vecFmt x.dims (s.hBytes x.func x.hVec (slot * n) n)

/-- Whether the full-vector record of a slot can be read. -/
def State.vecReadable (s : State) (x : Index) (slot : Nat) : Bool :=
  let n := x.dims * elemBytes x.vecFmt
  match s.obj? x.func x.hVec with
  | some o => s.objReadable o (slot * n) n
  | none => false

/-! ## The ID map and directory (R77, R78) -/

/-- The item ID of a slot. -/
def State.slotId (s : State) (x : Index) (slot : Nat) : Nat := s.hNat x.func x.hMap (slot * 8) 8 % 2 ^ 48

/-- Writes the ID map entry of a slot. -/
def State.putId (s : State) (x : Index) (slot id : Nat) (second : Bool) : State :=
  s.hPut x.func x.hMap (slot * 8) (leBytes 8 (id + b2n second * 2 ^ 48))

/-- The exponent b of R78. -/
def Index.dirExp (x : Index) : Nat :=
  let n := cdiv x.slotCap 192
  if 2 ^ Nat.log2 n = n then Nat.log2 n else Nat.log2 n + 1

/-- The home page of an item ID. -/
def Index.home (x : Index) (id : Nat) : Nat := id * 0x9E3779B97F4A7C15 % 2 ^ 64 / 2 ^ (64 - x.dirExp)

/-- Entry `e` of page `p` of the directory, as a 128-bit number. -/
def State.dirEnt (s : State) (x : Index) (p e : Nat) : Nat := s.hNat x.func x.hDir (p * 4096 + e * 16) 16

/-- Writes an entry of the directory. -/
def State.putDir (s : State) (x : Index) (p e w : Nat) : State := s.hPut x.func x.hDir (p * 4096 + e * 16) (leBytes 16 w)

def dirValid (w : Nat) : Bool := bit w 117
def dirGone (w : Nat) : Bool := bit w 118

/-- Whether a page holds an entry that is neither VALID nor GONE. -/
def State.pageOpen (s : State) (x : Index) (p : Nat) : Bool :=
  (List.range 256).any (fun e => !dirValid (s.dirEnt x p e) && !dirGone (s.dirEnt x p e))

/-- The lookup of R78 over at most `n` pages from page `p`: page and entry of the valid match. -/
def State.dirFind (s : State) (x : Index) (id : Nat) : Nat → Nat → Option (Nat × Nat)
  | 0, _ => none
  | n + 1, p =>
    match (List.range 256).find? (fun e => dirValid (s.dirEnt x p e) && s.dirEnt x p e % 2 ^ 48 == id) with
    | some e => some (p, e)
    | none => if s.pageOpen x p then none else s.dirFind x id n ((p + 1) % 2 ^ x.dirExp)

/-- The directory entry of a live item. -/
def State.dirLookup (s : State) (x : Index) (id : Nat) : Option (Nat × Nat) := s.dirFind x id (2 ^ x.dirExp) (x.home id)

/-- The first entry with VALID = 0 on the path from page `p`. -/
def State.dirHole (s : State) (x : Index) : Nat → Nat → Option (Nat × Nat)
  | 0, _ => none
  | n + 1, p =>
    match (List.range 256).find? (fun e => !dirValid (s.dirEnt x p e)) with
    | some e => some (p, e)
    | none => s.dirHole x n ((p + 1) % 2 ^ x.dirExp)

/-- The word of a valid entry. -/
def dirWord (id slotA : Nat) (slotB : Option Nat) : Nat :=
  id + slotA * 2 ^ 48 + (match slotB with
    | some b => b * 2 ^ 82 + 2 ^ 116
    | none => 0) + 2 ^ 117

/-- The slots that an entry names, SLOT_A first. -/
def dirSlots (w : Nat) : List Nat := if bit w 116 then [bits w 81 48, bits w 115 82] else [bits w 81 48]

/-- Writes the entry of an item: in place where it is live, otherwise at the first free entry of its path. -/
def State.dirInsert (s : State) (x : Index) (id slotA : Nat) (slotB : Option Nat) : State :=
  match s.dirLookup x id with
  | some (p, e) => s.putDir x p e (dirWord id slotA slotB)
  | none => match s.dirHole x (2 ^ x.dirExp) (x.home id) with
    | some (p, e) => s.putDir x p e (dirWord id slotA slotB)
    | none => s

/-- Marks the entry of an item GONE. -/
def State.dirDelete (s : State) (x : Index) (id : Nat) : State :=
  match s.dirLookup x id with
  | some (p, e) => s.putDir x p e (setBits (setBits (s.dirEnt x p e) 117 117 0) 118 118 1)
  | none => s

/-- The entries that are neither VALID nor GONE. -/
def State.dirFree (s : State) (x : Index) : Nat :=
  (List.range (2 ^ x.dirExp)).foldl (fun n p => n + ((List.range 256).filter (fun e =>
    !dirValid (s.dirEnt x p e) && !dirGone (s.dirEnt x p e))).length) 0

/-- The pages of the run that begins at page `p` (R79). -/
def State.runFrom (s : State) (x : Index) : Nat → Nat → List Nat
  | 0, _ => []
  | n + 1, p => if s.pageOpen x p then [p] else p :: s.runFrom x n ((p + 1) % 2 ^ x.dirExp)

/-- The runs that hold a GONE entry, in ascending order of their first page from page `from_` on. -/
def State.goneRuns (s : State) (x : Index) (from_ : Nat) : List (List Nat) :=
  let n := 2 ^ x.dirExp
  let starts := (List.range n).filter (fun p => s.pageOpen x ((p + n - 1) % n))
  let rot := starts.filter (fun p => decide (from_ ≤ p)) ++ starts.filter (fun p => decide (p < from_))
  (rot.map (fun p => s.runFrom x n p)).filter (fun r => r.any (fun p => (List.range 256).any (fun e =>
    dirGone (s.dirEnt x p e))))

/-- Sweeps one run (R79): its valid entries are read, the run is cleared, and they are inserted again. -/
def State.sweepRun (s : State) (x : Index) (r : List Nat) : State :=
  let ws := (r.map (fun p => (List.range 256).map (fun e => s.dirEnt x p e))).flatten.filter dirValid
  let sorted := sortBy (fun w => x.home (w % 2 ^ 48) * 2 ^ 48 + w % 2 ^ 48) ws
  let cleared := r.foldl (fun s p => (s.hTraffic x.func x.func x.hDir false (p * 4096) 4096).hPut x.func x.hDir (p * 4096) (List.replicate 4096 0)) s
  (sorted.foldl (fun s w => match s.dirHole x (2 ^ x.dirExp) (x.home (w % 2 ^ 48)) with
    | some (p, e) => s.putDir x p e w
    | none => s) cleared).count Reg.indexDirSweepCnt

/-- One run of gone pages of a sweep: state, pages swept, whether the limit was reached, and where the next sweep starts. -/
def State.sweepStep (x : Index) (limit : Nat) (a : State × Nat × Bool × Nat) (run : List Nat) : State × Nat × Bool × Nat :=
  if a.2.2.1 then a
  else if a.2.1 > 0 ∧ a.2.1 + run.length > limit then (a.1, a.2.1, true, run.headD 0)
  else (a.1.sweepRun x run, a.2.1 + run.length, false, ((run.getLastD 0) + 1) % 2 ^ x.dirExp)

/-- Whether an index keeps its ID directory in T3. -/
def Index.dirT3 (x : Index) : Bool := fld x.desc 31 31 == 1

/-- The flash bytes that sweeping a page of a directory in T3 reads and writes (R79): the page once each way (DESIGN CHOICE, log entry
67). -/
def sweepBytes : Nat := 8192

/-- The sweep of one boundary (R79): runs are taken while their pages stay within `limit`, the first one whole. A directory in T3 adds its
flash bytes to those of the boundary. -/
def State.sweepDir (s : State) (x : Index) (limit : Nat) : State :=
  let r := (s.goneRuns x x.sweep).foldl (State.sweepStep x limit) (s, 0, false, x.sweep)
  let s1 := r.1.updIndex x.no (fun y => { y with sweep := r.2.2.2 })
  if x.dirT3 then { s1 with idx := { s1.idx with swept := s1.idx.swept + sweepBytes * r.2.1 } } else s1

/-! ## Bitmaps (R80, R461) -/

/-- What a block of a bitmap holds in one copy. -/
inductive BmBlk where
  | zero | ones | leaf (n : Nat) | bad
  deriving DecidableEq, Repr

def State.bmBlocks (s : State) (f h : Nat) : Nat := s.hFld f h 0 55 32
def State.bmLeafCap (s : State) (f h : Nat) : Nat := s.hFld f h 0 87 64
def State.bmCur (s : State) (f h : Nat) : Nat := s.hFld f h 0 10 10

/-- Bytes of a summary copy. -/
def State.bmSumLen (s : State) (f h : Nat) : Nat := roundUp (cdiv (s.bmBlocks f h) 8) 64

/-- Offset of a summary copy. -/
def State.bmSumOff (s : State) (f h c : Nat) : Nat := 64 + c * s.bmSumLen f h

/-- Offset of a directory copy. -/
def State.bmDirOff (s : State) (f h c : Nat) : Nat := 64 + 2 * s.bmSumLen f h + c * (4 * s.bmBlocks f h)

/-- Offset of leaf `n`. -/
def State.bmLeafOff (s : State) (f h n : Nat) : Nat := 64 + 2 * s.bmSumLen f h + 8 * s.bmBlocks f h + 512 * n

/-- Bytes that a bitmap needs for its blocks and leaves. -/
def bmBytes (blocks leaves : Nat) : Nat := 64 + 2 * roundUp (cdiv blocks 8) 64 + 8 * blocks + 512 * leaves

/-- A block of copy `c`. -/
def State.bmBlk (s : State) (f h c blk : Nat) : BmBlk :=
  if !bit (s.hNat f h (s.bmSumOff f h c + blk / 8) 1) (blk % 8) then .zero
  else
    let d := s.hNat f h (s.bmDirOff f h c + 4 * blk) 4
    if d = 0xFFFFFFFF then .ones else if d < s.bmLeafCap f h then .leaf d else .bad

/-- The bit of a slot within a leaf. -/
def State.leafBit (s : State) (f h n i : Nat) : Bool := bit (s.hNat f h (s.bmLeafOff f h n + i / 8) 1) (i % 8)

/-- The bit of a slot in copy `c`. -/
def State.bmBit (s : State) (f h c slot : Nat) : Bool :=
  match s.bmBlk f h c (slot / 4096) with
  | .zero => false
  | .ones => true
  | .bad => false
  | .leaf n => s.leafBit f h n (slot % 4096)

/-- The commit state of a bitmap; see `filterBit` for its undefined blocks. -/
def State.filt (s : State) (f h i : Nat) : FiltSt :=
  (s.idx.filts.find? (fun x => x.func == f && x.handle == h)).getD
    { func := f, handle := h, idx := i, recent := none, toFree := [], pre := [], undef := [] }

/-- Stores the commit state of a bitmap. -/
def State.putFilt (s : State) (x : FiltSt) : State :=
  { s with idx := { s.idx with filts := s.idx.filts.filter (fun y => !(y.func == x.func && y.handle == x.handle)) ++ [x] } }

/-- The leaves that a copy's directory names. -/
def State.bmLeaves (s : State) (f h c : Nat) : List Nat :=
  (List.range (s.bmBlocks f h)).filterMap (fun b => match s.bmBlk f h c b with
    | .leaf n => some n
    | _ => none)

/-- Leaves in use or not yet freed. -/
def State.bmHeld (s : State) (f h i : Nat) : List Nat :=
  (s.bmLeaves f h (s.bmCur f h) ++ (s.filt f h i).toFree.map (fun e => e.1)).eraseDups

/-- Leaves that are not free: those in use or not yet freed, and those that staging has written. -/
def State.bmUsed (s : State) (f h i : Nat) : List Nat := (s.bmHeld f h i ++ (s.filt f h i).pre.map (fun e => e.2)).eraseDups

/-- The first leaf that is free. -/
def State.bmFreeLeaf (s : State) (f h i : Nat) (avoid : List Nat) : Option Nat :=
  let used := s.bmUsed f h i ++ avoid
  (List.range (s.bmLeafCap f h)).find? (fun n => !used.contains n)

/-- Writes a block of copy `c`: the summary bit and the directory entry. -/
def State.bmSetBlk (s : State) (f h c blk : Nat) (v : BmBlk) : State :=
  let so := s.bmSumOff f h c + blk / 8
  let s1 := s.hPut f h so (leBytes 1 (setBits (s.hNat f h so 1) (blk % 8) (blk % 8) (if v = .zero then 0 else 1)))
  match v with
  | .zero => s1
  | .ones => s1.hPut f h (s.bmDirOff f h c + 4 * blk) (leBytes 4 0xFFFFFFFF)
  | .leaf n => s1.hPut f h (s.bmDirOff f h c + 4 * blk) (leBytes 4 n)
  | .bad => s1

/-- The 512 bytes of a block after slots of it are set to bits, in order. -/
def State.blkAfter (s : State) (f h c blk : Nat) (cs : List (Nat × Bool)) : List Bool :=
  (List.range 4096).map (fun i =>
    match (cs.filter (fun p => p.1 == blk * 4096 + i)).getLast? with
    | some p => p.2
    | none => s.bmBit f h c (blk * 4096 + i))

/-- The bytes of a leaf. -/
def leafBytes (bs : List Bool) : List Byte :=
  (List.range 512).map (fun j => BitVec.ofNat 8 ((List.range 8).foldl (fun a i => a + b2n (bs.getD (j * 8 + i) false) * 2 ^ i) 0))

/-- Replaces the commit state of a bitmap. -/
def State.updFilt (s : State) (f h i : Nat) (g : FiltSt → FiltSt) : State := s.putFilt (g (s.filt f h i))

/-- Writes the bits of a mixed block into a leaf and names it in copy `cw`. -/
def State.bmTake (s : State) (f h i cw blk n : Nat) (bs : List Bool) : State :=
  ((s.hPut f h (s.bmLeafOff f h n) (leafBytes bs)).bmSetBlk f h cw blk (.leaf n)).updFilt f h i (fun x =>
    { x with pre := x.pre.filter (fun e => e.1 != blk), toFree := x.toFree.filter (fun e => e.1 != n) })

/-- Applies changes to one block of a bitmap: read in copy `cr`, written to copy `cw` (R81, R82). `inPlace` lets a mixed
block keep its leaf, as the tombstones do. A mixed block takes the leaf that staging wrote for it, else a free leaf. Where no leaf is free,
a tombstone block takes one that waits to be freed, which no query reads any more, and a filter block keeps its own (DESIGN CHOICE, log
entry 68; the commit has waited until no query reads that leaf). An entry that names no leaf is counted as it is read (R461). -/
def State.bmApply (s : State) (f h i cr cw epoch : Nat) (inPlace : Bool) (blk : Nat) (cs : List (Nat × Bool)) : State :=
  let bs := s.blkAfter f h cr blk cs
  let old := s.bmBlk f h cr blk
  let s := if old = .bad then s.count Reg.indexFilterBadCnt else s
  let free (s : State) : State := match old with
    | .leaf n => let x := s.filt f h i; s.putFilt { x with toFree := x.toFree ++ [(n, epoch)] }
    | _ => s
  let twins := match old with
    | .leaf n => (List.range (s.bmBlocks f h)).filter (fun b => b != blk && s.bmBlk f h cr b == .leaf n)
    | _ => []
  let s := if twins.isEmpty then s else
    let x := s.filt f h i
    s.putFilt { x with undef := (x.undef ++ (blk :: twins)).eraseDups }
  if bs.all (fun b => b) then (free s).bmSetBlk f h cw blk .ones
  else if bs.all (fun b => !b) then (free s).bmSetBlk f h cw blk .zero
  else match old, inPlace with
    | .leaf n, true => s.hPut f h (s.bmLeafOff f h n) (leafBytes bs)
    | _, _ =>
      match ((s.filt f h i).pre.find? (fun e => e.1 == blk)).map (fun e => e.2), s.bmFreeLeaf f h i (s.bmLeaves f h cw) with
      | some n, _ => (free s).bmTake f h i cw blk n bs
      | none, some n => (free s).bmTake f h i cw blk n bs
      | none, none => match old, (s.filt f h i).toFree.head? with
        | .leaf n, _ => s.bmTake f h i cw blk n bs
        | _, some e => if inPlace then s.bmTake f h i cw blk e.1 bs else s
        | _, none => s

/-- The changed blocks of a filter that changes leave mixed. -/
def State.mixedBlks (s : State) (f h : Nat) (cs : List (Nat × Bool)) (blks : List Nat) : List Nat :=
  blks.filter (fun b =>
    let bs := s.blkAfter f h (s.bmCur f h) b cs
    !(bs.all (fun v => v) || bs.all (fun v => !v)))

/-- Staging writes the new leaves of the blocks `blks` of a filter, with the bits that all staged changes `cs` leave, into free leaves
(R125). A block that they leave uniform needs none. -/
def State.stageLeaves (s : State) (f h i : Nat) (cs : List (Nat × Bool)) (blks : List Nat) : State :=
  let mixed := s.mixedBlks f h cs blks
  let s0 := s.updFilt f h i (fun x => { x with pre := x.pre.filter (fun e => !blks.contains e.1 || mixed.contains e.1) })
  mixed.foldl (fun s b =>
    let bytes := leafBytes (s.blkAfter f h (s.bmCur f h) b cs)
    match ((s.filt f h i).pre.find? (fun e => e.1 == b)).map (fun e => e.2), s.bmFreeLeaf f h i [] with
    | some n, _ => s.hPut f h (s.bmLeafOff f h n) bytes
    | none, some n => (s.hPut f h (s.bmLeafOff f h n) bytes).updFilt f h i (fun x => { x with pre := x.pre ++ [(b, n)] })
    | none, none => s) s0

/-- Copies the summary and directory of copy `a` to copy `b`. -/
def State.bmCopy (s : State) (f h a b : Nat) : State :=
  let n := s.bmSumLen f h
  let m := 4 * s.bmBlocks f h
  (s.hPut f h (s.bmSumOff f h b) (s.hBytes f h (s.bmSumOff f h a) n)).hPut f h (s.bmDirOff f h b)
    (s.hBytes f h (s.bmDirOff f h a) m)

/-- The blocks that changes touch. -/
def changedBlks (cs : List (Nat × Bool)) : List Nat := (cs.map (fun p => p.1 / 4096)).eraseDups

/-- Commits changes to a filter (R81): the other copy is written, stamped and made current. -/
def State.filterCommit (s : State) (f h i epoch : Nat) (cs : List (Nat × Bool)) : State :=
  let c := s.bmCur f h
  let d := 1 - c
  let s1 := s.bmCopy f h c d
  let s2 := (changedBlks cs).foldl (fun s b => s.bmApply f h i c d epoch false b cs) s1
  let s3 := (s2.hSet f h 0 (if d = 0 then 159 else 191) (if d = 0 then 128 else 160) (epoch % 2 ^ 32)).hSet f h 0 10 10 d
  let s4 := s3.putFilt { s3.filt f h i with recent := some epoch }
  s4.hSet f h 0 119 96 (s4.bmHeld f h i).length

/-- Sets and clears tombstone bits in place (R82). -/
def State.tombCommit (s : State) (x : Index) (epoch : Nat) (cs : List (Nat × Bool)) : State :=
  let s1 := (changedBlks cs).foldl (fun s b => s.bmApply x.func x.hTomb x.no 0 0 epoch true b cs) s
  s1.hSet x.func x.hTomb 0 119 96 (s1.bmHeld x.func x.hTomb x.no).length

/-- A 32-bit epoch `a` is later than epoch `e` (R85). -/
def laterThan (a e : Nat) : Bool :=
  let d := (a + 2 ^ 32 - e % 2 ^ 32) % 2 ^ 32
  decide (1 ≤ d) && decide (d < 2 ^ 31)

/-- The copy of a filter that a query of epoch `e` reads (R81). -/
def State.filterCopy (s : State) (f h i e : Nat) : Nat :=
  let c := s.bmCur f h
  match (s.filt f h i).recent with
  | none => c
  | some _ =>
    let st := s.hFld f h 0 (if c = 0 then 159 else 191) (if c = 0 then 128 else 160)
    if laterThan st e then 1 - c else c

/-- A filter's bit of a slot as a query reads it. The bits of a block that shares its leaf with another changed block are
undefined (R461): a free value. -/
def State.filterBit (s : State) (f h i c slot : Nat) : Bool :=
  if (s.filt f h i).undef.contains (slot / 4096) then decide (Config.freeBits (s.fresh * 2 ^ 34 + slot) % 2 = 1)
  else s.bmBit f h c slot

/-- Whether an object is a bitmap of an index of the wanted kind (R461). -/
def State.bitmapOf (s : State) (x : Index) (o : Obj) (h kind : Nat) : Bool :=
  let f := x.func
  let blocks := x.slotCap / 4096
  o.func == f && o.inT2 && s.hFld f h 0 5 0 == x.no && s.hFld f h 0 8 8 == kind && s.bmBlocks f h == blocks &&
  decide (s.bmLeafCap f h ≤ blocks) && (kind == 0 || (s.bmLeafCap f h == blocks && s.hFld f h 0 9 9 == 0)) &&
  decide (bmBytes blocks (s.bmLeafCap f h) ≤ o.size) &&
  s.hFld f h 0 7 6 == 0 && s.hFld f h 0 31 11 == 0 && s.hFld f h 0 63 56 == 0 && s.hFld f h 0 95 88 == 0 &&
  s.hFld f h 0 127 120 == 0 && s.hFld f h 0 511 192 == 0

/-- Whether a handle names a bitmap of an index. -/
def State.isBitmap (s : State) (x : Index) (h kind : Nat) : Bool :=
  match s.obj? x.func h with
  | some o => s.bitmapOf x o h kind
  | none => false

/-- The filters of an index (R461), in ascending order of handle. -/
def State.filtersOf (s : State) (x : Index) : List Nat :=
  sortBy id ((s.mm.objs.filter (fun o => o.func == x.func && s.bitmapOf x o o.handle 0)).map (fun o => o.handle))

/-! ## Epoch logs (R85) -/

/-- An entry of an epoch log: its position, row, kind (1 insert, 2 delete) and epoch. -/
structure LogEnt where
  pos : Nat
  row : Nat
  kind : Nat
  epoch : Nat
  deriving DecidableEq, Repr

/-- The entries of a shoal's epoch log that are not empty. -/
def State.logEnts (s : State) (x : Index) (h : Nat) : List LogEnt :=
  (List.range 4096).filterMap (fun i =>
    let w := s.hNat x.func (s.shLog x h) (8 * i) 8
    if bits w 25 24 = 0 then none
    else some { pos := i, row := bits w 23 0, kind := bits w 25 24, epoch := bits w 63 32 })

/-- Adds an entry. R85 gives the log as a ring and does not say which place a new entry takes: it takes the first empty one (DESIGN CHOICE,
log entry 69). -/
def State.logAdd (s : State) (x : Index) (h row kind epoch : Nat) : State :=
  match (List.range 4096).find? (fun i => bits (s.hNat x.func (s.shLog x h) (8 * i) 8) 25 24 == 0) with
  | some i => s.hPut x.func (s.shLog x h) (8 * i) (leBytes 8 (row + kind * 2 ^ 24 + epoch % 2 ^ 32 * 2 ^ 32))
  | none => s

/-- The epochs of the queries in flight on an index: those stamped, and those delivered and not yet stamped (R96). -/
def State.epochsInFlight (s : State) (i : Nat) : List Nat :=
  (s.cmd.live.filter (fun l => decide (l.h.opcode = Op.search) && fld l.body 5 0 == i &&
    (l.stage == .delivered || l.stage == .running))).map (fun l => l.epoch)

/-- Whether no query bound to an epoch earlier than `e` remains in flight on an index. -/
def State.noneBefore (s : State) (i e : Nat) : Bool := (s.epochsInFlight i).all (fun q => decide (e ≤ q))

/-- What the end of a query or a boundary lets go: log entries, replaced leaves and recent marks (R81, R82, R85). -/
def State.retireEpochs (s : State) (x : Index) : State :=
  let old (e : Nat) : Bool := (s.epochsInFlight x.no).all (fun q => !laterThan e q)
  let s1 := (List.range x.nShoals).foldl (fun s h => ((s.logEnts x h).filter (fun l => old l.epoch)).foldl (fun s l =>
    s.hPut x.func (s.shLog x h) (8 * l.pos) (leBytes 8 0)) s) s
  (s1.idx.filts.filter (fun f => f.idx == x.no)).foldl (fun s f =>
    let f1 := { f with recent := f.recent.filter (fun e => !s.noneBefore x.no e)
                       toFree := f.toFree.filter (fun e => !s.noneBefore x.no e.2) }
    let s2 := s.putFilt f1
    if f1.toFree.length < f.toFree.length then
      s2.hSet f.func f.handle 0 119 96 (s2.bmHeld f.func f.handle x.no).length
    else s2) s1

/-- The insert and delete entries of a row. -/
def logOf (es : List LogEnt) (row kind : Nat) : Option Nat := (es.find? (fun l => l.row == row && l.kind == kind)).map (fun l => l.epoch)

/-- Whether a row is visible to a query of epoch `e` (R85, R104, R130). -/
def State.rowVisible (s : State) (x : Index) (h row e : Nat) (es : List LogEnt) : Bool :=
  let late (o : Option Nat) : Bool := match o with
    | some l => laterThan l e
    | none => false
  !late (logOf es row 1) &&
    (!s.bmBit x.func x.hTomb 0 (s.shBase x h + row) || late (logOf es row 2))

/-! ## Images (R292) -/

/-- The chunks of a section: 64 MiB each, the last one shorter. -/
def chunksOf (b : List Byte) : List (List Byte) :=
  (List.range (cdiv b.length 67108864)).map (fun i => (b.drop (i * 67108864)).take 67108864)

/-- The digest of a section: SHA-384 of its chunk digests in order. -/
def sectionDigest (b : List Byte) : List Byte := sha384 ((chunksOf b).map sha384).flatten

/-- An image of sections (type, bytes): header, section entries, chunk digest table, and the sections in units of 64 KiB. -/
def buildImage (kind ident : Nat) (secs : List (Nat × List Byte)) : List Byte :=
  let tab := (secs.map (fun p => ((chunksOf p.2).map sha384).flatten)).flatten
  let secUnit := 1 + cdiv tab.length 65536
  let offs := secs.foldl (fun (a : List Nat × Nat) p => (a.1 ++ [a.2], a.2 + cdiv p.2.length 65536)) ([], secUnit)
  let total := offs.2 * 65536
  let hdr := leBytes 64 (0x4B5A494D + kind * 2 ^ 32 + 2 ^ 40 + secs.length * 2 ^ 48 + ident * 2 ^ 64 + total * 2 ^ 128 + 2 ^ 192)
  let ents := (secs.zip offs.1).map (fun e =>
    leBytes 16 (e.2 + e.1.1 * 2 ^ 32 + e.1.2.length * 2 ^ 64) ++ sectionDigest e.1.2)
  let pad (b : List Byte) (n : Nat) : List Byte := b ++ List.replicate (n - b.length) 0
  pad (hdr ++ ents.flatten) 65536 ++ pad tab ((secUnit - 1) * 65536) ++
    (secs.map (fun p => pad p.2 (roundUp p.2.length 65536))).flatten

/-- The section entries of the image in an object: type, byte offset, length, and the entry's digest. -/
def State.imageSecs (s : State) (o : Obj) : List (Nat × Nat × Nat × List Byte) :=
  (List.range (s.objNat o 6 1)).map (fun i =>
    let b := 64 + 64 * i
    (s.objNat o (b + 4) 1, s.objNat o b 4 * 65536, s.objNat o (b + 8) 8, s.objBytes o (b + 16) 48))

/-- Whether an object starts with an image header of a kind (R292 Table 3). -/
def State.imageHeaderOk (s : State) (o : Obj) (kind : Nat) : Bool :=
  s.objNat o 0 4 == 0x4B5A494D && s.objNat o 4 1 == kind && s.objNat o 5 1 == 1 &&
    decide (1 ≤ s.objNat o 6 1) && decide (s.objNat o 6 1 ≤ 63)

/-- The sections of an image, each with the number of its first chunk in the chunk digest table. -/
def firstChunks (es : List (Nat × Nat × Nat × List Byte)) : List ((Nat × Nat × Nat × List Byte) × Nat) :=
  (es.foldl (fun (a : List ((Nat × Nat × Nat × List Byte) × Nat) × Nat) e => (a.1 ++ [(e, a.2)], a.2 + cdiv e.2.2.1 67108864)) ([], 0)).1

/-- The type of the first section that fails: its range or the range of its chunk digests, a read, the digest of a chunk against the chunk
digest table at CHUNK_TAB, or its own DIGEST (R292). -/
def State.imageBad (s : State) (o : Obj) : Option Nat :=
  let tab := s.objNat o 24 4 * 65536
  ((firstChunks (s.imageSecs o)).find? (fun c =>
    let e := c.1
    let n := cdiv e.2.2.1 67108864
    let at_ := tab + 48 * c.2
    decide (e.2.1 + e.2.2.1 > o.size) || decide (at_ + 48 * n > o.size) || !s.objReadable o e.2.1 e.2.2.1 || !s.objReadable o at_ (48 * n) ||
    ((chunksOf (s.objBytes o e.2.1 e.2.2.1)).map sha384).flatten != s.objBytes o at_ (48 * n) ||
    sectionDigest (s.objBytes o e.2.1 e.2.2.1) != e.2.2.2)).map (fun c => c.1.1)

/-- The bytes of the first section of a type. -/
def State.imageSec (s : State) (o : Obj) (ty : Nat) : List Byte :=
  match (s.imageSecs o).find? (fun e => e.1 == ty) with
  | some e => s.objBytes o e.2.1 e.2.2.1
  | none => []

end Sys2Proof.Machine
end

