-- ==== Sys2Proof/Machine/Kv.lean ====
section
/-! DEFINITION. The resident model's descriptors (R163, R218, R220) and the key-value cache: page lists, frames, spills, promotions,
drops and waiting entries (R190 to R209, R215). -/

namespace Sys2Proof.Machine

/-! ## The model -/

/-- Bits `hi` to `lo` of the model descriptor (R218 Table 1). -/
def State.mdl (s : State) (hi lo : Nat) : Nat := fld s.gen.model.desc hi lo

def State.mLayers (s : State) : Nat := s.mdl 15 8 + 1
def State.mHidden (s : State) : Nat := 32 * s.mdl 25 16
def State.mFfn (s : State) : Nat := 32 * s.mdl 43 32
def State.mVocab (s : State) : Nat := s.mdl 68 48
def State.mWobj (s : State) (d : Nat) : Nat := s.mdl (191 + 32 * d) (160 + 32 * d)
def State.mLowObj (s : State) (d : Nat) : Nat := s.mdl (319 + 32 * d) (288 + 32 * d)

/-- Whether a model is resident and belongs to a function (R219). -/
def State.modelOf (s : State) (f : Nat) : Bool := decide (s.gen.model.st = 2) && s.gen.model.func == f

/-- Bits of a layer record (R220 Table 2); record LAYERS is the head record. -/
def State.layerRec (s : State) (l hi lo : Nat) : Nat := s.hFld s.gen.model.func (s.mdl 447 416) (64 * l) hi lo

/-- The attention descriptor of a layer (R163). -/
def State.attnDesc (s : State) (l : Nat) : Body := s.hBytes s.gen.model.func (s.mdl 479 448) (32 * l) 32

def adDh (d : Body) : Nat := 64 * 2 ^ fld d 1 0
def adInt4 (d : Body) : Bool := fld d 2 2 == 1
def adSave (d : Body) : Bool := fld d 3 3 == 1
def adQHeads (d : Body) : Nat := fld d 15 8 + 1
def adKvHeads (d : Body) : Nat := fld d 23 16 + 1
def adTau (d : Body) : Nat := fld d 63 32
def adW (d : Body) : Nat := 64 * fld d 79 64
def adGlobal (d : Body) : Nat := fld d 84 80
def adRetr (d : Body) : Nat := fld d 108 96
def adSplit (d : Body) : Nat := fld d 118 112

/-- G of Table 2: the key-value heads of a head group. -/
def adG (d : Body) : Nat := (if adInt4 d then 256 else 128) / adDh d

/-- The head ratio r. -/
def adR (d : Body) : Nat := adQHeads d / adKvHeads d

/-- The head groups of a layer. -/
def adGroups (d : Body) : Nat := adKvHeads d / adG d

/-- Whether an attention descriptor obeys R163; its reserved bits are ignored (R10). -/
def adOk (d : Body) : Bool :=
  decide (fld d 1 0 < 3) && (fld d 1 0 != 2 || adInt4 d) &&
  Fv.lt (.fin false 0 0) (f32 (adTau d)) && !fIsInf (adTau d) && decide (1 ≤ fld d 79 64) && decide (fld d 79 64 ≤ 1024) &&
  decide (adGlobal d ≤ 16) && decide (adRetr d ≤ 4096) && decide (1 ≤ adSplit d) && decide (adSplit d ≤ 64) &&
  adQHeads d % adKvHeads d == 0 && adKvHeads d % adG d == 0 && decide (adG d * adR d ≤ 32)

/-- The head groups of a layer of the resident model. -/
def State.groupsAt (s : State) (l : Nat) : Nat := adGroups (s.attnDesc l)

/-- Every list of a sequence: layer first, then head group (R195). -/
def State.allLists (s : State) : List (Nat × Nat) :=
  (List.range s.mLayers).flatMap (fun l => (List.range (s.groupsAt l)).map (fun g => (l, g)))

/-! ## Contexts and sequences -/

/-- The cache of a context. -/
def State.kv? (s : State) (ctx : Nat) : Option KvCtx := s.kv.ctxs.find? (fun c => c.ctx == ctx)

/-- Replaces the cache of a context. -/
def State.updKv (s : State) (ctx : Nat) (f : KvCtx → KvCtx) : State :=
  { s with kv := { s.kv with ctxs := updWhere (fun c => c.ctx == ctx) f s.kv.ctxs } }

/-- The open sequence of a slot. -/
def State.seq? (s : State) (slot : Nat) : Option Seq := s.gen.seqs.find? (fun q => q.slot == slot)

/-- Replaces an open sequence. -/
def State.updSeq (s : State) (slot : Nat) (f : Seq → Seq) : State :=
  { s with gen := { s.gen with seqs := updWhere (fun q => q.slot == slot) f s.gen.seqs } }

/-- A configuration word in force since the last step boundary: 0 PIPE_CFG, 1 REPLICA, 2 SPILL_CFG, 3 WAIT_CFG, 4 PROMOTE_CFG,
5 to 8 BUF_CFG of the dies. -/
def State.genCfg (s : State) (i : Nat) : Nat := s.gen.cfg.getD i 0

/-! ## Page lists (R195) -/

/-- The home pool of a list. -/
def State.homePool (s : State) (c : KvCtx) (p : PageRef) : Nat :=
  (p.seq + p.layer * s.groupsAt p.layer + p.group) % c.pools.length

/-- The place of a list's root among the roots of its root block. -/
def State.rootIndex (s : State) (layer group : Nat) : Nat := ((List.range layer).map s.groupsAt).sum + group

/-- Nothing: a root or directory entry that names nothing. -/
def kvNone : Nat := 0xFFFFFFFF

/-- The byte offset in the root object of the root entry of a page. -/
def State.rootOff (s : State) (q : Seq) (p : PageRef) : Nat :=
  (fld q.body 159 128 + s.rootIndex p.layer p.group) * 256 + p.page / 4096 * 4

/-- The byte offset of a directory chunk in its list object. -/
def chunkOff (k : Nat) : Nat := k / 68 * 17408 + k % 68 * 256

/-- The list object of a page, with the offset of its leaf; none where the list has no such leaf. -/
def State.kvLeaf (s : State) (c : KvCtx) (p : PageRef) : Option (Nat × Nat) :=
  match s.seq? p.seq with
  | none => none
  | some q =>
    let lo := (c.pools.getD (s.homePool c p) (0, 0)).2
    let k := s.hNat c.func c.root (s.rootOff q p) 4
    if k = kvNone then none
    else
      let n := s.hNat c.func lo (chunkOff k + p.page / 64 % 64 * 4) 4
      if n = kvNone then none else some (lo, n * 17408)

/-- The page entry of a page; 0, an ABSENT page, where there is none. -/
def State.pageWord (s : State) (c : KvCtx) (p : PageRef) : Nat :=
  match s.kvLeaf c p with
  | some (o, off) => s.hNat c.func o (off + p.page % 64 * 16) 16
  | none => 0

def pwFrame (w : Nat) : Nat := bits w 27 0
def pwPool (w : Nat) : Nat := bits w 36 32
def pwState (w : Nat) : Nat := bits w 41 40
def pwFill (w : Nat) : Nat := bits w 48 42
def pwSpilling (w : Nat) : Bool := bit w 49
def pwPromoting (w : Nat) : Bool := bit w 50
def pwMirrored (w : Nat) : Bool := bit w 51
def pwMoving (w : Nat) : Bool := bit w 52

/-- Rewrites a page entry. -/
def State.setPage (s : State) (c : KvCtx) (p : PageRef) (f : Nat → Nat) : State :=
  match s.kvLeaf c p with
  | some (o, off) => s.hPut c.func o (off + p.page % 64 * 16) (leBytes 16 (f (s.hNat c.func o (off + p.page % 64 * 16) 16)))
  | none => s

/-- Bytes of a page's metadata record. -/
def State.metaBytes (s : State) (c : KvCtx) (p : PageRef) (off n : Nat) : List Byte :=
  match s.kvLeaf c p with
  | some (o, l) => s.hBytes c.func o (l + 1024 + p.page % 64 * 256 + off) n
  | none => List.replicate n 0

/-- Writes bytes of a page's metadata record. -/
def State.putMeta (s : State) (c : KvCtx) (p : PageRef) (off : Nat) (b : List Byte) : State :=
  match s.kvLeaf c p with
  | some (o, l) => s.hPut c.func o (l + 1024 + p.page % 64 * 256 + off) b
  | none => s

/-- The device address of spill frame `f` (R278). -/
def spillAddr (f : Nat) : Nat := t3Addr (0x3C0000000000 + f * 16384)

/-- Bytes of a spill frame of a context, deciphered with its function's key (R291). -/
def State.spillBytes (s : State) (c : KvCtx) (f off n : Nat) : List Byte :=
  (List.range n).map (fun i => s.t3Byte c.key c.func (spillAddr f + off + i))

/-- Bytes of a page's code frame, from T2 or from its spill frame. -/
def State.codeBytes (s : State) (c : KvCtx) (p : PageRef) (off n : Nat) : List Byte :=
  let w := s.pageWord c p
  if pwState w = 2 then s.spillBytes c (pwFrame w) off n
  else s.hBytes c.func (c.pools.getD (pwPool w) (0, 0)).1 (pwFrame w * 16384 + off) n

/-- Writes bytes of a frame of a pool. -/
def State.putFrame (s : State) (c : KvCtx) (pool frame off : Nat) (b : List Byte) : State :=
  s.hPut c.func (c.pools.getD pool (0, 0)).1 (frame * 16384 + off) b

/-- The stack of a pool. -/
def State.poolStack (s : State) (c : KvCtx) (pool : Nat) : Nat :=
  match s.obj? c.func (c.pools.getD pool (0, 0)).1 with
  | some o => o.stack
  | none => 0

/-- Whether bytes of an object can be read. -/
def State.hReadable (s : State) (f h off n : Nat) : Bool := ((s.obj? f h).map (fun o => s.objReadable o off n)).getD false

/-- Whether the list that holds a page can be read: its root, its directory chunk, and the page entries of its leaf (R196). -/
def State.listReadable (s : State) (c : KvCtx) (p : PageRef) : Bool :=
  match s.seq? p.seq with
  | none => true
  | some q =>
    let lo := (c.pools.getD (s.homePool c p) (0, 0)).2
    let off := s.rootOff q p
    let k := s.hNat c.func c.root off 4
    s.hReadable c.func c.root (off / 256 * 256) 256 && (k == kvNone || s.hReadable c.func lo (chunkOff k) 256) &&
      (match s.kvLeaf c p with
        | some (h, l) => s.hReadable c.func h l 1024
        | none => true)

/-- Whether a page's metadata record can be read. -/
def State.metaReadable (s : State) (c : KvCtx) (p : PageRef) : Bool :=
  match s.kvLeaf c p with
  | some (h, l) => s.hReadable c.func h (l + 1024 + p.page % 64 * 256) 256
  | none => false

/-- Whether a page's metadata and codes can be read where they lie (R183, R289). -/
def State.pageReadable (s : State) (c : KvCtx) (p : PageRef) : Bool :=
  let w := s.pageWord c p
  let codes := if pwState w = 2 then (List.range 4).all (fun i => s.mapUnitReadable (0x3C0000000 + pwFrame w * 4 + i))
    else if pwState w = 1 then (match s.obj? c.func (c.pools.getD (pwPool w) (0, 0)).1 with
      | some o => s.objReadable o (pwFrame w * 16384) 16384
      | none => false)
    else false
  codes && s.metaReadable c p

/-- Rewrites bytes of a page in T2 that could not be read: codes below offset 16,384, metadata from there on. The lines are good again
(R183, R209). -/
def State.mendPage (s : State) (c : KvCtx) (p : PageRef) (off : Nat) (b : List Byte) : State :=
  let w := s.pageWord c p
  if off < 16384 then
    (s.hHeal c.func (c.pools.getD (pwPool w) (0, 0)).1 (pwFrame w * 16384 + off) b.length).putFrame c (pwPool w) (pwFrame w) off b
  else match s.kvLeaf c p with
    | some (o, l) => (s.hHeal c.func o (l + 1024 + p.page % 64 * 256 + (off - 16384)) b.length).putMeta c p (off - 16384) b
    | none => s

/-- Whether a page lies on this device (R211). -/
def State.pageHere (s : State) (c : KvCtx) (p : PageRef) : Bool :=
  if c.layout = 0 then true
  else if c.layout = 1 then c.devs.getD (p.group % c.devs.length) 0 == s.fix.ord
  else c.devs.getD (p.page / max 1 c.span % c.devs.length) 0 == s.fix.ord

/-! ## Transfers to other devices (R371) -/

/-- The other devices of a context's layout (R211). -/
def State.others (s : State) (c : KvCtx) : List Nat := if c.layout = 0 then [] else (c.devs.eraseDups).filter (fun o => o != s.fix.ord)

/-- Sends transfers to a device: XWRITEs of bytes, or XREADs of as many, each to a place and an offset in it. Each keeps its data until its
answer (R371). -/
def State.sendAt (s : State) (dst func : Nat) (write : Bool) (use : XUse) (ms : List (XPlace × Nat × List Byte)) : State :=
  let outs := ms.mapIdx (fun j m => ({ xid := (s.zwx.nextXid + j) % 2 ^ 32, dst := dst, write := write, sentAt := s.now, use := use
                                       x := { srcOrd := s.fix.ord, func := func, xid := (s.zwx.nextXid + j) % 2 ^ 32, addr := m.2.1, lenM1 := m.2.2.length - 1
                                              replyAddr := 0, err := false, data := if write then m.2.2 else [], place := m.1 } } : XferOut))
  ({ s with zwx := { s.zwx with xfers := s.zwx.xfers ++ outs, nextXid := (s.zwx.nextXid + outs.length) % 2 ^ 32 } } : State).emits
    (outs.map (fun o => if write then .xwrite o.dst o.x else .xread o.dst o.x))

/-- Sends transfers to places as a whole. -/
def State.sendX (s : State) (dst func : Nat) (write : Bool) (use : XUse) (ms : List (XPlace × List Byte)) : State :=
  s.sendAt dst func write use (ms.map (fun m => (m.1, 0, m.2)))

/-- The group whose members beside this device are exactly the devices of a list of two or more (R372). -/
def State.groupOf (s : State) (ds : List Nat) : Option Nat :=
  if ds.length < 2 then none
  else (List.range 16).find? (fun g =>
    let ms := (s.members g).filter (fun o => o != s.fix.ord)
    ms.length == ds.length && ms.all ds.contains)

/-- Sends bytes to places of every device of a list: as one multicast where a group holds exactly those devices, and to each alone otherwise.
A multicast keeps the data of each member until it has answered (R371 to R373). That a sequencer multicasts what goes to a whole group is the
model's choice (DESIGN CHOICE, log entry 71). -/
def State.sendAll (s : State) (ds : List Nat) (func : Nat) (use : XUse) (ms : List (XPlace × List Byte)) : State :=
  match s.groupOf ds with
  | none => ds.foldl (fun s o => s.sendX o func true use ms) s
  | some g =>
    let id := s.zwx.nextXid
    let xs := ms.mapIdx (fun j m => ({ srcOrd := s.fix.ord, func := func, xid := (id + j) % 2 ^ 32, addr := 0, lenM1 := m.2.length - 1
                                       replyAddr := 0, err := false, data := m.2, place := m.1 } : XPkt))
    let outs := xs.flatMap (fun x => ds.map (fun o => ({ xid := x.xid, dst := o, write := true, sentAt := s.now, use := .mcast id, x := x } : XferOut)))
    let m : XMcast := { id := id, group := g, total := (ms.map (fun m => m.2.length)).sum, recv := ds.map (fun o => (o, 0)), detached := [] }
    ({ s with zwx := { s.zwx with
        xfers := s.zwx.xfers ++ outs, nextXid := (id + xs.length) % 2 ^ 32, xmcasts := s.zwx.xmcasts ++ [m] } } : State).emits (xs.map (fun x => .xmulti g x))

/-- Tells the other devices of a layout that a sequence is held, or no longer is (R211). -/
def State.sendHold (s : State) (c : KvCtx) (seq : Nat) (on : Bool) : State :=
  s.sendAll (s.others c) c.func .hold [(.hold c.ctx seq on, [BitVec.ofNat 8 (b2n on)])]

/-! ## Slots and frames -/

/-- The size of an object in bytes. -/
def State.objSize (s : State) (f h : Nat) : Nat := ((s.obj? f h).map (fun o => o.size)).getD 0

/-- The frames of a pool. -/
def State.poolFrames (s : State) (c : KvCtx) (pool : Nat) : Nat := s.objSize c.func (c.pools.getD pool (0, 0)).1 / 16384

/-- The free frames of a pool. -/
def State.freeFrames (s : State) (c : KvCtx) (pool : Nat) : List Nat :=
  (List.range (s.poolFrames c pool)).filter (fun f => !c.frames.contains (pool, f))

/-- The free frames of all pools of a context. -/
def State.allFree (s : State) (c : KvCtx) : Nat :=
  ((List.range c.pools.length).map (fun i => s.poolFrames c i)).sum - c.frames.length

/-- The first free slot of a pool's list object. -/
def State.freeSlot (s : State) (c : KvCtx) (pool : Nat) : Option Nat :=
  (List.range (s.objSize c.func (c.pools.getD pool (0, 0)).2 / 17408)).find? (fun i =>
    !c.leaves.contains (pool, i) && !c.dirSlots.contains (pool, i))

/-- Takes a directory chunk of a pool: a free one of its directory slots, or the first of a slot newly taken. -/
def State.takeChunk (s : State) (c : KvCtx) (pool : Nat) : Option (Nat × State) :=
  let have_ := (c.dirSlots.filter (fun d => d.1 == pool)).flatMap (fun d => (List.range 68).map (fun i => d.2 * 68 + i))
  match have_.find? (fun k => !c.chunks.contains (pool, k)) with
  | some k => some (k, s.updKv c.ctx (fun c => { c with chunks := c.chunks ++ [(pool, k)] }))
  | none => match s.freeSlot c pool with
    | some i => some (i * 68, s.updKv c.ctx (fun c =>
        { c with dirSlots := c.dirSlots ++ [(pool, i)], chunks := c.chunks ++ [(pool, i * 68)] }))
    | none => none

/-- The directory chunk of a page's leaf: the one its root entry names, or a chunk taken, filled with 0xFF and entered there. -/
def State.leafChunk (s : State) (c : KvCtx) (p : PageRef) (q : Seq) : Option (Nat × State) :=
  let h := s.homePool c p
  let k := s.hNat c.func c.root (s.rootOff q p) 4
  if k = kvNone then
    match s.takeChunk c h with
    | none => none
    | some r => some (r.1, (r.2.hPut c.func (c.pools.getD h (0, 0)).2 (chunkOff r.1) (List.replicate 256 0xFF)).hPut c.func c.root
        (s.rootOff q p) (leBytes 4 r.1))
  else some (k, s)

/-- A leaf in a free slot of its home pool, zeroed and entered in its chunk. -/
def State.newLeaf (s : State) (ctx : Nat) (c : KvCtx) (p : PageRef) (k : Nat) : Option State :=
  let h := s.homePool c p
  let lo := (c.pools.getD h (0, 0)).2
  match s.kv? ctx with
  | none => none
  | some c1 =>
    match s.freeSlot c1 h with
    | none => none
    | some i =>
      let s1 := s.updKv ctx (fun c => { c with leaves := c.leaves ++ [(h, i)] })
      some ((s1.hPut c.func lo (i * 17408) (List.replicate 1024 0)).hPut c.func lo (chunkOff k + p.page / 64 % 64 * 4) (leBytes 4 i))

/-- Makes the leaf of a page exist (R199); none where the list object has no free slot. -/
def State.makeLeaf (s : State) (ctx : Nat) (p : PageRef) : Option State :=
  match s.kv? ctx, s.seq? p.seq with
  | some c, some q =>
    if (s.kvLeaf c p).isSome then some s
    else
      match s.leafChunk c p q with
      | none => none
      | some r => r.2.newLeaf ctx c p r.1
  | _, _ => none

/-- The pools in the order in which a page looks for a frame: its home pool, then the others from the next one up, wrapping. -/
def poolOrder (n h : Nat) : List Nat := (List.range n).map (fun i => (h + i) % n)

/-- Takes a free frame for a page (R199 step 1); which frame of a pool is a free choice. -/
def State.takeFrame (s : State) (ctx : Nat) (p : PageRef) : Option (Nat × Nat × State) :=
  match s.kv? ctx with
  | none => none
  | some c =>
    match (poolOrder c.pools.length (s.homePool c p)).find? (fun i => !(s.freeFrames c i).isEmpty) with
    | none => none
    | some i => match s.draw (s.freeFrames c i) with
      | (some f, s1) => some (i, f, s1.updKv ctx (fun c => { c with frames := c.frames ++ [(i, f)] }))
      | (none, _) => none

/-- Gives a frame back. -/
def State.freeFrame (s : State) (ctx pool frame : Nat) : State :=
  s.updKv ctx (fun c => { c with frames := c.frames.filter (fun x => x != (pool, frame)) })

/-- Gives a spill frame back. -/
def State.freeSpill (s : State) (ctx f : Nat) : State := s.updKv ctx (fun c => { c with spill := c.spill.filter (fun x => x != f) })

/-- The frames of the spill region (R194, R283). -/
def State.spillFrames (s : State) : Nat := 2 ^ 24 * s.fix.spill256

/-- The next free spill frame of a context (R204): in ascending number, with wrap, skipping those of failed channels. -/
def State.nextSpill (s : State) (c : KvCtx) : Option Nat :=
  let used := s.kv.ctxs.flatMap (fun x => x.spill)
  let n := s.spillFrames
  ((List.range (min n (64 * (used.length + 2)))).map (fun i => (c.spillNext + i) % n)).find? (fun f =>
    !used.contains f && !s.fl.failed.contains (f % 64))

/-! ## Candidates (R184, R201, R202) -/

/-- Whether an attended page list in flight holds a page. -/
def State.attended (s : State) (p : PageRef) : Bool :=
  s.gen.cohorts.any (fun k => k.attns.any (fun a => a.layer == p.layer && a.group == p.group && a.out.isNone &&
    ((k.entries[a.entry]?).map (fun e => e.seq == p.seq)).getD false && (a.retr.contains p.page || a.splits.any (fun x => x.pages.contains p.page))))

/-- The spill frames whose reads something waits for: splits whose pages are still to land, and promotions of a PREFETCH. -/
def State.wantedFrames (s : State) : List Nat :=
  (s.kv.promos.filter (fun m => m.cmd.isSome)).map (fun m => m.spill) ++ s.gen.cohorts.flatMap (fun k => k.attns.flatMap (fun a =>
    match k.entries[a.entry]?, s.kv? k.ctx with
    | some x, some c => (a.splits.filter (fun sp => sp.t3)).flatMap (fun sp => (sp.pages.filter (fun n => !sp.landed.contains n)).map (fun n =>
        pwFrame (s.pageWord c { seq := x.seq, layer := a.layer, group := a.group, page := n })))
    | _, _ => []))

/-- The reads of spill frames that nothing waits for any longer leave their queues. -/
def State.pruneReads (s : State) : State :=
  let ws := s.wantedFrames
  { s with fl := { s.fl with reads := s.fl.reads.filter (fun r => !isSpillUnit r.unit || ws.contains ((r.unit - spillUnit 0) / 4)) } }

/-- Whether a page is a spill candidate. -/
def State.spillable (s : State) (c : KvCtx) (p : PageRef) : Bool :=
  let w := s.pageWord c p
  let d := s.attnDesc p.layer
  match s.seq? p.seq with
  | none => false
  | some q =>
    pwState w == 1 && pwFill w == 64 && !pwSpilling w && !pwPromoting w && !pwMoving w && decide (p.page ≥ adGlobal d) &&
    decide (64 * p.page + 63 + adW d < q.written) && !s.attended p

/-- The oldest candidate of a context among the first SCAN_MAX entries of its age queue. -/
def State.oldest (s : State) (c : KvCtx) : Option PageRef :=
  (c.age.take (bits (s.genCfg 2) 15 0)).find? (s.spillable c)

/-- The bytes of an age-queue entry. -/
def ageBytes (p : PageRef) : List Byte := leBytes 8 (p.seq + p.layer * 2 ^ 14 + p.group * 2 ^ 22 + p.page * 2 ^ 30)

/-- Adds a page at the tail of the age queue (R202). -/
def State.ageAdd (s : State) (ctx : Nat) (p : PageRef) : State :=
  match s.kv? ctx with
  | none => s
  | some c =>
    let n := max 1 (s.objSize c.func c.ageq / 8)
    (s.updKv ctx (fun c => { c with age := c.age ++ [p], ageTail := c.ageTail + 1 })).hPut c.func c.ageq (c.ageTail % n * 8) (ageBytes p)

/-- Takes a page out of the age queue. -/
def State.ageDrop (s : State) (ctx : Nat) (p : PageRef) : State :=
  s.updKv ctx (fun c => { c with age := c.age.filter (fun x => x != p) })

/-! ## Spilling and dropping (R200, R204, R208) -/

/-- Whether a context drops pages instead of spilling them (R208). -/
def State.dropMode (s : State) (c : KvCtx) : Bool := c.drop || !s.fl.spillReady

/-- Issues the spill of a page to a spill frame (R204 steps 1 and 2), for the sequence `spare` that waits for a frame if there is one: its write joins the queue of the frame's channel (R284). -/
def State.spillIssue (s : State) (c : KvCtx) (p : PageRef) (f : Nat) (cmd : Option CmdRef) (spare : Option Nat) : State :=
  let w := s.pageWord c p
  let m : PageMove := { p := p, ctx := c.ctx, pool := pwPool w, frame := pwFrame w, spill := f, cmd := cmd, spare := spare, done := false, gone := false }
  let s1 := s.setPage c p (fun w => setBits w 49 49 1)
  let s2 := s1.updKv c.ctx (fun c => { c with spill := c.spill ++ [f], spillNext := (f + 1) % s.spillFrames })
  ({ s2 with kv := { s2.kv with spills := s2.kv.spills ++ [m] } } : State).queueWrite (spillUnit f) [] true

/-- Drops a page: STATE = DROPPED and its frame is free at once. -/
def State.dropPage (s : State) (c : KvCtx) (p : PageRef) : State :=
  let w := s.pageWord c p
  (((s.setPage c p (fun w => setBits w 41 40 3)).freeFrame c.ctx (pwPool w) (pwFrame w)).ageDrop c.ctx p).count Reg.kvDropCnt

/-- Why a sequence completes with KV_QUOTA_FULL (R217 Table 8). -/
inductive FullCause where
  | spillQuota | noCandidate | listFull | regionFull
  deriving DecidableEq, Repr

/-- The code of a cause. -/
def FullCause.code : FullCause → Nat
  | .spillQuota => 1
  | .noCandidate => 2
  | .listFull => 3
  | .regionFull => 4

/-- What making a page present comes to. -/
inductive Made where
  | yes | wait | noCand | full (c : FullCause)
  deriving DecidableEq, Repr

/-- Gives a page its frame: STATE = 01 and FILL = 0. -/
def State.bindFrame (s : State) (c : KvCtx) (p : PageRef) (pool frame : Nat) : State :=
  (s.setPage c p (fun _ => frame + pool * 2 ^ 32 + 2 ^ 40)).count Reg.kvAllocCnt

/-- Issues the spill of the oldest page to the next free spill frame. -/
def State.spillOldest (s : State) (c : KvCtx) (v : PageRef) (seq : Nat) : State × Made :=
  match s.nextSpill c with
  | none => (s, .full .regionFull)
  | some f => (s.spillIssue c v f none (some seq), .wait)

/-- Room for a page in full pools: the oldest page is dropped and its frame taken, or spilled and waited for. -/
def State.makeRoom (s : State) (ctx : Nat) (c : KvCtx) (p : PageRef) : State × Made :=
  if s.dropMode c then
    match s.oldest c with
    | none => (s, .noCand)
    | some v =>
      match (s.dropPage c v).takeFrame ctx p with
      | some r => (r.2.2.bindFrame c p r.1 r.2.1, .yes)
      | none => (s.dropPage c v, .wait)
  else if c.spill.length ≥ c.quota then (s, .full .spillQuota)
  else
    match s.oldest c with
    | none => (s, .noCand)
    | some v => s.spillOldest c v p.seq

/-- Makes one ABSENT page present (R199): a free frame, else a drop or a spill of the oldest candidate. `issue` says whether a
spill may be issued for it. -/
def State.makePage (s : State) (ctx : Nat) (p : PageRef) (issue : Bool) : State × Made :=
  match s.makeLeaf ctx p with
  | none => (s, .full .listFull)
  | some s0 =>
    match s0.kv? ctx with
    | none => (s, .full .listFull)
    | some c =>
      match s0.takeFrame ctx p with
      | some r => (r.2.2.bindFrame c p r.1 r.2.1, .yes)
      | none => if !issue then (s0, .wait) else s0.makeRoom ctx c p

/-- The pages of an entry that are ABSENT, list by list (R199). -/
def State.absentPages (s : State) (c : KvCtx) (seq pos0 qlen : Nat) : List PageRef :=
  (s.allLists.flatMap (fun lg => (List.range ((pos0 + qlen - 1) / 64 - pos0 / 64 + 1)).map (fun i =>
    ({ seq := seq, layer := lg.1, group := lg.2, page := pos0 / 64 + i } : PageRef)))).filter (fun p =>
      s.pageHere c p && pwState (s.pageWord c p) == 0)

/-- Makes an entry's pages present; the results of the pages that could not be. For `own` of the pages that find no frame a spill is in
flight already, or none is to be issued. -/
def State.makePages (s : State) (ctx : Nat) (ps : List PageRef) (own : Nat) : State × List Made :=
  let r := ps.foldl (fun (r : State × List Made × Nat) p =>
    let x := r.1.makePage ctx p (r.2.2 == 0)
    (x.1, if x.2 = .yes then r.2.1 else r.2.1 ++ [x.2], if x.2 = .wait then r.2.2 - 1 else r.2.2)) (s, [], own)
  (r.1, r.2.1)

/-- The spills in flight that were issued for a sequence's missing pages (R200). -/
def State.ownSpills (s : State) (ctx seq : Nat) : Nat := (s.kv.spills.filter (fun m => m.ctx == ctx && m.spare == some seq)).length

/-- The slot of a context while it is resident. -/
def State.ctxSlot (s : State) (ctx : Nat) : Nat := ((s.ctx? ctx).map (fun c => c.slot)).getD 0

/-- Records a KV_QUOTA_FULL (R200). -/
def State.quotaFull (s : State) (ctx seq : Nat) (c : FullCause) : State :=
  (s.wr Reg.kvLastFull (seq * 256 + s.ctxSlot ctx * 16 + c.code)).count Reg.kvQuotaFullCnt

/-- Gives free frames to the sequences of a context that wait, in the order of the step boundaries at which they entered PAGE_WAIT, with
ties in ascending SEQ (R200). A sequence that has all its pages is ready from now on, and its hold on other devices ends (R203, R211). -/
def State.serveWaiting (s : State) (ctx : Nat) : State :=
  let ws := (s.gen.seqs.filter (fun q => q.ctx == ctx && q.wait.isSome && !q.ended))
  (sortBy (fun q => (q.wait.getD 0) * 2 ^ 14 + q.slot) ws).foldl (fun s q =>
    match s.kv? ctx, q.want with
    | some c, some (pos0, qlen) =>
      let ab := s.absentPages c q.slot pos0 qlen
      let r := s.makePages ctx ab ab.length
      if r.2.isEmpty then (r.1.updSeq q.slot (fun q => { q with wait := none, readyAt := s.now })).sendHold c q.slot false else r.1
    | _, _ => s) s

/-! ## KV commands under way (R214) -/

/-- The completion body of a PREFETCH or SPILL: the counts handled and skipped. -/
def kvBody (status handled skipped : Nat) : Body := leBytes 16 (status + handled * 2 ^ 32 + skipped * 2 ^ 64)

/-- One page of a KV command is handled or skipped; the command completes with its last page. -/
def State.kvHandled (s : State) (cmd : Option CmdRef) (ok : Bool) : State :=
  match cmd with
  | none => s
  | some r =>
    match s.kv.runs.find? (fun x => x.r == r) with
    | none => s
    | some x =>
      let y := { x with left := x.left - 1, handled := x.handled + b2n ok, skipped := x.skipped + b2n (!ok) }
      if y.left = 0 then
        ({ s with kv := { s.kv with runs := s.kv.runs.filter (fun z => z.r != r) } } : State).complete r Status.ok
          (kvBody Status.ok y.handled y.skipped)
      else { s with kv := { s.kv with runs := updWhere (fun z => z.r == r) (fun _ => y) s.kv.runs } }

/-! ## The ends of movements -/

/-- The page of a spill frame is programmed: its four map units get their places on channel f mod 64 (R204, R283). -/
def State.mapSpill (s : State) (f : Nat) : State := (List.range 4).foldl (fun s i => s.mapUnit 4096 (spillUnit f + i)) s

/-- The write that a spill waits for, in the queue of its frame's channel. -/
def State.spillWrite (s : State) (f : Nat) : Option FWrite := s.fl.writes.find? (fun w => w.copy && w.unit == spillUnit f)

/-- Whether the write of a spill is the one that its channel programs now (R284). -/
def State.spillTurn (s : State) (f : Nat) : Bool := s.fl.ready && (s.spillWrite f).all s.writeTurn

/-- The write of a spill leaves its queue. -/
def State.endSpillWrite (s : State) (f : Nat) : State :=
  match s.spillWrite f with
  | some w => s.dropWrite w
  | none => s

/-- Takes back a spill that is not durable: the page stays in T2, its spill frame is free and its write leaves the queue. The frame of a
sequence that has closed is free as well. -/
def State.undoSpill (s : State) (m : PageMove) : State :=
  let s1 := ({ s with kv := { s.kv with spills := s.kv.spills.filter (fun x => x != m) } } : State).cancelWrites (fun w => w.copy && w.unit == spillUnit m.spill)
  let s2 := if m.gone then s1.freeFrame m.ctx m.pool m.frame else match s1.kv? m.ctx with
    | some c => s1.setPage c m.p (fun w => setBits w 49 49 0)
    | none => s1
  s2.freeSpill m.ctx m.spill

/-- Takes back a promotion: the page stays in T3 and the frame reserved for it is free. -/
def State.undoPromo (s : State) (m : PageMove) : State :=
  let s1 : State := { s with kv := { s.kv with promos := s.kv.promos.filter (fun x => x != m) } }
  (match s1.kv? m.ctx with
    | some c => s1.setPage c m.p (fun w => setBits w 50 50 0)
    | none => s1).freeFrame m.ctx m.pool m.frame

/-- The allocator's part of a durable spill (R204 step 3): the page lies in T3, its old frame waits to be freed, and its command has handled
it. A spill of a sequence that has closed meanwhile gives its spill frame back (R205). -/
def State.spillDurable (s : State) (c : KvCtx) (m : PageMove) : State :=
  let s1 : State := { s with kv := { s.kv with spills := updWhere (fun x => x == m) (fun x => { x with done := true }) s.kv.spills } }
  let s2 := if m.gone then s1.freeSpill c.ctx m.spill
    else (s1.setPage c m.p (fun w => setBits (setBits (setBits (setBits w 49 49 0) 41 40 2) 36 32 0) 27 0 m.spill)).ageDrop c.ctx m.p
  (s2.count Reg.kvSpillCnt).kvHandled m.cmd true

/-- Frees the frame of a durable spill, which goes to a sequence that waits (R200). -/
def State.spillEnd (s : State) (m : PageMove) : State :=
  (({ s with kv := { s.kv with spills := s.kv.spills.filter (fun x => x != m) } } : State).freeFrame m.ctx m.pool m.frame).serveWaiting m.ctx

/-- Whether the frame of a spilled page is still read: by an attended page list, or by its mirror copy (R205). -/
def State.frameHeld (s : State) (m : PageMove) : Bool := !m.gone && (s.attended m.p || s.kv.mirroring.contains m.p)

/-- Frees the frame of every durable spill that nothing reads any longer. -/
def State.settleSpills (s : State) : State :=
  (s.kv.spills.filter (fun m => m.done)).foldl (fun s m => if s.frameHeld m then s else s.spillEnd m) s

/-- Starts the promotion of a T3 page into a free frame of its home pool (R207); none where it may not be promoted. -/
def State.promote (s : State) (c : KvCtx) (p : PageRef) (cmd : Option CmdRef) : Option State :=
  let w := s.pageWord c p
  let h := s.homePool c p
  if pwState w ≠ 2 ∨ pwPromoting w ∨ !bit (s.genCfg 4) 31 ∨ s.allFree c ≤ bits (s.genCfg 4) 27 0 then none
  else match s.draw (s.freeFrames c h) with
    | (none, _) => none
    | (some f, s1) =>
      let m : PageMove := { p := p, ctx := c.ctx, pool := h, frame := f, spill := pwFrame w, cmd := cmd, spare := none, done := false, gone := false }
      let s2 := (s1.updKv c.ctx (fun c => { c with frames := c.frames ++ [(h, f)] })).setPage c p (fun w => setBits w 50 50 1)
      some { s2 with kv := { s2.kv with promos := s2.kv.promos ++ [m] } }

/-- Switches the relocated pages whose copies are done and that no attended page list holds (R198). -/
def State.switchRelocs (s : State) : State :=
  (s.kv.relocs.filter (fun m => m.done)).foldl (fun s m =>
    match s.kv? m.ctx with
    | none => s
    | some c =>
      if s.attended m.p then s
      else
        let w := s.pageWord c m.p
        let s1 := { s with kv := { s.kv with relocs := s.kv.relocs.filter (fun x => x != m) } }
        ((s1.setPage c m.p (fun w => setBits (setBits (setBits w 52 52 0) 36 32 m.pool) 27 0 m.frame)).freeFrame m.ctx
          (pwPool w) (pwFrame w))) s

/-! ## Closing a sequence (R215) -/

/-- The sequence that the place of a packet names. -/
def placeSeq : XPlace → Option Nat
  | .memory => none
  | .hold _ q _ => some q
  | .pageList _ _ p _ _ => some p.seq
  | .finalList _ _ p _ _ => some p.seq
  | .partials _ _ p _ _ => some p.seq
  | .fresh _ _ p => some p.seq
  | .mirror _ p _ => some p.seq
  | .weights _ => none

/-- The pages that a sequence may hold. -/
def State.seqPages (s : State) (q : Seq) : List PageRef :=
  let top := max q.written ((q.want.map (fun x => x.1 + x.2)).getD 0)
  let inStep := s.gen.cohorts.foldl (fun t k => k.entries.foldl (fun t e => if e.seq = q.slot then max t (e.pos0 + e.qlen) else t) t) top
  s.allLists.flatMap (fun lg => (List.range (cdiv inStep 64)).map (fun n =>
    ({ seq := q.slot, layer := lg.1, group := lg.2, page := n } : PageRef)))

/-- Frees what a sequence holds in its context's cache. -/
def State.freePages (s : State) (q : Seq) : State :=
  match s.kv? q.ctx with
  | none => s
  | some c =>
    let ps := s.seqPages q
    let inSpill (p : PageRef) : Bool := s.kv.spills.any (fun m => m.p == p && !m.gone && !m.done)
    let ws := ps.map (fun p => (p, s.pageWord c p))
    let fr := (ws.filter (fun x => pwState x.2 == 1 && !inSpill x.1)).map (fun x => (pwPool x.2, pwFrame x.2)) ++
      ((s.kv.promos ++ s.kv.relocs).filter (fun m => m.p.seq == q.slot)).map (fun m => (m.pool, m.frame))
    let sp := (ws.filter (fun x => pwState x.2 == 2)).map (fun x => pwFrame x.2)
    let lv := ps.filterMap (fun p => (s.kvLeaf c p).map (fun l => (s.homePool c p, l.2 / 17408)))
    let ch := ps.filterMap (fun p =>
      let k := s.hNat c.func c.root (s.rootOff q p) 4
      if k = kvNone then none else some (s.homePool c p, k))
    let chunks := c.chunks.filter (fun x => !ch.contains x)
    let s1 := s.updKv q.ctx (fun c => { c with
      frames := c.frames.filter (fun x => !fr.contains x), spill := c.spill.filter (fun x => !sp.contains x)
      leaves := c.leaves.filter (fun x => !lv.contains x), chunks := chunks
      dirSlots := c.dirSlots.filter (fun d => chunks.any (fun k => k.1 == d.1 && k.2 / 68 == d.2))
      age := c.age.filter (fun p => p.seq != q.slot) })
    { s1 with kv := { s1.kv with
        spills := s1.kv.spills.map (fun m => if m.p.seq = q.slot ∧ m.ctx = q.ctx then { m with gone := true } else m)
        promos := s1.kv.promos.filter (fun m => m.p.seq != q.slot), relocs := s1.kv.relocs.filter (fun m => m.p.seq != q.slot)
        rebuild := s1.kv.rebuild.filter (fun p => p.seq != q.slot), mirroring := s1.kv.mirroring.filter (fun p => p.seq != q.slot)
        far := s1.kv.far.filter (fun x => placeSeq x.place != some q.slot), holds := s1.kv.holds.filter (fun h => h.2.1 != q.slot) } }

/-- Frees a sequence's slot and pages. -/
def State.freeSeq (s : State) (slot : Nat) : State :=
  match s.seq? slot with
  | none => s
  | some q =>
    let s1 := s.freePages q
    ({ s1 with gen := { s1.gen with seqs := s1.gen.seqs.filter (fun x => x.slot != slot) } } : State).serveWaiting q.ctx

/-- The completion body of a flow SEQ_OPEN (R336). -/
def seqBody (q : Seq) (reason : Nat) : Body := leBytes 16 (reason + q.tokens * 2 ^ 32 + q.level * 2 ^ 56)

/-- Ends a sequence (R230): its flow SEQ_OPEN completes with a reason and a status. -/
def State.endSeq (s : State) (slot reason status : Nat) : State :=
  match s.seq? slot with
  | none => s
  | some q =>
    let s1 := s.updSeq slot (fun q => { q with
      ended := true, wait := none, openCmd := none, keep := q.keep || status == Status.kvQuotaFull || status == Status.kvLost })
    match q.openCmd with
    | some r => s1.complete r status (seqBody q reason)
    | none => s1

end Sys2Proof.Machine
end

