-- ==== Sys2Proof/Machine/Lagoon.lean ====
section
/-! DEFINITION. Lagoon shares (R70, R253, R254): units of 16 KiB on the islands of a die, taken whole or not at all. -/

namespace Sys2Proof.Machine

/-- The units of a die that a share holds. -/
def Share.on (x : Share) (die : Nat) : List Nat :=
  match x.us.find? (fun e => e.1 == die) with
  | some e => e.2
  | none => []

/-- The units of a die that no share holds. Units 0 to 15 are the system area. -/
def State.freeUnits (s : State) (die : Nat) : List Nat :=
  ((List.range 112).map (fun i => i + 16)).filter (fun u => !s.mm.shares.any (fun x => (x.on die).contains u))

/-- The units that sorted runs borrow, as (island, unit). -/
def State.borrowed (s : State) : List (Nat × Nat) := s.mm.runs.flatMap (fun r => r.units.map (fun u => (r.island, u.1)))

/-- The units of a die that no share holds, those that no sorted run borrows on any of its islands first (R253). -/
def State.shareUnits (s : State) (die : Nat) : List Nat :=
  let lent (u : Nat) : Bool := s.borrowed.any (fun b => b.1 / 128 == die && b.2 == u)
  (s.freeUnits die).filter (fun u => !lent u) ++ (s.freeUnits die).filter lent

/-- Keeps the sorted runs of a list of `n` entries for `k` on an island (R150, R253). A list of at most 256 entries beside its guard, and
the guard of a longer one, stay in the stage's own storage (DESIGN CHOICE, log entry 64). The other runs of 256 entries lie in the
island's lagoon, up to LAGOON_KIB for all its lists: first in the system area, then in units that no share holds. The rest go to the
island's own stack, each counted. -/
def State.keepRuns (s : State) (r : CmdRef) (key island k n kib : Nat) : State :=
  let runs := cdiv (min k n) 256
  if k ≤ 256 ∨ runs ≤ 1 then s
  else
    let mine := s.mm.runs.filter (fun x => x.island == island)
    let used := (mine.map (fun x => x.sys + (x.units.map (fun u => u.2)).sum)).sum
    let kept := min runs (kib / 4 - used)
    let sys := min kept (min 64 Config.sysRuns - (mine.map (fun x => x.sys)).sum)
    let free := (s.freeUnits (island / 128)).filter (fun u => !s.borrowed.contains (island, u))
    let us := (free.take (cdiv (kept - sys) 4)).mapIdx (fun i u => (u, min 4 (kept - sys - 4 * i)))
    let spill := runs - sys - (us.map (fun u => u.2)).sum
    let x : RunList := { cmd := r, key := key, island := island, sys := sys, units := us }
    let s1 : State := { s with mm := { s.mm with runs := s.mm.runs ++ [x] } }
    if spill > 0 then s1.count (Reg.selectSpillCnt (island / 128)) spill else s1

/-- Counts a list of `n` entries for `k` that a stage completes (R162). -/
def State.countList (s : State) (inst k n : Nat) : State :=
  let s1 := s.count (Reg.selectListsCnt inst)
  let s2 := if k > 256 then s1.count (Reg.selectMultipassCnt inst) else s1
  if n < k then s2.count (Reg.selectShortCnt inst) else s2

/-- Lets the sorted runs of lists go that satisfy `p`. -/
def State.dropRuns (s : State) (p : RunList → Bool) : State :=
  { s with mm := { s.mm with runs := s.mm.runs.filter (fun x => !p x) } }

/-- The dies on which a share lies. -/
def shareDies (die : Option Nat) : List Nat :=
  match die with
  | some d => [d]
  | none => [0, 1, 2, 3]

/-- Moves the sorted runs out of borrowed units that a share takes (R253); each counts as a spill of its die. -/
def State.yieldUnits (s : State) (die : Nat) (us : List Nat) : State :=
  let hit (r : RunList) (u : Nat × Nat) : Bool := r.island / 128 == die && us.contains u.1
  let n := (s.mm.runs.map (fun r => ((r.units.filter (hit r)).map (fun u => u.2)).sum)).sum
  let s1 : State := { s with mm := { s.mm with runs := s.mm.runs.map (fun r => { r with units := r.units.filter (fun u => !hit r u) }) } }
  if n > 0 then s1.count (Reg.selectSpillCnt die) n else s1

/-- The units of a die that index loads past their check will take for their centroid shares. They are set aside from the check on, so
that a load that has begun to write its objects finds its share (R70; DESIGN CHOICE, log entry 65). -/
def State.dueUnits (s : State) (die : Nat) : Nat :=
  ((s.idx.indexes.filter (fun x => decide (x.st = 1) && !x.built && fld x.desc 53 52 == die)).map (fun x => x.due)).sum

/-- Takes a share of `n` units on each island of its dies, or nothing: where units lack, each die that lacks them counts
the refusal. The units that are due to index loads are left alone by every other share. -/
def State.takeShare (s : State) (owner : ShareOwner) (die : Option Nat) (n : Nat) : State × Bool :=
  let dies := shareDies die
  let due (d : Nat) : Nat := match owner with
    | .index _ => 0
    | _ => s.dueUnits d
  let lack := dies.filter (fun d => decide ((s.freeUnits d).length < n + due d))
  if lack.isEmpty then
    let us := dies.map (fun d => (d, (s.shareUnits d).take n))
    let x : Share := { owner := owner, die := die, us := us }
    let s1 : State := { s with mm := { s.mm with shares := s.mm.shares ++ [x] } }
    (us.foldl (fun s e => s.yieldUnits e.1 e.2) s1, true)
  else (lack.foldl (fun s d => s.count (Reg.lagoonShareFullCnt d)) s, false)

/-- Whether a share of `n` units fits beside those that index loads are due. -/
def State.shareFits (s : State) (die : Option Nat) (n : Nat) : Bool :=
  (shareDies die).all (fun d => decide (n + s.dueUnits d ≤ (s.freeUnits d).length))

/-- Gives a share back. -/
def State.dropShare (s : State) (owner : ShareOwner) : State :=
  { s with mm := { s.mm with shares := s.mm.shares.filter (fun x => x.owner != owner) } }

/-- The units that centroid shares take on a die. -/
def State.centUnits (s : State) (die : Nat) : Nat :=
  ((s.mm.shares.filter (fun x => match x.owner with
    | .index _ => true
    | _ => false)).map (fun x => (x.on die).length)).sum

end Sys2Proof.Machine
end

