-- ==== Sys2Proof/Machine/Attn.lean ====
section
/-! DEFINITION. Attention (R164 to R187): quantised rows and summary keys, page choice, splits, partials, the merge and the
backward recomputation. -/

namespace Sys2Proof.Machine

/-! ## Codes -/

/-- Q of a code format (R165). -/
def kvQ (int4 : Bool) : Nat := if int4 then 7 else 127

/-- The codes of `n` elements packed in bytes (R25). -/
def unpackCodes (int4 : Bool) (n : Nat) (b : List Byte) : List Int :=
  (List.range n).map (fun i =>
    if int4 then bitsInt 4 (bits (bodyNat b (i / 2) 1) (i % 2 * 4 + 3) (i % 2 * 4)) else bitsInt 8 (bodyNat b i 1))

/-- The bytes of codes. -/
def packKv (int4 : Bool) (cs : List Int) : List Byte := packCodes (if int4 then 0 else 1) cs

/-- The FP32 pattern of an E4M3 scale. -/
def scaleF32 (w : Nat) : Nat := toF32 (e4m3Fmt.decode w)

/-- The summary codes of a full page (R166) from its 64 key rows and key scales. -/
def summaryKey (int4 : Bool) (n : Nat) (rows : List (List Int × Nat)) : List Int :=
  let top := rows.foldl (fun m r => if fLt (scaleF32 m) (scaleF32 r.2) then r.2 else m) 0
  if f32 (scaleF32 top) == .fin false 0 0 || scaleF32 top = 0 then List.replicate n 0
  else
    let inv := fRecip (scaleF32 top)
    (List.range n).map (fun d =>
      let sum := rows.foldl (fun a r => fAdd a (fMul (scaleF32 r.2) (fOfInt (r.1.getD d 0)))) 0
      (f32 (fMul (fMul 0x3C800000 sum) inv)).toIntRnd .near (-(kvQ int4 : Int)) (kvQ int4))

/-- An operation that a sequencer issues with CLEAR or ONTO and an FP32 readout (R177, R226). -/
def seqOp (fa fb : Fmt) (sa sb : ScaleFmt) (acc : AccKind) (m n k seed : Nat) : MatOp :=
  { fmtA := fa, fmtB := fb, scaleA := sa, scaleB := sb, mxBlock := 32, acc := acc, m := m, n := n, k := k, tile := 0,
    init := .clear, preshift := 0, seed := seed, winLsb := 0, readout := .fp32, readRnd := .rne, aOff := 0, bOff := 0,
    saOff := 0, sbOff := 0, biasOff := 0, outOff := 0, func := 0, tag := 0 }

/-- An empty tile. -/
def tileZero : List Nat := List.replicate 1024 0

/-- The format of cache codes. -/
def kvFmt (int4 : Bool) : Fmt := if int4 then .int4 else .int8

/-! ## Cohort steps -/

/-- The cohort step in a slot. -/
def State.cohort? (s : State) (slot : Nat) : Option Cohort := s.gen.cohorts.find? (fun k => k.slot == slot)

/-- Replaces a cohort step. -/
def State.updCohort (s : State) (slot : Nat) (f : Cohort → Cohort) : State :=
  { s with gen := { s.gen with cohorts := updWhere (fun k => k.slot == slot) f s.gen.cohorts } }

/-- The T2 and T3 bytes that the accounting records of the open window and of later ones hold. -/
def State.moved (s : State) : Nat :=
  ((s.sch.cur ++ s.sch.late.map (fun x => x.a)).map (fun a => a.t2rd + a.t2wr + a.t3rd + a.t3wr)).sum

/-- Adds the bytes that a command has moved, in going from `s0` to `s`, to a cohort step (R313). -/
def State.measured (s : State) (s0 : State) (slot : Nat) : State :=
  s.updCohort slot (fun k => { k with bytes := k.bytes + (s.moved - s0.moved) })

/-- Adds the time in which an island's array has run `cycles` cycles for a cohort step, at the island's set clock (R20, R313). -/
def State.arrayBusy (s : State) (slot island cycles : Nat) : State :=
  s.updCohort slot (fun k => { k with busy := k.busy + cycles * 320 / (14 * max 1 (s.setClock island)) })

/-- Replaces an entry. -/
def State.updEntry (s : State) (slot e : Nat) (f : CEntry → CEntry) : State :=
  s.updCohort slot (fun k => { k with entries := updAt e f k.entries })

/-- Replaces an attention in flight. -/
def State.updAttn (s : State) (a : AttnRef) (f : AttnRun → AttnRun) : State :=
  s.updCohort a.slot (fun k => { k with
    attns := updWhere (fun x => x.entry == a.entry && x.layer == a.layer && x.group == a.group) f k.attns })

/-- The attention that a reference names. -/
def Cohort.attn? (k : Cohort) (a : AttnRef) : Option AttnRun :=
  k.attns.find? (fun x => x.entry == a.entry && x.layer == a.layer && x.group == a.group)

/-- The class of a cohort step's tasks. -/
def State.cohortCls (s : State) (k : Cohort) : Nat := ((s.ctx? k.ctx).map (fun c => c.prio)).getD 0

/-- The context seed of R41. -/
def State.ctxSeed (s : State) (ctx : Nat) : Nat := ((s.ctx? ctx).map (fun c => c.seed)).getD 0x5EED0001

/-- The query row of a token of an entry at the attention stage: QHEADS × DH values. -/
def Cohort.qRow (k : Cohort) (e row : Nat) : List Nat :=
  (k.pieces.findSome? (fun p => (p.rows.findIdx? (fun r => r == (e, row))).bind (fun i => p.cur[i]?))).getD []

/-- The tokens of a row block (R168). -/
def blkTokens (d : Body) (qlen rb : Nat) : List Nat :=
  let t := max 1 (32 / (adG d * adR d))
  (List.range (min t (qlen - rb * t))).map (fun i => rb * t + i)

/-- The number of row blocks of an entry. -/
def blkCount (d : Body) (qlen : Nat) : Nat := cdiv qlen (max 1 (32 / (adG d * adR d)))

/-- The query of one head of a group: key-value head `h` of the group, query head `j` of it. -/
def Cohort.qHead (k : Cohort) (d : Body) (e row group h j : Nat) : List Nat :=
  ((k.qRow e row).drop (((group * adG d + h) * adR d + j) * adDh d)).take (adDh d)

/-! ## The attended set (R170 to R172) -/

/-- Whether the row at position `q` attends to position `t`. -/
def attends (d : Body) (retr : List Nat) (q t : Nat) : Bool :=
  decide (t ≤ q) && (decide (q < t + adW d) || decide (t < 64 * adGlobal d) || retr.contains (t / 64))

/-- The pages of the global group. -/
def globalPages (d : Body) (x : CEntry) : List Nat := List.range (min (adGlobal d) ((x.pos0 + x.qlen - 1) / 64 + 1))

/-- The pages of the window group. -/
def windowPages (d : Body) (x : CEntry) : List Nat :=
  let lo := (x.pos0 + 1 - adW d) / 64
  (List.range ((x.pos0 + x.qlen - 1) / 64 + 1)).filter (fun n => decide (lo ≤ n) && decide (adGlobal d ≤ n))

/-- The pages eligible for retrieval (R171), on whatever device they lie. -/
def State.eligible (s : State) (d : Body) (x : CEntry) : List Nat :=
  let w := ((s.seq? x.seq).map (fun q => q.written)).getD 0
  (List.range (x.pos0 / 64)).filter (fun n =>
    decide (adGlobal d ≤ n) && decide (64 * n + 63 + adW d < x.pos0 + 1) && decide (64 * n + 63 < w))

/-! ## Layouts across devices (R174, R181, R211) -/

/-- The device that merges an entry's lists and partials and holds its fresh rows: by position, that of the sequence's last page. -/
def State.mergeDev (s : State) (c : KvCtx) (x : CEntry) : Nat :=
  if c.layout = 2 then c.devs.getD ((x.pos0 + x.qlen - 1) / 64 / max 1 c.span % c.devs.length) 0 else s.fix.ord

/-- Whether that is this device. -/
def State.mergesHere (s : State) (c : KvCtx) (x : CEntry) : Bool := s.mergeDev c x == s.fix.ord

/-- Whether this device holds attended positions of a page: written ones of a page here, or the entry's fresh rows (DESIGN CHOICE, log
entry 71). -/
def State.attendHere (s : State) (c : KvCtx) (a : AttnRef) (x : CEntry) (n : Nat) : Bool :=
  (s.pageHere c { seq := x.seq, layer := a.layer, group := a.group, page := n } && (s.mergesHere c x || decide (64 * n < x.pos0))) ||
    (s.mergesHere c x && decide (64 * n + 63 ≥ x.pos0))

/-- The attended pages that another device holds written positions of. -/
def State.farPages (s : State) (c : KvCtx) (d : Body) (a : AttnRef) (x : CEntry) (retr : List Nat) : List Nat :=
  if c.layout ≠ 2 then []
  else (globalPages d x ++ retr ++ windowPages d x).filter (fun n =>
    decide (64 * n < x.pos0) && !s.pageHere c { seq := x.seq, layer := a.layer, group := a.group, page := n })

/-- The key row, value row and scales of a position as attention sees them: a fresh row of the step, or its page (R169). A position
that neither holds has none. -/
def State.posData (s : State) (c : KvCtx) (k : Cohort) (d : Body) (a : AttnRef) (x : CEntry) (t : Nat) :
    Option (List Int × List Int × Nat × Nat) :=
  match k.fresh.find? (fun f => s.mergesHere c x && f.entry == a.entry && f.layer == a.layer && f.group == a.group && x.pos0 + f.row == t) with
  | some f => some (f.kc, f.vc, f.ks, f.vs)
  | none =>
    let p : PageRef := { seq := x.seq, layer := a.layer, group := a.group, page := t / 64 }
    let w := s.pageWord c p
    let n := adG d * adDh d
    if t % 64 < pwFill w ∧ (pwState w = 1 ∨ pwState w = 2) then
      some (unpackCodes (adInt4 d) n (s.codeBytes c p (128 * (t % 64)) 128),
        unpackCodes (adInt4 d) n (s.codeBytes c p (8192 + 128 * (t % 64)) 128),
        leNat (s.metaBytes c p (t % 64) 1), leNat (s.metaBytes c p (64 + t % 64) 1))
    else none

/-! ## Page choice (R173) -/

/-- The task part of the seed of R179. -/
def attnTask (layer group first : Nat) : Nat := layer % 256 * 2 ^ 24 ||| group % 64 * 2 ^ 18 ||| first

/-- The page scores of an entry and group: for each row block and key-value head the queries are the stationary operand and the
pages' summary codes the moving one, 32 pages to an operation; and what the operations and the queries' quantisation count. -/
def State.scorePages (s : State) (c : KvCtx) (k : Cohort) (d : Body) (a : AttnRef) (x : CEntry) (pages : List Nat) : List (Nat × Nat) × Tally :=
  let dh := adDh d
  let ref (n : Nat) : PageRef := { seq := x.seq, layer := a.layer, group := a.group, page := n }
  let top (n : Nat) : Nat := (s.metaBytes c (ref n) 0 64).foldl (fun m b => if fLt m (scaleF32 b.toNat) then scaleF32 b.toNat else m) 0
  let sumc (n : Nat) : List Int := unpackCodes (adInt4 d) (adG d * dh) (s.metaBytes c (ref n) 128 128)
  let scores (rb h : Nat) : List (Nat × Nat) × Tally :=
    let qv := (blkTokens d x.qlen rb).flatMap (fun tk => (List.range (adR d)).map (fun j => k.qHead d a.entry tk a.group h j))
    let qs := qv.map (encVec 127)
    let seed := opSeed (s.ctxSeed k.ctx) (attnTask a.layer a.group 0) (x.seq + 2 ^ 15) rb
    let runs := (List.range (cdiv pages.length 32)).map (fun i =>
      let ps := (pages.drop (32 * i)).take 32
      let op := seqOp (kvFmt (adInt4 d)) .int8 .none .e4m3 .acc32 ps.length qs.length dh seed
      let cs := ps.map sumc
      let m : MatIn :=
        { a := fun r e => Fv.ofInt ((cs.getD r []).getD (h * dh + e) 0)
          b := fun e n => Fv.ofInt ((qs.getD n ([], [], 0)).1.getD e 0)
          sj := fun _ n j => e4m3Fmt.decode ((qs.getD n ([], [], 0)).2.1.getD j 0) }
      let t := m.run op tileZero
      (ps.zipIdx.map (fun p => (p.1, ((List.range qs.length).map (fun n => fMul (t.1.getD (p.2 * 32 + n) 0) (top p.1))).foldl
        (fun b v => if fIsNan b || fLt b v then v else b) 0x7FC00000)), t.2))
    ((runs.map (fun r => r.1)).flatten, (tallySum (runs.map (fun r => r.2))).add (nanTally qv.flatten))
  let runs := (List.range (blkCount d x.qlen)).flatMap (fun rb => (List.range (adG d)).map (scores rb))
  let all := (runs.map (fun r => r.1)).flatten
  (pages.map (fun n => (n, ((all.filter (fun e => e.1 == n)).map (fun e => e.2)).foldl
    (fun b v => if fIsNan b || fLt b v then v else b) 0x7FC00000)), tallySum (runs.map (fun r => r.2)))

/-- The page scores alone. -/
def State.pageScores (s : State) (c : KvCtx) (k : Cohort) (d : Body) (a : AttnRef) (x : CEntry) (pages : List Nat) : List (Nat × Nat) :=
  (s.scorePages c k d a x pages).1

/-- The `n` best pages of a list of pages with their scores, best first (R143 to R146). -/
def bestPages (n : Nat) (sc : List (Nat × Nat)) : List (Nat × Nat) :=
  (mergeEnts (rankF false) n (sc.map (fun e => ({ score := e.2, id := e.1, ord := 0, slot := 0 } : Ent)))).1.map (fun e => (e.id, e.score))

/-- The RETR_PAGES best pages, in ascending page number. -/
def choosePages (n : Nat) (sc : List (Nat × Nat)) : List Nat := sortBy id ((bestPages n sc).map (fun e => e.1))

/-! ## Splits (R175, R176) -/

/-- Cuts the pages of one group into splits of at most `e` pages: the splits, and how many were closed at `e` pages. Each page comes with
its stack and whether it lies in T3, or with nothing where another device holds it. -/
def cutSplits (e : Nat) (ps : List (Nat × Option (Nat × Bool))) : List Split × Nat :=
  let r := ps.foldl (fun (r : List Split × Option Split × Nat) p =>
    let fresh : Option Split := p.2.map (fun q => { pages := [p.1], t3 := q.2, stack := q.1, landed := [], done := [] })
    match r.2.1, p.2 with
    | none, _ => (r.1, fresh, r.2.2)
    | some x, none => (r.1 ++ [x], none, r.2.2 + b2n (decide (x.pages.length ≥ e)))
    | some x, some q =>
      if x.pages.length ≥ e then (r.1 ++ [x], fresh, r.2.2 + 1)
      else if x.t3 != q.2 || (!x.t3 && x.stack != q.1) then (r.1 ++ [x], fresh, r.2.2)
      else (r.1, some { x with pages := x.pages ++ [p.1] }, r.2.2)) ([], none, 0)
  (match r.2.1 with
    | some x => r.1 ++ [x]
    | none => r.1, r.2.2)

/-- The pages of a group as the cut takes them. -/
def State.cutIn (s : State) (c : KvCtx) (a : AttnRef) (x : CEntry) (pages : List Nat) : List (Nat × Option (Nat × Bool)) :=
  pages.map (fun n =>
    let w := s.pageWord c { seq := x.seq, layer := a.layer, group := a.group, page := n }
    (n, if s.attendHere c a x n then some (s.poolStack c (pwPool w), decide (pwState w = 2)) else none))

/-- Bytes of a page's metadata record are read. -/
def State.metaTraffic (s : State) (c : KvCtx) (p : PageRef) (off n : Nat) : State :=
  match s.kvLeaf c p with
  | some (o, l) => s.hTraffic c.func c.func o false (l + 1024 + p.page % 64 * 256 + off) n
  | none => s

/-- A page list that the select network of the merge island's die completes (R150, R162); its sorted runs go with it. -/
def State.countPageList (s : State) (merge k n nans : Nat) : State :=
  let die := merge / 128
  let r : CmdRef := { func := 16, tag := 0 }
  let s1 := (s.keepRuns r merge merge k n (bits (s.rd (Reg.selectListCfg die)) 10 0)).dropRuns (fun x => x.cmd == r)
  (if nans > 0 then s1.count (Reg.selectNanCnt die) nans else s1).countList die k n

/-- The largest split of an entry (R175). -/
def State.splitMax (s : State) (d : Body) (x : CEntry) (die : Nat) : Nat :=
  let rho := min x.qlen (max 1 (32 / (adG d * adR d))) * (adG d * adR d)
  let w := s.genCfg (5 + die)
  let b := (if x.qlen = 1 then bits w 6 0 else bits w 25 16) * 1024
  max 1 (min (adSplit d) (b / (rho * 256)))

/-- The lowest unfenced own island of a stack (R168), or the next unfenced island (R185). -/
def State.ownIsland (s : State) (stack : Nat) : Nat :=
  (((List.range 16).map (fun i => stack * 16 + i) ++ (List.range 128).map (fun i => stack / 8 * 128 + i)).find?
    (fun i => !s.flt.islands.contains i)).getD (stack * 16)

/-- Adds splits to an attention and puts their tasks on dispatch queues, where they go first free (R176). The reads of the pages in T3 issue
together (R206, R284). -/
def State.addSplits (s : State) (a : AttnRef) (pages : List Nat) : State :=
  match s.cohort? a.slot with
  | none => s
  | some k =>
    match k.attn? a, k.entries[a.entry]?, s.kv? k.ctx with
    | some r, some x, some c =>
      let d := s.attnDesc a.layer
      let die := r.merge / 128
      let e := s.splitMax d x die
      let cut := cutSplits e (s.cutIn c a x pages)
      let s1 := if cut.2 > 0 ∧ e < adSplit d then s.count (Reg.attnSplitShortCnt die) cut.2 else s
      let s2 := s1.updAttn a (fun r => { r with splits := sortBy (fun (x : Split) => x.pages.headD 0) (r.splits ++ cut.1) })
      let cls := s.cohortCls k
      cut.1.foldl (fun s sp =>
        let s1 := if sp.t3 then sp.pages.foldl (fun s n =>
            s.queueSpill (pwFrame (s.pageWord c { seq := x.seq, layer := a.layer, group := a.group, page := n }))) s else s
        (List.range (blkCount d x.qlen)).foldl (fun s rb =>
          s.addRoam sp.stack sp.t3 r.merge (.split a (sp.pages.headD 0) rb) k.func (some k.ctx) cls (!sp.t3) k.cmd) s1) s2
    | _, _, _ => s

/-- Arrivals of partials at the merge island: each adds 1 to the attention's counter in that island's lagoon, by an INT32 atomic add (R180). -/
def State.landParts (s : State) (a : AttnRef) (merge n : Nat) : State :=
  if n = 0 then s
  else (s.updAttn a (fun r => { r with arrived := r.arrived + n })).count (Reg.lagoonAtomicCnt (merge / 128)) n

/-- Whether a packet belongs to an entry, layer and head group. -/
def pktBelongs (y : XPkt) (c : KvCtx) (x : CEntry) (layer group : Nat) : Bool :=
  match y.place with
  | .pageList ctx pos q _ _ | .finalList ctx pos q _ _ | .partials ctx pos q _ _ =>
    ctx == c.ctx && pos == x.pos0 && q.seq == x.seq && q.layer == layer && q.group == group
  | _ => false

/-- The partials that other devices have sent for an attention, in order of their devices. -/
def State.farParts (s : State) (c : KvCtx) (d : Body) (a : AttnRef) (x : CEntry) : List Part :=
  (sortBy (fun y => y.srcOrd) (s.kv.far.filter (fun y => pktBelongs y c x a.layer a.group))).filterMap (fun y => match y.place with
    | .partials _ _ q n row => some { first := q.page, pages := n, row := row, o := (List.range (adDh d)).map (fun i => bodyNat y.data (4 * i) 4)
                                      l := bodyNat y.data (4 * adDh d) 4, m := bodyNat y.data (4 * adDh d + 4) 4 }
    | _ => none)

/-- The splits whose partials other devices have sent in full, as (device, first page). -/
def State.farSplits (s : State) (c : KvCtx) (d : Body) (a : AttnRef) (x : CEntry) : List (Nat × Nat) :=
  let got := (s.kv.far.filter (fun y => pktBelongs y c x a.layer a.group)).filterMap (fun y => match y.place with
    | .partials _ _ q _ row => some ((y.srcOrd, q.page), row)
    | _ => none)
  ((got.map (fun e => e.1)).eraseDups).filter (fun e => (List.range (x.qlen * (adG d * adR d))).all (fun i => got.contains (e, i)))

/-- Opens the attention of an entry and layer once its queries are ready: for each head group of this device the global and window
splits start; at level 1 and above page choice has ended at once (R171, R176, R182). -/
def State.openAttn (s : State) (slot e layer : Nat) : State :=
  match s.cohort? slot with
  | none => s
  | some k =>
    match k.entries[e]?, s.kv? k.ctx with
    | some x, some c =>
      let d := s.attnDesc layer
      (List.range (adGroups d)).foldl (fun s g =>
        let first : PageRef := { seq := x.seq, layer := layer, group := g, page := x.pos0 / 64 }
        if c.layout = 1 ∧ !s.pageHere c first then s
        else
          let merge := s.ownIsland (s.poolStack c (pwPool (s.pageWord c first)))
          let a : AttnRef := { slot := slot, entry := e, layer := layer, group := g }
          let drops := decide (x.level ≥ 1) && decide (adRetr d > 0) && !(s.eligible d x).isEmpty
          let run : AttnRun :=
            { entry := e, layer := layer, group := g, chosen := decide (x.level ≥ 1), listed := false, retr := [], splits := [], parts := []
              merge := merge, arrived := 0, out := none }
          let s1 := s.updCohort slot (fun k => { k with attns := k.attns ++ [run] })
          let s2 := if drops then s1.count (Reg.attnLevel1SkipCnt (merge / 128)) else s1
          ((s2.landParts a merge (s2.farSplits c d a x).length).addSplits a (globalPages d x)).addSplits a (windowPages d x)) s
    | _, _ => s

/-! ## Unreadable and dropped pages (R183, R196, R209) -/

/-- A piece at the attention stage is complete when each of its entries has merged or has left the step. -/
def State.attnFull (s : State) (slot : Nat) : State :=
  s.updCohort slot (fun k => { k with pieces := k.pieces.map (fun p =>
    if p.st = 2 ∧ p.started ∧ p.rows.all (fun r => p.done.contains (r.1, 0) || ((k.entries[r.1]?).map (fun e => e.left)).getD true) then
      { p with full := true }
    else p) })

/-- Takes an entry out of its step: its attentions and their tasks go, and its rows carry on as zeros beside the others. -/
def State.leaveStep (s : State) (slot e : Nat) : State :=
  let s1 := s.updCohort slot (fun k => { k with
    entries := updAt e (fun x => { x with left := true }) k.entries
    attns := k.attns.filter (fun x => x.entry != e), fresh := k.fresh.filter (fun f => f.entry != e) })
  (s1.dropTasks (fun t => match t.kind with
    | .split a _ _ => a.slot == slot && a.entry == e
    | .merge a => a.slot == slot && a.entry == e
    | _ => false)).pruneReads.attnFull slot

/-- A page that an entry needs cannot be read: an unreadable list loses the sequence; a page that its mirror holds is read from there;
any other page is recomputed, and the entry leaves the step (R183, R196, R209). The mirror's answers bring the entry's split back
(`mirrorBack`). -/
def State.badPage (s : State) (c : KvCtx) (slot e : Nat) (p : PageRef) (die : Nat) : State :=
  if !s.listReadable c p then
    (s.leaveStep slot e).updEntry slot e (fun x => { x with status := Status.kvLost }) |>.count Reg.kvListErrCnt
  else
    let w := s.pageWord c p
    let s1 := if pwState w = 3 ∨ pwState w = 0 then s else s.count (Reg.attnKvUeCnt die)
    if pwMirrored w ∧ pwState w ≠ 3 ∧ pwState w ≠ 0 then
      if s.zwx.xfers.any (fun x => x.use == .mirror p) then s
      else
        s1.sendX (c.mirs.getD (c.devs.idxOf s.fix.ord) 0) c.func false (.mirror p)
          ((List.range 5).map (fun j => (.mirror c.ctx p j, List.replicate (if j < 4 then 4096 else 256) 0)))
    else ({ s1 with kv := { s1.kv with rebuild := addOnce p s1.kv.rebuild } } : State).leaveStep slot e

/-- Whether a page here holds every position below POS0 that it should, and they and the list that holds the page can be read (R183, R196). -/
def State.pageWhole (s : State) (c : KvCtx) (x : CEntry) (p : PageRef) : Bool :=
  !s.pageHere c p || decide (x.pos0 ≤ 64 * p.page) || (s.listReadable c p && decide (min 64 (x.pos0 - 64 * p.page) ≤ pwFill (s.pageWord c p)) && s.pageReadable c p)

/-- The bytes of a page list: page and score of each entry; one zero byte of an empty list. -/
def listBytes (l : List (Nat × Nat)) : List Byte := if l.isEmpty then [0] else l.flatMap (fun e => leBytes 4 e.1 ++ leBytes 4 e.2)

/-- The entries of a page list. -/
def listOf (b : List Byte) : List (Nat × Nat) := (List.range (b.length / 8)).map (fun i => (bodyNat b (8 * i) 4, bodyNat b (8 * i + 4) 4))

/-- Sends a page list to devices in parts of 4,096 bytes (R174). -/
def State.sendList (s : State) (c : KvCtx) (x : CEntry) (p : PageRef) (final : Bool) (dsts : List Nat) (l : List (Nat × Nat)) : State :=
  let b := listBytes l
  let n := cdiv b.length 4096
  s.sendAll dsts c.func .pageList ((List.range n).map (fun i =>
    (if final then .finalList c.ctx x.pos0 p i n else .pageList c.ctx x.pos0 p i n, (b.drop (4096 * i)).take 4096)))

/-- Joins the parts of a list that `pick` takes out of a packet as (part, of), once all have come. -/
def joinParts (far : List XPkt) (pick : XPkt → Option (Nat × Nat)) : Option (List (Nat × Nat)) :=
  let got := far.filterMap (fun x => (pick x).map (fun e => (e.1, e.2, x.data)))
  match got.head? with
  | none => none
  | some g => if (List.range g.2.1).all (fun i => got.any (fun e => e.1 == i)) then
      some (listOf ((List.range g.2.1).flatMap (fun i => ((got.find? (fun e => e.1 == i)).map (fun e => e.2.2)).getD []))) else none

/-- The page list that another device has sent for an entry, layer and head group. -/
def State.farList (s : State) (c : KvCtx) (x : CEntry) (p : PageRef) (dev : Nat) : Option (List (Nat × Nat)) :=
  joinParts s.kv.far (fun y => match y.place with
    | .pageList ctx pos q i n => if ctx = c.ctx ∧ pos = x.pos0 ∧ q = p ∧ y.srcOrd = dev then some (i, n) else none
    | _ => none)

/-- Removes the packets that satisfy `f` from those that other devices have sent. -/
def State.takeFar (s : State) (f : XPkt → Bool) : State := { s with kv := { s.kv with far := s.kv.far.filter (fun y => !f y) } }

/-- Adds the outputs of one token and group to a row: those of a run of this die, or the free values that another device's stand for. -/
def State.attnPart (runs : List AttnRun) (d : Body) (t : Nat) (q : List Nat × State) (g : Nat) : List Nat × State :=
  let gr := adG d * adR d
  match runs.find? (fun r => r.group == g) with
  | some r => (q.1 ++ ((((r.out.getD []).drop (t * gr)).take gr).flatten), q.2)
  | none => (q.1 ++ (List.range (gr * adDh d)).map (fun i => Config.freeBits (q.2.fresh + i) % 2 ^ 32), { q.2 with fresh := q.2.fresh + gr * adDh d })

/-- The output rows of an entry once every head group of the layer on this device has merged: the head groups of other devices come
as free values (R211). -/
def State.attnRows (s : State) (k : Cohort) (d : Body) (e layer : Nat) (x : CEntry) : List (List Nat) × State :=
  let runs := k.attns.filter (fun r => r.entry == e && r.layer == layer)
  (List.range x.qlen).foldl (fun (r : List (List Nat) × State) t =>
    let row := (List.range (adGroups d)).foldl (State.attnPart runs d t) ([], r.2)
    (r.1 ++ [row.1], row.2)) ([], s)

/-- The rows of an entry take new values in their pieces, and the entry is marked as done with the stage. -/
def State.putRows (s : State) (slot e layer : Nat) (rows : List (List Nat)) : State :=
  s.updCohort slot (fun k => { k with pieces := k.pieces.map (fun p =>
    if p.st = 2 ∧ p.layer = layer ∧ p.rows.any (fun r => r.1 == e) then
      { p with cur := p.cur.mapIdx (fun i v => match p.rows[i]? with
                 | some r => if r.1 = e then rows.getD r.2 v else v
                 | none => v)
               done := addOnce (e, 0) p.done }
    else p) })

/-- The rows of an attention. -/
def attnRowCount (d : Body) (x : CEntry) : Nat := x.qlen * (adG d * adR d)

/-- An entry, layer and head group has its output rows; with the last group of the layer here, the rows of the entry move on. -/
def State.attnOut (s : State) (a : AttnRef) (rows : List (List Nat)) : State :=
  let s1 := s.updAttn a (fun r => { r with out := some rows, parts := [] })
  match s1.cohort? a.slot with
  | none => s1
  | some k =>
    match k.entries[a.entry]? with
    | none => s1
    | some x =>
      let d := s.attnDesc a.layer
      let mine := k.attns.filter (fun y => y.entry == a.entry && y.layer == a.layer)
      (if mine.all (fun y => y.out.isSome) then
        let o := s1.attnRows k d a.entry a.layer x
        (o.2.putRows a.slot a.entry a.layer o.1).attnFull a.slot
      else s1).settleSpills

/-- Goes on with an attention whose page choice has ended and whose splits here are done: the merging device queues the merge task once the
partials of every device have come and the counter equals the number of splits (R180, R181); on any other device the attention ends, and its output rows, which the merging device
forms, are free values. -/
def State.attnCheck (s : State) (a : AttnRef) : State :=
  match s.cohort? a.slot with
  | none => s
  | some k =>
    match k.attn? a, k.entries[a.entry]?, s.kv? k.ctx with
    | some r, some x, some c =>
      let d := s.attnDesc a.layer
      let far := (s.farPages c d a x r.retr).length
      let got (row : Nat) : Nat := (((s.farParts c d a x).filter (fun p => p.row == row)).map (fun p => p.pages)).sum
      if r.out.isSome ∨ !r.chosen ∨ r.splits.any (fun sp => sp.done.length < blkCount d x.qlen) then s
      else if !s.mergesHere c x then
        let s1 := s.takeFar (fun y => pktBelongs y c x a.layer a.group)
        let n := attnRowCount d x
        ({ s1 with fresh := s.fresh + n * adDh d } : State).attnOut a
          ((List.range n).map (fun i => (List.range (adDh d)).map (fun e => Config.freeBits (s.fresh + i * adDh d + e) % 2 ^ 32)))
      else if (List.range (attnRowCount d x)).any (fun i => got i != far) || r.arrived != r.splits.length + (s.farSplits c d a x).length || s.sch.tasks.any (fun t => t.kind == .merge a) then s
      else s.addTask r.merge (.merge a) k.func (some k.ctx) (s.cohortCls k) true k.cmd
    | _, _, _ => s

/-- Page choice ends with its list: the retrieved splits are cut and start. -/
def State.choiceEnd (s : State) (a : AttnRef) (pick : List Nat) : State :=
  ((s.updAttn a (fun r => { r with chosen := true, retr := pick })).addSplits a pick).attnCheck a

/-- The device's own page choice of an entry, layer and head group counts: pages scored, its operations, the scales and summary keys it reads
(R173, R174), and the list that the select network of the merge island's die completes (R162). -/
def State.countChoice (s : State) (c : KvCtx) (k : Cohort) (d : Body) (a : AttnRef) (x : CEntry) (merge : Nat) (mine : List Nat) : State :=
  let die := merge / 128
  let sc := s.scorePages c k d a x mine
  let s1 := mine.foldl (fun s n =>
    let p : PageRef := { seq := x.seq, layer := a.layer, group := a.group, page := n }
    (s.metaTraffic c p 0 64).metaTraffic c p 128 128) ((s.count (Reg.attnRetrScoreCnt die) mine.length).tally die sc.2)
  ((s1.countPageList merge (adRetr d) mine.length (sc.1.countP (fun e => fIsNan e.2))).arrayBusy k.slot merge sc.2.cycles).measured s k.slot

/-- PAGE_CHOICE_DONE: page choice of an entry, layer and head group ends. With no more eligible pages than RETR_PAGES all are
retrieved; otherwise they are scored and the best are taken. By position each device scores its own pages and sends its list; the merging
device waits for the lists, merges them and sends the final one. A retrieved page that is dropped or cannot be read is repaired first; the
others are cut into splits (R171, R173 to R176, R183). -/
def execPageChoiceDone (a : AttnRef) (unreadable : List Nat) (s : State) : Host.Outcome State Fault Refusal :=
  .next (match s.cohort? a.slot with
  | none => s
  | some k =>
    match k.attn? a, k.entries[a.entry]?, s.kv? k.ctx with
    | some r, some x, some c =>
      if r.chosen || r.listed then s
      else
        let d := s.attnDesc a.layer
        let die := r.merge / 128
        let el := s.eligible d x
        let ref (n : Nat) : PageRef := { seq := x.seq, layer := a.layer, group := a.group, page := n }
        let mine := el.filter (fun n => s.pageHere c (ref n))
        let all := decide (el.length ≤ adRetr d)
        match if all then none else mine.find? (fun n => !s.listReadable c (ref n) || !s.metaReadable c (ref n)) with
        | some n => s.badPage c a.slot a.entry (ref n) die
        | none =>
          let sc := if all then [] else bestPages (adRetr d) (s.pageScores c k d a x mine)
          let s1 := if all then s.count (Reg.attnRetrAllCnt die) else s.countChoice c k d a x r.merge mine
          if !all && !s.mergesHere c x then
            (s1.updAttn a (fun r => { r with listed := true })).sendList c x (ref 0) false [s.mergeDev c x] sc
          else
            let far := if all then [] else (s.others c).map (s.farList c x (ref 0))
            if c.layout = 2 ∧ far.any (fun l => l.isNone) then s
            else
              let best := if c.layout = 2 then bestPages (adRetr d) (sc ++ (far.filterMap id).flatten) else sc
              let pick := if all then el else sortBy id (best.map (fun e => e.1))
              match pick.find? (fun n => s.pageHere c (ref n) && (unreadable.contains n || pwState (s.pageWord c (ref n)) == 3 ||
                  (pwState (s.pageWord c (ref n)) != 2 && !s.pageReadable c (ref n)))) with
              | some n => s.badPage c a.slot a.entry (ref n) die
              | none =>
                let s2 := if all || c.layout ≠ 2 then s1
                  else (s1.takeFar (fun y => pktBelongs y c x a.layer a.group && (match y.place with
                      | .pageList _ _ _ _ _ => true
                      | _ => false))).sendList c x (ref 0) true (s.others c) best
                s2.choiceEnd a pick
    | _, _, _ => s)

/-! ## The partial (R177, R178) -/

/-- The partial of one row, and whether its scores include a NaN. -/
structure RowPart where
  o : List Nat
  l : Nat
  m : Nat
  nan : Bool
  deriving DecidableEq, Repr

/-- The largest of a list of scores; −∞ of none. -/
def maxScore (vs : List Nat) : Nat := vs.foldl (fun m v => if fLt m v then v else m) 0xFF800000

/-- The sum of a key block's 32 values in the order of R53. -/
def blockSum (vs : List Nat) : Nat :=
  (laneTree (fun a b g => (fAdd a b, g)) ((List.range 64).map (fun i => if i < 32 then vs.getD i 0 else 0)) []).headD 0

/-- Whether a query row makes its scores NaN (R178). -/
def badQuery (q : List Nat) : Bool := q.any (fun w => fIsNan w || fIsInf w)

/-- The key blocks of a split that some row of the task attends to, as the first positions of their 32. -/
def liveBlocks (d : Body) (retr : List Nat) (pages : List Nat) (qs : List Nat) : List Nat :=
  (pages.flatMap (fun n => [64 * n, 64 * n + 32])).filter (fun t0 =>
    (List.range 32).any (fun i => qs.any (fun q => attends d retr q (t0 + i))))

/-- The rows of a task: (token, key-value head of the group, query head), in the order of R168. -/
def taskRows (d : Body) (qlen rb : Nat) : List (Nat × Nat × Nat) :=
  (blkTokens d qlen rb).flatMap (fun t => (List.range (adG d)).flatMap (fun h => (List.range (adR d)).map (fun j => (t, h, j))))

/-- The masked scores of a task (R177 steps 1 to 3): for each row, the 32 scores of each live key block; and what its operations and the
quantisation of its queries count. -/
def State.taskScores (s : State) (c : KvCtx) (k : Cohort) (d : Body) (a : AttnRef) (x : CEntry) (retr : List Nat) (seed : Nat)
    (rows : List (Nat × Nat × Nat)) (blocks : List Nat) (q : Nat → Nat → Nat → List Nat) : List (List (List Nat)) × Tally :=
  let dh := adDh d
  let toks := (rows.map (fun r => r.1)).eraseDups
  let tile (t0 h : Nat) : List Nat × Tally :=
    let ks := (List.range 32).map (fun i => ((s.posData c k d a x (t0 + i)).map (fun p => p.1)).getD [])
    let qs := toks.flatMap (fun t => (List.range (adR d)).map (fun j => encVec 127 (q t h j)))
    let op := seqOp .int8 (kvFmt (adInt4 d)) .e4m3 .none .acc32 qs.length 32 dh seed
    let m : MatIn :=
      { a := fun r e => Fv.ofInt ((qs.getD r ([], [], 0)).1.getD e 0)
        b := fun e n => Fv.ofInt ((ks.getD n []).getD (h * dh + e) 0)
        sj := fun r _ j => e4m3Fmt.decode ((qs.getD r ([], [], 0)).2.1.getD j 0) }
    m.run op tileZero
  let tiles := blocks.map (fun t0 => (List.range (adG d)).map (tile t0))
  (rows.map (fun r =>
    let qr := toks.idxOf r.1 * adR d + r.2.2
    let bad := badQuery (q r.1 r.2.1 r.2.2)
    blocks.zipIdx.map (fun b => (List.range 32).map (fun i =>
      let t := b.1 + i
      if !attends d retr (x.pos0 + r.1) t then 0xFF800000
      else match s.posData c k d a x t with
        | none => 0xFF800000
        | some p => if bad then 0x7FC00000
          else fMul (fMul (((tiles.getD b.2 []).getD r.2.1 ([], Tally.zero)).1.getD (qr * 32 + i) 0) (scaleF32 p.2.2.1)) (adTau d)))),
    (tallySum (tiles.flatten.map (fun t => t.2))).add (nanTally (rows.flatMap (fun r => q r.1 r.2.1 r.2.2))))

/-- The partials of the rows of a task (R177 steps 4 to 9, R178), and what its operations count. The probabilities of a row with a NaN are
not formed (DESIGN CHOICE, log entry 71: R178 gives its results). -/
def State.taskParts (s : State) (c : KvCtx) (k : Cohort) (d : Body) (a : AttnRef) (x : CEntry) (seed : Nat)
    (rows : List (Nat × Nat × Nat)) (blocks : List Nat) (sc : List (List (List Nat))) : List RowPart × Tally :=
  let dh := adDh d
  let stat := sc.map (fun bs =>
    let all := bs.flatten
    let m := maxScore all
    let nan := all.any fIsNan
    let es := bs.map (fun b => b.map (fun v => if v = 0xFF800000 then 0 else fExp (fSub v m)))
    let l := es.foldl (fun l b => fAdd l (blockSum b)) 0
    (m, nan, l, es))
  let vsc (t : Nat) : Nat := match s.posData c k d a x t with
    | some p => scaleF32 p.2.2.2
    | none => 0
  let enc (i : Nat) : List (List Int × Nat × Bool) :=
    let st := stat.getD i (0, false, 0, [])
    let inv := fRecip st.2.2.1
    st.2.2.2.zipIdx.map (fun b => encBlock 127 (b.1.zipIdx.map (fun e => fMul (fMul e.1 inv) (vsc (blocks.getD b.2 0 + e.2)))))
  let encs := (List.range rows.length).map enc
  let col (h cb : Nat) : List Nat × Tally :=
    let mine := (List.range rows.length).filter (fun i => (rows.getD i (0, 0, 0)).2.1 == h)
    (List.range blocks.length).foldl (fun t bi =>
      let vs := (List.range 32).map (fun i => ((s.posData c k d a x (blocks.getD bi 0 + i)).map (fun p => p.2.1)).getD [])
      let op := seqOp .int8 (kvFmt (adInt4 d)) .e4m3 .none .acc32 mine.length 32 32 seed
      let m : MatIn :=
        { a := fun r e => Fv.ofInt ((((encs.getD (mine.getD r 0) []).getD bi ([], 0, false)).1).getD e 0)
          b := fun e n => Fv.ofInt ((vs.getD e []).getD (h * dh + cb * 32 + n) 0)
          sj := fun r _ _ => e4m3Fmt.decode ((encs.getD (mine.getD r 0) []).getD bi ([], 0, false)).2.1 }
      let o := m.run op t.1
      (o.1, t.2.add o.2)) (tileZero, Tally.zero)
  let tiles := (List.range (adG d)).map (fun h => (List.range (dh / 32)).map (col h))
  (rows.zipIdx.map (fun r =>
    let st := stat.getD r.2 (0xFF800000, false, 0, [])
    let mine := ((List.range rows.length).filter (fun i => (rows.getD i (0, 0, 0)).2.1 == r.1.2.1))
    if st.2.1 then { o := List.replicate dh 0x7FC00000, l := 0x7FC00000, m := 0x7FC00000, nan := true }
    else if st.1 = 0xFF800000 then { o := List.replicate dh 0, l := 0, m := 0xFF800000, nan := false }
    else { o := (List.range dh).map (fun e => ((tiles.getD r.1.2.1 []).getD (e / 32) ([], Tally.zero)).1.getD (mine.idxOf r.2 * 32 + e % 32) 0)
           l := st.2.2.1, m := st.1, nan := false }), tallySum (tiles.flatten.map (fun t => t.2)))

/-- How the key blocks of a split count for a task: those skipped as wholly masked, and those compared position by position (R172). -/
def blockCounts (d : Body) (retr : List Nat) (pages : List Nat) (qs : List Nat) (written : Nat → Bool) : Nat × Nat :=
  let all := pages.flatMap (fun n => [64 * n, 64 * n + 32])
  let live := liveBlocks d retr pages qs
  (all.length - live.length, (live.filter (fun t0 => (List.range 32).any (fun i =>
    qs.any (fun q => !attends d retr q (t0 + i)) || !written (t0 + i)))).length)

/-- The score buffer of an attention task in the lagoon, in bytes (R175, R176): that of a prefill task; a decode task keeps its scores in
islet memory. -/
def State.scoreBytes (s : State) (t : Task) : Nat :=
  match t.kind with
  | .split a n _ => (match (s.cohort? a.slot).bind (fun k => k.attn? a), (s.cohort? a.slot).bind (fun k => k.entries[a.entry]?) with
    | some r, some x =>
      let d := s.attnDesc a.layer
      let pages := ((r.splits.find? (fun sp => sp.pages.headD 0 == n)).map (fun sp => sp.pages.length)).getD 0
      if x.qlen = 1 then 0 else min x.qlen (max 1 (32 / (adG d * adR d))) * (adG d * adR d) * 256 * pages
    | _, _ => 0)
  | _ => 0

/-- Ends a task that runs: its islet time is charged and it leaves its queue. -/
def State.taskOver (s : State) (t : Task) : State :=
  let s1 := s.chargeRun t false
  { s1 with sch := { s1.sch with tasks := s1.sch.tasks.filter (fun x => x.id != t.id) } }

/-- What a task counts: rows with a NaN, key blocks skipped and compared (R172, R178), and its operations. -/
structure BlockCount where
  nanRows : Nat
  skip : Nat
  mask : Nat
  ops : Tally
  deriving DecidableEq, Repr

/-- The rows of a task, its partials, and what it counts (R172, R177). -/
def State.blockParts (s : State) (c : KvCtx) (k : Cohort) (d : Body) (a : AttnRef) (x : CEntry) (retr pages : List Nat) (rb : Nat) :
    List Part × BlockCount :=
  let first := pages.headD 0
  let rows := taskRows d x.qlen rb
  let qs := ((rows.map (fun e => e.1)).eraseDups).map (fun t => x.pos0 + t)
  let blocks := liveBlocks d retr pages qs
  let seed := opSeed (s.ctxSeed k.ctx) (attnTask a.layer a.group first) x.seq rb
  let sc := s.taskScores c k d a x retr seed rows blocks (fun t h j => k.qHead d a.entry t a.group h j)
  let ps := s.taskParts c k d a x seed rows blocks sc.1
  let base := ((rows.headD (0, 0, 0)).1) * (adG d * adR d)
  let bc := blockCounts d retr pages qs (fun t => (s.posData c k d a x t).isSome)
  (ps.1.zipIdx.map (fun p => ({ first := first, pages := pages.length, row := base + p.2, o := p.1.o, l := p.1.l, m := p.1.m } : Part)),
    { nanRows := (ps.1.filter (fun p => p.nan)).length, skip := bc.1, mask := bc.2, ops := sc.2.add ps.2 })

/-- The bytes that a task reads (R176): the codes of its key blocks that lie in T2, and their scales. -/
def State.splitTraffic (s : State) (c : KvCtx) (d : Body) (a : AttnRef) (x : CEntry) (retr pages : List Nat) (rb : Nat) : State :=
  let qs := (blkTokens d x.qlen rb).map (fun t => x.pos0 + t)
  (liveBlocks d retr pages qs).foldl (fun s t0 =>
    let p : PageRef := { seq := x.seq, layer := a.layer, group := a.group, page := t0 / 64 }
    let w := s.pageWord c p
    let i := t0 % 64
    let codes (s : State) (off : Nat) : State := s.hTraffic c.func c.func (c.pools.getD (pwPool w) (0, 0)).1 false (pwFrame w * 16384 + off + 128 * i) 4096
    let s1 := if pwState w = 1 then codes (codes s 0) 8192 else s
    if pwState w = 1 ∨ pwState w = 2 then (s1.metaTraffic c p i 32).metaTraffic c p (64 + i) 32 else s1) s

/-- Counts what a task has done. -/
def State.countBlocks (s : State) (die : Nat) (n : BlockCount) : State :=
  let add (s : State) (r : Nat) (n : Nat) : State := if n > 0 then s.count r n else s
  (add (add (add s (Reg.attnNanRowCnt die) n.nanRows) (Reg.attnBlockSkipCnt die) n.skip) (Reg.attnBlockMaskCnt die) n.mask).tally die n.ops

/-- The mirror's answers for a page have all come: the tasks that wait for it are ready (R183). -/
def State.mirrorBack (s : State) (p : PageRef) : State :=
  if s.zwx.xfers.any (fun o => !o.write && o.use == .mirror p) then s
  else
    let waits (t : Task) : Bool := match t.kind with
      | .split a n _ => a.layer == p.layer && a.group == p.group && (match s.cohort? a.slot with
        | some k => ((k.entries[a.entry]?).map (fun x => x.seq == p.seq)).getD false &&
            ((k.attn? a).map (fun r => r.splits.any (fun sp => sp.pages.headD 0 == n && sp.pages.contains p.page &&
              (!sp.t3 || sp.landed.length == sp.pages.length)))).getD false
        | none => false)
      | _ => false
    { s with sch := { s.sch with tasks := s.sch.tasks.map (fun t => if waits t then { t with ready := true } else t) } }

/-- Publishes the partials of a split's row block: they are written to the merge island, and each split that is complete adds 1 to its
counter (R177, R180); by position they go to the merging device (R181). `island` is where its task ran. -/
def State.splitDone (s : State) (island : Nat) (a : AttnRef) (first rb : Nat) : State :=
  match s.cohort? a.slot with
  | none => s
  | some k =>
    match k.attn? a, k.entries[a.entry]?, s.kv? k.ctx with
    | some r, some x, some c =>
      match r.splits.find? (fun sp => sp.pages.headD 0 == first) with
      | none => s
      | some sp =>
        let d := s.attnDesc a.layer
        let die := if sp.t3 then r.merge / 128 else sp.stack / 8
        let ref (n : Nat) : PageRef := { seq := x.seq, layer := a.layer, group := a.group, page := n }
        if sp.done.contains rb then s
        else
          let b := s.blockParts c k d a x r.retr sp.pages rb
          let whole := decide (sp.done.length + 1 = blkCount d x.qlen)
          let s0 := (s.splitTraffic c d a x r.retr sp.pages rb).landParts a r.merge (b2n (whole && s.mergesHere c x))
          let s1 := (s0.updAttn a (fun r => { r with
            parts := if s.mergesHere c x then r.parts ++ b.1 else r.parts
            splits := updWhere (fun y => y.pages.headD 0 == first) (fun y => { y with done := y.done ++ [rb] }) r.splits })).countBlocks die b.2
          let s2 := if b.2.nanRows > 0 then s1.updEntry a.slot a.entry (fun e => { e with nan := true }) else s1
          let s3 := if s.mergesHere c x then s2
            else s2.sendX (s.mergeDev c x) c.func true .partialUp (b.1.map (fun p => (.partials c.ctx x.pos0 (ref first)
              (sp.pages.filter (fun n => s.pageHere c (ref n))).length p.row, (p.o ++ [p.l, p.m]).flatMap (leBytes 4))))
          (((if whole then s3.count (Reg.attnSplitsCnt die) else s3).arrayBusy a.slot island b.2.ops.cycles).measured s a.slot).attnCheck a
    | _, _, _ => s

/-- The first page of a split that a row block of it would read and that is not whole, or cannot be read; with what `badPage` needs. -/
def State.splitGap (s : State) (a : AttnRef) (first rb : Nat) : Option (KvCtx × PageRef × Nat) :=
  (s.cohort? a.slot).bind (fun k => match k.attn? a, k.entries[a.entry]?, s.kv? k.ctx with
    | some r, some x, some c =>
      (r.splits.find? (fun sp => sp.pages.headD 0 == first && !sp.done.contains rb)).bind (fun sp =>
        (sp.pages.find? (fun n => !s.pageWhole c x { seq := x.seq, layer := a.layer, group := a.group, page := n })).map (fun n =>
          (c, { seq := x.seq, layer := a.layer, group := a.group, page := n }, if sp.t3 then r.merge / 128 else sp.stack / 8)))
    | _, _, _ => none)

/-- The end of a split's task: it publishes its partials, or, where a page that it reads is not there, it yields its islet until the page has
been brought back, or leaves with its entry (R177, R183, R271). -/
def State.endSplit (s : State) (t : Task) (a : AttnRef) (first rb : Nat) : State :=
  match s.splitGap a first rb with
  | some g => (s.yieldTask t false).badPage g.1 a.slot a.entry g.2.1 g.2.2
  | none => (s.taskOver t).splitDone t.island a first rb

/-- The running task of a kind. -/
def State.runningTask (s : State) (k : TaskKind) : Option Task :=
  s.sch.tasks.find? (fun t => t.kind == k && t.islet.isSome && !t.killing)

/-- ATTN_SPLIT_DONE: the running task of a split and a row block ends and publishes its partials, or yields (R177, R180, R271). `split` is the
split's first page. -/
def execAttnSplitDone (a : AttnRef) (split rowBlock : Nat) (s : State) : Host.Outcome State Fault Refusal :=
  .next (match s.runningTask (.split a split rowBlock) with
  | none => s
  | some t => s.endSplit t a split rowBlock)

/-! ## The merge (R180, R186) -/

/-- The merged row of the partials in split order, with its m and L. -/
def mergeParts (dh : Nat) (ps : List Part) : List Nat × Nat × Nat :=
  if ps.any (fun p => fIsNan p.m) then (List.replicate dh 0x7FC00000, 0x7FC00000, 0x7FC00000)
  else
    let m := maxScore (ps.map (fun p => p.m))
    let w := ps.map (fun p => if p.m = 0xFF800000 then 0 else fMul p.l (fExp (fSub p.m m)))
    let sum := w.foldl fAdd 0
    let inv := fRecip sum
    ((List.range dh).map (fun e => fMul ((ps.zip w).foldl (fun a q => fFma q.2 (q.1.o.getD e 0) a) 0) inv), m, sum)

/-- The statistics block offsets of R232: where the block of a layer starts in the statistics object. -/
def State.statsBase (s : State) (rows entries layer : Nat) : Nat :=
  ((List.range layer).map (fun l =>
    let d := s.attnDesc l
    if adSave d then roundUp (rows * adQHeads d * 8 + entries * adGroups d * adRetr d * 4) 64 else 0)).sum

/-- Writes the saved statistics of a merged group (R186, R232). -/
def State.saveStats (s : State) (k : Cohort) (d : Body) (a : AttnRef) (x : CEntry) (r : AttnRun) (ms : List (List Nat × Nat × Nat)) : State :=
  match k.cmd.bind s.live? with
  | none => s
  | some l =>
    let h := fld l.body 191 160
    if h = 0 ∨ !adSave d then s
    else
      let rows := (k.entries.map (fun e => e.qlen)).sum
      let base := s.statsBase rows k.entries.length a.layer
      let gr := adG d * adR d
      let s1 := ms.zipIdx.foldl (fun s m =>
        s.hPut k.func h (base + ((x.rowBase + m.2 / gr) * adQHeads d + a.group * gr + m.2 % gr) * 8) (leBytes 4 m.1.2.1 ++ leBytes 4 m.1.2.2)) s
      let lst := (r.retr ++ List.replicate (adRetr d - r.retr.length) 0xFFFFFFFF).flatMap (leBytes 4)
      s1.hPut k.func h (base + rows * adQHeads d * 8 + (a.entry * adGroups d + a.group) * adRetr d * 4) lst

/-- The merge of an attention: the partials in split order give the output rows, across devices in ascending order of first page (R180,
R181). Partials of one first page come in the order this device, then the others (DESIGN CHOICE, log entry 71). -/
def State.mergeDone (s : State) (a : AttnRef) : State :=
  match s.cohort? a.slot with
  | none => s
  | some k =>
    match k.attn? a, k.entries[a.entry]?, s.kv? k.ctx with
    | some r, some x, some c =>
      let d := s.attnDesc a.layer
      let all := sortBy (fun p => p.first) (r.parts ++ s.farParts c d a x)
      let ms := (List.range (attnRowCount d x)).map (fun i => mergeParts (adDh d) (all.filter (fun p => p.row == i)))
      let s1 := (s.takeFar (fun y => pktBelongs y c x a.layer a.group)).count (Reg.attnMergeCnt (r.merge / 128))
      ((s1.saveStats k d a x r ms).measured s a.slot).attnOut a (ms.map (fun m => m.1))
    | _, _, _ => s

/-- ATTN_MERGE: the running merge task of an attention ends; it began when page choice had ended and every split had arrived (R180,
R181). -/
def execAttnMerge (a : AttnRef) (s : State) : Host.Outcome State Fault Refusal :=
  .next (match s.runningTask (.merge a) with
  | none => s
  | some t => (s.taskOver t).mergeDone a)

/-! ## The append (R165, R166, R168, R191, R212) -/

/-- Quantises a key or value row (R165). -/
def quantRow (int4 : Bool) (v : List Nat) : List Int × Nat × Bool := encBlock (kvQ int4) v

/-- The page's 64 key rows and scales. -/
def State.keyRows (s : State) (c : KvCtx) (d : Body) (p : PageRef) : List (List Int × Nat) :=
  (List.range 64).map (fun i => (unpackCodes (adInt4 d) (adG d * adDh d) (s.codeBytes c p (128 * i) 128), leNat (s.metaBytes c p i 1)))

/-- Writes a page's summary key (R166). -/
def State.putSummary (s : State) (c : KvCtx) (d : Body) (p : PageRef) : State :=
  s.putMeta c p 128 (packKv (adInt4 d) (summaryKey (adInt4 d) (adG d * adDh d) (s.keyRows c d p)))

/-- Copies a full page to its mirror device, with the token-log positions it covers (R212): six XWRITEs, whose answers come as XACK and
MIRROR_ACK. -/
def State.mirrorCopy (s : State) (c : KvCtx) (p : PageRef) : State :=
  if !c.mirror then s
  else
    let toks := match s.seq? p.seq with
      | some q => s.hBytes c.func (fld q.body 191 160) (256 * p.page) 256
      | none => []
    let parts := ((List.range 4).map (fun j => s.codeBytes c p (4096 * j) 4096)) ++ [s.metaBytes c p 0 256, toks]
    ({ s with kv := { s.kv with mirroring := s.kv.mirroring ++ [p] } } : State).sendX (c.mirs.getD (c.devs.idxOf s.fix.ord) 0) c.func true (.mirror p)
      (parts.mapIdx (fun j b => (.mirror c.ctx p j, b)))

/-- Writes position `i` of a page: codes and scales. The 64th position completes the page: its summary key is written, it joins the age
queue and is copied to its mirror. -/
def State.putPos (s : State) (c : KvCtx) (p : PageRef) (i : Nat) (kc vc : List Byte) (ks vs : Byte) : State :=
  let w := s.pageWord c p
  if pwState w ≠ 1 then s
  else
    let s1 := (s.putFrame c (pwPool w) (pwFrame w) (128 * i) kc).putFrame c (pwPool w) (pwFrame w) (8192 + 128 * i) vc
    let s2 := (s1.putMeta c p i [ks]).putMeta c p (64 + i) [vs]
    if pwFill w ≥ i + 1 then s2
    else
      let s3 := s2.setPage c p (fun w => setBits w 48 42 (i + 1))
      if i = 63 then ((s3.putSummary c (s.attnDesc p.layer) p).ageAdd c.ctx p).mirrorCopy c p else s3

/-- Appends one fresh row to its page (R168); by position the merging device sends it to the device of its page (R211). -/
def State.appendRow (s : State) (ctx : Nat) (d : Body) (x : CEntry) (f : Fresh) : State :=
  match s.kv? ctx with
  | none => s
  | some c =>
    let t := x.pos0 + f.row
    let p : PageRef := { seq := x.seq, layer := f.layer, group := f.group, page := t / 64 }
    let kc := packKv (adInt4 d) f.kc
    let vc := packKv (adInt4 d) f.vc
    let sc : Byte × Byte := (BitVec.ofNat 8 f.ks, BitVec.ofNat 8 f.vs)
    if !s.mergesHere c x then s
    else if s.pageHere c p then s.putPos c p (t % 64) kc vc sc.1 sc.2
    else if c.layout ≠ 2 then s
    else s.sendX (c.devs.getD (p.page / max 1 c.span % c.devs.length) 0) c.func true .other [(.fresh ctx t p, kc ++ vc ++ [sc.1, sc.2])]

/-- The mirror of a page has taken its copy, or has refused it or cannot be reached (R212). -/
def State.mirrorEnd (s : State) (p : PageRef) (ok : Bool) : State :=
  if !s.kv.mirroring.contains p then s
  else
    let s1 : State := { s with
      kv := { s.kv with mirroring := s.kv.mirroring.filter (fun x => x != p) }
      zwx := { s.zwx with xfers := s.zwx.xfers.filter (fun x => !(x.write && x.use == .mirror p)) } }
    let s2 := match (s1.seq? p.seq).bind (fun q => s1.kv? q.ctx) with
      | some c => if ok then s1.setPage c p (fun w => setBits w 51 51 1) else s1
      | none => s1
    (if ok then s2.count Reg.kvMirrorCnt else s2.count Reg.kvMirrorFailCnt).settleSpills

/-- MIRROR_ACK: the mirror has taken a page's copy, and MIRRORED is set, or has refused it (R212). -/
def execMirrorAck (p : PageRef) (ok : Bool) (s : State) : Host.Outcome State Fault Refusal := .next (s.mirrorEnd p ok)

/-! ## Backward recomputation (R187) -/

/-- The outputs of a backward recomputation for an entry and head group: dQ of each row and query head, then dK and dV per attended position
(R187 steps 1 to 7), and what the operations count. Row `i` of the group is token `i / (G × r)`, head `i mod (G × r)`. -/
def State.bwdGroup (s : State) (c : KvCtx) (r : BwdReq) (e : BwdEntry) (g : Nat) (retr : List Nat) : List (List Nat) × List Byte × Tally :=
  let d := s.attnDesc r.layer
  let gr := adG d * adR d
  let dh := adDh d
  let x : CEntry := { seq := e.seq, qlen := e.qlen, pos0 := e.pos0, rowBase := e.rowBase, level := 0, status := 0, die := 0, token := none, nan := false,
                      doneAt := 0, left := false }
  let a : AttnRef := { slot := 2, entry := 0, layer := r.layer, group := g }
  let k : Cohort := { slot := 2, chan := 0, flow := none, func := r.func, ctx := c.ctx, cmd := none, no := 0, opened := 0, entries := [x],
                      pieces := [], fresh := [], attns := [], wins := [], busy := 0, bytes := 0, ops := 0 }
  let pages := sortBy id ((globalPages d x ++ retr ++ windowPages d x).eraseDups)
  let first : PageRef := { seq := e.seq, layer := r.layer, group := g, page := e.pos0 / 64 }
  let mx := s.splitMax d x ((s.poolStack c (pwPool (s.pageWord c first))) / 8)
  let splits := ([globalPages d x, retr, windowPages d x].map (fun ps => (cutSplits mx (s.cutIn c a x ps)).1)).flatten
  let at_ (m : List (List Word)) (row n : Nat) : Nat := ((m.getD (e.rowBase + row / gr) []).getD n 0).toNat
  let vec (m : List (List Word)) (row i : Nat) : Nat := at_ m row ((g * gr + row % gr) * dh + i)
  let q (t h j : Nat) : List Nat := (List.range dh).map (vec r.q (t * gr + h * adR d + j))
  let blocksOf (sp : Split) (rb : Nat) : List Nat :=
    liveBlocks d retr sp.pages ((((taskRows d e.qlen rb).map (fun e => e.1)).eraseDups).map (fun t => e.pos0 + t))
  let scores (sp : Split) (rb : Nat) : List (List (List Nat)) × Tally :=
    s.taskScores c k d a x retr (opSeed (s.ctxSeed c.ctx) (attnTask r.layer g (sp.pages.headD 0)) e.seq rb) (taskRows d e.qlen rb) (blocksOf sp rb) q
  let scoreOf (row t : Nat) : Option Nat :=
    match splits.find? (fun sp => sp.pages.contains (t / 64)) with
    | none => none
    | some sp =>
      let rb := row / gr / max 1 (32 / gr)
      let rows := taskRows d e.qlen rb
      let blocks := blocksOf sp rb
      let sc := (scores sp rb).1
      let i := row - (rows.headD (0, 0, 0)).1 * gr
      (blocks.idxOf? (t / 32 * 32)).map (fun b => ((sc.getD i []).getD b []).getD (t % 32) 0xFF800000)
  let ts := (pages.flatMap (fun n => (List.range 64).map (fun i => 64 * n + i))).filter (fun t =>
    (List.range e.qlen).any (fun i => attends d retr (e.pos0 + i) t) && (s.posData c k d a x t).isSome)
  let head (row : Nat) : Nat := row % gr / adR d
  let kv (t h : Nat) (val : Bool) (i : Nat) : Nat := match s.posData c k d a x t with
    | some p => if val then fMul (scaleF32 p.2.2.2) (fOfInt (p.2.1.getD (h * dh + i) 0))
      else fMul (scaleF32 p.2.2.1) (fOfInt (p.1.getD (h * dh + i) 0))
    | none => 0
  let rows := List.range (e.qlen * gr)
  let dD (row : Nat) : Nat := laneSum dh (fun i acc => fFma (vec r.dO row i) (vec r.o row i) acc)
  let pr (row t : Nat) : Nat := match scoreOf row t with
    | some v => if v = 0xFF800000 then 0 else fMul (fExp (fSub v (at_ r.m row (g * gr + row % gr)))) (fRecip (at_ r.l row (g * gr + row % gr)))
    | none => 0
  let dP (row t : Nat) : Nat := laneSum dh (fun i acc => fFma (vec r.dO row i) (kv t (head row) true i) acc)
  let seen (row t : Nat) : Bool := attends d retr (e.pos0 + row / gr) t
  let dS (row t : Nat) : Nat := fMul (pr row t) (fSub (dP row t) (dD row))
  let dQ := rows.map (fun row => (List.range dh).map (fun i =>
    fMul (adTau d) ((ts.filter (seen row)).foldl (fun acc t => fAdd acc (fMul (dS row t) (kv t (head row) false i))) 0)))
  let per (f : Nat → Nat → Nat → Nat) : List Byte := ts.flatMap (fun t => (List.range (adG d)).flatMap (fun h => (List.range dh).flatMap (fun i =>
    leBytes 4 (f t h i))))
  let acr (t h : Nat) (f : Nat → Nat) : Nat := (rows.filter (fun row => head row == h && seen row t)).foldl (fun acc row => fAdd acc (f row)) 0
  (dQ, per (fun t h i => fMul (adTau d) (acr t h (fun row => fMul (dS row t) (vec r.q row i)))) ++
    per (fun t h i => acr t h (fun row => fMul (pr row t) (vec r.dO row i))),
    tallySum (splits.flatMap (fun sp => (List.range (blkCount d e.qlen)).map (fun rb => (scores sp rb).2))))

/-- ATTN_BACKWARD: a stage run over a ragged length table recomputes the scores from the saved statistics and page lists, and writes to the
output object, in FP32, dQ of the step's rows, then dK and dV of each entry and head group in the order of the table, per attended position
in ascending position (R187; the places of the outputs are a DESIGN CHOICE, log entry 71). It counts once, on the die of the first entry. -/
def State.onAttnBackward (s : State) (r : BwdReq) : State :=
  match (r.table.head?).bind (fun e => (s.seq? e.seq).bind (fun q => s.kv? q.ctx)) with
  | none => s
  | some c =>
    if c.func ≠ r.func ∨ s.gen.model.st ≠ 2 ∨ r.layer ≥ s.mLayers ∨ r.table.any (fun e => (s.seq? e.seq).map (fun q => q.ctx) != some c.ctx) then s
    else
      let d := s.attnDesc r.layer
      let gr := adG d * adR d
      let gs := (List.range (adGroups d)).filter (fun g => s.pageHere c { seq := 0, layer := r.layer, group := g, page := 0 } || c.layout == 2)
      let out := r.table.zipIdx.map (fun e => gs.map (fun g => s.bwdGroup c r e.1 g (r.pages.getD (e.2 * adGroups d + g) [])))
      let dQ := r.table.zipIdx.flatMap (fun e => (List.range e.1.qlen).map (fun i =>
        (e.1.rowBase + i, (out.getD e.2 []).flatMap (fun o => ((o.1.drop (i * gr)).take gr).flatten))))
      let b := (sortBy (fun x => x.1) dQ).flatMap (fun x => x.2.flatMap (leBytes 4))
      let e0 := r.table.headD { seq := 0, qlen := 1, pos0 := 0, rowBase := 0 }
      let die := (s.poolStack c (pwPool (s.pageWord c { seq := e0.seq, layer := r.layer, group := 0, page := e0.pos0 / 64 }))) / 8
      ((s.hPut r.func r.outObj 0 (b ++ (out.flatten.map (fun o => o.2.1)).flatten)).count (Reg.attnBwdCnt die)).tally die
        (tallySum (out.flatten.map (fun o => o.2.2)))

/-- ATTN_BACKWARD as a command. -/
def execAttnBackward (r : BwdReq) (s : State) : Host.Outcome State Fault Refusal := .next (s.onAttnBackward r)

end Sys2Proof.Machine
end

