-- ==== Sys2Proof/Machine/Index.lean ====
section
/-! DEFINITION. INDEX_LOAD, INDEX_SAVE, INDEX_UNLOAD and INDEX_COMPACT (R63 to R90, R135). -/

namespace Sys2Proof.Machine

/-- No body check: the command checks itself when it runs. -/
def noCheck : BodyCheck := fun _ _ _ => none

/-- Removes an index with its centroid share, banks and records (R89, R320 step 4). -/
def State.dropIndex (s : State) (n : Nat) : State :=
  let s1 := s.dropShare (.index n)
  { s1 with idx := { s1.idx with
    indexes := s1.idx.indexes.filter (fun x => x.no != n)
    shoals := s1.idx.shoals.filter (fun x => x.idx != n)
    filts := s1.idx.filts.filter (fun x => x.idx != n)
    banks := s1.idx.banks.filter (fun x => x.idx != n)
    queries := s1.idx.queries.filter (fun x => x.idx != n)
    staged := s1.idx.staged.filter (fun x => x.idx != n)
    passes := s1.idx.passes.filter (fun x => x.idx != n) } }

/-- Completes a failed load, which records it (R87), with the TYPE of the image section that failed (R90 Table 11). -/
def State.loadFail (s : State) (r : CmdRef) (status sec : Nat) : State :=
  let s1 := s.complete r status []
  s1.wr Reg.indexLoadErrLog (setBits (s1.rd Reg.indexLoadErrLog) 23 16 sec)

/-- The units of a centroid share on each island of its die (R70, R97). -/
def Index.centUnits (x : Index) : Nat :=
  cdiv (cdiv x.nShoals 128 * (x.dims * 33 / 32 + (if x.metric = 0 then 0 else 4))) 16384

/-- Whether an object that the function owns lies in a tier and holds at least `n` bytes. R65 refuses one 'of the wrong size': one that is
too small for what R63 puts into it. A larger one is taken, since ALLOC gives whole granules and units (DESIGN CHOICE, log entry 80). -/
def State.objFits (s : State) (f h n : Nat) (t3 : Bool) : Bool :=
  match s.obj? f h with
  | some o => o.func == f && o.inT2 != t3 && decide (n ≤ o.size)
  | none => false

/-- The field ranges of R65 Table 2. Reserved bits are ignored (R10). -/
def Index.rangesOk (x : Index) : Bool :=
  let d := x.desc
  fld d 15 8 == 1 && decide (1 ≤ fld d 23 16) && decide (fld d 23 16 ≤ 128) && decide (x.codeFmt < 2) &&
  decide (x.vecFmt < 3) && decide (x.metric < 3) && decide (4096 ≤ x.slotCap) &&
  decide (x.slotCap ≤ 2 ^ 34) && x.slotCap % 4096 == 0 && decide (1 ≤ x.probeDef) && decide (x.probeDef ≤ x.probeMax) && decide (x.probeMax ≤ x.nShoals) &&
  decide (x.probeMax ≤ 2 ^ 20) && decide (x.rerankDepth ≤ 4096)

/-- The objects that a descriptor names, with the bytes and the tier each needs (R63, R86). -/
def State.descObjsOk (s : State) (x : Index) : Bool :=
  let f := x.func
  s.objFits f x.hTab (32 * x.nShoals) false && s.objFits f x.hCent (x.nShoals * x.dims * 4) false &&
  s.objFits f x.hMap (8 * x.slotCap) false && s.objFits f x.hDir (4096 * 2 ^ x.dirExp) (fld x.desc 31 31 == 1) &&
  s.objFits f x.hVec (x.slotCap * x.dims * elemBytes x.vecFmt) (fld x.desc 54 54 == 1) && s.isBitmap x x.hTomb 1

/-- The shoal headers' host fields (R66, R67): ranges, stacks, code runs and logs; and no two shoals share a slot. -/
def State.shoalsOk (s : State) (x : Index) : Bool :=
  (List.range x.nShoals).all (fun h =>
    let base := s.shBase x h
    let cap := s.shFld x h 60 48
    base % 4096 == 0 && decide (1 ≤ cap) && decide (cap ≤ 4096) && decide (base + cap * 4096 ≤ x.slotCap) &&
    s.objFits x.func (s.shCode x h) (cap * 128 * x.blockBytes) false && s.objFits x.func (s.shLog x h) 32768 false &&
    (match s.obj? x.func (s.shCode x h) with
      | some o => o.stack == s.shFld x h 44 40
      | none => false) &&
    (List.range h).all (fun g => !overlaps base (cap * 4096) (s.shBase x g) (s.shCap x g)))

/-- The checks of step 1 of Table 9 in order: R64, R65 with R86, R70. -/
def State.loadCheck (s : State) (x : Index) : Option Nat :=
  if s.idx.indexes.length ≥ 64 ∨ (s.idx.indexes.map Index.slotCap).sum + x.slotCap > 2 ^ 34 then some Status.indexLimit
  else if !x.rangesOk || (s.index? x.no).isSome || !s.descObjsOk x || !s.shoalsOk x then some Status.indexParam
  else if x.nShoals * x.dims * 33 / 32 > 67108864 then some Status.indexParam
  else if s.centUnits x.centDie + s.dueUnits x.centDie + x.centUnits > 64 ∨ !s.shareFits (some x.centDie) x.centUnits then some Status.lagoonFull
  else if x.img ≠ 0 ∧ !(match s.obj? x.func x.img with
      | some o => !o.inT2
      | none => false) then some Status.indexParam
  else none

/-- The device fields of shoal headers and the objects of a load without an image (R87). -/
def State.loadEmpty (s : State) (x : Index) : State :=
  let s1 := (List.range x.nShoals).foldl (fun s h =>
    let s := ((((s.shSet x h 120 96 0).shSet x h 152 128 0).shSet x h 184 160 0).shSet x h 225 224 0)
    let z (s : State) (hd n : Nat) : State := s.hPut x.func hd 0 (List.replicate n 0)
    z (z s (s.shCode x h) (s.shCap x h / 32 * x.blockBytes)) (s.shLog x h) 32768) s
  let s2 := s1.hPut x.func x.hDir 0 (List.replicate (4096 * 2 ^ x.dirExp) 0)
  let s3 := (List.range x.slotCap).foldl (fun s i => s.putId x i padId false) s2
  let s4 := (((s3.hSet x.func x.hTomb 0 10 10 0).hSet x.func x.hTomb 0 119 96 0).hSet x.func x.hTomb 0 159 128 0).hSet
    x.func x.hTomb 0 191 160 0
  s4.hPut x.func x.hTomb 64 (List.replicate (2 * s4.bmSumLen x.func x.hTomb) 0)

/-- The index that an INDEX_LOAD makes while it is loading (R86, R87). The device keeps the descriptor of R63 Table 1 in its own state: it
takes no object and no granule for it (DESIGN CHOICE, log entry 66). -/
def State.loading (s : State) (r : CmdRef) (l : Live) : Index :=
  { no := fld l.body 5 0, func := l.h.func, ingress := 0, newIngress := none, st := 1, desc := l.body.take 64, live := 0,
    img := fld l.body 543 512, imgDone := false, built := false, due := 0, cents := [], loadCmd := some r, unloadCmd := none,
    saves := [], sealNo := s.idx.bno, sweep := 0, lowDir := false, digests := [] }

/-- What an INDEX_LOAD does when it runs: step 1 of Table 9, and step 2 where no image is named. -/
def actIndexLoad : CmdAct := fun r l s =>
  match s.loadCheck (s.loading r l) with
  | some st => s.loadFail r st 0
  | none =>
    let x := { s.loading r l with due := (s.loading r l).centUnits }
    let s1 := s.updLive r (fun l => { l with committed := true })
    if x.img = 0 then
      let s2 := { s1 with idx := { s1.idx with indexes := s1.idx.indexes ++ [{ x with imgDone := true }] } }
      s2.loadEmpty x
    else
      let s2 : State := { s1 with idx := { s1.idx with indexes := s1.idx.indexes ++ [x] } }
      match s.obj? x.func x.img with
      | some o => s2.queueObj o
      | none => s2

def isIndexLoad (h : CmdHdr) (_ : Body) : Bool := h.opcode == Op.indexLoad

/-- INDEX_LOAD: the descriptor is checked, STATE becomes loading and the copy of the image starts (R87). -/
def execIndexLoad (h : CmdHdr) (b : Body) (s : State) : Host.Outcome State Fault Refusal :=
  .next (s.command isIndexLoad noCheck actIndexLoad h b)

/-- Copies the sections of an index image into the index's objects (R87): the image's ROWS, MAIN_ROWS, LIVE and LIVE_COUNT,
the rows below ROWS of each code run, the ID map of those rows, the centroid master, the tombstones and the filters. Slots that hold no
item take the ID of R77. A filter section names no object: the sections go, in their order, to the index's filters in ascending order of
handle. No section holds the ID directory or the full vectors: those objects stay as the host prepared them (DESIGN CHOICE, log entry
80). -/
def State.copyImage (s : State) (x : Index) (o : Obj) : State :=
  let tab := s.imageSec o 2
  let hdr (h hi lo : Nat) : Nat := fld (tab.drop (32 * h)) hi lo
  let s1 := (List.range x.nShoals).foldl (fun s h =>
    (((s.shSet x h 120 96 (hdr h 120 96)).shSet x h 152 128 (hdr h 152 128)).shSet x h 184 160 (hdr h 184 160)).shSet
      x h 225 224 (hdr h 225 224)) s
  let s2 := (List.range x.slotCap).foldl (fun s i => s.putId x i padId false) (s1.hPut x.func x.hCent 0 (s1.imageSec o 3))
  let codes := s2.imageSec o 4
  let ids := s2.imageSec o 5
  let r := (List.range x.nShoals).foldl (fun (a : State × Nat × Nat) h =>
    let rows := hdr h 120 96
    let n := cdiv rows 32 * x.blockBytes
    let s3 := a.1.hPut x.func (s2.shCode x h) 0 ((codes.drop a.2.1).take n)
    (s3.hPut x.func x.hMap (8 * s2.shBase x h) ((ids.drop a.2.2).take (8 * rows)), a.2.1 + n, a.2.2 + 8 * rows)) (s2, 0, 0)
  let maps := ((s.imageSecs o).filter (fun e => e.1 == 6)).map (fun e => s.objBytes o e.2.1 e.2.2.1)
  let tomb := maps.filter (fun b => fld b 8 8 == 1)
  let s5 := r.1.hPut x.func x.hTomb 0 (tomb.headD [])
  let s6 := ((maps.filter (fun b => fld b 8 8 == 0)).zip (s.filtersOf x)).foldl (fun s p => s.hPut x.func p.2 0 p.1) s5
  s6.updIndex x.no (fun y => { y with live := fld (s.imageSec o 1) 449 416, imgDone := true, digests := ((s.imageSecs o).map (fun e => e.2.2.2)).flatten })

/-- Whether the tombstone's directory names a leaf that does not exist (R461). -/
def State.tombBad (s : State) (x : Index) : Bool :=
  (List.range (s.bmBlocks x.func x.hTomb)).any (fun b => s.bmBlk x.func x.hTomb 0 b == .bad)

/-- INDEX_IMAGE_COPIED: step 2 of Table 9 ends, or a section that fails its digests or cannot be read ends the load and
frees the index number (R87, R292, R461). It waits for the reads of the image, which stand in the queues of their channels (R284, R294). -/
def State.onIndexImageCopied (s : State) (idx : Nat) : State :=
  match (s.index? idx).filter (fun x => decide (x.st = 1) && !x.imgDone), s.obj? ((s.index? idx).map Index.func |>.getD 0)
      ((s.index? idx).map Index.img |>.getD 0) with
  | some x, some o =>
    let fail (st sec : Nat) : State := match x.loadCmd with
      | some r => (s.dropIndex idx).loadFail r st sec
      | none => s.dropIndex idx
    if s.objWaits o then s
    else if !s.imageHeaderOk o 1 then (fail Status.indexImageBad 0)
    else match s.imageBad o with
    | some ty => (fail Status.indexImageBad ty)
    | none =>
      let s1 := (s.objTraffic x.func o false 0 o.size).copyImage x o
      if s1.tombBad x then
        (match x.loadCmd with
          | some r => ((s1.dropIndex idx).loadFail r Status.indexParam 6)
          | none => (s1.dropIndex idx))
      else s1
  | _, _ => s

/-- INDEX_IMAGE_COPIED as a command. -/
def execIndexImageCopied (idx : Nat) (s : State) : Host.Outcome State Fault Refusal := .next (s.onIndexImageCopied idx)

/-- The centroid copy of one shoal (R69, R97). -/
def State.centCopy (s : State) (x : Index) (h : Nat) : CentCopy × Nat :=
  let v := (List.range x.dims).map (fun i => s.hNat x.func x.hCent ((h * x.dims + i) * 4) 4)
  let e := encVec 127 v
  ({ src := v, codes := e.1, scales := e.2.1, word := if x.metric = 0 then 0 else normOf x.metric (decVec e.1 e.2.1) }, e.2.2)

/-- Builds the centroid copies of an index again from its master (R69): of every shoal, or of those whose centroid has changed. Blocks
whose scale saturates are counted (R71). -/
def State.refreshCents (s : State) (n : Nat) (all_ : Bool) : State :=
  match (s.index? n).filter (fun x => x.built) with
  | none => s
  | some x =>
    let cs := (List.range x.nShoals).map (fun h =>
      let c := s.centCopy x h
      match x.cents[h]? with
      | some o => if !all_ && o.src == c.1.src then (o, 0) else c
      | none => c)
    let sat := (cs.map (fun c => c.2)).sum
    (if sat > 0 then s.count Reg.indexCodeClampCnt sat else s).updIndex n (fun y => { y with cents := cs.map (fun c => c.1) })

/-- The islands that are not fenced. -/
def State.islandsUp (s : State) : List Nat := (List.range 512).filter (fun i => !s.flt.islands.contains i)

/-- CENTROID_COPY_BUILT: step 3 of Table 9, which takes the centroid share, and step 4, the ingress island (R24, R69, R70). -/
def State.onCentroidCopyBuilt (s : State) (idx : Nat) : State :=
  match (s.index? idx).filter (fun x => decide (x.st = 1) && x.imgDone && !x.built) with
  | none => s
  | some x =>
    let s0 := s.takeShare (.index idx) (some x.centDie) x.centUnits
    if !s0.2 then
      match x.loadCmd with
      | some r => ((s0.1.dropIndex idx).loadFail r Status.lagoonFull 0)
      | none => (s0.1.dropIndex idx)
    else
      let cs := (List.range x.nShoals).map (s.centCopy x)
      let sat := (cs.map (fun c => c.2)).sum
      let s1 := if sat > 0 then s0.1.count Reg.indexCodeClampCnt sat else s0.1
      let s2 := (List.range x.nShoals).foldl (fun s h => s.hPut x.func (s.shLog x h) 0 (List.replicate 32768 0)) s1
      match s2.draw s2.islandsUp with
      | (i, s3) => ((s3.updIndex idx (fun y =>
          { y with built := true, due := 0, cents := cs.map (fun c => c.1), ingress := i.getD 0 })).addMark (i.getD 0))

/-- CENTROID_COPY_BUILT as a command. -/
def execCentroidCopyBuilt (idx : Nat) (s : State) : Host.Outcome State Fault Refusal := .next (s.onCentroidCopyBuilt idx)

/-- The index that a command of a function may name: it is ready and the function's own (R89, R297). -/
def State.readyIndex (s : State) (f n : Nat) : Option Index := (s.index? n).filter (fun x => x.func == f && decide (x.st = 2))

/-- The index on which an accepted command of a function runs: one that is ready, or unloading since (R89). -/
def State.heldIndex (s : State) (f n : Nat) : Option Index := (s.index? n).filter (fun x => x.func == f && decide (2 ≤ x.st))

/-- The image of an index's committed state (R87, R88). -/
def State.saveImage (s : State) (x : Index) : List Byte :=
  let desc := (x.desc.take 52) ++ leBytes 12 (x.live + 2 * 2 ^ 64)
  let shoals := (List.range x.nShoals)
  let tab := (shoals.map (fun h => leBytes 32 (setBits (leNat (s.hBytes x.func x.hTab (32 * h) 32)) 225 224 0))).flatten
  let codes := (shoals.map (fun h => s.hBytes x.func (s.shCode x h) 0 (cdiv (s.shRows x h) 32 * x.blockBytes))).flatten
  let ids := (shoals.map (fun h => s.hBytes x.func x.hMap (8 * s.shBase x h) (8 * s.shRows x h))).flatten
  let bm (h : Nat) : Nat × List Byte := (6, s.hBytes x.func h 0 (bmBytes (s.bmBlocks x.func h) (s.bmLeafCap x.func h)))
  buildImage 1 0 ([(1, desc), (2, tab), (3, s.hBytes x.func x.hCent 0 (x.nShoals * x.dims * 4)), (4, codes), (5, ids),
    bm x.hTomb] ++ (s.filtersOf x).map bm)

/-- Whether an image fits a target: the target holds its bytes (R293), and the header counts its sections, of which it holds at most 63
(R292). An index of more than 57 filters has more and cannot be saved (DESIGN CHOICE, log entry 80). -/
def State.imageFits (s : State) (x : Index) (o : Obj) : Bool :=
  decide ((s.saveImage x).length ≤ o.size) && decide ((s.filtersOf x).length ≤ 57)

/-- The check of an INDEX_SAVE (R88, R293). -/
def chkIndexSave : BodyCheck := fun s h b =>
  if fld b 31 6 ≠ 0 then some (Status.indexParam, [])
  else match s.readyIndex h.func (fld b 5 0) with
  | none => some (Status.indexNotReady, [])
  | some x => match s.obj? h.func (fld b 63 32) with
    | none => some (Status.indexParam, [])
    | some o =>
      if o.inT2 || o.func != h.func then some (Status.indexParam, [])
      else if !s.imageFits x o then some (Status.imageSpace, []) else none

/-- What an INDEX_SAVE does: it takes the state committed as of the current epoch and queues its image on the channels that take it (R88,
R284). An image that has outgrown the target since its intake is not written (R293). -/
def actIndexSave : CmdAct := fun r l s =>
  match s.heldIndex l.h.func (fld l.body 5 0) with
  | none => s.complete r Status.indexNotReady []
  | some x => match (s.obj? l.h.func (fld l.body 63 32)).filter (s.imageFits x) with
    | none => s.complete r Status.imageSpace []
    | some o =>
      let run : SaveRun := { r := r, target := fld l.body 63 32 }
      ((s.updLive r (fun l => { l with committed := true })).updIndex x.no (fun y => { y with saves := y.saves ++ [run] })).queueBytes o
        (s.saveImage x)

def isIndexSave (h : CmdHdr) (_ : Body) : Bool := h.opcode == Op.indexSave

/-- INDEX_SAVE: starts writing the state committed as of the current epoch (R88). -/
def execIndexSave (h : CmdHdr) (b : Body) (s : State) : Host.Outcome State Fault Refusal :=
  .next (s.command isIndexSave chkIndexSave actIndexSave h b)

/-- INDEX_SAVE_DONE: the last page of the oldest save of an index is durable, and the save completes (R88, R282). -/
def State.onIndexSaveDone (s : State) (idx : Nat) : State :=
  match s.index? idx with
  | none => s
  | some x => match x.saves with
    | [] => s
    | v :: vs =>
      if !s.fl.ready || (s.obj? x.func v.target).any s.objUnwritten then s
      else ((s.updIndex idx (fun y => { y with saves := vs })).complete v.r Status.ok [])

/-- INDEX_SAVE_DONE as a command. -/
def execIndexSaveDone (idx : Nat) (s : State) : Host.Outcome State Fault Refusal := .next (s.onIndexSaveDone idx)

/-- The check of an INDEX_UNLOAD (R89, R342). -/
def chkIndexUnload : BodyCheck := fun s h b =>
  if fld b 31 6 ≠ 0 then some (Status.cmdParam, [])
  else if (s.readyIndex h.func (fld b 5 0)).isNone then some (Status.indexNotReady, []) else none

/-- What an INDEX_UNLOAD does: STATE = 11 (R89); compaction stops at the next boundary (R141). -/
def actIndexUnload : CmdAct := fun r l s =>
  match s.readyIndex l.h.func (fld l.body 5 0) with
  | none => s.complete r Status.indexNotReady []
  | some x => (s.updLive r (fun l => { l with committed := true })).updIndex x.no (fun y =>
      { y with st := 3, unloadCmd := some r })

def isIndexUnload (h : CmdHdr) (_ : Body) : Bool := h.opcode == Op.indexUnload

/-- INDEX_UNLOAD: STATE becomes unloading and new queries and mutations are refused (R89). -/
def execIndexUnload (h : CmdHdr) (b : Body) (s : State) : Host.Outcome State Fault Refusal :=
  .next (s.command isIndexUnload chkIndexUnload actIndexUnload h b)

/-- Whether a command that was accepted for an index has not completed, stamped or not (R89, R329). -/
def State.indexBusy (s : State) (n : Nat) : Bool :=
  s.cmd.live.any (fun l => l.stage != .awaiting && fld l.body 5 0 == n && ((s.index? n).map Index.func == some l.h.func) &&
    (l.h.opcode == Op.search || l.h.opcode == Op.mutate || l.h.opcode == Op.indexSave || l.h.opcode == Op.indexCompact)) ||
  s.idx.queries.any (fun q => q.idx == n) || s.idx.staged.any (fun m => m.idx == n) ||
  (match s.index? n with
    | some x => !x.saves.isEmpty
    | none => false) ||
  s.idx.passes.any (fun p => p.idx == n && !p.cmds.isEmpty)

/-- INDEX_UNLOAD_DONE: the last accepted command of the index has completed, and its centroid share and number are freed
(R89). -/
def State.onIndexUnloadDone (s : State) (idx : Nat) : State :=
  match (s.index? idx).filter (fun x => decide (x.st = 3)) with
  | none => s
  | some x =>
    if s.indexBusy idx then s
    else match x.unloadCmd with
    | some r => ((s.dropIndex idx).complete r Status.ok [])
    | none => (s.dropIndex idx)

/-- INDEX_UNLOAD_DONE as a command. -/
def execIndexUnloadDone (idx : Nat) (s : State) : Host.Outcome State Fault Refusal := .next (s.onIndexUnloadDone idx)

/-- The check of an INDEX_COMPACT (R89, R135, R342). -/
def chkIndexCompact : BodyCheck := fun s h b =>
  if fld b 31 6 ≠ 0 ∨ fld b 63 52 ≠ 0 ∨ fld b 127 84 ≠ 0 then some (Status.indexParam, [])
  else match s.readyIndex h.func (fld b 5 0) with
  | none => some (Status.indexNotReady, [])
  | some x => if fld b 51 32 + fld b 83 64 + 1 > x.nShoals then some (Status.indexParam, []) else none

/-- Makes a shoal a candidate for compaction, for a command or by DEAD_PCT (R135). A pass already under way does not serve a
later command. -/
def State.candidate (s : State) (i h : Nat) (r : Option CmdRef) : State :=
  let waits (p : Pass) : Bool := p.idx == i && p.shoal == h && !p.running
  if s.idx.passes.any waits then
    { s with idx := { s.idx with passes := updWhere waits (fun p => { p with cmds := p.cmds ++ r.toList }) s.idx.passes } }
  else
    let p : Pass := { idx := i, shoal := h, running := false, moved := false, left := [], cmds := r.toList }
    { s with idx := { s.idx with passes := s.idx.passes ++ [p] } }

/-- What an INDEX_COMPACT does when it is stamped: each named shoal becomes a candidate (R135). -/
def actIndexCompact : CmdAct := fun r l s =>
  match s.heldIndex l.h.func (fld l.body 5 0) with
  | none => s.complete r Status.indexNotReady []
  | some x => (List.range (fld l.body 83 64 + 1)).foldl (fun s i => s.candidate x.no (fld l.body 51 32 + i) (some r)) s

def isIndexCompact (h : CmdHdr) (_ : Body) : Bool := h.opcode == Op.indexCompact

/-- INDEX_COMPACT: makes the named shoals candidates for compaction (R135). -/
def execIndexCompact (h : CmdHdr) (b : Body) (s : State) : Host.Outcome State Fault Refusal :=
  .next (s.command isIndexCompact chkIndexCompact actIndexCompact h b)

end Sys2Proof.Machine
end

