-- ==== Sys2Proof/Machine/Search.lean ====
section
/-! DEFINITION. SEARCH from intake to completion (R91 to R117): probe selection, set banks, the scan, widening, re-rank and
the deadline monitor. -/

namespace Sys2Proof.Machine

/-! ## Parameters (R91) -/

/-- RERANK with the index's default resolved. -/
def resolveRerank (x : Index) (b : Body) : Nat := if fld b 76 64 = 0x1FFF then x.rerankDepth else fld b 76 64

/-- The probes of the first round. -/
def resolveProbes (x : Index) (b : Body) : Nat := if fld b 52 32 = 0 then x.probeDef else fld b 52 32

/-- k. -/
def searchK (b : Body) : Nat := fld b 27 16 + 1

/-- C of R105. -/
def searchC (x : Index) (b : Body) : Nat := max (searchK b) (resolveRerank x b)

/-- The handles of F1 and F2 that a query names. -/
def searchF1 (b : Body) : Option Nat := if fld b 9 9 = 1 then some (fld b 127 96) else none

/-- See `searchF1`. -/
def searchF2 (b : Body) : Option Nat := if fld b 10 10 = 1 then some (fld b 159 128) else none

/-- Whether an FP32 element is a NaN or an infinity. -/
def notFinite (w : Nat) : Bool := fIsNan w || fIsInf w

/-- The parameter check of R92. -/
def searchParamOk (x : Index) (b : Body) : Bool :=
  let k := searchK b
  let rr := resolveRerank x b
  fld b 7 6 != 3 && fld b 12 11 != 3 && fld b 15 13 == 0 && fld b 31 28 == 0 && fld b 63 53 == 0 && fld b 95 77 == 0 &&
  fld b 255 184 == 0 && decide (fld b 52 32 ≤ x.probeMax) && (rr == 0 || (decide (k ≤ rr) && decide (rr ≤ 4096))) &&
  b.length == 32 + x.dims * elemBytes (fld b 7 6) &&
  (vecF32 (fld b 7 6) x.dims (b.drop 32)).all (fun w => !notFinite w)

/-- The checks of R92 in their order. -/
def chkSearch : BodyCheck := fun s h b =>
  match s.readyIndex h.func (fld b 5 0) with
  | none => some (Status.indexNotReady, [])
  | some x =>
    if !searchParamOk x b then some (Status.searchParam, [])
    else if (searchF1 b).any (fun f => !s.isBitmap x f 0) || (searchF2 b).any (fun f => !s.isBitmap x f 0) then
      some (Status.filterParam, [])
    else none

/-- The islands that score the centroids of an index: those of its CENT_DIE that hold a copy, in place of a fenced one the next (R69,
R97). -/
def State.probeIslands (s : State) (x : Index) : List Nat :=
  (List.range (min 128 x.nShoals)).map (fun i => s.nextIsland (x.centDie * 128 + i))

/-- What a stamped SEARCH starts: its query encoded with Q = 127 goes to probe selection, with a sequencer task on each island that scores
centroids (R97, R307). -/
def actSearch : CmdAct := fun r l s =>
  match s.heldIndex l.h.func (fld l.body 5 0) with
  | none => s.complete r Status.indexNotReady []
  | some x =>
    let v := vecF32 (fld l.body 7 6) x.dims (l.body.drop 32)
    let e := encVec 127 v
    let t := sumSq v
    let q : Query :=
      { r := r, idx := x.no, ord := s.idx.qOrd, epoch := l.epoch, bno := (s.markOf l.island).2, st := .probing, vec := v, codes := e.1,
        scales := e.2.1, norm := if x.metric = 1 then (if t = 0 then 0 else fRsqrt t) else t, order := [], pos := 0,
        taken := 0, probesDone := 0, waiting := [], nBound := 0, rounds := 0, level := 0, vis := 0, pass := 0, dup := 0,
        skipped := false, rrPart := false, merged := [], lists := [], result := [], tie := false }
    let s1 := if e.2.2 > 0 then s.count Reg.indexCodeClampCnt e.2.2 else s
    let s2 : State := { s1 with idx := { s1.idx with queries := s1.idx.queries ++ [q], qOrd := s1.idx.qOrd + 1 } }
    (s2.probeIslands x).foldl (fun s i => s.addSeqTask i .probe x.func (s.cmdClass r) (some r)) s2

def isSearch (h : CmdHdr) (_ : Body) : Bool := h.opcode == Op.search

/-- SEARCH: checked at intake, refused or accepted for stamping (R92). -/
def execSearch (h : CmdHdr) (b : Body) (s : State) : Host.Outcome State Fault Refusal :=
  .next (s.command isSearch chkSearch actSearch h b)

/-- The query of a command. -/
def State.query? (s : State) (r : CmdRef) : Option Query := s.idx.queries.find? (fun q => q.r == r)

/-- Replaces a query. -/
def State.updQuery (s : State) (r : CmdRef) (f : Query → Query) : State :=
  { s with idx := { s.idx with queries := updWhere (fun q => q.r == r) f s.idx.queries } }

/-- The parameter block of a query. -/
def State.qBody (s : State) (r : CmdRef) : Body :=
  match s.live? r with
  | some l => l.body
  | none => []

/-- The die on which a query's own counters count: that of its index's ingress island. -/
def Index.die (x : Index) : Nat := x.ingress / 128

/-! ## Filters over blocks (R83, R84) -/

/-- The filter blocks of a shoal's slot range. -/
def State.shBlocks (s : State) (x : Index) (h : Nat) : List Nat :=
  (List.range (s.shCap x h / 4096)).map (fun i => s.shBase x h / 4096 + i)

/-- Whether a query's filters pass no slot of block `blk`, judged from summaries and directories (R84). -/
def State.filtersNone (s : State) (x : Index) (b : Body) (blk e : Nat) : Bool :=
  let get (f : Nat) : BmBlk := s.bmBlk x.func f (s.filterCopy x.func f x.no e) blk
  (match searchF1 b with
    | some f => get f == .zero || get f == .bad
    | none => false) ||
  (match searchF2 b with
    | some f => get f == .bad || (if fld b 8 8 = 1 then get f == .ones else get f == .zero)
    | none => false)

/-- Whether the tombstones alone pass no slot of block `blk` of a shoal for queries bound at epoch `e` or later (R84): every slot is
deleted, and no delete of the block is later than `e`. -/
def State.tombsNone (s : State) (x : Index) (h blk e : Nat) (es : List LogEnt) : Bool :=
  let lo := (blk - s.shBase x h / 4096) * 4096
  (s.bmBlk x.func x.hTomb 0 blk == .ones && es.all (fun l =>
    !(l.kind == 2 && decide (lo ≤ l.row) && decide (l.row < lo + 4096) && laterThan l.epoch e)))

/-- The filter copies that a query reads, as (handle, copy). -/
def State.copiesOf (s : State) (x : Index) (b : Body) (e : Nat) : List (Nat × Nat) :=
  ((searchF1 b).toList ++ (searchF2 b).toList).map (fun f => (f, s.filterCopy x.func f x.no e))

/-- The directory entries of filter copies that name a leaf at or above LEAF_CAP, over some blocks; each is read once (R461). -/
def State.badReads (s : State) (x : Index) (cs : List (Nat × Nat)) (blks : List Nat) : Nat :=
  (cs.eraseDups.map (fun c => (blks.filter (fun k => s.bmBlk x.func c.1 c.2 k == .bad)).length)).sum

/-- Whether a slot passes a query's filters (R83). -/
def State.passesFilters (s : State) (x : Index) (b : Body) (slot e : Nat) : Bool :=
  let bitOf (f : Nat) : Bool := s.filterBit x.func f x.no (s.filterCopy x.func f x.no e) slot
  let bad (f : Nat) : Bool := s.bmBlk x.func f (s.filterCopy x.func f x.no e) (slot / 4096) == .bad
  (match searchF1 b with
    | some f => bitOf f
    | none => true) &&
  (match searchF2 b with
    | some f => if bad f then false else if fld b 8 8 = 1 then !bitOf f else bitOf f
    | none => true)

/-- Whether a shoal is barren for a query (R98). -/
def State.barren (s : State) (x : Index) (b : Body) (h e : Nat) : Bool :=
  let es := s.logEnts x h
  (s.shBlocks x h).all (fun k => s.filtersNone x b k e || s.tombsNone x h k e es)

/-! ## Probe selection and binding (R97 to R99) -/

/-- Takes up to `n` probes of an order from rank `pos` on: the shoals taken and the next rank. -/
def State.walk (s : State) (x : Index) (b : Body) (e n pos : Nat) (order : List (Nat × Nat)) : List Nat × Nat :=
  (order.drop pos).foldl (fun (a : List Nat × Nat) o =>
    if a.1.length ≥ n then a
    else if s.barren x b o.1 e then (a.1, a.2 + 1) else (a.1 ++ [o.1], a.2 + 1)) ([], pos)

/-- The banks of a shoal that are not EMPTY. -/
def State.banksOf (s : State) (i h : Nat) : List Bank := s.idx.banks.filter (fun k => k.idx == i && k.shoal == h)

/-- The queries that a bank holds. A part that probe halving has released keeps its place and counts no more (R117). -/
def Bank.load (k : Bank) : Nat := (k.qs.filter (fun p => !p.out)).length

/-- Adds a query to a bank. -/
def State.joinBank (s : State) (k : Bank) (r : CmdRef) : State :=
  let n : SetQ := { r := r, ord := ((s.query? r).map (fun q => q.ord)).getD 0, thr := 0xFFFFFFFF, cand := [], vis := 0, pass := 0, skipped := false, out := false }
  ({ s with idx := { s.idx with banks := updWhere (fun y => y == k) (fun y => { y with qs := y.qs ++ [n] }) s.idx.banks } } : State).updQuery
    r (fun q => { q with nBound := q.nBound + 1 })

/-- Opens a bank in GATHER with its first query (R99, R100). -/
def State.openBank (s : State) (x : Index) (h target : Nat) (r : CmdRef) : State :=
  let k : Bank :=
    { idx := x.no, shoal := h, st := .gather, cap := s.idx.setMax.getD (s.shStack x h / 8) 1024, target := target,
      rows := 0, code := none, island := 0, kib := 0, late := false, qs := [] }
  ({ s with idx := { s.idx with banks := s.idx.banks ++ [k] } } : State).joinBank k r

/-- Binds a probe to the set of its shoal that seals at boundary `target` (R99). Where that set is full, or neither bank is free, the probe
binds to the shoal's next tide with a free bank: to the set that gathers for a later boundary while it has room, to a free bank, or it
waits for one. `first` says that the probe has not been bound before, so that its first failure counts. -/
def State.bindProbe (s : State) (x : Index) (h target : Nat) (r : CmdRef) (first : Bool) : State :=
  let ks := s.banksOf x.no h
  let die := s.shStack x h / 8
  let cnt (a : Nat) : State := if first then s.count a else s
  let wait (s : State) : State := s.updQuery r (fun q => { q with waiting := q.waiting ++ [h] })
  let later := ks.find? (fun k => k.st == .gather && decide (target < k.target) && decide (k.load < k.cap))
  match ks.find? (fun k => k.st == .gather && k.target == target) with
  | some k =>
    if k.load < k.cap then s.joinBank k r
    else
      let s1 := cnt (Reg.searchSetFullCnt die)
      match later with
      | some m => s1.joinBank m r
      | none => if ks.length < 2 then s1.openBank x h (target + 1) r else wait s1
  | none =>
    if ks.length < 2 then s.openBank x h target r
    else
      let s1 := cnt (Reg.searchSetLateCnt die)
      match later with
      | some m => s1.joinBank m r
      | none => wait s1

/-- The probes that wait for a bank of a shoal, or of any shoal of the index, bind again in stamp order, at the earliest for boundary
`target` (R99). -/
def State.bindWaiting (s : State) (x : Index) (p : Nat → Bool) (target : Nat) : State :=
  (s.idx.queries.filter (fun q => q.idx == x.no)).foldl (fun s q =>
    (q.waiting.filter p).foldl (fun s h => s.bindProbe x h target q.r false)
      (s.updQuery q.r (fun y => { y with waiting := y.waiting.filter (fun h => !p h) }))) s

/-- Starts a round of probes: they bind to the sets of boundary `target`. -/
def State.startRound (s : State) (x : Index) (q : Query) (n target : Nat) : State :=
  let b := s.qBody q.r
  let w := s.walk x b q.epoch n q.pos q.order
  let seen := ((q.order.drop q.pos).take (w.2 - q.pos)).map (fun o => o.1)
  let bad := s.badReads x (s.copiesOf x b q.epoch) (seen.flatMap (s.shBlocks x))
  let s1 := if bad > 0 then s.count Reg.indexFilterBadCnt bad else s
  let s2 := s1.updQuery q.r (fun y => { y with st := .scanning, pos := w.2, taken := q.taken + w.1.length })
  w.1.foldl (fun s h => s.bindProbe x h target q.r true) s2

/-- The probe score of Table 2 from q̃·c̃ and the shoal's word. -/
def probeScore (metric dot word : Nat) : Nat :=
  if metric = 1 then fMul dot word else if metric = 2 then fSub word (fMul 0x40000000 dot) else dot

/-- q̃·c̃ of a query for every shoal (R69, R74, R97): an island scores its centroids, those of the shoals h with h mod 128 its own number,
in tiles of 32, with the query in column 0. -/
def Index.probeDots (x : Index) (codes : List Int) (scales : List Nat) : List Nat :=
  let tiles := (List.range 128).map (fun i =>
    let mine := (List.range (cdiv (x.nShoals - i) 128)).map (fun j =>
      let c := x.cents.getD (i + 128 * j) { src := [], codes := [], scales := [], word := 0 }
      (c.codes, c.scales))
    ((List.range (cdiv mine.length 32)).map (fun t =>
      tileDots (genState (searchSeed false x.no i t 0) 0) codes scales ((mine.drop (32 * t)).take 32))).flatten)
  (List.range x.nShoals).map (fun h => (tiles.getD (h % 128) []).getD (h / 128) 0)

/-- The list of one island's centroids in a probe selection (R97, R98, R149): its scores reach the stage in runs of 32, and those that meet the
threshold are kept, with how many of them are NaN. -/
def probeList (x : Index) (ents : List Ent) (i : Nat) : List Ent × Nat :=
  let mine := ents.filter (fun e => e.id % 128 == i)
  let runs := (List.range (cdiv mine.length 32)).map (fun j => (mine.drop (32 * j)).take 32)
  let sent := (sendRuns (rankF x.small) x.probeMax runs).1
  ((mergeEnts (rankF x.small) (x.probeMax + 1) sent).1, nanEnts sent)

/-- The select stages of a probe selection: the islands keep their lists as a list of PROBE_MAX entries is kept (R150, R153), the stage of
their die completes the list, or the H stage where a fenced island's part ran on another die, and both count it (R162). The lists go with
the completed one. -/
def State.probeStages (s : State) (x : Index) (q : CmdRef) (ents : List Ent) : State × List Ent :=
  let is := (s.probeIslands x).zipIdx
  let s1 := is.foldl (fun (s : State) i =>
    let l := probeList x ents i.2
    let s0 := s.keepRuns q i.2 i.1 x.probeMax l.1.length (bits (s.rd (Reg.selectListCfg (i.1 / 128))) 10 0)
    if l.2 > 0 then s0.count (Reg.selectNanCnt (i.1 / 128)) l.2 else s0) s
  let m := (mergeEnts (rankF x.small) (x.probeMax + 1) (is.flatMap (fun i => (probeList x ents i.2).1))).1.take x.probeMax
  let inst := match (is.map (fun i => i.1 / 128)).eraseDups with
    | [d] => d
    | _ => 4
  ((s1.dropRuns (fun r => r.cmd == q)).countList inst x.probeMax m.length, m)

/-- PROBE_SELECTION_DONE: the shoals are scored and ordered, the walk takes the first round's probes, and each binds to a
set (R97 to R99). -/
def State.onProbeSelectionDone (s : State) (q : CmdRef) : State :=
  match (s.query? q).filter (fun y => y.st == .probing) with
  | none => s
  | some y => match s.index? y.idx with
    | none => s
    | some x =>
      let dots := x.probeDots y.codes y.scales
      let ents : List Ent := dots.mapIdx (fun h d =>
        { score := probeScore x.metric d ((x.cents.getD h { src := [], codes := [], scales := [], word := 0 }).word), id := h, ord := 0, slot := d })
      let m := s.probeStages x q ents
      let y1 := { y with order := m.2.map (fun e => (e.id, e.slot)) }
      let s1 := (m.1.seqOver (fun t => t.kind == .probe && t.cmd == some q)).updQuery q (fun _ => y1)
      (s1.startRound x y1 (resolveProbes x (s.qBody q)) (y.bno + 1))

/-- PROBE_SELECTION_DONE as a command. -/
def execProbeSelectionDone (q : CmdRef) (s : State) : Host.Outcome State Fault Refusal := .next (s.onProbeSelectionDone q)

/-- Whether a query takes part in a set. -/
def SetQ.of (p : SetQ) (q : Query) : Bool := !p.out && p.r == q.r && p.ord == q.ord

/-- The query of a set's part, while it has not left the device (R114) or the set (R116). -/
def State.setQuery (s : State) (p : SetQ) : Option Query := s.idx.queries.find? (fun q => p.of q)

/-! ## The deadline monitor (R116) -/

/-- The bitmap copies that a set's scan reads: those of its queries' filters, and the tombstones. -/
def State.setCopies (s : State) (x : Index) (k : Bank) : List (Nat × Nat) :=
  ((k.qs.filterMap s.setQuery).flatMap (fun (q : Query) => s.copiesOf x (s.qBody q.r) q.epoch) ++ [(x.hTomb, 0)]).eraseDups

/-- What a set costs its stack (R115, R116): its code blocks, the leaves of its mixed filter blocks, those of the tombstones among them, and
the entries of its epoch log. -/
def State.bankBytes (s : State) (k : Bank) : Nat :=
  match s.index? k.idx with
  | some x =>
    let rows := if k.st = .gather then s.shRows x k.shoal else k.rows
    let blks := (s.shBlocks x k.shoal).take (cdiv rows 4096)
    let copies := s.setCopies x k
    let mixed (c : Nat × Nat) : Nat := (blks.filter (fun b => match s.bmBlk x.func c.1 c.2 b with
      | .leaf _ => true
      | _ => false)).length
    cdiv rows 32 * x.blockBytes + 512 * (copies.map mixed).sum + 8 * (s.logEnts x k.shoal).length
  | none => 0

/-- The stack that a set's code run lies in, once it has sealed as it stood then (R102). -/
def State.bankStack (s : State) (k : Bank) : Nat :=
  match k.code, s.index? k.idx with
  | some o, _ => o.stack
  | none, some x => s.shStack x k.shoal
  | none, none => 0

/-- The place of a set in the order of R101: the boundary of its seal, its stack, its index, its shoal. -/
def State.bankKey (s : State) (k : Bank) : Nat := ((k.target * 32 + s.bankStack k) * 64 + k.idx) * 2 ^ 20 + k.shoal

/-- The predicted end of a set (R116): its own bytes and those queued ahead of it on its stack in the order of R101, at the rate measured
over the previous tide, from now or from the boundary at which it seals. A set whose scan has ended has no bytes left. A stack that scanned
nothing is taken at its full rate. -/
def State.predictSet (s : State) (k : Bank) : Nat :=
  let st := s.bankStack k
  let ahead := ((s.idx.banks.filter (fun m => s.bankStack m == st && m.st != .report && m != k &&
    (m.st == .scan && k.st != .scan || decide (s.bankKey m ≤ s.bankKey k)))).map s.bankBytes).sum + (if k.st = .report then 0 else s.bankBytes k)
  let rate := s.idx.lastRate.getD st 0
  let t := if k.st = .report then 0 else if rate = 0 then ahead * 10 / 6144 else ahead * s.idx.lastPeriod / rate
  let start := if k.target > s.idx.bno then s.idx.lastBoundary + s.idx.period * (k.target - s.idx.bno) else s.now
  start + t

/-- t_merge + t_rr + t_out of Table 7 in ns, at a level. -/
def tailNs (x : Index) (b : Body) (level : Nat) : Nat :=
  let rr := resolveRerank x b
  (if searchK b ≤ 256 then 100000 else 200000) + 20000 +
    (if level > 0 ∨ rr = 0 then 0 else if fld x.desc 54 54 = 1 then 1000000 + 1000 * rr else 30000 + 20 * rr)

/-- The predicted completion time of a query (R116). A probe that waits for a bank is taken to scan in the next tide. -/
def State.predict (s : State) (x : Index) (q : Query) (level : Nat) : Nat :=
  let mine := s.idx.banks.filter (fun k => k.qs.any (fun p => p.of q))
  let waits := q.waiting.map (fun h =>
    ({ idx := x.no, shoal := h, st := .gather, cap := 0, target := s.idx.bno + 1, rows := 0, code := none, island := 0, kib := 0, late := false,
       qs := [] } : Bank))
  ((mine ++ waits).map s.predictSet).foldl max s.now + tailNs x (s.qBody q.r) level

/-- The device time of a query's deadline, if it has one. -/
def State.deadline? (s : State) (r : CmdRef) : Option Nat :=
  match s.live? r with
  | some l => if fld l.body 183 160 = 0 then none else some (l.accepted + fld l.body 183 160 * 1000)
  | none => none

/-- Level 2: of the query's probes whose sets have not entered SCAN, the nearer half in centroid rank stays (R116). A released part keeps its
place in the set, so that the columns and the results of the others stay as they are (R117). Table 3 gives a set no way back that holds no
query any longer: it becomes EMPTY, so that its blocks are not scanned (DESIGN CHOICE, log entry 80). -/
def State.halveProbes (s : State) (q : Query) : State :=
  let open_ := (s.idx.banks.filter (fun k => (k.st == .gather || k.st == .sealed_) && k.qs.any (fun p => p.of q))).map (fun k => k.shoal)
  let all_ := open_ ++ q.waiting
  let ranked := (q.order.map (fun o => o.1)).filter (fun h => all_.contains h)
  let gone := ranked.drop (cdiv ranked.length 2)
  let banks := s.idx.banks.map (fun k =>
    if (k.st == .gather || k.st == .sealed_) && k.idx == q.idx && gone.contains k.shoal then
      { k with qs := updWhere (fun p => p.of q) (fun p => { p with out := true }) k.qs } else k)
  ({ s with idx := { s.idx with banks := banks.filter (fun k => k.load > 0) } } : State).updQuery q.r (fun y =>
    { y with level := 2, nBound := y.nBound - (open_.filter (fun h => gone.contains h)).length
             waiting := y.waiting.filter (fun h => !gone.contains h) })

/-- Raises one query's level until its prediction meets the deadline, up to FALLBACK_MAX (R116, R117). -/
def State.monitorOne (s : State) (q : Query) : State :=
  match s.index? q.idx, s.deadline? q.r with
  | some x, some d =>
    let b := s.qBody q.r
    let mx := fld b 12 11
    let noRr := decide (resolveRerank x b = 0)
    let s1 := if q.level = 0 ∧ mx ≥ 1 ∧ !noRr ∧ s.predict x q 0 > d then
        (s.count (Reg.searchLevel1Cnt x.die)).updQuery q.r (fun y => { y with level := 1 })
      else s
    match s1.query? q.r with
    | some q1 =>
      if q1.level < 2 ∧ mx = 2 ∧ (q1.level = 1 ∨ noRr) ∧ s1.predict x q1 q1.level > d then
        ((s1.count (Reg.searchLevel2Cnt x.die)).halveProbes q1).bindWaiting x (fun _ => true) (s.idx.bno + 1)
      else s1
    | none => s1
  | _, _ => s

/-- The deadline monitor acts on every query with a deadline that has not reached re-rank, in stamp order. -/
def State.monitor (s : State) : State :=
  (s.idx.queries.filter (fun q => q.st == .probing || q.st == .scanning)).foldl (fun s q =>
    match s.query? q.r with
    | some y => s.monitorOne y
    | none => s) s

/-! ## Sealing and scanning (R100 to R106) -/

/-- Whether probe selection has finished for every query of an earlier tide on an index. -/
def State.probesDone (s : State) (i : Nat) : Bool :=
  s.idx.queries.all (fun q => !(q.idx == i && q.st == .probing && decide (q.bno < s.idx.bno))) &&
  s.cmd.live.all (fun l => !(decide (l.h.opcode = Op.search) && fld l.body 5 0 == i && l.stage == .delivered &&
    decide (l.epoch < s.idx.epoch)))

/-- SET_SEAL: the sets of the boundary seal for one index, each with ROWS and its code run as they stand (R102); waiting probes bind to the next
tide; the deadline monitor acts; and a new SET_MAX comes into force (R99, R100, R116). -/
def State.onSetSeal (s : State) (idx : Nat) : State :=
  match (s.index? idx).filter (fun x => decide (x.sealNo < s.idx.bno) && decide (x.st ≥ 2) && s.probesDone idx) with
  | none => s
  | some x =>
    let s1 : State := { s with idx := { s.idx with
      banks := s.idx.banks.map (fun k =>
        if k.idx == idx && k.st == .gather && decide (k.target ≤ s.idx.bno) then
          { k with st := .sealed_, target := s.idx.bno, rows := s.shRows x k.shoal, code := s.codeRun x k.shoal, qs := sortBy SetQ.ord k.qs } else k)
      setMax := (List.range 4).map (fun d => bits (s.rd (Reg.searchSetCfg d)) 10 0) } }
    let s2 := s1.updIndex idx (fun y => { y with sealNo := s.idx.bno })
    (s2.bindWaiting x (fun _ => true) (s.idx.bno + 1)).monitor

/-- SET_SEAL as a command. -/
def execSetSeal (idx : Nat) (s : State) : Host.Outcome State Fault Refusal := .next (s.onSetSeal idx)

/-- The islands on which a set may scan, first choice first: the own islands of its stack, or where all of them are fenced
those of the other stacks of the die (R101). -/
def State.scanIslands (s : State) (stack : Nat) : List Nat :=
  let own := ((List.range 16).map (fun i => stack * 16 + i)).filter (fun i => !s.flt.islands.contains i)
  if own.isEmpty then ((List.range 128).map (fun i => stack / 8 * 128 + i)).filter (fun i => !s.flt.islands.contains i) else own

/-- Sealed sets of a die in the order in which they take islands (R101). -/
def State.sealedOrder (s : State) (die : Nat) : List Bank :=
  sortBy s.bankKey (s.idx.banks.filter (fun k => k.st == .sealed_ && s.bankStack k / 8 == die))

/-- The first free island that a set may use: no set scans there, and no other set of its shoal is in SCAN. -/
def State.bankIsland (s : State) (k : Bank) : Option Nat :=
  if s.idx.banks.any (fun m => m.st == .scan && m.idx == k.idx && m.shoal == k.shoal) then none
  else (s.scanIslands (s.bankStack k)).find? (fun i => !s.idx.banks.any (fun m => m.st == .scan && m.island == i))

/-- The class of a set's scan pairs: the highest among the queries of a group (R307). -/
def State.groupClass (s : State) (qs : List SetQ) : Nat := ((qs.filter (fun p => !p.out)).map (fun p => s.cmdClass p.r)).foldl max 0

/-- The sequencer tasks of a set's scan: one for each pair of a code block and a group of 32 queries (R103, R307). -/
def State.scanTasks (s : State) (k : Bank) (island : Nat) : State :=
  let func := ((s.index? k.idx).map Index.func).getD 0
  (List.range (cdiv k.rows 32)).foldl (fun s j => (List.range (cdiv k.qs.length 32)).foldl (fun s g =>
    s.addSeqTask island (.scan j g) func (s.groupClass ((k.qs.drop (32 * g)).take 32)) none) s) s

/-- SET_SCAN_START: the first waiting set of a die that may use a free island enters SCAN, and its lists open (R101, R150). -/
def State.onSetScanStart (s : State) (die : Nat) : State :=
  match (s.sealedOrder die).find? (fun k => (s.bankIsland k).isSome) with
  | none => s
  | some k =>
    let i := (s.bankIsland k).getD 0
    let ovr := decide (k.target < s.idx.bno) && !k.late
    let s1 := if ovr then s.count (Reg.searchOverrunCnt (i / 128)) else s
    let kib := bits (s1.rd (Reg.selectListCfg (i / 128))) 10 0
    ({ s1 with idx := { s1.idx with
      banks := updWhere (fun y => y == k) (fun y => { y with st := .scan, island := i, kib := kib, late := k.late || ovr }) s1.idx.banks } } : State).scanTasks
        k i

/-- SET_SCAN_START as a command. -/
def execSetScanStart (die : Nat) (s : State) : Host.Outcome State Fault Refusal := .next (s.onSetScanStart die)

/-- The candidates that a stage keeps of a query's scan (R105, R151): the C + 1 best by rank and slot with the tie tail, and
the number of tied entries dropped. -/
def keepScan (small : Bool) (c : Nat) (es : List Ent) : List Ent × Nat :=
  let sorted := sortBy (fun e => rankF small e.score * 2 ^ 34 + e.slot) es
  match sorted[c]? with
  | none => (sorted, 0)
  | some g =>
    let tail := (sorted.drop (c + 1)).filter (fun e => rankF small e.score == rankF small g.score)
    (sorted.take (c + 1) ++ tail.take 255, tail.length - 255)

/-- A set's part of a query, and what the set's stage counts for it. -/
structure ScanOut where
  q : SetQ
  drops : Nat
  nans : Nat

/-- Scores the code blocks of a set for the query at place `i` of its order (R103 to R105, R149, R151): each block meets the query's
column of its group; the rows that pass the tests go to the island stage as one run of a block; the stage keeps the best by rank and
slot. -/
def State.scanFor (s : State) (x : Index) (k : Bank) (i : Nat) (p : SetQ) (q : Query) (es : List LogEnt) (blocks : List Nat) : ScanOut :=
  let b := s.qBody q.r
  let base := s.shBase x k.shoal
  let qc := ((q.order.find? (fun o => o.1 == k.shoal)).map (fun o => o.2)).getD 0
  let outs := blocks.map (fun j =>
    let rows := (List.range (min 32 (k.rows - j * 32))).map (fun t => j * 32 + t)
    let dots := tileDots (genState (searchSeed true x.no k.shoal j (i / 32)) (i % 32)) q.codes q.scales
      (rows.map (fun r => (s.rowCodes x k.code r, s.rowScales x k.code r)))
    let vis := (rows.zip dots).filter (fun r => s.rowVisible x k.shoal r.1 q.epoch es)
    let pas := vis.filter (fun r => s.passesFilters x b (base + r.1) q.epoch)
    (vis.length, pas.map (fun r =>
      ({ score := scanScore x.metric (fAdd qc r.2) (s.rowNorm x k.code r.1) q.norm, id := 0, ord := s.fix.ord, slot := base + r.1 } : Ent))))
  let c := searchC x b
  let sent := sendRuns (rankF x.small) c (outs.map (fun o => o.2))
  let kept := keepScan x.small c sent.1
  { q := { p with thr := sent.2, cand := kept.1, vis := (outs.map (fun o => o.1)).sum, pass := (outs.map (fun o => o.2.length)).sum, skipped := false }
    drops := kept.2, nans := nanEnts sent.1 }

/-- Whether a filter block of a set's shoal is skipped (R84): the tombstones pass none of its slots for the earliest epoch bound to the
set, or no query's filters pass any. -/
def State.setSkips (s : State) (x : Index) (k : Bank) (qs : List Query) (blk : Nat) (es : List LogEnt) : Bool :=
  s.tombsNone x k.shoal blk ((qs.map Query.epoch).foldl min (qs.head?.map Query.epoch |>.getD 0)) es ||
    qs.all (fun q => s.filtersNone x (s.qBody q.r) blk q.epoch)

/-- Quarantined rows of a shoal whose earlier-sealed sets have all reached REPORT leave quarantine (R138): the tombstone bits of those
still at or above ROWS are cleared, and all their slots have held no item since the compaction (R77). -/
def State.releaseQuar (s : State) (x : Index) (h : Nat) : State :=
  let sh := s.shoalSt x.no h
  let ready (q : Nat × Nat × Nat) : Bool := !s.idx.banks.any (fun k => k.idx == x.no && k.shoal == h && k.st != .gather && k.st != .report &&
    decide (k.target < q.2.2))
  let out := sh.quar.filter ready
  if out.isEmpty then s
  else
    let rows := s.shRows x h
    let s1 := out.foldl (fun s q =>
      let rs := (List.range (q.2.1 - q.1)).map (fun i => q.1 + i)
      let open_ := (rs.filter (fun r => decide (rows ≤ r))).map (fun r => (s.shBase x h + r, false))
      rs.foldl (fun s r => s.putId x (s.shBase x h + r) padId false) (s.tombCommit x s.idx.epoch open_)) s
    s1.putShoalSt { sh with quar := sh.quar.filter (fun q => !ready q) }

/-- What a scan reads: the code blocks read, the leaves of mixed blocks and the entries of the epoch log (R103, R115, R318). -/
def State.scanTraffic (s : State) (x : Index) (k : Bank) (blocks : List Nat) : State :=
  let s1 := match k.code with
    | some o => blocks.foldl (fun (s : State) j => s.objTraffic x.func o false (j * x.blockBytes) x.blockBytes) s
    | none => s
  let s2 := s1.hTraffic x.func x.func (s.shLog x k.shoal) false 0 (8 * (s.logEnts x k.shoal).length)
  let blks := (s.shBlocks x k.shoal).take (cdiv k.rows 4096)
  let copies := s.setCopies x k
  copies.foldl (fun (s : State) (c : Nat × Nat) => blks.foldl (fun (s : State) b => match s.bmBlk x.func c.1 c.2 b with
    | .leaf n => s.hTraffic x.func x.func c.1 false (s.bmLeafOff x.func c.1 n) 512
    | _ => s) s) s2

/-- SET_SCAN_DONE: the last code block of the island's set is scored for every query, and its pairs' tasks have ended. `bad` names code
blocks that could not be rebuilt; they are skipped and counted (R103 to R106). Long lists stand as sorted runs (R150). -/
def State.onSetScanDone (s : State) (island : Nat) (bad : List Nat) : State :=
  match s.idx.banks.find? (fun k => k.st == .scan && k.island == island) with
  | none => s
  | some k => match s.index? k.idx with
    | none => s
    | some x =>
      let die := island / 128
      let es := s.logEnts x k.shoal
      let qs := k.qs.filterMap s.setQuery
      let first := s.shBase x k.shoal / 4096
      let read := (List.range (cdiv k.rows 32)).filter (fun j => !s.setSkips x k qs (first + j / 128) es)
      let lost := read.filter (fun j => bad.contains j || (match k.code with
        | some o => !s.objReadable o (j * x.blockBytes) x.blockBytes
        | none => true))
      let outs := k.qs.mapIdx (fun i p => match s.setQuery p with
        | some q => s.scanFor x k i p q es (read.filter (fun j => !lost.contains j))
        | none => { q := p, drops := 0, nans := 0 })
      let drops := (outs.map (fun o => o.drops)).sum
      let nans := (outs.map (fun o => o.nans)).sum
      let badDir := s.badReads x (qs.flatMap (fun q => s.copiesOf x (s.qBody q.r) q.epoch)) ((List.range (cdiv k.rows 4096)).map (fun i => first + i))
      let s0 := s.seqOver (fun t => t.island == island && (match t.kind with
        | .scan _ _ => true
        | _ => false))
      let s1 := s0.count (Reg.searchSetsCnt die)
      let s2 := if lost.isEmpty then s1 else s1.count (Reg.searchScanSkipBlkCnt die) lost.length
      let s3 := if drops > 0 then s2.count (Reg.selectTieTailDropCnt die) drops else s2
      let s4 := if badDir > 0 then s3.count Reg.indexFilterBadCnt badDir else s3
      let s5 := if nans > 0 then s4.count (Reg.selectNanCnt die) nans else s4
      let s6 := outs.foldl (fun s o => s.keepRuns o.q.r k.shoal island (searchC x (s.qBody o.q.r)) o.q.cand.length k.kib) s5
      let s6a := s6.scanTraffic x k read
      let s7 : State := { s6a with idx := { s6a.idx with
        scanned := updAt (s.bankStack k) (fun n => n + read.length * x.blockBytes) s6a.idx.scanned
        banks := updWhere (fun y => y == k) (fun y =>
          { y with st := .report, qs := outs.map (fun o => { o.q with skipped := !lost.isEmpty }) }) s6a.idx.banks } }
      s7.releaseQuar x k.shoal

/-- SET_SCAN_DONE as a command. -/
def execSetScanDone (island : Nat) (bad : List Nat) (s : State) : Host.Outcome State Fault Refusal := .next (s.onSetScanDone island bad)

/-- The list that a die's merge stage holds of a query. -/
def Query.dieList (q : Query) (die : Nat) : List Ent := ((q.lists.find? (fun e => e.1 == die)).map (fun e => e.2)).getD []

/-- A query's part of a reported set: the island stage orders its candidates by item ID and cuts them, and the die's merge stage takes them
into its list (R105, R151, R152). The duplicates that both remove are counted on the die. Scores of a query that was aborted are
discarded (R114). -/
def State.reportPart (x : Index) (die : Nat) (s : State) (p : SetQ) : State :=
  match s.setQuery p with
  | none => s
  | some q =>
    let c := searchC x (s.qBody p.r)
    let m := mergeEnts (rankF x.small) (c + 1) (p.cand.map (fun e => { e with id := s.slotId x e.slot }))
    let d := mergeEnts (rankF x.small) (c + 1) (q.dieList die ++ m.1)
    let dup := m.2 + d.2
    let s0 := p.cand.foldl (fun s e => s.hTraffic x.func x.func x.hMap false (8 * e.slot) 8) s
    let s1 := if dup > 0 then s0.count (Reg.selectDupCnt die) dup else s0
    s1.updQuery p.r (fun q =>
      { q with lists := q.lists.filter (fun e => e.1 != die) ++ [(die, d.1)], nBound := q.nBound - 1, probesDone := q.probesDone + 1
               vis := q.vis + p.vis, pass := q.pass + p.pass, dup := q.dup + dup, skipped := q.skipped || p.skipped })

/-- SET_REPORT_DONE: the candidates are translated to item IDs, each query's list goes to the select network, the bank
empties, and probes that wait for one bind (R77, R99, R105, R151, R152). -/
def State.onSetReportDone (s : State) (island : Nat) : State :=
  match s.idx.banks.find? (fun k => k.st == .report && k.island == island) with
  | none => s
  | some k => match s.index? k.idx with
    | none => s
    | some x =>
      let s1 := k.qs.foldl (State.reportPart x (island / 128)) s
      let s2 := s1.dropRuns (fun r => r.island == island && r.key == k.shoal && k.qs.any (fun p => p.r == r.cmd))
      let s3 : State := { s2 with idx := { s2.idx with banks := s2.idx.banks.filter (fun y => y != k) } }
      s3.bindWaiting x (fun h => h == k.shoal) (s.idx.bno + 1)

/-- SET_REPORT_DONE as a command. -/
def execSetReportDone (island : Nat) (s : State) : Host.Outcome State Fault Refusal := .next (s.onSetReportDone island)

/-! ## Merging, re-rank and completion -/

/-- QUERY_ROUND_MERGED: every set of the round has reported. A filtered query short of k passing rows starts a further round; otherwise the
H stage merges the lists of the die stages (R107, R145, R146, R152). The die stages hold their lists from round to round. -/
def State.onQueryRoundMerged (s : State) (q : CmdRef) : State :=
  match (s.query? q).filter (fun y => y.st == .scanning && y.nBound == 0 && y.waiting.isEmpty) with
  | none => s
  | some y => match s.index? y.idx with
    | none => s
    | some x =>
      let b := s.qBody q
      let named := (searchF1 b).isSome || (searchF2 b).isSome
      if named && decide (y.pass < searchK b) && decide (y.pos < y.order.length) && decide (y.level < 2) then
        let s1 := (s.count (Reg.searchWidenCnt x.die)).updQuery q (fun z => { z with rounds := z.rounds + 1 })
        (s1.startRound x { y with rounds := y.rounds + 1 } y.taken (s.idx.bno + 1))
      else
        let m := mergeEnts (rankF x.small) (searchC x b + 1) (y.lists.flatMap (fun e => e.2))
        let s1 := if m.2 > 0 then s.count (Reg.selectDupCnt 4) m.2 else s
        s1.updQuery q (fun z => { z with st := .merged, merged := m.1, lists := [], dup := z.dup + m.2 })

/-- QUERY_ROUND_MERGED as a command. -/
def execQueryRoundMerged (q : CmdRef) (s : State) : Host.Outcome State Fault Refusal := .next (s.onQueryRoundMerged q)

/-- Whether a query re-ranks: its resolved RERANK is not 0 and no fallback level is applied (R109). -/
def State.reranks (s : State) (x : Index) (y : Query) : Bool := resolveRerank x (s.qBody y.r) != 0 && y.level == 0

/-- The slot from whose record a candidate is re-scored: its own, or under MULTI = 1 the item's other placement (R110). -/
def State.rerankSlot (s : State) (x : Index) (bad : List Nat) (e : Ent) : Option Nat :=
  let ok (sl : Nat) : Bool := s.vecReadable x sl && !bad.contains sl
  if ok e.slot then some e.slot
  else if x.multi then
    match s.dirLookup x e.id with
    | some (p, n) => (dirSlots (s.dirEnt x p n)).find? (fun sl => sl != e.slot && ok sl)
    | none => none
  else none

/-- RERANK_DONE: the best RERANK candidates are scored from their full vectors; `unreadable` names slots whose records cannot
be read (R109, R110, R152). -/
def State.onRerankDone (s : State) (q : CmdRef) (unreadable : List Nat) : State :=
  match s.query? q with
  | none => s
  | some y => match (s.index? y.idx).filter (fun x => y.st == .merged && s.reranks x y) with
    | none => s
    | some x =>
      let b := s.qBody q
      let k := searchK b
      let cand := y.merged.take (resolveRerank x b)
      let scored := cand.map (fun e => match s.rerankSlot x unreadable e with
        | some sl =>
          let norm := match s.slotPlace x e.slot with
            | some (h, r) => s.rowNorm x (s.codeRun x h) r
            | none => 0
          ({ e with score := rerankScore x.metric y.vec (s.slotVec x sl) y.norm norm }, false)
        | none => (e, true))
      let bad := (scored.filter (fun p => p.2)).length
      let sorted := sortBy (Ent.key (rankF x.small)) (scored.map (fun p => p.1))
      let n := x.dims * elemBytes x.vecFmt
      let sr := cand.foldl (fun s e => match s.rerankSlot x unreadable e with
        | some sl => s.hTraffic x.func x.func x.hVec false (sl * n) n
        | none => s) s
      let s0 := if bad > 0 then sr.count (Reg.searchRerankErrCnt x.die) bad else sr
      let nans := nanEnts (scored.filterMap (fun p => if p.2 then none else some p.1))
      let s1 := if nans > 0 then s0.count (Reg.selectNanCnt 4) nans else s0
      (s1.updQuery q (fun z =>
        { z with st := .final, result := sorted.take k, tie := tieAtK (rankF x.small) k sorted, rrPart := decide (bad > 0) }))

/-- RERANK_DONE as a command. -/
def execRerankDone (q : CmdRef) (unreadable : List Nat) (s : State) : Host.Outcome State Fault Refusal := .next (s.onRerankDone q unreadable)

/-- The result body of R111 and R112. -/
def State.resultBody (s : State) (x : Index) (y : Query) (res : List Ent) (tie missed : Bool) (status : Nat) : Body :=
  let k := searchK (s.qBody y.r)
  let n := min k res.length
  let kind := !(s.reranks x y)
  let hdr := n + status * 2 ^ 16 + y.level * 2 ^ 24 + b2n kind * 2 ^ 26 + b2n tie * 2 ^ 27 + b2n missed * 2 ^ 28 +
    b2n y.rrPart * 2 ^ 29 + b2n y.skipped * 2 ^ 30 + (k - 1) * 2 ^ 32 + y.epoch % 2 ^ 64 * 2 ^ 64 +
    min y.probesDone (2 ^ 21 - 1) * 2 ^ 128 + min y.dup 0xFFFF * 2 ^ 160 + min y.vis (2 ^ 40 - 1) * 2 ^ 192
  leBytes 32 hdr ++ ((padList x.small k res).map entBytes).flatten

/-- SEARCH_COMPLETE: the completion with its result list is queued, and what only this query still held is let go (R93,
R108, R111 to R113, R117). -/
def State.onSearchComplete (s : State) (q : CmdRef) : State :=
  match s.query? q with
  | none => s
  | some y => match (s.index? y.idx).filter (fun x => y.st == .final || (y.st == .merged && !s.reranks x y)) with
    | none => s
    | some x =>
      let b := s.qBody q
      let k := searchK b
      let res := if y.st = .final then y.result else y.merged.take k
      let tie := if y.st = .final then y.tie else tieAtK (rankF x.small) k y.merged
      let short := decide (res.length < k)
      let named := (searchF1 b).isSome || (searchF2 b).isSome
      let status := if !short then Status.ok else if named && decide (k ≤ y.vis) then Status.filterShort else Status.budgetShort
      let missed := match s.deadline? q with
        | some d => decide (s.now > d)
        | none => false
      let body := s.resultBody x y res (tie && !short) missed status
      let s1 := if missed then s.count (Reg.searchDeadlineMissCnt x.die) else s
      let s4 := s1.countList 4 k res.length
      let s5 : State := { s4 with idx := { s4.idx with queries := s4.idx.queries.filter (fun z => z.r != q) } }
      ((s5.complete q status body).retireEpochs x)

/-- SEARCH_COMPLETE as a command. -/
def execSearchComplete (q : CmdRef) (s : State) : Host.Outcome State Fault Refusal := .next (s.onSearchComplete q)

/-- An abort takes a search out of the sets still in GATHER, and the banks that this empties take probes that wait; its part of a sealed set
stays there without a query, and its scores are discarded as they arrive (R114). -/
def State.dropQuery (s : State) (q : CmdRef) : State :=
  let s := s.seqOver (fun t => t.kind == .probe && t.cmd == some q)
  let banks := s.idx.banks.map (fun k => if k.st = .gather then { k with qs := k.qs.filter (fun p => p.r != q) } else k)
  let s1 : State := { s with idx := { s.idx with queries := s.idx.queries.filter (fun z => z.r != q)
                                                 banks := banks.filter (fun k => k.st != .gather || !k.qs.isEmpty) } }
  match ((s.query? q).bind (fun y => s.index? y.idx)) with
  | some x => s1.bindWaiting x (fun _ => true) (s.idx.bno + 1)
  | none => s1

end Sys2Proof.Machine
end

