-- ==== Sys2Proof/Machine/Mutate.lean ====
section
/-! DEFINITION. MUTATE from intake to commit, epochs across an archipelago, and compaction (R120 to R142). -/

namespace Sys2Proof.Machine

/-! ## The command (R120 to R123) -/

/-- The operations of a mutation record (R121 Table 2). -/
def recBytes (x : Index) (op : Nat) : Nat := if op = 1 ∨ op = 3 then 32 + x.dims * elemBytes x.vecFmt else 32

/-- The offsets of `n` records from offset `off` on, and the offset past the last. -/
def recOffs (x : Index) (b : Body) : Nat → Nat → List Nat × Nat
  | 0, off => ([], off)
  | n + 1, off =>
    let r := recOffs x b n (off + recBytes x (fld (b.drop off) 51 48))
    (off :: r.1, r.2)

/-- The handle of FILTj. -/
def mutFilt (b : Body) (j : Nat) : Nat := fld b (159 + 32 * j) (128 + 32 * j)

/-- The enabled filters, as (j, handle). -/
def mutFilts (b : Body) : List (Nat × Nat) := ((List.range 8).filter (fun j => bit (fld b 391 384) j)).map (fun j => (j, mutFilt b j))

/-- Whether one record meets R123. -/
def recOk (x : Index) (b : Body) (off : Nat) : Bool :=
  let r := b.drop off
  let op := fld r 51 48
  let place := op == 1 || op == 3
  let ben := fld r 52 52
  let a := fld r 83 64
  let c := fld r 115 96
  decide (1 ≤ op) && decide (op ≤ 4) && fld r 63 53 == 0 && fld r 95 84 == 0 && fld r 127 116 == 0 && fld r 255 144 == 0 &&
  (if place then
    decide (a < x.nShoals) && (if ben = 1 then decide (c < x.nShoals) && x.multi && c != a else c == 0) &&
    (vecF32 x.vecFmt x.dims (r.drop 32)).all (fun w => !notFinite w)
   else ben == 0 && a == 0 && c == 0) &&
  (if op = 2 then fld r 135 128 == 0 && fld r 143 136 == 0 else true) &&
  (List.range 8).all (fun j => !bit (fld r 135 128) j || bit (fld b 391 384) j)

/-- The checks of R123 in their order. -/
def chkMutate : BodyCheck := fun s h b =>
  let refuse (st : Nat) : Option (Nat × Body) := some (st, leBytes 16 (st + fld b 27 16 * 2 ^ 16))
  match s.readyIndex h.func (fld b 5 0) with
  | none => refuse Status.indexNotReady
  | some x =>
    if (mutFilts b).any (fun f => !s.isBitmap x f.2 0) then refuse Status.filterParam
    else
      let ro := recOffs x b (fld b 27 16 + 1) 64
      if fld b 15 6 ≠ 0 ∨ fld b 63 28 ≠ 0 ∨ fld b 511 392 ≠ 0 ∨ ro.2 ≠ b.length ∨ !ro.1.all (recOk x b) ∨
          ((mutFilts b).map (fun f => f.2)).eraseDups.length ≠ (mutFilts b).length ∨
          fld b 127 64 > s.idx.epoch + 256 then
        refuse Status.mutateParam
      else none

/-- What a stamped MUTATE starts: it waits to be staged (R124). -/
def actMutate : CmdAct := fun r l s =>
  match s.heldIndex l.h.func (fld l.body 5 0) with
  | none => s.complete r Status.indexNotReady []
  | some x =>
    let m : Staged :=
      { r := r, idx := x.no, ord := s.idx.qOrd, bno := (s.markOf l.island).2, commitAt := fld l.body 127 64,
        count := fld l.body 27 16 + 1, recs := none, deferred := false }
    { s with idx := { s.idx with staged := s.idx.staged ++ [m], qOrd := s.idx.qOrd + 1 } }

def isMutate (h : CmdHdr) (_ : Body) : Bool := h.opcode == Op.mutate

/-- MUTATE: checked at intake, refused or accepted for stamping (R123). -/
def execMutate (h : CmdHdr) (b : Body) (s : State) : Host.Outcome State Fault Refusal :=
  .next (s.command isMutate chkMutate actMutate h b)

/-! ## Staging (R124, R125) -/

/-- The staged records of an index, oldest first. -/
def State.stagedRecs (s : State) (i : Nat) : List StRec :=
  ((s.idx.staged.filter (fun m => m.idx == i)).map (fun m => m.recs.getD [])).flatten

/-- The slots of an item as the committed state and the records staged so far leave it, SLOT_A first; none where it is not
live. -/
def State.itemSlots (s : State) (x : Index) (id : Nat) (staged : List StRec) : Option (List Nat) :=
  match (staged.filter (fun r => r.id == id && r.status == 0 && r.op != 4)).getLast? with
  | some r => if r.op = 2 then none else some (r.places.map (fun p => s.shBase x p.1 + p.2))
  | none => (s.dirLookup x id).map (fun p => dirSlots (s.dirEnt x p.1 p.2))

/-- The next free row at or above ROWS, in staging order (R125): it lies above every row that an earlier-staged record has taken, so that
rows commit and are passed by ROWS in their order. A row below such a row that has left quarantine since is not given to a later record
(DESIGN CHOICE, log entry 69). -/
def State.freeRow (s : State) (x : Index) (h : Nat) : Option Nat :=
  let sh := s.shoalSt x.no h
  let from_ := (sh.staged ++ sh.above).foldl (fun n r => max n (r + 1)) (s.shRows x h)
  ((List.range (s.shCap x h - from_)).map (fun i => from_ + i)).find? (fun r =>
    !sh.abandoned.contains r && !sh.quar.any (fun q => decide (q.1 ≤ r) && decide (r < q.2.1)))

/-- The filter bits that staged records give, in order, for one filter. -/
def filtBits (rs : List StRec) (f : Nat) : List (Nat × Bool) :=
  ((rs.filter (fun r => r.status == 0)).map (fun r => (r.fbits.filter (fun e => e.1 == f)).map (fun e => e.2))).flatten

/-- A filter bit of a slot with the staged records applied. -/
def State.stagedBit (s : State) (x : Index) (f slot : Nat) (rs : List StRec) : Bool :=
  match ((filtBits rs f).filter (fun e => e.1 == slot)).getLast? with
  | some e => e.2
  | none => s.bmBit x.func f (s.bmCur x.func f) slot

/-- Whether changes of a filter need more leaves than LEAF_CAP, beside those in use, those not yet freed and those that staging has
written (R81). -/
def State.filterFull (s : State) (x : Index) (f : Nat) (cs : List (Nat × Bool)) : Bool :=
  let pre := (s.filt x.func f x.no).pre
  let new := (s.mixedBlks x.func f cs (changedBlks cs)).filter (fun b => !pre.any (fun e => e.1 == b))
  decide ((s.bmUsed x.func f x.no).length + new.length > s.bmLeafCap x.func f)

/-- Writes the new filter leaves of one more record into free leaves (R125); `rs` are the records staged so far, that one included. -/
def State.stageFilters (s : State) (x : Index) (fb : List (Nat × Nat × Bool)) (rs : List StRec) : State :=
  ((fb.map (fun e => e.1)).eraseDups).foldl (fun s f =>
    s.stageLeaves x.func f x.no (filtBits rs f) (changedBlks ((fb.filter (fun e => e.1 == f)).map (fun e => e.2)))) s

/-- The directory entries that an UPSERT reads to take over the bits of an item's old placement, and that name a leaf at or above LEAF_CAP
(R122, R461). -/
def State.badOld (s : State) (x : Index) (op : Nat) (old : Option (List Nat)) : Nat :=
  match op, old with
  | 3, some (a :: _) => ((s.filtersOf x).filter (fun f => s.bmBlk x.func f (s.bmCur x.func f) (a / 4096) == .bad)).length
  | _, _ => 0

/-- The bits that a record's new placements or a FILTER_SET take (R122). -/
def State.recBits (s : State) (x : Index) (b r : Body) (slots : List Nat) (old : Option (List Nat)) (rs : List StRec) :
    List (Nat × Nat × Bool) :=
  let op := fld r 51 48
  let named := (mutFilts b).filter (fun f => bit (fld r 135 128) f.1)
  let give (f : Nat) : Option Bool :=
    match named.find? (fun n => n.2 == f) with
    | some n => some (bit (fld r 143 136) n.1)
    | none =>
      if op = 4 then none
      else match op, old with
        | 3, some (a :: _) => some (s.stagedBit x f a rs)
        | _, _ => some (s.hFld x.func f 0 9 9 == 1)
  (s.filtersOf x).flatMap (fun f => match give f with
    | some v => (slots.filter (fun sl => s.stagedBit x f sl rs != v)).map (fun sl => (f, sl, v))
    | none => [])

/-- Decides one record and stages it (R121 to R125). -/
def State.stageRec (s : State) (x : Index) (b : Body) (off : Nat) (done : List StRec) : State × StRec :=
  let r := b.drop off
  let op := fld r 51 48
  let id := fld r 47 0
  let rs := s.stagedRecs x.no ++ done
  let bad (st : Nat) : State × StRec := (s, { status := st, op := op, id := id, places := [], removes := [], fbits := [] })
  if id = padId then bad Status.itemIdReserved
  else
    let live := s.itemSlots x id rs
    let s := s.hTraffic x.func x.func x.hDir false (4096 * x.home id) 4096
    if op = 1 ∧ live.isSome then bad Status.itemExists
    else if (op = 2 ∨ op = 4) ∧ live.isNone then bad Status.itemNotFound
    else if op = 2 then (s, { status := 0, op := 2, id := id, places := [], removes := live.getD [], fbits := [] })
    else if op = 4 then
      let fb := s.recBits x b r (live.getD []) none rs
      if (fb.map (fun e => e.1)).eraseDups.any (fun f => s.filterFull x f (filtBits rs f ++ (fb.filter (fun e => e.1 == f)).map (fun e => e.2)))
      then bad Status.filterFull
      else
        let y : StRec := { status := 0, op := 4, id := id, places := [], removes := [], fbits := fb }
        (s.stageFilters x fb (rs ++ [y]), y)
    else
      let ha := fld r 83 64
      let hs := if fld r 52 52 = 1 then [ha, fld r 115 96] else [ha]
      let places := hs.map (fun h => (h, s.freeRow x h))
      if places.any (fun p => p.2.isNone) then bad Status.shoalFull
      else
        let pl := places.map (fun p => (p.1, p.2.getD 0))
        let slots := pl.map (fun p => s.shBase x p.1 + p.2)
        let fb := s.recBits x b r slots live rs
        if (fb.map (fun e => e.1)).eraseDups.any (fun f => s.filterFull x f (filtBits rs f ++ (fb.filter (fun e => e.1 == f)).map (fun e => e.2)))
        then bad Status.filterFull
        else
          let raw := (r.drop 32).take (x.dims * elemBytes x.vecFmt)
          let v := vecF32 x.vecFmt x.dims raw
          let s1 := (pl.zipIdx).foldl (fun s p =>
            let slot := s.shBase x p.1.1 + p.1.2
            let s := s.writeRow x p.1.1 p.1.2 v
            let s := s.putId x slot id (p.2 == 1)
            let s := s.hPut x.func x.hVec (slot * raw.length) raw
            let sh := s.shoalSt x.no p.1.1
            s.putShoalSt { sh with staged := sh.staged ++ [p.1.2] }) s
          let y : StRec := { status := 0, op := op, id := id, places := pl, removes := if op = 3 then live.getD [] else [], fbits := fb }
          let n := s.badOld x op live
          ((if n > 0 then s1.count Reg.indexFilterBadCnt n else s1).stageFilters x fb (rs ++ [y]), y)

/-- MUTATE_STAGING: the earliest stamped command of the index that is not staged is staged record by record (R124, R125). -/
def State.onMutateStaging (s : State) (idx : Nat) : State :=
  match s.idx.staged.find? (fun m => m.idx == idx && m.recs.isNone), s.index? idx with
  | some m, some x =>
    let b := s.qBody m.r
    let r := (recOffs x b m.count 64).1.foldl (fun (a : State × List StRec) off =>
      let p := a.1.stageRec x b off a.2
      (p.1, a.2 ++ [p.2])) (s, [])
    { r.1 with idx := { r.1.idx with
      staged := updWhere (fun y => y.r == m.r) (fun y => { y with recs := some r.2 }) r.1.idx.staged } }
  | _, _ => s

/-- MUTATE_STAGING as a command. -/
def execMutateStaging (idx : Nat) (s : State) : Host.Outcome State Fault Refusal := .next (s.onMutateStaging idx)

/-- Whether an abort of a MUTATE is in time (R129): it has not committed, and no record staged after it names one of its
items. -/
def State.mutateAbortable (s : State) (r : CmdRef) : Bool :=
  match s.idx.staged.find? (fun m => m.r == r) with
  | none => true
  | some m =>
    let ids := (m.recs.getD []).map (fun e => e.id)
    let later := (s.idx.staged.filter (fun y => y.idx == m.idx && decide (y.ord > m.ord))).flatMap (fun y => y.recs.getD [])
    !later.any (fun e => ids.contains e.id)

/-- Takes a MUTATE out of the staged commands; its rows become abandoned rows, and its leaves are freed at the next boundary (R129). -/
def State.dropMutate (s : State) (r : CmdRef) : State :=
  match s.idx.staged.find? (fun m => m.r == r) with
  | none => s
  | some m =>
    let rows := ((m.recs.getD []).map (fun e => e.places)).flatten
    let s1 : State := { s with idx := { s.idx with staged := s.idx.staged.filter (fun y => y.r != r) } }
    rows.foldl (fun s p =>
      let sh := s.shoalSt m.idx p.1
      s.putShoalSt { sh with staged := sh.staged.filter (fun y => y != p.2), abandoned := sh.abandoned ++ [p.2] }) s1

/-! ## Commit at a boundary (R126 to R129) -/

/-- The log entries that a command's records add to a shoal. -/
def State.logNeed (s : State) (x : Index) (rs : List StRec) (h : Nat) : Nat :=
  ((rs.filter (fun r => r.status == 0)).map (fun r => (r.places.filter (fun p => p.1 == h)).length +
    (r.removes.filter (fun sl => (s.slotPlace x sl).map (fun p => p.1) == some h)).length)).sum

/-- The shoals that a command's records touch. -/
def State.recShoals (s : State) (x : Index) (rs : List StRec) : List Nat :=
  (rs.flatMap (fun r => r.places.map (fun p => p.1) ++ r.removes.filterMap (fun sl => (s.slotPlace x sl).map (fun p => p.1)))).eraseDups

/-- Whether every epoch log has room for a command (R85, R126). -/
def State.logRoom (s : State) (x : Index) (rs : List StRec) : Bool :=
  (s.recShoals x rs).all (fun h => decide ((s.logEnts x h).length + s.logNeed x rs h ≤ 4096))

/-- The directory after one record. -/
def State.dirOne (s : State) (x : Index) (r : StRec) : State :=
  let slots := r.places.map (fun p => s.shBase x p.1 + p.2)
  if r.op = 2 then s.dirDelete x r.id
  else if r.op = 4 then s
  else s.dirInsert x r.id (slots.headD 0) slots[1]?

/-- The directory after a command's records. -/
def State.dirAfter (s : State) (x : Index) (rs : List StRec) : State :=
  (rs.filter (fun r => r.status == 0)).foldl (fun s r => s.dirOne x r) s

/-- Whether a command holds a record that would take a new directory entry, each record judged with those before it placed. -/
def State.newEntry (s : State) (x : Index) (rs : List StRec) : Bool :=
  ((rs.filter (fun r => r.status == 0)).foldl (fun (a : State × Bool) r =>
    (a.1.dirOne x r, a.2 || ((r.op == 1 || r.op == 3) && (a.1.dirLookup x r.id).isNone))) (s, false)).2

/-- Whether the directory keeps the share of free entries that R79 requires. -/
def State.dirRoom (s : State) (x : Index) (rs : List StRec) : Bool :=
  !s.newEntry x rs || decide ((s.dirAfter x rs).dirFree x * 16 ≥ 2 ^ x.dirExp * 256)

/-- The filters that records change. -/
def recFilters (rs : List StRec) : List Nat :=
  ((rs.filter (fun r => r.status == 0)).flatMap (fun r => r.fbits.map (fun e => e.1))).eraseDups

/-- Whether the copy that a commit to a filter would write is in use by a query in flight (R81). -/
def State.copyInUse (s : State) (x : Index) (f : Nat) : Bool :=
  s.cmd.live.any (fun l => decide (l.h.opcode = Op.search) && fld l.body 5 0 == x.no &&
    (l.stage == .delivered || l.stage == .running) && (searchF1 l.body == some f || searchF2 l.body == some f) &&
    s.filterCopy x.func f x.no l.epoch != s.bmCur x.func f)

/-- Sets ROWS of a shoal. -/
def State.setRows (s : State) (x : Index) (h n : Nat) : State := s.shSet x h 120 96 n

/-- Adds to LIVE of a shoal. -/
def State.addLive (s : State) (x : Index) (h : Nat) (d : Int) : State :=
  s.shSet x h 184 160 (((s.shFld x h 184 160 : Nat) : Int) + d).toNat

/-- Steps 2 and 3 of Table 4 for one record of a committing command; `settleRows` then raises ROWS. -/
def State.commitRec (s : State) (x : Index) (m : Nat) (r : StRec) : State :=
  if r.status ≠ 0 then s
  else
    let rem := r.removes.filterMap (fun sl => s.slotPlace x sl)
    let s1 := r.places.foldl (fun s p => s.logAdd x p.1 p.2 1 m) s
    let s2 := rem.foldl (fun s p => s.logAdd x p.1 p.2 2 m) s1
    let s3 := s2.tombCommit x m (rem.map (fun p => (s.shBase x p.1 + p.2, true)) ++ r.places.map (fun p => (s.shBase x p.1 + p.2, false)))
    let s4 := r.places.foldl (fun s p =>
      let sh := s.shoalSt x.no p.1
      let s := s.putShoalSt { sh with staged := sh.staged.filter (fun y => y != p.2), above := sh.above ++ [p.2] }
      s.addLive x p.1 1) s3
    let s5 := rem.foldl (fun s p => s.addLive x p.1 (-1)) s4
    let s6 := s5.dirAfter x [r]
    let d : Int := (if r.op = 2 then -1 else if r.op = 4 then 0 else if r.removes.isEmpty then 1 else 0)
    s6.updIndex x.no (fun y => { y with live := ((y.live : Int) + d).toNat })

/-- The completion body of a MUTATE (R128). -/
def mutateBody (count epoch : Nat) (rs : List StRec) : Nat × Body :=
  let ok := (rs.filter (fun r => r.status == 0)).length
  let st := if ok = rs.length then Status.ok else Status.mutatePartial
  let bytes := rs.map (fun r => BitVec.ofNat 8 r.status)
  (st, leBytes 16 (st + (count - 1) * 2 ^ 16 + ok * 2 ^ 32 + epoch % 2 ^ 64 * 2 ^ 64) ++ bytes ++
    List.replicate (roundUp bytes.length 16 - bytes.length) 0)

/-- What a boundary's commits on one index have done so far: the records, the filter changes, the commands and their
completion bodies, and whether an earlier command waits. -/
structure Commits where
  n : Nat
  fch : List (Nat × Nat × Bool)
  done : List (CmdRef × Nat × Body)
  ids : List Nat
  stop : Bool

/-- Whether a block of a filter has a leaf: its own, or one that staging has written for it. -/
def State.hasLeaf (s : State) (x : Index) (f b : Nat) : Bool :=
  (s.filt x.func f x.no).pre.any (fun e => e.1 == b) || (match s.bmBlk x.func f (s.bmCur x.func f) b with
    | .leaf _ => true
    | _ => false)

/-- Whether the filter changes of a boundary so far, with a command's, find their leaves beside those that the records `later` need (R81,
R126). The commit waits for leaves that are not yet freed; where none will be, it waits until no query of an earlier epoch is in flight, and
a block then keeps its own leaf (DESIGN CHOICE, log entry 68). A block that has none and turns mixed waits for a free one. -/
def State.leavesFit (s : State) (x : Index) (m : Nat) (fch : List (Nat × Nat × Bool)) (later : List StRec) (fs : List Nat) : Bool :=
  fs.all (fun f =>
    let cs := (fch.filter (fun e => e.1 == f)).map (fun e => e.2)
    !s.filterFull x f (cs ++ filtBits later f) ||
      ((s.filt x.func f x.no).toFree.isEmpty && s.noneBefore x.no m && (s.mixedBlks x.func f cs (changedBlks cs)).all (s.hasLeaf x f)))

/-- Commits one command at boundary number `m`, or lets it wait and with it all later ones (R126). One that was stamped in a tide whose
boundary had run before it could be staged has missed that boundary too. R79 has a command that a full directory holds count in
DIR_HOLD_CNT: it counts at each boundary that so holds it, and likewise in LOG_FULL_CNT and FILTER_DEFER_CNT (DESIGN CHOICE, log entry
69). -/
def State.commitCmd (s : State) (x : Index) (m : Nat) (c : Commits) (y : Staged) : State × Commits :=
  if y.bno ≥ s.idx.bno then (s, { c with stop := true })
  else
    let rs := y.recs.getD []
    let s := if !y.deferred && decide (y.bno + 1 < s.idx.bno) then s.count Reg.mutateDeferCnt else s
    let defer (s : State) : State × Commits :=
      let s1 := if y.deferred || decide (y.bno + 1 < s.idx.bno) then s else s.count Reg.mutateDeferCnt
      ({ s1 with idx := { s1.idx with staged := updWhere (fun z => z.r == y.r) (fun z => { z with deferred := true }) s1.idx.staged } },
        { c with stop := true })
    if c.stop || y.recs.isNone || decide (m < y.commitAt) || decide (c.n + y.count > bits (s.rd Reg.mutateTideMax) 16 0) then defer s
    else if !s.logRoom x rs then defer (s.count Reg.indexLogFullCnt)
    else if !s.dirRoom x rs then defer (s.count Reg.indexDirHoldCnt)
    else if (recFilters rs).any (s.copyInUse x) ||
        !s.leavesFit x m (c.fch ++ (rs.filter (fun r => r.status == 0)).flatMap (fun r => r.fbits)) [] (recFilters rs) then defer (s.count Reg.indexFilterDeferCnt)
    else
      let s1 := rs.foldl (fun s r => s.commitRec x m r) s
      let okN := (rs.filter (fun r => r.status == 0)).length
      let s2 := if okN > 0 then s1.count Reg.mutateCommitCnt okN else s1
      let b := mutateBody y.count m rs
      ({ s2 with idx := { s2.idx with staged := s2.idx.staged.filter (fun z => z.r != y.r) } },
        { c with n := c.n + y.count, fch := c.fch ++ (rs.filter (fun r => r.status == 0)).flatMap (fun r => r.fbits)
                 done := c.done ++ [(y.r, b.1, b.2)], ids := c.ids ++ rs.map (fun r => r.id) })

/-- Raises ROWS of a shoal past the rows that have committed and the abandoned rows that are released, never past a staged row (R126,
R129). An abandoned row is released once every row below it is committed or abandoned. Rows that hold no item below a row that commits
are tombstoned with the abandoned rows, without a log entry, and count as such (DESIGN CHOICE, log entry 69). -/
def State.settleRows (s : State) (x : Index) (m h : Nat) : State :=
  let sh := s.shoalSt x.no h
  let rows := s.shRows x h
  let open_ (r : Nat) : Bool := sh.staged.all (fun t => decide (r < t))
  let top1 := (sh.above.filter open_).foldl (fun n r => max n (r + 1)) rows
  let free (a : Nat) : Bool := decide (a < top1) || (open_ a && (List.range (a - rows)).all (fun i =>
    sh.above.contains (rows + i) || sh.abandoned.contains (rows + i)))
  let top := (sh.abandoned.filter free).foldl (fun n r => max n (r + 1)) top1
  if top ≤ rows then s
  else
    let dead := ((List.range (top - rows)).map (fun i => rows + i)).filter (fun r => !sh.above.contains r)
    let s1 := if dead.isEmpty then s else s.tombCommit x m (dead.map (fun r => (s.shBase x h + r, true)))
    (s1.setRows x h top).putShoalSt
      { sh with above := sh.above.filter (fun r => decide (top ≤ r)), abandoned := sh.abandoned.filter (fun r => decide (top ≤ r)) }

/-! ## Compaction (R135 to R139) -/

/-- The rows below ROWS that are tombstoned and whose delete entry has retired, or that were abandoned (R135). -/
def State.deadRows (s : State) (x : Index) (h : Nat) : List Nat :=
  let es := s.logEnts x h
  (List.range (s.shRows x h)).filter (fun r => s.bmBit x.func x.hTomb 0 (s.shBase x h + r) && (logOf es r 2).isNone)

/-- The live rows of a shoal. -/
def State.liveRows (s : State) (x : Index) (h : Nat) : List Nat :=
  (List.range (s.shRows x h)).filter (fun r => !s.bmBit x.func x.hTomb 0 (s.shBase x h + r))

/-- The moves of one boundary (R136): the highest live rows into the lowest dead rows, while the hole lies below. A dead row that is still in
quarantine takes none (R138). -/
def State.movesOf (s : State) (x : Index) (h n : Nat) : List (Nat × Nat) :=
  let quar := (s.shoalSt x.no h).quar
  let holes := (s.deadRows x h).filter (fun r => !quar.any (fun q => decide (q.1 ≤ r) && decide (r < q.2.1)))
  (((s.liveRows x h).reverse.zip holes).filter (fun p => decide (p.2 < p.1))).take n

/-- The bytes that one move of a shoal reads and writes in a stack, object by object (R136, R139): the centroid, the new row's codes, scales
and NORM, the ID map entries, the full vectors where they lie in T2, two log entries, two tombstone words and a directory entry each way,
and a leaf each way for every filter (DESIGN CHOICE, log entry 67). -/
def State.moveBytes (s : State) (x : Index) (h stack : Nat) : Nat :=
  let at_ (hd n : Nat) : Nat := match s.obj? x.func hd with
    | some o => if o.inT2 && o.stack == stack then n else 0
    | none => 0
  at_ x.hCent (4 * x.dims) + at_ (s.shCode x h) (x.codeBytes + x.dims / 32 + (if x.hasNorm then 4 else 0)) + at_ x.hMap 16 +
    at_ x.hVec (2 * x.dims * elemBytes x.vecFmt) + at_ (s.shLog x h) 16 + at_ x.hTomb 32 + at_ x.hDir 32 +
    ((s.filtersOf x).map (fun f => at_ f 1024)).sum

/-- What compaction may still read and write in a tide: the bytes of each stack, and the bytes of full vectors into T3 (R139). -/
structure MoveRoom where
  stks : List Nat
  vec : Nat

/-- The most moves of one shoal that the room of a tide allows. -/
def State.moveLimit (s : State) (x : Index) (h : Nat) (r : MoveRoom) : Nat :=
  let vb := if fld x.desc 54 54 = 1 then x.dims * elemBytes x.vecFmt else 0
  (List.range 32).foldl (fun n t =>
    let b := s.moveBytes x h t
    if b = 0 then n else min n (r.stks.getD t 0 / b)) (if vb = 0 then bits s.idx.compact 27 16 else min (bits s.idx.compact 27 16) (r.vec / vb))

/-- The moves that one running pass plans for this boundary, before its commits, and the room it leaves to the passes after it. -/
def State.planPass (s : State) (a : List (Pass × List (Nat × Nat)) × MoveRoom) (p : Pass) : List (Pass × List (Nat × Nat)) × MoveRoom :=
  match (s.index? p.idx).filter (fun x => decide (x.st = 2) && x.saves.isEmpty) with
  | none => a
  | some x =>
    if p.moved then (a.1 ++ [(p, [])], a.2)
    else
      let mv := s.movesOf x p.shoal (s.moveLimit x p.shoal a.2)
      let vb := if fld x.desc 54 54 = 1 then x.dims * elemBytes x.vecFmt else 0
      (a.1 ++ [(p, mv)], { stks := a.2.stks.mapIdx (fun t n => n - mv.length * s.moveBytes x p.shoal t), vec := a.2.vec - mv.length * vb })

/-- The moves of a boundary (R136, R139): each stack gives CEIL_PCT of its bandwidth over the tide that ends, and the device VEC_MBPS for
full vectors in T3, less what the last boundary's directory sweeps have taken of it (R79). -/
def State.planMoves (s : State) : List (Pass × List (Nat × Nat)) :=
  let c := bits s.idx.compact 3 0
  if c = 0 then []
  else
    let room : MoveRoom :=
      { stks := List.replicate 32 (c * 6144 * s.idx.lastPeriod / 1000), vec := bits (s.rd Reg.mutateVecCeil) 15 0 * s.idx.lastPeriod / 1000 - s.idx.swept }
    ((s.idx.passes.filter (fun p => p.running)).foldl s.planPass ([], room)).1

/-- Commits one move at boundary `m` (R136), or drops it where a staged mutation record names its item, whether its command commits at
this boundary or waits (R137; DESIGN CHOICE, log entry 69). A move whose filter changes cannot be written at this boundary waits for a
later one and counts (R81); it leaves the leaves that staged records need. The second part holds the filter bits to commit, where the move
was made. -/
def State.moveRow (s : State) (x : Index) (m h t d : Nat) (ids : List Nat) (fch : List (Nat × Nat × Bool)) :
    State × Option (List (Nat × Nat × Bool)) :=
  let base := s.shBase x h
  let id := s.slotId x (base + t)
  if ids.contains id then (s.count Reg.mutateMoveDropCnt, none)
  else
    let n := x.dims * elemBytes x.vecFmt
    let raw := s.hBytes x.func x.hVec ((base + t) * n) n
    let second := bit (s.hNat x.func x.hMap ((base + t) * 8) 8) 48
    let bad := ((s.filtersOf x).filter (fun f => s.bmBlk x.func f (s.bmCur x.func f) ((base + t) / 4096) == .bad)).length
    let fb := (s.filtersOf x).flatMap (fun f =>
      let now_ := (fch.filter (fun e => e.1 == f)).map (fun e => e.2)
      let bitOf (sl : Nat) : Bool := (((now_.filter (fun e => e.1 == sl)).getLast?).map (fun e => e.2)).getD (s.bmBit x.func f (s.bmCur x.func f) sl)
      if bitOf (base + d) != bitOf (base + t) then [(f, base + d, bitOf (base + t))] else [])
    if fb.any (fun e => s.copyInUse x e.1) || !s.leavesFit x m (fch ++ fb) (s.stagedRecs x.no) (fb.map (fun e => e.1)) then
      (s.count Reg.indexFilterDeferCnt, none)
    else
      let sr := s.hTraffic x.func x.func x.hVec false ((base + t) * n) n
      let s0 := if bad > 0 then sr.count Reg.indexFilterBadCnt bad else sr
      let s1 := s0.writeRow x h d (vecF32 x.vecFmt x.dims raw)
      let s2 := (s1.putId x (base + d) id second).hPut x.func x.hVec ((base + d) * n) raw
      let s3 := ((s2.logAdd x h d 1 m).logAdd x h t 2 m).tombCommit x m [(base + d, false), (base + t, true)]
      let s4 := match s3.dirLookup x id with
        | some (p, e) =>
          let sl := (dirSlots (s3.dirEnt x p e)).map (fun z => if z = base + t then base + d else z)
          s3.putDir x p e (dirWord id (sl.headD 0) sl[1]?)
        | none => s3
      (s4.count Reg.mutateMoveCnt, some fb)

/-- The background tasks of a pass's moves end, and where it goes on those of its next moves are queued on an island of its stack (R307). -/
def State.moveTasks (s : State) (x : Index) (h : Nat) (again : Bool) : State :=
  let s1 := s.seqOver (fun t => t.kind == .moves x.no h)
  if again then s1.addRoam (s1.shStack x h) false 0 (.moves x.no h) x.func none 0 true none else s1

/-- The completion of an INDEX_COMPACT whose last pass has ended (R135). -/
def State.passEnds (s : State) (p : Pass) (status : Nat) : State :=
  let s1 : State := (s.seqOver (fun t => t.kind == .moves p.idx p.shoal))
  let s2 : State := { s1 with idx := { s1.idx with passes := s1.idx.passes.filter (fun q => q != p) } }
  p.cmds.foldl (fun s r => if s.idx.passes.any (fun q => q.cmds.contains r) then s else s.complete r status []) s2

/-- The trim that ends a pass (R138): ROWS falls to one above the highest row that is live or holds an unretired delete. It waits while a
delete that the pass's last moves have made has not retired. -/
def State.trim (s : State) (x : Index) (p : Pass) : State :=
  let h := p.shoal
  let dels := (s.logEnts x h).filter (fun l => l.kind == 2)
  if dels.any (fun l => p.left.contains l.row) then s
  else
    let old := s.shRows x h
    let top := (s.liveRows x h ++ (dels.map (fun l => l.row)).filter (fun r => decide (r < old))).foldl (fun n r => max n (r + 1)) 0
    let sh := s.shoalSt x.no h
    let s1 := ((s.setRows x h top).shSet x h 152 128 top).shSet x h 225 224 0
    let s2 := if top < old then s1.putShoalSt { sh with quar := sh.quar ++ [(top, old, s.idx.bno)] } else s1
    let s3 := (s2.count Reg.mutateCompactPassCnt)
    let s4 := if top < old then s3.count Reg.mutateTrimRowsCnt (old - top) else s3
    (s4.passEnds p Status.ok).releaseQuar x h

/-- The planned moves of one pass, or its trim once no move is left; with the filter bits they changed. The moves take at most half of the
log entries that the boundary's commits have left free (R136); each takes two. -/
def State.passStep (x : Index) (m : Nat) (ids : List Nat) (a : State × List (Nat × Nat × Bool)) (pl : Pass × List (Nat × Nat)) :
    State × List (Nat × Nat × Bool) :=
  if pl.1.moved then (a.1.trim x pl.1, a.2)
  else
    let h := pl.1.shoal
    let r := (pl.2.take ((4096 - (a.1.logEnts x h).length) / 4)).foldl (fun (b : State × List (Nat × Nat × Bool) × List Nat) mv =>
      match b.1.moveRow x m h mv.1 mv.2 ids b.2.1 with
      | (s1, some fb) => (s1, b.2.1 ++ fb, b.2.2 ++ [mv.1])
      | (s1, none) => (s1, b.2)) (a.1, a.2, [])
    let more := ((r.1.liveRows x h).reverse.zip (r.1.deadRows x h)).any (fun q => decide (q.2 < q.1))
    let left := if r.2.2.isEmpty then pl.1.left else r.2.2
    let s1 : State := { r.1 with idx := { r.1.idx with
      passes := updWhere (fun q => q == pl.1) (fun q => { q with moved := !more, left := left }) r.1.idx.passes } }
    (s1.moveTasks x h more, r.2.1)

/-- The moves and trims of an index at one boundary, after the filter changes `fch` of its commits. -/
def State.compactAt (s : State) (x : Index) (m : Nat) (plans : List (Pass × List (Nat × Nat))) (ids : List Nat)
    (fch : List (Nat × Nat × Bool)) : State × List (Nat × Nat × Bool) :=
  plans.foldl (State.passStep x m ids) (s, fch)

/-- The leaves that staging has written for an index's filters, as the records that are still staged need them: those of aborted commands
are free again (R125, R129). -/
def State.restage (s : State) (i : Nat) : State :=
  (s.idx.filts.filter (fun f => f.idx == i)).foldl (fun s f =>
    let cs := filtBits (s.stagedRecs i) f.handle
    (s.updFilt f.func f.handle i (fun y => { y with pre := y.pre.filter (fun e => (changedBlks cs).contains e.1) })).stageLeaves f.func f.handle i cs
      (changedBlks cs)) s

/-- The directory sweep of an index at a boundary (R79). The sweeps of directories in T3 stay within VEC_MBPS together (DESIGN CHOICE, log
entry 67), except where too few entries are free and the limit is lifted. -/
def State.sweepIndex (s : State) (i : Nat) : State :=
  match s.index? i with
  | none => s
  | some y =>
    let pages := bits (s.rd Reg.indexDirCfg) 15 0
    let room := (bits (s.rd Reg.mutateVecCeil) 15 0 * s.idx.period / 1000 - s.idx.swept) / sweepBytes
    s.sweepDir y (if s.dirFree y * 16 < 2 ^ y.dirExp * 256 then 2 ^ y.dirExp * 2 else if y.dirT3 then min pages room else pages)

/-- Everything a boundary numbered `m` does on one index: commits, abandoned rows, the planned moves and trims, filter commits, the
directory sweep, and the completions (R79, R81, R126 to R138). The spec names no status for an accepted INDEX_COMPACT whose pass an unload
stops (R141): it ends with INDEX_NOT_READY at that boundary (DESIGN CHOICE, log entry 69). -/
def State.indexBoundary (s : State) (m : Nat) (plans : List (Pass × List (Nat × Nat))) (i : Nat) : State :=
  match s.index? i with
  | none => s
  | some x =>
    if x.st < 2 then s
    else
      let c0 : Commits := { n := 0, fch := [], done := [], ids := [], stop := false }
      let r := (s.idx.staged.filter (fun y => y.idx == i)).foldl (fun (a : State × Commits) y => a.1.commitCmd x m a.2 y) (s, c0)
      let s2 := (s.idx.shoals.filter (fun h => h.idx == i)).foldl (fun s h => s.settleRows x m h.shoal) r.1
      let ids := r.2.ids ++ (s2.stagedRecs i).map (fun e => e.id)
      let k := s2.compactAt x m (if x.st = 2 then plans.filter (fun p => p.1.idx == i) else []) ids r.2.fch
      let s3 := (((k.2.map (fun e => e.1)).eraseDups).foldl (fun s f =>
        s.filterCommit x.func f i m ((k.2.filter (fun e => e.1 == f)).map (fun e => e.2))) k.1).restage i
      let s4 := s3.sweepIndex i
      let s5 := r.2.done.foldl (fun s d => s.complete d.1 d.2.1 d.2.2) s4
      let s6 := s5.retireEpochs x
      if x.st = 3 then (s6.idx.passes.filter (fun p => p.idx == i)).foldl (fun s p =>
        (s.shSet x p.shoal 225 224 0).passEnds p Status.indexNotReady) s6
      else s6

/-- The percentage that makes a shoal a candidate is reached (R135). -/
def State.autoCandidate (s : State) (x : Index) (h : Nat) : Bool :=
  let d := (s.deadRows x h).length
  bit s.idx.compact 4 && decide (d > 0) && decide (d * 100 ≥ bits s.idx.compact 15 8 * s.shRows x h)

/-- The shoals of a stack that may start a pass: named by a command, or by DEAD_PCT, with index, shoal, dead rows
and ROWS. A shoal with no row has a dead fraction of 0 (DESIGN CHOICE, log entry 69). -/
def State.passCandidates (s : State) (stack : Nat) : List (Index × Nat × Nat × Nat) :=
  (s.idx.indexes.filter (fun x => decide (x.st = 2) && x.saves.isEmpty)).flatMap (fun x =>
    ((List.range x.nShoals).filter (fun h => s.shStack x h == stack &&
      (s.idx.passes.any (fun p => p.idx == x.no && p.shoal == h && !p.running) || s.autoCandidate x h))).map (fun h =>
        (x, h, (s.deadRows x h).length, max 1 (s.shRows x h))))

/-- COMPACT_PASS_START: a stack takes its next candidate in descending order of dead fraction, then ascending shoal, and sets
the shoal compacting; the commands it serves commit (R135, R139). -/
def State.onCompactPassStart (s : State) (stack : Nat) : State :=
  let busy := s.idx.passes.any (fun p => p.running && (match s.index? p.idx with
    | some x => s.shStack x p.shoal == stack
    | none => false))
  if busy || bits s.idx.compact 3 0 == 0 then s
  else
    let cs := s.passCandidates stack
    let best := cs.find? (fun c => cs.all (fun d =>
      decide (d.2.2.1 * c.2.2.2 < c.2.2.1 * d.2.2.2) ||
      (d.2.2.1 * c.2.2.2 == c.2.2.1 * d.2.2.2 && (decide (c.2.1 < d.2.1) || (c.2.1 == d.2.1 && decide (c.1.no ≤ d.1.no))))))
    match best with
    | none => s
    | some (x, h, _, _) =>
      let s1 := s.candidate x.no h none
      let s2 := s1.shSet x h 225 224 1
      let waits (p : Pass) : Bool := p.idx == x.no && p.shoal == h && !p.running
      let cmds := ((s2.idx.passes.filter waits).map (fun p => p.cmds)).flatten
      let s3 : State := { s2 with idx := { s2.idx with passes := updWhere waits (fun p => { p with running := true }) s2.idx.passes } }
      ((cmds.foldl (fun s r => s.updLive r (fun l => { l with committed := true })) s3).moveTasks x h true)

/-- COMPACT_PASS_START as a command. -/
def execCompactPassStart (stack : Nat) (s : State) : Host.Outcome State Fault Refusal := .next (s.onCompactPassStart stack)

/-! ## Epochs across an archipelago (R132 to R134) -/

/-- Whether the device is the only one behind its host. -/
def State.alone (s : State) : Bool := decide (s.fix.dx * s.fix.dy * s.fix.dz ≤ 1)

/-- Takes the number of an EPOCH_MARK that the device follows. -/
def State.takeMark (s : State) (src epoch : Nat) (fresh : Bool) : State :=
  { s with
    idx := { s.idx with markHi := if fresh then epoch else max s.idx.markHi epoch, sinceMark := 0, lost := false }
    zwx := { s.zwx with follow := some src } }

/-- EPOCH_MARK: raises the highest mark that the next boundary follows and clears LOST; two sources, or two bridges, are a
conflict in which the lower ordinal is followed (R132, R134, R365). -/
def State.onEpochMark (s : State) (src epoch : Nat) : State :=
  if !s.powered then s
  else if s.alone then (s.count Reg.mutateEpochDropCnt)
  else
    let conflict (s : State) : State := { s with zwx := { s.zwx with conflict := true } }
    if s.fix.bridge then
      if src < s.fix.ord then
        let first := s.zwx.follow.isNone
        let s1 := conflict s
        let s2 := if first then
            s1.wr Reg.hostPathDownLo 0xFFFFFFFF |>.wr Reg.hostPathDownHi 0xFFFFFFFF |> fun t =>
              let a := if s.fix.ord < 32 then Reg.hostPathDownLo else Reg.hostPathDownHi
              t.wr a (setBits (t.rd a) (s.fix.ord % 32) (s.fix.ord % 32) 0)
          else s1
        (s2.takeMark (min src (s.zwx.follow.getD src)) epoch first)
      else ((conflict s).count Reg.mutateEpochDropCnt)
    else match s.zwx.follow with
      | none => (s.takeMark src epoch false)
      | some f => if f = src then (s.takeMark src epoch false) else ((conflict s).takeMark (min f src) epoch false)

/-- EPOCH_MARK as a command. -/
def execEpochMark (src epoch : Nat) (s : State) : Host.Outcome State Fault Refusal := .next (s.onEpochMark src epoch)

/-- EPOCH_REPORT: raises the highest number reported to the bridge; any other role discards it (R132). -/
def State.onEpochReport (s : State) (src epoch : Nat) : State :=
  if !s.powered then s
  else if s.alone ∨ !s.fix.bridge ∨ s.zwx.follow.isSome ∨ src = s.fix.ord then (s.count Reg.mutateEpochDropCnt)
  else { s with idx := { s.idx with markHi := max s.idx.markHi epoch } }

/-- EPOCH_REPORT as a command. -/
def execEpochReport (src epoch : Nat) (s : State) : Host.Outcome State Fault Refusal := .next (s.onEpochReport src epoch)

/-- ALIGN_LOST: LOST_TIDES boundaries in a row without an EPOCH_MARK set LOST (R134, R337). -/
def State.onAlignLost (s : State) : State :=
  if s.fix.bridge ∨ s.idx.lost ∨ s.idx.sinceMark < s.idx.lostTides then s
  else
    let s1 : State := { s with idx := { s.idx with lost := true } }
    ((s1.count Reg.mutateAlignLostCnt).event 0x04 0 true s.idx.epoch)

/-- ALIGN_LOST as a command. -/
def execAlignLost (s : State) : Host.Outcome State Fault Refusal := .next (s.onAlignLost)

end Sys2Proof.Machine
end

