-- ==== Sys2Proof/Machine/Select.lean ====
section
/-! DEFINITION. The SELECT command: TOPK over tensor rows and MERGE of result lists (R150, R154 to R160). -/

namespace Sys2Proof.Machine

/-- Whether a command whose rows the OP field of its body tells apart is of one row. A body that follows in DATA packets is
not known yet, and any of the rows takes it. -/
def opRow (opcode : Nat) (p : Nat → Bool) (hi lo : Nat) (h : CmdHdr) (b : Body) : Bool :=
  h.opcode == opcode && (h.inlineLen == 0 || p (fld b hi lo))

def selOp (b : Body) : Nat := fld b 1 0
def selSmall (b : Body) : Bool := fld b 2 2 == 1
def selElem (b : Body) : Nat := fld b 4 3
def selK (b : Body) : Nat := fld b 27 8 + 1
def selRows (b : Body) : Nat := fld b 47 32 + 1
def selLen (b : Body) : Nat := fld b 95 64
def selStride (b : Body) : Nat := 64 * fld b 127 96
def selSrcOff (b : Body) : Nat := fld b 239 192
def selDstOff (b : Body) : Nat := fld b 303 256
def selBase (b : Body) : Nat := fld b 367 320

/-- Bytes of a TOPK element. -/
def selBytes (b : Body) : Nat := if selElem b = 1 ∨ selElem b = 2 then 2 else 4

/-- Bytes of the block that TOPK writes for a row (R155). -/
def selBlock (b : Body) : Nat := roundUp (32 + 16 * selK b) 64

/-- The bytes of the source that intake checks, and those of the destination. -/
def selRange (b : Body) : Nat × Nat :=
  if selOp b = 0 then (selStride b * (selRows b - 1) + selLen b * selBytes b, selRows b * selBlock b)
  else (32, 32 + 16 * selK b)

/-- The completion header of R159. -/
def selHdr (status short tie nan : Nat) : Body := leBytes 16 (status + short * 2 ^ 16 + tie * 2 ^ 48 + nan * 2 ^ 80)

/-- The field ranges of R154 Table 3 and the arithmetic checks of R157. -/
def selParamOk (b : Body) : Bool :=
  decide (selOp b < 2) && fld b 7 5 == 0 && fld b 31 28 == 0 && fld b 63 48 == 0 && fld b 255 240 == 0 && fld b 319 304 == 0 &&
  fld b 511 368 == 0 && selSrcOff b % 64 == 0 && selDstOff b % 64 == 0 &&
  (if selOp b = 0 then
    decide (1 ≤ selLen b) && decide (selBase b + selLen b - 1 ≤ 0xFFFFFFFFFFFE) &&
    (selRows b == 1 || decide (selLen b * selBytes b ≤ selStride b))
   else decide (selK b ≤ 4096) && decide (selRows b ≤ 64) && selLen b == 0 && fld b 127 96 == 0)

/-- Whether the source and destination ranges of a SELECT lie in one object and overlap. -/
def selOverlap (b : Body) (srcOff n : Nat) : Bool :=
  fld b 159 128 == fld b 191 160 && overlaps srcOff n (selDstOff b) (selRange b).2

/-- The checks of R157 at intake. -/
def chkSelect : BodyCheck := fun s h b =>
  let bad := some (Status.selectParam, selHdr Status.selectParam 0 0 0)
  if !selParamOk b then bad
  else match s.obj? h.func (fld b 159 128), s.obj? h.func (fld b 191 160) with
  | some o, some p =>
    if o.func ≠ h.func ∨ p.func ≠ h.func ∨ selSrcOff b + (selRange b).1 > o.size ∨ selDstOff b + (selRange b).2 > p.size ∨
        selOverlap b (selSrcOff b) (selRange b).1 then bad
    else none
  | _, _ => bad

/-- The die on which a SELECT counts: that of its source's stack, or of its ingress island for a T3 source and a MERGE
(R162). -/
def State.selDie (s : State) (l : Live) : Nat :=
  match s.obj? l.h.func (fld l.body 159 128) with
  | some o => if o.inT2 && selOp l.body == 0 then o.stack / 8 else l.island % 512 / 128
  | none => l.island % 512 / 128

/-- The pieces of a row (R160). -/
def selPieces (b : Body) : Nat := cdiv (selLen b) 65536

/-- The tasks of a SELECT: a piece of a row each, or a list of a MERGE (R160, R307). -/
def selTasks (b : Body) : List (Nat × Nat) :=
  if selOp b = 1 then (List.range (selRows b)).map (fun j => (j, 0))
  else (List.range (selRows b)).flatMap (fun r => (List.range (selPieces b)).map (fun n => (r, n)))

/-- Queues one task of a SELECT where R160 places it: first free on the own islands of the source's stack, or else on the islands of its
die; a T3 source and a MERGE use the die of the ingress island. Its list opens with LAGOON_KIB as it stands (R162). -/
def State.placePiece (r : CmdRef) (l : Live) (a : State × List PieceAt) (p : Nat × Nat) : State × List PieceAt :=
  let s := a.1
  let (stack, t3) := match (s.obj? l.h.func (fld l.body 159 128)).filter (fun o => o.inT2 && selOp l.body == 0) with
    | some o => (o.stack, false)
    | none => (0, true)
  let island := s.taskIsland stack t3 (l.island % 512)
  (s.addRoam stack t3 (l.island % 512) (.piece p.1 p.2) l.h.func none (s.cmdClass r) true (some r),
    a.2 ++ [{ row := p.1, piece := p.2, island := island, kib := bits (s.rd (Reg.selectListCfg (island / 128))) 10 0 }])

/-- What a stamped SELECT starts: its tasks go to their queues. -/
def actSelect : CmdAct := fun r l s =>
  let a := (selTasks l.body).foldl (State.placePiece r l) (s, [])
  let x : SelRun := { r := r, at_ := a.2, done := [], lists := [], nans := [], bad := false }
  { a.1 with idx := { a.1.idx with sels := a.1.idx.sels ++ [x] } }

def isTopk : CmdHdr → Body → Bool := opRow Op.select (fun o => o != 1) 1 0
def isMerge : CmdHdr → Body → Bool := opRow Op.select (fun o => o == 1) 1 0

/-- TOPK: the k best entries of each tensor row (R155, R157). A SELECT with a reserved OP is refused here. -/
def execTopk (h : CmdHdr) (b : Body) (s : State) : Host.Outcome State Fault Refusal :=
  .next (s.command isTopk chkSelect actSelect h b)

/-- MERGE: result lists become one (R156, R157). -/
def execMerge (h : CmdHdr) (b : Body) (s : State) : Host.Outcome State Fault Refusal :=
  .next (s.command isMerge chkSelect actSelect h b)

/-- The rank of an entry of a TOPK. -/
def selRank (b : Body) : Nat → Nat := if selElem b = 3 then rankI (selSmall b) else rankF (selSmall b)

/-- The score of an element: FP32 patterns, 16-bit formats converted exactly, INT32 as it stands (R143). -/
def selScore (b : Body) (w : Nat) : Nat := if selElem b = 1 then elemF32 0 w else if selElem b = 2 then elemF32 1 w else w

/-- The SELECT of a command. -/
def State.sel? (s : State) (r : CmdRef) : Option SelRun := s.idx.sels.find? (fun x => x.r == r)

/-- The list that a die's merge stage holds of a row. -/
def SelRun.dieList (x : SelRun) (die row : Nat) : List Ent :=
  ((x.lists.find? (fun e => e.1 == die && e.2.1 == row)).map (fun e => e.2.2)).getD []

/-- SELECT_PIECE_DONE: the task of one piece of a TOPK row has ended. The islets send the entries that meet the threshold in runs of 32,
the island's stage keeps the k + 1 best, and the die's merge stage merges them with the row's other pieces (R145, R146, R149, R150, R160). -/
def State.onSelectPieceDone (s : State) (q : CmdRef) (row piece : Nat) (readable : Bool) : State :=
  match s.sel? q, s.live? q with
  | some x, some l =>
    let b := l.body
    match s.obj? l.h.func (fld b 159 128), x.at_.find? (fun a => a.row == row && a.piece == piece) with
    | some o, some a =>
      if selOp b ≠ 0 ∨ x.done.contains (row, piece) then s
      else
        let c0 := piece * 65536
        let n := min 65536 (selLen b - c0)
        let off := selSrcOff b + selStride b * row + c0 * selBytes b
        let ok := readable && s.objReadable o off (n * selBytes b)
        let runs := (List.range (cdiv n 32)).map (fun j => (List.range (min 32 (n - 32 * j))).map (fun i =>
          let c := 32 * j + i
          ({ score := selScore b (s.objNat o (off + c * selBytes b) (selBytes b)), id := selBase b + c0 + c, ord := s.fix.ord, slot := 0 } : Ent)))
        let isNan (es : List Ent) : Nat := if selElem b = 3 then 0 else nanEnts es
        let sent := (sendRuns (selRank b) (selK b) runs).1
        let die := a.island / 128
        let m := (mergeEnts (selRank b) (selK b + 1) sent).1
        let d := (mergeEnts (selRank b) (selK b + 1) (x.dieList die row ++ m)).1
        let s0 := (s.seqOver (fun t => t.kind == .piece row piece && t.cmd == some q)).keepRuns q (row * 65536 + piece) a.island (selK b) m.length a.kib
        let s1 := if isNan sent > 0 then s0.count (Reg.selectNanCnt die) (isNan sent) else s0
        let nan := isNan runs.flatten
        let y := { x with done := x.done ++ [(row, piece)], lists := x.lists.filter (fun e => !(e.1 == die && e.2.1 == row)) ++ [(die, row, d)]
                          nans := if nan > 0 then x.nans ++ [(row, nan)] else x.nans
                          bad := x.bad || !ok }
        let s2 := s1.hTraffic l.h.func l.h.func (fld b 159 128) false off (n * selBytes b)
        { s2 with idx := { s2.idx with sels := updWhere (fun z => z.r == q) (fun _ => y) s2.idx.sels } }
    | _, _ => s
  | _, _ => s

/-- SELECT_PIECE_DONE as a command. -/
def execSelectPieceDone (q : CmdRef) (row piece : Nat) (readable : Bool) (s : State) : Host.Outcome State Fault Refusal := .next (s.onSelectPieceDone q row piece readable)

/-- Ends a SELECT: its tasks end, its runs give their units back and its completion is queued. -/
def State.selEnd (s : State) (x : SelRun) (status : Nat) (body : Body) : State :=
  let s1 := (s.seqOver (fun t => t.cmd == some x.r)).dropRuns (fun u => u.cmd == x.r)
  let s2 : State := { s1 with idx := { s1.idx with sels := s1.idx.sels.filter (fun z => z.r != x.r) } }
  s2.complete x.r status body

/-- The block of one TOPK row (R155). -/
def selRowBytes (b : Body) (es : List Ent) (nan : Nat) : List Byte :=
  let k := selK b
  let tie := decide (k ≤ es.length) && tieAtK (selRank b) k es
  let hdr := min k es.length + b2n tie * 2 ^ 21 + min nan 0xFFFFFFFF * 2 ^ 32
  let body := leBytes 32 hdr ++ ((padList (selSmall b) k es).map entBytes).flatten
  body ++ List.replicate (selBlock b - body.length) 0

/-- A complete row of a TOPK: its list, its NaN entries, and the stage that completed it. -/
structure SelRow where
  es : List Ent
  nan : Nat
  inst : Nat

/-- A row as its last stage delivers it: the die stage that holds all of it, or the H stage where its pieces fell on several dies (R160,
R162). -/
def SelRun.rowOf (x : SelRun) (b : Body) (die r : Nat) : SelRow :=
  let nan := ((x.nans.filter (fun e => e.1 == r)).map (fun e => e.2)).sum
  match x.lists.filter (fun e => e.2.1 == r) with
  | [] => { es := [], nan := nan, inst := die }
  | [e] => { es := e.2.2, nan := nan, inst := e.1 }
  | es => { es := (mergeEnts (selRank b) (selK b + 1) (es.flatMap (fun e => e.2.2))).1, nan := nan, inst := 4 }

/-- Completes a TOPK whose rows are all complete (R155, R158, R159). -/
def State.topkComplete (s : State) (x : SelRun) (l : Live) : State :=
  let b := l.body
  if x.bad then s.selEnd x Status.dataUnreadable (selHdr Status.dataUnreadable 0 0 0)
  else
    let k := selK b
    let rows := (List.range (selRows b)).map (x.rowOf b (s.selDie l))
    let s1 := rows.zipIdx.foldl (fun s r => s.hPut l.h.func (fld b 191 160) (selDstOff b + r.2 * selBlock b) (selRowBytes b r.1.es r.1.nan)) s
    let short := (rows.filter (fun r => decide (r.es.length < k))).length
    let ties := (rows.filter (fun r => decide (k ≤ r.es.length) && tieAtK (selRank b) k r.es)).length
    let nans := (rows.filter (fun r => decide (r.nan > 0))).length
    let s2 := rows.foldl (fun s r => s.countList r.inst k r.es.length) s1
    let st := if short > 0 then Status.selectShort else Status.ok
    s2.selEnd x st (selHdr st short ties nans)

/-- One input list of a MERGE: its offset and its header. -/
structure InList where
  off : Nat
  hdr : Nat
  deriving DecidableEq, Repr

def InList.k (i : InList) : Nat := bits i.hdr 43 32 + 1
def InList.n (i : InList) : Nat := bits i.hdr 12 0
def InList.len (i : InList) : Nat := 32 + 16 * i.k

/-- The input lists of a MERGE, each read where the one before it ends (R156). -/
def State.inLists (s : State) (o : Obj) : Nat → Nat → List InList
  | 0, _ => []
  | n + 1, off =>
    let i : InList := { off := off, hdr := s.objNat o off 32 }
    i :: s.inLists o n (roundUp (off + i.len) 64)

/-- The faults that a MERGE finds in an input (R157). -/
def inListBad (b : Body) (size : Nat) (i : InList) : Bool :=
  decide (i.n > i.k) || bits i.hdr 15 13 != 0 || bits i.hdr 31 31 != 0 || bits i.hdr 63 44 != 0 || bits i.hdr 159 149 != 0 ||
  bits i.hdr 191 176 != 0 || bits i.hdr 255 232 != 0 || bits i.hdr 25 24 == 3 || decide (i.off + i.len > size) || selOverlap b i.off i.len

/-- The real entries of an input list. -/
def State.inEnts (s : State) (o : Obj) (i : InList) : List Ent :=
  (List.range i.n).map (fun j =>
    let w := s.objNat o (i.off + 32 + 16 * j) 16
    { score := bits w 95 64, id := bits w 47 0, ord := bits w 53 48, slot := 0 })

/-- A stage's list while runs of entries reach it: the list, the duplicates removed so far, and the NaN entries ranked (R146, R149, R150,
R162). -/
structure FedList where
  es : List Ent
  dup : Nat
  nan : Nat

/-- What a stage does with one run: the entries that meet its threshold are sent, duplicates are removed and the list is cut to k + 1. -/
def FedList.feed (rk : Nat → Nat) (k : Nat) (a : FedList) (run : List Ent) : FedList :=
  let thr := (a.es[k]?.map (fun g => rk g.score)).getD 0xFFFFFFFF
  let sent := run.filter (fun e => decide (rk e.score ≤ thr))
  let m := mergeEnts rk (k + 1) (a.es ++ sent)
  { es := m.1, dup := a.dup + m.2, nan := a.nan + nanEnts sent }

/-- The list that an island's stage makes of the input lists that its islets read, in ascending order of the lists and in runs of 32 (R160;
the order of the runs is a DESIGN CHOICE, log entry 64). -/
def State.mergeIsland (s : State) (x : SelRun) (rk : Nat → Nat) (k : Nat) (o : Obj) (ls : List InList) (island : Nat) : FedList :=
  ((x.at_.filter (fun a => a.island == island)).flatMap (fun a => match ls[a.row]? with
    | some i =>
      let es := s.inEnts o i
      (List.range (cdiv es.length 32)).map (fun j => (es.drop (32 * j)).take 32)
    | none => [])).foldl (FedList.feed rk k) { es := [], dup := 0, nan := 0 }

/-- Writes the result block of a merge whose lists are readable, counts it and ends it: the islands' stages cut their lists, and the die's
stage merges them (R160). -/
def State.mergeWrite (s : State) (x : SelRun) (l : Live) (o : Obj) (ls : List InList) : State :=
  let b := l.body
  let k := selK b
  let rk := rankF (selSmall b)
  let fed := ((x.at_.map (fun a => a.island)).eraseDups).map (fun i => (i, s.mergeIsland x rk k o ls i))
  let top := mergeEnts rk (k + 1) (fed.flatMap (fun e => e.2.es))
  let dup := top.2 + (fed.map (fun e => e.2.dup)).sum
  let m : List Ent × Nat := (top.1, dup)
  let n := min k m.1.length
  let kth := m.1[k - 1]?
  let tie := decide (n = k) && (tieAtK rk k m.1 || ls.any (fun i => bit i.hdr 27 && decide (i.n = i.k) &&
    (match (s.inEnts o i)[i.k - 1]?, kth with
      | some e, some g => rk e.score == rk g.score
      | _, _ => false)))
  let st := if n = k then Status.ok else if ls.any (fun i => bits i.hdr 23 16 == Status.filterShort) then Status.filterShort
    else Status.budgetShort
  let orBit (j : Nat) : Nat := b2n (ls.any (fun i => bit i.hdr j)) * 2 ^ j
  let sum (hi lo add : Nat) : Nat := min ((ls.map (fun i => bits i.hdr hi lo)).sum + add) (2 ^ (hi + 1 - lo) - 1) * 2 ^ lo
  let epoch := ls.foldl (fun e i => min e (bits i.hdr 127 64)) (2 ^ 64 - 1)
  let level := ls.foldl (fun e i => max e (bits i.hdr 25 24)) 0
  let hdr := n + st * 2 ^ 16 + level * 2 ^ 24 + orBit 26 + b2n tie * 2 ^ 27 + orBit 28 + orBit 29 + orBit 30 + (k - 1) * 2 ^ 32 +
    epoch * 2 ^ 64 + sum 148 128 0 + sum 175 160 m.2 + sum 231 192 0
  let body := leBytes 32 hdr ++ ((padList (selSmall b) k m.1).map entBytes).flatten
  let die := s.selDie l
  let nan := (fed.map (fun e => e.2.nan)).sum
  let s1 := (ls.foldl (fun (s : State) i => s.objTraffic l.h.func o false i.off i.len) s).hPut l.h.func (fld b 191 160) (selDstOff b) body
  let s2 := fed.foldl (fun (s : State) e =>
    s.keepRuns x.r e.1 e.1 k e.2.es.length (((x.at_.find? (fun a => a.island == e.1)).map (fun a => a.kib)).getD 0)) s1
  let s3 := s2.countList die k n
  let s4 := if nan > 0 then s3.count (Reg.selectNanCnt die) nan else s3
  let s5 := if m.2 > 0 then s4.count (Reg.selectDupCnt die) m.2 else s4
  let out := if n < k then Status.selectShort else Status.ok
  s5.selEnd x out (selHdr out (b2n (decide (n < k))) (b2n tie) 0)

/-- Completes a MERGE (R147, R156 to R159). -/
def State.mergeComplete (s : State) (x : SelRun) (l : Live) : State :=
  let b := l.body
  match s.obj? l.h.func (fld b 159 128) with
  | none => s.selEnd x Status.selectParam (selHdr Status.selectParam 0 0 0)
  | some o =>
    let ls := s.inLists o (selRows b) (selSrcOff b)
    if ls.any (inListBad b o.size) then s.selEnd x Status.selectParam (selHdr Status.selectParam 0 0 0)
    else if ls.any (fun i => !s.objReadable o i.off i.len) then s.selEnd x Status.dataUnreadable (selHdr Status.dataUnreadable 0 0 0)
    else
      s.mergeWrite x l o ls

/-- SELECT_COMPLETE: every row or list is complete, the destination is written and the command completes (R158). -/
def State.onSelectComplete (s : State) (q : CmdRef) : State :=
  match s.sel? q, s.live? q with
  | some x, some l =>
    if selOp l.body = 1 then (s.mergeComplete x l)
    else if x.done.length < selRows l.body * selPieces l.body then s
    else (s.topkComplete x l)
  | _, _ => s

/-- SELECT_COMPLETE as a command. -/
def execSelectComplete (q : CmdRef) (s : State) : Host.Outcome State Fault Refusal := .next (s.onSelectComplete q)

end Sys2Proof.Machine
end

