-- ==== Sys2Proof/Machine/KvCmd.lean ====
section
/-! DEFINITION. The KV command and the events of page movements (R198, R203 to R207, R213, R214). -/

namespace Sys2Proof.Machine

/-! ## The KV parameter block (R213 Table 5) -/

def kvOp (b : Body) : Nat := fld b 1 0
def kvPools (b : Body) : Nat := fld b 12 8 + 1
def kvDevs (b : Body) : Nat := fld b 15 13 + 1
def kvQuota (b : Body) : Nat := fld b 59 32
def kvPool (b : Body) (i : Nat) : Nat × Nat := (bodyNat b (64 + 8 * i) 4, bodyNat b (68 + 8 * i) 4)

/-- Whether the reserved bits are 0 and the fields of an operation lie in their ranges. LAYOUT is tested for a CONFIG alone: a PREFETCH or
SPILL carries the bits, and 11 there breaks nothing (DESIGN CHOICE, log entry 32: Table 5 gives LAYOUT's codes under CONFIG). -/
def kvRangesOk (b : Body) : Bool :=
  decide (kvOp b < 3) && fld b 7 6 == 0 && fld b 31 30 == 0 && fld b 63 60 == 0 && fld b 159 146 == 0 && fld b 191 178 == 0 &&
  fld b 223 210 == 0 && fld b 511 336 == 0 &&
  (if kvOp b = 0 then decide (fld b 4 3 < 3) && (fld b 4 3 != 2 || decide (64 ≤ fld b 145 128)) && b.length == 64 + 8 * kvPools b
   else decide (fld b 231 224 ≤ fld b 239 232) && b.length == 64)

/-- The sum of SPILL_QUOTA over the other configured contexts (R194): of a quota in force and one that awaits its boundary, the larger. -/
def State.otherQuotas (s : State) (ctx : Nat) : Nat :=
  ((s.kv.ctxs.filter (fun c => c.ctx != ctx)).map (fun c => match c.next with
    | some n => max c.quota n.2
    | none => c.quota)).sum

/-- The checks of R214 before a KV command is stamped. -/
def chkKv : BodyCheck := fun s h b =>
  let bad := some (Status.kvParam, ([] : Body))
  match s.chanCtx h.channel with
  | none => bad
  | some cx =>
    if !kvRangesOk b then bad
    else if kvOp b = 0 then
      let own (x : Nat) : Option Obj := (s.obj? h.func x).filter (fun o => o.func == h.func && o.inT2)
      let ps := (List.range (kvPools b)).map (kvPool b)
      let stks := ps.map (fun p => match own p.1, own p.2 with
        | some o, some l => if o.stack = l.stack then some o.stack else none
        | _, _ => none)
      if stks.any (fun x => x.isNone) || stks.eraseDups.length != stks.length || (own (fld b 95 64)).isNone || (own (fld b 127 96)).isNone ||
          decide (kvQuota b > s.spillFrames) || decide (kvQuota b + s.otherQuotas cx.id > s.spillFrames) then bad
      else none
    else match s.seq? (fld b 29 16) with
      | some q => if q.ctx = cx.id ∧ (s.kv? cx.id).isSome ∧ (s.gen.model.st = 2 → fld b 239 232 < s.mLayers) then none else bad
      | none => bad

/-- The configuration that a CONFIG gives a context. -/
def kvConfig (ctx func : Nat) (key : Option Nat) (b : Body) : KvCtx :=
  { ctx := ctx, func := func, pools := (List.range (kvPools b)).map (kvPool b), root := fld b 95 64, ageq := fld b 127 96
    drop := fld b 2 2 == 1, layout := fld b 4 3, mirror := fld b 5 5 == 1
    devs := (List.range (kvDevs b)).map (fun i => fld b (245 + 6 * i) (240 + 6 * i))
    mirs := (List.range (kvDevs b)).map (fun i => fld b (293 + 6 * i) (288 + 6 * i)), span := fld b 145 128, quota := kvQuota b
    next := none, frames := [], leaves := [], dirSlots := [], chunks := [], age := [], ageTail := 0, spill := [], spillNext := 0, key := key }

/-- CONFIG of a stamped KV command (R214). The sum of quotas is tested again, since the command may have been held. A first CONFIG takes
effect at once (DESIGN CHOICE, log entry 32); later the mode and quota wait for the next step boundary. -/
def State.kvConfigure (s : State) (r : CmdRef) (ctx func : Nat) (b : Body) : State :=
  let n := kvConfig ctx func (s.atRestKey func) b
  if n.quota + s.otherQuotas ctx > s.spillFrames then s.complete r Status.kvParam []
  else match s.kv? ctx with
  | none => ({ s with kv := { s.kv with ctxs := s.kv.ctxs ++ [n] } } : State).complete r Status.ok []
  | some c =>
    if c.pools = n.pools ∧ c.root = n.root ∧ c.ageq = n.ageq ∧ c.layout = n.layout ∧ c.mirror = n.mirror ∧ c.devs = n.devs ∧ c.mirs = n.mirs ∧
        c.span = n.span then
      (s.updKv ctx (fun c => { c with next := some (n.drop, n.quota) })).complete r Status.ok []
    else if c.frames.isEmpty && c.spill.isEmpty && c.leaves.isEmpty && c.chunks.isEmpty then (s.updKv ctx (fun c => { n with drop := c.drop, quota := c.quota, next := some (n.drop, n.quota) })).complete r Status.ok []
    else s.complete r Status.kvParam []

/-- The pages that a PREFETCH or SPILL names, in ascending layer and then page order. -/
def State.kvNamed (s : State) (b : Body) : List PageRef :=
  (List.range (fld b 239 232 + 1 - fld b 231 224)).flatMap (fun i =>
    let l := fld b 231 224 + i
    (List.range (fld b 209 192 + 1)).flatMap (fun j => (List.range (s.groupsAt l)).map (fun g =>
      ({ seq := fld b 29 16, layer := l, group := g, page := fld b 177 160 + j } : PageRef))))

/-- Starts the movement of one named page, or skips it. -/
def State.kvStart (s : State) (r : CmdRef) (ctx : Nat) (spill : Bool) (p : PageRef) : State :=
  match s.kv? ctx, s.seq? p.seq with
  | some c, some q =>
    if spill then
      (match s.nextSpill c with
        | some f => if s.spillable c p && decide (c.spill.length < c.quota) && s.fl.spillReady && s.pageHere c p then
            s.spillIssue c p f (some r) none else s.kvHandled (some r) false
        | none => s.kvHandled (some r) false)
    else if 64 * p.page ≥ q.written ∨ pwSpilling (s.pageWord c p) then s.kvHandled (some r) false
    else match s.promote c p (some r) with
      | some s1 => s1.queueSpill (pwFrame (s.pageWord c p))
      | none => s.kvHandled (some r) false
  | _, _ => s.kvHandled (some r) false

/-- What a stamped KV command does (R214). -/
def actKv : CmdAct := fun r l s =>
  match s.chanCtx l.h.channel with
  | none => s.complete r Status.kvParam []
  | some cx =>
    if kvOp l.body = 0 then s.kvConfigure r cx.id l.h.func l.body
    else
      let ps := s.kvNamed l.body
      if ps.isEmpty then s.complete r Status.ok (kvBody Status.ok 0 0) else
      let s1 := { s with kv := { s.kv with runs := s.kv.runs ++ [{ r := r, left := ps.length, handled := 0, skipped := 0 }] } }
      ps.foldl (fun s p => s.kvStart r cx.id (kvOp l.body == 2) p) s1

def isKvConfig : CmdHdr → Body → Bool := opRow Op.kv (fun o => o == 0 || o == 3) 1 0
def isKvPrefetch : CmdHdr → Body → Bool := opRow Op.kv (fun o => o == 1) 1 0
def isKvSpill : CmdHdr → Body → Bool := opRow Op.kv (fun o => o == 2) 1 0

/-- CONFIG: sets a context's pools, layout, mode and spill quota (R214). A KV command with the reserved OP is refused here. -/
def execConfig (h : CmdHdr) (b : Body) (s : State) : Host.Outcome State Fault Refusal :=
  .next (s.command isKvConfig chkKv actKv h b)

/-- PREFETCH: promotes the named T3 pages with free frames (R214). -/
def execPrefetch (h : CmdHdr) (b : Body) (s : State) : Host.Outcome State Fault Refusal :=
  .next (s.command isKvPrefetch chkKv actKv h b)

/-- SPILL: spills the named pages that are spill candidates (R214). -/
def execSpill (h : CmdHdr) (b : Body) (s : State) : Host.Outcome State Fault Refusal :=
  .next (s.command isKvSpill chkKv actKv h b)

/-! ## The ends of movements -/

/-- A spill that Vuindig could not complete: the page stays in T2, and a spill made for a waiting sequence tries the next candidate, within
the quota (R204, R205). -/
def State.spillFail (s : State) (c : KvCtx) (m : PageMove) : State :=
  let s3 := ((s.undoSpill m).count Reg.kvSpillErrCnt).kvHandled m.cmd false
  match m.spare, s3.kv? c.ctx with
  | some seq, some c1 => (match s3.oldest { c1 with age := c1.age.filter (fun x => x != m.p) }, s3.nextSpill c1 with
    | some v, some f => if c1.spill.length < c1.quota then s3.spillIssue c1 v f none (some seq) else s3
    | _, _ => s3)
  | _, _ => s3

/-- SPILL_DURABLE: Vuindig reports a spill durable, and the page moves to T3; its frame is freed once nothing reads it. Or the write
cannot be completed, and the page stays in T2 (R204, R205). The write is the one that its channel programs (R284). -/
def execSpillDurable (p : PageRef) (ok : Bool) (s : State) : Host.Outcome State Fault Refusal :=
  .next (match s.kv.spills.find? (fun m => m.p == p && !m.done) with
  | none => s
  | some m =>
    match s.kv? m.ctx with
    | none => s
    | some c =>
      if !s.spillTurn m.spill then s
      else if ok then
        let pool := (c.pools.getD m.pool (0, 0)).1
        let b := s.hBytes c.func pool (m.frame * 16384) 16384
        let s1 := ((((s.endSpillWrite m.spill).setBytes (spillAddr m.spill) b).mapSpill m.spill).hTraffic c.func c.func pool false (m.frame * 16384) 16384).charge
          c.func (fun a => { a with t3wr := a.t3wr + 16384 })
        (s1.spillDurable c m).settleSpills
      else s.spillFail c m)

/-- The read of a page's spill frame is served, where its turn has come (R284); a page that has left T3 meanwhile needs none. -/
def State.pageServed (s : State) (c : KvCtx) (p : PageRef) : Option State :=
  let w := s.pageWord c p
  if pwState w = 2 then s.serveSpill (pwFrame w) else some s

/-- T3_PAGE_READ_DONE: a chosen T3 page has landed in the lagoon of its split's island, and may be promoted; a page that cannot be
read is repaired (R183, R206, R207). The last page of a split ends its task's wait for flash (R271). -/
def State.onT3PageReadDone (s : State) (a : AttnRef) (page : Nat) (readable : Bool) : State :=
  (match s.cohort? a.slot with
  | none => s
  | some k =>
    match k.attn? a, k.entries[a.entry]?, s.kv? k.ctx with
    | some r, some x, some c =>
      let p : PageRef := { seq := x.seq, layer := a.layer, group := a.group, page := page }
      if !(r.splits.any (fun sp => sp.t3 && sp.pages.contains page && !sp.landed.contains page)) then s
      else match s.pageServed c p with
      | none => s
      | some sr =>
        let die := r.merge / 128
        let s0 := (sr.count Reg.kvT3ReadCnt).count (Reg.attnT3PageCnt die)
        if !readable || !s.pageReadable c p then s0.badPage c a.slot a.entry p die
        else
          let land (sp : Split) : Split := { sp with landed := addOnce page sp.landed }
          let s1 := s0.updAttn a (fun r => { r with splits := updWhere (fun sp => sp.t3 && sp.pages.contains page) land r.splits })
          let s1b := { s1 with sch := { s1.sch with tasks := s1.sch.tasks.map (fun (t : Task) => match t.kind with
            | .split b n _ => if b = a ∧ (r.splits.any (fun sp => sp.pages.headD 0 == n && sp.t3 &&
                (land sp).landed.length == sp.pages.length && sp.pages.contains page)) then { t with ready := true } else t
            | _ => t) } }
          let last := r.splits.any (fun sp => sp.t3 && sp.pages.contains page && (land sp).landed.length == sp.pages.length)
          let s1c := if last then (s1b.count Reg.memT3Ev).stallUs Reg.memT3Us else s1b
          let s2 := s1c.charge c.func (fun q => { q with t3rd := q.t3rd + 16384 })
          ((s2.promote c p none).getD s2).measured s a.slot
    | _, _, _ => s)

/-- T3_PAGE_READ_DONE as a command. -/
def execT3PageReadDone (a : AttnRef) (page : Nat) (readable : Bool) (s : State) : Host.Outcome State Fault Refusal := .next (s.onT3PageReadDone a page readable)

/-- Whether a spill frame can be read. -/
def State.spillReadable (s : State) (f : Nat) : Bool := (List.range 4).all (fun i => s.mapUnitReadable (0x3C0000000 + f * 4 + i))

/-- PROMOTION_DONE: the write of a promoted page ends: it is in T2, its spill frame is free and it joins the age queue (R207). A PREFETCH
reads the page for it, which counts as a T3 read; where the spill frame cannot be read, the promotion is dropped and the page skipped. -/
def execPromotionDone (p : PageRef) (s : State) : Host.Outcome State Fault Refusal :=
  .next (match s.kv.promos.find? (fun m => m.p == p) with
  | none => s
  | some m =>
    match s.kv? m.ctx with
    | none => s
    | some c =>
      match if m.cmd.isSome then s.pageServed c p else some s with
      | none => s
      | some sr =>
      let s0 : State := { sr with kv := { sr.kv with promos := sr.kv.promos.filter (fun x => x != m) } }
      let s1 := if m.cmd.isSome then (s0.count Reg.kvT3ReadCnt).charge c.func (fun a => { a with t3rd := a.t3rd + 16384 }) else s0
      if m.cmd.isSome && !s.spillReadable m.spill then
        ((s1.setPage c p (fun w => setBits w 50 50 0)).freeFrame m.ctx m.pool m.frame).kvHandled m.cmd false
      else
        let s2 := s1.putFrame c m.pool m.frame 0 (s.spillBytes c m.spill 0 16384)
        let s3 := (s2.setPage c p (fun w => setBits (setBits (setBits (setBits w 50 50 0) 41 40 1) 36 32 m.pool) 27 0 m.frame)).freeSpill m.ctx m.spill
        ((s3.ageAdd m.ctx p).count Reg.kvPromoteCnt).pruneReads.kvHandled m.cmd true)

/-- Takes back the movements of a PREFETCH or SPILL that has handled no page: it leaves no effect (R214, R341). -/
def State.dropMoves (s : State) (r : CmdRef) : State :=
  let s1 := (s.kv.spills.filter (fun m => m.cmd == some r && !m.done)).foldl State.undoSpill s
  let s2 := (s1.kv.promos.filter (fun m => m.cmd == some r)).foldl State.undoPromo s1
  ({ s2 with kv := { s2.kv with runs := s2.kv.runs.filter (fun x => x.r != r) } } : State).pruneReads

/-! ## Per-page descriptors (R197, R198) -/

/-- The device address of a frame of a pool. -/
def State.frameAddr (s : State) (c : KvCtx) (pool frame : Nat) : Nat :=
  match s.obj? c.func (c.pools.getD pool (0, 0)).1 with
  | some o => t2Addr o.stack (o.grans.getD (frame / 4) 0 * 65536 + frame % 4 * 16384)
  | none => 0

/-- The relocation that a descriptor of the firmware asks for: it copies the whole code frame of a page in T2 to a free frame of another
pool of its context. -/
def State.relocOf (s : State) (d : FerryDesc) : Option (KvCtx × PageRef × Nat × Nat) :=
  if d.len ≠ 16384 ∨ d.rowsM1 ≠ 0 ∨ d.mode ≠ 0 then none
  else (s.kv.ctxs.filter (fun c => c.func == d.func)).findSome? (fun c =>
    let at_ (a : Nat) (fs : Nat → List Nat) : Option (Nat × Nat) :=
      (List.range c.pools.length).findSome? (fun i => ((fs i).find? (fun f => s.frameAddr c i f == a)).map (fun f => (i, f)))
    match at_ d.src (fun i => (c.frames.filter (fun x => x.1 == i)).map (fun x => x.2)), at_ d.dst (s.freeFrames c) with
    | some u, some v => if u.1 = v.1 then none else
      (((s.gen.seqs.filter (fun q => q.ctx == c.ctx)).flatMap s.seqPages).find? (fun p =>
        let w := s.pageWord c p
        pwState w == 1 && pwPool w == u.1 && pwFrame w == u.2)).map (fun p => (c, p, v.1, v.2))
    | _, _ => none)

/-- What the allocator does when the firmware arms a descriptor: for a relocation it reserves the frame and sets MOVING, or refuses the
descriptor of a page that is not full, or is spilling, promoting or moving; any other descriptor is not its concern (R198). -/
def State.relocArm (s : State) (d : FerryDesc) : Option State :=
  match s.relocOf d with
  | none => some s
  | some (c, p, i, f) =>
    let w := s.pageWord c p
    if pwFill w < 64 ∨ pwSpilling w ∨ pwPromoting w ∨ pwMoving w then none
    else
      let m : PageMove := { p := p, ctx := c.ctx, pool := i, frame := f, spill := 0, cmd := none, spare := none, done := false, gone := false }
      let s1 := (s.updKv c.ctx (fun c => { c with frames := c.frames ++ [(i, f)] })).setPage c p (fun w => setBits w 52 52 1)
      some { s1 with kv := { s1.kv with relocs := s1.kv.relocs ++ [m] } }

/-- RELOCATION_COPY_DONE: the per-page descriptor of the firmware has copied a full page's code frame to the frame that the allocator
reserved when it was armed; MOVING stays set until the switch (R198). -/
def State.onRelocationCopyDone (s : State) (p : PageRef) : State :=
  match s.kv.relocs.find? (fun m => m.p == p && !m.done) with
  | none => s
  | some m =>
    match s.kv? m.ctx with
    | none => s
    | some c =>
      let s1 := s.putFrame c m.pool m.frame 0 (s.codeBytes c p 0 16384)
      { s1 with kv := { s1.kv with relocs := updWhere (fun x => x == m) (fun x => { x with done := true }) s1.kv.relocs } }

/-- RELOCATION_COPY_DONE as a command. -/
def execRelocationCopyDone (p : PageRef) (s : State) : Host.Outcome State Fault Refusal := .next (s.onRelocationCopyDone p)

/-- HOLD_EXPIRE: HOLD_STEPS step boundaries have passed without the held entry of an ordinary channel, and its reserved frames return
to the free lists (R203). -/
def execHoldExpire (seq : Nat) (s : State) : Host.Outcome State Fault Refusal :=
  .next (match s.seq? seq with
  | none => s
  | some q =>
    match q.want, s.kv? q.ctx with
    | some (pos0, qlen), some c =>
      if q.flow || decide (s.gen.boundaries < q.heldAt + bits (s.genCfg 3) 7 0) then s
      else
        let ps := (s.allLists.flatMap (fun lg => (List.range ((pos0 + qlen - 1) / 64 - pos0 / 64 + 1)).map (fun i =>
          ({ seq := seq, layer := lg.1, group := lg.2, page := pos0 / 64 + i } : PageRef)))).filter (fun p =>
            pwState (s.pageWord c p) == 1 && pwFill (s.pageWord c p) == 0)
        let s1 := ps.foldl (fun s p =>
          let w := s.pageWord c p
          (s.setPage c p (fun _ => 0)).freeFrame c.ctx (pwPool w) (pwFrame w)) s
        (((s1.updSeq seq (fun q => { q with wait := none, want := none })).count Reg.kvHoldExpireCnt).sendHold c seq false).serveWaiting c.ctx
    | _, _ => s)

/-! ## What other devices send (R174, R181, R183, R211, R212) -/

/-- A mirrored page whose parts have all come enters the page list of its sequence, where that is open here: in T3 with FILL = 64. Else,
or where the list has no room for its leaf, its copy is kept aside (DESIGN CHOICE, log entry 71). -/
def State.bindCopy (s : State) (m : PageCopy) : State :=
  match s.seq? m.p.seq with
  | none => s
  | some q =>
    if q.ctx ≠ m.ctx ∨ m.parts.length < 6 then s
    else match s.makeLeaf m.ctx m.p with
    | none => s
    | some s1 =>
      match s1.kv? m.ctx with
      | none => s
      | some c =>
        let s2 := ((s1.setPage c m.p (fun _ => m.frame + 2 * 2 ^ 40 + 64 * 2 ^ 42)).putMeta c m.p 0 m.md).hPut c.func (fld q.body 191 160) (256 * m.p.page) m.toks
        ({ s2 with kv := { s2.kv with copies := s2.kv.copies.filter (fun x => x != m) } } : State).updSeq q.slot (fun q =>
          { q with written := max q.written (64 * (m.p.page + 1)) })

/-- Binds the copies that wait for a sequence that has just been opened (R212). -/
def State.bindCopies (s : State) (slot : Nat) : State :=
  (sortBy (fun m => m.p.page) (s.kv.copies.filter (fun m => m.p.seq == slot))).foldl State.bindCopy s

/-- One part of a mirrored page arrives (R212). The first takes a spill frame, charged to the context's quota; none is left, or the context
is not configured, and the copy is refused. A copy of a page replaces those of the same and of higher pages of its list, which a former
sequence of the slot has left (DESIGN CHOICE, log entry 71). -/
def State.takeMirror (s : State) (ctx : Nat) (p : PageRef) (part : Nat) (b : List Byte) : State × Bool :=
  match s.kv? ctx with
  | none => (s, false)
  | some c =>
    let old := s.kv.copies.filter (fun m => m.ctx == ctx && m.p.seq == p.seq && m.p.layer == p.layer && m.p.group == p.group && decide (p.page ≤ m.p.page))
    let cur := old.find? (fun m => m.p == p && !m.parts.contains part && decide (m.parts.length < 6))
    let gone := old.filter (fun m => some m != cur)
    let s0 := gone.foldl (fun s m => s.freeSpill ctx m.frame)
      ({ s with kv := { s.kv with copies := s.kv.copies.filter (fun m => !gone.contains m) } } : State)
    let take : Option (PageCopy × State) := match cur with
      | some m => some (m, s0)
      | none => match s0.kv? ctx with
        | none => none
        | some c0 => if c0.spill.length ≥ c0.quota then none else (s0.nextSpill c0).map (fun f =>
          let m : PageCopy := { ctx := ctx, p := p, frame := f, parts := [], md := [], toks := [] }
          (m, ({ s0 with kv := { s0.kv with copies := s0.kv.copies ++ [m] } } : State).updKv ctx (fun c =>
            { c with spill := c.spill ++ [f], spillNext := (f + 1) % s.spillFrames })))
    match take with
    | none => (s0, false)
    | some (m, s1) =>
      let m1 : PageCopy := { m with parts := m.parts ++ [part], md := if part = 4 then b else m.md, toks := if part = 5 then b else m.toks }
      let s2 : State := { s1 with kv := { s1.kv with copies := s1.kv.copies.map (fun x => if x = m then m1 else x) } }
      let s3 := if part < 4 then (s2.setBytes (spillAddr m.frame + 4096 * part) b).charge c.func (fun a => { a with t3wr := a.t3wr + b.length }) else s2
      let s4 := if m1.parts.length = 6 then s3.mapSpill m.frame else s3
      (s4.bindCopy m1, true)

/-- A part of a mirrored page that this device holds for another (R183). -/
def State.mirrorPart (s : State) (ctx : Nat) (p : PageRef) (part : Nat) : Option (List Byte) :=
  match s.kv.copies.find? (fun m => m.ctx == ctx && m.p == p && decide (m.parts.length = 6)), s.kv? ctx with
  | some m, some c => if part = 4 then some m.md
    else if part < 4 && s.spillReadable m.frame then some (s.spillBytes c m.frame (4096 * part) 4096) else none
  | some m, none => if part = 4 then some m.md else none
  | none, some c => if pwFill (s.pageWord c p) < 64 || !s.pageReadable c p then none
    else if part = 4 then some (s.metaBytes c p 0 256) else if part < 4 then some (s.codeBytes c p (4096 * part) 4096) else none
  | _, _ => none

/-- Whether no piece of a cohort step has left EMBED: its first layer has not started. -/
def Cohort.early (k : Cohort) : Bool := k.pieces.all (fun p => p.st == 0)

/-- Another device holds an entry, or no longer does, when its sequence becomes ready (R211, R233): an entry of a step whose first layer has not started is held out of it. -/
def State.takeHold (s : State) (ctx seq dev : Nat) (on : Bool) : State :=
  let rest := s.kv.holds.filter (fun h => h != (ctx, seq, dev))
  let s1 : State := { s with kv := { s.kv with holds := if on then rest ++ [(ctx, seq, dev)] else rest } }
  if !on then (if s1.kv.holds.any (fun h => h.1 == ctx && h.2.1 == seq) then s1 else s1.updSeq seq (fun q => { q with readyAt := s.now }))
  else s1.gen.cohorts.foldl (fun s k => match k.entries.findIdx? (fun x => x.seq == seq && x.status == Status.ok) with
    | some e => if k.ctx = ctx ∧ k.early then (s.leaveStep k.slot e).updEntry k.slot e (fun x => { x with status := Status.pageWait }) else s
    | none => s) s1

/-- Whether another device holds a sequence. -/
def State.heldAway (s : State) (ctx seq : Nat) : Bool := s.kv.holds.any (fun h => h.1 == ctx && h.2.1 == seq)

/-- The attention of an entry of a sequence and position here. -/
def State.attnAt (s : State) (ctx pos seq layer group : Nat) : Option AttnRef :=
  s.gen.cohorts.findSome? (fun k => if k.ctx ≠ ctx then none else
    (k.attns.find? (fun r => r.layer == layer && r.group == group &&
      ((k.entries[r.entry]?).map (fun x => x.seq == seq && x.pos0 == pos)).getD false)).map (fun r =>
        ({ slot := k.slot, entry := r.entry, layer := layer, group := group } : AttnRef)))

/-- How many splits of other devices have arrived in full for an attention. -/
def State.farSplitsAt (s : State) (ctx : Nat) (a : AttnRef) : Nat :=
  match (s.cohort? a.slot).bind (fun k => k.entries[a.entry]?), s.kv? ctx with
  | some x, some c => (s.farSplits c (s.attnDesc a.layer) a x).length
  | _, _ => 0

/-- A page list or partials arrive (R174, R181): the device that merges goes on once it has all, and the final list ends page choice. -/
def State.arriveFar (s : State) (x : XPkt) (ctx pos : Nat) (p : PageRef) : State :=
  let s0 : State := { s with kv := { s.kv with far := s.kv.far ++ [x] } }
  match s0.attnAt ctx pos p.seq p.layer p.group with
  | none => s0
  | some a =>
    let s1 := s0.landParts a ((((s0.cohort? a.slot).bind (fun k => k.attn? a)).map (fun r => r.merge)).getD 0) (s0.farSplitsAt ctx a - s.farSplitsAt ctx a)
    match joinParts s1.kv.far (fun y => match y.place with
      | .finalList c' pos' q i n => if c' = ctx ∧ pos' = pos ∧ q = p then some (i, n) else none
      | _ => none) with
    | some l =>
      if ((s1.cohort? a.slot).bind (fun k => k.attn? a)).any (fun r => r.listed && !r.chosen) then
        (s1.takeFar (fun y => match y.place with
          | .finalList c' pos' q _ _ => c' == ctx && pos' == pos && q == p
          | _ => false)).choiceEnd a (sortBy id (l.map (fun e => e.1)))
      else s1
    | none => s1.attnCheck a

/-- The write of a packet that names a place of a sequencer; whether it is taken. -/
def State.takePlace (s : State) (x : XPkt) : State × Bool :=
  let own (ctx : Nat) : Bool := (s.kv? ctx).any (fun c => c.func == x.func)
  match x.place with
  | .hold ctx q on => if own ctx then (s.takeHold ctx q x.srcOrd on, true) else (s, false)
  | .pageList ctx pos p _ _ | .finalList ctx pos p _ _ | .partials ctx pos p _ _ => if own ctx then (s.arriveFar x ctx pos p, true) else (s, false)
  | .fresh ctx t p => (match (s.kv? ctx).filter (fun c => c.func == x.func) with
    | some c => if pwState (s.pageWord c p) = 1 ∧ x.data.length = 258 then
        (s.putPos c p (t % 64) (x.data.take 128) ((x.data.drop 128).take 128) (x.data.getD 256 0) (x.data.getD 257 0), true) else (s, false)
    | none => (s, false))
  | .mirror ctx p part => if own ctx && part < 6 then s.takeMirror ctx p part x.data else (s, false)
  | _ => (s, false)

end Sys2Proof.Machine
end

