-- ==== Sys2Proof/Machine/Gen.lean ====
section
/-! DEFINITION. The resident model, sequences, and the shared operations of cohort steps (R218 to R240). -/

namespace Sys2Proof.Machine

/-! ## Geometry of the model (R218, R220, R223) -/

/-- The element format of WFMT. -/
def wFmt (w : Nat) : Fmt :=
  if w = 0 then .int4 else if w = 1 then .fp4 else if w = 2 then .int8 else if w = 3 then .e4m3 else if w = 4 then .mxfp4 else .mxfp8

/-- The element format of LOWFMT. -/
def lowFmt (w : Nat) : Fmt := if w = 1 then .int4 else if w = 2 then .fp4 else .mxfp4

/-- Whether LOWFMT equals a 4-bit WFMT, so that level 2 uses the main tiles. -/
def lowIsMain (d : Body) : Bool :=
  (fld d 73 72 == 1 && fld d 31 28 == 0) || (fld d 73 72 == 2 && fld d 31 28 == 1) || (fld d 73 72 == 3 && fld d 31 28 == 4)

/-- Bytes of a tile of a format (R223 Table 4). -/
def tileBytes (f : Fmt) : Nat := 4096 * fmtBits f + 1024

/-- The inputs of a projection: 0 QKV, 1 O, 2 UP, 3 DOWN, 4 the unembedding; `d` is the model descriptor, `a` the layer's
attention descriptor. -/
def projK (d a : Body) (p : Nat) : Nat :=
  if p = 1 then adQHeads a * adDh a else if p = 3 then 32 * fld d 43 32 else 32 * fld d 25 16

/-- The output columns of a projection. -/
def projCols (d a : Body) (p : Nat) : Nat :=
  if p = 0 then (adQHeads a + 2 * adKvHeads a) * adDh a else if p = 2 then 64 * fld d 43 32 else if p = 4 then fld d 68 48 else 32 * fld d 25 16

/-- The blocks of 1,024 reduction indices of a projection. -/
def projNb (d a : Body) (p : Nat) : Nat := cdiv (projK d a p) 1024

/-- The column blocks of a projection. -/
def projBlocks (d a : Body) (p : Nat) : Nat := cdiv (projCols d a p) 32

/-- The ranges and combinations of R218 Table 1; reserved bits are ignored (R10). -/
def mdlOk (d : Body) : Bool :=
  fld d 7 0 == 1 && decide (1 ≤ fld d 25 16) && decide (fld d 25 16 ≤ 512) && decide (fld d 31 28 < 6) &&
  decide (1 ≤ fld d 43 32) && fld d 45 44 == (if fld d 31 28 = 0 ∨ fld d 31 28 = 2 then 0 else 1) && decide (fld d 47 46 < 2) &&
  decide (2 ≤ fld d 68 48) && decide (fld d 68 48 ≤ 2 ^ 20) &&
  !fIsNan (fld d 127 96) && !fIsInf (fld d 127 96) && !Fv.lt (f32 (fld d 127 96)) (.fin false 0 0) &&
  (!lowIsMain d || (List.range 4).all (fun i => fld d (319 + 32 * i) (288 + 32 * i) == 0))

/-- A layer record of a table's bytes. -/
def recFld (tab : List Byte) (l hi lo : Nat) : Nat := fld ((tab.drop (64 * l)).take 64) hi lo

/-- Whether the layer records obey R220; reserved bits are ignored (R10). -/
def recsOk (d : Body) (tab : List Byte) : Bool :=
  let n := fld d 15 8 + 1
  tab.length == 64 * (n + 1) &&
  recFld tab n 159 128 == 0 && recFld tab n 223 160 == 0 && recFld tab n 255 224 == 0 && recFld tab n 351 288 == 0

/-- Whether the largest column block of a model fits its window (R224). -/
def blocksFit (d : Body) (ads : List Byte) (winKib : Nat) : Bool :=
  (List.range (fld d 15 8 + 1)).all (fun l => (List.range 5).all (fun p =>
    let nb := projNb d ((ads.drop (32 * l)).take 32) p
    decide (nb * tileBytes (wFmt (fld d 31 28)) ≤ winKib * 1024) &&
    (fld d 73 72 == 0 || decide (nb * tileBytes (lowFmt (fld d 73 72)) ≤ winKib * 1024))))

/-! ## Loading and unloading (R218 to R222) -/

/-- An object that a model may name: the loading function's own, in T2. -/
def State.ownT2 (s : State) (f h : Nat) : Bool :=
  match s.obj? f h with
  | some o => o.func == f && o.inT2
  | none => false

/-- The checks of MODEL_LOAD: R219, then R218 with the layer table and the attention descriptors of the image. -/
def State.modelCheck (s : State) (f : Nat) (b : Body) : Option Nat :=
  let d := b.take 64
  if s.gen.model.st ≠ 0 then some Status.modelResident
  else match s.obj? f (fld b 543 512) with
  | none => some Status.modelParam
  | some o =>
    if o.inT2 then some Status.modelParam
    else if !s.imageHeaderOk o 2 then some Status.modelImageBad
    else
      let tab := s.imageSec o 0x11
      let ads := s.imageSec o 0x12
      let dies := ((List.range (fld d 15 8 + 2)).map (fun l => recFld tab l 1 0)).eraseDups
      let sepLow := fld d 73 72 != 0 && !lowIsMain d
      if !mdlOk d || !recsOk d tab || !blocksFit d ads (bits (s.rd Reg.genPipeCfg) 10 0) || !s.ownT2 f (fld d 447 416) ||
          !s.ownT2 f (fld d 479 448) || !dies.all (fun i => s.ownT2 f (fld d (191 + 32 * i) (160 + 32 * i))) ||
          (sepLow && !dies.all (fun i => s.ownT2 f (fld d (319 + 32 * i) (288 + 32 * i)))) then some Status.modelParam
      else if ads.length ≠ 32 * (fld d 15 8 + 1) ∨ !((List.range (fld d 15 8 + 1)).all (fun l => adOk ((ads.drop (32 * l)).take 32))) then
        some Status.attnParam
      else none

/-- No model. -/
def ModelSt.none_ : ModelSt := { st := 0, func := 0, desc := [], img := 0, ident := 0, loadCmd := none, winKib := 0, digests := [] }

/-- Replaces the model. -/
def State.setModel (s : State) (m : ModelSt) : State := { s with gen := { s.gen with model := m } }

/-- What a MODEL_LOAD does when it runs: step 1 of Table 3. -/
def actModelLoad : CmdAct := fun r l s =>
  match s.modelCheck l.h.func l.body with
  | some st => s.complete r st []
  | none =>
    let img := fld l.body 543 512
    let ident := ((s.obj? l.h.func img).map (fun o => s.objNat o 8 8)).getD 0
    (s.updLive r (fun l => { l with committed := true })).setModel
      { st := 1, func := l.h.func, desc := l.body.take 64, img := img, ident := ident, loadCmd := some r, winKib := bits (s.rd Reg.genPipeCfg) 10 0, digests := [] }

def isModelLoad (h : CmdHdr) (_ : Body) : Bool := h.opcode == Op.modelLoad

/-- MODEL_LOAD: the load is checked, STATE becomes LOADING and the copy of the image starts (R221 step 1). -/
def execModelLoad (h : CmdHdr) (b : Body) (s : State) : Host.Outcome State Fault Refusal :=
  .next (s.command isModelLoad noCheck actModelLoad h b)

/-- Ends a load that failed: STATE is ABSENT again. -/
def State.modelFail (s : State) (status : Nat) : State :=
  match s.gen.model.loadCmd with
  | some r => (s.setModel ModelSt.none_).complete r status []
  | none => s.setModel ModelSt.none_

/-- Copies the sections of a model image into its objects (R221 step 2, R292). -/
def State.copyModel (s : State) (o : Obj) : State :=
  let f := s.gen.model.func
  let put (s : State) (ty h : Nat) : State := if (s.imageSec o ty).isEmpty then s else s.hPut f h 0 (s.imageSec o ty)
  let s1 := put (put s 0x11 (s.mdl 447 416)) 0x12 (s.mdl 479 448)
  (List.range 4).foldl (fun s d => put (put s (0x13 + d) (s.mWobj d)) (0x17 + d) (s.mLowObj d)) s1

/-- MODEL_IMAGE_COPIED: the sections are copied and verified, the window shares are taken and STATE is RESIDENT. A section that fails
its digest ends the load and is recorded; a share that cannot be taken ends it with LAGOON_FULL (R221). -/
def execModelImageCopied (s : State) : Host.Outcome State Fault Refusal :=
  .next (if s.gen.model.st ≠ 1 then s
  else match s.obj? s.gen.model.func s.gen.model.img with
  | none => s.modelFail Status.modelImageBad
  | some o =>
    match s.imageBad o with
    | some ty => (s.modelFail Status.modelImageBad).blkErr (basePage 0x0C 0) 0x0C ty
    | none =>
      let t := (s.copyModel o).takeShare .model none (cdiv (2 * s.gen.model.winKib) 16)
      if t.2 then
        let s1 := t.1.setModel { t.1.gen.model with
          st := 2, loadCmd := none, digests := ((s.imageSecs o).map (fun e => e.2.2.2)).flatten }
        (match s.gen.model.loadCmd with
          | some r => s1.complete r Status.ok []
          | none => s1)
      else t.1.modelFail Status.lagoonFull)

/-- Frees the window shares and sets STATE = ABSENT. -/
def State.dropModel (s : State) : State := (s.dropShare .model).setModel ModelSt.none_

/-- What a MODEL_UNLOAD does when it runs (R222). -/
def actModelUnload : CmdAct := fun r l s =>
  let m := s.gen.model
  if m.st = 0 ∨ m.st = 3 ∨ m.func ≠ l.h.func then s.complete r Status.modelAbsent []
  else if m.st = 1 ∨ !s.gen.seqs.isEmpty ∨ !s.gen.cohorts.isEmpty then s.complete r Status.modelBusy []
  else s.dropModel.complete r Status.ok []

def isModelUnload (h : CmdHdr) (_ : Body) : Bool := h.opcode == Op.modelUnload

/-- MODEL_UNLOAD: frees the window shares and sets STATE = ABSENT (R222). -/
def execModelUnload (h : CmdHdr) (b : Body) (s : State) : Host.Outcome State Fault Refusal :=
  .next (s.command isModelUnload noCheck actModelUnload h b)

/-! ## Sequences (R229 to R231) -/

def sqPrompt (b : Body) : Nat := fld b 39 16
def sqMaxNew (b : Body) : Nat := fld b 71 48
def sqStop (b : Body) : Nat := fld b 127 96
def sqToklog (b : Body) : Nat := fld b 191 160
def sqOut (b : Body) : Nat := fld b 223 192
def sqTemp (b : Body) : Nat := fld b 255 224
def sqTopK (b : Body) : Nat := fld b 263 256 + 1
def sqFallback (b : Body) : Nat := fld b 265 264
def sqChunk (b : Body) : Nat := fld b 287 272 + 1
def sqDeadline (b : Body) : Nat := fld b 343 320

/-- The reserved values and ranges of R229 Table 6, on a flow or an ordinary channel. -/
def seqRangesOk (b : Body) (flow : Bool) : Bool :=
  fld b 15 14 == 0 && fld b 47 40 == 0 && fld b 95 72 == 0 && fld b 271 266 == 0 && fld b 511 344 == 0 &&
  !fIsNan (sqTemp b) && !fIsInf (sqTemp b) && !Fv.lt (f32 (sqTemp b)) (.fin false 0 0) &&
  (if flow then decide (1 ≤ sqPrompt b) && decide (1 ≤ sqMaxNew b) && decide (sqPrompt b + sqMaxNew b ≤ 2 ^ 24) && decide (sqFallback b < 3)
   else sqPrompt b == 0 && sqMaxNew b == 0 && sqStop b == 0 && sqOut b == 0 && sqFallback b == 0 && sqChunk b == 1 && sqDeadline b == 0)

/-- The checks of R229 before a SEQ_OPEN is stamped. -/
def chkSeqOpen : BodyCheck := fun s h b =>
  let own (x : Nat) : Bool := ((s.obj? h.func x).map (fun o => o.func == h.func)).getD false
  let flow := ((s.chan? h.channel).map (fun c => c.flow)).getD false
  if (s.seq? (fld b 13 0)).isSome then some (Status.seqBusy, [])
  else if !seqRangesOk b flow || !own (sqToklog b) || (flow && !own (sqOut b)) then some (Status.genParam, [])
  else if !s.modelOf h.func then some (Status.modelAbsent, [])
  else none

/-- What a stamped SEQ_OPEN does: the slot is bound, the root block names nothing but the pages that are mirrored here for the sequence
(R195, R212), and a flow sequence joins the cohort with fewer open sequences (R231). -/
def actSeqOpen : CmdAct := fun r l s =>
  match s.chan? l.h.channel with
  | none => s.complete r Status.genParam []
  | some ch =>
    let slot := fld l.body 13 0
    let n (c : Nat) : Nat := (s.gen.seqs.filter (fun q => q.flow && q.chan == ch.num && q.cohort == c && !q.ended)).length
    let q : Seq :=
      { slot := slot, func := l.h.func, ctx := ch.ctx, chan := ch.num, flow := ch.flow, cohort := if n 0 ≤ n 1 then 0 else 1, body := l.body
        written := 0, last := 0, tokens := 0, level := 0, readyAt := s.now, began := false, wait := none, want := none, heldAt := 0, noCand := 0
        closeCmd := none, openCmd := if ch.flow then some r else none, ended := false, keep := false }
    let s1 : State := { s with gen := { s.gen with seqs := s.gen.seqs ++ [q] } }
    let s2 := match s1.kv? ch.ctx with
      | some c => s1.hPut c.func c.root (256 * fld l.body 159 128) (List.replicate (256 * s1.allLists.length) 0xFF)
      | none => s1
    let s3 := s2.bindCopies slot
    if ch.flow then s3 else s3.complete r Status.ok []

def isSeqOpen (h : CmdHdr) (_ : Body) : Bool := h.opcode == Op.seqOpen

/-- SEQ_OPEN: binds a sequence slot to the channel's context (R229). -/
def execSeqOpen (h : CmdHdr) (b : Body) (s : State) : Host.Outcome State Fault Refusal :=
  .next (s.command isSeqOpen chkSeqOpen actSeqOpen h b)

/-- The checks of SEQ_CLOSE: reserved bits, a slot that is open in the channel's context and has no other SEQ_CLOSE (CMD_PARAM, R342), and a
model of another function (R219). -/
def chkSeqClose : BodyCheck := fun s h b =>
  if s.gen.model.st ≠ 0 ∧ s.gen.model.func ≠ h.func then some (Status.modelAbsent, [])
  else match s.seq? (fld b 13 0), s.chan? h.channel with
  | some q, some c => if fld b 31 14 = 0 ∧ q.ctx = c.ctx ∧ q.func = h.func ∧ q.closeCmd.isNone then none else some (Status.cmdParam, [])
  | _, _ => some (Status.cmdParam, [])

/-- A stamped SEQ_CLOSE takes effect at the sequence's next step boundary. -/
def actSeqClose : CmdAct := fun r l s => s.updSeq (fld l.body 13 0) (fun q => { q with closeCmd := some r })

def isSeqClose (h : CmdHdr) (_ : Body) : Bool := h.opcode == Op.seqClose

/-- SEQ_CLOSE: ends a sequence at its next step boundary and frees it (R215, R229). -/
def execSeqClose (h : CmdHdr) (b : Body) (s : State) : Host.Outcome State Fault Refusal :=
  .next (s.command isSeqClose chkSeqClose actSeqClose h b)

/-! ## STEP (R232, R240) -/

def stRagged (b : Body) : Nat := fld b 31 0
def stRaggedOff (b : Body) : Nat := fld b 79 32
def stEntries (b : Body) : Nat := fld b 93 80 + 1
def stTokens (b : Body) : Nat := fld b 127 96
def stOut (b : Body) : Nat := fld b 159 128
def stStats (b : Body) : Nat := fld b 191 160
def stDeadline (b : Body) : Nat := fld b 215 192
def stFallback (b : Body) : Nat := fld b 217 216

/-- The header of a STEP's completion. -/
def stepHdr (b : Body) (status committed no : Nat) : Body :=
  leBytes 16 (status + fld b 93 80 * 2 ^ 16 + committed * 2 ^ 32 + no * 2 ^ 64)

/-- Pads a completion body to a multiple of 16 bytes. -/
def pad16 (b : Body) : Body := b ++ List.replicate (roundUp b.length 16 - b.length) 0

/-- The completion body of a STEP that was refused or aborted (R240): every entry carries the status of the STEP (DESIGN CHOICE, log entry
33), and STEP_NO is the device's count of cohort steps, `no`. -/
def stepRefusal (b : Body) (status no : Nat) : Body := pad16 (stepHdr b status 0 no ++ (List.range (stEntries b)).flatMap (fun _ => leBytes 2 status))

/-- The checks of R232 before a STEP is stamped. -/
def chkStep : BodyCheck := fun s h b =>
  let own (x : Nat) : Bool := ((s.obj? h.func x).map (fun o => o.func == h.func)).getD false
  let bad (st : Nat) : Option (Nat × Body) := some (st, stepRefusal b st s.gen.stepNo)
  if fld b 95 94 != 0 || fld b 511 218 != 0 || stRaggedOff b % 64 != 0 || decide (stFallback b > 2) || !own (stRagged b) || !own (stTokens b) ||
      !own (stOut b) || (stStats b != 0 && !own (stStats b)) then bad Status.genParam
  else if !s.modelOf h.func then bad Status.modelAbsent
  else none

/-- A stamped STEP waits for its step boundary. -/
def actStep : CmdAct := fun r _ s => { s with gen := { s.gen with steps := s.gen.steps ++ [r] } }

def isStep (h : CmdHdr) (_ : Body) : Bool := h.opcode == Op.step

/-- STEP: submits a host-built ragged length table as a cohort step (R232). -/
def execStep (h : CmdHdr) (b : Body) (s : State) : Host.Outcome State Fault Refusal :=
  .next (s.command isStep chkStep actStep h b)

/-! ## Entries -/

/-- The body of the STEP of a cohort step. -/
def State.stepBody (s : State) (k : Cohort) : Body := ((k.cmd.bind s.live?).map (fun l => l.body)).getD []

/-- The input token of a row: from TOKENS_OBJ, from the token log for a prompt, and the last sampled token for a decode entry
(R230, R232). -/
def State.inputToken (s : State) (k : Cohort) (e row : Nat) : Nat :=
  match k.entries[e]? with
  | none => 0
  | some x =>
    if k.flow.isNone then s.hNat k.func (stTokens (s.stepBody k)) (4 * (x.rowBase + row)) 4
    else match s.seq? x.seq with
      | some q => if x.pos0 ≥ sqPrompt q.body then q.last else s.hNat k.func (sqToklog q.body) (4 * (x.pos0 + row)) 4
      | none => 0

/-- The island that runs column block `c` on a die: c mod 128, or the next unfenced island (R224). -/
def State.colIsland (s : State) (die c : Nat) : Nat :=
  (((List.range 128).map (fun i => die * 128 + (c + i) % 128)).find? (fun i => !s.flt.islands.contains i)).getD (die * 128 + c % 128)

/-- Removes what a cohort step in flight holds: tasks, handles, waiting swaps (R310, R239). -/
def State.clearCohort (s : State) (slot : Nat) : State :=
  let s1 := s.dropTasks (fun t => match t.kind with
    | .stage x _ _ _ _ _ => x == slot
    | .split a _ _ => a.slot == slot
    | .merge a => a.slot == slot
    | .sample x _ => x == slot
    | _ => false)
  ({ s1 with gen := { s1.gen with
      cohorts := s1.gen.cohorts.filter (fun k => k.slot != slot)
      queues := s1.gen.queues.map (fun q => { q with q := q.q.filter (fun b => b.cohort != slot) })
      swaps := s1.gen.swaps.filter (fun w => w.b.cohort != slot) } } : State).pruneReads

/-- Each page of an entry's positions falls back to the sequence's written positions (R239). One that is no longer full is no longer mirrored
(R212). -/
def State.rollPages (s : State) (ctx : Nat) (x : CEntry) : State :=
  match s.kv? ctx, s.seq? x.seq with
  | some c, some q =>
    let ps := s.allLists.flatMap (fun lg => (List.range ((x.pos0 + x.qlen - 1) / 64 - x.pos0 / 64 + 1)).map (fun i =>
      ({ seq := x.seq, layer := lg.1, group := lg.2, page := x.pos0 / 64 + i } : PageRef)))
    ps.foldl (fun s p =>
      let w := s.pageWord c p
      let f := min 64 (q.written - 64 * p.page)
      if pwState w = 1 ∧ f < pwFill w then
        let s1 := (s.setPage c p (fun w => setBits (setBits w 48 42 f) 51 51 0)).ageDrop ctx p
        { s1 with kv := { s1.kv with mirroring := s1.kv.mirroring.filter (fun x => x != p) } }
      else s) s
  | _, _ => s

/-- Discards an uncommitted cohort step (R239, R302): its tasks are killed and each page's FILL returns to its written positions. The
STEP itself is left to the caller. -/
def State.discardStep (s : State) (slot : Nat) : State :=
  match s.cohort? slot with
  | none => s
  | some k => (k.entries.foldl (fun s x => s.rollPages k.ctx x) (s.clearCohort slot)).settleSpills

/-! ## Work of a step (R313) -/

/-- The rows that an entry brings and the levels: whether an entry takes part in the step. -/
def CEntry.runs (x : CEntry) : Bool := x.status == Status.ok

/-- T2 and T3 bytes of one entry's cache at a level: window, global and retrieved pages with their metadata, and the metadata records
that page choice reads (R313). -/
def State.cacheBytes (s : State) (c : KvCtx) (x : CEntry) (level : Nat) : Nat :=
  (s.allLists.map (fun lg =>
    let d := s.attnDesc lg.1
    let el := ((s.eligible d x).filter (fun n => s.pageHere c { seq := x.seq, layer := lg.1, group := lg.2, page := n })).length
    let base := ((globalPages d x ++ windowPages d x).filter (fun n => s.pageHere c { seq := x.seq, layer := lg.1, group := lg.2, page := n })).length
    if level ≥ 1 then base * 16640 else (base + min (adRetr d) el) * 16640 + (if el > adRetr d then el * 192 else 0))).sum

/-- The bytes of all main tiles, and of all tiles of the separate low-bit copy. -/
def State.weightBytes (s : State) (low : Bool) : Nat :=
  let d := s.gen.model.desc
  let f := if low then lowFmt (fld d 73 72) else wFmt (fld d 31 28)
  let tiles (l p : Nat) : Nat := projBlocks d (s.attnDesc l) p * projNb d (s.attnDesc l) p
  (((List.range s.mLayers).flatMap (fun l => (List.range 4).map (tiles l))).sum + tiles 0 4) * tileBytes f

/-- The bytes that a step would move at the levels of its entries. -/
def State.planBytes (s : State) (c : KvCtx) (es : List CEntry) : Nat :=
  let rs := es.filter CEntry.runs
  let sep := fld s.gen.model.desc 73 72 != 0 && !lowIsMain s.gen.model.desc
  let main := rs.any (fun x => x.level < 2 || !sep)
  let low := sep && rs.any (fun x => decide (x.level ≥ 2))
  (if main then s.weightBytes false else 0) + (if low then s.weightBytes true else 0) +
    (rs.map (fun x => s.cacheBytes c x x.level + x.qlen * s.allLists.length * 258)).sum

/-- The matrix operations of one entry: every projection of its rows, the unembedding of its last row, and attention. -/
def State.entryOps (s : State) (c : KvCtx) (x : CEntry) : Nat :=
  let d := s.gen.model.desc
  let proj (l p : Nat) : Nat := 2 * projK d (s.attnDesc l) p * projCols d (s.attnDesc l) p
  let att (lg : Nat × Nat) : Nat :=
    let a := s.attnDesc lg.1
    let pages := (globalPages a x ++ windowPages a x).length + (if x.level ≥ 1 then 0 else min (adRetr a) (s.eligible a x).length)
    4 * x.qlen * (adG a * adR a) * pages * 64 * adDh a
  x.qlen * ((List.range s.mLayers).flatMap (fun l => (List.range 4).map (proj l))).sum + proj 0 4 + (s.allLists.map att).sum

/-- O_plan in 70ths of an operation: operations at level 2 count at 23/70. -/
def State.planOps (s : State) (c : KvCtx) (es : List CEntry) : Nat :=
  ((es.filter CEntry.runs).map (fun x => s.entryOps c x * (if x.level ≥ 2 then 23 else 70))).sum

/-- The highest level that a sequence may take: FALLBACK_MAX, at most 1 unless the model has level 2 (R243). -/
def State.levelMax (s : State) (fb : Nat) : Nat := if s.mdl 73 72 = 0 then min fb 1 else fb

/-- Whether the predicted duration passes a deadline of `us` µs (R313, R7). -/
def predLate (r : StepRef) (bytes ops70 us : Nat) : Bool :=
  decide (bytes * r.dur > us * 1000 * r.bytes) || decide (ops70 * r.busy > us * 1000 * r.ops * 8192 * 70)

/-- Raises levels until the prediction meets every deadline or none can rise (R314). `dl` and `fb` give each entry's deadline, 0 for
none, and its highest level. Two rounds suffice: no level passes 2. -/
def State.raiseLevels (s : State) (c : KvCtx) (r : StepRef) (dl fb : CEntry → Nat) (es : List CEntry) : List CEntry :=
  let first := ((es.filter (fun x => x.runs && dl x != 0)).map dl).foldl (fun m v => if m = 0 then v else min m v) 0
  let round (es : List CEntry) : List CEntry :=
    if first ≠ 0 ∧ predLate r (s.planBytes c es) (s.planOps c es) first then
      es.map (fun x => if x.runs && dl x != 0 && decide (x.level < s.levelMax (fb x)) then { x with level := x.level + 1 } else x)
    else es
  round (round es)

end Sys2Proof.Machine
end

