-- ==== Sys2Proof/Machine/Stage.lean ====
section
/-! DEFINITION. The arithmetic of the stages (R226 to R228, R237) and the movement of rows through them (R224, R234 to R236). -/

namespace Sys2Proof.Machine

/-! ## Weights (R220, R223) -/

/-- The offset of a projection's tiles in its object, in bytes: `low` selects the separate low-bit copy. -/
def State.projOff (s : State) (layer p : Nat) (low : Bool) : Nat :=
  let l := if p = 4 then s.mLayers else layer
  let lo := if p = 4 then 1 else p
  64 * (if low then s.layerRec l (255 + 32 * lo) (224 + 32 * lo)
    else if lo = 0 then s.layerRec l 95 64 else if lo = 1 then s.layerRec l 127 96 else if lo = 2 then s.layerRec l 191 160 else s.layerRec l 223 192)

/-- The die of a layer's record; the head record's for the unembedding. -/
def State.projDie (s : State) (layer p : Nat) : Nat := s.layerRec (if p = 4 then s.mLayers else layer) 1 0

/-- Whether the level-2 rows use a separate copy (R243). -/
def State.sepLow (s : State) : Bool := fld s.gen.model.desc 73 72 != 0 && !lowIsMain s.gen.model.desc

/-- The weight format that a row at a level meets. -/
def State.wFmtOf (s : State) (low : Bool) : Fmt :=
  if low then lowFmt (s.mdl 73 72) else wFmt (s.mdl 31 28)

/-- The object and byte offset of tile (c, b) of a projection. -/
def State.tileAt (s : State) (layer p c b : Nat) (low : Bool) : Nat × Nat :=
  let die := s.projDie layer p
  let sep := low && s.sepLow
  let nb := projNb s.gen.model.desc (s.attnDesc layer) p
  (if sep then s.mLowObj die else s.mWobj die, s.projOff layer p sep + (c * nb + b) * tileBytes (s.wFmtOf low))

/-- Element (k, column) of a tile that starts at a byte of an object. -/
def State.wElem (s : State) (f : Fmt) (t : Nat × Nat) (k n : Nat) : Fv :=
  let i := k * 32 + n
  let w := fmtBits f
  fmtDecode f (if w = 4 then bits (s.hNat s.gen.model.func t.1 (t.2 + i / 2) 1) (i % 2 * 4 + 3) (i % 2 * 4)
    else s.hNat s.gen.model.func t.1 (t.2 + i) 1)

/-- The scale of block j and a column of a tile. -/
def State.wScale (s : State) (f : Fmt) (t : Nat × Nat) (j n : Nat) : Fv :=
  let w := s.hNat s.gen.model.func t.1 (t.2 + 4096 * fmtBits f + j * 32 + n) 1
  if fmtMx f then e8m0 w else e4m3Fmt.decode w

/-- Where a weight lies: its object, its byte offset there, and its bytes (R220, R223). -/
def State.weightAt (s : State) (w : WeightRef) : Nat × Nat × Nat :=
  let rec_ (l hi lo : Nat) : Nat × Nat × Nat := (s.mWobj (s.layerRec l 1 0), 64 * s.layerRec l hi lo, 4 * s.mHidden)
  match w with
  | .tile t =>
    let low := decide (t.proj ≥ 5)
    let a := s.tileAt t.layer (t.proj % 5) t.col t.kblk low
    (a.1, a.2, tileBytes (s.wFmtOf low))
  | .gain l second => if second then rec_ l 159 128 else rec_ l 63 32
  | .finalGain => rec_ s.mLayers 63 32
  | .embed tok =>
    let n := s.mHidden * fmtBits (wFmt (s.mdl 31 28)) / 8 + s.mHidden / 32
    (s.mWobj (s.layerRec s.mLayers 1 0), 64 * s.layerRec s.mLayers 95 64 + tok * n, n)

/-- The lines of a weight, as (stack, line). -/
def State.weightLines (s : State) (w : WeightRef) : List (Nat × Nat) :=
  let a := s.weightAt w
  match (s.obj? s.gen.model.func a.1).filter (fun o => o.inT2) with
  | none => []
  | some o => (List.range ((a.2.1 + a.2.2 - 1) / 64 - a.2.1 / 64 + 1)).map (fun i =>
      let b := a.2.1 / 64 + i
      (o.stack, o.grans.getD (b / 1024) 0 * 1024 + b % 1024))

/-- Whether a weight waits for its repair (R242): ECC could not correct a line of it, or its failed stack's data cannot be rebuilt. -/
def State.weightBad (s : State) (w : WeightRef) : Bool :=
  let a := s.weightAt w
  !s.hReadable s.gen.model.func a.1 a.2.1 a.2.2 ||
    (s.mm.stk.any (fun x => !x.bad.isEmpty) && (s.weightLines w).any (fun l => !s.flt.failedStacks.contains l.1 && s.lineBad l.1 l.2))

/-! ## Vector-unit work (R227) -/

/-- Quantises one block to a floating-point format whose largest value is `top`. -/
def encBlockF (f : Fmt) (top : Nat) (vs : List Nat) : List Fv × Nat :=
  let a := vs.foldl (fun m v => max m (v % 2 ^ 31)) 0
  if a = 0 then (vs.map (fun _ => .fin false 0 0), 0)
  else
    let sc := (e4m3Scale a top).1
    let r := fRecip (toF32 (e4m3Fmt.decode sc))
    (vs.map (fun v => fmtDecode f (fmtEncode f (f32 (fMul v r)) .near true)), sc)

/-- Quantises a row to an activation format by blocks of 32: values and E4M3 scales. -/
def quantAct (f : Fmt) (v : List Nat) : List Fv × List Nat :=
  (List.range (cdiv v.length 32)).foldl (fun (r : List Fv × List Nat) j =>
    let blk := (v.drop (32 * j)).take 32
    let e : List Fv × Nat := match f with
      | .int8 => let e := encBlock 127 blk; (e.1.map Fv.ofInt, e.2.1)
      | .int4 => let e := encBlock 7 blk; (e.1.map Fv.ofInt, e.2.1)
      | .fp4 => encBlockF .fp4 6 blk
      | _ => encBlockF .e4m3 448 blk
    (r.1 ++ e.1, r.2 ++ [e.2])) ([], [])

/-- RMS norm with a gain. -/
def rmsNorm (eps : Nat) (g v : List Nat) : List Nat :=
  let n := v.length
  let sq := laneSum n (fun i acc => fFma (v.getD i 0) (v.getD i 0) acc)
  let r := fRsqrt (fAdd (fMul sq (toF32Ratio false 1 (max 1 n) 0)) eps)
  v.mapIdx (fun i x => fMul (fMul x r) (g.getD i 0))

/-- SiLU. -/
def fSilu (z : Nat) : Nat := fMul z (fRecip (fAdd 0x3F800000 (fExp (fNeg z))))

/-- GELU, tanh form. -/
def fGelu (z : Nat) : Nat :=
  let u := fMul 0x3F4C422A (fAdd z (fMul 0x3D372713 (fMul (fMul z z) z)))
  let t := fSub 0x3F800000 (fMul 0x40000000 (fRecip (fAdd (fExp (fMul 0x40000000 u)) 0x3F800000)))
  fMul (fMul 0x3F000000 z) (fAdd 0x3F800000 t)

/-- The rotary encoding of one head at a position. -/
def rotary (rope dh pos : Nat) (h : List Nat) : List Nat :=
  if rope = 0 then h
  else (List.range (dh / 2)).flatMap (fun i =>
    let th := fExp2 (fMul (toF32Ratio true (2 * i) dh 0) rope)
    let c := trigOf false (Config.cosF pos (BitVec.ofNat 32 th)).toNat (angleOf pos th)
    let sn := trigOf true (Config.sinF pos (BitVec.ofNat 32 th)).toNat (angleOf pos th)
    let x := h.getD (2 * i) 0
    let y := h.getD (2 * i + 1) 0
    [fSub (fMul x c) (fMul y sn), fAdd (fMul x sn) (fMul y c)])

/-- The gain vector at an offset of a die's weight object. -/
def State.gain (s : State) (die off : Nat) : List Nat :=
  (List.range s.mHidden).map (fun i => s.hNat s.gen.model.func (s.mWobj die) (64 * off + 4 * i) 4)

/-- The embedding row of a token: code times scale (R227), with scales laid out as in a tile (R220). -/
def State.embedRow (s : State) (tok : Nat) : List Nat :=
  let f := wFmt (s.mdl 31 28)
  let die := s.layerRec s.mLayers 1 0
  let off := 64 * s.layerRec s.mLayers 95 64
  let cb := s.mHidden * fmtBits f / 8
  let row := off + tok * (cb + s.mHidden / 32)
  (List.range s.mHidden).map (fun i =>
    let w := if fmtBits f = 4 then bits (s.hNat s.gen.model.func (s.mWobj die) (row + i / 2) 1) (i % 2 * 4 + 3) (i % 2 * 4)
      else s.hNat s.gen.model.func (s.mWobj die) (row + i) 1
    let sc := s.hNat s.gen.model.func (s.mWobj die) (row + cb + i / 32) 1
    toF32 ((fmtDecode f w).mul (if fmtMx f then e8m0 sc else e4m3Fmt.decode sc)))

/-! ## Pieces -/

/-- The projection of a stage. -/
def stageProj (st : Nat) : Option Nat :=
  if st = 1 then some 0 else if st = 3 then some 1 else if st = 4 then some 2 else if st = 5 then some 3 else if st = 6 then some 4 else none

/-- Whether a row of a piece is the last of its entry. -/
def Cohort.lastRow (k : Cohort) (r : Nat × Nat) : Bool := ((k.entries[r.1]?).map (fun x => r.2 + 1 == x.qlen && !x.left && x.runs)).getD false

/-- The rows of a piece that a stage works on: LOGITS and SAMPLE take the last rows of entries only. -/
def Cohort.stageRows (k : Cohort) (p : Piece) : List Nat :=
  (List.range p.rows.length).filter (fun i => decide (p.st < 6) || k.lastRow (p.rows.getD i (0, 0)))

/-- The column blocks of a piece's stage. -/
def State.stageBlocks (s : State) (p : Piece) : Nat :=
  match stageProj p.st with
  | some j => projBlocks s.gen.model.desc (s.attnDesc p.layer) j
  | none => 1

/-- The row that enters a projection: its prologue (R227 Table 5). -/
def State.prologue (s : State) (p : Piece) (i : Nat) : List Nat :=
  let res := p.res.getD i []
  let eps := s.mdl 127 96
  let rms (l : Nat) (hi lo : Nat) : List Nat := rmsNorm eps (s.gain (s.layerRec l 1 0) (s.layerRec l hi lo)) res
  if p.st = 1 then rms p.layer 63 32
  else if p.st = 4 then rms p.layer 159 128
  else if p.st = 6 then rms s.mLayers 63 32
  else p.cur.getD i []

/-- The 32 columns of a body operation for each row of a chunk (R226, R228): (row of the piece, column block, values); and what the operation
counts. The quantisation of the chunk's rows counts with its first column block (DESIGN CHOICE, log entry 34). -/
def State.bodyOp (s : State) (k : Cohort) (p : Piece) (chunk c : Nat) : List (Nat × Nat × List Nat) × Tally :=
  match stageProj p.st with
  | none => ([], Tally.zero)
  | some j =>
    let d := s.gen.model.desc
    let rows := ((k.stageRows p).drop (32 * chunk)).take 32
    let kk := projK d (s.attnDesc p.layer) j
    let wf := s.wFmtOf p.low
    let af : Fmt := if p.low then (if s.mdl 73 72 = 1 then .int4 else .fp4) else if s.mdl 45 44 = 0 then .int8 else .e4m3
    let pre := rows.map (s.prologue p)
    let qs := pre.map (quantAct af)
    let tile (e : Nat) : Nat × Nat := s.tileAt p.layer j c (e / 1024) p.low
    let seed := opSeed (s.ctxSeed k.ctx) (p.layer % 256 * 2 ^ 24 ||| j * 2 ^ 20 ||| c % 2 ^ 20) (p.chunk0 + chunk) 0
    let op := seqOp af wf .e4m3 .e4m3 (if p.low then .acc16 else .acc32) rows.length 32 kk seed
    let m : MatIn :=
      { a := fun r e => (qs.getD r ([], [])).1.getD e (.fin false 0 0)
        b := fun e n => s.wElem wf (tile e) (e % 1024) n
        sj := fun r n jb => (e4m3Fmt.decode ((qs.getD r ([], [])).2.getD jb 0)).mul (s.wScale wf (tile (jb * 32)) (jb % 32) n) }
    let t := m.run op tileZero
    (rows.zipIdx.map (fun r => (r.1, c, (List.range 32).map (fun n => t.1.getD (r.2 * 32 + n) 0))),
      if c = 0 then t.2.add (nanTally pre.flatten) else t.2)

/-- A row of a projection's outputs from its parts. -/
def Piece.outRow (p : Piece) (i cols : Nat) : List Nat :=
  let mine := sortBy (fun e => e.2.1) (p.parts.filter (fun e => e.1 == i))
  ((mine.map (fun e => e.2.2)).flatten).take cols

/-- The fresh key and value rows of a row at QKV (R165, R168, R227), with the blocks whose scale saturated and the NaN conversions. -/
def State.freshOf (s : State) (layer e row pos : Nat) (out : List Nat) : List Fresh × Nat × Tally :=
  let d := s.attnDesc layer
  let dh := adDh d
  let rope := s.mdl 159 128
  let head (base h : Nat) (rot : Bool) : List Nat :=
    let v := (out.drop ((base + h) * dh)).take dh
    if rot then rotary rope dh pos v else v
  let r := (List.range (adGroups d)).map (fun g =>
    let hs := (List.range (adG d)).map (fun j => g * adG d + j)
    let kv := hs.flatMap (fun h => head (adQHeads d) h true)
    let vv := hs.flatMap (fun h => head (adQHeads d + adKvHeads d) h false)
    let kq := quantRow (adInt4 d) kv
    let vq := quantRow (adInt4 d) vv
    (({ entry := e, row := row, layer := layer, group := g, kc := kq.1, vc := vq.1, ks := kq.2.1, vs := vq.2.1 } : Fresh), b2n kq.2.2 + b2n vq.2.2,
      nanTally (kv ++ vv)))
  (r.map (fun x => x.1), (r.map (fun x => x.2.1)).sum, tallySum (r.map (fun x => x.2.2)))

/-- The epilogue of a stage whose parts are complete (R227 Table 5): the residual rows and the rows handed on; with the fresh rows, the
blocks whose scale saturated and the NaN conversions. -/
def State.epilogue (s : State) (k : Cohort) (p : Piece) : Piece × List Fresh × Nat × Tally :=
  let d := s.gen.model.desc
  let a := s.attnDesc p.layer
  let row (i : Nat) : List Nat := match stageProj p.st with
    | some j => p.outRow i (projCols d a j)
    | none => p.outRow i s.mHidden
  let idx := List.range p.rows.length
  let add (i : Nat) : List Nat := (p.res.getD i []).mapIdx (fun n x => fAdd x ((row i).getD n 0))
  let q : Piece := { p with full := true, parts := [] }
  if p.st = 0 then ({ q with res := idx.map row, cur := idx.map row }, [], 0, Tally.zero)
  else if p.st = 1 then
    let qh (i : Nat) : List Nat := (List.range (adQHeads a)).flatMap (fun h =>
      rotary (s.mdl 159 128) (adDh a) (((k.entries[(p.rows.getD i (0, 0)).1]?).map (fun x => x.pos0)).getD 0 + (p.rows.getD i (0, 0)).2)
        (((row i).drop (h * adDh a)).take (adDh a)))
    let fs := idx.map (fun i =>
      let r := p.rows.getD i (0, 0)
      s.freshOf p.layer r.1 r.2 (((k.entries[r.1]?).map (fun x => x.pos0)).getD 0 + r.2) (row i))
    ({ q with cur := idx.map qh }, (fs.map (fun f => f.1)).flatten, (fs.map (fun f => f.2.1)).sum, tallySum (fs.map (fun f => f.2.2)))
  else if p.st = 4 then
    let f := 32 * fld d 43 32
    let act (z : Nat) : Nat := if fld d 47 46 = 0 then fSilu z else fGelu z
    ({ q with cur := idx.map (fun i => (List.range f).map (fun n => fMul (act ((row i).getD n 0)) ((row i).getD (f + n) 0))) }, [], 0, Tally.zero)
  else if p.st = 6 then ({ q with cur := idx.map row }, [], 0, Tally.zero)
  else ({ q with res := idx.map add, cur := idx.map add }, [], 0, Tally.zero)

/-- Replaces a piece of a cohort step. -/
def State.updPiece (s : State) (slot i : Nat) (f : Piece → Piece) : State :=
  s.updCohort slot (fun k => { k with pieces := updAt i f k.pieces })

/-! ## Windows of weight tiles (R224, R225) -/

/-- The tiles that an island of a die takes through its window, in their order (R224, R243): the main tiles of a block before those of a
separate copy. -/
def State.islandTiles (s : State) (k : Cohort) (island : Nat) : List TileRef :=
  let d := s.gen.model.desc
  let die := island / 128
  let mine := k.pieces.filter (fun p => p.die == die)
  let main := mine.any (fun p => !p.low || !s.sepLow)
  let low := s.sepLow && mine.any (fun p => p.low)
  let blk (l j c : Nat) : List TileRef :=
    let nb := projNb d (s.attnDesc l) j
    let run (pr : Nat) : List TileRef := (List.range nb).map (fun b => ({ slot := k.slot, layer := l, proj := pr, col := c, kblk := b } : TileRef))
    (if main then run j else []) ++ (if low then run (j + 5) else [])
  let proj (l j : Nat) : List TileRef :=
    ((List.range (projBlocks d (s.attnDesc l) j)).filter (fun c => s.colIsland die c == island)).flatMap (blk l j)
  ((List.range s.mLayers).flatMap (fun l => (List.range 4).flatMap (proj l))) ++ proj (s.mLayers - 1) 4

/-- The window of an island. -/
def Cohort.window (k : Cohort) (island : Nat) : Window :=
  (k.wins.find? (fun w => w.island == island)).getD { island := island, tiles := [] }

/-- The projection number under which a piece's tiles are listed. -/
def State.pieceProj (s : State) (p : Piece) : Nat := ((stageProj p.st).getD 0) + (if p.low && s.sepLow then 5 else 0)

/-- Whether every tile of a column block is in the window of its island, for the rows of a piece at its stage. -/
def State.tilesIn (s : State) (k : Cohort) (p : Piece) (c : Nat) : Bool :=
  match stageProj p.st with
  | none => true
  | some j =>
    let w := k.window (s.colIsland p.die c)
    (List.range (projNb s.gen.model.desc (s.attnDesc p.layer) j)).all (fun b =>
      w.tiles.contains { slot := k.slot, layer := p.layer, proj := s.pieceProj p, col := c, kblk := b })

/-- Whether a stage task of a cohort step has its tiles in the window of its island. -/
def State.taskTiles (s : State) (k : Cohort) (i st layer c : Nat) : Bool :=
  ((k.pieces[i]?).map (fun p => s.tilesIn k { p with st := st, layer := layer } c)).getD false

/-- The chunks of a piece's stage. -/
def Cohort.chunks (k : Cohort) (p : Piece) : Nat := cdiv (k.stageRows p).length 32

/-- Where a piece stands in the order of stages. -/
def Piece.place (p : Piece) : Nat := if p.st ≤ 5 then if p.st = 0 then 0 else p.layer * 5 + p.st else 10000 + p.st

/-- Whether a piece has finished with a column block of a stage of a layer, and has not to produce it again (R241). -/
def pastBlock (k : Cohort) (p : Piece) (st layer c : Nat) : Bool :=
  let target := ({ p with st := st, layer := layer } : Piece).place
  !p.again.any (fun e => e.1 == st && e.2.1 == layer && e.2.2.2 == c) &&
  (decide (target < p.place) || (decide (target = p.place) && (p.full || (List.range (k.chunks p)).all (fun ch => p.done.contains (ch, c)))))

/-- Whether a piece has passed what an uncorrectable weight is for, so that it does not wait for it (R242). -/
def State.weightPast (s : State) (k : Cohort) (p : Piece) (w : WeightRef) : Bool :=
  let past (st layer : Nat) : Bool :=
    let t := ({ p with st := st, layer := layer } : Piece).place
    decide (t < p.place) || (decide (t = p.place) && p.full)
  match w with
  | .tile t => (s.sepLow && p.low != decide (t.proj ≥ 5)) ||
      ((List.range 8).filter (fun st => stageProj st == some (t.proj % 5))).all (fun st => pastBlock k p st t.layer t.col)
  | .gain l second => past (if second then 4 else 1) l
  | .finalGain => past 6 p.layer
  | .embed tok => past 0 0 || !p.rows.any (fun r => s.inputToken k r.1 r.2 == tok)

/-- Whether every piece that takes a tile has finished with its block. -/
def State.tilePast (s : State) (k : Cohort) (die : Nat) (t : TileRef) : Bool :=
  match (List.range 8).find? (fun st => stageProj st == some (t.proj % 5)) with
  | none => true
  | some st => (k.pieces.filter (fun p => p.die == die && (!s.sepLow || p.low == decide (t.proj ≥ 5)))).all (fun p => pastBlock k p st t.layer t.col)

/-- The tile that enters an island's window next: the first in its order that is not in the window and is still needed; one of a separate
copy waits until the main tiles of its block are released (R224, R243). -/
def State.nextTile (s : State) (k : Cohort) (island : Nat) : Option TileRef :=
  ((s.islandTiles k island).find? (fun t => !(k.window island).tiles.contains t && !s.tilePast k (island / 128) t)).filter (fun t =>
    t.proj < 5 || !(k.window island).tiles.any (fun u => u.layer == t.layer && u.proj + 5 == t.proj && u.col == t.col))

/-- Releases the tiles of a block once every chunk on the island has finished with it (R224). -/
def State.releaseBlock (s : State) (slot die st layer c : Nat) (low : Bool) : State :=
  match s.cohort? slot, stageProj st with
  | some k, some j =>
    let pr := j + (if low && s.sepLow then 5 else 0)
    let users := k.pieces.filter (fun p => p.die == die && (!s.sepLow || p.low == low))
    if users.all (fun p => pastBlock k p st layer c) then
      let i := s.colIsland die c
      s.updCohort slot (fun k => { k with wins := updWhere (fun w => w.island == i) (fun w =>
        { w with tiles := w.tiles.filter (fun t => !(t.layer == layer && t.proj == pr && t.col == c)) }) k.wins })
    else s
  | _, _ => s

/-- Starts the weight multicasts of a layer (R225): one for each island of its die that feeds islands of other dies with rows. -/
def State.startMcasts (s : State) (k : Cohort) (layer : Nat) (head : Bool) : State :=
  let d := s.gen.model.desc
  let die := s.projDie layer (if head then 4 else 0)
  let far := ((k.pieces.map (fun p => p.die)).eraseDups).filter (fun x => x != die)
  let js := if head then [4] else [0, 1, 2, 3]
  let per := (if k.pieces.any (fun p => !p.low || !s.sepLow) then tileBytes (s.wFmtOf false) else 0) +
    (if k.pieces.any (fun p => p.low && s.sepLow) then tileBytes (s.wFmtOf true) else 0)
  let bytes (i : Nat) : Nat := (js.map (fun j =>
    ((List.range (projBlocks d (s.attnDesc layer) j)).filter (fun c => c % 128 == i)).length * projNb d (s.attnDesc layer) j)).sum * per
  let ms : List Mcast := if far.isEmpty then [] else ((List.range 128).filter (fun i => decide (bytes i > 0))).map (fun i =>
    { sender := s.colIsland die i, total := bytes i, recv := far.map (fun x => (s.colIsland x i, 0)), detached := [], weight := true })
  { s with sch := { s.sch with mcasts := s.sch.mcasts ++ ms } }

/-! ## Starting a stage -/

/-- Makes the tasks of a piece's projection stage where they do not exist yet (R226). -/
def State.stageTasks (s : State) (k : Cohort) (i : Nat) (p : Piece) : State :=
  (List.range (s.stageBlocks p)).foldl (fun s c => (List.range (k.chunks p)).foldl (fun s ch =>
    let kind : TaskKind := .stage k.slot i p.st p.layer ch c
    if s.sch.tasks.any (fun t => t.kind == kind) then s
    else s.addTask (s.colIsland p.die c) kind k.func (some k.ctx) (s.cohortCls k) (s.tilesIn k p c) k.cmd) s) s

/-- Makes the tasks of a piece's stage (R226, R236), or opens the attention of entries whose queries are complete. A piece with no
last row skips LOGITS and SAMPLE. -/
def State.startStage (s : State) (slot i : Nat) : State :=
  match s.cohort? slot with
  | none => s
  | some k =>
    match k.pieces[i]? with
    | none => s
    | some p =>
      let rows := k.stageRows p
      if p.st ≥ 6 && rows.isEmpty then s.updPiece slot i (fun p => { p with st := 8, started := true })
      else
        let s0 := if (p.st = 1 ∨ p.st = 6) && !k.pieces.any (fun x => x.started && decide (p.place ≤ x.place)) then
            s.startMcasts k p.layer (p.st == 6) else s
        let s1 := s0.updPiece slot i (fun p => { p with started := true, full := false, done := [], parts := [] })
        let cls := s.cohortCls k
        if p.st = 2 then
          let k1 := (s1.cohort? slot).getD k
          let es := ((p.rows.map (fun r => r.1)).eraseDups).filter (fun e => ((k1.entries[e]?).map (fun x => !x.left && x.runs)).getD false)
          let ready (e : Nat) : Bool := k1.pieces.all (fun x => !x.rows.any (fun r => r.1 == e) || (decide (x.st = 2) && x.layer == p.layer && x.started))
          ((es.filter ready).foldl (fun s e => s.openAttn slot e p.layer) s1).attnFull slot
        else if p.st = 7 then
          rows.foldl (fun s r => s.addTask (s.colIsland p.die 0) (.sample slot (p.rows.getD r (0, 0)).1) k.func (some k.ctx) cls true k.cmd) s1
        else s1.stageTasks k i p

/-- The bytes of a weight are read from T2 (R224, R272, R318). -/
def State.weightTraffic (s : State) (func : Nat) (w : WeightRef) : State :=
  let a := s.weightAt w
  s.hTraffic func s.gen.model.func a.1 false a.2.1 a.2.2

/-- What a stage task reads beside its tiles: the embedding rows of its chunk, and with the first task of a piece's stage the gains of its
norm. -/
def State.stageTraffic (s : State) (k : Cohort) (p : Piece) (chunk c : Nat) : State :=
  if p.st = 0 then (((k.stageRows p).drop (32 * chunk)).take 32).foldl (fun s r =>
    s.weightTraffic k.func (.embed (s.inputToken k (p.rows.getD r (0, 0)).1 (p.rows.getD r (0, 0)).2))) s
  else if chunk = 0 ∧ c = 0 then
    (if p.st = 1 then s.weightTraffic k.func (.gain p.layer false) else if p.st = 4 then s.weightTraffic k.func (.gain p.layer true)
     else if p.st = 6 then s.weightTraffic k.func .finalGain else s)
  else s

/-- The end of a stage task: its part of the rows is published; the last part completes the stage of its piece. -/
def State.stageDone (s : State) (slot i chunk c : Nat) : State :=
  match s.cohort? slot with
  | none => s
  | some k =>
    match k.pieces[i]? with
    | none => s
    | some p =>
      let part : List (Nat × Nat × List Nat) × Tally :=
        if p.st = 0 then ((((k.stageRows p).drop (32 * chunk)).take 32).map (fun r =>
          let e := p.rows.getD r (0, 0)
          (r, 0, s.embedRow (s.inputToken k e.1 e.2))), Tally.zero)
        else s.bodyOp k p chunk c
      let q : Piece := { p with done := addOnce (chunk, c) p.done, parts := p.parts ++ part.1 }
      let whole := (List.range (s.stageBlocks p)).all (fun c => (List.range (k.chunks p)).all (fun ch => q.done.contains (ch, c)))
      let s1 := if whole then
          let e := s.epilogue k q
          let s2 := s.updPiece slot i (fun _ => e.1)
          let s3 := s2.updCohort slot (fun k => { k with fresh := k.fresh ++ e.2.1 })
          (if e.2.2.1 > 0 then s3.count (Reg.attnKvClampCnt p.die) e.2.2.1 else s3).tally p.die e.2.2.2
        else s.updPiece slot i (fun _ => q)
      ((((s1.tally p.die part.2).stageTraffic k p chunk c).arrayBusy slot (s.colIsland p.die c) part.2.cycles).measured s slot).releaseBlock
        slot p.die p.st p.layer c p.low

/-! ## Sampling (R237, R238) -/

/-- The token of a row of logits. -/
def sampleToken (b : Body) (slot pos : Nat) (z : List Nat) : Nat :=
  let es := z.mapIdx (fun i w => ({ score := w, id := i, ord := 0, slot := 0 } : Ent))
  if f32 (sqTemp b) == .fin false 0 (-149) || sqTemp b % 2 ^ 31 == 0 || sqTopK b == 1 then
    (((mergeEnts (rankF false) 1 es).1.head?).map (fun e => e.id)).getD 0
  else
    let top := (mergeEnts (rankF false) (sqTopK b) es).1
    let z0 := (top.head?.map (fun e => e.score)).getD 0
    let inv := fRecip (sqTemp b)
    let cum := top.foldl (fun (r : List Nat × Nat) e =>
      let c := fAdd r.2 (fExp (fMul (fSub e.score z0) inv))
      (r.1 ++ [c], c)) ([], 0)
    let seed0 := (fld b 319 288 ^^^ (slot * 0x9E3779B9 % 2 ^ 32)) ^^^ rotl32 (pos % 2 ^ 32) 13
    let r := (lfsrBits 32 0 (if seed0 = 0 then 1 else seed0)).1
    let u := toF32 (.fin false r (-32))
    let lim := fMul u cum.2
    ((top.zip cum.1).find? (fun e => fLt lim e.2)).map (fun e => e.1.id) |>.getD ((top.getLast?.map (fun e => e.id)).getD 0)

/-- SAMPLE of an entry: its token, or its NaN flag; the piece ends with its last entry. -/
def State.sampleDone (s : State) (slot e : Nat) : State :=
  match s.cohort? slot with
  | none => s
  | some k =>
    match k.entries[e]?, k.pieces.findIdx? (fun p => decide (p.st = 7) && p.rows.any (fun r => r.1 == e && k.lastRow r)) with
    | some x, some i =>
      (match k.pieces[i]?, s.seq? x.seq with
      | some p, some q =>
        let z := p.cur.getD (p.rows.idxOf (e, x.qlen - 1)) []
        let bad := z.any fIsNan
        let s1 := s.updEntry slot e (fun x => { x with nan := x.nan || bad, doneAt := s.now
                                                       token := some (if bad then 0 else sampleToken q.body x.seq (x.pos0 + x.qlen) z) })
        let k1 := (s1.cohort? slot).getD k
        if (k1.stageRows p).all (fun r => ((k1.entries[(p.rows.getD r (0, 0)).1]?).map (fun x => x.token.isSome)).getD true) then
          s1.updPiece slot i (fun p => { p with st := 8, full := false })
        else s1
      | _, _ => s)
    | _, _ => s

/-! ## Tiles and handles -/

/-- Marks the tasks of a cohort step whose tiles are all in the window as ready. -/
def State.readyTasks (s : State) (slot island : Nat) : State :=
  match s.cohort? slot with
  | none => s
  | some k => { s with sch := { s.sch with tasks := s.sch.tasks.map (fun (t : Task) => match t.kind with
      | .stage sl i st layer _ c => if sl = slot ∧ t.island = island ∧ s.taskTiles k i st layer c then { t with ready := true } else t
      | _ => t) } }

/-- WEIGHT_TILE_LANDED: the next tile of an island enters its window where its bytes fit, and tasks that have all their tiles become
ready (R224, R236). A tile that awaits its repair does not land (R242). -/
def execWeightTileLanded (island : Nat) (t : TileRef) (s : State) : Host.Outcome State Fault Refusal :=
  .next (match s.cohort? t.slot with
  | none => s
  | some k =>
    let tb (x : TileRef) : Nat := tileBytes (s.wFmtOf (decide (x.proj ≥ 5)))
    let w := k.window island
    if s.nextTile k island ≠ some t ∨ (w.tiles.map tb).sum + tb t > s.gen.model.winKib * 1024 ∨ s.gen.model.st < 2 ∨ s.weightBad (.tile t) then s
    else
      let w1 : Window := { w with tiles := w.tiles ++ [t] }
      let s1 := s.updCohort t.slot (fun k => { k with wins := k.wins.filter (fun x => x.island != island) ++ [w1] })
      let first := ((k.pieces.map (fun p => p.die)).foldl min 3)
      let s2 := if island / 128 = first then s1.weightTraffic k.func (.tile t) else s1
      (s2.measured s t.slot).readyTasks t.slot island)

/-- The bytes of a half-buffer that a piece's stage fills on one island: rows × its column blocks there. -/
def Piece.halfBytes (p : Piece) : Nat := p.rows.length * 128 * cdiv (max 1 (cdiv (p.cur.headD []).length 32)) 128

/-- The bytes of stage-buffer halves that a context's cohort steps hold on an island. -/
def State.heldBytes (s : State) (ctx island : Nat) : Nat :=
  (s.gen.queues.map (fun q => ((q.q.filter (fun b => b.island == island)).map (fun b =>
    match s.cohort? b.cohort with
    | some k => if k.ctx = ctx then ((k.pieces.find? (fun p => p.mb == b.mb && p.die == b.island / 128)).map Piece.halfBytes).getD 0 else 0
    | none => 0)).sum)).sum

/-- The score buffers that running tasks of a context hold on an island (R254). -/
def State.scoresOn (s : State) (ctx island : Nat) : Nat :=
  ((s.sch.tasks.filter (fun x => x.island == island && x.islet.isSome && x.ctx == some ctx)).map s.scoreBytes).sum

/-- The lagoon share of a context in bytes. -/
def State.shareBytes (s : State) (ctx : Nat) : Nat := ((s.ctx? ctx).map (fun c => c.units * 16384)).getD 0

/-- The half that the producer of a stage buffer writes. -/
def State.bufHalf (s : State) (island buf : Nat) : Nat :=
  ((s.gen.bufs.find? (fun e => e.1 == island && e.2.1 == buf)).map (fun e => e.2.2)).getD 0

/-- The stage after a piece's. -/
def State.nextStage (s : State) (p : Piece) : Nat × Nat :=
  if p.st = 5 then (if p.layer + 1 < s.mLayers then (1, p.layer + 1) else (6, p.layer)) else (p.st + 1, p.layer)

/-- The islands whose stage buffers hold parts of a piece's rows: those of its stage's column blocks; the rows of attention come to one, which
its handle names (DESIGN CHOICE, log entry 34). -/
def State.producers (s : State) (p : Piece) : List Nat :=
  if p.st = 2 then [] else ((List.range (s.stageBlocks p)).map (s.colIsland p.die)).eraseDups

/-- Whether an island has written its half of a piece's rows: every chunk of its own column blocks (R235); the rows of attention are whole. -/
def State.halfWritten (s : State) (k : Cohort) (p : Piece) (island : Nat) : Bool :=
  if p.st = 2 then p.full
  else p.started && ((List.range (s.stageBlocks p)).filter (fun c => s.colIsland p.die c == island)).all (fun c =>
    p.full || (List.range (k.chunks p)).all (fun ch => p.done.contains (ch, c)))

/-- The index of the piece whose written half a handle names. -/
def State.handlePiece (s : State) (k : Cohort) (b : BufHandle) : Option Nat :=
  k.pieces.findIdx? (fun p => p.again.isEmpty && !p.swapped.contains b.island && p.st == b.stage && p.layer == b.layer && p.mb == b.mb &&
    p.die == b.island / 128 && p.rows.length == b.rowsM1 + 1 && s.halfWritten k p b.island)

/-- What a SWAP meets. -/
inductive SwapRes where
  | none_ | wait | queueFull | tooLarge | go (i : Nat)
  deriving DecidableEq, Repr

/-- Whether a SWAP can push its handle (R235, R254). -/
def State.swapRes (s : State) (consumer : Nat) (b : BufHandle) : SwapRes :=
  match s.cohort? b.cohort with
  | none => .none_
  | some k =>
    match s.handlePiece k b with
    | none => .none_
    | some i =>
      match k.pieces[i]? with
      | none => .none_
      | some p =>
        let st := (s.nextStage p).1
        let q := ((s.gen.queues.find? (fun q => q.island == consumer && q.stage == st)).map (fun q => q.q)).getD []
        let other := s.gen.queues.any (fun q => q.q.any (fun x => x.island == b.island && x.buf == b.buf && x.half != b.half))
        let pre := bits (s.genCfg (5 + b.island / 128)) 25 16 * 1024
        let mine := s.producers p
        if s.bufHalf b.island b.buf ≠ b.half ∨ (!mine.isEmpty && !mine.contains b.island) then .none_
        else if p.halfBytes > s.shareBytes k.ctx then .tooLarge
        else if other ∨ s.heldBytes k.ctx b.island + s.scoresOn k.ctx b.island + p.halfBytes + pre > s.shareBytes k.ctx then .wait
        else if q.length ≥ 64 then .queueFull
        else .go i

/-- Puts a handle into a consumer's queue. -/
def State.queueHandle (s : State) (consumer stage : Nat) (b : BufHandle) : State :=
  let q := (s.gen.queues.find? (fun q => q.island == consumer && q.stage == stage)).getD { island := consumer, stage := stage, q := [] }
  { s with gen := { s.gen with queues := s.gen.queues.filter (fun x => !(x.island == consumer && x.stage == stage)) ++ [{ q with q := q.q ++ [b] }] } }

/-- Pushes a handle; with the last producer's, the consuming stage of the rows starts. With the first, its tasks are queued, and wait for the
halves that are late (R236). -/
def State.pushHandle (s : State) (consumer : Nat) (b : BufHandle) (i : Nat) : State :=
  match (s.cohort? b.cohort).bind (fun k => k.pieces[i]?) with
  | none => s
  | some p =>
    let n := s.nextStage p
    let s0 := s.queueHandle consumer n.1 b
    let s1 : State := { s0 with gen := { s0.gen with
      bufs := s0.gen.bufs.filter (fun e => !(e.1 == b.island && e.2.1 == b.buf)) ++ [(b.island, b.buf, 1 - b.half)] } }
    let got := b.island :: p.swapped
    if (s.producers p).all (fun x => got.contains x) then
      (s1.updPiece b.cohort i (fun p => { p with st := n.1, layer := n.2, started := false, full := false, done := [], parts := [], swapped := [] })).startStage
        b.cohort i
    else
      let s2 := s1.updPiece b.cohort i (fun p => { p with swapped := got })
      match s2.cohort? b.cohort with
      | some k => if (stageProj n.1).isSome && (n.1 < 6 || !(k.stageRows { p with st := n.1 }).isEmpty) then
          s2.stageTasks k i { p with st := n.1, layer := n.2 } else s2
      | none => s2

/-- A column block that a fence made the device produce again has been produced: with the last of its piece, the handles that were withdrawn
are issued again (R241). -/
def State.redone (s : State) (slot i st layer ch c : Nat) : State :=
  let s1 := s.updPiece slot i (fun p => { p with again := p.again.filter (fun e => e != (st, layer, ch, c)) })
  match (s1.cohort? slot).bind (fun k => k.pieces[i]?) with
  | none => s1
  | some p => if !p.again.isEmpty then s1
    else p.owed.foldl (fun s w => s.queueHandle w.1 (s.nextStage { p with st := w.2.stage, layer := w.2.layer }).1 w.2)
      (s1.updPiece slot i (fun p => { p with owed := [] }))

/-- Gives the entries of a cohort step that still run a status, and stops its work. -/
def State.failEntries (s : State) (slot status : Nat) : State :=
  (s.dropTasks (fun t => match t.kind with
    | .stage x _ _ _ _ _ => x == slot
    | .split a _ _ => a.slot == slot
    | .merge a => a.slot == slot
    | .sample x _ => x == slot
    | _ => false)).updCohort slot (fun k => { k with
      entries := k.entries.map (fun x => if x.status = Status.ok ∧ x.token.isNone then { x with status := status } else x), pieces := [], attns := [] })

/-- Ends the command of a cohort step whose buffer is larger than the whole share (R253). A flow step has none: its entries take the
status (DESIGN CHOICE, log entry 33). -/
def State.endTooLarge (s : State) (slot : Nat) : State :=
  match s.cohort? slot with
  | none => s
  | some k =>
    match k.cmd.bind s.live? with
    | some l => (s.discardStep slot).complete l.h.ref Status.lagoonFull (stepRefusal l.body Status.lagoonFull s.gen.stepNo)
    | none => s.failEntries slot Status.lagoonFull

/-- SWAP: pushes a buffer handle into the consuming stage's queue and turns the producer to the other half. It waits, and counts, while
the other half has not been returned, while the share has no room beside one prefill score buffer, or while the queue is full (R235,
R254). -/
def execSwap (consumer : Nat) (b : BufHandle) (s : State) : Host.Outcome State Fault Refusal :=
  .next (if s.gen.swaps.any (fun w => w.b == b) then s
  else
    let waits (s : State) (full : Bool) : State := { s with gen := { s.gen with swaps := s.gen.swaps ++ [{ consumer := consumer, b := b, full := full }] } }
    match s.swapRes consumer b with
    | .none_ => s
    | .wait => waits (s.count Reg.genSwapWaitCnt) false
    | .queueFull => waits (s.count Reg.genQueueFullCnt) true
    | .tooLarge => s.endTooLarge b.cohort
    | .go i => s.pushHandle consumer b i)

/-- Pushes every waiting handle that now can go; one that meets a full queue counts once. -/
def State.retrySwaps (s : State) : State :=
  s.gen.swaps.foldl (fun s w =>
    match s.swapRes w.consumer w.b with
    | .go i => ({ s with gen := { s.gen with swaps := s.gen.swaps.filter (fun x => x != w) } } : State).pushHandle w.consumer w.b i
    | .none_ => { s with gen := { s.gen with swaps := s.gen.swaps.filter (fun x => x != w) } }
    | .queueFull => if w.full then s else
      ({ s with gen := { s.gen with swaps := s.gen.swaps.map (fun x => if x = w then { x with full := true } else x) } } : State).count Reg.genQueueFullCnt
    | _ => s) s

/-- Whether the consuming stage has read a handle's half: it has produced every row, or the rows have moved on. -/
def State.halfRead (s : State) (stage : Nat) (b : BufHandle) : Bool :=
  match s.cohort? b.cohort with
  | none => true
  | some k => !k.pieces.any (fun p => p.mb == b.mb && p.die == b.island / 128 && p.rows.length == b.rowsM1 + 1 &&
      ((p.st == b.stage && p.layer == b.layer) || (p.st == stage && !p.full && (p.layer == b.layer || (stage == 1 && p.layer == b.layer + 1)))))

/-- HANDLE_RETURN: a consumer that has read the half returns its handle, and a waiting SWAP goes on (R235). -/
def execHandleReturn (consumer stage : Nat) (b : BufHandle) (s : State) : Host.Outcome State Fault Refusal :=
  .next (if s.gen.queues.any (fun q => q.island == consumer && q.stage == stage && q.q.contains b) && s.halfRead stage b then
    let drop (q : HQueue) : HQueue := if q.island = consumer ∧ q.stage = stage then { q with q := q.q.erase b } else q
    ({ s with gen := { s.gen with queues := s.gen.queues.map drop } } : State).retrySwaps
  else s)

/-! ## The append -/

/-- The tokens of an entry's positions enter its sequence's token log as the positions are appended (R210). -/
def State.logTokens (s : State) (k : Cohort) (e : Nat) (x : CEntry) : State :=
  match s.seq? x.seq with
  | none => s
  | some q => (List.range x.qlen).foldl (fun s i => s.hPut k.func (sqToklog q.body) (4 * (x.pos0 + i)) (leBytes 4 (s.inputToken k e i))) s

/-- KV_APPEND: once the layer's attention for an entry has completed, its fresh rows enter their pages, and with the first layer the
tokens of its positions enter the token log (R168, R210). -/
def execKvAppend (slot entry layer : Nat) (s : State) : Host.Outcome State Fault Refusal :=
  .next (match s.cohort? slot with
  | none => s
  | some k =>
    match k.entries[entry]? with
    | none => s
    | some x =>
      let mine := k.attns.filter (fun r => r.entry == entry && r.layer == layer)
      if x.left || mine.isEmpty || mine.any (fun r => r.out.isNone) then s
      else
        let d := s.attnDesc layer
        let fs := k.fresh.filter (fun f => f.entry == entry && f.layer == layer)
        let s1 := (sortBy (fun f => f.row) fs).foldl (fun s f => s.appendRow k.ctx d x f) s
        let s2 := if layer = 0 then s1.logTokens k entry x else s1
        (s2.measured s slot).updCohort slot (fun k => { k with
          attns := k.attns.filter (fun r => !(r.entry == entry && r.layer == layer))
          fresh := k.fresh.filter (fun f => !(f.entry == entry && f.layer == layer)) }))

end Sys2Proof.Machine
end

