-- ==== Sys2Proof/Machine/Boundary.lean ====
section
/-! DEFINITION. Step boundaries, commits, and the events of tasks, repairs and multicasts (R199, R200, R209, R233 to R242, R306 to
R316). -/

namespace Sys2Proof.Machine

/-! ## Housekeeping at a step boundary -/

/-- Whether a cohort step in flight holds a sequence. -/
def State.inStep (s : State) (slot : Nat) : Bool := s.gen.cohorts.any (fun k => k.entries.any (fun x => x.seq == slot && x.status == Status.ok))

/-- Ends and frees the sequences that a SEQ_CLOSE or their own end has closed (R215, R229, R230). A sequence that ended with
KV_QUOTA_FULL or KV_LOST keeps its pages until its SEQ_CLOSE (R196, R200). -/
def State.closeSeqs (s : State) : State :=
  (s.gen.seqs.filter (fun q => !s.inStep q.slot && (q.closeCmd.isSome || (q.ended && !q.keep)))).foldl (fun s q =>
    let s1 := (s.endSeq q.slot 4 Status.ok).freeSeq q.slot
    match q.closeCmd with
    | some r => s1.complete r Status.ok []
    | none => s1) s

/-- What happens at every step boundary: closed sequences are freed, new KV modes, quotas and configuration words take effect, and
copied relocations switch (R198, R214, R215, R217, R245). -/
def State.boundaryWork (s : State) : State :=
  let s1 := s.closeSeqs
  let cfg := [s1.rd Reg.genPipeCfg, s1.rd Reg.genReplica, s1.rd Reg.kvSpillCfg, s1.rd Reg.kvWaitCfg, s1.rd Reg.kvPromoteCfg] ++
    (List.range 4).map (fun i => s1.rd (Reg.attnBufCfg i))
  let take (c : KvCtx) : KvCtx := match c.next with
    | some n => { c with drop := n.1, quota := n.2, next := none }
    | none => c
  ({ s1 with kv := { s1.kv with ctxs := s1.kv.ctxs.map take }, gen := { s1.gen with cfg := cfg } } : State).switchRelocs

/-! ## Allocation (R199, R200, R203) -/

/-- A sequence completes with KV_QUOTA_FULL (R200). -/
def State.seqFull (s : State) (q : Seq) (c : FullCause) : State := (s.quotaFull q.ctx q.slot c).endSeq q.slot 5 Status.kvQuotaFull

/-- A sequence has all its pages: it waits no longer, is ready from now on where it waited, and its hold on other devices ends (R203, R211,
R233). -/
def State.seqServed (s : State) (q : Seq) : State :=
  let s1 := s.updSeq q.slot (fun q => { q with wait := none, want := none, noCand := 0, readyAt := if q.wait.isSome then s.now else q.readyAt })
  match q.wait, s1.kv? q.ctx with
  | some _, some c => s1.sendHold c q.slot false
  | _, _ => s1

/-- What the results of making pages mean for their sequence: its status for the step. `incl` says that the step includes the entry: the
hold of its frames then begins at this boundary (R203). -/
def State.allocResult (s : State) (q : Seq) (pos0 qlen : Nat) (rs : List Made) (incl : Bool) : State × Nat :=
  match rs.findSome? (fun r => match r with
    | .full c => some c
    | _ => none) with
  | some c => (s.seqFull q c, Status.kvQuotaFull)
  | none =>
    let none_ := rs.contains .noCand
    if rs.isEmpty then (s.seqServed q, Status.ok)
    else if none_ && decide (q.noCand ≥ 1) then (s.seqFull q .noCandidate, Status.kvQuotaFull)
    else
      let s1 := s.updSeq q.slot (fun q => { q with
        wait := some (q.wait.getD s.gen.boundaries), want := some (pos0, qlen), noCand := if none_ then q.noCand + 1 else 0
        heldAt := if q.wait.isSome && !incl then q.heldAt else s.gen.boundaries })
      (if q.wait.isSome then s1 else s1.count Reg.kvPageWaitCnt, Status.pageWait)

/-- Makes the pages of one entry present; a list that cannot be read loses its sequence (R196, R199). -/
def State.allocEntry (s : State) (ctx : Nat) (x : CEntry) : State × Nat :=
  match s.seq? x.seq, s.kv? ctx with
  | some q, some c =>
    let lists := s.allLists.flatMap (fun lg => (List.range ((x.pos0 + x.qlen - 1) / 64 - x.pos0 / 64 + 1)).map (fun i =>
      ({ seq := x.seq, layer := lg.1, group := lg.2, page := x.pos0 / 64 + i } : PageRef)))
    if lists.any (fun p => !s.listReadable c p) then (s.count Reg.kvListErrCnt, Status.kvLost)
    else
      let r := s.makePages ctx (s.absentPages c x.seq x.pos0 x.qlen) (s.ownSpills ctx x.seq)
      r.1.allocResult q x.pos0 x.qlen r.2 true
  | some q, none => (s.seqFull q .listFull, Status.kvQuotaFull)
  | none, _ => (s, Status.genParam)

/-- Sequences of other steps that still wait are tried again at the boundary, in the order in which they entered PAGE_WAIT (R200): a page's
spill is in flight already, or is issued now. -/
def State.retryWaits (s : State) (skip : List Nat) : State :=
  let ws := sortBy (fun q => (q.wait.getD 0) * 2 ^ 14 + q.slot) (s.gen.seqs.filter (fun q => q.wait.isSome && !q.ended && !skip.contains q.slot))
  ws.foldl (fun s q =>
    match s.kv? q.ctx, q.want with
    | some c, some (pos0, qlen) =>
      let m := s.makePages q.ctx (s.absentPages c q.slot pos0 qlen) (s.ownSpills q.ctx q.slot)
      (m.1.allocResult q pos0 qlen m.2 false).1
    | _, _ => s) s

/-! ## Dealing (R234) -/

/-- Deals entries to dies in table order: each whole to the die with the fewest rows so far. -/
def dealEntries (es : List CEntry) : List CEntry :=
  (es.foldl (fun (r : List CEntry × List Nat) x =>
    if !x.runs then (r.1 ++ [x], r.2)
    else
      let die := (List.range 4).foldl (fun b i => if r.2.getD i 0 < r.2.getD b 0 then i else b) 0
      (r.1 ++ [{ x with die := die }], updAt die (fun n => n + x.qlen) r.2)) ([], [0, 0, 0, 0])).1

/-- Cuts a list into runs of `n`. -/
def cutRuns {α : Type} (n : Nat) (l : List α) : List (List α) := (List.range (cdiv l.length n)).map (fun i => (l.drop (n * i)).take n)

/-- The pieces of a die: micro-batches of MB_ROWS rows, level-2 rows apart, cut into halves of SWAP32 × 32 rows; chunks are numbered
through the die's rows. -/
def diePieces (es : List CEntry) (die mb swap32 mb0 chunk0 : Nat) : List Piece :=
  let rows (low : Bool) : List (Nat × Nat) := ((List.range es.length).filter (fun e => match es[e]? with
    | some x => x.runs && x.die == die && (decide (x.level ≥ 2) == low)
    | none => false)).flatMap (fun e => (List.range ((es[e]?.map (fun x => x.qlen)).getD 0)).map (fun i => (e, i)))
  let mbs := ((cutRuns (max 1 mb) (rows false)).map (fun r => (false, r))) ++ ((cutRuns (max 1 mb) (rows true)).map (fun r => (true, r)))
  let halves := (mbs.zipIdx.map (fun m => (cutRuns (32 * max 1 swap32) m.1.2).map (fun r => (m.1.1, m.2 + mb0, r)))).flatten
  (halves.foldl (fun (a : List Piece × Nat) h =>
    (a.1 ++ [{ die := die, mb := h.2.1, rows := h.2.2, low := h.1, chunk0 := a.2, st := 0, layer := 0, started := false, full := false, done := [],
               parts := [], res := [], cur := [], swapped := [], again := [], owed := [] }], a.2 + cdiv h.2.2.length 32)) ([], chunk0)).1

/-! ## Opening a cohort step (R233, Table 9 steps 1 to 4) -/

/-- The reference of a cohort for the deadline monitor. -/
def State.stepRef? (s : State) (chan : Nat) (flow : Option Nat) : Option StepRef := s.gen.refs.find? (fun r => r.chan == chan && r.flow == flow)

/-- Allocates the pages of one entry, whose status becomes the outcome. -/
def State.allocStep (ctx : Nat) (r : State × List CEntry) (x : CEntry) : State × List CEntry :=
  if !x.runs then (r.1, r.2 ++ [x])
  else ((r.1.allocEntry ctx x).1, r.2 ++ [{ x with status := (r.1.allocEntry ctx x).2 }])

/-- Counts the entries at levels 1 and 2, and records the level of each sequence (R243). -/
def State.noteLevels (s : State) (es : List CEntry) : State :=
  let n (l : Nat) : Nat := (es.filter (fun x => x.runs && x.level == l)).length
  let s1 := if n 1 > 0 then s.count Reg.genLevel1Cnt (n 1) else s
  let s2 := if n 2 > 0 then s1.count Reg.genLevel2Cnt (n 2) else s1
  es.foldl (fun s x => if x.runs then s.updSeq x.seq (fun q => { q with level := max q.level x.level }) else s) s2

/-- Opens the cohort step of entries whose pages are allocated: levels, dealing, pieces and their first stages. -/
def State.openCohort (s : State) (chan : Nat) (flow : Option Nat) (func ctx : Nat) (cmd : Option CmdRef) (c : KvCtx) (es1 : List CEntry)
    (dl fb : CEntry → Nat) : State :=
  let rf := s.stepRef? chan flow
  let s2 := if rf.isNone then s.count Reg.schedGenPredNoneCnt else s
  let es2 := match rf with
    | some r => s2.raiseLevels c r dl fb es1
    | none => es1
  let es3 := dealEntries es2
  let cfg := s2.genCfg 0
  let pieces := (List.range 4).flatMap (fun d => diePieces es3 d (bits cfg 26 16) (bits cfg 30 27) 0 0)
  let slot := if s2.gen.cohorts.any (fun k => k.slot == 0) then 1 else 0
  let k : Cohort :=
    { slot := slot, chan := chan, flow := flow, func := func, ctx := ctx, cmd := cmd, no := s2.gen.stepNo + 1, opened := s2.now, entries := es3
      pieces := pieces, fresh := [], attns := [], wins := [], busy := 0, bytes := 0
      ops := ((es3.filter CEntry.runs).map (s2.entryOps c)).sum }
  let s3 : State := { s2 with gen := { s2.gen with cohorts := s2.gen.cohorts ++ [k], stepNo := s2.gen.stepNo + 1 } }
  (List.range pieces.length).foldl (fun s i => s.startStage slot i) (s3.noteLevels es3)

/-- The cache of a context that has none: no pool, and so no page (R240). -/
def KvCtx.none_ (ctx func : Nat) : KvCtx :=
  { ctx := ctx, func := func, pools := [], root := 0, ageq := 0, drop := false, layout := 0, mirror := false, devs := [], mirs := [], span := 0, quota := 0
    next := none, frames := [], leaves := [], dirSlots := [], chunks := [], age := [], ageTail := 0, spill := [], spillNext := 0, key := none }

/-- Opens a cohort step with its entries: allocation, levels, dealing and the first tasks. An entry that another device holds, or that this
one holds in PAGE_WAIT, is held out of the step on all devices of the layout (R211). -/
def State.openStep (s : State) (chan : Nat) (flow : Option Nat) (func ctx : Nat) (cmd : Option CmdRef) (es : List CEntry)
    (dl fb : CEntry → Nat) : State :=
  let s0 : State := { s with gen := { s.gen with boundaries := s.gen.boundaries + 1 } }
  let held (x : CEntry) : CEntry := if x.runs && s.heldAway ctx x.seq then { x with status := Status.pageWait } else x
  let al := (es.map held).foldl (State.allocStep ctx) (s0, [])
  let s1 := al.1.retryWaits (es.map (fun x => x.seq))
  let es1 := if flow.isSome then al.2.filter (fun x => x.status != Status.pageWait) else al.2
  let news := al.2.filter (fun x => x.status == Status.pageWait && !s.heldAway ctx x.seq)
  let c := (s1.kv? ctx).getD (KvCtx.none_ ctx func)
  let s2 := news.foldl (fun s x => s.sendHold c x.seq true) s1
  if flow.isSome && es1.isEmpty then s2 else s2.openCohort chan flow func ctx cmd c es1 dl fb

/-- An entry before its step has opened. -/
def freshEntry (seq qlen pos0 rowBase status : Nat) : CEntry :=
  { seq := seq, qlen := qlen, pos0 := pos0, rowBase := rowBase, level := 0, status := status, die := 0, token := none, nan := false, doneAt := 0, left := false }

/-- The entries of a STEP's table (R167 Table 3), or the status with which its table is refused (R167, R232). Reserved bits of the entries
are ignored (R10). -/
def State.stepEntries (s : State) (l : Live) (ctx : Nat) : Except Nat (List CEntry) :=
  let b := l.body
  let f := l.h.func
  let n := stEntries b
  let at_ (i hi lo : Nat) : Nat := s.hFld f (stRagged b) (stRaggedOff b + 16 * i) hi lo
  let es := (List.range n).map (fun i =>
    (at_ i 13 0, at_ i 31 16 + 1, at_ i 55 32, at_ i 95 64))
  if es.any (fun e => decide (e.2.2.1 + e.2.1 > 2 ^ 24)) || ((es.map (fun e => e.1)).eraseDups).length != n then .error Status.attnParam
  else if decide (stRaggedOff b + 16 * n > s.objSize f (stRagged b)) || decide ((es.map (fun e => e.2.1)).sum > 262144) ||
      es.any (fun e => match s.seq? e.1 with
        | some q => q.ctx != ctx || q.ended
        | none => true) then .error Status.genParam
  else .ok (es.map (fun e =>
    let bad := (List.range e.2.1).any (fun i => decide (s.hNat f (stTokens b) (4 * (e.2.2.2 + i)) 4 ≥ s.mVocab))
    freshEntry e.1 e.2.1 e.2.2.1 e.2.2.2 (if bad then Status.genParam else Status.ok)))

/-- Opens the oldest STEP, or refuses it before any work starts. -/
def State.openStepCmd (s : State) (r : CmdRef) : State :=
  let s1 : State := { s with gen := { s.gen with steps := s.gen.steps.erase r } }
  match s1.live? r with
  | none => s1
  | some l =>
    let ctx := ((s1.chan? l.h.channel).map (fun c => c.ctx)).getD 64
    match s1.stepEntries l ctx with
    | .error st => s1.complete r st (stepRefusal l.body st s1.gen.stepNo)
    | .ok es => s1.openStep l.h.channel none l.h.func ctx (some r) es (fun _ => stDeadline l.body) (fun _ => stFallback l.body)

/-- The ready sequences of a flow cohort: neither in PAGE_WAIT nor held by another device (R211, R230). -/
def State.flowReady (s : State) (chan c : Nat) : List Seq :=
  sortBy (fun q => q.slot) (s.gen.seqs.filter (fun q => q.flow && q.chan == chan && q.cohort == c && !q.ended && q.closeCmd.isNone && q.wait.isNone &&
    !s.heldAway q.ctx q.slot &&
    ((s.ctx? q.ctx).map (fun x => x.st == .resident)).getD false))

/-- Opens a step of a flow cohort: one entry for each ready sequence (R230). -/
def State.openFlow (s : State) (chan c : Nat) : State :=
  match s.flowReady chan c with
  | [] => s
  | q0 :: qs =>
    let es := (q0 :: qs).map (fun q =>
      if q.written < sqPrompt q.body then freshEntry q.slot (min (sqChunk q.body) (sqPrompt q.body - q.written)) q.written 0 Status.ok
      else freshEntry q.slot 1 q.written 0 Status.ok)
    let body (x : CEntry) : Body := ((s.seq? x.seq).map (fun q => q.body)).getD []
    s.openStep chan (some c) q0.func q0.ctx none es (fun x => sqDeadline (body x)) (fun x => sqFallback (body x))

/-- The candidates of R233 with the times at which they became ready: flow cohorts, at the commit of their previous step or when the first of
their sequences became ready, then the oldest STEP, whose context is resident. -/
def State.candidates (s : State) : List (Nat × Option (Nat × Nat)) :=
  let chans := ((s.gen.seqs.filter (fun q => q.flow)).map (fun q => q.chan)).eraseDups
  let flows := (sortBy id chans).flatMap (fun ch => [(ch, 0), (ch, 1)])
  let fl := flows.filterMap (fun (e : Nat × Nat) =>
    let qs := s.flowReady e.1 e.2
    if qs.isEmpty || s.gen.cohorts.any (fun k => k.chan == e.1 && k.flow == some e.2) then none
    else some (max (((s.stepRef? e.1 (some e.2)).map (fun r => r.at_)).getD 0)
      (qs.foldl (fun m q => min m q.readyAt) ((qs.head?.map (fun q => q.readyAt)).getD 0)), some e))
  let st : List (Nat × Option (Nat × Nat)) := match s.gen.steps.head?.bind s.live? with
    | some l => [(l.accepted, none)]
    | none => []
  fl ++ st

/-- STEP_BOUNDARY: with fewer than two cohort steps in flight and a resident model, the candidate that became ready first opens
(R233). -/
def execStepBoundary (s : State) : Host.Outcome State Fault Refusal :=
  .next (if s.gen.cohorts.length ≥ 2 then s
  else
    let s1 := s.boundaryWork
    if s1.gen.model.st ≠ 2 then s1
    else match s1.candidates with
    | [] => s1
    | c :: cs =>
      match (cs.foldl (fun b x => if x.1 < b.1 then x else b) c).2 with
      | some e => s1.openFlow e.1 e.2
      | none => match s1.gen.steps with
        | r :: _ => s1.openStepCmd r
        | [] => s1)

/-! ## Commit (R238 to R240, R314) -/

/-- Whether every entry of a cohort step has its token or its status. -/
def Cohort.sampled (k : Cohort) : Bool := k.entries.all (fun x => x.status != Status.ok || (!x.left && x.token.isSome))

/-- The entry statuses with which a sequence is over. -/
def endsSeq (st : Nat) (flow : Bool) : Bool :=
  if flow then st != Status.ok && st != Status.pageWait && st != Status.aborted else st == Status.nanSeq || st == Status.kvLost

/-- Commits one entry with status OK: its token, its positions and, on a flow channel, the end of its sequence (R230, R239). -/
def State.commitEntry (s : State) (k : Cohort) (e : Nat) (x : CEntry) : State :=
  match s.seq? x.seq with
  | none => s
  | some q =>
    let tok := x.token.getD 0
    let gen := !q.flow || decide (x.pos0 + x.qlen ≥ sqPrompt q.body)
    let s1 := if !gen then s
      else if q.flow then s.hPut k.func (sqOut q.body) (4 * q.tokens) (leBytes 4 tok)
      else s.hPut k.func (stOut (s.stepBody k)) (4 * e) (leBytes 4 tok)
    let s2 := if gen && decide (x.pos0 + x.qlen < 2 ^ 24) then s1.hPut k.func (sqToklog q.body) (4 * (x.pos0 + x.qlen)) (leBytes 4 tok) else s1
    let s3 := s2.updSeq x.seq (fun q => { q with
      written := q.written + x.qlen, last := tok, tokens := if gen then q.tokens + 1 else q.tokens, began := true, readyAt := s2.now })
    let s4 := match q.openCmd with
      | some r => s3.updLive r (fun l => { l with committed := true })
      | none => s3
    if !q.flow then s4
    else
      let reason := if gen && tok == sqStop q.body && sqStop q.body != 0xFFFFFFFF then some 1 else if gen && decide (q.tokens + 1 ≥ sqMaxNew q.body) then some 2
        else if q.written + x.qlen ≥ 2 ^ 24 then some 3 else none
      match reason with
      | some n => s4.endSeq x.seq n Status.ok
      | none => s4

/-- The body of a STEP's completion (R240). -/
def stepBytes (b : Body) (es : List CEntry) (no : Nat) : Nat × Body :=
  let ok := (es.filter (fun x => x.status == Status.ok)).length
  let st := if ok = es.length then Status.ok else Status.genPartial
  (st, pad16 (stepHdr b st ok no ++ es.flatMap (fun x => leBytes 2 (x.status + x.level * 256))))

/-- A STEP_REPORT (R240, R336). -/
def State.stepReport (s : State) (k : Cohort) (c : Nat) : State :=
  let ring := ((s.chan? k.chan).map (fun c => c.ring)).getD 0
  let src := ((s.chan? k.chan).map (fun c => c.src)).getD 0
  let h : CmdHdr := { opcode := Op.step, func := k.func, fence := false, channel := k.chan, tag := k.no % 65536, srcOrd := src, dstOrd := s.fix.ord, ring := ring,
                      inlineLen := 0, xferLen := 0, reserved := 0 }
  let ok := k.entries.all (fun x => x.status == Status.ok)
  let body := leBytes 16 (k.no + k.entries.length * 2 ^ 64 + c * 2 ^ 79) ++ k.entries.flatMap (fun x =>
    leBytes 8 (x.seq + x.status * 2 ^ 16 + x.level * 2 ^ 24 + (if x.status = Status.ok then x.token.getD 0 else 0xFFFFFFFF) * 2 ^ 32))
  s.emits (cplFrags h s.fix.ord s.devTime (if ok then Status.ok else Status.genPartial) false 1 ring (k.no % 65536) body)

/-- The cohort whose entries with a NaN end NAN_SEQ. -/
def Cohort.settled (k : Cohort) : Cohort :=
  { k with entries := k.entries.map (fun x => if x.status = Status.ok ∧ x.nan then { x with status := Status.nanSeq } else x) }

/-- Commits an entry that runs; any other draws no token, and ends its sequence where its status says so. -/
def State.closeEntry (s : State) (k : Cohort) (i : Nat) (x : CEntry) : State :=
  if x.runs then s.commitEntry k i x
  else
    let s1 := if k.flow.isNone then s.hPut k.func (stOut (s.stepBody k)) (4 * i) (leBytes 4 0xFFFFFFFF) else s
    if endsSeq x.status k.flow.isSome then s1.endSeq x.seq 5 x.status else s1

/-- An entry's deadline in µs from the step's opening; 0 for none. -/
def State.entryDeadline (s : State) (k : Cohort) (x : CEntry) : Nat :=
  if k.flow.isSome then ((s.seq? x.seq).map (fun q => sqDeadline q.body)).getD 0 else stDeadline (s.stepBody k)

/-- Counts a step, its tokens, its NaN sequences and `late` missed deadlines. -/
def State.countStep (s : State) (k : Cohort) (late : Nat) : State :=
  let oks := (k.entries.filter CEntry.runs).length
  let nans := (k.entries.filter (fun x => x.status == Status.nanSeq)).length
  let s1 := s.count Reg.genStepsCnt
  let s2 := if oks > 0 then s1.countRate 126 Reg.genTokensCnt oks else s1
  let s3 := if nans > 0 then s2.count Reg.genNanSeqCnt nans else s2
  if late > 0 then s3.count Reg.schedGenDeadlineMissCnt late else s3

/-- Keeps a step's measures as the reference of its queue's next step. -/
def State.keepRef (s : State) (k : Cohort) : State :=
  let rf : StepRef := { chan := k.chan, flow := k.flow, dur := s.now - k.opened, bytes := k.bytes, ops := k.ops, busy := k.busy, at_ := s.now }
  { s with gen := { s.gen with refs := s.gen.refs.filter (fun r => !(r.chan == k.chan && r.flow == k.flow)) ++ [rf] } }

/-- The report of a flow step, or the completion of a STEP command. -/
def State.answerStep (s : State) (k : Cohort) : State :=
  match k.flow with
  | some c => s.stepReport k c
  | none => match k.cmd.bind s.live? with
    | some l => s.complete l.h.ref (stepBytes l.body k.entries k.no).1 (stepBytes l.body k.entries k.no).2
    | none => s

/-- STEP_COMMIT: a cohort step whose entries are all sampled commits its OK entries together; NaN entries end their sequences; the
completion or report is sent (R238 to R240, R314). -/
def State.onStepCommit (s : State) (slot : Nat) : State :=
  match s.cohort? slot with
  | none => s
  | some k0 =>
    if !k0.sampled then s
    else
      let k := k0.settled
      let late := (k.entries.filter (fun x => s.entryDeadline k x != 0 && decide (s.now > k.opened + 1000 * s.entryDeadline k x))).length
      let s1 := k.entries.zipIdx.foldl (fun s p => s.closeEntry k p.2 p.1) (s.updCohort slot (fun _ => k))
      ((((s1.countStep k late).keepRef { k with bytes := k.bytes + (s1.moved - s.moved) }).answerStep k).clearCohort slot).settleSpills

/-- STEP_COMMIT as a command. -/
def execStepCommit (slot : Nat) (s : State) : Host.Outcome State Fault Refusal := .next (s.onStepCommit slot)

/-! ## Recomputation (R209) -/

/-- Binds a page outside T2 to a frame: its entry names the frame, its spill frame is free, and a full page is the youngest. -/
def State.bindBack (s : State) (ctx : Nat) (c : KvCtx) (p : PageRef) (w0 pool frame : Nat) : State :=
  let t := s.setPage c p (fun w => setBits (setBits (setBits w 41 40 1) 36 32 pool) 27 0 frame)
  let t1 := if pwState w0 = 2 then t.freeSpill ctx (pwFrame w0) else t
  if pwFill w0 = 64 then t1.ageAdd ctx p else t1

/-- Gives a page outside T2 a frame there again, and frees the spill frame of one that lay in T3: a free frame, or in drop mode that of
the oldest candidate. The page joins the age queue at its tail (R202). An ABSENT page gets its leaf too. -/
def State.reframe (s0 : State) (ctx : Nat) (p : PageRef) : Option State :=
  match (s0.makeLeaf ctx p).bind (fun s => (s.kv? ctx).map (fun c => (s, c))) with
  | none => none
  | some (s, c) =>
    let w0 := s.pageWord c p
    if pwState w0 = 1 then some s
    else
      match s.takeFrame ctx p with
      | some r => some (r.2.2.bindBack ctx c p w0 r.1 r.2.1)
      | none =>
        if !s.dropMode c then none
        else match s.oldest c with
          | none => none
          | some v => match (s.dropPage c v).takeFrame ctx p with
            | none => none
            | some r => some (r.2.2.bindBack ctx c p w0 r.1 r.2.1)

/-! The recompute entry runs in a scratch cohort step of slot 2 on a copy of the state, through the operations of any prefill entry, on die 0
(DESIGN CHOICE, log entry 72); its rows go into the lost pages only. -/

/-- What a recompute entry comes to: its fresh rows, or an earlier page that it needs and that must be recomputed first (R209). -/
inductive Redo where
  | rows (l : List Fresh) | needs (p : PageRef)
  deriving DecidableEq, Repr

/-- The projection of a stage on every row and block of the scratch step's pieces. -/
def State.redoStage (s : State) (st layer : Nat) : State :=
  ((s.cohort? 2).map (fun k => List.range k.pieces.length)).getD [] |>.foldl (fun s i =>
    let s1 := s.updPiece 2 i (fun p => { p with st := st, layer := layer, started := true, full := false, done := [], parts := [] })
    match (s1.cohort? 2).bind (fun k => (k.pieces[i]?).map (fun p => (k, p))) with
    | none => s1
    | some (k, p) => (List.range (s1.stageBlocks p)).foldl (fun s c => (List.range (k.chunks p)).foldl (fun s ch => s.stageDone 2 i ch c) s) s1) s

/-- The retrieved pages of the scratch step: all eligible ones, or the best of those here and of the lists that other devices have sent; none
where such a list is missing (R174). -/
def State.redoPick (s : State) (c : KvCtx) (k : Cohort) (a : AttnRef) (x : CEntry) (el mine : List Nat) : Option (List Nat) :=
  let d := s.attnDesc a.layer
  if el.length ≤ adRetr d then some el
  else
    let sc := s.pageScores c k d a x mine
    let far := if c.layout = 2 then (s.others c).map (s.farList c x { seq := x.seq, layer := a.layer, group := a.group, page := 0 }) else []
    if far.any (fun l => l.isNone) then none
    else some (sortBy id ((bestPages (adRetr d) (sc ++ (far.filterMap id).flatten)).map (fun e => e.1)))

/-- One head group's attention of the scratch step: its output rows, or a page that cannot be read. By position the partials of the pages on
other devices are those that they have sent for the recompute entry; where some have not come, or a page list has not, the output rows are
free values (DESIGN CHOICE, log entry 72). -/
def State.redoGroup (s : State) (c : KvCtx) (k : Cohort) (x : CEntry) (layer g : Nat) : State × Except PageRef (List (List Nat)) :=
  let d := s.attnDesc layer
  let n := attnRowCount d x
  let free : State × Except PageRef (List (List Nat)) := ({ s with fresh := s.fresh + n * adDh d }, .ok ((List.range n).map (fun i =>
    (List.range (adDh d)).map (fun e => Config.freeBits (s.fresh + i * adDh d + e) % 2 ^ 32))))
  (
    let a : AttnRef := { slot := 2, entry := 0, layer := layer, group := g }
    let ref (n : Nat) : PageRef := { seq := x.seq, layer := layer, group := g, page := n }
    let el := s.eligible d x
    let all := decide (el.length ≤ adRetr d)
    let mine := el.filter (fun n => s.pageHere c (ref n))
    match if all then none else mine.find? (fun n => !s.metaReadable c (ref n)) with
    | some n => (s, .error (ref n))
    | none =>
      match s.redoPick c k a x el mine with
      | none => free
      | some pick =>
      let s1 := if all then s.count (Reg.attnRetrAllCnt 0) else s.countChoice c k d a x 0 mine
      match (globalPages d x ++ pick ++ windowPages d x).find? (fun n => decide (n < x.pos0 / 64) && !s.pageWhole c x (ref n)) with
      | some n => (s, .error (ref n))
      | none =>
        let splits := ([globalPages d x, pick, windowPages d x].map (fun ps => (cutSplits (s.splitMax d x 0) (s.cutIn c a x ps)).1)).flatten
        let bs := splits.flatMap (fun sp => (List.range (blkCount d x.qlen)).map (s.blockParts c k d a x pick sp.pages))
        let parts := (bs.map (fun b => b.1)).flatten ++ s.farParts c d a x
        let far := (s.farPages c d a x pick).length
        let s1t := splits.foldl (fun s sp => (List.range (blkCount d x.qlen)).foldl (fun s rb => s.splitTraffic c d a x pick sp.pages rb) s) s1
        let s2 := ((bs.foldl (fun s b => s.countBlocks 0 b.2) s1t).count (Reg.attnSplitsCnt 0) splits.length).count (Reg.attnMergeCnt 0)
        if (List.range n).any (fun i => (((s.farParts c d a x).filter (fun p => p.row == i)).map (fun p => p.pages)).sum != far) then free
        else (s2.takeFar (fun y => pktBelongs y c x layer g), .ok ((List.range n).map (fun i => (mergeParts (adDh d) (sortBy (fun p => p.first) (parts.filter (fun p => p.row == i)))).1))))

/-- The attention of a layer of the scratch step. -/
def State.redoAttn (s : State) (c : KvCtx) (x : CEntry) (layer : Nat) : State × Option PageRef :=
  (List.range (s.groupsAt layer)).foldl (fun (r : State × Option PageRef) g =>
    match r.2, r.1.cohort? 2 with
    | none, some k =>
      let here := c.layout ≠ 1 || s.pageHere c { seq := x.seq, layer := layer, group := g, page := 0 }
      let run : AttnRun := { entry := 0, layer := layer, group := g, chosen := true, listed := false, retr := [], splits := [], parts := [], merge := 0
                             arrived := 0, out := none }
      if !here then r
      else match r.1.redoGroup c k x layer g with
      | (s1, .ok rows) => (s1.updCohort 2 (fun k => { k with attns := k.attns ++ [{ run with out := some rows }] }), none)
      | (s1, .error p) => (s1, some p)
    | _, _ => r) (s, none)

/-- Runs a recompute entry for `n` positions of a page, through layers 0 to that of the page (R209). -/
def State.redoRows (s : State) (c : KvCtx) (q : Seq) (p : PageRef) (n : Nat) : State × Redo :=
  let x := freshEntry p.seq n (64 * p.page) 0 Status.ok
  let cfg := s.genCfg 0
  let k : Cohort :=
    { slot := 2, chan := q.chan, flow := some 0, func := q.func, ctx := q.ctx, cmd := none, no := 0, opened := s.now, entries := [x]
      pieces := diePieces [x] 0 (bits cfg 26 16) (bits cfg 30 27) 0 0, fresh := [], attns := [], wins := [], busy := 0, bytes := 0, ops := 0 }
  let s0 := ({ s with gen := { s.gen with cohorts := s.gen.cohorts ++ [k] } } : State).updSeq p.seq (fun q => { q with last := s.hNat q.func (sqToklog q.body) (4 * x.pos0) 4 })
  let t := (List.range (p.layer + 1)).foldl (fun (r : State × Option PageRef) l =>
    match r.2 with
    | some _ => r
    | none =>
      let s1 := r.1.redoStage 1 l
      if l = p.layer then (s1, none)
      else
        let b := s1.updCohort 2 (fun k => { k with pieces := k.pieces.map (fun y => { y with st := 2, full := false }) }) |>.redoAttn c x l
        match b.2, b.1.cohort? 2 with
        | some y, _ => (b.1, some y)
        | none, some k1 =>
          let o := b.1.attnRows k1 (s.attnDesc l) 0 l x
          ((((o.2.putRows 2 0 l o.1).redoStage 3 l).redoStage 4 l).redoStage 5 l, none)
        | none, none => (b.1, none)) (s0.redoStage 0 0, none)
  (t.1, match t.2 with
    | some y => .needs y
    | none => .rows (((t.1.cohort? 2).map (fun k => k.fresh)).getD []))

/-- Rewrites a page with the rows of its recompute entry: codes and scales, and the summary key of a full page whose metadata could not be
read or never was written (R166, R209). A page that becomes full is copied to its mirror (R212). -/
def State.recode (s : State) (c : KvCtx) (p : PageRef) (rows : List Fresh) : State :=
  let d := s.attnDesc p.layer
  let mine := rows.filter (fun f => f.layer == p.layer && f.group == p.group)
  let whole := pwFill (s.pageWord c p) == 64 && s.metaReadable c p
  let s1 := mine.foldl (fun s f => (s.mendPage c p (128 * f.row) (packKv (adInt4 d) f.kc)).mendPage c p (8192 + 128 * f.row) (packKv (adInt4 d) f.vc)) s
  let s2 := s1.mendPage c p 16384 ((List.range 128).map (fun i =>
    let f := mine.find? (fun f => f.row == i % 64)
    BitVec.ofNat 8 ((f.map (fun f => if i < 64 then f.ks else f.vs)).getD 0)) ++ s1.metaBytes c p 128 128)
  let s3 := s2.setPage c p (fun w => setBits w 48 42 (max (pwFill w) mine.length))
  let s4 := if whole || mine.length < 64 then s3 else s3.putSummary c d p
  (if pwFill (s.pageWord c p) < 64 && mine.length == 64 then (s4.ageAdd c.ctx p).mirrorCopy c p else s4).count Reg.kvRecomputeCnt

/-- Restarts the entries of a sequence that left their steps: their rows run again from EMBED in pieces of their own. -/
def State.restartEntries (s : State) (seq : Nat) : State :=
  s.gen.cohorts.foldl (fun s k =>
    match k.entries.findIdx? (fun x => x.seq == seq && x.left && x.status == Status.ok) with
    | none => s
    | some e =>
      match k.entries[e]? with
      | none => s
      | some x =>
        let mine := k.pieces.filter (fun p => p.die == x.die)
        let mb0 := (mine.map (fun p => p.mb + 1)).foldl max 0
        let ch0 := (mine.map (fun p => p.chunk0 + cdiv p.rows.length 32)).foldl max 0
        let only := (List.range k.entries.length).map (fun i => (k.entries.getD i x)) |>.mapIdx (fun i y => if i = e then y else { y with status := Status.pageWait })
        let cfg := s.genCfg 0
        let ps := diePieces only x.die (bits cfg 26 16) (bits cfg 30 27) mb0 ch0
        let s1 := s.updCohort k.slot (fun k => { k with entries := updAt e (fun x => { x with left := false }) k.entries, pieces := k.pieces ++ ps })
        (List.range ps.length).foldl (fun s i => s.startStage k.slot (k.pieces.length + i)) s1) s

/-- Brings pages that left T2 back to frames, each in turn; `none` where a frame is missing. -/
def State.reframeAll (ctx : Nat) : List PageRef → State → Option State
  | [], s => some s
  | x :: xs, s => match s.reframe ctx x with
    | none => none
    | some s1 => State.reframeAll ctx xs s1

/-- The end of a sequence whose token log cannot be read: it ends KV_LOST, and so do its entries in a step. -/
def State.loseSeq (s : State) (seq : Nat) : State :=
  let lose (x : CEntry) : CEntry := if x.seq = seq ∧ x.left then { x with status := Status.kvLost } else x
  let lost (k : Cohort) : Cohort := { k with entries := k.entries.map lose }
  ({ s with gen := { s.gen with cohorts := s.gen.cohorts.map lost } } : State).endSeq seq 5 Status.kvLost

/-- How many positions of a page a recompute entry computes: all 64, or those below the written positions and below POS0 of an entry that
waits for it. -/
def State.redoCount (s : State) (q : Seq) (p : PageRef) : Nat :=
  let top := s.gen.cohorts.foldl (fun t k => k.entries.foldl (fun t e => if e.seq = q.slot ∧ e.left then max t e.pos0 else t) t) q.written
  min 64 (top - 64 * p.page)

/-- The pages at a page position, in the layers up to a lost page's, that are dropped, missing or cannot be read. -/
def State.lostPages (s : State) (c : KvCtx) (p : PageRef) : List PageRef :=
  ((List.range (p.layer + 1)).flatMap (fun l => (List.range (s.groupsAt l)).map (fun g =>
    ({ seq := p.seq, layer := l, group := g, page := p.page } : PageRef)))).filter (fun x =>
      s.pageHere c x && !s.pageReadable c x)

/-- RECOMPUTE_DONE: a recompute entry has rewritten the pages of a position range that are dropped, missing or cannot be read, up to the
layer that needed it, and the sequence's step restarts. Where it chooses such a page itself, that earlier page is recomputed first. An
unreadable token log loses the sequence (R209, R210). -/
def State.onRecomputeDone (s : State) (p : PageRef) : State :=
  if !s.kv.rebuild.contains p then s
  else
    let gone : State := { s with kv := { s.kv with rebuild := s.kv.rebuild.filter (fun x => x != p) } }
    match s.seq? p.seq with
    | none => gone
    | some q =>
      match s.kv? q.ctx with
      | none => gone
      | some c =>
        if !((s.obj? q.func (sqToklog q.body)).map (fun o => s.objReadable o (256 * p.page) 256)).getD false then gone.loseSeq p.seq
        else
          match s.redoRows c q p (s.redoCount q p) with
          | (_, .needs y) => if s.kv.rebuild.contains y then s else { s with kv := { s.kv with rebuild := y :: s.kv.rebuild } }
          | (t, .rows l) =>
            match State.reframeAll q.ctx (s.lostPages c p) { gone with regs := t.regs, fresh := t.fresh, mm := t.mm, sch := t.sch, kv := { gone.kv with far := t.kv.far } } with
            | none => s
            | some s1 =>
              let s2 := (s.lostPages c p).foldl (fun s x => s.recode c x l) s1
              if s2.kv.rebuild.any (fun x => x.seq == p.seq) then s2 else s2.restartEntries p.seq

/-- RECOMPUTE_DONE as a command. -/
def execRecomputeDone (p : PageRef) (s : State) : Host.Outcome State Fault Refusal := .next (s.onRecomputeDone p)

/-! ## Uncorrectable weights (R242) -/

/-- The image section that holds a weight, with the weight's offset there (R292). -/
def State.weightImage (s : State) (w : WeightRef) : Option (Obj × Nat) :=
  match s.obj? s.gen.model.func s.gen.model.img with
  | none => none
  | some o =>
    let a := s.weightAt w
    let d := ((List.range 4).find? (fun d => s.mWobj d == a.1)).map (fun d => 0x13 + d)
    let l := ((List.range 4).find? (fun d => s.mLowObj d == a.1)).map (fun d => 0x17 + d)
    match d.orElse (fun _ => l) with
    | none => none
    | some ty => ((s.imageSecs o).find? (fun e => e.1 == ty)).map (fun e => (o, e.2.1 + a.2.1))

/-- Whether the flash image still gives a weight. -/
def State.imageGives (s : State) (w : WeightRef) : Bool := (s.weightImage w).any (fun e => s.objReadable e.1 e.2 (s.weightAt w).2.2)

/-- Rewrites bytes of a weight from an offset on: their lines are good again, and their pages await retirement (R242, R275). -/
def State.mendPart (s : State) (w : WeightRef) (off : Nat) (b : List Byte) : State :=
  let a := s.weightAt w
  let ls := match (s.obj? s.gen.model.func a.1).filter (fun o => o.inT2) with
    | none => []
    | some o => (List.range ((a.2.1 + off + b.length - 1) / 64 - (a.2.1 + off) / 64 + 1)).map (fun i =>
        let n := (a.2.1 + off) / 64 + i
        (o.stack, o.grans.getD (n / 1024) 0 * 1024 + n % 1024))
  let s1 : State := { s with mm := { s.mm with stk := s.mm.stk.mapIdx (fun i x =>
    let mine := (ls.filter (fun l => l.1 == i && x.bad.contains l.2)).map (fun l => l.2)
    { x with bad := x.bad.filter (fun l => !mine.contains l), ues := mine.foldl (fun u l => addOnce (l / 1024) u) x.ues }) } }
  s1.hPut s.gen.model.func a.1 (a.2.1 + off) b

/-- Rewrites a whole weight in place. -/
def State.mendWeight (s : State) (w : WeightRef) (b : List Byte) : State := s.mendPart w 0 b

/-- The devices that GEN.REPLICA names, in order (R217, R242). -/
def State.replicas (s : State) : List Nat :=
  let w := s.genCfg 1
  (if bit w 6 then [bits w 5 0] else []) ++ (if bit w 14 then [bits w 13 8] else [])

/-- Asks a replica for a weight: XREADs of at most 4,096 bytes each (R242, R371). -/
def State.askWeight (s : State) (w : WeightRef) (dev : Nat) : State :=
  let n := (s.weightAt w).2.2
  s.sendAt dev s.gen.model.func false .weight ((List.range (cdiv n 4096)).map (fun j =>
    (.weights w, 4096 * j, List.replicate (min 4096 (n - 4096 * j)) 0)))

/-- The parts of a weight that replicas have still to send. -/
def State.weightAsked (s : State) (w : WeightRef) : List XferOut := s.zwx.xfers.filter (fun o => !o.write && o.use == .weight && o.x.place == .weights w)

/-- A replica has answered for part of a weight, or has refused it or cannot be reached. The part is rewritten in place; with the last one the
repair counts. After a refusal the next replica is asked for the whole (R242). -/
def State.weightCame (s : State) (o : XferOut) (w : WeightRef) (b : Option (List Byte)) : State :=
  match b with
  | some d =>
    let s1 := s.mendPart w o.x.addr d
    if (s1.weightAsked w).isEmpty then (s1.count Reg.genWueReplicaCnt).stallRemote else s1
  | none =>
    let s1 : State := { s with zwx := { s.zwx with xfers := s.zwx.xfers.filter (fun y => y.write || y.use != .weight || y.x.place != .weights w) } }
    match (s.replicas.dropWhile (fun i => i != o.dst)).drop 1 with
    | dev :: _ => s1.askWeight w dev
    | [] => s1

/-- The repair's read of a weight in the flash image: an event of T3_READ, and its bytes (R271, R318). -/
def State.weightFromImage (s : State) (w : WeightRef) : State :=
  match s.weightImage w with
  | some e => ((s.count Reg.memT3Ev).stallUs Reg.memT3Us).objTraffic s.gen.model.func e.1 false e.2 (s.weightAt w).2.2
  | none => s

/-- WEIGHT_REPAIR_DONE: a tile, gain or embedding row that ECC could not correct is rebuilt from parity; where that fails, read from the
flash image; where that fails, a replica is asked for it, whose answers end the repair (`weightCame`). It is rewritten in place. Where
every source fails, STATE becomes FAULT and the entries that have not passed the weight complete with WEIGHT_LOST (R242). -/
def execWeightRepairDone (r : WeightRepair) (s : State) : Host.Outcome State Fault Refusal :=
  .next (if s.gen.model.st ≠ 2 ∨ !s.weightBad r.weight then s
  else
    let w := r.weight
    let a := s.weightAt w
    let par := s.hReadable s.gen.model.func a.1 a.2.1 a.2.2
    let img := ((s.weightImage w).map (fun e => s.objBytes e.1 e.2 a.2.2)).getD []
    match r.src with
    | .parity => if par then (s.mendWeight w (s.hBytes s.gen.model.func a.1 a.2.1 a.2.2)).count Reg.genWueParityCnt else s
    | .flash => if !par && s.imageGives w then (((s.weightFromImage w).mendWeight w img).count Reg.genWueFlashCnt) else s
    | .replica => (match s.replicas with
      | dev :: _ => if !par && !s.imageGives w && (s.weightAsked w).isEmpty then s.askWeight w dev else s
      | [] => s)
    | .lost =>
      if par || s.imageGives w || !(s.weightAsked w).isEmpty then s
      else
        let s1 := ((s.count Reg.genWueLostCnt).setModel { s.gen.model with st := 4 }).event 3 s.gen.model.func false s.gen.model.ident
        s1.gen.cohorts.foldl (fun s k => (List.range k.entries.length).foldl (fun s e =>
          if ((k.entries[e]?).map (fun x => x.runs && x.token.isNone)).getD false &&
              k.pieces.any (fun p => p.rows.any (fun x => x.1 == e) && !s1.weightPast k p w) then
            (s.leaveStep k.slot e).updEntry k.slot e (fun x => { x with status := Status.weightLost })
          else s) s) s1)

/-! ## Multicasts (R316) -/

/-- The receivers of a multicast that are still attached. -/
def Mcast.attached (m : Mcast) : List (Nat × Nat) := m.recv.filter (fun r => !m.detached.contains r.1)

/-- The bytes of the fastest attached receiver. -/
def Mcast.fastest (m : Mcast) : Nat := (m.attached.map (fun r => r.2)).foldl max 0

/-- MCAST_ACK: a receiver acknowledges bytes, of which it has never more than 64 KiB beyond the slowest other one. A single receiver
that lags the fastest by 64 KiB while the sender still holds data is detached; a multicast that every attached receiver has taken
ends (R316). -/
def execMcastAck (sender receiver bytes : Nat) (s : State) : Host.Outcome State Fault Refusal :=
  .next (match s.sch.mcasts.find? (fun m => m.sender == sender && m.attached.any (fun r => r.1 == receiver)) with
  | none => s
  | some m =>
    let slowest := ((m.attached.filter (fun r => r.1 != receiver)).map (fun r => r.2)).foldl min m.total
    let m1 := { m with recv := m.recv.map (fun (r : Nat × Nat) => if r.1 = receiver then (r.1, min (min m.total (slowest + 65536)) (r.2 + bytes)) else r) }
    let slow := m1.attached.filter (fun r => decide (r.2 + 65536 ≤ m1.fastest))
    let put (s : State) (f : Mcast → Option Mcast) : State :=
      { s with sch := { s.sch with mcasts := s.sch.mcasts.filterMap (fun x => if x = m then f x else some x) } }
    let m2 := match slow with
      | [r] => if m1.fastest < m1.total then { m1 with detached := m1.detached ++ [r.1] } else m1
      | _ => m1
    let s1 := put s (fun _ => if m2.attached.all (fun r => decide (r.2 ≥ m2.total)) then none else some m2)
    if m2.detached.length > m.detached.length then
      let s2 := s1.count Reg.schedMcastDetachCnt
      if m.weight then s2.count Reg.genMcastDetachCnt else s2
    else s1)

/-! ## Dispatch (R236, R306 to R311) -/

/-- The order of a task under the keys of R306: class, entry time, context. -/
def Task.key (t : Task) : Nat := (3 - min 3 (if t.aged then 3 else t.cls)) * 2 ^ 80 + t.entered % 2 ^ 70 * 2 ^ 8 + t.ctx.getD 64

/-- Whether a task's score buffer fits in the free part of its context's share (R253, R254). -/
def State.bufferFits (s : State) (t : Task) : Bool :=
  match t.ctx with
  | none => true
  | some c =>
    decide (s.scoreBytes t = 0) || decide (s.scoresOn c t.island + s.scoreBytes t + s.heldBytes c t.island ≤ s.shareBytes c)

/-- Whether a stage task may run: its weights can be read (R242), its halves are whole and present (R236, R241), and at level 2 the die's other micro-batches have
passed its column block (R243). -/
def State.stageTurn (s : State) (t : Task) : Bool :=
  match t.kind with
  | .stage slot i st layer ch c => (match (s.cohort? slot).bind (fun k => (k.pieces[i]?).map (fun p => (k, p))) with
    | none => true
    | some (k, p) =>
      let rows := ((k.stageRows p).drop (32 * ch)).take 32
      (p.again.contains (st, layer, ch, c) || (p.again.isEmpty && p.st == st && p.layer == layer && p.started)) &&
      (!p.low || (k.pieces.filter (fun q => q.die == p.die && !q.low)).all (fun q => pastBlock k q st layer c)) &&
      (if st = 0 then rows.all (fun r => !s.weightBad (.embed (s.inputToken k (p.rows.getD r (0, 0)).1 (p.rows.getD r (0, 0)).2)))
       else if st = 1 then !s.weightBad (.gain layer false)
       else if st = 4 then !s.weightBad (.gain layer true)
       else st != 6 || !s.weightBad .finalGain))
  | _ => true

/-- The tasks of an island that may start now. -/
def State.startable (s : State) (island : Nat) : List Task :=
  s.sch.tasks.filter (fun t => (t.island == island || s.roamsTo t island) && t.islet.isNone && t.ready && s.stageTurn t && s.bufferFits t &&
    (match t.ctx with
      | some c => ((s.ctx? c).map (fun x => x.st != .waiting)).getD false
      | none => true) &&
    (match t.save with
      | some i => (s.freeIslets island).contains i
      | none => true))

/-- The time of a switch in ns at set clock `n` (R308), with `a` live tiles and `b` ferry bytes in flight. -/
def switchNs (n a b : Nat) : Nat := (360000 + 457000 * a + 112 * b) * 32 / (10000 * max 1 n)

/-- Where the save area of a context starts on an islet (R299). -/
def State.saveAreaAddr (s : State) (islet : Nat) (c : Option Nat) : Option Nat :=
  (c.bind s.ctx?).map (fun x => t0Addr islet ((x.first + x.slices) * 16384 - 8256))

/-- Step 1 of a switch: the live tiles of the outgoing task go to its context's save area, each with its scale word behind its entries (R308). -/
def State.saveTiles (s : State) (e : Leave) : State :=
  match s.saveAreaAddr e.islet e.ctx with
  | none => s
  | some base =>
    let x := s.islet e.islet
    let tile (i : Nat) : List Byte := (if i = 0 then x.acc0 else x.acc1).flatMap (leBytes 4) ++ leBytes 4 (if i = 0 then x.scale0 else x.scale1)
    (List.range e.tiles).foldl (fun s i => s.setBytes (base + 4128 * i) (tile i)) s

/-- The live tiles of a task that resumes come back from its context's save area (R309). -/
def State.restoreTiles (s : State) (islet : Nat) (t : Task) : State :=
  match s.saveAreaAddr islet t.ctx with
  | none => s
  | some base =>
    let x := (s.islet islet).forCtx t.ctx
    let acc (i : Nat) : List Nat := (List.range 1024).map (fun j => leNat (s.bytes (base + 4128 * i + 4 * j) 4))
    let sc (i : Nat) : Nat := leNat (s.bytes (base + 4128 * i + 4096) 4)
    s.putIslet { x with
      acc0 := if t.tiles > 0 then acc 0 else x.acc0, scale0 := if t.tiles > 0 then sc 0 else x.scale0
      acc1 := if t.tiles > 1 then acc 1 else x.acc1, scale1 := if t.tiles > 1 then sc 1 else x.scale1 }

/-- The ferry bytes in flight into a context's slices on an islet: a free share of what running generations bring there, at most 16 KiB
(R308). -/
def State.landing (s : State) (islet : Nat) (c : Option Nat) : Nat × State :=
  let rows (d : FerryDesc) : List (Nat × Nat) := if d.mode = 1 then [] else (List.range (d.rowsM1 + 1)).map (fun i => (d.dst + i * d.dstStride, d.len))
  let mine (r : Nat × Nat) : Bool := (r.1 - 0x110000000000) / 2 ^ 17 == islet && decide (0x110000000000 ≤ r.1) && (match c.bind s.ctx? with
    | some x => decide (x.first ≤ r.1 % 2 ^ 17 / 16384) && decide (r.1 % 2 ^ 17 / 16384 < x.first + x.slices)
    | none => false)
  let n := (s.mm.slots.flatMap (fun x => match x.started, x.work with
    | true, some d => (rows d).filter mine
    | _, _ => [])).map (fun r => r.2)
  if n.isEmpty then (0, s) else (Config.pick s.fresh % (min 16384 n.sum + 1), { s with fresh := s.fresh + 1 })

/-- Task `t` starts on an islet: where another task left it without ending, the islet switches, which is counted and charged to that task's
slot (R308, R319). -/
def State.switchTo (s : State) (t : Task) (islet : Nat) : State :=
  match s.gen.leaving.find? (fun e => e.islet == islet) with
  | none => s
  | some out =>
    let s1 : State := { s with gen := { s.gen with leaving := s.gen.leaving.filter (fun e => e.islet != islet) } }
    if out.task = t.id then s1
    else
      let b := (s1.saveTiles out).landing islet out.ctx
      let s2 := b.2.count Reg.schedSwitchCnt
      match out.ctx.bind s2.ctx? with
      | some c => s2.chargeSlot c.slot { SlotAcct.zero with switched := switchNs (s2.setClock (islet / 16)) out.tiles b.1 }
      | none => s2

/-- The islet as a starting task finds it: its saved tiles, unless it never left the islet (R309), and nothing of another context (R61). -/
def State.restoreFor (s : State) (t : Task) (islet : Nat) (stayed : Bool) : State :=
  if t.save.isSome && !stayed then s.restoreTiles islet t
  else if s.ar.islets.any (fun x => x.islet == islet && x.ctx != t.ctx) then s.putIslet ((s.islet islet).forCtx t.ctx)
  else s

/-- Where a ready task stands for a consumer whose next input is late (R236): the same stage for a later micro-batch, the other cohort step,
another stage, any other task. -/
def switchRank (late t : Task) : Nat :=
  match late.kind, t.kind with
  | .stage a _ st l _ _, .stage b _ st2 l2 _ _ => if a ≠ b then 1 else if st = st2 ∧ l = l2 then 0 else 2
  | .stage a _ _ _ _ _, .split b _ _ => if a ≠ b.slot then 1 else 2
  | _, _ => 3

/-- The class part of a task's key. -/
def Task.rank (t : Task) : Nat := t.key / 2 ^ 80

/-- The stage task at the front of an island's queue, among those of the best ready task's class, whose input is late. -/
def State.lateTask (s : State) (island : Nat) (t : Task) : Option Task :=
  (sortBy Task.key (s.sch.tasks.filter (fun x => x.island == island && x.islet.isNone && !(x.ready && s.stageTurn x) && decide (x.key < t.key) &&
    x.rank == t.rank && (match x.kind with
      | .stage _ _ _ _ _ _ => true
      | _ => false)))).head?

/-- A ready prefill task whose score buffer is larger than its context's whole share. -/
def State.hugeTask (s : State) (island : Nat) : Option Nat :=
  s.sch.tasks.findSome? (fun t => match t.kind, t.ctx with
    | .split a _ _, some c => if t.island = island ∧ t.islet.isNone ∧ t.ready ∧ s.scoreBytes t > s.shareBytes c then some a.slot else none
    | _, _ => none)

/-- TASK_DISPATCH: the first ready task of an island's queue goes to its free islet with the lowest index, or to the islet that holds its
save area. Where an earlier stage task's input is late, the task taken is that of R236 and the switch counts; so does a switch of the islet
(R306, R308, R309). A buffer larger than the whole share ends its command (R253). -/
def execTaskDispatch (island : Nat) (s0 : State) : Host.Outcome State Fault Refusal :=
  let s := match s0.hugeTask island with
    | some slot => s0.endTooLarge slot
    | none => s0
  .next (match s.startable island with
  | [] => s
  | t0 :: ts =>
    let f := ts.foldl (fun b x => if x.key < b.key then x else b) t0
    let lateTask := s.lateTask island f
    let t := match lateTask with
      | none => f
      | some z => (sortBy (fun x => switchRank z x * 2 ^ 90 + x.key) ((t0 :: ts).filter (fun x => x.rank == f.rank))).headD f
    let pick := match t.save with
      | some i => some i
      | none => (s.freeIslets island).head?
    match pick with
    | none => s
    | some i =>
      let s1 := if lateTask.isSome then s.count Reg.genLateSwitchCnt else s
      let s2 := (s1.switchTo t i).restoreFor t i (s1.gen.leaving.any (fun e => e.islet == i && e.task == t.id))
      let s3 : State := match t.kind, t.cmd with
        | .piece row n, some r => { s2 with idx := { s2.idx with sels := updWhere (fun x => x.r == r) (fun x => { x with
            at_ := updWhere (fun a => a.row == row && a.piece == n) (fun a => { a with island := island }) x.at_ }) s2.idx.sels } }
        | _, _ => s2
      let s4 := s3.chargeWait t s3.now
      s4.updTask t.id (fun t => { t with island := island, islet := some i, started := s4.now, since := s4.now, tiles := 0, save := none }))

/-- TASK_AGE: a ready task that has waited more than 10 ms counts as class 3 for dispatch (R306). -/
def execTaskAge (island task : Nat) (s : State) : Host.Outcome State Fault Refusal :=
  .next (match s.sch.tasks.find? (fun t => t.id == task && t.island == island && t.islet.isNone && t.ready && !t.aged) with
  | none => s
  | some t => (s.elapseTo (t.entered + 10000001)).updTask task (fun t => { t with aged := true }))

/-- Whether a stage task of a cohort step has its tiles in the window of its island. -/
def State.taskReady (s : State) (t : Task) : Bool :=
  match t.kind with
  | .stage slot i st layer _ c => match s.cohort? slot with
    | some k => s.taskTiles k i st layer c
    | none => t.ready
  | _ => t.ready

/-- Whether a stage task that runs lacks an input that it began with: its tiles, its halves, or weights that can be read. -/
def State.stageGap (s : State) (t : Task) : Bool :=
  match t.kind with
  | .stage slot i st layer _ c => (match s.cohort? slot with
    | some k => ((k.pieces[i]?).map (fun p => p.st == st && p.layer == layer)).getD false && !(s.stageTurn t && s.taskTiles k i st layer c)
    | none => false)
  | _ => false

/-- TASK_END: the task of an islet ends and publishes its outputs (R310), or yields where an input that it needs is not there (R236, R271). -/
def execTaskEnd (islet : Nat) (s : State) : Host.Outcome State Fault Refusal :=
  .next (match s.sch.tasks.find? (fun t => t.islet == some islet && !t.killing) with
  | none => s
  | some t =>
    if s.stageGap t then s.yieldTask t (s.taskReady t)
    else
    let s1 := s.taskOver t
    match t.kind with
    | .stage slot i st layer ch c => (match (s1.cohort? slot).bind (fun k => k.pieces[i]?) with
      | some p => if p.again.contains (st, layer, ch, c) then s1.redone slot i st layer ch c
        else if p.st = st ∧ p.layer = layer then s1.stageDone slot i ch c else s1
      | none => s1)
    | .split a n rb => s.endSplit t a n rb
    | .sample slot e => s1.sampleDone slot e
    | .merge a => s1.mergeDone a
    | _ => s1)

end Sys2Proof.Machine
end

