-- ==== Sys2Proof/Machine/Fabric.lean ====
section
/-! DEFINITION. The strait fabric (R16, R17, R400) and the lagoon atomics (R54 to R57, R255, R256). -/

namespace Sys2Proof.Machine

/-! ## The grid of a die (R16) -/

/-- Grid row of island index `i` on its die. -/
def gridRow (i : Nat) : Nat := 4 * (i / 16 / 4) + i % 16 / 4

/-- Grid column of island index `i` on its die. -/
def gridCol (i : Nat) : Nat := 4 * (i / 16 % 4) + i % 4

/-- The island index at a grid place. -/
def gridIsland (r c : Nat) : Nat := (r / 4 * 4 + c / 4) * 16 + r % 4 * 4 + c % 4

/-- The neighbour of a device island across a strait; none at the edge of its die. -/
def neighbour (island : Nat) (d : Dir) : Option Nat :=
  let die := island / 128
  let r := gridRow (island % 128)
  let c := gridCol (island % 128)
  match d with
  | .north => if r = 0 then none else some (die * 128 + gridIsland (r - 1) c)
  | .south => if r = 7 then none else some (die * 128 + gridIsland (r + 1) c)
  | .west => if c = 0 then none else some (die * 128 + gridIsland r (c - 1))
  | .east => if c = 15 then none else some (die * 128 + gridIsland r (c + 1))

/-- The opposite direction. -/
def Dir.opp : Dir → Dir
  | .north => .south
  | .south => .north
  | .east => .west
  | .west => .east

/-- The strait that a message at `here` for `dst` takes next: along the grid columns first, or along the rows first. -/
def nextHop (rowsFirst : Bool) (here dst : Nat) : Option Dir :=
  let r := gridRow (here % 128)
  let c := gridCol (here % 128)
  let r1 := gridRow (dst % 128)
  let c1 := gridCol (dst % 128)
  let vert : Option Dir := if r1 < r then some .north else if r < r1 then some .south else none
  let horz : Option Dir := if c1 < c then some .west else if c < c1 then some .east else none
  if rowsFirst then (match horz with
    | some d => some d
    | none => vert)
  else (match vert with
    | some d => some d
    | none => horz)

/-- The outgoing strait of an island in a direction. -/
def State.strait (s : State) (island : Nat) (d : Dir) : StraitSt :=
  (s.ar.straits.find? (fun x => x.island == island && x.dir == d)).getD
    { island := island, dir := d, fails := 0, cut := false, last := 0 }

/-- Whether the column-first path from `here` to `dst`, of at most `n` hops, crosses a cut strait. -/
def State.crossesCut (s : State) : Nat → Nat → Nat → Bool
  | 0, _, _ => false
  | n + 1, here, dst =>
    match nextHop false here dst with
    | none => false
    | some d => (s.strait here d).cut || (match neighbour here d with
      | some x => s.crossesCut n x dst
      | none => false)

/-- The next hop of a transfer at an island: the path of its pair of source and destination is fixed (R17, R400). -/
def State.routeAt (s : State) (here : Nat) (t : Transfer) : Option Dir := nextHop (s.crossesCut 32 t.src t.dst) here t.dst

/-- The inputs of a router, in the order of its round robin. R17 names round robin alone: the order of the inputs, and that the first
grant looks past the island's own input, are the model's choice (DESIGN CHOICE, log entry 61). -/
def inputs : List (Option Dir) := [none, some .north, some .south, some .east, some .west]

/-- The transfers waiting at an input. -/
def State.inQueue (s : State) (island : Nat) (i : Option Dir) : List Transfer :=
  ((s.ar.inq.find? (fun x => x.island == island && x.from_ == i)).map (fun x => x.q)).getD []

/-- Stores an input's queue. -/
def State.putInQueue (s : State) (island : Nat) (i : Option Dir) (q : List Transfer) : State :=
  let rest := s.ar.inq.filter (fun x => !(x.island == island && x.from_ == i))
  { s with ar := { s.ar with inq := if q.isEmpty then rest else rest ++ [{ island := island, from_ := i, q := q }] } }

/-- Stores an outgoing strait. -/
def State.putStrait (s : State) (x : StraitSt) : State :=
  { s with ar := { s.ar with straits := s.ar.straits.filter (fun y => !(y.island == x.island && y.dir == x.dir)) ++ [x] } }

/-- The input granted next: the first after the last granted whose front transfer goes out on `d` (R17). -/
def State.grant (s : State) (here : Nat) (d : Dir) : Option (Nat × Transfer) :=
  let last := (s.strait here d).last
  ((List.range 5).map (fun i => (last + 1 + i) % 5)).findSome? (fun i =>
    match s.inQueue here (inputs.getD i none) with
    | t :: _ => if s.routeAt here t = some d then some (i, t) else none
    | [] => none)

/-- Whether an input of a router holds as many transfers as it has room for, so that it holds back its acknowledge (R17). -/
def State.inputFull (s : State) (island : Nat) (d : Dir) : Bool :=
  decide ((s.inQueue island (some d)).length ≥ Config.straitRoom + 1)

/-- The straits between two islands of one die. -/
def hops (a b : Nat) : Nat :=
  let far (x y : Nat) : Nat := (x - y) + (y - x)
  far (gridRow (a % 128)) (gridRow (b % 128)) + far (gridCol (a % 128)) (gridCol (b % 128))

/-- A strait is cut. The transfers in the fabric whose pair turns to the new path go back to their source, which keeps what its receiver
has not acknowledged, and are sent again from there before any later one of the pair, the one furthest on its way first (R400). -/
def State.cutStrait (s : State) (x : StraitSt) : State :=
  let s1 := s.putStrait { x with cut := true }
  let turns (t : Transfer) : Bool := !s.crossesCut 32 t.src t.dst && s1.crossesCut 32 t.src t.dst
  let back := (List.range 31).reverse.flatMap (fun d => s.ar.inq.flatMap (fun e => e.q.filter (fun t => turns t && hops t.src e.island == d)))
  let kept := (s.ar.inq.map (fun e => { e with q := e.q.filter (fun t => !turns t) })).filter (fun e => !e.q.isEmpty)
  back.foldr (fun t (s : State) => s.putInQueue t.src none (t :: s.inQueue t.src none)) { s1 with ar := { s1.ar with inq := kept } }

/-- The state once a new transfer of the island's own has joined its input: it stays on the die and carries 64 bytes, and one whose
destination is the island itself has arrived (R16, R17). -/
def State.takeFresh (s : State) (here : Nat) (fresh : Option Transfer) : State :=
  match fresh with
  | some t => if t.src = here ∧ t.dst / 128 = here / 128 ∧ t.data.length = 64 then
      (if t.dst = here then { s with ar := { s.ar with arrived := s.ar.arrived ++ [t] } }
       else s.putInQueue here none (s.inQueue here none ++ [t]))
    else s
  | none => s

/-- STRAIT_TRANSFER: a transfer completes its handshake on the strait of island `here` towards `out`. A new transfer of
the island's own joins its input first; the router grants in round-robin order. A transfer that fails its CRC stays with
its sender and is sent again; 16 failures in a row cut the strait. A receiver without room holds the transfer back, at its destination as
on its way (R17, R400); what has come to its destination leaves the receiver at once (DESIGN CHOICE, log entry 61). -/
def execStraitTransfer (here : Nat) (out : Dir) (fresh : Option Transfer) (crcOk : Bool) (s : State) :
    Host.Outcome State Fault Refusal :=
  .next (if !s.powered then s
  else
    let s0 := s.takeFresh here fresh
    let st := s0.strait here out
    match neighbour here out with
    | none => s0
    | some nb =>
      if st.cut then s0
      else match s0.grant here out with
      | none => s0
      | some (i, t) =>
        if s0.inputFull nb (Dir.opp out) then s0
        else if !crcOk then
          let n := st.fails + 1
          let s1 := s0.count Reg.faultXferCrcCnt
          if n < 16 then s1.putStrait { st with fails := n }
          else
            let s2 := ((s1.cutStrait { st with fails := n }).count Reg.faultStraitCutCnt).faultLog
              0x04 0 0x0D 1 0 (t1Addr here 0)
            if [Dir.north, .south, .east, .west].all (fun d => (s2.strait here d).cut || (neighbour here d).isNone) then
              s2.fenceCause { whole := true, island := here, islet := 0 } .straitsCut
            else s2
        else
          let inp := inputs.getD i none
          let s1 := (s0.putInQueue here inp ((s0.inQueue here inp).drop 1)).putStrait { st with fails := 0, last := i }
          if nb = t.dst then { s1 with ar := { s1.ar with arrived := s1.ar.arrived ++ [t] } }
          else s1.putInQueue nb (some (Dir.opp out)) (s1.inQueue nb (some (Dir.opp out)) ++ [t]))

/-! ## Lagoon atomics -/

/-- Whether a device address lies in T1. -/
def isT1 (a : Nat) : Bool := decide (0x100000000000 ≤ a) && decide (a < 0x100040000000)

/-- The share of a resident slot. -/
def State.slotShare (s : State) (slot : Nat) : Option Share := s.mm.shares.find? (fun x => x.owner == .ctx slot)

/-- Whether a unit of a die's lagoons belongs to the share of a slot. -/
def State.inShare (s : State) (slot die unit : Nat) : Bool :=
  match s.slotShare slot with
  | some sh => ((sh.us.find? (fun e => e.1 == die)).map (fun e => e.2.contains unit)).getD false
  | none => false

/-- Why an atomic is refused: ATOMIC_TARGET for an address outside T1 or outside the issuer's share and the system area
granted to it, ALIGN_ERROR for one that is not naturally aligned (R54, R255). -/
def State.atomicRefusal (s : State) (r : AtomicReq) (bytes : Nat) : Option Nat :=
  if !isT1 r.addr then some Status.atomicTarget
  else if r.addr % bytes ≠ 0 then some Status.alignError
  else
    let off := r.addr % 2 ^ 21
    let island := (r.addr - 0x100000000000) / 2 ^ 21
    if off / 16384 < 16 then (if r.seqr then none else some Status.atomicTarget)
    else if s.inShare r.ctxSlot (island / 128) (off / 16384) then none else some Status.atomicTarget

/-- Carries an atomic out at its bank: refused, or `f` applied to the old word. On a fenced island it is discarded, and the task that issued
it is killed, to run again from the front of its queue (R256, R310). -/
def State.atomic (s : State) (r : AtomicReq) (bytes : Nat) (f : Nat → Option Nat) : State :=
  if !s.powered then s
  else match s.atomicRefusal r bytes with
  | some st =>
    let die := if isT1 r.addr then (r.addr - 0x100000000000) / 2 ^ 21 / 128 else isletDie r.islet
    let s1 := s.count (if st = Status.alignError then Reg.lagoonAlignErrCnt die else Reg.lagoonTargetErrCnt die)
    (s1.emit (.refusedAtomic r.islet st)).complete { func := r.func, tag := r.tag } st []
  | none =>
    let island := (r.addr - 0x100000000000) / 2 ^ 21
    if s.flt.islands.contains island then s.killTasks (fun t => t.islet == some r.islet)
    else
      let old := leNat (s.bytes r.addr bytes)
      let s1 := match f old with
        | some v => s.setBytes r.addr (leBytes bytes v)
        | none => s
      (s1.count (Reg.lagoonAtomicCnt (island / 128))).emit (.atomicOld r.islet old)

/-- The width of an atomic add's operand. -/
def addBytes : AddTy → Nat
  | .int64 => 8
  | _ => 4

/-- ATOMIC_ADD: integer adds wrap; FP32 adds round to nearest with ties to even (R55). -/
def execAtomicAdd (r : AtomicReq) (ty : AddTy) (x : Nat) (s : State) : Host.Outcome State Fault Refusal :=
  .next (s.atomic r (addBytes ty) (fun old => some (match ty with
    | .int32 => (old + x) % 2 ^ 32
    | .int64 => (old + x) % 2 ^ 64
    | .fp32 => fAdd old (x % 2 ^ 32))))

/-- Whether value `a` beats value `b` under an order where a NaN never wins against a number; `none` when they are equal
(R56). -/
def valueWins (ty : MaxTy) (max : Bool) (a b : Nat) : Option Bool :=
  let byLt (l g : Bool) : Option Bool := if max then (if g then some true else if l then some false else none)
    else (if l then some true else if g then some false else none)
  match ty with
  | .int32 => byLt (decide (bitsInt 32 a < bitsInt 32 b)) (decide (bitsInt 32 a > bitsInt 32 b))
  | .uint32 => byLt (decide (a < b)) (decide (a > b))
  | .fp32 =>
    if fIsNan a && fIsNan b then none
    else if fIsNan a then some false
    else if fIsNan b then some true
    else byLt (fLt a b) (fLt b a)

/-- The 64-bit word that wins: the better value, and on equal values the lower index. -/
def maxWord (ty : MaxTy) (max : Bool) (v idx old : Nat) : Nat :=
  let new := v % 2 ^ 32 * 2 ^ 32 + idx % 2 ^ 32
  match valueWins ty max (v % 2 ^ 32) (old / 2 ^ 32) with
  | some true => new
  | some false => old
  | none => if idx % 2 ^ 32 < old % 2 ^ 32 then new else old

/-- ATOMIC_MAX (R56). -/
def execAtomicMax (r : AtomicReq) (ty : MaxTy) (v idx : Nat) (s : State) : Host.Outcome State Fault Refusal :=
  .next (s.atomic r 8 (fun old => some (maxWord ty true v idx old)))

/-- ATOMIC_MIN (R56). -/
def execAtomicMin (r : AtomicReq) (ty : MaxTy) (v idx : Nat) (s : State) : Host.Outcome State Fault Refusal :=
  .next (s.atomic r 8 (fun old => some (maxWord ty false v idx old)))

/-- COMPARE_AND_SWAP: bit patterns are compared; the old contents are returned (R57). -/
def execCompareAndSwap (r : AtomicReq) (wide : Bool) (expected new : Nat) (s : State) : Host.Outcome State Fault Refusal :=
  .next (s.atomic r (if wide then 8 else 4) (fun old =>
    if old = expected then some (new % 2 ^ (if wide then 64 else 32)) else none))

end Sys2Proof.Machine
end

