-- ==== Sys2Proof/Machine/Memory.lean ====
section
/-! DEFINITION. Memory objects: the MEM command (R248, R249, R257 to R264), cross-stack parity (R250, R252), scrub and
retirement (R275), and the stacks' heat (R273, R274). -/

namespace Sys2Proof.Machine

/-! ## Free granules and units -/

/-- The runs that the device holds for itself: intake area and map cache. -/
def State.ownRuns (s : State) : List GranRun := s.mm.intake ++ s.fl.cacheGrans

/-- The granules of a stack that objects and operations hold, that a scan still reads as its code run stood at its set's seal (R102), or
that are out of use. -/
def State.usedGrans (s : State) (stack : Nat) : List Nat :=
  ((s.mm.objs.filter (fun o => o.inT2 && o.stack == stack)).map Obj.grans).flatten ++
  ((s.mm.ops.filter (fun x => x.dstStack == stack)).map MemOp.dstGrans).flatten ++
  (s.mm.retired.filter (fun g => g.1 == stack)).map (fun g => g.2) ++
  (s.mm.fwds.filter (fun f => f.old / 2 ^ 20 == stack && decide (f.old < 2 ^ 25))).map (fun f => f.old % 2 ^ 20) ++
  ((s.idx.banks.filterMap Bank.code).filter (fun o => o.inT2 && o.stack == stack)).flatMap Obj.grans

/-- Whether a granule is not free. -/
def State.granUsed (s : State) (stack g : Nat) : Bool := (s.usedGrans stack).contains g || s.ownRuns.any (fun r => r.has stack g)

/-- How many granules of a class a stack has (R250): data granules of its parity region, or the granules from PG upwards. -/
def State.classSize (s : State) (stack : Nat) (parity : Bool) : Nat :=
  if parity then s.parGran stack / 8 * 7 else 2 ^ 20 - s.parGran stack

/-- The granule that is number `k` of a class of a stack. -/
def State.classGran (s : State) (stack : Nat) (parity : Bool) (k : Nat) : Nat :=
  if parity then k / 7 * 8 + (if k % 7 < stack % 8 then k % 7 else k % 7 + 1) else s.parGran stack + k

/-- Whether a granule is of a class. -/
def State.inClass (s : State) (stack : Nat) (parity : Bool) (g : Nat) : Bool :=
  if parity then s.isParityData stack g else decide (s.parGran stack ≤ g)

/-- How many granules of a class are not free. -/
def State.usedOf (s : State) (stack : Nat) (parity : Bool) : Nat :=
  ((s.usedGrans stack).filter (s.inClass stack parity)).eraseDups.length +
  (if parity then 0 else runTotal (s.ownRuns.filter (fun r => r.stack == stack)))

/-- Takes `n` free granules of a class of a stack; none where the class lacks them or the stack has failed (R249, R404). -/
def State.takeGrans (s : State) (stack : Nat) (parity : Bool) (n : Nat) : Option (List Nat × State) :=
  let used := s.usedOf stack parity
  let total := s.classSize stack parity
  if s.flt.failedStacks.contains stack ∨ total < used + n then none
  else
    let r := takeFree total (fun k => !s.granUsed stack (s.classGran stack parity k)) used n [] s
    some (r.1.map (s.classGran stack parity), r.2)

/-- Runs of a falling list of granules of a stack. -/
def runsOf (stack : Nat) (gs : List Nat) : List GranRun :=
  gs.foldl (fun rs g => match rs with
    | r :: t => if r.first = g + 1 then { r with first := g, n := r.n + 1 } :: t else { stack := stack, first := g, n := 1 } :: rs
    | [] => [{ stack := stack, first := g, n := 1 }]) []

/-- The `n` highest-numbered free granules of a stack, above any parity region (R331). -/
def State.topRuns (s : State) (stack n : Nat) : List GranRun :=
  let tries := n + (s.usedGrans stack).length + runTotal (s.ownRuns.filter (fun r => r.stack == stack))
  let gs := ((List.range tries).map (fun i => 2 ^ 20 - 1 - i)).filter (fun g => decide (s.parGran stack ≤ g) && !s.granUsed stack g)
  runsOf stack (gs.take n)

/-- The object capacity of the flash in units of 64 KiB: 40 TiB less 3 TiB for each TiB of spill region, less the share of
each failed channel, and less a quarter for each group with two (R283, R289, R405). -/
def State.capUnits (s : State) : Nat :=
  let all := 40 * 2 ^ 24 - s.fix.spill256 * (3 * 2 ^ 22)
  let lost (q : Nat) : Nat := let n := (s.fl.failed.filter (fun c => c / 16 == q)).length; if n ≥ 2 then 16 else n
  all - all * ((List.range 4).map lost).sum / 64

/-- The T3 units that objects hold. -/
def State.usedUnits (s : State) : List Nat := (s.mm.objs.map Obj.units).flatten

/-- Whether an object takes granules of the parity class: it was allocated so. An object promoted from T3 is not. -/
def Obj.cls (o : Obj) : Bool := o.parity && !o.t3Alloc

/-! ## Charges (R257) -/

/-- The granules charged to a function: those of its objects, and those that its moves and allocations under way hold. -/
def State.useT2 (s : State) (f : Nat) : Nat :=
  ((s.mm.objs.filter (fun o => o.func == f && o.inT2)).map (fun o => o.grans.length)).sum +
  ((s.mm.ops.filter (fun x => x.owner == f)).map (fun x => x.dstGrans.length)).sum

/-- The T3 units charged to a function. -/
def State.useT3 (s : State) (f : Nat) : Nat := ((s.mm.objs.filter (fun o => o.func == f)).map (fun o => o.units.length)).sum

/-- The pins that a function holds. -/
def State.pinsOf (s : State) (f : Nat) : Nat := (s.mm.objs.filter (fun o => o.pins.contains f)).length

/-- The pins that the PROMOTEs of a function in flight will give it. -/
def State.pinsDue (s : State) (f : Nat) : Nat := (s.mm.ops.filter (fun x => x.kind == .promote && x.func == f)).length

/-- A handle that no object of a function, shared or its own, has: a free choice. Handle 0 names nothing. -/
def State.newHandle (s : State) (f : Nat) : Nat × State :=
  let taken (h : Nat) : Bool := h == 0 || (s.obj? f h).isSome || s.mm.ops.any (fun x => x.owner == f && x.handle == h)
  let used := (s.mm.objs.map (fun o => o.shares.length + 1)).sum + s.mm.ops.length + 2
  ((firstFree (2 ^ 32) (fun h => !taken h) used (Config.pick s.fresh)).getD 1, { s with fresh := s.fresh + 1 })

/-! ## The body (R258) -/

def memOp (b : Body) : Nat := fld b 3 0
def memT3 (b : Body) : Bool := fld b 4 4 == 1
def memParity (b : Body) : Bool := fld b 5 5 == 1
def memStack (b : Body) : Nat := fld b 12 8
def memTgt (b : Body) : Nat := fld b 19 16
def memHandle (b : Body) : Nat := fld b 63 32
def memGran (b : Body) : Nat := fld b 95 64

/-- The completion header of R258. -/
def memHdr (status handle stack tier : Nat) : Body := leBytes 16 (status + handle * 2 ^ 32 + stack * 2 ^ 64 + tier * 2 ^ 69)

/-- The header of a completion about an object. -/
def memObjHdr (status handle : Nat) (o : Obj) : Body :=
  memHdr status handle (if o.inT2 then o.stack else 0) (if o.inT2 then 0 else 1)

/-- The header of a completion about a function's handle: the stack and tier that hold the object, where the handle names one (R258). -/
def State.memAbout (s : State) (f handle status : Nat) : Body :=
  match s.obj? f handle with
  | some o => memObjHdr status handle o
  | none => memHdr status handle 0 0

/-- The checks of R259, before a MEM command is stamped. -/
def chkMem : BodyCheck := fun s h b =>
  let op := memOp b
  let bad := some (Status.objParam, s.memAbout h.func (memHandle b) Status.objParam)
  let unread := (op != 1 && (fld b 5 4 != 0 || memGran b != 0)) ||
    (!(op == 3 || op == 4 || (op == 1 && !memT3 b)) && memStack b != 0) || (op == 1 && memT3 b && memParity b) ||
    (!(op == 6 || op == 7) && memTgt b != 0) || (op == 1 && memHandle b != 0)
  if op = 0 ∨ op > 7 ∨ fld b 7 6 ≠ 0 ∨ fld b 15 13 ≠ 0 ∨ fld b 31 20 ≠ 0 ∨ fld b 511 96 ≠ 0 ∨ unread then bad
  else if op = 1 then (if memGran b = 0 ∨ memGran b > 2 ^ 20 then bad else none)
  else match s.obj? h.func (memHandle b) with
  | none => bad
  | some o =>
    let own := o.ownedAs h.func (memHandle b)
    if (!own && (op == 2 || op == 3 || op == 6 || op == 7)) || (op == 3 && !o.inT2) || ((op == 6 || op == 7) && memTgt b == h.func) then
      some (Status.objParam, memObjHdr Status.objParam (memHandle b) o)
    else none

/-! ## What names an object (R259) -/

/-- Whether a function's handle names an object. -/
def Obj.namedBy (o : Obj) (f h : Nat) : Bool := (o.func == f && o.handle == h) || o.shares.contains (f, h)

/-- Whether an index names an object: its tables, maps and vectors, and the code runs and logs of its shoals. -/
def State.idxNames (s : State) (x : Index) (o : Obj) : Bool :=
  [x.hTab, x.hCent, x.hMap, x.hDir, x.hVec, x.hTomb].any (o.namedBy x.func) ||
  (List.range x.nShoals).any (fun h => o.namedBy x.func (s.shCode x h) || o.namedBy x.func (s.shLog x h))

/-- Whether a resident index names an object. -/
def State.idxBound (s : State) (o : Obj) : Bool := s.idx.indexes.any (fun x => s.idxNames x o)

/-- Whether an object holds weights of the model. -/
def State.modelWeight (s : State) (o : Obj) : Bool :=
  s.gen.model.st != 0 && (List.range 4).any (fun d => o.namedBy s.gen.model.func (s.mWobj d) || o.namedBy s.gen.model.func (s.mLowObj d))

/-- Whether the model names an object: weights, layer table, attention descriptors, and its image while it is loading, resident
or in fault (R293). -/
def State.modelBound (s : State) (o : Obj) : Bool :=
  s.modelWeight o || (s.gen.model.st != 0 && [s.mdl 447 416, s.mdl 479 448].any (o.namedBy s.gen.model.func)) ||
  ((s.gen.model.st == 1 || s.gen.model.st == 2 || s.gen.model.st == 4) && o.namedBy s.gen.model.func s.gen.model.img)

/-- Whether an object holds key-value frames. -/
def State.kvFrame (s : State) (o : Obj) : Bool := s.kv.ctxs.any (fun c => c.pools.any (fun p => o.namedBy c.func p.1))

/-- Whether a KV configuration names an object. -/
def State.kvBound (s : State) (o : Obj) : Bool :=
  s.kv.ctxs.any (fun c => o.namedBy c.func c.root || o.namedBy c.func c.ageq || c.pools.any (fun p => o.namedBy c.func p.1 || o.namedBy c.func p.2))

/-- Whether an object is bound. -/
def State.bound (s : State) (o : Obj) : Bool := s.idxBound o || s.modelBound o || s.kvBound o

/-- The handles that an accepted command names (R259). -/
def Live.handles (l : Live) : List Nat :=
  let b := l.body
  let o := l.h.opcode
  if o = Op.select then [fld b 159 128, fld b 191 160]
  else if o = Op.search then (searchF1 b).toList ++ (searchF2 b).toList
  else if o = Op.mutate then (mutFilts b).map (fun x => x.2)
  else if o = Op.step then [stRagged b, stTokens b, stOut b, stStats b]
  else if o = Op.seqOpen then [sqToklog b, sqOut b]
  else if o = Op.indexLoad then ((List.range 6).map (fun i => fld b (159 + 32 * i) (128 + 32 * i))) ++ [fld b 543 512]
  else if o = Op.indexSave then [fld b 63 32]
  else if o = Op.modelLoad then ((List.range 8).map (fun i => fld b (191 + 32 * i) (160 + 32 * i))) ++ [fld b 447 416, fld b 479 448, fld b 543 512]
  else if o = Op.mem then (if memOp b = 1 then [] else [memHandle b])
  else if o = Op.kv ∧ kvOp b = 0 then [fld b 95 64, fld b 127 96] ++ ((List.range (kvPools b)).map (fun i => [(kvPool b i).1, (kvPool b i).2])).flatten
  else []

/-- Whether an accepted, uncompleted command other than `r` names an object. -/
def State.cmdNames (s : State) (r : CmdRef) (o : Obj) : Bool :=
  s.cmd.live.any (fun l => l.h.ref != r && l.handles.any (o.namedBy l.h.func))

/-! ## Completion of moves -/

/-- Whether a ferry descriptor armed up to now, or a copy under way, still names an old page. -/
def pageInDesc (page : Nat) (d : FerryDesc) : Bool :=
  let rows (a st : Nat) : Bool := (List.range (d.rowsM1 + 1)).any (fun i =>
    decide ((a + i * st) / 65536 ≤ page) && decide (page ≤ (a + i * st + d.len - 1) / 65536))
  (d.mode != 2 && rows d.src d.srcStride) || (d.mode != 1 && rows d.dst d.dstStride)

/-- Whether a slot holds a generation that was armed at arming count `n` or before and names a page. -/
def SlotSt.names (x : SlotSt) (page n : Nat) : Bool :=
  ((x.work.map (fun d => pageInDesc page d && decide (x.order ≤ n))).getD false) ||
  ((x.pend.map (fun d => pageInDesc page d && decide (x.pOrder ≤ n))).getD false)

/-- Frees the old pages that no descriptor names any longer, directly or through an earlier move that is still forwarded (R260). -/
def State.pruneFwds (s : State) : State :=
  { s with mm := { s.mm with fwds := s.mm.fwds.foldl (fun kept f =>
      if s.mm.slots.any (fun x => x.names f.old f.armed) || kept.any (fun k => k.new == f.old) then kept ++ [f] else kept) [] } }

/-- Forwards that led to pages of an object that is freed lead back to their old pages. -/
def State.unforward (s : State) (pages : List Nat) : State :=
  { s with mm := { s.mm with fwds := s.mm.fwds.map (fun f => if pages.contains f.new then { f with new := f.old } else f) } }

/-- The pages of an object, as device addresses in units of 64 KiB. -/
def Obj.pages (o : Obj) : List Nat :=
  if o.inT2 then o.grans.map (fun g => o.stack * 2 ^ 20 + g) else o.units.map (fun u => t3Addr 0 / 65536 + u)

/-- Copies an object to new places and makes them the object's: the switch of R260. `q` is the object as it will be. The pages of an
object that goes to T3 have been programmed by then (R261), and what was written to it since the copy has followed it there. -/
def State.switchObj (s : State) (by_ : Nat) (o q : Obj) : State :=
  let s1 := (List.range o.size).foldl (fun s i => s.objPut q i (s.objByte o i)) s
  let fwds := (o.pages.zip q.pages).map (fun p => ({ old := p.1, new := p.2, armed := s.mm.armSeq } : Fwd))
  let s3 := (s1.objTraffic by_ o false 0 o.size).objTraffic by_ q true 0 o.size
  let s4 := s3.updObj o (fun _ => q)
  (({ s4 with mm := { s4.mm with fwds := s4.mm.fwds ++ fwds } } : State).pruneFwds).count Reg.memMoveCnt

/-! ## The operations -/

/-- The reads or writes of an object's units in flash that a copy makes, in their channels' queues (R261, R284). -/
def State.copyUnits (s : State) (k : MemOpKind) (o : Obj) : State :=
  let us := o.units.flatMap (fun u => (List.range 16).map (fun i => u * 16 + i))
  match k with
  | .promote => us.foldl State.queueRead s
  | .evict => us.foldl (fun s u => s.queueWrite u [] true) s
  | _ => s

/-- Starts an operation whose copy or zeroing takes time. -/
def State.startMemOp (s : State) (k : MemOpKind) (r : CmdRef) (owner handle stack : Nat) (gs : List Nat) : State :=
  let x : MemOp := { kind := k, func := r.func, tag := r.tag, owner := owner, handle := handle, dstStack := stack, dstGrans := gs, copied := false }
  { s with mm := { s.mm with ops := s.mm.ops ++ [x] } }

/-- ALLOC in T3: free units, zeroed at once. -/
def State.allocT3 (s : State) (r : CmdRef) (f : Nat) (b : Body) : State :=
  let n := memGran b
  let (us, s1) := takeFree s.capUnits (fun u => !s.usedUnits.contains u) s.usedUnits.length n [] s
  let (hd, s2) := s1.newHandle f
  let o : Obj := { func := f, handle := hd, t3Alloc := true, inT2 := false, stack := 0, parity := false, size := n * 65536,
                   grans := [], units := us, pins := [], shares := [], key := s.atRestKey f }
  let mine (a : Nat) : Bool := decide (t3Addr 0 ≤ a) && us.contains ((a - t3Addr 0) / 65536)
  let s3 : State := { s2 with mem := s2.mem.filter (fun e => !mine e.1), mm := { s2.mm with objs := s2.mm.objs ++ [o] } }
  (s3.dropUnits (fun u => us.contains (u / 16))).complete r Status.ok (memHdr Status.ok hd 0 1)

/-- ALLOC (R248, R249): the quota comes first, then the room. A T3 object reads as zero at once. -/
def State.runAlloc (s : State) (r : CmdRef) (f : Nat) (b : Body) : State :=
  let n := memGran b
  let no (st : Nat) : State := s.complete r st (memHdr st 0 (if memT3 b then 0 else memStack b) (b2n (memT3 b)))
  if memT3 b then
    if s.useT3 f + n > s.rd (Reg.memQuotaT3 f) then no Status.quotaExceeded
    else if s.capUnits < s.usedUnits.length + n then no Status.stackFull
    else s.allocT3 r f b
  else if s.useT2 f + n > s.rd (Reg.memQuotaT2 f) then no Status.quotaExceeded
  else match s.takeGrans (memStack b) (memParity b) n with
  | none => no Status.stackFull
  | some g =>
    let (hd, s2) := g.2.newHandle f
    s2.startMemOp .alloc r f hd (memStack b) g.1

/-- FREE (R259, R263): an object that is bound, pinned by another function or shared stays. -/
def State.runFree (s : State) (r : CmdRef) (b : Body) (o : Obj) : State :=
  let no (st : Nat) : State := s.complete r st (memObjHdr st (memHandle b) o)
  if s.bound o || s.cmdNames r o then no Status.objBound
  else if o.pins.any (fun p => p != o.func) then (no Status.pinned).count Reg.memPinnedCnt
  else if !o.shares.isEmpty then no Status.objShared
  else
    let s1 : State := { s with mm := { s.mm with objs := s.mm.objs.filter (fun x => !(x.func == o.func && x.handle == o.handle)) } }
    ((s1.dropUnits (fun u => o.units.contains (u / 16))).unforward o.pages).complete r Status.ok (memObjHdr Status.ok (memHandle b) o)

/-- Starts a copy into T2, for MOVE and PROMOTE (R257, R260). -/
def State.startCopy (s : State) (k : MemOpKind) (r : CmdRef) (b : Body) (o : Obj) : State :=
  let no (st : Nat) : State := s.complete r st (memObjHdr st (memHandle b) o)
  let n := o.size / 65536
  if s.useT2 o.func + n > s.rd (Reg.memQuotaT2 o.func) then no Status.quotaExceeded
  else match s.takeGrans (memStack b) o.cls n with
  | none => no Status.stackFull
  | some (gs, s1) => (s1.copyUnits k o).startMemOp k r o.func o.handle (memStack b) gs

/-- MOVE (R259, R260). -/
def State.runMove (s : State) (r : CmdRef) (b : Body) (o : Obj) : State :=
  if s.modelWeight o || s.kvFrame o then s.complete r Status.objBound (memObjHdr Status.objBound (memHandle b) o)
  else if o.stack = memStack b then s.complete r Status.ok (memObjHdr Status.ok (memHandle b) o)
  else s.startCopy .move r b o

/-- Adds a function's pin; `none` beyond the limit of R257, in which the PROMOTEs in flight count. -/
def State.addPin (s : State) (f : Nat) (o : Obj) : Option State :=
  if o.pins.contains f then some s
  else if s.pinsOf f + s.pinsDue f ≥ 4096 then none
  else some (s.updObj o (fun x => { x with pins := x.pins ++ [f] }))

/-- PROMOTE (R261). -/
def State.runPromote (s : State) (r : CmdRef) (b : Body) (o : Obj) : State :=
  let no (st : Nat) : State := s.complete r st (memObjHdr st (memHandle b) o)
  if s.bound o then no Status.objBound
  else match s.addPin r.func o with
  | none => no Status.quotaExceeded
  | some s1 => if o.inT2 then s1.complete r Status.ok (memObjHdr Status.ok (memHandle b) o) else s.startCopy .promote r b o

/-- EVICT (R261): the requester's pin is dropped, at once where the object stays. -/
def State.runEvict (s : State) (r : CmdRef) (b : Body) (o : Obj) : State :=
  let done (s : State) (st : Nat) : State := s.complete r st (memObjHdr st (memHandle b) o)
  if s.bound o then done s Status.objBound
  else if !o.inT2 then done s Status.ok
  else
    let s1 := s.updObj o (fun x => { x with pins := x.pins.filter (fun p => p != r.func) })
    if o.pins.any (fun p => p != r.func) then (done s1 Status.pinned).count Reg.memPinnedCnt
    else if !o.t3Alloc then done s1 Status.ok
    else (s.copyUnits .evict o).startMemOp .evict r o.func o.handle 0 []

/-- SHARE (R263): the target reads the object under a handle of its own; sharing again returns the handle it has. -/
def State.runShare (s : State) (r : CmdRef) (b : Body) (o : Obj) : State :=
  match o.shares.find? (fun x => x.1 == memTgt b) with
  | some x => s.complete r Status.ok (memObjHdr Status.ok x.2 o)
  | none =>
    let (hd, s1) := s.newHandle (memTgt b)
    (s1.updObj o (fun x => { x with shares := x.shares ++ [(memTgt b, hd)] })).complete r Status.ok (memObjHdr Status.ok hd o)

/-- UNSHARE (R263): access and the target's pin are withdrawn. -/
def State.runUnshare (s : State) (r : CmdRef) (b : Body) (o : Obj) : State :=
  let s1 := s.updObj o (fun x =>
    { x with shares := x.shares.filter (fun y => y.1 != memTgt b), pins := x.pins.filter (fun p => p != memTgt b) })
  s1.complete r Status.ok (memObjHdr Status.ok (memHandle b) o)

/-- Runs a stamped MEM command whose turn has come. -/
def State.runMem (s : State) (r : CmdRef) (h : CmdHdr) (b : Body) : State :=
  match chkMem s h b with
  | some (st, body) => s.complete r st body
  | none =>
    if memOp b = 1 then s.runAlloc r h.func b
    else match s.obj? h.func (memHandle b) with
    | none => s
    | some o =>
      match memOp b with
      | 2 => s.runFree r b o
      | 3 => s.runMove r b o
      | 4 => s.runPromote r b o
      | 5 => s.runEvict r b o
      | 6 => s.runShare r b o
      | _ => s.runUnshare r b o

/-- Whether an operation on an object is under way. -/
def State.memBusy (s : State) (owner handle : Nat) : Bool := s.mm.ops.any (fun x => x.owner == owner && x.handle == handle)

/-- What a stamped MEM command does: operations on one object run one at a time, in stamp order (R262). -/
def actMem : CmdAct := fun r l s =>
  match (if memOp l.body = 1 then none else s.obj? l.h.func (memHandle l.body)) with
  | none => s.runMem r l.h l.body
  | some o =>
    if s.memBusy o.func o.handle || s.mm.waits.any (fun w => w.owner == o.func && w.handle == o.handle) then
      let w : MemWait := { h := l.h, b := l.body, owner := o.func, handle := o.handle }
      { s with mm := { s.mm with waits := s.mm.waits ++ [w] } }
    else s.runMem r l.h l.body

/-- Runs the commands that waited for an object, in order, until one of them takes time. -/
def State.runMemWaits (s : State) (owner handle : Nat) : State :=
  (s.mm.waits.filter (fun w => w.owner == owner && w.handle == handle)).foldl (fun s w =>
    if s.memBusy owner handle then s
    else ({ s with mm := { s.mm with waits := s.mm.waits.erase w } } : State).runMem w.h.ref w.h w.b) s

def isAlloc : CmdHdr → Body → Bool := opRow Op.mem (fun o => o ≤ 1 || o ≥ 8) 3 0
def isFree : CmdHdr → Body → Bool := opRow Op.mem (fun o => o == 2) 3 0
def isMove : CmdHdr → Body → Bool := opRow Op.mem (fun o => o == 3) 3 0
def isPromote : CmdHdr → Body → Bool := opRow Op.mem (fun o => o == 4) 3 0
def isEvict : CmdHdr → Body → Bool := opRow Op.mem (fun o => o == 5) 3 0
def isShare : CmdHdr → Body → Bool := opRow Op.mem (fun o => o == 6) 3 0
def isUnshare : CmdHdr → Body → Bool := opRow Op.mem (fun o => o == 7) 3 0

/-- ALLOC: a new object of granules or T3 units (R248, R249). A MEM body with a reserved OP is refused here. -/
def execAlloc (h : CmdHdr) (b : Body) (s : State) : Host.Outcome State Fault Refusal := .next (s.command isAlloc chkMem actMem h b)

/-- FREE (R259, R263). -/
def execFree (h : CmdHdr) (b : Body) (s : State) : Host.Outcome State Fault Refusal := .next (s.command isFree chkMem actMem h b)

/-- MOVE (R260). -/
def execMove (h : CmdHdr) (b : Body) (s : State) : Host.Outcome State Fault Refusal := .next (s.command isMove chkMem actMem h b)

/-- PROMOTE (R261). -/
def execPromote (h : CmdHdr) (b : Body) (s : State) : Host.Outcome State Fault Refusal := .next (s.command isPromote chkMem actMem h b)

/-- EVICT (R261). -/
def execEvict (h : CmdHdr) (b : Body) (s : State) : Host.Outcome State Fault Refusal := .next (s.command isEvict chkMem actMem h b)

/-- SHARE (R263). -/
def execShare (h : CmdHdr) (b : Body) (s : State) : Host.Outcome State Fault Refusal := .next (s.command isShare chkMem actMem h b)

/-- UNSHARE (R263). -/
def execUnshare (h : CmdHdr) (b : Body) (s : State) : Host.Outcome State Fault Refusal := .next (s.command isUnshare chkMem actMem h b)

/-- The operation under way of a command. -/
def State.memOp? (s : State) (r : CmdRef) : Option MemOp := s.mm.ops.find? (fun x => x.func == r.func && x.tag == r.tag)

/-- Drops the operation of a command; its granules are free again, and what it has queued in flash goes. -/
def State.dropMemOp (s : State) (r : CmdRef) : State :=
  let us : List Nat := match s.memOp? r with
    | some x => if x.kind = MemOpKind.promote ∨ x.kind = MemOpKind.evict then
        ((s.mm.objs.find? (fun o => o.func == x.owner && o.handle == x.handle)).map Obj.units).getD [] else []
    | none => []
  let s1 := s.cancelWrites (fun w => w.copy && us.contains (w.unit / 16))
  { s1 with
    fl := { s1.fl with reads := s1.fl.reads.filter (fun x => !us.contains (x.unit / 16)) }
    mm := { s1.mm with ops := s1.mm.ops.filter (fun x => !(x.func == r.func && x.tag == r.tag)) } }

/-- Zeroes a granule; its lines can be read again. -/
def State.zeroGran (s : State) (stack g : Nat) : State :=
  let s1 := (s.mem.filter (fun e => e.1 / 65536 == stack * 2 ^ 20 + g)).foldl (fun s e => s.t2Write stack (e.1 % 2 ^ 36) 0) s
  { s1 with mm := { s1.mm with stk := updAt stack (fun x => { x with bad := x.bad.filter (fun l => l / 1024 != g) }) s1.mm.stk } }

/-- ALLOC_ZEROED: zeroing ends and the ALLOC commits (R248, R264). -/
def execAllocZeroed (q : CmdRef) (s : State) : Host.Outcome State Fault Refusal :=
  .next (match s.memOp? q, s.live? q with
  | some x, some l =>
    if x.kind ≠ .alloc then s
    else
      let s1 := x.dstGrans.foldl (fun s g => s.zeroGran x.dstStack g) s
      let o : Obj := { func := x.owner, handle := x.handle, t3Alloc := false, inT2 := true, stack := x.dstStack, parity := memParity l.body,
                       size := x.dstGrans.length * 65536, grans := x.dstGrans, units := [], pins := [], shares := [], key := none }
      let s2 := s1.dropMemOp q
      let s3 : State := { s2 with mm := { s2.mm with objs := s2.mm.objs ++ [o] } }
      s3.complete q Status.ok (memHdr Status.ok x.handle x.dstStack 0)
  | _, _ => s)

/-- The object as it stands after an operation. -/
def MemOp.result (x : MemOp) (o : Obj) : Obj :=
  match x.kind with
  | .evict => { o with inT2 := false, grans := [], pins := o.pins.filter (fun p => p != x.func) }
  | .promote => { o with inT2 := true, stack := x.dstStack, grans := x.dstGrans, pins := addOnce x.func o.pins }
  | _ => { o with stack := x.dstStack, grans := x.dstGrans }

/-- Commits a MOVE, PROMOTE or EVICT at its switch (R260, R261, R264), and lets the next command on the object run. A source that
cannot be read ends it with DATA_UNREADABLE (R271). -/
def State.commitMemOp (s : State) (x : MemOp) : State :=
  let r : CmdRef := { func := x.func, tag := x.tag }
  match s.mm.objs.find? (fun o => o.func == x.owner && o.handle == x.handle), s.live? r with
  | some o, some l =>
    let s1 := s.dropMemOp r
    let s2 := if s.objReadable o 0 o.size then
        let q := x.result o
        (s1.switchObj x.func o q).complete r Status.ok (memObjHdr Status.ok (memHandle l.body) q)
      else s1.complete r Status.dataUnreadable (memObjHdr Status.dataUnreadable (memHandle l.body) o)
    s2.runMemWaits x.owner x.handle
  | _, _ => s

/-- Whether reads or writes of an operation's object still stand in the queues of flash, or flash is not ready for them (R261, R284,
R294). -/
def State.copyWaits (s : State) (x : MemOp) : Bool :=
  let us := ((s.mm.objs.find? (fun o => o.func == x.owner && o.handle == x.handle)).map Obj.units).getD []
  (x.kind == .promote || x.kind == .evict) &&
    (!s.fl.ready || s.fl.reads.any (fun r => us.contains (r.unit / 16)) || s.fl.rebuilding.any (fun u => us.contains (u / 16)) ||
      s.fl.writes.any (fun w => us.contains (w.unit / 16)))

/-- MOVE_COPY_DONE: a copy ends, once its reads and writes of flash have been served (R284). It commits at once, but for an object of a
resident index, whose switch waits for the tide boundary (R260 Table 3). -/
def execMoveCopyDone (q : CmdRef) (s : State) : Host.Outcome State Fault Refusal :=
  .next (match s.memOp? q with
  | none => s
  | some x =>
    if x.kind = .alloc ∨ x.copied ∨ s.copyWaits x = true then s
    else if (s.mm.objs.find? (fun o => o.func == x.owner && o.handle == x.handle)).any s.idxBound then
      { s with mm := { s.mm with ops := updWhere (fun y => y.func == q.func && y.tag == q.tag) (fun y => { y with copied := true }) s.mm.ops } }
    else s.commitMemOp x)

/-- The moves of index objects whose copies have ended switch at a tide boundary (R260, R102). -/
def State.switchMoves (s : State) : State := (s.mm.ops.filter (fun x => x.copied)).foldl (fun s x => s.commitMemOp x) s

/-! ## Lines, scrub and retirement -/

/-- Replaces a stack's state. -/
def State.updStack (s : State) (stack : Nat) (f : StackSt → StackSt) : State :=
  { s with mm := { s.mm with stk := updAt stack f s.mm.stk } }

/-- The object that holds a granule. -/
def State.granObj (s : State) (stack g : Nat) : Option Obj := s.mm.objs.find? (fun o => o.inT2 && o.stack == stack && o.grans.contains g)

/-- The function affected by a fault of a granule (R409). -/
def State.granFunc (s : State) (stack g : Nat) : Nat := ((s.granObj stack g).map (fun o => o.func)).getD 0

/-- The accesses of a line's rebuild: its group's seven other stacks read a line each, and the repaired line is written back (R252). They are
charged to the function that holds the line (DEDUCED, log entry 37). -/
def State.rebuildTraffic (s : State) (stack line : Nat) : State :=
  let by_ := ((s.granObj stack (line / 1024)).map (fun o => o.func)).getD 16
  let one (s : State) (j : Nat) : State :=
    let k := stack / 8 * 8 + j
    if k = stack then s.traffic k 16 0 by_ 0 64 else s.traffic k 16 0 by_ 64 0
  (List.range 8).foldl one s

/-- LINE_REBUILD: a line that its stack cannot deliver is rebuilt from its parity group and written back (R252). Where that cannot
be, the reader is told, and the line stays as it is. -/
def execLineRebuild (stack line : Nat) (ok : Bool) (s : State) : Host.Outcome State Fault Refusal :=
  .next (if !s.lineBad stack line then s
  else if ok && s.lineRebuilds stack line then
    let s0 := s.updStack stack (fun x => { x with bad := x.bad.filter (fun l => l != line) })
    let s1 := s0.rebuildTraffic stack line
    ((((s1.count (Reg.dramcRebuildCnt stack)).count Reg.memRebuildEv).stallUs Reg.memRebuildUs)).faultLog 0x18 stack 0x03 3
      (s.granFunc stack (line / 1024)) (t2Addr stack (line * 64))
  else s.faultLog 0x18 stack 0x02 5 (s.granFunc stack (line / 1024)) (t2Addr stack (line * 64)))

/-- DRAM_SCRUB_READ: scrub reads one line, unattributed (R275, R318, R398). Line 0 begins a pass. A corrected line counts against its granule; a granule
that reaches RETIRE_CE, or holds a line that ECC cannot correct, awaits retirement. -/
def execDramScrubRead (stack line : Nat) (r : ScrubResult) (s : State) : Host.Outcome State Fault Refusal :=
  .next (if !s.powered || s.flt.failedStacks.contains stack then s
  else
    let g := line / 1024
    let sc := s.traffic stack 16 0 16 64 0
    let s0 := if line = 0 then sc.updStack stack (fun x => { x with ces := [] }) else sc
    match r with
    | .clean => s0
    | .corrected =>
      let n := ((s0.mm.stk[stack]?).map (fun x => mapGet 0 g x.ces)).getD 0 + 1
      let s1 := s0.updStack stack (fun x =>
        { x with ces := mapPut 0 g n x.ces, ues := if n ≥ bits (s.rd (Reg.dramcScrubCfg stack)) 15 8 then addOnce g x.ues else x.ues })
      (s1.count (Reg.dramcCeCnt stack)).faultLog 0x18 stack 0x01 1 (s.granFunc stack g) (t2Addr stack (line * 64))
    | .uncorrectable =>
      let s1 := s0.updStack stack (fun x => { x with bad := addOnce line x.bad, ues := addOnce g x.ues })
      (s1.count (Reg.dramcUeCnt stack)).faultLog 0x18 stack 0x02 5 (s.granFunc stack g) (t2Addr stack (line * 64)))

/-- Puts a granule on its stack's retired list. -/
def State.retireGran (s : State) (stack g : Nat) : State :=
  let s1 := s.updStack stack (fun x =>
    { x with ues := x.ues.filter (fun u => u != g), ces := mapPut 0 g 0 x.ces, bad := x.bad.filter (fun l => l / 1024 != g)
             deferred := x.deferred.filter (fun u => u != g) })
  ({ s1 with mm := { s1.mm with retired := s1.mm.retired ++ [(stack, g)] } } : State).faultLog 0x18 stack 0x06 0 (s.granFunc stack g)
    (t2Addr stack (g * 65536))

/-- Copies a granule into another of its stack; a line that cannot be rebuilt stays unreadable at its new place. -/
def State.copyGran (s : State) (stack g g2 : Nat) : State :=
  let lost := (((s.mm.stk[stack]?).map (fun x => x.bad)).getD []).filter (fun l => l / 1024 == g && !s.lineRebuilds stack l)
  let s1 := (List.range 65536).foldl (fun s i => s.t2Write stack (g2 * 65536 + i) (s.t2Byte stack (g * 65536 + i))) s
  s1.updStack stack (fun x => { x with bad := x.bad.filter (fun l => l / 1024 != g2) ++ lost.map (fun l => g2 * 1024 + l % 1024) })

/-- Runs with one granule replaced by another. -/
def swapRun (stack g g2 : Nat) (rs : List GranRun) : List GranRun :=
  (rs.map (fun r => if r.has stack g then
    [{ r with n := g - r.first }, { r with first := g + 1, n := r.first + r.n - (g + 1) }, { stack := stack, first := g2, n := 1 }].filter
      (fun x => decide (x.n > 0))
    else [r])).flatten

/-- The object table switches to the granule: every object, move, intake region, map cache and command that held the old one holds the
new one, and a forwarding entry covers the accesses already under way (R275). -/
def State.switchGran (s : State) (stack granule g2 : Nat) : State :=
  let swap (x : Nat × Nat) : Nat × Nat := if x = (stack, granule) then (stack, g2) else x
  let mine (o : Obj) : Bool := o.inT2 && o.stack == stack
  let fwd : Fwd := { old := stack * 2 ^ 20 + granule, new := stack * 2 ^ 20 + g2, armed := s.mm.armSeq }
  { s with
    mm := { s.mm with
      objs := updWhere mine (fun o => { o with grans := o.grans.map (fun g => if g = granule then g2 else g) }) s.mm.objs
      ops := updWhere (fun x => x.dstStack == stack) (fun x => { x with dstGrans := x.dstGrans.map (fun g => if g = granule then g2 else g) }) s.mm.ops
      intake := swapRun stack granule g2 s.mm.intake, intakeUsed := s.mm.intakeUsed.map swap, fwds := s.mm.fwds ++ [fwd] }
    fl := { s.fl with cacheGrans := swapRun stack granule g2 s.fl.cacheGrans }
    idx := { s.idx with banks := s.idx.banks.map (fun k => { k with code := k.code.map (fun o =>
      if mine o then { o with grans := o.grans.map (fun g => if g = granule then g2 else g) } else o) }) }
    cmd := { s.cmd with live := s.cmd.live.map (fun l => { l with intake := l.intake.map swap }) } }

/-- Moves what a granule holds to a free granule of its stack, redirects all that names it, and retires it. -/
def State.retireTo (s : State) (stack granule g2 : Nat) : State :=
  (((s.copyGran stack granule g2).switchGran stack granule g2).pruneFwds).retireGran stack granule

/-- GRANULE_RETIRE: a granule with a cause of R275 is copied into a free one of its stack and class, the object table switches, and
the old granule joins the retired list. Where none is free it stays in service, counted, and the hotspot telemetry names its object. -/
def State.onGranuleRetire (s : State) (stack granule : Nat) : State :=
  if !((s.mm.stk[stack]?).map (fun x => x.ues.contains granule)).getD false || s.mm.retired.contains (stack, granule) then s
  else if !s.granUsed stack granule && (s.inClass stack true granule || s.inClass stack false granule) then s.retireGran stack granule
  else if !(s.inClass stack true granule || s.inClass stack false granule) then s.count (Reg.dramcRetireDeferCnt stack)
  else match s.takeGrans stack (s.inClass stack true granule) 1 with
  | some g => g.2.retireTo stack granule (g.1.headD 0)
  | none => (s.count (Reg.dramcRetireDeferCnt stack)).updStack stack (fun x => { x with deferred := addOnce granule x.deferred })

/-- GRANULE_RETIRE as a command. -/
def execGranuleRetire (stack granule : Nat) (s : State) : Host.Outcome State Fault Refusal := .next (s.onGranuleRetire stack granule)

/-- STACK_THERMAL_TICK: each 1 ms a stack's temperature sets its refresh interval and its own islands' thermal ceiling (R273,
R274). -/
def execStackThermalTick (stack temp : Nat) (s : State) : Host.Outcome State Fault Refusal :=
  .next (if !s.powered then s else
  match s.mm.stk[stack]? with
  | none => s
  | some x =>
    let s1 := s.elapseTo (x.lastTick + 1000000)
    let n := if temp ≥ 95 then max 8 (x.nTherm - 4) else if temp < 92 ∧ x.nTherm < s.pwr.nCap then min s.pwr.nCap (x.nTherm + 2) else x.nTherm
    let enter := decide (temp ≥ 95) && !x.throttle
    let y : StackSt := { x with
      temp := temp, lastTick := s1.now, nTherm := n
      refresh2x := if temp ≥ 85 then true else if temp < 82 then false else x.refresh2x
      throttle := decide (temp ≥ 95) || (x.throttle && decide (n < s.pwr.nCap)) }
    let s2 := s1.updStack stack (fun _ => y)
    if enter then s2.count (Reg.dramcThrottleCnt stack) else s2)

/-- LATE_READ: a lower-tier read of a running command is not delivered within LATE_US of its issue (R271). The read was issued while the
command ran, so no read of it is late before LATE_US has passed since its acceptance. -/
def execLateRead (func tag : Nat) (s : State) : Host.Outcome State Fault Refusal :=
  .next (match s.live? { func := func, tag := tag } with
  | some l =>
    if l.stage = .running ∧ l.accepted + bits (s.rd Reg.memStallCfg) 13 0 * 1000 ≤ s.now then s.count Reg.memLateEv else s
  | none => s)

/-! ## The parity region -/

/-- Whether a new PG can be taken: every granule that it would reclassify is free (R250). -/
def State.parFree (s : State) (die pg : Nat) : Bool :=
  let old := s.parGran (die * 8)
  let lo := min old pg
  let hi := max old pg
  (List.range 8).all (fun j => 
    (s.usedGrans (die * 8 + j)).all (fun g => !(decide (lo ≤ g) && decide (g < hi))) &&
    s.ownRuns.all (fun r => r.stack != die * 8 + j || !overlaps lo (hi - lo) r.first r.n))

/-- A new PG takes effect: the reclassified granules, all free, hold undefined contents, taken as consistent with their parity;
ALLOC zeroes them before use. -/
def State.setParGran (s : State) (die pg : Nat) : State :=
  let old := s.parGran (die * 8)
  let lo := min old pg
  let hi := max old pg
  let re (a : Nat) : Bool := decide (a / 2 ^ 39 = die) && decide (lo ≤ a % 2 ^ 36 / 65536) && decide (a % 2 ^ 36 / 65536 < hi)
  ({ s with mem := s.mem.filter (fun e => !re e.1) } : State).wr (Reg.dramcParCfg (die * 8)) pg

end Sys2Proof.Machine
end

