-- ==== Sys2Proof/Machine/Ferry.lean ====
section
/-! DEFINITION. The ferries (R33, R251, R256, R265 to R271): arming, the checks of a generation, its start, its completion and
CHAIN. -/

namespace Sys2Proof

/-- The 64 bytes of a descriptor (R265 Table 4), as a number. -/
def FerryDesc.word (d : FerryDesc) : Nat :=
  d.src + d.dst * 2 ^ 64 + d.len * 2 ^ 128 + d.rowsM1 * 2 ^ 160 + d.srcStride * 2 ^ 192 + d.dstStride * 2 ^ 224 + d.mode * 2 ^ 256 +
  Machine.b2n d.mergeOk * 2 ^ 258 + Machine.b2n d.irq * 2 ^ 259 + Machine.b2n d.chain * 2 ^ 260 + d.next * 2 ^ 261 + d.func * 2 ^ 268 + d.ctx * 2 ^ 272 +
  d.mcastSet * 2 ^ 280

/-- The source rows of a descriptor: address and length. -/
def FerryDesc.srcRows (d : FerryDesc) : List (Nat × Nat) :=
  if d.mode = 2 then [] else (List.range (d.rowsM1 + 1)).map (fun i => (d.src + i * d.srcStride, d.len))

/-- A descriptor whose fields are all 0. -/
def FerryDesc.zero : FerryDesc :=
  { src := 0, dst := 0, len := 0, rowsM1 := 0, srcStride := 0, dstStride := 0, mode := 0, mergeOk := false, irq := false, chain := false,
    next := 0, func := 0, ctx := 0, mcastSet := 0, reserved := 0 }

/-- The total bytes of a generation. -/
def FerryDesc.bytes (d : FerryDesc) : Nat := (d.rowsM1 + 1) * d.len

end Sys2Proof

namespace Sys2Proof.Machine

/-! ## Slots -/

/-- A slot that has never been armed (R276). -/
def SlotSt.idle (island slot : Nat) : SlotSt :=
  { island := island, slot := slot, gen := 0, code := .none, err := false, work := none, order := 0, started := false, sent := 0,
    merged := false, waited := false, acked := [], desc := FerryDesc.zero, pend := none, pOrder := 0 }

/-- A ferry slot. -/
def State.slot (s : State) (island slot : Nat) : SlotSt :=
  (s.mm.slots.find? (fun x => x.island == island && x.slot == slot)).getD (SlotSt.idle island slot)

/-- Replaces a ferry slot. -/
def State.putSlot (s : State) (x : SlotSt) : State :=
  { s with mm := { s.mm with slots := s.mm.slots.filter (fun y => !(y.island == x.island && y.slot == x.slot)) ++ [x] } }

/-- The descriptor that a 64-byte word spells; `reserved` is nonzero where a reserved bit is set. -/
def descOf (w : Nat) : FerryDesc :=
  { src := bits w 47 0, dst := bits w 111 64, len := bits w 159 128, rowsM1 := bits w 175 160, srcStride := bits w 223 192,
    dstStride := bits w 255 224, mode := bits w 257 256, mergeOk := bit w 258, irq := bit w 259, chain := bit w 260,
    next := bits w 266 261, func := bits w 271 268, ctx := bits w 274 272, mcastSet := bits w 287 280,
    reserved := bits w 63 48 + bits w 127 112 + bits w 191 176 + bits w 267 267 + bits w 279 275 + bits w 511 288 }

/-- The descriptor of a slot as it stands: the registers of a firmware slot, and what the sequencer last wrote of another; every field
is 0 at reset (R265 Table 4). -/
def State.slotDesc (s : State) (island slot : Nat) : FerryDesc :=
  if slot ≥ 56 then
    descOf ((List.range 16).foldl (fun a k => a + s.rd (Reg.ferrySlotDesc island ((slot - 56) * 16 + k)) * 2 ^ (32 * k)) 0)
  else (s.slot island slot).desc

/-- Arms a slot with a descriptor (R267). -/
def State.armWith (s : State) (island slot : Nat) (d : FerryDesc) : State :=
  let x := s.slot island slot
  let n := s.mm.armSeq + 1
  let s1 : State := { s with mm := { s.mm with armSeq := n } }
  if x.work.isNone then
    s1.putSlot { x with work := some d, order := n, gen := (x.gen + 1) % 65536, started := false, merged := false, waited := false, acked := [] }
  else
    let s2 := s1.putSlot { x with pend := some d, pOrder := n }
    if x.pend.isSome then s2.count (Reg.ferryRearmOverwriteCnt island) else s2

/-- Arms a slot with the descriptor that stands in it, however it is armed. The allocator refuses a relocation of the firmware that it does
not allow (R198). -/
def State.arm (s : State) (island slot : Nat) : State :=
  let d := s.slotDesc island slot
  match if slot ≥ 56 then s.relocArm d else some s with
  | some s1 => s1.armWith island slot d
  | none => s

/-- Writes the descriptor of a slot: a firmware slot's into the words of its page, where reserved bits are not taken and a LEN outside its
range is ignored and recorded (R10, R277). -/
def State.writeDesc (s : State) (island slot : Nat) (d : FerryDesc) : State :=
  if slot ≥ 56 then
    (List.range 16).foldl (fun s k =>
      let a := Reg.ferrySlotDesc island ((slot - 56) * 16 + k)
      if k = 4 ∧ (d.len = 0 ∨ d.len > 2 ^ 30) then s.regWriteErr a
      else s.wr a (bits d.word (32 * k + 31) (32 * k) &&& descMask k)) s
  else s.putSlot { s.slot island slot with desc := d }

/-- FERRY_ARM: a sequencer or the firmware writes a descriptor and arms its slot (R265, R267). -/
def execFerryArm (island slot : Nat) (d : FerryDesc) (s : State) : Host.Outcome State Fault Refusal :=
  .next (if s.powered && decide (island < 512) && decide (slot < 64) && !s.flt.islands.contains island then
    (s.writeDesc island slot d).arm island slot
  else s)

/-! ## Ranges -/

/-- The islands of a multicast set (R224): those that run column block `m` on the dies with rows in flight. -/
def State.mcastIslands (s : State) (island m : Nat) : List Nat :=
  let dies := ((s.gen.cohorts.map (fun k => k.pieces.map Piece.die)).flatten).eraseDups
  (dies.map (fun d => s.colIsland d m)).filter (fun i => i != island)

/-- The destination rows of a descriptor; those of a multicast lie at one lagoon offset of each receiver. -/
def State.dstRows (s : State) (island : Nat) (d : FerryDesc) : List (Nat × Nat) :=
  if d.mode = 1 then
    ((s.mcastIslands island d.mcastSet).map (fun i =>
      (List.range (d.rowsM1 + 1)).map (fun r => (t1Addr i (d.dst % 2 ^ 21 + r * d.dstStride), d.len)))).flatten
  else (List.range (d.rowsM1 + 1)).map (fun i => (d.dst + i * d.dstStride, d.len))

inductive Tier where
  | t2 | t1 | t0 | t3 | none
  deriving DecidableEq, Repr

/-- The tier of a device address (R246 Table 1). -/
def tierOf (a : Nat) : Tier :=
  if a < 0x020000000000 then .t2
  else if 0x100000000000 ≤ a ∧ a < 0x100040000000 then .t1
  else if 0x110000000000 ≤ a ∧ a < 0x110040000000 then .t0
  else if 0x400000000000 ≤ a ∧ a < 0x800000000000 then .t3
  else .none

/-! ## Paths (R18, R19) -/

/-- The controller of an address: of its stack, of the own stack of its island, or 32 for the flash on H. -/
def homeCtl (a : Nat) : Option Nat :=
  match tierOf a with
  | .t2 => some (a / 2 ^ 36)
  | .t1 => some ((a - 0x100000000000) / 2 ^ 25)
  | .t0 => some ((a - 0x110000000000) / 2 ^ 25)
  | .t3 => some 32
  | .none => none

/-- The die of a controller; 4 is H. -/
def ctlDie (c : Nat) : Nat := if c < 32 then c / 8 else 4

/-- The dies that a transfer visits (R18): a transfer to the diagonally opposite compute die passes through the next die of the ring, and
every other one takes a single causeway. -/
def diePath (a b : Nat) : List Nat :=
  if a = b then [a] else if a < 4 ∧ b < 4 ∧ (a + 2) % 4 = b then [a, (a + 1) % 4, b] else [a, b]

/-- What an access crosses (R19): an island's vertical port, the controller ring of a die, or the causeway between two dies. -/
inductive Crossing where
  | port (island : Nat)
  | ring (die : Nat)
  | causeway (a b : Nat)
  deriving DecidableEq, Repr

/-- The path of an island's access to a controller (R18, R19). -/
def accessPath (island ctl : Nat) : List Crossing :=
  .port island :: (if ctl = island / 16 then [] else
    let ds := diePath (island / 128) (ctlDie ctl)
    .ring (island / 128) :: (ds.zip (ds.drop 1)).map (fun e => .causeway e.1 e.2))

/-- The pairs of controllers between which a generation's transfers run; a FILL's come from the island's own. -/
def State.ctlPairs (s : State) (island : Nat) (d : FerryDesc) : List (Nat × Nat) :=
  let src := if d.mode = 2 then [island / 16] else (d.srcRows.filterMap (fun r => homeCtl r.1)).eraseDups
  let dst := ((s.dstRows island d).filterMap (fun r => homeCtl r.1)).eraseDups
  src.flatMap (fun a => dst.map (fun b => (a, b)))

/-- Whether a running generation of a pair of controllers was sent before this one, and so arrives before it (R18). A generation's
transfers are taken as sent when it starts (DESIGN CHOICE, log entry 73). -/
def State.sentBefore (s : State) (x : SlotSt) (d : FerryDesc) : Bool :=
  s.mm.slots.any (fun y => y.started && decide (y.sent < x.sent) && match y.work with
    | some e => (s.ctlPairs y.island e).any (s.ctlPairs x.island d).contains
    | none => false)

/-- Whether a source row of a generation lies on a throttled stack (R271 Table 5, R274). -/
def State.fromThrottled (s : State) (d : FerryDesc) : Bool :=
  d.mode != 2 && d.srcRows.any (fun r => tierOf r.1 == .t2 && ((s.mm.stk[r.1 / 2 ^ 36]?).map (fun k => k.throttle)).getD false)

/-! ## Checks -/

/-- Whether rows lie in one tier each, and in T3 only where an object or a spill frame holds the space (R246, R278). -/
def State.rowsExist (s : State) (rows : List (Nat × Nat)) : Bool :=
  rows.all (fun (r : Nat × Nat) =>
    let t := tierOf r.1
    let z := r.1 + r.2 - 1
    t != .none && tierOf z == t && (t != .t3 || (List.range (z / 65536 - r.1 / 65536 + 1)).all (fun i =>
      let u := (r.1 - t3Addr 0) / 65536 + i
      if u < 0x3C0000000 / 16 then s.mm.objs.any (fun o => o.units.contains u)
      else (List.range 4).all (fun j =>
        let f := (u - 0x3C0000000 / 16) * 4 + j
        !(decide (spillAddr f ≤ z) && decide (r.1 < spillAddr f + 16384)) || s.kv.ctxs.any (fun c => c.spill.contains f)))))

/-- Where a page of an object stands now for a descriptor that was armed at arming count `armed`: each move since leads on (R260). -/
def State.pageNow (s : State) (armed page : Nat) : Nat :=
  s.mm.fwds.foldl (fun p w => if w.old = p ∧ armed ≤ w.armed then w.new else p) page

/-- The pages to which a write to a page is forwarded: every later place of it since the descriptor was armed (R260). -/
def State.pagesAfter (s : State) (armed page : Nat) : List Nat :=
  (s.mm.fwds.foldl (fun (ps : List Nat) w => if ps.contains w.old && decide (armed ≤ w.armed) && !ps.contains w.new then ps ++ [w.new] else ps)
    [page]).filter (fun p => p != page)

/-- Whether a function may read or write a page of T2 or of an object in T3: its own object's, or, to read, one shared to it (R263, R266).
A page of an object that moved since the descriptor was armed counts as the object's new page (R260). -/
def State.pageAllowed (s : State) (f armed : Nat) (write : Bool) (page : Nat) : Bool :=
  let now := s.pageNow armed page
  let ok (o : Obj) : Bool := o.func == f || (!write && o.shares.any (fun x => x.1 == f))
  if now < 2 ^ 25 then s.mm.objs.any (fun o => ok o && o.inT2 && o.stack == now / 2 ^ 20 && o.grans.contains (now % 2 ^ 20))
  else
    s.mm.objs.any (fun o => ok o && o.units.contains (now - t3Addr 0 / 65536))

/-- Whether 16 KiB of T3 are a function's own spill frame, or lie in an object that it may use (R266). -/
def State.t3Allowed (s : State) (f armed : Nat) (write : Bool) (k : Nat) : Bool :=
  if k * 16384 ≥ spillAddr 0 then s.kv.ctxs.any (fun c => c.func == f && c.spill.contains (k - spillAddr 0 / 16384))
  else s.pageAllowed f armed write (k / 4)

/-- Whether a context slot holds a slice of islet memory (R299). -/
def State.sliceOf (s : State) (slot slice : Nat) : Bool :=
  s.sch.ctxs.any (fun c => c.st != .waiting && c.slot == slot && decide (c.first ≤ slice) && decide (slice < c.first + c.slices))

/-- The checks of R266 on rows of T0, T1, T2 and T3. -/
def State.rowsAllowed (s : State) (d : FerryDesc) (armed : Nat) (seqr write : Bool) (rows : List (Nat × Nat)) : Bool :=
  rows.all (fun (r : Nat × Nat) =>
    let z := r.1 + r.2 - 1
    let n (m : Nat) : List Nat := (List.range (z / m - r.1 / m + 1)).map (fun i => r.1 / m + i)
    match tierOf r.1 with
    | .t0 => (n 16384).all (fun k => s.sliceOf d.ctx (k % 8))
    | .t1 => (n 16384).all (fun k =>
        let u := k % 128
        (seqr && decide (u < 16)) || s.inShare d.ctx ((k * 16384 - 0x100000000000) / 2 ^ 28) u)
    | .none => false
    | .t3 => (n 16384).all (s.t3Allowed d.func armed write)
    | .t2 => (n 65536).all (s.pageAllowed d.func armed write))

/-- The stop of a generation that fails a check before any byte moves: FERRY_PARAM, FERRY_ADDR, FERRY_ACCESS (R246, R266). -/
def State.ferryStop (s : State) (x : SlotSt) (d : FerryDesc) : Option FerryCode :=
  let seqr := decide (x.slot < 56)
  if d.mode = 3 ∨ d.reserved ≠ 0 ∨ d.len = 0 ∨ d.len > 2 ^ 30 ∨ (seqr ↔ d.next ≥ 56) then some .param
  else if !s.rowsExist d.srcRows || !s.rowsExist (s.dstRows x.island d) then some .addr
  else if !s.rowsAllowed d x.order seqr false d.srcRows || !s.rowsAllowed d x.order seqr true (s.dstRows x.island d) then some .access
  else none

/-! ## Data -/

/-- A byte of flash, deciphered with the key of the function whose object or spill frame holds its unit (R291). -/
def State.flashByte (s : State) (a : Nat) : Byte :=
  let u := (a - t3Addr 0) / 4096
  if isSpillUnit u then
    match s.kv.ctxs.find? (fun c => c.spill.contains ((u - 0x3C0000000) / 4)) with
    | some c => s.t3Byte c.key c.func a
    | none => s.byte a
  else match s.mm.objs.find? (fun o => o.units.contains (u / 16)) with
    | some o => s.t3Byte o.key o.func a
    | none => s.byte a

/-- The byte that a reader gets from a device address. -/
def State.devByte (s : State) (a : Nat) : Byte :=
  match tierOf a with
  | .t2 => s.t2Byte (a / 2 ^ 36) (a % 2 ^ 36)
  | .t3 => s.flashByte a
  | _ => s.byte a

/-- Whether a range of device memory can be read after the repairs of R252 and R288. -/
def State.devReadable (s : State) (a n : Nat) : Bool :=
  (List.range ((a + n - 1) / 4096 - a / 4096 + 1)).all (fun i =>
    let lo := if i = 0 then a else (a / 4096 + i) * 4096
    let hi := min (a + n) ((a / 4096 + i + 1) * 4096)
    match tierOf a with
    | .t2 => s.t2RangeReadable (lo / 2 ^ 36) (lo % 2 ^ 36) (hi - lo)
    | .t3 => s.mapUnitReadable ((lo - t3Addr 0) / 4096)
    | _ => true)

/-- Stores a byte at a device address. -/
def State.putAt (s : State) (a : Nat) (v : Byte) : State :=
  if tierOf a = .t2 then s.t2Write (a / 2 ^ 36) (a % 2 ^ 36) v else s.setByte a v

/-- Forwards a write to every new place of a page that moved since the descriptor was armed (R260, R261). -/
def State.followMove (s : State) (armed a : Nat) (v : Byte) : State :=
  (s.pagesAfter armed (a / 65536)).foldl (fun s p => s.putAt (p * 65536 + a % 65536) v) s

/-- Writes a byte; one of a page that moved since the descriptor was armed is written at its old and its new place (R260). -/
def State.devWrite (s : State) (armed a : Nat) (v : Byte) : State := (s.putAt a v).followMove armed a v

/-- The byte that a generation brings to a destination address: the last row that covers it wins. -/
def State.ferryByte (s : State) (d : FerryDesc) (a : Nat) : Option Byte :=
  let i? := (List.range (d.rowsM1 + 1)).reverse.find? (fun i =>
    let lo := (if d.mode = 1 then d.dst % 2 ^ 21 else d.dst) + i * d.dstStride
    decide (lo ≤ a) && decide (a < lo + d.len))
  i?.map (fun i => if d.mode = 2 then 0 else s.devByte (d.src + i * d.srcStride + (a - ((if d.mode = 1 then d.dst % 2 ^ 21 else d.dst) + i * d.dstStride))))

/-- Moves the first `n` bytes of a generation, row by row. A byte for T3 goes through its channel's queue instead; only where its object
has been promoted since the descriptor was armed is it written here, at its new place (R261). -/
def State.ferryCopy (s : State) (island armed : Nat) (d : FerryDesc) (n : Nat) : State :=
  let put (s : State) (a : Nat) (v : Byte) : State :=
    if d.mode = 1 then (s.mcastIslands island d.mcastSet).foldl (fun s i => s.setByte (t1Addr i a) v) s
    else if tierOf a = .t3 then s.followMove armed a v else s.devWrite armed a v
  (List.range (d.rowsM1 + 1)).foldl (fun s i =>
    (List.range (min d.len (n - i * d.len))).foldl (fun s j =>
      let base := if d.mode = 1 then d.dst % 2 ^ 21 else d.dst
      put s (base + i * d.dstStride + j) (if d.mode = 2 then 0 else s.devByte (d.src + i * d.srcStride + j))) s) s

/-- The map units that a generation writes in T3. -/
def State.ferryUnits (s : State) (island : Nat) (d : FerryDesc) : List Nat :=
  (((s.dstRows island d).filter (fun r => tierOf r.1 == .t3)).map (fun (r : Nat × Nat) =>
    (List.range ((r.1 + r.2 - 1) / 4096 - r.1 / 4096 + 1)).map (fun i => (r.1 - t3Addr 0) / 4096 + i))).flatten.eraseDups

/-- The map units of T3 that a generation reads. -/
def readUnits (d : FerryDesc) : List Nat :=
  ((d.srcRows.filter (fun r => tierOf r.1 == .t3)).flatMap (fun (r : Nat × Nat) =>
    (List.range ((r.1 + r.2 - 1) / 4096 - r.1 / 4096 + 1)).map (fun i => (r.1 - t3Addr 0) / 4096 + i))).eraseDups

/-- Queues the writes of a generation's T3 destination; each is merged into its unit's old contents when it is programmed (R280). -/
def State.ferryFlash (s : State) (island : Nat) (d : FerryDesc) : State :=
  (s.ferryUnits island d).foldl (fun s u =>
    s.queueWrite u ((List.range 4096).map (fun i => s.ferryByte d (t3Addr (u * 4096 + i)))) false) s

/-- The units of T3 to which writes of a generation to T2 are forwarded, since their object has been evicted: they go to new pages
(R261, R280). -/
def State.forwardedUnits (s : State) (x : SlotSt) (d : FerryDesc) : List (Nat × Nat) :=
  ((s.dstRows x.island d).filter (fun r => tierOf r.1 == .t2)).flatMap (fun (r : Nat × Nat) =>
    (partsOf r.1 r.2).flatMap (fun p => ((s.pagesAfter x.order p.1).filter (fun q => tierOf (q * 65536) == .t3)).flatMap (fun q =>
      unitParts (q * 65536 - t3Addr 0 + (max r.1 (p.1 * 65536)) % 65536) p.2)))

/-- The parity lines of T2 that a generation must have acknowledged (R251), as stack × 2^30 + line. -/
def State.parityLines (s : State) (island : Nat) (d : FerryDesc) : List Nat :=
  (((s.dstRows island d).filter (fun r => tierOf r.1 == .t2)).map (fun (r : Nat × Nat) =>
    (List.range ((r.1 + r.2 - 1) / 64 - r.1 / 64 + 1)).map (fun i => r.1 / 64 + i))).flatten.filter (fun l =>
      let stack := l / 2 ^ 30
      let g := l % 2 ^ 30 / 1024
      s.isParityData stack g && !s.flt.failedStacks.contains (parityStack stack g))

/-! ## Ends -/

/-- Ends a slot's generation: with a stop code, or with none; a pending generation becomes the working one (R267). -/
def State.endGen (s : State) (x : SlotSt) (stop : Option FerryCode) : State :=
  s.putSlot { x with
    work := x.pend, pend := none, order := x.pOrder, started := false, sent := 0, merged := false, waited := false, acked := []
    gen := if x.pend.isSome then (x.gen + 1) % 65536 else x.gen
    code := stop.getD x.code, err := stop.isSome }

/-- Ends a generation that fails a check of R266 or R246. -/
def State.stopGen (s : State) (x : SlotSt) (c : FerryCode) : State :=
  let s1 := s.endGen x (some c)
  (if c = .access then s1.count (Reg.ferryAccessErrCnt x.island) else s1).pruneFwds

/-! ## FERRY_GENERATION_START -/

/-- The generations of a ferry that have been armed and not started, in arming order. -/
def State.armed (s : State) (island : Nat) : List SlotSt :=
  sortBy (fun x => x.order) (s.mm.slots.filter (fun x => x.island == island && x.work.isSome && !x.started))

/-- The running generations of a ferry. -/
def State.flying (s : State) (island : Nat) : List SlotSt := s.mm.slots.filter (fun x => x.island == island && x.work.isSome && x.started)

/-- Whether two lists of rows share a byte. -/
def rowsMeet (a b : List (Nat × Nat)) : Bool := a.any (fun (x : Nat × Nat) => b.any (fun (y : Nat × Nat) => overlaps x.1 x.2 y.1 y.2))

/-- Whether an earlier generation in flight holds a generation back (R268). -/
def State.ferryBlocked (s : State) (island : Nat) (d : FerryDesc) : Bool :=
  (s.flying island).any (fun y => match y.work with
    | some e => rowsMeet (s.dstRows island d) (e.srcRows ++ s.dstRows island e)
    | none => false)

/-- Where the operands of a sequencer task lie in the system area of its island's lagoon (R307). -/
def seqOperands (id : Nat) : Nat × Nat :=
  let o := (Config.seqRange id).1 % 2 ^ 18
  (o, (Config.seqRange id).2 % (2 ^ 18 - o) + 1)

/-- Whether operands of a sequencer task that runs lock a range of an island's lagoon (R307). -/
def State.sysLocked (s : State) (island off n : Nat) : Bool :=
  s.sch.tasks.any (fun t => t.ctx.isNone && t.islet.isSome && t.island == island && overlaps off n (seqOperands t.id).1 (seqOperands t.id).2)

/-- Whether a read lock of R33 lies on an islet-memory destination, or one of R307 on a destination in a system area. -/
def State.ferryLocked (s : State) (island : Nat) (d : FerryDesc) : Bool :=
  (s.dstRows island d).any (fun (r : Nat × Nat) =>
    (tierOf r.1 == .t0 && s.t0Locked ((r.1 - 0x110000000000) / 2 ^ 17) ((r.1 - 0x110000000000) % 2 ^ 17) r.2) ||
    (tierOf r.1 == .t1 && s.sysLocked ((r.1 - 0x100000000000) / 2 ^ 21) ((r.1 - 0x100000000000) % 2 ^ 21) r.2))

/-- A lock holds a generation's write; the wait counts once (R33). -/
def State.lockWait (s : State) (x : SlotSt) : State :=
  if x.waited then s else (s.putSlot { x with waited := true }).count (Reg.arithLockWaitCnt (x.island / 128))

/-- Whether a generation names T3 before Vuindig is ready (R294). -/
def State.ferryEarly (s : State) (island : Nat) (d : FerryDesc) : Bool :=
  !s.fl.ready && (d.srcRows ++ s.dstRows island d).any (fun (r : Nat × Nat) => tierOf r.1 == .t3)

/-- Starts a generation that has passed its checks: it runs, its T3 reads and writes are queued (R284), and a multicast begins (R316). -/
def State.runGen (s : State) (x : SlotSt) (d : FerryDesc) (merged : Bool) : State :=
  let n := s.mm.sendSeq + 1
  let s0 := ({ s with mm := { s.mm with sendSeq := n } } : State).putSlot { x with started := true, sent := n, merged := merged }
  let s1 := (readUnits d).foldl State.queueRead s0
  let s2 := if d.srcRows.all (fun (r : Nat × Nat) => s.devReadable r.1 r.2) then s1.ferryFlash x.island d else s1
  let rs := s.mcastIslands x.island d.mcastSet
  if d.mode = 1 ∧ !rs.isEmpty then
    let m : Mcast := { sender := x.island, total := d.bytes, recv := rs.map (fun i => (i, 0)), detached := [], weight := false }
    { s2 with sch := { s2.sch with mcasts := s2.sch.mcasts ++ [m] } }
  else s2

/-- Whether the next armed generation merges with the one that runs up to `d`'s end (R269). `total` is the merged length so far. -/
def mergeable (d e : FerryDesc) (total : Nat) : Bool :=
  d.mergeOk && e.mergeOk && d.mode == 0 && e.mode == 0 && d.rowsM1 == 0 && e.rowsM1 == 0 && d.func == e.func && d.ctx == e.ctx &&
  e.src == d.src + d.len && e.dst == d.dst + d.len && tierOf d.src == tierOf e.src && tierOf d.dst == tierOf e.dst &&
  (tierOf d.src != .t2 || d.src / 2 ^ 36 == e.src / 2 ^ 36) && (tierOf d.dst != .t2 || d.dst / 2 ^ 36 == e.dst / 2 ^ 36) &&
  decide (total + e.len ≤ 2 ^ 20)

/-- Merges armed generations into the transfer of the one that has just started, while R269 allows. -/
def State.mergeGens (island : Nat) : Nat → FerryDesc → Nat → State → State
  | 0, _, _, s => s
  | n + 1, d, total, s =>
    match s.armed island with
    | [] => s
    | y :: _ => match y.work with
      | none => s
      | some e =>
        if mergeable d e total && !s.ferryBlocked island e && !s.ferryLocked island e then
          match s.ferryStop y e with
          | some c => s.stopGen y c
          | none => State.mergeGens island n e (total + e.len) ((s.runGen y e true).count (Reg.ferryMergeCnt island))
        else s

/-- FERRY_GENERATION_START: the ferry takes its next armed generation. It waits behind an earlier one that it overlaps, behind a
read lock, and for Vuindig; a generation that fails its checks stops (R33, R246, R266, R268, R269, R294). -/
def execFerryGenerationStart (island : Nat) (s : State) : Host.Outcome State Fault Refusal :=
  .next (if !s.powered then s else
  match s.armed island with
  | [] => s
  | x :: _ => match x.work with
    | none => s
    | some d =>
      if ((s.flying island).filter (fun y => !y.merged)).length ≥ 16 || s.ferryEarly island d then s
      else match s.ferryStop x d with
      | some c => s.stopGen x c
      | none =>
        if s.ferryBlocked island d then s
        else if s.ferryLocked island d then s.lockWait x
        else State.mergeGens island 64 d d.len (s.runGen x d false))

/-! ## PARITY_DELTA_ACK -/

/-- PARITY_DELTA_ACK: the parity stack has applied the delta of a line that a running generation writes, and the new line becomes
readable (R251), unless a generation sent earlier between the same controllers has yet to arrive (R18). -/
def execParityDeltaAck (stack line : Nat) (s : State) : Host.Outcome State Fault Refusal :=
  let l := stack * 2 ^ 30 + line
  .next (match s.mm.slots.find? (fun x => x.started && !x.acked.contains l &&
      ((x.work.map (fun d => (s.parityLines x.island d).contains l)).getD false)) with
  | none => s
  | some x => match x.work with
    | none => s
    | some d =>
      if !s.sentBefore x d && d.srcRows.all (fun (r : Nat × Nat) => s.devReadable r.1 r.2) then
        let bs := (List.range 64).map (fun i => (l * 64 + i, s.ferryByte d (l * 64 + i)))
        let s1 := bs.foldl (fun s (p : Nat × Option Byte) => match p.2 with
          | some v => s.devWrite x.order p.1 v
          | none => s) s
        s1.putSlot { x with acked := x.acked ++ [l] }
      else s)

/-! ## FERRY_GENERATION_DONE -/

/-- Bytes at device addresses that function `f` reads or writes are charged to it, and to the stacks and objects they move through (R272,
R318). -/
def State.rowTraffic (s : State) (f : Nat) (write : Bool) (r : Nat × Nat) : State :=
  match tierOf r.1 with
  | .t2 => (partsOf r.1 r.2).foldl (fun s p =>
      let stack := p.1 / 2 ^ 20
      let who := ((s.granObj stack (p.1 % 2 ^ 20)).map (fun o => (o.func, o.handle))).getD (f, 0)
      s.granTraffic f who.1 who.2 stack (p.1 % 2 ^ 20) (if write then 0 else p.2) (if write then p.2 else 0)) s
  | .t3 => s.charge f (fun a => if write then { a with t3wr := a.t3wr + r.2 } else { a with t3rd := a.t3rd + r.2 })
  | _ => s

/-- The bytes of a generation. -/
def State.ferryTraffic (s : State) (island : Nat) (d : FerryDesc) : State :=
  (s.dstRows island d).foldl (fun s r => s.rowTraffic d.func true r) (d.srcRows.foldl (fun s r => s.rowTraffic d.func false r) s)

/-- The wait for a generation's data is attributed to the cause of its last input: its flash, or else the throttled stack (R271). -/
def State.ferryStall (s : State) (d : FerryDesc) : State :=
  if !(readUnits d).isEmpty then (s.count Reg.memT3Ev).stallUs Reg.memT3Us else if s.fromThrottled d then s.stallThermal else s

/-- Whether a merged generation must wait for the one it follows directly, which completes first (R269). -/
def State.mergeWaits (s : State) (x : SlotSt) (d : FerryDesc) : Bool :=
  x.merged && (s.flying x.island).any (fun y => decide (y.order < x.order) && match y.work with
    | some e => e.dst + e.len == d.dst && e.mergeOk
    | none => false)

/-- FERRY_GENERATION_DONE: the last byte of a generation is readable at its destination (R270). T3 reads must be served, T3 writes
durable, parity lines acknowledged, a multicast taken by every attached receiver, and every generation that an earlier start sent between
the same controllers must have arrived (R18). A write waits for a lock taken since the start (R33). A source that cannot be read stops the
generation with DATA_UNREADABLE after a free number of bytes. -/
def execFerryGenerationDone (island slot : Nat) (readable : Bool) (s : State) : Host.Outcome State Fault Refusal :=
  let x := s.slot island slot
  .next (match x.work with
  | none => s
  | some d =>
    if !x.started || s.mergeWaits x d || s.sentBefore x d ||
        (readUnits d).any (fun u => s.fl.reads.any (fun r => r.unit == u) || s.fl.rebuilding.contains u) then s
    else if s.ferryLocked island d then s.lockWait x
    else if !(readable && d.srcRows.all (fun (r : Nat × Nat) => s.devReadable r.1 r.2)) then
      let n := Config.pick s.fresh % d.bytes
      (({ s with fresh := s.fresh + 1 } : State).ferryCopy island x.order d n).stopGen x .unreadable
    else if (s.ferryUnits island d).any (fun u => s.fl.writes.any (fun w => w.unit == u)) ||
        (s.parityLines island d).any (fun l => !x.acked.contains l) ||
        (d.mode == 1 && s.sch.mcasts.any (fun m => m.sender == island && !m.weight)) then s
    else
      let s0 := (s.forwardedUnits x d).foldl (fun s u => s.mapUnit u.2 u.1) ((s.ferryCopy island x.order d d.bytes).ferryTraffic island d)
      let s1 := (s0.endGen x none).ferryStall d
      let s2 := if d.irq then s1.irq (pageBase (Reg.ferryMergeCnt island)) 0 else s1
      (if d.chain then s2.arm island d.next else s2).pruneFwds)

end Sys2Proof.Machine
end

