-- ==== Sys2Proof/Machine/Flash.lean ====
section
/-! DEFINITION. The flash tier and Vuindig (chapter 11): reads and rebuilds, durable writes, background moves, scrub, and start-up. -/

namespace Sys2Proof.Machine

/-- The map units whose present place lies in a block. -/
def State.blkUnits (s : State) (ch b : Nat) : List Nat :=
  (s.fl.map.filter (fun e => e.2 % 64 == ch && blockNo e.1 e.2 == b)).map (fun e => e.1)

/-- Whether something still needs a block's pages: a read issued before its unit moved away, a rebuild, a copy that is being made or read,
or a write that will be programmed there (R286). -/
def State.blkWanted (s : State) (ch b : Nat) : Bool :=
  let here (u p : Nat) : Bool := p % 64 == ch && blockNo u p == b
  s.fl.reads.any (fun r => here r.unit r.place) || s.fl.rebuilding.any (fun u => ((s.place? u).map (here u)).getD false) ||
  s.fl.moves.any (fun m => here m.unit m.src || here m.unit m.dst) || s.fl.writes.any (fun w => here w.unit w.place)

/-- The function that owns a map unit: of its object, or of the context that holds its spill frame. -/
def State.unitFunc (s : State) (u : Nat) : Nat :=
  if isSpillUnit u then ((s.kv.ctxs.find? (fun c => c.spill.contains ((u - 0x3C0000000) / 4))).map (fun c => c.func)).getD 0
  else ((s.mm.objs.find? (fun o => o.units.contains (u / 16))).map (fun o => o.func)).getD 0

/-- Writes a fault-log entry of the flash tier about a map unit. -/
def State.flashLog (s : State) (cls action u : Nat) : State := s.faultLog 0x0E 0 cls action (s.unitFunc u) (t3Addr (u * 4096))

/-- A map unit that cannot be read counts once (R288). -/
def State.loseUnit (s : State) (u : Nat) : State :=
  if s.fl.lost.contains u then s else
  (({ s with fl := { s.fl with lost := addOnce u s.fl.lost, rebuilding := s.fl.rebuilding.filter (fun x => x != u) } } : State).count
    Reg.vuindigUeCnt).flashLog 0x02 5 u

/-- Whether an object or a spill frame in use holds a map unit. -/
def State.unitHeld (s : State) (u : Nat) : Bool :=
  if isSpillUnit u then s.kv.ctxs.any (fun c => c.spill.contains ((u - 0x3C0000000) / 4)) else s.mm.objs.any (fun o => o.units.contains (u / 16))

/-- FLASH_READ_DONE: a read of a map unit completes in its channel's order, from the place that the unit had at its issue, after a map-cache
miss and up to seven retries (R279, R284, R286 to R288). A unit that fails every retry, or lies on a failed channel, is served from the
stripe buffer while its stripe is open (R282), or else goes to the rebuild of its stripe; a spill unit has none, and a group with two failed
channels cannot rebuild: they are lost (R289). A unit that was never written takes its map page alone. -/
def execFlashReadDone (unit retries : Nat) (readable : Bool) (s : State) : Host.Outcome State Fault Refusal :=
  .next (if !s.powered || !s.fl.ready then s
  else if (s.place? unit).isNone && !s.fl.reads.any (fun r => r.unit == unit) then (if s.unitHeld unit then s.mapLook unit else s)
  else match s.serveRead unit with
  | none => s
  | some (r, s0) =>
    let s1 := s0.readPage r retries
    if s1.buffered unit r.place || (readable && !s1.fl.failed.contains r.ch && s1.mapUnitReadable unit) then s1
    else if isSpillUnit unit || !s1.mapUnitReadable unit && (s1.fl.failed.filter (fun c => c / 16 == r.ch / 16)).length ≥ 2 then s1.loseUnit unit
    else if s1.fl.lost.contains unit then s1
    else { s1 with fl := { s1.fl with rebuilding := addOnce unit s1.fl.rebuilding } })

/-- Whether a rebuild has its turn: it is the first of its channel group, and no foreground read stands before it on the group's channels
(R284). -/
def State.rebuildTurn (s : State) (unit : Nat) : Bool :=
  let g (u : Nat) : Nat := ((s.place? u).getD 0) % 64 / 16
  s.fl.rebuilding.find? (fun u => g u == g unit) == some unit && !s.fl.reads.any (fun r => r.ch / 16 == g unit && r.ahead)

/-- STRIPE_REBUILD: a page that failed every retry is rebuilt from its stripe, rewritten, and its block marked; or it cannot be
(R288, R289, R405). -/
def State.onStripeRebuild (s : State) (unit : Nat) (ok : Bool) : State :=
  (if !s.fl.rebuilding.contains unit || !s.rebuildTurn unit then s else
  match s.place? unit with
  | none => s
  | some p =>
    let group := s.fl.failed.filter (fun c => c / 16 == p % 64 / 16)
    if ok && group.all (fun c => c == p % 64) then
      let x := s.blkAt unit p
      let y := { x with rebuilds := x.rebuilds + 1, marked := true }
      let s1 := if y.rebuilds ≥ 2 ∧ !x.retired then s.retireBlk y else s.putBlk y
      let s2 := ((s1.count Reg.vuindigRebuildCnt).count Reg.memT3rbEv).stallUs Reg.memT3rbUs
      let s3 : State := { s2 with fl := { s2.fl with rebuilding := s2.fl.rebuilding.filter (fun u => u != unit) } }
      ((s3.mapUnit 0 unit).flashWork (15 * 16384) 4096).flashLog 0x03 3 unit
    else s.loseUnit unit)

/-- STRIPE_REBUILD as a command. -/
def execStripeRebuild (unit : Nat) (ok : Bool) (s : State) : Host.Outcome State Fault Refusal := .next (s.onStripeRebuild unit ok)

/-- FLASH_WRITE_DURABLE: the page of a write and its map-journal page are programmed; the unit reads its old contents with the new bytes
merged in (R280, R282). The write must stand first among those of its channel, with no read served before it; the reads that waited for it
come next (R284). A spill's page is durable with SPILL_DURABLE. -/
def execFlashWriteDurable (unit : Nat) (s : State) : Host.Outcome State Fault Refusal :=
  .next (match s.fl.writes.find? (fun w => w.unit == unit) with
  | none => s
  | some w =>
    if !s.powered || !s.fl.ready || !s.writeTurn w || (w.copy && isSpillUnit unit) then s
    else
      let s1 := if w.copy then s else
        s.setBytes (t3Addr (unit * 4096)) ((List.range 4096).map (fun i => (w.bytes.getD i none).getD (s.flashByte (t3Addr (unit * 4096 + i)))))
      (s1.dropWrite w).endWrite w (if w.copy then 4096 else (w.bytes.filter Option.isSome).length))

/-- STRIPE_CLOSE_TIMEOUT: an open stripe reaches CLOSE_US and is padded with zero pages; it gets its parity when the pages it holds are
programmed (R282). -/
def execStripeCloseTimeout (group : Nat) (s : State) : Host.Outcome State Fault Refusal :=
  .next (match s.fl.stripes.find? (fun y => y.group == group && !y.shut) with
  | none => s
  | some x =>
    let s1 := s.elapseTo (x.opened + bits (s.rd Reg.vuindigStripeCfg) 13 0 * 1000)
    let pad := 4 * (s1.dataChs x.group x.no).length - x.units.length
    ({ s1 with fl := { s1.fl with
        programs := s1.fl.programs + pad
        nandBytes := if bit (s1.rd (pageBase Reg.vuindigStat + 0x0C)) 0 then s1.fl.nandBytes + pad * 4096 else s1.fl.nandBytes } } : State).putStripe
      { x with shut := true })

/-! ## Background work (R286, R287) -/

/-- Starts the move of one unit to a new place. -/
def State.startFMove (s : State) (k : FMoveKind) (u : Nat) : State :=
  match s.place? u with
  | none => s
  | some p =>
    let r := s.newPlace u
    match r.1 with
    | none => s
    | some q => { r.2 with fl := { r.2.fl with moves := r.2.fl.moves ++ [({ unit := u, src := p, dst := q, kind := k, susp := 0 } : FMove)] } }

/-- Starts background moves of the valid units of a block that are not already moving. -/
def State.startMoves (s : State) (ch b : Nat) (k : FMoveKind) : State :=
  ((s.blkUnits ch b).filter (fun u => !s.fl.moves.any (fun m => m.unit == u))).foldl (fun s u => s.startFMove k u) s

/-- Erases a block that holds nothing valid and that nothing needs any longer; it is free again, and writes that waited may go on. One that
fails the erase is retired (R288). -/
def State.eraseBlk (s : State) (ch b : Nat) : State :=
  let x := s.blk ch b
  if !x.used then s
  else
    let y := { x with used := false, erases := x.erases + 1, reads := 0, marked := false, backlog := false }
    let s1 : State := { s with fresh := s.fresh + 1 }
    let s2 := if Config.flashFails s.fresh && !x.retired then s1.retireBlk y else s1.putBlk y
    let s3 : State := if x.retired then s2 else { s2 with fl := { s2.fl with freeBytes := s2.fl.freeBytes + Config.blockBytes } }
    if s3.flashLow then s3 else { s3 with fl := { s3.fl with writes := s3.fl.writes.map (fun w => { w with waiting := false }) } }

/-- The blocks of a channel that hold valid units. -/
def State.usedBlks (s : State) (ch : Nat) : List Nat :=
  ((s.fl.map.filter (fun e => e.2 % 64 == ch)).map (fun e => blockNo e.1 e.2)).eraseDups

/-- Whether a channel has no request of a higher class than background work (R284). -/
def State.chQuiet (s : State) (ch : Nat) : Bool :=
  !s.chBusy ch && !s.fl.reads.any (fun r => r.ch == ch) && (s.firstWrite ch).isNone

/-- GC_STEP: garbage collection takes a block with the fewest valid units of its channel: it moves them away, or erases the block
when none is left and every read issued before has completed (R286, R287). -/
def execGcStep (channel block : Nat) (s : State) : Host.Outcome State Fault Refusal :=
  .next (if !s.powered || !s.fl.ready || !s.chQuiet channel then s else
  let us := s.blkUnits channel block
  if us.isEmpty then (if s.blkWanted channel block then s else s.eraseBlk channel block)
  else if (s.usedBlks channel).any (fun b => decide ((s.blkUnits channel b).length < us.length)) then s
  else s.startMoves channel block .gc)

/-- Whether the erase counts of a channel's blocks of one kind spread by more than 10 % of the rated cycles (R287, R290). -/
def State.wearSpread (s : State) (x : Blk) : Bool :=
  let es := (s.fl.blocks.filter (fun y => y.ch == x.ch && y.slc == x.slc && !y.retired)).map (fun y => y.erases)
  decide (es.foldl max 0 > x.erases + (if x.slc then 6000 else 300))

/-- WEAR_LEVEL_MOVE: the cold units of a little-erased block move when the erase counts of its channel spread too far (R287). -/
def execWearLevelMove (channel block : Nat) (s : State) : Host.Outcome State Fault Refusal :=
  .next (if s.powered && s.fl.ready && s.chQuiet channel && s.wearSpread (s.blk channel block) then s.startMoves channel block .wear else s)

/-- READ_DISTURB_RELOCATE: the hottest queued block of a channel is relocated (R287). -/
def execReadDisturbRelocate (channel : Nat) (s : State) : Host.Outcome State Fault Refusal :=
  .next (if !s.chQuiet channel then s else
  let hot := (s.fl.blocks.filter (fun y => y.ch == channel && y.marked)).foldl (fun (a : Option Blk) y => match a with
    | some x => if y.reads > x.reads then some y else a
    | none => some y) none
  match hot with
  | none => s
  | some x =>
    let s1 := (s.startMoves channel x.blk (if x.reads > Config.disturb then .disturb else .rebuilt)).putBlk
      { x with marked := false, backlog := false, reads := 0 }
    if x.reads > Config.disturb then s1.count Reg.vuindigRdRelocCnt else s1)

/-- MOVE_MAP_SWITCH: the map entry of a moved unit switches to the copy, unless a write has reached the unit meanwhile: then the copy
is dropped and counted (R286). A read that is served first suspends the copy's programming (R284). -/
def execMoveMapSwitch (unit : Nat) (s : State) : Host.Outcome State Fault Refusal :=
  .next (match s.fl.moves.find? (fun m => m.unit == unit) with
  | none => s
  | some m =>
    let ch := m.dst % 64
    if s.chBusy ch || s.firstMove ch != some m then s else
    let s1 := ({ s with fl := { s.fl with moves := s.fl.moves.erase m } } : State).releaseReads ch
    if s.place? unit = some m.src then (s1.settle unit m.dst 0).flashWork 4096 4096
    else (s1.stripeDone m.dst m.dst).count Reg.vuindigMoveDropCnt)

/-- FLASH_SCRUB_READ: scrub reads one programmed page of a channel, which counts on its block (R287, R398). Page 0 begins a pass, in which
rebuilds of a block count anew; a page that fails every retry goes to the rebuild of its stripe, and spill units of it are lost (R288). -/
def execFlashScrubRead (channel page : Nat) (r : ScrubResult) (s : State) : Host.Outcome State Fault Refusal :=
  .next (if !s.powered || !s.fl.ready || !s.chQuiet channel then s else
  let s0 : State := if page = 0 then
      { s with fl := { s.fl with blocks := updWhere (fun y => y.ch == channel) (fun y => { y with rebuilds := 0 }) s.fl.blocks } }
    else s
  let us := s.fl.map.filter (fun e => e.2 % 64 == channel && e.2 / 64 / 4 == page)
  match us with
  | [] => s0
  | e :: _ =>
    let s1 := (s0.countRead e.1 e.2).flashWork 16384 0
    match r with
    | .clean => s1
    | .corrected => s1.flashLog 0x01 1 e.1
    | .uncorrectable => us.foldl (fun s u => if s.buffered u.1 u.2 then s else if isSpillUnit u.1 then s.loseUnit u.1
        else { s with fl := { s.fl with rebuilding := addOnce u.1 s.fl.rebuilding } }) (s1.count Reg.vuindigReadRetryCnt 7))

/-- FLASH_CHANNEL_FAIL: a channel fails; its group serves its reads by rebuild, and its spill frames cannot be read (R289). -/
def execFlashChannelFail (channel : Nat) (s : State) : Host.Outcome State Fault Refusal :=
  .next (if !s.powered || decide (channel ≥ 64) || s.fl.failed.contains channel then s
  else ({ s with fl := { s.fl with failed := s.fl.failed ++ [channel] } } : State).faultLog 0x0E 0 0x08 0 0 0)

/-! ## Start-up (R294 Table 5) -/

/-- VUINDIG_SYSTEM_READ_DONE: the controllers have read the system area header, the bad blocks and the stored SPILL_256G. -/
def execVuindigSystemReadDone (s : State) : Host.Outcome State Fault Refusal :=
  .next (if s.powered then { s with fl := { s.fl with sysRead := true } } else s)

/-- The map cache's granules: CACHE_GIB × 16,384 of them, from a stack of free choice on (R279). -/
def State.takeCache (s : State) : State :=
  let n := bits (s.rd Reg.vuindigMapCfg) 5 0 * 16384
  let st := Config.pick s.fresh % 32
  let r := (List.range 32).foldl (fun (a : List GranRun × Nat) i =>
    let k := (st + i) % 32
    if a.2 = 0 ∨ s.flt.failedStacks.contains k then a
    else
      let rs := s.topRuns k a.2
      (a.1 ++ rs, a.2 - runTotal rs)) ([], n)
  { s with fl := { s.fl with cacheGrans := r.1 }, fresh := s.fresh + 1 }

/-- SPILL_REGION_READY: every spill frame is free and the first erases are done (R294). -/
def execSpillRegionReady (s : State) : Host.Outcome State Fault Refusal :=
  .next (if s.fl.ready then { s with fl := { s.fl with spillReady := true } } else s)

end Sys2Proof.Machine
end

