-- ==== Sys2Proof/Machine/Contexts.lean ====
section
/-! DEFINITION. What an abort takes back of each command (R341), and contexts and channels: the CTX command and the ends of RETIRE and
CH_CLOSE (R298 to R305). -/

namespace Sys2Proof.Machine

/-! ## Commit points and aborts (R341) -/

/-- Whether an ABORT that names a live command would be answered ABORTED: the command has not committed, by the commit point of its
own chapter. -/
def State.canAbort (s : State) (l : Live) : Bool :=
  let r := l.h.ref
  let o := l.h.opcode
  if l.stage == .awaiting then o != Op.abort
  else if o = Op.abort ∨ o = Op.ctx ∨ o = Op.indexLoad ∨ o = Op.indexSave ∨ o = Op.indexUnload ∨ o = Op.modelLoad ∨ o = Op.modelUnload then false
  else if l.stage == .held || l.stage == .delivered then true
  else if o = Op.mutate then s.mutateAbortable r
  else if o = Op.indexCompact ∨ o = Op.step then !l.committed
  else if o = Op.seqOpen then s.gen.seqs.any (fun q => q.openCmd == some r && !q.began)
  else if o = Op.kv then s.kv.runs.any (fun x => x.r == r && decide (x.handled = 0))
  else true

/-- Takes a sequence whose SEQ_OPEN is aborted out of the steps in flight and frees its slot (R239). -/
def State.undoSeqOpen (s : State) (slot : Nat) : State :=
  let s1 := s.gen.cohorts.foldl (fun s k => (List.range k.entries.length).foldl (fun s e =>
    if ((k.entries[e]?).map (fun x => x.seq == slot && x.status == Status.ok)).getD false then
      (s.updEntry k.slot e (fun x => { x with status := Status.aborted })).leaveStep k.slot e
    else s) s) s
  s1.freeSeq slot

/-- Drops a selection: its tasks leave their queues and its sorted runs give their lagoon units back. -/
def State.dropSel (s : State) (r : CmdRef) : State :=
  match s.sel? r with
  | some _ => (({ s with idx := { s.idx with sels := s.idx.sels.filter (fun z => z.r != r) } } : State).seqOver
      (fun t => t.cmd == some r)).dropRuns (fun x => x.cmd == r)
  | none => s

/-- Drops a MEM command; those that waited for its object run. -/
def State.dropMem (s : State) (r : CmdRef) : State :=
  let s1 := s.dropMemOp r
  let s2 : State := { s1 with mm := { s1.mm with waits := s1.mm.waits.filter (fun w => w.h.ref != r) } }
  match s.memOp? r with
  | some x => s2.runMemWaits x.owner x.handle
  | none => s2

/-- Drops a STEP command and the cohort steps it opened. -/
def State.dropSteps (s : State) (r : CmdRef) : State :=
  let s1 : State := { s with gen := { s.gen with steps := s.gen.steps.filter (fun x => x != r) } }
  (s1.gen.cohorts.filter (fun k => k.cmd == some r)).foldl (fun s k => s.discardStep k.slot) s1

/-- Takes back the sequences that a SEQ_OPEN command opened. -/
def State.dropOpens (s : State) (r : CmdRef) : State :=
  (s.gen.seqs.filter (fun q => q.openCmd == some r)).foldl (fun s q => s.undoSeqOpen q.slot) s

/-- Discards everything staged for an uncommitted command, as its chapter gives for ABORTED; the command itself stays live for the
caller to answer or hold. -/
def State.discard (s : State) (l : Live) : State :=
  let r := l.h.ref
  let o := l.h.opcode
  let s0 := s.dropTasks (fun t => t.cmd == some r)
  if o = Op.search then s0.dropQuery r
  else if o = Op.mutate then s0.dropMutate r
  else if o = Op.select then
    s0.dropSel r
  else if o = Op.step then
    s0.dropSteps r
  else if o = Op.seqOpen then s0.dropOpens r
  else if o = Op.seqClose then
    { s0 with gen := { s0.gen with seqs := s0.gen.seqs.map (fun q => if q.closeCmd = some r then { q with closeCmd := none } else q) } }
  else if o = Op.kv then s0.dropMoves r
  else if o = Op.mem then
    s0.dropMem r
  else if o = Op.indexCompact then
    { s0 with idx := { s0.idx with passes := s0.idx.passes.map (fun p => { p with cmds := p.cmds.filter (fun x => x != r) }) } }
  else s0

/-- The completion header of R300. -/
def ctxHdr (status ctx slot first : Nat) : Body := leBytes 16 (status + ctx * 2 ^ 8 + slot * 2 ^ 16 + first * 2 ^ 20)

/-- The completion body of a command that ends with a status before it has a result: its result header where its chapter gives one
(R128, R159, R214, R240, R258, R300). -/
def State.endBody (s : State) (l : Live) (status : Nat) : Body :=
  let b := l.body
  let o := l.h.opcode
  if o = Op.mutate then leBytes 16 (status + fld b 27 16 * 2 ^ 16)
  else if o = Op.select then selHdr status 0 0 0
  else if o = Op.kv then kvBody status 0 0
  else if o = Op.step then stepRefusal b status s.gen.stepNo
  else if o = Op.mem then s.memAbout l.h.func (memHandle b) status
  else if o = Op.ctx then ctxHdr status (if fld b 3 0 = 1 ∨ fld b 3 0 = 6 then 0 else fld b 13 8) 0 0
  else []

/-! ## The CTX command -/

def ctxOp (b : Body) : Nat := fld b 3 0
def ctxId (b : Body) : Nat := fld b 13 8
def ctxCh (b : Body) : Nat := fld b 71 64

/-- The reserved values and ranges of R300 Table 2. -/
def chkCtx : BodyCheck := fun _ _ b =>
  let o := ctxOp b
  if o = 0 ∨ o > 6 ∨ fld b 7 6 ≠ 0 ∨ fld b 15 14 ≠ 0 ∨ fld b 23 19 ≠ 0 ∨ fld b 31 31 ≠ 0 ∨ fld b 511 72 ≠ 0 ∨
      (o = 1 ∧ (fld b 30 24 = 0 ∨ fld b 30 24 > 112)) then
    some (Status.ctxParam, ctxHdr Status.ctxParam (if o = 1 ∨ o = 6 then 0 else ctxId b) 0 0)
  else none

/-- OPEN: the lowest free context (R301). -/
def State.ctxOpen (s : State) (r : CmdRef) (f : Nat) (b : Body) : State :=
  let free := (List.range 64).find? (fun i => !s.sch.ctxs.any (fun c => c.id == i))
  let mine := (s.sch.ctxs.filter (fun c => c.func == f)).length
  match free with
  | none => s.complete r Status.ctxLimit (ctxHdr Status.ctxLimit 0 0 0)
  | some i =>
    if mine ≥ bits (s.rd (Reg.schedFuncCfg f)) 14 8 then s.complete r Status.ctxLimit (ctxHdr Status.ctxLimit 0 0 0)
    else
      let c : Ctx :=
        { id := i, func := f, prio := fld b 5 4, slices := fld b 18 16 + 1, units := fld b 30 24,
          seed := if fld b 63 32 = 0 then 0x5EED0001 else fld b 63 32, st := .waiting, slot := 0, first := 0, retire := none,
          since := s.now, done := 0 }
      ({ s with sch := { s.sch with ctxs := s.sch.ctxs ++ [c] } } : State).complete r Status.ok (ctxHdr Status.ok i 0 0)

/-- The contexts that hold a slot. -/
def State.residents (s : State) : List Ctx := s.sch.ctxs.filter (fun c => c.st != .waiting)

/-- The lowest free range of `n` slices (R299). -/
def State.sliceRange (s : State) (n : Nat) : Option Nat :=
  (List.range (9 - n)).find? (fun i => s.residents.all (fun c => !overlaps i n c.first c.slices))

/-- The largest PREFILL_BUF_KIB of the dies (R254). -/
def State.prefillKib (s : State) : Nat := (List.range 4).foldl (fun m d => max m (bits (s.rd (Reg.attnBufCfg d)) 31 16)) 0

/-- The CTX command with OP 2: the lowest free slot, the lowest free slices that are long enough, and the share, taken whole or not at all (R253, R254,
R299); held commands go on (R304). -/
def State.ctxAdmit (s : State) (r : CmdRef) (b : Body) (c : Ctx) : State :=
  let no (s : State) (st : Nat) : State := s.complete r st (ctxHdr st c.id 0 0)
  match (List.range 8).find? (fun k => !s.residents.any (fun x => x.slot == k)), s.sliceRange c.slices with
  | none, _ => no s Status.noSlot
  | _, none => no s Status.sliceFull
  | some k, some i =>
    if c.units * 16 < s.prefillKib + 64 then no s Status.lagoonFull
    else
      match s.takeShare (.ctx k) none c.units with
      | (s1, false) => no s1 Status.lagoonFull
      | (s1, true) =>
        let s2 := s1.updCtx c.id (fun c => { c with st := .resident, slot := k, first := i, since := s.now })
        (s2.complete r Status.ok (ctxHdr Status.ok (ctxId b) k i)).releaseHeld

/-- The live commands of a context's channels. -/
def State.ctxLive (s : State) (ctx : Nat) : List Live :=
  s.cmd.live.filter (fun l => match l.h.queue with
    | some c => ((s.chan? c).map (fun x => x.ctx == ctx)).getD false
    | none => false)

/-- Whether a live command is the SEQ_OPEN of a flow sequence that stays open over a RETIRE (R302). -/
def Live.flowOpen (l : Live) : Bool := l.h.opcode == Op.seqOpen && l.stage == .running

/-- Takes a command that has not committed back to its channel, at the head of those held. -/
def State.holdBack (s : State) (l : Live) : State :=
  let s3 := s.discard l
  let s4 : State := { s3 with cmd := { s3.cmd with deliver := s3.cmd.deliver.filter (fun d => d.2 != Stream.cmd l.h.ref) } }
  let s5 := s4.updLive l.h.ref (fun l => { l with stage := .held })
  s5.updChan l.h.channel (fun x => { x with held := l.h.ref :: x.held.erase l.h.ref })

/-- RETIRE: running tasks are killed, a flow cohort's step is discarded, and every command that an ABORT would still take back returns
unstamped to the front of its channel's holding queue, in stamp order (R302). -/
def State.ctxRetire (s : State) (r : CmdRef) (c : Ctx) : State :=
  let s1 := (s.updCtx c.id (fun c => { c with st := .retiring, retire := some r })).killTasks (fun t => t.ctx == some c.id)
  let s2 := (s1.gen.cohorts.filter (fun k => k.ctx == c.id && k.flow.isSome)).foldl (fun s k => s.discardStep k.slot) s1
  let back := sortBy (fun (l : Live) => l.order) ((s2.ctxLive c.id).filter (fun l =>
    (l.stage == .running || l.stage == .delivered || l.stage == .staged) && !l.flowOpen && s2.canAbort l))
  back.reverse.foldl (fun s l => s.holdBack l) s2

/-- CLOSE: a waiting context with nothing in it becomes free (R301). -/
def State.ctxClose (s : State) (r : CmdRef) (c : Ctx) : State :=
  if c.st != .waiting || s.sch.chans.any (fun x => x.ctx == c.id) || s.gen.seqs.any (fun q => q.ctx == c.id) || (s.kv? c.id).isSome ||
      !(s.ctxLive c.id).isEmpty then
    s.complete r Status.ctxBusy (ctxHdr Status.ctxBusy c.id 0 0)
  else ({ s with sch := { s.sch with ctxs := s.sch.ctxs.filter (fun x => x.id != c.id) } } : State).complete r Status.ok (ctxHdr Status.ok c.id 0 0)

/-- Whether a FLOW_CH entry makes a channel of a function a flow channel (R305). -/
def State.flowEntry (s : State) (f ch : Nat) : Bool :=
  (List.range 4).any (fun j => let w := s.rd (Reg.schedFlowCh j); bit w 15 && bits w 11 8 == f && bits w 7 0 == ch)

/-- CH_OPEN (R303): the channel gets an ingress island by a free choice among those not fenced (R24). -/
def State.chanOpen (s : State) (r : CmdRef) (f ring src : Nat) (b : Body) (c : Ctx) : State :=
  let no (st : Nat) : State := s.complete r st (ctxHdr st c.id 0 0)
  if (s.chan? (ctxCh b)).isSome then no Status.chBusy
  else if (s.sch.chans.filter (fun x => x.func == f)).length ≥ bits (s.rd (Reg.schedFuncCfg f)) 24 16 then no Status.chLimit
  else
    let (i, s1) := s.draw s.islandsUp
    let x : Chan :=
      { num := ctxCh b, func := f, ctx := c.id, island := i.getD 0, flow := s.flowEntry f (ctxCh b), ring := ring, closing := none, held := [],
        newIsland := none, src := src }
    (({ s1 with sch := { s1.sch with chans := s1.sch.chans ++ [x] } } : State).addMark x.island).complete r Status.ok (ctxHdr Status.ok c.id 0 0)

/-- CH_CLOSE (R303): the channel takes no more commands, and closes when every command accepted on it has completed. -/
def State.chanClose (s : State) (r : CmdRef) (f : Nat) (b : Body) : State :=
  match (s.chan? (ctxCh b)).filter (fun x => x.func == f && x.closing.isNone) with
  | none => s.complete r Status.chNotOpen (ctxHdr Status.chNotOpen 0 0 0)
  | some x =>
    if s.gen.seqs.any (fun q => q.chan == x.num && (!q.ended || q.keep)) then s.complete r Status.ctxBusy (ctxHdr Status.ctxBusy 0 0 0)
    else s.updChan x.num (fun x => { x with closing := some r })

/-- What a stamped CTX command does: the checks of R300 on its context, and its operation (R301). -/
def actCtx : CmdAct := fun r l s =>
  let b := l.body
  let f := l.h.func
  match chkCtx s l.h b with
  | some (st, body) => s.complete r st body
  | none =>
    if ctxOp b = 1 then s.ctxOpen r f b
    else if ctxOp b = 6 then s.chanClose r f b
    else match (s.ctx? (ctxId b)).filter (fun c => c.func == f) with
    | none => s.complete r Status.ctxParam (ctxHdr Status.ctxParam (ctxId b) 0 0)
    | some c =>
      let bad := s.complete r Status.ctxParam (ctxHdr Status.ctxParam (ctxId b) 0 0)
      match ctxOp b with
      | 2 => if c.st = .waiting then s.ctxAdmit r b c else bad
      | 3 => if c.st = .resident then s.ctxRetire r c else bad
      | 4 => s.ctxClose r c
      | _ => s.chanOpen r f l.h.ring l.h.srcOrd b c

def isOpenCtx : CmdHdr → Body → Bool := opRow Op.ctx (fun o => o ≤ 1 || o ≥ 7) 3 0
def isAdmitCtx : CmdHdr → Body → Bool := opRow Op.ctx (fun o => o == 2) 3 0
def isRetire : CmdHdr → Body → Bool := opRow Op.ctx (fun o => o == 3) 3 0
def isClose : CmdHdr → Body → Bool := opRow Op.ctx (fun o => o == 4) 3 0
def isChOpen : CmdHdr → Body → Bool := opRow Op.ctx (fun o => o == 5) 3 0
def isChClose : CmdHdr → Body → Bool := opRow Op.ctx (fun o => o == 6) 3 0

/-- OPEN: the lowest free context ID is taken (R301). A CTX body with a reserved OP is refused here. -/
def execOpenCtx (h : CmdHdr) (b : Body) (s : State) : Host.Outcome State Fault Refusal := .next (s.command isOpenCtx chkCtx actCtx h b)

/-- CTX with OP 2: a waiting context becomes resident (R299). -/
def execAdmitCtx (h : CmdHdr) (b : Body) (s : State) : Host.Outcome State Fault Refusal := .next (s.command isAdmitCtx chkCtx actCtx h b)

/-- RETIRE: a resident context begins to retire (R302). -/
def execRetire (h : CmdHdr) (b : Body) (s : State) : Host.Outcome State Fault Refusal := .next (s.command isRetire chkCtx actCtx h b)

/-- CLOSE: an unused waiting context becomes free (R301). -/
def execClose (h : CmdHdr) (b : Body) (s : State) : Host.Outcome State Fault Refusal := .next (s.command isClose chkCtx actCtx h b)

/-- CH_OPEN: binds a channel to a context (R303). -/
def execChOpen (h : CmdHdr) (b : Body) (s : State) : Host.Outcome State Fault Refusal := .next (s.command isChOpen chkCtx actCtx h b)

/-- CH_CLOSE: stops a channel's intake (R303). -/
def execChClose (h : CmdHdr) (b : Body) (s : State) : Host.Outcome State Fault Refusal := .next (s.command isChClose chkCtx actCtx h b)

/-- RETIRE_DONE: the stamped commands of a retiring context have completed; its slot, slices and share are released and the RETIRE
completes (R302 steps 4 and 5). -/
def execRetireDone (ctx : Nat) (s : State) : Host.Outcome State Fault Refusal :=
  .next (match (s.ctx? ctx).filter (fun c => c.st == .retiring) with
  | none => s
  | some c =>
    if (s.ctxLive ctx).any (fun l => (l.stage == .running || l.stage == .staged) && !l.flowOpen) || s.sch.tasks.any (fun t => t.ctx == some ctx && t.islet.isSome) then s
    else
      let s1 := (s.dropShare (.ctx c.slot)).updCtx ctx (fun c => { c with st := .waiting, slot := 0, first := 0, retire := none, since := s.now })
      match c.retire with
      | some r => s1.complete r Status.ok (ctxHdr Status.ok ctx 0 0)
      | none => s1)

/-- CH_CLOSE_DONE: every command accepted on a closing channel has completed; the channel is closed and CH_CLOSE completes (R303). -/
def execChCloseDone (ch : Nat) (s : State) : Host.Outcome State Fault Refusal :=
  .next (match s.chan? ch with
  | none => s
  | some x => match x.closing with
    | none => s
    | some r =>
      if s.cmd.live.any (fun l => l.h.queue == some ch) then s
      else
        let s1 : State := { s with
          sch := { s.sch with chans := s.sch.chans.filter (fun y => y.num != ch) }
          cmd := { s.cmd with hints := s.cmd.hints.filter (fun y => y.chan != some ch) } }
        s1.complete r Status.ok (ctxHdr Status.ok x.ctx 0 0))

end Sys2Proof.Machine
end

