-- ==== Sys2Proof/Machine/Power.lean ====
section
/-! DEFINITION. Power states, power-up and power-down, wake pins, the power cap and the coolant loop (chapter 15), with
the pins of chapter 19. Time operands are in ns. -/

namespace Sys2Proof.Machine

/-! ## What a loss of power keeps -/

/-- The bits of register `a` that a device reset keeps: fields whose reset is Stored, Watch, Fuses or Strap, and
EVENTS.BROWNOUT with its latch (R397, R412 Table 5). FUNC.RESET_CNT is cleared by a device reset. -/
def keepMask (a : Nat) : Nat :=
  if a = Reg.pwrEvents then 0x3F
  else match rowOf a with
    | some r => if r.page = 0x11 then 0 else r.keep
    | none => 0

/-- The registers after a device reset. -/
def keepRegs (m : List (Nat × Word)) : List (Nat × Word) :=
  m.foldl (fun acc e => let k := BitVec.ofNat 32 (keepMask e.1)
    mapPut (resetWord e.1) e.1 ((e.2 &&& k) ||| (resetWord e.1 &&& ~~~k)) acc) []

/-- The registers of the PWR page that a watch-domain reset clears: every Watch field (R387, R412). -/
def clearWatch (m : List (Nat × Word)) : List (Nat × Word) :=
  m.filter (fun e => !(decide (0x2000 ≤ e.1) && decide (e.1 < 0x3000)) || e.1 == Reg.pwrBrownoutCnt)

/-- Every main domain loses power: DRAM, lagoons, islet memory and all volatile state are gone; flash, the stored lists,
fuses, keys at rest and the watch domain stay (R377, R412 Table 5). -/
def State.darken (s : State) : State :=
  { State.reset with
    pending := s.pending, outbox := s.outbox, fresh := s.fresh, clock := s.clock, regs := keepRegs s.regs, fix := s.fix
    pwr := { PwrSt.reset with
      st := .watch, rdy := 0, fullMode := false, upStep := 0, coolWait := s.pwr.coolWait, pufails := s.pwr.pufails,
      wakeNoted := s.pwr.wakeNoted, resetHeld := s.pwr.resetHeld, perst := s.pwr.perst, inputGood := s.pwr.inputGood,
      lastWake := s.pwr.lastWake, heldWake := s.pwr.heldWake, pins := s.pwr.pins, valve := 20000 }
    flt := { FaultSt.reset with
      flashRing := s.flt.flashRing, storedList := s.flt.storedList, fenceList := s.flt.storedList }
    mm := { MemSt.reset with
      retired := s.mm.retiredStored, retiredStored := s.mm.retiredStored, intakeMiB := bits (s.rd Reg.cmdIntakeCfg) 12 0 }
    fl := { FlashSt.reset with
      map := s.fl.map.filter (fun e => decide (e.1 < 0x3C0000000)), nextPlace := s.fl.nextPlace, blocks := s.fl.blocks,
      lost := s.fl.lost.filter (fun u => decide (u < 0x3C0000000)), freeBytes := s.fl.freeBytes,
      programs := s.fl.programs, slcPrograms := s.fl.slcPrograms }
    zwx := { State.reset.zwx with framed := s.outbox.length }
    mem := s.mem.filter (fun e => decide (e.1 ≥ 0x400000000000) && decide (e.1 < 0x7C0000000000))
    sec := { SecSt.reset with
      slotA := if (s.mgmt.update.map (fun u => !u.slotB && !u.applied)).getD false then [] else s.sec.slotA,
      slotB := if (s.mgmt.update.map (fun u => u.slotB && !u.applied)).getD false then [] else s.sec.slotB,
      minSvn := s.sec.minSvn, revoked := s.sec.revoked, keyHashes := s.sec.keyHashes, debugHash := s.sec.debugHash,
      idevid := s.sec.idevid, atRest := s.sec.atRest, nextKey := s.sec.nextKey } }

/-- Sets LAST_DOWN: the cause of an entry to WATCH, and for PUFAIL the step (R383). -/
def State.lastDown (s : State) (cause step : Nat) : State := s.wr Reg.pwrLastDown (step * 16 + cause)

/-- Sets bits of PWR.EVENTS. -/
def State.setEvents (s : State) (mask : Nat) : State := s.wr Reg.pwrEvents (s.rd Reg.pwrEvents ||| mask)

/-- Whether power-up or power-down has main domains on, or they run (R385). -/
def State.mainOn (s : State) : Bool :=
  match s.pwr.st with
  | .off => false
  | .watch => decide (s.pwr.upStep ≥ 2) || s.pwr.downCause.isSome
  | _ => true

/-! ## Wake events -/

/-- The sources of a power-up (R381, R388). -/
inductive WakeSrc where
  | pin | mgmt | auto | link
  deriving DecidableEq, Repr

/-- Whether a source is answered: AUTO_ON and signal detect are ignored after three failed power-ups and while
EVENTS.TRIP is set (R381, R389). -/
def State.answers (s : State) (src : WakeSrc) : Bool :=
  match src with
  | .pin => true
  | .mgmt => true
  | _ => decide (s.pwr.pufails < 3) && !bit (s.rd Reg.pwrEvents) 0

/-- Starts the power-up sequence at step 1 (R381). -/
def State.startUp (s : State) : State :=
  { s with pwr := { s.pwr with upStep := 1, coolWait := false, wakeNoted := false } }

/-- A wake event: it starts the power-up from WATCH, waits for RESET_N and for the end of a power-down (R386, R454). -/
def State.wake (s : State) (src : WakeSrc) : State :=
  if !s.answers src then s
  else if s.pwr.downCause.isSome then { s with pwr := { s.pwr with wakeNoted := true } }
  else if s.pwr.st ≠ .watch ∨ s.pwr.upStep ≠ 0 then s
  else if s.pwr.resetHeld then { s with pwr := { s.pwr with wakeNoted := true } }
  else s.startUp

/-- The delivery of a wake event of a pin (R390): it counts, and in RUN, CAP and HOLD it sets WAKE_STAT.PENDING and the
WAKE interrupt and changes no state. -/
def State.deliverWake (s : State) : State :=
  let s1 := ({ s with pwr := { s.pwr with lastWake := some s.clock, heldWake := false } }).count Reg.pwrWakeCnt
  if s1.pwr.st = .run ∨ s1.pwr.st = .cap ∨ s1.pwr.st = .hold then
    (s1.wr Reg.pwrWakeStat (setBits (s1.rd Reg.pwrWakeStat) 12 12 1)).irq (basePage 3 0) 0
  else s1.wake .pin

/-- Replaces one pin. -/
def State.updPin (s : State) (i : Nat) (f : PinSt → PinSt) : State :=
  { s with pwr := { s.pwr with pins := updAt i f s.pwr.pins } }

/-- DEBOUNCE_US of a pin, in ns. -/
def State.debounceNs (s : State) (i : Nat) : Nat := bits (s.rd (Reg.pwrWakeCfg i)) 29 16 * 1000

/-- WAKE_PIN_CHANGE: the pin's level changes. A change back before DEBOUNCE_US is a glitch (R390). -/
def execWakePinChange (pin : Nat) (level : Bool) (s : State) : Host.Outcome State Fault Refusal :=
  .next (match s.pwr.pins[pin]? with
  | none => s
  | some p =>
    let active := level == bit (s.rd (Reg.pwrWakeCfg pin)) 1
    if s.pwr.st = .off ∨ active = p.active then s
    else if !bit (s.rd (Reg.pwrWakeCfg pin)) 0 then s.updPin pin (fun p => { p with active := active, changedAt := none })
    else if active = p.accepted then
      let s1 := s.updPin pin (fun p => { p with active := active, changedAt := none })
      match p.changedAt with
      | some t => if s.clock - t < s.debounceNs pin then s1.count Reg.pwrGlitchCnt else s1
      | none => s1
    else s.updPin pin (fun p => { p with active := active, changedAt := some s.clock }))

/-- DEBOUNCE_EXPIRE: the level has held for DEBOUNCE_US and is accepted. An accepted activation of an unmasked pin is a
wake event, held when it falls within 10 ms of the last; an accepted release ends the mask, and the STUCK bit of a
re-armed pin (R390). -/
def execDebounceExpire (pin : Nat) (s : State) : Host.Outcome State Fault Refusal :=
  .next (match s.pwr.pins[pin]? with
  | none => s
  | some p =>
    match p.changedAt with
    | none => s
    | some t =>
      if s.pwr.st = .off then s else
      let s1 := s.elapseClock (t + s.debounceNs pin)
      if p.active then
        let fires := !p.masked && !p.stuck
        let s2 := s1.updPin pin (fun p => { p with accepted := true, changedAt := none, masked := true, acceptedAt := s1.clock })
        if !fires then s2
        else match s2.pwr.lastWake with
          | some w => if s2.clock - w < 10000000 then { s2 with pwr := { s2.pwr with heldWake := true } } else s2.deliverWake
          | none => s2.deliverWake
      else if p.stuck && !p.rearm then s1.updPin pin (fun p => { p with accepted := false, changedAt := none })
      else s1.updPin pin (fun p => { p with accepted := false, changedAt := none, masked := false, stuck := false, rearm := false }))

/-- WAKE_HOLD_EXPIRE: the held events are delivered as one, 10 ms after the previous wake event (R390). -/
def execWakeHoldExpire (s : State) : Host.Outcome State Fault Refusal :=
  .next (match s.pwr.heldWake, s.pwr.lastWake with
  | true, some w => (s.elapseClock (w + 10000000)).deliverWake
  | _, _ => s)

/-- The watch-domain time at which 2^STUCK_EXP management periods from the first that began after `at_` have ended. While the main
domains are off the watch domain counts 1 ms ticks of its own oscillator, from LOGIC_RDY on periods begin at whole milliseconds of device
time; the ticks that ended before LOGIC_RDY stay counted (R390). -/
def State.stuckDue (s : State) (at_ : Nat) : Nat :=
  let n := 2 ^ bits (s.rd Reg.pwrWatchCfg) 15 12
  let base := if s.powered then s.clock - s.now else 0
  if base ≤ at_ then ((at_ - base) / 1000000 + 1 + n) * 1000000 + base
  else
    let ended := base / 1000000 - (at_ / 1000000 + 1)
    if n ≤ ended then (at_ / 1000000 + 1 + n) * 1000000 else base + (n - ended) * 1000000

/-- STUCK: the pin has stayed active through 2^STUCK_EXP management periods from the first that began after its
acceptance (R390); the event is also reported to management as code 0x11 (R446). -/
def execStuck (pin : Nat) (s : State) : Host.Outcome State Fault Refusal :=
  .next (match s.pwr.pins[pin]? with
  | none => s
  | some p =>
    if s.pwr.st = .off || !p.accepted || !p.active || p.stuck then s
    else
      (((s.elapseClock (s.stuckDue p.acceptedAt)).updPin pin (fun p => { p with stuck := true, masked := true })).setEvents 0x20).mgmtEvent
        (.oem 0xFB [0x11, pin]))

/-- A stuck pin that is rearmed: at once if it is inactive, else when it next is. -/
def PinSt.rearmed (p : PinSt) : PinSt :=
  if !p.stuck then p
  else if !p.accepted then { p with stuck := false, masked := false, rearm := false }
  else { p with rearm := true }

/-- Re-arms the named stuck pins (R390). -/
def State.rearmPins (s : State) (data : Nat) : State :=
  (List.range 4).foldl (fun s i =>
    if !bit data i then s else s.updPin i PinSt.rearmed) s

/-- REARM: a write of WAKE_CTL.REARM re-arms each named stuck pin once its inactive level has been accepted; the host
path is denied (R390, R434). -/
def execRearm (p : Path) (data : Nat) (s : State) : Host.Outcome State Fault Refusal :=
  .next (if !s.powered then s
  else if p = .host then s.count Reg.mgmtHostDenyCnt
  else s.rearmPins data)

/-- Writes the coolant registers from a reading (R397); the valve byte is the opening in whole percent. -/
def State.coolRegs (s : State) (r : CoolReading) : State :=
  ((s.wr Reg.pwrCoolStat (r.inlet % 256 + r.outlet % 256 * 2 ^ 8 + r.flow % 256 * 2 ^ 16 + s.pwr.valve / 200 * 2 ^ 24)).wr
    Reg.pwrPress (r.inPress % 4096 + r.outPress % 4096 * 2 ^ 16)).wr Reg.pwrPumpHz (r.pumpHz % 65536)

/-- WATCH_SAMPLE: in WATCH the watch domain samples the coolant and the signal detect of the ports of LINK_DET every
PERIOD_MS; a detected signal is a wake event (R388). -/
def execWatchSample (signal : Nat) (r : CoolReading) (s : State) : Host.Outcome State Fault Refusal :=
  .next (if s.pwr.st ≠ .watch ∨ s.pwr.upStep ≠ 0 then s
  else
    let s1 := (s.elapseClock (s.clock + bits (s.rd Reg.pwrWatchCfg) 7 0 * 1000000)).coolRegs r
    if signal &&& bits (s.rd Reg.pwrWatchCfg) 23 16 ≠ 0 then s1.wake .link else s1)

/-- I3C_ADDRESS_MATCH: in WATCH the transaction is not acknowledged; with MGMT_WAKE = 1 it wakes the module (R443). During a power-down
the wake event is recorded (R386). -/
def execI3cAddressMatch (s : State) : Host.Outcome State Fault Refusal :=
  .next (if (s.pwr.st = .watch ∨ s.pwr.downCause.isSome) ∧ bit (s.rd Reg.pwrWatchCfg) 9 then s.wake .mgmt else s)

/-- INPUT_GOOD: the 48 V input becomes good; with AUTO_ON = 1 that is a wake event (R388). -/
def execInputGood (s : State) : Host.Outcome State Fault Refusal :=
  let s1 := { s with pwr := { s.pwr with inputGood := true } }
  .next (if s.pwr.st ≠ .off ∧ bit (s.rd Reg.pwrWatchCfg) 8 then s1.wake .auto else s1)

/-- INPUT_FAIL: every main domain is clamped and powered off at once, with cause INPUT (R385). Accepted commands are
lost without completion. A wake event recorded during a power-down that this ends starts the power-up, whose checks wait for
the input (R386). -/
def execInputFail (s : State) : Host.Outcome State Fault Refusal :=
  let s1 := { s with pwr := { s.pwr with inputGood := false } }
  .next (if s.mainOn then
    let s2 := (s1.darken.setEvents 0x04).lastDown 3 0
    if s2.pwr.wakeNoted && !s2.pwr.resetHeld then s2.startUp else s2
  else s1)

/-- AUX_LOSS: without the auxiliary input the module is in OFF and the watch domain has lost everything (R378, R412). -/
def State.onAuxLoss (s : State) : State :=
  let d := s.darken
  { d with
    regs := clearWatch d.regs |>.filter (fun e => e.1 != Reg.pwrBrownoutCnt)
    pwr := { PwrSt.reset with st := .off, rdy := 0, fullMode := false, valve := 20000, inputGood := s.pwr.inputGood
                              resetHeld := s.pwr.resetHeld, perst := s.pwr.perst } }

/-- AUX_LOSS as a command. -/
def execAuxLoss (s : State) : Host.Outcome State Fault Refusal := .next (s.onAuxLoss)

/-- AUX_RETURN: the auxiliary input returns and the module enters WATCH (R377). -/
def execAuxReturn (s : State) : Host.Outcome State Fault Refusal :=
  .next (if s.pwr.st = .off then { s with pwr := { s.pwr with st := .watch } } else s)

/-- The checks of step 1: 48 V good, inlet at most 45 °C, flow at least 2 L/min, and after a trip every sensor 20 °C
below its threshold (R381 Table 2, R389, R1). -/
def State.upChecks (s : State) (r : CoolReading) : Bool :=
  s.pwr.inputGood && decide (r.inlet ≤ 45) && decide (r.flow ≥ 20) &&
    (!bit (s.rd Reg.pwrEvents) 0 || (decide (r.dieMax ≤ 95) && decide (r.stackMax ≤ 85)))

/-- POWERUP_CHECKS_PASSED: after 100 ms of good checks the regulators are switched on; a failing check waits and sets
COOL_WAIT (R381). -/
def execPowerupChecksPassed (r : CoolReading) (s : State) : Host.Outcome State Fault Refusal :=
  .next (if s.pwr.st ≠ .watch ∨ s.pwr.upStep ≠ 1 then s
  else if s.upChecks r then
    let s1 := s.elapseClock (s.clock + 100000000)
    { s1 with pwr := { s1.pwr with upStep := 2, fullMode := true } }
  else { s with pwr := { s.pwr with coolWait := true } })

/-- REG_RDY: the regulators are ready and the oscillators start (R381 step 2). -/
def execRegRdy (s : State) : Host.Outcome State Fault Refusal :=
  .next (if s.pwr.upStep = 2 then { s with pwr := { s.pwr with upStep := 3, rdy := 1 } } else s)

/-- OSC_RDY: the oscillators run at n = 32 and the memory domains are released (R381 step 3). -/
def execOscRdy (s : State) : Host.Outcome State Fault Refusal :=
  .next (if s.pwr.upStep = 3 then { s with pwr := { s.pwr with upStep := 4, rdy := 3, nCap := 32 } } else s)

/-- MEM_RDY: DRAM is trained, lagoons and islet memory are zero; a stack that does not train fails (R381, R404). -/
def execMemRdy (failed : List Nat) (s : State) : Host.Outcome State Fault Refusal :=
  .next (if s.pwr.upStep = 4 then
    let s1 := { s with pwr := { s.pwr with upStep := 5, rdy := 7 } }
    failed.foldl (fun s k => if s.flt.failedStacks.contains k then s else
      (({ s with flt := { s.flt with failedStacks := s.flt.failedStacks ++ [k] } }).count Reg.faultStackFailCnt).faultLog
        0x18 k 0x07 5 0 (t2Addr k 0)) s1
  else s)

/-- Whether port `p` is expected to join a neighbour (R365), or is half of the host port of a bridge (R362). -/
def expectedPort (x : FixSt) (p : Nat) : Bool :=
  if p < 2 then decide (x.dx > 1) else if p < 4 then decide (x.dy > 1) else if p < 6 then decide (x.dz > 1) else false

/-- The straps and stored fields in force from this reset on (R364, R456, R283, R449). -/
def State.takeStraps (s : State) (strap : Bool) : FixSt :=
  let a := s.rd Reg.archArchCfg
  { s.fix with
    ord := bits a 5 0, dx := bits a 9 8 + 1, dy := bits a 11 10 + 1, dz := bits a 13 12 + 1, bridge := strap
    i3cAddr := bits (s.rd Reg.mgmtMgmtCfg) 6 0, spill256 := bits (s.rd Reg.vuindigSpillCfg) 4 0 }

/-- Enters HOLD (R380): it counts, and a HOLD or a lowered cap keep their order of Table 1. -/
def State.enterHold (s : State) : State :=
  if s.pwr.st = .run ∨ s.pwr.st = .cap then
    ({ s with pwr := { s.pwr with st := .hold } }).count Reg.pwrHoldCnt
  else s

/-- Leaves HOLD when no condition and no request keeps it (R377), for CAP while n_cap < 32, which counts as every entry to CAP does (R393). -/
def State.tryLeaveHold (s : State) : State :=
  if s.pwr.st = .hold ∧ s.pwr.conds = [] ∧ s.pwr.holdReq = false then
    if s.pwr.nCap < 32 then ({ s with pwr := { s.pwr with st := .cap } }).count Reg.pwrCapCnt
    else { s with pwr := { s.pwr with st := .run } }
  else s

/-- A management request of PWR.REQ (R377, R379, R380), from RUN, CAP or HOLD. A request for WATCH with FORCE = 1 starts the partition
resets also while QUIESCE is already held. -/
def State.powerReq (s : State) : PReq → State
  | .hold => if s.pwr.st = .run ∨ s.pwr.st = .cap ∨ s.pwr.st = .hold then
      { s with pwr := { s.pwr with holdReq := true } }.enterHold else s
  | .leave => if s.pwr.st = .hold then { s with pwr := { s.pwr with holdReq := false } }.tryLeaveHold else s
  | .watch force =>
    let s1 := if s.pwr.st = .run ∨ s.pwr.st = .cap ∨ s.pwr.st = .hold then { s with pwr := { s.pwr with st := .quiesce } } else s
    if force && s1.pwr.st == .quiesce && s1.pwr.downCause.isNone then
      (List.range 16).foldl (fun s f => if s.funcEn f then s.startReset f 2 else s) s1
    else s1

/-- LOGIC_RDY: device time starts at 0, the module enters RUN, straps are sampled, expected ports train, and secure boot
begins (R381, R391, R456). Units on the stored fence list run their self-test (R403). Requests made during the
power-up are served now (R386). -/
def execLogicRdy (strap : Bool) (s : State) : Host.Outcome State Fault Refusal :=
  .next (if s.pwr.upStep ≠ 5 then s
  else
    let fix := s.takeStraps strap
    let ports := s.zwx.ports.map (fun p => if expectedPort fix p.num then { p with st := PortState.training } else p)
    let alone := ports.all (fun p => p.st != .training)
    let s1 := { s with
      now := 0, fix := fix, notReady := if alone then [0x5000, 0xD000] else [0x5000, 0xD000, 0xE000]
      zwx := { s.zwx with ports := ports, ready := alone, conflict := false, hostUp := false }
      brg := BridgeSt.reset
      sec := { s.sec with nonce := Config.random s.fresh, step := .verify }
      fresh := s.fresh + 1
      flt := { s.flt with selfTests := s.flt.fenceList.map (fun e => e.unit)
                          islands := (s.flt.fenceList.filter (fun e => e.unit.whole)).map (fun e => e.unit.island)
                          islets := (s.flt.fenceList.filter (fun e => !e.unit.whole)).map (fun e => e.unit.island * 16 + e.unit.islet) }
      pwr := { s.pwr with upStep := 0, rdy := 15, st := .run, pufails := 0, lastCap := 0, linkTraining := strap && !s.pwr.perst } }
    let s2 := s.pwr.reqs.foldl State.powerReq s1
    { s2 with pwr := { s2.pwr with reqs := [] } })

/-- The limit of each power-up step, in ns (R381 Table 2). -/
def upLimit (step : Nat) : Nat :=
  match step with
  | 2 => 20000000
  | 3 => 5000000
  | 4 => 300000000
  | _ => 1000000

/-- POWERUP_STEP_TIMEOUT: a ready signal misses its limit: the orderly power-down runs from that step, EVENTS.PUFAIL is
set (R381). -/
def execPowerupStepTimeout (s : State) : Host.Outcome State Fault Refusal :=
  .next (if 2 ≤ s.pwr.upStep ∧ s.pwr.upStep ≤ 5 then
    let s1 := (s.elapseClock (s.clock + upLimit s.pwr.upStep)).setEvents 0x02
    { s1 with pwr := { s1.pwr with downCause := some 4, downStep := s.pwr.upStep, upStep := 0, pufails := s.pwr.pufails + 1 } }
  else s)

/-- POWER_DOWN_DONE: the orderly power-down ends; the module rests in WATCH with the cause recorded, and a recorded wake
event starts the power-up (R384, R383, R386). -/
def execPowerDownDone (s : State) : Host.Outcome State Fault Refusal :=
  .next (match s.pwr.downCause with
  | none => s
  | some c =>
    let s1 := s.darken.lastDown c (if c = 4 then s.pwr.downStep else 0)
    if s1.pwr.wakeNoted && !s1.pwr.resetHeld then s1.startUp else s1)

/-- RESET_PIN_ASSERT: RESET_N has been active for 10 µs: the orderly power-down without QUIESCE. In WATCH, during a
power-up or a power-down it starts nothing (R385, R454). -/
def execResetPinAssert (s : State) : Host.Outcome State Fault Refusal :=
  let s1 := { s with pwr := { s.pwr with resetHeld := true } }
  .next (if s.powered then { s1 with pwr := { s1.pwr with downCause := some 6, wakeNoted := true } } else s1)

/-- RESET_PIN_RELEASE: the power-up that RESET_N held back starts (R385, R454). -/
def execResetPinRelease (s : State) : Host.Outcome State Fault Refusal :=
  let s1 := { s with pwr := { s.pwr with resetHeld := false } }
  .next (if s.pwr.resetHeld && s.pwr.wakeNoted && s.pwr.st == .watch && s.pwr.downCause.isNone && s.pwr.upStep == 0 then
    s1.startUp else s1)

/-- THERMAL_TRIP: every main domain is powered off into WATCH, with cause TRIP; a trip wins over everything else, a power-up
that was to follow among it (R396, R386, R389). -/
def execThermalTrip (s : State) : Host.Outcome State Fault Refusal :=
  .next (if s.mainOn then
    let s1 := ((s.darken.setEvents 0x01).lastDown 2 0).count Reg.pwrTripCnt
    { s1 with pwr := { s1.pwr with wakeNoted := false } }
  else s)

/-- A brownout recorded: the watch domain restarts in WATCH, BROWNOUT_CNT counts and LAST_DOWN says so (R377). -/
def State.brownRecord (s : State) : State :=
  let s1 := { s with
    regs := clearWatch s.regs
    pwr := { PwrSt.reset with st := .watch, rdy := 0, fullMode := false, inputGood := s.pwr.inputGood
                              resetHeld := s.pwr.resetHeld, perst := s.pwr.perst } }
  ((s1.setEvents 0x08).count Reg.pwrBrownoutCnt).lastDown 5 0

/-- BROWNOUT: a load above 40 mA in low-power mode resets the watch domain; the latch keeps EVENTS.BROWNOUT and its
count, and a good 48 V input powers the module up (R387). -/
def State.onBrownout (s : State) : State :=
  if s.pwr.st ≠ .watch ∨ s.pwr.fullMode = true then s
  else if s.pwr.inputGood && !s.pwr.resetHeld then s.brownRecord.startUp
  else if s.pwr.inputGood then { s.brownRecord with pwr := { s.brownRecord.pwr with wakeNoted := true } }
  else s.brownRecord

/-- BROWNOUT as a command. -/
def execBrownout (s : State) : Host.Outcome State Fault Refusal := .next (s.onBrownout)

/-- A power sample within the ratings: 10 µs pass, the last hundred power readings are kept, and PWR.INPUT shows the voltage and their mean. -/
def State.onPowerSample (s : State) (r : PowerReading) : State :=
  if !s.powered then s
  else
    let s1 := s.elapseTo (s.now + 10000)
    let w := (s.pwr.samples ++ [r.watt]).drop (s.pwr.samples.length + 1 - 100)
    ({ s1 with pwr := { s1.pwr with samples := w } }).wr Reg.pwrInput (r.centiVolt % 65536 + w.sum / w.length % 65536 * 65536)

/-- POWER_SAMPLE: every 10 µs the controller measures input power; INPUT shows the voltage and the mean power of the
last 1 ms (R393). An input above the absolute maximum of 72 V is outside every rule (R460). -/
def execPowerSample (r : PowerReading) (s : State) : Host.Outcome State Fault Refusal :=
  if r.centiVolt > 7200 then .fault .outsideRatings else .next (s.onPowerSample r)

/-- Whether the mean power of the last 1 ms lies above the cap. -/
def State.aboveCap (s : State) : Bool :=
  decide (s.pwr.samples.sum > bits (s.rd Reg.pwrCap) 11 0 * s.pwr.samples.length)

/-- Whether it lies below 98 % of the cap. -/
def State.belowCap (s : State) : Bool :=
  decide (100 * s.pwr.samples.sum < 98 * bits (s.rd Reg.pwrCap) 11 0 * s.pwr.samples.length)

/-- CAP_TICK: every 100 µs: above the cap n_cap falls by 1 down to 8, below 98 % of it for a whole 1 ms it rises by 1 up
to 32; the module is in CAP while n_cap < 32 (R393). -/
def execCapTick (s : State) : Host.Outcome State Fault Refusal :=
  .next (if !s.powered then s
  else
    let s1 := s.elapseTo (s.pwr.lastCap + 100000)
    let below := if s.belowCap then s.pwr.capBelow + 1 else 0
    let n := if s.aboveCap then max 8 (s.pwr.nCap - 1)
      else if below ≥ 10 then min 32 (s.pwr.nCap + 1) else s.pwr.nCap
    let s2 := { s1 with pwr := { s1.pwr with
      nCap := n, lastCap := s.pwr.lastCap + 100000, capBelow := if below ≥ 10 then 0 else below } }
    if s2.pwr.st = .run ∧ n < 32 then ({ s2 with pwr := { s2.pwr with st := .cap } }).count Reg.pwrCapCnt
    else if s2.pwr.st = .cap ∧ n = 32 then { s2 with pwr := { s2.pwr with st := .run } }
    else s2)

/-- A coolant condition of Table 5 takes effect: HOLD with cause COOL_HOLD; a sensor out of range also opens the valve fully (R395). -/
def State.coolHold (s : State) (c : CoolCond) : State :=
  (({ s with pwr := { s.pwr with conds := addOnce c s.pwr.conds
                                 valve := if c = CoolCond.sensorRange then 20000 else s.pwr.valve } }).setEvents 0x10).enterHold

/-- VALVE_TICK: every 10 ms the valve opening follows proportional-integral control of the hotter of the two errors,
2 % per °C and 0.5 % per °C·s, between VALVE_MIN and 100 %; a sensor out of range opens it fully and enters HOLD, until readings have
been in range for 10 s; flow above 6 L/min for
10 s lowers it toward VALVE_MIN and counts (R395). Openings are held in units of 0.005 %. -/
def execValveTick (r : CoolReading) (s : State) : Host.Outcome State Fault Refusal :=
  .next (if !s.powered then s
  else
    let s1 := s.elapseTo (s.now + 10000000)
    let c := s.rd Reg.pwrCoolCfg
    let e : Int := max ((r.stackMax : Int) - bits c 7 0) ((r.outlet : Int) - bits c 15 8)
    let lo : Int := bits c 23 16 * 200
    let atEnd := decide ((s.pwr.valve : Int) ≥ 20000) || decide ((s.pwr.valve : Int) ≤ lo)
    let integ := if atEnd && decide (e > 0) then s.pwr.integ else s.pwr.integ + e
    let v := max lo (min 20000 (400 * e + integ))
    let high := if r.flow > 60 then s.pwr.flowHigh + 1 else 0
    let (v1, s2) := if !r.inRange || s.pwr.conds.contains .sensorRange then ((20000 : Nat), s1)
      else if high ≥ 1000 then
        let (x, s2) := s1.freeVal
        (lo.toNat + x % (s.pwr.valve - lo.toNat + 1), s2)
      else (v.toNat, s1)
    let s3 := ({ s2 with pwr := { s2.pwr with valve := v1, integ := integ, flowHigh := high } }).coolRegs r
    let s4 := if r.inRange || s3.pwr.conds.contains .sensorRange || !(s3.pwr.st == .run || s3.pwr.st == .cap || s3.pwr.st == .hold) then s3
      else s3.coolHold .sensorRange
    if high = 1000 then s4.count Reg.pwrCoolWarnCnt else s4)

/-- COOL_HOLD_ENTER: a coolant condition of Table 5 persists: HOLD with cause COOL_HOLD (R395, R380). Low flow is a condition only with
the valve at 100 %. -/
def execCoolHoldEnter (c : CoolCond) (s : State) : Host.Outcome State Fault Refusal :=
  .next (if (s.pwr.st = .run ∨ s.pwr.st = .cap ∨ s.pwr.st = .hold) ∧ (c = .flowLow → s.pwr.valve ≥ 20000) then s.coolHold c else s)

/-- COOL_HOLD_CLEAR: the condition has been clear for 10 s; HOLD ends when nothing else keeps it (R395). -/
def execCoolHoldClear (c : CoolCond) (s : State) : Host.Outcome State Fault Refusal :=
  .next (if c ∈ s.pwr.conds then
    { s with pwr := { s.pwr with conds := s.pwr.conds.filter (fun x => x != c) } }.tryLeaveHold
  else s)

/-- A write of PWR.REQ: the host path is denied (R434), and a request made during a power-up waits for LOGIC_RDY
(R386). -/
def State.reqWrite (s : State) (p : Path) (q : PReq) : State :=
  if p = .host then if s.powered then s.count Reg.mgmtHostDenyCnt else s
  else if s.pwr.upStep ≠ 0 then { s with pwr := { s.pwr with reqs := s.pwr.reqs ++ [q] } }
  else if !s.powered then s
  else s.powerReq q

/-- ENTER_HOLD: the REQ operation 001 (R380). -/
def execEnterHold (p : Path) (s : State) : Host.Outcome State Fault Refusal := .next (s.reqWrite p .hold)

/-- LEAVE_HOLD: the REQ operation 010 leaves a requested HOLD (R397). -/
def execLeaveHold (p : Path) (s : State) : Host.Outcome State Fault Refusal := .next (s.reqWrite p .leave)

/-- ENTER_WATCH: the REQ operation 011 enters QUIESCE; with FORCE every enabled function's partition is reset (R379). -/
def execEnterWatch (p : Path) (force : Bool) (s : State) : Host.Outcome State Fault Refusal :=
  .next (s.reqWrite p (.watch force))

/-- QUIESCE_DONE: every accepted command has completed and no partition reset runs: the orderly power-down begins, with
cause REQUEST (R379, R384). -/
def execQuiesceDone (s : State) : Host.Outcome State Fault Refusal :=
  .next (if s.pwr.st = .quiesce && s.powered && s.cmd.live.isEmpty &&
      s.sch.funcs.all (fun f => match f with | .resetting _ _ => false | _ => true) then
    { s with pwr := { s.pwr with downCause := some 1 } }
  else s)

/-- Clears the bits of PWR.EVENTS at which `data` has a 1. -/
def State.clearEvents (s : State) (data : Nat) : State :=
  let w := s.rd Reg.pwrEvents
  s.wr Reg.pwrEvents (w - (w &&& (data &&& 0x3F)))

/-- EVENTS_CLEAR: a write of 1 clears bits of PWR.EVENTS, which can release FAULT and THERM_TRIP; the host path is
denied (R383, R434). -/
def execEventsClear (p : Path) (data : Nat) (s : State) : Host.Outcome State Fault Refusal :=
  .next (if !s.powered then s
  else if p = .host then s.count Reg.mgmtHostDenyCnt
  else s.clearEvents data)

end Sys2Proof.Machine
end

