-- ==== Sys2Proof/Machine/Ring.lean ====
section
/-! DEFINITION. Ring pairs, the event ring and path failures on the bridge (R344 to R349, R363). -/

namespace Sys2Proof.Machine

/-- Whether a ring pair runs: this device is the bridge and SQ_CFG.EN = 1 (R344). -/
def State.ringOn (s : State) (ring : Nat) : Bool :=
  s.fix.bridge && decide (ring < 256) && bit (s.rd (Reg.hringSqCfg ring)) 0

/-- The entries of a ring whose configuration word is `w`. -/
def ringSize (w : Nat) : Nat := 2 ^ bits w 12 8

/-- SQ_HEAD of a ring. -/
def State.sqHead (s : State) (ring : Nat) : Nat := mapGet 0 ring s.brg.sqHead

/-- The completion entries written to a ring since it was set up. -/
def State.cqCount (s : State) (ring : Nat) : Nat := mapGet 0 ring s.brg.cqTail

/-- The host address in a LO and a HI register. -/
def State.hostAddr (s : State) (lo hi : Nat) : Nat := s.rd lo + s.rd hi * 2 ^ 32

/-- Whether a completion ring has no room: one entry stays empty. -/
def State.cqFull (s : State) (ring : Nat) : Bool :=
  let n := ringSize (s.rd (Reg.hringCqCfg ring))
  (s.cqCount ring + 1) % n == bits (s.rd (Reg.hringCqHead ring)) 15 0 % n

/-- The 32 bytes of a completion entry (R347 Table 8). -/
def cqEntry (phase : Nat) (w : WaitCpl) (head : Nat) : Body :=
  let c := w.c
  leBytes 32 (phase + b2n w.trunc * 2 + b2n w.gen * 4 + c.status % 256 * 2 ^ 8 + c.func % 16 * 2 ^ 16 + c.kind % 4 * 2 ^ 20 +
    b2n c.dupTag * 2 ^ 22 + c.channel % 256 * 2 ^ 24 + c.tag % 65536 * 2 ^ 32 + c.srcOrd % 64 * 2 ^ 48 + c.bodyLen % 2 ^ 32 * 2 ^ 64 +
    head % 65536 * 2 ^ 96 + c.time % 2 ^ 64 * 2 ^ 128)

/-- Writes a completion entry at the tail and raises the pair's vector (R347). PHASE is 1 on the first pass. -/
def State.writeCq (s : State) (w : WaitCpl) : State :=
  let ring := w.ring
  let n := ringSize (s.rd (Reg.hringCqCfg ring))
  let k := s.cqCount ring
  let s1 := s.emits
    [.hostWrite (s.hostAddr (Reg.hringCqBaseLo ring) (Reg.hringCqBaseHi ring) + 32 * (k % n)) (cqEntry (1 - k / n % 2) w (s.sqHead ring)),
     .msix (bits (s.rd (Reg.hringCqCfg ring)) 26 16)]
  { s1 with brg := { s1.brg with cqTail := mapPut 0 ring (k + 1) s1.brg.cqTail } }

/-- Reports a completion to a ring: at once where there is room, else it waits (R347). -/
def State.putCq (s : State) (w : WaitCpl) : State :=
  if s.cqFull w.ring || s.brg.waits.any (fun x => x.ring == w.ring) then
    ({ s with brg := { s.brg with waits := s.brg.waits ++ [w] } } : State).count (Reg.hringCqFullCnt w.ring)
  else s.writeCq w

/-- Writes the completions of a ring that waited, as far as there is room. -/
def State.drainCq (s : State) (ring : Nat) : State :=
  (s.brg.waits.filter (fun w => w.ring == ring)).foldl (fun s w =>
    if s.cqFull ring then s
    else ({ s with brg := { s.brg with waits := s.brg.waits.erase w } } : State).writeCq w) s

/-- A completion that the bridge makes itself, with BRIDGE_GEN = 1. -/
def State.bridgeCpl (s : State) (ring : Nat) (h : CmdHdr) (status : Nat) : State :=
  s.putCq
    { ring := ring, gen := true, trunc := false
      c := { status := status, func := h.func, kind := 0, dupTag := false, last := true, channel := h.channel, tag := h.tag, srcOrd := h.dstOrd
             ring := ring, bodyLen := 0, fragOff := 0, time := s.devTime, bytes := [] } }

/-- Whether two held commands are of one ring pair, device and channel; the function-class commands of a pair's function are of one queue
(R332, R346). -/
def RingCmd.sameQueue (a b : RingCmd) : Bool := a.ring == b.ring && a.ord == b.ord && a.h.queue == b.h.queue

/-- Whether a command holds back the later entries of its queue (R346): it waits for its resend, or has been resent and may yet be
refused again. A command without a body by the handshake counts as accepted once ANSWER_US has passed without an answer. -/
def State.holdsBack (s : State) (c : RingCmd) : Bool :=
  c.refused || (c.retried && c.sent && !c.answered &&
    (decide (c.h.xferLen > 0) || decide (s.now < c.sentAt + bits (s.rd Reg.hostLinkfailCfg) 4 0 * 1000)))

/-- Sends a command that the bridge holds. -/
def State.sendCmd (s : State) (c : RingCmd) : State :=
  let d := { c with sent := true, refused := false, answered := false, sentAt := s.now }
  ({ s with brg := { s.brg with cmds := s.brg.cmds.map (fun x => if x.id = c.id then d else x) } } : State).emit
    (.cmd c.ord c.h (if c.h.xferLen > 0 then [] else c.body))

/-- Whether an earlier entry of a command's queue holds it back. -/
def State.heldBack (s : State) (c : RingCmd) : Bool :=
  (s.brg.cmds.takeWhile (fun x => x.id != c.id)).any (fun x => x.sameQueue c && (s.holdsBack x || !x.sent))

/-- Sends a command that nothing before it in its queue holds back. -/
def State.releaseOne (s : State) (c : RingCmd) : State :=
  if c.sent || c.refused || s.heldBack c then s else s.sendCmd c

/-- Sends, in ring order, the held entries that nothing holds back any longer (R346). -/
def State.ringRelease (s : State) : State :=
  s.brg.cmds.foldl (fun s c => s.releaseOne c) s

/-- The bit of an ordinal in a LO and HI pair. -/
def ordBit (lo hi o : Nat) : Nat × Nat := (if o < 32 then lo else hi, o % 32)

/-- Whether the path to an ordinal is marked failed. -/
def State.pathDown (s : State) (o : Nat) : Bool :=
  let b := ordBit Reg.hostPathDownLo Reg.hostPathDownHi o
  bit (s.rd b.1) b.2

/-- The bridge declares the path to an ordinal failed (R349): its bit is set, every command held for it completes with LINK_FAILED, and
LINK_FAIL is raised. -/
def State.pathFail (s : State) (o : Nat) : State :=
  if !s.fix.bridge || s.pathDown o then s
  else
    let b := ordBit Reg.hostPathDownLo Reg.hostPathDownHi o
    let s1 := s.wr b.1 (setBits (s.rd b.1) b.2 b.2 1)
    let mine := s1.brg.cmds.filter (fun c => c.ord == o)
    let s2 : State := { s1 with brg := { s1.brg with cmds := s1.brg.cmds.filter (fun c => c.ord != o) } }
    ((mine.foldl (fun s c => s.bridgeCpl c.ring c.h Status.linkFailed) s2).event 5 0 true o).ringRelease

/-- The registers of the rings and the event ring as a reset of the bridge's rings leaves them (R351, R363): every ring disabled, no
path marked down, and the host configures them again. Counters stay. -/
def State.clearRings (s : State) : State :=
  let mine (a : Nat) : Bool := (decide (0x100000 ≤ a) && decide (a < 0x200000) && decide (0x40 ≤ a % 0x1000) && decide (a % 0x1000 < 0x6C)) ||
    (decide (Reg.hostEvqBaseLo ≤ a) && decide (a < Reg.hostEvqDropCnt))
  { s with regs := s.regs.filter (fun e => !mine e.1), brg := { BridgeSt.reset with nextRid := s.brg.nextRid, nextCmd := s.brg.nextCmd } }

/-- A PCIe link-down, a function-level reset or an entry to D3hot (R363): the rings reset, and completions and events for the host are
discarded until a ring is enabled. -/
def State.hostReset (s : State) : State :=
  let s1 := s.clearRings
  { s1 with zwx := { s1.zwx with hostDrop := true } }

end Sys2Proof.Machine
end

