-- ==== Sys2Proof/Machine/Links.lean ====
section
/-! DEFINITION. The link layer (R353 to R361) and the routing and order of frames across the archipelago (R364 to R373): ports, frames,
credit, replay, and the packets that the device sends. -/

namespace Sys2Proof.Machine

/-! ## Places (R364 to R366). Dimension 0 is X, 1 is Y, 2 is Z; port 2d is the + port of dimension d and 2d + 1 its - port. -/

/-- The step in ordinals from one coordinate of a dimension to the next. -/
def FixSt.stride (x : FixSt) (d : Nat) : Nat := match d with
  | 0 => 1
  | 1 => x.size 0
  | _ => x.size 0 * x.size 1

/-- A coordinate of an ordinal. -/
def FixSt.coord (x : FixSt) (d o : Nat) : Nat := o / x.stride d % x.size d

/-- The ordinal whose coordinate in dimension `d` is `c` and whose others are those of `o`. -/
def FixSt.withCoord (x : FixSt) (d o c : Nat) : Nat := o - x.coord d o * x.stride d + c % x.size d * x.stride d

/-- The neighbour of an ordinal through a port (R365). -/
def FixSt.peer (x : FixSt) (o port : Nat) : Nat :=
  let d := port / 2
  x.withCoord d o (x.coord d o + (if port % 2 = 0 then 1 else x.size d - 1))

/-- Whether a frame goes + in a dimension of size `s` from coordinate `c` to `t` (R366). -/
def goesPlus (s c t : Nat) : Bool := decide (2 * ((t + s - c) % s) ≤ s)

/-- A hop of a route: the device it leaves, its port, the virtual channel, and the device it reaches. -/
structure Hop where
  from_ : Nat
  port : Nat
  vc : Nat
  next : Nat
  deriving DecidableEq, Repr

/-- The route in dimension order (R366). `dim` is the dimension entered last and `vc` the virtual channel in it. -/
def FixSt.route (x : FixSt) (dst : Nat) : Nat → Nat → Nat → Nat → List Hop
  | 0, _, _, _ => []
  | n + 1, cur, dim, vc =>
    match [0, 1, 2].find? (fun d => x.coord d cur != x.coord d dst) with
    | none => []
    | some d =>
      let s := x.size d
      let c := x.coord d cur
      let plus := goesPlus s c (x.coord d dst)
      let port := 2 * d + (if plus then 0 else 1)
      let wrap := decide (s ≥ 3) && (if plus then c + 1 == s else c == 0)
      let v := if wrap then 1 else if d = dim then vc else 0
      let nx := x.peer cur port
      { from_ := cur, port := port, vc := v, next := nx } :: x.route dst n nx d v

/-- The route from one ordinal to another. -/
def FixSt.routeFrom (x : FixSt) (a b : Nat) : List Hop := x.route b 9 a 3 0

/-- Whether the way of a multicast in dimension `d` from coordinate `a` to `c` leaves coordinate `h` in the given direction. -/
def wayLeaves (s a c h : Nat) (plus : Bool) : Bool :=
  a != c && goesPlus s a c == plus &&
    (if plus then decide ((h + s - a) % s < (c + s - a) % s) else decide ((a + s - h) % s < (a + s - c) % s))

/-- The ports on which the device sends copies of a multicast frame of source `src` (R372): along X to each coordinate whose plane holds
members, then along Y, then along Z. -/
def State.copyPorts (s : State) (g src : Nat) : List Nat :=
  let x := s.fix
  let here := x.ord
  let at_ (d : Nat) : Nat := x.coord d here
  let ms := (s.members g).filter (fun o => o != src)
  (List.range 6).filter (fun p =>
    let d := p / 2
    let onTree := (List.range 3).all (fun e => decide (e ≤ d) || at_ e == x.coord e src)
    onTree && (List.range (x.size d)).any (fun c =>
      wayLeaves (x.size d) (x.coord d src) c (at_ d) (p % 2 == 0) &&
      ms.any (fun m => x.coord d m == c && (List.range d).all (fun e => x.coord e m == at_ e))))

/-! ## Ports -/

/-- A port. -/
def State.port (s : State) (n : Nat) : Port := (s.zwx.ports[n]?).getD (Port.reset n)

/-- Replaces a port. -/
def State.updPort (s : State) (n : Nat) (f : Port → Port) : State :=
  { s with zwx := { s.zwx with ports := updAt n f s.zwx.ports } }

/-- Whether a port carries frames. -/
def State.portUp (s : State) (n : Nat) : Bool := (s.port n).st == .up

/-- The bytes of a frame on a port (R357): route header, packet, tag and trailer. -/
def frameBytes (enc : Bool) (f : FrameIn) : Nat := 16 + f.body.length + (if enc then 16 else 0) + 8

/-- CRC-32 with the polynomial 0x04C1_1DB7 in the bit order of IEEE 802.3, with its initial value and final complement (R357; PRESUMED, log
entry 82). -/
def crc32 (b : List Byte) : Nat :=
  (b.foldl (fun c x => (List.range 8).foldl (fun c _ => if c % 2 = 1 then (c / 2) ^^^ 0xEDB88320 else c / 2) (c ^^^ x.toNat)) 0xFFFFFFFF) ^^^ 0xFFFFFFFF

/-- The class field of a route header (R357 Table 2). -/
def classCode : FClass → Nat
  | .req => 0
  | .rsp => 1
  | .ctl => 2

/-- The route header of a frame (R357 Table 2). -/
def routeHeader (f : FrameIn) : Body :=
  leBytes 16 (f.dst % 64 + f.src % 64 * 2 ^ 8 + classCode f.cls * 2 ^ 16 + f.vc % 2 * 2 ^ 18 + b2n f.mc * 2 ^ 19 + f.group % 16 * 2 ^ 20 +
    f.eseq % 65536 * 2 ^ 24 + (f.body.length - 1) % 8192 * 2 ^ 40)

/-- The packet as it crosses the link: in plain, or enciphered with the key, the salt and the count of frames under it, with its tag (R361). -/
def sealedPacket (p : Port) (f : FrameIn) : Body :=
  match p.keys.filter (fun _ => p.enc) with
  | none => f.body
  | some k =>
    let c := Config.gcmSeal k.1 (k.2 % 2 ^ 32 * 2 ^ 64 + p.frames % 2 ^ 64) (routeHeader f) f.body
    (List.range f.body.length).map (fun i => c.1.getD i 0) ++ (List.range 16).map (fun i => c.2.getD i 0)

/-- The bytes of a frame on a port: route header, packet, tag, and the trailer with LSEQ, KEY_PHASE and the CRC of all before it (R357). -/
def wireBytes (p : Port) (f : FrameIn) : Body :=
  let b := routeHeader f ++ sealedPacket p f ++ leBytes 4 (f.lseq % 65536 + f.keyPhase % 2 * 2 ^ 16)
  b ++ leBytes 4 (crc32 b)

/-- Whether a frame that leaves by a port is a transit frame for the device at its other end (R360). -/
def State.isTransit (s : State) (p : Port) (f : FrameIn) : Bool :=
  if f.mc then !(s.members f.group).contains p.peerOrd else f.dst != p.peerOrd

/-- The credit pool of a frame on a port. -/
def State.pool (s : State) (p : Port) (f : FrameIn) : FClass × Nat × Bool := (f.cls, f.vc, s.isTransit p f)

/-- The credit of a pool in units. -/
def Port.has (p : Port) (k : FClass × Nat × Bool) : Nat := ((p.credit.find? (fun c => c.1 == k)).map (fun c => c.2)).getD 0

/-- Sets the credit of a pool. -/
def Port.setCredit (p : Port) (k : FClass × Nat × Bool) (n : Nat) : Port :=
  { p with credit := p.credit.filter (fun c => c.1 != k) ++ [(k, n)] }

/-- The credit that a frame takes. -/
def Port.units (p : Port) (f : FrameIn) : Nat := cdiv (frameBytes p.enc f) 256

/-- The bytes that a port's replay buffer holds. -/
def Port.held (p : Port) : Nat := (p.replay.map (fun r => frameBytes p.enc r.f)).sum

/-- The frames of a port's queue that it may send now: the first of each pool that has credit, while the replay buffer has room and the
key is not spent. -/
def State.sendable (s : State) (p : Port) : List FrameIn :=
  if p.st != .up || (p.enc && (decide (p.frames ≥ 2 ^ 48) || p.keys.isNone)) then []
  else p.queue.filter (fun f =>
    let k := s.pool p f
    ((p.queue.find? (fun g => s.pool p g == k)).map (fun g => g == f)).getD false &&
      decide (p.units f ≤ p.has k) && decide (p.held + frameBytes p.enc f ≤ 524288))

/-- Sends one frame on a port: it takes its LSEQ, counts under the key, and stays in the replay buffer until it is acknowledged (R358,
R360, R361). -/
def State.sendFrame (s : State) (n : Nat) (f : FrameIn) : State :=
  let p := s.port n
  let g : FrameIn := { f with lseq := p.txSeq, keyPhase := if p.enc then p.txPhase else 0, crcOk := true, tagOk := true }
  let k := s.pool p f
  (s.updPort n (fun p => { (p.setCredit k (p.has k - p.units f)) with
    queue := p.queue.erase f, txSeq := (p.txSeq + 1) % 65536, frames := if p.enc then p.frames + 1 else p.frames
    replay := p.replay ++ [{ lseq := g.lseq, f := g, wire := wireBytes p g, at_ := s.now }] })).emit (.frame n g (wireBytes p g))

/-- Sends what a port may send: CTL frames go ahead (R360). -/
def State.pump : Nat → Nat → State → State
  | 0, _, s => s
  | k + 1, n, s =>
    let fs := s.sendable (s.port n)
    match (fs.find? (fun f => f.cls == .ctl)).orElse (fun _ => fs.head?) with
    | none => s
    | some f => State.pump k n (s.sendFrame n f)

/-- Puts a frame on a port's queue and sends what may go. -/
def State.enqueue (s : State) (n : Nat) (f : FrameIn) : State :=
  let s1 := s.updPort n (fun p => { p with queue := p.queue ++ [f] })
  s1.pump (s1.port n).queue.length n

/-! ## Routing (R366 to R369) -/

/-- The port at the other end of a link, and the opposite direction of a dimension. -/
def oppPort (p : Nat) : Nat := if p % 2 = 0 then p + 1 else p - 1

/-- The port and virtual channel of a frame's next hop, and whether it is rerouted here (R366, R368). `arr` is the port it came in by. A frame
that is off its route in dimension order has been rerouted: it stays on VC 1, and where it has not done with the dimension in which it came,
it goes on in its direction, not back (DESIGN CHOICE, log entry 82). -/
def State.nextPort (s : State) (f : FrameIn) (arr : Option Nat) : Option (Nat × Nat × Bool) :=
  let x := s.fix
  let own := x.routeFrom f.src f.dst
  let normal := f.src == x.ord || own.any (fun h => h.next == x.ord && h.vc == f.vc && (match arr with
    | some p => h.port == oppPort p
    | none => true))
  let hop := if normal then own.find? (fun h => h.from_ == x.ord) else (x.routeFrom x.ord f.dst).head?
  match hop with
  | none => none
  | some h =>
    let on := arr.filter (fun p => !normal && p / 2 == h.port / 2)
    let port := (on.map oppPort).getD h.port
    let side := [port / 2 + 1, port / 2 + 2].find? (fun d => decide (x.size (d % 3) > 1))
    if s.portUp port then some (port, if normal then h.vc else 1, false)
    else if on.isNone && s.portUp (oppPort port) then some (oppPort port, 1, true)
    else match side with
      | some d => if s.portUp (2 * (d % 3)) then some (2 * (d % 3), 1, true) else none
      | none => none

/-- Sends a frame on its way, or holds it where it has no route (R369). -/
def State.forward (s : State) (f : FrameIn) (arr : Option Nat) : State :=
  match s.nextPort f arr with
  | some (p, vc, re) => (if re then s.count Reg.archRerouteCnt else s).enqueue p { f with vc := vc }
  | none => { s with zwx := { s.zwx with routeHold := s.zwx.routeHold ++ [{ f := f, since := s.now }] } }

/-- A multicast frame as it goes to the neighbour at a port, on the virtual channel of its source's route there (R366). -/
def State.copyFor (s : State) (f : FrameIn) (p : Nat) : FrameIn :=
  let far := s.fix.peer s.fix.ord p
  { f with dst := far, vc := (((s.fix.routeFrom f.src far).getLast?).map Hop.vc).getD 0 }

/-- Sends one copy of a multicast frame out of a port, by the other way round, or holds it. -/
def State.copyTo (s : State) (f : FrameIn) (p : Nat) : State :=
  if s.portUp p then s.enqueue p (s.copyFor f p)
  else if s.portUp (oppPort p) then (s.count Reg.archRerouteCnt).enqueue (oppPort p) { s.copyFor f p with vc := 1 }
  else { s with zwx := { s.zwx with routeHold := s.zwx.routeHold ++ [{ f := s.copyFor f p, since := s.now }] } }

/-- Sends the copies of a multicast frame (R372). A copy whose port is DOWN takes the other direction of its dimension (R368). -/
def State.copyOut (s : State) (f : FrameIn) : State :=
  (s.copyPorts f.group f.src).foldl (fun s p => s.copyTo f p) s

/-- Whether a multicast frame came in by the port and on the virtual channel that its tree gives it here (R366, R372). -/
def State.onTree (s : State) (f : FrameIn) (arr : Nat) : Bool :=
  match (s.fix.routeFrom f.src s.fix.ord).getLast? with
  | some h => oppPort h.port == arr && h.vc == f.vc
  | none => false

/-- A copy that came the other way round a DOWN port (R368): it makes the copies of the dimensions above, unless the frame has been here, and
goes on in its direction until that port is DOWN (DESIGN CHOICE, log entry 82). -/
def State.copyOn (s : State) (f : FrameIn) (arr : Nat) (again : Bool) : State :=
  let s1 := if again then s else ((s.copyPorts f.group f.src).filter (fun p => decide (p / 2 > arr / 2))).foldl (fun s p => s.copyTo f p) s
  if s1.portUp (oppPort arr) then s1.enqueue (oppPort arr) { f with vc := 1 } else s1

/-- Sends a packet of this device across the archipelago with the next ESEQ of its destination and class, or of its group whatever its class
(R367). -/
def State.launch (s : State) (dst : Nat) (group : Bool) (cls : FClass) (ptype : Nat) (body : Body) : State :=
  let key : Nat × FClass × Option Nat := if group then (0, .ctl, some dst) else (dst, cls, none)
  let n := ((s.zwx.eseqTx.find? (fun e => e.1 == key)).map (fun e => e.2)).getD 0
  let s1 : State := { s with zwx := { s.zwx with eseqTx := s.zwx.eseqTx.filter (fun e => e.1 != key) ++ [(key, (n + 1) % 65536)] } }
  let f : FrameIn := { dst := if group then 0 else dst, src := s.fix.ord, cls := cls, vc := 0, mc := group, group := if group then dst else 0, eseq := n,
                       lseq := 0, keyPhase := 0, crcOk := true, tagOk := true, ptype := ptype, body := body }
  if group then s1.copyOut f else s1.forward f none

/-- The frames that had no route are tried again. -/
def State.retryHolds (s : State) : State :=
  let hs := s.zwx.routeHold
  hs.foldl (fun s h =>
    if h.f.mc then
      match (List.range 6).find? (fun p => (s.portUp p || s.portUp (oppPort p)) && s.fix.peer s.fix.ord p == h.f.dst) with
      | some p => s.copyTo h.f p
      | none => { s with zwx := { s.zwx with routeHold := s.zwx.routeHold ++ [h] } }
    else match s.nextPort h.f none with
    | some (p, vc, re) => (if re then s.count Reg.archRerouteCnt else s).enqueue p { h.f with vc := vc }
    | none => { s with zwx := { s.zwx with routeHold := s.zwx.routeHold ++ [h] } }) { s with zwx := { s.zwx with routeHold := [] } }

/-! ## The packets of this device (R324 to R337, R350, R370) -/

/-- A CMD packet (R325 Table 2). -/
def cmdBytes (h : CmdHdr) (b : Body) : Body :=
  leBytes 32 (1 + h.opcode % 256 * 2 ^ 8 + h.func % 16 * 2 ^ 16 + b2n h.fence * 2 ^ 23 + h.channel % 256 * 2 ^ 24 + h.tag % 65536 * 2 ^ 32 +
    h.srcOrd % 64 * 2 ^ 48 + h.dstOrd % 64 * 2 ^ 56 + h.ring % 256 * 2 ^ 64 + h.inlineLen % 8192 * 2 ^ 80 + h.xferLen % 2 ^ 32 * 2 ^ 96) ++ b

/-- A CPL packet (R334 Table 4). -/
def cplBytes (c : CplPkt) : Body :=
  leBytes 32 (5 + c.status % 256 * 2 ^ 8 + c.func % 16 * 2 ^ 16 + c.kind % 4 * 2 ^ 20 + b2n c.dupTag * 2 ^ 22 + b2n c.last * 2 ^ 23 +
    c.channel % 256 * 2 ^ 24 + c.tag % 65536 * 2 ^ 32 + c.srcOrd % 64 * 2 ^ 48 + c.ring % 256 * 2 ^ 56 + c.bodyLen % 2 ^ 32 * 2 ^ 64 +
    c.fragOff % 2 ^ 32 * 2 ^ 96 + c.time % 2 ^ 64 * 2 ^ 128) ++ c.bytes

/-- An EVENT packet (R337); the low byte is PTYPE, or PHASE and OVERFLOW in the event ring (R348). -/
def eventBytes (low : Nat) (e : EventPkt) : Body :=
  leBytes 32 (low + e.code % 256 * 2 ^ 8 + e.func % 16 * 2 ^ 16 + b2n e.wide * 2 ^ 20 + e.srcOrd % 64 * 2 ^ 32 + e.data % 2 ^ 64 * 2 ^ 64 +
    e.time % 2 ^ 64 * 2 ^ 128)

/-- A REG_RD, REG_WR or REG_RSP packet (R350). -/
def regBytes (ptype : Nat) (r : RegPkt) : Body :=
  leBytes 24 (ptype + (if ptype = 0x0A then b2n r.err * 2 ^ 9 else b2n r.wide * 2 ^ 8) + r.srcOrd % 64 * 2 ^ 16 + r.rid % 65536 * 2 ^ 32 +
    (if ptype = 0x0A then 0 else r.addr % 2 ^ 24 * 2 ^ 64) + (if ptype = 8 then 0 else r.data % 2 ^ 64 * 2 ^ 128))

/-- A DATA packet (R333). -/
def dataBytes (d : DataPkt) : Body :=
  leBytes 16 (4 + d.func % 16 * 2 ^ 16 + (d.bytes.length - 1) % 4096 * 2 ^ 20 + d.tag % 65536 * 2 ^ 32 + d.handle % 2 ^ 32 * 2 ^ 64 +
    d.offset % 2 ^ 32 * 2 ^ 96) ++ d.bytes

/-- An archipelago packet of R370 Table 3. -/
def xBytes (ptype : Nat) (x : XPkt) : Body :=
  let base := ptype + x.srcOrd % 64 * 2 ^ 8 + x.xid % 2 ^ 32 * 2 ^ 32
  if ptype = 0x13 then leBytes 32 (base + x.func % 16 * 2 ^ 16 + x.addr % 2 ^ 48 * 2 ^ 64 + x.lenM1 % 4096 * 2 ^ 112) ++ x.data
  else if ptype = 0x15 then
    leBytes 32 (base + x.func % 16 * 2 ^ 16 + x.addr % 2 ^ 48 * 2 ^ 64 + x.lenM1 % 4096 * 2 ^ 112 + x.replyAddr % 2 ^ 48 * 2 ^ 128)
  else leBytes 16 (base + b2n x.err * 2 ^ 16) ++ (if ptype = 0x16 then x.data else [])

/-- What an output of the block is as a packet: destination, whether it is a group, class, PTYPE and bytes. -/
def State.packetOf (s : State) : Out → Option (Nat × Bool × FClass × Nat × Body)
  | .cpl dst c => some (dst, false, .rsp, 5, cplBytes c)
  | .xferReady dst f t h g => some (dst, false, .ctl, 2, leBytes 16 (2 + f * 2 ^ 16 + t * 2 ^ 32 + h * 2 ^ 64 + g * 2 ^ 96))
  | .busyRetry dst c f t h => some (dst, false, .ctl, 3, leBytes 16 (3 + c * 2 ^ 8 + f * 2 ^ 16 + t * 2 ^ 32 + h * 2 ^ 48))
  | .event e => some (s.bridgeOrd, false, .rsp, 6, eventBytes 6 e)
  | .regRsp dst r => some (dst, false, .rsp, 0x0A, regBytes 0x0A r)
  | .cmd o h b => some (o, false, .req, 1, cmdBytes h b)
  | .data o d => some (o, false, .req, 4, dataBytes d)
  | .regRead o r => some (o, false, .req, 8, regBytes 8 r)
  | .regWrite o r => some (o, false, .req, 9, regBytes 9 r)
  | .packet dst g t b => some (dst, g, .ctl, t, b)
  | .xwrite dst x => some (dst, false, .req, 0x13, xBytes 0x13 x)
  | .xmulti g x => some (g, true, .req, 0x13, xBytes 0x13 x)
  | .xread dst x => some (dst, false, .req, 0x15, xBytes 0x15 x)
  | .xack dst x => some (dst, false, .rsp, 0x14, xBytes 0x14 x)
  | .xreadRsp dst x => some (dst, false, .rsp, 0x16, xBytes 0x16 x)
  | _ => none

/-- The function that a packet names: of its command, completion, body or transfer; 16 where it names none, and the bytes are
unattributed (R318). -/
def packetFunc (ptype : Nat) (b : Body) : Nat :=
  if [0x01, 0x02, 0x03, 0x04, 0x05, 0x13, 0x15].contains ptype || (ptype == 0x06 && fld b 20 20 == 0) then fld b 19 16 else 16

/-- Zwinyx bytes of a packet that starts or ends here are charged to the function it names (R318); those of its route header, tag and
trailer, and of frames in transit, are not counted (DESIGN CHOICE, log entry 78). -/
def State.linkTraffic (s : State) (f n : Nat) : State := s.charge f (fun a => { a with link := a.link + n })

/-- The link layer takes the oldest output that it has not taken yet; a packet for another device becomes a frame, and one for this device
reaches it. An answer to a transfer
is charged to the transfer's function. -/
def State.frameNext (s : State) : State :=
  match s.outbox[s.zwx.framed]? with
  | none => s
  | some o =>
    let s1 : State := { s with zwx := { s.zwx with framed := s.zwx.framed + 1 } }
    match s.packetOf o with
    | some (dst, g, cls, t, b) =>
      let f := match o with
        | .xack _ x => x.func
        | .xreadRsp _ x => x.func
        | _ => packetFunc t b
      if !g && dst == s.fix.ord then { s1 with zwx := { s1.zwx with inbox := s1.zwx.inbox ++ [(dst, t, b)] } } else (s1.linkTraffic f b.length).launch dst g cls t b
    | none => s1

/-! ## Order at the target (R367) -/

/-- A PATH_LOST packet to the bridge, and to others. -/
def State.pathLostTo (s : State) (dsts : List Nat) (lost cause : Nat) : State :=
  dsts.foldl (fun s d => s.emit (.packet d false 0x12 (leBytes 16 (0x12 + s.fix.ord % 64 * 2 ^ 8 + lost % 64 * 2 ^ 16 + cause * 2 ^ 24)))) s

/-- The function whose bytes a packet received is: of the transfer that an XACK or XREAD_RSP answers, or the one that it names. -/
def State.frameFunc (s : State) (f : FrameIn) : Nat :=
  if f.ptype = 0x14 ∨ f.ptype = 0x16 then
    ((s.zwx.xfers.find? (fun o => o.xid == fld f.body 63 32 && o.dst == f.src)).map (fun o => o.x.func)).getD 16
  else packetFunc f.ptype f.body

/-- Delivers a frame's packet to the command engine. -/
def State.delivered (s0 : State) (f : FrameIn) : State :=
  let s := s0.linkTraffic (s0.frameFunc f) f.body.length
  { s with zwx := { s.zwx with inbox := s.zwx.inbox ++ [(f.src, f.ptype, f.body)] } }

/-- The receiving order of a frame's source and class, or group. -/
def State.eseqOf (s : State) (src : Nat) (cls : FClass) (g : Option Nat) : EseqRx :=
  (s.zwx.eseqRx.find? (fun e => e.src == src && e.cls == cls && e.group == g)).getD
    { src := src, cls := cls, group := g, next := 0, held := [], since := 0 }

/-- Replaces a receiving order. -/
def State.putEseq (s : State) (x : EseqRx) : State :=
  { s with zwx := { s.zwx with
    eseqRx := s.zwx.eseqRx.filter (fun e => !(e.src == x.src && e.cls == x.cls && e.group == x.group)) ++ [x] } }

/-- How far an ESEQ lies past the next one due. -/
def EseqRx.ahead (x : EseqRx) (n : Nat) : Nat := (n + 65536 - x.next) % 65536

/-- Delivers the held frames that have become due. -/
def State.drainEseq : Nat → EseqRx → State → State
  | 0, x, s => s.putEseq x
  | n + 1, x, s =>
    match x.held.find? (fun f => f.eseq == x.next) with
    | none => s.putEseq { x with since := s.now }
    | some f => State.drainEseq n { x with next := (x.next + 1) % 65536, held := x.held.erase f } (s.delivered f)

/-- Delivers past a gap: the lowest held frame becomes due, and PATH_LOST names the source to the bridge; at the bridge itself the path has
failed (R349, R367). -/
def State.passGap (s : State) (x : EseqRx) : State :=
  match x.held with
  | [] => s
  | f :: fs =>
    let g := fs.foldl (fun b h => if x.ahead h.eseq < x.ahead b.eseq then h else b) f
    let s0 := (s.count Reg.archGapCnt).pathLostTo [s.bridgeOrd] x.src 1
    let s1 := if s.fix.bridge then s0.pathFail x.src else s0
    s1.drainEseq x.held.length { x with next := g.eseq }

/-- The receiving order to which a frame belongs: of its source and class, or of its source and group (R367). -/
def State.orderOf (s : State) (f : FrameIn) : EseqRx := s.eseqOf f.src (if f.mc then .ctl else f.cls) (if f.mc then some f.group else none)

/-- Whether a frame that ends here has been delivered, or is held. -/
def State.seen (s : State) (f : FrameIn) : Bool :=
  decide ((s.orderOf f).ahead f.eseq ≥ 32768) || (s.orderOf f).held.any (fun g => g.eseq == f.eseq)

/-- Takes a frame that ends here: in ESEQ order, duplicates discarded, frames after a gap held (R367). -/
def State.readFrame (s : State) (f : FrameIn) : State :=
  let x := s.orderOf f
  let d := x.ahead f.eseq
  if d = 0 then (s.delivered f).drainEseq x.held.length { x with next := (x.next + 1) % 65536 }
  else if s.seen f then s.count Reg.archDupDropCnt
  else
    let y := { x with held := x.held ++ [f], since := if x.held.isEmpty then s.now else x.since }
    if (y.held.map (fun g => frameBytes false g)).sum ≥ 1048576 then s.passGap y else s.putEseq y

/-! ## Port states (R356, R359, R361, R376) -/

/-- A port goes DOWN: it is counted, its keys are gone, and its frames return to routing with their ESEQ unchanged (R359, R368, R425).
`retrain` says that it starts training at once. -/
def State.portDown (s : State) (n cause : Nat) (retrain : Bool) : State :=
  let p := s.port n
  let fs := p.replay.map (fun r => r.f) ++ p.queue
  let s1 := s.updPort n (fun p => { Port.reset n with
    st := if retrain then .training else .down, cause := cause, tried := p.tried, laneMask := p.laneMask, lanes := p.lanes, lanesPub := p.lanesPub
    retiredAt := p.retiredAt, since := s.now })
  let s2 := s1.count (Reg.zwxDownCnt n)
  fs.foldl (fun s f => if f.mc then s.copyTo f n else s.forward f none) s2

/-- A receiver's credit for a frame that has left its buffers (R360). The bridge withholds it for RSP frames that end there while
completions wait for a full ring (R347). -/
def State.returnCredit (s : State) (n : Nat) (f : FrameIn) (transit : Bool) : State :=
  let u := (s.port n).units f
  if s.fix.bridge && f.cls == .rsp && !transit && !s.brg.waits.isEmpty then
    { s with zwx := { s.zwx with owed := s.zwx.owed ++ [(n, f.vc, u)] } }
  else s.emit (.credit n f.cls f.vc transit u)

/-- Returns the withheld credit once no completion waits. -/
def State.payCredit (s : State) : State :=
  if !s.brg.waits.isEmpty then s
  else ({ s with zwx := { s.zwx with owed := [] } } : State).emits (s.zwx.owed.map (fun (o : Nat × Nat × Nat) => .credit o.1 .rsp o.2.1 false o.2.2))

/-- A frame that fails its CRC or its tag (`bad`), or that is missing before the one received: NAK names the last good LSEQ, and frames are
discarded until it arrives again; a discarded frame that fails is answered too (R358). -/
def State.refuseFrame (s : State) (n : Nat) (bad : Bool) : State :=
  let p := s.port n
  if p.discarding && !bad then s
  else ((s.updPort n (fun p => { p with discarding := true })).emit (.nak n ((p.rxSeq + 65535) % 65536))).count (Reg.zwxNakCnt n)

/-- The codewords of a frame that were corrected, and where its CRC fails those beyond correction, are counted: free numbers of its codewords
of 5,140 bits (R357, R376; DESIGN CHOICE, log entry 82). -/
def State.fecCount (s : State) (n : Nat) (f : FrameIn) : State :=
  let w := cdiv (frameBytes (s.port n).enc f * 8) 5140
  (({ s with fresh := s.fresh + 2 } : State).count (Reg.zwxFecCorrCnt n) (Config.pick s.fresh % (w + 1))).count (Reg.zwxFecUncorrCnt n)
    (if f.crcOk then 0 else Config.pick (s.fresh + 1) % (w + 1))

/-- FRAME: a frame arrives at a port. With a good CRC and tag and the next LSEQ it is acknowledged, and delivered in ESEQ order, copied to
the members of its group, or routed on (R358, R360, R361, R366 to R368, R372). -/
def execFrame (port : Nat) (f : FrameIn) (st : State) : Host.Outcome State Fault Refusal :=
  .next (if !st.portUp port then st
  else
    let s := st.fecCount port f
    let p := s.port port
    if p.enc && !f.tagOk then
      let s1 := (s.updPort port (fun p => { p with tagFails := p.tagFails + 1 })).count (Reg.zwxEncFailCnt port)
      if p.tagFails + 1 ≥ 16 then s1.portDown port 6 true else s1.refuseFrame port true
    else
      let s0 := s.updPort port (fun p => { p with tagFails := 0 })
      if !f.crcOk then s0.refuseFrame port true
      else if f.lseq ≠ p.rxSeq then
        let behind := decide ((p.rxSeq + 65536 - f.lseq) % 65536 ≤ 32768)
        if behind then
          (s0.updPort port (fun q => { q with discarding := q.discarding && decide (f.lseq ≠ (p.rxSeq + 65535) % 65536) })).emit
            (.ack port ((p.rxSeq + 65535) % 65536))
        else s0.refuseFrame port false
      else
        let s1 := (s0.updPort port (fun p => { p with
          rxSeq := (f.lseq + 1) % 65536, discarding := false
          oldKey := p.oldKey && f.keyPhase == p.rxPhase, rxPhase := if p.enc then f.keyPhase else p.rxPhase })).emit (.ack port f.lseq)
        if f.mc then
          let here := (s.members f.group).contains s.fix.ord
          let again := f.src == s.fix.ord || (here && s.seen f)
          let s2 := s1.returnCredit port f (!here)
          let s3 := if here && f.src != s.fix.ord then s2.readFrame f else s2
          if s.onTree f port && !again then s3.copyOut f else s3.copyOn f port again
        else
          let s2 := s1.returnCredit port f (f.dst != s.fix.ord)
          if f.dst = s.fix.ord then s2.readFrame f else s2.forward f (some port))

/-- Frees the replay buffer up to an LSEQ. -/
def Port.acked (p : Port) (lseq : Nat) : Port :=
  { p with replay := p.replay.filter (fun r => decide ((lseq + 65536 - r.lseq) % 65536 ≥ 32768)) }

/-- ACK: the frames up to the named LSEQ leave the replay buffer (R358). -/
def execAck (port lseq : Nat) (s : State) : Host.Outcome State Fault Refusal :=
  .next (if !s.portUp port then s
  else
    let s1 := s.updPort port (fun p => p.acked lseq)
    s1.pump (s1.port port).queue.length port)

/-- NAK: the frames before the named LSEQ are acknowledged, and those from it onward are sent again in order (R358). -/
def execNak (port lseq : Nat) (s : State) : Host.Outcome State Fault Refusal :=
  .next (if !s.portUp port then s
  else
    let s1 := s.updPort port (fun p =>
      let q := p.acked ((lseq + 65535) % 65536)
      { q with replay := q.replay.map (fun r => { r with at_ := s.now }) })
    let fs := (s1.port port).replay
    let s2 := s1.emits (fs.map (fun r => .frame port r.f r.wire))
    if fs.isEmpty then s2 else s2.count (Reg.zwxReplayCnt port) fs.length)

/-- CREDIT: the peer grants credit for a class, VC and pool, and frames that waited for it go (R360). -/
def execCredit (port : Nat) (cls : FClass) (vc : Nat) (transit : Bool) (units : Nat) (s : State) : Host.Outcome State Fault Refusal :=
  .next (if !s.portUp port then s
  else
    let k := (cls, vc, transit)
    let s1 := s.updPort port (fun p => p.setCredit k (p.has k + units))
    s1.pump (s1.port port).queue.length port)

/-- MISSED_ACK: no acknowledgement of the oldest frame comes within 1 µs plus twice the flight time plus 50 ns: the port goes DOWN and
retrains (R359). -/
def execMissedAck (port : Nat) (s : State) : Host.Outcome State Fault Refusal :=
  .next (if !s.portUp port then s
  else match (s.port port).replay with
  | [] => s
  | r :: _ => ((s.elapseTo (r.at_ + 1000 + 2 * (s.port port).flight + 50)).count (Reg.zwxMissedAckCnt port)).portDown port 1 true)

/-- The readings of a lane, MARGIN and SER_EXP, as a retirement or a return shows them: a margin below MARGIN_MIN, or an error rate above
10^−BER_EXP, retires it, and both thresholds are met when it rejoins. They are free within that (R356). -/
def State.readLane (s : State) (lane : Nat) (cause : Option LaneCause) : State :=
  let w := s.rd (Reg.zwxLaneCfg (lane / 8))
  let b := bits w 11 8
  let m := bits w 7 0
  let x := Config.pick s.fresh
  let set (l : Nat × Nat × Nat) : Nat × Nat × Nat := match cause with
    | some .margin => (l.1, l.2.1, x % max 1 m)
    | some .errorRate => (l.1, x % max 1 b, l.2.2)
    | some .lockLost => l
    | none => (l.1, b + x % (16 - b), m + x % (256 - m))
  ({ s with fresh := s.fresh + 1 } : State).updPort (lane / 8) (fun p => { p with lanes := updAt (lane % 8) set p.lanes })

/-- LANE_RETIRE: a lane with a low margin, a high error rate or a lost lock is retired and the port narrows; a port with no working lane
is DOWN (R356). -/
def State.onLaneRetire (s0 : State) (lane : Nat) (cause : LaneCause) : State :=
  let n := lane / 8
  let s := s0.readLane lane (some cause)
  (if !s0.portUp n || !bit (s0.port n).laneMask (lane % 8) then s0
  else
    let m := setBits (s.port n).laneMask (lane % 8) (lane % 8) 0
    let out (p : Port) : Port := { p with
      laneMask := m, lanes := updAt (lane % 8) (fun l => (0, l.2)) p.lanes, retiredAt := updAt (lane % 8) (fun _ => s.now) p.retiredAt }
    let s1 := ((s.updPort n out).count (Reg.zwxLaneFailCnt n)).faultLog 0x12 n 0x09 0 0 0
    if m = 0 then s1.portDown n 5 false else s1)

/-- LANE_RETIRE as a command. -/
def execLaneRetire (lane : Nat) (cause : LaneCause) (s : State) : Host.Outcome State Fault Refusal := .next (s.onLaneRetire lane cause)

/-- LANE_REJOIN: a retrained lane rejoins its port once it has met both thresholds for 1 s; a port that had none trains again (R356). -/
def execLaneRejoin (lane : Nat) (s0 : State) : Host.Outcome State Fault Refusal :=
  let n := lane / 8
  let p := s0.port n
  let s := (s0.elapseTo (p.retiredAt.getD (lane % 8) 0 + 1000000000)).readLane lane none
  let join (s : State) : State := s.updPort n (fun p => { p with
    laneMask := setBits p.laneMask (lane % 8) (lane % 8) 1, lanes := updAt (lane % 8) (fun l => (1, l.2)) p.lanes })
  .next (if lane ≥ 64 || bit p.laneMask (lane % 8) then s0
  else if p.st = .up then join s
  else if p.st = .down ∧ p.cause = 5 then (join s).updPort n (fun p => { p with st := .training, since := s.now })
  else s0)

/-- An exchange gives a port a new key and salt for the direction it sends (R361, R424): free values. -/
def State.newKeys (s : State) (n : Nat) : State :=
  ({ s with fresh := s.fresh + 2 } : State).updPort n (fun p => { p with keys := some (Config.freeBits s.fresh % 2 ^ 256, Config.freeBits (s.fresh + 1) % 2 ^ 32) })

/-- REKEY: an end that has sent 2^47 frames under one key starts a new exchange on the running port (R425). -/
def execRekey (port : Nat) (s : State) : Host.Outcome State Fault Refusal :=
  let p := s.port port
  .next (if p.st = .up && p.enc && decide (p.frames ≥ 2 ^ 47) && !p.rekeying && p.retryAt == 0 then
    (s.updPort port (fun p => { p with rekeying := true })).emit (.keyExchange port)
  else s)

/-- KEY_SPENT: a key has reached 2^48 frames and the port goes DOWN until training makes a new one (R361, R425). -/
def execKeySpent (port : Nat) (s : State) : Host.Outcome State Fault Refusal :=
  let p := s.port port
  .next (if p.st = .up && p.enc && decide (p.frames ≥ 2 ^ 48) then s.portDown port 4 true else s)

/-- KEY_EXCHANGE_DONE: an exchange on a running port ends. Both directions take the new keys at the KEY_PHASE flip, or the old keys stay
and the exchange is tried again after 1 s (R425). -/
def execKeyExchangeDone (port : Nat) (ok : Bool) (s : State) : Host.Outcome State Fault Refusal :=
  let p := s.port port
  .next (if p.st != .up || !p.enc then s
  else if ok then
    let s1 := ((s.newKeys port).updPort port (fun p => { p with
      txPhase := 1 - p.txPhase, frames := 0, oldKey := true, rekeying := false, retryAt := 0 })).count Reg.secRekeyCnt
    s1.pump (s1.port port).queue.length port
  else if p.rekeying then s.updPort port (fun p => { p with rekeying := false, retryAt := s.now + 1000000000 }) else s)

/-- REKEY_RETRY: 1 s after a failed exchange the end starts it again (R425). -/
def execRekeyRetry (port : Nat) (s : State) : Host.Outcome State Fault Refusal :=
  let p := s.port port
  .next (if p.st = .up && decide (p.retryAt > 0) && !p.rekeying then
    ((s.elapseTo p.retryAt).updPort port (fun p => { p with rekeying := true, retryAt := 0 })).emit (.keyExchange port)
  else s)

/-! ## Host link of the bridge (R362, R363, R455) -/

/-- The bridge's rings reset, and the RSP sink credit that it withheld for them is returned (R363). -/
def State.hostDown (s : State) : State := s.hostReset.payCredit

/-- The bridge's host link is down; it trains again where nothing holds it down (R363, R455). -/
def State.hostLinkDown (s : State) : State :=
  let s1 := s.hostDown
  [6, 7].foldl (fun s n => s.updPort n (fun p => { p with st := .down, since := s.now }))
    { s1 with zwx := { s1.zwx with hostUp := false }, pwr := { s1.pwr with linkTraining := !s1.pwr.perst } }

/-- PCIE_LINK_UP: the bridge's endpoint completes link training; HOST_UP is 1 and ports 6 and 7 are in host mode (R362). The endpoint is of both
ports, and a port that PORT_CFG holds disabled keeps it down (R376). -/
def execPcieLinkUp (s : State) : Host.Outcome State Fault Refusal :=
  .next (if !s.powered || !s.fix.bridge || s.pwr.perst || !bit (s.rd (Reg.zwxPortCfg 6)) 0 || !bit (s.rd (Reg.zwxPortCfg 7)) 0 then s
  else
    let s1 : State := { s with zwx := { s.zwx with hostUp := true }, pwr := { s.pwr with linkTraining := false } }
    [6, 7].foldl (fun s n => s.updPort n (fun p => { p with st := .host, since := s.now })) s1)

/-- PCIE_LINK_DOWN: the link goes down and the bridge's rings reset (R363). -/
def execPcieLinkDown (s : State) : Host.Outcome State Fault Refusal :=
  .next (if s.fix.bridge then s.hostLinkDown else s)

/-- FUNCTION_LEVEL_RESET: the bridge's rings reset (R363). -/
def execFunctionLevelReset (s : State) : Host.Outcome State Fault Refusal := .next (if s.fix.bridge then s.hostDown else s)

/-- D3HOT_ENTRY: the bridge's rings reset (R363). -/
def execD3hotEntry (s : State) : Host.Outcome State Fault Refusal := .next (if s.fix.bridge then s.hostDown else s)

/-! ## Holds and transfers (R367, R369, R371, R373) -/

/-- GAP_HOLD_EXPIRE: a gap in ESEQ has not been filled within ROUTE_HOLD_US, and the target delivers past it (R367). -/
def execGapHoldExpire (src : Nat) (cls : FClass) (group : Option Nat) (s : State) : Host.Outcome State Fault Refusal :=
  let x := s.eseqOf src (if group.isSome then .ctl else cls) group
  .next (if x.held.isEmpty then s
  else (s.elapseTo (x.since + bits (s.rd Reg.archHoldCfg) 9 0 * 1000)).passGap x)

/-- XRESEND: ROUTE_HOLD_US passes without an answer and the sender resends under the same XID (R371). -/
def execXresend (xid : Nat) (s : State) : Host.Outcome State Fault Refusal :=
  .next (match s.zwx.xfers.find? (fun o => o.xid == xid) with
  | none => s
  | some o =>
    let s1 := s.elapseTo (o.sentAt + bits (s.rd Reg.archHoldCfg) 9 0 * 1000)
    let s2 : State := { s1 with zwx := { s1.zwx with
      xfers := s1.zwx.xfers.map (fun y => if y = o then { y with sentAt := s1.now } else y) } }
    (s2.count Reg.archXresendCnt).emit (if o.write then .xwrite o.dst o.x else .xread o.dst o.x))

/-! ## Idling -/

/-- What passes while no command waits: one 40 ns tick of the time base (R391), in which the bridge sends what it holds (R346) and the
link layer takes one output (R358, R367). -/
def State.idle (s : State) : State := ((s.elapse 40).ringRelease).frameNext

end Sys2Proof.Machine
end

