-- ==== Sys2Proof/Machine/Sched.lean ====
section
/-! DEFINITION. Pre-emption, residency starvation, slow islands, accounting windows, and the partition reset of a function (R297,
R310 to R321, R411). -/

namespace Sys2Proof.Machine

/-! ## Pre-emption (R310, R311) -/

/-- The running task that R311 kills for a waiting task of class `c`: of the lowest class below `c`, the one that started last, unless
R311 has killed it four times. -/
def State.victim (s : State) (island c : Nat) : Option Task :=
  let ts := s.sch.tasks.filter (fun t => t.island == island && t.islet.isSome && !t.killing && decide (t.kills < 4) && decide (t.cls < c))
  ts.foldl (fun b t => match b with
    | none => some t
    | some x => if t.cls < x.cls ∨ (t.cls = x.cls ∧ x.started ≤ t.started) then some t else some x) none

/-- PREEMPT_WAIT_EXPIRE: a ready task has waited longer than WAIT_US with no free islet, and a running task of a lower class is killed,
at most once per WAIT_US (R311). -/
def execPreemptWaitExpire (island : Nat) (s : State) : Host.Outcome State Fault Refusal :=
  let w := bits (s.rd Reg.schedPreemptCfg) 13 0 * 1000
  let waiting := s.sch.tasks.filter (fun t => t.island == island && t.islet.isNone && t.ready && (s.victim island t.cls).isSome)
  .next (match waiting with
  | [] => s
  | t0 :: ts =>
    let t := ts.foldl (fun b x => if x.key < b.key then x else b) t0
    if !bit (s.rd Reg.schedPreemptCfg) 16 || !(s.freeIslets island).isEmpty then s
    else match s.victim island t.cls with
    | none => s
    | some v =>
      let again := ((s.sch.lastPreempt.find? (fun e => e.1 == island)).map (fun e => e.2 + w)).getD 0
      let s1 := s.elapseTo (max (t.entered + w + 1) again)
      let s2 := s1.updTask v.id (fun x => { x with killing := true, kills := x.kills + 1 })
      ({ s2 with sch := { s2.sch with
          lastPreempt := s2.sch.lastPreempt.filter (fun e => e.1 != island) ++ [(island, s2.now)] } } : State).count Reg.schedPreemptCnt)

/-- Whether a task's command has ended, so that a killed task does not come back (R310). -/
def State.taskGone (s : State) (t : Task) : Bool :=
  (match t.cmd with
    | some r => (s.live? r).isNone
    | none => false) ||
  (match s.fstate t.func with
    | .resetting _ _ => true
    | _ => false)

/-- TASK_KILL: a killed task stops at the end of its pass; it returns to the front of its queue with its entry time, unless its
command has ended (R310). -/
def execTaskKill (islet : Nat) (s : State) : Host.Outcome State Fault Refusal :=
  .next (match s.sch.tasks.find? (fun t => t.islet == some islet && t.killing) with
  | none => s
  | some t =>
    let s2 := s.killRun t
    if s2.taskGone t then { s2 with sch := { s2.sch with tasks := s2.sch.tasks.filter (fun x => x.id != t.id) } }
    else s2.updTask t.id (fun x => { x with islet := none, killing := false, tiles := 0, save := none, since := s2.now, ran := 0 }))

/-! ## Residency starvation (R312) -/

/-- Whether a resident context holds an accepted command. -/
def State.ctxHolds (s : State) (c : Nat) : Bool := !(s.ctxLive c).isEmpty

/-- Whether a context runs a task now. -/
def State.ctxRuns (s : State) (c : Nat) : Bool := s.sch.tasks.any (fun t => t.ctx == some c && t.islet.isSome)

/-- The time from which a resident context that runs no task has been idle or blocked without interruption: since its admission, and where it
held commands within 1 ms of its last task, from the end of that 1 ms or of those commands (R312). -/
def State.quietFrom (s : State) (c : Ctx) : Nat :=
  match s.sch.lastRan.find? (fun e => e.1 == c.id) with
  | none => c.since
  | some e =>
    let b := e.2 + 1000000
    max c.since (if (s.ctxLive c.id).any (fun l => decide (l.came < b)) then b else min b c.done)

/-- The time from which a waiting context has held the commands that it holds. -/
def State.heldFrom (s : State) (c : Ctx) : Option Nat :=
  match (s.ctxLive c.id).map (fun l => l.came) with
  | [] => none
  | x :: xs => some (max c.since (xs.foldl min x))

/-- The time from which the conditions of R312 have held together. -/
def State.starveFrom (s : State) : Nat :=
  let waits := (s.sch.ctxs.filter (fun c => c.st == .waiting)).filterMap s.heldFrom
  ((s.sch.ctxs.filter (fun c => c.st == .resident)).map s.quietFrom).foldl max (waits.foldl min (waits.headD 0))

/-- The conditions of R312, apart from their durations. -/
def State.starving (s : State) : Bool :=
  let rs := s.sch.ctxs.filter (fun c => c.st == .resident)
  rs.length == 8 && rs.all (fun c => !s.ctxHolds c.id || !s.ctxRuns c.id) &&
  s.sch.ctxs.any (fun c => c.st == .waiting && s.ctxHolds c.id)

/-- RESIDENCY_STARVED: the conditions have held for WAIT_MS, or for a further WAIT_MS since the event was raised: STARVED and the interrupt are set, the event goes to the host, and it is
counted (R312). -/
def execResidencyStarved (s : State) : Host.Outcome State Fault Refusal :=
  .next (if !s.starving then s
  else
    let rs := s.sch.ctxs.filter (fun c => c.st == .resident)
    let blocked := rs.filter (fun c => s.ctxHolds c.id)
    let t0 := max s.starveFrom (s.sch.starved.getD 0)
    let s1 := s.elapseTo (t0 + bits (s.rd Reg.schedStarveCfg) 13 0 * 1000000)
    let mask (cs : List Ctx) : Nat := (cs.map (fun c => 2 ^ c.slot)).sum
    ((({ s1 with sch := { s1.sch with starved := some s1.now } } : State).irq (basePage 7 0) 0).event 1 0 true
      (mask rs + mask blocked * 256)).count Reg.schedStarveCnt)

/-! ## Slow islands (R315) -/

/-- The cause of slow samples (R315): 0 DROOP, 1 THERMAL, 2 CAP, 3 HOLD, by the ceilings of the last slow sample. -/
def State.slowCause (s : State) (island : Nat) : Nat :=
  let n := s.setClock island
  if n = (if s.pwr.st = .hold then 8 else 32) then 3
  else if n = ((s.mm.stk[island / 16]?).map StackSt.nTherm).getD 32 then 1 else 2

/-- One island's sample. -/
def State.slowStep (s : State) (x : SlowSt) (slow : Bool) : SlowSt :=
  if slow then
    let m := if x.slow = 0 then s.setClock x.island else min x.minN (s.setClock x.island)
    let raised := decide (x.slow + 1 > 10) && !x.flag
    { x with slow := x.slow + 1, fast := 0, minN := m, cause := if m ≥ 28 then 0 else s.slowCause x.island
             flag := x.flag || raised, report := x.report || raised }
  else
    { x with slow := 0, fast := x.fast + 1, flag := x.flag && decide (x.fast + 1 < 10) }

/-- SLOW_SAMPLE: each 1 ms the scheduler counts each island's cycles; an island that is slow in more than 10 samples in a row is flagged,
and 10 fast samples in a row clear it. Islands that the reading does not name were fast (R315). -/
def execSlowSample (rs : List CycleReading) (s : State) : Host.Outcome State Fault Refusal :=
  .next (if !s.powered then s
  else
    let s1 := s.elapseTo (s.sch.lastSample + 1000000)
    let slow (i : Nat) : Bool := rs.any (fun r => r.island == i && decide (r.cycles < 1190000))
    let new := ((rs.filter (fun r => decide (r.cycles < 1190000) && !s.sch.slow.any (fun x => x.island == r.island))).map (fun r => r.island)).eraseDups
    let all := s.sch.slow ++ new.map (fun i =>
      ({ island := i, slow := 0, fast := 0, flag := false, minN := 32, cause := 0, report := false } : SlowSt))
    let next := all.map (fun x => s1.slowStep x (slow x.island))
    let raised := ((all.zip next).filter (fun p => p.2.report && !p.1.report)).length
    let s2 : State := { s1 with sch := { s1.sch with
      slow := next.filter (fun x => x.flag || x.report || decide (x.slow > 0)), lastSample := s.sch.lastSample + 1000000 } }
    if raised > 0 then (s2.irq (basePage 7 0) 1).count Reg.schedSlowEvCnt raised else s2)

/-! ## Accounting (R317 to R319) -/

/-- Charges the running tasks up to the time `u`. -/
def State.flushRuns (s : State) (u : Nat) : State :=
  (s.sch.tasks.filter (fun t => t.islet.isSome)).foldl (fun s t =>
    (s.chargeSince t u).updTask t.id (fun x => { x with ran := x.ran + (u - x.since), since := max u x.since })) s

/-- Charges the queued ready tasks for their wait up to the time `u`. -/
def State.flushWaits (s : State) (u : Nat) : State :=
  (s.sch.tasks.filter (fun t => t.islet.isNone && t.ready)).foldl (fun s t =>
    (s.chargeWait t u).updTask t.id (fun x => { x with since := max u x.since })) s

/-- Takes the charges that waited for a new window into it; those of later windows go on waiting (R317). -/
def State.takeLate (s : State) : State :=
  s.sch.late.foldl State.chargeSpan { s with sch := { s.sch with late := [] } }

/-- The measured slowdown of R319. -/
def SlotAcct.slowdown (a : SlotAcct) : Nat := min 0xFFFF (256 * (a.busy + a.qwait + a.killed + a.switched) / max a.busy 1)

/-- ACCT_WINDOW_CLOSE: the accounting window ends on device time: intervals are split at its edge, the records are latched and a new
window starts with the period now set, with what has happened since that edge (R317, R318, R319). -/
def execAcctWindowClose (s : State) : Host.Outcome State Fault Refusal :=
  .next (if !s.powered then s
  else
    let s1 := ((s.elapseTo s.sch.windowEnd).flushRuns s.sch.windowEnd).flushWaits s.sch.windowEnd
    let c := s1.sch
    (({ s1 with sch := { c with
        closed := c.cur, cur := List.replicate 17 Acct.zero
        snap := (c.snap.zip c.cur).map (fun p => (p.1.1 - (p.2.link : Int), p.1.2 - ((p.2.t3rd + p.2.t3wr : Nat) : Int)))
        slotClosed := c.slotCur.map SlotAcct.slowdown, slotCur := List.replicate 8 SlotAcct.zero
        closedWin := some c.window, window := c.window + 1, windowStart := c.windowEnd
        windowEnd := c.windowEnd + bits (s1.rd Reg.schedAcctCfg) 15 0 * 1000000 } } : State).takeLate).irq (basePage 7 0) 2)

/-- Shares `e` among the entries of one list in proportion to their weights: (record, part). -/
def shareOut (e : Nat) (ws : List (Nat × Nat)) : List (Nat × Nat) :=
  let total := (ws.map (fun w => w.2)).sum
  if total = 0 then [] else ws.map (fun w => (w.1, e * w.2 / total))

/-- The link and flash bytes of a record, counted from the start of the open window. -/
def State.netBytes (s : State) (f : Nat) : Int × Int :=
  let l := (s.sch.late.filter (fun x => x.func == f)).map (fun x => x.a) ++ s.sch.cur[f]?.toList
  ((((l.map (fun a => a.link)).sum : Nat) : Int), (((l.map (fun a => a.t3rd + a.t3wr)).sum : Nat) : Int))

/-- The energy of a sample that functions are charged with: of islands by islet busy time, of stacks by bytes, of links and flash by
theirs (R318). -/
def State.energyParts (s : State) (r : EnergyReading) : List (Nat × Nat) :=
  let isl := r.perIsland.flatMap (fun p => shareOut p.2 ((s.sch.islandBusy.filter (fun b => b.1 == p.1)).map (fun b => b.2)))
  let stk := r.perStack.flatMap (fun p => shareOut p.2 (((s.mm.stk[p.1]?).map StackSt.fb).getD []))
  let net := s.sch.snap.mapIdx (fun f b => (f, (((s.netBytes f).1 - b.1).toNat, ((s.netBytes f).2 - b.2).toNat)))
  isl ++ stk ++ shareOut r.links (net.map (fun q => (q.1, q.2.1))) ++ shareOut r.flash (net.map (fun q => (q.1, q.2.2)))

/-- ENERGY_SAMPLE: each 1 ms the energy is sampled and shared; what no function is charged with goes to the unattributed record. The
sample belongs to the window that holds its start (R317, R318). -/
def execEnergySample (r : EnergyReading) (s : State) : Host.Outcome State Fault Refusal :=
  .next (if !s.powered then s
  else
    let t := s.sch.energyAt
    let s0 := s.elapseTo (t + 1000000)
    let s1 := s0.flushRuns s0.now
    let parts := (s1.energyParts r).filter (fun p => decide (p.1 < 16))
    let e (f : Nat) : Acct := { Acct.zero with energy :=
      if f = 16 then r.total - (parts.map (fun p => p.2)).sum else ((parts.filter (fun p => p.1 == f)).map (fun p => p.2)).sum }
    let s2 := if t < s1.sch.windowStart then
        ({ s1 with sch := { s1.sch with closed := s1.sch.closed.mapIdx (fun f a => a.add (e f)) } } : State)
      else (List.range 17).foldl (fun s f => s.chargeSpan { t0 := t, t1 := t, func := f, a := e f, slot := none, sa := SlotAcct.zero }) s1
    { s2 with
      sch := { s2.sch with snap := (List.range 17).map s2.netBytes, energyAt := t + 1000000, islandBusy := [] }
      mm := { s2.mm with stk := s2.mm.stk.map (fun x => { x with fb := [] }) } })

/-! ## Functions and the partition reset (R297, R320, R411) -/

/-- Draws the at-rest key of a function, in place of any it has (R423). -/
def State.drawKey (s : State) (f : Nat) : State :=
  { s with sec := { s.sec with
    atRest := s.sec.atRest.filter (fun k => k.1 != f) ++ [(f, s.sec.nextKey)], nextKey := s.sec.nextKey + 1 } }

/-- Whether a function holds contexts, channels or objects. -/
def State.holdsAny (s : State) (f : Nat) : Bool :=
  s.sch.ctxs.any (fun c => c.func == f) || s.sch.chans.any (fun c => c.func == f) || s.mm.objs.any (fun o => o.func == f)

/-- What a new value of FUNC_CFG.EN does (R297, R423). The register has been written. -/
def State.funcEnabled (s : State) (f : Nat) (was : Bool) : State :=
  let put (x : FState) : State := { s with sch := { s.sch with funcs := updAt f (fun _ => x) s.sch.funcs } }
  match s.fstate f with
  | .resetting _ _ => s
  | _ =>
    if s.funcEn f then
      let s1 := put .active
      if s1.sec.atRest.any (fun k => k.1 == f) then s1 else s1.drawKey f
    else if was && s.holdsAny f then s.startReset f 4
    else put .disabled

/-- Whether a partition reset ends a live command with FUNC_RESET at its step 3: it has not committed or waits for its body (R351), or R411 names it. -/
def State.resetEnds (s : State) (l : Live) : Bool :=
  let o := l.h.opcode
  l.stage == .awaiting || s.canAbort l || o == Op.indexLoad || o == Op.indexSave || o == Op.indexCompact || o == Op.modelLoad || o == Op.kv || o == Op.mutate

/-- Stops what works on after its commit point (R411): loads, saves and compaction of the function's indexes, and its model's load. -/
def State.stopWork (s : State) (f : Nat) : State :=
  let idx := s.idx.indexes.map (fun x =>
    if x.func = f then { x with st := if x.st = 1 then 3 else x.st, loadCmd := none, saves := [] } else x)
  let m := s.gen.model
  let m1 := if m.func = f ∧ m.st = 1 then { m with st := 3, loadCmd := none } else m
  { s with
    idx := { s.idx with indexes := idx, passes := s.idx.passes.filter (fun p => !idx.any (fun x => x.no == p.idx && x.func == f)) }
    gen := { s.gen with model := m1 }
    mm := { s.mm with waits := s.mm.waits.filter (fun w => w.h.func != f) } }

/-- PARTITION_RESET_KILLS_DONE: no islet runs a task of the function any longer; its commands that have not committed complete with
FUNC_RESET, and so do those of R411 (R320 step 3). -/
def execPartitionResetKillsDone (func : Nat) (s : State) : Host.Outcome State Fault Refusal :=
  .next (match s.fstate func with
  | .resetting cause false =>
    if s.sch.tasks.any (fun t => t.func == func && t.islet.isSome) then s
    else
      let s1 := (s.dropTasks (fun t => t.func == func)).stopWork func
      let ends := sortBy (fun (l : Live) => l.order) (s1.cmd.live.filter (fun l => l.h.func == func && s1.resetEnds l))
      let s2 := ends.foldl (fun s l => (s.discard l).complete l.h.ref Status.funcReset (s.endBody l Status.funcReset)) s1
      { s2 with sch := { s2.sch with funcs := updAt func (fun _ => .resetting cause true) s2.sch.funcs } }
  | _ => s)

/-- Frees the caches of a function's contexts (R216, R244). -/
def State.freeCaches (s : State) (f : Nat) : State :=
  let mine (c : Nat) : Bool := s.kv.ctxs.any (fun k => k.ctx == c && k.func == f)
  { s with kv := { s.kv with
    ctxs := s.kv.ctxs.filter (fun k => k.func != f), spills := s.kv.spills.filter (fun m => !mine m.ctx)
    promos := s.kv.promos.filter (fun m => !mine m.ctx), relocs := s.kv.relocs.filter (fun m => !mine m.ctx)
    copies := s.kv.copies.filter (fun m => !mine m.ctx), holds := s.kv.holds.filter (fun h => !mine h.1) } }

/-- Frees the objects, pins and shares of a function, with its T3 units and their map entries (R276, R294). A command of another
function on one of its objects ends with OBJ_PARAM. -/
def State.freeObjects (s : State) (f : Nat) : State :=
  let mine := s.mm.objs.filter (fun o => o.func == f)
  let us := (mine.map Obj.units).flatten
  let ops := s.mm.ops.filter (fun x => x.owner == f)
  let waits := s.mm.waits.filter (fun w => w.owner == f)
  let s1 : State := { s with
    mm := { s.mm with
      objs := (s.mm.objs.filter (fun o => o.func != f)).map (fun o =>
        { o with pins := o.pins.filter (fun p => p != f), shares := o.shares.filter (fun x => x.1 != f) })
      ops := s.mm.ops.filter (fun x => x.owner != f), waits := s.mm.waits.filter (fun w => w.owner != f) } }
  let s2 := (mine.foldl (fun s o => s.unforward o.pages) s1).dropUnits (fun u => us.contains (u / 16))
  let fin (s : State) (r : CmdRef) : State := match s.live? r with
    | some l => s.complete r Status.objParam (s.endBody l Status.objParam)
    | none => s
  waits.foldl (fun s w => fin s w.h.ref) (ops.foldl (fun s x => fin s { func := x.func, tag := x.tag }) s2)

/-- Frees the contexts of a function with their slots, slices, shares and channels (R320 step 6). -/
def State.freeContexts (s : State) (f : Nat) : State :=
  let s1 := (s.sch.ctxs.filter (fun c => c.func == f && c.st != .waiting)).foldl (fun s c => s.dropShare (.ctx c.slot)) s
  { s1 with
    sch := { s1.sch with
      ctxs := s1.sch.ctxs.filter (fun c => c.func != f), chans := s1.sch.chans.filter (fun c => c.func != f)
      tasks := s1.sch.tasks.filter (fun t => t.func != f) }
    cmd := { s1.cmd with hints := s1.cmd.hints.filter (fun h => h.func != f) } }

/-- Closes the sequences of a function, discards its steps, and unloads its model and its indexes (R320 step 4). A flow SEQ_OPEN that
had committed ends here. -/
def State.freeWork (s : State) (f : Nat) : State :=
  let s1 := (s.gen.cohorts.filter (fun k => k.func == f)).foldl (fun s k => s.discardStep k.slot) s
  let s2 := (s1.gen.seqs.filter (fun q => q.func == f)).foldl (fun s q =>
    let s3 := s.freeSeq q.slot
    match q.openCmd with
    | some r => s3.complete r Status.funcReset []
    | none => s3) s1
  let s3 := if s2.gen.model.func = f ∧ s2.gen.model.st ≠ 0 then
      let t := s2.dropModel
      { t with sch := { t.sch with mcasts := t.sch.mcasts.filter (fun m => !m.weight) } }
    else s2
  (s3.idx.indexes.filter (fun x => x.func == f)).foldl (fun s x => s.dropIndex x.no) (s3.freeCaches f)

/-- PARTITION_RESET_DONE: every completion of the function is queued; what it held is freed, its at-rest key is replaced, and the
function is ACTIVE, or DISABLED where EN = 0 (R320 steps 4 to 7, R321, R423). -/
def execPartitionResetDone (func : Nat) (s : State) : Host.Outcome State Fault Refusal :=
  .next (match s.fstate func with
  | .resetting cause true =>
    if s.cmd.live.any (fun l => l.h.func == func && !l.flowOpen) || s.sch.tasks.any (fun t => t.func == func && t.islet.isSome) then s
    else
      let s1 := (((((s.freeWork func).freeObjects func).freeContexts func).abandonFunc func).drawKey func)
      let s2 : State := { s1 with sch := { s1.sch with
        funcs := updAt func (fun _ => if s1.funcEn func then .active else .disabled) s1.sch.funcs } }
      let s3 := ((s2.count (Reg.funcResetCnt func)).wr (Reg.funcLastReset func) cause).irq (basePage 0x11 func) 0
      (s3.faultLog 0x11 func 0x0B 0 func 0).event 2 func false cause
  | _ => s)

end Sys2Proof.Machine
end

