-- ==== Sys2Proof/Machine/Faults.lean ====
section
/-! DEFINITION. Errors of islet memory and lagoons, fences and re-admission, the loss of a stack, and control cores (R398 to R406). -/

namespace Sys2Proof.Machine

/-! ## Errors of T0 and T1 (R398, R399) -/

/-- Marks the tasks that run on the failed unit for a kill: the islet of a T0 line, the islets of the island of a T1 line. -/
def State.killUnit (s : State) (t1 : Bool) (unit : Nat) : State :=
  s.killTasks (fun t => match t.islet with
    | some i => if t1 then i / 16 == unit else i == unit
    | none => false)

/-- Whether a task is a scan pair. -/
def Task.isScan (t : Task) : Bool := match t.kind with
  | .scan _ _ => true
  | _ => false

/-- The lists that an island's select stage holds are discarded (R161): sets are scanned again (R399, R402), and their pairs' tasks and
sorted runs go. -/
def State.rescan (s : State) (island : Nat) : State :=
  let s1 := (s.dropTasks (fun t => t.island == island && t.isScan)).dropRuns (fun x => x.island == island)
  { s1 with idx := { s1.idx with banks := s1.idx.banks.map (fun k =>
      if k.island = island ∧ (k.st = .scan ∨ k.st = .report) then
        { k with st := .sealed_, qs := k.qs.map (fun q => { q with thr := 0xFFFFFFFF, cand := [], vis := 0, pass := 0, skipped := false }) }
      else k) } }

/-- The centroid copies on a die are built again from their masters (R69, R399). -/
def State.rebuildCopies (s : State) (die : Nat) : State :=
  (s.idx.indexes.filter (fun x => decide (x.centDie = die))).foldl (fun s x => s.refreshCents x.no true) s

/-- Column blocks of a piece run again, each on the island that now runs it, or on a given one. -/
def State.runAgain (s : State) (k : Cohort) (j : Nat) (p : Piece) (todo : List (Nat × Nat × Nat × Nat)) (at_ : Option Nat) : State :=
  todo.foldl (fun s e =>
    s.addTask (at_.getD (s.colIsland p.die e.2.2.2)) (.stage k.slot j e.1 e.2.1 e.2.2.1 e.2.2.2) k.func (some k.ctx) (s.cohortCls k)
      (s.taskTiles k j e.1 e.2.1 e.2.2.2) k.cmd) (s.updPiece k.slot j (fun p => { p with again := p.again ++ todo }))

/-- Withdraws the handles that name a fenced island (R241): the column blocks that filled their halves run again from their inputs, and the
handles are issued again once they have. Rows of attention are formed again by one task on the island that takes the half (DESIGN CHOICE,
log entry 34). The island is fenced already, so a column block's island is the one that now runs it. -/
def State.withdraw (s : State) (i : Nat) : State :=
  let hs := s.gen.queues.flatMap (fun q => (q.q.filter (fun b => b.island == i)).map (fun b => (q.island, b)))
  hs.foldl (fun s w =>
    let b := w.2
    let mine (q : HQueue) : Bool := q.island == w.1 && q.q.contains b
    match (s.cohort? b.cohort).bind (fun k => (k.pieces.findIdx? (fun p => p.mb == b.mb && p.die == i / 128 && p.rows.length == b.rowsM1 + 1)).bind
        (fun j => (k.pieces[j]?).map (fun p => (k, j, p)))) with
    | none => s
    | some (k, j, p) =>
      let was : Piece := { p with st := b.stage, layer := b.layer }
      let pre : State := { s with flt := { s.flt with islands := s.flt.islands.filter (fun x => x != i) } }
      let cs := if b.stage = 2 then [] else (List.range (s.stageBlocks was)).filter (fun c => pre.colIsland p.die c == i)
      let todo := if b.stage = 2 then [(2, b.layer, 0, 0)] else cs.flatMap (fun c => (List.range (k.chunks was)).map (fun ch => (b.stage, b.layer, ch, c)))
      let b1 : BufHandle := { b with island := match cs with
        | c :: _ => s.colIsland p.die c
        | [] => s.nextIsland i }
      let s1 : State := { s with gen := { s.gen with queues := updWhere mine (fun q => { q with q := q.q.erase b }) s.gen.queues } }
      let s2 := s1.updPiece b.cohort j (fun p => { p with
        owed := p.owed ++ [(w.1, b1)], swapped := p.swapped.map (fun x => if x = i then b1.island else x) })
      s2.runAgain k j p (todo.filter (fun e => !p.again.contains e)) (if b.stage = 2 then some b1.island else none)) s

/-- The column blocks that a fenced island has finished and not yet handed over run again: their half is lost with its stage buffer (R241). -/
def State.redoBlocks (s : State) (i : Nat) : State :=
  let pre : State := { s with flt := { s.flt with islands := s.flt.islands.filter (fun x => x != i) } }
  s.gen.cohorts.foldl (fun s k => k.pieces.zipIdx.foldl (fun s e =>
    let p := e.1
    if p.die ≠ i / 128 ∨ !p.started ∨ (p.st ≠ 0 ∧ (stageProj p.st).isNone) ∨ p.swapped.contains i then s
    else
      let todo := (p.done.filter (fun d => pre.colIsland p.die d.2 == i)).map (fun d => (p.st, p.layer, d.1, d.2))
      s.runAgain k e.2 p (todo.filter (fun x => !p.again.contains x)) none) s) s

/-- A cohort step starts again from layer 0 (R399): its uncommitted work is discarded, and its pieces run from the command's inputs. An
entry that has left for a recomputation comes back by itself (R209). -/
def State.restartStep (s : State) (slot : Nat) : State :=
  match (s.cohort? slot).filter (fun k => decide (k.slot < 2)) with
  | none => s
  | some k =>
    let s1 := s.discardStep slot
    let cfg := s.genCfg 0
    let es := k.entries.map (fun x => if x.runs then { x with token := none, nan := false, doneAt := 0 } else x)
    let deal := es.map (fun x => if x.left then { x with status := Status.pageWait } else x)
    let ps := (List.range 4).flatMap (fun d => diePieces deal d (bits cfg 26 16) (bits cfg 30 27) 0 0)
    let s2 : State := { s1 with gen := { s1.gen with cohorts := s1.gen.cohorts ++
      [{ k with entries := es, pieces := ps, fresh := [], attns := [], wins := [] }] } }
    (List.range ps.length).foldl (fun s i => s.startStage slot i) s2

/-- Whether a cohort step has published to an island's lagoon: a stage-buffer half that a handle names, or partials (R180, R235). -/
def State.publishedOn (s : State) (island : Nat) (k : Cohort) : Bool :=
  s.gen.queues.any (fun q => q.q.any (fun b => b.cohort == k.slot && b.island == island)) ||
    k.attns.any (fun r => r.merge == island && r.out.isNone && !r.parts.isEmpty)

/-- The splits whose partials an island's lagoon holds run again (R399). -/
def State.redoParts (s : State) (island : Nat) : State :=
  s.gen.cohorts.foldl (fun s k => (k.attns.filter (fun r => r.merge == island && r.out.isNone)).foldl (fun s r =>
    let a : AttnRef := { slot := k.slot, entry := r.entry, layer := r.layer, group := r.group }
    let whole := (r.splits.filter (fun sp => decide (sp.done.length ≥
      blkCount (s.attnDesc r.layer) (((k.entries[r.entry]?).map (fun x => x.qlen)).getD 0)))).length
    let s1 := s.updAttn a (fun r => { r with
      arrived := r.arrived - whole, splits := r.splits.map (fun sp => { sp with done := [] })
      parts := r.parts.filter (fun p => !r.splits.any (fun sp => sp.pages.headD 0 == p.first)) })
    r.splits.foldl (fun s sp => sp.done.foldl (fun s rb =>
      s.addRoam sp.stack sp.t3 r.merge (.split a (sp.pages.headD 0) rb) k.func (some k.ctx) (s.cohortCls k)
        (!sp.t3 || sp.landed.length == sp.pages.length) k.cmd) s) s1) s) s

/-- A published output that an island's lagoon holds is lost (R399): the tasks that produced it run again; where their inputs have been
released, the cohort steps start again from layer 0. Search sets are scanned again. -/
def State.remake (s : State) (island : Nat) (released : Bool) : State :=
  let s1 := s.rescan island
  if released then (s1.gen.cohorts.filter (s1.publishedOn island)).foldl (fun s k => s.restartStep k.slot) s1
  else ((s1.withdraw island).redoBlocks island).redoParts island

/-- SRAM_SCRUB_READ: scrub reads a line of T0 or T1 and corrects it, or the line fails its check and what it held is run again, rebuilt or
read again. A second uncorrectable error of a line in one pass calls for a fence (R398, R399). -/
def execSramScrubRead (t1 : Bool) (unit line : Nat) (r : ScrubResult) (use : SramUse) (s : State) : Host.Outcome State Fault Refusal :=
  let s0 : State := if line = 0 then
      { s with flt := { s.flt with lineUe := s.flt.lineUe.filter (fun e => !(e.1 == t1 && e.2.1 == unit)) } }
    else s
  let die := if t1 then unit / 128 else unit / 2048
  let typ := if t1 then 0x17 else 0x13
  let addr := if t1 then t1Addr unit (line * 64) else t0Addr unit (line * 64)
  let func := ((s.sch.tasks.find? (fun t => match t.islet with
    | some i => if t1 then i / 16 == unit else i == unit
    | none => false)).map (fun t => t.func)).getD 0
  .next (match r with
  | .clean => s0
  | .corrected => (s0.count (if t1 then Reg.faultT1CeCnt else Reg.faultT0CeCnt)).faultLog typ die 1 1 0 addr
  | .uncorrectable =>
    let again := match use with
      | .taskData => true
      | .published _ => true
      | _ => false
    let s1 := (s0.count (if t1 then Reg.faultT1UeCnt else Reg.faultT0UeCnt)).faultLog typ die 2 (if again then 2 else 3) (if again then func else 0) addr
    let s2 := match use with
      | .taskData => s1.killUnit t1 unit
      | .published released => if t1 then (s1.killUnit t1 unit).remake unit released else s1.killUnit t1 unit
      | .centroidCopy => s1.rebuildCopies die
      | .walkerCache => s1
    if s0.flt.lineUe.contains (t1, unit, line) then
      s2.fenceCause (if t1 then { whole := true, island := unit, islet := 0 } else { whole := false, island := unit / 16, islet := unit % 16 }) .secondUe
    else { s2 with flt := { s2.flt with lineUe := s2.flt.lineUe ++ [(t1, unit, line)] } })

/-! ## Fences (R401, R402) -/

/-- Whether a unit is fenced, by itself. -/
def State.unitFenced (s : State) (u : FenceUnit) : Bool :=
  if u.whole then s.flt.islands.contains u.island else s.flt.islets.contains (u.island * 16 + u.islet)

/-- The island on which a task of a fenced island runs instead: that of its column block, or the next island. -/
def State.movedIsland (s : State) (t : Task) : Nat :=
  match t.kind with
  | .stage slot i _ _ _ c => match (s.cohort? slot).bind (fun k => k.pieces[i]?) with
    | some p => s.colIsland p.die c
    | none => s.nextIsland t.island
  | _ => s.nextIsland t.island

/-- The tasks that ran on a fenced unit go back to a queue and run again from their inputs; those of a fenced island, and the tasks whose
save area the unit holds, run elsewhere (R309, R310, R402). -/
def State.fenceTasks (s : State) (u : FenceUnit) : State :=
  let on (i : Nat) : Bool := if u.whole then i / 16 == u.island else i == u.island * 16 + u.islet
  let run := s.sch.tasks.filter (fun t => (t.islet.map on).getD false)
  let s1 := run.foldl State.killRun s
  let back (t : Task) : Task := if (t.islet.map on).getD false then { t with islet := none, killing := false, tiles := 0, save := none, since := s1.now, ran := 0 }
    else if (t.save.map on).getD false then { t with tiles := 0, save := none } else t
  let s2 : State := { s1 with sch := { s1.sch with tasks := (s1.sch.tasks.filter (fun t =>
      !((t.islet.map on).getD false && s1.taskGone t))).map back } }
  let s3 : State := if u.whole then { s2 with sch := { s2.sch with tasks := s2.sch.tasks.map (fun t =>
      if t.island = u.island then { t with island := s2.movedIsland t } else t) } } else s2
  { s3 with
    sch := { s3.sch with tasks := s3.sch.tasks.map (fun t => if u.whole && t.islet.isNone then { t with ready := s3.taskReady t } else t) }
    ar := { s3.ar with islets := s3.ar.islets.filter (fun x => !on x.islet) } }

/-- The roles of a fenced island move (R402 step 4): ingress at the next boundary (R24), sets (R101), pieces of a selection that have not
ended (R161), column blocks and their queues and multicasts (R224), and merges, whose splits send their partials again to the new counter
(R185). -/
def State.moveRoles (s : State) (i : Nat) : State :=
  let n := s.nextIsland i
  let s1 := s.rescan i
  let fixCohort (k : Cohort) : Cohort := { k with
    wins := k.wins.filter (fun w => w.island != i), attns := k.attns.map (fun a => if a.merge = i then { a with merge := n } else a) }
  let moved := (s1.gen.queues.filter (fun q => q.island == i)).foldl (fun (qs : List HQueue) q =>
    let old := (qs.find? (fun x => x.island == n && x.stage == q.stage)).getD { island := n, stage := q.stage, q := [] }
    qs.filter (fun x => !(x.island == n && x.stage == q.stage)) ++ [{ old with q := old.q ++ q.q }]) (s1.gen.queues.filter (fun q => q.island != i))
  let again := ((s1.gen.cohorts.flatMap (fun k => k.attns.filter (fun a => a.merge == i))).map (fun a => a.arrived)).sum
  let s2 := if again > 0 then s1.count (Reg.lagoonAtomicCnt (n / 128)) again else s1
  { s2 with
    sch := { s2.sch with
      chans := s2.sch.chans.map (fun c => if c.newIsland.getD c.island = i then { c with newIsland := some n } else c)
      mcasts := (s2.sch.mcasts.filter (fun m => m.sender != i)).map (fun m => { m with recv := m.recv.filter (fun r => r.1 != i) }) }
    idx := { s2.idx with indexes := s2.idx.indexes.map (fun x => if x.built ∧ x.newIngress.getD x.ingress = i then { x with newIngress := some n } else x),
                          sels := s2.idx.sels.map (fun x => { x with at_ := x.at_.map (fun p =>
                            if p.island = i ∧ !x.done.contains (p.row, p.piece) then { p with island := n } else p) }) }
    gen := { s2.gen with cohorts := s2.gen.cohorts.map fixCohort, queues := moved } }

/-- Whether a cause of a fence stands: hardware recorded it, or the unit itself shows it (R401 Table 2). -/
def State.causeStands (s : State) (u : FenceUnit) (c : FenceCause) : Bool :=
  match c with
  | .selectParity => u.whole
  | .ferryFault => u.whole
  | .fourIslets => u.whole && decide (((List.range 16).filter (fun j => s.flt.islets.contains (u.island * 16 + j))).length ≥ 4)
  | _ => s.flt.causes.contains (u, c)

/-- Records a fence on the fence list (R403). -/
def State.listFence (s : State) (u : FenceUnit) : State :=
  let l := s.flt.fenceList
  let l1 := if l.any (fun (e : FenceEntry) => e.unit == u) then
      updWhere (fun (e : FenceEntry) => e.unit == u) (fun e => { e with count := e.count + 1, fenced := true }) l
    else l ++ [{ unit := u, count := 1, fenced := true }]
  { s with flt := { s.flt with fenceList := l1 } }

/-- A fence counts, writes a fault-log entry and enters the fence list (R402, R403, R409). -/
def State.recordFence (s : State) (u : FenceUnit) : State :=
  let addr := if u.whole then t1Addr u.island 0 else t0Addr (u.island * 16 + u.islet) 0
  (((s.count Reg.faultFenceCnt).faultLog 0x04 0 4 4 0 addr).irq (basePage 4 0) 1).listFence u

/-- FENCE_EFFECT: a fence takes effect: dispatch to the unit stops, its tasks run again elsewhere, its ferry abandons its generations, and
its roles move (R402). It is counted, logged and put on the fence list (R403, R409). -/
def execFenceEffect (u : FenceUnit) (c : FenceCause) (s : State) : Host.Outcome State Fault Refusal :=
  .next (if u.island ≥ 512 || u.islet ≥ 16 || !s.causeStands u c then s
  else
    let s0 : State := { s with flt := { s.flt with causes := s.flt.causes.filter (fun e => e != (u, c)) } }
    if s0.unitFenced u then s0
    else
      let s1 : State := { s0 with flt := { s0.flt with
        islands := if u.whole then s0.flt.islands ++ [u.island] else s0.flt.islands
        islets := if u.whole then s0.flt.islets else s0.flt.islets ++ [u.island * 16 + u.islet] } }
      let s2 := if u.whole then (((s1.abandon (fun x => x.island == u.island) .abandoned).withdraw u.island).redoBlocks u.island).moveRoles u.island else s1
      let s3 := s2.fenceTasks u
      let s4 := if c = .selectParity then s3.count (Reg.selectStageErrCnt (u.island / 128)) else s3
      s4.recordFence u)

/-! ## Re-admission (R403) -/

/-- A request of FENCE_CTL to fence a unit. -/
def State.askFence (s : State) (u : FenceUnit) : State := s.fenceCause u .request

/-- A request of FENCE_CTL to bring back a fenced unit: its self-test starts. -/
def State.askReadmit (s : State) (u : FenceUnit) : State :=
  if s.unitFenced u then { s with flt := { s.flt with selfTests := addOnce u s.flt.selfTests } } else s

/-- CLEAR_LIST empties the fence list and with it every fence count; it re-admits nothing. -/
def State.emptyList (s : State) : State := { s with flt := { s.flt with fenceList := [] } }

/-- The fences of a unit since the list was last cleared. -/
def State.fenceCount (s : State) (u : FenceUnit) : Nat := ((s.flt.fenceList.find? (fun e => e.unit == u)).map (fun e => e.count)).getD 0

/-- Whether a unit has been fenced READMIT_MAX times, so that no test admits it. -/
def State.fencedOut (s : State) (u : FenceUnit) : Bool := decide (s.fenceCount u ≥ bits (s.rd Reg.faultFenceCfg) 3 0)

/-- A unit joins dispatch. -/
def State.admitUnit (s : State) (u : FenceUnit) : State :=
  { s with flt := { s.flt with
    islands := if u.whole then s.flt.islands.filter (fun i => i != u.island) else s.flt.islands
    islets := if u.whole then s.flt.islets else s.flt.islets.filter (fun i => i != u.island * 16 + u.islet)
    fenceList := updWhere (fun (e : FenceEntry) => e.unit == u) (fun e => { e with fenced := false }) s.flt.fenceList } }

/-- A self-test clears the islet memory and the lagoon of its unit. -/
def State.clearUnit (s : State) (u : FenceUnit) : State :=
  let lo := if u.whole then t0Addr (u.island * 16) 0 else t0Addr (u.island * 16 + u.islet) 0
  let hi := lo + (if u.whole then 16 else 1) * 2 ^ 17
  let gone (a : Nat) : Bool := (decide (lo ≤ a) && decide (a < hi)) ||
    (u.whole && decide (t1Addr u.island 0 ≤ a) && decide (a < t1Addr (u.island + 1) 0))
  { s with mem := s.mem.filter (fun e => !gone e.1) }

/-- The record of a re-admission. -/
def State.logReadmit (s : State) (u : FenceUnit) : State :=
  (s.count Reg.faultReadmitCnt).faultLog 0x04 0 5 0 0 (if u.whole then t1Addr u.island 0 else t0Addr (u.island * 16 + u.islet) 0)

/-- SELF_TEST_DONE: the self-test of a unit ends. `failed` are the islets that fail it; for an island 16 stands for the island itself. A
unit that passes and has not reached READMIT_MAX joins dispatch; an island takes its passing islets with it, and stays fenced where four
or more of them stay fenced (R403). An islet that fails it is fenced (R401 Table 2). -/
def execSelfTestDone (u : FenceUnit) (failed : List Nat) (s : State) : Host.Outcome State Fault Refusal :=
  .next (if !s.flt.selfTests.contains u then s
  else
    let s1 := ({ s with flt := { s.flt with selfTests := s.flt.selfTests.filter (fun x => x != u) } } : State).clearUnit u
    if !u.whole then
      if failed.isEmpty && !s1.fencedOut u then (s1.admitUnit u).logReadmit u else s1
    else
      let islet (j : Nat) : FenceUnit := { whole := false, island := u.island, islet := j }
      let bad (j : Nat) : Bool := failed.contains j || s1.fencedOut (islet j)
      let s2 := (List.range 16).foldl (fun s j =>
        if failed.contains j && !s.unitFenced (islet j) then
          ({ s with flt := { s.flt with islets := s.flt.islets ++ [u.island * 16 + j] } } : State).recordFence (islet j)
        else s) s1
      let stay := (List.range 16).filter (fun j => bad j && s2.unitFenced (islet j))
      if failed.contains 16 || s1.fencedOut u || decide (stay.length ≥ 4) then s2
      else
        let pass := (List.range 16).filter (fun j => !bad j && s2.unitFenced (islet j))
        ((pass.foldl (fun s j => s.admitUnit (islet j)) s2).admitUnit u).logReadmit u)

/-! ## A stack (R404) -/

/-- The live commands whose bodies lie in the intake area's part on a stack. -/
def State.bodiesOn (s : State) (stack : Nat) : List Live := s.cmd.live.filter (fun l => l.intake.any (fun g => g.1 == stack))

/-- The command engine takes the intake part of a failed stack from local stack 1 of the same die. -/
def State.moveIntake (s : State) (stack : Nat) : State :=
  let n := runTotal (s.mm.intake.filter (fun r => r.stack == stack))
  if n = 0 then s
  else
    let keep := s.mm.intake.filter (fun r => r.stack != stack)
    let s1 : State := { s with mm := { s.mm with intake := keep } }
    let other := stack / 8 * 8 + 1
    if other = stack ∨ s.flt.failedStacks.contains other then s1
    else { s1 with mm := { s1.mm with intake := keep ++ s1.topRuns other n } }

/-- STACK_FAIL: a stack fails. It is counted and logged; a command whose body lay there completes with DATA_UNREADABLE, and the intake
part moves (R404). -/
def execStackFail (stack : Nat) (s : State) : Host.Outcome State Fault Refusal :=
  .next (if !s.powered || decide (stack ≥ 32) || s.flt.failedStacks.contains stack then s
  else
    let s1 := (({ s with flt := { s.flt with failedStacks := s.flt.failedStacks ++ [stack] } } : State).count Reg.faultStackFailCnt).faultLog
      0x18 stack 7 5 0 (t2Addr stack 0)
    let s2 := (sortBy (fun (l : Live) => l.order) ((s1.bodiesOn stack).filter s1.canAbort)).foldl (fun s l =>
      (s.discard l).complete l.h.ref Status.dataUnreadable (s.endBody l Status.dataUnreadable)) s1
    s2.moveIntake stack)

/-! ## Control cores (R23, R406) -/

/-- The core that serves PLDM and SPDM: the lowest that runs. -/
def State.servingCore (s : State) : Option Nat := (List.range 4).find? (fun c => ((s.flt.cores[c]?).map (fun x => x.up)).getD false)

/-- A restart of the core that serves management ends its update and its SPDM connections (R412, R448). -/
def State.dropMgmt (s : State) : State :=
  let t : State := match s.mgmt.update with
    | some u => if u.applied then s else
        { s with sec := { s.sec with
          slotA := if u.slotB then s.sec.slotA else [], slotB := if u.slotB then [] else s.sec.slotB
          okA := u.slotB && s.sec.okA, okB := !u.slotB && s.sec.okB } }
    | none => s
  { t with mgmt := { t.mgmt with update := none }, sec := { t.sec with spdm := [] } }

/-- CORE_WATCHDOG_EXPIRE: a core misses its watchdog and is restarted; after three restarts within 10 minutes it is left halted (R406). -/
def execCoreWatchdogExpire (core : Nat) (s : State) : Host.Outcome State Fault Refusal :=
  .next (match (s.flt.cores[core]?).filter (fun c => c.up && s.sec.released && s.powered) with
  | none => s
  | some c =>
    let s0 := if s.servingCore = some core then s.dropMgmt else s
    let put (x : CoreSt) : State := { s0 with flt := { s0.flt with cores := updAt core (fun _ => x) s0.flt.cores } }
    let recent := c.restarts.filter (fun t => decide (s.clock < t + 600000000000))
    if recent.length ≥ 3 then put { up := false, restarting := false, restarts := recent }
    else ((put { up := false, restarting := true, restarts := recent ++ [s.clock] }).count Reg.faultCoreRestartCnt).faultLog 0x04 0 0x0A 0 0 0)

/-- CORE_RESTART_DONE: a restarted core runs again from verified firmware (R23, R406). -/
def execCoreRestartDone (core : Nat) (s : State) : Host.Outcome State Fault Refusal :=
  .next (match (s.flt.cores[core]?).filter (fun c => c.restarting) with
  | none => s
  | some _ => { s with flt := { s.flt with cores := updAt core (fun x => { x with up := true, restarting := false }) s.flt.cores } })

end Sys2Proof.Machine
end

