-- ==== Sys2Proof/Machine/Security.lean ====
section
/-! DEFINITION. The security root (chapter 17): secure boot, anti-rollback, the keys of data at rest, debug unlock and SPDM. -/

namespace Sys2Proof.Machine

/-! ## Firmware images (R292, R418, R419) -/

/-- A section entry of an image in bytes: type, byte offset, length and digest. -/
structure FwSec where
  ty : Nat
  off : Nat
  len : Nat
  digest : List Byte
  deriving DecidableEq, Repr

/-- The section entries of a firmware image. -/
def fwSecs (img : List Byte) : List FwSec :=
  (List.range (bodyNat img 6 1)).map (fun i =>
    let e := img.drop (64 + 64 * i)
    { ty := fld e 39 32, off := fld e 31 0 * 65536, len := fld e 127 64, digest := (e.drop 16).take 48 })

/-- The bytes of a section. -/
def fwBytes (img : List Byte) (e : FwSec) : List Byte := (img.drop e.off).take e.len

/-- The signature block of an image: section 0 (R418). -/
def sigBlock (img : List Byte) : List Byte :=
  match fwSecs img with
  | e :: _ => fwBytes img e
  | [] => []

def sigKey (img : List Byte) : Nat := fld (sigBlock img) 33 32
def sigRevoke (img : List Byte) : Nat := fld (sigBlock img) 43 40
def sigCommit (img : List Byte) : Bool := fld (sigBlock img) 44 44 == 1
def sigSvn (img : List Byte) : Nat := fld (sigBlock img) 71 64
def sigVersion (img : List Byte) : Nat := fld (sigBlock img) 191 128

/-- What the signature covers: the image header, section entries 1 on, and bytes 0 to 159 of the signature block (R418). -/
def fwSigned (img : List Byte) : List Byte :=
  img.take 64 ++ (img.drop 128).take (64 * (bodyNat img 6 1 - 1)) ++ (sigBlock img).take 160

/-- The firmware digest (R419). -/
def fwDigestOf (img : List Byte) : List Byte := sha384 (fwSigned img)

/-- Whether the image header and the signature block are well formed (R292 Tables 3 and 4, R418 Table 2). Reserved bits are ignored
(R10). -/
def fwFormed (img : List Byte) : Bool :=
  fld img 31 0 == 0x4B5A494D && fld img 39 32 == 3 && fld img 47 40 == 1 && decide (1 ≤ fld img 55 48) && decide (fld img 55 48 ≤ 63) &&
  decide (fld img 191 128 ≤ img.length) &&
  (fwSecs img).all (fun e => decide (e.off + e.len ≤ fld img 191 128)) &&
  ((fwSecs img).drop 1).all (fun e => e.ty == 0x21 || e.ty == 0x22) &&
  decide ((sigBlock img).length = 256) && fld (sigBlock img) 31 0 == 0x4B5A5347 && decide (sigSvn img ≤ 64)

/-- Whether every section DIGEST matches its chunk digests in the table, and every chunk its data. The table lists the chunk
digests of the sections in order. -/
def fwDigestsOk (img : List Byte) : Bool :=
  ((fwSecs img).foldl (fun (a : Bool × List Byte) e =>
    let cs := chunksOf (fwBytes img e)
    let tab := a.2.take (48 * cs.length)
    (a.1 && tab == (cs.map sha384).flatten && sha384 tab == e.digest, a.2.drop (48 * cs.length)))
    (true, img.drop (fld img 223 192 * 65536))).1

/-- Whether a slot verifies under a minimum SVN (R419). -/
def State.fwVerifies (s : State) (img : List Byte) (minSvn : Nat) : Bool :=
  fwFormed img && some (sha384 (signKey (sigKey img))) == s.sec.keyHashes[sigKey img]? &&
    !bit s.sec.revoked (sigKey img) &&
    Config.verify (signKey (sigKey img)) (fwDigestOf img) ((sigBlock img).drop 160) &&
    decide (minSvn ≤ sigSvn img) && fwDigestsOk img

/-- The image of a slot; `true` names slot B. -/
def SecSt.slot (x : SecSt) (b : Bool) : List Byte := if b then x.slotB else x.slotA

/-- The image that runs; empty while none does. -/
def SecSt.image (x : SecSt) : List Byte := match x.running with
  | some b => x.slot b
  | none => []

/-- Records the result of a check of a slot. -/
def SecSt.setOk (x : SecSt) (b ok : Bool) : SecSt := if b then { x with okB := ok } else { x with okA := ok }

/-! ## Secure boot (R419, R420) -/

/-- The slot that boot checks now: the preferred one, or the other after a fallback. -/
def State.bootSlot (s : State) : Bool := bit (s.rd Reg.secCfg) 0 != (s.sec.result == 1)

/-- BOOT_VERIFY_DONE: the check of a slot ends. A good slot goes on to its identity, a bad preferred slot to the other slot, which
is counted, and two bad slots to RECOVERY (R419, R420). -/
def execBootVerifyDone (s : State) : Host.Outcome State Fault Refusal :=
  .next (if !s.powered || s.sec.step != .verify then s
  else
    let b := s.bootSlot
    let img := s.sec.slot b
    let ok := s.fwVerifies img s.sec.minSvn
    let x := s.sec.setOk b ok
    if ok then { s with sec := { x with step := .identity, running := some b, svn := sigSvn img, fwDigest := fwDigestOf img } }
    else if s.sec.result = 0 then ({ s with sec := { x with result := 1 } }).count Reg.secBootFailCnt
    else { s with sec := { x with result := 2, step := .recovery, running := none } })

/-- The CDI's input: the firmware digest and the running SVN as one byte (R416). -/
def SecSt.cdi (x : SecSt) : List Byte := x.fwDigest ++ leBytes 1 x.svn

/-- ALIAS_CERT_ISSUED: the alias key is derived, its certificate issued, and the control cores are released into the verified code
(R416, R419 Table 3 steps 4 and 5). -/
def execAliasCertIssued (s : State) : Host.Outcome State Fault Refusal :=
  .next (if !s.powered || s.sec.step != .identity then s
  else { s with sec := { s.sec with step := .done, alias_ := some (aliasKey s.sec.cdi), released := true } })

/-- Boot starts again, as at the end of an update in RECOVERY (R420). -/
def State.restartBoot (s : State) : State := { s with sec := { s.sec with step := .verify, result := 0 } }

/-! ## Anti-rollback and keys (R421, R423) -/

/-- The effect of a SVN_COMMIT write: the minimum rises to the running SVN and the keys of REVOKE are revoked, the running one
never; a refused commit is recorded (R421). -/
def State.commitSvn (s : State) : State :=
  let img := s.sec.image
  if sigCommit img && s.sec.running.isSome && s.mgmt.update.isNone && s.fwVerifies s.sec.slotA s.sec.svn &&
      s.fwVerifies s.sec.slotB s.sec.svn then
    { s with sec := { s.sec with
      minSvn := s.sec.svn
      revoked := s.sec.revoked ||| setBits (sigRevoke img) (sigKey img) (sigKey img) 0 } }
  else s.regWriteErr Reg.secCtl

/-- The effect of an ERASE_ALL write: with every function disabled, all at-rest keys are destroyed (R423). -/
def State.eraseKeys (s : State) : State :=
  if (List.range 16).all (fun f => !bit (s.rd (Reg.schedFuncCfg f)) 0) then { s with sec := { s.sec with atRest := [] } }
  else s.regWriteErr Reg.secCtl

/-! ## Debug unlock (R428, R429) -/

/-- The 160 bytes of UNLOCK_BUF. -/
def State.unlockBuf (s : State) : List Byte := ((List.range 40).map (fun k => leBytes 4 (s.rd (Reg.secUnlockBuf k)))).flatten

/-- The effect of an UNLOCK_GO write: a new nonce is drawn and the token is judged by the old one; while a check runs the write is
ignored and recorded (R429). -/
def State.goUnlock (s : State) : State :=
  if s.sec.token.isSome then s.regWriteErr Reg.secCtl
  else { s with
    sec := { s.sec with token := some (s.unlockBuf, s.sec.nonce), nonce := Config.random s.fresh % 2 ^ 128 }
    fresh := s.fresh + 1 }

/-- The outcome of a token: 1 granted, 2 bad signature, 3 UID, nonce or UNLOCK_EN refused (R428, R429, R431 Table 6). A wrong MAGIC counts
as a bad signature (DESIGN CHOICE, log entry 21). Reserved bits are ignored (R10). -/
def State.judge (s : State) (t : List Byte) (nonce : Nat) : Nat :=
  if !bit (s.rd Reg.secCfg) 1 || fld t 127 64 != s.fix.uid || fld t 255 128 != nonce then 3
  else if fld t 31 0 == 0x4B5A444B && sha384 debugKey == s.sec.debugHash &&
      Config.verify debugKey (sha384 (t.take 64)) (t.drop 64) then 1
  else 2

/-- UNLOCK_CHECK_DONE: a granted scope is added to the active one until the next device reset; a refusal is counted (R429). -/
def execUnlockCheckDone (s : State) : Host.Outcome State Fault Refusal :=
  .next (match s.sec.token with
  | none => s
  | some (t, nonce) =>
    let v := s.judge t nonce
    let x : SecSt := { s.sec with token := none, lastUnlock := v }
    if v = 1 then { s with sec := { x with scope := s.sec.scope ||| fld t 33 32 } }
    else ({ s with sec := x }).count Reg.secUnlockFailCnt)

/-! ## Measurements (R427) -/

/-- The raw bytes of ENC_EN of P0 to P7, one byte. -/
def State.encEns (s : State) : Nat := ((List.range 8).map (fun p => bits (s.rd (Reg.zwxPortCfg p)) 1 1 * 2 ^ p)).sum

/-- The content of a measurement block (R427 Table 4). -/
def State.measurement (s : State) (i : Nat) : List Byte :=
  match i with
  | 1 => sha384 (Config.bootRom ++ s.sec.keyHashes.flatten)
  | 2 => s.sec.fwDigest
  | 3 => leBytes 8 (sigVersion s.sec.image) ++ leBytes 1 s.sec.svn ++ leBytes 1 s.sec.minSvn ++ leBytes 1 s.sec.revoked
  | 4 => leBytes 1 s.sec.result ++ leBytes 1 (bits (s.rd Reg.secCfg) 1 1) ++ leBytes 1 s.sec.scope ++ leBytes 1 s.encEns
  | 5 => if s.gen.model.st = 0 ∨ s.gen.model.st = 1 then List.replicate 56 0
      else leBytes 8 s.gen.model.ident ++ sha384 s.gen.model.digests
  | 6 =>
    let xs := (List.range 64).filterMap (fun n => s.idx.indexes.find? (fun x => x.no == n && !x.digests.isEmpty && x.st != 1))
    if xs.isEmpty then List.replicate 48 0
    else sha384 ((xs.map (fun x => leBytes 1 x.no ++ x.digests)).flatten)
  | _ => []

/-! ## SPDM (R426) -/

/-- Whether the control-core firmware serves PLDM and SPDM (R442, R450). -/
def State.mgmtServes (s : State) : Bool := s.powered && s.sec.released && s.servingCore.isSome

/-- A message received on a transport (R441): it counts where the transport runs; the PCIe transport runs on a bridge with
VDM_EN = 1. -/
def State.mctpRuns (s : State) (t : Transport) : Bool :=
  s.powered && (match t with
    | .i3c => true
    | .vdm => s.fix.bridge && bit (s.rd Reg.mgmtMgmtCfg) 9)

/-- Serves a message of the firmware: received and counted, and answered while a core serves. -/
def State.served (s : State) (t : Transport) (f : State → State) : State :=
  if !s.mctpRuns t then s
  else
    let s1 := s.count Reg.mgmtMctpRxCnt
    if s1.mgmtServes then f s1 else s1

/-- The SPDM connection state of a path. -/
def State.spdmOf (s : State) (t : Transport) : SpdmSt := ((s.sec.spdm.find? (fun e => e.1 == t)).map (fun e => e.2)).getD .start

/-- Sets it. -/
def State.setSpdm (s : State) (t : Transport) (x : SpdmSt) : State :=
  { s with sec := { s.sec with spdm := s.sec.spdm.filter (fun e => e.1 != t) ++ [(t, x)] } }

/-- An SPDM answer. -/
def State.spdmAns (s : State) (t : Transport) (code : Nat) (b : List Byte) : State := s.emit (.mgmt t (.spdm code b))

/-- An SPDM ERROR answer with its error code and data. -/
def State.spdmErr (s : State) (t : Transport) (code data : Nat) : State := s.spdmAns t 0x7F (leBytes 1 code ++ leBytes 1 data)

/-- The certificate chain of slot 0 (R417). -/
def State.chain (s : State) : List Byte :=
  Config.caCerts ++ s.sec.idevid ++ Config.aliasCert (s.sec.alias_.getD []) s.sec.cdi

/-- A signature by the alias key. -/
def State.aliasSign (s : State) (b : List Byte) : List Byte := signature (s.sec.alias_.getD []) (sha384 b)

/-- GET_VERSION: starts a connection and names SPDM 1.2 (R426). -/
def execGetVersion (t : Transport) (s : State) : Host.Outcome State Fault Refusal :=
  .next (s.served t (fun s => (s.setSpdm t .version).spdmAns t 0x04 [0x12]))

/-- GET_CAPABILITIES: CERT_CAP, CHAL_CAP and MEAS_CAP with signature (R426). -/
def execGetCapabilities (t : Transport) (s : State) : Host.Outcome State Fault Refusal :=
  .next (s.served t (fun s => if s.spdmOf t = .version ∨ s.spdmOf t = .caps then (s.setSpdm t .caps).spdmAns t 0x61 [0x16]
    else s.spdmErr t 0x04 0xE1))

/-- NEGOTIATE_ALGORITHMS: ECDSA P-384 with SHA-384, measurement hash SHA-384 (R426). -/
def execNegotiateAlgorithms (t : Transport) (s : State) : Host.Outcome State Fault Refusal :=
  .next (s.served t (fun s => if s.spdmOf t = .caps ∨ s.spdmOf t = .algs then (s.setSpdm t .algs).spdmAns t 0x63 [0x80, 0x02, 0x04]
    else s.spdmErr t 0x04 0xE3))

/-- A request that needs a negotiated connection. -/
def State.negotiated (s : State) (t : Transport) (code : Nat) (f : State → State) : State :=
  s.served t (fun s => if s.spdmOf t = .algs then f s else s.spdmErr t 0x04 code)

/-- GET_DIGESTS: the digest of the chain in slot 0, the only slot (R417, R426). -/
def execGetDigests (t : Transport) (s : State) : Host.Outcome State Fault Refusal :=
  .next (s.negotiated t 0x81 (fun s => s.spdmAns t 0x01 (1 :: sha384 s.chain)))

/-- GET_CERTIFICATE: a part of the chain of slot 0; no other slot is populated (R417). -/
def execGetCertificate (t : Transport) (slot off len : Nat) (s : State) : Host.Outcome State Fault Refusal :=
  .next (s.negotiated t 0x82 (fun s =>
    if slot ≠ 0 ∨ off ≥ s.chain.length then s.spdmErr t 0x01 0 else s.spdmAns t 0x02 ((s.chain.drop off).take len)))

/-- Draws a 32-byte nonce of the responder. -/
def State.spdmNonce (s : State) : List Byte × State := (leBytes 32 (Config.random s.fresh), { s with fresh := s.fresh + 1 })

/-- CHALLENGE: the chain's digest, a nonce and a signature by the alias key over both nonces (R426). -/
def execChallenge (t : Transport) (slot : Nat) (nonce : Body) (s : State) : Host.Outcome State Fault Refusal :=
  .next (s.negotiated t 0x83 (fun s =>
    if slot ≠ 0 then s.spdmErr t 0x01 0
    else
      let n := s.spdmNonce
      let b := sha384 s.chain ++ n.1
      n.2.spdmAns t 0x03 (b ++ s.aliasSign (nonce ++ b))))

/-- GET_MEASUREMENTS: index 0 asks for the number of blocks, 1 to 6 for one block and 0xFF for all, taken at one instant; the
answer is signed (R427). -/
def execGetMeasurements (t : Transport) (index : Nat) (nonce : Body) (s : State) : Host.Outcome State Fault Refusal :=
  .next (s.negotiated t 0xE0 (fun s =>
    let is := if index = 0xFF then [1, 2, 3, 4, 5, 6] else [index]
    if index ≠ 0xFF ∧ index > 6 then s.spdmErr t 0x01 0
    else
      let n := s.spdmNonce
      let blocks := if index = 0 then [6] else (is.map (fun i => BitVec.ofNat 8 i :: s.measurement i)).flatten
      let b := blocks ++ n.1
      n.2.spdmAns t 0x60 (b ++ s.aliasSign (nonce ++ b))))

/-- SPDM_UNSUPPORTED_REQUEST: any other request answers UnsupportedRequest (R426). -/
def execSpdmUnsupportedRequest (t : Transport) (code : Nat) (s : State) : Host.Outcome State Fault Refusal :=
  .next (s.served t (fun s => s.spdmErr t 0x07 code))

end Sys2Proof.Machine
end

