-- ==== Sys2Proof/Machine/Views.lean ====
section
/-! DEFINITION. What a read of a register returns: the stored word, or for a status register the state that it shows (the register page
tables of the chapters). -/

namespace Sys2Proof.Machine

/-- The bit mask of the members of a list among 32 numbers from `k` on. -/
def maskOf (l : List Nat) (k : Nat) : Nat := ((List.range 32).map (fun i => if l.contains (k + i) then 2 ^ i else 0)).sum

/-- Word `k` of a number, 32 bits each. -/
def wordOf (v k : Nat) : Nat := v / 2 ^ (32 * k) % 2 ^ 32

/-! ## The common page (R436) -/

/-- The pages present on this device (R439). -/
def State.present (s : State) (p : PageRow) : Bool := !p.bridgeOnly || s.fix.bridge

/-- Whether the interrupt of the page at `b` is active (R438). -/
def State.irqActive (s : State) (b : Nat) : Bool := s.rd (b + 0x14) &&& s.rd (b + 0x18) != 0

/-- BLK_STAT of page `i` of a block. -/
def State.blkStat (s : State) (p : PageRow) (i : Nat) : Nat :=
  let b := p.base + i * 0x1000
  b2n (s.busy.contains b) * 16 + b2n (p.typ == 0x1A && s.flt.islands.contains i) * 8 + b2n (s.irqActive b) * 4 +
    b2n (s.rd (b + 0x24) != 0) * 2 + b2n (!s.notReady.contains b)

/-! ## One function for each page with status registers -/

/-- DEV (R449). -/
def State.viewDev (s : State) (off a : Nat) : Nat :=
  if off = 0x040 then setBits (s.rd a) 23 16 s.fix.stepping
  else if off = 0x044 then b2n s.fix.bridge * 64 + s.fix.ord % 64
  else if off = 0x048 then
    (pageTable.map (fun p => if s.present p && (List.range p.insts).any (fun i => s.irqActive (p.base + i * 0x1000)) then 2 ^ (p.typ - 1) else 0)).sum
  else ((pageTable.filter s.present).map (fun p => p.insts)).sum

/-- MGMT (R449). -/
def State.viewMgmt (s : State) (off a : Nat) : Nat :=
  let eid (t : Transport) : Nat := ((s.mgmt.eids.find? (fun e => e.1 == t)).map (fun e => e.2)).getD 0
  let temp (i : Nat) : Nat := s.mgmt.dieTemps.getD i 0 % 256
  if off = 0x040 then
    (match s.mgmt.update with
      | some u => if u.t = .i3c then 8 else 16
      | none => 0) + b2n s.mgmtServes * 4 + b2n (eid .vdm != 0) * 2 + b2n (eid .i3c != 0)
  else if off = 0x044 then eid .i3c % 256 + eid .vdm % 256 * 256
  else if off = 0x048 then temp 0 + temp 1 * 2 ^ 8 + temp 2 * 2 ^ 16 + temp 3 * 2 ^ 24
  else if off = 0x04C then temp 4
  else s.rd a

/-- The FAULT output (R383). -/
def State.faultOut (s : State) : Bool := s.rd Reg.pwrEvents &&& 0x1F != 0

/-- The THERM_TRIP output: active from the trip until EVENTS.TRIP is cleared (R396). -/
def State.thermTrip (s : State) : Bool := bit (s.rd Reg.pwrEvents) 0

/-- The coolant valve's drive, in units of 0.005 %: undriven in OFF, where the valve takes its own fail position (R388). -/
def State.valveDrive (s : State) : Option Nat := if s.pwr.st = .off then none else some s.pwr.valve

/-- STAT.STATE of the states in which pages answer. -/
def PState.code : PState → Nat
  | .cap => 1
  | .hold => 2
  | .quiesce => 3
  | _ => 0

/-- PWR (R397). -/
def State.viewPwr (s : State) (off a : Nat) : Nat :=
  let pins (f : PinSt → Bool) : Nat := ((List.range 4).map (fun i => if ((s.pwr.pins[i]?).map f).getD false then 2 ^ i else 0)).sum
  if off = 0x040 then b2n s.pwr.coolWait * 512 + b2n s.faultOut * 256 + s.pwr.rdy % 16 * 16 + s.pwr.st.code
  else if off = 0x05C then wordOf s.devTime 0
  else if off = 0x060 then wordOf s.devTime 1
  else if off = 0x064 then
    bits (s.rd a) 12 12 * 4096 + pins (fun p => p.stuck) * 256 + pins (fun p => p.masked) * 16 + pins (fun p => p.active)
  else s.rd a

/-- The 32 bytes of a fault-log entry (R409 Table 4). -/
def FaultEntry.word (e : FaultEntry) : Nat :=
  e.time % 2 ^ 64 + e.seq % 2 ^ 32 * 2 ^ 64 + e.blkType * 2 ^ 96 + e.blkInst * 2 ^ 112 + e.cls * 2 ^ 128 + e.action * 2 ^ 136 +
    e.func % 16 * 2 ^ 144 + e.addr * 2 ^ 192

/-- FAULT (R413). LOG_SEL names the place of an entry in the log: SEQ minus 1, modulo 1,024. -/
def State.viewFault (s : State) (off a : Nat) : Nat :=
  if off = 0x040 then
    maskOf ((List.range 4).filter (fun c => s.sec.released && ((s.flt.cores[c]?).map (fun x => x.up)).getD false)) 0 * 2 ^ 24 +
      s.flt.islands.length * 2 ^ 14 + s.flt.islets.length
  else if off = 0x044 then maskOf s.flt.failedStacks 0
  else if 0x04C ≤ off ∧ off < 0x06C then
    match s.flt.log.find? (fun e => (e.seq - 1) % 1024 == s.rd Reg.faultLogSel) with
    | some e => wordOf e.word ((off - 0x04C) / 4)
    | none => 0
  else if off = 0x06C then s.flt.logSeq % 2 ^ 32
  else if 0x100 ≤ off ∧ off < 0x140 then maskOf s.flt.islands (32 * ((off - 0x100) / 4))
  else if off = 0x144 then
    let i := s.rd Reg.faultFenceSel
    maskOf ((List.range 16).filter (fun j => s.flt.islets.contains (i * 16 + j))) 0
  else s.rd a

/-- SEC (R431). -/
def State.viewSec (s : State) (off a : Nat) : Nat :=
  if off = 0x040 then
    b2n s.sec.okB * 2048 + b2n s.sec.okA * 1024 + s.sec.lastUnlock % 4 * 256 + s.sec.scope % 16 * 16 + b2n s.sec.token.isSome * 8 +
      s.sec.result % 4 * 2 + b2n (s.sec.running == some true)
  else if off = 0x044 then wordOf s.fix.uid 0
  else if off = 0x048 then wordOf s.fix.uid 1
  else if off = 0x04C then s.sec.revoked % 16 * 2 ^ 16 + s.sec.svn % 128 * 256 + s.sec.minSvn % 128
  else if 0x050 ≤ off ∧ off < 0x060 then wordOf s.sec.nonce ((off - 0x050) / 4)
  else s.rd a

/-- CMD (R352). -/
def State.viewCmd (s : State) (off a : Nat) : Nat :=
  if off = 0x040 then b2n s.cmd.ready
  else if off = 0x044 then s.cmd.live.length % 2 ^ 17
  else if off = 0x068 then s.cmd.answerMax % 2 ^ 16
  else if off = 0x06C then s.mm.intakeUsed.length * 64
  else s.rd a

/-- The accounting record of Table 3 (R318). -/
def Acct.word (r : Acct) : Nat :=
  r.engine % 2 ^ 64 + r.t2rd % 2 ^ 64 * 2 ^ 64 + r.t2wr % 2 ^ 64 * 2 ^ 128 + r.t3rd % 2 ^ 64 * 2 ^ 192 + r.t3wr % 2 ^ 64 * 2 ^ 256 +
    r.link % 2 ^ 64 * 2 ^ 320 + r.energy % 2 ^ 64 * 2 ^ 384 + r.qwait % 2 ^ 64 * 2 ^ 448

/-- The context of a resident slot. -/
def State.slotCtx (s : State) (k : Nat) : Option Ctx := s.sch.ctxs.find? (fun c => c.st != .waiting && c.slot == k)

/-- SCHED (R323). -/
def State.viewSched (s : State) (off a : Nat) : Nat :=
  let slow := (s.sch.slow.filter (fun x => x.flag)).map (fun x => x.island)
  if off = 0x040 then
    maskOf ((List.range 8).filter (fun k => (s.slotCtx k).isSome)) 0 * 256 + b2n (!slow.isEmpty) * 2 + b2n (s.starving && (match s.sch.starved with
      | some t => decide (s.starveFrom ≤ t)
      | none => false))
  else if off = 0x064 then wordOf (s.sch.closedWin.getD 0) 0
  else if off = 0x068 then wordOf (s.sch.closedWin.getD 0) 1
  else if 0x080 ≤ off ∧ off < 0x0C0 then maskOf slow (32 * ((off - 0x080) / 4))
  else if 0x0C0 ≤ off ∧ off < 0x0E0 then
    let k := (off - 0x0C0) / 4
    match s.slotCtx k with
    | some c => s.sch.slotClosed.getD k 0 % 2 ^ 16 * 2 ^ 16 + 2 ^ 15 + c.prio % 4 * 2 ^ 12 + c.func % 16 * 256 + c.id % 64
    | none => 0
  else if 0x100 ≤ off ∧ off < 0x140 then
    let i := s.rd Reg.schedAcctSel
    let r := (s.sch.closed[i]?).getD Acct.zero
    wordOf (if i = 16 then { r with engine := 0, qwait := 0 } else r).word ((off - 0x100) / 4)
  else s.rd a

/-- TIDE (R119). -/
def State.viewTide (s : State) (off a : Nat) : Nat :=
  if off = 0x044 then wordOf s.idx.epoch 0
  else if off = 0x048 then wordOf s.idx.epoch 1
  else if off = 0x04C then wordOf (if s.idx.bno = 0 then 0 else s.idx.lastBoundary) 0
  else if off = 0x050 then wordOf (if s.idx.bno = 0 then 0 else s.idx.lastBoundary) 1
  else s.rd a

/-- INDEX (R90). -/
def State.viewIndex (s : State) (off a : Nat) : Nat :=
  if 0x040 ≤ off ∧ off < 0x140 then
    match s.index? ((off - 0x040) / 4) with
    | some x => b2n ((List.range x.nShoals).any (fun h => s.shFld x h 225 224 == 1)) * 16 + b2n (!x.saves.isEmpty) * 8 + x.st % 4
    | none => 0
  else s.rd a

/-- MUTATE (R142). -/
def State.viewMutate (s : State) (off a : Nat) : Nat :=
  if off = 0x044 then b2n s.idx.lost * 2 + b2n s.fix.bridge
  else if off = 0x048 then wordOf s.idx.markHi 0
  else if off = 0x04C then wordOf s.idx.markHi 1
  else s.rd a

/-- KV (R217). CTXk names resident slot k. -/
def State.viewKv (s : State) (off a : Nat) : Nat :=
  let kvOf (k : Nat) : Option KvCtx := (s.slotCtx k).bind (fun c => s.kv? c.id)
  if off = 0x040 then b2n s.fl.spillReady
  else if 0x080 ≤ off ∧ off < 0x0A0 then ((kvOf ((off - 0x080) / 4)).map (fun c => c.frames.length)).getD 0
  else if 0x0A0 ≤ off ∧ off < 0x0C0 then ((kvOf ((off - 0x0A0) / 4)).map (fun c => c.spill.length)).getD 0
  else s.rd a

/-- GEN (R245). -/
def State.viewGen (s : State) (off a : Nat) : Nat :=
  if off = 0x040 then
    if s.gen.model.st = 0 then 0 else s.gen.model.func % 16 * 16 + b2n (s.mdl 73 72 != 0) * 8 + s.gen.model.st % 8
  else if off = 0x078 then s.gen.seqs.length % 2 ^ 15
  else s.rd a

/-- MEM (R277). -/
def State.viewMem (s : State) (off a : Nat) : Nat :=
  if 0x100 ≤ off ∧ off < 0x140 then s.useT2 ((off - 0x100) / 4)
  else if 0x140 ≤ off ∧ off < 0x180 then s.useT3 ((off - 0x140) / 4)
  else if 0x180 ≤ off ∧ off < 0x1C0 then s.pinsOf ((off - 0x180) / 4)
  else s.rd a

/-- Rated cycles used, in percent (R290): programs of 4 KiB places over the places and the rating. -/
def lifeUsed (programs places rating : Nat) : Nat := if places = 0 then 0 else min 255 (programs * 100 / (places * rating))

/-- VUINDIG (R295). -/
def State.viewVuindig (s : State) (off a : Nat) : Nat :=
  if off = 0x040 then
    lifeUsed s.fl.slcPrograms (s.spillFrames * 4) 60000 * 2 ^ 24 + lifeUsed s.fl.programs (40 * 2 ^ 28) 3000 * 2 ^ 16 +
      s.fl.failed.headD 0 * 256 + b2n (!s.fl.failed.isEmpty) * 4 + b2n s.fl.spillReady * 2 + b2n s.fl.ready
  else if off = 0x044 then s.capUnits
  else if off = 0x048 then s.capUnits - s.usedUnits.length
  else if off = 0x070 then min (s.fl.hostBytes / 2 ^ 30) 0xFFFFFFFF
  else if off = 0x074 then min (s.fl.nandBytes / 2 ^ 30) 0xFFFFFFFF
  else s.rd a

/-- ARCH (R376). -/
def State.viewArch (s : State) (off a : Nat) : Nat :=
  if off = 0x040 then b2n s.zwx.hostUp * 8 + b2n s.zwx.conflict * 4 + b2n s.fix.bridge * 2 + b2n s.zwx.ready else s.rd a

/-- HOST (R352). -/
def State.viewHost (s : State) (off a : Nat) : Nat := if off = 0x04C then s.brg.evqTail % 2 ^ bits (s.rd Reg.hostEvqCfg) 12 8 else s.rd a

/-- FUNC page `f` (R323). -/
def State.viewFunc (s : State) (f off a : Nat) : Nat :=
  let mine := (s.sch.ctxs.filter (fun c => c.func == f)).map (fun c => c.id)
  if off = 0x044 then
    (s.sch.chans.filter (fun c => c.func == f)).length * 2 ^ 16 + mine.length * 16 + (match s.sch.funcs[f]? with
      | some .active => 1
      | some (.resetting _ _) => 2
      | _ => 0)
  else if off = 0x050 then maskOf mine 0
  else if off = 0x054 then maskOf mine 32
  else s.rd a

/-- STAT.STATE of a port. -/
def PortState.code : PortState → Nat
  | .down => 0
  | .training => 1
  | .up => 2
  | .host => 3

/-- ZWX page of port `n` (R376). -/
def State.viewZwx (s : State) (n off a : Nat) : Nat :=
  let p := s.port n
  if off = 0x040 then
    p.cause % 16 * 2 ^ 23 + b2n p.peerValid * 2 ^ 22 + p.peerOrd % 64 * 2 ^ 16 + p.laneMask % 256 * 256 +
      ((List.range 8).filter (fun i => bit p.laneMask i)).length * 16 + p.st.code
  else if off = 0x064 then p.flight % 4096
  else if 0x080 ≤ off ∧ off < 0x0A0 then
    let k := (off - 0x080) / 4
    let l := p.lanesPub.getD k (0, 0, 0)
    bits p.laneMask k k * 4096 + l.2.1 % 16 * 256 + l.2.2 % 256
  else s.rd a

/-- ARITH page of a die (R62); DBG_DATA is read by its own command. -/
def State.viewArith (s : State) (die off a : Nat) : Nat :=
  let x := s.islet (s.dbgIslet die)
  let tile := bits (s.rd (Reg.arithDbgSel die)) 12 11
  if off = 0x404 then if tile = 1 then x.scale1 else x.scale0
  else if off = 0x408 then b2n x.halted * 2 + b2n x.halt
  else s.rd a

/-- SEARCH page of a die (R119): the bytes of the last complete tide, in 64 KiB. -/
def State.viewSearch (s : State) (die off a : Nat) : Nat :=
  if 0x080 ≤ off ∧ off < 0x0A0 then s.idx.lastRate.getD (die * 8 + (off - 0x080) / 4) 0 / 65536 % 2 ^ 32 else s.rd a

/-- LAGOON page of a die (R440). -/
def State.viewLagoon (s : State) (die off a : Nat) : Nat :=
  if off = 0x04C then 128 * (s.mm.shares.map (fun x => (x.on die).length)).sum
  else if off = 0x050 then (s.borrowed.filter (fun b => b.1 / 128 == die)).length
  else s.rd a

/-- DRAMC page of a stack (R277). What a management period publishes is stored (R272); N, RETIRED and FREE_GRAN are current. -/
def State.viewDramc (s : State) (stack off a : Nat) : Nat :=
  if off = 0x040 then setBits (s.rd a) 15 10 (s.setClock (stack * 16))
  else if off = 0x064 then (s.mm.retired.filter (fun r => r.1 == stack)).length
  else if off = 0x070 then
    (s.classSize stack true - s.usedOf stack true) + (s.classSize stack false - s.usedOf stack false)
  else if off = 0x400 ∧ stack % 8 ≠ 0 then 0
  else s.rd a

/-- HRING page of a ring (R352). -/
def State.viewHring (s : State) (ring off a : Nat) : Nat :=
  if off = 0x05C then s.sqHead ring % 2 ^ 16
  else if off = 0x064 then s.cqCount ring % ringSize (s.rd (Reg.hringCqCfg ring))
  else if off = 0x068 then (s.brg.cmds.filter (fun c => c.ring == ring && c.sent)).length
  else s.rd a

/-- CODE of SLOT_STAT (R277 Table 12). -/
def FerryCode.code : FerryCode → Nat
  | .none => 0
  | .access => 1
  | .addr => 2
  | .unreadable => 3
  | .param => 4
  | .abandoned => 5

/-- The FERRY page of an island (R277). -/
def State.viewFerry (s : State) (island off a : Nat) : Nat :=
  if off = 0x04C then ((s.flying island).filter (fun x => !x.merged)).length
  else if 0x100 ≤ off ∧ off < 0x200 then
    let x := s.slot island ((off - 0x100) / 4)
    x.gen % 65536 * 2 ^ 16 + x.code.code * 16 + b2n x.err * 4 + b2n x.pend.isSome * 2 + b2n (x.work.isSome && x.started)
  else s.rd a

/-- The contents of a register at 0x040 and above. -/
def State.viewPage (s : State) (typ i off a : Nat) : Nat :=
  match typ with
  | 0x01 => s.viewDev off a
  | 0x02 => s.viewMgmt off a
  | 0x03 => s.viewPwr off a
  | 0x04 => s.viewFault off a
  | 0x05 => s.viewSec off a
  | 0x06 => s.viewCmd off a
  | 0x07 => s.viewSched off a
  | 0x08 => s.viewTide off a
  | 0x09 => s.viewIndex off a
  | 0x0A => s.viewMutate off a
  | 0x0B => s.viewKv off a
  | 0x0C => s.viewGen off a
  | 0x0D => s.viewMem off a
  | 0x0E => s.viewVuindig off a
  | 0x0F => s.viewArch off a
  | 0x10 => s.viewHost off a
  | 0x11 => s.viewFunc i off a
  | 0x12 => s.viewZwx i off a
  | 0x13 => s.viewArith i off a
  | 0x14 => s.viewSearch i off a
  | 0x17 => s.viewLagoon i off a
  | 0x18 => s.viewDramc i off a
  | 0x19 => s.viewHring i off a
  | 0x1A => s.viewFerry i off a
  | _ => s.rd a

/-- The bits of a word whose reset value is the stored one (R277, R376, R433, R450). -/
def storedMask (a : Nat) : Nat :=
  if a = Reg.vuindigStat then 0xFFFF0000 else if a = Reg.vuindigSpillCfg then 0x1F else if a = Reg.archArchCfg then 0x3F3F
  else if a = Reg.mgmtMgmtCfg then 0x7F else if a = Reg.devIdent then 0x3F else if a = Reg.secCfg then 1 else 0

/-- What a read of the word at address `a` returns: a reserved offset and a write-only register read 0, a page that is not ready reads
its reset values, stored ones where they are (R10, R11, R450). -/
def State.view (s : State) (a : Nat) : Nat :=
  match pageOf a, rowOf a with
  | some (p, i), some r =>
    if r.acc = .wo then 0
    else if s.notReady.contains (pageBase a) then
      let live := s.viewPage p.typ i (a % 0x1000) a
      ((resetWord a).toNat &&& (0xFFFFFFFF - storedMask a)) ||| (live &&& storedMask a)
    else if a % 0x1000 = 0x10 then s.blkStat p i
    else if a % 0x1000 < 0x40 then s.rd a
    else s.viewPage p.typ i (a % 0x1000) a % 2 ^ 32
  | _, _ => 0

end Sys2Proof.Machine
end

