-- ==== Sys2Proof/Machine/Registers.lean ====
section
/-! DEFINITION. Register accesses on the three paths (R10 to R12, R432 to R438): reads with their latches, writes with their ownership,
range and expert rules, local resets, and what a write of each field does. -/

namespace Sys2Proof.Machine

/-! ## Reads (R433, R435) -/

/-- Whether a register is the LO word of a LO and HI pair (R433). -/
def isLo (a : Nat) : Bool :=
  let off := a % 0x1000
  let typ := ((pageOf a).map (fun p => p.1.typ)).getD 0
  match typ with
  | 0x03 => off == 0x05C
  | 0x05 => off == 0x044
  | 0x07 => off == 0x064
  | 0x08 => off == 0x044 || off == 0x04C
  | 0x0A => off == 0x048
  | 0x0F => decide (0x408 ≤ off) && decide (off < 0x480) && off % 8 == 0
  | 0x10 => off == 0x040 || off == 0x054
  | 0x11 => off == 0x050
  | 0x19 => off == 0x040 || off == 0x048
  | _ => false

/-- Drops what a read of LO has latched for the HI register at `a`. -/
def State.unlatch (s : State) (a : Nat) : State := { s with latches := s.latches.filter (fun e => e.1 != a) }

/-- A read of the word at `a`. A read of LO latches HI, and HI then reads the latched word until it is written or LO is read again; a
read of DBG_DATA follows R61. -/
def State.readWord (s : State) (a : Nat) : Nat × State :=
  if isLo a then (s.view a, { s with latches := s.latches.filter (fun e => e.1 != a + 4) ++ [(a + 4, s.view (a + 4))] })
  else match s.latches.find? (fun e => e.1 == a) with
    | some e => (e.2, s)
    | none =>
      if decide (0x28000 ≤ a) && decide (a < 0x2C000) && decide (0x500 ≤ a % 0x1000) && decide (a % 0x1000 < 0x600) then
        s.dbgRead ((a - 0x28000) / 0x1000) (a % 0x1000 / 4 - 0x140)
      else (s.view a, s)

/-- Whether an access is naturally aligned and lies in a page that is present (R435). -/
def State.accessOk (s : State) (a : Nat) (wide : Bool) : Bool :=
  (if wide then a % 8 == 0 else a % 4 == 0) && ((pageOf a).map (fun p => s.present p.1)).getD false

/-! ## Local reset (R437) -/

/-- What a local reset leaves of the register at `a` that holds `w`. -/
def lresetWord (a : Nat) (w : Word) : Word :=
  match rowOf a with
  | none => w
  | some r =>
    let m := if a % 0x1000 = 0x14 ∨ a % 0x1000 = 0x20 ∨ r.acc = .cnt then 0xFFFFFFFF else if r.acc = .rw then r.wmask else 0
    let k := BitVec.ofNat 32 (m - (m &&& r.keep))
    (w &&& ~~~k) ||| (resetWord a &&& k)

/-- The registers of the page at `b` after its local reset. -/
def lresetRegs (b : Nat) (m : List (Nat × Word)) : List (Nat × Word) :=
  m.foldl (fun acc e => mapPut (resetWord e.1) e.1 (if pageBase e.1 = b then lresetWord e.1 e.2 else e.2) acc) []

/-- Starts or ends a port's use as PORT_CFG.EN now says (R376). -/
def State.portEnable (s : State) (n : Nat) (en : Bool) : State :=
  let p := s.port n
  if p.st = .host then if en then s else s.hostLinkDown.updPort n (fun p => { p with cause := 7 })
  else if en then if p.st = .down ∧ expectedPort s.fix n then s.updPort n (fun p => { p with st := .training, since := s.now }) else s
  else if p.st = .down then s.updPort n (fun p => { p with cause := 7 })
  else s.portDown n 7 false

/-- The effects of the fields that the local reset of the page at `b` has set back. `s` is the state before it. -/
def State.lresetActs (s t : State) (b : Nat) : State :=
  match pageOf b with
  | none => t
  | some (p, i) =>
    if p.typ = 0x07 then
      (List.range 16).foldl (fun t f => t.funcEnabled f (bit (s.rd (Reg.schedFuncCfg f)) 0)) t
    else if p.typ = 0x0E then { t with fl := { t.fl with hostBytes := 0, nandBytes := 0 } }
    else if p.typ = 0x12 then
      if bit (s.rd (Reg.zwxPortCfg i)) 0 then t else t.portEnable i true
    else if p.typ = 0x13 then t.putIslet { t.islet (s.dbgIslet i) with halt := false, halted := false }
    else if p.typ = 0x18 ∧ i % 8 = 0 ∧ s.rd (Reg.dramcParCfg i) ≠ 0 then
      let back := t.wr (Reg.dramcParCfg i) (s.rd (Reg.dramcParCfg i))
      if back.parFree (i / 8) 0 then back.setParGran (i / 8) 0 else back.regWriteErr (Reg.dramcParCfg i)
    else if p.typ = 0x19 then (t.drainCq i).payCredit
    else t

/-- The local reset of the page at `b` ends: within 1 µs of its start, at a time of the device's choice. -/
def State.finishReset (s : State) (b : Nat) : State :=
  if s.busy.contains b then
    let s1 : State := { (s.elapse (Config.pick s.fresh % 1001)) with fresh := s.fresh + 1, busy := s.busy.filter (fun x => x != b) }
    let t : State := { s1 with regs := lresetRegs b s1.regs, latches := s1.latches.filter (fun e => pageBase e.1 != b) }
    s1.lresetActs t b
  else s

/-! ## Ownership (R434) -/

/-- Registers that are management-owned as a whole (R434 Table 1). -/
def ownedReg (a : Nat) : Bool :=
  (decide (0x6400 ≤ a) && decide (a < 0x6450)) || (decide (0xC400 ≤ a) && decide (a < 0xC480)) ||
  [0x2400, 0x20C0, 0x2044, 0x2404, 0x2408, 0x240C, 0x2410, 0x2414, 0x2418, 0x241C, 0x3400, 0x3404, 0xE400, 0xD400, 0x5400, 0x1400,
    0x1404].contains a

/-- The bits of a write that its path may not make (R434). -/
def State.refusedBits (s : State) (p : Path) (pg : PageRow) (a v : Nat) : Nat :=
  if p = .host ∧ ownedReg a then 0xFFFFFFFF
  else if a = Reg.secCfg then if p = .mgmt then 0 else 2
  else if a = Reg.secCtl then v &&& (match p with
    | .host => 6
    | .core => 4
    | .mgmt => 2)
  else if p = .host ∧ a % 0x1000 = 0x0C then
    v &&& ((if pg.owned then 4 else 0) + (if bit (s.rd Reg.mgmtMgmtCfg) 8 then 0 else 2))
  else 0

/-- Whether every field that a write reaches takes its value. -/
def rangesOk (r : RegRow) (v : Nat) : Bool :=
  r.ranges.all (fun f => let x := bits v f.hi f.lo; decide (f.min ≤ x) && decide (x ≤ f.max) && x % f.mult == 0)

/-! ## What writes do -/

/-- A write of BLK_CTL: EN and EXPERT are kept, LRESET starts a local reset (R436, R437). -/
def State.writeCtl (s : State) (a v : Nat) : State :=
  let s1 := s.wr a (v % 4)
  if bit v 2 then { s1 with busy := addOnce (pageBase a) s1.busy } else s1

/-- A write of a write-only register. -/
def State.writeWo (s : State) (p : Path) (typ i off v : Nat) : State :=
  if off = 0x1C then
    let a := basePage typ i + 0x14
    s.wr a (s.rd a ||| v)
  else match typ with
  | 0x03 =>
    if off = 0x0C0 then
      (match bits v 2 0 with
        | 1 => s.reqWrite p .hold
        | 2 => s.reqWrite p .leave
        | 3 => s.reqWrite p (.watch (bit v 3))
        | _ => s)
    else if off = 0x418 then s.rearmPins v else s
  | 0x04 =>
    let u : FenceUnit := { whole := bit v 13, island := bits v 8 0, islet := if bit v 13 then 0 else bits v 12 9 }
    (match bits v 15 14 with
      | 1 => s.askFence u
      | 2 => s.askReadmit u
      | 3 => s.emptyList
      | _ => s)
  | 0x05 =>
    let s1 := if bit v 0 then s.goUnlock else s
    let s2 := if bit v 1 then s1.commitSvn else s1
    if bit v 2 then s2.eraseKeys else s2
  | 0x10 =>
    let a := if off = 0x05C then Reg.hostPathDownLo else Reg.hostPathDownHi
    s.wr a (s.rd a - (s.rd a &&& v))
  | 0x11 => if bit v 0 then s.startReset i (match p with
      | .host => 1
      | _ => 2) else s
  | 0x1A => if bit v 0 then s.arm i (56 + (off - 0xA00) / 4) else s
  | _ => s

/-- A write of WAKE_CFG of a pin: a new polarity changes what its level means (R390). -/
def State.writeWakeCfg (s : State) (k new : Nat) : State :=
  let old := s.rd (Reg.pwrWakeCfg k)
  let flip := bit old 1 != bit new 1
  (s.wr (Reg.pwrWakeCfg k) new).updPin k (fun p =>
    let act := p.active != flip
    { p with active := act, changedAt := if bit new 0 && act != p.accepted then some s.clock else none })

/-- Whether `new` for SPILL_256G leaves room for the units already allocated (R283). -/
def State.spillFits (s : State) (new : Nat) : Bool :=
  decide (s.usedUnits.length ≤ ({ s with fix := { s.fix with spill256 := new } } : State).capUnits)

/-- A ring is enabled: its heads start at 0 and completions reach the host again (R344, R363). -/
def State.enableRing (s : State) (ring : Nat) : State :=
  { s with
    brg := { s.brg with sqHead := mapPut 0 ring 0 s.brg.sqHead, cqTail := mapPut 0 ring 0 s.brg.cqTail }
    zwx := { s.zwx with hostDrop := false } }

/-- A write of a field of a ring pair or of the event ring: base and size only while EN = 0 (R352). -/
def State.writeRing (s : State) (typ i off a new : Nat) : State :=
  let ring := typ = 0x19
  let on := if ring then bit (s.rd (Reg.hringSqCfg i)) 0 else bit (s.rd Reg.hostEvqCfg) 0
  let base := if ring then decide (off < 0x050) else decide (off < 0x048)
  let cfg := if ring then off == 0x050 || off == 0x054 else off == 0x048
  if on && (base || (cfg && bits new 12 8 != bits (s.rd a) 12 8)) then s.regWriteErr a
  else
    let s1 := s.wr a new
    if ring ∧ off = 0x050 ∧ !on ∧ bit new 0 then s1.enableRing i
    else if !ring ∧ off = 0x048 ∧ !on ∧ bit new 0 then
      { s1 with brg := { s1.brg with evqTail := 0, evqOver := false }, zwx := { s1.zwx with hostDrop := false } }
    else if ring ∧ off = 0x060 then (s1.drainCq i).payCredit
    else s1

/-- A write of an RW register with its new contents, in range. -/
def State.writeRw (s : State) (typ i off a new : Nat) : State :=
  match typ with
  | 0x03 => if 0x408 ≤ off ∧ off < 0x418 then s.writeWakeCfg ((off - 0x408) / 4) new else s.wr a new
  | 0x07 =>
    if 0x400 ≤ off ∧ off < 0x440 then (s.wr a new).funcEnabled ((off - 0x400) / 4) (bit (s.rd a) 0) else s.wr a new
  | 0x0C =>
    if off = 0x400 ∧ s.gen.model.st ≠ 0 ∧ bits new 10 0 ≠ bits (s.rd a) 10 0 then s.regWriteErr a else s.wr a new
  | 0x0E => if off = 0x400 ∧ !s.spillFits new then s.regWriteErr a else s.wr a new
  | 0x0F =>
    if off = 0x400 ∧ bits new 5 0 ≥ (bits new 9 8 + 1) * (bits new 11 10 + 1) * (bits new 13 12 + 1) then s.regWriteErr a
    else s.wr a new
  | 0x10 => if off < 0x054 then s.writeRing typ i off a new else s.wr a new
  | 0x12 =>
    let was := bit (s.rd a) 0
    if off = 0x400 ∧ was ≠ bit new 0 then (s.wr a new).portEnable i (bit new 0) else s.wr a new
  | 0x13 => if off = 0x408 then s.haltIslet i new else s.wr a new
  | 0x16 =>
    let kib := bits new 25 16
    if decide (kib > bits (s.rd a) 25 16) && s.sch.ctxs.any (fun c => c.st != .waiting && decide (c.units * 16 < kib + 64)) then
      s.regWriteErr a
    else s.wr a new
  | 0x18 =>
    if off = 0x400 then
      if i % 8 ≠ 0 then s
      else if s.parFree (i / 8) new then s.setParGran (i / 8) new else s.regWriteErr a
    else s.wr a new
  | 0x19 => s.writeRing typ i off a new
  | _ => s.wr a new

/-- The part of a write that is not refused, on a page that is ready. -/
def State.writeReg (s : State) (p : Path) (typ i : Nat) (r : RegRow) (a v refused : Nat) : State :=
  let off := a % 0x1000
  let w := r.wmask - (r.wmask &&& refused)
  let new := s.rd a - (s.rd a &&& w) + (v &&& w)
  if off = 0x0C then s.writeCtl a ((s.rd a - (s.rd a &&& w) + (v &&& w)) % 4 + (if bit v 2 ∧ !bit refused 2 then 4 else 0))
  else match r.acc with
  | .ro => s
  | .cnt => s
  | .wo => s.writeWo p typ i off (v &&& w)
  | .w1c =>
    if typ = 0x03 ∧ off = 0x044 then s.clearEvents v
    else
      let s1 := s.wr a (s.rd a - (s.rd a &&& (v &&& w)))
      if typ = 0x03 ∧ off = 0x14 ∧ bit v 0 then s1.wr Reg.pwrWakeStat (setBits (s1.rd Reg.pwrWakeStat) 12 12 0) else s1
  | .rw => if rangesOk r v then s.writeRw typ i off a new else s.regWriteErr a

/-- A write of the word at `a` by a path, on a page that is ready (R12, R433, R434). -/
def State.writeNow (s : State) (p : Path) (a v : Nat) : State :=
  match pageOf a, rowOf a with
  | some (pg, i), some r =>
    let m := s.refusedBits p pg a v
    let s1 := if p = .host ∧ m ≠ 0 then s.count Reg.mgmtHostDenyCnt else s
    if m = 0xFFFFFFFF then s1
    else if p = .host ∧ 0x400 ≤ a % 0x1000 ∧ !bit (s.rd (pageBase a + 0x0C)) 1 then s1
    else (s1.writeReg p pg.typ i r a v m).unlatch a
  | _, _ => s

/-- A write of the word at `a`: an access to a page under local reset waits for its end, and one to a page that is not ready takes
effect when READY rises (R437, R450). -/
def State.writeWord (s : State) (p : Path) (a v : Nat) : State :=
  let s1 := s.finishReset (pageBase a)
  if s1.notReady.contains (pageBase a) then { s1 with waits := s1.waits ++ [(p, a, v)] } else s1.writeNow p a v

/-- READY rises on the page at `b`: the writes that waited take effect in their order (R450). -/
def State.pageReady (s : State) (b : Nat) : State :=
  let mine := s.waits.filter (fun w => pageBase w.2.1 == b)
  mine.foldl (fun (s : State) w => s.writeNow w.1 w.2.1 w.2.2)
    { s with notReady := s.notReady.filter (fun x => x != b), waits := s.waits.filter (fun w => pageBase w.2.1 != b) }

/-- A 32-bit or 64-bit write, the low word first (R433). -/
def State.writeAccess (s : State) (p : Path) (a : Nat) (wide : Bool) (v : Nat) : State :=
  let s1 := s.writeWord p a (v % 2 ^ 32)
  if wide then s1.writeWord p (a + 4) (v / 2 ^ 32 % 2 ^ 32) else s1

/-- A 32-bit or 64-bit read. A 64-bit read takes both words at one instant (R433). -/
def State.readAccess (s : State) (a : Nat) (wide : Bool) : Nat × State :=
  let s1 := s.finishReset (pageBase a)
  let r := s1.readWord a
  if !wide then r
  else
    let h := r.2.readWord (a + 4)
    (r.1 + h.1 * 2 ^ 32, h.2)

/-- All ones of an access size. -/
def ones (wide : Bool) : Nat := if wide then 2 ^ 64 - 1 else 2 ^ 32 - 1

/-! ## The commands -/

/-- What a write outside the pages does: the host path counts it in REG_ERR_CNT of a bridge, the other paths answer an error (R435). -/
def State.badWrite (s : State) (p : Path) (a : Nat) (wide : Bool) : State :=
  match p with
  | .host => if s.fix.bridge then s.count Reg.hostRegErrCnt else s
  | _ => s.emit (.regAnswer p a wide (ones wide) true)

/-- REGISTER_WRITE: a write on any path, under the rules of its page (R12, R433 to R436). -/
def execRegisterWrite (p : Path) (addr : Nat) (wide : Bool) (data : Nat) (s : State) : Host.Outcome State Fault Refusal :=
  .next (if !s.powered then s
  else if s.accessOk addr wide then s.writeAccess p addr wide data else s.badWrite p addr wide)

/-- A write of one register, as the rows that name one do. -/
def State.writeOne (s : State) (p : Path) (a data : Nat) : State :=
  if s.powered && s.accessOk a false then s.writeWord p a (data % 2 ^ 32) else s

/-- LOCAL_RESET: a write of BLK_CTL with LRESET = 1 and its other bits as they stand starts the page's local reset (R437). -/
def execLocalReset (p : Path) (page : Nat) (s : State) : Host.Outcome State Fault Refusal :=
  .next (s.writeOne p (pageBase page + 0x0C) (s.rd (pageBase page + 0x0C) % 4 + 4))

/-- LOCAL_RESET_DONE: the local reset of a page ends (R437). -/
def execLocalResetDone (page : Nat) (s : State) : Host.Outcome State Fault Refusal :=
  .next (if s.powered then s.finishReset (pageBase page) else s)

/-- BLK_IRQ_SET: a write of 1 sets implemented interrupt bits (R436, R438). -/
def execBlkIrqSet (p : Path) (page : Nat) (data : Nat) (s : State) : Host.Outcome State Fault Refusal :=
  .next (s.writeOne p (pageBase page + 0x1C) data)

/-- DEVTIME_LO_READ: a read of DEVTIME_LO returns the low word of device time and latches the high word (R391, R433). -/
def execDevtimeLoRead (p : Path) (s : State) : Host.Outcome State Fault Refusal :=
  .next (if s.powered then
    let r := s.readAccess Reg.pwrDevtimeLo false
    r.2.emit (.regAnswer p Reg.pwrDevtimeLo false r.1 false)
  else s)

/-- PAR_CFG_WRITE: PAR_GRAN of a die is taken when every granule it would reclassify is free, else kept and recorded (R250). -/
def execParCfgWrite (p : Path) (die : Nat) (data : Nat) (s : State) : Host.Outcome State Fault Refusal :=
  .next (if die < 4 then s.writeOne p (Reg.dramcParCfg (die * 8)) data else s)

/-- SPILL_CFG_WRITE: SPILL_256G is stored for the next device reset, unless too little object capacity would remain (R283). -/
def execSpillCfgWrite (p : Path) (data : Nat) (s : State) : Host.Outcome State Fault Refusal :=
  .next (s.writeOne p Reg.vuindigSpillCfg data)

/-- FUNC_CFG_WRITE: enables or disables a function and sets its limits (R296, R297, R423). -/
def execFuncCfgWrite (p : Path) (func : Nat) (data : Nat) (s : State) : Host.Outcome State Fault Refusal :=
  .next (if func < 16 then s.writeOne p (Reg.schedFuncCfg func) data else s)

/-- FUNC_RESET: a write of FUNC.RESET starts the partition reset (R320). -/
def execFuncReset (p : Path) (func : Nat) (s : State) : Host.Outcome State Fault Refusal :=
  .next (if func < 16 then s.writeOne p (Reg.funcReset func) 1 else s)

/-- PORT_CFG_WRITE: EN takes a port down or starts its training; ENC_EN waits for the next training (R376). -/
def execPortCfgWrite (p : Path) (port : Nat) (data : Nat) (s : State) : Host.Outcome State Fault Refusal :=
  .next (if port < 8 then s.writeOne p (Reg.zwxPortCfg port) data else s)

/-- The word of FENCE_CTL that names a unit. -/
def fenceWord (op : Nat) (u : FenceUnit) : Nat := op * 2 ^ 14 + b2n u.whole * 2 ^ 13 + u.islet % 16 * 512 + u.island % 512

/-- FENCE: a request of FENCE_CTL to fence a unit (R401). -/
def execFence (p : Path) (u : FenceUnit) (s : State) : Host.Outcome State Fault Refusal :=
  .next (if u.island < 512 ∧ u.islet < 16 then s.writeOne p Reg.faultFenceCtl (fenceWord 1 u) else s)

/-- A request of FENCE_CTL to re-admit a unit starts its self-test (R403). -/
def execReadmit (p : Path) (u : FenceUnit) (s : State) : Host.Outcome State Fault Refusal :=
  .next (if u.island < 512 ∧ u.islet < 16 then s.writeOne p Reg.faultFenceCtl (fenceWord 2 u) else s)

/-- CLEAR_LIST: the fence list is emptied (R403). -/
def execClearList (p : Path) (s : State) : Host.Outcome State Fault Refusal := .next (s.writeOne p Reg.faultFenceCtl (3 * 2 ^ 14))

/-- SVN_COMMIT: on the core path, raises the fused minimum where R421 permits. -/
def execSvnCommit (p : Path) (s : State) : Host.Outcome State Fault Refusal := .next (s.writeOne p Reg.secCtl 2)

/-- ERASE_ALL: on the management path, destroys the at-rest keys while every function is disabled (R423). -/
def execEraseAll (p : Path) (s : State) : Host.Outcome State Fault Refusal := .next (s.writeOne p Reg.secCtl 4)

/-- UNLOCK_GO: the check of UNLOCK_BUF starts; the host path needs EXPERT on the SEC page (R429). -/
def execUnlockGo (p : Path) (s : State) : Host.Outcome State Fault Refusal := .next (s.writeOne p Reg.secCtl 1)

/-- PATH_CLEAR: the host clears path-down bits of a bridge (R349). -/
def execPathClear (p : Path) (hi : Bool) (data : Nat) (s : State) : Host.Outcome State Fault Refusal :=
  .next (s.writeOne p (if hi then Reg.hostPathClearHi else Reg.hostPathClearLo) data)

end Sys2Proof.Machine
end

