-- ==== Sys2Proof/Machine/Bridge.lean ====
section
/-! DEFINITION. The bridge's rings, event ring and register windows, register packets, and the packet types that are discarded (R324,
R332, R344 to R350, R363). -/

namespace Sys2Proof.Machine

/-! ## Submission (R344 to R346) -/

/-- SQ_TAIL_WRITE: the host moves the submission tail of a ring pair (R344). -/
def execSqTailWrite (ring : Nat) (tail : Nat) (s : State) : Host.Outcome State Fault Refusal :=
  .next (if ring < 256 then s.writeOne .host (Reg.hringSqTail ring) tail else s)

/-- Whether the bridge fetches the next entry of a ring: the pair runs, an entry stands between head and tail, and fewer than CQ size −
1 of its commands are outstanding (R344). -/
def State.mayFetch (s : State) (ring : Nat) : Bool :=
  s.powered && s.ringOn ring && s.sqHead ring != s.rd (Reg.hringSqTail ring) % ringSize (s.rd (Reg.hringSqCfg ring)) &&
    decide ((s.brg.cmds.filter (fun c => c.ring == ring && c.sent)).length < ringSize (s.rd (Reg.hringCqCfg ring)) - 1)

/-- The command that the bridge builds from an entry (R345). -/
def State.sqHeader (s : State) (ring : Nat) (e : SqEntry) : CmdHdr :=
  { opcode := e.opcode % 256, func := bits (s.rd (Reg.hringSqCfg ring)) 7 4, fence := e.fence, channel := e.channel % 256, tag := e.tag % 65536
    srcOrd := s.fix.ord, dstOrd := e.dstOrd % 64, ring := ring, inlineLen := if e.bodyLen ≤ 4096 then e.bodyLen else 0
    xferLen := if e.bodyLen ≤ 4096 then 0 else e.bodyLen, reserved := 0 }

/-- Takes a built command: an ABORT of a tag that the bridge still holds unsent ends both here, any other is held and sent in ring
order (R346). -/
def State.takeEntry (s : State) (ring : Nat) (h : CmdHdr) (e : SqEntry) (body : Body) : State :=
  let hit (c : RingCmd) : Bool := !c.sent && c.ord == h.dstOrd && c.h.func == h.func && c.h.tag == fld body 15 0
  match (if h.opcode = Op.abort then s.brg.cmds.find? hit else none) with
  | some c =>
    let s1 : State := { s with brg := { s.brg with cmds := s.brg.cmds.filter (fun x => x.id != c.id) } }
    (s1.bridgeCpl c.ring c.h Status.aborted).bridgeCpl ring h Status.aborted
  | none =>
    let c : RingCmd :=
      { id := s.brg.nextCmd, ring := ring, ord := h.dstOrd, h := h, body := body, respAddr := e.respAddr, respLen := e.respLen
        sent := false, answered := false, refused := false, retried := false, sentAt := 0, resendAt := 0 }
    { s with brg := { s.brg with cmds := s.brg.cmds ++ [c], nextCmd := s.brg.nextCmd + 1 } }

/-- SQ_FETCH: the bridge fetches the next entry of a ring and its body. A bad entry completes with CMD_PARAM, one for a failed path
with LINK_FAILED (R344, R345, R349). -/
def execSqFetch (ring : Nat) (e : SqEntry) (b : Body) (s : State) : Host.Outcome State Fault Refusal :=
  .next (if !s.mayFetch ring then s
  else
    let n := ringSize (s.rd (Reg.hringSqCfg ring))
    let s1 : State := { s with brg := { s.brg with sqHead := mapPut 0 ring ((s.sqHead ring + 1) % n) s.brg.sqHead } }
    let h := s1.sqHeader ring e
    let body := (b ++ List.replicate (e.bodyLen - b.length) 0).take e.bodyLen
    if e.reserved ≠ 0 ∨ e.bodyAddr % 64 ≠ 0 ∨ e.respAddr % 64 ≠ 0 then s1.bridgeCpl ring h Status.cmdParam
    else if s1.pathDown h.dstOrd then s1.bridgeCpl ring h Status.linkFailed
    else (s1.takeEntry ring h e body).ringRelease)

/-- The command to which an answer of a device belongs. -/
def State.ringCmd? (s : State) (ord func tag : Nat) : Option RingCmd :=
  s.brg.cmds.find? (fun c => c.sent && !c.answered && c.ord == ord && c.h.func == func && c.h.tag == tag)

/-- Replaces a command that the bridge holds. -/
def State.updRing (s : State) (id : Nat) (f : RingCmd → RingCmd) : State :=
  { s with brg := { s.brg with cmds := updWhere (fun c => c.id == id) f s.brg.cmds } }

/-- The DATA packets of a granted body: 4,096 bytes each, the last one shorter (R333, R345). -/
def grantData (c : RingCmd) (handle : Nat) : List Out :=
  (List.range (cdiv c.body.length 4096)).map (fun i =>
    .data c.ord { func := c.h.func, tag := c.h.tag, handle := handle, offset := 4096 * i, bytes := (c.body.drop (4096 * i)).take 4096 })

/-- XFER_READY: a grant reaches the bridge, which sends the body (R345); a grant of 0 announces a refusing completion (R331). -/
def execXferReady (srcOrd func tag handle grant : Nat) (s : State) : Host.Outcome State Fault Refusal :=
  .next (match (s.ringCmd? srcOrd func tag).filter (fun c => s.fix.bridge && decide (c.h.xferLen > 0)) with
  | none => s
  | some c =>
    let s1 := s.updRing c.id (fun c => { c with answered := true })
    (if grant > 0 then s1.emits (grantData c handle) else s1).ringRelease)

/-- BUSY_RETRY: the bridge waits HINT_US before it sends the refused command again (R346). -/
def execBusyRetry (srcOrd func tag _cause hint : Nat) (s : State) : Host.Outcome State Fault Refusal :=
  .next (match (s.ringCmd? srcOrd func tag).filter (fun _ => s.fix.bridge) with
  | none => s
  | some c => s.updRing c.id (fun c => { c with sent := false, refused := true, retried := true, resendAt := s.now + hint * 1000 }))

/-- BUSY_RESEND: the hint has elapsed and the refused command is sent again, once every earlier refused one of its queue has been accepted
(R346). -/
def execBusyResend (ring ord tag : Nat) (s : State) : Host.Outcome State Fault Refusal :=
  .next (match s.brg.cmds.find? (fun c => c.refused && c.ring == ring && c.ord == ord && c.h.tag == tag) with
  | none => s
  | some c => if s.heldBack c then s else (((s.elapseTo c.resendAt).sendCmd c).count Reg.hostBusyResendCnt).ringRelease)

/-! ## Completions and events (R347 to R349, R363) -/

/-- The command that a completion ends: the last one with its tag where DUP_TAG is set, else the first. -/
def State.cplFor (s : State) (c : CplPkt) : Option RingCmd :=
  let mine := s.brg.cmds.filter (fun x => x.sent && x.ord == c.srcOrd && x.h.func == c.func && x.h.tag == c.tag)
  if c.dupTag then mine.getLast? else mine.head?

/-- CPL: a completion reaches the bridge. Its body goes to RESP_ADDR up to RESP_LEN, and after the last fragment its entry to the ring. A
STEP_REPORT goes to the ring it names; a completion of nothing the bridge holds is late (R336, R347, R349, R363). -/
def execCpl (c : CplPkt) (s : State) : Host.Outcome State Fault Refusal :=
  .next (if !s.powered || !s.fix.bridge then s
  else if s.zwx.hostDrop then s.count Reg.archHostDropCnt
  else if c.kind ≠ 0 then
    (if c.last then s.putCq { ring := c.ring % 256, c := c, gen := false, trunc := decide (c.bodyLen > 0) } else s)
  else match s.cplFor c with
  | none => s.count Reg.hostLateCplCnt
  | some x =>
    let part := c.bytes.take (x.respLen - c.fragOff)
    let s1 := if part.isEmpty then s else s.emit (.hostWrite (x.respAddr + c.fragOff) part)
    if !c.last then s1
    else
      let s2 : State := { s1 with brg := { s1.brg with cmds := s1.brg.cmds.filter (fun y => y.id != x.id) } }
      (s2.putCq { ring := x.ring, c := c, gen := false, trunc := decide (c.bodyLen > x.respLen) }).ringRelease)

/-- EVENT: an event reaches the bridge and is written to the event ring. Where the ring is full or not in use it is dropped, and the
next entry carries OVERFLOW (R348, R363). -/
def execEvent (e : EventPkt) (s : State) : Host.Outcome State Fault Refusal :=
  .next (if !s.powered || !s.fix.bridge then s
  else if s.zwx.hostDrop then s.count Reg.archHostDropCnt
  else
    let w := s.rd Reg.hostEvqCfg
    let n := ringSize w
    let k := s.brg.evqTail
    if !bit w 0 || (k + 1) % n == bits (s.rd Reg.hostEvqHead) 15 0 % n then
      ({ s with brg := { s.brg with evqOver := true } } : State).count Reg.hostEvqDropCnt
    else
      let s1 := s.emits
        [.hostWrite (s.hostAddr Reg.hostEvqBaseLo Reg.hostEvqBaseHi + 32 * (k % n)) (eventBytes (1 - k / n % 2 + b2n s.brg.evqOver * 2) e),
         .msix (bits w 26 16)]
      { s1 with brg := { s1.brg with evqTail := k + 1, evqOver := false } })

/-- CQ_HEAD_WRITE: the host frees completion entries; completions that waited are written and the withheld credit is returned (R347,
R360). -/
def execCqHeadWrite (ring : Nat) (head : Nat) (s : State) : Host.Outcome State Fault Refusal :=
  .next (if ring < 256 then s.writeOne .host (Reg.hringCqHead ring) head else s)

/-- ANSWER_TIMEOUT: a command with a granted body has had no answer within ANSWER_US, and its path is declared failed (R349). -/
def execAnswerTimeout (ord : Nat) (s : State) : Host.Outcome State Fault Refusal :=
  .next (match s.brg.cmds.find? (fun c => c.ord == ord && c.sent && !c.answered && decide (c.h.xferLen > 0)) with
  | none => s
  | some c => (s.elapseTo (c.sentAt + bits (s.rd Reg.hostLinkfailCfg) 4 0 * 1000)).pathFail ord)

/-! ## Register windows (R350) -/

/-- The devices of the archipelago. -/
def FixSt.devices (x : FixSt) : Nat := x.dx * x.dy * x.dz

/-- The answer of a host access to BAR2 at `off`. -/
def State.barAnswer (s : State) (off : Nat) (wide : Bool) (v : Nat) (err : Bool) : State := s.emit (.regAnswer .host off wide v err)

/-- BAR2_ACCESS: an access of the host to a window becomes a register packet to its device; the bridge's own window is its BAR0 (R350,
R435). -/
def execBar2Access (off bytes : Nat) (write : Bool) (data : Nat) (s : State) : Host.Outcome State Fault Refusal :=
  .next (if !s.powered || !s.fix.bridge then s
  else
    let o := off / 2 ^ 24
    let a := off % 2 ^ 24
    let wide := bytes == 8
    let sized := bytes == 4 || bytes == 8
    if o = s.fix.ord then
      if sized && s.accessOk a wide then
        if write then s.writeAccess .host a wide data
        else
          let r := s.readAccess a wide
          r.2.barAnswer off wide r.1 false
      else
        let s1 := s.count Reg.hostRegErrCnt
        if write then s1 else s1.barAnswer off wide (2 ^ (8 * bytes) - 1) false
    else if !sized || off % bytes ≠ 0 || o ≥ s.fix.devices || s.pathDown o then
      if write then s else s.barAnswer off wide (2 ^ (8 * bytes) - 1) false
    else
      let rid := s.brg.nextRid
      let r : RegPkt := { wide := wide, srcOrd := s.fix.ord, rid := rid, addr := a, data := if write then data % 2 ^ (8 * bytes) else 0, err := false }
      let acc : WinAcc := { rid := rid, ord := o, wide := wide, write := write, off := off, sentAt := s.now }
      ({ s with brg := { s.brg with wins := s.brg.wins ++ [acc], nextRid := (rid + 1) % 65536 } } : State).emit
        (if write then .regWrite o r else .regRead o r))

/-- The answer of a device to a register packet (R350). -/
def State.regAnswer (s : State) (r : RegPkt) (v : Nat) (err : Bool) : State :=
  s.emit (.regRsp r.srcOrd { wide := r.wide, srcOrd := s.fix.ord, rid := r.rid, addr := r.addr, data := v, err := err })

/-- REG_RD: a register read of the host path reaches a device (R350, R432). -/
def execRegRd (r : RegPkt) (s : State) : Host.Outcome State Fault Refusal :=
  .next (if !s.powered then s
  else if !s.accessOk r.addr r.wide then s.regAnswer r 0 true
  else
    let x := s.readAccess r.addr r.wide
    x.2.regAnswer r x.1 false)

/-- REG_WR: a register write of the host path reaches a device (R350, R432). -/
def execRegWr (r : RegPkt) (s : State) : Host.Outcome State Fault Refusal :=
  .next (if !s.powered then s
  else if !s.accessOk r.addr r.wide then s.regAnswer r 0 true
  else (s.writeAccess .host r.addr r.wide r.data).regAnswer r 0 false)

/-- Ends a window access: `v` is what a read returns, `bad` counts it. -/
def State.endWin (s : State) (w : WinAcc) (v : Nat) (bad : Bool) : State :=
  let s1 : State := { s with brg := { s.brg with wins := s.brg.wins.erase w } }
  let s2 := if bad then s1.count Reg.hostRegErrCnt else s1
  if w.write then s2 else s2.barAnswer w.off w.wide (if bad then ones w.wide else v) false

/-- REG_RSP: the answer of a device reaches the bridge; an error reads all ones and counts (R350). -/
def execRegRsp (r : RegPkt) (s : State) : Host.Outcome State Fault Refusal :=
  .next (match (s.brg.wins.find? (fun w => w.rid == r.rid && w.ord == r.srcOrd)).filter (fun _ => s.powered) with
  | none => s
  | some w => s.endWin w (if w.wide then r.data else r.data % 2 ^ 32) r.err)

/-- REGWIN_TIMEOUT: a window read has had no answer within TIMEOUT_US and returns all ones; a write was posted (R350). -/
def execRegwinTimeout (rid : Nat) (s : State) : Host.Outcome State Fault Refusal :=
  .next (match (s.brg.wins.find? (fun w => w.rid == rid)).filter (fun _ => s.powered) with
  | none => s
  | some w => (s.elapseTo (w.sentAt + bits (s.rd Reg.hostRegwinCfg) 9 0 * 1000)).endWin w 0 (!w.write))

/-! ## Other packets -/

/-- The packet types of R324 Table 1 and R370 Table 3. -/
def knownPtype (p : Nat) : Bool :=
  [0x01, 0x02, 0x03, 0x04, 0x05, 0x06, 0x08, 0x09, 0x0A, 0x10, 0x11, 0x12, 0x13, 0x14, 0x15, 0x16].contains p

/-- RESERVED_PTYPE_DROP: a packet of a reserved type is discarded and counted (R324). -/
def execReservedPtypeDrop (ptype : Nat) (s : State) : Host.Outcome State Fault Refusal :=
  .next (if s.powered && !knownPtype (ptype % 256) then s.count Reg.cmdPtypeDropCnt else s)

/-- BUSY_HINT_EXPIRE: the back-off of a queue ends (R332). The count of its answers lasts until a command is accepted. -/
def execBusyHintExpire (func : Nat) (queue : Option Nat) (s : State) : Host.Outcome State Fault Refusal :=
  .next (match (s.cmd.hints.find? (fun x => x.func == func && x.chan == queue)).filter (fun _ => s.powered) with
  | none => s
  | some x => s.elapseTo x.untilNs)

end Sys2Proof.Machine
end

