-- ==== Sys2Proof/Machine/Mgmt.lean ====
section
/-! DEFINITION. The management plane (chapter 18): MCTP, the register message, PLDM monitoring, firmware update, and what is published
at the end of each management period. -/

namespace Sys2Proof.Machine

/-! ## MCTP (R441, R442) -/

/-- A message that the harbour's MCTP engine takes by itself: received, counted and handled whatever the cores do (R442). -/
def State.taken (s : State) (t : Transport) (f : State → State) : State :=
  if s.mctpRuns t then f (s.count Reg.mgmtMctpRxCnt) else s

/-- A register message answer (R442). -/
def State.regAns (s : State) (t : Transport) (err : Bool) (data : Nat) : State := s.emit (.mgmt t (.register err data))

/-- REGISTER_MESSAGE_READ: a read on the management path; an access outside the pages answers ERR and all ones (R435, R442). -/
def execRegisterMessageRead (t : Transport) (wide : Bool) (addr : Nat) (s : State) : Host.Outcome State Fault Refusal :=
  .next (s.taken t (fun s =>
    if s.accessOk addr wide then
      let r := s.readAccess addr wide
      r.2.regAns t false r.1
    else s.regAns t true (ones wide)))

/-- REGISTER_MESSAGE_WRITE: a write on the management path (R435, R442). -/
def execRegisterMessageWrite (t : Transport) (wide : Bool) (addr data : Nat) (s : State) : Host.Outcome State Fault Refusal :=
  .next (s.taken t (fun s =>
    if s.accessOk addr wide then (s.writeAccess .mgmt addr wide data).regAns t false 0
    else s.regAns t true (ones wide)))

/-- MCTP_CONTROL: the bus owner assigns the endpoint ID of the transport (R441, R443). The null ID and the broadcast ID are refused. The control cores
serve it (R23 Table 4; R442 excepts only the register message). -/
def execMctpControl (t : Transport) (eid : Nat) (s : State) : Host.Outcome State Fault Refusal :=
  .next (s.served t (fun s =>
    if eid % 256 = 0 ∨ eid % 256 = 255 then s.emit (.mgmt t (.control 2))
    else ({ s with mgmt := { s.mgmt with eids := s.mgmt.eids.filter (fun e => e.1 != t) ++ [(t, eid % 256)] } } : State).emit
      (.mgmt t (.control 0))))

/-- Whether a message type is accepted (R441). -/
def mctpTypes : List Nat := [0x00, 0x01, 0x05, 0x7F]

/-- MCTP_DISCARD: a message of another type, or of more than 4,096 bytes, is discarded and counted (R441). -/
def execMctpDiscard (t : Transport) (ty len : Nat) (s : State) : Host.Outcome State Fault Refusal :=
  .next (if mctpTypes.contains ty && decide (len ≤ 4096) then s else s.taken t (fun s => s.count Reg.mgmtMctpDropCnt))

/-! ## Sensors (R444 Table 7) -/

/-- The IDs of the numeric sensors. -/
def numericIds : List Nat := (List.range 127).map (fun i => i + 1)

/-- The IDs of the state sensors. -/
def stateIds : List Nat := (List.range 13).map (fun i => i + 200)

/-- The number of bits set. -/
def popCount (w : Nat) : Nat := ((List.range 32).filter (fun i => bit w i)).length

/-- What a sensor reads at its source; the rate sensors have none but their counters. -/
def State.sensorSource (s : State) (id : Nat) : Nat :=
  if id = 1 then bits (s.view Reg.pwrInput) 15 0
  else if id = 2 then bits (s.view Reg.pwrInput) 31 16
  else if id ≤ 6 then wordOf (s.view Reg.pwrCoolStat) 0 / 256 ^ (id - 3) % 256
  else if id = 7 then bits (s.view Reg.pwrPress) 11 0
  else if id = 8 then bits (s.view Reg.pwrPress) 27 16
  else if id = 9 then bits (s.view Reg.pwrPumpHz) 15 0
  else if id ≤ 14 then s.mgmt.dieTemps.getD (id - 10) 0
  else if id ≤ 46 then bits (s.view (Reg.dramcTherm (id - 15))) 7 0
  else if id ≤ 78 then bits (s.view (Reg.dramcUtil (id - 47))) 7 0
  else if id ≤ 110 then bits (s.view (Reg.dramcTherm (id - 79))) 15 10
  else if id = 111 then s.flt.islands.length
  else if id = 112 then s.flt.islets.length
  else if id = 113 then (s.sch.slow.filter (fun x => x.flag)).length
  else if id = 114 then popCount (s.view Reg.faultStackFailed)
  else if id ≤ 122 then bits (s.view (Reg.zwxStat (id - 115))) 7 4
  else if id = 123 then bits (s.view Reg.vuindigStat) 23 16
  else if id = 124 then bits (s.view Reg.vuindigStat) 31 24
  else if id = 125 then s.view Reg.vuindigFreeUnits
  else if id = 200 then bits (s.view Reg.pwrStat) 2 0
  else if id = 201 then b2n s.faultOut
  else if id = 202 then s.sec.result
  else if id = 203 then bits (s.view Reg.vuindigStat) 2 2
  else if 204 ≤ id ∧ id ≤ 211 then bits (s.view (Reg.zwxStat (id - 204))) 1 0
  else if id = 212 then bits (s.view Reg.schedStat) 0 0
  else 0

/-- The published reading of a sensor. -/
def MgmtSt.sensor (m : MgmtSt) (id : Nat) : Nat := mapGet 0 id m.sensors

/-- The upper warning and upper critical thresholds of a numeric sensor: those set, or the defaults; 0 stands for none (R446). -/
def MgmtSt.thresholdsOf (m : MgmtSt) (id : Nat) : Nat × Nat :=
  match m.thresholds.find? (fun t => t.1 == id) with
  | some t => t.2
  | none =>
    if id = 3 then (43, 45)
    else if 10 ≤ id ∧ id ≤ 14 then (105, 110)
    else if 15 ≤ id ∧ id ≤ 46 then (85, 95)
    else (0, 0)

/-- How far a reading stands above its thresholds: 0 below both, 1 above the warning one, 2 above the critical one. -/
def level (t : Nat × Nat) (v : Nat) : Nat :=
  if t.2 ≠ 0 ∧ v ≥ t.2 then 2 else if t.1 ≠ 0 ∧ v ≥ t.1 then 1 else 0

/-- Publishes a reading; a crossed threshold or a changed state is an event (R446). -/
def State.publishSensor (s : State) (id v : Nat) : State :=
  let old := s.mgmt.sensor id
  let t := s.mgmt.thresholdsOf id
  let s1 : State := { s with mgmt := { s.mgmt with sensors := mapPut 0 id v s.mgmt.sensors } }
  if (if id < 200 then level t v != level t old else v != old) then s1.mgmtEvent (.sensorEvent id v) else s1

/-- Forms the rate sensors once a rate window has passed, over the RATE_MS of device time that end with the management period at `due`
(R7, R445). -/
def State.publishRates (s : State) (due : Nat) : State :=
  let ms := bits (s.rd Reg.mgmtTelemCfg) 15 0
  if due < s.mgmt.rateAt + ms * 1000000 then s
  else
    let one (s : State) (id : Nat) : State :=
      s.publishSensor id ((((s.mgmt.rates.filter (fun e => e.1 == id && decide (due ≤ e.2.1 + ms * 1000000) && decide (e.2.1 < due))).map
        (fun e => e.2.2)).sum) * 1000 / ms)
    let s1 := one (one s 126) 127
    { s1 with mgmt := { s1.mgmt with rateAt := due } }

/-- Every sensor is refreshed (R445). -/
def State.refreshSensors (s : State) (due : Nat) : State :=
  (((numericIds.filter (fun i => decide (i < 126))) ++ stateIds).foldl
    (fun (s : State) id => s.publishSensor id (s.sensorSource id)) s).publishRates due

/-- Events that no later rate window can take in are forgotten: RATE_MS is at most 65,535. -/
def State.pruneRates (s : State) (due : Nat) : State :=
  { s with mgmt := { s.mgmt with rates := s.mgmt.rates.filter (fun e => decide (due ≤ e.2.1 + 65535000000)) } }

/-! ## The management period (R272, R275, R315, R355, R403, R409, R445) -/

/-- The object that HOT_OBJ names, with its function and its bytes: that of a granule whose retirement waits for room, so that software
can re-place it (R275), or else the one that moved the most bytes in the period (R272). The order of the two is DEDUCED (log entry 37). -/
def State.hotObj (s : State) (k : Nat) (x : StackSt) : Nat × Nat × Nat :=
  match x.deferred.findSome? (s.granObj k) with
  | some o => (o.func, o.handle, ((x.objs.find? (fun e => e.1 == o.func && e.2.1 == o.handle)).map (fun e => e.2.2)).getD 0)
  | none => x.objs.foldl (fun (b : Nat × Nat × Nat) o => if o.2.2 > b.2.2 then o else b) (0, 0, 0)

/-- A stack controller publishes its hotspot counters of the period that ends at `due`, and starts the next period's with the accesses that
have come since (R7, R272). -/
def State.publishStack (due : Nat) (s : State) (k : Nat) : State :=
  let x := (s.mm.stk[k]?).getD StackSt.reset
  let hot := s.hotObj k x
  let word := setBits (s.rd (Reg.dramcTherm k)) 9 0 (x.temp % 256 + b2n x.refresh2x * 256 + b2n x.throttle * 512)
  let s1 := (((s.wr (Reg.dramcTherm k) word).wr (Reg.dramcBytesRd k) (x.rd / 65536)).wr (Reg.dramcBytesWr k) (x.wr / 65536)).wr
    (Reg.dramcUtil k) (min 255 ((x.rd + x.wr) * 256 / 614400000))
  let s2 := (s1.wr (Reg.dramcHotObj k) hot.2.1).wr (Reg.dramcHotInfo k) (hot.2.2 / 65536 % 2 ^ 24 * 256 + hot.1 % 16)
  { s2 with mm := { s2.mm with stk := updAt k (fun x =>
      let next : StackSt := { x with rd := 0, wr := 0, objs := [], late := x.late.filter (fun e => decide (due + 1000000 ≤ e.1)) }
      (x.late.filter (fun e => decide (e.1 < due + 1000000))).foldl
        (fun (y : StackSt) e => y.addPeriod e.2.1 e.2.2.1 e.2.2.2.1 e.2.2.2.2) next) s2.mm.stk } }

/-- The eye margin and symbol error rate of every lane are measured values (R355): free ones. -/
def State.publishLanes (s : State) (n : Nat) : State :=
  let p := s.port n
  let k := s.fresh
  let lanes := p.lanes.mapIdx (fun i (l : Nat × Nat × Nat) => (l.1, Config.freeBits (k + 2 * i) % 16, Config.freeBits (k + 2 * i + 1) % 256))
  ({ s with fresh := s.fresh + 16 } : State).updPort n (fun p => { p with lanes := lanes, lanesPub := lanes })

/-- The hottest junctions are measured values: free ones. -/
def State.publishDies (s : State) : State :=
  let k := s.fresh
  { s with fresh := s.fresh + 5, mgmt := { s.mgmt with dieTemps := (List.range 5).map (fun i => Config.freeBits (k + i) % 256) } }

/-- The control cores copy the new fault-log entries to the ring of 65,536 in flash, and the retired and fence lists (R275, R403, R409). -/
def State.copyLists (s : State) : State :=
  let new := s.flt.log.filter (fun e => decide (e.seq > s.flt.copied))
  let ring := s.flt.flashRing ++ new
  { s with
    flt := { s.flt with flashRing := ring.drop (ring.length - 65536), copied := s.flt.logSeq, storedList := s.flt.fenceList }
    mm := { s.mm with retiredStored := s.mm.retired } }

/-- ISLAND_SLOW is reported for the islands newly flagged (R315, R446). -/
def State.reportSlow (s : State) : State :=
  let xs := s.sch.slow.filter (fun x => x.report)
  let s1 := xs.foldl (fun (s : State) x => s.mgmtEvent (.oem 0xFB [0x10, x.island + x.cause * 1024])) s
  { s1 with sch := { s1.sch with slow := s1.sch.slow.map (fun x => { x with report := false }) } }

/-- A map cache of another size than MAP_CFG.CACHE_GIB is taken again (R279). -/
def State.resizeCache (s : State) : State :=
  if s.fl.ready ∧ runTotal s.fl.cacheGrans ≠ bits (s.rd Reg.vuindigMapCfg) 5 0 * 16384 then
    ({ s with fl := { s.fl with cacheGrans := [], cached := [] } } : State).takeCache
  else s

/-- MGMT_PERIOD: each 1 ms of device time the stack controllers and ports publish what they measured, and while a control core runs the
telemetry agent refreshes the sensors, copies the logs and lists to flash and reports slow islands (R272, R445). -/
def execMgmtPeriod (s : State) : Host.Outcome State Fault Refusal :=
  .next (if !s.powered then s
  else
    let due := s.mgmt.period + 1000000
    let s1 := s.elapseTo due
    let s2 := (List.range 32).foldl (State.publishStack due) { s1 with mgmt := { s1.mgmt with period := due } }
    let s3 := ((List.range 8).foldl State.publishLanes s2).publishDies
    let s4 := s3.resizeCache
    (if s4.mgmtServes then (s4.copyLists.refreshSensors due).reportSlow else s4).pruneRates due)

/-! ## PLDM base and monitoring (R444 to R446) -/

/-- A PLDM answer. -/
def State.pldmAns (s : State) (t : Transport) (code : Nat) (b : List Nat) : State := s.emit (.mgmt t (.pldm code b))

/-- ERROR_UNSUPPORTED_PLDM_CMD. -/
def State.pldmNo (s : State) (t : Transport) : State := s.pldmAns t 0x05 []

/-- PLDM_BASE_REQUEST: the Type 0 commands are answered; GetPLDMTypes names Types 0, 2 and 5 (R444). -/
def execPldmBaseRequest (t : Transport) (cmd : Nat) (s : State) : Host.Outcome State Fault Refusal :=
  .next (s.served t (fun s =>
    if 1 ≤ cmd ∧ cmd ≤ 5 then s.pldmAns t 0 (if cmd = 4 then [0x25] else []) else s.pldmNo t))

/-- PLDM_SENSOR_READ: the reading published last; no such sensor answers 0x80 (R444). -/
def execPldmSensorRead (t : Transport) (id : Nat) (s : State) : Host.Outcome State Fault Refusal :=
  .next (s.served t (fun s =>
    if (numericIds ++ stateIds).contains id then s.pldmAns t 0 [id, s.mgmt.sensor id] else s.pldmAns t 0x80 []))

/-- SET_SENSOR_THRESHOLDS: the upper warning and critical thresholds of a numeric sensor (R446). -/
def execSetSensorThresholds (t : Transport) (id warn crit : Nat) (s : State) : Host.Outcome State Fault Refusal :=
  .next (s.served t (fun s =>
    if numericIds.contains id then
      ({ s with mgmt := { s.mgmt with thresholds := s.mgmt.thresholds.filter (fun x => x.1 != id) ++ [(id, warn, crit)] } } : State).pldmAns t 0 []
    else s.pldmAns t 0x80 []))

/-- SET_EVENT_RECEIVER: events of the transport go to the named receiver; the null ID names none (R446). -/
def execSetEventReceiver (t : Transport) (eid : Nat) (s : State) : Host.Outcome State Fault Refusal :=
  .next (s.served t (fun s =>
    let others := s.mgmt.receivers.filter (fun r => r.1 != t)
    let l := if eid = 0 then others else others ++ [(t, eid)]
    ({ s with mgmt := { s.mgmt with receivers := l } } : State).pldmAns t 0 []))

/-- POLL_FOR_PLATFORM_EVENT_MESSAGE: the oldest queued event of the transport leaves its queue; none answers an empty message (R446). -/
def execPollForPlatformEventMessage (t : Transport) (s : State) : Host.Outcome State Fault Refusal :=
  .next (s.served t (fun s =>
    match s.mgmt.queue.find? (fun q => q.1 == t) with
    | none => s.pldmAns t 0 []
    | some q => ({ s with mgmt := { s.mgmt with queue := s.mgmt.queue.erase q } } : State).emit (.mgmt t q.2)))

/-- The register word that an effecter write makes: 300 the power cap, 301 the state request, 302 the least valve opening (R444). -/
def State.effecter (s : State) (id v : Nat) : Option (Nat × Nat) :=
  if id = 300 ∧ 1400 ≤ v ∧ v ≤ 2400 then some (Reg.pwrCap, setBits (s.rd Reg.pwrCap) 11 0 v)
  else if id = 301 ∧ v < 16 then some (Reg.pwrReq, v)
  else if id = 302 ∧ v ≤ 100 then some (Reg.pwrCoolCfg, setBits (s.rd Reg.pwrCoolCfg) 23 16 v)
  else none

/-- EFFECTER_WRITE: a management-path write of the effecter's field; a value out of range answers an error (R445). -/
def execEffecterWrite (t : Transport) (id value : Nat) (s : State) : Host.Outcome State Fault Refusal :=
  .next (s.served t (fun s =>
    if id < 300 ∨ id > 302 then s.pldmAns t 0x80 []
    else match s.effecter id value with
    | some w => (s.writeWord .mgmt w.1 w.2).pldmAns t 0 []
    | none => s.pldmAns t 0x02 []))

/-- PLDM_UNSUPPORTED: every other type, and every Type 2 command that the PDRs do not need (R444). -/
def execPldmUnsupported (t : Transport) (_ty _cmd : Nat) (s : State) : Host.Outcome State Fault Refusal :=
  .next (s.served t (fun s => s.pldmNo t))

/-! ## Firmware update (R420, R447, R448) -/

/-- Serves a message of PLDM Type 5: by a control core, or in RECOVERY by the boot ROM on I3C/SMBus (R420). -/
def State.updServed (s : State) (t : Transport) (f : State → State) : State :=
  if s.sec.step = .recovery then if t = .i3c then s.taken t f else s.taken t id
  else s.served t f

/-- Replaces the contents of a firmware slot. -/
def State.putFw (s : State) (b : Bool) (img : List Byte) : State :=
  { s with sec := if b then { s.sec with slotB := img } else { s.sec with slotA := img } }

/-- The next request for firmware data, in chunks of 1,024 bytes (R447). -/
def State.askChunk (s : State) (u : UpdateSt) : State :=
  if u.got.length < u.len then s.emit (.mgmt u.t (.needFirmware u.got.length (min 1024 (u.len - u.got.length)))) else s

/-- The end of an update without effect: the target slot is left invalid and BOOT_PREF unchanged (R448). In RECOVERY, boot starts
again (R420). -/
def State.cancelUpd (s : State) (u : UpdateSt) : State :=
  let s1 := s.putFw u.slotB []
  let s2 : State := { s1 with mgmt := { s1.mgmt with update := none }, sec := s1.sec.setOk u.slotB false }
  if s2.sec.step = .recovery then s2.restartBoot else s2

/-- REQUEST_UPDATE: starts an update into the slot that is not running, or slot A in RECOVERY; one in progress answers
ALREADY_IN_UPDATE_MODE (R447, R448). -/
def execRequestUpdate (t : Transport) (imageLen : Nat) (s : State) : Host.Outcome State Fault Refusal :=
  .next (s.updServed t (fun s =>
    if s.mgmt.update.isSome then s.pldmAns t 0x81 []
    else
      let b := s.sec.running == some false
      let u : UpdateSt := { t := t, slotB := b, len := imageLen, got := [], lastAnswer := s.now, verified := none, applied := false }
      let s1 := s.putFw b []
      (({ s1 with mgmt := { s1.mgmt with update := some u }, sec := s1.sec.setOk b false } : State).pldmAns t 0 []).askChunk u))

/-- REQUEST_FIRMWARE_DATA: the chunk that was asked for is written to the target slot, and the next one is asked for (R447). An answer
with another offset or length is not one to the request. -/
def execRequestFirmwareData (off : Nat) (chunk : Body) (s : State) : Host.Outcome State Fault Refusal :=
  .next (match s.mgmt.update with
  | none => s
  | some u => s.updServed u.t (fun s =>
    if off ≠ u.got.length ∨ chunk.length ≠ min 1024 (u.len - u.got.length) ∨ chunk = [] then s
    else
      let v := { u with got := u.got ++ chunk, lastAnswer := s.now }
      (({ s with mgmt := { s.mgmt with update := some v } } : State).putFw u.slotB v.got).askChunk v))

/-- VERIFY_COMPLETE: success only when the written slot verifies as boot would verify it; a failure ends the update (R447, R448). -/
def execVerifyComplete (s : State) : Host.Outcome State Fault Refusal :=
  .next (match s.mgmt.update with
  | none => s
  | some u =>
    if !s.powered || decide (u.got.length < u.len) || u.verified.isSome then s
    else if s.fwVerifies (s.sec.slot u.slotB) s.sec.minSvn then
      ({ s with
        mgmt := { s.mgmt with update := some { u with verified := some true } }
        sec := s.sec.setOk u.slotB true } : State).pldmAns u.t 0 [0x17, 0]
    else (s.pldmAns u.t 0 [0x17, 1]).cancelUpd u)

/-- APPLY_COMPLETE: BOOT_PREF names the written slot (R447). -/
def execApplyComplete (s : State) : Host.Outcome State Fault Refusal :=
  .next (match s.mgmt.update with
  | none => s
  | some u =>
    if !s.powered || u.verified != some true || u.applied then s
    else
      let s1 := s.wr Reg.secCfg (setBits (s.rd Reg.secCfg) 0 0 (b2n u.slotB))
      ({ s1 with mgmt := { s1.mgmt with update := some { u with applied := true } } } : State).pldmAns u.t 0 [0x18, 0])

/-- ACTIVATE_FIRMWARE: the answer says that activation takes effect at the next device reset, and the update is over (R447). In
RECOVERY boot starts again (R420). -/
def execActivateFirmware (t : Transport) (s : State) : Host.Outcome State Fault Refusal :=
  .next (s.updServed t (fun s => match s.mgmt.update with
  | none => s.pldmAns t 0x80 []
  | some u =>
    if !u.applied || u.t != t then s.pldmAns t 0x84 []
    else
      let s1 := ({ s with mgmt := { s.mgmt with update := none } } : State).pldmAns t 0 [0x1A, 0]
      if s1.sec.step = .recovery then s1.restartBoot else s1))

/-- CANCEL_UPDATE: an update that is not applied ends, and its slot is invalid (R448). -/
def execCancelUpdate (t : Transport) (s : State) : Host.Outcome State Fault Refusal :=
  .next (s.updServed t (fun s => match s.mgmt.update with
  | none => s.pldmAns t 0x80 []
  | some u => if u.applied || u.t != t then s.pldmAns t 0x84 [] else (s.pldmAns t 0 []).cancelUpd u))

/-- UPDATE_TIMEOUT: 60 s pass without an answer to RequestFirmwareData, and the update is cancelled (R448). -/
def execUpdateTimeout (s : State) : Host.Outcome State Fault Refusal :=
  .next (match s.mgmt.update with
  | none => s
  | some u =>
    if !s.powered || decide (u.len ≤ u.got.length) then s
    else (s.elapseTo (u.lastAnswer + 60000000000)).cancelUpd u)

end Sys2Proof.Machine
end

