-- ==== Sys2Proof/Machine/Central.lean ====
section
/-! DEFINITION. The command engine's own steps (chapters 4, 5 and 13): NOP, ABORT, DATA, stamping, tide boundaries, and the start of the
command engine and of Vuindig. -/

namespace Sys2Proof.Machine

/-! ## Every command by its opcode (R326) -/

/-- The body check of an opcode. -/
def checkOf (o : Nat) : BodyCheck := match o with
  | 0x02 => chkCtx
  | 0x03 => chkMem
  | 0x11 => chkIndexSave
  | 0x12 => chkIndexUnload
  | 0x13 => chkIndexCompact
  | 0x14 => chkSearch
  | 0x15 => chkMutate
  | 0x16 => chkSelect
  | 0x22 => chkSeqOpen
  | 0x23 => chkSeqClose
  | 0x24 => chkStep
  | 0x25 => chkKv
  | _ => noCheck

/-- NOP completes OK with no body (R326). -/
def actNop : CmdAct := fun r _ s => s.complete r Status.ok []

/-- What a stamped command of an opcode does. -/
def actOf (o : Nat) : CmdAct := match o with
  | 0x02 => actCtx
  | 0x03 => actMem
  | 0x10 => actIndexLoad
  | 0x11 => actIndexSave
  | 0x12 => actIndexUnload
  | 0x13 => actIndexCompact
  | 0x14 => actSearch
  | 0x15 => actMutate
  | 0x16 => actSelect
  | 0x20 => actModelLoad
  | 0x21 => actModelUnload
  | 0x22 => actSeqOpen
  | 0x23 => actSeqClose
  | 0x24 => actStep
  | 0x25 => actKv
  | _ => actNop

def isNop (h : CmdHdr) (_ : Body) : Bool := h.opcode == Op.nop

/-- NOP: completes OK (R326). -/
def execNop (h : CmdHdr) (b : Body) (s : State) : Host.Outcome State Fault Refusal := .next (s.command isNop noCheck actNop h b)

/-! ## ABORT (R341) -/

/-- The decision of an ABORT, on the arrival of its body: the target's work is taken back and both complete with ABORTED, or the ABORT
completes with TOO_LATE. -/
def State.decideAbort (s : State) (r : CmdRef) : State :=
  match s.live? r with
  | none => s
  | some a =>
    if fld a.body 31 16 ≠ 0 then s.complete r Status.cmdParam []
    else
      let target : CmdRef := { func := r.func, tag := fld a.body 15 0 }
      match (s.live? target).filter (fun l => decide (target ≠ r) && s.canAbort l) with
      | none => (s.complete r Status.tooLate []).count Reg.cmdTooLateCnt
      | some l =>
        let s1 := (s.discard l).complete target Status.aborted (s.endBody l Status.aborted)
        let s2 := if l.h.opcode = Op.mutate then s1.count Reg.mutateAbortCnt else s1
        (s2.complete r Status.aborted []).count Reg.cmdAbortedCnt

/-- ABORT: decided on arrival; channel order, FENCE and residency do not hold it (R341). -/
def State.onAbort (s : State) (h : CmdHdr) (b : Body) : State :=
  (if (opClass h.opcode).isSome && h.opcode != Op.abort then s
  else match s.arrive h b with
  | (s1, none) => s1
  | (s1, some r) => s1.decideAbort r)

/-- ABORT as a command. -/
def execAbort (h : CmdHdr) (b : Body) (s : State) : Host.Outcome State Fault Refusal := .next (s.onAbort h b)

/-! ## Bodies (R333) -/

/-- A command whose body is complete is checked and stamped, or an ABORT decided. -/
def State.bodyComplete (s : State) (r : CmdRef) : State :=
  match s.live? r with
  | none => s
  | some l => if l.h.opcode = Op.abort then s.decideAbort r else s.bodyEnter r (checkOf l.h.opcode) (actOf l.h.opcode)

/-- Whether a DATA packet brings bytes of a live grant that it has not yet received. -/
def Live.takes (l : Live) (d : DataPkt) : Bool :=
  decide (l.h.xferLen > 0) && l.handle == d.handle && !d.bytes.isEmpty && decide (d.offset + d.bytes.length ≤ l.h.xferLen) &&
    !l.got.any (fun g => decide (g.1 < d.offset + d.bytes.length) && decide (d.offset < g.1 + g.2))

/-- DATA: bytes of a granted body arrive; when each byte has arrived once, the command is stamped. Any other DATA packet is discarded and
counted (R333). -/
def execData (d : DataPkt) (s : State) : Host.Outcome State Fault Refusal :=
  let r : CmdRef := { func := d.func, tag := d.tag }
  .next (if !s.powered then s
  else match (s.live? r).filter (fun l => l.takes d) with
  | none => s.count Reg.cmdDataDropCnt
  | some l =>
    let got := l.got ++ [(d.offset, d.bytes.length)]
    let s1 := s.updLive r (fun l => { l with
      got := got, body := l.body.take d.offset ++ d.bytes ++ l.body.drop (d.offset + d.bytes.length) })
    if (got.map (fun g => g.2)).sum = l.h.xferLen then s1.bodyComplete r else s1)

/-! ## Stamps (R96, R338) -/

/-- Takes the first entry of an island's delivery stream off it. -/
def State.popStream (s : State) (island : Nat) : State :=
  { s with cmd := { s.cmd with deliver := s.cmd.deliver.eraseP (fun d => d.1 == island) } }

/-- The first entry of an island's delivery stream. -/
def State.streamHead (s : State) (island : Nat) : Option Stream := (s.cmd.deliver.find? (fun d => d.1 == island)).map (fun d => d.2)

/-- The state as the check of an accepted command sees it: an index that has begun to unload since still serves it (R89). -/
def State.asReady (s : State) : State :=
  { s with idx := { s.idx with indexes := s.idx.indexes.map (fun x => if x.st = 3 then { x with st := 2 } else x) } }

/-- Whether a delivered command waits for one of its channel, or of its function's function-class queue, that was delivered before it and is
not stamped (R338). -/
def State.stampWaits (s : State) (l : Live) : Bool :=
  s.cmd.live.any (fun x => x.h.func == l.h.func && x.h.queue == l.h.queue && x.stage == .delivered && decide (x.order < l.order))

/-- INGRESS_STAMP: the next command that an ingress island receives is checked once more, since what it names may have changed while it
was held, and completes unstamped where the check refuses it (R92, R123); otherwise it is stamped with the island's arrival count and acts
(R96, R338). Island 512 stands for the command engine's own count on H, on which function-class commands are stamped (DESIGN CHOICE, log
entry 81). -/
def execIngressStamp (island : Nat) (s : State) : Host.Outcome State Fault Refusal :=
  .next (if !s.powered then s else
  match s.streamHead island with
  | some (.cmd r) =>
    if ((s.live? r).map s.stampWaits).getD false then s else
    let s0 := s.popStream island
    (match s0.live? r with
      | none => s0
      | some l => match checkOf l.h.opcode s0.asReady l.h l.body with
        | some (st, body) => s0.complete r st body
        | none =>
          let s1 := s0.stamp r island
          (match s1.live? r with
            | none => s1
            | some l1 => actOf l1.h.opcode r l1 s1))
  | _ => s)

/-- BOUNDARY_MARKER: the marker of a boundary reaches an ingress island, which records its arrival count as the boundary's stamp
(R96). -/
def execBoundaryMarker (island : Nat) (s : State) : Host.Outcome State Fault Refusal :=
  .next (if !s.powered then s else
  match s.streamHead island with
  | some (.mark n b) =>
    let s1 := s.popStream island
    let m : Mark := { island := island, number := n, bno := b, stamp := mapGet 0 island s.cmd.counts }
    { s1 with idx := { s1.idx with marks := s1.idx.marks.filter (fun x => x.island != island) ++ [m] } }
  | _ => s)

/-! ## Tide boundaries (R95, R102, R126 to R138) -/

/-- The number of the next boundary: the highest number heard of, or the next one (R132). -/
def State.nextNumber (s : State) : Nat := max (s.idx.epoch + 1) s.idx.markHi

/-- Sets that are still in SCAN at the boundary that closes their window are counted once (R101). -/
def State.countOverruns (s : State) (b : Nat) : State :=
  let late (k : Bank) : Bool := k.st == .scan && !k.late && decide (k.target < b)
  let s1 := (s.idx.banks.filter late).foldl (fun (s : State) k => s.count (Reg.searchOverrunCnt (k.island / 128))) s
  { s1 with idx := { s1.idx with banks := updWhere late (fun k => { k with late := true }) s1.idx.banks } }

/-- The number, the markers of every ingress island, what the tide before has scanned, and the configuration that comes into force (R95,
R96, R142). -/
def State.openTide (s : State) (m : Nat) : State :=
  let b := s.idx.bno + 1
  { s with
    idx := { s.idx with
      epoch := m, bno := b, lastBoundary := s.idx.lastBoundary + s.idx.period, period := bits (s.rd Reg.tidePeriod) 16 0 * 1000
      sinceMark := if s.fix.bridge then s.idx.sinceMark else s.idx.sinceMark + 1, lastRate := s.idx.scanned, scanned := List.replicate 32 0
      lastPeriod := s.idx.period, compact := s.rd Reg.mutateCompactCfg, lostTides := bits (s.rd Reg.mutateAlignCfg) 7 0 }
    cmd := { s.cmd with deliver := s.cmd.deliver ++ s.idx.marks.map (fun k => (k.island, Stream.mark m b)) } }

/-- The epoch packet of a boundary (R132, R370): a mark to every device, or a report to the bridge. -/
def State.tellEpoch (s : State) (m : Nat) : State :=
  let body (t : Nat) : Body := leBytes 16 (t + s.fix.ord % 64 * 2 ^ 8 + m % 2 ^ 64 * 2 ^ 64)
  if s.alone then s
  else if s.fix.bridge && s.zwx.follow.isNone then s.emit (.packet 0 true 0x10 (body 0x10))
  else s.emit (.packet s.bridgeOrd false 0x11 (body 0x11))

/-- Indexes whose load has come through become ready at the boundary, and their loads complete (R87 step 5). -/
def State.readyIndexes (s : State) : State :=
  (s.idx.indexes.filter (fun x => decide (x.st = 1) && x.built)).foldl (fun (s : State) x =>
    let s1 := s.updIndex x.no (fun y => { y with st := 2, loadCmd := none, sealNo := s.idx.bno })
    match x.loadCmd with
    | some r => s1.complete r Status.ok []
    | none => s1) s

/-- Channels and indexes whose ingress island was fenced are stamped on the next island from this boundary on (R24). -/
def State.switchIngress (s : State) : State :=
  let to_ := s.sch.chans.filterMap (fun c => c.newIsland) ++ s.idx.indexes.filterMap (fun x => x.newIngress)
  let s1 : State := { s with
    sch := { s.sch with chans := s.sch.chans.map (fun c => { c with island := c.newIsland.getD c.island, newIsland := none }) }
    idx := { s.idx with indexes := s.idx.indexes.map (fun x => { x with ingress := x.newIngress.getD x.ingress, newIngress := none }) } }
  let s2 := to_.foldl State.addMark s1
  let used (i : Nat) : Bool := s2.sch.chans.any (fun c => c.island == i) || s2.idx.indexes.any (fun x => x.ingress == i) ||
    s2.cmd.deliver.any (fun d => d.1 == i)
  { s2 with idx := { s2.idx with marks := s2.idx.marks.filter (fun k => used k.island) } }

/-- TIDE_BOUNDARY: every TIDE_PERIOD the command engine raises a boundary: the epoch rises, markers go out, staged mutations commit,
compaction moves, centroid copies follow a change of their master (R69; at the boundary by R102, DESIGN CHOICE, log entry 66), loaded
indexes become ready, copied objects switch, and the deadline monitor acts (R95, R96, R101, R102, R116, R126 to
R138, R260). -/
def execTideBoundary (s : State) : Host.Outcome State Fault Refusal :=
  .next (if !s.powered || !s.cmd.ready then s
  else
    let m := s.nextNumber
    let s0 := s.elapseTo (s.idx.lastBoundary + s.idx.period)
    let s1 := if m > s.idx.epoch + 1 then s0.count Reg.mutateSkipCnt (m - (s.idx.epoch + 1)) else s0
    let s2 := (((s1.countOverruns (s.idx.bno + 1)).openTide m).tellEpoch m).switchIngress
    let sr := s2.readyIndexes
    let plans := sr.planMoves
    let sw : State := { sr with idx := { sr.idx with swept := 0 } }
    let s3 := (List.range 64).foldl (fun s i => (s.indexBoundary m plans i).refreshCents i false) sw
    let s4 := s3.idx.shoals.foldl (fun (s : State) h => match s.index? h.idx with
      | some x => s.releaseQuar x h.shoal
      | none => s) s3
    s4.switchMoves.monitor)

/-! ## Start-up (R294, R331, R351) -/

/-- The intake area: a quarter of INTAKE_MIB on local stack 0 of each die, or on local stack 1 where that has failed (R331, R404). -/
def State.intakeRuns (s : State) : List GranRun :=
  ((List.range 4).map (fun d =>
    let k := if s.flt.failedStacks.contains (8 * d) then 8 * d + 1 else 8 * d
    if s.flt.failedStacks.contains k then [] else s.topRuns k (4 * s.mm.intakeMiB))).flatten

/-- COMMAND_ENGINE_READY: with the lists loaded by the control cores and the self-tests of listed units ended, the intake area is
allocated and the command engine accepts commands; tide 0 runs from then (R95, R351, R403, R419 step 6). -/
def execCommandEngineReady (s : State) : Host.Outcome State Fault Refusal :=
  .next (if s.cmd.ready || !s.mgmtServes || !s.fl.sysRead || !s.flt.selfTests.isEmpty then s
  else
    let s1 : State := { s with
      mm := { s.mm with intake := s.intakeRuns, intakeUsed := [] }
      cmd := { s.cmd with ready := true }
      idx := { s.idx with lastBoundary := s.now, period := bits (s.rd Reg.tidePeriod) 16 0 * 1000 } }
    s1.pageReady 0x5000)

/-- MAP_JOURNAL_REPLAYED: the journal is replayed, the map cache allocated and READY set; the waiting writes of the page take effect
(R294). -/
def execMapJournalReplayed (s : State) : Host.Outcome State Fault Refusal :=
  .next (if !s.powered || !s.fl.sysRead || s.fl.ready then s
  else (({ s with fl := { s.fl with ready := true, cached := [] } } : State).takeCache).pageReady 0xD000)

end Sys2Proof.Machine
end

