-- ==== Sys2Proof/Machine/Ports.lean ====
section
/-! DEFINITION. The training of ports (R359, R361, R365, R375, R376, R424), transfers between devices (R369, R371, R373), and PERST_N
(R455). -/

namespace Sys2Proof.Machine

/-! ## Training -/

/-- The dimensions as the two ends exchange them at training. -/
def FixSt.dims (x : FixSt) : Nat := (x.dx - 1) + (x.dy - 1) * 4 + (x.dz - 1) * 16

/-- ARCH_STAT.READY rises once every expected port is UP or has finished one training (R375, step 5 of Table 4 of chapter 14). -/
def State.archReady (s : State) : State :=
  if s.zwx.ready || !s.zwx.ports.all (fun p => !expectedPort s.fix p.num || p.st == .up || p.tried) then s
  else ({ s with zwx := { s.zwx with ready := true } } : State).pageReady 0xE000

/-- A training ends without success: the port stays DOWN with a cause (R359, R361, R365, R424). -/
def State.trainOver (s : State) (n cause : Nat) : State :=
  (s.updPort n (fun p => { p with st := .down, cause := cause, tried := true, since := s.now })).archReady

/-- A port goes UP with nothing sent or received, and with new keys where it encrypts. The credit that its receiver grants at first is
not fixed by the spec: free values. -/
def State.trainUp (s : State) (n : Nat) (t : TrainInfo) : State :=
  let enc := bit (s.rd (Reg.zwxPortCfg n)) 1
  let s0 := if enc then s.newKeys n else s
  let s1 := s0.updPort n (fun p => { Port.reset n with
    st := .up, cause := p.cause, peerValid := true, peerOrd := t.peerOrd, peerBridge := t.peerBridge, laneMask := t.laneMask % 256, tried := true
    flight := t.flightNs, enc := enc, keys := if enc then p.keys else none, since := s.now, lanesPub := p.lanesPub, queue := p.queue
    retiredAt := p.retiredAt
    lanes := p.lanes.mapIdx (fun i (l : Nat × Nat × Nat) => (bits t.laneMask i i, l.2)) })
  let pools : List (FClass × Nat × Bool) := [FClass.req, FClass.rsp, FClass.ctl].flatMap (fun c => [0, 1].flatMap (fun v => [(c, v, false), (c, v, true)]))
  let s2 := s1.emits (pools.mapIdx (fun i (k : FClass × Nat × Bool) => Out.credit n k.1 k.2.1 k.2.2 (Config.freeBits (s0.fresh + i))))
  ({ s2 with fresh := s0.fresh + pools.length } : State).archReady.retryHolds

/-- PORT_TRAIN_DONE: training and the exchange of R365 end. Another neighbour than the expected one, or other dimensions, leave the port
DOWN as MISCABLED; another ENC_EN or a failed authentication as ENC_MISMATCH; no working lane as NO_LANE; else it is UP. -/
def execPortTrainDone (port : Nat) (t : TrainInfo) (s : State) : Host.Outcome State Fault Refusal :=
  .next (if !s.powered || (s.port port).st != .training then s
  else
    let enc := bit (s.rd (Reg.zwxPortCfg port)) 1
    if !expectedPort s.fix port || t.peerOrd != s.fix.peer s.fix.ord port || t.peerDims != s.fix.dims then s.trainOver port 2
    else if enc != t.peerEnc then s.trainOver port 3
    else if enc && !t.authOk then (s.count Reg.secPeerAuthFailCnt).trainOver port 3
    else if t.laneMask % 256 = 0 then s.trainOver port 5
    else s.trainUp port t)

/-- TRAIN_FAIL: training has not succeeded within 100 ms, and the port stays DOWN (R359). -/
def execTrainFail (port : Nat) (s : State) : Host.Outcome State Fault Refusal :=
  .next (if !s.powered || (s.port port).st != .training then s
  else (s.elapseTo ((s.port port).since + 100000000)).trainOver port 8)

/-- TRAIN_RETRY: a DOWN port tries training again after 1 s (R359, R375). -/
def execTrainRetry (port : Nat) (s : State) : Host.Outcome State Fault Refusal :=
  .next (if !s.powered || (s.port port).st != .down || !expectedPort s.fix port || !bit (s.rd (Reg.zwxPortCfg port)) 0 then s
  else
    let s1 := s.elapseTo ((s.port port).since + 1000000000)
    s1.updPort port (fun p => { p with st := .training, since := s1.now }))

/-! ## Transfers (R371, R373) -/

/-- Whether a range of device memory passes the checks of R266 for a function: the resident contexts of the function give its slices and
shares, and a hardware sequencer sends the transfer. -/
def State.xAllowed (s : State) (x : XPkt) (write : Bool) : Bool :=
  let rows := [(x.addr, x.lenM1 + 1)]
  let slots := (s.sch.ctxs.filter (fun c => c.st != .waiting && c.func == x.func)).map (fun c => c.slot)
  let d (k : Nat) : FerryDesc :=
    { src := x.addr, dst := x.addr, len := x.lenM1 + 1, rowsM1 := 0, srcStride := 0, dstStride := 0, mode := 0, mergeOk := false, irq := false,
      chain := false, next := 0, func := x.func, ctx := k, mcastSet := 0, reserved := 0 }
  s.rowsExist rows && (8 :: slots).any (fun k => s.rowsAllowed (d k) s.mm.armSeq true write rows)

/-- Whether a transfer waits for Vuindig: its range lies in T3 before the page is ready (R294). -/
def State.xWaits (s : State) (x : XPkt) : Bool := x.place == .memory && tierOf x.addr == .t3 && !s.fl.ready

/-- The answer to a transfer. -/
def State.xAnswer (s : State) (x : XPkt) (err : Bool) (data : List Byte) : XPkt :=
  { x with srcOrd := s.fix.ord, err := err, data := data }

/-- XWRITE: the target checks the range against FUNC, writes the bytes and answers XACK; a range that fails its check answers ERR
(R371). A range in T3 before Vuindig is ready gets no answer, and the sender sends it again (log entry 71). Bytes for a place of a sequencer go there (`takePlace`). -/
def execXwrite (x : XPkt) (s : State) : Host.Outcome State Fault Refusal :=
  .next (if !s.powered || s.xWaits x then s
  else if x.place != .memory then
    let t := if x.data.length = x.lenM1 + 1 then s.takePlace x else (s, false)
    t.1.emit (.xack x.srcOrd (s.xAnswer x (!t.2) []))
  else if s.xAllowed x true && decide (x.data.length = x.lenM1 + 1) then
    let s1 := (x.data.mapIdx (fun i b => (x.addr + i, b))).foldl (fun (s : State) (p : Nat × Byte) => s.devWrite s.mm.armSeq p.1 p.2) s
    let s2 := s1.rowTraffic x.func true (x.addr, x.lenM1 + 1)
    let s3 := if tierOf x.addr = .t3 then s2.mapBytes (x.addr - t3Addr 0) (x.lenM1 + 1) else s2
    s3.emit (.xack x.srcOrd (s.xAnswer x false []))
  else s.emit (.xack x.srcOrd (s.xAnswer x true [])))

/-- The bytes of a place of a sequencer: a part of a mirrored page, or a weight of the resident model from byte ADDR on (R183, R242). -/
def State.placeBytes (s : State) (x : XPkt) : Option (List Byte) :=
  match x.place with
  | .mirror ctx p part => if (s.kv? ctx).any (fun c => c.func == x.func) then s.mirrorPart ctx p part else none
  | .weights w => if s.gen.model.st ≠ 2 ∨ s.weightBad w ∨ x.addr + x.lenM1 + 1 > (s.weightAt w).2.2 then none
    else some (s.hBytes s.gen.model.func (s.weightAt w).1 ((s.weightAt w).2.1 + x.addr) (x.lenM1 + 1))
  | _ => none

/-- XREAD: the target checks the range against FUNC and answers with its bytes; a range that fails its check, or cannot be read, answers
ERR (R371). -/
def execXread (x : XPkt) (s : State) : Host.Outcome State Fault Refusal :=
  .next (if !s.powered || s.xWaits x then s
  else if x.place != .memory then
    match (s.placeBytes x).filter (fun b => b.length == x.lenM1 + 1) with
    | some b => s.emit (.xreadRsp x.srcOrd (s.xAnswer x false b))
    | none => s.emit (.xreadRsp x.srcOrd (s.xAnswer x true []))
  else if s.xAllowed x false && s.devReadable x.addr (x.lenM1 + 1) then
    (s.rowTraffic x.func false (x.addr, x.lenM1 + 1)).emit
      (.xreadRsp x.srcOrd (s.xAnswer x false ((List.range (x.lenM1 + 1)).map (fun i => s.devByte (x.addr + i)))))
  else s.emit (.xreadRsp x.srcOrd (s.xAnswer x true [])))

/-- A transfer that awaits an answer of a device. -/
def State.xfer? (s : State) (x : XPkt) (write : Bool) : Option XferOut :=
  s.zwx.xfers.find? (fun o => o.xid == x.xid && o.dst == x.srcOrd && o.write == write)

/-- Releases the data of a transfer. -/
def State.endXfer (s : State) (o : XferOut) : State := { s with zwx := { s.zwx with xfers := s.zwx.xfers.erase o } }

/-- The members of a multicast that are attached, with their acknowledged bytes. -/
def XMcast.attached (m : XMcast) : List (Nat × Nat) := m.recv.filter (fun r => !m.detached.contains r.1)

/-- Detaches members of a multicast, each counted: what they have not acknowledged they get by unicast XWRITEs (R373). -/
def State.detachX (s : State) (m : XMcast) (os : List Nat) : State :=
  let m1 := { m with detached := m.detached ++ os }
  let mine (o : XferOut) : Bool := o.use == .mcast m.id && os.contains o.dst
  let s1 : State := { s with zwx := { s.zwx with
    xmcasts := s.zwx.xmcasts.map (fun y => if y = m then m1 else y)
    xfers := s.zwx.xfers.map (fun o => if mine o then { o with use := .other, sentAt := s.now } else o) } }
  if os.isEmpty then s1
  else (s1.count Reg.archMcastDetachCnt os.length).emits ((s.zwx.xfers.filter mine).map (fun o => .xwrite o.dst o.x))

/-- Ends the multicasts that every attached member has taken whole. -/
def State.endMcasts (s : State) : State :=
  { s with zwx := { s.zwx with xmcasts := s.zwx.xmcasts.filter (fun y => !y.attached.all (fun r => decide (y.total ≤ r.2))) } }

/-- A member of a multicast acknowledges bytes; one that lags the fastest by 64 KiB is detached, and a multicast that every attached
member has taken ends (R373). -/
def State.ackMcast (s : State) (id ord n : Nat) : State :=
  match s.zwx.xmcasts.find? (fun m => m.id == id) with
  | none => s
  | some m =>
    let m1 := { m with recv := m.recv.map (fun (r : Nat × Nat) => if r.1 = ord then (r.1, r.2 + n) else r) }
    let top := (m1.attached.map (fun r => r.2)).foldl max 0
    let slow := (m1.attached.filter (fun r => decide (r.2 + 65536 ≤ top))).map (fun r => r.1)
    let s1 : State := { s with zwx := { s.zwx with xmcasts := s.zwx.xmcasts.map (fun y => if y = m then m1 else y) } }
    (s1.detachX m1 slow).endMcasts

/-- XACK: the sender releases the data; a refusal of a mirror copy ends it as failed (R212, R371). The chapters of the other transfers give a
refusal no effect (log entry 71). -/
def execXack (x : XPkt) (s : State) : Host.Outcome State Fault Refusal :=
  .next (match (s.xfer? x true).filter (fun _ => s.powered) with
  | none => s
  | some o =>
    let s1 := s.endXfer o
    match o.use with
    | .mirror p => if x.err then s1.mirrorEnd p false else s1
    | .mcast g => if x.err then s1 else s1.ackMcast g x.srcOrd (o.x.lenM1 + 1)
    | _ => s1)

/-- A page that its mirror cannot give back is no longer mirrored, so that it is recomputed (R183, R209). -/
def State.mirrorLost (s : State) (p : PageRef) : State :=
  let s1 : State := { s with zwx := { s.zwx with xfers := s.zwx.xfers.filter (fun y => y.write || y.use != .mirror p) } }
  (match (s1.seq? p.seq).bind (fun q => s1.kv? q.ctx) with
  | some c => s1.setPage c p (fun w => setBits w 51 51 0)
  | none => s1).mirrorBack p

/-- XREAD_RSP: the bytes read from the other device reach the requester. A page read back from its mirror is rewritten in T2 part by
part (R183, R371), and a weight from a replica too (R242). -/
def State.onXreadRsp (s : State) (x : XPkt) : State :=
  (match (s.xfer? x false).filter (fun _ => s.powered) with
  | none => s
  | some o =>
    let s1 := s.endXfer o
    match o.use with
    | .mirror p =>
      if x.err || x.data.length != o.x.lenM1 + 1 then s1.mirrorLost p
      else match (s1.seq? p.seq).bind (fun q => (s1.kv? q.ctx).map (fun c => (q.ctx, c))) with
      | none => s1
      | some (i, _) => match s1.reframe i p with
        | none => s1
        | some s2 => match s2.kv? i with
          | some c2 => ((s2.mendPage c2 p (4096 * (match o.x.place with
            | .mirror _ _ j => j
            | _ => 0)) x.data).mirrorBack p).stallRemote
          | none => s2
    | .weight => (match o.x.place with
      | .weights w => s1.weightCame o w (if x.err || x.data.length != o.x.lenM1 + 1 then none else some x.data)
      | _ => s1)
    | _ => s1)

/-- XREAD_RSP as a command. -/
def execXreadRsp (x : XPkt) (s : State) : Host.Outcome State Fault Refusal := .next (s.onXreadRsp x)

/-- A path to a device is lost: transfers to it end as failed, it is detached from multicasts, whose rest it gets by unicast, and at the bridge
its path has failed (R349, R369, R371, R373). -/
def State.pathLost (s : State) (lost : Nat) : State :=
  (if !s.powered then s
  else
    let grouped (u : XUse) : Bool := match u with
      | .mcast _ => true
      | _ => false
    let gone := s.zwx.xfers.filter (fun o => o.dst == lost && !grouped o.use)
    let pages (write : Bool) : List PageRef := (gone.filterMap (fun o => match o.use with
      | .mirror p => if o.write = write then some p else none
      | _ => none)).eraseDups
    let s1 : State := { s with zwx := { s.zwx with xfers := s.zwx.xfers.filter (fun o => o.dst != lost || grouped o.use) } }
    let s2 := (pages true).foldl (fun (s : State) p => s.mirrorEnd p false) s1
    let lostW : List (XferOut × WeightRef) := (gone.filterMap (fun o => match o.x.place with
      | .weights w => if o.use = .weight then some (o, w) else none
      | _ => none))
    let s2w := lostW.foldl (fun (s : State) e => if (lostW.find? (fun y => y.2 == e.2)) = some e then s.weightCame e.1 e.2 none else s) s2
    let s3 := (pages false).foldl State.mirrorLost s2w
    let s4 := (s3.zwx.xmcasts.filter (fun m => m.attached.any (fun r => r.1 == lost))).foldl (fun (s : State) m => (s.detachX m [lost]).endMcasts) s3
    if s.fix.bridge then s4.pathFail lost else s4)

/-- PATH_LOST as a command. -/
def execPathLost (_srcOrd lost _cause : Nat) (s : State) : Host.Outcome State Fault Refusal := .next (s.pathLost lost)

/-- NO_ROUTE_EXPIRE: a frame held ROUTE_HOLD_US without a route is discarded; PATH_LOST goes to the bridge and to its source, and takes its
effect here where this device is one of them (R369, R349). -/
def execNoRouteExpire (dst : Nat) (s : State) : Host.Outcome State Fault Refusal :=
  .next (match s.zwx.routeHold.find? (fun h => h.f.dst == dst) with
  | none => s
  | some h =>
    let s1 := s.elapseTo (h.since + bits (s.rd Reg.archHoldCfg) 9 0 * 1000)
    let s2 := ({ s1 with zwx := { s1.zwx with routeHold := s1.zwx.routeHold.erase h } } : State).count Reg.archRouteDropCnt
    let s3 := s2.pathLostTo (([s.bridgeOrd, h.f.src].eraseDups).filter (fun o => o != s.fix.ord)) dst 0
    if s.fix.bridge || h.f.src == s.fix.ord then s3.pathLost dst else s3)

/-! ## PERST_N (R455) -/

/-- PERST_ASSERT: the bridge's endpoint holds its link down, with the effects of a link-down; other devices ignore the pin. -/
def execPerstAssert (s : State) : Host.Outcome State Fault Refusal :=
  let s1 : State := { s with pwr := { s.pwr with perst := true } }
  .next (if !s.powered || !s.fix.bridge then s1
  else
    let s2 := s1.hostDown
    [6, 7].foldl (fun s n => s.updPort n (fun p => { p with st := .down, since := s.now }))
      { s2 with zwx := { s2.zwx with hostUp := false }, pwr := { s2.pwr with linkTraining := false } })

/-- PERST_RELEASE: the bridge's endpoint trains its link. -/
def execPerstRelease (s : State) : Host.Outcome State Fault Refusal :=
  .next { s with pwr := { s.pwr with perst := false, linkTraining := s.pwr.linkTraining || (s.powered && s.fix.bridge) } }

end Sys2Proof.Machine
end

