-- ==== Sys2Proof/Machine/Dispatch.lean ====
section
/-! DEFINITION. The meaning of each command, one arm for each row of spec/opcode_table.json. -/

namespace Sys2Proof.Machine

/-- The effect of a command on everything but the queue. -/
def exec (i : Instr) (s : State) : Host.Outcome State Fault Refusal :=
  match i with
  | .registerWrite p addr wide data => Sys2Proof.Machine.execRegisterWrite p addr wide data s
  | .localReset p page => Sys2Proof.Machine.execLocalReset p page s
  | .localResetDone page => Sys2Proof.Machine.execLocalResetDone page s
  | .blkIrqSet p page data => Sys2Proof.Machine.execBlkIrqSet p page data s
  | .eventsClear p data => Sys2Proof.Machine.execEventsClear p data s
  | .devtimeLoRead p => Sys2Proof.Machine.execDevtimeLoRead p s
  | .straitTransfer here out fresh crcOk => Sys2Proof.Machine.execStraitTransfer here out fresh crcOk s
  | .matrixOpIssue islet op => Sys2Proof.Machine.execMatrixOpIssue islet op s
  | .matrixPassEnd islet checkOk => Sys2Proof.Machine.execMatrixPassEnd islet checkOk s
  | .matrixOpComplete islet => Sys2Proof.Machine.execMatrixOpComplete islet s
  | .vectorOp islet v => Sys2Proof.Machine.execVectorOp islet v s
  | .atomicAdd r ty x => Sys2Proof.Machine.execAtomicAdd r ty x s
  | .atomicMax r ty v idx => Sys2Proof.Machine.execAtomicMax r ty v idx s
  | .atomicMin r ty v idx => Sys2Proof.Machine.execAtomicMin r ty v idx s
  | .compareAndSwap r wide expected new => Sys2Proof.Machine.execCompareAndSwap r wide expected new s
  | .dbgHalt p die data => Sys2Proof.Machine.execDbgHalt p die data s
  | .dbgDataRead p die word => Sys2Proof.Machine.execDbgDataRead p die word s
  | .indexLoad h b => Sys2Proof.Machine.execIndexLoad h b s
  | .indexImageCopied idx => Sys2Proof.Machine.execIndexImageCopied idx s
  | .centroidCopyBuilt idx => Sys2Proof.Machine.execCentroidCopyBuilt idx s
  | .indexSave h b => Sys2Proof.Machine.execIndexSave h b s
  | .indexSaveDone idx => Sys2Proof.Machine.execIndexSaveDone idx s
  | .indexUnload h b => Sys2Proof.Machine.execIndexUnload h b s
  | .indexUnloadDone idx => Sys2Proof.Machine.execIndexUnloadDone idx s
  | .indexCompact h b => Sys2Proof.Machine.execIndexCompact h b s
  | .search h b => Sys2Proof.Machine.execSearch h b s
  | .ingressStamp island => Sys2Proof.Machine.execIngressStamp island s
  | .boundaryMarker island => Sys2Proof.Machine.execBoundaryMarker island s
  | .probeSelectionDone q => Sys2Proof.Machine.execProbeSelectionDone q s
  | .setSeal idx => Sys2Proof.Machine.execSetSeal idx s
  | .setScanStart die => Sys2Proof.Machine.execSetScanStart die s
  | .setScanDone island bad => Sys2Proof.Machine.execSetScanDone island bad s
  | .setReportDone island => Sys2Proof.Machine.execSetReportDone island s
  | .queryRoundMerged q => Sys2Proof.Machine.execQueryRoundMerged q s
  | .rerankDone q unreadable => Sys2Proof.Machine.execRerankDone q unreadable s
  | .searchComplete q => Sys2Proof.Machine.execSearchComplete q s
  | .mutate h b => Sys2Proof.Machine.execMutate h b s
  | .mutateStaging idx => Sys2Proof.Machine.execMutateStaging idx s
  | .epochMark src epoch => Sys2Proof.Machine.execEpochMark src epoch s
  | .epochReport src epoch => Sys2Proof.Machine.execEpochReport src epoch s
  | .compactPassStart stack => Sys2Proof.Machine.execCompactPassStart stack s
  | .topk h b => Sys2Proof.Machine.execTopk h b s
  | .merge h b => Sys2Proof.Machine.execMerge h b s
  | .selectPieceDone q row piece readable => Sys2Proof.Machine.execSelectPieceDone q row piece readable s
  | .selectComplete q => Sys2Proof.Machine.execSelectComplete q s
  | .pageChoiceDone a unreadable => Sys2Proof.Machine.execPageChoiceDone a unreadable s
  | .recomputeDone p => Sys2Proof.Machine.execRecomputeDone p s
  | .attnSplitDone a split rowBlock => Sys2Proof.Machine.execAttnSplitDone a split rowBlock s
  | .attnMerge a => Sys2Proof.Machine.execAttnMerge a s
  | .kvAppend slot entry layer => Sys2Proof.Machine.execKvAppend slot entry layer s
  | .mirrorAck p ok => Sys2Proof.Machine.execMirrorAck p ok s
  | .attnBackward r => Sys2Proof.Machine.execAttnBackward r s
  | .spillDurable p ok => Sys2Proof.Machine.execSpillDurable p ok s
  | .t3PageReadDone a page readable => Sys2Proof.Machine.execT3PageReadDone a page readable s
  | .promotionDone p => Sys2Proof.Machine.execPromotionDone p s
  | .relocationCopyDone p => Sys2Proof.Machine.execRelocationCopyDone p s
  | .holdExpire seq => Sys2Proof.Machine.execHoldExpire seq s
  | .config h b => Sys2Proof.Machine.execConfig h b s
  | .prefetch h b => Sys2Proof.Machine.execPrefetch h b s
  | .spill h b => Sys2Proof.Machine.execSpill h b s
  | .modelLoad h b => Sys2Proof.Machine.execModelLoad h b s
  | .modelUnload h b => Sys2Proof.Machine.execModelUnload h b s
  | .seqOpen h b => Sys2Proof.Machine.execSeqOpen h b s
  | .seqClose h b => Sys2Proof.Machine.execSeqClose h b s
  | .step h b => Sys2Proof.Machine.execStep h b s
  | .weightTileLanded island t => Sys2Proof.Machine.execWeightTileLanded island t s
  | .swap consumer b => Sys2Proof.Machine.execSwap consumer b s
  | .handleReturn consumer stage b => Sys2Proof.Machine.execHandleReturn consumer stage b s
  | .taskDispatch island => Sys2Proof.Machine.execTaskDispatch island s
  | .taskAge island task => Sys2Proof.Machine.execTaskAge island task s
  | .taskEnd islet => Sys2Proof.Machine.execTaskEnd islet s
  | .stepCommit slot => Sys2Proof.Machine.execStepCommit slot s
  | .weightRepairDone src => Sys2Proof.Machine.execWeightRepairDone src s
  | .mcastAck sender receiver bytes => Sys2Proof.Machine.execMcastAck sender receiver bytes s
  | .alloc h b => Sys2Proof.Machine.execAlloc h b s
  | .allocZeroed q => Sys2Proof.Machine.execAllocZeroed q s
  | .free h b => Sys2Proof.Machine.execFree h b s
  | .move h b => Sys2Proof.Machine.execMove h b s
  | .moveCopyDone q => Sys2Proof.Machine.execMoveCopyDone q s
  | .promote h b => Sys2Proof.Machine.execPromote h b s
  | .evict h b => Sys2Proof.Machine.execEvict h b s
  | .share h b => Sys2Proof.Machine.execShare h b s
  | .unshare h b => Sys2Proof.Machine.execUnshare h b s
  | .parityDeltaAck stack line => Sys2Proof.Machine.execParityDeltaAck stack line s
  | .lineRebuild stack line ok => Sys2Proof.Machine.execLineRebuild stack line ok s
  | .parCfgWrite p die data => Sys2Proof.Machine.execParCfgWrite p die data s
  | .dramScrubRead stack line r => Sys2Proof.Machine.execDramScrubRead stack line r s
  | .granuleRetire stack granule => Sys2Proof.Machine.execGranuleRetire stack granule s
  | .stackThermalTick stack temp => Sys2Proof.Machine.execStackThermalTick stack temp s
  | .lateRead func tag => Sys2Proof.Machine.execLateRead func tag s
  | .ferryArm island slot d => Sys2Proof.Machine.execFerryArm island slot d s
  | .ferryGenerationStart island => Sys2Proof.Machine.execFerryGenerationStart island s
  | .ferryGenerationDone island slot readable => Sys2Proof.Machine.execFerryGenerationDone island slot readable s
  | .flashReadDone unit retries readable => Sys2Proof.Machine.execFlashReadDone unit retries readable s
  | .stripeRebuild unit ok => Sys2Proof.Machine.execStripeRebuild unit ok s
  | .flashWriteDurable unit => Sys2Proof.Machine.execFlashWriteDurable unit s
  | .stripeCloseTimeout group => Sys2Proof.Machine.execStripeCloseTimeout group s
  | .gcStep channel block => Sys2Proof.Machine.execGcStep channel block s
  | .wearLevelMove channel block => Sys2Proof.Machine.execWearLevelMove channel block s
  | .readDisturbRelocate channel => Sys2Proof.Machine.execReadDisturbRelocate channel s
  | .moveMapSwitch unit => Sys2Proof.Machine.execMoveMapSwitch unit s
  | .flashScrubRead channel page r => Sys2Proof.Machine.execFlashScrubRead channel page r s
  | .flashChannelFail channel => Sys2Proof.Machine.execFlashChannelFail channel s
  | .spillCfgWrite p data => Sys2Proof.Machine.execSpillCfgWrite p data s
  | .openCtx h b => Sys2Proof.Machine.execOpenCtx h b s
  | .admitCtx h b => Sys2Proof.Machine.execAdmitCtx h b s
  | .retire h b => Sys2Proof.Machine.execRetire h b s
  | .retireDone ctx => Sys2Proof.Machine.execRetireDone ctx s
  | .close h b => Sys2Proof.Machine.execClose h b s
  | .chOpen h b => Sys2Proof.Machine.execChOpen h b s
  | .chClose h b => Sys2Proof.Machine.execChClose h b s
  | .chCloseDone ch => Sys2Proof.Machine.execChCloseDone ch s
  | .funcCfgWrite p func data => Sys2Proof.Machine.execFuncCfgWrite p func data s
  | .funcReset p func => Sys2Proof.Machine.execFuncReset p func s
  | .partitionResetKillsDone func => Sys2Proof.Machine.execPartitionResetKillsDone func s
  | .partitionResetDone func => Sys2Proof.Machine.execPartitionResetDone func s
  | .preemptWaitExpire island => Sys2Proof.Machine.execPreemptWaitExpire island s
  | .taskKill islet => Sys2Proof.Machine.execTaskKill islet s
  | .slowSample rs => Sys2Proof.Machine.execSlowSample rs s
  | .energySample r => Sys2Proof.Machine.execEnergySample r s
  | .nop h b => Sys2Proof.Machine.execNop h b s
  | .abort h b => Sys2Proof.Machine.execAbort h b s
  | .data d => Sys2Proof.Machine.execData d s
  | .reservedPtypeDrop ptype => Sys2Proof.Machine.execReservedPtypeDrop ptype s
  | .busyHintExpire func queue => Sys2Proof.Machine.execBusyHintExpire func queue s
  | .regRd r => Sys2Proof.Machine.execRegRd r s
  | .regWr r => Sys2Proof.Machine.execRegWr r s
  | .regRsp r => Sys2Proof.Machine.execRegRsp r s
  | .bar2Access off bytes write data => Sys2Proof.Machine.execBar2Access off bytes write data s
  | .regwinTimeout rid => Sys2Proof.Machine.execRegwinTimeout rid s
  | .sqTailWrite ring tail => Sys2Proof.Machine.execSqTailWrite ring tail s
  | .sqFetch ring e b => Sys2Proof.Machine.execSqFetch ring e b s
  | .xferReady srcOrd func tag handle grant => Sys2Proof.Machine.execXferReady srcOrd func tag handle grant s
  | .busyRetry srcOrd func tag cause hint => Sys2Proof.Machine.execBusyRetry srcOrd func tag cause hint s
  | .busyResend ring ord tag => Sys2Proof.Machine.execBusyResend ring ord tag s
  | .cpl c => Sys2Proof.Machine.execCpl c s
  | .event e => Sys2Proof.Machine.execEvent e s
  | .cqHeadWrite ring head => Sys2Proof.Machine.execCqHeadWrite ring head s
  | .answerTimeout ord => Sys2Proof.Machine.execAnswerTimeout ord s
  | .pathClear p hi data => Sys2Proof.Machine.execPathClear p hi data s
  | .frame port f => Sys2Proof.Machine.execFrame port f s
  | .ack port lseq => Sys2Proof.Machine.execAck port lseq s
  | .nak port lseq => Sys2Proof.Machine.execNak port lseq s
  | .credit port cls vc transit units => Sys2Proof.Machine.execCredit port cls vc transit units s
  | .missedAck port => Sys2Proof.Machine.execMissedAck port s
  | .laneRetire lane cause => Sys2Proof.Machine.execLaneRetire lane cause s
  | .laneRejoin lane => Sys2Proof.Machine.execLaneRejoin lane s
  | .portTrainDone port t => Sys2Proof.Machine.execPortTrainDone port t s
  | .trainFail port => Sys2Proof.Machine.execTrainFail port s
  | .trainRetry port => Sys2Proof.Machine.execTrainRetry port s
  | .rekey port => Sys2Proof.Machine.execRekey port s
  | .keySpent port => Sys2Proof.Machine.execKeySpent port s
  | .portCfgWrite p port data => Sys2Proof.Machine.execPortCfgWrite p port data s
  | .gapHoldExpire src cls group => Sys2Proof.Machine.execGapHoldExpire src cls group s
  | .noRouteExpire dst => Sys2Proof.Machine.execNoRouteExpire dst s
  | .pathLost srcOrd lost cause => Sys2Proof.Machine.execPathLost srcOrd lost cause s
  | .xwrite x => Sys2Proof.Machine.execXwrite x s
  | .xack x => Sys2Proof.Machine.execXack x s
  | .xread x => Sys2Proof.Machine.execXread x s
  | .xreadRsp x => Sys2Proof.Machine.execXreadRsp x s
  | .xresend xid => Sys2Proof.Machine.execXresend xid s
  | .wakePinChange pin level => Sys2Proof.Machine.execWakePinChange pin level s
  | .debounceExpire pin => Sys2Proof.Machine.execDebounceExpire pin s
  | .stuck pin => Sys2Proof.Machine.execStuck pin s
  | .rearm p data => Sys2Proof.Machine.execRearm p data s
  | .watchSample signal r => Sys2Proof.Machine.execWatchSample signal r s
  | .powerupChecksPassed r => Sys2Proof.Machine.execPowerupChecksPassed r s
  | .memRdy failed => Sys2Proof.Machine.execMemRdy failed s
  | .logicRdy strap => Sys2Proof.Machine.execLogicRdy strap s
  | .powerSample r => Sys2Proof.Machine.execPowerSample r s
  | .valveTick r => Sys2Proof.Machine.execValveTick r s
  | .coolHoldEnter c => Sys2Proof.Machine.execCoolHoldEnter c s
  | .coolHoldClear c => Sys2Proof.Machine.execCoolHoldClear c s
  | .enterHold p => Sys2Proof.Machine.execEnterHold p s
  | .leaveHold p => Sys2Proof.Machine.execLeaveHold p s
  | .enterWatch p force => Sys2Proof.Machine.execEnterWatch p force s
  | .sramScrubRead t1 unit line r use => Sys2Proof.Machine.execSramScrubRead t1 unit line r use s
  | .fenceEffect u c => Sys2Proof.Machine.execFenceEffect u c s
  | .fence p u => Sys2Proof.Machine.execFence p u s
  | .readmit p u => Sys2Proof.Machine.execReadmit p u s
  | .clearList p => Sys2Proof.Machine.execClearList p s
  | .selfTestDone u failed => Sys2Proof.Machine.execSelfTestDone u failed s
  | .stackFail stack => Sys2Proof.Machine.execStackFail stack s
  | .coreWatchdogExpire core => Sys2Proof.Machine.execCoreWatchdogExpire core s
  | .coreRestartDone core => Sys2Proof.Machine.execCoreRestartDone core s
  | .svnCommit p => Sys2Proof.Machine.execSvnCommit p s
  | .eraseAll p => Sys2Proof.Machine.execEraseAll p s
  | .unlockGo p => Sys2Proof.Machine.execUnlockGo p s
  | .getVersion t => Sys2Proof.Machine.execGetVersion t s
  | .getCapabilities t => Sys2Proof.Machine.execGetCapabilities t s
  | .negotiateAlgorithms t => Sys2Proof.Machine.execNegotiateAlgorithms t s
  | .getDigests t => Sys2Proof.Machine.execGetDigests t s
  | .getCertificate t slot off len => Sys2Proof.Machine.execGetCertificate t slot off len s
  | .challenge t slot nonce => Sys2Proof.Machine.execChallenge t slot nonce s
  | .getMeasurements t index nonce => Sys2Proof.Machine.execGetMeasurements t index nonce s
  | .spdmUnsupportedRequest t code => Sys2Proof.Machine.execSpdmUnsupportedRequest t code s
  | .registerMessageRead t wide addr => Sys2Proof.Machine.execRegisterMessageRead t wide addr s
  | .registerMessageWrite t wide addr data => Sys2Proof.Machine.execRegisterMessageWrite t wide addr data s
  | .mctpControl t eid => Sys2Proof.Machine.execMctpControl t eid s
  | .mctpDiscard t ty len => Sys2Proof.Machine.execMctpDiscard t ty len s
  | .pldmBaseRequest t cmd => Sys2Proof.Machine.execPldmBaseRequest t cmd s
  | .pldmSensorRead t id => Sys2Proof.Machine.execPldmSensorRead t id s
  | .setSensorThresholds t id warn crit => Sys2Proof.Machine.execSetSensorThresholds t id warn crit s
  | .setEventReceiver t eid => Sys2Proof.Machine.execSetEventReceiver t eid s
  | .pollForPlatformEventMessage t => Sys2Proof.Machine.execPollForPlatformEventMessage t s
  | .effecterWrite t id value => Sys2Proof.Machine.execEffecterWrite t id value s
  | .pldmUnsupported t ty cmd => Sys2Proof.Machine.execPldmUnsupported t ty cmd s
  | .requestUpdate t imageLen => Sys2Proof.Machine.execRequestUpdate t imageLen s
  | .requestFirmwareData off chunk => Sys2Proof.Machine.execRequestFirmwareData off chunk s
  | .activateFirmware t => Sys2Proof.Machine.execActivateFirmware t s
  | .cancelUpdate t => Sys2Proof.Machine.execCancelUpdate t s
  | .keyExchangeDone port ok => Sys2Proof.Machine.execKeyExchangeDone port ok s
  | .rekeyRetry port => Sys2Proof.Machine.execRekeyRetry port s
  | .tideBoundary => Sys2Proof.Machine.execTideBoundary s
  | .alignLost => Sys2Proof.Machine.execAlignLost s
  | .stepBoundary => Sys2Proof.Machine.execStepBoundary s
  | .modelImageCopied => Sys2Proof.Machine.execModelImageCopied s
  | .mgmtPeriod => Sys2Proof.Machine.execMgmtPeriod s
  | .vuindigSystemReadDone => Sys2Proof.Machine.execVuindigSystemReadDone s
  | .mapJournalReplayed => Sys2Proof.Machine.execMapJournalReplayed s
  | .spillRegionReady => Sys2Proof.Machine.execSpillRegionReady s
  | .residencyStarved => Sys2Proof.Machine.execResidencyStarved s
  | .acctWindowClose => Sys2Proof.Machine.execAcctWindowClose s
  | .pcieLinkDown => Sys2Proof.Machine.execPcieLinkDown s
  | .functionLevelReset => Sys2Proof.Machine.execFunctionLevelReset s
  | .d3hotEntry => Sys2Proof.Machine.execD3hotEntry s
  | .wakeHoldExpire => Sys2Proof.Machine.execWakeHoldExpire s
  | .i3cAddressMatch => Sys2Proof.Machine.execI3cAddressMatch s
  | .inputGood => Sys2Proof.Machine.execInputGood s
  | .inputFail => Sys2Proof.Machine.execInputFail s
  | .auxLoss => Sys2Proof.Machine.execAuxLoss s
  | .auxReturn => Sys2Proof.Machine.execAuxReturn s
  | .regRdy => Sys2Proof.Machine.execRegRdy s
  | .oscRdy => Sys2Proof.Machine.execOscRdy s
  | .powerupStepTimeout => Sys2Proof.Machine.execPowerupStepTimeout s
  | .powerDownDone => Sys2Proof.Machine.execPowerDownDone s
  | .resetPinAssert => Sys2Proof.Machine.execResetPinAssert s
  | .resetPinRelease => Sys2Proof.Machine.execResetPinRelease s
  | .perstAssert => Sys2Proof.Machine.execPerstAssert s
  | .perstRelease => Sys2Proof.Machine.execPerstRelease s
  | .thermalTrip => Sys2Proof.Machine.execThermalTrip s
  | .brownout => Sys2Proof.Machine.execBrownout s
  | .capTick => Sys2Proof.Machine.execCapTick s
  | .quiesceDone => Sys2Proof.Machine.execQuiesceDone s
  | .bootVerifyDone => Sys2Proof.Machine.execBootVerifyDone s
  | .aliasCertIssued => Sys2Proof.Machine.execAliasCertIssued s
  | .unlockCheckDone => Sys2Proof.Machine.execUnlockCheckDone s
  | .verifyComplete => Sys2Proof.Machine.execVerifyComplete s
  | .applyComplete => Sys2Proof.Machine.execApplyComplete s
  | .updateTimeout => Sys2Proof.Machine.execUpdateTimeout s
  | .commandEngineReady => Sys2Proof.Machine.execCommandEngineReady s
  | .pcieLinkUp => Sys2Proof.Machine.execPcieLinkUp s

end Sys2Proof.Machine
end

