-- ==== Sys2Proof/Machine/Effects.lean ====
section
/-! DEFINITION. Which commands may change which part of the state. A command that a list leaves out keeps that part as it was, on every
path: the frame statements say so. -/

namespace Sys2Proof

/-- The commands that may change a byte of memory. -/
def Instr.storesBytes : Instr → Bool
  | .registerWrite .. | .localReset .. | .localResetDone .. | .blkIrqSet .. | .devtimeLoRead .. | .matrixPassEnd .. |
    .matrixOpComplete .. | .vectorOp .. | .atomicAdd .. | .atomicMax .. | .atomicMin .. | .compareAndSwap .. | .indexLoad .. |
    .indexImageCopied .. | .centroidCopyBuilt .. | .ingressStamp .. | .setScanDone .. | .searchComplete .. | .mutateStaging .. |
    .compactPassStart .. | .selectComplete .. | .pageChoiceDone .. | .recomputeDone .. | .attnSplitDone .. | .attnMerge .. |
    .kvAppend .. | .mirrorAck .. | .attnBackward .. | .spillDurable .. | .t3PageReadDone .. | .promotionDone .. |
    .relocationCopyDone .. | .holdExpire .. | .config .. | .prefetch .. | .spill .. | .seqOpen .. | .swap .. |
    .taskDispatch .. | .taskEnd .. | .stepCommit .. | .weightRepairDone .. | .alloc .. | .allocZeroed .. | .free .. | .move .. |
    .moveCopyDone .. | .promote .. | .evict .. | .share .. | .unshare .. | .parityDeltaAck .. | .parCfgWrite .. |
    .granuleRetire .. | .ferryArm .. | .ferryGenerationDone .. | .flashWriteDurable .. | .spillCfgWrite .. | .openCtx .. |
    .admitCtx .. | .retire .. | .close .. | .chOpen .. | .chClose .. | .funcCfgWrite .. | .funcReset .. |
    .partitionResetKillsDone .. | .partitionResetDone .. | .abort .. | .data .. | .regRd .. | .regWr .. | .bar2Access .. |
    .sqTailWrite .. | .cqHeadWrite .. | .pathClear .. | .portTrainDone .. | .trainFail .. | .portCfgWrite .. |
    .noRouteExpire .. | .pathLost .. | .xwrite .. | .xack .. | .xreadRsp .. | .sramScrubRead .. | .fence .. | .readmit .. |
    .clearList .. | .selfTestDone .. | .stackFail .. | .svnCommit .. | .eraseAll .. | .unlockGo .. | .registerMessageRead .. |
    .registerMessageWrite .. | .effecterWrite .. | .tideBoundary .. | .stepBoundary .. | .modelImageCopied .. |
    .mapJournalReplayed .. | .inputFail .. | .auxLoss .. | .powerDownDone .. | .thermalTrip .. | .commandEngineReady .. => true
  | _ => false

/-- The commands that may change a stored register: all but the ones named here. -/
def Instr.writesRegs : Instr → Bool
  | .dbgHalt .. | .boundaryMarker .. | .weightTileLanded .. | .taskAge .. | .parityDeltaAck .. | .stripeCloseTimeout .. |
    .wearLevelMove .. | .energySample .. | .busyHintExpire .. | .xferReady .. | .busyRetry .. | .ack .. | .credit .. |
    .laneRejoin .. | .trainRetry .. | .rekey .. | .xread .. | .powerupChecksPassed .. | .coreRestartDone .. | .rekeyRetry .. |
    .vuindigSystemReadDone .. | .spillRegionReady .. | .i3cAddressMatch .. | .inputGood .. | .auxReturn .. | .regRdy .. |
    .oscRdy .. | .resetPinAssert .. | .resetPinRelease .. | .perstRelease .. | .quiesceDone .. | .aliasCertIssued .. |
    .verifyComplete .. | .updateTimeout .. | .pcieLinkUp .. => false
  | _ => true

/-- The commands that may move device time or the watch clock. -/
def Instr.movesTime : Instr → Bool
  | .registerWrite .. | .localReset .. | .localResetDone .. | .blkIrqSet .. | .devtimeLoRead .. | .taskAge .. |
    .parCfgWrite .. | .stackThermalTick .. | .stripeCloseTimeout .. | .spillCfgWrite .. | .funcCfgWrite .. | .funcReset .. |
    .preemptWaitExpire .. | .slowSample .. | .energySample .. | .busyHintExpire .. | .regRd .. | .regWr .. | .bar2Access .. |
    .regwinTimeout .. | .sqTailWrite .. | .busyResend .. | .cqHeadWrite .. | .answerTimeout .. | .pathClear .. | .missedAck .. |
    .laneRejoin .. | .trainFail .. | .trainRetry .. | .portCfgWrite .. | .gapHoldExpire .. | .noRouteExpire .. | .xresend .. |
    .debounceExpire .. | .stuck .. | .watchSample .. | .powerupChecksPassed .. | .logicRdy .. | .powerSample .. |
    .valveTick .. | .fence .. | .readmit .. | .clearList .. | .svnCommit .. | .eraseAll .. | .unlockGo .. |
    .registerMessageRead .. | .registerMessageWrite .. | .effecterWrite .. | .rekeyRetry .. | .tideBoundary .. |
    .mgmtPeriod .. | .residencyStarved .. | .acctWindowClose .. | .wakeHoldExpire .. | .inputFail .. | .auxLoss .. |
    .powerupStepTimeout .. | .powerDownDone .. | .thermalTrip .. | .capTick .. | .updateTimeout .. => true
  | _ => false

/-- The commands that may change the power, clock, cooling or pin state. -/
def Instr.changesPower : Instr → Bool
  | .registerWrite .. | .localReset .. | .localResetDone .. | .blkIrqSet .. | .devtimeLoRead .. | .parCfgWrite .. |
    .spillCfgWrite .. | .funcCfgWrite .. | .funcReset .. | .regRd .. | .regWr .. | .bar2Access .. | .sqTailWrite .. |
    .cqHeadWrite .. | .pathClear .. | .portTrainDone .. | .trainFail .. | .portCfgWrite .. | .wakePinChange .. |
    .debounceExpire .. | .stuck .. | .rearm .. | .watchSample .. | .powerupChecksPassed .. | .memRdy .. | .logicRdy .. |
    .powerSample .. | .valveTick .. | .coolHoldEnter .. | .coolHoldClear .. | .enterHold .. | .leaveHold .. | .enterWatch .. |
    .fence .. | .readmit .. | .clearList .. | .svnCommit .. | .eraseAll .. | .unlockGo .. | .registerMessageRead .. |
    .registerMessageWrite .. | .effecterWrite .. | .mapJournalReplayed .. | .pcieLinkDown .. | .wakeHoldExpire .. |
    .i3cAddressMatch .. | .inputGood .. | .inputFail .. | .auxLoss .. | .auxReturn .. | .regRdy .. | .oscRdy .. |
    .powerupStepTimeout .. | .powerDownDone .. | .resetPinAssert .. | .resetPinRelease .. | .perstAssert .. | .perstRelease .. |
    .thermalTrip .. | .brownout .. | .capTick .. | .quiesceDone .. | .commandEngineReady .. | .pcieLinkUp .. => true
  | _ => false

/-- The commands that may change the fault state: logs, fences, cores and failed stacks. -/
def Instr.changesFaults : Instr → Bool
  | .registerWrite .. | .localReset .. | .blkIrqSet .. | .straitTransfer .. | .matrixPassEnd .. | .lineRebuild .. |
    .parCfgWrite .. | .dramScrubRead .. | .granuleRetire .. | .flashReadDone .. | .stripeRebuild .. | .flashScrubRead .. |
    .flashChannelFail .. | .spillCfgWrite .. | .funcCfgWrite .. | .funcReset .. | .partitionResetDone .. | .regWr .. |
    .bar2Access .. | .sqTailWrite .. | .cqHeadWrite .. | .pathClear .. | .laneRetire .. | .portTrainDone .. | .trainFail .. |
    .portCfgWrite .. | .memRdy .. | .logicRdy .. | .sramScrubRead .. | .fenceEffect .. | .fence .. | .readmit .. |
    .clearList .. | .selfTestDone .. | .stackFail .. | .coreWatchdogExpire .. | .coreRestartDone .. | .svnCommit .. |
    .eraseAll .. | .unlockGo .. | .registerMessageWrite .. | .effecterWrite .. | .mgmtPeriod .. | .mapJournalReplayed .. |
    .inputFail .. | .auxLoss .. | .powerDownDone .. | .thermalTrip .. | .commandEngineReady .. => true
  | _ => false

/-- The commands that may change the security root. -/
def Instr.changesSecurity : Instr → Bool
  | .registerWrite .. | .localReset .. | .localResetDone .. | .blkIrqSet .. | .devtimeLoRead .. | .parCfgWrite .. |
    .spillCfgWrite .. | .funcCfgWrite .. | .funcReset .. | .partitionResetDone .. | .regRd .. | .regWr .. | .bar2Access .. |
    .sqTailWrite .. | .cqHeadWrite .. | .pathClear .. | .portTrainDone .. | .trainFail .. | .portCfgWrite .. | .logicRdy .. |
    .fence .. | .readmit .. | .clearList .. | .coreWatchdogExpire .. | .svnCommit .. | .eraseAll .. | .unlockGo .. |
    .getVersion .. | .getCapabilities .. | .negotiateAlgorithms .. | .registerMessageRead .. | .registerMessageWrite .. |
    .effecterWrite .. | .requestUpdate .. | .requestFirmwareData .. | .activateFirmware .. | .cancelUpdate .. |
    .mapJournalReplayed .. | .inputFail .. | .auxLoss .. | .powerDownDone .. | .thermalTrip .. | .bootVerifyDone .. |
    .aliasCertIssued .. | .unlockCheckDone .. | .verifyComplete .. | .updateTimeout .. | .commandEngineReady .. => true
  | _ => false

/-- The commands that may change the management plane. -/
def Instr.changesMgmt : Instr → Bool
  | .straitTransfer .. | .matrixPassEnd .. | .indexLoad .. | .indexSave .. | .indexUnload .. | .indexCompact .. | .search .. |
    .mutate .. | .topk .. | .merge .. | .config .. | .prefetch .. | .spill .. | .modelLoad .. | .modelUnload .. | .seqOpen .. |
    .seqClose .. | .step .. | .stepCommit .. | .weightRepairDone .. | .alloc .. | .free .. | .move .. | .promote .. |
    .evict .. | .share .. | .unshare .. | .lineRebuild .. | .dramScrubRead .. | .granuleRetire .. | .flashReadDone .. |
    .stripeRebuild .. | .flashScrubRead .. | .flashChannelFail .. | .openCtx .. | .admitCtx .. | .retire .. | .close .. |
    .chOpen .. | .chClose .. | .partitionResetDone .. | .nop .. | .abort .. | .answerTimeout .. | .frame .. | .laneRetire .. |
    .gapHoldExpire .. | .noRouteExpire .. | .pathLost .. | .stuck .. | .memRdy .. | .sramScrubRead .. | .fenceEffect .. |
    .selfTestDone .. | .stackFail .. | .coreWatchdogExpire .. | .mctpControl .. | .setSensorThresholds .. |
    .setEventReceiver .. | .pollForPlatformEventMessage .. | .requestUpdate .. | .requestFirmwareData .. |
    .activateFirmware .. | .cancelUpdate .. | .alignLost .. | .mgmtPeriod .. | .residencyStarved .. | .inputFail .. |
    .auxLoss .. | .powerDownDone .. | .thermalTrip .. | .verifyComplete .. | .applyComplete .. | .updateTimeout .. => true
  | _ => false

/-- The commands that may change an islet or the strait fabric. -/
def Instr.changesArith : Instr → Bool
  | .registerWrite .. | .localReset .. | .localResetDone .. | .blkIrqSet .. | .devtimeLoRead .. | .straitTransfer .. |
    .matrixOpIssue .. | .matrixPassEnd .. | .matrixOpComplete .. | .vectorOp .. | .dbgHalt .. | .ingressStamp .. |
    .pageChoiceDone .. | .attnSplitDone .. | .t3PageReadDone .. | .swap .. | .taskDispatch .. | .taskEnd .. | .stepCommit .. |
    .weightRepairDone .. | .parCfgWrite .. | .spillCfgWrite .. | .openCtx .. | .admitCtx .. | .retire .. | .close .. |
    .chOpen .. | .chClose .. | .funcCfgWrite .. | .funcReset .. | .partitionResetKillsDone .. | .partitionResetDone .. |
    .taskKill .. | .abort .. | .data .. | .regRd .. | .regWr .. | .bar2Access .. | .sqTailWrite .. | .cqHeadWrite .. |
    .pathClear .. | .portTrainDone .. | .trainFail .. | .portCfgWrite .. | .xwrite .. | .sramScrubRead .. | .fenceEffect .. |
    .fence .. | .readmit .. | .clearList .. | .stackFail .. | .svnCommit .. | .eraseAll .. | .unlockGo .. |
    .registerMessageRead .. | .registerMessageWrite .. | .effecterWrite .. | .mapJournalReplayed .. | .inputFail .. |
    .auxLoss .. | .powerDownDone .. | .thermalTrip .. | .commandEngineReady .. => true
  | _ => false

/-- The commands that may change the indexes, queries, tides or selections. -/
def Instr.changesIndex : Instr → Bool
  | .indexLoad .. | .indexImageCopied .. | .centroidCopyBuilt .. | .indexSave .. | .indexSaveDone .. | .indexUnload .. |
    .indexUnloadDone .. | .indexCompact .. | .search .. | .ingressStamp .. | .boundaryMarker .. | .probeSelectionDone .. |
    .setSeal .. | .setScanStart .. | .setScanDone .. | .setReportDone .. | .queryRoundMerged .. | .rerankDone .. |
    .searchComplete .. | .mutate .. | .mutateStaging .. | .epochMark .. | .epochReport .. | .compactPassStart .. | .topk .. |
    .merge .. | .selectPieceDone .. | .selectComplete .. | .taskDispatch .. | .granuleRetire .. | .openCtx .. | .admitCtx .. |
    .retire .. | .close .. | .chOpen .. | .chClose .. | .partitionResetKillsDone .. | .partitionResetDone .. | .abort .. |
    .data .. | .sramScrubRead .. | .fenceEffect .. | .stackFail .. | .tideBoundary .. | .alignLost .. | .inputFail .. |
    .auxLoss .. | .powerDownDone .. | .thermalTrip .. | .commandEngineReady .. => true
  | _ => false

/-- The commands that may change the key-value caches. -/
def Instr.changesKv : Instr → Bool
  | .registerWrite .. | .localReset .. | .blkIrqSet .. | .ingressStamp .. | .pageChoiceDone .. | .recomputeDone .. |
    .attnSplitDone .. | .attnMerge .. | .kvAppend .. | .mirrorAck .. | .spillDurable .. | .t3PageReadDone .. |
    .promotionDone .. | .relocationCopyDone .. | .holdExpire .. | .config .. | .prefetch .. | .spill .. | .seqOpen .. |
    .swap .. | .taskDispatch .. | .taskEnd .. | .stepCommit .. | .parCfgWrite .. | .ferryArm .. | .ferryGenerationDone .. |
    .spillCfgWrite .. | .openCtx .. | .admitCtx .. | .retire .. | .close .. | .chOpen .. | .chClose .. | .funcCfgWrite .. |
    .funcReset .. | .partitionResetKillsDone .. | .partitionResetDone .. | .abort .. | .data .. | .regWr .. | .bar2Access .. |
    .sqTailWrite .. | .cqHeadWrite .. | .pathClear .. | .portTrainDone .. | .trainFail .. | .portCfgWrite .. |
    .noRouteExpire .. | .pathLost .. | .xwrite .. | .xack .. | .xreadRsp .. | .sramScrubRead .. | .fence .. | .readmit .. |
    .clearList .. | .stackFail .. | .svnCommit .. | .eraseAll .. | .unlockGo .. | .registerMessageWrite .. | .effecterWrite .. |
    .stepBoundary .. | .mapJournalReplayed .. | .inputFail .. | .auxLoss .. | .powerDownDone .. | .thermalTrip .. |
    .commandEngineReady .. => true
  | _ => false

/-- The commands that may change the model, the sequences or the cohorts. -/
def Instr.changesGen : Instr → Bool
  | .ingressStamp .. | .pageChoiceDone .. | .recomputeDone .. | .attnSplitDone .. | .attnMerge .. | .kvAppend .. |
    .mirrorAck .. | .spillDurable .. | .t3PageReadDone .. | .holdExpire .. | .modelLoad .. | .modelUnload .. | .seqOpen .. |
    .seqClose .. | .step .. | .weightTileLanded .. | .swap .. | .handleReturn .. | .taskDispatch .. | .taskEnd .. |
    .stepCommit .. | .weightRepairDone .. | .openCtx .. | .admitCtx .. | .retire .. | .close .. | .chOpen .. | .chClose .. |
    .partitionResetKillsDone .. | .partitionResetDone .. | .taskKill .. | .abort .. | .data .. | .noRouteExpire .. |
    .pathLost .. | .xwrite .. | .xack .. | .sramScrubRead .. | .fenceEffect .. | .stackFail .. | .stepBoundary .. |
    .modelImageCopied .. | .inputFail .. | .auxLoss .. | .powerDownDone .. | .thermalTrip .. => true
  | _ => false

/-- The commands that may change the object tables, ferries, granules or stacks. -/
def Instr.changesTables : Instr → Bool
  | .eventsClear .. | .straitTransfer .. | .matrixPassEnd .. | .matrixOpComplete .. | .vectorOp .. | .dbgHalt .. |
    .dbgDataRead .. | .boundaryMarker .. | .setSeal .. | .setScanStart .. | .queryRoundMerged .. | .epochMark .. |
    .epochReport .. | .handleReturn .. | .taskAge .. | .mcastAck .. | .lateRead .. | .flashReadDone .. | .stripeRebuild .. |
    .flashWriteDurable .. | .stripeCloseTimeout .. | .gcStep .. | .wearLevelMove .. | .readDisturbRelocate .. |
    .moveMapSwitch .. | .flashScrubRead .. | .flashChannelFail .. | .preemptWaitExpire .. | .taskKill .. | .slowSample .. |
    .reservedPtypeDrop .. | .busyHintExpire .. | .regRsp .. | .regwinTimeout .. | .sqFetch .. | .xferReady .. | .busyRetry .. |
    .busyResend .. | .cpl .. | .event .. | .answerTimeout .. | .frame .. | .ack .. | .nak .. | .credit .. | .missedAck .. |
    .laneRetire .. | .laneRejoin .. | .trainRetry .. | .rekey .. | .keySpent .. | .gapHoldExpire .. | .xresend .. |
    .wakePinChange .. | .debounceExpire .. | .stuck .. | .rearm .. | .watchSample .. | .powerupChecksPassed .. | .memRdy .. |
    .powerSample .. | .valveTick .. | .coolHoldEnter .. | .coolHoldClear .. | .selfTestDone .. | .coreWatchdogExpire .. |
    .coreRestartDone .. | .getVersion .. | .getCapabilities .. | .negotiateAlgorithms .. | .getDigests .. | .getCertificate .. |
    .challenge .. | .getMeasurements .. | .spdmUnsupportedRequest .. | .mctpControl .. | .mctpDiscard .. | .pldmBaseRequest .. |
    .pldmSensorRead .. | .setSensorThresholds .. | .setEventReceiver .. | .pollForPlatformEventMessage .. |
    .pldmUnsupported .. | .requestUpdate .. | .requestFirmwareData .. | .activateFirmware .. | .cancelUpdate .. |
    .keyExchangeDone .. | .rekeyRetry .. | .alignLost .. | .vuindigSystemReadDone .. | .spillRegionReady .. |
    .residencyStarved .. | .acctWindowClose .. | .pcieLinkDown .. | .functionLevelReset .. | .d3hotEntry .. |
    .wakeHoldExpire .. | .i3cAddressMatch .. | .inputGood .. | .auxReturn .. | .regRdy .. | .oscRdy .. |
    .powerupStepTimeout .. | .resetPinAssert .. | .resetPinRelease .. | .perstAssert .. | .perstRelease .. | .brownout .. |
    .capTick .. | .quiesceDone .. | .bootVerifyDone .. | .aliasCertIssued .. | .unlockCheckDone .. | .verifyComplete .. |
    .applyComplete .. | .updateTimeout .. | .pcieLinkUp .. => false
  | _ => true

/-- The commands that may change the flash tier. -/
def Instr.changesFlash : Instr → Bool
  | .registerWrite .. | .localReset .. | .localResetDone .. | .blkIrqSet .. | .devtimeLoRead .. | .indexLoad .. |
    .indexImageCopied .. | .centroidCopyBuilt .. | .indexSave .. | .ingressStamp .. | .setScanDone .. | .searchComplete .. |
    .mutateStaging .. | .compactPassStart .. | .selectComplete .. | .pageChoiceDone .. | .recomputeDone .. | .attnSplitDone .. |
    .attnMerge .. | .kvAppend .. | .mirrorAck .. | .attnBackward .. | .spillDurable .. | .t3PageReadDone .. |
    .promotionDone .. | .relocationCopyDone .. | .holdExpire .. | .config .. | .prefetch .. | .spill .. | .seqOpen .. |
    .swap .. | .handleReturn .. | .taskDispatch .. | .taskEnd .. | .stepCommit .. | .weightRepairDone .. | .alloc .. |
    .allocZeroed .. | .free .. | .move .. | .moveCopyDone .. | .promote .. | .evict .. | .share .. | .unshare .. |
    .parCfgWrite .. | .granuleRetire .. | .ferryArm .. | .ferryGenerationStart .. | .ferryGenerationDone .. |
    .flashReadDone .. | .stripeRebuild .. | .flashWriteDurable .. | .stripeCloseTimeout .. | .gcStep .. | .wearLevelMove .. |
    .readDisturbRelocate .. | .moveMapSwitch .. | .flashScrubRead .. | .flashChannelFail .. | .spillCfgWrite .. | .openCtx .. |
    .admitCtx .. | .retire .. | .close .. | .chOpen .. | .chClose .. | .funcCfgWrite .. | .funcReset .. |
    .partitionResetKillsDone .. | .partitionResetDone .. | .abort .. | .data .. | .regRd .. | .regWr .. | .bar2Access .. |
    .sqTailWrite .. | .cqHeadWrite .. | .pathClear .. | .portTrainDone .. | .trainFail .. | .portCfgWrite .. |
    .noRouteExpire .. | .pathLost .. | .xwrite .. | .xack .. | .xreadRsp .. | .sramScrubRead .. | .fence .. | .readmit .. |
    .clearList .. | .stackFail .. | .svnCommit .. | .eraseAll .. | .unlockGo .. | .registerMessageRead .. |
    .registerMessageWrite .. | .effecterWrite .. | .tideBoundary .. | .stepBoundary .. | .modelImageCopied .. | .mgmtPeriod .. |
    .vuindigSystemReadDone .. | .mapJournalReplayed .. | .spillRegionReady .. | .inputFail .. | .auxLoss .. |
    .powerDownDone .. | .thermalTrip .. | .commandEngineReady .. => true
  | _ => false

/-- The commands that may change functions, contexts, channels, tasks or accounts: all but the ones named here. -/
def Instr.changesSched : Instr → Bool
  | .eventsClear .. | .straitTransfer .. | .matrixPassEnd .. | .matrixOpComplete .. | .vectorOp .. | .dbgHalt .. |
    .dbgDataRead .. | .boundaryMarker .. | .setSeal .. | .queryRoundMerged .. | .epochMark .. | .epochReport .. |
    .parityDeltaAck .. | .granuleRetire .. | .stackThermalTick .. | .lateRead .. | .flashReadDone .. | .flashWriteDurable .. |
    .stripeCloseTimeout .. | .gcStep .. | .wearLevelMove .. | .readDisturbRelocate .. | .flashChannelFail .. |
    .reservedPtypeDrop .. | .busyHintExpire .. | .regRsp .. | .regwinTimeout .. | .sqFetch .. | .xferReady .. | .busyRetry .. |
    .busyResend .. | .cpl .. | .event .. | .answerTimeout .. | .ack .. | .nak .. | .credit .. | .missedAck .. | .laneRetire .. |
    .laneRejoin .. | .trainRetry .. | .rekey .. | .keySpent .. | .xresend .. | .wakePinChange .. | .debounceExpire .. |
    .stuck .. | .rearm .. | .watchSample .. | .powerupChecksPassed .. | .memRdy .. | .powerSample .. | .valveTick .. |
    .coolHoldEnter .. | .coolHoldClear .. | .selfTestDone .. | .coreWatchdogExpire .. | .coreRestartDone .. | .getVersion .. |
    .getCapabilities .. | .negotiateAlgorithms .. | .getDigests .. | .getCertificate .. | .challenge .. | .getMeasurements .. |
    .spdmUnsupportedRequest .. | .mctpControl .. | .mctpDiscard .. | .pldmBaseRequest .. | .pldmSensorRead .. |
    .setSensorThresholds .. | .setEventReceiver .. | .pollForPlatformEventMessage .. | .pldmUnsupported .. | .requestUpdate .. |
    .requestFirmwareData .. | .activateFirmware .. | .cancelUpdate .. | .keyExchangeDone .. | .rekeyRetry .. | .alignLost .. |
    .vuindigSystemReadDone .. | .spillRegionReady .. | .pcieLinkDown .. | .functionLevelReset .. | .d3hotEntry .. |
    .wakeHoldExpire .. | .i3cAddressMatch .. | .inputGood .. | .auxReturn .. | .regRdy .. | .oscRdy .. |
    .powerupStepTimeout .. | .resetPinAssert .. | .resetPinRelease .. | .perstAssert .. | .perstRelease .. | .brownout .. |
    .capTick .. | .quiesceDone .. | .bootVerifyDone .. | .aliasCertIssued .. | .unlockCheckDone .. | .verifyComplete .. |
    .applyComplete .. | .updateTimeout .. | .pcieLinkUp .. => false
  | _ => true

/-- The commands that may change the live commands, streams and back-offs. -/
def Instr.changesCommands : Instr → Bool
  | .matrixOpIssue .. | .atomicAdd .. | .atomicMax .. | .atomicMin .. | .compareAndSwap .. | .indexLoad .. |
    .indexImageCopied .. | .centroidCopyBuilt .. | .indexSave .. | .indexSaveDone .. | .indexUnload .. | .indexUnloadDone .. |
    .indexCompact .. | .search .. | .ingressStamp .. | .boundaryMarker .. | .searchComplete .. | .mutate .. |
    .compactPassStart .. | .topk .. | .merge .. | .selectComplete .. | .recomputeDone .. | .spillDurable .. |
    .promotionDone .. | .config .. | .prefetch .. | .spill .. | .modelLoad .. | .modelUnload .. | .seqOpen .. | .seqClose .. |
    .step .. | .swap .. | .taskDispatch .. | .stepCommit .. | .alloc .. | .allocZeroed .. | .free .. | .move .. |
    .moveCopyDone .. | .promote .. | .evict .. | .share .. | .unshare .. | .granuleRetire .. | .openCtx .. | .admitCtx .. |
    .retire .. | .retireDone .. | .close .. | .chOpen .. | .chClose .. | .chCloseDone .. | .partitionResetKillsDone .. |
    .partitionResetDone .. | .nop .. | .abort .. | .data .. | .stackFail .. | .tideBoundary .. | .stepBoundary .. |
    .modelImageCopied .. | .inputFail .. | .auxLoss .. | .powerDownDone .. | .thermalTrip .. | .commandEngineReady .. => true
  | _ => false

/-- The commands that may change the bridge rings and windows. -/
def Instr.changesBridge : Instr → Bool
  | .registerWrite .. | .localReset .. | .localResetDone .. | .blkIrqSet .. | .devtimeLoRead .. | .parCfgWrite .. |
    .spillCfgWrite .. | .funcCfgWrite .. | .funcReset .. | .regRd .. | .regWr .. | .regRsp .. | .bar2Access .. |
    .regwinTimeout .. | .sqTailWrite .. | .sqFetch .. | .xferReady .. | .busyRetry .. | .busyResend .. | .cpl .. | .event .. |
    .cqHeadWrite .. | .answerTimeout .. | .pathClear .. | .frame .. | .portTrainDone .. | .trainFail .. | .portCfgWrite .. |
    .gapHoldExpire .. | .noRouteExpire .. | .pathLost .. | .logicRdy .. | .fence .. | .readmit .. | .clearList .. |
    .svnCommit .. | .eraseAll .. | .unlockGo .. | .registerMessageRead .. | .registerMessageWrite .. | .effecterWrite .. |
    .mapJournalReplayed .. | .pcieLinkDown .. | .functionLevelReset .. | .d3hotEntry .. | .inputFail .. | .auxLoss .. |
    .powerDownDone .. | .perstAssert .. | .thermalTrip .. | .commandEngineReady .. => true
  | _ => false

/-- The commands that may change the ports, frames, transfers or sequence tracking. -/
def Instr.changesLinks : Instr → Bool
  | .registerWrite .. | .localReset .. | .localResetDone .. | .blkIrqSet .. | .devtimeLoRead .. | .ingressStamp .. |
    .epochMark .. | .pageChoiceDone .. | .recomputeDone .. | .attnSplitDone .. | .attnMerge .. | .kvAppend .. | .mirrorAck .. |
    .spillDurable .. | .t3PageReadDone .. | .holdExpire .. | .swap .. | .taskDispatch .. | .taskEnd .. | .stepCommit .. |
    .weightRepairDone .. | .parCfgWrite .. | .spillCfgWrite .. | .openCtx .. | .admitCtx .. | .retire .. | .close .. |
    .chOpen .. | .chClose .. | .funcCfgWrite .. | .funcReset .. | .partitionResetKillsDone .. | .partitionResetDone .. |
    .abort .. | .data .. | .regRd .. | .regWr .. | .bar2Access .. | .sqTailWrite .. | .cqHeadWrite .. | .pathClear .. |
    .frame .. | .ack .. | .nak .. | .credit .. | .missedAck .. | .laneRetire .. | .laneRejoin .. | .portTrainDone .. |
    .trainFail .. | .trainRetry .. | .rekey .. | .keySpent .. | .portCfgWrite .. | .gapHoldExpire .. | .noRouteExpire .. |
    .pathLost .. | .xwrite .. | .xack .. | .xreadRsp .. | .xresend .. | .logicRdy .. | .sramScrubRead .. | .fence .. |
    .readmit .. | .clearList .. | .stackFail .. | .svnCommit .. | .eraseAll .. | .unlockGo .. | .registerMessageRead .. |
    .registerMessageWrite .. | .effecterWrite .. | .keyExchangeDone .. | .rekeyRetry .. | .stepBoundary .. | .mgmtPeriod .. |
    .mapJournalReplayed .. | .pcieLinkDown .. | .functionLevelReset .. | .d3hotEntry .. | .inputFail .. | .auxLoss .. |
    .powerDownDone .. | .perstAssert .. | .thermalTrip .. | .commandEngineReady .. | .pcieLinkUp .. => true
  | _ => false

/-- The commands that may send a packet, frame, answer or interrupt: all but the ones named here. -/
def Instr.sends : Instr → Bool
  | .eventsClear .. | .matrixOpComplete .. | .vectorOp .. | .dbgHalt .. | .boundaryMarker .. | .probeSelectionDone .. |
    .setSeal .. | .setScanStart .. | .setScanDone .. | .setReportDone .. | .queryRoundMerged .. | .rerankDone .. |
    .mutateStaging .. | .epochMark .. | .epochReport .. | .compactPassStart .. | .selectPieceDone .. | .attnBackward .. |
    .relocationCopyDone .. | .weightTileLanded .. | .handleReturn .. | .taskAge .. | .mcastAck .. | .parityDeltaAck .. |
    .stackThermalTick .. | .lateRead .. | .ferryArm .. | .ferryGenerationStart .. | .ferryGenerationDone .. |
    .flashWriteDurable .. | .stripeCloseTimeout .. | .gcStep .. | .wearLevelMove .. | .readDisturbRelocate .. |
    .moveMapSwitch .. | .preemptWaitExpire .. | .taskKill .. | .slowSample .. | .energySample .. | .reservedPtypeDrop .. |
    .busyHintExpire .. | .busyRetry .. | .laneRejoin .. | .trainRetry .. | .wakePinChange .. | .debounceExpire .. | .rearm .. |
    .watchSample .. | .powerupChecksPassed .. | .logicRdy .. | .powerSample .. | .valveTick .. | .coolHoldEnter .. |
    .coolHoldClear .. | .enterHold .. | .leaveHold .. | .enterWatch .. | .coreRestartDone .. | .mctpDiscard .. |
    .vuindigSystemReadDone .. | .spillRegionReady .. | .acctWindowClose .. | .wakeHoldExpire .. | .i3cAddressMatch .. |
    .inputGood .. | .inputFail .. | .auxLoss .. | .auxReturn .. | .regRdy .. | .oscRdy .. | .powerupStepTimeout .. |
    .powerDownDone .. | .resetPinAssert .. | .resetPinRelease .. | .perstRelease .. | .thermalTrip .. | .brownout .. |
    .capTick .. | .quiesceDone .. | .bootVerifyDone .. | .aliasCertIssued .. | .unlockCheckDone .. | .updateTimeout .. |
    .pcieLinkUp .. => false
  | _ => true

end Sys2Proof
end

