-- ==== Sys2Proof/WellFormed.lean ====
section
/-! DEFINITION. Which commands are well formed: every operand within the range that its field or its unit has. -/

namespace Sys2Proof

/-- A number below a bound. -/
def lt (x b : Nat) : Bool := decide (x < b)

/-- A CMD header (R325 Table 2). -/
def CmdHdr.wf (h : CmdHdr) : Bool :=
  lt h.opcode 256 && lt h.func 16 && lt h.channel 256 && lt h.tag 65536 && lt h.srcOrd 64 && lt h.dstOrd 64 && lt h.ring 256 &&
    lt h.inlineLen 8192 && lt h.xferLen 0x100000000

/-- A function and a tag (R328). -/
def CmdRef.wf (q : CmdRef) : Bool := lt q.func 16 && lt q.tag 65536

/-- A transfer of a strait: 64 bytes between islands of one die (R17). -/
def Transfer.wf (t : Transfer) : Bool := lt t.src 512 && lt t.dst 512 && t.src / 128 == t.dst / 128 && t.data.length == 64

/-- A matrix operation (R32): two tiles and offsets in islet memory (rows, columns and lengths outside Table 3 have their own outcome). -/
def MatOp.wf (o : MatOp) : Bool :=
  lt o.tile 2 && [o.aOff, o.bOff, o.saOff, o.sbOff, o.biasOff, o.outOff].all (fun x => lt x 131072) &&
    lt o.func 16 && lt o.tag 65536

/-- An atomic (R54). -/
def AtomicReq.wf (r : AtomicReq) : Bool := lt r.islet 8192 && lt r.addr 0x1000000000000 && lt r.func 16 && lt r.tag 65536

/-- A DATA packet: 1 to 4,096 bytes (R333). -/
def DataPkt.wf (d : DataPkt) : Bool :=
  lt d.func 16 && lt d.tag 65536 && lt d.handle 0x100000000 && lt d.offset 0x100000000 && lt 0 d.bytes.length && lt d.bytes.length 4097

/-- A CPL packet (R334 Table 4). -/
def CplPkt.wf (c : CplPkt) : Bool :=
  lt c.status 256 && lt c.func 16 && lt c.kind 4 && lt c.channel 256 && lt c.tag 65536 && lt c.srcOrd 64 && lt c.ring 256 &&
    lt c.bodyLen 0x100000000 && lt c.fragOff 0x100000000 && lt c.bytes.length 4097

/-- An EVENT packet (R337). -/
def EventPkt.wf (e : EventPkt) : Bool := lt e.code 256 && lt e.func 16 && lt e.srcOrd 64

/-- A submission entry (R344 Table 7). -/
def SqEntry.wf (e : SqEntry) : Bool := lt e.dstOrd 64 && lt e.opcode 256 && lt e.channel 256 && lt e.tag 65536

/-- A register packet (R350). -/
def RegPkt.wf (r : RegPkt) : Bool := lt r.srcOrd 64 && lt r.rid 65536 && lt r.addr 0x1000000 && lt r.data 0x10000000000000000

/-- A page of the cache (R190). -/
def PageRef.wf (p : PageRef) : Bool := lt p.seq 16384 && lt p.layer 256 && lt p.group 256 && lt p.page 0x40000

/-- A weight tile (R223). -/
def TileRef.wf (t : TileRef) : Bool := lt t.slot 2 && lt t.layer 256

/-- What an uncorrectable weight read was for (R242). -/
def WeightRef.wf : WeightRef → Bool
  | .tile t => t.wf
  | .gain l _ => lt l 256
  | .finalGain => true
  | .embed t => lt t 0x100000

/-- The place of a transfer's bytes. -/
def XPlace.wf : XPlace → Bool
  | .memory => true
  | .hold ctx q _ => lt ctx 64 && lt q 16384
  | .pageList ctx pos p _ _ => lt ctx 64 && lt pos 0x1000000 && p.wf
  | .finalList ctx pos p _ _ => lt ctx 64 && lt pos 0x1000000 && p.wf
  | .partials ctx pos p _ _ => lt ctx 64 && lt pos 0x1000000 && p.wf
  | .fresh ctx pos p => lt ctx 64 && lt pos 0x1000000 && p.wf
  | .mirror ctx p part => lt ctx 64 && p.wf && lt part 6
  | .weights w => w.wf

/-- A transfer between devices (R370 Table 3). -/
def XPkt.wf (x : XPkt) : Bool :=
  lt x.srcOrd 64 && lt x.func 16 && lt x.xid 0x100000000 && lt x.addr 0x1000000000000 && lt x.lenM1 4096 && lt x.replyAddr 0x1000000000000 &&
    lt x.data.length 4097 && x.place.wf

/-- A frame: 16 to 4,128 bytes of packet (R357). -/
def FrameIn.wf (f : FrameIn) : Bool :=
  lt f.dst 64 && lt f.src 64 && lt f.vc 2 && lt f.group 16 && lt f.eseq 65536 && lt f.lseq 65536 && lt f.keyPhase 2 && lt f.ptype 256 &&
    lt f.body.length 4129

/-- What the ends of a port exchange (R365). -/
def TrainInfo.wf (t : TrainInfo) : Bool := lt t.peerOrd 64 && lt t.peerDims 64 && lt t.laneMask 256

/-- A ferry descriptor (R265 Table 4). -/
def FerryDesc.wf (d : FerryDesc) : Bool :=
  lt d.src 0x1000000000000 && lt d.dst 0x1000000000000 && lt d.len 0x100000000 && lt d.rowsM1 65536 && lt d.mode 4 && lt d.next 64 && lt d.func 16

/-- A unit that can be fenced (R401). -/
def FenceUnit.wf (u : FenceUnit) : Bool := lt u.island 512 && lt u.islet 16

/-- An attention of a cohort step. -/
def AttnRef.wf (a : AttnRef) : Bool := lt a.slot 2 && lt a.layer 256 && lt a.group 256

/-- A buffer handle (R235 Table 8). -/
def BufHandle.wf (b : BufHandle) : Bool := lt b.island 512 && lt b.buf 2 && lt b.half 2 && lt b.layer 256

/-- The inputs of a backward recomputation (R187). -/
def BwdReq.wf (r : BwdReq) : Bool :=
  lt r.layer 256 && lt r.func 16 && r.table.all (fun e => lt e.seq 16384 && lt 0 e.qlen && lt (e.qlen - 1) 65536 && lt (e.pos0 + e.qlen - 1) 0x1000000)

/-- A reading of the power controller (R393). -/
def PowerReading.wf (r : PowerReading) : Bool := lt r.centiVolt 65536 && lt r.watt 65536

/-- A reading of the coolant sensors (R397). -/
def CoolReading.wf (r : CoolReading) : Bool :=
  lt r.inlet 256 && lt r.outlet 256 && lt r.flow 256 && lt r.inPress 4096 && lt r.outPress 4096 && lt r.pumpHz 65536

/-- An energy sample (R317): islands and stacks that exist. -/
def EnergyReading.wf (r : EnergyReading) : Bool := r.perIsland.all (fun p => lt p.1 512) && r.perStack.all (fun p => lt p.1 32)

/-- Every operand of a command lies in its range. -/
def Instr.wf : Instr → Bool
  | .registerWrite _ addr _ w => lt addr 0x1000000 && lt w 0x10000000000000000
  | .localReset _ page => lt page 0x1000000
  | .localResetDone page => lt page 0x1000000
  | .blkIrqSet _ page w => lt page 0x1000000 && lt w 0x100000000
  | .eventsClear _ w => lt w 0x100000000
  | .devtimeLoRead _ => true
  | .straitTransfer here _ fresh _ => lt here 512 && fresh.all Transfer.wf
  | .matrixOpIssue islet op => lt islet 8192 && op.wf
  | .matrixPassEnd islet _ => lt islet 8192
  | .matrixOpComplete islet => lt islet 8192
  | .vectorOp islet _ => lt islet 8192
  | .atomicAdd r _ x => r.wf && lt x 0x10000000000000000
  | .atomicMax r _ v idx => r.wf && lt v 0x100000000 && lt idx 0x100000000
  | .atomicMin r _ v idx => r.wf && lt v 0x100000000 && lt idx 0x100000000
  | .compareAndSwap r _ expected new => r.wf && lt expected 0x10000000000000000 && lt new 0x10000000000000000
  | .dbgHalt _ die w => lt die 4 && lt w 0x100000000
  | .dbgDataRead _ die word => lt die 4 && lt word 64
  | .indexLoad h b => h.wf && lt b.length 4097
  | .indexImageCopied idx => lt idx 64
  | .centroidCopyBuilt idx => lt idx 64
  | .indexSave h b => h.wf && lt b.length 4097
  | .indexSaveDone idx => lt idx 64
  | .indexUnload h b => h.wf && lt b.length 4097
  | .indexUnloadDone idx => lt idx 64
  | .indexCompact h b => h.wf && lt b.length 4097
  | .search h b => h.wf && lt b.length 4097
  | .ingressStamp island => lt island 513
  | .boundaryMarker island => lt island 512
  | .probeSelectionDone q => q.wf
  | .setSeal idx => lt idx 64
  | .setScanStart die => lt die 4
  | .setScanDone island bad => lt island 512 && bad.all (fun i => lt i 0x100000)
  | .setReportDone island => lt island 512
  | .queryRoundMerged q => q.wf
  | .rerankDone q _ => q.wf
  | .searchComplete q => q.wf
  | .mutate h b => h.wf && lt b.length 4097
  | .mutateStaging idx => lt idx 64
  | .epochMark src epoch => lt src 64 && lt epoch 0x10000000000000000
  | .epochReport src epoch => lt src 64 && lt epoch 0x10000000000000000
  | .compactPassStart stack => lt stack 32
  | .topk h b => h.wf && lt b.length 4097
  | .merge h b => h.wf && lt b.length 4097
  | .selectPieceDone q _ _ _ => q.wf
  | .selectComplete q => q.wf
  | .pageChoiceDone a unreadable => a.wf && unreadable.all (fun i => lt i 0x40000)
  | .recomputeDone p => p.wf
  | .attnSplitDone a _ _ => a.wf
  | .attnMerge a => a.wf
  | .kvAppend slot _ layer => lt slot 2 && lt layer 256
  | .mirrorAck p _ => p.wf
  | .attnBackward r => r.wf
  | .spillDurable p _ => p.wf
  | .t3PageReadDone a page _ => a.wf && lt page 0x40000
  | .promotionDone p => p.wf
  | .relocationCopyDone p => p.wf
  | .holdExpire seq => lt seq 16384
  | .config h b => h.wf && lt b.length 4097
  | .prefetch h b => h.wf && lt b.length 4097
  | .spill h b => h.wf && lt b.length 4097
  | .modelLoad h b => h.wf && lt b.length 4097
  | .modelUnload h b => h.wf && lt b.length 4097
  | .seqOpen h b => h.wf && lt b.length 4097
  | .seqClose h b => h.wf && lt b.length 4097
  | .step h b => h.wf && lt b.length 4097
  | .weightTileLanded island t => lt island 512 && t.wf
  | .swap consumer b => lt consumer 512 && b.wf
  | .handleReturn consumer _ b => lt consumer 512 && b.wf
  | .taskDispatch island => lt island 512
  | .taskAge island _ => lt island 512
  | .taskEnd islet => lt islet 8192
  | .stepCommit slot => lt slot 2
  | .weightRepairDone r => r.weight.wf
  | .mcastAck sender receiver _ => lt sender 512 && lt receiver 512
  | .alloc h b => h.wf && lt b.length 4097
  | .allocZeroed q => q.wf
  | .free h b => h.wf && lt b.length 4097
  | .move h b => h.wf && lt b.length 4097
  | .moveCopyDone q => q.wf
  | .promote h b => h.wf && lt b.length 4097
  | .evict h b => h.wf && lt b.length 4097
  | .share h b => h.wf && lt b.length 4097
  | .unshare h b => h.wf && lt b.length 4097
  | .parityDeltaAck stack line => lt stack 32 && lt line 0x40000000
  | .lineRebuild stack line _ => lt stack 32 && lt line 0x40000000
  | .parCfgWrite _ die w => lt die 4 && lt w 0x100000000
  | .dramScrubRead stack line _ => lt stack 32 && lt line 0x40000000
  | .granuleRetire stack granule => lt stack 32 && lt granule 0x100000
  | .stackThermalTick stack temp => lt stack 32 && lt temp 256
  | .lateRead func tag => lt func 16 && lt tag 65536
  | .ferryArm island slot d => lt island 512 && lt slot 64 && d.wf
  | .ferryGenerationStart island => lt island 512
  | .ferryGenerationDone island slot _ => lt island 512 && lt slot 64
  | .flashReadDone unit _ _ => lt unit 0x400000000
  | .stripeRebuild unit _ => lt unit 0x400000000
  | .flashWriteDurable unit => lt unit 0x400000000
  | .stripeCloseTimeout group => lt group 4
  | .gcStep channel _ => lt channel 64
  | .wearLevelMove channel _ => lt channel 64
  | .readDisturbRelocate channel => lt channel 64
  | .moveMapSwitch unit => lt unit 0x400000000
  | .flashScrubRead channel _ _ => lt channel 64
  | .flashChannelFail channel => lt channel 64
  | .spillCfgWrite _ w => lt w 0x100000000
  | .openCtx h b => h.wf && lt b.length 4097
  | .admitCtx h b => h.wf && lt b.length 4097
  | .retire h b => h.wf && lt b.length 4097
  | .retireDone ctx => lt ctx 64
  | .close h b => h.wf && lt b.length 4097
  | .chOpen h b => h.wf && lt b.length 4097
  | .chClose h b => h.wf && lt b.length 4097
  | .chCloseDone ch => lt ch 256
  | .funcCfgWrite _ func w => lt func 16 && lt w 0x100000000
  | .funcReset _ func => lt func 16
  | .partitionResetKillsDone func => lt func 16
  | .partitionResetDone func => lt func 16
  | .preemptWaitExpire island => lt island 512
  | .taskKill islet => lt islet 8192
  | .slowSample rs => rs.all (fun r => lt r.island 512)
  | .energySample r => r.wf
  | .nop h b => h.wf && lt b.length 4097
  | .abort h b => h.wf && lt b.length 4097
  | .data d => d.wf
  | .reservedPtypeDrop ptype => lt ptype 256
  | .busyHintExpire func queue => lt func 16 && queue.all (fun c => lt c 256)
  | .regRd r => r.wf
  | .regWr r => r.wf
  | .regRsp r => r.wf
  | .bar2Access off bytes _ _ => lt off 0x40000000 && [1, 2, 4, 8].contains bytes
  | .regwinTimeout rid => lt rid 65536
  | .sqTailWrite ring tail => lt ring 256 && lt tail 65536
  | .sqFetch ring e b => lt ring 256 && e.wf && lt b.length 0x8000001
  | .xferReady srcOrd func tag handle grant => lt srcOrd 64 && lt func 16 && lt tag 65536 && lt handle 0x100000000 && lt grant 0x100000000
  | .busyRetry srcOrd func tag cause hint => lt srcOrd 64 && lt func 16 && lt tag 65536 && lt cause 4 && lt hint 65536
  | .busyResend ring ord tag => lt ring 256 && lt ord 64 && lt tag 65536
  | .cpl c => c.wf
  | .event e => e.wf
  | .cqHeadWrite ring head => lt ring 256 && lt head 65536
  | .answerTimeout ord => lt ord 64
  | .pathClear _ _ w => lt w 0x100000000
  | .frame port f => lt port 8 && f.wf
  | .ack port lseq => lt port 8 && lt lseq 65536
  | .nak port lseq => lt port 8 && lt lseq 65536
  | .credit port _ vc _ _ => lt port 8 && lt vc 2
  | .missedAck port => lt port 8
  | .laneRetire lane _ => lt lane 64
  | .laneRejoin lane => lt lane 64
  | .portTrainDone port t => lt port 8 && t.wf
  | .trainFail port => lt port 8
  | .trainRetry port => lt port 8
  | .rekey port => lt port 8
  | .keySpent port => lt port 8
  | .portCfgWrite _ port w => lt port 8 && lt w 0x100000000
  | .gapHoldExpire src _ group => lt src 64 && group.all (fun g => lt g 16)
  | .noRouteExpire dst => lt dst 64
  | .pathLost srcOrd lost cause => lt srcOrd 64 && lt lost 64 && lt cause 4
  | .xwrite x => x.wf
  | .xack x => x.wf
  | .xread x => x.wf
  | .xreadRsp x => x.wf
  | .xresend xid => lt xid 0x100000000
  | .wakePinChange pin _ => lt pin 4
  | .debounceExpire pin => lt pin 4
  | .stuck pin => lt pin 4
  | .rearm _ w => lt w 0x100000000
  | .watchSample signal r => lt signal 256 && r.wf
  | .powerupChecksPassed r => r.wf
  | .memRdy failed => failed.all (fun i => lt i 32)
  | .logicRdy _ => true
  | .powerSample r => r.wf
  | .valveTick r => r.wf
  | .coolHoldEnter _ => true
  | .coolHoldClear _ => true
  | .enterHold _ => true
  | .leaveHold _ => true
  | .enterWatch _ _ => true
  | .sramScrubRead _ _ _ _ _ => true
  | .fenceEffect u _ => u.wf
  | .fence _ u => u.wf
  | .readmit _ u => u.wf
  | .clearList _ => true
  | .selfTestDone u failed => u.wf && failed.all (fun i => lt i 17)
  | .stackFail stack => lt stack 32
  | .coreWatchdogExpire core => lt core 4
  | .coreRestartDone core => lt core 4
  | .svnCommit _ => true
  | .eraseAll _ => true
  | .unlockGo _ => true
  | .getVersion _ => true
  | .getCapabilities _ => true
  | .negotiateAlgorithms _ => true
  | .getDigests _ => true
  | .getCertificate _ slot _ _ => lt slot 256
  | .challenge _ _ nonce => (nonce.length == 32)
  | .getMeasurements _ index nonce => lt index 256 && (nonce.length == 32)
  | .spdmUnsupportedRequest _ code => lt code 256
  | .registerMessageRead _ _ addr => lt addr 0x1000000
  | .registerMessageWrite _ _ addr w => lt addr 0x1000000 && lt w 0x10000000000000000
  | .mctpControl _ eid => lt eid 256
  | .mctpDiscard _ ty _ => lt ty 256
  | .pldmBaseRequest _ cmd => lt cmd 256
  | .pldmSensorRead _ id => lt id 65536
  | .setSensorThresholds _ id warn crit => lt id 65536 && lt warn 0x100000000 && lt crit 0x100000000
  | .setEventReceiver _ eid => lt eid 256
  | .pollForPlatformEventMessage _ => true
  | .effecterWrite _ id value => lt id 65536 && lt value 0x100000000
  | .pldmUnsupported _ ty cmd => lt ty 256 && lt cmd 256
  | .requestUpdate _ _ => true
  | .requestFirmwareData _ chunk => lt chunk.length 1025
  | .activateFirmware _ => true
  | .cancelUpdate _ => true
  | .keyExchangeDone port _ => lt port 8
  | .rekeyRetry port => lt port 8
  | .tideBoundary => true
  | .alignLost => true
  | .stepBoundary => true
  | .modelImageCopied => true
  | .mgmtPeriod => true
  | .vuindigSystemReadDone => true
  | .mapJournalReplayed => true
  | .spillRegionReady => true
  | .residencyStarved => true
  | .acctWindowClose => true
  | .pcieLinkDown => true
  | .functionLevelReset => true
  | .d3hotEntry => true
  | .wakeHoldExpire => true
  | .i3cAddressMatch => true
  | .inputGood => true
  | .inputFail => true
  | .auxLoss => true
  | .auxReturn => true
  | .regRdy => true
  | .oscRdy => true
  | .powerupStepTimeout => true
  | .powerDownDone => true
  | .resetPinAssert => true
  | .resetPinRelease => true
  | .perstAssert => true
  | .perstRelease => true
  | .thermalTrip => true
  | .brownout => true
  | .capTick => true
  | .quiesceDone => true
  | .bootVerifyDone => true
  | .aliasCertIssued => true
  | .unlockCheckDone => true
  | .verifyComplete => true
  | .applyComplete => true
  | .updateTimeout => true
  | .commandEngineReady => true
  | .pcieLinkUp => true

end Sys2Proof
end

