-- ==== Sys2Proof/Safety.lean ====
section
/-! DEFINITION. What a run of the block keeps: the canonical form of its byte memory and register file, and the ranges of the numbers
that chapter 15 bounds. -/

namespace Sys2Proof.Machine

/-- The keys of a sparse map rise strictly, and no entry holds the value that an unlisted key reads as. -/
def mapWf {α : Type} [DecidableEq α] (d : Nat → α) : List (Nat × α) → Bool
  | [] => true
  | [e] => decide (e.2 ≠ d e.1)
  | e :: f :: m => decide (e.2 ≠ d e.1) && decide (e.1 < f.1) && mapWf d (f :: m)

/-- The byte memory is in its one canonical form: an unlisted address reads 0. -/
def Memory.wf (m : List (Nat × Byte)) : Bool := mapWf (fun _ => 0) m

/-- The register file is in its one canonical form: an unlisted register reads its reset value. -/
def Registers.wf (m : List (Nat × Word)) : Bool := mapWf resetWord m

/-- What every step keeps: canonical memory and registers, and n_cap within 8 to 32 (R393). -/
structure Inv (s : State) : Prop where
  mem : Memory.wf s.mem = true
  regs : Registers.wf s.regs = true
  cap : 8 ≤ s.pwr.nCap ∧ s.pwr.nCap ≤ 32

/-- A command completes: it answers a next state. -/
def completes (i : Instr) (s : State) : Prop := ∃ t, exec i s = .next t

/-- A register access by one row acts at once: the device is powered, the page is present and ready, and no local reset of it runs
(R435, R437, R450). -/
structure State.reachable (s : State) (a : Nat) : Prop where
  powered : s.powered = true
  access : s.accessOk a false = true
  free : s.busy.contains (pageBase a) = false
  ready : s.notReady.contains (pageBase a) = false

/-- A CMD packet passed the header checks with its whole body, its body check passed, and it was stamped at once: `t` is the state and
`l` the live command from which its action starts (R327, R328, R338). -/
structure State.stampsAtOnce (s : State) (chk : BodyCheck) (h : CmdHdr) (b : Body) (l : Live) (t : State) : Prop where
  powered : s.powered = true
  taken : (s.arrive h b).2 = some h.ref
  live : ((s.arrive h b).1.live? h.ref).any (fun x => (chk (s.arrive h b).1 x.h x.body).isNone) = true
  stamped : (s.arrive h b).1.bodyDone h.ref = (t, true)
  record : t.live? h.ref = some l

/-- A CMD packet passed the header checks with its whole body and its body check, and nothing holds it: its context is resident and it
does not ask for FENCE. `u` is the state once it is accepted and `l` its record (R327, R328, R338). -/
structure State.entersStream (s : State) (chk : BodyCheck) (h : CmdHdr) (b : Body) (u : State) (l : Live) : Prop where
  powered : s.powered = true
  taken : s.arrive h b = (u, some h.ref)
  record : u.live? h.ref = some l
  named : l.h = h
  passes : chk u h l.body = none
  resident : u.resident h = true
  fence : h.fence = false

/-- A CMD packet passed the header checks with its whole body and its body check, and takes its place to be stamped later: it waits on
its ingress island's stream, or is held for its context or its fence. `t` is the state then (R304, R338, R339). -/
structure State.waitsForStamp (s : State) (chk : BodyCheck) (h : CmdHdr) (b : Body) (t : State) : Prop where
  powered : s.powered = true
  taken : (s.arrive h b).2 = some h.ref
  live : ((s.arrive h b).1.live? h.ref).any (fun x => (chk (s.arrive h b).1 x.h x.body).isNone) = true
  waits : (s.arrive h b).1.bodyDone h.ref = (t, false)

/-- The addresses at which a byte of T2 is stored: its own, and for parity data the parity byte of its group (R251). -/
def State.t2Cells (s : State) (stack off : Nat) : List Nat :=
  t2Addr stack off :: (if s.isParityData stack (off / 65536) then [t2Addr (parityStack stack (off / 65536)) off] else [])

/-- The addresses at which byte `i` of an object is stored (R246, R251). -/
def State.objCells (s : State) (o : Obj) (i : Nat) : List Nat :=
  if o.inT2 then (o.grans[i / 65536]?).elim [] (fun g => s.t2Cells o.stack (g * 65536 + i % 65536))
  else (o.units[i / 65536]?).elim [] (fun u => [t3Addr (u * 65536 + i % 65536)])

/-- The sum in one lane, and the lane's generator, after `n` stages of the tree with stochastic rounding (R40, R53): each addition draws from
the generator of the lane that it ends in. -/
def laneSumSr (lanes gens : List Nat) : Nat → Nat → Nat × Nat
  | 0, l => (lanes.getD l 0, gens.getD l 1)
  | n + 1, l => (fp32Fmt.encode ((f32 (laneSumSr lanes gens n l).1).add (f32 (laneSumSr lanes gens n (l + 2 ^ (5 - n))).1))
      (.stoch (draw16 (laneSumSr lanes gens n l).2).1) .toInf, (draw16 (laneSumSr lanes gens n l).2).2)

/-- Lane `l` after `n` stages of the tree over the 64 lanes (R53): stage `s` takes lane `l + 2 ^ (6 - s)` into lane `l`. -/
def laneAt (f : Nat → Nat → Nat) (lanes : List Nat) : Nat → Nat → Nat
  | 0, l => lanes.getD l 0
  | n + 1, l => f (laneAt f lanes n l) (laneAt f lanes n (l + 2 ^ (5 - n)))

/-- A run step stops only for an input outside the absolute ratings (R460). -/
def safeStop : Host.Outcome State Fault Refusal → Bool
  | .next _ => true
  | .fault .outsideRatings => true
  | .refused _ => false

end Sys2Proof.Machine
end

