-- ==== Sys2Proof/Certificates/Slice0/Obligations.lean ====
section
/-! DEFINITION. The statements about this model that the provers settle: what each command does, what it leaves as it was, and what
every step keeps. A part of a statement that rests on the model's own choice names the log entry. -/

open Sys2Proof Sys2Proof.Machine

/-! ## The machine as a whole -/

/-- A step takes the command at the front of the queue and is that command's effect on the state whose queue is the rest. On an empty
queue the device idles: time passes, waiting ring commands go out and one output is framed, and the queue stays empty (the
model's choice, log entry 1). -/
def Obligations.StepRunsTheFrontCommand : Prop :=
  (∀ (c : Instr) (cs : List Instr) (s : State), step { s with pending := c :: cs } = exec c { s with pending := cs }) ∧
  ∀ s : State, s.pending = [] → ∃ t, step s = .next t ∧ t = s.idle ∧ t.pending = []

/-- No command reorders, drops or adds to the queue: the commands that wait run first in, first out (the model's queue, log entry 1). -/
def Obligations.CommandsKeepTheQueue : Prop :=
  ∀ (i : Instr) (s t : State), exec i s = .next t → t.pending = s.pending

/-- Every command runs: it answers a next state on every state and with every operand, except a power sample with an input above the
absolute maximum of 72 V, which stops as outside the ratings, and only then. Events whose cause does not stand change nothing
(the model's choice, log entry 2). -/
def Obligations.EveryCommandRuns : Prop :=
  ∀ (i : Instr) (s : State),
    (∃ t, exec i s = .next t) ∨ (exec i s = .fault .outsideRatings ∧ ∃ r : PowerReading, i = .powerSample r ∧ 7200 < r.centiVolt)

/-- Every step keeps the invariant of the device: byte memory and registers stay in their canonical form, and the cap stays within 8
to 32 row groups (R393). -/
def Obligations.StepKeepsInvariant : Prop := ∀ s t : State, Inv s → step s = .next t → Inv t

/-- The state after reset meets the invariant. -/
def Obligations.ResetMeetsInvariant : Prop := Inv State.reset

/-- What a device reset leaves: RUN with every power-ready signal up, the command engine not ready, no command, context, channel,
object, index, sequence or model, every function disabled, every engine counter 0, the valve fully open and n_cap at 32. -/
def Obligations.ResetLeavesTheDeviceEmpty : Prop :=
  State.reset.pwr.st = .run ∧ State.reset.pwr.rdy = 15 ∧ State.reset.pwr.nCap = 32 ∧ State.reset.pwr.valve = 20000 ∧
  State.reset.cmd.ready = false ∧ State.reset.cmd.live = [] ∧ State.reset.cmd.hints = [] ∧
  (∀ f, State.reset.fstate f = .disabled) ∧ State.reset.sch.ctxs = [] ∧ State.reset.sch.chans = [] ∧ State.reset.sch.tasks = [] ∧
  State.reset.mm.objs = [] ∧ State.reset.mm.slots = [] ∧ State.reset.mm.shares = [] ∧ State.reset.idx.indexes = [] ∧
  State.reset.idx.epoch = 0 ∧ State.reset.gen.model.st = 0 ∧ State.reset.gen.seqs = [] ∧ State.reset.kv.ctxs = [] ∧
  State.reset.flt.islands = [] ∧ State.reset.flt.log = [] ∧ State.reset.sec.scope = 0 ∧ State.reset.sec.released = false ∧
  State.reset.now = 0 ∧ (∀ a, State.reset.byte a = 0) ∧ ∀ a, State.reset.rd a = (resetWord a).toNat

/-- With the auxiliary input absent the module stays in OFF, whatever the 48 V input does, and whatever else arrives: only the
auxiliary input's return leaves OFF. -/
def Obligations.WithoutAuxiliaryInputTheModuleStaysOff : Prop :=
  ∀ (i : Instr) (s t : State), s.pwr.st = .off → s.pwr.upStep = 0 → s.pwr.downCause = none → i ≠ .auxReturn →
    exec i s = .next t → t.pwr.st = .off ∧ t.pwr.upStep = 0 ∧ t.pwr.downCause = none

/-- The straps, fuses and dimensions are taken at LOGIC_RDY and change by nothing else (R456). -/
def Obligations.StrapsAreTakenAtLogicReady : Prop :=
  (∀ (i : Instr) (s t : State), (∀ b, i ≠ .logicRdy b) → exec i s = .next t → t.fix = s.fix) ∧
  ∀ (b : Bool) (s : State), s.pwr.upStep = 5 → ∃ t, exec (.logicRdy b) s = .next t ∧ t.fix.bridge = b

/-! ## Frames -/

/-- A command that is not one of those that store bytes leaves every byte of memory as it was. -/
def Obligations.OtherCommandsLeaveMemory : Prop :=
  ∀ (i : Instr) (s t : State), i.storesBytes = false → exec i s = .next t → ∀ a, t.byte a = s.byte a

/-- A command that is not one of those that write registers leaves every stored register as it was. -/
def Obligations.OtherCommandsLeaveRegisters : Prop :=
  ∀ (i : Instr) (s t : State), i.writesRegs = false → exec i s = .next t → ∀ a, t.rd a = s.rd a

/-- A command that does not wait for a time leaves device time and the watch clock as they were; one that does never moves the watch
clock back. -/
def Obligations.TimeNeverGoesBack : Prop :=
  (∀ (i : Instr) (s t : State), i.movesTime = false → exec i s = .next t → t.clock = s.clock ∧ t.now = s.now) ∧
  ∀ (i : Instr) (s t : State), exec i s = .next t → s.clock ≤ t.clock

/-- A command outside the power and pin commands, and outside register writes, leaves the power, clock, cooling and pin state. -/
def Obligations.OtherCommandsLeavePower : Prop :=
  ∀ (i : Instr) (s t : State), i.changesPower = false → exec i s = .next t → t.pwr = s.pwr

/-- What the commands of other parts leave of the fault state, the security root and the management plane. -/
def Obligations.OtherCommandsLeaveFaultsSecurityManagement : Prop :=
  ∀ (i : Instr) (s t : State), exec i s = .next t →
    (i.changesFaults = false → t.flt = s.flt) ∧ (i.changesSecurity = false → t.sec = s.sec) ∧
    (i.changesMgmt = false → t.mgmt = s.mgmt)

/-- What the commands of other parts leave of the islets and straits, the indexes and queries, the key-value caches, the object tables
and stacks, the flash tier, and the model with its sequences. -/
def Obligations.OtherCommandsLeaveUnitsTiersAndModel : Prop :=
  ∀ (i : Instr) (s t : State), exec i s = .next t →
    (i.changesArith = false → t.ar = s.ar) ∧ (i.changesIndex = false → t.idx = s.idx) ∧ (i.changesKv = false → t.kv = s.kv) ∧
    (i.changesTables = false → t.mm = s.mm) ∧ (i.changesFlash = false → t.fl = s.fl) ∧ (i.changesGen = false → t.gen = s.gen)

/-- What the commands of other parts leave of the functions, contexts and tasks, the live commands, the bridge, the links, and the
packets sent. -/
def Obligations.OtherCommandsLeaveQueuesAndLinks : Prop :=
  ∀ (i : Instr) (s t : State), exec i s = .next t →
    (i.changesSched = false → t.sch = s.sch) ∧ (i.changesCommands = false → t.cmd = s.cmd) ∧
    (i.changesBridge = false → t.brg = s.brg) ∧ (i.changesLinks = false → t.zwx = s.zwx) ∧
    (i.sends = false → t.outbox = s.outbox)

/-! ## Registers -/

/-- A write of a plain read-write register by a path that may make it: where every field takes its value, the writable bits take the
written ones, the rest stay, and no other register and no byte of memory changes; where one does not, the whole write is ignored
and the page's error log takes REG_WRITE (that the whole write is ignored is the model's reading, log entry 20). -/
def Obligations.RegisterWriteSetsItsFields : Prop :=
  ∀ (s : State) (p : Path) (a v i : Nat) (pg : PageRow) (r : RegRow), Registers.wf s.regs = true → s.reachable a →
    pageOf a = some (pg, i) → rowOf a = some r →
    r.acc = .rw → 0x40 ≤ a % 0x1000 → pg.typ ∉ [0x03, 0x07, 0x0C, 0x0E, 0x0F, 0x10, 0x12, 0x13, 0x16, 0x18, 0x19] →
    s.refusedBits p pg a (v % 2 ^ 32) = 0 → (p = .host → a % 0x1000 < 0x400 ∨ bit (s.rd (pageBase a + 0x0C)) 1 = true) →
    (rangesOk r (v % 2 ^ 32) = true → ∃ t, exec (.registerWrite p a false v) s = .next t ∧
      t.rd a = (s.rd a - (s.rd a &&& r.wmask) + (v % 2 ^ 32 &&& r.wmask)) % 2 ^ 32 ∧ (∀ b, b ≠ a → t.rd b = s.rd b) ∧
      ∀ x, t.byte x = s.byte x) ∧
    (rangesOk r (v % 2 ^ 32) = false → exec (.registerWrite p a false v) s = .next ((s.regWriteErr a).unlatch a))

/-- BLK_CTL.LRESET starts the page's local reset, BLK_IRQ_SET sets implemented interrupt bits and no others, and at the end of a local
reset every RW field of the page without an own rule, its counters, its log and its interrupts are back at their reset values, and
the registers of other pages are as they were. -/
def Obligations.BlockControlWrites : Prop :=
  (∀ (s : State) (p : Path) (page i : Nat) (pg : PageRow) (r : RegRow), s.reachable (pageBase page + 0x0C) →
    pageOf (pageBase page + 0x0C) = some (pg, i) → rowOf (pageBase page + 0x0C) = some r → r.wmask = 3 →
    (pageBase page + 0x0C) % 0x1000 = 0x0C →
    s.refusedBits p pg (pageBase page + 0x0C) (s.rd (pageBase page + 0x0C) % 4 + 4) = 0 →
    ∃ t, exec (.localReset p page) s = .next t ∧ pageBase (pageBase page + 0x0C) ∈ t.busy ∧ ∀ x, t.byte x = s.byte x) ∧
  (∀ (s : State) (p : Path) (page data i : Nat) (pg : PageRow) (r : RegRow), Registers.wf s.regs = true →
    s.reachable (pageBase page + 0x1C) →
    pageOf (pageBase page + 0x1C) = some (pg, i) → rowOf (pageBase page + 0x1C) = some r → r.acc = .wo → r.wmask = irqMask pg →
    (pageBase page + 0x1C) % 0x1000 = 0x1C → s.refusedBits p pg (pageBase page + 0x1C) (data % 2 ^ 32) = 0 →
    ∃ t, exec (.blkIrqSet p page data) s = .next t ∧
      t.rd (basePage pg.typ i + 0x14) = (s.rd (basePage pg.typ i + 0x14) ||| (data % 2 ^ 32 &&& irqMask pg)) % 2 ^ 32 ∧
      (∀ b, b ≠ basePage pg.typ i + 0x14 → t.rd b = s.rd b) ∧ ∀ x, t.byte x = s.byte x) ∧
  ∀ (s : State) (page i : Nat) (pg : PageRow), s.powered = true → s.busy.contains (pageBase page) = true →
    Registers.wf s.regs = true → pageOf (pageBase page) = some (pg, i) → pg.typ ∉ [0x07, 0x0E, 0x12, 0x13, 0x18, 0x19] →
    ∃ t, exec (.localResetDone page) s = .next t ∧ t.busy.contains (pageBase page) = false ∧
      (∀ a, t.rd a = if pageBase a = pageBase page then (lresetWord a (BitVec.ofNat 32 (s.rd a))).toNat else s.rd a) ∧
      ∀ x, t.byte x = s.byte x

/-- EVENTS bits clear where 1 is written, on the management and core paths alone: on the host path the write is counted and ignored. A read
of DEVTIME_LO answers the low word of device time, which advances by 40, and latches the high word of that same moment for the next read
of DEVTIME_HI. -/
def Obligations.EventsClearAndDeviceTimeLatches : Prop :=
  ((∀ (s : State) (p : Path) (data : Nat), Registers.wf s.regs = true → s.powered = true → p ≠ .host →
    ∃ t, exec (.eventsClear p data) s = .next t ∧
      t.rd Reg.pwrEvents = s.rd Reg.pwrEvents - (s.rd Reg.pwrEvents &&& (data &&& 0x3F)) ∧
      (∀ a, a ≠ Reg.pwrEvents → t.rd a = s.rd a) ∧ ∀ x, t.byte x = s.byte x) ∧
  (∀ (s : State) (data : Nat), s.powered = true →
    exec (.eventsClear .host data) s = .next (s.count Reg.mgmtHostDenyCnt)) ∧
  ∀ (s : State) (p : Path) (data : Nat), s.powered = true → p ≠ .host →
    exec (.rearm p data) s = .next (s.rearmPins data)) ∧
  (∀ (s : State) (p : Path), s.powered = true → s.busy.contains (pageBase Reg.pwrDevtimeLo) = false →
    s.notReady.contains (pageBase Reg.pwrDevtimeLo) = false →
    exec (.devtimeLoRead p) s = .next { s with
      latches := s.latches.filter (fun e => e.1 != Reg.pwrDevtimeLo + 4) ++ [(Reg.pwrDevtimeLo + 4, s.view (Reg.pwrDevtimeLo + 4))]
      outbox := s.outbox ++ [.regAnswer p Reg.pwrDevtimeLo false (s.view Reg.pwrDevtimeLo) false] } ∧
    s.view Reg.pwrDevtimeLo = s.devTime % 2 ^ 32 ∧ s.view (Reg.pwrDevtimeLo + 4) = s.devTime / 2 ^ 32 % 2 ^ 32 ∧
    s.devTime % 40 = 0 ∧ s.devTime ≤ s.now ∧ s.now < s.devTime + 40)

/-- REG_RD and REG_WR packets are answered by one REG_RSP with the packet's request number: the word read, or zero for a write; an
access that is misaligned or outside the pages answers an error and touches nothing. A register message on a management transport does the
same on the management path. -/
def Obligations.RegisterPacketsAreAnswered : Prop :=
  (∀ (s : State) (r : RegPkt), s.powered = true → s.accessOk r.addr r.wide = true →
    exec (.regRd r) s = .next ((s.readAccess r.addr r.wide).2.emit (.regRsp r.srcOrd
      { wide := r.wide, srcOrd := (s.readAccess r.addr r.wide).2.fix.ord, rid := r.rid, addr := r.addr
        data := (s.readAccess r.addr r.wide).1, err := false })) ∧
    exec (.regWr r) s = .next ((s.writeAccess .host r.addr r.wide r.data).emit (.regRsp r.srcOrd
      { wide := r.wide, srcOrd := (s.writeAccess .host r.addr r.wide r.data).fix.ord, rid := r.rid, addr := r.addr
        data := 0, err := false }))) ∧
  (∀ (s : State) (r : RegPkt), s.powered = true → s.accessOk r.addr r.wide = false →
    exec (.regRd r) s = .next (s.emit (.regRsp r.srcOrd
      { wide := r.wide, srcOrd := s.fix.ord, rid := r.rid, addr := r.addr, data := 0, err := true })) ∧
    exec (.regWr r) s = .next (s.emit (.regRsp r.srcOrd
      { wide := r.wide, srcOrd := s.fix.ord, rid := r.rid, addr := r.addr, data := 0, err := true }))) ∧
  ∀ (s u : State) (t : Transport) (wide : Bool) (addr data : Nat), s.mctpRuns t = true → u = s.count Reg.mgmtMctpRxCnt →
    u.accessOk addr wide = true →
    exec (.registerMessageRead t wide addr) s = .next ((u.readAccess addr wide).2.emit (.mgmt t (.register false (u.readAccess addr wide).1))) ∧
    exec (.registerMessageWrite t wide addr data) s = .next ((u.writeAccess .mgmt addr wide data).emit (.mgmt t (.register false 0)))

/-- A BAR2 read of another device sends one REG_RD with the next request number and waits in a window; the matching REG_RSP answers it with
the word, or with all ones and a count where it is an error, and frees the window, and REGWIN_TIMEOUT answers it with all ones and counts
it. -/
def Obligations.RegisterWindowsOfTheBridge : Prop :=
  (∀ (s : State) (off : Nat), s.powered = true → s.fix.bridge = true → off / 2 ^ 24 ≠ s.fix.ord → off % 4 = 0 →
    off / 2 ^ 24 < s.fix.devices → s.pathDown (off / 2 ^ 24) = false →
    exec (.bar2Access off 4 false 0) s = .next { s with
      outbox := s.outbox ++ [.regRead (off / 2 ^ 24)
        { wide := false, srcOrd := s.fix.ord, rid := s.brg.nextRid, addr := off % 2 ^ 24, data := 0, err := false }]
      brg := { s.brg with
        wins := s.brg.wins ++ [{ rid := s.brg.nextRid, ord := off / 2 ^ 24, wide := false, write := false, off := off, sentAt := s.now }]
        nextRid := (s.brg.nextRid + 1) % 65536 } }) ∧
  (∀ (s : State) (r : RegPkt) (w : WinAcc), s.powered = true →
    s.brg.wins.find? (fun w => w.rid == r.rid && w.ord == r.srcOrd) = some w →
    (w.write = false → r.err = false → exec (.regRsp r) s = .next { s with
      outbox := s.outbox ++ [.regAnswer .host w.off w.wide (if w.wide then r.data else r.data % 2 ^ 32) false]
      brg := { s.brg with wins := s.brg.wins.erase w } }) ∧
    (w.write = true → r.err = false → exec (.regRsp r) s = .next { s with brg := { s.brg with wins := s.brg.wins.erase w } }) ∧
    (w.write = false → r.err = true → exec (.regRsp r) s =
      .next ((({ s with brg := { s.brg with wins := s.brg.wins.erase w } } : State).count Reg.hostRegErrCnt).emit
        (.regAnswer .host w.off w.wide (ones w.wide) false))) ∧
    (w.write = true → r.err = true → exec (.regRsp r) s =
      .next (({ s with brg := { s.brg with wins := s.brg.wins.erase w } } : State).count Reg.hostRegErrCnt))) ∧
  ∀ (s u : State) (rid : Nat) (w : WinAcc), s.powered = true → s.brg.wins.find? (fun w => w.rid == rid) = some w →
    w.write = false → u = s.elapseTo (w.sentAt + bits (s.rd Reg.hostRegwinCfg) 9 0 * 1000) →
    exec (.regwinTimeout rid) s =
      .next ((({ u with brg := { u.brg with wins := u.brg.wins.erase w } } : State).count Reg.hostRegErrCnt).emit
        (.regAnswer .host w.off w.wide (ones w.wide) false))

/-- The rows that write one register do what a write of that register by their path does, and the writes that act on the device act, on a
path that may make them: the fence, re-admit and list requests of FENCE_CTL, FUNC.RESET, and the unlock, SVN and erase requests of
SEC.CTL. -/
def Obligations.OneRegisterWritesAct : Prop :=
  ((∀ (s : State) (p : Path) (data : Nat),
    (s.reachable Reg.vuindigSpillCfg → exec (.spillCfgWrite p data) s = .next (s.writeNow p Reg.vuindigSpillCfg (data % 2 ^ 32))) ∧
    (∀ hi : Bool, s.reachable (if hi then Reg.hostPathClearHi else Reg.hostPathClearLo) →
      exec (.pathClear p hi data) s = .next (s.writeNow p (if hi then Reg.hostPathClearHi else Reg.hostPathClearLo) (data % 2 ^ 32))) ∧
    (∀ die < 4, s.reachable (Reg.dramcParCfg (die * 8)) →
      exec (.parCfgWrite p die data) s = .next (s.writeNow p (Reg.dramcParCfg (die * 8)) (data % 2 ^ 32))) ∧
    (∀ func < 16, s.reachable (Reg.schedFuncCfg func) →
      exec (.funcCfgWrite p func data) s = .next (s.writeNow p (Reg.schedFuncCfg func) (data % 2 ^ 32))) ∧
    (∀ port < 8, s.reachable (Reg.zwxPortCfg port) →
      exec (.portCfgWrite p port data) s = .next (s.writeNow p (Reg.zwxPortCfg port) (data % 2 ^ 32))) ∧
    (∀ ring < 256, s.reachable (Reg.hringCqHead ring) →
      exec (.cqHeadWrite ring data) s = .next (s.writeNow .host (Reg.hringCqHead ring) (data % 2 ^ 32)))) ∧
  ∀ (s : State) (ring tail i : Nat) (pg : PageRow) (r : RegRow), Registers.wf s.regs = true → ring < 256 →
    s.reachable (Reg.hringSqTail ring) →
    pageOf (Reg.hringSqTail ring) = some (pg, i) → pg.typ = 0x19 → rowOf (Reg.hringSqTail ring) = some r → r.acc = .rw →
    r.ranges = [] → r.wmask = 0xFFFF → Reg.hringSqTail ring % 0x1000 = 0x58 →
    s.refusedBits .host pg (Reg.hringSqTail ring) (tail % 2 ^ 32) = 0 →
    ∃ t, exec (.sqTailWrite ring tail) s = .next t ∧
      t.rd (Reg.hringSqTail ring) = (s.rd (Reg.hringSqTail ring) - (s.rd (Reg.hringSqTail ring) &&& 0xFFFF) + tail % 65536) % 2 ^ 32 ∧
      (∀ b, b ≠ Reg.hringSqTail ring → t.rd b = s.rd b) ∧ ∀ x, t.byte x = s.byte x) ∧
  ((∀ (s : State) (u : FenceUnit), s.reachable Reg.faultFenceCtl → u.island < 512 → u.islet < 16 → (u.whole = true → u.islet = 0) →
    (∃ t, exec (.fence .core u) s = .next t ∧ t = (s.fenceCause u .request).unlatch Reg.faultFenceCtl ∧ (u, .request) ∈ t.flt.causes) ∧
    (∃ t, exec (.readmit .core u) s = .next t ∧ t = (s.askReadmit u).unlatch Reg.faultFenceCtl ∧
      (s.unitFenced u = true → u ∈ t.flt.selfTests))) ∧
  (∀ (s : State), s.reachable Reg.faultFenceCtl →
    exec (.clearList .core) s = .next (s.emptyList.unlatch Reg.faultFenceCtl)) ∧
  (∀ (s : State) (f : Nat), f < 16 → s.reachable (Reg.funcReset f) →
    exec (.funcReset .host f) s = .next ((s.startReset f 1).unlatch (Reg.funcReset f)) ∧
    exec (.funcReset .core f) s = .next ((s.startReset f 2).unlatch (Reg.funcReset f))) ∧
  ∀ (s : State), s.reachable Reg.secCtl →
    exec (.unlockGo .core) s = .next (s.goUnlock.unlatch Reg.secCtl) ∧
    exec (.svnCommit .core) s = .next (s.commitSvn.unlatch Reg.secCtl) ∧
    exec (.eraseAll .mgmt) s = .next (s.eraseKeys.unlatch Reg.secCtl))

/-! ## Power, clocks, cooling and pins -/

/-- The steps of a power-up in their order, each raising its ready signal: the checks start it and take 100 ms, REG_RDY, OSC_RDY and
MEM_RDY follow, and LOGIC_RDY ends it in RUN at device time 0. A step that overruns its limit begins the power-down as PUFAIL. -/
def Obligations.PowerUpRunsInOrder : Prop :=
  (∀ (s u : State) (r : CoolReading), s.pwr.st = .watch → s.pwr.upStep = 1 → s.upChecks r = true →
    u = s.elapseClock (s.clock + 100000000) →
    exec (.powerupChecksPassed r) s = .next { u with pwr := { u.pwr with upStep := 2, fullMode := true } }) ∧
  (∀ s : State, s.pwr.upStep = 2 → exec .regRdy s = .next { s with pwr := { s.pwr with upStep := 3, rdy := 1 } }) ∧
  (∀ s : State, s.pwr.upStep = 3 → exec .oscRdy s = .next { s with pwr := { s.pwr with upStep := 4, rdy := 3, nCap := 32 } }) ∧
  (∀ s : State, s.pwr.upStep = 4 → exec (.memRdy []) s = .next { s with pwr := { s.pwr with upStep := 5, rdy := 7 } }) ∧
  (∀ (s : State) (strap : Bool), s.pwr.upStep = 5 → s.pwr.reqs = [] →
    ∃ t, exec (.logicRdy strap) s = .next t ∧ t.pwr.st = .run ∧ t.pwr.upStep = 0 ∧ t.pwr.rdy = 15 ∧ t.now = 0 ∧
      t.fix.bridge = strap ∧ t.sec.step = .verify ∧ (∀ a, t.rd a = s.rd a) ∧ ∀ x, t.byte x = s.byte x) ∧
  ∀ (s u : State), 2 ≤ s.pwr.upStep → s.pwr.upStep ≤ 5 →
    u = (s.elapseClock (s.clock + upLimit s.pwr.upStep)).setEvents 0x02 →
    exec .powerupStepTimeout s = .next { u with pwr := { u.pwr with
      downCause := some 4, downStep := s.pwr.upStep, upStep := 0, pufails := s.pwr.pufails + 1 } }

/-- Every way the main domains lose power ends in WATCH (OFF without auxiliary power) with T0, T1 and T2 empty, objects and commands gone,
and the stored bytes of flash kept; the cause is recorded. -/
def Obligations.LosingPowerKeepsOnlyFlash : Prop :=
  (∀ (s : State) (c : Nat), s.pwr.downCause = some c → s.pwr.wakeNoted = false →
    ∃ t, exec .powerDownDone s = .next t ∧ t = s.darken.lastDown c (if c = 4 then s.pwr.downStep else 0) ∧ t.pwr.st = .watch) ∧
  (∀ s : State, s.mainOn = true →
    (∃ t, exec .inputFail s = .next t ∧ t.pwr.st = .watch ∧ t.pwr.inputGood = false ∧ t.mm.objs = [] ∧ t.cmd.live = [] ∧
      ∀ a, t.byte a = if 0x400000000000 ≤ a ∧ a < 0x7C0000000000 then s.byte a else 0) ∧
    (∃ t, exec .thermalTrip s = .next t ∧ t.pwr.st = .watch ∧ t.mm.objs = [] ∧ t.cmd.live = [] ∧
      ∀ a, t.byte a = if 0x400000000000 ≤ a ∧ a < 0x7C0000000000 then s.byte a else 0)) ∧
  ∀ s : State, ∃ t, exec .auxLoss s = .next t ∧ t.pwr.st = .off ∧ t.pwr.rdy = 0 ∧ t.mm.objs = [] ∧ t.cmd.live = [] ∧
    ∀ a, t.byte a = if 0x400000000000 ≤ a ∧ a < 0x7C0000000000 then s.byte a else 0

/-- The supplies and pins of the watch domain: auxiliary power brings WATCH, a good input starts a power-up with AUTO_ON, an I3C
transaction with MGMT_WAKE, RESET_N and PERST_N are followed, a release of RESET_N starts the power-up that waited, and a brownout
is recorded. -/
def Obligations.WatchDomainInputs : Prop :=
  (∀ s : State, s.pwr.st = .off → exec .auxReturn s = .next { s with pwr := { s.pwr with st := .watch } }) ∧
  (∀ s : State, s.pwr.st = .watch → s.pwr.upStep = 0 → s.pwr.downCause = none → s.pwr.resetHeld = false → s.pwr.pufails < 3 →
    bit (s.rd Reg.pwrEvents) 0 = false → bit (s.rd Reg.pwrWatchCfg) 8 = true →
    exec .inputGood s = .next ({ s with pwr := { s.pwr with inputGood := true } } : State).startUp) ∧
  (∀ s : State, s.pwr.st = .watch → s.pwr.upStep = 0 → s.pwr.downCause = none → s.pwr.resetHeld = false →
    bit (s.rd Reg.pwrWatchCfg) 9 = true → exec .i3cAddressMatch s = .next s.startUp) ∧
  (∀ s : State, s.powered = true → exec .resetPinAssert s =
    .next { s with pwr := { s.pwr with resetHeld := true, downCause := some 6, wakeNoted := true } }) ∧
  (∀ s : State, s.powered = false → exec .resetPinAssert s = .next { s with pwr := { s.pwr with resetHeld := true } }) ∧
  (∀ s : State, s.pwr.resetHeld = true → s.pwr.wakeNoted = true → s.pwr.st = .watch → s.pwr.downCause = none → s.pwr.upStep = 0 →
    exec .resetPinRelease s = .next ({ s with pwr := { s.pwr with resetHeld := false } } : State).startUp) ∧
  (∀ s : State, s.fix.bridge = false →
    exec .perstAssert s = .next { s with pwr := { s.pwr with perst := true } } ∧
    exec .perstRelease s = .next { s with pwr := { s.pwr with perst := false } }) ∧
  ∀ s : State, s.pwr.st = .watch → s.pwr.fullMode = false → s.pwr.inputGood = false → exec .brownout s = .next s.brownRecord

/-- The wake pins: a change of an enabled pin waits its debounce time, an accepted active level fires a wake once and is masked, a glitch is
counted, a held wake fires 10 ms after the last, a level held too long is stuck, and REARM clears a stuck pin (R390). -/
def Obligations.WakePinsDebounceAndFire : Prop :=
  (∀ (s : State) (k : Nat) (p : PinSt) (level : Bool), s.pwr.pins[k]? = some p → s.pwr.st ≠ .off →
    (level == bit (s.rd (Reg.pwrWakeCfg k)) 1) ≠ p.active → bit (s.rd (Reg.pwrWakeCfg k)) 0 = true →
    (level == bit (s.rd (Reg.pwrWakeCfg k)) 1) ≠ p.accepted →
    exec (.wakePinChange k level) s = .next (s.updPin k (fun p =>
      { p with active := level == bit (s.rd (Reg.pwrWakeCfg k)) 1, changedAt := some s.clock }))) ∧
  (∀ (s u : State) (k t : Nat) (p : PinSt), s.pwr.pins[k]? = some p → p.changedAt = some t → s.pwr.st ≠ .off → p.active = true →
    p.masked = false → p.stuck = false → s.pwr.lastWake = none → u = s.elapseClock (t + s.debounceNs k) →
    exec (.debounceExpire k) s = .next (u.updPin k (fun p =>
      { p with accepted := true, changedAt := none, masked := true, acceptedAt := u.clock })).deliverWake) ∧
  (∀ (s : State) (w : Nat), s.pwr.heldWake = true → s.pwr.lastWake = some w →
    exec .wakeHoldExpire s = .next (s.elapseClock (w + 10000000)).deliverWake) ∧
  (∀ (s : State) (k : Nat) (p : PinSt), s.pwr.pins[k]? = some p → s.pwr.st ≠ .off → p.accepted = true → p.active = true →
    p.stuck = false → ∃ t, exec (.stuck k) s = .next t ∧ (t.pwr.pins[k]?).map (fun q => q.stuck && q.masked) = some true ∧
      ∀ x, t.byte x = s.byte x) ∧
  ∀ (s : State) (k : Nat) (p : PinSt) (data : Nat), s.powered = true → k < 4 → bit data k = true → s.pwr.pins[k]? = some p →
    p.stuck = true → p.accepted = false →
    ∃ t, exec (.rearm .mgmt data) s = .next t ∧ t.pwr.pins[k]? = some { p with stuck := false, masked := false, rearm := false }

/-- The cap, the samples and the valve: a power sample passes 10 µs and shows the voltage and mean power, a cap tick lowers n_cap above the
cap and raises it after a millisecond below 98 % of it, within 8 to 32, a valve tick opens the valve fully while a sensor is out of range,
and a watch sample shows the coolant and wakes on signal detect. -/
def Obligations.PowerAndCoolingLoops : Prop :=
  (∀ (s u : State) (r : PowerReading), s.powered = true → r.centiVolt ≤ 7200 → u = s.elapseTo (s.now + 10000) →
    exec (.powerSample r) s = .next (({ u with pwr := { u.pwr with
      samples := (s.pwr.samples ++ [r.watt]).drop (s.pwr.samples.length + 1 - 100) } } : State).wr Reg.pwrInput
        (r.centiVolt % 65536 + ((s.pwr.samples ++ [r.watt]).drop (s.pwr.samples.length + 1 - 100)).sum /
          ((s.pwr.samples ++ [r.watt]).drop (s.pwr.samples.length + 1 - 100)).length % 65536 * 65536))) ∧
  (∀ s : State, s.powered = true → s.pwr.st = .cap → s.aboveCap = true → s.belowCap = false →
    ∃ t, exec .capTick s = .next t ∧ t.pwr.nCap = max 8 (s.pwr.nCap - 1) ∧ (s.pwr.nCap ≤ 32 → t.pwr.st = .cap) ∧ ∀ x, t.byte x = s.byte x) ∧
  (∀ s : State, s.powered = true → s.pwr.st = .cap → s.aboveCap = false → s.belowCap = true → s.pwr.capBelow = 9 → s.pwr.nCap = 31 →
    ∃ t, exec .capTick s = .next t ∧ t.pwr.nCap = 32 ∧ t.pwr.st = .run ∧ t.pwr.capBelow = 0 ∧ ∀ x, t.byte x = s.byte x) ∧
  (∀ (s : State) (r : CoolReading), s.powered = true → r.inRange = false →
    ∃ t, exec (.valveTick r) s = .next t ∧ t.pwr.valve = 20000 ∧ ∀ x, t.byte x = s.byte x) ∧
  ∀ (s u : State) (signal : Nat) (r : CoolReading), s.pwr.st = .watch → s.pwr.upStep = 0 →
    u = (s.elapseClock (s.clock + bits (s.rd Reg.pwrWatchCfg) 7 0 * 1000000)).coolRegs r →
    signal &&& bits (s.rd Reg.pwrWatchCfg) 23 16 = 0 → exec (.watchSample signal r) s = .next u

/-- HOLD and WATCH: a coolant condition (a low flow only with the valve fully open) and a request both enter HOLD, which ends when the last
condition has cleared and the request is withdrawn, into CAP, counted, while n_cap is below 32; ENTER_WATCH quiesces, and the orderly power-down begins when nothing runs. -/
def Obligations.HoldAndWatchRequests : Prop :=
  (∀ (s : State) (c : CoolCond), s.pwr.st = .run ∨ s.pwr.st = .cap → (c = .flowLow → 20000 ≤ s.pwr.valve) →
    ∃ t, exec (.coolHoldEnter c) s = .next t ∧ t.pwr.st = .hold ∧ c ∈ t.pwr.conds ∧ ∀ x, t.byte x = s.byte x) ∧
  (∀ (s : State) (c : CoolCond), s.pwr.st = .hold → s.pwr.conds = [c] → s.pwr.holdReq = false → s.pwr.nCap = 32 →
    exec (.coolHoldClear c) s = .next { s with pwr := { s.pwr with conds := [], st := .run } }) ∧
  (∀ (s : State) (p : Path), p ≠ .host → s.pwr.upStep = 0 → s.powered = true → s.pwr.st = .run →
    exec (.enterHold p) s = .next (({ s with pwr := { s.pwr with holdReq := true, st := .hold } } : State).count Reg.pwrHoldCnt)) ∧
  (∀ (s : State) (p : Path), p ≠ .host → s.pwr.upStep = 0 → s.powered = true → s.pwr.st = .hold → s.pwr.conds = [] → s.pwr.nCap < 32 →
    exec (.leaveHold p) s = .next (({ s with pwr := { s.pwr with holdReq := false, st := .cap } } : State).count Reg.pwrCapCnt)) ∧
  (∀ (s : State) (p : Path), p ≠ .host → s.pwr.upStep = 0 → s.powered = true → s.pwr.st = .run →
    exec (.enterWatch p false) s = .next { s with pwr := { s.pwr with st := .quiesce } }) ∧
  (∀ (s : State) (f : Bool), s.powered = true → exec (.enterHold .host) s = .next (s.count Reg.mgmtHostDenyCnt) ∧
    exec (.leaveHold .host) s = .next (s.count Reg.mgmtHostDenyCnt) ∧
    exec (.enterWatch .host f) s = .next (s.count Reg.mgmtHostDenyCnt)) ∧
  ∀ s : State, s.pwr.st = .quiesce → s.powered = true → s.cmd.live = [] →
    s.sch.funcs.all (fun f => match f with | .resetting _ _ => false | _ => true) = true →
    exec .quiesceDone s = .next { s with pwr := { s.pwr with downCause := some 1 } }

/-! ## Arithmetic, lagoon atomics and the strait fabric -/

/-- The life of a matrix operation: one with valid operands and a readout inside its context's islet memory joins its islet's operations,
any other completes with ARITH_PARAM, a pass whose check fails drops the operation, counts and asks for the islet's fence, a pass without overflow moves the
operation on by one pass, and the end writes the tile's readout at the operation's output offset and the vector-unit writes that its
locks held, and nothing else. -/
def Obligations.MatrixOperationsRunByPasses : Prop :=
  (∀ (s : State) (i : Nat) (op : MatOp), s.powered = true → s.isletFenced i = false → matOpOk op = true → s.readoutOk i op = true →
    (s.islet i).halt = false → (s.islet i).ops = [] →
    exec (.matrixOpIssue i op) s = .next (s.putIslet { (s.islet i).forCtx (s.isletCtx i) with ops := [
      { op := op, pass := 0, attempt := 0, mode := accMode op.acc, promoted := false, winRange := false, gens := colGens op.seed
        ovf := false, nanSeen := false, finished := false }] })) ∧
  (∀ (s : State) (i : Nat) (op : MatOp), s.powered = true → s.isletFenced i = false → (matOpOk op && s.readoutOk i op) = false →
    exec (.matrixOpIssue i op) s = .next (s.complete { func := op.func, tag := op.tag } Status.arithParam [])) ∧
  (∀ (s : State) (i k : Nat) (r : MatRun), runningOp (s.islet i).ops = some k → (s.islet i).ops[k]? = some r →
    (s.islet i).halted = false →
    exec (.matrixPassEnd i false) s = .next ((s.putIslet ((s.islet i).clearScale r)).checkMismatch i k)) ∧
  (∀ (s : State) (i k : Nat) (r : MatRun), runningOp (s.islet i).ops = some k → (s.islet i).ops[k]? = some r → r.mode = .full →
    (s.islet i).halted = false →
    ∃ t q, exec (.matrixPassEnd i true) s = .next t ∧ (t.islet i).ops[k]? = some q ∧ q.pass = r.pass + 1 ∧ q.op = r.op ∧
      (q.finished = true ↔ passCount r.op .full ≤ r.pass + 1) ∧ (∀ a, t.rd a = s.rd a) ∧ ∀ x, t.byte x = s.byte x) ∧
  ∀ (s : State) (i k : Nat) (r : MatRun), finishedOp (s.islet i).ops = some k → (s.islet i).ops[k]? = some r →
    ∃ t, exec (.matrixOpComplete i) s = .next t ∧ (t.islet i).ops = (s.islet i).ops.eraseIdx k ∧
      ∀ a, (a < t0Addr i r.op.outOff ∨ t0Addr i r.op.outOff + r.op.m * r.op.n * 8 + 4 ≤ a ∨ r.op.readout = .none) →
        (∀ w ∈ (s.islet i).vwaits, a < t0Addr i w.1 ∨ t0Addr i w.1 + w.2.length ≤ a) → t.byte a = s.byte a

/-- A vector operation of any kind runs: its result is its lanes', each rounded to nearest or by its own lane's generator. Across the 64
lanes a sum runs in six stages that add lane l + 2^(6-s) into lane l, with one rounding each, to nearest or by the generator of lane l
(log entry 62), and ends in lane 0; max and min follow the same tree and keep the lower lane on a tie (and on a NaN, log entry 62). The registers other than the
destination stay, and so does every byte outside the 256 that the operation may store. -/
def Obligations.LaneReductionsFollowTheTree : Prop :=
  (∀ (s : State) (i : Nat) (v : VecOp), s.powered = true → s.isletFenced i = false →
    ∃ t, exec (.vectorOp i v) s = .next t ∧
      (v.kind ∉ [.reduceSum, .reduceMax, .reduceMin] → (t.islet i).vreg v.d = (List.range 64).map (fun l =>
        laneOp v.kind (((s.islet i).vreg v.a).getD l 0) (((s.islet i).vreg v.b).getD l 0) (((s.islet i).vreg v.c).getD l 0)
          (match v.rnd with
            | .rne => .near
            | .sr => .stoch (draw16 (genState v.seed l)).1))) ∧
      (∀ d, d ≠ v.d → (t.islet i).vreg d = (s.islet i).vreg d) ∧ (t.islet i).ops = (s.islet i).ops ∧
      (∀ a, a ≠ Reg.arithNanCnt (isletDie i) → a ≠ Reg.arithLockWaitCnt (isletDie i) → t.rd a = s.rd a) ∧
      ∀ x, (∀ off, v.store = some off → x < t0Addr i off ∨ t0Addr i off + 256 ≤ x) → t.byte x = s.byte x) ∧
  (∀ (s : State) (i : Nat) (v : VecOp), s.powered = true → s.isletFenced i = false → ((s.islet i).vreg v.a).length = 64 →
    v.kind = .reduceSum → v.rnd = .rne → ∃ t, exec (.vectorOp i v) s = .next t ∧
      ((t.islet i).vreg v.d).getD 0 0 = laneAt fAdd ((s.islet i).vreg v.a) 6 0 ∧
      (∀ d, d ≠ v.d → (t.islet i).vreg d = (s.islet i).vreg d) ∧
      ∀ x, (∀ off, v.store = some off → x < t0Addr i off ∨ t0Addr i off + 256 ≤ x) → t.byte x = s.byte x) ∧
  (∀ (s : State) (i : Nat) (v : VecOp), s.powered = true → s.isletFenced i = false → ((s.islet i).vreg v.a).length = 64 →
    v.kind = .reduceSum → v.rnd = .sr → ∃ t, exec (.vectorOp i v) s = .next t ∧
      ((t.islet i).vreg v.d).getD 0 0 = (laneSumSr ((s.islet i).vreg v.a) ((List.range 64).map (genState v.seed)) 6 0).1) ∧
  (∀ (s : State) (i : Nat) (v : VecOp), s.powered = true → s.isletFenced i = false → ((s.islet i).vreg v.a).length = 64 →
    v.kind = .reduceMax → ∃ t, exec (.vectorOp i v) s = .next t ∧
      ((t.islet i).vreg v.d).getD 0 0 = laneAt (fun p q => if fLt p q then q else p) ((s.islet i).vreg v.a) 6 0) ∧
  (∀ (s : State) (i : Nat) (v : VecOp), s.powered = true → s.isletFenced i = false → ((s.islet i).vreg v.a).length = 64 →
    v.kind = .reduceMin → ∃ t, exec (.vectorOp i v) s = .next t ∧
      ((t.islet i).vreg v.d).getD 0 0 = laneAt (fun p q => if fLt q p then q else p) ((s.islet i).vreg v.a) 6 0) ∧
  ∀ (s : State) (i l : Nat) (v : VecOp), s.powered = true → s.isletFenced i = false → l < 64 → v.kind = .iadd →
    ∃ t, exec (.vectorOp i v) s = .next t ∧
      ((t.islet i).vreg v.d).getD l 0 = (((s.islet i).vreg v.a).getD l 0 + ((s.islet i).vreg v.b).getD l 0) % 2 ^ 32

/-- Compare-and-swap acts on 32 or 64 bits: it compares bit patterns, returns the old contents, and writes the new value only when the
old contents equal the expected value; no other byte changes. -/
def Obligations.CompareAndSwapComparesBits : Prop :=
  ∀ (s : State) (r : AtomicReq) (wide : Bool) (expected new n : Nat), n = (if wide then 8 else 4) → s.powered = true →
    s.atomicRefusal r n = none → s.flt.islands.contains ((r.addr - 0x100000000000) / 2 ^ 21) = false → Memory.wf s.mem = true →
    ∃ t, exec (.compareAndSwap r wide expected new) s = .next t ∧
      (t.outbox = s.outbox ++ [.atomicOld r.islet (leNat (s.bytes r.addr n))]) ∧
      (leNat (s.bytes r.addr n) = expected → leNat (t.bytes r.addr n) = new % 2 ^ (8 * n)) ∧
      (leNat (s.bytes r.addr n) ≠ expected → ∀ a, t.byte a = s.byte a) ∧
      ∀ a, a < r.addr ∨ r.addr + n ≤ a → t.byte a = s.byte a

/-- The other lagoon atomics, of every type, return the old contents and write, at the address alone, the wrapped sum (for FP32 the sum
rounded to nearest), or the larger (smaller) value with its index, the lower index winning on equal values; an atomic outside T1 or
misaligned stores nothing and ends its task. -/
def Obligations.AtomicsReturnTheOldContents : Prop :=
  (∀ (s : State) (r : AtomicReq) (ty : AddTy) (x n : Nat), n = addBytes ty → s.powered = true → s.atomicRefusal r n = none →
    s.flt.islands.contains ((r.addr - 0x100000000000) / 2 ^ 21) = false → Memory.wf s.mem = true →
    ∃ old t, old = leNat (s.bytes r.addr n) ∧ exec (.atomicAdd r ty x) s = .next t ∧
      leNat (t.bytes r.addr n) = (match ty with
        | .int32 => (old + x) % 2 ^ 32
        | .int64 => (old + x) % 2 ^ 64
        | .fp32 => fAdd old (x % 2 ^ 32) % 2 ^ 32) ∧
      (t.outbox = s.outbox ++ [.atomicOld r.islet old]) ∧
      ∀ a, a < r.addr ∨ r.addr + n ≤ a → t.byte a = s.byte a) ∧
  (∀ (s : State) (r : AtomicReq) (ty : MaxTy) (v idx : Nat), s.powered = true → s.atomicRefusal r 8 = none →
    s.flt.islands.contains ((r.addr - 0x100000000000) / 2 ^ 21) = false → Memory.wf s.mem = true →
    ∃ old t u, old = leNat (s.bytes r.addr 8) ∧ exec (.atomicMax r ty v idx) s = .next t ∧ exec (.atomicMin r ty v idx) s = .next u ∧
      leNat (t.bytes r.addr 8) = maxWord ty true v idx old ∧ leNat (u.bytes r.addr 8) = maxWord ty false v idx old ∧
      (t.outbox = s.outbox ++ [.atomicOld r.islet old]) ∧ (u.outbox = s.outbox ++ [.atomicOld r.islet old]) ∧
      ∀ a, a < r.addr ∨ r.addr + 8 ≤ a → t.byte a = s.byte a ∧ u.byte a = s.byte a) ∧
  (∀ (s : State) (r : AtomicReq) (v idx : Nat), s.powered = true → s.atomicRefusal r 8 = none →
    s.flt.islands.contains ((r.addr - 0x100000000000) / 2 ^ 21) = false → Memory.wf s.mem = true →
    v < 2 ^ 32 → idx < 2 ^ 32 → ∃ old t u, old = leNat (s.bytes r.addr 8) ∧ exec (.atomicMax r .uint32 v idx) s = .next t ∧
      exec (.atomicMin r .uint32 v idx) s = .next u ∧
      leNat (t.bytes r.addr 8) = (if old / 2 ^ 32 < v ∨ (old / 2 ^ 32 = v ∧ idx < old % 2 ^ 32) then v * 2 ^ 32 + idx else old) ∧
      leNat (u.bytes r.addr 8) = (if v < old / 2 ^ 32 ∨ (old / 2 ^ 32 = v ∧ idx < old % 2 ^ 32) then v * 2 ^ 32 + idx else old) ∧
      ∀ a, a < r.addr ∨ r.addr + 8 ≤ a → t.byte a = s.byte a ∧ u.byte a = s.byte a) ∧
  (∀ (s : State) (r : AtomicReq) (ty : AddTy) (x st : Nat), s.powered = true → s.atomicRefusal r (addBytes ty) = some st →
    ∃ t, exec (.atomicAdd r ty x) s = .next t ∧ ∀ a, t.byte a = s.byte a) ∧
  ∀ (s : State) (r : AtomicReq) (ty : MaxTy) (v idx st : Nat), s.powered = true → s.atomicRefusal r 8 = some st →
    ∃ t u, exec (.atomicMax r ty v idx) s = .next t ∧ exec (.atomicMin r ty v idx) s = .next u ∧
      ∀ a, t.byte a = s.byte a ∧ u.byte a = s.byte a

/-- The debug windows: DBG_HALT halts an islet as soon as no operation of it has begun and lets it go again, and DBG_DATA answers the selected
word of a halted islet where the unlocked scope permits it, else 0. -/
def Obligations.DebugHaltAndData : Prop :=
  (∀ (s : State) (die data : Nat), s.powered = true → bit data 0 = true →
    ∃ t, exec (.dbgHalt .core die data) s = .next t ∧ (t.islet (s.dbgIslet die)).halt = true ∧
      (t.islet (s.dbgIslet die)).halted = ((s.islet (s.dbgIslet die)).halted || !(s.islet (s.dbgIslet die)).ops.any MatRun.begun) ∧
      ∀ x, t.byte x = s.byte x) ∧
  (∀ (s : State) (die data : Nat), s.powered = true → bit data 0 = false →
    ∃ t, exec (.dbgHalt .core die data) s = .next t ∧ (t.islet (s.dbgIslet die)).halt = false ∧
      (t.islet (s.dbgIslet die)).halted = false) ∧
  ∀ (s : State) (p : Path) (die word : Nat), s.powered = true →
    ∃ t v, exec (.dbgDataRead p die word) s = .next t ∧ t.outbox = s.outbox ++ [.regAnswer p (Reg.arithDbgData die word) false v false] ∧
      (bit s.sec.scope 0 = false ∨ (s.islet (s.dbgIslet die)).halted = false → v = 0) ∧
      (bit s.sec.scope 0 = true → (s.islet (s.dbgIslet die)).halted = true →
        v = dbgWord (s.islet (s.dbgIslet die)) (bits (s.rd (Reg.arithDbgSel die)) 12 11) (bits (s.rd (Reg.arithDbgSel die)) 17 13) word) ∧
      ∀ x, t.byte x = s.byte x

/-- A strait moves the granted transfer one hop, a new transfer of the island's own having joined its input first: at its destination it
arrives, on the way it joins the next router's input, one whose check fails stays, counts, and counts toward the cut, and a full receiver
holds it where it is, at the destination too (how much a receiver holds is log entry 61's). -/
def Obligations.StraitsMoveTransfers : Prop :=
  (∀ (s u : State) (here i nb : Nat) (out : Dir) (fresh : Option Transfer) (tr : Transfer), s.powered = true →
    u = s.takeFresh here fresh → neighbour here out = some nb → (u.strait here out).cut = false → u.grant here out = some (i, tr) →
    u.inputFull nb (Dir.opp out) = false →
    (∃ t, exec (.straitTransfer here out fresh true) s = .next t ∧
      (t.ar.arrived = if nb = tr.dst then u.ar.arrived ++ [tr] else u.ar.arrived) ∧
      (nb ≠ tr.dst → t.inQueue nb (some (Dir.opp out)) = u.inQueue nb (some (Dir.opp out)) ++ [tr]) ∧
      (t.strait here out).fails = 0 ∧ (t.strait here out).last = i ∧ (∀ a, t.rd a = s.rd a) ∧ ∀ x, t.byte x = s.byte x) ∧
    ((u.strait here out).fails < 15 → exec (.straitTransfer here out fresh false) s = .next ((u.count Reg.faultXferCrcCnt).putStrait
      { u.strait here out with fails := (u.strait here out).fails + 1 }))) ∧
  (∀ (s u : State) (here i nb : Nat) (out : Dir) (fresh : Option Transfer) (tr : Transfer) (ok : Bool), s.powered = true →
    u = s.takeFresh here fresh → neighbour here out = some nb → (u.strait here out).cut = false → u.grant here out = some (i, tr) →
    u.inputFull nb (Dir.opp out) = true → exec (.straitTransfer here out fresh ok) s = .next u) ∧
  ∀ (s u : State) (here : Nat) (out : Dir) (fresh : Option Transfer) (ok : Bool), s.powered = true → u = s.takeFresh here fresh →
    (neighbour here out = none ∨ (u.strait here out).cut = true ∨ u.grant here out = none) →
    exec (.straitTransfer here out fresh ok) s = .next u

/-! ## Indexes, tides, queries and mutations -/

/-- Loading, saving and unloading: a stamped INDEX_LOAD that passes its checks makes a loading index, an image that checks is copied in
and one that does not ends the load and frees the number, the centroid copies take their lagoon share and the index an unfenced
ingress island, a stamped save queues the image for its target object and completes once all of
it is durable, and an unload frees the index and its share once its last command has completed. -/
def Obligations.IndexesLoadSaveAndUnload : Prop :=
  (∀ (s t : State) (h : CmdHdr) (b : Body) (l : Live) (x : Index), s.stampsAtOnce noCheck h b l t → isIndexLoad h b = true →
    x = t.loading h.ref l →
    (∀ st, t.loadCheck x = some st → exec (.indexLoad h b) s = .next (t.loadFail h.ref st 0)) ∧
    (t.loadCheck x = none → ∃ u, exec (.indexLoad h b) s = .next u ∧
      u.index? x.no = some { x with due := x.centUnits, imgDone := decide (x.img = 0) } ∧
      (∀ n, n ≠ x.no → u.index? n = t.index? n) ∧ (x.img ≠ 0 → ∀ a, u.byte a = t.byte a))) ∧
  (∀ (s t : State) (h : CmdHdr) (b : Body) (l : Live) (x : Index) (o : Obj), s.stampsAtOnce chkIndexSave h b l t →
    isIndexSave h b = true → t.heldIndex l.h.func (fld l.body 5 0) = some x → t.obj? l.h.func (fld l.body 63 32) = some o →
    t.imageFits x o = true →
    ∃ u, exec (.indexSave h b) s = .next u ∧
      u.index? x.no = some { x with saves := x.saves ++ [{ r := h.ref, target := fld l.body 63 32 }] } ∧
      (∀ n, n ≠ x.no → u.index? n = t.index? n) ∧ ∀ a, u.byte a = t.byte a) ∧
  (∀ (s t : State) (h : CmdHdr) (b : Body) (l : Live) (x : Index), s.stampsAtOnce chkIndexUnload h b l t → isIndexUnload h b = true →
    t.readyIndex l.h.func (fld l.body 5 0) = some x →
    ∃ u, exec (.indexUnload h b) s = .next u ∧ u.index? x.no = some { x with st := 3, unloadCmd := some h.ref }) ∧
  (∀ (s : State) (idx : Nat) (x : Index) (o : Obj), s.index? idx = some x → x.st = 1 → x.imgDone = false →
    s.obj? x.func x.img = some o →
    (s.objWaits o = true → exec (.indexImageCopied idx) s = .next s) ∧
    (∀ v, s.objWaits o = false → s.imageHeaderOk o 1 = true → x.loadCmd = none →
      v = (s.objTraffic x.func o false 0 o.size).copyImage x o → exec (.indexImageCopied idx) s = .next
        (if s.imageBad o = none ∧ v.tombBad x = false then v else if s.imageBad o = none then v.dropIndex idx else s.dropIndex idx))) ∧
  (∀ (s v : State) (idx : Nat) (x : Index) (o : Obj) (r : CmdRef), s.index? idx = some x → x.st = 1 → x.imgDone = false →
    x.loadCmd = some r → s.obj? x.func x.img = some o → s.objWaits o = false →
    v = (s.objTraffic x.func o false 0 o.size).copyImage x o →
    (s.imageHeaderOk o 1 = false →
      exec (.indexImageCopied idx) s = .next ((s.dropIndex idx).loadFail r Status.indexImageBad 0)) ∧
    (∀ ty, s.imageHeaderOk o 1 = true → s.imageBad o = some ty → ∃ t, exec (.indexImageCopied idx) s = .next t ∧
      t = (s.dropIndex idx).loadFail r Status.indexImageBad ty ∧ t.index? idx = none ∧ ∀ a, t.byte a = s.byte a) ∧
    (s.imageHeaderOk o 1 = true → s.imageBad o = none → v.tombBad x = true →
      exec (.indexImageCopied idx) s = .next ((v.dropIndex idx).loadFail r Status.indexParam 6)) ∧
    (s.imageHeaderOk o 1 = true → s.imageBad o = none → v.tombBad x = false →
      exec (.indexImageCopied idx) s = .next v ∧ (v.index? idx).map Index.imgDone = some true)) ∧
  (∀ (s : State) (idx : Nat) (x : Index) (r : CmdRef), s.index? idx = some x → x.st = 1 → x.imgDone = true → x.built = false →
    x.loadCmd = some r →
    ((s.takeShare (.index idx) (some x.centDie) x.centUnits).2 = true → ∃ t i, exec (.centroidCopyBuilt idx) s = .next t ∧ i < 512 ∧
      (s.islandsUp ≠ [] → i ∈ s.islandsUp) ∧ (∃ e ∈ t.mm.shares, e.owner = .index idx) ∧
      t.index? idx = some { x with
        built := true, due := 0, cents := (List.range x.nShoals).map (fun h => (s.centCopy x h).1), ingress := i }) ∧
    ((s.takeShare (.index idx) (some x.centDie) x.centUnits).2 = false → exec (.centroidCopyBuilt idx) s = .next
      (((s.takeShare (.index idx) (some x.centDie) x.centUnits).1.dropIndex idx).loadFail r Status.lagoonFull 0))) ∧
  (∀ (s : State) (idx : Nat) (x : Index) (v : SaveRun) (vs : List SaveRun) (o : Obj), s.index? idx = some x → x.saves = v :: vs →
    s.obj? x.func v.target = some o → s.fl.ready = true →
    (s.objUnwritten o = true → exec (.indexSaveDone idx) s = .next s) ∧
    (s.objUnwritten o = false → ∃ t, exec (.indexSaveDone idx) s = .next t ∧
      t = (s.updIndex idx (fun y => { y with saves := vs })).complete v.r Status.ok [] ∧
      t.index? idx = some { x with saves := vs } ∧ ∀ a, t.byte a = s.byte a)) ∧
  ∀ (s : State) (idx : Nat) (x : Index) (r : CmdRef), s.index? idx = some x → x.st = 3 → s.indexBusy idx = false →
    x.unloadCmd = some r →
    ∃ t, exec (.indexUnloadDone idx) s = .next t ∧ t = (s.dropIndex idx).complete r Status.ok [] ∧ t.index? idx = none ∧
      (∀ e ∈ t.mm.shares, e.owner ≠ .index idx) ∧ (∀ n, n ≠ idx → t.index? n = s.index? n) ∧ ∀ a, t.byte a = s.byte a

/-- Tides and epochs: a boundary takes the next number, or a higher one heard of, not before one period after the last, and sends a
marker down the stream of each ingress island; the marker passes and records where the tide's commands end; the island stamps its next
command, unless one of its queue that was delivered before it waits, with its arrival count and the command acts, while one that the check
now refuses completes unstamped; epoch marks raise the
number to follow, a device alone drops them, and lost alignment is reported once. -/
def Obligations.TidesNumberTheCommands : Prop :=
  (∀ (s : State), s.powered = true → s.cmd.ready = true →
    ∃ t, exec .tideBoundary s = .next t ∧ t.idx.epoch = max (s.idx.epoch + 1) s.idx.markHi ∧ t.idx.bno = s.idx.bno + 1 ∧
      t.idx.lastBoundary = s.idx.lastBoundary + s.idx.period ∧ s.idx.lastBoundary + s.idx.period ≤ t.now ∧
      ∀ m ∈ s.idx.marks, (m.island, Stream.mark t.idx.epoch t.idx.bno) ∈ t.cmd.deliver) ∧
  (∀ (s : State) (i n b : Nat), s.powered = true → s.streamHead i = some (.mark n b) →
    ∃ t, exec (.boundaryMarker i) s = .next t ∧ t.markOf i = (n, b) ∧ t.cmd.deliver.length + 1 = s.cmd.deliver.length ∧
      (∃ m ∈ t.idx.marks, m.island = i ∧ m.number = n ∧ m.bno = b ∧ m.stamp = mapGet 0 i s.cmd.counts) ∧
      (∀ j, j ≠ i → t.streamHead j = s.streamHead j) ∧ ∀ a, t.rd a = s.rd a) ∧
  (∀ (s t : State) (i : Nat) (r : CmdRef) (l0 l : Live), s.powered = true → s.streamHead i = some (.cmd r) →
    ((s.live? r).map s.stampWaits).getD false = false → (s.popStream i).live? r = some l0 →
    checkOf l0.h.opcode (s.popStream i).asReady l0.h l0.body = none →
    t = (s.popStream i).stamp r i → t.live? r = some l →
    exec (.ingressStamp i) s = .next (actOf l.h.opcode r l t) ∧ l.stamp = mapGet 0 i s.cmd.counts ∧ l.island = i ∧
      l.accepted = s.now ∧ l.body = l0.body ∧ l.h = l0.h) ∧
  (∀ (s : State) (i : Nat) (r : CmdRef), s.powered = true → s.streamHead i = some (.cmd r) →
    ((s.live? r).map s.stampWaits).getD false = true → exec (.ingressStamp i) s = .next s) ∧
  (∀ (s : State) (i st : Nat) (r : CmdRef) (l : Live) (b : Body), s.powered = true → s.streamHead i = some (.cmd r) →
    ((s.live? r).map s.stampWaits).getD false = false →
    (s.popStream i).live? r = some l → checkOf l.h.opcode (s.popStream i).asReady l.h l.body = some (st, b) →
    ∃ t, exec (.ingressStamp i) s = .next t ∧ t = (s.popStream i).complete r st b ∧ t.cmd.counts = s.cmd.counts) ∧
  (∀ (s : State) (src e : Nat), s.powered = true → s.alone = false → s.fix.bridge = false →
    s.zwx.follow = none ∨ s.zwx.follow = some src →
    ∃ t, exec (.epochMark src e) s = .next t ∧ t.idx.markHi = max s.idx.markHi e ∧ t.idx.lost = false ∧ t.idx.sinceMark = 0 ∧
      t.zwx.follow = some src ∧ t.zwx.conflict = s.zwx.conflict) ∧
  (∀ (s : State) (src f e : Nat), s.powered = true → s.alone = false → s.fix.bridge = false → s.zwx.follow = some f → f ≠ src →
    ∃ t, exec (.epochMark src e) s = .next t ∧ t.zwx.follow = some (min f src) ∧ t.zwx.conflict = true) ∧
  (∀ (s : State) (src e : Nat), s.powered = true → s.alone = true →
    exec (.epochMark src e) s = .next (s.count Reg.mutateEpochDropCnt)) ∧
  (∀ (s : State) (src e : Nat), s.powered = true → s.alone = false → s.fix.bridge = true → s.fix.ord ≤ src →
    exec (.epochMark src e) s =
      .next (({ s with zwx := { s.zwx with conflict := true } } : State).count Reg.mutateEpochDropCnt)) ∧
  (∀ (s : State) (src e : Nat), s.powered = true → s.alone = false → s.fix.bridge = true → s.zwx.follow = none → src ≠ s.fix.ord →
    exec (.epochReport src e) s = .next { s with idx := { s.idx with markHi := max s.idx.markHi e } }) ∧
  (∀ (s : State) (src e : Nat), s.powered = true →
    (s.alone = true ∨ s.fix.bridge = false ∨ s.zwx.follow.isSome = true ∨ src = s.fix.ord) →
    exec (.epochReport src e) s = .next (s.count Reg.mutateEpochDropCnt)) ∧
  (∀ (s : State), s.fix.bridge = false → s.idx.lost = false → s.idx.lostTides ≤ s.idx.sinceMark →
    ∃ t, exec .alignLost s = .next t ∧ t.idx.lost = true ∧
      t.rd Reg.mutateAlignLostCnt = (s.count Reg.mutateAlignLostCnt).rd Reg.mutateAlignLostCnt ∧ exec .alignLost t = .next t)

/-- A query's life: the check of SEARCH passed, it is delivered with the current epoch to its index's ingress island, where it waits to be
stamped (or it is held, for its context or its fence), and stamped it begins probe
selection with its vector and epoch; probe selection orders the shoals and binds the first round, a seal closes the sets of the tides
before, a sealed set takes a free island and is scanned, its candidates are reported to the queries, a filtered query short of k rows
widens, the lists merge, candidates are re-ranked, and the completion ends the query. A scan stores bytes in the tombstones and the ID
map of its index alone, and the steps from the seal to the re-rank store none. -/
def Obligations.QueriesRunToCompletion : Prop :=
  (∀ (s t : State) (h : CmdHdr) (b : Body), s.waitsForStamp chkSearch h b t → isSearch h b = true →
    exec (.search h b) s = .next t) ∧
  (∀ (s u : State) (h : CmdHdr) (b : Body) (l : Live), s.entersStream chkSearch h b u l → isSearch h b = true →
    ∃ t m, exec (.search h b) s = .next t ∧ t.cmd.deliver = u.cmd.deliver ++ [(u.ingressOf l, Stream.cmd h.ref)] ∧
      t.live? h.ref = some m ∧ m.stage = .delivered ∧ m.h = h ∧ m.body = l.body ∧ m.island = u.ingressOf l ∧ m.epoch = u.idx.epoch ∧
      t.idx = u.idx ∧ (∀ a, t.rd a = u.rd a) ∧ ∀ a, t.byte a = u.byte a) ∧
  (∀ (s t : State) (i : Nat) (r : CmdRef) (l0 l : Live) (x : Index), s.powered = true → s.streamHead i = some (.cmd r) →
    ((s.live? r).map s.stampWaits).getD false = false →
    (s.popStream i).live? r = some l0 → l0.h.opcode = Op.search → chkSearch (s.popStream i).asReady l0.h l0.body = none →
    t = (s.popStream i).stamp r i → t.live? r = some l → t.heldIndex l.h.func (fld l.body 5 0) = some x → t.query? r = none →
    ∃ u y, exec (.ingressStamp i) s = .next u ∧ u.query? r = some y ∧ y.idx = x.no ∧ y.st = .probing ∧ y.epoch = l.epoch ∧
      y.vec = vecF32 (fld l.body 7 6) x.dims (l.body.drop 32) ∧ y.rounds = 0 ∧ y.lists = [] ∧ ∀ a, u.byte a = s.byte a) ∧
  (∀ (s : State) (q : CmdRef) (y : Query) (x : Index), s.query? q = some y → y.st = .probing → s.index? y.idx = some x →
    ∃ t z, exec (.probeSelectionDone q) s = .next t ∧ t.query? q = some z ∧ z.st = .scanning ∧
      z.order.length = min x.probeMax x.nShoals ∧ (∀ e ∈ z.order, e.1 < x.nShoals) ∧ (z.order.map Prod.fst).Nodup ∧
      ∀ a, t.byte a = s.byte a) ∧
  (∀ (s : State) (i : Nat) (x : Index), s.index? i = some x → x.sealNo < s.idx.bno → 2 ≤ x.st → s.probesDone i = true →
    ∃ t, exec (.setSeal i) s = .next t ∧ (t.index? i).map Index.sealNo = some s.idx.bno ∧
      (∀ m ∈ t.idx.banks, m.idx = i → m.st = .gather → s.idx.bno < m.target) ∧ ∀ a, t.byte a = s.byte a) ∧
  (∀ (s : State) (die i : Nat) (k : Bank), (s.sealedOrder die).find? (fun k => (s.bankIsland k).isSome) = some k →
    s.bankIsland k = some i →
    (s.idx.bno ≤ k.target → exec (.setScanStart die) s = .next (({ s with idx := { s.idx with
      banks := updWhere (fun y => y == k) (fun y => { y with
        st := .scan, island := i, kib := bits (s.rd (Reg.selectListCfg (i / 128))) 10 0, late := k.late }) s.idx.banks } } : State).scanTasks
          k i)) ∧
    ∃ t m, exec (.setScanStart die) s = .next t ∧ m ∈ t.idx.banks ∧ m.st = .scan ∧ m.island = i ∧ m.idx = k.idx ∧ m.shoal = k.shoal ∧
      m.qs = k.qs ∧ m.rows = k.rows ∧ ∀ a, t.byte a = s.byte a) ∧
  (∀ (s : State) (i : Nat) (bad : List Nat) (k : Bank) (x : Index),
    s.idx.banks.find? (fun k => k.st == .scan && k.island == i) = some k → s.index? k.idx = some x →
    ∃ t m, exec (.setScanDone i bad) s = .next t ∧ m ∈ t.idx.banks ∧ m.st = .report ∧ m.island = i ∧ m.idx = k.idx ∧
      m.shoal = k.shoal ∧ m.qs.map SetQ.r = k.qs.map SetQ.r ∧
      ∀ a, (∀ o, (s.obj? x.func x.hTomb = some o ∨ s.obj? x.func x.hMap = some o) → ∀ n, a ∉ s.objCells o n) → t.byte a = s.byte a) ∧
  (∀ (s : State) (i : Nat) (k : Bank) (x : Index),
    s.idx.banks.find? (fun k => k.st == .report && k.island == i) = some k → s.index? k.idx = some x →
    ∃ t, exec (.setReportDone i) s = .next t ∧ k ∉ t.idx.banks ∧
      (∀ p y, k.qs = [p] → p.out = false → s.query? p.r = some y → y.ord = p.ord → ∃ z, t.query? p.r = some z ∧ z.probesDone = y.probesDone + 1) ∧
      ∀ a, t.byte a = s.byte a) ∧
  (∀ (s : State) (q : CmdRef) (y : Query) (x : Index), s.query? q = some y → y.st = .scanning → y.nBound = 0 → y.waiting = [] →
    s.index? y.idx = some x →
    (((searchF1 (s.qBody q) = none ∧ searchF2 (s.qBody q) = none) ∨ searchK (s.qBody q) ≤ y.pass ∨ y.order.length ≤ y.pos ∨ 2 ≤ y.level) →
      ∃ t z, exec (.queryRoundMerged q) s = .next t ∧ t.query? q = some z ∧ z.st = .merged ∧ z.lists = [] ∧
        z.merged = (mergeEnts (rankF x.small) (searchC x (s.qBody q) + 1) (y.lists.flatMap (fun e => e.2))).1 ∧
        ∀ a, t.byte a = s.byte a) ∧
    ((searchF1 (s.qBody q) ≠ none ∨ searchF2 (s.qBody q) ≠ none) → y.pass < searchK (s.qBody q) → y.pos < y.order.length → y.level < 2 →
      ∃ t z, exec (.queryRoundMerged q) s = .next t ∧ t.query? q = some z ∧ z.st = .scanning ∧ z.rounds = y.rounds + 1 ∧
        z.lists = y.lists ∧ ∀ a, t.byte a = s.byte a)) ∧
  (∀ (s : State) (q : CmdRef) (un : List Nat) (y : Query) (x : Index), s.query? q = some y → y.st = .merged →
    s.index? y.idx = some x → s.reranks x y = true →
    ∃ t z, exec (.rerankDone q un) s = .next t ∧ t.query? q = some z ∧ z.st = .final ∧
      z.result.length = min (searchK (s.qBody q)) (min (resolveRerank x (s.qBody q)) y.merged.length) ∧ ∀ a, t.byte a = s.byte a) ∧
  (∀ (s : State) (q : CmdRef) (y : Query) (x : Index), s.query? q = some y → s.index? y.idx = some x →
    (y.st = .final ∨ (y.st = .merged ∧ s.reranks x y = false)) →
    ∃ t, exec (.searchComplete q) s = .next t ∧ t.query? q = none ∧ t.live? q = none ∧ ∃ os, t.outbox = s.outbox ++ os ∧
      (s.live? q ≠ none → os ≠ []))

/-- Mutations and compaction: a MUTATE or INDEX_COMPACT that passed its check is delivered with the current epoch to its index's ingress
island, where it waits to be stamped (or it is held); stamped, a MUTATE waits to be staged and an INDEX_COMPACT makes each named shoal a
candidate; staging answers every record of the oldest unstaged mutation in order, a refused one with no place and no change; and a stack
with no pass starts its best candidate and marks that shoal alone. -/
def Obligations.MutationsStageAndPassesStart : Prop :=
  (∀ (s t : State) (h : CmdHdr) (b : Body), s.waitsForStamp chkMutate h b t → isMutate h b = true →
    exec (.mutate h b) s = .next t) ∧
  (∀ (s t : State) (h : CmdHdr) (b : Body), s.waitsForStamp chkIndexCompact h b t → isIndexCompact h b = true →
    exec (.indexCompact h b) s = .next t) ∧
  (∀ (s u : State) (h : CmdHdr) (b : Body) (l : Live) (i : Instr),
    (i = .mutate h b ∧ isMutate h b = true ∧ s.entersStream chkMutate h b u l) ∨
      (i = .indexCompact h b ∧ isIndexCompact h b = true ∧ s.entersStream chkIndexCompact h b u l) →
    ∃ t m, exec i s = .next t ∧ t.cmd.deliver = u.cmd.deliver ++ [(u.ingressOf l, Stream.cmd h.ref)] ∧
      t.live? h.ref = some m ∧ m.stage = .delivered ∧ m.h = h ∧ m.body = l.body ∧ m.island = u.ingressOf l ∧ m.epoch = u.idx.epoch ∧
      t.idx = u.idx ∧ (∀ a, t.rd a = u.rd a) ∧ ∀ a, t.byte a = u.byte a) ∧
  (∀ (s t : State) (i : Nat) (r : CmdRef) (l0 l : Live) (x : Index), s.powered = true → s.streamHead i = some (.cmd r) →
    ((s.live? r).map s.stampWaits).getD false = false →
    (s.popStream i).live? r = some l0 → checkOf l0.h.opcode (s.popStream i).asReady l0.h l0.body = none →
    t = (s.popStream i).stamp r i → t.live? r = some l → t.heldIndex l.h.func (fld l.body 5 0) = some x →
    (l0.h.opcode = Op.mutate → ∃ u m, exec (.ingressStamp i) s = .next u ∧ u.idx.staged = s.idx.staged ++ [m] ∧ m.r = r ∧
      m.idx = x.no ∧ m.commitAt = fld l.body 127 64 ∧ m.count = fld l.body 27 16 + 1 ∧ m.recs = none ∧ ∀ a, u.byte a = s.byte a) ∧
    (l0.h.opcode = Op.indexCompact → ∃ u, exec (.ingressStamp i) s = .next u ∧
      (∀ k ≤ fld l.body 83 64, ∃ p ∈ u.idx.passes, p.idx = x.no ∧ p.shoal = fld l.body 51 32 + k ∧ p.running = false ∧ r ∈ p.cmds) ∧
      ∀ a, u.byte a = s.byte a)) ∧
  (∀ (s : State) (i : Nat) (m : Staged) (x : Index), s.idx.staged.find? (fun m => m.idx == i && m.recs.isNone) = some m →
    s.index? i = some x →
    ∃ t rs, exec (.mutateStaging i) s = .next t ∧ { m with recs := some rs } ∈ t.idx.staged ∧
      (∀ y ∈ s.idx.staged, y.r ≠ m.r → y ∈ t.idx.staged) ∧
      rs.map StRec.id = (recOffs x (s.qBody m.r) m.count 64).1.map (fun off => fld ((s.qBody m.r).drop off) 47 0) ∧
      rs.map StRec.op = (recOffs x (s.qBody m.r) m.count 64).1.map (fun off => fld ((s.qBody m.r).drop off) 51 48) ∧
      (∀ y ∈ rs, y.status ≠ 0 → y.places = [] ∧ y.removes = [] ∧ y.fbits = []) ∧
      (∀ y ∈ rs, y.id = padId → y.status = Status.itemIdReserved) ∧ t.idx.indexes = s.idx.indexes ∧
      t.idx.queries = s.idx.queries ∧ t.idx.banks = s.idx.banks ∧ t.idx.epoch = s.idx.epoch) ∧
  (∀ (s : State) (i : Nat), (s.idx.staged.find? (fun m => m.idx == i && m.recs.isNone) = none ∨ s.index? i = none) →
    exec (.mutateStaging i) s = .next s) ∧
  (∀ (s : State) (stack a b h : Nat) (x : Index) (o : Obj),
    (∀ p ∈ s.idx.passes, p.running = false) → bits s.idx.compact 3 0 ≠ 0 →
    s.passCandidates stack = [(x, h, a, b)] → s.obj? x.func x.hTab = some o →
    ∃ t, exec (.compactPassStart stack) s = .next t ∧
      (t.idx.passes.any (fun p => p.running && p.idx == x.no && p.shoal == h)) = true ∧ (o.inT2 = true → ∀ r, t.rd r = s.rd r) ∧
      ∀ c, (∀ i, 32 * h ≤ i → i < 32 * h + 32 → c ∉ s.objCells o i) → t.byte c = s.byte c)

/-! ## Selection, attention and the key-value cache -/

/-- Selection: a stamped TOPK or MERGE joins the selections with a task placed for each piece or list, a piece of a row is marked done once
and keeps whether all of it could be read, and the completion ends the selection and its command; only the destination object's bytes
change. -/
def Obligations.SelectionsRun : Prop :=
  (∀ (s t : State) (h : CmdHdr) (b : Body) (l : Live), s.stampsAtOnce chkSelect h b l t →
    (isTopk h b = true → exec (.topk h b) s = .next (actSelect h.ref l t)) ∧
    (isMerge h b = true → exec (.merge h b) s = .next (actSelect h.ref l t)) ∧
    ∃ x, (actSelect h.ref l t).idx.sels = t.idx.sels ++ [x] ∧ x.r = h.ref ∧ x.done = [] ∧ x.lists = [] ∧ x.bad = false ∧
      x.at_.map (fun p => (p.row, p.piece)) = selTasks l.body ∧ ∀ a, (actSelect h.ref l t).byte a = t.byte a) ∧
  (∀ (s : State) (q : CmdRef) (row piece : Nat) (ok : Bool) (x : SelRun) (l : Live) (o : Obj) (p : PieceAt), s.sel? q = some x →
    s.live? q = some l → s.obj? l.h.func (fld l.body 159 128) = some o → selOp l.body = 0 →
    x.at_.find? (fun p => p.row == row && p.piece == piece) = some p → (row, piece) ∉ x.done →
    ∃ t y, exec (.selectPieceDone q row piece ok) s = .next t ∧ t.sel? q = some y ∧ y.done = x.done ++ [(row, piece)] ∧
      (y.bad = false → x.bad = false ∧ ok = true) ∧ ∀ a, t.byte a = s.byte a) ∧
  ∀ (s : State) (q : CmdRef) (x : SelRun) (l : Live), s.sel? q = some x → s.live? q = some l →
    (selOp l.body = 1 ∨ selRows l.body * selPieces l.body ≤ x.done.length) →
    ∃ t, exec (.selectComplete q) s = .next t ∧ t.sel? q = none ∧ t.live? q = none ∧
      (selOp l.body = 1 → t = s.mergeComplete x l) ∧ (selOp l.body ≠ 1 → t = s.topkComplete x l) ∧
      ∀ a, (∀ p, s.obj? l.h.func (fld l.body 191 160) = some p → ∀ i, a ∉ s.objCells p i) → t.byte a = s.byte a

/-- Attention in a step: page choice takes all eligible pages when there are no more than RETR_PAGES and the best by score otherwise, where
another device merges the sequence it sends that device its list instead, a split's running task publishes its partials, or yields its
islet where a page that it reads is not there, the merge's
running task leaves one row for each query row and query head, the fresh rows leave the step as they enter their pages, and the backward
pass writes its output object alone. -/
def Obligations.AttentionRunsInAStep : Prop :=
  (∀ (s : State) (a : AttnRef) (un pick el mine : List Nat) (sc : List (Nat × Nat)) (far : List (Option (List (Nat × Nat)))) (k : Cohort)
    (r : AttnRun) (x : CEntry) (c : KvCtx) (d : Body) (ref : Nat → PageRef),
    s.cohort? a.slot = some k → k.attn? a = some r → k.entries[a.entry]? = some x → s.kv? k.ctx = some c → r.chosen = false →
    r.listed = false → d = s.attnDesc a.layer → el = s.eligible d x →
    ref = (fun n => { seq := x.seq, layer := a.layer, group := a.group, page := n }) →
    mine = el.filter (fun n => s.pageHere c (ref n)) → sc = bestPages (adRetr d) (s.pageScores c k d a x mine) →
    far = (s.others c).map (s.farList c x (ref 0)) →
    (adRetr d < el.length → ∀ n ∈ mine, s.listReadable c (ref n) = true ∧ s.metaReadable c (ref n) = true) →
    (s.mergesHere c x = true → (adRetr d < el.length → c.layout = 2 → ∀ l ∈ far, l ≠ none) →
      pick = (if el.length ≤ adRetr d then el
        else if c.layout = 2 then choosePages (adRetr d) (sc ++ (far.filterMap id).flatten) else sortBy id (sc.map (fun e => e.1))) →
      (∀ n ∈ pick, s.pageHere c (ref n) = true → n ∉ un ∧ pwState (s.pageWord c (ref n)) ≠ 3 ∧
        (pwState (s.pageWord c (ref n)) ≠ 2 → s.pageReadable c (ref n) = true)) →
      ∃ t q, exec (.pageChoiceDone a un) s = .next t ∧ (t.cohort? a.slot).bind (fun k => k.attn? a) = some q ∧ q.chosen = true ∧
        q.retr = pick ∧ ∀ b, t.byte b = s.byte b) ∧
    (s.mergesHere c x = false → adRetr d < el.length →
      ∃ t q, exec (.pageChoiceDone a un) s = .next t ∧ (t.cohort? a.slot).bind (fun k => k.attn? a) = some q ∧ q.listed = true ∧
        q.chosen = false ∧ ∀ b, t.byte b = s.byte b)) ∧
  (∀ (s : State) (a : AttnRef) (split rb : Nat) (t : Task), s.runningTask (.split a split rb) = some t →
    (s.splitGap a split rb = none → exec (.attnSplitDone a split rb) s = .next ((s.taskOver t).splitDone t.island a split rb)) ∧
    (∀ g, s.splitGap a split rb = some g →
      exec (.attnSplitDone a split rb) s = .next ((s.yieldTask t false).badPage g.1 a.slot a.entry g.2.1 g.2.2))) ∧
  (∀ (s : State) (a : AttnRef) (v : Task) (k : Cohort) (r : AttnRun) (x : CEntry) (c : KvCtx), s.runningTask (.merge a) = some v →
    s.cohort? a.slot = some k → k.attn? a = some r → k.entries[a.entry]? = some x → s.kv? k.ctx = some c →
    ∃ t q o, exec (.attnMerge a) s = .next t ∧ (t.cohort? a.slot).bind (fun k => k.attn? a) = some q ∧ q.out = some o ∧
      o.length = x.qlen * (adG (s.attnDesc a.layer) * adR (s.attnDesc a.layer)) ∧ q.parts = []) ∧
  (∀ (s : State) (slot entry layer : Nat) (k : Cohort) (x : CEntry), s.cohort? slot = some k → k.entries[entry]? = some x →
    x.left = false → (∃ r ∈ k.attns, r.entry = entry ∧ r.layer = layer) →
    (∀ r ∈ k.attns, r.entry = entry → r.layer = layer → r.out ≠ none) →
    ∃ t q, exec (.kvAppend slot entry layer) s = .next t ∧ t.cohort? slot = some q ∧
      q.attns = k.attns.filter (fun r => !(r.entry == entry && r.layer == layer)) ∧
      q.fresh = k.fresh.filter (fun f => !(f.entry == entry && f.layer == layer)) ∧ q.entries = k.entries) ∧
  ∀ (s : State) (r : BwdReq) (e : BwdEntry) (q : Seq) (c : KvCtx), r.table.head? = some e → s.seq? e.seq = some q →
    s.kv? q.ctx = some c → c.func = r.func → s.gen.model.st = 2 → r.layer < s.mLayers →
    (∀ y ∈ r.table, (s.seq? y.seq).map (fun q => q.ctx) = some c.ctx) →
    ∃ t die, exec (.attnBackward r) s = .next t ∧ ((∀ o, s.obj? r.func r.outObj = some o → o.inT2 = true) →
        ∀ a, a ∉ [Reg.attnBwdCnt die, Reg.arithReplayCnt die, Reg.arithPromoteCnt die, Reg.arithOvfCnt die, Reg.arithNanCnt die] →
          t.rd a = s.rd a) ∧
      ∀ a, (∀ o, s.obj? r.func r.outObj = some o → ∀ i, a ∉ s.objCells o i) → t.byte a = s.byte a

/-- Pages of the key-value cache move between the tiers: a durable spill is mapped and its bytes are the frame's, a spill that failed is
counted and its page stays (both where its channel has come to it), a page read from flash lands in the splits that wait for it, a promoted page is no longer under way, a
relocated page's bytes lie in its new frame, a mirrored page is no longer being mirrored, and a recomputed page is no longer to be
rebuilt. CONFIG of a context without a cache gives it one, and otherwise sets what the next step boundary takes; PREFETCH and SPILL
act on the pages they name; and a reservation that is too old is given up. -/
def Obligations.CachePagesMoveAndCommandsRun : Prop :=
  ((∀ (s u : State) (p : PageRef) (m : PageMove) (c : KvCtx), s.kv.spills.find? (fun m => m.p == p && !m.done) = some m →
    s.kv? m.ctx = some c →
    s.spillTurn m.spill = true →
    u = ((((s.endSpillWrite m.spill).setBytes (spillAddr m.spill)
      (s.hBytes c.func (c.pools.getD m.pool (0, 0)).1 (m.frame * 16384) 16384)).mapSpill m.spill).hTraffic c.func c.func
        (c.pools.getD m.pool (0, 0)).1 false (m.frame * 16384) 16384).charge c.func (fun a => { a with t3wr := a.t3wr + 16384 }) →
    exec (.spillDurable p true) s = .next (u.spillDurable c m).settleSpills ∧
    (u.spillDurable c m).kv.spills = updWhere (fun x => x == m) (fun x => { x with done := true }) s.kv.spills) ∧
  (∀ (s : State) (p : PageRef) (m : PageMove) (c : KvCtx), s.kv.spills.find? (fun m => m.p == p && !m.done) = some m →
    s.kv? m.ctx = some c →
    (s.spillTurn m.spill = false → ∀ ok, exec (.spillDurable p ok) s = .next s) ∧
    (s.spillTurn m.spill = true → m.spare = none →
      exec (.spillDurable p false) s = .next (((s.undoSpill m).count Reg.kvSpillErrCnt).kvHandled m.cmd false))) ∧
  (∀ (s : State) (a : AttnRef) (page : Nat) (k : Cohort) (r : AttnRun) (x : CEntry) (c : KvCtx) (sp : Split),
    s.cohort? a.slot = some k → k.attn? a = some r → k.entries[a.entry]? = some x → s.kv? k.ctx = some c → sp ∈ r.splits →
    sp.t3 = true → page ∈ sp.pages → page ∉ sp.landed →
    s.pageReadable c { seq := x.seq, layer := a.layer, group := a.group, page := page } = true →
    (s.pageServed c { seq := x.seq, layer := a.layer, group := a.group, page := page }).isSome = true →
    ∃ t q, exec (.t3PageReadDone a page true) s = .next t ∧ (t.cohort? a.slot).bind (fun k => k.attn? a) = some q ∧
      ∀ y ∈ q.splits, y.t3 = true → page ∈ y.pages → page ∈ y.landed) ∧
  (∀ (s : State) (p : PageRef) (m : PageMove) (c : KvCtx), s.kv.promos.find? (fun m => m.p == p) = some m → s.kv? m.ctx = some c →
    (m.cmd.isSome = true → (s.pageServed c p).isSome = true) →
    ∃ t, exec (.promotionDone p) s = .next t ∧ t.kv.promos = s.kv.promos.filter (fun x => x != m)) ∧
  (∀ (s u : State) (p : PageRef) (m : PageMove) (c : KvCtx), s.kv.relocs.find? (fun m => m.p == p && !m.done) = some m →
    s.kv? m.ctx = some c → u = s.putFrame c m.pool m.frame 0 (s.codeBytes c p 0 16384) →
    exec (.relocationCopyDone p) s = .next { u with
      kv := { u.kv with relocs := updWhere (fun x => x == m) (fun x => { x with done := true }) u.kv.relocs } }) ∧
  (∀ (s : State) (p : PageRef) (ok : Bool), s.kv.mirroring.contains p = true →
    ∃ t, exec (.mirrorAck p ok) s = .next t ∧ t.kv.mirroring.contains p = false) ∧
  (∀ (s v : State) (p : PageRef) (q : Seq) (c : KvCtx), s.kv.rebuild.contains p = true → s.seq? p.seq = some q →
    s.kv? q.ctx = some c → ((s.obj? q.func (sqToklog q.body)).map (fun o => s.objReadable o (256 * p.page) 256)).getD false = true →
    (∀ y, s.redoRows c q p (s.redoCount q p) = (v, .needs y) → s.kv.rebuild.contains y = false →
      exec (.recomputeDone p) s = .next { s with kv := { s.kv with rebuild := y :: s.kv.rebuild } }) ∧
    (∀ (t u : State) (rows : List Fresh), s.redoRows c q p (s.redoCount q p) = (v, .rows rows) →
      State.reframeAll q.ctx (s.lostPages c p) { s with
        kv := { s.kv with rebuild := s.kv.rebuild.filter (fun x => x != p), far := v.kv.far }, regs := v.regs, fresh := v.fresh
        mm := v.mm, sch := v.sch } = some t →
      u = (s.lostPages c p).foldl (fun s x => s.recode c x rows) t → (∀ x ∈ u.kv.rebuild, x.seq ≠ p.seq) →
      exec (.recomputeDone p) s = .next (u.restartEntries p.seq)))) ∧
  ((∀ (s t : State) (h : CmdHdr) (b : Body) (l : Live), s.stampsAtOnce chkKv h b l t →
    (isKvConfig h b = true → exec (.config h b) s = .next (actKv h.ref l t)) ∧
    (isKvPrefetch h b = true → exec (.prefetch h b) s = .next (actKv h.ref l t)) ∧
    (isKvSpill h b = true → exec (.spill h b) s = .next (actKv h.ref l t)) ∧
    (∀ x n, t.chanCtx l.h.channel = some x → kvOp l.body = 0 → n = kvConfig x.id l.h.func (t.atRestKey l.h.func) l.body →
      n.quota + t.otherQuotas x.id ≤ t.spillFrames →
      (t.kv? x.id = none → (actKv h.ref l t).kv.ctxs = t.kv.ctxs ++ [n]) ∧
      (∀ c, t.kv? x.id = some c → c.pools = n.pools → c.root = n.root → c.ageq = n.ageq → c.layout = n.layout → c.mirror = n.mirror →
        c.devs = n.devs → c.mirs = n.mirs → c.span = n.span →
        (actKv h.ref l t).kv? x.id = some { c with next := some (n.drop, n.quota) })) ∧
    (∀ x, t.chanCtx l.h.channel = some x → kvOp l.body ≠ 0 →
      (t.kvNamed l.body = [] → actKv h.ref l t = t.complete h.ref Status.ok (kvBody Status.ok 0 0)) ∧
      (t.kvNamed l.body ≠ [] → actKv h.ref l t = (t.kvNamed l.body).foldl (fun s p => s.kvStart h.ref x.id (kvOp l.body == 2) p)
        { t with kv := { t.kv with
          runs := t.kv.runs ++ [{ r := h.ref, left := (t.kvNamed l.body).length, handled := 0, skipped := 0 }] } }))) ∧
  (∀ (s : State) (seq pos n : Nat) (q : Seq) (c : KvCtx), s.seq? seq = some q → q.want = some (pos, n) → s.kv? q.ctx = some c →
    q.flow = false → q.heldAt + bits (s.genCfg 3) 7 0 ≤ s.gen.boundaries →
    ∃ t, exec (.holdExpire seq) s = .next t ∧ (t.seq? seq).map (fun q => (q.wait, q.want)) = some (none, none)))


/-! ## The generation pipeline -/

/-- The model and its sequences: a load that passes its checks makes the model LOADING and the copied and verified image makes it RESIDENT, a
failed digest ends the load, and an unload frees it; SEQ_OPEN adds a sequence, SEQ_CLOSE marks it for its next step boundary, and STEP
queues a cohort step. -/
def Obligations.ModelsAndSequencesOpenAndClose : Prop :=
  (∀ (s t : State) (h : CmdHdr) (b : Body) (l : Live), s.stampsAtOnce noCheck h b l t → isModelLoad h b = true →
    ∃ u, exec (.modelLoad h b) s = .next u ∧ u = actModelLoad h.ref l t ∧
      (t.modelCheck l.h.func l.body = none → u.gen.model.st = 1 ∧ u.gen.model.func = l.h.func ∧ u.gen.model.loadCmd = some h.ref) ∧
      ∀ st, t.modelCheck l.h.func l.body = some st → u = t.complete h.ref st []) ∧
  (∀ (s : State) (o : Obj) (r : CmdRef), s.gen.model.st = 1 → s.obj? s.gen.model.func s.gen.model.img = some o →
    s.gen.model.loadCmd = some r →
    ((s.copyModel o).takeShare .model none (cdiv (2 * s.gen.model.winKib) 16)).2 = true →
    ∃ t, exec .modelImageCopied s = .next t ∧ t.gen.model.st = (if s.imageBad o = none then 2 else 0) ∧ t.live? r = none) ∧
  (∀ (s : State) (o : Obj) (r : CmdRef) (ty : Nat), s.gen.model.st = 1 → s.obj? s.gen.model.func s.gen.model.img = some o →
    s.imageBad o = some ty → s.gen.model.loadCmd = some r →
    ∃ t, exec .modelImageCopied s = .next t ∧ t.gen.model.st = 0 ∧ t.live? r = none ∧ ∀ a, t.byte a = s.byte a) ∧
  (∀ (s t : State) (h : CmdHdr) (b : Body) (l : Live), s.stampsAtOnce noCheck h b l t → isModelUnload h b = true →
    ∃ u, exec (.modelUnload h b) s = .next u ∧ u.live? h.ref = none ∧
      (t.gen.model.st = 2 ∨ t.gen.model.st = 4 → t.gen.model.func = l.h.func → t.gen.seqs = [] → t.gen.cohorts = [] →
        u = t.dropModel.complete h.ref Status.ok [] ∧ u.gen.model.st = 0)) ∧
  (∀ (s t : State) (h : CmdHdr) (b : Body) (l : Live) (c : Chan), s.stampsAtOnce chkSeqOpen h b l t → isSeqOpen h b = true →
    t.chan? l.h.channel = some c →
    ∃ u q, exec (.seqOpen h b) s = .next u ∧ u = actSeqOpen h.ref l t ∧ u.gen.seqs = t.gen.seqs ++ [q] ∧
      q.slot = fld l.body 13 0 ∧ q.func = l.h.func ∧ q.ctx = c.ctx ∧ q.body = l.body ∧
      ((∀ m ∈ t.kv.copies, m.p.seq ≠ fld l.body 13 0) → q.written = 0)) ∧
  (∀ (s t : State) (h : CmdHdr) (b : Body) (l : Live), s.stampsAtOnce chkSeqClose h b l t → isSeqClose h b = true →
    exec (.seqClose h b) s = .next (t.updSeq (fld l.body 13 0) (fun q => { q with closeCmd := some h.ref }))) ∧
  ∀ (s t : State) (h : CmdHdr) (b : Body) (l : Live), s.stampsAtOnce chkStep h b l t → isStep h b = true →
    exec (.step h b) s = .next { t with gen := { t.gen with steps := t.gen.steps ++ [h.ref] } }

/-- Cohort steps: the candidate that became ready first opens at a step boundary, weight tiles land in their island's window in order, a
full handle queue makes a SWAP wait and a returned handle lets waiting ones go on, a committed step is gone, and a weight that cannot be
read is mended and counted from parity, else from its image, else a replica is asked for it, or it makes the model FAULT. -/
def Obligations.CohortStepsOpenRunAndCommit : Prop :=
  (∀ (s u : State) (c : Nat × Option (Nat × Nat)), s.gen.cohorts.length < 2 → u = s.boundaryWork → u.gen.model.st = 2 →
    c ∈ u.candidates → (∀ d ∈ u.candidates, d = c ∨ c.1 < d.1) →
    (∀ e, c.2 = some e → exec .stepBoundary s = .next (u.openFlow e.1 e.2)) ∧
    (∀ r rs, c.2 = none → u.gen.steps = r :: rs → exec .stepBoundary s = .next (u.openStepCmd r))) ∧
  (∀ (s u : State), s.gen.cohorts.length < 2 → u = s.boundaryWork → (u.gen.model.st ≠ 2 ∨ u.candidates = []) →
    exec .stepBoundary s = .next u) ∧
  (∀ (s : State) (i : Nat) (t : TileRef) (k : Cohort), s.cohort? t.slot = some k → s.gen.model.st = 2 → s.nextTile k i = some t →
    ((k.window i).tiles.map (fun x => tileBytes (s.wFmtOf (decide (x.proj ≥ 5))))).sum + tileBytes (s.wFmtOf (decide (t.proj ≥ 5))) ≤
      s.gen.model.winKib * 1024 → s.weightBad (.tile t) = false →
    ∃ u, exec (.weightTileLanded i t) s = .next u ∧
      (u.cohort? t.slot).map (fun k => (k.window i).tiles) = some ((k.window i).tiles ++ [t]) ∧ ∀ a, u.byte a = s.byte a) ∧
  (∀ (s : State) (n i : Nat) (b : BufHandle), (∀ w ∈ s.gen.swaps, w.b ≠ b) →
    (s.swapRes n b = .go i → exec (.swap n b) s = .next (s.pushHandle n b i)) ∧
    (s.swapRes n b = .wait → exec (.swap n b) s = .next { s.count Reg.genSwapWaitCnt with
      gen := { s.gen with swaps := s.gen.swaps ++ [{ consumer := n, b := b, full := false }] } }) ∧
    (s.swapRes n b = .queueFull → exec (.swap n b) s = .next { s.count Reg.genQueueFullCnt with
      gen := { s.gen with swaps := s.gen.swaps ++ [{ consumer := n, b := b, full := true }] } }) ∧
    (s.swapRes n b = .tooLarge → exec (.swap n b) s = .next (s.endTooLarge b.cohort))) ∧
  (∀ (s : State) (n st : Nat) (b : BufHandle) (q : HQueue), q ∈ s.gen.queues → q.island = n → q.stage = st → b ∈ q.q →
    s.halfRead st b = true →
    exec (.handleReturn n st b) s = .next ({ s with gen := { s.gen with
      queues := s.gen.queues.map (fun q => if q.island = n ∧ q.stage = st then { q with q := q.q.erase b } else q) } } : State).retrySwaps) ∧
  (∀ (s : State) (slot : Nat) (k : Cohort), s.cohort? slot = some k → k.sampled = true →
    ∃ t, exec (.stepCommit slot) s = .next t ∧ t.cohort? slot = none) ∧
  (∀ (s : State) (w : WeightRef) (h off n : Nat) (par : Bool), s.gen.model.st = 2 → s.weightBad w = true → s.weightAt w = (h, off, n) →
    par = s.hReadable s.gen.model.func h off n →
    (par = true → exec (.weightRepairDone ⟨w, .parity⟩) s =
      .next ((s.mendWeight w (s.hBytes s.gen.model.func h off n)).count Reg.genWueParityCnt)) ∧
    (∀ o at_, par = false → s.imageGives w = true → s.weightImage w = some (o, at_) → exec (.weightRepairDone ⟨w, .flash⟩) s =
      .next (((s.weightFromImage w).mendWeight w (s.objBytes o at_ n)).count Reg.genWueFlashCnt)) ∧
    (∀ dev ds, par = false → s.imageGives w = false → s.weightAsked w = [] → s.replicas = dev :: ds →
      exec (.weightRepairDone ⟨w, .replica⟩) s = .next (s.askWeight w dev)) ∧
    (par = false → s.imageGives w = false → s.weightAsked w = [] → ∃ t, exec (.weightRepairDone ⟨w, .lost⟩) s = .next t ∧ t.gen.model.st = 4 ∧
      (∀ a, t.byte a = s.byte a) ∧
      ∀ k e x p, s.gen.cohorts = [k] → k.entries[e]? = some x → x.runs = true → x.token = none → p ∈ k.pieces →
        (p.rows.any (fun r => r.1 == e)) = true → s.weightPast k p w = false →
        ∃ y ∈ t.gen.cohorts, (y.entries[e]?).map (fun x => x.status) = some Status.weightLost))

/-- The tasks of the islands: the first ready task, or while a stage's inputs are late the nearest to it, takes a free islet (or the one that
holds its save area) and starts now, and where no task left the islet without ending no byte changes, a task that has waited more than
10 ms is aged, a task that ends goes on with what its kind publishes, or yields its islet where an input that it needs is gone, and a
multicast ends when every attached receiver has taken it, or lets its slowest receiver go. -/
def Obligations.TasksAreDispatchedAndEnd : Prop :=
  (∀ (s : State) (island i : Nat) (f v : Task), s.hugeTask island = none → f ∈ s.startable island →
    (∀ y ∈ s.startable island, y = f ∨ f.key < y.key) →
    ((s.lateTask island f = none ∧ v = f) ∨ (∃ z, s.lateTask island f = some z ∧ v ∈ s.startable island ∧ v.rank = f.rank ∧
      ∀ y ∈ s.startable island, y.rank = f.rank → y = v ∨ switchRank z v * 2 ^ 90 + v.key < switchRank z y * 2 ^ 90 + y.key)) →
    (v.save = some i ∨ (v.save = none ∧ (s.freeIslets island).head? = some i)) →
    ∃ t x, exec (.taskDispatch island) s = .next t ∧ x ∈ t.sch.tasks ∧ x.id = v.id ∧ x.islet = some i ∧ x.started = s.now ∧
      x.island = island ∧ x.save = none ∧ x.tiles = 0 ∧ t.now = s.now ∧
      ((∀ e ∈ s.gen.leaving, e.islet ≠ i) → ∀ a, t.byte a = s.byte a)) ∧
  (∀ (s : State) (island id : Nat) (v : Task),
    s.sch.tasks.find? (fun t => t.id == id && t.island == island && t.islet.isNone && t.ready && !t.aged) = some v →
    exec (.taskAge island id) s = .next ((s.elapseTo (v.entered + 10000001)).updTask id (fun t => { t with aged := true }))) ∧
  (∀ (s : State) (islet : Nat) (v : Task), s.sch.tasks.find? (fun t => t.islet == some islet && !t.killing) = some v →
    (s.stageGap v = true → exec (.taskEnd islet) s = .next (s.yieldTask v (s.taskReady v))) ∧
    (∀ a n rb, v.kind = .split a n rb → exec (.taskEnd islet) s = .next (s.endSplit v a n rb)) ∧
    (∀ slot e, v.kind = .sample slot e → exec (.taskEnd islet) s = .next ((s.taskOver v).sampleDone slot e)) ∧
    (∀ a, v.kind = .merge a → exec (.taskEnd islet) s = .next ((s.taskOver v).mergeDone a)) ∧
    (∀ slot i st layer ch c p, v.kind = .stage slot i st layer ch c → s.stageGap v = false →
      ((s.taskOver v).cohort? slot).bind (fun k => k.pieces[i]?) = some p →
      (p.again.contains (st, layer, ch, c) = true → exec (.taskEnd islet) s = .next ((s.taskOver v).redone slot i st layer ch c)) ∧
      (p.again.contains (st, layer, ch, c) = false → p.st = st → p.layer = layer →
        exec (.taskEnd islet) s = .next ((s.taskOver v).stageDone slot i ch c))) ∧
    (v.kind = .probe ∨ v.kind = .backward ∨ (∃ r n, v.kind = .piece r n) ∨ (∃ b g, v.kind = .scan b g) ∨ (∃ x h, v.kind = .moves x h) →
      exec (.taskEnd islet) s = .next (s.taskOver v)) ∧
    ∀ x ∈ (s.taskOver v).sch.tasks, x.id ≠ v.id) ∧
  (∀ (s : State) (snd rcv n slowest : Nat) (m m1 : Mcast),
    s.sch.mcasts.find? (fun m => m.sender == snd && m.attached.any (fun r => r.1 == rcv)) = some m →
    slowest = ((m.attached.filter (fun r => r.1 != rcv)).map (fun r => r.2)).foldl min m.total →
    m1 = { m with recv := m.recv.map (fun r => if r.1 = rcv then (r.1, min (min m.total (slowest + 65536)) (r.2 + n)) else r) } →
    ((∀ r ∈ m1.attached, m1.fastest < r.2 + 65536) →
      exec (.mcastAck snd rcv n) s = .next { s with sch := { s.sch with
        mcasts := s.sch.mcasts.filterMap (fun x => if x = m then (if m1.attached.all (fun r => decide (r.2 ≥ m1.total)) then none
          else some m1) else some x) } }) ∧
    (∀ r, m1.attached.filter (fun r => decide (r.2 + 65536 ≤ m1.fastest)) = [r] → m1.fastest < m1.total → m.weight = false →
      ∃ t, exec (.mcastAck snd rcv n) s = .next t ∧
        t.rd Reg.schedMcastDetachCnt = (s.count Reg.schedMcastDetachCnt).rd Reg.schedMcastDetachCnt ∧
        ∀ x ∈ t.sch.mcasts, x ∈ s.sch.mcasts ∨ x = { m1 with detached := m1.detached ++ [r.1] }))

/-! ## The memory tiers, ferries and flash -/

/-- Objects: each stamped MEM command runs at once unless an operation on its object is under way, a zeroed allocation becomes an object
whose granules read zero, and a finished copy, its flash reads and writes done, commits at once, but for an object of an index, which
waits for the boundary. -/
def Obligations.ObjectsAreAllocatedAndMoved : Prop :=
  (∀ (s t : State) (h : CmdHdr) (b : Body) (l : Live), s.stampsAtOnce chkMem h b l t →
    (isAlloc h b = true → exec (.alloc h b) s = .next (actMem h.ref l t)) ∧
    (isFree h b = true → exec (.free h b) s = .next (actMem h.ref l t)) ∧
    (isMove h b = true → exec (.move h b) s = .next (actMem h.ref l t)) ∧
    (isPromote h b = true → exec (.promote h b) s = .next (actMem h.ref l t)) ∧
    (isEvict h b = true → exec (.evict h b) s = .next (actMem h.ref l t)) ∧
    (isShare h b = true → exec (.share h b) s = .next (actMem h.ref l t)) ∧
    (isUnshare h b = true → exec (.unshare h b) s = .next (actMem h.ref l t)) ∧
    (memOp l.body = 1 → actMem h.ref l t = t.runMem h.ref l.h l.body) ∧
    (∀ o, memOp l.body ≠ 1 → t.obj? l.h.func (memHandle l.body) = some o → t.memBusy o.func o.handle = false →
      (∀ w ∈ t.mm.waits, w.owner = o.func → w.handle ≠ o.handle) → actMem h.ref l t = t.runMem h.ref l.h l.body) ∧
    (∀ o, memOp l.body ≠ 1 → t.obj? l.h.func (memHandle l.body) = some o → t.memBusy o.func o.handle = true →
      (actMem h.ref l t).mm.objs = t.mm.objs ∧ (actMem h.ref l t).mm.waits =
        t.mm.waits ++ [{ h := l.h, b := l.body, owner := o.func, handle := o.handle }])) ∧
  (∀ (s : State) (q : CmdRef) (x : MemOp) (l : Live), s.memOp? q = some x → s.live? q = some l → x.kind = .alloc →
    Memory.wf s.mem = true → x.dstStack < 32 → (∀ g ∈ x.dstGrans, g < 2 ^ 20) →
    ∃ t o, exec (.allocZeroed q) s = .next t ∧ o ∈ t.mm.objs ∧ o.func = x.owner ∧ o.handle = x.handle ∧ o.inT2 = true ∧
      o.stack = x.dstStack ∧ o.grans = x.dstGrans ∧ t.memOp? q = none ∧ t.live? q = none ∧
      (∀ g ∈ x.dstGrans, ∀ i < 65536, t.byte (t2Addr x.dstStack (g * 65536 + i)) = 0) ∧
      ∀ a, (∀ g ∈ x.dstGrans, ∀ i < 65536, a ∉ s.t2Cells x.dstStack (g * 65536 + i)) → t.byte a = s.byte a) ∧
  ∀ (s : State) (q : CmdRef) (x : MemOp) (o : Obj), s.memOp? q = some x → x.kind ≠ .alloc → x.copied = false →
    s.mm.objs.find? (fun o => o.func == x.owner && o.handle == x.handle) = some o →
    (s.copyWaits x = true → exec (.moveCopyDone q) s = .next s) ∧
    (s.copyWaits x = false → s.idxBound o = false → exec (.moveCopyDone q) s = .next (s.commitMemOp x)) ∧
    (s.copyWaits x = false → s.idxBound o = true → ∃ t, exec (.moveCopyDone q) s = .next t ∧ (t.memOp? q).map (fun y => y.copied) = some true ∧
      t.mm.objs = s.mm.objs ∧ ∀ a, t.byte a = s.byte a)

/-- Lines, granules and stacks of T2: a rebuilt line can be read again, one that cannot be rebuilt is logged with its reader's loss, scrub
reads log and mark what they find, a granule with a cause is retired or replaced, or its retirement put off, the thermal loop of a stack
steps its cap by the temperature, and a command late by LATE_US counts. -/
def Obligations.LinesGranulesAndStacks : Prop :=
  (∀ (s : State) (k line : Nat), s.lineBad k line = true → s.lineRebuilds k line = true → s.flt.failedStacks.contains k = false →
    ∃ t, exec (.lineRebuild k line true) s = .next t ∧ t.lineBad k line = false ∧ (∀ j, j ≠ line → t.lineBad k j = s.lineBad k j) ∧
      ∀ a, t.byte a = s.byte a) ∧
  (∀ (s : State) (k line : Nat), s.lineBad k line = true →
    exec (.lineRebuild k line false) s =
      .next (s.faultLog 0x18 k 0x02 5 (s.granFunc k (line / 1024)) (t2Addr k (line * 64)))) ∧
  (∀ (s : State) (k line : Nat), s.powered = true → s.flt.failedStacks.contains k = false → line ≠ 0 →
    exec (.dramScrubRead k line .clean) s = .next (s.traffic k 16 0 16 64 0)) ∧
  (∀ (s : State) (k line : Nat) (x : StackSt), s.powered = true → s.flt.failedStacks.contains k = false → s.mm.stk[k]? = some x → line ≠ 0 →
    ∃ t y, exec (.dramScrubRead k line .corrected) s = .next t ∧ t.mm.stk[k]? = some y ∧
      mapGet 0 (line / 1024) y.ces = mapGet 0 (line / 1024) x.ces + 1 ∧ y.bad = x.bad ∧
      (bits (s.rd (Reg.dramcScrubCfg k)) 15 8 ≤ mapGet 0 (line / 1024) x.ces + 1 → line / 1024 ∈ y.ues) ∧ ∀ a, t.byte a = s.byte a) ∧
  (∀ (s : State) (k line : Nat), s.powered = true → s.flt.failedStacks.contains k = false → k < s.mm.stk.length →
    ∃ t, exec (.dramScrubRead k line .uncorrectable) s = .next t ∧ t.lineBad k line = true ∧
      (∀ x, t.mm.stk[k]? = some x → line / 1024 ∈ x.ues) ∧ ∀ a, t.byte a = s.byte a) ∧
  (∀ (s : State) (k g : Nat) (x : StackSt), s.mm.stk[k]? = some x → g ∈ x.ues → (k, g) ∉ s.mm.retired →
    (s.inClass k true g = true ∨ s.inClass k false g = true) →
    (s.granUsed k g = false → exec (.granuleRetire k g) s = .next (s.retireGran k g) ∧ (k, g) ∈ (s.retireGran k g).mm.retired) ∧
    (∀ gs u, s.granUsed k g = true → s.takeGrans k (s.inClass k true g) 1 = some (gs, u) →
      exec (.granuleRetire k g) s = .next (u.retireTo k g (gs.headD 0)) ∧ (k, g) ∈ (u.retireTo k g (gs.headD 0)).mm.retired) ∧
    (s.granUsed k g = true → s.takeGrans k (s.inClass k true g) 1 = none →
      exec (.granuleRetire k g) s = .next ((s.count (Reg.dramcRetireDeferCnt k)).updStack k (fun y =>
        { y with deferred := addOnce g y.deferred })))) ∧
  (∀ (s : State) (k temp : Nat) (x : StackSt), s.powered = true → s.mm.stk[k]? = some x →
    ∃ t y, exec (.stackThermalTick k temp) s = .next t ∧ t.mm.stk[k]? = some y ∧ y.temp = temp ∧ y.lastTick = t.now ∧
      (95 ≤ temp → y.nTherm = max 8 (x.nTherm - 4) ∧ y.throttle = true) ∧
      (92 ≤ temp → temp < 95 → y.nTherm = x.nTherm) ∧
      (temp < 92 → x.nTherm < s.pwr.nCap → y.nTherm = min s.pwr.nCap (x.nTherm + 2)) ∧
      (temp < 92 → s.pwr.nCap ≤ x.nTherm → y.nTherm = x.nTherm) ∧
      (85 ≤ temp → y.refresh2x = true) ∧ (temp < 82 → y.refresh2x = false) ∧
      (82 ≤ temp → temp < 85 → y.refresh2x = x.refresh2x) ∧ ∀ a, t.byte a = s.byte a) ∧
  (∀ (s : State) (k line l : Nat) (x : SlotSt) (d : FerryDesc), l = k * 2 ^ 30 + line →
    s.mm.slots.find? (fun x => x.started && !x.acked.contains l &&
      ((x.work.map (fun d => (s.parityLines x.island d).contains l)).getD false)) = some x → x.work = some d →
    (s.sentBefore x d = true → exec (.parityDeltaAck k line) s = .next s) ∧
    (s.sentBefore x d = false → (∀ r ∈ d.srcRows, s.devReadable r.1 r.2 = true) →
      ∃ t, exec (.parityDeltaAck k line) s = .next t ∧ { x with acked := x.acked ++ [l] } ∈ t.mm.slots)) ∧
  ∀ (s : State) (f tag : Nat) (l : Live), s.live? { func := f, tag := tag } = some l → l.stage = .running →
    exec (.lateRead f tag) s = .next (if l.accepted + bits (s.rd Reg.memStallCfg) 13 0 * 1000 ≤ s.now then s.count Reg.memLateEv else s)

/-- The ferries: arming an idle slot gives it its descriptor (a firmware slot's as its registers take it), the next generation number and its
place in the arming order, a relocation's with its page's frame reserved; the first armed
generation that breaks a check ends without moving a byte, one that meets a lock waits, and one that breaks none and meets no other
starts; a finished generation copies its rows, counts and hands the slot to a pending one, and one whose source cannot be read stops
with DATA_UNREADABLE (the order of R18 between transfers of one pair of controllers is log entry 73's). -/
def Obligations.FerriesArmRunAndEnd : Prop :=
  (∀ (s w u : State) (island k : Nat) (d e : FerryDesc), s.powered = true → island < 512 → k < 64 → s.flt.islands.contains island = false →
    w = s.writeDesc island k d → e = w.slotDesc island k → (if 56 ≤ k then w.relocArm e else some w) = some u →
    ∃ t, exec (.ferryArm island k d) s = .next t ∧ t.mm.armSeq = s.mm.armSeq + 1 ∧ t.kv = u.kv ∧ (k < 56 → e = d) ∧
      ((s.slot island k).work = none → (t.slot island k).work = some e ∧ (t.slot island k).order = s.mm.armSeq + 1 ∧
        (t.slot island k).gen = ((s.slot island k).gen + 1) % 65536) ∧
      ((s.slot island k).work ≠ none → (t.slot island k).pend = some e ∧ (t.slot island k).work = (s.slot island k).work) ∧
      (k < 56 → (t.slot island k).desc = d) ∧ (∀ i j, (i, j) ≠ (island, k) → t.slot i j = s.slot i j) ∧
      ∀ a, t.byte a = u.byte a) ∧
  (∀ (s w : State) (island k : Nat) (d : FerryDesc), s.powered = true → island < 512 → 56 ≤ k → k < 64 →
    s.flt.islands.contains island = false → w = s.writeDesc island k d → w.relocArm (w.slotDesc island k) = none →
    exec (.ferryArm island k d) s = .next w) ∧
  (∀ (s : State) (island : Nat) (x : SlotSt) (xs : List SlotSt) (d : FerryDesc), s.powered = true → s.armed island = x :: xs →
    x.work = some d → ((s.flying island).filter (fun y => !y.merged)).length < 16 → s.ferryEarly island d = false →
    (∀ c, s.ferryStop x d = some c → ∃ t, exec (.ferryGenerationStart island) s = .next t ∧ t = s.stopGen x c ∧
      (t.slot x.island x.slot).code = c ∧ (t.slot x.island x.slot).err = true ∧ ∀ a, t.byte a = s.byte a) ∧
    (s.ferryStop x d = none → s.ferryBlocked island d = false → s.ferryLocked island d = true →
      exec (.ferryGenerationStart island) s = .next (s.lockWait x)) ∧
    (s.ferryStop x d = none → s.ferryBlocked island d = false → s.ferryLocked island d = false →
      exec (.ferryGenerationStart island) s = .next (State.mergeGens island 64 d d.len (s.runGen x d false)))) ∧
  ∀ (s u : State) (island k : Nat) (x : SlotSt) (d : FerryDesc), x = s.slot island k → x.work = some d → x.started = true →
    s.mergeWaits x d = false → s.sentBefore x d = false →
    (∀ n ∈ readUnits d, (∀ r ∈ s.fl.reads, r.unit ≠ n) ∧ n ∉ s.fl.rebuilding) →
    (s.ferryLocked island d = true → ∀ ok, exec (.ferryGenerationDone island k ok) s = .next (s.lockWait x)) ∧
    (s.ferryLocked island d = false → ∃ n, n ≤ d.bytes ∧ exec (.ferryGenerationDone island k false) s =
      .next ((({ s with fresh := s.fresh + 1 } : State).ferryCopy island x.order d n).stopGen x .unreadable)) ∧
    (s.ferryLocked island d = false → (∀ r ∈ d.srcRows, s.devReadable r.1 r.2 = true) →
      (∀ n ∈ s.ferryUnits island d, ∀ w ∈ s.fl.writes, w.unit ≠ n) → (∀ l ∈ s.parityLines island d, l ∈ x.acked) →
      (d.mode = 1 → ∀ m ∈ s.sch.mcasts, m.sender = island → m.weight = true) → d.irq = false → d.chain = false →
      u = ((s.forwardedUnits x d).foldl (fun s n => s.mapUnit n.2 n.1)
        ((s.ferryCopy island x.order d d.bytes).ferryTraffic island d)).endGen x none →
      exec (.ferryGenerationDone island k true) s = .next (u.ferryStall d).pruneFwds)

/-- The flash tier, each request in its turn of its channel's queue: a read that cannot be had goes to the stripe's rebuild or, in the spill
region, is lost, unless the stripe buffer holds it; a durable write stores the bytes it brings beside the unit's old ones and maps its unit;
a stripe that waited takes no more pages and closes once its own are programmed; blocks are collected, levelled and relocated; a moved
unit's map entry switches only where the unit still lies where the move took it from; a failed channel is recorded (which requests stand in
a queue, and that a report before its turn changes nothing, is log entry 75's). -/
def Obligations.FlashKeepsItsUnits : Prop :=
  (∀ (s : State) (u n p : Nat) (ok : Bool), s.powered = true → s.fl.ready = true → s.place? u = some p → s.serveRead u = none →
    exec (.flashReadDone u n ok) s = .next s) ∧
  (∀ (s v : State) (u n p : Nat) (r : FRead) (ok : Bool), s.powered = true → s.fl.ready = true → s.place? u = some p →
    s.serveRead u = some (r, v) →
    ∃ t, exec (.flashReadDone u n ok) s = .next t ∧ t.fl.reads = v.fl.reads ∧ (∀ a, t.byte a = s.byte a) ∧
      (s.buffered u r.place = true → t.fl.lost = s.fl.lost ∧ t.fl.rebuilding = s.fl.rebuilding) ∧
      (ok = false → s.buffered u r.place = false → isSpillUnit u = true → u ∈ t.fl.lost) ∧
      (ok = false → s.buffered u r.place = false → isSpillUnit u = false → s.mapUnitReadable u = true → u ∈ t.fl.rebuilding) ∧
      (ok = true → s.fl.failed.contains r.ch = false → s.mapUnitReadable u = true →
        t.fl.lost = s.fl.lost ∧ t.fl.rebuilding = s.fl.rebuilding)) ∧
  (∀ (s : State) (u p : Nat), s.fl.rebuilding.contains u = true → s.rebuildTurn u = true → s.place? u = some p →
    (exec (.stripeRebuild u false) s = .next (s.loseUnit u)) ∧
    ((∀ c ∈ s.fl.failed, c / 16 = p % 64 / 16 → c = p % 64) →
      ∃ t, exec (.stripeRebuild u true) s = .next t ∧ t.fl.rebuilding.contains u = false ∧
        (∀ n, n ≠ u → (n ∈ t.fl.lost ↔ n ∈ s.fl.lost)) ∧ ∀ a, t.byte a = s.byte a)) ∧
  (∀ (s : State) (u : Nat) (w : FWrite), s.fl.writes.find? (fun w => w.unit == u) = some w → s.powered = true → s.fl.ready = true →
    (s.writeTurn w = false → exec (.flashWriteDurable u) s = .next s) ∧
    (s.writeTurn w = true → (w.copy = true → isSpillUnit u = false) →
      ∃ t, exec (.flashWriteDurable u) s = .next t ∧ t.fl.writes = s.fl.writes.erase w ∧
        (∀ a, (a < t3Addr (u * 4096) ∨ t3Addr (u * 4096) + 4096 ≤ a ∨ w.copy = true) → t.byte a = s.byte a) ∧
        (Memory.wf s.mem = true → w.copy = false → ∀ i < 4096,
          t.byte (t3Addr (u * 4096) + i) = (w.bytes.getD i none).getD (s.flashByte (t3Addr (u * 4096 + i)))))) ∧
  (∀ (s : State) (g : Nat) (x : Stripe), s.fl.stripes.find? (fun y => y.group == g && !y.shut) = some x →
    ∃ t, exec (.stripeCloseTimeout g) s = .next t ∧ x.opened + bits (s.rd Reg.vuindigStripeCfg) 13 0 * 1000 ≤ t.now ∧
      (t.fl.stripes = s.fl.stripes.filter (fun y => !y.is x) ++
        (if x.units.all (fun e => e.2.2) then [] else [{ x with shut := true }])) ∧ ∀ a, t.byte a = s.byte a) ∧
  (∀ (s : State) (c b : Nat), s.powered = true → s.fl.ready = true → s.chQuiet c = true →
    (s.blkUnits c b = [] → exec (.gcStep c b) s = .next (if s.blkWanted c b then s else s.eraseBlk c b)) ∧
    (s.blkUnits c b ≠ [] → (∀ k ∈ s.usedBlks c, (s.blkUnits c b).length ≤ (s.blkUnits c k).length) →
      exec (.gcStep c b) s = .next (s.startMoves c b .gc)) ∧
    (s.wearSpread (s.blk c b) = true → exec (.wearLevelMove c b) s = .next (s.startMoves c b .wear))) ∧
  (∀ (s : State) (c : Nat) (x : Blk), s.chQuiet c = true → s.fl.blocks.filter (fun y => y.ch == c && y.marked) = [x] →
    ∃ t, exec (.readDisturbRelocate c) s = .next t ∧ (t.blk x.ch x.blk).reads = 0 ∧ (t.blk x.ch x.blk).marked = false) ∧
  (∀ (s : State) (u : Nat) (m : FMove), s.fl.moves.find? (fun m => m.unit == u) = some m → s.chBusy (m.dst % 64) = false →
    s.firstMove (m.dst % 64) = some m →
    (s.place? u = some m.src → m.dst ≠ 0 → ∃ t, exec (.moveMapSwitch u) s = .next t ∧ t.fl.moves = s.fl.moves.erase m ∧
      (Config.flashFails s.fresh = false → t.place? u = some m.dst)) ∧
    (s.place? u ≠ some m.src → ∃ t, exec (.moveMapSwitch u) s = .next t ∧ (∀ v, t.place? v = s.place? v) ∧
      t.fl.moves = s.fl.moves.erase m)) ∧
  (∀ (s : State) (c p : Nat) (es : List (Nat × Nat)), s.powered = true → s.fl.ready = true → p ≠ 0 →
    es = s.fl.map.filter (fun e => e.2 % 64 == c && e.2 / 64 / 4 == p) →
    exec (.flashScrubRead c p .clean) s = .next (match s.chQuiet c, es with
      | true, e :: _ => (s.countRead e.1 e.2).flashWork 16384 0
      | _, _ => s)) ∧
  (∀ (s : State) (c p u q : Nat), s.powered = true → s.fl.ready = true → s.chQuiet c = true → (u, q) ∈ s.fl.map → q % 64 = c → q / 64 / 4 = p →
    isSpillUnit u = true → s.buffered u q = false →
    ∃ t, exec (.flashScrubRead c p .uncorrectable) s = .next t ∧ u ∈ t.fl.lost ∧ ∀ a, t.byte a = s.byte a) ∧
  (∀ (s : State) (c : Nat), s.powered = true → c < 64 → s.fl.failed.contains c = false →
    exec (.flashChannelFail c) s =
      .next (({ s with fl := { s.fl with failed := s.fl.failed ++ [c] } } : State).faultLog 0x0E 0 0x08 0 0 0)) ∧
  (∀ (s : State), s.powered = true → exec .vuindigSystemReadDone s = .next { s with fl := { s.fl with sysRead := true } }) ∧
  (∀ (s : State), s.powered = true → s.fl.sysRead = true → s.fl.ready = false →
    ∃ t, exec .mapJournalReplayed s = .next t ∧ t.notReady.contains 0xD000 = false ∧ t.fl.ready = true) ∧
  ∀ (s : State), s.fl.ready = true → exec .spillRegionReady s = .next { s with fl := { s.fl with spillReady := true } }

/-! ## Contexts, functions and the scheduler -/

/-- Contexts and channels: each stamped CTX command acts on its context; OPEN takes the lowest free context for the function, a retired
context is WAITING without a slot, and a closing channel is gone once its commands have completed. -/
def Obligations.ContextsAndChannelsOpenAndClose : Prop :=
  (∀ (s t : State) (h : CmdHdr) (b : Body) (l : Live), s.stampsAtOnce chkCtx h b l t →
    (isOpenCtx h b = true → exec (.openCtx h b) s = .next (actCtx h.ref l t)) ∧
    (isAdmitCtx h b = true → exec (.admitCtx h b) s = .next (actCtx h.ref l t)) ∧
    (isRetire h b = true → exec (.retire h b) s = .next (actCtx h.ref l t)) ∧
    (isClose h b = true → exec (.close h b) s = .next (actCtx h.ref l t)) ∧
    (isChOpen h b = true → exec (.chOpen h b) s = .next (actCtx h.ref l t)) ∧
    (isChClose h b = true → exec (.chClose h b) s = .next (actCtx h.ref l t)) ∧
    (∀ i, chkCtx t l.h l.body = none → ctxOp l.body = 1 →
      (List.range 64).find? (fun i => !t.sch.ctxs.any (fun c => c.id == i)) = some i →
      (t.sch.ctxs.filter (fun c => c.func == l.h.func)).length < bits (t.rd (Reg.schedFuncCfg l.h.func)) 14 8 →
      ∃ c, (actCtx h.ref l t).sch.ctxs = t.sch.ctxs ++ [c] ∧ c.id = i ∧ c.func = l.h.func ∧ c.st = .waiting ∧
        c.prio = fld l.body 5 4 ∧ c.units = fld l.body 30 24 ∧
        c.seed = (if fld l.body 63 32 = 0 then 0x5EED0001 else fld l.body 63 32)) ∧
    (∀ c, chkCtx t l.h l.body = none → ctxOp l.body = 4 → t.ctx? (ctxId l.body) = some c → c.func = l.h.func → c.st = .waiting →
      (∀ x ∈ t.sch.chans, x.ctx ≠ c.id) → (∀ q ∈ t.gen.seqs, q.ctx ≠ c.id) → t.kv? c.id = none → t.ctxLive c.id = [] →
      (actCtx h.ref l t).sch.ctxs = t.sch.ctxs.filter (fun x => x.id != c.id))) ∧
  (∀ (s : State) (n : Nat) (c : Ctx) (r : CmdRef), s.ctx? n = some c → c.st = .retiring → c.retire = some r →
    (∀ l ∈ s.ctxLive n, l.flowOpen = true ∨ (l.stage ≠ .running ∧ l.stage ≠ .staged)) →
    (∀ x ∈ s.sch.tasks, x.ctx = some n → x.islet = none) →
    ∃ t, exec (.retireDone n) s = .next t ∧ t.ctx? n = some { c with
        st := .waiting, slot := 0, first := 0, retire := none, since := s.now } ∧
      t.live? r = none ∧ ∀ a, t.byte a = s.byte a) ∧
  ∀ (s : State) (n : Nat) (x : Chan) (r : CmdRef), s.chan? n = some x → x.closing = some r →
    (∀ l ∈ s.cmd.live, l.h.queue ≠ some n) →
    ∃ t, exec (.chCloseDone n) s = .next t ∧ t.chan? n = none ∧ t.live? r = none ∧ (∀ m, m ≠ n → (t.chan? m).map Chan.func =
      (s.chan? m).map Chan.func) ∧ ∀ a, t.byte a = s.byte a

/-- A partition reset ends what its function runs and holds: once no islet runs its tasks its commands end, and then its contexts, channels,
objects, indexes and tasks are gone, its at-rest key is replaced, and it is ACTIVE or, with EN at 0, DISABLED. -/
def Obligations.PartitionResetFreesItsFunction : Prop :=
  (∀ (s : State) (f cause : Nat), s.fstate f = .resetting cause false → (∀ x ∈ s.sch.tasks, x.func = f → x.islet = none) →
    ∃ t, exec (.partitionResetKillsDone f) s = .next t ∧ t.fstate f = .resetting cause true ∧ ∀ x ∈ t.sch.tasks, x.func ≠ f) ∧
  ∀ (s : State) (f cause : Nat), s.fstate f = .resetting cause true → (∀ l ∈ s.cmd.live, l.h.func = f → l.flowOpen = true) →
    (∀ x ∈ s.sch.tasks, x.func = f → x.islet = none) →
    ∃ t k, exec (.partitionResetDone f) s = .next t ∧ (t.fstate f = .active ∨ t.fstate f = .disabled) ∧
      (∀ o ∈ t.mm.objs, o.func ≠ f) ∧ (∀ c ∈ t.sch.ctxs, c.func ≠ f) ∧ (∀ c ∈ t.sch.chans, c.func ≠ f) ∧
      (∀ x ∈ t.sch.tasks, x.func ≠ f) ∧ (∀ x ∈ t.idx.indexes, x.func ≠ f) ∧ (f, k) ∈ t.sec.atRest

/-- The scheduler's own events: a ready task of a higher class that waited too long has the youngest task of the lowest class killed, a
killed task goes back to its queue unless its command has ended, starvation is flagged after its time, slow islands are counted each
1 ms, and each accounting window and energy sample follows the last at its period. -/
def Obligations.SchedulerWatchesItsIslands : Prop :=
  (∀ (s : State) (i : Nat) (w v : Task), bit (s.rd Reg.schedPreemptCfg) 16 = true → s.freeIslets i = [] → w ∈ s.sch.tasks →
    w.island = i → w.islet = none → w.ready = true → s.victim i w.cls = some v →
    (∀ y ∈ s.sch.tasks, y.island = i → y.islet = none → y.ready = true → (s.victim i y.cls).isSome = true → y = w ∨ w.key < y.key) →
    ∃ t x, exec (.preemptWaitExpire i) s = .next t ∧ x ∈ t.sch.tasks ∧ x.id = v.id ∧ x.killing = true ∧ x.kills = v.kills + 1 ∧
      w.entered + bits (s.rd Reg.schedPreemptCfg) 13 0 * 1000 < t.now ∧ ∀ a, t.byte a = s.byte a) ∧
  (∀ (s : State) (i : Nat) (v : Task), s.sch.tasks.find? (fun t => t.islet == some i && t.killing) = some v →
    ∃ t, exec (.taskKill i) s = .next t ∧
      (s.taskGone v = true → ∀ x ∈ t.sch.tasks, x.id ≠ v.id) ∧
      (s.taskGone v = false → ∃ x ∈ t.sch.tasks, x.id = v.id ∧ x.islet = none ∧ x.killing = false ∧ x.save = none ∧ x.entered = v.entered) ∧
      ∀ a, t.byte a = s.byte a) ∧
  (∀ (s : State), s.starving = true →
    ∃ t, exec .residencyStarved s = .next t ∧ t.sch.starved = some t.now ∧
      s.starveFrom + bits (s.rd Reg.schedStarveCfg) 13 0 * 1000000 ≤ t.now ∧ ∀ a, t.byte a = s.byte a) ∧
  (∀ (s : State) (rs : List CycleReading), s.powered = true →
    ∃ t, exec (.slowSample rs) s = .next t ∧ t.sch.lastSample = s.sch.lastSample + 1000000 ∧
      (∀ r ∈ rs, r.cycles < 1190000 → ∃ x ∈ t.sch.slow, x.island = r.island ∧ 0 < x.slow) ∧ ∀ a, t.byte a = s.byte a) ∧
  (∀ (s : State), s.powered = true →
    ∃ t, exec .acctWindowClose s = .next t ∧ t.sch.closedWin = some s.sch.window ∧ t.sch.window = s.sch.window + 1 ∧
      t.sch.windowStart = s.sch.windowEnd ∧
      t.sch.windowEnd = s.sch.windowEnd + bits (s.rd Reg.schedAcctCfg) 15 0 * 1000000 ∧
      (s.sch.late = [] → s.sch.tasks = [] → t.sch.cur = List.replicate 17 Acct.zero) ∧ s.sch.windowEnd ≤ t.now) ∧
  ∀ (s : State) (r : EnergyReading), s.powered = true →
    ∃ t, exec (.energySample r) s = .next t ∧ t.sch.energyAt = s.sch.energyAt + 1000000 ∧ s.sch.energyAt + 1000000 ≤ t.now ∧
      (∀ x ∈ t.mm.stk, x.fb = []) ∧ ∀ a, t.byte a = s.byte a

/-! ## The command protocol and the bridge's rings -/

/-- The command protocol: a stamped NOP completes with OK, an ABORT is decided on arrival, the bytes of a granted body go to their place and
any other DATA is dropped and counted, a reserved packet type is dropped and counted, a back-off runs out at its time, and before the
engine is ready a command is refused with cause 3, or with the hint that still runs for its queue. -/
def Obligations.CommandsArriveAndComplete : Prop :=
  (∀ (s t : State) (h : CmdHdr) (b : Body) (l : Live), s.stampsAtOnce noCheck h b l t → isNop h b = true →
    ∃ u os, exec (.nop h b) s = .next u ∧ u = t.complete h.ref Status.ok [] ∧ u.live? h.ref = none ∧ u.outbox = t.outbox ++ os ∧
      cplFrags l.h t.fix.ord t.devTime Status.ok false 0 l.h.ring l.h.tag [] <+: os) ∧
  (∀ (s t : State) (h : CmdHdr) (b : Body), h.opcode = Op.abort → s.arrive h b = (t, some h.ref) →
    exec (.abort h b) s = .next (t.decideAbort h.ref)) ∧
  (∀ (s : State) (d : DataPkt) (l : Live), s.powered = true → s.live? { func := d.func, tag := d.tag } = some l → l.takes d = true →
    ((l.got ++ [(d.offset, d.bytes.length)]).map (fun g => g.2)).sum ≠ l.h.xferLen →
    ∃ t x, exec (.data d) s = .next t ∧ t.live? { func := d.func, tag := d.tag } = some x ∧
      x.got = l.got ++ [(d.offset, d.bytes.length)] ∧
      x.body = l.body.take d.offset ++ d.bytes ++ l.body.drop (d.offset + d.bytes.length) ∧ ∀ a, t.rd a = s.rd a) ∧
  (∀ (s : State) (d : DataPkt), s.powered = true → (∀ l, s.live? { func := d.func, tag := d.tag } = some l → l.takes d = false) →
    exec (.data d) s = .next (s.count Reg.cmdDataDropCnt)) ∧
  (∀ (s : State) (p : Nat), s.powered = true → knownPtype (p % 256) = false →
    exec (.reservedPtypeDrop p) s = .next (s.count Reg.cmdPtypeDropCnt)) ∧
  (∀ (s : State) (f : Nat) (q : Option Nat) (x : Hint), s.powered = true →
    s.cmd.hints.find? (fun x => x.func == f && x.chan == q) = some x →
    ∃ t, exec (.busyHintExpire f q) s = .next t ∧ t = s.elapseTo x.untilNs ∧ x.untilNs ≤ t.now) ∧
  (∀ (s : State) (h : CmdHdr) (b : Body), s.powered = true → s.cmd.ready = false → isNop h b = true →
    exec (.nop h b) s = .next (match s.running? h with
      | some x => s.busyAgain h x
      | none => s.backOff h 3)) ∧
  ∀ (s : State), s.cmd.ready = false → s.mgmtServes = true → s.fl.sysRead = true → s.flt.selfTests = [] →
    ∃ t, exec .commandEngineReady s = .next t ∧ t.cmd.ready = true ∧ t.notReady.contains 0x5000 = false

/-- The bridge's rings: an entry is fetched in order and held, sent or refused; a grant sends the body in DATA packets of 4,096 bytes; a
refused command waits for its hint and is sent again, not before an earlier one of its queue; a completion frees its command and an event enters the event ring, or its loss
is counted; and a command that no device answers in time fails its path. -/
def Obligations.RingsCarryCommandsAndCompletions : Prop :=
  (∀ (s t : State) (ring : Nat) (e : SqEntry) (b : Body), s.mayFetch ring = true →
    t = { s with brg := { s.brg with
      sqHead := mapPut 0 ring ((s.sqHead ring + 1) % ringSize (s.rd (Reg.hringSqCfg ring))) s.brg.sqHead } } →
    ((e.reserved ≠ 0 ∨ e.bodyAddr % 64 ≠ 0 ∨ e.respAddr % 64 ≠ 0) →
      exec (.sqFetch ring e b) s = .next (t.bridgeCpl ring (t.sqHeader ring e) Status.cmdParam)) ∧
    (e.reserved = 0 → e.bodyAddr % 64 = 0 → e.respAddr % 64 = 0 → t.pathDown (e.dstOrd % 64) = true →
      exec (.sqFetch ring e b) s = .next (t.bridgeCpl ring (t.sqHeader ring e) Status.linkFailed)) ∧
    (e.reserved = 0 → e.bodyAddr % 64 = 0 → e.respAddr % 64 = 0 → t.pathDown (e.dstOrd % 64) = false →
      exec (.sqFetch ring e b) s = .next (t.takeEntry ring (t.sqHeader ring e) e
        ((b ++ List.replicate (e.bodyLen - b.length) 0).take e.bodyLen)).ringRelease)) ∧
  (∀ (s : State) (o f tag hd g : Nat) (c : RingCmd), s.fix.bridge = true → s.ringCmd? o f tag = some c → 0 < c.h.xferLen →
    (0 < g → exec (.xferReady o f tag hd g) s =
      .next ((s.updRing c.id (fun c => { c with answered := true })).emits (grantData c hd)).ringRelease) ∧
    (g = 0 → exec (.xferReady o f tag hd g) s = .next (s.updRing c.id (fun c => { c with answered := true })).ringRelease)) ∧
  (∀ (s : State) (o f tag cause hint : Nat) (c : RingCmd), s.fix.bridge = true → s.ringCmd? o f tag = some c →
    exec (.busyRetry o f tag cause hint) s = .next (s.updRing c.id (fun c =>
      { c with sent := false, refused := true, retried := true, resendAt := s.now + hint * 1000 }))) ∧
  (∀ (s : State) (ring o tag : Nat) (c : RingCmd),
    s.brg.cmds.find? (fun c => c.refused && c.ring == ring && c.ord == o && c.h.tag == tag) = some c →
    (s.heldBack c = true → exec (.busyResend ring o tag) s = .next s) ∧
    (s.heldBack c = false → ∃ t, exec (.busyResend ring o tag) s = .next t ∧
      t = (((s.elapseTo c.resendAt).sendCmd c).count Reg.hostBusyResendCnt).ringRelease ∧ c.resendAt ≤ t.now ∧
      ∀ a, t.byte a = s.byte a)) ∧
  (∀ (s : State) (c : CplPkt) (x : RingCmd), s.powered = true → s.fix.bridge = true → s.zwx.hostDrop = false → c.kind = 0 →
    s.cplFor c = some x →
    (c.last = false → c.bytes.take (x.respLen - c.fragOff) = [] → exec (.cpl c) s = .next s) ∧
    (c.last = false → c.bytes.take (x.respLen - c.fragOff) ≠ [] → exec (.cpl c) s =
      .next (s.emit (.hostWrite (x.respAddr + c.fragOff) (c.bytes.take (x.respLen - c.fragOff))))) ∧
    (c.last = true → ∃ t, exec (.cpl c) s = .next t ∧ ∀ y ∈ t.brg.cmds, y.id ≠ x.id)) ∧
  (∀ (s : State) (c : CplPkt), s.powered = true → s.fix.bridge = true → s.zwx.hostDrop = false → c.kind ≠ 0 →
    exec (.cpl c) s = .next (if c.last then s.putCq { ring := c.ring % 256, c := c, gen := false, trunc := decide (0 < c.bodyLen) } else s)) ∧
  (∀ (s : State) (c : CplPkt), s.powered = true → s.fix.bridge = true → s.zwx.hostDrop = true →
    exec (.cpl c) s = .next (s.count Reg.archHostDropCnt)) ∧
  (∀ (s : State) (c : CplPkt), s.powered = true → s.fix.bridge = true → s.zwx.hostDrop = false → c.kind = 0 → s.cplFor c = none →
    exec (.cpl c) s = .next (s.count Reg.hostLateCplCnt)) ∧
  (∀ (s : State) (e : EventPkt), s.powered = true → s.fix.bridge = true → s.zwx.hostDrop = false →
    bit (s.rd Reg.hostEvqCfg) 0 = true →
    ((s.brg.evqTail + 1) % ringSize (s.rd Reg.hostEvqCfg) ≠ bits (s.rd Reg.hostEvqHead) 15 0 % ringSize (s.rd Reg.hostEvqCfg) →
      ∃ t, exec (.event e) s = .next t ∧ t.brg.evqTail = s.brg.evqTail + 1 ∧ t.brg.evqOver = false ∧
        t.outbox.length = s.outbox.length + 2 ∧ ∀ a, t.rd a = s.rd a) ∧
    ((s.brg.evqTail + 1) % ringSize (s.rd Reg.hostEvqCfg) = bits (s.rd Reg.hostEvqHead) 15 0 % ringSize (s.rd Reg.hostEvqCfg) →
      exec (.event e) s =
        .next (({ s with brg := { s.brg with evqOver := true } } : State).count Reg.hostEvqDropCnt))) ∧
  ∀ (s : State) (o : Nat) (c : RingCmd),
    s.brg.cmds.find? (fun c => c.ord == o && c.sent && !c.answered && decide (c.h.xferLen > 0)) = some c →
    exec (.answerTimeout o) s =
      .next ((s.elapseTo (c.sentAt + bits (s.rd Reg.hostLinkfailCfg) 4 0 * 1000)).pathFail o)

/-! ## The links of the archipelago and the host link -/

/-- Ports and frames: a good frame with the next LSEQ is acknowledged and moves the receiver on, one with a bad CRC or an early LSEQ is refused
by a NAK, and the 16th bad tag brings the port down; acknowledgements, NAKs and credit move the sender; a missed acknowledgement, the
last lane and a spent key bring the port down; and training ends it UP with the expected neighbour, or DOWN with a cause. -/
def Obligations.PortsCarryFrames : Prop :=
  (∀ (s : State) (n : Nat) (f : FrameIn), s.portUp n = true → ((s.port n).enc = true → f.tagOk = true) → f.crcOk = true →
    f.lseq = (s.port n).rxSeq →
    ∃ t, exec (.frame n f) s = .next t ∧ (t.port n).rxSeq = (f.lseq + 1) % 65536 ∧ (t.port n).discarding = false ∧
      Out.ack n f.lseq ∈ t.outbox) ∧
  (∀ (s u : State) (n : Nat) (f : FrameIn), s.portUp n = true → ((s.port n).enc = true → f.tagOk = true) → u = s.fecCount n f →
    (f.crcOk = false → exec (.frame n f) s = .next ((u.updPort n (fun p => { p with tagFails := 0 })).refuseFrame n true)) ∧
    (f.crcOk = true → f.lseq ≠ (s.port n).rxSeq → 32768 < ((s.port n).rxSeq + 65536 - f.lseq) % 65536 →
      exec (.frame n f) s = .next ((u.updPort n (fun p => { p with tagFails := 0 })).refuseFrame n false))) ∧
  (∀ (s t : State) (n : Nat) (f : FrameIn), s.portUp n = true → (s.port n).enc = true → f.tagOk = false →
    t = ((s.fecCount n f).updPort n (fun p => { p with tagFails := p.tagFails + 1 })).count (Reg.zwxEncFailCnt n) →
    (15 ≤ (s.port n).tagFails → exec (.frame n f) s = .next (t.portDown n 6 true)) ∧
    ((s.port n).tagFails < 15 → exec (.frame n f) s = .next (t.refuseFrame n true))) ∧
  (∀ (s t : State) (n l : Nat), s.portUp n = true →
    (t = s.updPort n (fun p => p.acked l) → exec (.ack n l) s = .next (t.pump (t.port n).queue.length n)) ∧
    (t = s.updPort n (fun p => { p.acked ((l + 65535) % 65536) with
        replay := (p.acked ((l + 65535) % 65536)).replay.map (fun r => { r with at_ := s.now }) }) →
      ((t.port n).replay = [] → exec (.nak n l) s = .next (t.emits [])) ∧
      ((t.port n).replay ≠ [] → exec (.nak n l) s = .next ((t.emits ((t.port n).replay.map (fun r => .frame n r.f r.wire))).count
        (Reg.zwxReplayCnt n) (t.port n).replay.length)))) ∧
  (∀ (s t : State) (n vc u : Nat) (c : FClass) (b : Bool), s.portUp n = true →
    t = s.updPort n (fun p => p.setCredit (c, vc, b) (p.has (c, vc, b) + u)) →
    exec (.credit n c vc b u) s = .next (t.pump (t.port n).queue.length n)) ∧
  (∀ (s : State) (n : Nat) (r : Sent) (rs : List Sent), s.portUp n = true → (s.port n).replay = r :: rs →
    exec (.missedAck n) s =
      .next (((s.elapseTo (r.at_ + 1000 + 2 * (s.port n).flight + 50)).count (Reg.zwxMissedAckCnt n)).portDown n 1 true)) ∧
  (∀ (s : State) (l : Nat) (c : LaneCause), s.portUp (l / 8) = true → bit (s.port (l / 8)).laneMask (l % 8) = true →
    ∃ t, exec (.laneRetire l c) s = .next t ∧
      (t.port (l / 8)).laneMask = setBits (s.port (l / 8)).laneMask (l % 8) (l % 8) 0 ∧
      ((t.port (l / 8)).laneMask ≠ 0 → t.portUp (l / 8) = true) ∧
      ((t.port (l / 8)).laneMask = 0 → (t.port (l / 8)).st = .down ∧ (t.port (l / 8)).cause = 5)) ∧
  (∀ (s : State) (l : Nat), l < 64 → s.portUp (l / 8) = true → bit (s.port (l / 8)).laneMask (l % 8) = false →
    ∃ t, exec (.laneRejoin l) s = .next t ∧ t.portUp (l / 8) = true ∧
      (s.port (l / 8)).retiredAt.getD (l % 8) 0 + 1000000000 ≤ t.now ∧
      (t.port (l / 8)).laneMask = setBits (s.port (l / 8)).laneMask (l % 8) (l % 8) 1) ∧
  (∀ (s : State) (n : Nat) (t : TrainInfo), s.powered = true → (s.port n).st = .training →
    (expectedPort s.fix n = true → t.peerOrd = s.fix.peer s.fix.ord n → t.peerDims = s.fix.dims →
      t.peerEnc = bit (s.rd (Reg.zwxPortCfg n)) 1 → (t.peerEnc = true → t.authOk = true) → t.laneMask % 256 ≠ 0 →
      exec (.portTrainDone n t) s = .next (s.trainUp n t)) ∧
    (t.peerOrd ≠ s.fix.peer s.fix.ord n → exec (.portTrainDone n t) s = .next (s.trainOver n 2)) ∧
    exec (.trainFail n) s = .next ((s.elapseTo ((s.port n).since + 100000000)).trainOver n 8)) ∧
  (∀ (s t : State) (n : Nat), s.powered = true → (s.port n).st = .down → expectedPort s.fix n = true →
    bit (s.rd (Reg.zwxPortCfg n)) 0 = true → t = s.elapseTo ((s.port n).since + 1000000000) →
    exec (.trainRetry n) s = .next (t.updPort n (fun p => { p with st := .training, since := t.now }))) ∧
  ∀ (s t : State) (n : Nat), s.portUp n = true → (s.port n).enc = true →
    (2 ^ 47 ≤ (s.port n).frames → (s.port n).rekeying = false → (s.port n).retryAt = 0 →
      exec (.rekey n) s = .next ((s.updPort n (fun p => { p with rekeying := true })).emit (.keyExchange n))) ∧
    (2 ^ 48 ≤ (s.port n).frames → exec (.keySpent n) s = .next (s.portDown n 4 true)) ∧
    (0 < (s.port n).retryAt → (s.port n).rekeying = false → exec (.rekeyRetry n) s =
      .next (((s.elapseTo (s.port n).retryAt).updPort n (fun p => { p with rekeying := true, retryAt := 0 })).emit (.keyExchange n))) ∧
    ((s.port n).rekeying = true → exec (.keyExchangeDone n false) s =
      .next (s.updPort n (fun p => { p with rekeying := false, retryAt := s.now + 1000000000 }))) ∧
    (t = ((s.newKeys n).updPort n (fun p => { p with
        txPhase := 1 - p.txPhase, frames := 0, oldKey := true, rekeying := false, retryAt := 0 })).count Reg.secRekeyCnt →
      exec (.keyExchangeDone n true) s = .next (t.pump (t.port n).queue.length n))

/-- The host link and lost paths: a reset of the host's side empties the bridge's rings and drops what arrives for them, the link going
down or up sets ports 6 and 7, a gap or a frame without a route is given up at its time, and a path that is lost ends every transfer
to it but the multicasts, whose rest its receiver gets by itself. -/
def Obligations.HostLinkAndLostPaths : Prop :=
  (∀ (s : State), s.fix.bridge = true → 7 < s.zwx.ports.length →
    (∃ t, exec .pcieLinkDown s = .next t ∧ t.zwx.hostUp = false ∧ t.zwx.hostDrop = true ∧ t.brg.cmds = [] ∧ t.brg.waits = [] ∧
      (t.port 6).st = .down ∧ (t.port 7).st = .down ∧ ∀ a, t.byte a = s.byte a) ∧
    (s.powered = true → s.pwr.perst = false → bit (s.rd (Reg.zwxPortCfg 6)) 0 = true → bit (s.rd (Reg.zwxPortCfg 7)) 0 = true →
      ∃ t, exec .pcieLinkUp s = .next t ∧ t.zwx.hostUp = true ∧ t.pwr.linkTraining = false ∧
      (t.port 6).st = .host ∧ (t.port 7).st = .host ∧ t.brg = s.brg ∧ ∀ a, t.rd a = s.rd a) ∧
    (∃ t, exec .functionLevelReset s = .next t ∧ t = s.hostDown ∧ t.zwx.hostDrop = true ∧ t.brg.cmds = [] ∧ t.brg.waits = [] ∧
      bit (t.rd Reg.hostEvqCfg) 0 = false ∧ ∀ a, t.byte a = s.byte a) ∧
    exec .d3hotEntry s = .next s.hostDown) ∧
  (∀ (s : State) (src : Nat) (c : FClass) (g : Option Nat) (x : EseqRx), x = s.eseqOf src (if g.isSome then .ctl else c) g → x.held ≠ [] →
    exec (.gapHoldExpire src c g) s = .next ((s.elapseTo (x.since + bits (s.rd Reg.archHoldCfg) 9 0 * 1000)).passGap x)) ∧
  (∀ (s t u : State) (dst : Nat) (h : RouteHold), s.zwx.routeHold.find? (fun h => h.f.dst == dst) = some h →
    t = s.elapseTo (h.since + bits (s.rd Reg.archHoldCfg) 9 0 * 1000) →
    u = (({ t with zwx := { t.zwx with routeHold := t.zwx.routeHold.erase h } } : State).count Reg.archRouteDropCnt).pathLostTo
      (([s.bridgeOrd, h.f.src].eraseDups).filter (fun o => o != s.fix.ord)) dst 0 →
    exec (.noRouteExpire dst) s = .next (if s.fix.bridge ∨ h.f.src = s.fix.ord then u.pathLost dst else u)) ∧
  ∀ (s : State) (src lost cause : Nat), s.powered = true → s.replicas.Nodup →
    ∃ t, exec (.pathLost src lost cause) s = .next t ∧ (∀ o ∈ t.zwx.xfers, o.dst = lost → ∃ y ∈ s.zwx.xfers, y.xid = o.xid ∧ ∃ g, y.use = .mcast g) ∧
      (s.fix.bridge = false → t.brg = s.brg)

/-- Transfers between devices: the target of an XWRITE that its function may make stores the bytes at their addresses alone and answers, an XREAD
answers with the bytes, one that is not allowed answers ERR and stores nothing, and one of T3 waits while Vuindig is not ready; one that names a cache page or a weight goes to that
place; an answer ends its transfer, a page read from its mirror and a weight from a replica are rewritten, and an unanswered transfer is sent
again. -/
def Obligations.TransfersReadAndWrite : Prop :=
  (∀ (s : State) (x : XPkt), s.powered = true → s.xWaits x = true →
    exec (.xwrite x) s = .next s ∧ exec (.xread x) s = .next s) ∧
  (∀ (s : State) (x : XPkt), s.powered = true → s.xWaits x = false → x.place = .memory → s.xAllowed x true = true →
    x.data.length = x.lenM1 + 1 →
    ∃ t, exec (.xwrite x) s = .next t ∧ t.outbox = s.outbox ++ [.xack x.srcOrd (s.xAnswer x false [])] ∧
      (tierOf x.addr ≠ .t3 → ∀ a, t.rd a = s.rd a) ∧
      (Memory.wf s.mem = true → (∀ i < x.data.length, tierOf (x.addr + i) ≠ .t2) → t.bytes x.addr x.data.length = x.data) ∧
      ∀ a, (∀ i < x.data.length, a ≠ x.addr + i ∧ (tierOf (x.addr + i) = .t2 →
          a ∉ s.t2Cells ((x.addr + i) / 2 ^ 36) ((x.addr + i) % 2 ^ 36) ∧ s.mm.fwds = [])) → t.byte a = s.byte a) ∧
  (∀ (s : State) (x : XPkt), s.powered = true → x.place ≠ .memory →
    (x.data.length = x.lenM1 + 1 → exec (.xwrite x) s =
      .next ((s.takePlace x).1.emit (.xack x.srcOrd (s.xAnswer x (!(s.takePlace x).2) [])))) ∧
    (x.data.length ≠ x.lenM1 + 1 → exec (.xwrite x) s = .next (s.emit (.xack x.srcOrd (s.xAnswer x true [])))) ∧
    (∀ b, s.placeBytes x = some b → b.length = x.lenM1 + 1 →
      exec (.xread x) s = .next (s.emit (.xreadRsp x.srcOrd (s.xAnswer x false b)))) ∧
    (s.placeBytes x = none → exec (.xread x) s = .next (s.emit (.xreadRsp x.srcOrd (s.xAnswer x true []))))) ∧
  (∀ (s : State) (x : XPkt), s.powered = true → s.xWaits x = false → x.place = .memory → s.xAllowed x true = false →
    exec (.xwrite x) s = .next (s.emit (.xack x.srcOrd (s.xAnswer x true [])))) ∧
  (∀ (s : State) (x : XPkt), s.powered = true → s.xWaits x = false → x.place = .memory →
    (s.xAllowed x false = true → s.devReadable x.addr (x.lenM1 + 1) = true → exec (.xread x) s =
      .next ((s.rowTraffic x.func false (x.addr, x.lenM1 + 1)).emit (.xreadRsp x.srcOrd (s.xAnswer x false ((List.range (x.lenM1 + 1)).map (fun i => s.devByte (x.addr + i))))))) ∧
    ((s.xAllowed x false = false ∨ s.devReadable x.addr (x.lenM1 + 1) = false) →
      exec (.xread x) s = .next (s.emit (.xreadRsp x.srcOrd (s.xAnswer x true []))))) ∧
  (∀ (s : State) (x : XPkt) (o : XferOut) (p : PageRef), s.powered = true → o.use = .mirror p →
    (s.xfer? x true = some o → x.err = false → exec (.xack x) s = .next (s.endXfer o)) ∧
    (s.xfer? x true = some o → x.err = true → exec (.xack x) s = .next ((s.endXfer o).mirrorEnd p false)) ∧
    (s.xfer? x false = some o → (x.err = true ∨ x.data.length ≠ o.x.lenM1 + 1) →
      exec (.xreadRsp x) s = .next ((s.endXfer o).mirrorLost p)) ∧
    (∀ (u : State) (q : Seq) (c d : KvCtx) (n j : Nat) (g : PageRef), s.xfer? x false = some o → x.err = false →
      x.data.length = o.x.lenM1 + 1 → s.seq? p.seq = some q → s.kv? q.ctx = some c → (s.endXfer o).reframe q.ctx p = some u →
      u.kv? q.ctx = some d → o.x.place = .mirror n g j →
      exec (.xreadRsp x) s = .next ((u.mendPage d p (4096 * j) x.data).mirrorBack p).stallRemote)) ∧
  (∀ (s u : State) (x : XPkt) (o : XferOut) (w : WeightRef), s.powered = true → o.use = .weight → o.x.place = .weights w →
    s.xfer? x false = some o → u = (s.endXfer o).mendPart w o.x.addr x.data →
    (x.err = false → x.data.length = o.x.lenM1 + 1 →
      exec (.xreadRsp x) s = .next (if u.weightAsked w = [] then (u.count Reg.genWueReplicaCnt).stallRemote else u)) ∧
    (x.err = true → exec (.xreadRsp x) s = .next ((s.endXfer o).weightCame o w none))) ∧
  ∀ (s : State) (xid : Nat) (o : XferOut), s.zwx.xfers.find? (fun o => o.xid == xid) = some o →
    ∃ t, exec (.xresend xid) s = .next t ∧ o.sentAt + bits (s.rd Reg.archHoldCfg) 9 0 * 1000 ≤ t.now ∧
      { o with sentAt := t.now } ∈ t.zwx.xfers ∧
      (t.outbox.getLast? = some (if o.write then .xwrite o.dst o.x else .xread o.dst o.x)) ∧ ∀ a, t.byte a = s.byte a

/-! ## Faults, the security root and the management plane -/

/-- After a thermal trip, only a wake pin or MGMT starts a power-up: the trip ends in WATCH with nothing noted and EVENTS.TRIP set; while
TRIP stays set no other command starts one or notes one, but a brown-out, which resets the watch domain and clears TRIP with it
(R387); and the power-up goes on only with every die at least 20 °C below its trip threshold. -/
def Obligations.TripIsFollowedOnlyByPinOrManagement : Prop :=
  (∀ s : State, Registers.wf s.regs = true → s.mainOn = true → ∃ t, exec .thermalTrip s = .next t ∧ t.pwr.st = .watch ∧
    t.pwr.upStep = 0 ∧ t.pwr.downCause = none ∧ t.pwr.wakeNoted = false ∧ bit (t.rd Reg.pwrEvents) 0 = true) ∧
  (∀ (i : Instr) (s t : State), s.pwr.st = .watch → s.pwr.upStep = 0 → s.pwr.downCause = none → s.pwr.wakeNoted = false →
    bit (s.rd Reg.pwrEvents) 0 = true → exec i s = .next t → (t.pwr.upStep ≠ 0 ∨ t.pwr.wakeNoted = true) →
    (∃ k, i = .debounceExpire k) ∨ i = .wakeHoldExpire ∨ i = .i3cAddressMatch ∨ i = .brownout) ∧
  (∀ (s : State) (w : Nat), s.pwr.st = .watch → s.pwr.upStep = 0 → s.pwr.downCause = none → s.pwr.resetHeld = false →
    s.pwr.heldWake = true → s.pwr.lastWake = some w → ∃ t, exec .wakeHoldExpire s = .next t ∧ t.pwr.upStep = 1) ∧
  ∀ (s : State) (r : CoolReading), s.pwr.st = .watch → s.pwr.upStep = 1 → bit (s.rd Reg.pwrEvents) 0 = true →
    ((95 < r.dieMax ∨ 85 < r.stackMax) →
      exec (.powerupChecksPassed r) s = .next { s with pwr := { s.pwr with coolWait := true } }) ∧
    (r.dieMax ≤ 95 → r.stackMax ≤ 85 → s.pwr.inputGood = true → r.inlet ≤ 45 → 20 ≤ r.flow →
      ∃ t, exec (.powerupChecksPassed r) s = .next t ∧ t.pwr.upStep = 2)

/-- Errors in T0 and T1, fences, self-tests, failed stacks and the control cores: a corrected error is counted and logged, a second
uncorrectable one on a line fences its unit, a fence takes its unit out and lists it, a unit that passes its self-test and is not
fenced out is admitted again with its memory zero, a failed stack is listed, logged and its intake moved, and a core restarts after its
watchdog, for good down at the fourth time in 10 minutes. -/
def Obligations.UnitsAreFencedAndReadmitted : Prop :=
  (∀ (s : State) (t1 : Bool) (unit line : Nat) (use : SramUse), line ≠ 0 →
    exec (.sramScrubRead t1 unit line .clean use) s = .next s ∧
    exec (.sramScrubRead t1 unit line .corrected use) s = .next ((s.count (if t1 then Reg.faultT1CeCnt else Reg.faultT0CeCnt)).faultLog
      (if t1 then 0x17 else 0x13) (if t1 then unit / 128 else unit / 2048) 1 1 0
      (if t1 then t1Addr unit (line * 64) else t0Addr unit (line * 64))) ∧
    (s.flt.lineUe.contains (t1, unit, line) = false → ∃ t, exec (.sramScrubRead t1 unit line .uncorrectable use) s = .next t ∧
      t.flt.lineUe.contains (t1, unit, line) = true) ∧
    (s.flt.lineUe.contains (t1, unit, line) = true → ∃ t, exec (.sramScrubRead t1 unit line .uncorrectable use) s = .next t ∧
      (if t1 then ({ whole := true, island := unit, islet := 0 } : FenceUnit)
        else { whole := false, island := unit / 16, islet := unit % 16 }, FenceCause.secondUe) ∈ t.flt.causes)) ∧
  (∀ (s : State) (u : FenceUnit) (c : FenceCause), u.island < 512 → u.islet < 16 → s.causeStands u c = true →
    s.unitFenced u = false → ∃ t, exec (.fenceEffect u c) s = .next t ∧ t.unitFenced u = true ∧
      (∃ e ∈ t.flt.fenceList, e.unit = u ∧ e.fenced = true) ∧ ∀ a, t.byte a = s.byte a) ∧
  (∀ (s : State) (u : FenceUnit), u ∈ s.flt.selfTests → u.whole = false →
    (s.fencedOut u = false → ∃ t, exec (.selfTestDone u []) s = .next t ∧ t.unitFenced u = false ∧ u ∉ t.flt.selfTests ∧
      (Memory.wf s.mem = true → ∀ a, t.byte a = if t0Addr (u.island * 16 + u.islet) 0 ≤ a ∧
        a < t0Addr (u.island * 16 + u.islet) 0 + 2 ^ 17 then 0 else s.byte a)) ∧
    (∀ failed : List Nat, (failed ≠ [] ∨ s.fencedOut u = true) → ∃ t, exec (.selfTestDone u failed) s = .next t ∧
      t.unitFenced u = s.unitFenced u ∧ u ∉ t.flt.selfTests)) ∧
  (∀ (s : State) (u : FenceUnit), u ∈ s.flt.selfTests → u.whole = true → s.fencedOut u = false →
    (∀ j < 16, s.fencedOut { whole := false, island := u.island, islet := j } = false) →
    ∃ t, exec (.selfTestDone u []) s = .next t ∧ t.unitFenced u = false ∧ u ∉ t.flt.selfTests) ∧
  (∀ (s t : State) (stack : Nat), s.powered = true → stack < 32 → s.flt.failedStacks.contains stack = false →
    s.bodiesOn stack = [] → t = ((({ s with flt := { s.flt with failedStacks := s.flt.failedStacks ++ [stack] } } : State).count
      Reg.faultStackFailCnt).faultLog 0x18 stack 7 5 0 (t2Addr stack 0)) →
    exec (.stackFail stack) s = .next (t.moveIntake stack)) ∧
  (∀ (s : State) (core : Nat) (c : CoreSt) (l : List Nat), s.flt.cores[core]? = some c → c.up = true → s.sec.released = true →
    s.powered = true → s.servingCore ≠ some core → l = c.restarts.filter (fun t => decide (s.clock < t + 600000000000)) →
    (3 ≤ l.length → exec (.coreWatchdogExpire core) s = .next { s with flt := { s.flt with
      cores := updAt core (fun _ => { up := false, restarting := false, restarts := l }) s.flt.cores } }) ∧
    (l.length < 3 → exec (.coreWatchdogExpire core) s = .next ((({ s with flt := { s.flt with
      cores := updAt core (fun _ => { up := false, restarting := true, restarts := l ++ [s.clock] }) s.flt.cores } } : State).count
        Reg.faultCoreRestartCnt).faultLog 0x04 0 0x0A 0 0 0))) ∧
  ∀ (s : State) (core : Nat) (c : CoreSt), s.flt.cores[core]? = some c → c.restarting = true →
    exec (.coreRestartDone core) s = .next { s with flt := { s.flt with
      cores := updAt core (fun x => { x with up := true, restarting := false }) s.flt.cores } }

/-- The security root: a slot that verifies runs, the preferred one that does not is counted and the other is tried, and two bad slots
leave RECOVERY; the alias certificate releases the cores; an unlock is granted or counted; and SPDM requests are answered in their
order over a transport that runs, while a core serves (the codes and bodies are PRESUMED, log entry 21). -/
def Obligations.SecurityRootBootsUnlocksAndAttests : Prop :=
  (∀ s : State, s.powered = true → s.sec.step = .verify → exec .bootVerifyDone s =
    .next (if s.fwVerifies (s.sec.slot s.bootSlot) s.sec.minSvn then
      { s with sec := { s.sec.setOk s.bootSlot true with
        step := .identity, running := some s.bootSlot, svn := sigSvn (s.sec.slot s.bootSlot)
        fwDigest := fwDigestOf (s.sec.slot s.bootSlot) } }
    else if s.sec.result = 0 then
      ({ s with sec := { s.sec.setOk s.bootSlot false with result := 1 } } : State).count Reg.secBootFailCnt
    else { s with sec := { s.sec.setOk s.bootSlot false with result := 2, step := .recovery, running := none } })) ∧
  (∀ s : State, s.powered = true → s.sec.step = .identity → exec .aliasCertIssued s =
    .next { s with sec := { s.sec with step := .done, alias_ := some (aliasKey s.sec.cdi), released := true } }) ∧
  (∀ (s : State) (k : List Byte) (nonce : Nat), s.sec.token = some (k, nonce) →
    exec .unlockCheckDone s = .next (if s.judge k nonce = 1 then
      { s with sec := { s.sec with token := none, lastUnlock := 1, scope := s.sec.scope ||| fld k 33 32 } }
    else ({ s with sec := { s.sec with token := none, lastUnlock := s.judge k nonce } } : State).count Reg.secUnlockFailCnt)) ∧
  ∀ (s u : State) (t : Transport), s.mctpRuns t = true → u = s.count Reg.mgmtMctpRxCnt →
    (u.mgmtServes = false → exec (.getVersion t) s = .next u ∧ exec (.getDigests t) s = .next u) ∧
    (u.mgmtServes = true →
      exec (.getVersion t) s = .next ((u.setSpdm t .version).spdmAns t 0x04 [0x12]) ∧
      ((u.spdmOf t = .version ∨ u.spdmOf t = .caps) →
        exec (.getCapabilities t) s = .next ((u.setSpdm t .caps).spdmAns t 0x61 [0x16])) ∧
      (u.spdmOf t = .start → exec (.getCapabilities t) s = .next (u.spdmErr t 0x04 0xE1)) ∧
      ((u.spdmOf t = .caps ∨ u.spdmOf t = .algs) →
        exec (.negotiateAlgorithms t) s = .next ((u.setSpdm t .algs).spdmAns t 0x63 [0x80, 0x02, 0x04])) ∧
      (∀ code, exec (.spdmUnsupportedRequest t code) s = .next (u.spdmErr t 0x07 code)) ∧
      (u.spdmOf t ≠ .algs → exec (.getDigests t) s = .next (u.spdmErr t 0x04 0x81)) ∧
      (u.spdmOf t = .algs →
        exec (.getDigests t) s = .next (u.spdmAns t 0x01 (1 :: sha384 u.chain)) ∧
        (∀ off len, exec (.getCertificate t 0 off len) s =
          .next (if off < u.chain.length then u.spdmAns t 0x02 ((u.chain.drop off).take len) else u.spdmErr t 0x01 0)) ∧
        (∀ slot off len, slot ≠ 0 → exec (.getCertificate t slot off len) s = .next (u.spdmErr t 0x01 0)) ∧
        (∀ nonce, exec (.challenge t 0 nonce) s = .next (({ u with fresh := u.fresh + 1 } : State).spdmAns t 0x03
          (sha384 u.chain ++ leBytes 32 (Config.random u.fresh) ++
            u.aliasSign (nonce ++ (sha384 u.chain ++ leBytes 32 (Config.random u.fresh)))))) ∧
        (∀ index nonce, 1 ≤ index → index ≤ 6 →
          exec (.getMeasurements t index nonce) s = .next (({ u with fresh := u.fresh + 1 } : State).spdmAns t 0x60
            ((BitVec.ofNat 8 index :: u.measurement index) ++ leBytes 32 (Config.random u.fresh) ++
              u.aliasSign (nonce ++ ((BitVec.ofNat 8 index :: u.measurement index) ++ leBytes 32 (Config.random u.fresh)))))) ∧
        (∀ index nonce, 6 < index → index ≠ 0xFF → exec (.getMeasurements t index nonce) s = .next (u.spdmErr t 0x01 0))))

/-- The management plane: an endpoint ID is taken, a message of another type or too long is discarded and counted, sensors, thresholds,
event receivers, queued events and effecters answer while a core serves, and each management period ends 1 ms after the last, with the
log and the lists copied to flash (the answer codes are PRESUMED, log entry 22). -/
def Obligations.ManagementMessagesAreAnswered : Prop :=
  (∀ (s u : State) (t : Transport), s.mctpRuns t = true → u = s.count Reg.mgmtMctpRxCnt →
    (∀ eid, eid % 256 ≠ 0 → eid % 256 ≠ 255 → ∃ v, exec (.mctpControl t eid) s = .next v ∧
      v.mgmt.eids = u.mgmt.eids.filter (fun e => e.1 != t) ++ [(t, eid % 256)] ∧ v.outbox = u.outbox ++ [.mgmt t (.control 0)]) ∧
    (∀ eid, (eid % 256 = 0 ∨ eid % 256 = 255) → exec (.mctpControl t eid) s = .next (u.emit (.mgmt t (.control 2)))) ∧
    (∀ ty len, (mctpTypes.contains ty = false ∨ 4096 < len) →
      exec (.mctpDiscard t ty len) s = .next (u.count Reg.mgmtMctpDropCnt)) ∧
    (u.mgmtServes = true →
      (∀ cmd, 1 ≤ cmd → cmd ≤ 5 → exec (.pldmBaseRequest t cmd) s = .next (u.pldmAns t 0 (if cmd = 4 then [0x25] else []))) ∧
      (∀ ty cmd, exec (.pldmUnsupported t ty cmd) s = .next (u.pldmNo t)) ∧
      (∀ id, (numericIds ++ stateIds).contains id = true →
        exec (.pldmSensorRead t id) s = .next (u.pldmAns t 0 [id, u.mgmt.sensor id])) ∧
      (∀ id, (numericIds ++ stateIds).contains id = false → exec (.pldmSensorRead t id) s = .next (u.pldmAns t 0x80 [])) ∧
      (∀ id warn crit, numericIds.contains id = true → ∃ v, exec (.setSensorThresholds t id warn crit) s = .next v ∧
        v.mgmt.thresholdsOf id = (warn, crit) ∧ (∀ j, j ≠ id → v.mgmt.thresholdsOf j = u.mgmt.thresholdsOf j)) ∧
      (∀ eid, exec (.setEventReceiver t eid) s = .next (({ u with mgmt := { u.mgmt with
        receivers := u.mgmt.receivers.filter (fun r => r.1 != t) ++ (if eid = 0 then [] else [(t, eid)]) } } : State).pldmAns t 0 [])) ∧
      (∀ q, u.mgmt.queue.find? (fun q => q.1 == t) = some q → exec (.pollForPlatformEventMessage t) s =
        .next (({ u with mgmt := { u.mgmt with queue := u.mgmt.queue.erase q } } : State).emit (.mgmt t q.2))) ∧
      (u.mgmt.queue.find? (fun q => q.1 == t) = none → exec (.pollForPlatformEventMessage t) s = .next (u.pldmAns t 0 [])) ∧
      (∀ v, 1400 ≤ v → v ≤ 2400 → exec (.effecterWrite t 300 v) s =
        .next ((u.writeWord .mgmt Reg.pwrCap (setBits (u.rd Reg.pwrCap) 11 0 v)).pldmAns t 0 [])) ∧
      (∀ v, v ≤ 100 → exec (.effecterWrite t 302 v) s =
        .next ((u.writeWord .mgmt Reg.pwrCoolCfg (setBits (u.rd Reg.pwrCoolCfg) 23 16 v)).pldmAns t 0 [])) ∧
      (∀ v, v < 16 → exec (.effecterWrite t 301 v) s = .next ((u.writeWord .mgmt Reg.pwrReq v).pldmAns t 0 [])) ∧
      (∀ id v, (id = 300 ∧ (v < 1400 ∨ 2400 < v)) ∨ (id = 301 ∧ 16 ≤ v) ∨ (id = 302 ∧ 100 < v) →
        exec (.effecterWrite t id v) s = .next (u.pldmAns t 0x02 [])) ∧
      (∀ id v, (id < 300 ∨ 302 < id) → exec (.effecterWrite t id v) s = .next (u.pldmAns t 0x80 [])))) ∧
  ∀ s : State, s.powered = true → ∃ t, exec .mgmtPeriod s = .next t ∧ t.mgmt.period = s.mgmt.period + 1000000 ∧
    s.mgmt.period + 1000000 ≤ t.now ∧ (∀ a, t.byte a = s.byte a) ∧
    (s.mgmtServes = true → t.flt.copied = s.flt.logSeq ∧ t.flt.storedList = s.flt.fenceList ∧ t.mm.retiredStored = s.mm.retired)

/-- A firmware update while a core serves: it empties the slot that does not run and asks for the image in chunks of 1,024 bytes, each
chunk is stored behind the last, a complete image is verified as boot would, BOOT_PREF names it when it is applied, activation ends
the update, and a cancel or 60 s without data leaves the slot invalid. -/
def Obligations.FirmwareIsUpdatedInTheOtherSlot : Prop :=
  (∀ (s u : State) (t : Transport) (len : Nat), s.sec.step ≠ .recovery → s.mctpRuns t = true → u = s.count Reg.mgmtMctpRxCnt →
    u.mgmtServes = true →
    (s.mgmt.update = none → ∃ v w, exec (.requestUpdate t len) s = .next v ∧ v.mgmt.update = some w ∧ w.t = t ∧
      w.slotB = (s.sec.running == some false) ∧ w.len = len ∧ w.got = [] ∧ v.sec.slot w.slotB = [] ∧
      v.sec.slot (!w.slotB) = s.sec.slot (!w.slotB) ∧
      (0 < len → v.outbox = u.outbox ++ [.mgmt t (.pldm 0 []), .mgmt t (.needFirmware 0 (min 1024 len))])) ∧
    (s.mgmt.update.isSome = true → exec (.requestUpdate t len) s = .next (u.pldmAns t 0x81 []))) ∧
  (∀ (s u : State) (w : UpdateSt) (chunk : Body), s.sec.step ≠ .recovery → s.mgmt.update = some w → s.mctpRuns w.t = true →
    u = s.count Reg.mgmtMctpRxCnt → u.mgmtServes = true → chunk ≠ [] → chunk.length = min 1024 (w.len - w.got.length) →
    ∃ v, exec (.requestFirmwareData w.got.length chunk) s = .next v ∧
      v.mgmt.update = some { w with got := w.got ++ chunk, lastAnswer := s.now } ∧ v.sec.slot w.slotB = w.got ++ chunk ∧
      v.sec.slot (!w.slotB) = s.sec.slot (!w.slotB)) ∧
  (∀ (s : State) (w : UpdateSt), s.powered = true → s.mgmt.update = some w → w.len ≤ w.got.length → w.verified = none →
    ∃ v, exec .verifyComplete s = .next v ∧
      v.mgmt.update = (if s.fwVerifies (s.sec.slot w.slotB) s.sec.minSvn then some { w with verified := some true } else none) ∧
      v.sec.slot w.slotB = (if s.fwVerifies (s.sec.slot w.slotB) s.sec.minSvn then s.sec.slot w.slotB else []) ∧
      v.sec.slot (!w.slotB) = s.sec.slot (!w.slotB)) ∧
  (∀ (s : State) (w : UpdateSt), Registers.wf s.regs = true → s.powered = true → s.mgmt.update = some w → w.verified = some true →
    w.applied = false → ∃ v, exec .applyComplete s = .next v ∧ bit (v.rd Reg.secCfg) 0 = w.slotB ∧
      v.mgmt.update = some { w with applied := true }) ∧
  (∀ (s u : State) (w : UpdateSt), s.sec.step ≠ .recovery → s.mctpRuns w.t = true → u = s.count Reg.mgmtMctpRxCnt →
    u.mgmtServes = true → s.mgmt.update = some w →
    (w.applied = true → exec (.activateFirmware w.t) s =
      .next (({ u with mgmt := { u.mgmt with update := none } } : State).pldmAns w.t 0 [0x1A, 0])) ∧
    (w.applied = false → exec (.activateFirmware w.t) s = .next (u.pldmAns w.t 0x84 [])) ∧
    (w.applied = false → ∃ v, exec (.cancelUpdate w.t) s = .next v ∧ v.mgmt.update = none ∧ v.sec.slot w.slotB = [] ∧
      ∀ a, v.rd a = u.rd a)) ∧
  ∀ (s : State) (w : UpdateSt), s.powered = true → s.mgmt.update = some w → w.got.length < w.len →
    ∃ v, exec .updateTimeout s = .next v ∧ v.mgmt.update = none ∧ v.sec.slot w.slotB = [] ∧
      w.lastAnswer + 60000000000 ≤ v.now
end

