-- ==== Sys2Proof/Laws/Maps.lean ====
section
/-! SUPPORT. The canonical form of a sparse map: a write and a filter keep it, and a read after a write. -/

namespace Sys2Proof.Machine

set_option linter.all false
set_option Elab.async false

variable {α : Type} [DecidableEq α]

/-- Every key of a map lies above `k`. -/
def above (k : Nat) (m : List (Nat × α)) : Prop := ∀ e ∈ m, k < e.1

theorem mapWf_cons (d : Nat → α) (e : Nat × α) (m : List (Nat × α)) :
    mapWf d (e :: m) = true ↔ e.2 ≠ d e.1 ∧ above e.1 m ∧ mapWf d m = true := by
  induction m generalizing e with
  | nil => simp [mapWf, above]
  | cons f m ih =>
    rw [mapWf, Bool.and_eq_true, Bool.and_eq_true, decide_eq_true_iff, decide_eq_true_iff]
    constructor
    · rintro ⟨⟨h1, h2⟩, h3⟩
      refine ⟨h1, ?_, h3⟩
      intro g hg
      rcases List.mem_cons.1 hg with rfl | hg
      · exact h2
      · exact Nat.lt_trans h2 (((ih f).1 h3).2.1 g hg)
    · rintro ⟨h1, h2, h3⟩
      exact ⟨⟨h1, h2 f (by simp)⟩, h3⟩

/-- What a write lists: the entry written, or one that stood there before. -/
theorem mem_mapPut {d : α} {k : Nat} {v : α} {m : List (Nat × α)} {g : Nat × α} (h : g ∈ mapPut d k v m) : g = (k, v) ∨ g ∈ m := by
  induction m with
  | nil => unfold mapPut at h; split at h <;> simp_all
  | cons e m ih =>
    unfold mapPut at h
    split at h
    · split at h
      · exact .inr h
      · exact (List.mem_cons.1 h)
    · split at h
      · split at h
        · exact .inr (List.mem_cons_of_mem _ h)
        · exact (List.mem_cons.1 h).imp_right (List.mem_cons_of_mem _)
      · rcases List.mem_cons.1 h with rfl | h
        · exact .inr (by simp)
        · exact (ih h).imp_right (List.mem_cons_of_mem _)

theorem mapPut_above (d : α) (k j : Nat) (v : α) (m : List (Nat × α)) (hj : j < k) (h : above j m) : above j (mapPut d k v m) := by
  intro g hg
  rcases mem_mapPut hg with rfl | hg
  · exact hj
  · exact h g hg

theorem mapPut_wf (d : Nat → α) (k : Nat) (v : α) (m : List (Nat × α)) (h : mapWf d m = true) : mapWf d (mapPut (d k) k v m) = true := by
  induction m with
  | nil => unfold mapPut; split <;> simp_all [mapWf]
  | cons e m ih =>
    obtain ⟨h1, h2, h3⟩ := (mapWf_cons d e m).1 h
    unfold mapPut
    split
    · split
      · exact h
      · refine (mapWf_cons d _ _).2 ⟨by assumption, ?_, h⟩
        intro g hg
        rcases List.mem_cons.1 hg with rfl | hg
        · assumption
        · exact Nat.lt_trans ‹k < e.1› (h2 g hg)
    · split
      · split
        · exact h3
        · exact (mapWf_cons d _ _).2 ⟨by simp_all, by simp_all, h3⟩
      · exact (mapWf_cons d _ _).2 ⟨h1, mapPut_above _ _ _ _ _ (by omega) h2, ih h3⟩

theorem mapFilter_wf (d : Nat → α) (p : Nat × α → Bool) (m : List (Nat × α)) (h : mapWf d m = true) : mapWf d (m.filter p) = true := by
  induction m with
  | nil => exact h
  | cons e m ih =>
    obtain ⟨h1, h2, h3⟩ := (mapWf_cons d e m).1 h
    rw [List.filter_cons]
    split
    · exact (mapWf_cons d _ _).2 ⟨h1, fun g hg => h2 g (List.mem_filter.1 hg).1, ih h3⟩
    · exact ih h3

omit [DecidableEq α] in
theorem mapGet_above (d : α) (k : Nat) (m : List (Nat × α)) (h : above k m) : mapGet d k m = d := by
  induction m with
  | nil => rfl
  | cons e m ih =>
    have h1 : k < e.1 := h e (by simp)
    rw [mapGet, if_neg (by omega)]
    exact ih (fun g hg => h g (by simp [hg]))

/-- Reading the key just written answers the value written. -/
theorem mapGet_put_same (d : Nat → α) (k : Nat) (v : α) (m : List (Nat × α)) (h : mapWf d m = true) : mapGet (d k) k (mapPut (d k) k v m) = v := by
  induction m with
  | nil => unfold mapPut; split <;> simp_all [mapGet]
  | cons e m ih =>
    obtain ⟨h1, h2, h3⟩ := (mapWf_cons d e m).1 h
    unfold mapPut
    split
    · split
      · rename_i hk hv
        rw [hv, mapGet, if_neg (by omega)]
        exact mapGet_above _ _ _ (fun g hg => Nat.lt_trans hk (h2 g hg))
      · simp [mapGet]
    · split
      · rename_i hk
        split
        · rename_i hv; rw [hv]; exact mapGet_above _ _ _ (by rw [hk]; exact h2)
        · simp [mapGet]
      · rename_i hk; rw [mapGet, if_neg (fun hq => hk hq.symm)]; exact ih h3

/-- Reading another key answers what it held. -/
theorem mapGet_put_other (d d2 : α) (k j : Nat) (v : α) (m : List (Nat × α)) (hj : j ≠ k) : mapGet d2 j (mapPut d k v m) = mapGet d2 j m := by
  induction m with
  | nil => unfold mapPut; split <;> simp [mapGet, Ne.symm hj]
  | cons e m ih =>
    unfold mapPut
    split
    · split
      · rfl
      · rw [mapGet, if_neg (Ne.symm hj)]
    · split
      · rename_i hk
        have hq : e.1 ≠ j := fun hq => hj (hq.symm.trans hk.symm)
        split
        · rw [mapGet, if_neg hq]
        · rw [mapGet, mapGet, if_neg (Ne.symm hj), if_neg hq]
      · rw [mapGet, mapGet, ih]

/-- A map built by writes alone is in canonical form. -/
theorem foldl_mapPut_wf {β : Type} (d : Nat → α) (k : β → Nat) (v : β → α) (l : List β) (m : List (Nat × α)) (h : mapWf d m = true) :
    mapWf d (l.foldl (fun acc e => mapPut (d (k e)) (k e) (v e) acc) m) = true := by
  induction l generalizing m with
  | nil => exact h
  | cons e l ih => exact ih _ (mapPut_wf d _ _ m h)

theorem memWf_filter (p : Nat × Byte → Bool) (m : List (Nat × Byte)) (h : Memory.wf m = true) : Memory.wf (m.filter p) = true :=
  mapFilter_wf (fun _ => 0) p m h

theorem regWf_filter (p : Nat × Word → Bool) (m : List (Nat × Word)) (h : Registers.wf m = true) : Registers.wf (m.filter p) = true :=
  mapFilter_wf resetWord p m h

end Sys2Proof.Machine
end

