-- ==== Sys2Proof/Laws/Within.lean ====
section
/-! SUPPORT. The relation every operation is described by: which fields of the state it may change, and that it keeps the invariant. -/

namespace Sys2Proof.Machine

/-- The fields of the state: one name for each field. -/
inductive Field where
  | pending | outbox | fresh | clock | now | latches | regs | busy | notReady | waits | mem | fix | pwr | flt
  | mm | sch | cmd | brg | zwx | fl | sec | mgmt | ar | idx | kv | gen
  deriving DecidableEq, Repr

/-- Two states hold the same value in a part. -/
def Field.same : Field → State → State → Prop
  | .pending, s, t => t.pending = s.pending
  | .outbox, s, t => t.outbox = s.outbox
  | .fresh, s, t => t.fresh = s.fresh
  | .clock, s, t => t.clock = s.clock
  | .now, s, t => t.now = s.now
  | .latches, s, t => t.latches = s.latches
  | .regs, s, t => t.regs = s.regs
  | .busy, s, t => t.busy = s.busy
  | .notReady, s, t => t.notReady = s.notReady
  | .waits, s, t => t.waits = s.waits
  | .mem, s, t => t.mem = s.mem
  | .fix, s, t => t.fix = s.fix
  | .pwr, s, t => t.pwr = s.pwr
  | .flt, s, t => t.flt = s.flt
  | .mm, s, t => t.mm = s.mm
  | .sch, s, t => t.sch = s.sch
  | .cmd, s, t => t.cmd = s.cmd
  | .brg, s, t => t.brg = s.brg
  | .zwx, s, t => t.zwx = s.zwx
  | .fl, s, t => t.fl = s.fl
  | .sec, s, t => t.sec = s.sec
  | .mgmt, s, t => t.mgmt = s.mgmt
  | .ar, s, t => t.ar = s.ar
  | .idx, s, t => t.idx = s.idx
  | .kv, s, t => t.kv = s.kv
  | .gen, s, t => t.gen = s.gen

theorem Field.same_refl (p : Field) (s : State) : p.same s s := by cases p <;> rfl

theorem Field.same_trans {p : Field} {s t u : State} (h : p.same s t) (k : p.same t u) : p.same s u := by
  cases p <;> exact Eq.trans k h

/-- Every part of one list stands in another. -/
def Field.sub (qs ps : List Field) : Bool := qs.all (fun q => decide (q ∈ ps))

theorem Field.sub_trans {as bs cs : List Field} (h : Field.sub as bs = true) (k : Field.sub bs cs = true) : Field.sub as cs = true :=
  List.all_eq_true.2 (fun q hq => List.all_eq_true.1 k q (of_decide_eq_true (List.all_eq_true.1 h q hq)))

theorem Field.mem_of_sub {qs ps : List Field} (h : Field.sub qs ps = true) {p : Field} (hp : p ∈ qs) : p ∈ ps :=
  of_decide_eq_true (List.all_eq_true.1 h p hp)

/-- Between `s` and `t` only the parts `ps` may differ, and a state that meets the invariant is followed by one that does. -/
structure Within (ps : List Field) (s t : State) : Prop where
  same : ∀ p, p ∉ ps → p.same s t
  inv : Inv s → Inv t
  clockLe : s.clock ≤ t.clock

namespace Within

variable {ps qs : List Field} {s t u : State} {α β : Type}

theorem refl : Within ps s s := ⟨fun p _ => p.same_refl s, id, Nat.le_refl _⟩

theorem trans (h : Within ps s t) (k : Within ps t u) : Within ps s u :=
  ⟨fun p hp => Field.same_trans (h.same p hp) (k.same p hp), fun hi => k.inv (h.inv hi), Nat.le_trans h.clockLe k.clockLe⟩

theorem mono (h : Within qs s t) (hq : Field.sub qs ps = true) : Within ps s t :=
  ⟨fun p hp => h.same p (fun hm => hp (Field.mem_of_sub hq hm)), h.inv, h.clockLe⟩

/-- One more operation: what it changes is among the parts allowed. -/
theorem andThen (k : Within qs t u) (hq : Field.sub qs ps = true) (h : Within ps s t) : Within ps s u := h.trans (k.mono hq)

theorem of_eq (h : t = s) : Within ps s t := h ▸ refl

theorem have_fn1 {f : State → State} (k : ∀ v, Within ps v (f v)) (h : (∀ v, Within ps v (f v)) → Within ps s u) : Within ps s u := h k

theorem have_fn2 {f : State → α → State} (k : ∀ v a, Within ps v (f v a)) (h : (∀ v a, Within ps v (f v a)) → Within ps s u) :
    Within ps s u := h k

theorem have_fn3 {f : State → α → β → State} (k : ∀ v a b, Within ps v (f v a b)) (h : (∀ v a b, Within ps v (f v a b)) → Within ps s u) :
    Within ps s u := h k

theorem have_of1 {f : α → State} (k : ∀ a, Within ps s (f a)) (h : (∀ a, Within ps s (f a)) → Within ps s u) : Within ps s u := h k

theorem have_of2 {f : α → β → State} (k : ∀ a b, Within ps s (f a b)) (h : (∀ a b, Within ps s (f a b)) → Within ps s u) : Within ps s u := h k

theorem have_ (k : Within ps s t) (h : Within ps s t → Within ps s u) : Within ps s u := h k

theorem ite {c : Prop} [Decidable c] (h : c → Within ps s t) (k : ¬c → Within ps s u) : Within ps s (if c then t else u) := by
  split
  · exact h ‹_›
  · exact k ‹_›

theorem ite_fst {c : Prop} [Decidable c] {p q : State × β} (h : c → Within ps s p.1) (k : ¬c → Within ps s q.1) :
    Within ps s (if c then p else q).1 := by
  split
  · exact h ‹_›
  · exact k ‹_›

theorem ite_snd {c : Prop} [Decidable c] {p q : β × State} (h : c → Within ps s p.2) (k : ¬c → Within ps s q.2) :
    Within ps s (if c then p else q).2 := by
  split
  · exact h ‹_›
  · exact k ‹_›

theorem foldl {f : State → α → State} {l : List α} (h : Within ps s t) (hf : ∀ u x, Within ps u (f u x)) : Within ps s (l.foldl f t) := by
  induction l generalizing t with
  | nil => exact h
  | cons a l ih => exact ih (h.trans (hf t a))

theorem foldl_fst {f : State × β → α → State × β} {l : List α} {p : State × β} (h : Within ps s p.1)
    (hf : ∀ q x, Within ps q.1 (f q x).1) : Within ps s (l.foldl f p).1 := by
  induction l generalizing p with
  | nil => exact h
  | cons a l ih => exact ih (h.trans (hf p a))

theorem foldl_snd {f : β × State → α → β × State} {l : List α} {p : β × State} (h : Within ps s p.2)
    (hf : ∀ q x, Within ps q.2 (f q x).2) : Within ps s (l.foldl f p).2 := by
  induction l generalizing p with
  | nil => exact h
  | cons a l ih => exact ih (h.trans (hf p a))

theorem foldr {f : α → State → State} {l : List α} (h : Within ps s t) (hf : ∀ u x, Within ps u (f x u)) : Within ps s (l.foldr f t) := by
  induction l with
  | nil => exact h
  | cons a l ih => exact ih.trans (hf _ a)

/-- The state of a pair that a match has named. -/
theorem fst {p : State × β} {x : β} (k : Within ps s p.1) (h : p = (t, x)) : Within ps s t := by rw [h] at k; exact k

theorem mid {γ : Type} {p : β × State × γ} {x : β} {y : γ} (k : Within ps s p.2.1) (h : p = (x, t, y)) : Within ps s t := by
  rw [h] at k; exact k

theorem third {γ : Type} {p : β × γ × State} {x : β} {y : γ} (k : Within ps s p.2.2) (h : p = (x, y, t)) : Within ps s t := by
  rw [h] at k; exact k

theorem snd {p : β × State} {x : β} (k : Within ps s p.2) (h : p = (x, t)) : Within ps s t := by rw [h] at k; exact k

theorem pending (h : Within ps s t) (hp : .pending ∉ ps := by decide) : t.pending = s.pending := h.same .pending hp
theorem outbox (h : Within ps s t) (hp : .outbox ∉ ps := by decide) : t.outbox = s.outbox := h.same .outbox hp
theorem fresh (h : Within ps s t) (hp : .fresh ∉ ps := by decide) : t.fresh = s.fresh := h.same .fresh hp
theorem clock (h : Within ps s t) (hp : .clock ∉ ps := by decide) : t.clock = s.clock := h.same .clock hp
theorem now (h : Within ps s t) (hp : .now ∉ ps := by decide) : t.now = s.now := h.same .now hp
theorem latches (h : Within ps s t) (hp : .latches ∉ ps := by decide) : t.latches = s.latches := h.same .latches hp
theorem regs (h : Within ps s t) (hp : .regs ∉ ps := by decide) : t.regs = s.regs := h.same .regs hp
theorem busy (h : Within ps s t) (hp : .busy ∉ ps := by decide) : t.busy = s.busy := h.same .busy hp
theorem notReady (h : Within ps s t) (hp : .notReady ∉ ps := by decide) : t.notReady = s.notReady := h.same .notReady hp
theorem waits (h : Within ps s t) (hp : .waits ∉ ps := by decide) : t.waits = s.waits := h.same .waits hp
theorem mem (h : Within ps s t) (hp : .mem ∉ ps := by decide) : t.mem = s.mem := h.same .mem hp
theorem fix (h : Within ps s t) (hp : .fix ∉ ps := by decide) : t.fix = s.fix := h.same .fix hp
theorem pwr (h : Within ps s t) (hp : .pwr ∉ ps := by decide) : t.pwr = s.pwr := h.same .pwr hp
theorem flt (h : Within ps s t) (hp : .flt ∉ ps := by decide) : t.flt = s.flt := h.same .flt hp
theorem mm (h : Within ps s t) (hp : .mm ∉ ps := by decide) : t.mm = s.mm := h.same .mm hp
theorem sch (h : Within ps s t) (hp : .sch ∉ ps := by decide) : t.sch = s.sch := h.same .sch hp
theorem cmd (h : Within ps s t) (hp : .cmd ∉ ps := by decide) : t.cmd = s.cmd := h.same .cmd hp
theorem brg (h : Within ps s t) (hp : .brg ∉ ps := by decide) : t.brg = s.brg := h.same .brg hp
theorem zwx (h : Within ps s t) (hp : .zwx ∉ ps := by decide) : t.zwx = s.zwx := h.same .zwx hp
theorem fl (h : Within ps s t) (hp : .fl ∉ ps := by decide) : t.fl = s.fl := h.same .fl hp
theorem sec (h : Within ps s t) (hp : .sec ∉ ps := by decide) : t.sec = s.sec := h.same .sec hp
theorem mgmt (h : Within ps s t) (hp : .mgmt ∉ ps := by decide) : t.mgmt = s.mgmt := h.same .mgmt hp
theorem ar (h : Within ps s t) (hp : .ar ∉ ps := by decide) : t.ar = s.ar := h.same .ar hp
theorem idx (h : Within ps s t) (hp : .idx ∉ ps := by decide) : t.idx = s.idx := h.same .idx hp
theorem kv (h : Within ps s t) (hp : .kv ∉ ps := by decide) : t.kv = s.kv := h.same .kv hp
theorem gen (h : Within ps s t) (hp : .gen ∉ ps := by decide) : t.gen = s.gen := h.same .gen hp

/-! ## Record updates -/


theorem set_ar {x0 : ArithSt} (hq : Field.sub [.ar] ps = true) (h : Within ps s t) : Within ps s { t with ar := x0 } :=
  andThen (t := t) (qs := [.ar]) ⟨fun p hp => by cases p <;> first | rfl | exact absurd hp (by decide), fun hi => ⟨hi.mem, hi.regs, hi.cap⟩, Nat.le_refl _⟩ hq h

theorem set_brg {x0 : BridgeSt} (hq : Field.sub [.brg] ps = true) (h : Within ps s t) : Within ps s { t with brg := x0 } :=
  andThen (t := t) (qs := [.brg]) ⟨fun p hp => by cases p <;> first | rfl | exact absurd hp (by decide), fun hi => ⟨hi.mem, hi.regs, hi.cap⟩, Nat.le_refl _⟩ hq h

theorem set_busy {x0 : List Nat} (hq : Field.sub [.busy] ps = true) (h : Within ps s t) : Within ps s { t with busy := x0 } :=
  andThen (t := t) (qs := [.busy]) ⟨fun p hp => by cases p <;> first | rfl | exact absurd hp (by decide), fun hi => ⟨hi.mem, hi.regs, hi.cap⟩, Nat.le_refl _⟩ hq h

theorem set_cmd {x0 : CmdSt} (hq : Field.sub [.cmd] ps = true) (h : Within ps s t) : Within ps s { t with cmd := x0 } :=
  andThen (t := t) (qs := [.cmd]) ⟨fun p hp => by cases p <;> first | rfl | exact absurd hp (by decide), fun hi => ⟨hi.mem, hi.regs, hi.cap⟩, Nat.le_refl _⟩ hq h

theorem set_fl {x0 : FlashSt} (hq : Field.sub [.fl] ps = true) (h : Within ps s t) : Within ps s { t with fl := x0 } :=
  andThen (t := t) (qs := [.fl]) ⟨fun p hp => by cases p <;> first | rfl | exact absurd hp (by decide), fun hi => ⟨hi.mem, hi.regs, hi.cap⟩, Nat.le_refl _⟩ hq h

theorem set_flt {x0 : FaultSt} (hq : Field.sub [.flt] ps = true) (h : Within ps s t) : Within ps s { t with flt := x0 } :=
  andThen (t := t) (qs := [.flt]) ⟨fun p hp => by cases p <;> first | rfl | exact absurd hp (by decide), fun hi => ⟨hi.mem, hi.regs, hi.cap⟩, Nat.le_refl _⟩ hq h

theorem set_fresh {x0 : Nat} (hq : Field.sub [.fresh] ps = true) (h : Within ps s t) : Within ps s { t with fresh := x0 } :=
  andThen (t := t) (qs := [.fresh]) ⟨fun p hp => by cases p <;> first | rfl | exact absurd hp (by decide), fun hi => ⟨hi.mem, hi.regs, hi.cap⟩, Nat.le_refl _⟩ hq h

theorem set_gen {x0 : GenSt} (hq : Field.sub [.gen] ps = true) (h : Within ps s t) : Within ps s { t with gen := x0 } :=
  andThen (t := t) (qs := [.gen]) ⟨fun p hp => by cases p <;> first | rfl | exact absurd hp (by decide), fun hi => ⟨hi.mem, hi.regs, hi.cap⟩, Nat.le_refl _⟩ hq h

theorem set_idx {x0 : IdxSt} (hq : Field.sub [.idx] ps = true) (h : Within ps s t) : Within ps s { t with idx := x0 } :=
  andThen (t := t) (qs := [.idx]) ⟨fun p hp => by cases p <;> first | rfl | exact absurd hp (by decide), fun hi => ⟨hi.mem, hi.regs, hi.cap⟩, Nat.le_refl _⟩ hq h

theorem set_kv {x0 : KvSt} (hq : Field.sub [.kv] ps = true) (h : Within ps s t) : Within ps s { t with kv := x0 } :=
  andThen (t := t) (qs := [.kv]) ⟨fun p hp => by cases p <;> first | rfl | exact absurd hp (by decide), fun hi => ⟨hi.mem, hi.regs, hi.cap⟩, Nat.le_refl _⟩ hq h

theorem set_latches {x0 : List (Nat × Nat)} (hq : Field.sub [.latches] ps = true) (h : Within ps s t) : Within ps s { t with latches := x0 } :=
  andThen (t := t) (qs := [.latches]) ⟨fun p hp => by cases p <;> first | rfl | exact absurd hp (by decide), fun hi => ⟨hi.mem, hi.regs, hi.cap⟩, Nat.le_refl _⟩ hq h

theorem set_mem {x0 : List (Nat × Byte)} (hq : Field.sub [.mem] ps = true) (h : Within ps s t)
    (hm : Memory.wf t.mem = true → Memory.wf x0 = true) : Within ps s { t with mem := x0 } :=
  andThen (t := t) (qs := [.mem]) ⟨fun p hp => by cases p <;> first | rfl | exact absurd hp (by decide), fun hi => ⟨hm hi.mem, hi.regs, hi.cap⟩, Nat.le_refl _⟩ hq h

theorem set_mgmt {x0 : MgmtSt} (hq : Field.sub [.mgmt] ps = true) (h : Within ps s t) : Within ps s { t with mgmt := x0 } :=
  andThen (t := t) (qs := [.mgmt]) ⟨fun p hp => by cases p <;> first | rfl | exact absurd hp (by decide), fun hi => ⟨hi.mem, hi.regs, hi.cap⟩, Nat.le_refl _⟩ hq h

theorem set_mm {x0 : MemSt} (hq : Field.sub [.mm] ps = true) (h : Within ps s t) : Within ps s { t with mm := x0 } :=
  andThen (t := t) (qs := [.mm]) ⟨fun p hp => by cases p <;> first | rfl | exact absurd hp (by decide), fun hi => ⟨hi.mem, hi.regs, hi.cap⟩, Nat.le_refl _⟩ hq h

theorem set_outbox {x0 : List Out} (hq : Field.sub [.outbox] ps = true) (h : Within ps s t) : Within ps s { t with outbox := x0 } :=
  andThen (t := t) (qs := [.outbox]) ⟨fun p hp => by cases p <;> first | rfl | exact absurd hp (by decide), fun hi => ⟨hi.mem, hi.regs, hi.cap⟩, Nat.le_refl _⟩ hq h

theorem set_pending {x0 : List Instr} (hq : Field.sub [.pending] ps = true) (h : Within ps s t) : Within ps s { t with pending := x0 } :=
  andThen (t := t) (qs := [.pending]) ⟨fun p hp => by cases p <;> first | rfl | exact absurd hp (by decide), fun hi => ⟨hi.mem, hi.regs, hi.cap⟩, Nat.le_refl _⟩ hq h

theorem set_pwr {x0 : PwrSt} (hq : Field.sub [.pwr] ps = true) (h : Within ps s t)
    (hc : 8 ≤ t.pwr.nCap ∧ t.pwr.nCap ≤ 32 → 8 ≤ PwrSt.nCap x0 ∧ PwrSt.nCap x0 ≤ 32) : Within ps s { t with pwr := x0 } :=
  andThen (t := t) (qs := [.pwr]) ⟨fun p hp => by cases p <;> first | rfl | exact absurd hp (by decide), fun hi => ⟨hi.mem, hi.regs, hc hi.cap⟩, Nat.le_refl _⟩ hq h

theorem set_regs {x0 : List (Nat × Word)} (hq : Field.sub [.regs] ps = true) (h : Within ps s t)
    (hr : Registers.wf t.regs = true → Registers.wf x0 = true) : Within ps s { t with regs := x0 } :=
  andThen (t := t) (qs := [.regs]) ⟨fun p hp => by cases p <;> first | rfl | exact absurd hp (by decide), fun hi => ⟨hi.mem, hr hi.regs, hi.cap⟩, Nat.le_refl _⟩ hq h

theorem set_sch {x0 : SchedSt} (hq : Field.sub [.sch] ps = true) (h : Within ps s t) : Within ps s { t with sch := x0 } :=
  andThen (t := t) (qs := [.sch]) ⟨fun p hp => by cases p <;> first | rfl | exact absurd hp (by decide), fun hi => ⟨hi.mem, hi.regs, hi.cap⟩, Nat.le_refl _⟩ hq h

theorem set_sec {x0 : SecSt} (hq : Field.sub [.sec] ps = true) (h : Within ps s t) : Within ps s { t with sec := x0 } :=
  andThen (t := t) (qs := [.sec]) ⟨fun p hp => by cases p <;> first | rfl | exact absurd hp (by decide), fun hi => ⟨hi.mem, hi.regs, hi.cap⟩, Nat.le_refl _⟩ hq h

theorem set_waits {x0 : List (Path × Nat × Nat)} (hq : Field.sub [.waits] ps = true) (h : Within ps s t) : Within ps s { t with waits := x0 } :=
  andThen (t := t) (qs := [.waits]) ⟨fun p hp => by cases p <;> first | rfl | exact absurd hp (by decide), fun hi => ⟨hi.mem, hi.regs, hi.cap⟩, Nat.le_refl _⟩ hq h

theorem set_zwx {x0 : ZwxSt} (hq : Field.sub [.zwx] ps = true) (h : Within ps s t) : Within ps s { t with zwx := x0 } :=
  andThen (t := t) (qs := [.zwx]) ⟨fun p hp => by cases p <;> first | rfl | exact absurd hp (by decide), fun hi => ⟨hi.mem, hi.regs, hi.cap⟩, Nat.le_refl _⟩ hq h

theorem set_brg_zwx {x0 : BridgeSt} {x1 : ZwxSt} (hq : Field.sub [.brg, .zwx] ps = true) (h : Within ps s t) : Within ps s { t with brg := x0, zwx := x1 } :=
  andThen (t := t) (qs := [.brg, .zwx]) ⟨fun p hp => by cases p <;> first | rfl | exact absurd hp (by decide), fun hi => ⟨hi.mem, hi.regs, hi.cap⟩, Nat.le_refl _⟩ hq h

theorem set_clock_now {x0 : Nat} {x1 : Nat} (hq : Field.sub [.clock, .now] ps = true) (h : Within ps s t)
    (ht : t.clock ≤ x0) : Within ps s { t with clock := x0, now := x1 } :=
  andThen (t := t) (qs := [.clock, .now]) ⟨fun p hp => by cases p <;> first | rfl | exact absurd hp (by decide), fun hi => ⟨hi.mem, hi.regs, hi.cap⟩, ht⟩ hq h

theorem set_cmd_idx {x0 : CmdSt} {x1 : IdxSt} (hq : Field.sub [.cmd, .idx] ps = true) (h : Within ps s t) : Within ps s { t with cmd := x0, idx := x1 } :=
  andThen (t := t) (qs := [.cmd, .idx]) ⟨fun p hp => by cases p <;> first | rfl | exact absurd hp (by decide), fun hi => ⟨hi.mem, hi.regs, hi.cap⟩, Nat.le_refl _⟩ hq h

theorem set_flt_mm {x0 : FaultSt} {x1 : MemSt} (hq : Field.sub [.flt, .mm] ps = true) (h : Within ps s t) : Within ps s { t with flt := x0, mm := x1 } :=
  andThen (t := t) (qs := [.flt, .mm]) ⟨fun p hp => by cases p <;> first | rfl | exact absurd hp (by decide), fun hi => ⟨hi.mem, hi.regs, hi.cap⟩, Nat.le_refl _⟩ hq h

theorem set_fresh_busy {x0 : Nat} {x1 : List Nat} (hq : Field.sub [.fresh, .busy] ps = true) (h : Within ps s t) : Within ps s { t with fresh := x0, busy := x1 } :=
  andThen (t := t) (qs := [.fresh, .busy]) ⟨fun p hp => by cases p <;> first | rfl | exact absurd hp (by decide), fun hi => ⟨hi.mem, hi.regs, hi.cap⟩, Nat.le_refl _⟩ hq h

theorem set_fresh_cmd {x0 : Nat} {x1 : CmdSt} (hq : Field.sub [.fresh, .cmd] ps = true) (h : Within ps s t) : Within ps s { t with fresh := x0, cmd := x1 } :=
  andThen (t := t) (qs := [.fresh, .cmd]) ⟨fun p hp => by cases p <;> first | rfl | exact absurd hp (by decide), fun hi => ⟨hi.mem, hi.regs, hi.cap⟩, Nat.le_refl _⟩ hq h

theorem set_fresh_fl {x0 : Nat} {x1 : FlashSt} (hq : Field.sub [.fresh, .fl] ps = true) (h : Within ps s t) : Within ps s { t with fresh := x0, fl := x1 } :=
  andThen (t := t) (qs := [.fresh, .fl]) ⟨fun p hp => by cases p <;> first | rfl | exact absurd hp (by decide), fun hi => ⟨hi.mem, hi.regs, hi.cap⟩, Nat.le_refl _⟩ hq h

theorem set_fresh_mgmt {x0 : Nat} {x1 : MgmtSt} (hq : Field.sub [.fresh, .mgmt] ps = true) (h : Within ps s t) : Within ps s { t with fresh := x0, mgmt := x1 } :=
  andThen (t := t) (qs := [.fresh, .mgmt]) ⟨fun p hp => by cases p <;> first | rfl | exact absurd hp (by decide), fun hi => ⟨hi.mem, hi.regs, hi.cap⟩, Nat.le_refl _⟩ hq h

theorem set_fresh_sec {x0 : Nat} {x1 : SecSt} (hq : Field.sub [.fresh, .sec] ps = true) (h : Within ps s t) : Within ps s { t with fresh := x0, sec := x1 } :=
  andThen (t := t) (qs := [.fresh, .sec]) ⟨fun p hp => by cases p <;> first | rfl | exact absurd hp (by decide), fun hi => ⟨hi.mem, hi.regs, hi.cap⟩, Nat.le_refl _⟩ hq h

theorem set_kv_gen {x0 : KvSt} {x1 : GenSt} (hq : Field.sub [.kv, .gen] ps = true) (h : Within ps s t) : Within ps s { t with kv := x0, gen := x1 } :=
  andThen (t := t) (qs := [.kv, .gen]) ⟨fun p hp => by cases p <;> first | rfl | exact absurd hp (by decide), fun hi => ⟨hi.mem, hi.regs, hi.cap⟩, Nat.le_refl _⟩ hq h

theorem set_latches_regs {x0 : List (Nat × Nat)} {x1 : List (Nat × Word)} (hq : Field.sub [.latches, .regs] ps = true) (h : Within ps s t)
    (hr : Registers.wf t.regs = true → Registers.wf x1 = true) : Within ps s { t with latches := x0, regs := x1 } :=
  andThen (t := t) (qs := [.latches, .regs]) ⟨fun p hp => by cases p <;> first | rfl | exact absurd hp (by decide), fun hi => ⟨hi.mem, hr hi.regs, hi.cap⟩, Nat.le_refl _⟩ hq h

theorem set_mem_mm {x0 : List (Nat × Byte)} {x1 : MemSt} (hq : Field.sub [.mem, .mm] ps = true) (h : Within ps s t)
    (hm : Memory.wf t.mem = true → Memory.wf x0 = true) : Within ps s { t with mem := x0, mm := x1 } :=
  andThen (t := t) (qs := [.mem, .mm]) ⟨fun p hp => by cases p <;> first | rfl | exact absurd hp (by decide), fun hi => ⟨hm hi.mem, hi.regs, hi.cap⟩, Nat.le_refl _⟩ hq h

theorem set_mm_cmd {x0 : MemSt} {x1 : CmdSt} (hq : Field.sub [.mm, .cmd] ps = true) (h : Within ps s t) : Within ps s { t with mm := x0, cmd := x1 } :=
  andThen (t := t) (qs := [.mm, .cmd]) ⟨fun p hp => by cases p <;> first | rfl | exact absurd hp (by decide), fun hi => ⟨hi.mem, hi.regs, hi.cap⟩, Nat.le_refl _⟩ hq h

theorem set_mm_fl {x0 : MemSt} {x1 : FlashSt} (hq : Field.sub [.mm, .fl] ps = true) (h : Within ps s t) : Within ps s { t with mm := x0, fl := x1 } :=
  andThen (t := t) (qs := [.mm, .fl]) ⟨fun p hp => by cases p <;> first | rfl | exact absurd hp (by decide), fun hi => ⟨hi.mem, hi.regs, hi.cap⟩, Nat.le_refl _⟩ hq h

theorem set_mm_sch {x0 : MemSt} {x1 : SchedSt} (hq : Field.sub [.mm, .sch] ps = true) (h : Within ps s t) : Within ps s { t with mm := x0, sch := x1 } :=
  andThen (t := t) (qs := [.mm, .sch]) ⟨fun p hp => by cases p <;> first | rfl | exact absurd hp (by decide), fun hi => ⟨hi.mem, hi.regs, hi.cap⟩, Nat.le_refl _⟩ hq h

theorem set_notReady_waits {x0 : List Nat} {x1 : List (Path × Nat × Nat)} (hq : Field.sub [.notReady, .waits] ps = true) (h : Within ps s t) : Within ps s { t with notReady := x0, waits := x1 } :=
  andThen (t := t) (qs := [.notReady, .waits]) ⟨fun p hp => by cases p <;> first | rfl | exact absurd hp (by decide), fun hi => ⟨hi.mem, hi.regs, hi.cap⟩, Nat.le_refl _⟩ hq h

theorem set_pwr_zwx {x0 : PwrSt} {x1 : ZwxSt} (hq : Field.sub [.pwr, .zwx] ps = true) (h : Within ps s t)
    (hc : 8 ≤ t.pwr.nCap ∧ t.pwr.nCap ≤ 32 → 8 ≤ PwrSt.nCap x0 ∧ PwrSt.nCap x0 ≤ 32) : Within ps s { t with pwr := x0, zwx := x1 } :=
  andThen (t := t) (qs := [.pwr, .zwx]) ⟨fun p hp => by cases p <;> first | rfl | exact absurd hp (by decide), fun hi => ⟨hi.mem, hi.regs, hc hi.cap⟩, Nat.le_refl _⟩ hq h

theorem set_regs_brg {x0 : List (Nat × Word)} {x1 : BridgeSt} (hq : Field.sub [.regs, .brg] ps = true) (h : Within ps s t)
    (hr : Registers.wf t.regs = true → Registers.wf x0 = true) : Within ps s { t with regs := x0, brg := x1 } :=
  andThen (t := t) (qs := [.regs, .brg]) ⟨fun p hp => by cases p <;> first | rfl | exact absurd hp (by decide), fun hi => ⟨hi.mem, hr hi.regs, hi.cap⟩, Nat.le_refl _⟩ hq h

theorem set_regs_pwr {x0 : List (Nat × Word)} {x1 : PwrSt} (hq : Field.sub [.regs, .pwr] ps = true) (h : Within ps s t)
    (hr : Registers.wf t.regs = true → Registers.wf x0 = true)
    (hc : 8 ≤ t.pwr.nCap ∧ t.pwr.nCap ≤ 32 → 8 ≤ PwrSt.nCap x1 ∧ PwrSt.nCap x1 ≤ 32) : Within ps s { t with regs := x0, pwr := x1 } :=
  andThen (t := t) (qs := [.regs, .pwr]) ⟨fun p hp => by cases p <;> first | rfl | exact absurd hp (by decide), fun hi => ⟨hi.mem, hr hi.regs, hc hi.cap⟩, Nat.le_refl _⟩ hq h

theorem set_sch_ar {x0 : SchedSt} {x1 : ArithSt} (hq : Field.sub [.sch, .ar] ps = true) (h : Within ps s t) : Within ps s { t with sch := x0, ar := x1 } :=
  andThen (t := t) (qs := [.sch, .ar]) ⟨fun p hp => by cases p <;> first | rfl | exact absurd hp (by decide), fun hi => ⟨hi.mem, hi.regs, hi.cap⟩, Nat.le_refl _⟩ hq h

theorem set_sch_cmd {x0 : SchedSt} {x1 : CmdSt} (hq : Field.sub [.sch, .cmd] ps = true) (h : Within ps s t) : Within ps s { t with sch := x0, cmd := x1 } :=
  andThen (t := t) (qs := [.sch, .cmd]) ⟨fun p hp => by cases p <;> first | rfl | exact absurd hp (by decide), fun hi => ⟨hi.mem, hi.regs, hi.cap⟩, Nat.le_refl _⟩ hq h

theorem set_sch_idx {x0 : SchedSt} {x1 : IdxSt} (hq : Field.sub [.sch, .idx] ps = true) (h : Within ps s t) : Within ps s { t with sch := x0, idx := x1 } :=
  andThen (t := t) (qs := [.sch, .idx]) ⟨fun p hp => by cases p <;> first | rfl | exact absurd hp (by decide), fun hi => ⟨hi.mem, hi.regs, hi.cap⟩, Nat.le_refl _⟩ hq h

theorem set_sec_mgmt {x0 : SecSt} {x1 : MgmtSt} (hq : Field.sub [.sec, .mgmt] ps = true) (h : Within ps s t) : Within ps s { t with sec := x0, mgmt := x1 } :=
  andThen (t := t) (qs := [.sec, .mgmt]) ⟨fun p hp => by cases p <;> first | rfl | exact absurd hp (by decide), fun hi => ⟨hi.mem, hi.regs, hi.cap⟩, Nat.le_refl _⟩ hq h

theorem set_zwx_idx {x0 : ZwxSt} {x1 : IdxSt} (hq : Field.sub [.zwx, .idx] ps = true) (h : Within ps s t) : Within ps s { t with zwx := x0, idx := x1 } :=
  andThen (t := t) (qs := [.zwx, .idx]) ⟨fun p hp => by cases p <;> first | rfl | exact absurd hp (by decide), fun hi => ⟨hi.mem, hi.regs, hi.cap⟩, Nat.le_refl _⟩ hq h

theorem set_zwx_kv {x0 : ZwxSt} {x1 : KvSt} (hq : Field.sub [.zwx, .kv] ps = true) (h : Within ps s t) : Within ps s { t with zwx := x0, kv := x1 } :=
  andThen (t := t) (qs := [.zwx, .kv]) ⟨fun p hp => by cases p <;> first | rfl | exact absurd hp (by decide), fun hi => ⟨hi.mem, hi.regs, hi.cap⟩, Nat.le_refl _⟩ hq h

theorem set_mm_cmd_idx {x0 : MemSt} {x1 : CmdSt} {x2 : IdxSt} (hq : Field.sub [.mm, .cmd, .idx] ps = true) (h : Within ps s t) : Within ps s { t with mm := x0, cmd := x1, idx := x2 } :=
  andThen (t := t) (qs := [.mm, .cmd, .idx]) ⟨fun p hp => by cases p <;> first | rfl | exact absurd hp (by decide), fun hi => ⟨hi.mem, hi.regs, hi.cap⟩, Nat.le_refl _⟩ hq h

theorem set_mm_idx_gen {x0 : MemSt} {x1 : IdxSt} {x2 : GenSt} (hq : Field.sub [.mm, .idx, .gen] ps = true) (h : Within ps s t) : Within ps s { t with mm := x0, idx := x1, gen := x2 } :=
  andThen (t := t) (qs := [.mm, .idx, .gen]) ⟨fun p hp => by cases p <;> first | rfl | exact absurd hp (by decide), fun hi => ⟨hi.mem, hi.regs, hi.cap⟩, Nat.le_refl _⟩ hq h

theorem set_sch_idx_gen {x0 : SchedSt} {x1 : IdxSt} {x2 : GenSt} (hq : Field.sub [.sch, .idx, .gen] ps = true) (h : Within ps s t) : Within ps s { t with sch := x0, idx := x1, gen := x2 } :=
  andThen (t := t) (qs := [.sch, .idx, .gen]) ⟨fun p hp => by cases p <;> first | rfl | exact absurd hp (by decide), fun hi => ⟨hi.mem, hi.regs, hi.cap⟩, Nat.le_refl _⟩ hq h

theorem set_mm_cmd_fl_idx {x0 : MemSt} {x1 : CmdSt} {x2 : FlashSt} {x3 : IdxSt} (hq : Field.sub [.mm, .cmd, .fl, .idx] ps = true) (h : Within ps s t) : Within ps s { t with mm := x0, cmd := x1, fl := x2, idx := x3 } :=
  andThen (t := t) (qs := [.mm, .cmd, .fl, .idx]) ⟨fun p hp => by cases p <;> first | rfl | exact absurd hp (by decide), fun hi => ⟨hi.mem, hi.regs, hi.cap⟩, Nat.le_refl _⟩ hq h

theorem set_regs_mem_pwr_flt_mm_zwx_fl_sec {x0 : List (Nat × Word)} {x1 : List (Nat × Byte)} {x2 : PwrSt} {x3 : FaultSt} {x4 : MemSt} {x5 : ZwxSt} {x6 : FlashSt} {x7 : SecSt} (hq : Field.sub [.regs, .mem, .pwr, .flt, .mm, .zwx, .fl, .sec] ps = true) (h : Within ps s t)
    (hr : Registers.wf t.regs = true → Registers.wf x0 = true)
    (hm : Memory.wf t.mem = true → Memory.wf x1 = true)
    (hc : 8 ≤ t.pwr.nCap ∧ t.pwr.nCap ≤ 32 → 8 ≤ PwrSt.nCap x2 ∧ PwrSt.nCap x2 ≤ 32) : Within ps s { t with regs := x0, mem := x1, pwr := x2, flt := x3, mm := x4, zwx := x5, fl := x6, sec := x7 } :=
  andThen (t := t) (qs := [.regs, .mem, .pwr, .flt, .mm, .zwx, .fl, .sec]) ⟨fun p hp => by cases p <;> first | rfl | exact absurd hp (by decide), fun hi => ⟨hm hi.mem, hr hi.regs, hc hi.cap⟩, Nat.le_refl _⟩ hq h

theorem set_fresh_now_notReady_fix_pwr_flt_brg_zwx_sec {x0 : Nat} {x1 : Nat} {x2 : List Nat} {x3 : FixSt} {x4 : PwrSt} {x5 : FaultSt} {x6 : BridgeSt} {x7 : ZwxSt} {x8 : SecSt} (hq : Field.sub [.fresh, .now, .notReady, .fix, .pwr, .flt, .brg, .zwx, .sec] ps = true) (h : Within ps s t)
    (hc : 8 ≤ t.pwr.nCap ∧ t.pwr.nCap ≤ 32 → 8 ≤ PwrSt.nCap x4 ∧ PwrSt.nCap x4 ≤ 32) : Within ps s { t with fresh := x0, now := x1, notReady := x2, fix := x3, pwr := x4, flt := x5, brg := x6, zwx := x7, sec := x8 } :=
  andThen (t := t) (qs := [.fresh, .now, .notReady, .fix, .pwr, .flt, .brg, .zwx, .sec]) ⟨fun p hp => by cases p <;> first | rfl | exact absurd hp (by decide), fun hi => ⟨hi.mem, hi.regs, hc hi.cap⟩, Nat.le_refl _⟩ hq h

/-- An operation that may not happen. -/
theorem getD {o : Option State} (h : Within ps s t) (k : ∀ u, o = some u → Within ps t u) : Within ps s (o.getD t) := by
  cases o with
  | none => exact h
  | some u => exact h.trans (k u rfl)

/-- What the rows of a recomputation use up, taken over from another state that follows from the same one. -/
theorem copy_rows {v : State} {k : KvSt} (hq : Field.sub [.fresh, .regs, .mm, .sch, .kv] ps = true) (h : Within ps s t)
    (kv : Within qs s v) : Within ps s { t with regs := v.regs, fresh := v.fresh, mm := v.mm, sch := v.sch, kv := k } := by
  refine ⟨fun p hp => ?_, fun hi => ⟨(h.inv hi).mem, (kv.inv hi).regs, (h.inv hi).cap⟩, h.clockLe⟩
  cases p <;> first | exact h.same _ hp | exact absurd (Field.mem_of_sub hq (by decide)) hp

/-- The free-value counter and the registers of another state that follows from the same one. -/
theorem copy_fresh_regs {v : State} (hq : Field.sub [.fresh, .regs] ps = true) (h : Within ps s t) (k : Within qs s v) :
    Within ps s { t with fresh := v.fresh, regs := v.regs } := by
  refine ⟨fun p hp => ?_, fun hi => ⟨(h.inv hi).mem, (k.inv hi).regs, (h.inv hi).cap⟩, h.clockLe⟩
  cases p <;> first | exact h.same _ hp | exact absurd (Field.mem_of_sub hq (by decide)) hp

end Within

end Sys2Proof.Machine
end

