-- ==== Sys2Proof/Laws/Ops.lean ====
section
/-! SUPPORT. For each operation of Machine/Ops.lean: the fields it may change, that it keeps the invariant, and that the watch clock does not go back. -/

namespace Sys2Proof.Machine

set_option linter.all false
set_option Elab.async false

theorem State.wr_within (s : State) (a : Nat) (v : Nat) :
    Within [.regs] s (State.wr s a v) := by
  exact Within.set_regs (by decide) Within.refl (fun h => mapPut_wf resetWord _ _ _ h)

theorem State.count_within (s : State) (a : Nat) (n : Nat) :
    Within [.regs] s (State.count s a n) := by
  unfold State.count
  refine Within.ite (fun _ => ?_) (fun _ => ?_)
  · refine Within.andThen (State.wr_within ..) (by decide) ?_
    exact Within.refl
  · exact Within.refl

theorem State.countRate_within (s : State) (id : Nat) (a : Nat) (n : Nat) :
    Within [.regs, .mgmt] s (State.countRate s id a n) := by
  unfold State.countRate
  extract_lets -useContext x1
  refine Within.have_ (t := x1) ?_ (fun h1 => ?_)
  · subst x1
    refine Within.andThen (State.count_within ..) (by decide) ?_
    exact Within.refl
  refine Within.ite (fun _ => ?_) (fun _ => ?_)
  · refine Within.set_mgmt (by decide) ?_
    exact h1
  · exact h1

theorem State.irq_within (s : State) (base : Nat) (i : Nat) :
    Within [.regs] s (State.irq s base i) := by
  unfold State.irq
  extract_lets -useContext 
  refine Within.andThen (State.wr_within ..) (by decide) ?_
  exact Within.refl

theorem State.blkErr_within (s : State) (base : Nat) (cls : Nat) (detail : Nat) :
    Within [.regs] s (State.blkErr s base cls detail) := by
  unfold State.blkErr
  extract_lets -useContext x1
  refine Within.have_ (t := x1) ?_ (fun h1 => ?_)
  · subst x1
    refine Within.ite (fun _ => ?_) (fun _ => ?_)
    · refine Within.andThen (State.wr_within ..) (by decide) ?_
      exact Within.refl
    · exact Within.refl
  refine Within.andThen (State.irq_within ..) (by decide) ?_
  refine Within.andThen (State.wr_within ..) (by decide) ?_
  exact h1

theorem State.regWriteErr_within (s : State) (a : Nat) :
    Within [.regs] s (State.regWriteErr s a) := by
  unfold State.regWriteErr
  refine Within.andThen (State.blkErr_within ..) (by decide) ?_
  exact Within.refl

theorem State.elapse_within (s : State) (dt : Nat) :
    Within [.clock, .now] s (State.elapse s dt) := by
  unfold State.elapse
  refine Within.set_clock_now (by decide) ?_ ?_
  · exact Within.refl
  · exact Nat.le_add_right _ _

theorem State.elapseTo_within (s : State) (t0 : Nat) :
    Within [.clock, .now] s (State.elapseTo s t0) := by
  unfold State.elapseTo
  refine Within.andThen (State.elapse_within ..) (by decide) ?_
  exact Within.refl

theorem State.elapseClock_within (s : State) (t0 : Nat) :
    Within [.clock, .now] s (State.elapseClock s t0) := by
  unfold State.elapseClock
  refine Within.andThen (State.elapse_within ..) (by decide) ?_
  exact Within.refl

theorem State.emit_within (s : State) (o : Out) :
    Within [.outbox] s (State.emit s o) := by
  unfold State.emit
  refine Within.set_outbox (by decide) ?_
  exact Within.refl

theorem State.emits_within (s : State) (os : List Out) :
    Within [.outbox] s (State.emits s os) := by
  unfold State.emits
  refine Within.set_outbox (by decide) ?_
  exact Within.refl

theorem State.draw_within (s : State) (l : List Nat) :
    Within [.fresh] s (State.draw s l).2 := by
  unfold State.draw
  refine Within.set_fresh (by decide) ?_
  exact Within.refl

theorem State.drawN_within (x0 : Nat) (x1 : List Nat) (x2 : State) :
    Within [.fresh] x2 (State.drawN x0 x1 x2).2 := by
  induction x0 generalizing x1 x2 with
  | zero => exact Within.refl
  | succ n ih =>
    unfold State.drawN
    have h := State.draw_within x2 x1
    split
    · exact Within.snd h (by assumption)
    · exact (Within.snd h (by assumption)).trans (ih ..)

theorem State.freeVal_within (s : State) :
    Within [.fresh] s (State.freeVal s).2 := by
  unfold State.freeVal
  refine Within.set_fresh (by decide) ?_
  exact Within.refl

theorem State.pushEvent_within (s : State) (t0 : Transport) (a : MctpAns) :
    Within [.outbox, .regs, .mgmt] s (State.pushEvent s t0 a) := by
  unfold State.pushEvent
  split
  · refine Within.andThen (State.emit_within ..) (by decide) ?_
    exact Within.refl
  · extract_lets -useContext _ _ x3
    refine Within.have_ (t := x3) ?_ (fun h3 => ?_)
    · subst x3
      refine Within.ite (fun _ => ?_) (fun _ => ?_)
      · refine Within.andThen (State.count_within ..) (by decide) ?_
        refine Within.set_mgmt (by decide) ?_
        exact Within.refl
      · exact Within.refl
    refine Within.set_mgmt (by decide) ?_
    exact h3

theorem State.mgmtEvent_within (s : State) (a : MctpAns) :
    Within [.outbox, .regs, .mgmt] s (State.mgmtEvent s a) := by
  unfold State.mgmtEvent
  refine Within.andThen (State.pushEvent_within ..) (by decide) ?_
  refine Within.andThen (State.pushEvent_within ..) (by decide) ?_
  exact Within.refl

theorem State.event_within (s : State) (code : Nat) (func : Nat) (wide : Bool) (data : Nat) :
    Within [.outbox, .regs, .mgmt] s (State.event s code func wide data) := by
  unfold State.event
  refine Within.andThen (State.mgmtEvent_within ..) (by decide) ?_
  refine Within.andThen (State.emit_within ..) (by decide) ?_
  exact Within.refl

theorem State.faultLog_within (s : State) (typ : Nat) (x0 : Nat) (cls : Nat) (action : Nat) (func : Nat) (addr : Nat) :
    Within [.outbox, .regs, .flt, .mgmt] s (State.faultLog s typ x0 cls action func addr) := by
  unfold State.faultLog
  extract_lets -useContext _ _ _ _ x5 x6 x7
  refine Within.have_ (t := x5) ?_ (fun h5 => ?_)
  · subst x5
    refine Within.set_flt (by decide) ?_
    exact Within.refl
  refine Within.have_ (t := x6) ?_ (fun h6 => ?_)
  · subst x6
    refine Within.ite (fun _ => ?_) (fun _ => ?_)
    · refine Within.andThen (State.count_within ..) (by decide) ?_
      exact h5
    · exact h5
  refine Within.have_ (t := x7) ?_ (fun h7 => ?_)
  · subst x7
    refine Within.andThen (State.mgmtEvent_within ..) (by decide) ?_
    refine Within.andThen (State.irq_within ..) (by decide) ?_
    exact h6
  refine Within.ite (fun _ => ?_) (fun _ => ?_)
  · exact h7
  · refine Within.andThen (State.blkErr_within ..) (by decide) ?_
    exact h7

theorem State.setByte_within (s : State) (a : Nat) (v : Byte) :
    Within [.mem] s (State.setByte s a v) := by
  exact Within.set_mem (by decide) Within.refl (fun h => mapPut_wf (fun _ => 0) _ _ _ h)

theorem State.setBytes_within (s : State) (a : Nat) (x0 : List Byte) :
    Within [.mem] s (State.setBytes s a x0) := by
  induction x0 generalizing s a with
  | nil => exact Within.refl
  | cons a l ih =>
    unfold State.setBytes
    exact Within.trans (State.setByte_within ..) (ih ..)

theorem takeFree_within (total : Nat) (free : Nat → Bool) (used : Nat) (x0 : Nat) (x1 : List Nat) (x2 : State) :
    Within [.fresh] x2 (takeFree total free used x0 x1 x2).2 := by
  induction x0 generalizing x1 x2 with
  | zero => exact Within.refl
  | succ n ih =>
    unfold takeFree
    split
    · exact Within.refl
    · exact Within.trans (Within.set_fresh (by decide) Within.refl) (ih ..)

theorem State.t2Write_within (s : State) (stack : Nat) (off : Nat) (v : Byte) :
    Within [.mem] s (State.t2Write s stack off v) := by
  unfold State.t2Write
  extract_lets -useContext _ x2
  refine Within.have_ (t := x2) ?_ (fun h2 => ?_)
  · subst x2
    refine Within.ite (fun _ => ?_) (fun _ => ?_)
    · refine Within.andThen (State.setByte_within ..) (by decide) ?_
      exact Within.refl
    · exact Within.refl
  refine Within.ite (fun _ => ?_) (fun _ => ?_)
  · exact h2
  · refine Within.andThen (State.setByte_within ..) (by decide) ?_
    exact h2

theorem State.t2Writes_within (s : State) (stack : Nat) (off : Nat) (x0 : List Byte) :
    Within [.mem] s (State.t2Writes s stack off x0) := by
  induction x0 generalizing s stack off with
  | nil => exact Within.refl
  | cons a l ih =>
    unfold State.t2Writes
    exact Within.trans (State.t2Write_within ..) (ih ..)

theorem State.updObj_within (s : State) (o : Obj) (f : Obj → Obj) :
    Within [.mm] s (State.updObj s o f) := by
  unfold State.updObj
  refine Within.set_mm (by decide) ?_
  exact Within.refl

theorem State.objPut_within (s : State) (o : Obj) (off : Nat) (v : Byte) :
    Within [.mem] s (State.objPut s o off v) := by
  unfold State.objPut
  refine Within.ite (fun _ => ?_) (fun _ => ?_)
  · split
    · refine Within.andThen (State.t2Write_within ..) (by decide) ?_
      exact Within.refl
    · exact Within.refl
  · split
    · refine Within.andThen (State.setByte_within ..) (by decide) ?_
      exact Within.refl
    · exact Within.refl

theorem State.objPuts_within (s : State) (o : Obj) (off : Nat) (x0 : List Byte) :
    Within [.mem] s (State.objPuts s o off x0) := by
  induction x0 generalizing s o off with
  | nil => exact Within.refl
  | cons a l ih =>
    unfold State.objPuts
    exact Within.trans (State.objPut_within ..) (ih ..)

end Sys2Proof.Machine
end

