-- ==== Sys2Proof/Laws/Proto.lean ====
section
/-! SUPPORT. For each operation of Machine/Proto.lean: the fields it may change, that it keeps the invariant, and that the watch clock does not go back. -/

namespace Sys2Proof.Machine

set_option linter.all false
set_option Elab.async false

theorem State.updLive_within (s : State) (r : CmdRef) (f : Live → Live) :
    Within [.cmd] s (State.updLive s r f) := by
  unfold State.updLive
  refine Within.set_cmd (by decide) ?_
  exact Within.refl

theorem State.updChan_within (s : State) (n : Nat) (f : Chan → Chan) :
    Within [.sch] s (State.updChan s n f) := by
  unfold State.updChan
  refine Within.set_sch (by decide) ?_
  exact Within.refl

theorem State.updCtx_within (s : State) (id : Nat) (f : Ctx → Ctx) :
    Within [.sch] s (State.updCtx s id f) := by
  unfold State.updCtx
  refine Within.set_sch (by decide) ?_
  exact Within.refl

theorem State.answer_within (s : State) (h : CmdHdr) (status : Nat) (dup : Bool) (body : Body) :
    Within [.outbox, .regs] s (State.answer s h status dup body) := by
  unfold State.answer
  refine Within.andThen (State.count_within ..) (by decide) ?_
  refine Within.andThen (State.emits_within ..) (by decide) ?_
  exact Within.refl

theorem State.addMark_within (s : State) (island : Nat) :
    Within [.idx] s (State.addMark s island) := by
  unfold State.addMark
  refine Within.ite (fun _ => ?_) (fun _ => ?_)
  · exact Within.refl
  · refine Within.set_idx (by decide) ?_
    exact Within.refl

theorem State.deliver_within (s : State) (r : CmdRef) :
    Within [.cmd] s (State.deliver s r) := by
  unfold State.deliver
  split
  · exact Within.refl
  · extract_lets -useContext 
    refine Within.andThen (State.updLive_within ..) (by decide) ?_
    refine Within.set_cmd (by decide) ?_
    exact Within.refl

theorem State.releaseHeld_within (s : State) :
    Within [.sch, .cmd] s (State.releaseHeld s) := by
  unfold State.releaseHeld
  refine Within.foldl ?_ (fun _ _ => ?_)
  · exact Within.refl
  · extract_lets -useContext x1
    refine Within.have_ (t := x1) ?_ (fun h1 => ?_)
    · subst x1
      split
      · refine Within.andThen (State.updChan_within ..) (by decide) ?_
        exact Within.refl
      · exact Within.refl
    refine Within.andThen (State.deliver_within ..) (by decide) ?_
    exact h1

theorem State.dropLive_within (s : State) (r : CmdRef) :
    Within [.mm, .sch, .cmd] s (State.dropLive s r) := by
  unfold State.dropLive
  split
  · exact Within.refl
  · extract_lets -useContext x1
    refine Within.have_ (t := x1) ?_ (fun h1 => ?_)
    · subst x1
      split
      · extract_lets -useContext x2
        refine Within.have_ (t := x2) ?_ (fun h2 => ?_)
        · subst x2
          refine Within.andThen (State.updChan_within ..) (by decide) ?_
          exact Within.refl
        split
        · refine Within.andThen (State.updCtx_within ..) (by decide) ?_
          exact h2
        · exact h2
      · exact Within.refl
    refine Within.set_mm_cmd (by decide) ?_
    exact h1

theorem State.noteLoad_within (s : State) (opcode : Nat) (status : Nat) (b : Body) :
    Within [.regs] s (State.noteLoad s opcode status b) := by
  unfold State.noteLoad
  refine Within.ite (fun _ => ?_) (fun _ => ?_)
  · refine Within.andThen (State.wr_within ..) (by decide) ?_
    exact Within.refl
  · exact Within.refl

theorem State.complete_within (s : State) (r : CmdRef) (status : Nat) (body : Body) :
    Within [.outbox, .regs, .mm, .sch, .cmd] s (State.complete s r status body) := by
  unfold State.complete
  split
  · exact Within.refl
  · refine Within.andThen (State.releaseHeld_within ..) (by decide) ?_
    refine Within.andThen (State.answer_within ..) (by decide) ?_
    refine Within.andThen (State.noteLoad_within ..) (by decide) ?_
    refine Within.andThen (State.dropLive_within ..) (by decide) ?_
    exact Within.refl

theorem State.answerTime_within (s : State) :
    Within [.fresh, .cmd] s (State.answerTime s) := by
  unfold State.answerTime
  refine Within.set_fresh_cmd (by decide) ?_
  exact Within.refl

theorem State.busyRetry_within (s : State) (h : CmdHdr) (cause : Nat) (hint : Nat) :
    Within [.outbox, .fresh, .regs, .cmd] s (State.busyRetry s h cause hint) := by
  unfold State.busyRetry
  refine Within.andThen (State.answerTime_within ..) (by decide) ?_
  refine Within.andThen (State.count_within ..) (by decide) ?_
  refine Within.andThen (State.emit_within ..) (by decide) ?_
  exact Within.refl

theorem State.backOff_within (s : State) (h : CmdHdr) (cause : Nat) :
    Within [.outbox, .fresh, .regs, .cmd] s (State.backOff s h cause) := by
  unfold State.backOff
  extract_lets -useContext 
  refine Within.andThen (State.busyRetry_within ..) (by decide) ?_
  refine Within.set_cmd (by decide) ?_
  exact Within.refl

theorem State.accept_within (s : State) (h : CmdHdr) (b : Body) :
    Within [.outbox, .fresh, .regs, .mm, .cmd, .mgmt] s (State.accept s h b) := by
  unfold State.accept
  split
  · extract_lets -useContext _ _ _ _ _ x6 x7
    refine Within.have_ (t := x6) ?_ (fun h6 => ?_)
    · subst x6
      refine Within.set_mm_cmd (by decide) ?_
      refine Within.snd ?_ (by assumption)
      with_reducible refine Within.andThen (takeFree_within ..) (by decide) ?_
      exact Within.refl
    refine Within.have_ (t := x7) ?_ (fun h7 => ?_)
    · subst x7
      refine Within.andThen (State.countRate_within ..) (by decide) ?_
      exact h6
    refine Within.ite (fun _ => ?_) (fun _ => ?_)
    · refine Within.andThen (State.answerTime_within ..) (by decide) ?_
      refine Within.andThen (State.emit_within ..) (by decide) ?_
      exact h7
    · exact h7

theorem State.busyAgain_within (s : State) (h : CmdHdr) (x : Hint) :
    Within [.outbox, .fresh, .regs, .cmd] s (State.busyAgain s h x) := by
  unfold State.busyAgain
  extract_lets -useContext 
  refine Within.andThen (State.busyRetry_within ..) (by decide) ?_
  refine Within.set_cmd (by decide) ?_
  exact Within.refl

theorem State.quiesceBusy_within (s : State) (h : CmdHdr) :
    Within [.outbox, .fresh, .regs, .cmd] s (State.quiesceBusy s h) := by
  unfold State.quiesceBusy
  extract_lets -useContext 
  refine Within.andThen (State.busyRetry_within ..) (by decide) ?_
  refine Within.set_cmd (by decide) ?_
  exact Within.refl

theorem State.arrive_within (s : State) (h : CmdHdr) (b : Body) :
    Within [.outbox, .fresh, .regs, .mm, .cmd, .mgmt] s (State.arrive s h b).1 := by
  unfold State.arrive
  refine Within.ite_fst (fun _ => ?_) (fun _ => ?_)
  · exact Within.refl
  · refine Within.ite_fst (fun _ => ?_) (fun _ => ?_)
    · split
      · refine Within.andThen (State.busyAgain_within ..) (by decide) ?_
        exact Within.refl
      · refine Within.andThen (State.backOff_within ..) (by decide) ?_
        exact Within.refl
    · refine Within.ite_fst (fun _ => ?_) (fun _ => ?_)
      · refine Within.andThen (State.quiesceBusy_within ..) (by decide) ?_
        exact Within.refl
      · split
        · extract_lets -useContext x1 x2
          refine Within.have_ (t := x1) ?_ (fun h1 => ?_)
          · subst x1
            refine Within.ite (fun _ => ?_) (fun _ => ?_)
            · refine Within.andThen (State.count_within ..) (by decide) ?_
              exact Within.refl
            · exact Within.refl
          refine Within.have_ (t := x2) ?_ (fun h2 => ?_)
          · subst x2
            refine Within.ite (fun _ => ?_) (fun _ => ?_)
            · refine Within.andThen (State.answerTime_within ..) (by decide) ?_
              refine Within.andThen (State.emit_within ..) (by decide) ?_
              exact h1
            · exact h1
          refine Within.andThen (State.answer_within ..) (by decide) ?_
          refine Within.andThen (State.noteLoad_within ..) (by decide) ?_
          exact h2
        · split
          · refine Within.andThen (State.busyAgain_within ..) (by decide) ?_
            exact Within.refl
          · split
            · refine Within.andThen (State.backOff_within ..) (by decide) ?_
              exact Within.refl
            · refine Within.andThen (State.accept_within ..) (by decide) ?_
              exact Within.refl

theorem State.stamp_within (s : State) (r : CmdRef) (island : Nat) :
    Within [.cmd] s (State.stamp s r island) := by
  unfold State.stamp
  extract_lets -useContext 
  refine Within.andThen (State.updLive_within ..) (by decide) ?_
  refine Within.set_cmd (by decide) ?_
  exact Within.refl

theorem State.bodyDone_within (s : State) (r : CmdRef) :
    Within [.sch, .cmd] s (State.bodyDone s r).1 := by
  unfold State.bodyDone
  extract_lets -useContext _ x2
  refine Within.have_ (t := x2) ?_ (fun h2 => ?_)
  · subst x2
    refine Within.andThen (State.updLive_within ..) (by decide) ?_
    refine Within.set_cmd (by decide) ?_
    exact Within.refl
  split
  · exact h2
  · extract_lets -useContext 
    refine Within.ite_fst (fun _ => ?_) (fun _ => ?_)
    · split
      · refine Within.andThen (State.updChan_within ..) (by decide) ?_
        exact h2
      · exact h2
    · refine Within.ite_fst (fun _ => ?_) (fun _ => ?_)
      · refine Within.andThen (State.deliver_within ..) (by decide) ?_
        exact h2
      · refine Within.andThen (State.stamp_within ..) (by decide) ?_
        refine Within.andThen (State.updLive_within ..) (by decide) ?_
        exact h2

theorem State.bodyEnter_within {ps : List Field} {s : State} {r : CmdRef} {chk : BodyCheck} {f : CmdAct}
    (hq : Field.sub [.outbox, .regs, .mm, .sch, .cmd] ps = true) (hf : ∀ r l u, Within ps u (f r l u)) : Within ps s (s.bodyEnter r chk f) := by
  unfold State.bodyEnter
  split
  · exact Within.refl
  · split
    · exact Within.mono (State.complete_within ..) (Field.sub_trans (by decide) hq)
    · have h := Within.mono (State.bodyDone_within s r) (ps := ps) (Field.sub_trans (by decide) hq)
      split
      · exact Within.fst h (by assumption)
      · have k := Within.fst h (by assumption)
        split
        · exact Within.trans k (hf ..)
        · exact k

theorem State.command_within {ps : List Field} {s : State} {isRow : CmdHdr → Body → Bool} {chk : BodyCheck} {f : CmdAct} {h : CmdHdr} {b : Body}
    (hq : Field.sub [.outbox, .fresh, .regs, .mm, .sch, .cmd, .mgmt] ps = true) (hf : ∀ r l u, Within ps u (f r l u)) : Within ps s (s.command isRow chk f h b) := by
  unfold State.command
  refine Within.ite (fun _ => Within.refl) (fun _ => ?_)
  have k := Within.mono (State.arrive_within s h b) (ps := ps) (Field.sub_trans (by decide) hq)
  split
  · exact Within.fst k (by assumption)
  · exact Within.trans (Within.fst k (by assumption)) (State.bodyEnter_within (Field.sub_trans (by decide) hq) hf)

end Sys2Proof.Machine
end

