-- ==== Sys2Proof/Laws/Tasks.lean ====
section
/-! SUPPORT. For each operation of Machine/Tasks.lean: the fields it may change, that it keeps the invariant, and that the watch clock does not go back. -/

namespace Sys2Proof.Machine

set_option linter.all false
set_option Elab.async false

theorem State.stallUs_within (s : State) (reg : Nat) :
    Within [.fresh, .regs] s (State.stallUs s reg) := by
  unfold State.stallUs
  split
  · refine Within.andThen (State.count_within ..) (by decide) ?_
    refine Within.snd ?_ (by assumption)
    with_reducible refine Within.andThen (State.freeVal_within ..) (by decide) ?_
    exact Within.refl

theorem State.stallRemote_within (s : State) :
    Within [.fresh, .regs] s (State.stallRemote s) := by
  unfold State.stallRemote
  refine Within.andThen (State.stallUs_within ..) (by decide) ?_
  refine Within.andThen (State.count_within ..) (by decide) ?_
  exact Within.refl

theorem State.stallThermal_within (s : State) :
    Within [.fresh, .regs] s (State.stallThermal s) := by
  unfold State.stallThermal
  refine Within.andThen (State.stallUs_within ..) (by decide) ?_
  refine Within.andThen (State.count_within ..) (by decide) ?_
  exact Within.refl

theorem State.chargeNow_within (s : State) (x : LateAcct) :
    Within [.sch] s (State.chargeNow s x) := by
  unfold State.chargeNow
  refine Within.set_sch (by decide) ?_
  exact Within.refl

theorem State.chargeSpan_within (s : State) (x : LateAcct) :
    Within [.sch] s (State.chargeSpan s x) := by
  unfold State.chargeSpan
  extract_lets -useContext _ x2
  refine Within.have_fn2 (f := x2) (fun _ _ => ?_) (fun h2 => ?_)
  · subst x2
    beta_reduce
    refine Within.set_sch (by decide) ?_
    exact Within.refl
  refine Within.ite (fun _ => ?_) (fun _ => ?_)
  · refine Within.trans ?_ (h2 ..)
    exact Within.refl
  · refine Within.ite (fun _ => ?_) (fun _ => ?_)
    · refine Within.andThen (State.chargeNow_within ..) (by decide) ?_
      exact Within.refl
    · refine Within.trans ?_ (h2 ..)
      refine Within.andThen (State.chargeNow_within ..) (by decide) ?_
      exact Within.refl

theorem State.charge_within (s : State) (f : Nat) (g : Acct → Acct) :
    Within [.sch] s (State.charge s f g) := by
  unfold State.charge
  refine Within.andThen (State.chargeSpan_within ..) (by decide) ?_
  exact Within.refl

theorem State.chargeSlot_within (s : State) (k : Nat) (sa : SlotAcct) :
    Within [.sch] s (State.chargeSlot s k sa) := by
  unfold State.chargeSlot
  refine Within.andThen (State.chargeSpan_within ..) (by decide) ?_
  exact Within.refl

theorem State.updTask_within (s : State) (id : Nat) (f : Task → Task) :
    Within [.sch] s (State.updTask s id f) := by
  unfold State.updTask
  refine Within.set_sch (by decide) ?_
  exact Within.refl

theorem State.addTask_within (s : State) (island : Nat) (kind : TaskKind) (func : Nat) (ctx : Option Nat) (cls : Nat) (ready : Bool) (cmd : Option CmdRef) :
    Within [.sch] s (State.addTask s island kind func ctx cls ready cmd) := by
  unfold State.addTask
  extract_lets -useContext 
  refine Within.set_sch (by decide) ?_
  exact Within.refl

theorem State.addRoam_within (s : State) (stack : Nat) (t3 : Bool) (merge : Nat) (kind : TaskKind) (func : Nat) (ctx : Option Nat) (cls : Nat) (ready : Bool) (cmd : Option CmdRef) :
    Within [.sch] s (State.addRoam s stack t3 merge kind func ctx cls ready cmd) := by
  unfold State.addRoam
  refine Within.andThen (State.updTask_within ..) (by decide) ?_
  refine Within.andThen (State.addTask_within ..) (by decide) ?_
  exact Within.refl

theorem State.addSeqTask_within (s : State) (island : Nat) (kind : TaskKind) (func : Nat) (cls : Nat) (cmd : Option CmdRef) :
    Within [.sch] s (State.addSeqTask s island kind func cls cmd) := by
  unfold State.addSeqTask
  refine Within.andThen (State.addTask_within ..) (by decide) ?_
  exact Within.refl

theorem State.chargeSince_within (s : State) (t0 : Task) (u : Nat) :
    Within [.sch] s (State.chargeSince s t0 u) := by
  unfold State.chargeSince
  extract_lets -useContext _ _ x3
  refine Within.have_ (t := x3) ?_ (fun h3 => ?_)
  · subst x3
    refine Within.andThen (State.chargeSpan_within ..) (by decide) ?_
    exact Within.refl
  refine Within.set_sch (by decide) ?_
  exact h3

theorem State.chargeRun_within (s : State) (t0 : Task) (killed : Bool) :
    Within [.sch] s (State.chargeRun s t0 killed) := by
  unfold State.chargeRun
  extract_lets -useContext _ x2
  refine Within.have_ (t := x2) ?_ (fun h2 => ?_)
  · subst x2
    refine Within.andThen (State.chargeSince_within ..) (by decide) ?_
    exact Within.refl
  split
  · refine Within.andThen (State.chargeSlot_within ..) (by decide) ?_
    exact h2
  · exact h2

theorem State.chargeWait_within (s : State) (t0 : Task) (u : Nat) :
    Within [.sch] s (State.chargeWait s t0 u) := by
  unfold State.chargeWait
  extract_lets -useContext 
  refine Within.andThen (State.chargeSpan_within ..) (by decide) ?_
  exact Within.refl

theorem State.seqOver_within (s : State) (p : Task → Bool) :
    Within [.sch] s (State.seqOver s p) := by
  unfold State.seqOver
  extract_lets -useContext x1
  refine Within.have_ (t := x1) ?_ (fun h1 => ?_)
  · subst x1
    refine Within.foldl ?_ (fun _ _ => ?_)
    · exact Within.refl
    · refine Within.andThen (State.chargeRun_within ..) (by decide) ?_
      exact Within.refl
  refine Within.set_sch (by decide) ?_
  exact h1

theorem State.killTasks_within (s : State) (p : Task → Bool) :
    Within [.sch] s (State.killTasks s p) := by
  unfold State.killTasks
  refine Within.set_sch (by decide) ?_
  exact Within.refl

theorem State.leave_within (s : State) (t0 : Task) (a : Nat) :
    Within [.gen] s (State.leave s t0 a) := by
  unfold State.leave
  split
  · exact Within.refl
  · refine Within.set_gen (by decide) ?_
    exact Within.refl

theorem State.clearIslet_within (s : State) (i : Nat) :
    Within [.ar] s (State.clearIslet s i) := by
  unfold State.clearIslet
  refine Within.set_ar (by decide) ?_
  exact Within.refl

theorem State.killRun_within (s : State) (t0 : Task) :
    Within [.regs, .sch, .ar, .gen] s (State.killRun s t0) := by
  unfold State.killRun
  extract_lets -useContext x1
  refine Within.have_ (t := x1) ?_ (fun h1 => ?_)
  · subst x1
    refine Within.andThen (State.leave_within ..) (by decide) ?_
    refine Within.andThen (State.count_within ..) (by decide) ?_
    refine Within.andThen (State.chargeRun_within ..) (by decide) ?_
    exact Within.refl
  split
  · refine Within.andThen (State.clearIslet_within ..) (by decide) ?_
    exact h1
  · exact h1

theorem State.yieldTask_within (s : State) (t0 : Task) (ready : Bool) :
    Within [.fresh, .sch, .gen] s (State.yieldTask s t0 ready) := by
  unfold State.yieldTask
  split
  · exact Within.refl
  · extract_lets -useContext _ x2 x3
    refine Within.have_ (t := x2) ?_ (fun h2 => ?_)
    · subst x2
      refine Within.andThen (State.leave_within ..) (by decide) ?_
      refine Within.andThen (State.chargeSince_within ..) (by decide) ?_
      exact Within.refl
    refine Within.have_ (t := x3) ?_ (fun h3 => ?_)
    · subst x3
      refine Within.set_fresh (by decide) ?_
      exact h2
    refine Within.andThen (State.updTask_within ..) (by decide) ?_
    exact h3

theorem State.dropTasks_within (s : State) (p : Task → Bool) :
    Within [.regs, .sch, .ar, .gen] s (State.dropTasks s p) := by
  unfold State.dropTasks
  extract_lets -useContext _ x2
  refine Within.have_ (t := x2) ?_ (fun h2 => ?_)
  · subst x2
    refine Within.foldl ?_ (fun _ _ => ?_)
    · exact Within.refl
    · refine Within.andThen (State.killRun_within ..) (by decide) ?_
      exact Within.refl
  refine Within.set_sch (by decide) ?_
  exact h2

theorem State.abandon_within (s : State) (p : SlotSt → Bool) (code : FerryCode) :
    Within [.mm] s (State.abandon s p code) := by
  unfold State.abandon
  refine Within.set_mm (by decide) ?_
  exact Within.refl

theorem State.abandonFunc_within (s : State) (f : Nat) :
    Within [.mm] s (State.abandonFunc s f) := by
  unfold State.abandonFunc
  extract_lets -useContext 
  refine Within.set_mm (by decide) ?_
  exact Within.refl

theorem State.startReset_within (s : State) (f : Nat) (cause : Nat) :
    Within [.mm, .sch] s (State.startReset s f cause) := by
  unfold State.startReset
  split
  · exact Within.refl
  · extract_lets -useContext _ x2 x3
    refine Within.have_ (t := x2) ?_ (fun h2 => ?_)
    · subst x2
      refine Within.set_sch (by decide) ?_
      exact Within.refl
    refine Within.have_ (t := x3) ?_ (fun h3 => ?_)
    · subst x3
      refine Within.andThen (State.killTasks_within ..) (by decide) ?_
      exact h2
    refine Within.andThen (State.abandonFunc_within ..) (by decide) ?_
    exact h3

theorem State.fenceCause_within (s : State) (u : FenceUnit) (c : FenceCause) :
    Within [.flt] s (State.fenceCause s u c) := by
  unfold State.fenceCause
  refine Within.set_flt (by decide) ?_
  exact Within.refl

end Sys2Proof.Machine
end

