-- ==== Sys2Proof/Laws/Place.lean ====
section
/-! SUPPORT. For each operation of Machine/Place.lean: the fields it may change, that it keeps the invariant, and that the watch clock does not go back. -/

namespace Sys2Proof.Machine

set_option linter.all false
set_option Elab.async false

theorem State.traffic_within (s : State) (stack : Nat) (f : Nat) (h : Nat) (by_ : Nat) (rd : Nat) (wr : Nat) :
    Within [.mm, .sch] s (State.traffic s stack f h by_ rd wr) := by
  unfold State.traffic
  extract_lets -useContext 
  refine Within.andThen (State.charge_within ..) (by decide) ?_
  refine Within.set_mm (by decide) ?_
  exact Within.refl

theorem State.granTraffic_within (s : State) (by_ : Nat) (f : Nat) (h : Nat) (stack : Nat) (g : Nat) (rd : Nat) (wr : Nat) :
    Within [.mm, .sch] s (State.granTraffic s by_ f h stack g rd wr) := by
  unfold State.granTraffic
  refine Within.ite (fun _ => ?_) (fun _ => ?_)
  · refine Within.andThen (State.traffic_within ..) (by decide) ?_
    refine Within.andThen (State.traffic_within ..) (by decide) ?_
    exact Within.refl
  · refine Within.andThen (State.traffic_within ..) (by decide) ?_
    exact Within.refl

theorem State.objTraffic_within (s : State) (by_ : Nat) (o : Obj) (write : Bool) (off : Nat) (n : Nat) :
    Within [.mm, .sch] s (State.objTraffic s by_ o write off n) := by
  unfold State.objTraffic
  refine Within.ite (fun _ => ?_) (fun _ => ?_)
  · refine Within.foldl ?_ (fun _ _ => ?_)
    · exact Within.refl
    · refine Within.andThen (State.granTraffic_within ..) (by decide) ?_
      exact Within.refl
  · refine Within.andThen (State.charge_within ..) (by decide) ?_
    exact Within.refl

theorem State.hTraffic_within (s : State) (by_ : Nat) (f : Nat) (h : Nat) (write : Bool) (off : Nat) (n : Nat) :
    Within [.mm, .sch] s (State.hTraffic s by_ f h write off n) := by
  unfold State.hTraffic
  split
  · refine Within.andThen (State.objTraffic_within ..) (by decide) ?_
    exact Within.refl
  · exact Within.refl

theorem State.flashWork_within (s : State) (rd : Nat) (wr : Nat) :
    Within [.sch] s (State.flashWork s rd wr) := by
  unfold State.flashWork
  refine Within.andThen (State.charge_within ..) (by decide) ?_
  exact Within.refl

theorem State.putBlk_within (s : State) (x : Blk) :
    Within [.fl] s (State.putBlk s x) := by
  unfold State.putBlk
  refine Within.set_fl (by decide) ?_
  exact Within.refl

theorem State.retireBlk_within (s : State) (x : Blk) :
    Within [.regs, .fl] s (State.retireBlk s x) := by
  unfold State.retireBlk
  extract_lets -useContext x1
  refine Within.have_ (t := x1) ?_ (fun h1 => ?_)
  · subst x1
    refine Within.andThen (State.putBlk_within ..) (by decide) ?_
    exact Within.refl
  refine Within.andThen (State.count_within ..) (by decide) ?_
  refine Within.set_fl (by decide) ?_
  exact h1

theorem State.takeBlk_within (s : State) (u : Nat) (place : Nat) :
    Within [.fl] s (State.takeBlk s u place) := by
  unfold State.takeBlk
  extract_lets -useContext _ x2
  refine Within.have_ (t := x2) ?_ (fun h2 => ?_)
  · subst x2
    refine Within.andThen (State.putBlk_within ..) (by decide) ?_
    exact Within.refl
  refine Within.ite (fun _ => ?_) (fun _ => ?_)
  · exact Within.refl
  · refine Within.set_fl (by decide) ?_
    exact h2

theorem State.putStripe_within (s : State) (x : Stripe) :
    Within [.fl] s (State.putStripe s x) := by
  unfold State.putStripe
  extract_lets -useContext 
  refine Within.ite (fun _ => ?_) (fun _ => ?_)
  · refine Within.set_fl (by decide) ?_
    exact Within.refl
  · refine Within.set_fl (by decide) ?_
    exact Within.refl

theorem State.joinStripe_within (s : State) (x : Stripe) (u : Nat) (place : Nat) :
    Within [.fl] s (State.joinStripe s x u place) := by
  unfold State.joinStripe
  extract_lets -useContext 
  refine Within.andThen (State.putStripe_within ..) (by decide) ?_
  exact Within.refl

theorem State.stripeDone_within (s : State) (place : Nat) (new : Nat) :
    Within [.fl] s (State.stripeDone s place new) := by
  unfold State.stripeDone
  split
  · exact Within.refl
  · refine Within.andThen (State.putStripe_within ..) (by decide) ?_
    exact Within.refl

theorem State.nextOn_within (s : State) (c : Nat) :
    Within [.fl] s (State.nextOn s c).2 := by
  unfold State.nextOn
  refine Within.set_fl (by decide) ?_
  exact Within.refl

theorem State.newPlace_within (s : State) (u : Nat) :
    Within [.fresh, .fl] s (State.newPlace s u).2 := by
  unfold State.newPlace
  refine Within.ite_snd (fun _ => ?_) (fun _ => ?_)
  · extract_lets -useContext x1
    refine Within.have_ (t := x1.2) ?_ (fun h1 => ?_)
    · subst x1
      with_reducible refine Within.andThen (State.nextOn_within ..) (by decide) ?_
      exact Within.refl
    exact h1
  · split
    · refine Within.snd ?_ (by assumption)
      with_reducible refine Within.andThen (State.draw_within ..) (by decide) ?_
      exact Within.refl
    · extract_lets -useContext 
      split
      · refine Within.snd ?_ (by assumption)
        with_reducible refine Within.andThen (State.draw_within ..) (by decide) ?_
        refine Within.snd ?_ (by assumption)
        with_reducible refine Within.andThen (State.draw_within ..) (by decide) ?_
        exact Within.refl
      · extract_lets -useContext x3
        refine Within.have_ (t := x3.2) ?_ (fun h3 => ?_)
        · subst x3
          with_reducible refine Within.andThen (State.nextOn_within ..) (by decide) ?_
          refine Within.snd ?_ (by assumption)
          with_reducible refine Within.andThen (State.draw_within ..) (by decide) ?_
          refine Within.snd ?_ (by assumption)
          with_reducible refine Within.andThen (State.draw_within ..) (by decide) ?_
          exact Within.refl
        refine Within.andThen (State.joinStripe_within ..) (by decide) ?_
        exact h3

theorem State.settle_within (s : State) (u : Nat) (place : Nat) (host : Nat) :
    Within [.fresh, .regs, .fl] s (State.settle s u place host) := by
  unfold State.settle
  extract_lets -useContext _ x2
  refine Within.have_ (t := x2) ?_ (fun h2 => ?_)
  · subst x2
    refine Within.set_fresh (by decide) ?_
    exact Within.refl
  split
  · extract_lets -useContext x4
    refine Within.have_ (t := x4) ?_ (fun h4 => ?_)
    · subst x4
      refine Within.andThen (State.stripeDone_within ..) (by decide) ?_
      refine Within.andThen (State.takeBlk_within ..) (by decide) ?_
      refine Within.snd ?_ (by assumption)
      refine Within.ite_snd (fun _ => ?_) (fun _ => ?_)
      · with_reducible refine Within.andThen (State.nextOn_within ..) (by decide) ?_
        refine Within.andThen (State.retireBlk_within ..) (by decide) ?_
        exact h2
      · exact h2
    refine Within.set_fl (by decide) ?_
    exact h4

theorem State.mapUnit_within (s : State) (host : Nat) (u : Nat) :
    Within [.fresh, .regs, .fl] s (State.mapUnit s host u) := by
  unfold State.mapUnit
  split
  · refine Within.snd ?_ (by assumption)
    with_reducible refine Within.andThen (State.newPlace_within ..) (by decide) ?_
    exact Within.refl
  · refine Within.andThen (State.settle_within ..) (by decide) ?_
    refine Within.snd ?_ (by assumption)
    with_reducible refine Within.andThen (State.newPlace_within ..) (by decide) ?_
    exact Within.refl

theorem State.mapBytes_within (s : State) (a : Nat) (n : Nat) :
    Within [.fresh, .regs, .fl] s (State.mapBytes s a n) := by
  unfold State.mapBytes
  refine Within.foldl ?_ (fun _ _ => ?_)
  · exact Within.refl
  · refine Within.andThen (State.mapUnit_within ..) (by decide) ?_
    exact Within.refl

theorem State.cachePage_within (s : State) (p : Nat) :
    Within [.fresh, .fl] s (State.cachePage s p) := by
  unfold State.cachePage
  extract_lets -useContext 
  split
  · extract_lets -useContext 
    refine Within.set_fl (by decide) ?_
    refine Within.snd ?_ (by assumption)
    refine Within.ite_snd (fun _ => ?_) (fun _ => ?_)
    · with_reducible refine Within.andThen (State.draw_within ..) (by decide) ?_
      exact Within.refl
    · exact Within.refl

theorem State.mapLook_within (s : State) (u : Nat) :
    Within [.fresh, .regs, .fl] s (State.mapLook s u) := by
  unfold State.mapLook
  refine Within.ite (fun _ => ?_) (fun _ => ?_)
  · exact Within.refl
  · refine Within.andThen (State.count_within ..) (by decide) ?_
    refine Within.andThen (State.cachePage_within ..) (by decide) ?_
    exact Within.refl

theorem State.countRead_within (s : State) (u : Nat) (place : Nat) :
    Within [.regs, .fl] s (State.countRead s u place) := by
  unfold State.countRead
  extract_lets -useContext _ _ _ x4
  refine Within.have_ (t := x4) ?_ (fun h4 => ?_)
  · subst x4
    refine Within.andThen (State.putBlk_within ..) (by decide) ?_
    exact Within.refl
  refine Within.ite (fun _ => ?_) (fun _ => ?_)
  · refine Within.andThen (State.count_within ..) (by decide) ?_
    exact h4
  · exact h4

theorem State.queueRead_within (s : State) (u : Nat) :
    Within [.fl] s (State.queueRead s u) := by
  unfold State.queueRead
  split
  · exact Within.refl
  · extract_lets -useContext _ x2
    refine Within.have_fn2 (f := x2) (fun _ _ => ?_) (fun h2 => ?_)
    · subst x2
      beta_reduce
      refine Within.set_fl (by decide) ?_
      exact Within.refl
    refine Within.ite (fun _ => ?_) (fun _ => ?_)
    · refine Within.trans ?_ (h2 ..)
      exact Within.refl
    · split
      · refine Within.ite (fun _ => ?_) (fun _ => ?_)
        · refine Within.trans ?_ (h2 ..)
          exact Within.refl
        · refine Within.ite (fun _ => ?_) (fun _ => ?_)
          · refine Within.trans ?_ (h2 ..)
            refine Within.set_fl (by decide) ?_
            exact Within.refl
          · refine Within.trans ?_ (h2 ..)
            exact Within.refl
      · refine Within.ite (fun _ => ?_) (fun _ => ?_)
        · refine Within.trans ?_ (h2 ..)
          exact Within.refl
        · refine Within.ite (fun _ => ?_) (fun _ => ?_)
          · refine Within.trans ?_ (h2 ..)
            refine Within.set_fl (by decide) ?_
            exact Within.refl
          · refine Within.trans ?_ (h2 ..)
            exact Within.refl
      · refine Within.trans ?_ (h2 ..)
        exact Within.refl

theorem State.releaseReads_within (s : State) (ch : Nat) :
    Within [.fl] s (State.releaseReads s ch) := by
  unfold State.releaseReads
  refine Within.set_fl (by decide) ?_
  exact Within.refl

theorem State.serveRead_within {s : State} {u : Nat} {y0 : FRead} {t : State}
    (h : State.serveRead s u = some (y0, t)) : Within [.fl] s t := by
  unfold State.serveRead at h
  extract_lets -useContext x1 at h
  refine Within.have_ (t := x1) ?_ (fun h1 => ?_)
  · subst x1
    refine Within.ite (fun _ => ?_) (fun _ => ?_)
    · exact Within.refl
    · refine Within.andThen (State.queueRead_within ..) (by decide) ?_
      exact Within.refl
  split at h
  · exact nomatch h
  · split at h
    · obtain rfl := congrArg (fun p => p.2) (Option.some.inj h)
      refine Within.set_fl (by decide) ?_
      exact h1
    · exact nomatch h

theorem State.readPage_within (s : State) (r : FRead) (retries : Nat) :
    Within [.fresh, .regs, .fl] s (State.readPage s r retries) := by
  unfold State.readPage
  refine Within.andThen (State.count_within ..) (by decide) ?_
  refine Within.andThen (State.countRead_within ..) (by decide) ?_
  refine Within.andThen (State.mapLook_within ..) (by decide) ?_
  exact Within.refl

theorem State.queueSpill_within (s : State) (f : Nat) :
    Within [.fl] s (State.queueSpill s f) := by
  unfold State.queueSpill
  refine Within.andThen (State.queueRead_within ..) (by decide) ?_
  exact Within.refl

theorem State.serveSpill_within {s : State} {f : Nat} {t : State}
    (h : State.serveSpill s f = some t) : Within [.fresh, .regs, .fl] s t := by
  unfold State.serveSpill at h
  split at h
  · obtain rfl := Option.some.inj h
    refine Within.andThen (State.mapLook_within ..) (by decide) ?_
    exact Within.refl
  · obtain ⟨r, hr, rfl⟩ := Option.map_eq_some_iff.1 h
    refine Within.andThen (State.readPage_within ..) (by decide) ?_
    exact Within.mono (State.serveRead_within hr) (by decide)

theorem State.queueWrite_within (s : State) (u : Nat) (bytes : List (Option Byte)) (copy : Bool) :
    Within [.fresh, .regs, .fl] s (State.queueWrite s u bytes copy) := by
  unfold State.queueWrite
  extract_lets -useContext x1 _ _ x4 _ x6
  refine Within.have_ (t := x1.2) ?_ (fun h1 => ?_)
  · subst x1
    with_reducible refine Within.andThen (State.newPlace_within ..) (by decide) ?_
    exact Within.refl
  refine Within.have_ (t := x4) ?_ (fun h4 => ?_)
  · subst x4
    exact h1
  refine Within.have_ (t := x6) ?_ (fun h6 => ?_)
  · subst x6
    refine Within.set_fl (by decide) ?_
    exact h4
  refine Within.ite (fun _ => ?_) (fun _ => ?_)
  · refine Within.andThen (State.count_within ..) (by decide) ?_
    exact h6
  · exact h6

theorem State.dropWrite_within (s : State) (w : FWrite) :
    Within [.fl] s (State.dropWrite s w) := by
  unfold State.dropWrite
  refine Within.andThen (State.releaseReads_within ..) (by decide) ?_
  refine Within.set_fl (by decide) ?_
  exact Within.refl

theorem State.writePlace_within (s : State) (w : FWrite) :
    Within [.fresh, .fl] s (State.writePlace s w).2 := by
  unfold State.writePlace
  refine Within.ite_snd (fun _ => ?_) (fun _ => ?_)
  · with_reducible refine Within.andThen (State.newPlace_within ..) (by decide) ?_
    exact Within.refl
  · exact Within.refl

theorem State.endWrite_within (s : State) (w : FWrite) (host : Nat) :
    Within [.fresh, .regs, .fl] s (State.endWrite s w host) := by
  unfold State.endWrite
  split
  · refine Within.andThen (State.settle_within ..) (by decide) ?_
    refine Within.snd ?_ (by assumption)
    with_reducible refine Within.andThen (State.writePlace_within ..) (by decide) ?_
    exact Within.refl
  · refine Within.snd ?_ (by assumption)
    with_reducible refine Within.andThen (State.writePlace_within ..) (by decide) ?_
    exact Within.refl

theorem State.cancelWrites_within (s : State) (p : FWrite → Bool) :
    Within [.fl] s (State.cancelWrites s p) := by
  unfold State.cancelWrites
  extract_lets -useContext _ x2
  refine Within.have_ (t := x2) ?_ (fun h2 => ?_)
  · subst x2
    refine Within.set_fl (by decide) ?_
    exact Within.refl
  refine Within.foldl ?_ (fun _ _ => ?_)
  · exact h2
  · refine Within.andThen (State.stripeDone_within ..) (by decide) ?_
    exact Within.refl

theorem State.objStore_within (s : State) (by_ : Nat) (o : Obj) (off : Nat) (b : List Byte) :
    Within [.fresh, .regs, .mem, .mm, .sch, .fl] s (State.objStore s by_ o off b) := by
  unfold State.objStore
  extract_lets -useContext x1
  refine Within.have_ (t := x1) ?_ (fun h1 => ?_)
  · subst x1
    refine Within.andThen (State.objTraffic_within ..) (by decide) ?_
    refine Within.andThen (State.objPuts_within ..) (by decide) ?_
    exact Within.refl
  refine Within.ite (fun _ => ?_) (fun _ => ?_)
  · exact h1
  · refine Within.foldl ?_ (fun _ _ => ?_)
    · exact h1
    · split
      · refine Within.andThen (State.mapBytes_within ..) (by decide) ?_
        exact Within.refl
      · exact Within.refl

theorem State.queueObj_within (s : State) (o : Obj) :
    Within [.fl] s (State.queueObj s o) := by
  unfold State.queueObj
  refine Within.ite (fun _ => ?_) (fun _ => ?_)
  · exact Within.refl
  · refine Within.foldl ?_ (fun _ _ => ?_)
    · exact Within.refl
    · refine Within.andThen (State.queueRead_within ..) (by decide) ?_
      exact Within.refl

theorem State.queueBytes_within (s : State) (o : Obj) (b : List Byte) :
    Within [.fresh, .regs, .mm, .sch, .fl] s (State.queueBytes s o b) := by
  unfold State.queueBytes
  refine Within.foldl ?_ (fun _ _ => ?_)
  · refine Within.andThen (State.objTraffic_within ..) (by decide) ?_
    exact Within.refl
  · refine Within.andThen (State.queueWrite_within ..) (by decide) ?_
    exact Within.refl

theorem State.dropUnits_within (s : State) (p : Nat → Bool) :
    Within [.fl] s (State.dropUnits s p) := by
  unfold State.dropUnits
  extract_lets -useContext x1 x2
  refine Within.have_ (t := x1) ?_ (fun h1 => ?_)
  · subst x1
    refine Within.andThen (State.cancelWrites_within ..) (by decide) ?_
    exact Within.refl
  refine Within.have_ (t := x2) ?_ (fun h2 => ?_)
  · subst x2
    refine Within.foldl ?_ (fun _ _ => ?_)
    · exact h1
    · refine Within.andThen (State.stripeDone_within ..) (by decide) ?_
      exact Within.refl
  refine Within.set_fl (by decide) ?_
  exact h2

end Sys2Proof.Machine
end

