-- ==== Sys2Proof/Laws/Arith.lean ====
section
/-! SUPPORT. For each operation of Machine/Arith.lean: the fields it may change, that it keeps the invariant, and that the watch clock does not go back. -/

namespace Sys2Proof.Machine

set_option linter.all false
set_option Elab.async false

theorem State.putIslet_within (s : State) (x : IsletSt) :
    Within [.ar] s (State.putIslet s x) := by
  unfold State.putIslet
  refine Within.set_ar (by decide) ?_
  exact Within.refl

theorem State.tally_within (s : State) (die : Nat) (t0 : Tally) :
    Within [.regs] s (State.tally s die t0) := by
  unfold State.tally
  extract_lets -useContext x1
  refine Within.have_fn3 (f := x1) (fun _ _ _ => ?_) (fun h1 => ?_)
  · subst x1
    beta_reduce
    refine Within.ite (fun _ => ?_) (fun _ => ?_)
    · refine Within.andThen (State.count_within ..) (by decide) ?_
      exact Within.refl
    · exact Within.refl
  refine Within.trans ?_ (h1 ..)
  refine Within.trans ?_ (h1 ..)
  refine Within.trans ?_ (h1 ..)
  refine Within.trans ?_ (h1 ..)
  exact Within.refl

theorem execMatrixOpIssue_within {islet : Nat} {op : MatOp} {s : State} {t : State}
    (h : execMatrixOpIssue islet op s = .next t) : Within [.outbox, .regs, .mm, .sch, .cmd, .ar] s t := by
  unfold execMatrixOpIssue at h
  obtain rfl := Host.Outcome.next.inj h
  refine Within.ite (fun _ => ?_) (fun _ => ?_)
  · exact Within.refl
  · refine Within.ite (fun _ => ?_) (fun _ => ?_)
    · refine Within.andThen (State.complete_within ..) (by decide) ?_
      exact Within.refl
    · extract_lets -useContext _ _ _ x4
      refine Within.have_ (t := x4) ?_ (fun h4 => ?_)
      · subst x4
        refine Within.andThen (State.putIslet_within ..) (by decide) ?_
        exact Within.refl
      refine Within.ite (fun _ => ?_) (fun _ => ?_)
      · exact Within.refl
      · refine Within.ite (fun _ => ?_) (fun _ => ?_)
        · refine Within.andThen (State.count_within ..) (by decide) ?_
          exact h4
        · exact h4

theorem State.vectorWrites_within (s : State) (islet : Nat) :
    Within [.mem, .ar] s (State.vectorWrites s islet) := by
  unfold State.vectorWrites
  extract_lets -useContext 
  refine Within.foldl ?_ (fun _ _ => ?_)
  · refine Within.andThen (State.putIslet_within ..) (by decide) ?_
    exact Within.refl
  · refine Within.andThen (State.setBytes_within ..) (by decide) ?_
    exact Within.refl

theorem State.checkMismatch_within (s : State) (islet : Nat) (i : Nat) :
    Within [.outbox, .regs, .mem, .flt, .mgmt, .ar] s (State.checkMismatch s islet i) := by
  unfold State.checkMismatch
  extract_lets -useContext _ _ x3 x4
  refine Within.have_ (t := x3) ?_ (fun h3 => ?_)
  · subst x3
    refine Within.andThen (State.vectorWrites_within ..) (by decide) ?_
    refine Within.andThen (State.putIslet_within ..) (by decide) ?_
    exact Within.refl
  refine Within.have_ (t := x4) ?_ (fun h4 => ?_)
  · subst x4
    refine Within.andThen (State.wr_within ..) (by decide) ?_
    refine Within.andThen (State.count_within ..) (by decide) ?_
    exact h3
  refine Within.andThen (State.fenceCause_within ..) (by decide) ?_
  refine Within.andThen (State.faultLog_within ..) (by decide) ?_
  exact h4

theorem State.onMatrixPassEnd_within (s : State) (islet : Nat) (checkOk : Bool) :
    Within [.outbox, .regs, .mem, .flt, .mgmt, .ar] s (State.onMatrixPassEnd s islet checkOk) := by
  unfold State.onMatrixPassEnd
  split
  · exact Within.refl
  · split
    · exact Within.refl
    · extract_lets -useContext 
      refine Within.ite (fun _ => ?_) (fun _ => ?_)
      · exact Within.refl
      · refine Within.ite (fun _ => ?_) (fun _ => ?_)
        · refine Within.andThen (State.checkMismatch_within ..) (by decide) ?_
          refine Within.andThen (State.putIslet_within ..) (by decide) ?_
          exact Within.refl
        · refine Within.ite (fun _ => ?_) (fun _ => ?_)
          · refine Within.andThen (State.count_within ..) (by decide) ?_
            refine Within.andThen (State.putIslet_within ..) (by decide) ?_
            exact Within.refl
          · refine Within.ite (fun _ => ?_) (fun _ => ?_)
            · refine Within.andThen (State.putIslet_within ..) (by decide) ?_
              exact Within.refl
            · refine Within.ite (fun _ => ?_) (fun _ => ?_)
              · refine Within.ite (fun _ => ?_) (fun _ => ?_)
                · refine Within.andThen (State.count_within ..) (by decide) ?_
                  refine Within.andThen (State.putIslet_within ..) (by decide) ?_
                  exact Within.refl
                · refine Within.andThen (State.count_within ..) (by decide) ?_
                  refine Within.andThen (State.putIslet_within ..) (by decide) ?_
                  exact Within.refl
              · refine Within.andThen (State.putIslet_within ..) (by decide) ?_
                exact Within.refl

theorem execMatrixPassEnd_within {islet : Nat} {checkOk : Bool} {s : State} {t : State}
    (h : execMatrixPassEnd islet checkOk s = .next t) : Within [.outbox, .regs, .mem, .flt, .mgmt, .ar] s t := by
  unfold execMatrixPassEnd at h
  obtain rfl := Host.Outcome.next.inj h
  refine Within.andThen (State.onMatrixPassEnd_within ..) (by decide) ?_
  exact Within.refl

theorem execMatrixOpComplete_within {islet : Nat} {s : State} {t : State}
    (h : execMatrixOpComplete islet s = .next t) : Within [.regs, .mem, .ar] s t := by
  unfold execMatrixOpComplete at h
  obtain rfl := Host.Outcome.next.inj h
  split
  · exact Within.refl
  · extract_lets -useContext 
    split
    · exact Within.refl
    · extract_lets -useContext _ _ _ _ _ _ x11 x12
      refine Within.have_ (t := x11) ?_ (fun h11 => ?_)
      · subst x11
        refine Within.andThen (State.vectorWrites_within ..) (by decide) ?_
        refine Within.andThen (State.setBytes_within ..) (by decide) ?_
        refine Within.andThen (State.putIslet_within ..) (by decide) ?_
        exact Within.refl
      refine Within.have_ (t := x12) ?_ (fun h12 => ?_)
      · subst x12
        refine Within.ite (fun _ => ?_) (fun _ => ?_)
        · refine Within.andThen (State.count_within ..) (by decide) ?_
          exact h11
        · exact h11
      refine Within.ite (fun _ => ?_) (fun _ => ?_)
      · refine Within.andThen (State.count_within ..) (by decide) ?_
        exact h12
      · exact h12

theorem State.vectorStore_within (s : State) (islet : Nat) (off : Nat) (lanes : List Nat) :
    Within [.regs, .mem, .ar] s (State.vectorStore s islet off lanes) := by
  unfold State.vectorStore
  extract_lets -useContext 
  refine Within.ite (fun _ => ?_) (fun _ => ?_)
  · exact Within.refl
  · refine Within.ite (fun _ => ?_) (fun _ => ?_)
    · refine Within.andThen (State.count_within ..) (by decide) ?_
      refine Within.andThen (State.putIslet_within ..) (by decide) ?_
      exact Within.refl
    · refine Within.andThen (State.setBytes_within ..) (by decide) ?_
      exact Within.refl

theorem execVectorOp_within {islet : Nat} {v : VecOp} {s : State} {t : State}
    (h : execVectorOp islet v s = .next t) : Within [.regs, .mem, .ar] s t := by
  unfold execVectorOp at h
  obtain rfl := Host.Outcome.next.inj h
  refine Within.ite (fun _ => ?_) (fun _ => ?_)
  · exact Within.refl
  · extract_lets -useContext _ _ _ _ _ _ _ _ x9 x10
    refine Within.have_ (t := x9) ?_ (fun h9 => ?_)
    · subst x9
      refine Within.andThen (State.putIslet_within ..) (by decide) ?_
      exact Within.refl
    refine Within.have_ (t := x10) ?_ (fun h10 => ?_)
    · subst x10
      split
      · refine Within.andThen (State.vectorStore_within ..) (by decide) ?_
        exact h9
      · exact h9
    refine Within.ite (fun _ => ?_) (fun _ => ?_)
    · refine Within.andThen (State.count_within ..) (by decide) ?_
      exact h10
    · exact h10

theorem State.haltIslet_within (s : State) (die : Nat) (data : Nat) :
    Within [.ar] s (State.haltIslet s die data) := by
  unfold State.haltIslet
  extract_lets -useContext 
  refine Within.ite (fun _ => ?_) (fun _ => ?_)
  · refine Within.andThen (State.putIslet_within ..) (by decide) ?_
    exact Within.refl
  · refine Within.andThen (State.putIslet_within ..) (by decide) ?_
    exact Within.refl

theorem execDbgHalt_within {p : Path} {die : Nat} {data : Nat} {s : State} {t : State}
    (h : execDbgHalt p die data s = .next t) : Within [.ar] s t := by
  unfold execDbgHalt at h
  obtain rfl := Host.Outcome.next.inj h
  refine Within.ite (fun _ => ?_) (fun _ => ?_)
  · exact Within.refl
  · refine Within.andThen (State.haltIslet_within ..) (by decide) ?_
    exact Within.refl

theorem State.dbgRead_within (s : State) (die : Nat) (word : Nat) :
    Within [.regs] s (State.dbgRead s die word).2 := by
  unfold State.dbgRead
  extract_lets -useContext 
  refine Within.andThen (State.wr_within ..) (by decide) ?_
  exact Within.refl

theorem execDbgDataRead_within {p : Path} {die : Nat} {word : Nat} {s : State} {t : State}
    (h : execDbgDataRead p die word s = .next t) : Within [.outbox, .regs] s t := by
  unfold execDbgDataRead at h
  obtain rfl := Host.Outcome.next.inj h
  refine Within.ite (fun _ => ?_) (fun _ => ?_)
  · exact Within.refl
  · extract_lets -useContext x1
    refine Within.have_ (t := x1.2) ?_ (fun h1 => ?_)
    · subst x1
      with_reducible refine Within.andThen (State.dbgRead_within ..) (by decide) ?_
      exact Within.refl
    refine Within.andThen (State.emit_within ..) (by decide) ?_
    exact h1

end Sys2Proof.Machine
end

