-- ==== Sys2Proof/Laws/IndexObj.lean ====
section
/-! SUPPORT. For each operation of Machine/IndexObj.lean: the fields it may change, that it keeps the invariant, and that the watch clock does not go back. -/

namespace Sys2Proof.Machine

set_option linter.all false
set_option Elab.async false

theorem State.hPut_within (s : State) (f : Nat) (h : Nat) (off : Nat) (b : List Byte) :
    Within [.fresh, .regs, .mem, .mm, .sch, .fl] s (State.hPut s f h off b) := by
  unfold State.hPut
  split
  · refine Within.andThen (State.objStore_within ..) (by decide) ?_
    exact Within.refl
  · exact Within.refl

theorem State.hHeal_within (s : State) (f : Nat) (h : Nat) (off : Nat) (n : Nat) :
    Within [.mm] s (State.hHeal s f h off n) := by
  unfold State.hHeal
  split
  · exact Within.refl
  · extract_lets -useContext 
    refine Within.set_mm (by decide) ?_
    exact Within.refl

theorem State.hSet_within (s : State) (f : Nat) (h : Nat) (off : Nat) (hi : Nat) (lo : Nat) (v : Nat) :
    Within [.fresh, .regs, .mem, .mm, .sch, .fl] s (State.hSet s f h off hi lo v) := by
  unfold State.hSet
  extract_lets -useContext 
  refine Within.andThen (State.hPut_within ..) (by decide) ?_
  exact Within.refl

theorem State.updIndex_within (s : State) (n : Nat) (f : Index → Index) :
    Within [.idx] s (State.updIndex s n f) := by
  unfold State.updIndex
  refine Within.set_idx (by decide) ?_
  exact Within.refl

theorem State.shSet_within (s : State) (x : Index) (h : Nat) (hi : Nat) (lo : Nat) (v : Nat) :
    Within [.fresh, .regs, .mem, .mm, .sch, .fl] s (State.shSet s x h hi lo v) := by
  unfold State.shSet
  refine Within.andThen (State.hSet_within ..) (by decide) ?_
  exact Within.refl

theorem State.putShoalSt_within (s : State) (x : ShoalSt) :
    Within [.idx] s (State.putShoalSt s x) := by
  unfold State.putShoalSt
  refine Within.set_idx (by decide) ?_
  exact Within.refl

theorem State.writeRow_within (s : State) (x : Index) (h : Nat) (row : Nat) (v : List Nat) :
    Within [.fresh, .regs, .mem, .mm, .sch, .fl] s (State.writeRow s x h row v) := by
  unfold State.writeRow
  extract_lets -useContext _ _ _ _ x5 x6 x7 x8 x9
  refine Within.have_ (t := x5) ?_ (fun h5 => ?_)
  · subst x5
    refine Within.andThen (State.hTraffic_within ..) (by decide) ?_
    exact Within.refl
  refine Within.have_ (t := x6) ?_ (fun h6 => ?_)
  · subst x6
    refine Within.ite (fun _ => ?_) (fun _ => ?_)
    · refine Within.andThen (State.count_within ..) (by decide) ?_
      exact h5
    · exact h5
  refine Within.have_ (t := x7) ?_ (fun h7 => ?_)
  · subst x7
    refine Within.andThen (State.hPut_within ..) (by decide) ?_
    exact h6
  refine Within.have_ (t := x8) ?_ (fun h8 => ?_)
  · subst x8
    refine Within.andThen (State.hPut_within ..) (by decide) ?_
    exact h7
  refine Within.have_ (t := x9) ?_ (fun h9 => ?_)
  · subst x9
    refine Within.andThen (State.hPut_within ..) (by decide) ?_
    exact h8
  refine Within.ite (fun _ => ?_) (fun _ => ?_)
  · refine Within.andThen (State.hPut_within ..) (by decide) ?_
    exact h9
  · exact h9

theorem State.putId_within (s : State) (x : Index) (slot : Nat) (id : Nat) (second : Bool) :
    Within [.fresh, .regs, .mem, .mm, .sch, .fl] s (State.putId s x slot id second) := by
  unfold State.putId
  refine Within.andThen (State.hPut_within ..) (by decide) ?_
  exact Within.refl

theorem State.putDir_within (s : State) (x : Index) (p : Nat) (e : Nat) (w : Nat) :
    Within [.fresh, .regs, .mem, .mm, .sch, .fl] s (State.putDir s x p e w) := by
  unfold State.putDir
  refine Within.andThen (State.hPut_within ..) (by decide) ?_
  exact Within.refl

theorem State.dirInsert_within (s : State) (x : Index) (id : Nat) (slotA : Nat) (slotB : Option Nat) :
    Within [.fresh, .regs, .mem, .mm, .sch, .fl] s (State.dirInsert s x id slotA slotB) := by
  unfold State.dirInsert
  split
  · refine Within.andThen (State.putDir_within ..) (by decide) ?_
    exact Within.refl
  · split
    · refine Within.andThen (State.putDir_within ..) (by decide) ?_
      exact Within.refl
    · exact Within.refl

theorem State.dirDelete_within (s : State) (x : Index) (id : Nat) :
    Within [.fresh, .regs, .mem, .mm, .sch, .fl] s (State.dirDelete s x id) := by
  unfold State.dirDelete
  split
  · refine Within.andThen (State.putDir_within ..) (by decide) ?_
    exact Within.refl
  · exact Within.refl

theorem State.sweepRun_within (s : State) (x : Index) (r : List Nat) :
    Within [.fresh, .regs, .mem, .mm, .sch, .fl] s (State.sweepRun s x r) := by
  unfold State.sweepRun
  extract_lets -useContext _ _ x3
  refine Within.have_ (t := x3) ?_ (fun h3 => ?_)
  · subst x3
    refine Within.foldl ?_ (fun _ _ => ?_)
    · exact Within.refl
    · refine Within.andThen (State.hPut_within ..) (by decide) ?_
      refine Within.andThen (State.hTraffic_within ..) (by decide) ?_
      exact Within.refl
  refine Within.andThen (State.count_within ..) (by decide) ?_
  refine Within.foldl ?_ (fun _ _ => ?_)
  · exact h3
  · split
    · refine Within.andThen (State.putDir_within ..) (by decide) ?_
      exact Within.refl
    · exact Within.refl

theorem State.sweepStep_within (x : Index) (limit : Nat) (a : State × Nat × Bool × Nat) (run : List Nat) :
    Within [.fresh, .regs, .mem, .mm, .sch, .fl] a.1 (State.sweepStep x limit a run).1 := by
  obtain ⟨y, z⟩ := a
  unfold State.sweepStep
  refine Within.ite_fst (fun _ => ?_) (fun _ => ?_)
  · exact Within.refl
  · refine Within.ite_fst (fun _ => ?_) (fun _ => ?_)
    · exact Within.refl
    · refine Within.andThen (State.sweepRun_within ..) (by decide) ?_
      exact Within.refl

theorem State.sweepDir_within (s : State) (x : Index) (limit : Nat) :
    Within [.fresh, .regs, .mem, .mm, .sch, .fl, .idx] s (State.sweepDir s x limit) := by
  unfold State.sweepDir
  extract_lets -useContext x1 x2
  refine Within.have_ (t := x1.1) ?_ (fun h1 => ?_)
  · subst x1
    refine Within.foldl_fst ?_ (fun _ _ => ?_)
    · exact Within.refl
    · with_reducible refine Within.andThen (State.sweepStep_within ..) (by decide) ?_
      exact Within.refl
  refine Within.have_ (t := x2) ?_ (fun h2 => ?_)
  · subst x2
    refine Within.andThen (State.updIndex_within ..) (by decide) ?_
    exact h1
  refine Within.ite (fun _ => ?_) (fun _ => ?_)
  · refine Within.set_idx (by decide) ?_
    exact h2
  · exact h2

theorem State.putFilt_within (s : State) (x : FiltSt) :
    Within [.idx] s (State.putFilt s x) := by
  unfold State.putFilt
  refine Within.set_idx (by decide) ?_
  exact Within.refl

theorem State.bmSetBlk_within (s : State) (f : Nat) (h : Nat) (c : Nat) (blk : Nat) (v : BmBlk) :
    Within [.fresh, .regs, .mem, .mm, .sch, .fl] s (State.bmSetBlk s f h c blk v) := by
  unfold State.bmSetBlk
  extract_lets -useContext _ x2
  refine Within.have_ (t := x2) ?_ (fun h2 => ?_)
  · subst x2
    refine Within.andThen (State.hPut_within ..) (by decide) ?_
    exact Within.refl
  split
  · exact h2
  · refine Within.andThen (State.hPut_within ..) (by decide) ?_
    exact h2
  · refine Within.andThen (State.hPut_within ..) (by decide) ?_
    exact h2
  · exact h2

theorem State.updFilt_within (s : State) (f : Nat) (h : Nat) (i : Nat) (g : FiltSt → FiltSt) :
    Within [.idx] s (State.updFilt s f h i g) := by
  unfold State.updFilt
  refine Within.andThen (State.putFilt_within ..) (by decide) ?_
  exact Within.refl

theorem State.bmTake_within (s : State) (f : Nat) (h : Nat) (i : Nat) (cw : Nat) (blk : Nat) (n : Nat) (bs : List Bool) :
    Within [.fresh, .regs, .mem, .mm, .sch, .fl, .idx] s (State.bmTake s f h i cw blk n bs) := by
  unfold State.bmTake
  refine Within.andThen (State.updFilt_within ..) (by decide) ?_
  refine Within.andThen (State.bmSetBlk_within ..) (by decide) ?_
  refine Within.andThen (State.hPut_within ..) (by decide) ?_
  exact Within.refl

theorem State.bmApply_within (s : State) (f : Nat) (h : Nat) (i : Nat) (cr : Nat) (cw : Nat) (epoch : Nat) (inPlace : Bool) (blk : Nat) (cs : List (Nat × Bool)) :
    Within [.fresh, .regs, .mem, .mm, .sch, .fl, .idx] s (State.bmApply s f h i cr cw epoch inPlace blk cs) := by
  unfold State.bmApply
  extract_lets -useContext _ y2 x3 x4 _ _ x8
  clear_value y2
  refine Within.have_ (t := x3) ?_ (fun h3 => ?_)
  · subst x3
    refine Within.ite (fun _ => ?_) (fun _ => ?_)
    · refine Within.andThen (State.count_within ..) (by decide) ?_
      exact Within.refl
    · exact Within.refl
  refine Within.have_fn1 (f := x4) (fun _ => ?_) (fun h4 => ?_)
  · subst x4
    beta_reduce
    split
    · extract_lets -useContext 
      refine Within.andThen (State.putFilt_within ..) (by decide) ?_
      exact Within.refl
    · exact Within.refl
  refine Within.have_ (t := x8) ?_ (fun h8 => ?_)
  · subst x8
    refine Within.ite (fun _ => ?_) (fun _ => ?_)
    · exact h3
    · refine Within.andThen (State.putFilt_within ..) (by decide) ?_
      exact h3
  refine Within.ite (fun _ => ?_) (fun _ => ?_)
  · refine Within.andThen (State.bmSetBlk_within ..) (by decide) ?_
    refine Within.trans ?_ (h4 ..)
    exact h8
  · refine Within.ite (fun _ => ?_) (fun _ => ?_)
    · refine Within.andThen (State.bmSetBlk_within ..) (by decide) ?_
      refine Within.trans ?_ (h4 ..)
      exact h8
    · split
      · refine Within.andThen (State.hPut_within ..) (by decide) ?_
        exact h8
      · split
        · refine Within.andThen (State.bmTake_within ..) (by decide) ?_
          refine Within.trans ?_ (h4 ..)
          exact h8
        · refine Within.andThen (State.bmTake_within ..) (by decide) ?_
          refine Within.trans ?_ (h4 ..)
          exact h8
        · split
          · refine Within.andThen (State.bmTake_within ..) (by decide) ?_
            exact h8
          · refine Within.ite (fun _ => ?_) (fun _ => ?_)
            · refine Within.andThen (State.bmTake_within ..) (by decide) ?_
              exact h8
            · exact h8
          · exact h8

theorem State.stageLeaves_within (s : State) (f : Nat) (h : Nat) (i : Nat) (cs : List (Nat × Bool)) (blks : List Nat) :
    Within [.fresh, .regs, .mem, .mm, .sch, .fl, .idx] s (State.stageLeaves s f h i cs blks) := by
  unfold State.stageLeaves
  extract_lets -useContext _ x2
  refine Within.have_ (t := x2) ?_ (fun h2 => ?_)
  · subst x2
    refine Within.andThen (State.updFilt_within ..) (by decide) ?_
    exact Within.refl
  refine Within.foldl ?_ (fun _ _ => ?_)
  · exact h2
  · extract_lets -useContext 
    split
    · refine Within.andThen (State.hPut_within ..) (by decide) ?_
      exact Within.refl
    · refine Within.andThen (State.updFilt_within ..) (by decide) ?_
      refine Within.andThen (State.hPut_within ..) (by decide) ?_
      exact Within.refl
    · exact Within.refl

theorem State.bmCopy_within (s : State) (f : Nat) (h : Nat) (a : Nat) (b : Nat) :
    Within [.fresh, .regs, .mem, .mm, .sch, .fl] s (State.bmCopy s f h a b) := by
  unfold State.bmCopy
  extract_lets -useContext 
  refine Within.andThen (State.hPut_within ..) (by decide) ?_
  refine Within.andThen (State.hPut_within ..) (by decide) ?_
  exact Within.refl

theorem State.filterCommit_within (s : State) (f : Nat) (h : Nat) (i : Nat) (epoch : Nat) (cs : List (Nat × Bool)) :
    Within [.fresh, .regs, .mem, .mm, .sch, .fl, .idx] s (State.filterCommit s f h i epoch cs) := by
  unfold State.filterCommit
  extract_lets -useContext _ _ x3 x4 x5 _ x7
  refine Within.have_ (t := x3) ?_ (fun h3 => ?_)
  · subst x3
    refine Within.andThen (State.bmCopy_within ..) (by decide) ?_
    exact Within.refl
  refine Within.have_ (t := x4) ?_ (fun h4 => ?_)
  · subst x4
    refine Within.foldl ?_ (fun _ _ => ?_)
    · exact h3
    · refine Within.andThen (State.bmApply_within ..) (by decide) ?_
      exact Within.refl
  refine Within.have_ (t := x5) ?_ (fun h5 => ?_)
  · subst x5
    refine Within.andThen (State.hSet_within ..) (by decide) ?_
    refine Within.andThen (State.hSet_within ..) (by decide) ?_
    exact h4
  refine Within.have_ (t := x7) ?_ (fun h7 => ?_)
  · subst x7
    refine Within.andThen (State.putFilt_within ..) (by decide) ?_
    exact h5
  refine Within.andThen (State.hSet_within ..) (by decide) ?_
  exact h7

theorem State.tombCommit_within (s : State) (x : Index) (epoch : Nat) (cs : List (Nat × Bool)) :
    Within [.fresh, .regs, .mem, .mm, .sch, .fl, .idx] s (State.tombCommit s x epoch cs) := by
  unfold State.tombCommit
  extract_lets -useContext x1
  refine Within.have_ (t := x1) ?_ (fun h1 => ?_)
  · subst x1
    refine Within.foldl ?_ (fun _ _ => ?_)
    · exact Within.refl
    · refine Within.andThen (State.bmApply_within ..) (by decide) ?_
      exact Within.refl
  refine Within.andThen (State.hSet_within ..) (by decide) ?_
  exact h1

theorem State.logAdd_within (s : State) (x : Index) (h : Nat) (row : Nat) (kind : Nat) (epoch : Nat) :
    Within [.fresh, .regs, .mem, .mm, .sch, .fl] s (State.logAdd s x h row kind epoch) := by
  unfold State.logAdd
  split
  · refine Within.andThen (State.hPut_within ..) (by decide) ?_
    exact Within.refl
  · exact Within.refl

theorem State.retireEpochs_within (s : State) (x : Index) :
    Within [.fresh, .regs, .mem, .mm, .sch, .fl, .idx] s (State.retireEpochs s x) := by
  unfold State.retireEpochs
  extract_lets -useContext _ x2
  refine Within.have_ (t := x2) ?_ (fun h2 => ?_)
  · subst x2
    refine Within.foldl ?_ (fun _ _ => ?_)
    · exact Within.refl
    · refine Within.foldl ?_ (fun _ _ => ?_)
      · exact Within.refl
      · refine Within.andThen (State.hPut_within ..) (by decide) ?_
        exact Within.refl
  refine Within.foldl ?_ (fun _ _ => ?_)
  · exact h2
  · extract_lets -useContext _ x4
    refine Within.have_ (t := x4) ?_ (fun h4 => ?_)
    · subst x4
      refine Within.andThen (State.putFilt_within ..) (by decide) ?_
      exact Within.refl
    refine Within.ite (fun _ => ?_) (fun _ => ?_)
    · refine Within.andThen (State.hSet_within ..) (by decide) ?_
      exact h4
    · exact h4

end Sys2Proof.Machine
end

