-- ==== Sys2Proof/Laws/Kv.lean ====
section
/-! SUPPORT. For each operation of Machine/Kv.lean: the fields it may change, that it keeps the invariant, and that the watch clock does not go back. -/

namespace Sys2Proof.Machine

set_option linter.all false
set_option Elab.async false

theorem State.updKv_within (s : State) (ctx : Nat) (f : KvCtx → KvCtx) :
    Within [.kv] s (State.updKv s ctx f) := by
  unfold State.updKv
  refine Within.set_kv (by decide) ?_
  exact Within.refl

theorem State.updSeq_within (s : State) (slot : Nat) (f : Seq → Seq) :
    Within [.gen] s (State.updSeq s slot f) := by
  unfold State.updSeq
  refine Within.set_gen (by decide) ?_
  exact Within.refl

theorem State.setPage_within (s : State) (c : KvCtx) (p : PageRef) (f : Nat → Nat) :
    Within [.fresh, .regs, .mem, .mm, .sch, .fl] s (State.setPage s c p f) := by
  unfold State.setPage
  split
  · refine Within.andThen (State.hPut_within ..) (by decide) ?_
    exact Within.refl
  · exact Within.refl

theorem State.putMeta_within (s : State) (c : KvCtx) (p : PageRef) (off : Nat) (b : List Byte) :
    Within [.fresh, .regs, .mem, .mm, .sch, .fl] s (State.putMeta s c p off b) := by
  unfold State.putMeta
  split
  · refine Within.andThen (State.hPut_within ..) (by decide) ?_
    exact Within.refl
  · exact Within.refl

theorem State.putFrame_within (s : State) (c : KvCtx) (pool : Nat) (frame : Nat) (off : Nat) (b : List Byte) :
    Within [.fresh, .regs, .mem, .mm, .sch, .fl] s (State.putFrame s c pool frame off b) := by
  unfold State.putFrame
  refine Within.andThen (State.hPut_within ..) (by decide) ?_
  exact Within.refl

theorem State.mendPage_within (s : State) (c : KvCtx) (p : PageRef) (off : Nat) (b : List Byte) :
    Within [.fresh, .regs, .mem, .mm, .sch, .fl] s (State.mendPage s c p off b) := by
  unfold State.mendPage
  extract_lets -useContext 
  refine Within.ite (fun _ => ?_) (fun _ => ?_)
  · refine Within.andThen (State.putFrame_within ..) (by decide) ?_
    refine Within.andThen (State.hHeal_within ..) (by decide) ?_
    exact Within.refl
  · split
    · refine Within.andThen (State.putMeta_within ..) (by decide) ?_
      refine Within.andThen (State.hHeal_within ..) (by decide) ?_
      exact Within.refl
    · exact Within.refl

theorem State.sendAt_within (s : State) (dst : Nat) (func : Nat) (write : Bool) (use : XUse) (ms : List (XPlace × Nat × List Byte)) :
    Within [.outbox, .zwx] s (State.sendAt s dst func write use ms) := by
  unfold State.sendAt
  extract_lets -useContext 
  refine Within.andThen (State.emits_within ..) (by decide) ?_
  refine Within.set_zwx (by decide) ?_
  exact Within.refl

theorem State.sendX_within (s : State) (dst : Nat) (func : Nat) (write : Bool) (use : XUse) (ms : List (XPlace × List Byte)) :
    Within [.outbox, .zwx] s (State.sendX s dst func write use ms) := by
  unfold State.sendX
  refine Within.andThen (State.sendAt_within ..) (by decide) ?_
  exact Within.refl

theorem State.sendAll_within (s : State) (ds : List Nat) (func : Nat) (use : XUse) (ms : List (XPlace × List Byte)) :
    Within [.outbox, .zwx] s (State.sendAll s ds func use ms) := by
  unfold State.sendAll
  split
  · refine Within.foldl ?_ (fun _ _ => ?_)
    · exact Within.refl
    · refine Within.andThen (State.sendX_within ..) (by decide) ?_
      exact Within.refl
  · extract_lets -useContext 
    refine Within.andThen (State.emits_within ..) (by decide) ?_
    refine Within.set_zwx (by decide) ?_
    exact Within.refl

theorem State.sendHold_within (s : State) (c : KvCtx) (seq : Nat) (on : Bool) :
    Within [.outbox, .zwx] s (State.sendHold s c seq on) := by
  unfold State.sendHold
  refine Within.andThen (State.sendAll_within ..) (by decide) ?_
  exact Within.refl

theorem State.takeChunk_within {s : State} {c : KvCtx} {pool : Nat} {y0 : Nat} {t : State}
    (h : State.takeChunk s c pool = some (y0, t)) : Within [.kv] s t := by
  unfold State.takeChunk at h
  extract_lets -useContext  at h
  split at h
  · obtain rfl := congrArg (fun p => p.2) (Option.some.inj h)
    refine Within.andThen (State.updKv_within ..) (by decide) ?_
    exact Within.refl
  · split at h
    · obtain rfl := congrArg (fun p => p.2) (Option.some.inj h)
      refine Within.andThen (State.updKv_within ..) (by decide) ?_
      exact Within.refl
    · exact nomatch h

theorem State.leafChunk_within {s : State} {c : KvCtx} {p : PageRef} {q : Seq} {y0 : Nat} {t : State}
    (h : State.leafChunk s c p q = some (y0, t)) : Within [.fresh, .regs, .mem, .mm, .sch, .fl, .kv] s t := by
  unfold State.leafChunk at h
  extract_lets -useContext  at h
  split at h
  · split at h
    · exact nomatch h
    · obtain rfl := congrArg (fun p => p.2) (Option.some.inj h)
      refine Within.andThen (State.hPut_within ..) (by decide) ?_
      refine Within.andThen (State.hPut_within ..) (by decide) ?_
      refine Within.andThen (State.takeChunk_within (by assumption)) (by decide) ?_
      exact Within.refl
  · obtain rfl := congrArg (fun p => p.2) (Option.some.inj h)
    exact Within.refl

theorem State.newLeaf_within {s : State} {ctx : Nat} {c : KvCtx} {p : PageRef} {k : Nat} {t : State}
    (h : State.newLeaf s ctx c p k = some t) : Within [.fresh, .regs, .mem, .mm, .sch, .fl, .kv] s t := by
  unfold State.newLeaf at h
  extract_lets -useContext  at h
  split at h
  · exact nomatch h
  · split at h
    · exact nomatch h
    · extract_lets -useContext x3 at h
      refine Within.have_ (t := x3) ?_ (fun h3 => ?_)
      · subst x3
        refine Within.andThen (State.updKv_within ..) (by decide) ?_
        exact Within.refl
      obtain rfl := Option.some.inj h
      refine Within.andThen (State.hPut_within ..) (by decide) ?_
      refine Within.andThen (State.hPut_within ..) (by decide) ?_
      exact h3

theorem State.makeLeaf_within {s : State} {ctx : Nat} {p : PageRef} {t : State}
    (h : State.makeLeaf s ctx p = some t) : Within [.fresh, .regs, .mem, .mm, .sch, .fl, .kv] s t := by
  unfold State.makeLeaf at h
  split at h
  · split at h
    · obtain rfl := Option.some.inj h
      exact Within.refl
    · split at h
      · exact nomatch h
      · refine Within.andThen (State.newLeaf_within h) (by decide) ?_
        refine Within.andThen (State.leafChunk_within (by assumption)) (by decide) ?_
        exact Within.refl
  · exact nomatch h

theorem State.takeFrame_within {s : State} {ctx : Nat} {p : PageRef} {y0 : Nat} {y1 : Nat} {t : State}
    (h : State.takeFrame s ctx p = some (y0, y1, t)) : Within [.fresh, .kv] s t := by
  unfold State.takeFrame at h
  split at h
  · exact nomatch h
  · split at h
    · exact nomatch h
    · split at h
      · obtain rfl := congrArg (fun p => p.2.2) (Option.some.inj h)
        refine Within.andThen (State.updKv_within ..) (by decide) ?_
        refine Within.snd ?_ (by assumption)
        with_reducible refine Within.andThen (State.draw_within ..) (by decide) ?_
        exact Within.refl
      · exact nomatch h

theorem State.freeFrame_within (s : State) (ctx : Nat) (pool : Nat) (frame : Nat) :
    Within [.kv] s (State.freeFrame s ctx pool frame) := by
  unfold State.freeFrame
  refine Within.andThen (State.updKv_within ..) (by decide) ?_
  exact Within.refl

theorem State.freeSpill_within (s : State) (ctx : Nat) (f : Nat) :
    Within [.kv] s (State.freeSpill s ctx f) := by
  unfold State.freeSpill
  refine Within.andThen (State.updKv_within ..) (by decide) ?_
  exact Within.refl

theorem State.pruneReads_within (s : State) :
    Within [.fl] s (State.pruneReads s) := by
  unfold State.pruneReads
  extract_lets -useContext 
  refine Within.set_fl (by decide) ?_
  exact Within.refl

theorem State.ageAdd_within (s : State) (ctx : Nat) (p : PageRef) :
    Within [.fresh, .regs, .mem, .mm, .sch, .fl, .kv] s (State.ageAdd s ctx p) := by
  unfold State.ageAdd
  split
  · exact Within.refl
  · extract_lets -useContext 
    refine Within.andThen (State.hPut_within ..) (by decide) ?_
    refine Within.andThen (State.updKv_within ..) (by decide) ?_
    exact Within.refl

theorem State.ageDrop_within (s : State) (ctx : Nat) (p : PageRef) :
    Within [.kv] s (State.ageDrop s ctx p) := by
  unfold State.ageDrop
  refine Within.andThen (State.updKv_within ..) (by decide) ?_
  exact Within.refl

theorem State.spillIssue_within (s : State) (c : KvCtx) (p : PageRef) (f : Nat) (cmd : Option CmdRef) (spare : Option Nat) :
    Within [.fresh, .regs, .mem, .mm, .sch, .fl, .kv] s (State.spillIssue s c p f cmd spare) := by
  unfold State.spillIssue
  extract_lets -useContext _ _ x3 x4
  refine Within.have_ (t := x3) ?_ (fun h3 => ?_)
  · subst x3
    refine Within.andThen (State.setPage_within ..) (by decide) ?_
    exact Within.refl
  refine Within.have_ (t := x4) ?_ (fun h4 => ?_)
  · subst x4
    refine Within.andThen (State.updKv_within ..) (by decide) ?_
    exact h3
  refine Within.andThen (State.queueWrite_within ..) (by decide) ?_
  refine Within.set_kv (by decide) ?_
  exact h4

theorem State.dropPage_within (s : State) (c : KvCtx) (p : PageRef) :
    Within [.fresh, .regs, .mem, .mm, .sch, .fl, .kv] s (State.dropPage s c p) := by
  unfold State.dropPage
  extract_lets -useContext 
  refine Within.andThen (State.count_within ..) (by decide) ?_
  refine Within.andThen (State.ageDrop_within ..) (by decide) ?_
  refine Within.andThen (State.freeFrame_within ..) (by decide) ?_
  refine Within.andThen (State.setPage_within ..) (by decide) ?_
  exact Within.refl

theorem State.bindFrame_within (s : State) (c : KvCtx) (p : PageRef) (pool : Nat) (frame : Nat) :
    Within [.fresh, .regs, .mem, .mm, .sch, .fl] s (State.bindFrame s c p pool frame) := by
  unfold State.bindFrame
  refine Within.andThen (State.count_within ..) (by decide) ?_
  refine Within.andThen (State.setPage_within ..) (by decide) ?_
  exact Within.refl

theorem State.spillOldest_within (s : State) (c : KvCtx) (v : PageRef) (seq : Nat) :
    Within [.fresh, .regs, .mem, .mm, .sch, .fl, .kv] s (State.spillOldest s c v seq).1 := by
  unfold State.spillOldest
  split
  · exact Within.refl
  · refine Within.andThen (State.spillIssue_within ..) (by decide) ?_
    exact Within.refl

theorem State.makeRoom_within (s : State) (ctx : Nat) (c : KvCtx) (p : PageRef) :
    Within [.fresh, .regs, .mem, .mm, .sch, .fl, .kv] s (State.makeRoom s ctx c p).1 := by
  unfold State.makeRoom
  refine Within.ite_fst (fun _ => ?_) (fun _ => ?_)
  · split
    · exact Within.refl
    · split
      · refine Within.andThen (State.bindFrame_within ..) (by decide) ?_
        refine Within.andThen (State.takeFrame_within (by assumption)) (by decide) ?_
        refine Within.andThen (State.dropPage_within ..) (by decide) ?_
        exact Within.refl
      · refine Within.andThen (State.dropPage_within ..) (by decide) ?_
        exact Within.refl
  · refine Within.ite_fst (fun _ => ?_) (fun _ => ?_)
    · exact Within.refl
    · split
      · exact Within.refl
      · with_reducible refine Within.andThen (State.spillOldest_within ..) (by decide) ?_
        exact Within.refl

theorem State.makePage_within (s : State) (ctx : Nat) (p : PageRef) (issue : Bool) :
    Within [.fresh, .regs, .mem, .mm, .sch, .fl, .kv] s (State.makePage s ctx p issue).1 := by
  unfold State.makePage
  split
  · exact Within.refl
  · split
    · exact Within.refl
    · split
      · refine Within.andThen (State.bindFrame_within ..) (by decide) ?_
        refine Within.andThen (State.takeFrame_within (by assumption)) (by decide) ?_
        refine Within.andThen (State.makeLeaf_within (by assumption)) (by decide) ?_
        exact Within.refl
      · refine Within.ite_fst (fun _ => ?_) (fun _ => ?_)
        · refine Within.andThen (State.makeLeaf_within (by assumption)) (by decide) ?_
          exact Within.refl
        · with_reducible refine Within.andThen (State.makeRoom_within ..) (by decide) ?_
          refine Within.andThen (State.makeLeaf_within (by assumption)) (by decide) ?_
          exact Within.refl

theorem State.makePages_within (s : State) (ctx : Nat) (ps0 : List PageRef) (own : Nat) :
    Within [.fresh, .regs, .mem, .mm, .sch, .fl, .kv] s (State.makePages s ctx ps0 own).1 := by
  unfold State.makePages
  extract_lets -useContext x1
  refine Within.have_ (t := x1.1) ?_ (fun h1 => ?_)
  · subst x1
    refine Within.foldl_fst ?_ (fun _ _ => ?_)
    · exact Within.refl
    · extract_lets -useContext x2
      refine Within.have_ (t := x2.1) ?_ (fun h2 => ?_)
      · subst x2
        with_reducible refine Within.andThen (State.makePage_within ..) (by decide) ?_
        exact Within.refl
      exact h2
  exact h1

theorem State.quotaFull_within (s : State) (ctx : Nat) (seq : Nat) (c : FullCause) :
    Within [.regs] s (State.quotaFull s ctx seq c) := by
  unfold State.quotaFull
  refine Within.andThen (State.count_within ..) (by decide) ?_
  refine Within.andThen (State.wr_within ..) (by decide) ?_
  exact Within.refl

theorem State.serveWaiting_within (s : State) (ctx : Nat) :
    Within [.outbox, .fresh, .regs, .mem, .mm, .sch, .zwx, .fl, .kv, .gen] s (State.serveWaiting s ctx) := by
  unfold State.serveWaiting
  extract_lets -useContext 
  refine Within.foldl ?_ (fun _ _ => ?_)
  · exact Within.refl
  · split
    · extract_lets -useContext _ x3
      refine Within.have_ (t := x3.1) ?_ (fun h3 => ?_)
      · subst x3
        with_reducible refine Within.andThen (State.makePages_within ..) (by decide) ?_
        exact Within.refl
      refine Within.ite (fun _ => ?_) (fun _ => ?_)
      · refine Within.andThen (State.sendHold_within ..) (by decide) ?_
        refine Within.andThen (State.updSeq_within ..) (by decide) ?_
        exact h3
      · exact h3
    · exact Within.refl

theorem State.kvHandled_within (s : State) (cmd : Option CmdRef) (ok : Bool) :
    Within [.outbox, .regs, .mm, .sch, .cmd, .kv] s (State.kvHandled s cmd ok) := by
  unfold State.kvHandled
  split
  · exact Within.refl
  · split
    · exact Within.refl
    · extract_lets -useContext 
      refine Within.ite (fun _ => ?_) (fun _ => ?_)
      · refine Within.andThen (State.complete_within ..) (by decide) ?_
        refine Within.set_kv (by decide) ?_
        exact Within.refl
      · refine Within.set_kv (by decide) ?_
        exact Within.refl

theorem State.mapSpill_within (s : State) (f : Nat) :
    Within [.fresh, .regs, .fl] s (State.mapSpill s f) := by
  unfold State.mapSpill
  refine Within.foldl ?_ (fun _ _ => ?_)
  · exact Within.refl
  · refine Within.andThen (State.mapUnit_within ..) (by decide) ?_
    exact Within.refl

theorem State.endSpillWrite_within (s : State) (f : Nat) :
    Within [.fl] s (State.endSpillWrite s f) := by
  unfold State.endSpillWrite
  split
  · refine Within.andThen (State.dropWrite_within ..) (by decide) ?_
    exact Within.refl
  · exact Within.refl

theorem State.undoSpill_within (s : State) (m : PageMove) :
    Within [.fresh, .regs, .mem, .mm, .sch, .fl, .kv] s (State.undoSpill s m) := by
  unfold State.undoSpill
  extract_lets -useContext _ x2 x3
  refine Within.have_ (t := x2) ?_ (fun h2 => ?_)
  · subst x2
    refine Within.andThen (State.cancelWrites_within ..) (by decide) ?_
    refine Within.set_kv (by decide) ?_
    exact Within.refl
  refine Within.have_ (t := x3) ?_ (fun h3 => ?_)
  · subst x3
    refine Within.ite (fun _ => ?_) (fun _ => ?_)
    · refine Within.andThen (State.freeFrame_within ..) (by decide) ?_
      exact h2
    · split
      · refine Within.andThen (State.setPage_within ..) (by decide) ?_
        exact h2
      · exact h2
  refine Within.andThen (State.freeSpill_within ..) (by decide) ?_
  exact h3

theorem State.undoPromo_within (s : State) (m : PageMove) :
    Within [.fresh, .regs, .mem, .mm, .sch, .fl, .kv] s (State.undoPromo s m) := by
  unfold State.undoPromo
  extract_lets -useContext _ x2
  refine Within.have_ (t := x2) ?_ (fun h2 => ?_)
  · subst x2
    refine Within.set_kv (by decide) ?_
    exact Within.refl
  refine Within.andThen (State.freeFrame_within ..) (by decide) ?_
  split
  · refine Within.andThen (State.setPage_within ..) (by decide) ?_
    exact h2
  · exact h2

theorem State.spillDurable_within (s : State) (c : KvCtx) (m : PageMove) :
    Within [.outbox, .fresh, .regs, .mem, .mm, .sch, .cmd, .fl, .kv] s (State.spillDurable s c m) := by
  unfold State.spillDurable
  extract_lets -useContext _ x2 x3
  refine Within.have_ (t := x2) ?_ (fun h2 => ?_)
  · subst x2
    refine Within.set_kv (by decide) ?_
    exact Within.refl
  refine Within.have_ (t := x3) ?_ (fun h3 => ?_)
  · subst x3
    refine Within.ite (fun _ => ?_) (fun _ => ?_)
    · refine Within.andThen (State.freeSpill_within ..) (by decide) ?_
      exact h2
    · refine Within.andThen (State.ageDrop_within ..) (by decide) ?_
      refine Within.andThen (State.setPage_within ..) (by decide) ?_
      exact h2
  refine Within.andThen (State.kvHandled_within ..) (by decide) ?_
  refine Within.andThen (State.count_within ..) (by decide) ?_
  exact h3

theorem State.spillEnd_within (s : State) (m : PageMove) :
    Within [.outbox, .fresh, .regs, .mem, .mm, .sch, .zwx, .fl, .kv, .gen] s (State.spillEnd s m) := by
  unfold State.spillEnd
  refine Within.andThen (State.serveWaiting_within ..) (by decide) ?_
  refine Within.andThen (State.freeFrame_within ..) (by decide) ?_
  refine Within.set_kv (by decide) ?_
  exact Within.refl

theorem State.settleSpills_within (s : State) :
    Within [.outbox, .fresh, .regs, .mem, .mm, .sch, .zwx, .fl, .kv, .gen] s (State.settleSpills s) := by
  unfold State.settleSpills
  refine Within.foldl ?_ (fun _ _ => ?_)
  · exact Within.refl
  · refine Within.ite (fun _ => ?_) (fun _ => ?_)
    · exact Within.refl
    · refine Within.andThen (State.spillEnd_within ..) (by decide) ?_
      exact Within.refl

theorem State.promote_within {s : State} {c : KvCtx} {p : PageRef} {cmd : Option CmdRef} {t : State}
    (h : State.promote s c p cmd = some t) : Within [.fresh, .regs, .mem, .mm, .sch, .fl, .kv] s t := by
  unfold State.promote at h
  extract_lets -useContext  at h
  split at h
  · exact nomatch h
  · split at h
    · exact nomatch h
    · extract_lets -useContext _ x4 at h
      refine Within.have_ (t := x4) ?_ (fun h4 => ?_)
      · subst x4
        refine Within.andThen (State.setPage_within ..) (by decide) ?_
        refine Within.andThen (State.updKv_within ..) (by decide) ?_
        refine Within.snd ?_ (by assumption)
        with_reducible refine Within.andThen (State.draw_within ..) (by decide) ?_
        exact Within.refl
      obtain rfl := Option.some.inj h
      refine Within.set_kv (by decide) ?_
      exact h4

theorem State.switchRelocs_within (s : State) :
    Within [.fresh, .regs, .mem, .mm, .sch, .fl, .kv] s (State.switchRelocs s) := by
  unfold State.switchRelocs
  refine Within.foldl ?_ (fun _ _ => ?_)
  · exact Within.refl
  · split
    · exact Within.refl
    · refine Within.ite (fun _ => ?_) (fun _ => ?_)
      · exact Within.refl
      · extract_lets -useContext _ _ x3
        refine Within.have_ (t := x3) ?_ (fun h3 => ?_)
        · subst x3
          refine Within.set_kv (by decide) ?_
          exact Within.refl
        refine Within.andThen (State.freeFrame_within ..) (by decide) ?_
        refine Within.andThen (State.setPage_within ..) (by decide) ?_
        exact h3

theorem State.freePages_within (s : State) (q : Seq) :
    Within [.kv] s (State.freePages s q) := by
  unfold State.freePages
  split
  · exact Within.refl
  · extract_lets -useContext _ _ _ _ _ _ _ _ x9
    refine Within.have_ (t := x9) ?_ (fun h9 => ?_)
    · subst x9
      refine Within.andThen (State.updKv_within ..) (by decide) ?_
      exact Within.refl
    refine Within.set_kv (by decide) ?_
    exact h9

theorem State.freeSeq_within (s : State) (slot : Nat) :
    Within [.outbox, .fresh, .regs, .mem, .mm, .sch, .zwx, .fl, .kv, .gen] s (State.freeSeq s slot) := by
  unfold State.freeSeq
  split
  · exact Within.refl
  · extract_lets -useContext x1
    refine Within.have_ (t := x1) ?_ (fun h1 => ?_)
    · subst x1
      refine Within.andThen (State.freePages_within ..) (by decide) ?_
      exact Within.refl
    refine Within.andThen (State.serveWaiting_within ..) (by decide) ?_
    refine Within.set_gen (by decide) ?_
    exact h1

theorem State.endSeq_within (s : State) (slot : Nat) (reason : Nat) (status : Nat) :
    Within [.outbox, .regs, .mm, .sch, .cmd, .gen] s (State.endSeq s slot reason status) := by
  unfold State.endSeq
  split
  · exact Within.refl
  · extract_lets -useContext x1
    refine Within.have_ (t := x1) ?_ (fun h1 => ?_)
    · subst x1
      refine Within.andThen (State.updSeq_within ..) (by decide) ?_
      exact Within.refl
    split
    · refine Within.andThen (State.complete_within ..) (by decide) ?_
      exact h1
    · exact h1

end Sys2Proof.Machine
end

