-- ==== Sys2Proof/Laws/Lagoon.lean ====
section
/-! SUPPORT. For each operation of Machine/Lagoon.lean: the fields it may change, that it keeps the invariant, and that the watch clock does not go back. -/

namespace Sys2Proof.Machine

set_option linter.all false
set_option Elab.async false

theorem State.keepRuns_within (s : State) (r : CmdRef) (key : Nat) (island : Nat) (k : Nat) (n : Nat) (kib : Nat) :
    Within [.regs, .mm] s (State.keepRuns s r key island k n kib) := by
  unfold State.keepRuns
  extract_lets -useContext _ _ _ _ _ _ _ _ _ _ x11
  refine Within.have_ (t := x11) ?_ (fun h11 => ?_)
  · subst x11
    refine Within.set_mm (by decide) ?_
    exact Within.refl
  refine Within.ite (fun _ => ?_) (fun _ => ?_)
  · exact Within.refl
  · refine Within.ite (fun _ => ?_) (fun _ => ?_)
    · refine Within.andThen (State.count_within ..) (by decide) ?_
      exact h11
    · exact h11

theorem State.countList_within (s : State) (x0 : Nat) (k : Nat) (n : Nat) :
    Within [.regs] s (State.countList s x0 k n) := by
  unfold State.countList
  extract_lets -useContext x1 x2
  refine Within.have_ (t := x1) ?_ (fun h1 => ?_)
  · subst x1
    refine Within.andThen (State.count_within ..) (by decide) ?_
    exact Within.refl
  refine Within.have_ (t := x2) ?_ (fun h2 => ?_)
  · subst x2
    refine Within.ite (fun _ => ?_) (fun _ => ?_)
    · refine Within.andThen (State.count_within ..) (by decide) ?_
      exact h1
    · exact h1
  refine Within.ite (fun _ => ?_) (fun _ => ?_)
  · refine Within.andThen (State.count_within ..) (by decide) ?_
    exact h2
  · exact h2

theorem State.dropRuns_within (s : State) (p : RunList → Bool) :
    Within [.mm] s (State.dropRuns s p) := by
  unfold State.dropRuns
  refine Within.set_mm (by decide) ?_
  exact Within.refl

theorem State.yieldUnits_within (s : State) (die : Nat) (us : List Nat) :
    Within [.regs, .mm] s (State.yieldUnits s die us) := by
  unfold State.yieldUnits
  extract_lets -useContext _ _ _ x4
  refine Within.have_ (t := x4) ?_ (fun h4 => ?_)
  · subst x4
    refine Within.set_mm (by decide) ?_
    exact Within.refl
  refine Within.ite (fun _ => ?_) (fun _ => ?_)
  · refine Within.andThen (State.count_within ..) (by decide) ?_
    exact h4
  · exact h4

theorem State.takeShare_within (s : State) (owner : ShareOwner) (die : Option Nat) (n : Nat) :
    Within [.regs, .mm] s (State.takeShare s owner die n).1 := by
  unfold State.takeShare
  extract_lets -useContext _ _ _ _ _ _ x7
  refine Within.have_ (t := x7) ?_ (fun h7 => ?_)
  · subst x7
    refine Within.set_mm (by decide) ?_
    exact Within.refl
  refine Within.ite_fst (fun _ => ?_) (fun _ => ?_)
  · refine Within.foldl ?_ (fun _ _ => ?_)
    · exact h7
    · refine Within.andThen (State.yieldUnits_within ..) (by decide) ?_
      exact Within.refl
  · refine Within.foldl ?_ (fun _ _ => ?_)
    · exact Within.refl
    · refine Within.andThen (State.count_within ..) (by decide) ?_
      exact Within.refl

theorem State.dropShare_within (s : State) (owner : ShareOwner) :
    Within [.mm] s (State.dropShare s owner) := by
  unfold State.dropShare
  refine Within.set_mm (by decide) ?_
  exact Within.refl

end Sys2Proof.Machine
end

