-- ==== Sys2Proof/Laws/Attn.lean ====
section
/-! SUPPORT. For each operation of Machine/Attn.lean: the fields it may change, that it keeps the invariant, and that the watch clock does not go back. -/

namespace Sys2Proof.Machine

set_option linter.all false
set_option Elab.async false

theorem State.updCohort_within (s : State) (slot : Nat) (f : Cohort → Cohort) :
    Within [.gen] s (State.updCohort s slot f) := by
  unfold State.updCohort
  refine Within.set_gen (by decide) ?_
  exact Within.refl

theorem State.measured_within (s : State) (s0 : State) (slot : Nat) :
    Within [.gen] s (State.measured s s0 slot) := by
  unfold State.measured
  refine Within.andThen (State.updCohort_within ..) (by decide) ?_
  exact Within.refl

theorem State.arrayBusy_within (s : State) (slot : Nat) (island : Nat) (cycles : Nat) :
    Within [.gen] s (State.arrayBusy s slot island cycles) := by
  unfold State.arrayBusy
  refine Within.andThen (State.updCohort_within ..) (by decide) ?_
  exact Within.refl

theorem State.updEntry_within (s : State) (slot : Nat) (e : Nat) (f : CEntry → CEntry) :
    Within [.gen] s (State.updEntry s slot e f) := by
  unfold State.updEntry
  refine Within.andThen (State.updCohort_within ..) (by decide) ?_
  exact Within.refl

theorem State.updAttn_within (s : State) (a : AttnRef) (f : AttnRun → AttnRun) :
    Within [.gen] s (State.updAttn s a f) := by
  unfold State.updAttn
  refine Within.andThen (State.updCohort_within ..) (by decide) ?_
  exact Within.refl

theorem State.metaTraffic_within (s : State) (c : KvCtx) (p : PageRef) (off : Nat) (n : Nat) :
    Within [.mm, .sch] s (State.metaTraffic s c p off n) := by
  unfold State.metaTraffic
  split
  · refine Within.andThen (State.hTraffic_within ..) (by decide) ?_
    exact Within.refl
  · exact Within.refl

theorem State.countPageList_within (s : State) (merge : Nat) (k : Nat) (n : Nat) (nans : Nat) :
    Within [.regs, .mm] s (State.countPageList s merge k n nans) := by
  unfold State.countPageList
  extract_lets -useContext _ _ x3
  refine Within.have_ (t := x3) ?_ (fun h3 => ?_)
  · subst x3
    refine Within.andThen (State.dropRuns_within ..) (by decide) ?_
    refine Within.andThen (State.keepRuns_within ..) (by decide) ?_
    exact Within.refl
  refine Within.andThen (State.countList_within ..) (by decide) ?_
  refine Within.ite (fun _ => ?_) (fun _ => ?_)
  · refine Within.andThen (State.count_within ..) (by decide) ?_
    exact h3
  · exact h3

theorem State.addSplits_within (s : State) (a : AttnRef) (pages : List Nat) :
    Within [.regs, .sch, .fl, .gen] s (State.addSplits s a pages) := by
  unfold State.addSplits
  split
  · exact Within.refl
  · split
    · extract_lets -useContext _ _ _ _ x5 x6
      refine Within.have_ (t := x5) ?_ (fun h5 => ?_)
      · subst x5
        refine Within.ite (fun _ => ?_) (fun _ => ?_)
        · refine Within.andThen (State.count_within ..) (by decide) ?_
          exact Within.refl
        · exact Within.refl
      refine Within.have_ (t := x6) ?_ (fun h6 => ?_)
      · subst x6
        refine Within.andThen (State.updAttn_within ..) (by decide) ?_
        exact h5
      refine Within.foldl ?_ (fun _ _ => ?_)
      · exact h6
      · extract_lets -useContext x8
        refine Within.have_ (t := x8) ?_ (fun h8 => ?_)
        · subst x8
          refine Within.ite (fun _ => ?_) (fun _ => ?_)
          · refine Within.foldl ?_ (fun _ _ => ?_)
            · exact Within.refl
            · refine Within.andThen (State.queueSpill_within ..) (by decide) ?_
              exact Within.refl
          · exact Within.refl
        refine Within.foldl ?_ (fun _ _ => ?_)
        · exact h8
        · refine Within.andThen (State.addRoam_within ..) (by decide) ?_
          exact Within.refl
    · exact Within.refl

theorem State.landParts_within (s : State) (a : AttnRef) (merge : Nat) (n : Nat) :
    Within [.regs, .gen] s (State.landParts s a merge n) := by
  unfold State.landParts
  refine Within.ite (fun _ => ?_) (fun _ => ?_)
  · exact Within.refl
  · refine Within.andThen (State.count_within ..) (by decide) ?_
    refine Within.andThen (State.updAttn_within ..) (by decide) ?_
    exact Within.refl

theorem State.openAttn_within (s : State) (slot : Nat) (e : Nat) (layer : Nat) :
    Within [.regs, .sch, .fl, .gen] s (State.openAttn s slot e layer) := by
  unfold State.openAttn
  split
  · exact Within.refl
  · split
    · extract_lets -useContext 
      refine Within.foldl ?_ (fun _ _ => ?_)
      · exact Within.refl
      · extract_lets -useContext _ _ _ _ _ x7 x8
        refine Within.have_ (t := x7) ?_ (fun h7 => ?_)
        · subst x7
          refine Within.andThen (State.updCohort_within ..) (by decide) ?_
          exact Within.refl
        refine Within.have_ (t := x8) ?_ (fun h8 => ?_)
        · subst x8
          refine Within.ite (fun _ => ?_) (fun _ => ?_)
          · refine Within.andThen (State.count_within ..) (by decide) ?_
            exact h7
          · exact h7
        refine Within.ite (fun _ => ?_) (fun _ => ?_)
        · exact Within.refl
        · refine Within.andThen (State.addSplits_within ..) (by decide) ?_
          refine Within.andThen (State.addSplits_within ..) (by decide) ?_
          refine Within.andThen (State.landParts_within ..) (by decide) ?_
          exact h8
    · exact Within.refl

theorem State.attnFull_within (s : State) (slot : Nat) :
    Within [.gen] s (State.attnFull s slot) := by
  unfold State.attnFull
  refine Within.andThen (State.updCohort_within ..) (by decide) ?_
  exact Within.refl

theorem State.leaveStep_within (s : State) (slot : Nat) (e : Nat) :
    Within [.regs, .sch, .fl, .ar, .gen] s (State.leaveStep s slot e) := by
  unfold State.leaveStep
  extract_lets -useContext x1
  refine Within.have_ (t := x1) ?_ (fun h1 => ?_)
  · subst x1
    refine Within.andThen (State.updCohort_within ..) (by decide) ?_
    exact Within.refl
  refine Within.andThen (State.attnFull_within ..) (by decide) ?_
  refine Within.andThen (State.pruneReads_within ..) (by decide) ?_
  refine Within.andThen (State.dropTasks_within ..) (by decide) ?_
  exact h1

theorem State.badPage_within (s : State) (c : KvCtx) (slot : Nat) (e : Nat) (p : PageRef) (die : Nat) :
    Within [.outbox, .regs, .sch, .zwx, .fl, .ar, .kv, .gen] s (State.badPage s c slot e p die) := by
  unfold State.badPage
  refine Within.ite (fun _ => ?_) (fun _ => ?_)
  · refine Within.andThen (State.count_within ..) (by decide) ?_
    refine Within.andThen (State.updEntry_within ..) (by decide) ?_
    refine Within.andThen (State.leaveStep_within ..) (by decide) ?_
    exact Within.refl
  · extract_lets -useContext _ x2
    refine Within.have_ (t := x2) ?_ (fun h2 => ?_)
    · subst x2
      refine Within.ite (fun _ => ?_) (fun _ => ?_)
      · exact Within.refl
      · refine Within.andThen (State.count_within ..) (by decide) ?_
        exact Within.refl
    refine Within.ite (fun _ => ?_) (fun _ => ?_)
    · refine Within.ite (fun _ => ?_) (fun _ => ?_)
      · exact Within.refl
      · refine Within.andThen (State.sendX_within ..) (by decide) ?_
        exact h2
    · refine Within.andThen (State.leaveStep_within ..) (by decide) ?_
      refine Within.set_kv (by decide) ?_
      exact h2

theorem State.sendList_within (s : State) (c : KvCtx) (x : CEntry) (p : PageRef) (final : Bool) (dsts : List Nat) (l : List (Nat × Nat)) :
    Within [.outbox, .zwx] s (State.sendList s c x p final dsts l) := by
  unfold State.sendList
  extract_lets -useContext 
  refine Within.andThen (State.sendAll_within ..) (by decide) ?_
  exact Within.refl

theorem State.takeFar_within (s : State) (f : XPkt → Bool) :
    Within [.kv] s (State.takeFar s f) := by
  unfold State.takeFar
  refine Within.set_kv (by decide) ?_
  exact Within.refl

theorem State.attnPart_within (runs : List AttnRun) (d : Body) (t0 : Nat) (q : List Nat × State) (g : Nat) :
    Within [.fresh] q.2 (State.attnPart runs d t0 q g).2 := by
  obtain ⟨y, z⟩ := q
  unfold State.attnPart
  extract_lets -useContext _ x2
  refine Within.have_ (t := x2) ?_ (fun h2 => ?_)
  · subst x2
    exact Within.refl
  split
  · exact Within.refl
  · refine Within.set_fresh (by decide) ?_
    exact h2

theorem State.attnRows_within (s : State) (k : Cohort) (d : Body) (e : Nat) (layer : Nat) (x : CEntry) :
    Within [.fresh] s (State.attnRows s k d e layer x).2 := by
  unfold State.attnRows
  extract_lets
  refine Within.foldl_snd Within.refl (fun q _ => ?_)
  exact Within.foldl_snd (p := ([], q.2)) Within.refl (fun _ _ => State.attnPart_within ..)

theorem State.putRows_within (s : State) (slot : Nat) (e : Nat) (layer : Nat) (rows : List (List Nat)) :
    Within [.gen] s (State.putRows s slot e layer rows) := by
  unfold State.putRows
  refine Within.andThen (State.updCohort_within ..) (by decide) ?_
  exact Within.refl

theorem State.attnOut_within (s : State) (a : AttnRef) (rows : List (List Nat)) :
    Within [.outbox, .fresh, .regs, .mem, .mm, .sch, .zwx, .fl, .kv, .gen] s (State.attnOut s a rows) := by
  unfold State.attnOut
  extract_lets -useContext x1
  refine Within.have_ (t := x1) ?_ (fun h1 => ?_)
  · subst x1
    refine Within.andThen (State.updAttn_within ..) (by decide) ?_
    exact Within.refl
  split
  · exact h1
  · split
    · exact h1
    · extract_lets -useContext _ x4
      refine Within.have_ (t := x4.2) ?_ (fun h4 => ?_)
      · subst x4
        with_reducible refine Within.andThen (State.attnRows_within ..) (by decide) ?_
        exact h1
      refine Within.andThen (State.settleSpills_within ..) (by decide) ?_
      refine Within.ite (fun _ => ?_) (fun _ => ?_)
      · refine Within.andThen (State.attnFull_within ..) (by decide) ?_
        refine Within.andThen (State.putRows_within ..) (by decide) ?_
        exact h4
      · exact h1

theorem State.attnCheck_within (s : State) (a : AttnRef) :
    Within [.outbox, .fresh, .regs, .mem, .mm, .sch, .zwx, .fl, .kv, .gen] s (State.attnCheck s a) := by
  unfold State.attnCheck
  split
  · exact Within.refl
  · split
    · extract_lets -useContext _ _ _ x4
      refine Within.have_ (t := x4) ?_ (fun h4 => ?_)
      · subst x4
        refine Within.andThen (State.takeFar_within ..) (by decide) ?_
        exact Within.refl
      refine Within.ite (fun _ => ?_) (fun _ => ?_)
      · exact Within.refl
      · refine Within.ite (fun _ => ?_) (fun _ => ?_)
        · refine Within.andThen (State.attnOut_within ..) (by decide) ?_
          refine Within.set_fresh (by decide) ?_
          exact h4
        · refine Within.ite (fun _ => ?_) (fun _ => ?_)
          · exact Within.refl
          · refine Within.andThen (State.addTask_within ..) (by decide) ?_
            exact Within.refl
    · exact Within.refl

theorem State.choiceEnd_within (s : State) (a : AttnRef) (pick : List Nat) :
    Within [.outbox, .fresh, .regs, .mem, .mm, .sch, .zwx, .fl, .kv, .gen] s (State.choiceEnd s a pick) := by
  unfold State.choiceEnd
  refine Within.andThen (State.attnCheck_within ..) (by decide) ?_
  refine Within.andThen (State.addSplits_within ..) (by decide) ?_
  refine Within.andThen (State.updAttn_within ..) (by decide) ?_
  exact Within.refl

theorem State.countChoice_within (s : State) (c : KvCtx) (k : Cohort) (d : Body) (a : AttnRef) (x : CEntry) (merge : Nat) (mine : List Nat) :
    Within [.regs, .mm, .sch, .gen] s (State.countChoice s c k d a x merge mine) := by
  unfold State.countChoice
  extract_lets -useContext _ _ x3
  refine Within.have_ (t := x3) ?_ (fun h3 => ?_)
  · subst x3
    refine Within.foldl ?_ (fun _ _ => ?_)
    · refine Within.andThen (State.tally_within ..) (by decide) ?_
      refine Within.andThen (State.count_within ..) (by decide) ?_
      exact Within.refl
    · extract_lets -useContext 
      refine Within.andThen (State.metaTraffic_within ..) (by decide) ?_
      refine Within.andThen (State.metaTraffic_within ..) (by decide) ?_
      exact Within.refl
  refine Within.andThen (State.measured_within ..) (by decide) ?_
  refine Within.andThen (State.arrayBusy_within ..) (by decide) ?_
  refine Within.andThen (State.countPageList_within ..) (by decide) ?_
  exact h3

theorem execPageChoiceDone_within {a : AttnRef} {unreadable : List Nat} {s : State} {t : State}
    (h : execPageChoiceDone a unreadable s = .next t) : Within [.outbox, .fresh, .regs, .mem, .mm, .sch, .zwx, .fl, .ar, .kv, .gen] s t := by
  unfold execPageChoiceDone at h
  obtain rfl := Host.Outcome.next.inj h
  split
  · exact Within.refl
  · split
    · refine Within.ite (fun _ => ?_) (fun _ => ?_)
      · exact Within.refl
      · extract_lets -useContext _ _ _ _ _ _ _ x8 _ _ _ x12
        refine Within.have_ (t := x8) ?_ (fun h8 => ?_)
        · subst x8
          refine Within.ite (fun _ => ?_) (fun _ => ?_)
          · refine Within.andThen (State.count_within ..) (by decide) ?_
            exact Within.refl
          · refine Within.andThen (State.countChoice_within ..) (by decide) ?_
            exact Within.refl
        refine Within.have_ (t := x12) ?_ (fun h12 => ?_)
        · subst x12
          refine Within.ite (fun _ => ?_) (fun _ => ?_)
          · exact h8
          · refine Within.andThen (State.sendList_within ..) (by decide) ?_
            refine Within.andThen (State.takeFar_within ..) (by decide) ?_
            exact h8
        split
        · refine Within.andThen (State.badPage_within ..) (by decide) ?_
          exact Within.refl
        · refine Within.ite (fun _ => ?_) (fun _ => ?_)
          · refine Within.andThen (State.sendList_within ..) (by decide) ?_
            refine Within.andThen (State.updAttn_within ..) (by decide) ?_
            exact h8
          · refine Within.ite (fun _ => ?_) (fun _ => ?_)
            · exact Within.refl
            · split
              · refine Within.andThen (State.badPage_within ..) (by decide) ?_
                exact Within.refl
              · refine Within.andThen (State.choiceEnd_within ..) (by decide) ?_
                exact h12
    · exact Within.refl

theorem State.taskOver_within (s : State) (t0 : Task) :
    Within [.sch] s (State.taskOver s t0) := by
  unfold State.taskOver
  extract_lets -useContext x1
  refine Within.have_ (t := x1) ?_ (fun h1 => ?_)
  · subst x1
    refine Within.andThen (State.chargeRun_within ..) (by decide) ?_
    exact Within.refl
  refine Within.set_sch (by decide) ?_
  exact h1

theorem State.splitTraffic_within (s : State) (c : KvCtx) (d : Body) (a : AttnRef) (x : CEntry) (retr : List Nat) (pages : List Nat) (rb : Nat) :
    Within [.mm, .sch] s (State.splitTraffic s c d a x retr pages rb) := by
  unfold State.splitTraffic
  extract_lets -useContext 
  refine Within.foldl ?_ (fun _ _ => ?_)
  · exact Within.refl
  · extract_lets -useContext _ _ _ x5 x6
    refine Within.have_fn2 (f := x5) (fun _ _ => ?_) (fun h5 => ?_)
    · subst x5
      beta_reduce
      refine Within.andThen (State.hTraffic_within ..) (by decide) ?_
      exact Within.refl
    refine Within.have_ (t := x6) ?_ (fun h6 => ?_)
    · subst x6
      refine Within.ite (fun _ => ?_) (fun _ => ?_)
      · refine Within.trans ?_ (h5 ..)
        refine Within.trans ?_ (h5 ..)
        exact Within.refl
      · exact Within.refl
    refine Within.ite (fun _ => ?_) (fun _ => ?_)
    · refine Within.andThen (State.metaTraffic_within ..) (by decide) ?_
      refine Within.andThen (State.metaTraffic_within ..) (by decide) ?_
      exact h6
    · exact h6

theorem State.countBlocks_within (s : State) (die : Nat) (n : BlockCount) :
    Within [.regs] s (State.countBlocks s die n) := by
  unfold State.countBlocks
  extract_lets -useContext x1
  refine Within.have_fn3 (f := x1) (fun _ _ _ => ?_) (fun h1 => ?_)
  · subst x1
    beta_reduce
    refine Within.ite (fun _ => ?_) (fun _ => ?_)
    · refine Within.andThen (State.count_within ..) (by decide) ?_
      exact Within.refl
    · exact Within.refl
  refine Within.andThen (State.tally_within ..) (by decide) ?_
  refine Within.trans ?_ (h1 ..)
  refine Within.trans ?_ (h1 ..)
  refine Within.trans ?_ (h1 ..)
  exact Within.refl

theorem State.mirrorBack_within (s : State) (p : PageRef) :
    Within [.sch] s (State.mirrorBack s p) := by
  unfold State.mirrorBack
  refine Within.ite (fun _ => ?_) (fun _ => ?_)
  · exact Within.refl
  · extract_lets -useContext 
    refine Within.set_sch (by decide) ?_
    exact Within.refl

theorem State.splitDone_within (s : State) (island : Nat) (a : AttnRef) (first : Nat) (rb : Nat) :
    Within [.outbox, .fresh, .regs, .mem, .mm, .sch, .zwx, .fl, .kv, .gen] s (State.splitDone s island a first rb) := by
  unfold State.splitDone
  split
  · exact Within.refl
  · split
    · split
      · exact Within.refl
      · extract_lets -useContext _ _ _ _ _ x6 x7 x8 x9
        refine Within.have_ (t := x6) ?_ (fun h6 => ?_)
        · subst x6
          refine Within.andThen (State.landParts_within ..) (by decide) ?_
          refine Within.andThen (State.splitTraffic_within ..) (by decide) ?_
          exact Within.refl
        refine Within.have_ (t := x7) ?_ (fun h7 => ?_)
        · subst x7
          refine Within.andThen (State.countBlocks_within ..) (by decide) ?_
          refine Within.andThen (State.updAttn_within ..) (by decide) ?_
          exact h6
        refine Within.have_ (t := x8) ?_ (fun h8 => ?_)
        · subst x8
          refine Within.ite (fun _ => ?_) (fun _ => ?_)
          · refine Within.andThen (State.updEntry_within ..) (by decide) ?_
            exact h7
          · exact h7
        refine Within.have_ (t := x9) ?_ (fun h9 => ?_)
        · subst x9
          refine Within.ite (fun _ => ?_) (fun _ => ?_)
          · exact h8
          · refine Within.andThen (State.sendX_within ..) (by decide) ?_
            exact h8
        refine Within.ite (fun _ => ?_) (fun _ => ?_)
        · exact Within.refl
        · refine Within.andThen (State.attnCheck_within ..) (by decide) ?_
          refine Within.andThen (State.measured_within ..) (by decide) ?_
          refine Within.andThen (State.arrayBusy_within ..) (by decide) ?_
          refine Within.ite (fun _ => ?_) (fun _ => ?_)
          · refine Within.andThen (State.count_within ..) (by decide) ?_
            exact h9
          · exact h9
    · exact Within.refl

theorem State.endSplit_within (s : State) (t0 : Task) (a : AttnRef) (first : Nat) (rb : Nat) :
    Within [.outbox, .fresh, .regs, .mem, .mm, .sch, .zwx, .fl, .ar, .kv, .gen] s (State.endSplit s t0 a first rb) := by
  unfold State.endSplit
  split
  · refine Within.andThen (State.badPage_within ..) (by decide) ?_
    refine Within.andThen (State.yieldTask_within ..) (by decide) ?_
    exact Within.refl
  · refine Within.andThen (State.splitDone_within ..) (by decide) ?_
    refine Within.andThen (State.taskOver_within ..) (by decide) ?_
    exact Within.refl

theorem execAttnSplitDone_within {a : AttnRef} {split : Nat} {rowBlock : Nat} {s : State} {t : State}
    (h : execAttnSplitDone a split rowBlock s = .next t) : Within [.outbox, .fresh, .regs, .mem, .mm, .sch, .zwx, .fl, .ar, .kv, .gen] s t := by
  unfold execAttnSplitDone at h
  obtain rfl := Host.Outcome.next.inj h
  split
  · exact Within.refl
  · refine Within.andThen (State.endSplit_within ..) (by decide) ?_
    exact Within.refl

theorem State.saveStats_within (s : State) (k : Cohort) (d : Body) (a : AttnRef) (x : CEntry) (r : AttnRun) (ms : List (List Nat × Nat × Nat)) :
    Within [.fresh, .regs, .mem, .mm, .sch, .fl] s (State.saveStats s k d a x r ms) := by
  unfold State.saveStats
  split
  · exact Within.refl
  · extract_lets -useContext _ _ _ _ x5
    refine Within.have_ (t := x5) ?_ (fun h5 => ?_)
    · subst x5
      refine Within.foldl ?_ (fun _ _ => ?_)
      · exact Within.refl
      · refine Within.andThen (State.hPut_within ..) (by decide) ?_
        exact Within.refl
    refine Within.ite (fun _ => ?_) (fun _ => ?_)
    · exact Within.refl
    · refine Within.andThen (State.hPut_within ..) (by decide) ?_
      exact h5

theorem State.mergeDone_within (s : State) (a : AttnRef) :
    Within [.outbox, .fresh, .regs, .mem, .mm, .sch, .zwx, .fl, .kv, .gen] s (State.mergeDone s a) := by
  unfold State.mergeDone
  split
  · exact Within.refl
  · split
    · extract_lets -useContext _ _ _ x4
      refine Within.have_ (t := x4) ?_ (fun h4 => ?_)
      · subst x4
        refine Within.andThen (State.count_within ..) (by decide) ?_
        refine Within.andThen (State.takeFar_within ..) (by decide) ?_
        exact Within.refl
      refine Within.andThen (State.attnOut_within ..) (by decide) ?_
      refine Within.andThen (State.measured_within ..) (by decide) ?_
      refine Within.andThen (State.saveStats_within ..) (by decide) ?_
      exact h4
    · exact Within.refl

theorem execAttnMerge_within {a : AttnRef} {s : State} {t : State}
    (h : execAttnMerge a s = .next t) : Within [.outbox, .fresh, .regs, .mem, .mm, .sch, .zwx, .fl, .kv, .gen] s t := by
  unfold execAttnMerge at h
  obtain rfl := Host.Outcome.next.inj h
  split
  · exact Within.refl
  · refine Within.andThen (State.mergeDone_within ..) (by decide) ?_
    refine Within.andThen (State.taskOver_within ..) (by decide) ?_
    exact Within.refl

theorem State.putSummary_within (s : State) (c : KvCtx) (d : Body) (p : PageRef) :
    Within [.fresh, .regs, .mem, .mm, .sch, .fl] s (State.putSummary s c d p) := by
  unfold State.putSummary
  refine Within.andThen (State.putMeta_within ..) (by decide) ?_
  exact Within.refl

theorem State.mirrorCopy_within (s : State) (c : KvCtx) (p : PageRef) :
    Within [.outbox, .zwx, .kv] s (State.mirrorCopy s c p) := by
  unfold State.mirrorCopy
  refine Within.ite (fun _ => ?_) (fun _ => ?_)
  · exact Within.refl
  · extract_lets -useContext 
    refine Within.andThen (State.sendX_within ..) (by decide) ?_
    refine Within.set_kv (by decide) ?_
    exact Within.refl

theorem State.putPos_within (s : State) (c : KvCtx) (p : PageRef) (i : Nat) (kc : List Byte) (vc : List Byte) (ks : Byte) (vs : Byte) :
    Within [.outbox, .fresh, .regs, .mem, .mm, .sch, .zwx, .fl, .kv] s (State.putPos s c p i kc vc ks vs) := by
  unfold State.putPos
  extract_lets -useContext _ x2 x3 x4
  refine Within.have_ (t := x2) ?_ (fun h2 => ?_)
  · subst x2
    refine Within.andThen (State.putFrame_within ..) (by decide) ?_
    refine Within.andThen (State.putFrame_within ..) (by decide) ?_
    exact Within.refl
  refine Within.have_ (t := x3) ?_ (fun h3 => ?_)
  · subst x3
    refine Within.andThen (State.putMeta_within ..) (by decide) ?_
    refine Within.andThen (State.putMeta_within ..) (by decide) ?_
    exact h2
  refine Within.have_ (t := x4) ?_ (fun h4 => ?_)
  · subst x4
    refine Within.andThen (State.setPage_within ..) (by decide) ?_
    exact h3
  refine Within.ite (fun _ => ?_) (fun _ => ?_)
  · exact Within.refl
  · refine Within.ite (fun _ => ?_) (fun _ => ?_)
    · exact h3
    · refine Within.ite (fun _ => ?_) (fun _ => ?_)
      · refine Within.andThen (State.mirrorCopy_within ..) (by decide) ?_
        refine Within.andThen (State.ageAdd_within ..) (by decide) ?_
        refine Within.andThen (State.putSummary_within ..) (by decide) ?_
        exact h4
      · exact h4

theorem State.appendRow_within (s : State) (ctx : Nat) (d : Body) (x : CEntry) (f : Fresh) :
    Within [.outbox, .fresh, .regs, .mem, .mm, .sch, .zwx, .fl, .kv] s (State.appendRow s ctx d x f) := by
  unfold State.appendRow
  split
  · exact Within.refl
  · extract_lets -useContext 
    refine Within.ite (fun _ => ?_) (fun _ => ?_)
    · exact Within.refl
    · refine Within.ite (fun _ => ?_) (fun _ => ?_)
      · refine Within.andThen (State.putPos_within ..) (by decide) ?_
        exact Within.refl
      · refine Within.ite (fun _ => ?_) (fun _ => ?_)
        · exact Within.refl
        · refine Within.andThen (State.sendX_within ..) (by decide) ?_
          exact Within.refl

theorem State.mirrorEnd_within (s : State) (p : PageRef) (ok : Bool) :
    Within [.outbox, .fresh, .regs, .mem, .mm, .sch, .zwx, .fl, .kv, .gen] s (State.mirrorEnd s p ok) := by
  unfold State.mirrorEnd
  refine Within.ite (fun _ => ?_) (fun _ => ?_)
  · exact Within.refl
  · extract_lets -useContext _ _ x3 x4
    refine Within.have_ (t := x3) ?_ (fun h3 => ?_)
    · subst x3
      refine Within.set_zwx_kv (by decide) ?_
      exact Within.refl
    refine Within.have_ (t := x4) ?_ (fun h4 => ?_)
    · subst x4
      split
      · refine Within.ite (fun _ => ?_) (fun _ => ?_)
        · refine Within.andThen (State.setPage_within ..) (by decide) ?_
          exact h3
        · exact h3
      · exact h3
    refine Within.andThen (State.settleSpills_within ..) (by decide) ?_
    refine Within.ite (fun _ => ?_) (fun _ => ?_)
    · refine Within.andThen (State.count_within ..) (by decide) ?_
      exact h4
    · refine Within.andThen (State.count_within ..) (by decide) ?_
      exact h4

theorem execMirrorAck_within {p : PageRef} {ok : Bool} {s : State} {t : State}
    (h : execMirrorAck p ok s = .next t) : Within [.outbox, .fresh, .regs, .mem, .mm, .sch, .zwx, .fl, .kv, .gen] s t := by
  unfold execMirrorAck at h
  obtain rfl := Host.Outcome.next.inj h
  refine Within.andThen (State.mirrorEnd_within ..) (by decide) ?_
  exact Within.refl

theorem State.onAttnBackward_within (s : State) (r : BwdReq) :
    Within [.fresh, .regs, .mem, .mm, .sch, .fl] s (State.onAttnBackward s r) := by
  unfold State.onAttnBackward
  split
  · exact Within.refl
  · refine Within.ite (fun _ => ?_) (fun _ => ?_)
    · exact Within.refl
    · extract_lets -useContext 
      refine Within.andThen (State.tally_within ..) (by decide) ?_
      refine Within.andThen (State.count_within ..) (by decide) ?_
      refine Within.andThen (State.hPut_within ..) (by decide) ?_
      exact Within.refl

theorem execAttnBackward_within {r : BwdReq} {s : State} {t : State}
    (h : execAttnBackward r s = .next t) : Within [.fresh, .regs, .mem, .mm, .sch, .fl] s t := by
  unfold execAttnBackward at h
  obtain rfl := Host.Outcome.next.inj h
  refine Within.andThen (State.onAttnBackward_within ..) (by decide) ?_
  exact Within.refl

end Sys2Proof.Machine
end

