-- ==== Sys2Proof/Laws/Index.lean ====
section
/-! SUPPORT. For each operation of Machine/Index.lean: the fields it may change, that it keeps the invariant, and that the watch clock does not go back. -/

namespace Sys2Proof.Machine

set_option linter.all false
set_option Elab.async false

theorem State.dropIndex_within (s : State) (n : Nat) :
    Within [.mm, .idx] s (State.dropIndex s n) := by
  unfold State.dropIndex
  extract_lets -useContext x1
  refine Within.have_ (t := x1) ?_ (fun h1 => ?_)
  · subst x1
    refine Within.andThen (State.dropShare_within ..) (by decide) ?_
    exact Within.refl
  refine Within.set_idx (by decide) ?_
  exact h1

theorem State.loadFail_within (s : State) (r : CmdRef) (status : Nat) (sec : Nat) :
    Within [.outbox, .regs, .mm, .sch, .cmd] s (State.loadFail s r status sec) := by
  unfold State.loadFail
  extract_lets -useContext x1
  refine Within.have_ (t := x1) ?_ (fun h1 => ?_)
  · subst x1
    refine Within.andThen (State.complete_within ..) (by decide) ?_
    exact Within.refl
  refine Within.andThen (State.wr_within ..) (by decide) ?_
  exact h1

theorem State.loadEmpty_within (s : State) (x : Index) :
    Within [.fresh, .regs, .mem, .mm, .sch, .fl] s (State.loadEmpty s x) := by
  unfold State.loadEmpty
  extract_lets -useContext x1 x2 x4 x5 x6
  refine Within.have_fn3 (f := x1) (fun _ _ _ => ?_) (fun h1 => ?_)
  · subst x1
    beta_reduce
    refine Within.andThen (State.hPut_within ..) (by decide) ?_
    exact Within.refl
  refine Within.have_ (t := x2) ?_ (fun h2 => ?_)
  · subst x2
    refine Within.foldl ?_ (fun _ _ => ?_)
    · exact Within.refl
    · extract_lets -useContext x3
      refine Within.have_ (t := x3) ?_ (fun h3 => ?_)
      · subst x3
        refine Within.andThen (State.shSet_within ..) (by decide) ?_
        refine Within.andThen (State.shSet_within ..) (by decide) ?_
        refine Within.andThen (State.shSet_within ..) (by decide) ?_
        refine Within.andThen (State.shSet_within ..) (by decide) ?_
        exact Within.refl
      refine Within.trans ?_ (h1 ..)
      refine Within.trans ?_ (h1 ..)
      exact h3
  refine Within.have_ (t := x4) ?_ (fun h4 => ?_)
  · subst x4
    refine Within.andThen (State.hPut_within ..) (by decide) ?_
    exact h2
  refine Within.have_ (t := x5) ?_ (fun h5 => ?_)
  · subst x5
    refine Within.foldl ?_ (fun _ _ => ?_)
    · exact h4
    · refine Within.andThen (State.putId_within ..) (by decide) ?_
      exact Within.refl
  refine Within.have_ (t := x6) ?_ (fun h6 => ?_)
  · subst x6
    refine Within.andThen (State.hSet_within ..) (by decide) ?_
    refine Within.andThen (State.hSet_within ..) (by decide) ?_
    refine Within.andThen (State.hSet_within ..) (by decide) ?_
    refine Within.andThen (State.hSet_within ..) (by decide) ?_
    exact h5
  refine Within.andThen (State.hPut_within ..) (by decide) ?_
  exact h6

theorem actIndexLoad_within  (r : CmdRef) (l : Live) (s : State) :
    Within [.outbox, .fresh, .regs, .mem, .mm, .sch, .cmd, .fl, .idx] s (actIndexLoad r l s) := by
  unfold actIndexLoad
  split
  · refine Within.andThen (State.loadFail_within ..) (by decide) ?_
    exact Within.refl
  · extract_lets -useContext _ _ x3 _ x5 x6
    refine Within.have_ (t := x3) ?_ (fun h3 => ?_)
    · subst x3
      refine Within.andThen (State.updLive_within ..) (by decide) ?_
      exact Within.refl
    refine Within.have_ (t := x5) ?_ (fun h5 => ?_)
    · subst x5
      refine Within.set_idx (by decide) ?_
      exact h3
    refine Within.have_ (t := x6) ?_ (fun h6 => ?_)
    · subst x6
      refine Within.set_idx (by decide) ?_
      exact h3
    refine Within.ite (fun _ => ?_) (fun _ => ?_)
    · refine Within.andThen (State.loadEmpty_within ..) (by decide) ?_
      exact h5
    · split
      · refine Within.andThen (State.queueObj_within ..) (by decide) ?_
        exact h6
      · exact h6

theorem execIndexLoad_within {h : CmdHdr} {b : Body} {s : State} {t : State}
    (h : execIndexLoad h b s = .next t) : Within [.outbox, .fresh, .regs, .mem, .mm, .sch, .cmd, .fl, .mgmt, .idx] s t := by
  unfold execIndexLoad at h
  obtain rfl := Host.Outcome.next.inj h
  refine Within.trans ?_ (State.command_within (by decide) (fun _ _ _ => ?_) ..)
  · exact Within.refl
  · exact Within.mono (actIndexLoad_within ..) (by decide)

theorem State.copyImage_within (s : State) (x : Index) (o : Obj) :
    Within [.fresh, .regs, .mem, .mm, .sch, .fl, .idx] s (State.copyImage s x o) := by
  unfold State.copyImage
  extract_lets -useContext _ _ x3 x4 _ _ x7 _ _ x13 x14
  refine Within.have_ (t := x3) ?_ (fun h3 => ?_)
  · subst x3
    refine Within.foldl ?_ (fun _ _ => ?_)
    · exact Within.refl
    · refine Within.andThen (State.shSet_within ..) (by decide) ?_
      refine Within.andThen (State.shSet_within ..) (by decide) ?_
      refine Within.andThen (State.shSet_within ..) (by decide) ?_
      refine Within.andThen (State.shSet_within ..) (by decide) ?_
      exact Within.refl
  refine Within.have_ (t := x4) ?_ (fun h4 => ?_)
  · subst x4
    refine Within.foldl ?_ (fun _ _ => ?_)
    · refine Within.andThen (State.hPut_within ..) (by decide) ?_
      exact h3
    · refine Within.andThen (State.putId_within ..) (by decide) ?_
      exact Within.refl
  refine Within.have_ (t := x7.1) ?_ (fun h7 => ?_)
  · subst x7
    refine Within.foldl_fst ?_ (fun _ _ => ?_)
    · exact h4
    · extract_lets -useContext _ _ x10
      refine Within.have_ (t := x10) ?_ (fun h10 => ?_)
      · subst x10
        refine Within.andThen (State.hPut_within ..) (by decide) ?_
        exact Within.refl
      refine Within.andThen (State.hPut_within ..) (by decide) ?_
      exact h10
  refine Within.have_ (t := x13) ?_ (fun h13 => ?_)
  · subst x13
    refine Within.andThen (State.hPut_within ..) (by decide) ?_
    exact h7
  refine Within.have_ (t := x14) ?_ (fun h14 => ?_)
  · subst x14
    refine Within.foldl ?_ (fun _ _ => ?_)
    · exact h13
    · refine Within.andThen (State.hPut_within ..) (by decide) ?_
      exact Within.refl
  refine Within.andThen (State.updIndex_within ..) (by decide) ?_
  exact h14

theorem State.onIndexImageCopied_within (s : State) (idx : Nat) :
    Within [.outbox, .fresh, .regs, .mem, .mm, .sch, .cmd, .fl, .idx] s (State.onIndexImageCopied s idx) := by
  unfold State.onIndexImageCopied
  split
  · extract_lets -useContext x1 x2
    refine Within.have_of2 (f := x1) (fun _ _ => ?_) (fun h1 => ?_)
    · subst x1
      beta_reduce
      split
      · refine Within.andThen (State.loadFail_within ..) (by decide) ?_
        refine Within.andThen (State.dropIndex_within ..) (by decide) ?_
        exact Within.refl
      · refine Within.andThen (State.dropIndex_within ..) (by decide) ?_
        exact Within.refl
    refine Within.have_ (t := x2) ?_ (fun h2 => ?_)
    · subst x2
      refine Within.andThen (State.copyImage_within ..) (by decide) ?_
      refine Within.andThen (State.objTraffic_within ..) (by decide) ?_
      exact Within.refl
    refine Within.ite (fun _ => ?_) (fun _ => ?_)
    · exact Within.refl
    · refine Within.ite (fun _ => ?_) (fun _ => ?_)
      · exact h1 ..
      · split
        · exact h1 ..
        · refine Within.ite (fun _ => ?_) (fun _ => ?_)
          · split
            · refine Within.andThen (State.loadFail_within ..) (by decide) ?_
              refine Within.andThen (State.dropIndex_within ..) (by decide) ?_
              exact h2
            · refine Within.andThen (State.dropIndex_within ..) (by decide) ?_
              exact h2
          · exact h2
  · exact Within.refl

theorem execIndexImageCopied_within {idx : Nat} {s : State} {t : State}
    (h : execIndexImageCopied idx s = .next t) : Within [.outbox, .fresh, .regs, .mem, .mm, .sch, .cmd, .fl, .idx] s t := by
  unfold execIndexImageCopied at h
  obtain rfl := Host.Outcome.next.inj h
  refine Within.andThen (State.onIndexImageCopied_within ..) (by decide) ?_
  exact Within.refl

theorem State.refreshCents_within (s : State) (n : Nat) (all_ : Bool) :
    Within [.regs, .idx] s (State.refreshCents s n all_) := by
  unfold State.refreshCents
  split
  · exact Within.refl
  · extract_lets -useContext 
    refine Within.andThen (State.updIndex_within ..) (by decide) ?_
    refine Within.ite (fun _ => ?_) (fun _ => ?_)
    · refine Within.andThen (State.count_within ..) (by decide) ?_
      exact Within.refl
    · exact Within.refl

theorem State.onCentroidCopyBuilt_within (s : State) (idx : Nat) :
    Within [.outbox, .fresh, .regs, .mem, .mm, .sch, .cmd, .fl, .idx] s (State.onCentroidCopyBuilt s idx) := by
  unfold State.onCentroidCopyBuilt
  split
  · exact Within.refl
  · extract_lets -useContext x1 _ _ x4 x5
    refine Within.have_ (t := x1.1) ?_ (fun h1 => ?_)
    · subst x1
      with_reducible refine Within.andThen (State.takeShare_within ..) (by decide) ?_
      exact Within.refl
    refine Within.have_ (t := x4) ?_ (fun h4 => ?_)
    · subst x4
      refine Within.ite (fun _ => ?_) (fun _ => ?_)
      · refine Within.andThen (State.count_within ..) (by decide) ?_
        exact h1
      · exact h1
    refine Within.have_ (t := x5) ?_ (fun h5 => ?_)
    · subst x5
      refine Within.foldl ?_ (fun _ _ => ?_)
      · exact h4
      · refine Within.andThen (State.hPut_within ..) (by decide) ?_
        exact Within.refl
    refine Within.ite (fun _ => ?_) (fun _ => ?_)
    · split
      · refine Within.andThen (State.loadFail_within ..) (by decide) ?_
        refine Within.andThen (State.dropIndex_within ..) (by decide) ?_
        exact h1
      · refine Within.andThen (State.dropIndex_within ..) (by decide) ?_
        exact h1
    · split
      · refine Within.andThen (State.addMark_within ..) (by decide) ?_
        refine Within.andThen (State.updIndex_within ..) (by decide) ?_
        refine Within.snd ?_ (by assumption)
        with_reducible refine Within.andThen (State.draw_within ..) (by decide) ?_
        exact h5

theorem execCentroidCopyBuilt_within {idx : Nat} {s : State} {t : State}
    (h : execCentroidCopyBuilt idx s = .next t) : Within [.outbox, .fresh, .regs, .mem, .mm, .sch, .cmd, .fl, .idx] s t := by
  unfold execCentroidCopyBuilt at h
  obtain rfl := Host.Outcome.next.inj h
  refine Within.andThen (State.onCentroidCopyBuilt_within ..) (by decide) ?_
  exact Within.refl

theorem actIndexSave_within  (r : CmdRef) (l : Live) (s : State) :
    Within [.outbox, .fresh, .regs, .mm, .sch, .cmd, .fl, .idx] s (actIndexSave r l s) := by
  unfold actIndexSave
  split
  · refine Within.andThen (State.complete_within ..) (by decide) ?_
    exact Within.refl
  · split
    · refine Within.andThen (State.complete_within ..) (by decide) ?_
      exact Within.refl
    · extract_lets -useContext 
      refine Within.andThen (State.queueBytes_within ..) (by decide) ?_
      refine Within.andThen (State.updIndex_within ..) (by decide) ?_
      refine Within.andThen (State.updLive_within ..) (by decide) ?_
      exact Within.refl

theorem execIndexSave_within {h : CmdHdr} {b : Body} {s : State} {t : State}
    (h : execIndexSave h b s = .next t) : Within [.outbox, .fresh, .regs, .mm, .sch, .cmd, .fl, .mgmt, .idx] s t := by
  unfold execIndexSave at h
  obtain rfl := Host.Outcome.next.inj h
  refine Within.trans ?_ (State.command_within (by decide) (fun _ _ _ => ?_) ..)
  · exact Within.refl
  · exact Within.mono (actIndexSave_within ..) (by decide)

theorem State.onIndexSaveDone_within (s : State) (idx : Nat) :
    Within [.outbox, .regs, .mm, .sch, .cmd, .idx] s (State.onIndexSaveDone s idx) := by
  unfold State.onIndexSaveDone
  split
  · exact Within.refl
  · split
    · exact Within.refl
    · refine Within.ite (fun _ => ?_) (fun _ => ?_)
      · exact Within.refl
      · refine Within.andThen (State.complete_within ..) (by decide) ?_
        refine Within.andThen (State.updIndex_within ..) (by decide) ?_
        exact Within.refl

theorem execIndexSaveDone_within {idx : Nat} {s : State} {t : State}
    (h : execIndexSaveDone idx s = .next t) : Within [.outbox, .regs, .mm, .sch, .cmd, .idx] s t := by
  unfold execIndexSaveDone at h
  obtain rfl := Host.Outcome.next.inj h
  refine Within.andThen (State.onIndexSaveDone_within ..) (by decide) ?_
  exact Within.refl

theorem actIndexUnload_within  (r : CmdRef) (l : Live) (s : State) :
    Within [.outbox, .regs, .mm, .sch, .cmd, .idx] s (actIndexUnload r l s) := by
  unfold actIndexUnload
  split
  · refine Within.andThen (State.complete_within ..) (by decide) ?_
    exact Within.refl
  · refine Within.andThen (State.updIndex_within ..) (by decide) ?_
    refine Within.andThen (State.updLive_within ..) (by decide) ?_
    exact Within.refl

theorem execIndexUnload_within {h : CmdHdr} {b : Body} {s : State} {t : State}
    (h : execIndexUnload h b s = .next t) : Within [.outbox, .fresh, .regs, .mm, .sch, .cmd, .mgmt, .idx] s t := by
  unfold execIndexUnload at h
  obtain rfl := Host.Outcome.next.inj h
  refine Within.trans ?_ (State.command_within (by decide) (fun _ _ _ => ?_) ..)
  · exact Within.refl
  · exact Within.mono (actIndexUnload_within ..) (by decide)

theorem State.onIndexUnloadDone_within (s : State) (idx : Nat) :
    Within [.outbox, .regs, .mm, .sch, .cmd, .idx] s (State.onIndexUnloadDone s idx) := by
  unfold State.onIndexUnloadDone
  split
  · exact Within.refl
  · refine Within.ite (fun _ => ?_) (fun _ => ?_)
    · exact Within.refl
    · split
      · refine Within.andThen (State.complete_within ..) (by decide) ?_
        refine Within.andThen (State.dropIndex_within ..) (by decide) ?_
        exact Within.refl
      · refine Within.andThen (State.dropIndex_within ..) (by decide) ?_
        exact Within.refl

theorem execIndexUnloadDone_within {idx : Nat} {s : State} {t : State}
    (h : execIndexUnloadDone idx s = .next t) : Within [.outbox, .regs, .mm, .sch, .cmd, .idx] s t := by
  unfold execIndexUnloadDone at h
  obtain rfl := Host.Outcome.next.inj h
  refine Within.andThen (State.onIndexUnloadDone_within ..) (by decide) ?_
  exact Within.refl

theorem State.candidate_within (s : State) (i : Nat) (h : Nat) (r : Option CmdRef) :
    Within [.idx] s (State.candidate s i h r) := by
  unfold State.candidate
  extract_lets -useContext 
  refine Within.ite (fun _ => ?_) (fun _ => ?_)
  · refine Within.set_idx (by decide) ?_
    exact Within.refl
  · refine Within.set_idx (by decide) ?_
    exact Within.refl

theorem actIndexCompact_within  (r : CmdRef) (l : Live) (s : State) :
    Within [.outbox, .regs, .mm, .sch, .cmd, .idx] s (actIndexCompact r l s) := by
  unfold actIndexCompact
  split
  · refine Within.andThen (State.complete_within ..) (by decide) ?_
    exact Within.refl
  · refine Within.foldl ?_ (fun _ _ => ?_)
    · exact Within.refl
    · refine Within.andThen (State.candidate_within ..) (by decide) ?_
      exact Within.refl

theorem execIndexCompact_within {h : CmdHdr} {b : Body} {s : State} {t : State}
    (h : execIndexCompact h b s = .next t) : Within [.outbox, .fresh, .regs, .mm, .sch, .cmd, .mgmt, .idx] s t := by
  unfold execIndexCompact at h
  obtain rfl := Host.Outcome.next.inj h
  refine Within.trans ?_ (State.command_within (by decide) (fun _ _ _ => ?_) ..)
  · exact Within.refl
  · exact Within.mono (actIndexCompact_within ..) (by decide)

end Sys2Proof.Machine
end

