-- ==== Sys2Proof/Laws/Search.lean ====
section
/-! SUPPORT. For each operation of Machine/Search.lean: the fields it may change, that it keeps the invariant, and that the watch clock does not go back. -/

namespace Sys2Proof.Machine

set_option linter.all false
set_option Elab.async false

theorem actSearch_within  (r : CmdRef) (l : Live) (s : State) :
    Within [.outbox, .regs, .mm, .sch, .cmd, .idx] s (actSearch r l s) := by
  unfold actSearch
  split
  · refine Within.andThen (State.complete_within ..) (by decide) ?_
    exact Within.refl
  · extract_lets -useContext _ _ _ _ x5 _ x7
    refine Within.have_ (t := x5) ?_ (fun h5 => ?_)
    · subst x5
      refine Within.ite (fun _ => ?_) (fun _ => ?_)
      · refine Within.andThen (State.count_within ..) (by decide) ?_
        exact Within.refl
      · exact Within.refl
    refine Within.have_ (t := x7) ?_ (fun h7 => ?_)
    · subst x7
      refine Within.set_idx (by decide) ?_
      exact h5
    refine Within.foldl ?_ (fun _ _ => ?_)
    · exact h7
    · refine Within.andThen (State.addSeqTask_within ..) (by decide) ?_
      exact Within.refl

theorem execSearch_within {h : CmdHdr} {b : Body} {s : State} {t : State}
    (h : execSearch h b s = .next t) : Within [.outbox, .fresh, .regs, .mm, .sch, .cmd, .mgmt, .idx] s t := by
  unfold execSearch at h
  obtain rfl := Host.Outcome.next.inj h
  refine Within.trans ?_ (State.command_within (by decide) (fun _ _ _ => ?_) ..)
  · exact Within.refl
  · exact Within.mono (actSearch_within ..) (by decide)

theorem State.updQuery_within (s : State) (r : CmdRef) (f : Query → Query) :
    Within [.idx] s (State.updQuery s r f) := by
  unfold State.updQuery
  refine Within.set_idx (by decide) ?_
  exact Within.refl

theorem State.joinBank_within (s : State) (k : Bank) (r : CmdRef) :
    Within [.idx] s (State.joinBank s k r) := by
  unfold State.joinBank
  extract_lets -useContext 
  refine Within.andThen (State.updQuery_within ..) (by decide) ?_
  refine Within.set_idx (by decide) ?_
  exact Within.refl

theorem State.openBank_within (s : State) (x : Index) (h : Nat) (target : Nat) (r : CmdRef) :
    Within [.idx] s (State.openBank s x h target r) := by
  unfold State.openBank
  extract_lets -useContext 
  refine Within.andThen (State.joinBank_within ..) (by decide) ?_
  refine Within.set_idx (by decide) ?_
  exact Within.refl

theorem State.bindProbe_within (s : State) (x : Index) (h : Nat) (target : Nat) (r : CmdRef) (first : Bool) :
    Within [.regs, .idx] s (State.bindProbe s x h target r first) := by
  unfold State.bindProbe
  extract_lets -useContext _ _ x3 x4 y5 x6 x7
  clear_value y5
  refine Within.have_of1 (f := x3) (fun _ => ?_) (fun h3 => ?_)
  · subst x3
    beta_reduce
    refine Within.ite (fun _ => ?_) (fun _ => ?_)
    · refine Within.andThen (State.count_within ..) (by decide) ?_
      exact Within.refl
    · exact Within.refl
  refine Within.have_fn1 (f := x4) (fun _ => ?_) (fun h4 => ?_)
  · subst x4
    beta_reduce
    refine Within.andThen (State.updQuery_within ..) (by decide) ?_
    exact Within.refl
  refine Within.have_ (t := x6) ?_ (fun h6 => ?_)
  · subst x6
    exact h3 ..
  refine Within.have_ (t := x7) ?_ (fun h7 => ?_)
  · subst x7
    exact h3 ..
  split
  · refine Within.ite (fun _ => ?_) (fun _ => ?_)
    · refine Within.andThen (State.joinBank_within ..) (by decide) ?_
      exact Within.refl
    · split
      · refine Within.andThen (State.joinBank_within ..) (by decide) ?_
        exact h6
      · refine Within.ite (fun _ => ?_) (fun _ => ?_)
        · refine Within.andThen (State.openBank_within ..) (by decide) ?_
          exact h6
        · refine Within.trans ?_ (h4 ..)
          exact h6
  · refine Within.ite (fun _ => ?_) (fun _ => ?_)
    · refine Within.andThen (State.openBank_within ..) (by decide) ?_
      exact Within.refl
    · split
      · refine Within.andThen (State.joinBank_within ..) (by decide) ?_
        exact h7
      · refine Within.trans ?_ (h4 ..)
        exact h7

theorem State.bindWaiting_within (s : State) (x : Index) (p : Nat → Bool) (target : Nat) :
    Within [.regs, .idx] s (State.bindWaiting s x p target) := by
  unfold State.bindWaiting
  refine Within.foldl ?_ (fun _ _ => ?_)
  · exact Within.refl
  · refine Within.foldl ?_ (fun _ _ => ?_)
    · refine Within.andThen (State.updQuery_within ..) (by decide) ?_
      exact Within.refl
    · refine Within.andThen (State.bindProbe_within ..) (by decide) ?_
      exact Within.refl

theorem State.startRound_within (s : State) (x : Index) (q : Query) (n : Nat) (target : Nat) :
    Within [.regs, .idx] s (State.startRound s x q n target) := by
  unfold State.startRound
  extract_lets -useContext _ _ _ _ x5 x6
  refine Within.have_ (t := x5) ?_ (fun h5 => ?_)
  · subst x5
    refine Within.ite (fun _ => ?_) (fun _ => ?_)
    · refine Within.andThen (State.count_within ..) (by decide) ?_
      exact Within.refl
    · exact Within.refl
  refine Within.have_ (t := x6) ?_ (fun h6 => ?_)
  · subst x6
    refine Within.andThen (State.updQuery_within ..) (by decide) ?_
    exact h5
  refine Within.foldl ?_ (fun _ _ => ?_)
  · exact h6
  · refine Within.andThen (State.bindProbe_within ..) (by decide) ?_
    exact Within.refl

theorem State.probeStages_within (s : State) (x : Index) (q : CmdRef) (ents : List Ent) :
    Within [.regs, .mm] s (State.probeStages s x q ents).1 := by
  unfold State.probeStages
  extract_lets -useContext _ x2
  refine Within.have_ (t := x2) ?_ (fun h2 => ?_)
  · subst x2
    refine Within.foldl ?_ (fun _ _ => ?_)
    · exact Within.refl
    · extract_lets -useContext _ x4
      refine Within.have_ (t := x4) ?_ (fun h4 => ?_)
      · subst x4
        refine Within.andThen (State.keepRuns_within ..) (by decide) ?_
        exact Within.refl
      refine Within.ite (fun _ => ?_) (fun _ => ?_)
      · refine Within.andThen (State.count_within ..) (by decide) ?_
        exact h4
      · exact h4
  refine Within.andThen (State.countList_within ..) (by decide) ?_
  refine Within.andThen (State.dropRuns_within ..) (by decide) ?_
  exact h2

theorem State.onProbeSelectionDone_within (s : State) (q : CmdRef) :
    Within [.regs, .mm, .sch, .idx] s (State.onProbeSelectionDone s q) := by
  unfold State.onProbeSelectionDone
  split
  · exact Within.refl
  · split
    · exact Within.refl
    · extract_lets -useContext _ _ x3 _ x5
      refine Within.have_ (t := x3.1) ?_ (fun h3 => ?_)
      · subst x3
        with_reducible refine Within.andThen (State.probeStages_within ..) (by decide) ?_
        exact Within.refl
      refine Within.have_ (t := x5) ?_ (fun h5 => ?_)
      · subst x5
        refine Within.andThen (State.updQuery_within ..) (by decide) ?_
        refine Within.andThen (State.seqOver_within ..) (by decide) ?_
        exact h3
      refine Within.andThen (State.startRound_within ..) (by decide) ?_
      exact h5

theorem execProbeSelectionDone_within {q : CmdRef} {s : State} {t : State}
    (h : execProbeSelectionDone q s = .next t) : Within [.regs, .mm, .sch, .idx] s t := by
  unfold execProbeSelectionDone at h
  obtain rfl := Host.Outcome.next.inj h
  refine Within.andThen (State.onProbeSelectionDone_within ..) (by decide) ?_
  exact Within.refl

theorem State.halveProbes_within (s : State) (q : Query) :
    Within [.idx] s (State.halveProbes s q) := by
  unfold State.halveProbes
  extract_lets -useContext 
  refine Within.andThen (State.updQuery_within ..) (by decide) ?_
  refine Within.set_idx (by decide) ?_
  exact Within.refl

theorem State.monitorOne_within (s : State) (q : Query) :
    Within [.regs, .idx] s (State.monitorOne s q) := by
  unfold State.monitorOne
  split
  · extract_lets -useContext _ _ _ x4
    refine Within.have_ (t := x4) ?_ (fun h4 => ?_)
    · subst x4
      refine Within.ite (fun _ => ?_) (fun _ => ?_)
      · refine Within.andThen (State.updQuery_within ..) (by decide) ?_
        refine Within.andThen (State.count_within ..) (by decide) ?_
        exact Within.refl
      · exact Within.refl
    split
    · refine Within.ite (fun _ => ?_) (fun _ => ?_)
      · refine Within.andThen (State.bindWaiting_within ..) (by decide) ?_
        refine Within.andThen (State.halveProbes_within ..) (by decide) ?_
        refine Within.andThen (State.count_within ..) (by decide) ?_
        exact h4
      · exact h4
    · exact h4
  · exact Within.refl

theorem State.monitor_within (s : State) :
    Within [.regs, .idx] s (State.monitor s) := by
  unfold State.monitor
  refine Within.foldl ?_ (fun _ _ => ?_)
  · exact Within.refl
  · split
    · refine Within.andThen (State.monitorOne_within ..) (by decide) ?_
      exact Within.refl
    · exact Within.refl

theorem State.onSetSeal_within (s : State) (idx : Nat) :
    Within [.regs, .idx] s (State.onSetSeal s idx) := by
  unfold State.onSetSeal
  split
  · exact Within.refl
  · extract_lets -useContext _ x2 x3
    refine Within.have_ (t := x2) ?_ (fun h2 => ?_)
    · subst x2
      refine Within.set_idx (by decide) ?_
      exact Within.refl
    refine Within.have_ (t := x3) ?_ (fun h3 => ?_)
    · subst x3
      refine Within.andThen (State.updIndex_within ..) (by decide) ?_
      exact h2
    refine Within.andThen (State.monitor_within ..) (by decide) ?_
    refine Within.andThen (State.bindWaiting_within ..) (by decide) ?_
    exact h3

theorem execSetSeal_within {idx : Nat} {s : State} {t : State}
    (h : execSetSeal idx s = .next t) : Within [.regs, .idx] s t := by
  unfold execSetSeal at h
  obtain rfl := Host.Outcome.next.inj h
  refine Within.andThen (State.onSetSeal_within ..) (by decide) ?_
  exact Within.refl

theorem State.scanTasks_within (s : State) (k : Bank) (island : Nat) :
    Within [.sch] s (State.scanTasks s k island) := by
  unfold State.scanTasks
  extract_lets -useContext 
  refine Within.foldl ?_ (fun _ _ => ?_)
  · exact Within.refl
  · refine Within.foldl ?_ (fun _ _ => ?_)
    · exact Within.refl
    · refine Within.andThen (State.addSeqTask_within ..) (by decide) ?_
      exact Within.refl

theorem State.onSetScanStart_within (s : State) (die : Nat) :
    Within [.regs, .sch, .idx] s (State.onSetScanStart s die) := by
  unfold State.onSetScanStart
  split
  · exact Within.refl
  · extract_lets -useContext _ _ x3
    refine Within.have_ (t := x3) ?_ (fun h3 => ?_)
    · subst x3
      refine Within.ite (fun _ => ?_) (fun _ => ?_)
      · refine Within.andThen (State.count_within ..) (by decide) ?_
        exact Within.refl
      · exact Within.refl
    refine Within.andThen (State.scanTasks_within ..) (by decide) ?_
    refine Within.set_idx (by decide) ?_
    exact h3

theorem execSetScanStart_within {die : Nat} {s : State} {t : State}
    (h : execSetScanStart die s = .next t) : Within [.regs, .sch, .idx] s t := by
  unfold execSetScanStart at h
  obtain rfl := Host.Outcome.next.inj h
  refine Within.andThen (State.onSetScanStart_within ..) (by decide) ?_
  exact Within.refl

theorem State.releaseQuar_within (s : State) (x : Index) (h : Nat) :
    Within [.fresh, .regs, .mem, .mm, .sch, .fl, .idx] s (State.releaseQuar s x h) := by
  unfold State.releaseQuar
  extract_lets -useContext _ _ _ _ x5
  refine Within.have_ (t := x5) ?_ (fun h5 => ?_)
  · subst x5
    refine Within.foldl ?_ (fun _ _ => ?_)
    · exact Within.refl
    · extract_lets -useContext 
      refine Within.foldl ?_ (fun _ _ => ?_)
      · refine Within.andThen (State.tombCommit_within ..) (by decide) ?_
        exact Within.refl
      · refine Within.andThen (State.putId_within ..) (by decide) ?_
        exact Within.refl
  refine Within.ite (fun _ => ?_) (fun _ => ?_)
  · exact Within.refl
  · refine Within.andThen (State.putShoalSt_within ..) (by decide) ?_
    exact h5

theorem State.scanTraffic_within (s : State) (x : Index) (k : Bank) (blocks : List Nat) :
    Within [.mm, .sch] s (State.scanTraffic s x k blocks) := by
  unfold State.scanTraffic
  extract_lets -useContext x1 x2
  refine Within.have_ (t := x1) ?_ (fun h1 => ?_)
  · subst x1
    split
    · refine Within.foldl ?_ (fun _ _ => ?_)
      · exact Within.refl
      · refine Within.andThen (State.objTraffic_within ..) (by decide) ?_
        exact Within.refl
    · exact Within.refl
  refine Within.have_ (t := x2) ?_ (fun h2 => ?_)
  · subst x2
    refine Within.andThen (State.hTraffic_within ..) (by decide) ?_
    exact h1
  refine Within.foldl ?_ (fun _ _ => ?_)
  · exact h2
  · refine Within.foldl ?_ (fun _ _ => ?_)
    · exact Within.refl
    · split
      · refine Within.andThen (State.hTraffic_within ..) (by decide) ?_
        exact Within.refl
      · exact Within.refl

theorem State.onSetScanDone_within (s : State) (island : Nat) (bad : List Nat) :
    Within [.fresh, .regs, .mem, .mm, .sch, .fl, .idx] s (State.onSetScanDone s island bad) := by
  unfold State.onSetScanDone
  split
  · exact Within.refl
  · split
    · exact Within.refl
    · extract_lets -useContext _ _ _ _ _ _ _ _ _ _ x11 x12 x13 x14 x15 x16 x17 x18 _ x20
      refine Within.have_ (t := x11) ?_ (fun h11 => ?_)
      · subst x11
        refine Within.andThen (State.seqOver_within ..) (by decide) ?_
        exact Within.refl
      refine Within.have_ (t := x12) ?_ (fun h12 => ?_)
      · subst x12
        refine Within.andThen (State.count_within ..) (by decide) ?_
        exact h11
      refine Within.have_ (t := x13) ?_ (fun h13 => ?_)
      · subst x13
        refine Within.ite (fun _ => ?_) (fun _ => ?_)
        · exact h12
        · refine Within.andThen (State.count_within ..) (by decide) ?_
          exact h12
      refine Within.have_ (t := x14) ?_ (fun h14 => ?_)
      · subst x14
        refine Within.ite (fun _ => ?_) (fun _ => ?_)
        · refine Within.andThen (State.count_within ..) (by decide) ?_
          exact h13
        · exact h13
      refine Within.have_ (t := x15) ?_ (fun h15 => ?_)
      · subst x15
        refine Within.ite (fun _ => ?_) (fun _ => ?_)
        · refine Within.andThen (State.count_within ..) (by decide) ?_
          exact h14
        · exact h14
      refine Within.have_ (t := x16) ?_ (fun h16 => ?_)
      · subst x16
        refine Within.ite (fun _ => ?_) (fun _ => ?_)
        · refine Within.andThen (State.count_within ..) (by decide) ?_
          exact h15
        · exact h15
      refine Within.have_ (t := x17) ?_ (fun h17 => ?_)
      · subst x17
        refine Within.foldl ?_ (fun _ _ => ?_)
        · exact h16
        · refine Within.andThen (State.keepRuns_within ..) (by decide) ?_
          exact Within.refl
      refine Within.have_ (t := x18) ?_ (fun h18 => ?_)
      · subst x18
        refine Within.andThen (State.scanTraffic_within ..) (by decide) ?_
        exact h17
      refine Within.have_ (t := x20) ?_ (fun h20 => ?_)
      · subst x20
        refine Within.set_idx (by decide) ?_
        exact h18
      refine Within.andThen (State.releaseQuar_within ..) (by decide) ?_
      exact h20

theorem execSetScanDone_within {island : Nat} {bad : List Nat} {s : State} {t : State}
    (h : execSetScanDone island bad s = .next t) : Within [.fresh, .regs, .mem, .mm, .sch, .fl, .idx] s t := by
  unfold execSetScanDone at h
  obtain rfl := Host.Outcome.next.inj h
  refine Within.andThen (State.onSetScanDone_within ..) (by decide) ?_
  exact Within.refl

theorem State.reportPart_within (x : Index) (die : Nat) (s : State) (p : SetQ) :
    Within [.regs, .mm, .sch, .idx] s (State.reportPart x die s p) := by
  unfold State.reportPart
  split
  · exact Within.refl
  · extract_lets -useContext _ _ _ _ x5 x6
    refine Within.have_ (t := x5) ?_ (fun h5 => ?_)
    · subst x5
      refine Within.foldl ?_ (fun _ _ => ?_)
      · exact Within.refl
      · refine Within.andThen (State.hTraffic_within ..) (by decide) ?_
        exact Within.refl
    refine Within.have_ (t := x6) ?_ (fun h6 => ?_)
    · subst x6
      refine Within.ite (fun _ => ?_) (fun _ => ?_)
      · refine Within.andThen (State.count_within ..) (by decide) ?_
        exact h5
      · exact h5
    refine Within.andThen (State.updQuery_within ..) (by decide) ?_
    exact h6

theorem State.onSetReportDone_within (s : State) (island : Nat) :
    Within [.regs, .mm, .sch, .idx] s (State.onSetReportDone s island) := by
  unfold State.onSetReportDone
  split
  · exact Within.refl
  · split
    · exact Within.refl
    · extract_lets -useContext x1 x2 _ x4
      refine Within.have_ (t := x1) ?_ (fun h1 => ?_)
      · subst x1
        refine Within.foldl ?_ (fun _ _ => ?_)
        · exact Within.refl
        · refine Within.andThen (State.reportPart_within ..) (by decide) ?_
          exact Within.refl
      refine Within.have_ (t := x2) ?_ (fun h2 => ?_)
      · subst x2
        refine Within.andThen (State.dropRuns_within ..) (by decide) ?_
        exact h1
      refine Within.have_ (t := x4) ?_ (fun h4 => ?_)
      · subst x4
        refine Within.set_idx (by decide) ?_
        exact h2
      refine Within.andThen (State.bindWaiting_within ..) (by decide) ?_
      exact h4

theorem execSetReportDone_within {island : Nat} {s : State} {t : State}
    (h : execSetReportDone island s = .next t) : Within [.regs, .mm, .sch, .idx] s t := by
  unfold execSetReportDone at h
  obtain rfl := Host.Outcome.next.inj h
  refine Within.andThen (State.onSetReportDone_within ..) (by decide) ?_
  exact Within.refl

theorem State.onQueryRoundMerged_within (s : State) (q : CmdRef) :
    Within [.regs, .idx] s (State.onQueryRoundMerged s q) := by
  unfold State.onQueryRoundMerged
  split
  · exact Within.refl
  · split
    · exact Within.refl
    · extract_lets -useContext _ _ x3 _ x5
      refine Within.have_ (t := x3) ?_ (fun h3 => ?_)
      · subst x3
        refine Within.andThen (State.updQuery_within ..) (by decide) ?_
        refine Within.andThen (State.count_within ..) (by decide) ?_
        exact Within.refl
      refine Within.have_ (t := x5) ?_ (fun h5 => ?_)
      · subst x5
        refine Within.ite (fun _ => ?_) (fun _ => ?_)
        · refine Within.andThen (State.count_within ..) (by decide) ?_
          exact Within.refl
        · exact Within.refl
      refine Within.ite (fun _ => ?_) (fun _ => ?_)
      · refine Within.andThen (State.startRound_within ..) (by decide) ?_
        exact h3
      · refine Within.andThen (State.updQuery_within ..) (by decide) ?_
        exact h5

theorem execQueryRoundMerged_within {q : CmdRef} {s : State} {t : State}
    (h : execQueryRoundMerged q s = .next t) : Within [.regs, .idx] s t := by
  unfold execQueryRoundMerged at h
  obtain rfl := Host.Outcome.next.inj h
  refine Within.andThen (State.onQueryRoundMerged_within ..) (by decide) ?_
  exact Within.refl

theorem State.onRerankDone_within (s : State) (q : CmdRef) (unreadable : List Nat) :
    Within [.regs, .mm, .sch, .idx] s (State.onRerankDone s q unreadable) := by
  unfold State.onRerankDone
  split
  · exact Within.refl
  · split
    · exact Within.refl
    · extract_lets -useContext _ _ _ _ _ _ _ x8 x9 _ x11
      refine Within.have_ (t := x8) ?_ (fun h8 => ?_)
      · subst x8
        refine Within.foldl ?_ (fun _ _ => ?_)
        · exact Within.refl
        · split
          · refine Within.andThen (State.hTraffic_within ..) (by decide) ?_
            exact Within.refl
          · exact Within.refl
      refine Within.have_ (t := x9) ?_ (fun h9 => ?_)
      · subst x9
        refine Within.ite (fun _ => ?_) (fun _ => ?_)
        · refine Within.andThen (State.count_within ..) (by decide) ?_
          exact h8
        · exact h8
      refine Within.have_ (t := x11) ?_ (fun h11 => ?_)
      · subst x11
        refine Within.ite (fun _ => ?_) (fun _ => ?_)
        · refine Within.andThen (State.count_within ..) (by decide) ?_
          exact h9
        · exact h9
      refine Within.andThen (State.updQuery_within ..) (by decide) ?_
      exact h11

theorem execRerankDone_within {q : CmdRef} {unreadable : List Nat} {s : State} {t : State}
    (h : execRerankDone q unreadable s = .next t) : Within [.regs, .mm, .sch, .idx] s t := by
  unfold execRerankDone at h
  obtain rfl := Host.Outcome.next.inj h
  refine Within.andThen (State.onRerankDone_within ..) (by decide) ?_
  exact Within.refl

theorem State.onSearchComplete_within (s : State) (q : CmdRef) :
    Within [.outbox, .fresh, .regs, .mem, .mm, .sch, .cmd, .fl, .idx] s (State.onSearchComplete s q) := by
  unfold State.onSearchComplete
  split
  · exact Within.refl
  · split
    · exact Within.refl
    · extract_lets -useContext _ _ _ _ _ _ _ _ _ x10 x11 _ x13
      refine Within.have_ (t := x10) ?_ (fun h10 => ?_)
      · subst x10
        refine Within.ite (fun _ => ?_) (fun _ => ?_)
        · refine Within.andThen (State.count_within ..) (by decide) ?_
          exact Within.refl
        · exact Within.refl
      refine Within.have_ (t := x11) ?_ (fun h11 => ?_)
      · subst x11
        refine Within.andThen (State.countList_within ..) (by decide) ?_
        exact h10
      refine Within.have_ (t := x13) ?_ (fun h13 => ?_)
      · subst x13
        refine Within.set_idx (by decide) ?_
        exact h11
      refine Within.andThen (State.retireEpochs_within ..) (by decide) ?_
      refine Within.andThen (State.complete_within ..) (by decide) ?_
      exact h13

theorem execSearchComplete_within {q : CmdRef} {s : State} {t : State}
    (h : execSearchComplete q s = .next t) : Within [.outbox, .fresh, .regs, .mem, .mm, .sch, .cmd, .fl, .idx] s t := by
  unfold execSearchComplete at h
  obtain rfl := Host.Outcome.next.inj h
  refine Within.andThen (State.onSearchComplete_within ..) (by decide) ?_
  exact Within.refl

theorem State.dropQuery_within (s : State) (q : CmdRef) :
    Within [.regs, .sch, .idx] s (State.dropQuery s q) := by
  unfold State.dropQuery
  extract_lets -useContext x1 _ _ x4
  refine Within.have_ (t := x1) ?_ (fun h1 => ?_)
  · subst x1
    refine Within.andThen (State.seqOver_within ..) (by decide) ?_
    exact Within.refl
  refine Within.have_ (t := x4) ?_ (fun h4 => ?_)
  · subst x4
    refine Within.set_idx (by decide) ?_
    exact h1
  split
  · refine Within.andThen (State.bindWaiting_within ..) (by decide) ?_
    exact h4
  · exact h4

end Sys2Proof.Machine
end

