-- ==== Sys2Proof/Laws/Mutate.lean ====
section
/-! SUPPORT. For each operation of Machine/Mutate.lean: the fields it may change, that it keeps the invariant, and that the watch clock does not go back. -/

namespace Sys2Proof.Machine

set_option linter.all false
set_option Elab.async false

theorem actMutate_within  (r : CmdRef) (l : Live) (s : State) :
    Within [.outbox, .regs, .mm, .sch, .cmd, .idx] s (actMutate r l s) := by
  unfold actMutate
  split
  · refine Within.andThen (State.complete_within ..) (by decide) ?_
    exact Within.refl
  · extract_lets -useContext 
    refine Within.set_idx (by decide) ?_
    exact Within.refl

theorem execMutate_within {h : CmdHdr} {b : Body} {s : State} {t : State}
    (h : execMutate h b s = .next t) : Within [.outbox, .fresh, .regs, .mm, .sch, .cmd, .mgmt, .idx] s t := by
  unfold execMutate at h
  obtain rfl := Host.Outcome.next.inj h
  refine Within.trans ?_ (State.command_within (by decide) (fun _ _ _ => ?_) ..)
  · exact Within.refl
  · exact Within.mono (actMutate_within ..) (by decide)

theorem State.stageFilters_within (s : State) (x : Index) (fb : List (Nat × Nat × Bool)) (rs : List StRec) :
    Within [.fresh, .regs, .mem, .mm, .sch, .fl, .idx] s (State.stageFilters s x fb rs) := by
  unfold State.stageFilters
  refine Within.foldl ?_ (fun _ _ => ?_)
  · exact Within.refl
  · refine Within.andThen (State.stageLeaves_within ..) (by decide) ?_
    exact Within.refl

theorem State.stageRec_within (s : State) (x : Index) (b : Body) (off : Nat) (done : List StRec) :
    Within [.fresh, .regs, .mem, .mm, .sch, .fl, .idx] s (State.stageRec s x b off done).1 := by
  unfold State.stageRec
  extract_lets -useContext _ _ _ _ x5 _ x7 _ _ _ _ _ _ _ _ _ _ x18
  refine Within.have_ (t := x7) ?_ (fun h7 => ?_)
  · subst x7
    refine Within.andThen (State.hTraffic_within ..) (by decide) ?_
    exact Within.refl
  refine Within.have_ (t := x18) ?_ (fun h18 => ?_)
  · subst x18
    refine Within.foldl ?_ (fun _ _ => ?_)
    · exact h7
    · extract_lets -useContext _ x20 x21 x22
      refine Within.have_ (t := x20) ?_ (fun h20 => ?_)
      · subst x20
        refine Within.andThen (State.writeRow_within ..) (by decide) ?_
        exact Within.refl
      refine Within.have_ (t := x21) ?_ (fun h21 => ?_)
      · subst x21
        refine Within.andThen (State.putId_within ..) (by decide) ?_
        exact h20
      refine Within.have_ (t := x22) ?_ (fun h22 => ?_)
      · subst x22
        refine Within.andThen (State.hPut_within ..) (by decide) ?_
        exact h21
      refine Within.andThen (State.putShoalSt_within ..) (by decide) ?_
      exact h22
  refine Within.ite_fst (fun _ => ?_) (fun _ => ?_)
  · subst x5
    beta_reduce
    exact Within.refl
  · refine Within.ite_fst (fun _ => ?_) (fun _ => ?_)
    · subst x5
      beta_reduce
      exact Within.refl
    · refine Within.ite_fst (fun _ => ?_) (fun _ => ?_)
      · subst x5
        beta_reduce
        exact Within.refl
      · refine Within.ite_fst (fun _ => ?_) (fun _ => ?_)
        · exact h7
        · refine Within.ite_fst (fun _ => ?_) (fun _ => ?_)
          · refine Within.ite_fst (fun _ => ?_) (fun _ => ?_)
            · subst x5
              beta_reduce
              exact Within.refl
            · refine Within.andThen (State.stageFilters_within ..) (by decide) ?_
              exact h7
          · refine Within.ite_fst (fun _ => ?_) (fun _ => ?_)
            · subst x5
              beta_reduce
              exact Within.refl
            · refine Within.ite_fst (fun _ => ?_) (fun _ => ?_)
              · subst x5
                beta_reduce
                exact Within.refl
              · refine Within.andThen (State.stageFilters_within ..) (by decide) ?_
                refine Within.ite (fun _ => ?_) (fun _ => ?_)
                · refine Within.andThen (State.count_within ..) (by decide) ?_
                  exact h18
                · exact h18

theorem State.onMutateStaging_within (s : State) (idx : Nat) :
    Within [.fresh, .regs, .mem, .mm, .sch, .fl, .idx] s (State.onMutateStaging s idx) := by
  unfold State.onMutateStaging
  split
  · extract_lets -useContext _ x2 x4
    refine Within.have_ (t := x2.1) ?_ (fun h2 => ?_)
    · subst x2
      refine Within.foldl_fst ?_ (fun _ _ => ?_)
      · exact Within.refl
      · extract_lets -useContext x3
        refine Within.have_ (t := x3.1) ?_ (fun h3 => ?_)
        · subst x3
          with_reducible refine Within.andThen (State.stageRec_within ..) (by decide) ?_
          exact Within.refl
        exact h3
    refine Within.have_ (t := x4) ?_ (fun h4 => ?_)
    · subst x4
      exact h2
    refine Within.set_idx (by decide) ?_
    exact h4
  · exact Within.refl

theorem execMutateStaging_within {idx : Nat} {s : State} {t : State}
    (h : execMutateStaging idx s = .next t) : Within [.fresh, .regs, .mem, .mm, .sch, .fl, .idx] s t := by
  unfold execMutateStaging at h
  obtain rfl := Host.Outcome.next.inj h
  refine Within.andThen (State.onMutateStaging_within ..) (by decide) ?_
  exact Within.refl

theorem State.dropMutate_within (s : State) (r : CmdRef) :
    Within [.idx] s (State.dropMutate s r) := by
  unfold State.dropMutate
  split
  · exact Within.refl
  · extract_lets -useContext _ _ x3
    refine Within.have_ (t := x3) ?_ (fun h3 => ?_)
    · subst x3
      refine Within.set_idx (by decide) ?_
      exact Within.refl
    refine Within.foldl ?_ (fun _ _ => ?_)
    · exact h3
    · extract_lets -useContext 
      refine Within.andThen (State.putShoalSt_within ..) (by decide) ?_
      exact Within.refl

theorem State.dirOne_within (s : State) (x : Index) (r : StRec) :
    Within [.fresh, .regs, .mem, .mm, .sch, .fl] s (State.dirOne s x r) := by
  unfold State.dirOne
  extract_lets -useContext 
  refine Within.ite (fun _ => ?_) (fun _ => ?_)
  · refine Within.andThen (State.dirDelete_within ..) (by decide) ?_
    exact Within.refl
  · refine Within.ite (fun _ => ?_) (fun _ => ?_)
    · exact Within.refl
    · refine Within.andThen (State.dirInsert_within ..) (by decide) ?_
      exact Within.refl

theorem State.dirAfter_within (s : State) (x : Index) (rs : List StRec) :
    Within [.fresh, .regs, .mem, .mm, .sch, .fl] s (State.dirAfter s x rs) := by
  unfold State.dirAfter
  refine Within.foldl ?_ (fun _ _ => ?_)
  · exact Within.refl
  · refine Within.andThen (State.dirOne_within ..) (by decide) ?_
    exact Within.refl

theorem State.setRows_within (s : State) (x : Index) (h : Nat) (n : Nat) :
    Within [.fresh, .regs, .mem, .mm, .sch, .fl] s (State.setRows s x h n) := by
  unfold State.setRows
  refine Within.andThen (State.shSet_within ..) (by decide) ?_
  exact Within.refl

theorem State.addLive_within (s : State) (x : Index) (h : Nat) (d : ℤ) :
    Within [.fresh, .regs, .mem, .mm, .sch, .fl] s (State.addLive s x h d) := by
  unfold State.addLive
  refine Within.andThen (State.shSet_within ..) (by decide) ?_
  exact Within.refl

theorem State.commitRec_within (s : State) (x : Index) (m : Nat) (r : StRec) :
    Within [.fresh, .regs, .mem, .mm, .sch, .fl, .idx] s (State.commitRec s x m r) := by
  unfold State.commitRec
  refine Within.ite (fun _ => ?_) (fun _ => ?_)
  · exact Within.refl
  · extract_lets -useContext _ x2 x3 x4 x5 x8 x9
    refine Within.have_ (t := x2) ?_ (fun h2 => ?_)
    · subst x2
      refine Within.foldl ?_ (fun _ _ => ?_)
      · exact Within.refl
      · refine Within.andThen (State.logAdd_within ..) (by decide) ?_
        exact Within.refl
    refine Within.have_ (t := x3) ?_ (fun h3 => ?_)
    · subst x3
      refine Within.foldl ?_ (fun _ _ => ?_)
      · exact h2
      · refine Within.andThen (State.logAdd_within ..) (by decide) ?_
        exact Within.refl
    refine Within.have_ (t := x4) ?_ (fun h4 => ?_)
    · subst x4
      refine Within.andThen (State.tombCommit_within ..) (by decide) ?_
      exact h3
    refine Within.have_ (t := x5) ?_ (fun h5 => ?_)
    · subst x5
      refine Within.foldl ?_ (fun _ _ => ?_)
      · exact h4
      · extract_lets -useContext _ x7
        refine Within.have_ (t := x7) ?_ (fun h7 => ?_)
        · subst x7
          refine Within.andThen (State.putShoalSt_within ..) (by decide) ?_
          exact Within.refl
        refine Within.andThen (State.addLive_within ..) (by decide) ?_
        exact h7
    refine Within.have_ (t := x8) ?_ (fun h8 => ?_)
    · subst x8
      refine Within.foldl ?_ (fun _ _ => ?_)
      · exact h5
      · refine Within.andThen (State.addLive_within ..) (by decide) ?_
        exact Within.refl
    refine Within.have_ (t := x9) ?_ (fun h9 => ?_)
    · subst x9
      refine Within.andThen (State.dirAfter_within ..) (by decide) ?_
      exact h8
    refine Within.andThen (State.updIndex_within ..) (by decide) ?_
    exact h9

theorem State.commitCmd_within (s : State) (x : Index) (m : Nat) (c : Commits) (y : Staged) :
    Within [.fresh, .regs, .mem, .mm, .sch, .fl, .idx] s (State.commitCmd s x m c y).1 := by
  unfold State.commitCmd
  refine Within.ite_fst (fun _ => ?_) (fun _ => ?_)
  · exact Within.refl
  · extract_lets -useContext _ x2 x3 x4 _ x6
    refine Within.have_ (t := x2) ?_ (fun h2 => ?_)
    · subst x2
      refine Within.ite (fun _ => ?_) (fun _ => ?_)
      · refine Within.andThen (State.count_within ..) (by decide) ?_
        exact Within.refl
      · exact Within.refl
    refine Within.have_ (t := x4) ?_ (fun h4 => ?_)
    · subst x4
      refine Within.foldl ?_ (fun _ _ => ?_)
      · exact h2
      · refine Within.andThen (State.commitRec_within ..) (by decide) ?_
        exact Within.refl
    refine Within.have_ (t := x6) ?_ (fun h6 => ?_)
    · subst x6
      refine Within.ite (fun _ => ?_) (fun _ => ?_)
      · refine Within.andThen (State.count_within ..) (by decide) ?_
        exact h4
      · exact h4
    refine Within.ite_fst (fun _ => ?_) (fun _ => ?_)
    · subst x3
      beta_reduce
      extract_lets -useContext x9
      refine Within.have_ (t := x9) ?_ (fun h9 => ?_)
      · subst x9
        refine Within.ite (fun _ => ?_) (fun _ => ?_)
        · exact h2
        · refine Within.andThen (State.count_within ..) (by decide) ?_
          exact h2
      refine Within.set_idx (by decide) ?_
      exact h9
    · refine Within.ite_fst (fun _ => ?_) (fun _ => ?_)
      · subst x3
        beta_reduce
        extract_lets -useContext x11
        refine Within.have_ (t := x11) ?_ (fun h11 => ?_)
        · subst x11
          refine Within.ite (fun _ => ?_) (fun _ => ?_)
          · refine Within.andThen (State.count_within ..) (by decide) ?_
            exact h2
          · refine Within.andThen (State.count_within ..) (by decide) ?_
            refine Within.andThen (State.count_within ..) (by decide) ?_
            exact h2
        refine Within.set_idx (by decide) ?_
        exact h11
      · refine Within.ite_fst (fun _ => ?_) (fun _ => ?_)
        · subst x3
          beta_reduce
          extract_lets -useContext x13
          refine Within.have_ (t := x13) ?_ (fun h13 => ?_)
          · subst x13
            refine Within.ite (fun _ => ?_) (fun _ => ?_)
            · refine Within.andThen (State.count_within ..) (by decide) ?_
              exact h2
            · refine Within.andThen (State.count_within ..) (by decide) ?_
              refine Within.andThen (State.count_within ..) (by decide) ?_
              exact h2
          refine Within.set_idx (by decide) ?_
          exact h13
        · refine Within.ite_fst (fun _ => ?_) (fun _ => ?_)
          · subst x3
            beta_reduce
            extract_lets -useContext x15
            refine Within.have_ (t := x15) ?_ (fun h15 => ?_)
            · subst x15
              refine Within.ite (fun _ => ?_) (fun _ => ?_)
              · refine Within.andThen (State.count_within ..) (by decide) ?_
                exact h2
              · refine Within.andThen (State.count_within ..) (by decide) ?_
                refine Within.andThen (State.count_within ..) (by decide) ?_
                exact h2
            refine Within.set_idx (by decide) ?_
            exact h15
          · refine Within.set_idx (by decide) ?_
            exact h6

theorem State.settleRows_within (s : State) (x : Index) (m : Nat) (h : Nat) :
    Within [.fresh, .regs, .mem, .mm, .sch, .fl, .idx] s (State.settleRows s x m h) := by
  unfold State.settleRows
  extract_lets -useContext _ _ _ _ _ _ _ x8
  refine Within.have_ (t := x8) ?_ (fun h8 => ?_)
  · subst x8
    refine Within.ite (fun _ => ?_) (fun _ => ?_)
    · exact Within.refl
    · refine Within.andThen (State.tombCommit_within ..) (by decide) ?_
      exact Within.refl
  refine Within.ite (fun _ => ?_) (fun _ => ?_)
  · exact Within.refl
  · refine Within.andThen (State.putShoalSt_within ..) (by decide) ?_
    refine Within.andThen (State.setRows_within ..) (by decide) ?_
    exact h8

theorem State.moveRow_within (s : State) (x : Index) (m : Nat) (h : Nat) (t0 : Nat) (d : Nat) (ids : List Nat) (fch : List (Nat × Nat × Bool)) :
    Within [.fresh, .regs, .mem, .mm, .sch, .fl, .idx] s (State.moveRow s x m h t0 d ids fch).1 := by
  unfold State.moveRow
  extract_lets -useContext _ _ _ _ _ _ _ x8 x9 x10 x11 x12 x13
  refine Within.have_ (t := x8) ?_ (fun h8 => ?_)
  · subst x8
    refine Within.andThen (State.hTraffic_within ..) (by decide) ?_
    exact Within.refl
  refine Within.have_ (t := x9) ?_ (fun h9 => ?_)
  · subst x9
    refine Within.ite (fun _ => ?_) (fun _ => ?_)
    · refine Within.andThen (State.count_within ..) (by decide) ?_
      exact h8
    · exact h8
  refine Within.have_ (t := x10) ?_ (fun h10 => ?_)
  · subst x10
    refine Within.andThen (State.writeRow_within ..) (by decide) ?_
    exact h9
  refine Within.have_ (t := x11) ?_ (fun h11 => ?_)
  · subst x11
    refine Within.andThen (State.hPut_within ..) (by decide) ?_
    refine Within.andThen (State.putId_within ..) (by decide) ?_
    exact h10
  refine Within.have_ (t := x12) ?_ (fun h12 => ?_)
  · subst x12
    refine Within.andThen (State.tombCommit_within ..) (by decide) ?_
    refine Within.andThen (State.logAdd_within ..) (by decide) ?_
    refine Within.andThen (State.logAdd_within ..) (by decide) ?_
    exact h11
  refine Within.have_ (t := x13) ?_ (fun h13 => ?_)
  · subst x13
    split
    · extract_lets -useContext 
      refine Within.andThen (State.putDir_within ..) (by decide) ?_
      exact h12
    · exact h12
  refine Within.ite_fst (fun _ => ?_) (fun _ => ?_)
  · refine Within.andThen (State.count_within ..) (by decide) ?_
    exact Within.refl
  · refine Within.ite_fst (fun _ => ?_) (fun _ => ?_)
    · refine Within.andThen (State.count_within ..) (by decide) ?_
      exact Within.refl
    · refine Within.andThen (State.count_within ..) (by decide) ?_
      exact h13

theorem State.moveTasks_within (s : State) (x : Index) (h : Nat) (again : Bool) :
    Within [.sch] s (State.moveTasks s x h again) := by
  unfold State.moveTasks
  extract_lets -useContext x1
  refine Within.have_ (t := x1) ?_ (fun h1 => ?_)
  · subst x1
    refine Within.andThen (State.seqOver_within ..) (by decide) ?_
    exact Within.refl
  refine Within.ite (fun _ => ?_) (fun _ => ?_)
  · refine Within.andThen (State.addRoam_within ..) (by decide) ?_
    exact h1
  · exact h1

theorem State.passEnds_within (s : State) (p : Pass) (status : Nat) :
    Within [.outbox, .regs, .mm, .sch, .cmd, .idx] s (State.passEnds s p status) := by
  unfold State.passEnds
  extract_lets -useContext x1 _ x3
  refine Within.have_ (t := x1) ?_ (fun h1 => ?_)
  · subst x1
    refine Within.andThen (State.seqOver_within ..) (by decide) ?_
    exact Within.refl
  refine Within.have_ (t := x3) ?_ (fun h3 => ?_)
  · subst x3
    refine Within.set_idx (by decide) ?_
    exact h1
  refine Within.foldl ?_ (fun _ _ => ?_)
  · exact h3
  · refine Within.ite (fun _ => ?_) (fun _ => ?_)
    · exact Within.refl
    · refine Within.andThen (State.complete_within ..) (by decide) ?_
      exact Within.refl

theorem State.trim_within (s : State) (x : Index) (p : Pass) :
    Within [.outbox, .fresh, .regs, .mem, .mm, .sch, .cmd, .fl, .idx] s (State.trim s x p) := by
  unfold State.trim
  extract_lets -useContext _ _ _ _ _ x6 x7 x8 x9
  refine Within.have_ (t := x6) ?_ (fun h6 => ?_)
  · subst x6
    refine Within.andThen (State.shSet_within ..) (by decide) ?_
    refine Within.andThen (State.shSet_within ..) (by decide) ?_
    refine Within.andThen (State.setRows_within ..) (by decide) ?_
    exact Within.refl
  refine Within.have_ (t := x7) ?_ (fun h7 => ?_)
  · subst x7
    refine Within.ite (fun _ => ?_) (fun _ => ?_)
    · refine Within.andThen (State.putShoalSt_within ..) (by decide) ?_
      exact h6
    · exact h6
  refine Within.have_ (t := x8) ?_ (fun h8 => ?_)
  · subst x8
    refine Within.andThen (State.count_within ..) (by decide) ?_
    exact h7
  refine Within.have_ (t := x9) ?_ (fun h9 => ?_)
  · subst x9
    refine Within.ite (fun _ => ?_) (fun _ => ?_)
    · refine Within.andThen (State.count_within ..) (by decide) ?_
      exact h8
    · exact h8
  refine Within.ite (fun _ => ?_) (fun _ => ?_)
  · exact Within.refl
  · refine Within.andThen (State.releaseQuar_within ..) (by decide) ?_
    refine Within.andThen (State.passEnds_within ..) (by decide) ?_
    exact h9

theorem State.passStep_within (x : Index) (m : Nat) (ids : List Nat) (a : State × List (Nat × Nat × Bool)) (pl : Pass × List (Nat × Nat)) :
    Within [.outbox, .fresh, .regs, .mem, .mm, .sch, .cmd, .fl, .idx] a.1 (State.passStep x m ids a pl).1 := by
  obtain ⟨y, z⟩ := a
  unfold State.passStep
  split
  · with_reducible refine Within.andThen (State.trim_within ..) (by decide) ?_
    exact Within.refl
  · extract_lets -useContext _ x2 _ _ x5 _ x7
    refine Within.have_ (t := x2.1) ?_ (fun h2 => ?_)
    · subst x2
      refine Within.foldl_fst ?_ (fun _ _ => ?_)
      · exact Within.refl
      · split
        · refine Within.fst ?_ (by assumption)
          with_reducible refine Within.andThen (State.moveRow_within ..) (by decide) ?_
          exact Within.refl
        · refine Within.fst ?_ (by assumption)
          with_reducible refine Within.andThen (State.moveRow_within ..) (by decide) ?_
          exact Within.refl
    refine Within.have_ (t := x5) ?_ (fun h5 => ?_)
    · subst x5
      exact h2
    refine Within.have_ (t := x7) ?_ (fun h7 => ?_)
    · subst x7
      refine Within.set_idx (by decide) ?_
      exact h5
    refine Within.andThen (State.moveTasks_within ..) (by decide) ?_
    exact h7

theorem State.compactAt_within (s : State) (x : Index) (m : Nat) (plans : List (Pass × List (Nat × Nat))) (ids : List Nat) (fch : List (Nat × Nat × Bool)) :
    Within [.outbox, .fresh, .regs, .mem, .mm, .sch, .cmd, .fl, .idx] s (State.compactAt s x m plans ids fch).1 := by
  unfold State.compactAt
  refine Within.foldl_fst ?_ (fun _ _ => ?_)
  · exact Within.refl
  · with_reducible refine Within.andThen (State.passStep_within ..) (by decide) ?_
    exact Within.refl

theorem State.restage_within (s : State) (i : Nat) :
    Within [.fresh, .regs, .mem, .mm, .sch, .fl, .idx] s (State.restage s i) := by
  unfold State.restage
  refine Within.foldl ?_ (fun _ _ => ?_)
  · exact Within.refl
  · extract_lets -useContext 
    refine Within.andThen (State.stageLeaves_within ..) (by decide) ?_
    refine Within.andThen (State.updFilt_within ..) (by decide) ?_
    exact Within.refl

theorem State.sweepIndex_within (s : State) (i : Nat) :
    Within [.fresh, .regs, .mem, .mm, .sch, .fl, .idx] s (State.sweepIndex s i) := by
  unfold State.sweepIndex
  split
  · exact Within.refl
  · extract_lets -useContext 
    refine Within.andThen (State.sweepDir_within ..) (by decide) ?_
    exact Within.refl

theorem State.indexBoundary_within (s : State) (m : Nat) (plans : List (Pass × List (Nat × Nat))) (i : Nat) :
    Within [.outbox, .fresh, .regs, .mem, .mm, .sch, .cmd, .fl, .idx] s (State.indexBoundary s m plans i) := by
  unfold State.indexBoundary
  split
  · exact Within.refl
  · refine Within.ite (fun _ => ?_) (fun _ => ?_)
    · exact Within.refl
    · extract_lets -useContext _ x2 x3 _ x5 x6 x7 x8 x9
      refine Within.have_ (t := x2.1) ?_ (fun h2 => ?_)
      · subst x2
        refine Within.foldl_fst ?_ (fun _ _ => ?_)
        · exact Within.refl
        · with_reducible refine Within.andThen (State.commitCmd_within ..) (by decide) ?_
          exact Within.refl
      refine Within.have_ (t := x3) ?_ (fun h3 => ?_)
      · subst x3
        refine Within.foldl ?_ (fun _ _ => ?_)
        · exact h2
        · refine Within.andThen (State.settleRows_within ..) (by decide) ?_
          exact Within.refl
      refine Within.have_ (t := x5.1) ?_ (fun h5 => ?_)
      · subst x5
        with_reducible refine Within.andThen (State.compactAt_within ..) (by decide) ?_
        exact h3
      refine Within.have_ (t := x6) ?_ (fun h6 => ?_)
      · subst x6
        refine Within.andThen (State.restage_within ..) (by decide) ?_
        refine Within.foldl ?_ (fun _ _ => ?_)
        · exact h5
        · refine Within.andThen (State.filterCommit_within ..) (by decide) ?_
          exact Within.refl
      refine Within.have_ (t := x7) ?_ (fun h7 => ?_)
      · subst x7
        refine Within.andThen (State.sweepIndex_within ..) (by decide) ?_
        exact h6
      refine Within.have_ (t := x8) ?_ (fun h8 => ?_)
      · subst x8
        refine Within.foldl ?_ (fun _ _ => ?_)
        · exact h7
        · refine Within.andThen (State.complete_within ..) (by decide) ?_
          exact Within.refl
      refine Within.have_ (t := x9) ?_ (fun h9 => ?_)
      · subst x9
        refine Within.andThen (State.retireEpochs_within ..) (by decide) ?_
        exact h8
      refine Within.ite (fun _ => ?_) (fun _ => ?_)
      · refine Within.foldl ?_ (fun _ _ => ?_)
        · exact h9
        · refine Within.andThen (State.passEnds_within ..) (by decide) ?_
          refine Within.andThen (State.shSet_within ..) (by decide) ?_
          exact Within.refl
      · exact h9

theorem State.onCompactPassStart_within (s : State) (stack : Nat) :
    Within [.fresh, .regs, .mem, .mm, .sch, .cmd, .fl, .idx] s (State.onCompactPassStart s stack) := by
  unfold State.onCompactPassStart
  extract_lets -useContext _ _ y3
  clear_value y3
  refine Within.ite (fun _ => ?_) (fun _ => ?_)
  · exact Within.refl
  · split
    · exact Within.refl
    · extract_lets -useContext x4 x5 _ _ _ x9
      refine Within.have_ (t := x4) ?_ (fun h4 => ?_)
      · subst x4
        refine Within.andThen (State.candidate_within ..) (by decide) ?_
        exact Within.refl
      refine Within.have_ (t := x5) ?_ (fun h5 => ?_)
      · subst x5
        refine Within.andThen (State.shSet_within ..) (by decide) ?_
        exact h4
      refine Within.have_ (t := x9) ?_ (fun h9 => ?_)
      · subst x9
        refine Within.set_idx (by decide) ?_
        exact h5
      refine Within.andThen (State.moveTasks_within ..) (by decide) ?_
      refine Within.foldl ?_ (fun _ _ => ?_)
      · exact h9
      · refine Within.andThen (State.updLive_within ..) (by decide) ?_
        exact Within.refl

theorem execCompactPassStart_within {stack : Nat} {s : State} {t : State}
    (h : execCompactPassStart stack s = .next t) : Within [.fresh, .regs, .mem, .mm, .sch, .cmd, .fl, .idx] s t := by
  unfold execCompactPassStart at h
  obtain rfl := Host.Outcome.next.inj h
  refine Within.andThen (State.onCompactPassStart_within ..) (by decide) ?_
  exact Within.refl

theorem State.takeMark_within (s : State) (src : Nat) (epoch : Nat) (fresh : Bool) :
    Within [.zwx, .idx] s (State.takeMark s src epoch fresh) := by
  unfold State.takeMark
  refine Within.set_zwx_idx (by decide) ?_
  exact Within.refl

theorem State.onEpochMark_within (s : State) (src : Nat) (epoch : Nat) :
    Within [.regs, .zwx, .idx] s (State.onEpochMark s src epoch) := by
  unfold State.onEpochMark
  refine Within.ite (fun _ => ?_) (fun _ => ?_)
  · exact Within.refl
  · refine Within.ite (fun _ => ?_) (fun _ => ?_)
    · refine Within.andThen (State.count_within ..) (by decide) ?_
      exact Within.refl
    · extract_lets -useContext x1 _ x3 _ x5
      refine Within.have_fn1 (f := x1) (fun _ => ?_) (fun h1 => ?_)
      · subst x1
        beta_reduce
        refine Within.set_zwx (by decide) ?_
        exact Within.refl
      refine Within.have_ (t := x3) ?_ (fun h3 => ?_)
      · subst x3
        refine Within.trans ?_ (h1 ..)
        exact Within.refl
      refine Within.have_ (t := x5) ?_ (fun h5 => ?_)
      · subst x5
        refine Within.ite (fun _ => ?_) (fun _ => ?_)
        · refine Within.andThen (State.wr_within ..) (by decide) ?_
          refine Within.andThen (State.wr_within ..) (by decide) ?_
          exact Within.andThen (State.wr_within ..) (by decide) h3
        · exact h3
      refine Within.ite (fun _ => ?_) (fun _ => ?_)
      · refine Within.ite (fun _ => ?_) (fun _ => ?_)
        · refine Within.andThen (State.takeMark_within ..) (by decide) ?_
          exact h5
        · refine Within.andThen (State.count_within ..) (by decide) ?_
          refine Within.trans ?_ (h1 ..)
          exact Within.refl
      · split
        · refine Within.andThen (State.takeMark_within ..) (by decide) ?_
          exact Within.refl
        · refine Within.ite (fun _ => ?_) (fun _ => ?_)
          · refine Within.andThen (State.takeMark_within ..) (by decide) ?_
            exact Within.refl
          · refine Within.andThen (State.takeMark_within ..) (by decide) ?_
            refine Within.trans ?_ (h1 ..)
            exact Within.refl

theorem execEpochMark_within {src : Nat} {epoch : Nat} {s : State} {t : State}
    (h : execEpochMark src epoch s = .next t) : Within [.regs, .zwx, .idx] s t := by
  unfold execEpochMark at h
  obtain rfl := Host.Outcome.next.inj h
  refine Within.andThen (State.onEpochMark_within ..) (by decide) ?_
  exact Within.refl

theorem State.onEpochReport_within (s : State) (src : Nat) (epoch : Nat) :
    Within [.regs, .idx] s (State.onEpochReport s src epoch) := by
  unfold State.onEpochReport
  refine Within.ite (fun _ => ?_) (fun _ => ?_)
  · exact Within.refl
  · refine Within.ite (fun _ => ?_) (fun _ => ?_)
    · refine Within.andThen (State.count_within ..) (by decide) ?_
      exact Within.refl
    · refine Within.set_idx (by decide) ?_
      exact Within.refl

theorem execEpochReport_within {src : Nat} {epoch : Nat} {s : State} {t : State}
    (h : execEpochReport src epoch s = .next t) : Within [.regs, .idx] s t := by
  unfold execEpochReport at h
  obtain rfl := Host.Outcome.next.inj h
  refine Within.andThen (State.onEpochReport_within ..) (by decide) ?_
  exact Within.refl

theorem State.onAlignLost_within (s : State) :
    Within [.outbox, .regs, .mgmt, .idx] s (State.onAlignLost s) := by
  unfold State.onAlignLost
  refine Within.ite (fun _ => ?_) (fun _ => ?_)
  · exact Within.refl
  · extract_lets -useContext _ x2
    refine Within.have_ (t := x2) ?_ (fun h2 => ?_)
    · subst x2
      refine Within.set_idx (by decide) ?_
      exact Within.refl
    refine Within.andThen (State.event_within ..) (by decide) ?_
    refine Within.andThen (State.count_within ..) (by decide) ?_
    exact h2

theorem execAlignLost_within {s : State} {t : State}
    (h : execAlignLost s = .next t) : Within [.outbox, .regs, .mgmt, .idx] s t := by
  unfold execAlignLost at h
  obtain rfl := Host.Outcome.next.inj h
  refine Within.andThen (State.onAlignLost_within ..) (by decide) ?_
  exact Within.refl

end Sys2Proof.Machine
end

