-- ==== Sys2Proof/Laws/Select.lean ====
section
/-! SUPPORT. For each operation of Machine/Select.lean: the fields it may change, that it keeps the invariant, and that the watch clock does not go back. -/

namespace Sys2Proof.Machine

set_option linter.all false
set_option Elab.async false

theorem State.placePiece_within (r : CmdRef) (l : Live) (a : State × List PieceAt) (p : Nat × Nat) :
    Within [.sch] a.1 (State.placePiece r l a p).1 := by
  obtain ⟨y, z⟩ := a
  unfold State.placePiece
  extract_lets -useContext x1
  refine Within.have_ (t := x1) ?_ (fun h1 => ?_)
  · subst x1
    exact Within.refl
  split
  · extract_lets -useContext 
    refine Within.andThen (State.addRoam_within ..) (by decide) ?_
    exact h1

theorem actSelect_within  (r : CmdRef) (l : Live) (s : State) :
    Within [.sch, .idx] s (actSelect r l s) := by
  unfold actSelect
  extract_lets -useContext x1 _ x3
  refine Within.have_ (t := x1.1) ?_ (fun h1 => ?_)
  · subst x1
    refine Within.foldl_fst ?_ (fun _ _ => ?_)
    · exact Within.refl
    · with_reducible refine Within.andThen (State.placePiece_within ..) (by decide) ?_
      exact Within.refl
  refine Within.have_ (t := x3) ?_ (fun h3 => ?_)
  · subst x3
    exact h1
  refine Within.set_idx (by decide) ?_
  exact h3

theorem execTopk_within {h : CmdHdr} {b : Body} {s : State} {t : State}
    (h : execTopk h b s = .next t) : Within [.outbox, .fresh, .regs, .mm, .sch, .cmd, .mgmt, .idx] s t := by
  unfold execTopk at h
  obtain rfl := Host.Outcome.next.inj h
  refine Within.trans ?_ (State.command_within (by decide) (fun _ _ _ => ?_) ..)
  · exact Within.refl
  · exact Within.mono (actSelect_within ..) (by decide)

theorem execMerge_within {h : CmdHdr} {b : Body} {s : State} {t : State}
    (h : execMerge h b s = .next t) : Within [.outbox, .fresh, .regs, .mm, .sch, .cmd, .mgmt, .idx] s t := by
  unfold execMerge at h
  obtain rfl := Host.Outcome.next.inj h
  refine Within.trans ?_ (State.command_within (by decide) (fun _ _ _ => ?_) ..)
  · exact Within.refl
  · exact Within.mono (actSelect_within ..) (by decide)

theorem State.onSelectPieceDone_within (s : State) (q : CmdRef) (row : Nat) (piece : Nat) (readable : Bool) :
    Within [.regs, .mm, .sch, .idx] s (State.onSelectPieceDone s q row piece readable) := by
  unfold State.onSelectPieceDone
  split
  · extract_lets -useContext 
    split
    · refine Within.ite (fun _ => ?_) (fun _ => ?_)
      · exact Within.refl
      · extract_lets -useContext _ _ _ _ _ _ x12 x13 _ _ x16
        refine Within.have_ (t := x12) ?_ (fun h12 => ?_)
        · subst x12
          refine Within.andThen (State.keepRuns_within ..) (by decide) ?_
          refine Within.andThen (State.seqOver_within ..) (by decide) ?_
          exact Within.refl
        refine Within.have_ (t := x13) ?_ (fun h13 => ?_)
        · subst x13
          refine Within.ite (fun _ => ?_) (fun _ => ?_)
          · refine Within.andThen (State.count_within ..) (by decide) ?_
            exact h12
          · exact h12
        refine Within.have_ (t := x16) ?_ (fun h16 => ?_)
        · subst x16
          refine Within.andThen (State.hTraffic_within ..) (by decide) ?_
          exact h13
        refine Within.set_idx (by decide) ?_
        exact h16
    · exact Within.refl
  · exact Within.refl

theorem execSelectPieceDone_within {q : CmdRef} {row : Nat} {piece : Nat} {readable : Bool} {s : State} {t : State}
    (h : execSelectPieceDone q row piece readable s = .next t) : Within [.regs, .mm, .sch, .idx] s t := by
  unfold execSelectPieceDone at h
  obtain rfl := Host.Outcome.next.inj h
  refine Within.andThen (State.onSelectPieceDone_within ..) (by decide) ?_
  exact Within.refl

theorem State.selEnd_within (s : State) (x : SelRun) (status : Nat) (body : Body) :
    Within [.outbox, .regs, .mm, .sch, .cmd, .idx] s (State.selEnd s x status body) := by
  unfold State.selEnd
  extract_lets -useContext x1 _ x3
  refine Within.have_ (t := x1) ?_ (fun h1 => ?_)
  · subst x1
    refine Within.andThen (State.dropRuns_within ..) (by decide) ?_
    refine Within.andThen (State.seqOver_within ..) (by decide) ?_
    exact Within.refl
  refine Within.have_ (t := x3) ?_ (fun h3 => ?_)
  · subst x3
    refine Within.set_idx (by decide) ?_
    exact h1
  refine Within.andThen (State.complete_within ..) (by decide) ?_
  exact h3

theorem State.topkComplete_within (s : State) (x : SelRun) (l : Live) :
    Within [.outbox, .fresh, .regs, .mem, .mm, .sch, .cmd, .fl, .idx] s (State.topkComplete s x l) := by
  unfold State.topkComplete
  extract_lets -useContext _ _ _ x4 _ _ _ x8
  refine Within.have_ (t := x4) ?_ (fun h4 => ?_)
  · subst x4
    refine Within.foldl ?_ (fun _ _ => ?_)
    · exact Within.refl
    · refine Within.andThen (State.hPut_within ..) (by decide) ?_
      exact Within.refl
  refine Within.have_ (t := x8) ?_ (fun h8 => ?_)
  · subst x8
    refine Within.foldl ?_ (fun _ _ => ?_)
    · exact h4
    · refine Within.andThen (State.countList_within ..) (by decide) ?_
      exact Within.refl
  refine Within.ite (fun _ => ?_) (fun _ => ?_)
  · refine Within.andThen (State.selEnd_within ..) (by decide) ?_
    exact Within.refl
  · refine Within.andThen (State.selEnd_within ..) (by decide) ?_
    exact h8

theorem State.mergeWrite_within (s : State) (x : SelRun) (l : Live) (o : Obj) (ls : List InList) :
    Within [.outbox, .fresh, .regs, .mem, .mm, .sch, .cmd, .fl, .idx] s (State.mergeWrite s x l o ls) := by
  unfold State.mergeWrite
  extract_lets -useContext _ _ _ _ _ _ _ _ y9 _ _ _ _ _ _ _ _ _ _ x20 x21 x22 x23 x24
  clear_value y9
  refine Within.have_ (t := x20) ?_ (fun h20 => ?_)
  · subst x20
    refine Within.andThen (State.hPut_within ..) (by decide) ?_
    refine Within.foldl ?_ (fun _ _ => ?_)
    · exact Within.refl
    · refine Within.andThen (State.objTraffic_within ..) (by decide) ?_
      exact Within.refl
  refine Within.have_ (t := x21) ?_ (fun h21 => ?_)
  · subst x21
    refine Within.foldl ?_ (fun _ _ => ?_)
    · exact h20
    · refine Within.andThen (State.keepRuns_within ..) (by decide) ?_
      exact Within.refl
  refine Within.have_ (t := x22) ?_ (fun h22 => ?_)
  · subst x22
    refine Within.andThen (State.countList_within ..) (by decide) ?_
    exact h21
  refine Within.have_ (t := x23) ?_ (fun h23 => ?_)
  · subst x23
    refine Within.ite (fun _ => ?_) (fun _ => ?_)
    · refine Within.andThen (State.count_within ..) (by decide) ?_
      exact h22
    · exact h22
  refine Within.have_ (t := x24) ?_ (fun h24 => ?_)
  · subst x24
    refine Within.ite (fun _ => ?_) (fun _ => ?_)
    · refine Within.andThen (State.count_within ..) (by decide) ?_
      exact h23
    · exact h23
  refine Within.andThen (State.selEnd_within ..) (by decide) ?_
  exact h24

theorem State.mergeComplete_within (s : State) (x : SelRun) (l : Live) :
    Within [.outbox, .fresh, .regs, .mem, .mm, .sch, .cmd, .fl, .idx] s (State.mergeComplete s x l) := by
  unfold State.mergeComplete
  extract_lets -useContext 
  split
  · refine Within.andThen (State.selEnd_within ..) (by decide) ?_
    exact Within.refl
  · extract_lets -useContext 
    refine Within.ite (fun _ => ?_) (fun _ => ?_)
    · refine Within.andThen (State.selEnd_within ..) (by decide) ?_
      exact Within.refl
    · refine Within.ite (fun _ => ?_) (fun _ => ?_)
      · refine Within.andThen (State.selEnd_within ..) (by decide) ?_
        exact Within.refl
      · refine Within.andThen (State.mergeWrite_within ..) (by decide) ?_
        exact Within.refl

theorem State.onSelectComplete_within (s : State) (q : CmdRef) :
    Within [.outbox, .fresh, .regs, .mem, .mm, .sch, .cmd, .fl, .idx] s (State.onSelectComplete s q) := by
  unfold State.onSelectComplete
  split
  · refine Within.ite (fun _ => ?_) (fun _ => ?_)
    · refine Within.andThen (State.mergeComplete_within ..) (by decide) ?_
      exact Within.refl
    · refine Within.ite (fun _ => ?_) (fun _ => ?_)
      · exact Within.refl
      · refine Within.andThen (State.topkComplete_within ..) (by decide) ?_
        exact Within.refl
  · exact Within.refl

theorem execSelectComplete_within {q : CmdRef} {s : State} {t : State}
    (h : execSelectComplete q s = .next t) : Within [.outbox, .fresh, .regs, .mem, .mm, .sch, .cmd, .fl, .idx] s t := by
  unfold execSelectComplete at h
  obtain rfl := Host.Outcome.next.inj h
  refine Within.andThen (State.onSelectComplete_within ..) (by decide) ?_
  exact Within.refl

end Sys2Proof.Machine
end

