-- ==== Sys2Proof/Laws/KvCmd.lean ====
section
/-! SUPPORT. For each operation of Machine/KvCmd.lean: the fields it may change, that it keeps the invariant, and that the watch clock does not go back. -/

namespace Sys2Proof.Machine

set_option linter.all false
set_option Elab.async false

theorem State.kvConfigure_within (s : State) (r : CmdRef) (ctx : Nat) (func : Nat) (b : Body) :
    Within [.outbox, .regs, .mm, .sch, .cmd, .kv] s (State.kvConfigure s r ctx func b) := by
  unfold State.kvConfigure
  extract_lets -useContext 
  refine Within.ite (fun _ => ?_) (fun _ => ?_)
  · refine Within.andThen (State.complete_within ..) (by decide) ?_
    exact Within.refl
  · split
    · refine Within.andThen (State.complete_within ..) (by decide) ?_
      refine Within.set_kv (by decide) ?_
      exact Within.refl
    · refine Within.ite (fun _ => ?_) (fun _ => ?_)
      · refine Within.andThen (State.complete_within ..) (by decide) ?_
        refine Within.andThen (State.updKv_within ..) (by decide) ?_
        exact Within.refl
      · refine Within.ite (fun _ => ?_) (fun _ => ?_)
        · refine Within.andThen (State.complete_within ..) (by decide) ?_
          refine Within.andThen (State.updKv_within ..) (by decide) ?_
          exact Within.refl
        · refine Within.andThen (State.complete_within ..) (by decide) ?_
          exact Within.refl

theorem State.kvStart_within (s : State) (r : CmdRef) (ctx : Nat) (spill : Bool) (p : PageRef) :
    Within [.outbox, .fresh, .regs, .mem, .mm, .sch, .cmd, .fl, .kv] s (State.kvStart s r ctx spill p) := by
  unfold State.kvStart
  split
  · refine Within.ite (fun _ => ?_) (fun _ => ?_)
    · split
      · refine Within.ite (fun _ => ?_) (fun _ => ?_)
        · refine Within.andThen (State.spillIssue_within ..) (by decide) ?_
          exact Within.refl
        · refine Within.andThen (State.kvHandled_within ..) (by decide) ?_
          exact Within.refl
      · refine Within.andThen (State.kvHandled_within ..) (by decide) ?_
        exact Within.refl
    · refine Within.ite (fun _ => ?_) (fun _ => ?_)
      · refine Within.andThen (State.kvHandled_within ..) (by decide) ?_
        exact Within.refl
      · split
        · refine Within.andThen (State.queueSpill_within ..) (by decide) ?_
          refine Within.andThen (State.promote_within (by assumption)) (by decide) ?_
          exact Within.refl
        · refine Within.andThen (State.kvHandled_within ..) (by decide) ?_
          exact Within.refl
  · refine Within.andThen (State.kvHandled_within ..) (by decide) ?_
    exact Within.refl

theorem actKv_within  (r : CmdRef) (l : Live) (s : State) :
    Within [.outbox, .fresh, .regs, .mem, .mm, .sch, .cmd, .fl, .kv] s (actKv r l s) := by
  unfold actKv
  split
  · refine Within.andThen (State.complete_within ..) (by decide) ?_
    exact Within.refl
  · refine Within.ite (fun _ => ?_) (fun _ => ?_)
    · refine Within.andThen (State.kvConfigure_within ..) (by decide) ?_
      exact Within.refl
    · extract_lets -useContext _ _ x3
      refine Within.have_ (t := x3) ?_ (fun h3 => ?_)
      · subst x3
        refine Within.set_kv (by decide) ?_
        exact Within.refl
      refine Within.ite (fun _ => ?_) (fun _ => ?_)
      · refine Within.andThen (State.complete_within ..) (by decide) ?_
        exact Within.refl
      · refine Within.foldl ?_ (fun _ _ => ?_)
        · exact h3
        · refine Within.andThen (State.kvStart_within ..) (by decide) ?_
          exact Within.refl

theorem execConfig_within {h : CmdHdr} {b : Body} {s : State} {t : State}
    (h : execConfig h b s = .next t) : Within [.outbox, .fresh, .regs, .mem, .mm, .sch, .cmd, .fl, .mgmt, .kv] s t := by
  unfold execConfig at h
  obtain rfl := Host.Outcome.next.inj h
  refine Within.trans ?_ (State.command_within (by decide) (fun _ _ _ => ?_) ..)
  · exact Within.refl
  · exact Within.mono (actKv_within ..) (by decide)

theorem execPrefetch_within {h : CmdHdr} {b : Body} {s : State} {t : State}
    (h : execPrefetch h b s = .next t) : Within [.outbox, .fresh, .regs, .mem, .mm, .sch, .cmd, .fl, .mgmt, .kv] s t := by
  unfold execPrefetch at h
  obtain rfl := Host.Outcome.next.inj h
  refine Within.trans ?_ (State.command_within (by decide) (fun _ _ _ => ?_) ..)
  · exact Within.refl
  · exact Within.mono (actKv_within ..) (by decide)

theorem execSpill_within {h : CmdHdr} {b : Body} {s : State} {t : State}
    (h : execSpill h b s = .next t) : Within [.outbox, .fresh, .regs, .mem, .mm, .sch, .cmd, .fl, .mgmt, .kv] s t := by
  unfold execSpill at h
  obtain rfl := Host.Outcome.next.inj h
  refine Within.trans ?_ (State.command_within (by decide) (fun _ _ _ => ?_) ..)
  · exact Within.refl
  · exact Within.mono (actKv_within ..) (by decide)

theorem State.spillFail_within (s : State) (c : KvCtx) (m : PageMove) :
    Within [.outbox, .fresh, .regs, .mem, .mm, .sch, .cmd, .fl, .kv] s (State.spillFail s c m) := by
  unfold State.spillFail
  extract_lets -useContext x1
  refine Within.have_ (t := x1) ?_ (fun h1 => ?_)
  · subst x1
    refine Within.andThen (State.kvHandled_within ..) (by decide) ?_
    refine Within.andThen (State.count_within ..) (by decide) ?_
    refine Within.andThen (State.undoSpill_within ..) (by decide) ?_
    exact Within.refl
  split
  · split
    · refine Within.ite (fun _ => ?_) (fun _ => ?_)
      · refine Within.andThen (State.spillIssue_within ..) (by decide) ?_
        exact h1
      · exact h1
    · exact h1
  · exact h1

theorem execSpillDurable_within {p : PageRef} {ok : Bool} {s : State} {t : State}
    (h : execSpillDurable p ok s = .next t) : Within [.outbox, .fresh, .regs, .mem, .mm, .sch, .cmd, .zwx, .fl, .kv, .gen] s t := by
  unfold execSpillDurable at h
  obtain rfl := Host.Outcome.next.inj h
  split
  · exact Within.refl
  · split
    · exact Within.refl
    · refine Within.ite (fun _ => ?_) (fun _ => ?_)
      · exact Within.refl
      · refine Within.ite (fun _ => ?_) (fun _ => ?_)
        · extract_lets -useContext _ _ x3
          refine Within.have_ (t := x3) ?_ (fun h3 => ?_)
          · subst x3
            refine Within.andThen (State.charge_within ..) (by decide) ?_
            refine Within.andThen (State.hTraffic_within ..) (by decide) ?_
            refine Within.andThen (State.mapSpill_within ..) (by decide) ?_
            refine Within.andThen (State.setBytes_within ..) (by decide) ?_
            refine Within.andThen (State.endSpillWrite_within ..) (by decide) ?_
            exact Within.refl
          refine Within.andThen (State.settleSpills_within ..) (by decide) ?_
          refine Within.andThen (State.spillDurable_within ..) (by decide) ?_
          exact h3
        · refine Within.andThen (State.spillFail_within ..) (by decide) ?_
          exact Within.refl

theorem State.pageServed_within {s : State} {c : KvCtx} {p : PageRef} {t : State}
    (h : State.pageServed s c p = some t) : Within [.fresh, .regs, .fl] s t := by
  unfold State.pageServed at h
  extract_lets -useContext  at h
  split at h
  · refine Within.andThen (State.serveSpill_within h) (by decide) ?_
    exact Within.refl
  · obtain rfl := Option.some.inj h
    exact Within.refl

theorem State.onT3PageReadDone_within (s : State) (a : AttnRef) (page : Nat) (readable : Bool) :
    Within [.outbox, .fresh, .regs, .mem, .mm, .sch, .zwx, .fl, .ar, .kv, .gen] s (State.onT3PageReadDone s a page readable) := by
  unfold State.onT3PageReadDone
  split
  · exact Within.refl
  · split
    · extract_lets -useContext 
      refine Within.ite (fun _ => ?_) (fun _ => ?_)
      · exact Within.refl
      · split
        · exact Within.refl
        · extract_lets -useContext x5 x6 _ x8 x9 x10
          refine Within.have_ (t := x5) ?_ (fun h5 => ?_)
          · subst x5
            refine Within.andThen (State.count_within ..) (by decide) ?_
            refine Within.andThen (State.count_within ..) (by decide) ?_
            refine Within.andThen (State.pageServed_within (by assumption)) (by decide) ?_
            exact Within.refl
          refine Within.have_ (t := x6) ?_ (fun h6 => ?_)
          · subst x6
            refine Within.andThen (State.updAttn_within ..) (by decide) ?_
            exact h5
          refine Within.have_ (t := x8) ?_ (fun h8 => ?_)
          · subst x8
            refine Within.set_sch (by decide) ?_
            exact h6
          refine Within.have_ (t := x9) ?_ (fun h9 => ?_)
          · subst x9
            refine Within.ite (fun _ => ?_) (fun _ => ?_)
            · refine Within.andThen (State.stallUs_within ..) (by decide) ?_
              refine Within.andThen (State.count_within ..) (by decide) ?_
              exact h8
            · exact h8
          refine Within.have_ (t := x10) ?_ (fun h10 => ?_)
          · subst x10
            refine Within.andThen (State.charge_within ..) (by decide) ?_
            exact h9
          refine Within.ite (fun _ => ?_) (fun _ => ?_)
          · refine Within.andThen (State.badPage_within ..) (by decide) ?_
            exact h5
          · refine Within.andThen (State.measured_within ..) (by decide) ?_
            exact Within.getD h10 (fun _ hu => Within.mono (State.promote_within hu) (by decide))
    · exact Within.refl

theorem execT3PageReadDone_within {a : AttnRef} {page : Nat} {readable : Bool} {s : State} {t : State}
    (h : execT3PageReadDone a page readable s = .next t) : Within [.outbox, .fresh, .regs, .mem, .mm, .sch, .zwx, .fl, .ar, .kv, .gen] s t := by
  unfold execT3PageReadDone at h
  obtain rfl := Host.Outcome.next.inj h
  refine Within.andThen (State.onT3PageReadDone_within ..) (by decide) ?_
  exact Within.refl

theorem execPromotionDone_within {p : PageRef} {s : State} {t : State}
    (h : execPromotionDone p s = .next t) : Within [.outbox, .fresh, .regs, .mem, .mm, .sch, .cmd, .fl, .kv] s t := by
  unfold execPromotionDone at h
  obtain rfl := Host.Outcome.next.inj h
  split
  · exact Within.refl
  · split
    · exact Within.refl
    · split
      · exact Within.refl
      · extract_lets -useContext _ x2 x3 x4 x5
        refine Within.have_ (t := x2) ?_ (fun h2 => ?_)
        · subst x2
          refine Within.set_kv (by decide) ?_
          rename_i hs _
          split at hs
          · exact Within.mono (State.pageServed_within hs) (by decide)
          · obtain rfl := Option.some.inj hs
            exact Within.refl
        refine Within.have_ (t := x3) ?_ (fun h3 => ?_)
        · subst x3
          refine Within.ite (fun _ => ?_) (fun _ => ?_)
          · refine Within.andThen (State.charge_within ..) (by decide) ?_
            refine Within.andThen (State.count_within ..) (by decide) ?_
            exact h2
          · exact h2
        refine Within.have_ (t := x4) ?_ (fun h4 => ?_)
        · subst x4
          refine Within.andThen (State.putFrame_within ..) (by decide) ?_
          exact h3
        refine Within.have_ (t := x5) ?_ (fun h5 => ?_)
        · subst x5
          refine Within.andThen (State.freeSpill_within ..) (by decide) ?_
          refine Within.andThen (State.setPage_within ..) (by decide) ?_
          exact h4
        refine Within.ite (fun _ => ?_) (fun _ => ?_)
        · refine Within.andThen (State.kvHandled_within ..) (by decide) ?_
          refine Within.andThen (State.freeFrame_within ..) (by decide) ?_
          refine Within.andThen (State.setPage_within ..) (by decide) ?_
          exact h3
        · refine Within.andThen (State.kvHandled_within ..) (by decide) ?_
          refine Within.andThen (State.pruneReads_within ..) (by decide) ?_
          refine Within.andThen (State.count_within ..) (by decide) ?_
          refine Within.andThen (State.ageAdd_within ..) (by decide) ?_
          exact h5

theorem State.dropMoves_within (s : State) (r : CmdRef) :
    Within [.fresh, .regs, .mem, .mm, .sch, .fl, .kv] s (State.dropMoves s r) := by
  unfold State.dropMoves
  extract_lets -useContext x1 x2
  refine Within.have_ (t := x1) ?_ (fun h1 => ?_)
  · subst x1
    refine Within.foldl ?_ (fun _ _ => ?_)
    · exact Within.refl
    · refine Within.andThen (State.undoSpill_within ..) (by decide) ?_
      exact Within.refl
  refine Within.have_ (t := x2) ?_ (fun h2 => ?_)
  · subst x2
    refine Within.foldl ?_ (fun _ _ => ?_)
    · exact h1
    · refine Within.andThen (State.undoPromo_within ..) (by decide) ?_
      exact Within.refl
  refine Within.andThen (State.pruneReads_within ..) (by decide) ?_
  refine Within.set_kv (by decide) ?_
  exact h2

theorem State.relocArm_within {s : State} {d : FerryDesc} {t : State}
    (h : State.relocArm s d = some t) : Within [.fresh, .regs, .mem, .mm, .sch, .fl, .kv] s t := by
  unfold State.relocArm at h
  split at h
  · obtain rfl := Option.some.inj h
    exact Within.refl
  · extract_lets -useContext _ _ x3 at h
    refine Within.have_ (t := x3) ?_ (fun h3 => ?_)
    · subst x3
      refine Within.andThen (State.setPage_within ..) (by decide) ?_
      refine Within.andThen (State.updKv_within ..) (by decide) ?_
      exact Within.refl
    split at h
    · exact nomatch h
    · obtain rfl := Option.some.inj h
      refine Within.set_kv (by decide) ?_
      exact h3

theorem State.onRelocationCopyDone_within (s : State) (p : PageRef) :
    Within [.fresh, .regs, .mem, .mm, .sch, .fl, .kv] s (State.onRelocationCopyDone s p) := by
  unfold State.onRelocationCopyDone
  split
  · exact Within.refl
  · split
    · exact Within.refl
    · extract_lets -useContext x1
      refine Within.have_ (t := x1) ?_ (fun h1 => ?_)
      · subst x1
        refine Within.andThen (State.putFrame_within ..) (by decide) ?_
        exact Within.refl
      refine Within.set_kv (by decide) ?_
      exact h1

theorem execRelocationCopyDone_within {p : PageRef} {s : State} {t : State}
    (h : execRelocationCopyDone p s = .next t) : Within [.fresh, .regs, .mem, .mm, .sch, .fl, .kv] s t := by
  unfold execRelocationCopyDone at h
  obtain rfl := Host.Outcome.next.inj h
  refine Within.andThen (State.onRelocationCopyDone_within ..) (by decide) ?_
  exact Within.refl

theorem execHoldExpire_within {seq : Nat} {s : State} {t : State}
    (h : execHoldExpire seq s = .next t) : Within [.outbox, .fresh, .regs, .mem, .mm, .sch, .zwx, .fl, .kv, .gen] s t := by
  unfold execHoldExpire at h
  obtain rfl := Host.Outcome.next.inj h
  split
  · exact Within.refl
  · split
    · refine Within.ite (fun _ => ?_) (fun _ => ?_)
      · exact Within.refl
      · extract_lets -useContext _ x2
        refine Within.have_ (t := x2) ?_ (fun h2 => ?_)
        · subst x2
          refine Within.foldl ?_ (fun _ _ => ?_)
          · exact Within.refl
          · extract_lets -useContext 
            refine Within.andThen (State.freeFrame_within ..) (by decide) ?_
            refine Within.andThen (State.setPage_within ..) (by decide) ?_
            exact Within.refl
        refine Within.andThen (State.serveWaiting_within ..) (by decide) ?_
        refine Within.andThen (State.sendHold_within ..) (by decide) ?_
        refine Within.andThen (State.count_within ..) (by decide) ?_
        refine Within.andThen (State.updSeq_within ..) (by decide) ?_
        exact h2
    · exact Within.refl

theorem State.bindCopy_within (s : State) (m : PageCopy) :
    Within [.fresh, .regs, .mem, .mm, .sch, .fl, .kv, .gen] s (State.bindCopy s m) := by
  unfold State.bindCopy
  split
  · exact Within.refl
  · refine Within.ite (fun _ => ?_) (fun _ => ?_)
    · exact Within.refl
    · split
      · exact Within.refl
      · split
        · exact Within.refl
        · extract_lets -useContext x1
          refine Within.have_ (t := x1) ?_ (fun h1 => ?_)
          · subst x1
            refine Within.andThen (State.hPut_within ..) (by decide) ?_
            refine Within.andThen (State.putMeta_within ..) (by decide) ?_
            refine Within.andThen (State.setPage_within ..) (by decide) ?_
            refine Within.andThen (State.makeLeaf_within (by assumption)) (by decide) ?_
            exact Within.refl
          refine Within.andThen (State.updSeq_within ..) (by decide) ?_
          refine Within.set_kv (by decide) ?_
          exact h1

theorem State.bindCopies_within (s : State) (slot : Nat) :
    Within [.fresh, .regs, .mem, .mm, .sch, .fl, .kv, .gen] s (State.bindCopies s slot) := by
  unfold State.bindCopies
  refine Within.foldl ?_ (fun _ _ => ?_)
  · exact Within.refl
  · refine Within.andThen (State.bindCopy_within ..) (by decide) ?_
    exact Within.refl

theorem State.takeMirror_within (s : State) (ctx : Nat) (p : PageRef) (part : Nat) (b : List Byte) :
    Within [.fresh, .regs, .mem, .mm, .sch, .fl, .kv, .gen] s (State.takeMirror s ctx p part b).1 := by
  unfold State.takeMirror
  split
  · exact Within.refl
  · extract_lets -useContext _ y2 _ _ x5 _ y7
    clear_value y2
    refine Within.have_ (t := x5) ?_ (fun h5 => ?_)
    · subst x5
      refine Within.foldl ?_ (fun _ _ => ?_)
      · refine Within.set_kv (by decide) ?_
        exact Within.refl
      · refine Within.andThen (State.freeSpill_within ..) (by decide) ?_
        exact Within.refl
    have h7 : ∀ r, y7 = some r → Within [.fresh, .regs, .mem, .mm, .sch, .fl, .kv, .gen] s r.2 := by
      intro r hr
      subst y7
      split at hr
      · obtain rfl := Option.some.inj hr
        exact h5
      · split at hr
        · exact nomatch hr
        · split at hr
          · exact nomatch hr
          · obtain ⟨f, -, rfl⟩ := Option.map_eq_some_iff.1 hr
            exact Within.andThen (State.updKv_within ..) (by decide) (Within.set_kv (by decide) h5)
    clear_value y7
    split
    · exact h5
    · extract_lets -useContext _ _ x10 x11 x12
      refine Within.have_ (t := x10) ?_ (fun h10 => ?_)
      · subst x10
        exact Within.set_kv (by decide) (h7 _ rfl)
      refine Within.have_ (t := x11) ?_ (fun h11 => ?_)
      · subst x11
        refine Within.ite (fun _ => ?_) (fun _ => ?_)
        · refine Within.andThen (State.charge_within ..) (by decide) ?_
          refine Within.andThen (State.setBytes_within ..) (by decide) ?_
          exact h10
        · exact h10
      refine Within.have_ (t := x12) ?_ (fun h12 => ?_)
      · subst x12
        refine Within.ite (fun _ => ?_) (fun _ => ?_)
        · refine Within.andThen (State.mapSpill_within ..) (by decide) ?_
          exact h11
        · exact h11
      refine Within.andThen (State.bindCopy_within ..) (by decide) ?_
      exact h12

theorem State.takeHold_within (s : State) (ctx : Nat) (seq : Nat) (dev : Nat) (on : Bool) :
    Within [.regs, .sch, .fl, .ar, .kv, .gen] s (State.takeHold s ctx seq dev on) := by
  unfold State.takeHold
  extract_lets -useContext _ _ x3
  refine Within.have_ (t := x3) ?_ (fun h3 => ?_)
  · subst x3
    refine Within.set_kv (by decide) ?_
    exact Within.refl
  refine Within.ite (fun _ => ?_) (fun _ => ?_)
  · refine Within.ite (fun _ => ?_) (fun _ => ?_)
    · exact h3
    · refine Within.andThen (State.updSeq_within ..) (by decide) ?_
      exact h3
  · refine Within.foldl ?_ (fun _ _ => ?_)
    · exact h3
    · split
      · refine Within.ite (fun _ => ?_) (fun _ => ?_)
        · refine Within.andThen (State.updEntry_within ..) (by decide) ?_
          refine Within.andThen (State.leaveStep_within ..) (by decide) ?_
          exact Within.refl
        · exact Within.refl
      · exact Within.refl

theorem State.arriveFar_within (s : State) (x : XPkt) (ctx : Nat) (pos : Nat) (p : PageRef) :
    Within [.outbox, .fresh, .regs, .mem, .mm, .sch, .zwx, .fl, .kv, .gen] s (State.arriveFar s x ctx pos p) := by
  unfold State.arriveFar
  extract_lets -useContext _ x2
  refine Within.have_ (t := x2) ?_ (fun h2 => ?_)
  · subst x2
    refine Within.set_kv (by decide) ?_
    exact Within.refl
  split
  · exact h2
  · extract_lets -useContext x3
    refine Within.have_ (t := x3) ?_ (fun h3 => ?_)
    · subst x3
      refine Within.andThen (State.landParts_within ..) (by decide) ?_
      exact h2
    split
    · refine Within.ite (fun _ => ?_) (fun _ => ?_)
      · refine Within.andThen (State.choiceEnd_within ..) (by decide) ?_
        refine Within.andThen (State.takeFar_within ..) (by decide) ?_
        exact h3
      · exact h3
    · refine Within.andThen (State.attnCheck_within ..) (by decide) ?_
      exact h3

theorem State.takePlace_within (s : State) (x : XPkt) :
    Within [.outbox, .fresh, .regs, .mem, .mm, .sch, .zwx, .fl, .ar, .kv, .gen] s (State.takePlace s x).1 := by
  unfold State.takePlace
  extract_lets -useContext 
  split
  · refine Within.ite_fst (fun _ => ?_) (fun _ => ?_)
    · refine Within.andThen (State.takeHold_within ..) (by decide) ?_
      exact Within.refl
    · exact Within.refl
  · refine Within.ite_fst (fun _ => ?_) (fun _ => ?_)
    · refine Within.andThen (State.arriveFar_within ..) (by decide) ?_
      exact Within.refl
    · exact Within.refl
  · refine Within.ite_fst (fun _ => ?_) (fun _ => ?_)
    · refine Within.andThen (State.arriveFar_within ..) (by decide) ?_
      exact Within.refl
    · exact Within.refl
  · refine Within.ite_fst (fun _ => ?_) (fun _ => ?_)
    · refine Within.andThen (State.arriveFar_within ..) (by decide) ?_
      exact Within.refl
    · exact Within.refl
  · split
    · refine Within.ite_fst (fun _ => ?_) (fun _ => ?_)
      · refine Within.andThen (State.putPos_within ..) (by decide) ?_
        exact Within.refl
      · exact Within.refl
    · exact Within.refl
  · refine Within.ite_fst (fun _ => ?_) (fun _ => ?_)
    · with_reducible refine Within.andThen (State.takeMirror_within ..) (by decide) ?_
      exact Within.refl
    · exact Within.refl
  · exact Within.refl

end Sys2Proof.Machine
end

