-- ==== Sys2Proof/Laws/Gen.lean ====
section
/-! SUPPORT. For each operation of Machine/Gen.lean: the fields it may change, that it keeps the invariant, and that the watch clock does not go back. -/

namespace Sys2Proof.Machine

set_option linter.all false
set_option Elab.async false

theorem State.setModel_within (s : State) (m : ModelSt) :
    Within [.gen] s (State.setModel s m) := by
  unfold State.setModel
  refine Within.set_gen (by decide) ?_
  exact Within.refl

theorem actModelLoad_within  (r : CmdRef) (l : Live) (s : State) :
    Within [.outbox, .regs, .mm, .sch, .cmd, .gen] s (actModelLoad r l s) := by
  unfold actModelLoad
  split
  · refine Within.andThen (State.complete_within ..) (by decide) ?_
    exact Within.refl
  · extract_lets -useContext 
    refine Within.andThen (State.setModel_within ..) (by decide) ?_
    refine Within.andThen (State.updLive_within ..) (by decide) ?_
    exact Within.refl

theorem execModelLoad_within {h : CmdHdr} {b : Body} {s : State} {t : State}
    (h : execModelLoad h b s = .next t) : Within [.outbox, .fresh, .regs, .mm, .sch, .cmd, .mgmt, .gen] s t := by
  unfold execModelLoad at h
  obtain rfl := Host.Outcome.next.inj h
  refine Within.trans ?_ (State.command_within (by decide) (fun _ _ _ => ?_) ..)
  · exact Within.refl
  · exact Within.mono (actModelLoad_within ..) (by decide)

theorem State.modelFail_within (s : State) (status : Nat) :
    Within [.outbox, .regs, .mm, .sch, .cmd, .gen] s (State.modelFail s status) := by
  unfold State.modelFail
  split
  · refine Within.andThen (State.complete_within ..) (by decide) ?_
    refine Within.andThen (State.setModel_within ..) (by decide) ?_
    exact Within.refl
  · refine Within.andThen (State.setModel_within ..) (by decide) ?_
    exact Within.refl

theorem State.copyModel_within (s : State) (o : Obj) :
    Within [.fresh, .regs, .mem, .mm, .sch, .fl] s (State.copyModel s o) := by
  unfold State.copyModel
  extract_lets -useContext _ x2 x3
  refine Within.have_fn3 (f := x2) (fun _ _ _ => ?_) (fun h2 => ?_)
  · subst x2
    beta_reduce
    refine Within.ite (fun _ => ?_) (fun _ => ?_)
    · exact Within.refl
    · refine Within.andThen (State.hPut_within ..) (by decide) ?_
      exact Within.refl
  refine Within.have_ (t := x3) ?_ (fun h3 => ?_)
  · subst x3
    refine Within.trans ?_ (h2 ..)
    refine Within.trans ?_ (h2 ..)
    exact Within.refl
  refine Within.foldl ?_ (fun _ _ => ?_)
  · exact h3
  · refine Within.trans ?_ (h2 ..)
    refine Within.trans ?_ (h2 ..)
    exact Within.refl

theorem execModelImageCopied_within {s : State} {t : State}
    (h : execModelImageCopied s = .next t) : Within [.outbox, .fresh, .regs, .mem, .mm, .sch, .cmd, .fl, .gen] s t := by
  unfold execModelImageCopied at h
  obtain rfl := Host.Outcome.next.inj h
  refine Within.ite (fun _ => ?_) (fun _ => ?_)
  · exact Within.refl
  · split
    · refine Within.andThen (State.modelFail_within ..) (by decide) ?_
      exact Within.refl
    · split
      · refine Within.andThen (State.blkErr_within ..) (by decide) ?_
        refine Within.andThen (State.modelFail_within ..) (by decide) ?_
        exact Within.refl
      · extract_lets -useContext x1 _ x3
        refine Within.have_ (t := x1.1) ?_ (fun h1 => ?_)
        · subst x1
          with_reducible refine Within.andThen (State.takeShare_within ..) (by decide) ?_
          refine Within.andThen (State.copyModel_within ..) (by decide) ?_
          exact Within.refl
        refine Within.have_ (t := x3) ?_ (fun h3 => ?_)
        · subst x3
          refine Within.andThen (State.setModel_within ..) (by decide) ?_
          exact h1
        refine Within.ite (fun _ => ?_) (fun _ => ?_)
        · split
          · refine Within.andThen (State.complete_within ..) (by decide) ?_
            exact h3
          · exact h3
        · refine Within.andThen (State.modelFail_within ..) (by decide) ?_
          exact h1

theorem State.dropModel_within (s : State) :
    Within [.mm, .gen] s (State.dropModel s) := by
  unfold State.dropModel
  refine Within.andThen (State.setModel_within ..) (by decide) ?_
  refine Within.andThen (State.dropShare_within ..) (by decide) ?_
  exact Within.refl

theorem actModelUnload_within  (r : CmdRef) (l : Live) (s : State) :
    Within [.outbox, .regs, .mm, .sch, .cmd, .gen] s (actModelUnload r l s) := by
  unfold actModelUnload
  extract_lets -useContext 
  refine Within.ite (fun _ => ?_) (fun _ => ?_)
  · refine Within.andThen (State.complete_within ..) (by decide) ?_
    exact Within.refl
  · refine Within.ite (fun _ => ?_) (fun _ => ?_)
    · refine Within.andThen (State.complete_within ..) (by decide) ?_
      exact Within.refl
    · refine Within.andThen (State.complete_within ..) (by decide) ?_
      refine Within.andThen (State.dropModel_within ..) (by decide) ?_
      exact Within.refl

theorem execModelUnload_within {h : CmdHdr} {b : Body} {s : State} {t : State}
    (h : execModelUnload h b s = .next t) : Within [.outbox, .fresh, .regs, .mm, .sch, .cmd, .mgmt, .gen] s t := by
  unfold execModelUnload at h
  obtain rfl := Host.Outcome.next.inj h
  refine Within.trans ?_ (State.command_within (by decide) (fun _ _ _ => ?_) ..)
  · exact Within.refl
  · exact Within.mono (actModelUnload_within ..) (by decide)

theorem actSeqOpen_within  (r : CmdRef) (l : Live) (s : State) :
    Within [.outbox, .fresh, .regs, .mem, .mm, .sch, .cmd, .fl, .kv, .gen] s (actSeqOpen r l s) := by
  unfold actSeqOpen
  split
  · refine Within.andThen (State.complete_within ..) (by decide) ?_
    exact Within.refl
  · extract_lets -useContext _ _ _ _ x5 x6 x7
    refine Within.have_ (t := x5) ?_ (fun h5 => ?_)
    · subst x5
      refine Within.set_gen (by decide) ?_
      exact Within.refl
    refine Within.have_ (t := x6) ?_ (fun h6 => ?_)
    · subst x6
      split
      · refine Within.andThen (State.hPut_within ..) (by decide) ?_
        exact h5
      · exact h5
    refine Within.have_ (t := x7) ?_ (fun h7 => ?_)
    · subst x7
      refine Within.andThen (State.bindCopies_within ..) (by decide) ?_
      exact h6
    refine Within.ite (fun _ => ?_) (fun _ => ?_)
    · exact h7
    · refine Within.andThen (State.complete_within ..) (by decide) ?_
      exact h7

theorem execSeqOpen_within {h : CmdHdr} {b : Body} {s : State} {t : State}
    (h : execSeqOpen h b s = .next t) : Within [.outbox, .fresh, .regs, .mem, .mm, .sch, .cmd, .fl, .mgmt, .kv, .gen] s t := by
  unfold execSeqOpen at h
  obtain rfl := Host.Outcome.next.inj h
  refine Within.trans ?_ (State.command_within (by decide) (fun _ _ _ => ?_) ..)
  · exact Within.refl
  · exact Within.mono (actSeqOpen_within ..) (by decide)

theorem actSeqClose_within  (r : CmdRef) (l : Live) (s : State) :
    Within [.gen] s (actSeqClose r l s) := by
  unfold actSeqClose
  refine Within.andThen (State.updSeq_within ..) (by decide) ?_
  exact Within.refl

theorem execSeqClose_within {h : CmdHdr} {b : Body} {s : State} {t : State}
    (h : execSeqClose h b s = .next t) : Within [.outbox, .fresh, .regs, .mm, .sch, .cmd, .mgmt, .gen] s t := by
  unfold execSeqClose at h
  obtain rfl := Host.Outcome.next.inj h
  refine Within.trans ?_ (State.command_within (by decide) (fun _ _ _ => ?_) ..)
  · exact Within.refl
  · exact Within.mono (actSeqClose_within ..) (by decide)

theorem actStep_within  (r : CmdRef) (l : Live) (s : State) :
    Within [.gen] s (actStep r l s) := by
  unfold actStep
  refine Within.set_gen (by decide) ?_
  exact Within.refl

theorem execStep_within {h : CmdHdr} {b : Body} {s : State} {t : State}
    (h : execStep h b s = .next t) : Within [.outbox, .fresh, .regs, .mm, .sch, .cmd, .mgmt, .gen] s t := by
  unfold execStep at h
  obtain rfl := Host.Outcome.next.inj h
  refine Within.trans ?_ (State.command_within (by decide) (fun _ _ _ => ?_) ..)
  · exact Within.refl
  · exact Within.mono (actStep_within ..) (by decide)

theorem State.clearCohort_within (s : State) (slot : Nat) :
    Within [.regs, .sch, .fl, .ar, .gen] s (State.clearCohort s slot) := by
  unfold State.clearCohort
  extract_lets -useContext x1
  refine Within.have_ (t := x1) ?_ (fun h1 => ?_)
  · subst x1
    refine Within.andThen (State.dropTasks_within ..) (by decide) ?_
    exact Within.refl
  refine Within.andThen (State.pruneReads_within ..) (by decide) ?_
  refine Within.set_gen (by decide) ?_
  exact h1

theorem State.rollPages_within (s : State) (ctx : Nat) (x : CEntry) :
    Within [.fresh, .regs, .mem, .mm, .sch, .fl, .kv] s (State.rollPages s ctx x) := by
  unfold State.rollPages
  split
  · extract_lets -useContext 
    refine Within.foldl ?_ (fun _ _ => ?_)
    · exact Within.refl
    · extract_lets -useContext _ _ x4
      refine Within.have_ (t := x4) ?_ (fun h4 => ?_)
      · subst x4
        refine Within.andThen (State.ageDrop_within ..) (by decide) ?_
        refine Within.andThen (State.setPage_within ..) (by decide) ?_
        exact Within.refl
      refine Within.ite (fun _ => ?_) (fun _ => ?_)
      · refine Within.set_kv (by decide) ?_
        exact h4
      · exact Within.refl
  · exact Within.refl

theorem State.discardStep_within (s : State) (slot : Nat) :
    Within [.outbox, .fresh, .regs, .mem, .mm, .sch, .zwx, .fl, .ar, .kv, .gen] s (State.discardStep s slot) := by
  unfold State.discardStep
  split
  · exact Within.refl
  · refine Within.andThen (State.settleSpills_within ..) (by decide) ?_
    refine Within.foldl ?_ (fun _ _ => ?_)
    · refine Within.andThen (State.clearCohort_within ..) (by decide) ?_
      exact Within.refl
    · refine Within.andThen (State.rollPages_within ..) (by decide) ?_
      exact Within.refl

end Sys2Proof.Machine
end

