-- ==== Sys2Proof/Laws/Stage.lean ====
section
/-! SUPPORT. For each operation of Machine/Stage.lean: the fields it may change, that it keeps the invariant, and that the watch clock does not go back. -/

namespace Sys2Proof.Machine

set_option linter.all false
set_option Elab.async false

theorem State.updPiece_within (s : State) (slot : Nat) (i : Nat) (f : Piece → Piece) :
    Within [.gen] s (State.updPiece s slot i f) := by
  unfold State.updPiece
  refine Within.andThen (State.updCohort_within ..) (by decide) ?_
  exact Within.refl

theorem State.releaseBlock_within (s : State) (slot : Nat) (die : Nat) (st : Nat) (layer : Nat) (c : Nat) (low : Bool) :
    Within [.gen] s (State.releaseBlock s slot die st layer c low) := by
  unfold State.releaseBlock
  split
  · extract_lets -useContext 
    refine Within.ite (fun _ => ?_) (fun _ => ?_)
    · refine Within.andThen (State.updCohort_within ..) (by decide) ?_
      exact Within.refl
    · exact Within.refl
  · exact Within.refl

theorem State.startMcasts_within (s : State) (k : Cohort) (layer : Nat) (head : Bool) :
    Within [.sch] s (State.startMcasts s k layer head) := by
  unfold State.startMcasts
  extract_lets -useContext 
  refine Within.set_sch (by decide) ?_
  exact Within.refl

theorem State.stageTasks_within (s : State) (k : Cohort) (i : Nat) (p : Piece) :
    Within [.sch] s (State.stageTasks s k i p) := by
  unfold State.stageTasks
  refine Within.foldl ?_ (fun _ _ => ?_)
  · exact Within.refl
  · refine Within.foldl ?_ (fun _ _ => ?_)
    · exact Within.refl
    · extract_lets -useContext 
      refine Within.ite (fun _ => ?_) (fun _ => ?_)
      · exact Within.refl
      · refine Within.andThen (State.addTask_within ..) (by decide) ?_
        exact Within.refl

theorem State.startStage_within (s : State) (slot : Nat) (i : Nat) :
    Within [.regs, .sch, .fl, .gen] s (State.startStage s slot i) := by
  unfold State.startStage
  split
  · exact Within.refl
  · split
    · exact Within.refl
    · extract_lets -useContext _ x2 x3
      refine Within.have_ (t := x2) ?_ (fun h2 => ?_)
      · subst x2
        refine Within.ite (fun _ => ?_) (fun _ => ?_)
        · refine Within.andThen (State.startMcasts_within ..) (by decide) ?_
          exact Within.refl
        · exact Within.refl
      refine Within.have_ (t := x3) ?_ (fun h3 => ?_)
      · subst x3
        refine Within.andThen (State.updPiece_within ..) (by decide) ?_
        exact h2
      refine Within.ite (fun _ => ?_) (fun _ => ?_)
      · refine Within.andThen (State.updPiece_within ..) (by decide) ?_
        exact Within.refl
      · refine Within.ite (fun _ => ?_) (fun _ => ?_)
        · refine Within.andThen (State.attnFull_within ..) (by decide) ?_
          refine Within.foldl ?_ (fun _ _ => ?_)
          · exact h3
          · refine Within.andThen (State.openAttn_within ..) (by decide) ?_
            exact Within.refl
        · refine Within.ite (fun _ => ?_) (fun _ => ?_)
          · refine Within.foldl ?_ (fun _ _ => ?_)
            · exact h3
            · refine Within.andThen (State.addTask_within ..) (by decide) ?_
              exact Within.refl
          · refine Within.andThen (State.stageTasks_within ..) (by decide) ?_
            exact h3

theorem State.weightTraffic_within (s : State) (func : Nat) (w : WeightRef) :
    Within [.mm, .sch] s (State.weightTraffic s func w) := by
  unfold State.weightTraffic
  extract_lets -useContext 
  refine Within.andThen (State.hTraffic_within ..) (by decide) ?_
  exact Within.refl

theorem State.stageTraffic_within (s : State) (k : Cohort) (p : Piece) (chunk : Nat) (c : Nat) :
    Within [.mm, .sch] s (State.stageTraffic s k p chunk c) := by
  unfold State.stageTraffic
  refine Within.ite (fun _ => ?_) (fun _ => ?_)
  · refine Within.foldl ?_ (fun _ _ => ?_)
    · exact Within.refl
    · refine Within.andThen (State.weightTraffic_within ..) (by decide) ?_
      exact Within.refl
  · refine Within.ite (fun _ => ?_) (fun _ => ?_)
    · refine Within.ite (fun _ => ?_) (fun _ => ?_)
      · refine Within.andThen (State.weightTraffic_within ..) (by decide) ?_
        exact Within.refl
      · refine Within.ite (fun _ => ?_) (fun _ => ?_)
        · refine Within.andThen (State.weightTraffic_within ..) (by decide) ?_
          exact Within.refl
        · refine Within.ite (fun _ => ?_) (fun _ => ?_)
          · refine Within.andThen (State.weightTraffic_within ..) (by decide) ?_
            exact Within.refl
          · exact Within.refl
    · exact Within.refl

theorem State.stageDone_within (s : State) (slot : Nat) (i : Nat) (chunk : Nat) (c : Nat) :
    Within [.regs, .mm, .sch, .gen] s (State.stageDone s slot i chunk c) := by
  unfold State.stageDone
  split
  · exact Within.refl
  · split
    · exact Within.refl
    · extract_lets -useContext _ _ _ _ x5 x6 x7
      refine Within.have_ (t := x5) ?_ (fun h5 => ?_)
      · subst x5
        refine Within.andThen (State.updPiece_within ..) (by decide) ?_
        exact Within.refl
      refine Within.have_ (t := x6) ?_ (fun h6 => ?_)
      · subst x6
        refine Within.andThen (State.updCohort_within ..) (by decide) ?_
        exact h5
      refine Within.have_ (t := x7) ?_ (fun h7 => ?_)
      · subst x7
        refine Within.ite (fun _ => ?_) (fun _ => ?_)
        · refine Within.andThen (State.tally_within ..) (by decide) ?_
          refine Within.ite (fun _ => ?_) (fun _ => ?_)
          · refine Within.andThen (State.count_within ..) (by decide) ?_
            exact h6
          · exact h6
        · refine Within.andThen (State.updPiece_within ..) (by decide) ?_
          exact Within.refl
      refine Within.andThen (State.releaseBlock_within ..) (by decide) ?_
      refine Within.andThen (State.measured_within ..) (by decide) ?_
      refine Within.andThen (State.arrayBusy_within ..) (by decide) ?_
      refine Within.andThen (State.stageTraffic_within ..) (by decide) ?_
      refine Within.andThen (State.tally_within ..) (by decide) ?_
      exact h7

theorem State.sampleDone_within (s : State) (slot : Nat) (e : Nat) :
    Within [.gen] s (State.sampleDone s slot e) := by
  unfold State.sampleDone
  split
  · exact Within.refl
  · split
    · split
      · extract_lets -useContext _ _ x3
        refine Within.have_ (t := x3) ?_ (fun h3 => ?_)
        · subst x3
          refine Within.andThen (State.updEntry_within ..) (by decide) ?_
          exact Within.refl
        refine Within.ite (fun _ => ?_) (fun _ => ?_)
        · refine Within.andThen (State.updPiece_within ..) (by decide) ?_
          exact h3
        · exact h3
      · exact Within.refl
    · exact Within.refl

theorem State.readyTasks_within (s : State) (slot : Nat) (island : Nat) :
    Within [.sch] s (State.readyTasks s slot island) := by
  unfold State.readyTasks
  split
  · exact Within.refl
  · refine Within.set_sch (by decide) ?_
    exact Within.refl

theorem execWeightTileLanded_within {island : Nat} {t0 : TileRef} {s : State} {t : State}
    (h : execWeightTileLanded island t0 s = .next t) : Within [.mm, .sch, .gen] s t := by
  unfold execWeightTileLanded at h
  obtain rfl := Host.Outcome.next.inj h
  split
  · exact Within.refl
  · extract_lets -useContext _ _ _ x4 _ x6
    refine Within.have_ (t := x4) ?_ (fun h4 => ?_)
    · subst x4
      refine Within.andThen (State.updCohort_within ..) (by decide) ?_
      exact Within.refl
    refine Within.have_ (t := x6) ?_ (fun h6 => ?_)
    · subst x6
      refine Within.ite (fun _ => ?_) (fun _ => ?_)
      · refine Within.andThen (State.weightTraffic_within ..) (by decide) ?_
        exact h4
      · exact h4
    refine Within.ite (fun _ => ?_) (fun _ => ?_)
    · exact Within.refl
    · refine Within.andThen (State.readyTasks_within ..) (by decide) ?_
      refine Within.andThen (State.measured_within ..) (by decide) ?_
      exact h6

theorem State.queueHandle_within (s : State) (consumer : Nat) (stage : Nat) (b : BufHandle) :
    Within [.gen] s (State.queueHandle s consumer stage b) := by
  unfold State.queueHandle
  extract_lets -useContext 
  refine Within.set_gen (by decide) ?_
  exact Within.refl

theorem State.pushHandle_within (s : State) (consumer : Nat) (b : BufHandle) (i : Nat) :
    Within [.regs, .sch, .fl, .gen] s (State.pushHandle s consumer b i) := by
  unfold State.pushHandle
  split
  · exact Within.refl
  · extract_lets -useContext _ x2 _ x4 _ x6
    refine Within.have_ (t := x2) ?_ (fun h2 => ?_)
    · subst x2
      refine Within.andThen (State.queueHandle_within ..) (by decide) ?_
      exact Within.refl
    refine Within.have_ (t := x4) ?_ (fun h4 => ?_)
    · subst x4
      refine Within.set_gen (by decide) ?_
      exact h2
    refine Within.have_ (t := x6) ?_ (fun h6 => ?_)
    · subst x6
      refine Within.andThen (State.updPiece_within ..) (by decide) ?_
      exact h4
    refine Within.ite (fun _ => ?_) (fun _ => ?_)
    · refine Within.andThen (State.startStage_within ..) (by decide) ?_
      refine Within.andThen (State.updPiece_within ..) (by decide) ?_
      exact h4
    · split
      · refine Within.ite (fun _ => ?_) (fun _ => ?_)
        · refine Within.andThen (State.stageTasks_within ..) (by decide) ?_
          exact h6
        · exact h6
      · exact h6

theorem State.redone_within (s : State) (slot : Nat) (i : Nat) (st : Nat) (layer : Nat) (ch : Nat) (c : Nat) :
    Within [.gen] s (State.redone s slot i st layer ch c) := by
  unfold State.redone
  extract_lets -useContext x1
  refine Within.have_ (t := x1) ?_ (fun h1 => ?_)
  · subst x1
    refine Within.andThen (State.updPiece_within ..) (by decide) ?_
    exact Within.refl
  split
  · exact h1
  · refine Within.ite (fun _ => ?_) (fun _ => ?_)
    · exact h1
    · refine Within.foldl ?_ (fun _ _ => ?_)
      · refine Within.andThen (State.updPiece_within ..) (by decide) ?_
        exact h1
      · refine Within.andThen (State.queueHandle_within ..) (by decide) ?_
        exact Within.refl

theorem State.failEntries_within (s : State) (slot : Nat) (status : Nat) :
    Within [.regs, .sch, .ar, .gen] s (State.failEntries s slot status) := by
  unfold State.failEntries
  refine Within.andThen (State.updCohort_within ..) (by decide) ?_
  refine Within.andThen (State.dropTasks_within ..) (by decide) ?_
  exact Within.refl

theorem State.endTooLarge_within (s : State) (slot : Nat) :
    Within [.outbox, .fresh, .regs, .mem, .mm, .sch, .cmd, .zwx, .fl, .ar, .kv, .gen] s (State.endTooLarge s slot) := by
  unfold State.endTooLarge
  split
  · exact Within.refl
  · split
    · refine Within.andThen (State.complete_within ..) (by decide) ?_
      refine Within.andThen (State.discardStep_within ..) (by decide) ?_
      exact Within.refl
    · refine Within.andThen (State.failEntries_within ..) (by decide) ?_
      exact Within.refl

theorem execSwap_within {consumer : Nat} {b : BufHandle} {s : State} {t : State}
    (h : execSwap consumer b s = .next t) : Within [.outbox, .fresh, .regs, .mem, .mm, .sch, .cmd, .zwx, .fl, .ar, .kv, .gen] s t := by
  unfold execSwap at h
  obtain rfl := Host.Outcome.next.inj h
  refine Within.ite (fun _ => ?_) (fun _ => ?_)
  · exact Within.refl
  · extract_lets -useContext x1
    refine Within.have_fn2 (f := x1) (fun _ _ => ?_) (fun h1 => ?_)
    · subst x1
      beta_reduce
      refine Within.set_gen (by decide) ?_
      exact Within.refl
    split
    · exact Within.refl
    · refine Within.trans ?_ (h1 ..)
      refine Within.andThen (State.count_within ..) (by decide) ?_
      exact Within.refl
    · refine Within.trans ?_ (h1 ..)
      refine Within.andThen (State.count_within ..) (by decide) ?_
      exact Within.refl
    · refine Within.andThen (State.endTooLarge_within ..) (by decide) ?_
      exact Within.refl
    · refine Within.andThen (State.pushHandle_within ..) (by decide) ?_
      exact Within.refl

theorem State.retrySwaps_within (s : State) :
    Within [.regs, .sch, .fl, .gen] s (State.retrySwaps s) := by
  unfold State.retrySwaps
  refine Within.foldl ?_ (fun _ _ => ?_)
  · exact Within.refl
  · split
    · refine Within.andThen (State.pushHandle_within ..) (by decide) ?_
      refine Within.set_gen (by decide) ?_
      exact Within.refl
    · refine Within.set_gen (by decide) ?_
      exact Within.refl
    · refine Within.ite (fun _ => ?_) (fun _ => ?_)
      · exact Within.refl
      · refine Within.andThen (State.count_within ..) (by decide) ?_
        refine Within.set_gen (by decide) ?_
        exact Within.refl
    · exact Within.refl

theorem execHandleReturn_within {consumer : Nat} {stage : Nat} {b : BufHandle} {s : State} {t : State}
    (h : execHandleReturn consumer stage b s = .next t) : Within [.regs, .sch, .fl, .gen] s t := by
  unfold execHandleReturn at h
  obtain rfl := Host.Outcome.next.inj h
  refine Within.ite (fun _ => ?_) (fun _ => ?_)
  · extract_lets -useContext 
    refine Within.andThen (State.retrySwaps_within ..) (by decide) ?_
    refine Within.set_gen (by decide) ?_
    exact Within.refl
  · exact Within.refl

theorem State.logTokens_within (s : State) (k : Cohort) (e : Nat) (x : CEntry) :
    Within [.fresh, .regs, .mem, .mm, .sch, .fl] s (State.logTokens s k e x) := by
  unfold State.logTokens
  split
  · exact Within.refl
  · refine Within.foldl ?_ (fun _ _ => ?_)
    · exact Within.refl
    · refine Within.andThen (State.hPut_within ..) (by decide) ?_
      exact Within.refl

theorem execKvAppend_within {slot : Nat} {entry : Nat} {layer : Nat} {s : State} {t : State}
    (h : execKvAppend slot entry layer s = .next t) : Within [.outbox, .fresh, .regs, .mem, .mm, .sch, .zwx, .fl, .kv, .gen] s t := by
  unfold execKvAppend at h
  obtain rfl := Host.Outcome.next.inj h
  split
  · exact Within.refl
  · split
    · exact Within.refl
    · extract_lets -useContext _ _ _ x4 x5
      refine Within.have_ (t := x4) ?_ (fun h4 => ?_)
      · subst x4
        refine Within.foldl ?_ (fun _ _ => ?_)
        · exact Within.refl
        · refine Within.andThen (State.appendRow_within ..) (by decide) ?_
          exact Within.refl
      refine Within.have_ (t := x5) ?_ (fun h5 => ?_)
      · subst x5
        refine Within.ite (fun _ => ?_) (fun _ => ?_)
        · refine Within.andThen (State.logTokens_within ..) (by decide) ?_
          exact h4
        · exact h4
      refine Within.ite (fun _ => ?_) (fun _ => ?_)
      · exact Within.refl
      · refine Within.andThen (State.updCohort_within ..) (by decide) ?_
        refine Within.andThen (State.measured_within ..) (by decide) ?_
        exact h5

end Sys2Proof.Machine
end

