-- ==== Sys2Proof/Laws/Boundary.lean ====
section
/-! SUPPORT. For each operation of Machine/Boundary.lean: the fields it may change, that it keeps the invariant, and that the watch clock does not go back. -/

namespace Sys2Proof.Machine

set_option linter.all false
set_option Elab.async false

theorem State.closeSeqs_within (s : State) :
    Within [.outbox, .fresh, .regs, .mem, .mm, .sch, .cmd, .zwx, .fl, .kv, .gen] s (State.closeSeqs s) := by
  unfold State.closeSeqs
  refine Within.foldl ?_ (fun _ _ => ?_)
  · exact Within.refl
  · extract_lets -useContext x1
    refine Within.have_ (t := x1) ?_ (fun h1 => ?_)
    · subst x1
      refine Within.andThen (State.freeSeq_within ..) (by decide) ?_
      refine Within.andThen (State.endSeq_within ..) (by decide) ?_
      exact Within.refl
    split
    · refine Within.andThen (State.complete_within ..) (by decide) ?_
      exact h1
    · exact h1

theorem State.boundaryWork_within (s : State) :
    Within [.outbox, .fresh, .regs, .mem, .mm, .sch, .cmd, .zwx, .fl, .kv, .gen] s (State.boundaryWork s) := by
  unfold State.boundaryWork
  extract_lets -useContext x1
  refine Within.have_ (t := x1) ?_ (fun h1 => ?_)
  · subst x1
    refine Within.andThen (State.closeSeqs_within ..) (by decide) ?_
    exact Within.refl
  refine Within.andThen (State.switchRelocs_within ..) (by decide) ?_
  refine Within.set_kv_gen (by decide) ?_
  exact h1

theorem State.seqFull_within (s : State) (q : Seq) (c : FullCause) :
    Within [.outbox, .regs, .mm, .sch, .cmd, .gen] s (State.seqFull s q c) := by
  unfold State.seqFull
  refine Within.andThen (State.endSeq_within ..) (by decide) ?_
  refine Within.andThen (State.quotaFull_within ..) (by decide) ?_
  exact Within.refl

theorem State.seqServed_within (s : State) (q : Seq) :
    Within [.outbox, .zwx, .gen] s (State.seqServed s q) := by
  unfold State.seqServed
  extract_lets -useContext x1
  refine Within.have_ (t := x1) ?_ (fun h1 => ?_)
  · subst x1
    refine Within.andThen (State.updSeq_within ..) (by decide) ?_
    exact Within.refl
  split
  · refine Within.andThen (State.sendHold_within ..) (by decide) ?_
    exact h1
  · exact h1

theorem State.allocResult_within (s : State) (q : Seq) (pos0 : Nat) (qlen : Nat) (rs : List Made) (incl : Bool) :
    Within [.outbox, .regs, .mm, .sch, .cmd, .zwx, .gen] s (State.allocResult s q pos0 qlen rs incl).1 := by
  unfold State.allocResult
  split
  · refine Within.andThen (State.seqFull_within ..) (by decide) ?_
    exact Within.refl
  · extract_lets -useContext _ x2
    refine Within.have_ (t := x2) ?_ (fun h2 => ?_)
    · subst x2
      refine Within.andThen (State.updSeq_within ..) (by decide) ?_
      exact Within.refl
    refine Within.ite_fst (fun _ => ?_) (fun _ => ?_)
    · refine Within.andThen (State.seqServed_within ..) (by decide) ?_
      exact Within.refl
    · refine Within.ite_fst (fun _ => ?_) (fun _ => ?_)
      · refine Within.andThen (State.seqFull_within ..) (by decide) ?_
        exact Within.refl
      · refine Within.ite (fun _ => ?_) (fun _ => ?_)
        · exact h2
        · refine Within.andThen (State.count_within ..) (by decide) ?_
          exact h2

theorem State.allocEntry_within (s : State) (ctx : Nat) (x : CEntry) :
    Within [.outbox, .fresh, .regs, .mem, .mm, .sch, .cmd, .zwx, .fl, .kv, .gen] s (State.allocEntry s ctx x).1 := by
  unfold State.allocEntry
  split
  · extract_lets -useContext _ x2
    refine Within.have_ (t := x2.1) ?_ (fun h2 => ?_)
    · subst x2
      with_reducible refine Within.andThen (State.makePages_within ..) (by decide) ?_
      exact Within.refl
    refine Within.ite_fst (fun _ => ?_) (fun _ => ?_)
    · refine Within.andThen (State.count_within ..) (by decide) ?_
      exact Within.refl
    · with_reducible refine Within.andThen (State.allocResult_within ..) (by decide) ?_
      exact h2
  · refine Within.andThen (State.seqFull_within ..) (by decide) ?_
    exact Within.refl
  · exact Within.refl

theorem State.retryWaits_within (s : State) (skip : List Nat) :
    Within [.outbox, .fresh, .regs, .mem, .mm, .sch, .cmd, .zwx, .fl, .kv, .gen] s (State.retryWaits s skip) := by
  unfold State.retryWaits
  extract_lets -useContext 
  refine Within.foldl ?_ (fun _ _ => ?_)
  · exact Within.refl
  · split
    · extract_lets -useContext x2
      refine Within.have_ (t := x2.1) ?_ (fun h2 => ?_)
      · subst x2
        with_reducible refine Within.andThen (State.makePages_within ..) (by decide) ?_
        exact Within.refl
      with_reducible refine Within.andThen (State.allocResult_within ..) (by decide) ?_
      exact h2
    · exact Within.refl

theorem State.allocStep_within (ctx : Nat) (r : State × List CEntry) (x : CEntry) :
    Within [.outbox, .fresh, .regs, .mem, .mm, .sch, .cmd, .zwx, .fl, .kv, .gen] r.1 (State.allocStep ctx r x).1 := by
  obtain ⟨y, z⟩ := r
  unfold State.allocStep
  refine Within.ite_fst (fun _ => ?_) (fun _ => ?_)
  · exact Within.refl
  · with_reducible refine Within.andThen (State.allocEntry_within ..) (by decide) ?_
    exact Within.refl

theorem State.noteLevels_within (s : State) (es : List CEntry) :
    Within [.regs, .gen] s (State.noteLevels s es) := by
  unfold State.noteLevels
  extract_lets -useContext _ x2 x3
  refine Within.have_ (t := x2) ?_ (fun h2 => ?_)
  · subst x2
    refine Within.ite (fun _ => ?_) (fun _ => ?_)
    · refine Within.andThen (State.count_within ..) (by decide) ?_
      exact Within.refl
    · exact Within.refl
  refine Within.have_ (t := x3) ?_ (fun h3 => ?_)
  · subst x3
    refine Within.ite (fun _ => ?_) (fun _ => ?_)
    · refine Within.andThen (State.count_within ..) (by decide) ?_
      exact h2
    · exact h2
  refine Within.foldl ?_ (fun _ _ => ?_)
  · exact h3
  · refine Within.ite (fun _ => ?_) (fun _ => ?_)
    · refine Within.andThen (State.updSeq_within ..) (by decide) ?_
      exact Within.refl
    · exact Within.refl

theorem State.openCohort_within (s : State) (chan : Nat) (flow : Option Nat) (func : Nat) (ctx : Nat) (cmd : Option CmdRef) (c : KvCtx) (es1 : List CEntry) (dl : CEntry → Nat) (fb : CEntry → Nat) :
    Within [.regs, .sch, .fl, .gen] s (State.openCohort s chan flow func ctx cmd c es1 dl fb) := by
  unfold State.openCohort
  extract_lets -useContext y1 x2 _ _ _ _ _ _ _ x10
  clear_value y1
  refine Within.have_ (t := x2) ?_ (fun h2 => ?_)
  · subst x2
    refine Within.ite (fun _ => ?_) (fun _ => ?_)
    · refine Within.andThen (State.count_within ..) (by decide) ?_
      exact Within.refl
    · exact Within.refl
  refine Within.have_ (t := x10) ?_ (fun h10 => ?_)
  · subst x10
    refine Within.set_gen (by decide) ?_
    exact h2
  refine Within.foldl ?_ (fun _ _ => ?_)
  · refine Within.andThen (State.noteLevels_within ..) (by decide) ?_
    exact h10
  · refine Within.andThen (State.startStage_within ..) (by decide) ?_
    exact Within.refl

theorem State.openStep_within (s : State) (chan : Nat) (flow : Option Nat) (func : Nat) (ctx : Nat) (cmd : Option CmdRef) (es : List CEntry) (dl : CEntry → Nat) (fb : CEntry → Nat) :
    Within [.outbox, .fresh, .regs, .mem, .mm, .sch, .cmd, .zwx, .fl, .kv, .gen] s (State.openStep s chan flow func ctx cmd es dl fb) := by
  unfold State.openStep
  extract_lets -useContext _ x2 _ x4 x5 _ _ _ x9
  refine Within.have_ (t := x2) ?_ (fun h2 => ?_)
  · subst x2
    refine Within.set_gen (by decide) ?_
    exact Within.refl
  refine Within.have_ (t := x4.1) ?_ (fun h4 => ?_)
  · subst x4
    refine Within.foldl_fst ?_ (fun _ _ => ?_)
    · exact h2
    · with_reducible refine Within.andThen (State.allocStep_within ..) (by decide) ?_
      exact Within.refl
  refine Within.have_ (t := x5) ?_ (fun h5 => ?_)
  · subst x5
    refine Within.andThen (State.retryWaits_within ..) (by decide) ?_
    exact h4
  refine Within.have_ (t := x9) ?_ (fun h9 => ?_)
  · subst x9
    refine Within.foldl ?_ (fun _ _ => ?_)
    · exact h5
    · refine Within.andThen (State.sendHold_within ..) (by decide) ?_
      exact Within.refl
  refine Within.ite (fun _ => ?_) (fun _ => ?_)
  · exact h9
  · refine Within.andThen (State.openCohort_within ..) (by decide) ?_
    exact h9

theorem State.openStepCmd_within (s : State) (r : CmdRef) :
    Within [.outbox, .fresh, .regs, .mem, .mm, .sch, .cmd, .zwx, .fl, .kv, .gen] s (State.openStepCmd s r) := by
  unfold State.openStepCmd
  extract_lets -useContext _ x2
  refine Within.have_ (t := x2) ?_ (fun h2 => ?_)
  · subst x2
    refine Within.set_gen (by decide) ?_
    exact Within.refl
  split
  · exact h2
  · extract_lets -useContext 
    split
    · refine Within.andThen (State.complete_within ..) (by decide) ?_
      exact h2
    · refine Within.andThen (State.openStep_within ..) (by decide) ?_
      exact h2

theorem State.openFlow_within (s : State) (chan : Nat) (c : Nat) :
    Within [.outbox, .fresh, .regs, .mem, .mm, .sch, .cmd, .zwx, .fl, .kv, .gen] s (State.openFlow s chan c) := by
  unfold State.openFlow
  split
  · exact Within.refl
  · extract_lets -useContext 
    refine Within.andThen (State.openStep_within ..) (by decide) ?_
    exact Within.refl

theorem execStepBoundary_within {s : State} {t : State}
    (h : execStepBoundary s = .next t) : Within [.outbox, .fresh, .regs, .mem, .mm, .sch, .cmd, .zwx, .fl, .kv, .gen] s t := by
  unfold execStepBoundary at h
  obtain rfl := Host.Outcome.next.inj h
  refine Within.ite (fun _ => ?_) (fun _ => ?_)
  · exact Within.refl
  · extract_lets -useContext x1
    refine Within.have_ (t := x1) ?_ (fun h1 => ?_)
    · subst x1
      refine Within.andThen (State.boundaryWork_within ..) (by decide) ?_
      exact Within.refl
    refine Within.ite (fun _ => ?_) (fun _ => ?_)
    · exact h1
    · split
      · exact h1
      · split
        · refine Within.andThen (State.openFlow_within ..) (by decide) ?_
          exact h1
        · split
          · refine Within.andThen (State.openStepCmd_within ..) (by decide) ?_
            exact h1
          · exact h1

theorem State.commitEntry_within (s : State) (k : Cohort) (e : Nat) (x : CEntry) :
    Within [.outbox, .fresh, .regs, .mem, .mm, .sch, .cmd, .fl, .gen] s (State.commitEntry s k e x) := by
  unfold State.commitEntry
  split
  · exact Within.refl
  · extract_lets -useContext _ _ x3 x4 x5 x6 y7
    clear_value y7
    refine Within.have_ (t := x3) ?_ (fun h3 => ?_)
    · subst x3
      refine Within.ite (fun _ => ?_) (fun _ => ?_)
      · exact Within.refl
      · refine Within.ite (fun _ => ?_) (fun _ => ?_)
        · refine Within.andThen (State.hPut_within ..) (by decide) ?_
          exact Within.refl
        · refine Within.andThen (State.hPut_within ..) (by decide) ?_
          exact Within.refl
    refine Within.have_ (t := x4) ?_ (fun h4 => ?_)
    · subst x4
      refine Within.ite (fun _ => ?_) (fun _ => ?_)
      · refine Within.andThen (State.hPut_within ..) (by decide) ?_
        exact h3
      · exact h3
    refine Within.have_ (t := x5) ?_ (fun h5 => ?_)
    · subst x5
      refine Within.andThen (State.updSeq_within ..) (by decide) ?_
      exact h4
    refine Within.have_ (t := x6) ?_ (fun h6 => ?_)
    · subst x6
      split
      · refine Within.andThen (State.updLive_within ..) (by decide) ?_
        exact h5
      · exact h5
    refine Within.ite (fun _ => ?_) (fun _ => ?_)
    · exact h6
    · split
      · refine Within.andThen (State.endSeq_within ..) (by decide) ?_
        exact h6
      · exact h6

theorem State.stepReport_within (s : State) (k : Cohort) (c : Nat) :
    Within [.outbox] s (State.stepReport s k c) := by
  unfold State.stepReport
  extract_lets -useContext 
  refine Within.andThen (State.emits_within ..) (by decide) ?_
  exact Within.refl

theorem State.closeEntry_within (s : State) (k : Cohort) (i : Nat) (x : CEntry) :
    Within [.outbox, .fresh, .regs, .mem, .mm, .sch, .cmd, .fl, .gen] s (State.closeEntry s k i x) := by
  unfold State.closeEntry
  refine Within.ite (fun _ => ?_) (fun _ => ?_)
  · refine Within.andThen (State.commitEntry_within ..) (by decide) ?_
    exact Within.refl
  · extract_lets -useContext x1
    refine Within.have_ (t := x1) ?_ (fun h1 => ?_)
    · subst x1
      refine Within.ite (fun _ => ?_) (fun _ => ?_)
      · refine Within.andThen (State.hPut_within ..) (by decide) ?_
        exact Within.refl
      · exact Within.refl
    refine Within.ite (fun _ => ?_) (fun _ => ?_)
    · refine Within.andThen (State.endSeq_within ..) (by decide) ?_
      exact h1
    · exact h1

theorem State.countStep_within (s : State) (k : Cohort) (late : Nat) :
    Within [.regs, .mgmt] s (State.countStep s k late) := by
  unfold State.countStep
  extract_lets -useContext _ _ x3 x4 x5
  refine Within.have_ (t := x3) ?_ (fun h3 => ?_)
  · subst x3
    refine Within.andThen (State.count_within ..) (by decide) ?_
    exact Within.refl
  refine Within.have_ (t := x4) ?_ (fun h4 => ?_)
  · subst x4
    refine Within.ite (fun _ => ?_) (fun _ => ?_)
    · refine Within.andThen (State.countRate_within ..) (by decide) ?_
      exact h3
    · exact h3
  refine Within.have_ (t := x5) ?_ (fun h5 => ?_)
  · subst x5
    refine Within.ite (fun _ => ?_) (fun _ => ?_)
    · refine Within.andThen (State.count_within ..) (by decide) ?_
      exact h4
    · exact h4
  refine Within.ite (fun _ => ?_) (fun _ => ?_)
  · refine Within.andThen (State.count_within ..) (by decide) ?_
    exact h5
  · exact h5

theorem State.keepRef_within (s : State) (k : Cohort) :
    Within [.gen] s (State.keepRef s k) := by
  unfold State.keepRef
  extract_lets -useContext 
  refine Within.set_gen (by decide) ?_
  exact Within.refl

theorem State.answerStep_within (s : State) (k : Cohort) :
    Within [.outbox, .regs, .mm, .sch, .cmd] s (State.answerStep s k) := by
  unfold State.answerStep
  split
  · refine Within.andThen (State.stepReport_within ..) (by decide) ?_
    exact Within.refl
  · split
    · refine Within.andThen (State.complete_within ..) (by decide) ?_
      exact Within.refl
    · exact Within.refl

theorem State.onStepCommit_within (s : State) (slot : Nat) :
    Within [.outbox, .fresh, .regs, .mem, .mm, .sch, .cmd, .zwx, .fl, .mgmt, .ar, .kv, .gen] s (State.onStepCommit s slot) := by
  unfold State.onStepCommit
  split
  · exact Within.refl
  · refine Within.ite (fun _ => ?_) (fun _ => ?_)
    · exact Within.refl
    · extract_lets -useContext _ _ x3
      refine Within.have_ (t := x3) ?_ (fun h3 => ?_)
      · subst x3
        refine Within.foldl ?_ (fun _ _ => ?_)
        · refine Within.andThen (State.updCohort_within ..) (by decide) ?_
          exact Within.refl
        · refine Within.andThen (State.closeEntry_within ..) (by decide) ?_
          exact Within.refl
      refine Within.andThen (State.settleSpills_within ..) (by decide) ?_
      refine Within.andThen (State.clearCohort_within ..) (by decide) ?_
      refine Within.andThen (State.answerStep_within ..) (by decide) ?_
      refine Within.andThen (State.keepRef_within ..) (by decide) ?_
      refine Within.andThen (State.countStep_within ..) (by decide) ?_
      exact h3

theorem execStepCommit_within {slot : Nat} {s : State} {t : State}
    (h : execStepCommit slot s = .next t) : Within [.outbox, .fresh, .regs, .mem, .mm, .sch, .cmd, .zwx, .fl, .mgmt, .ar, .kv, .gen] s t := by
  unfold execStepCommit at h
  obtain rfl := Host.Outcome.next.inj h
  refine Within.andThen (State.onStepCommit_within ..) (by decide) ?_
  exact Within.refl

theorem State.bindBack_within (s : State) (ctx : Nat) (c : KvCtx) (p : PageRef) (w0 : Nat) (pool : Nat) (frame : Nat) :
    Within [.fresh, .regs, .mem, .mm, .sch, .fl, .kv] s (State.bindBack s ctx c p w0 pool frame) := by
  unfold State.bindBack
  extract_lets -useContext x1 x2
  refine Within.have_ (t := x1) ?_ (fun h1 => ?_)
  · subst x1
    refine Within.andThen (State.setPage_within ..) (by decide) ?_
    exact Within.refl
  refine Within.have_ (t := x2) ?_ (fun h2 => ?_)
  · subst x2
    refine Within.ite (fun _ => ?_) (fun _ => ?_)
    · refine Within.andThen (State.freeSpill_within ..) (by decide) ?_
      exact h1
    · exact h1
  refine Within.ite (fun _ => ?_) (fun _ => ?_)
  · refine Within.andThen (State.ageAdd_within ..) (by decide) ?_
    exact h2
  · exact h2

theorem State.reframe_within {s0 : State} {ctx : Nat} {p : PageRef} {t : State}
    (h : State.reframe s0 ctx p = some t) : Within [.fresh, .regs, .mem, .mm, .sch, .fl, .kv] s0 t := by
  unfold State.reframe at h
  split at h
  · exact nomatch h
  · rename_i s c hm
    obtain ⟨u, hu, hk⟩ := Option.bind_eq_some_iff.1 hm
    obtain ⟨_, -, hc⟩ := Option.map_eq_some_iff.1 hk
    obtain ⟨rfl, -⟩ := Prod.mk.inj hc
    have h1 := State.makeLeaf_within hu
    extract_lets at h
    split at h
    · obtain rfl := Option.some.inj h
      exact Within.mono h1 (by decide)
    · split at h
      · obtain rfl := Option.some.inj h
        refine Within.andThen (State.bindBack_within ..) (by decide) ?_
        exact Within.andThen (State.takeFrame_within (by assumption)) (by decide) (Within.mono h1 (by decide))
      · split at h
        · exact nomatch h
        · split at h
          · exact nomatch h
          · split at h
            · exact nomatch h
            · obtain rfl := Option.some.inj h
              refine Within.andThen (State.bindBack_within ..) (by decide) ?_
              refine Within.andThen (State.takeFrame_within (by assumption)) (by decide) ?_
              exact Within.andThen (State.dropPage_within ..) (by decide) (Within.mono h1 (by decide))

theorem State.redoStage_within (s : State) (st : Nat) (layer : Nat) :
    Within [.regs, .mm, .sch, .gen] s (State.redoStage s st layer) := by
  unfold State.redoStage
  refine Within.foldl ?_ (fun _ _ => ?_)
  · exact Within.refl
  · extract_lets -useContext x1
    refine Within.have_ (t := x1) ?_ (fun h1 => ?_)
    · subst x1
      refine Within.andThen (State.updPiece_within ..) (by decide) ?_
      exact Within.refl
    split
    · exact h1
    · refine Within.foldl ?_ (fun _ _ => ?_)
      · exact h1
      · refine Within.foldl ?_ (fun _ _ => ?_)
        · exact Within.refl
        · refine Within.andThen (State.stageDone_within ..) (by decide) ?_
          exact Within.refl

theorem State.redoGroup_within (s : State) (c : KvCtx) (k : Cohort) (x : CEntry) (layer : Nat) (g : Nat) :
    Within [.fresh, .regs, .mm, .sch, .kv, .gen] s (State.redoGroup s c k x layer g).1 := by
  unfold State.redoGroup
  extract_lets -useContext _ _ x3 _ _ _ _ _ x9
  refine Within.have_ (t := x3.1) ?_ (fun h3 => ?_)
  · subst x3
    refine Within.set_fresh (by decide) ?_
    exact Within.refl
  refine Within.have_ (t := x9) ?_ (fun h9 => ?_)
  · subst x9
    refine Within.ite (fun _ => ?_) (fun _ => ?_)
    · refine Within.andThen (State.count_within ..) (by decide) ?_
      exact Within.refl
    · refine Within.andThen (State.countChoice_within ..) (by decide) ?_
      exact Within.refl
  split
  · exact Within.refl
  · split
    · exact h3
    · split
      · exact Within.refl
      · extract_lets -useContext _ _ _ _ x14 x15
        refine Within.have_ (t := x14) ?_ (fun h14 => ?_)
        · subst x14
          refine Within.foldl ?_ (fun _ _ => ?_)
          · exact h9
          · refine Within.foldl ?_ (fun _ _ => ?_)
            · exact Within.refl
            · refine Within.andThen (State.splitTraffic_within ..) (by decide) ?_
              exact Within.refl
        refine Within.have_ (t := x15) ?_ (fun h15 => ?_)
        · subst x15
          refine Within.andThen (State.count_within ..) (by decide) ?_
          refine Within.andThen (State.count_within ..) (by decide) ?_
          refine Within.foldl ?_ (fun _ _ => ?_)
          · exact h14
          · refine Within.andThen (State.countBlocks_within ..) (by decide) ?_
            exact Within.refl
        refine Within.ite_fst (fun _ => ?_) (fun _ => ?_)
        · exact h3
        · refine Within.andThen (State.takeFar_within ..) (by decide) ?_
          exact h15

theorem State.redoAttn_within (s : State) (c : KvCtx) (x : CEntry) (layer : Nat) :
    Within [.fresh, .regs, .mm, .sch, .kv, .gen] s (State.redoAttn s c x layer).1 := by
  unfold State.redoAttn
  refine Within.foldl_fst ?_ (fun _ _ => ?_)
  · exact Within.refl
  · split
    · extract_lets -useContext 
      refine Within.ite_fst (fun _ => ?_) (fun _ => ?_)
      · exact Within.refl
      · split
        · refine Within.andThen (State.updCohort_within ..) (by decide) ?_
          refine Within.fst ?_ (by assumption)
          with_reducible refine Within.andThen (State.redoGroup_within ..) (by decide) ?_
          exact Within.refl
        · refine Within.fst ?_ (by assumption)
          with_reducible refine Within.andThen (State.redoGroup_within ..) (by decide) ?_
          exact Within.refl
    · exact Within.refl

theorem State.redoRows_within (s : State) (c : KvCtx) (q : Seq) (p : PageRef) (n : Nat) :
    Within [.fresh, .regs, .mm, .sch, .kv, .gen] s (State.redoRows s c q p n).1 := by
  unfold State.redoRows
  extract_lets -useContext _ _ _ _ x5 x6
  refine Within.have_ (t := x5) ?_ (fun h5 => ?_)
  · subst x5
    refine Within.andThen (State.updSeq_within ..) (by decide) ?_
    refine Within.set_gen (by decide) ?_
    exact Within.refl
  refine Within.have_ (t := x6.1) ?_ (fun h6 => ?_)
  · subst x6
    refine Within.foldl_fst ?_ (fun _ _ => ?_)
    · refine Within.andThen (State.redoStage_within ..) (by decide) ?_
      exact h5
    · split
      · exact Within.refl
      · extract_lets -useContext x7 x8
        refine Within.have_ (t := x7) ?_ (fun h7 => ?_)
        · subst x7
          refine Within.andThen (State.redoStage_within ..) (by decide) ?_
          exact Within.refl
        refine Within.have_ (t := x8.1) ?_ (fun h8 => ?_)
        · subst x8
          with_reducible refine Within.andThen (State.redoAttn_within ..) (by decide) ?_
          refine Within.andThen (State.updCohort_within ..) (by decide) ?_
          exact h7
        refine Within.ite_fst (fun _ => ?_) (fun _ => ?_)
        · exact h7
        · split
          · exact h8
          · extract_lets -useContext x9
            refine Within.have_ (t := x9.2) ?_ (fun h9 => ?_)
            · subst x9
              with_reducible refine Within.andThen (State.attnRows_within ..) (by decide) ?_
              exact h8
            refine Within.andThen (State.redoStage_within ..) (by decide) ?_
            refine Within.andThen (State.redoStage_within ..) (by decide) ?_
            refine Within.andThen (State.redoStage_within ..) (by decide) ?_
            refine Within.andThen (State.putRows_within ..) (by decide) ?_
            exact h9
          · exact h8
  exact h6

theorem State.recode_within (s : State) (c : KvCtx) (p : PageRef) (rows : List Fresh) :
    Within [.outbox, .fresh, .regs, .mem, .mm, .sch, .zwx, .fl, .kv] s (State.recode s c p rows) := by
  unfold State.recode
  extract_lets -useContext _ _ _ x4 x5 x6 x7
  refine Within.have_ (t := x4) ?_ (fun h4 => ?_)
  · subst x4
    refine Within.foldl ?_ (fun _ _ => ?_)
    · exact Within.refl
    · refine Within.andThen (State.mendPage_within ..) (by decide) ?_
      refine Within.andThen (State.mendPage_within ..) (by decide) ?_
      exact Within.refl
  refine Within.have_ (t := x5) ?_ (fun h5 => ?_)
  · subst x5
    refine Within.andThen (State.mendPage_within ..) (by decide) ?_
    exact h4
  refine Within.have_ (t := x6) ?_ (fun h6 => ?_)
  · subst x6
    refine Within.andThen (State.setPage_within ..) (by decide) ?_
    exact h5
  refine Within.have_ (t := x7) ?_ (fun h7 => ?_)
  · subst x7
    refine Within.ite (fun _ => ?_) (fun _ => ?_)
    · exact h6
    · refine Within.andThen (State.putSummary_within ..) (by decide) ?_
      exact h6
  refine Within.andThen (State.count_within ..) (by decide) ?_
  refine Within.ite (fun _ => ?_) (fun _ => ?_)
  · refine Within.andThen (State.mirrorCopy_within ..) (by decide) ?_
    refine Within.andThen (State.ageAdd_within ..) (by decide) ?_
    exact h7
  · exact h7

theorem State.restartEntries_within (s : State) (seq : Nat) :
    Within [.regs, .sch, .fl, .gen] s (State.restartEntries s seq) := by
  unfold State.restartEntries
  refine Within.foldl ?_ (fun _ _ => ?_)
  · exact Within.refl
  · split
    · exact Within.refl
    · split
      · exact Within.refl
      · extract_lets -useContext _ _ _ _ _ _ x7
        refine Within.have_ (t := x7) ?_ (fun h7 => ?_)
        · subst x7
          refine Within.andThen (State.updCohort_within ..) (by decide) ?_
          exact Within.refl
        refine Within.foldl ?_ (fun _ _ => ?_)
        · exact h7
        · refine Within.andThen (State.startStage_within ..) (by decide) ?_
          exact Within.refl

theorem State.reframeAll_within {ctx : Nat} {x0 : List PageRef} {x1 : State} {t : State}
    (h : State.reframeAll ctx x0 x1 = some t) : Within [.fresh, .regs, .mem, .mm, .sch, .fl, .kv] x1 t := by
  induction x0 generalizing x1 with
  | nil => unfold State.reframeAll at h; obtain rfl := Option.some.inj h; exact Within.refl
  | cons a l ih =>
    unfold State.reframeAll at h
    split at h
    · exact nomatch h
    · exact Within.trans (State.reframe_within (by assumption)) (ih h)

theorem State.loseSeq_within (s : State) (seq : Nat) :
    Within [.outbox, .regs, .mm, .sch, .cmd, .gen] s (State.loseSeq s seq) := by
  unfold State.loseSeq
  extract_lets -useContext 
  refine Within.andThen (State.endSeq_within ..) (by decide) ?_
  refine Within.set_gen (by decide) ?_
  exact Within.refl

theorem State.onRecomputeDone_within (s : State) (p : PageRef) :
    Within [.outbox, .fresh, .regs, .mem, .mm, .sch, .cmd, .zwx, .fl, .kv, .gen] s (State.onRecomputeDone s p) := by
  unfold State.onRecomputeDone
  refine Within.ite (fun _ => ?_) (fun _ => ?_)
  · exact Within.refl
  · extract_lets -useContext _ x2
    refine Within.have_ (t := x2) ?_ (fun h2 => ?_)
    · subst x2
      refine Within.set_kv (by decide) ?_
      exact Within.refl
    split
    · exact h2
    · split
      · exact h2
      · refine Within.ite (fun _ => ?_) (fun _ => ?_)
        · refine Within.andThen (State.loseSeq_within ..) (by decide) ?_
          exact h2
        · split
          · refine Within.ite (fun _ => ?_) (fun _ => ?_)
            · exact Within.refl
            · refine Within.set_kv (by decide) ?_
              exact Within.refl
          · split
            · exact Within.refl
            · extract_lets -useContext x4
              refine Within.have_ (t := x4) ?_ (fun h4 => ?_)
              · subst x4
                refine Within.foldl ?_ (fun _ _ => ?_)
                · refine Within.andThen (State.reframeAll_within (by assumption)) (by decide) ?_
                  exact Within.copy_rows (by decide) h2 (Within.fst (State.redoRows_within ..) (by assumption))
                · refine Within.andThen (State.recode_within ..) (by decide) ?_
                  exact Within.refl
              refine Within.ite (fun _ => ?_) (fun _ => ?_)
              · exact h4
              · refine Within.andThen (State.restartEntries_within ..) (by decide) ?_
                exact h4

theorem execRecomputeDone_within {p : PageRef} {s : State} {t : State}
    (h : execRecomputeDone p s = .next t) : Within [.outbox, .fresh, .regs, .mem, .mm, .sch, .cmd, .zwx, .fl, .kv, .gen] s t := by
  unfold execRecomputeDone at h
  obtain rfl := Host.Outcome.next.inj h
  refine Within.andThen (State.onRecomputeDone_within ..) (by decide) ?_
  exact Within.refl

theorem State.mendPart_within (s : State) (w : WeightRef) (off : Nat) (b : List Byte) :
    Within [.fresh, .regs, .mem, .mm, .sch, .fl] s (State.mendPart s w off b) := by
  unfold State.mendPart
  extract_lets -useContext _ _ _ x4
  refine Within.have_ (t := x4) ?_ (fun h4 => ?_)
  · subst x4
    refine Within.set_mm (by decide) ?_
    exact Within.refl
  refine Within.andThen (State.hPut_within ..) (by decide) ?_
  exact h4

theorem State.mendWeight_within (s : State) (w : WeightRef) (b : List Byte) :
    Within [.fresh, .regs, .mem, .mm, .sch, .fl] s (State.mendWeight s w b) := by
  unfold State.mendWeight
  refine Within.andThen (State.mendPart_within ..) (by decide) ?_
  exact Within.refl

theorem State.askWeight_within (s : State) (w : WeightRef) (dev : Nat) :
    Within [.outbox, .zwx] s (State.askWeight s w dev) := by
  unfold State.askWeight
  extract_lets -useContext 
  refine Within.andThen (State.sendAt_within ..) (by decide) ?_
  exact Within.refl

theorem State.weightCame_within (s : State) (o : XferOut) (w : WeightRef) (b : Option (List Byte)) :
    Within [.outbox, .fresh, .regs, .mem, .mm, .sch, .zwx, .fl] s (State.weightCame s o w b) := by
  unfold State.weightCame
  split
  · extract_lets -useContext x1
    refine Within.have_ (t := x1) ?_ (fun h1 => ?_)
    · subst x1
      refine Within.andThen (State.mendPart_within ..) (by decide) ?_
      exact Within.refl
    refine Within.ite (fun _ => ?_) (fun _ => ?_)
    · refine Within.andThen (State.stallRemote_within ..) (by decide) ?_
      refine Within.andThen (State.count_within ..) (by decide) ?_
      exact h1
    · exact h1
  · extract_lets -useContext _ x3
    refine Within.have_ (t := x3) ?_ (fun h3 => ?_)
    · subst x3
      refine Within.set_zwx (by decide) ?_
      exact Within.refl
    split
    · refine Within.andThen (State.askWeight_within ..) (by decide) ?_
      exact h3
    · exact h3

theorem State.weightFromImage_within (s : State) (w : WeightRef) :
    Within [.fresh, .regs, .mm, .sch] s (State.weightFromImage s w) := by
  unfold State.weightFromImage
  split
  · refine Within.andThen (State.objTraffic_within ..) (by decide) ?_
    refine Within.andThen (State.stallUs_within ..) (by decide) ?_
    refine Within.andThen (State.count_within ..) (by decide) ?_
    exact Within.refl
  · exact Within.refl

theorem execWeightRepairDone_within {r : WeightRepair} {s : State} {t : State}
    (h : execWeightRepairDone r s = .next t) : Within [.outbox, .fresh, .regs, .mem, .mm, .sch, .zwx, .fl, .mgmt, .ar, .gen] s t := by
  unfold execWeightRepairDone at h
  obtain rfl := Host.Outcome.next.inj h
  refine Within.ite (fun _ => ?_) (fun _ => ?_)
  · exact Within.refl
  · extract_lets -useContext _ _ _ _ _ x6
    refine Within.have_ (t := x6) ?_ (fun h6 => ?_)
    · subst x6
      refine Within.andThen (State.event_within ..) (by decide) ?_
      refine Within.andThen (State.setModel_within ..) (by decide) ?_
      refine Within.andThen (State.count_within ..) (by decide) ?_
      exact Within.refl
    split
    · refine Within.ite (fun _ => ?_) (fun _ => ?_)
      · refine Within.andThen (State.count_within ..) (by decide) ?_
        refine Within.andThen (State.mendWeight_within ..) (by decide) ?_
        exact Within.refl
      · exact Within.refl
    · refine Within.ite (fun _ => ?_) (fun _ => ?_)
      · refine Within.andThen (State.count_within ..) (by decide) ?_
        refine Within.andThen (State.mendWeight_within ..) (by decide) ?_
        refine Within.andThen (State.weightFromImage_within ..) (by decide) ?_
        exact Within.refl
      · exact Within.refl
    · split
      · refine Within.ite (fun _ => ?_) (fun _ => ?_)
        · refine Within.andThen (State.askWeight_within ..) (by decide) ?_
          exact Within.refl
        · exact Within.refl
      · exact Within.refl
    · refine Within.ite (fun _ => ?_) (fun _ => ?_)
      · exact Within.refl
      · refine Within.foldl ?_ (fun _ _ => ?_)
        · exact h6
        · refine Within.foldl ?_ (fun _ _ => ?_)
          · exact Within.refl
          · refine Within.ite (fun _ => ?_) (fun _ => ?_)
            · refine Within.andThen (State.updEntry_within ..) (by decide) ?_
              refine Within.andThen (State.leaveStep_within ..) (by decide) ?_
              exact Within.refl
            · exact Within.refl

theorem execMcastAck_within {sender : Nat} {receiver : Nat} {bytes : Nat} {s : State} {t : State}
    (h : execMcastAck sender receiver bytes s = .next t) : Within [.regs, .sch] s t := by
  unfold execMcastAck at h
  obtain rfl := Host.Outcome.next.inj h
  split
  · exact Within.refl
  · extract_lets -useContext _ _ y3 x4 _ x6 x7
    clear_value y3
    refine Within.have_fn2 (f := x4) (fun _ _ => ?_) (fun h4 => ?_)
    · subst x4
      beta_reduce
      refine Within.set_sch (by decide) ?_
      exact Within.refl
    refine Within.have_ (t := x6) ?_ (fun h6 => ?_)
    · subst x6
      refine Within.trans ?_ (h4 ..)
      exact Within.refl
    refine Within.have_ (t := x7) ?_ (fun h7 => ?_)
    · subst x7
      refine Within.andThen (State.count_within ..) (by decide) ?_
      exact h6
    refine Within.ite (fun _ => ?_) (fun _ => ?_)
    · refine Within.ite (fun _ => ?_) (fun _ => ?_)
      · refine Within.andThen (State.count_within ..) (by decide) ?_
        exact h7
      · exact h7
    · exact h6

theorem State.saveTiles_within (s : State) (e : Leave) :
    Within [.mem] s (State.saveTiles s e) := by
  unfold State.saveTiles
  split
  · exact Within.refl
  · extract_lets -useContext 
    refine Within.foldl ?_ (fun _ _ => ?_)
    · exact Within.refl
    · refine Within.andThen (State.setBytes_within ..) (by decide) ?_
      exact Within.refl

theorem State.restoreTiles_within (s : State) (islet : Nat) (t0 : Task) :
    Within [.ar] s (State.restoreTiles s islet t0) := by
  unfold State.restoreTiles
  split
  · exact Within.refl
  · extract_lets -useContext 
    refine Within.andThen (State.putIslet_within ..) (by decide) ?_
    exact Within.refl

theorem State.landing_within (s : State) (islet : Nat) (c : Option Nat) :
    Within [.fresh] s (State.landing s islet c).2 := by
  unfold State.landing
  extract_lets -useContext 
  refine Within.ite_snd (fun _ => ?_) (fun _ => ?_)
  · exact Within.refl
  · refine Within.set_fresh (by decide) ?_
    exact Within.refl

theorem State.switchTo_within (s : State) (t0 : Task) (islet : Nat) :
    Within [.fresh, .regs, .mem, .sch, .gen] s (State.switchTo s t0 islet) := by
  unfold State.switchTo
  split
  · exact Within.refl
  · extract_lets -useContext _ x2 x3 x4
    refine Within.have_ (t := x2) ?_ (fun h2 => ?_)
    · subst x2
      refine Within.set_gen (by decide) ?_
      exact Within.refl
    refine Within.have_ (t := x3.2) ?_ (fun h3 => ?_)
    · subst x3
      with_reducible refine Within.andThen (State.landing_within ..) (by decide) ?_
      refine Within.andThen (State.saveTiles_within ..) (by decide) ?_
      exact h2
    refine Within.have_ (t := x4) ?_ (fun h4 => ?_)
    · subst x4
      refine Within.andThen (State.count_within ..) (by decide) ?_
      exact h3
    refine Within.ite (fun _ => ?_) (fun _ => ?_)
    · exact h2
    · split
      · refine Within.andThen (State.chargeSlot_within ..) (by decide) ?_
        exact h4
      · exact h4

theorem State.restoreFor_within (s : State) (t0 : Task) (islet : Nat) (stayed : Bool) :
    Within [.ar] s (State.restoreFor s t0 islet stayed) := by
  unfold State.restoreFor
  refine Within.ite (fun _ => ?_) (fun _ => ?_)
  · refine Within.andThen (State.restoreTiles_within ..) (by decide) ?_
    exact Within.refl
  · refine Within.ite (fun _ => ?_) (fun _ => ?_)
    · refine Within.andThen (State.putIslet_within ..) (by decide) ?_
      exact Within.refl
    · exact Within.refl

theorem execTaskDispatch_within {island : Nat} {s0 : State} {t : State}
    (h : execTaskDispatch island s0 = .next t) : Within [.outbox, .fresh, .regs, .mem, .mm, .sch, .cmd, .zwx, .fl, .ar, .idx, .kv, .gen] s0 t := by
  unfold execTaskDispatch at h
  extract_lets -useContext x1 at h
  refine Within.have_ (t := x1) ?_ (fun h1 => ?_)
  · subst x1
    split
    · refine Within.andThen (State.endTooLarge_within ..) (by decide) ?_
      exact Within.refl
    · exact Within.refl
  obtain rfl := Host.Outcome.next.inj h
  split
  · exact h1
  · extract_lets -useContext _ y3 _ y5 x6
    clear_value y3 y5
    refine Within.have_ (t := x6) ?_ (fun h6 => ?_)
    · subst x6
      refine Within.ite (fun _ => ?_) (fun _ => ?_)
      · refine Within.andThen (State.count_within ..) (by decide) ?_
        exact h1
      · exact h1
    split
    · exact h1
    · extract_lets -useContext x7 _ x9 x10
      refine Within.have_ (t := x7) ?_ (fun h7 => ?_)
      · subst x7
        refine Within.andThen (State.restoreFor_within ..) (by decide) ?_
        refine Within.andThen (State.switchTo_within ..) (by decide) ?_
        exact h6
      refine Within.have_ (t := x9) ?_ (fun h9 => ?_)
      · subst x9
        split
        · refine Within.set_idx (by decide) ?_
          exact h7
        · exact h7
      refine Within.have_ (t := x10) ?_ (fun h10 => ?_)
      · subst x10
        refine Within.andThen (State.chargeWait_within ..) (by decide) ?_
        exact h9
      refine Within.andThen (State.updTask_within ..) (by decide) ?_
      exact h10

theorem execTaskAge_within {island : Nat} {task : Nat} {s : State} {t : State}
    (h : execTaskAge island task s = .next t) : Within [.clock, .now, .sch] s t := by
  unfold execTaskAge at h
  obtain rfl := Host.Outcome.next.inj h
  split
  · exact Within.refl
  · refine Within.andThen (State.updTask_within ..) (by decide) ?_
    refine Within.andThen (State.elapseTo_within ..) (by decide) ?_
    exact Within.refl

theorem execTaskEnd_within {islet : Nat} {s : State} {t : State}
    (h : execTaskEnd islet s = .next t) : Within [.outbox, .fresh, .regs, .mem, .mm, .sch, .zwx, .fl, .ar, .kv, .gen] s t := by
  unfold execTaskEnd at h
  obtain rfl := Host.Outcome.next.inj h
  split
  · exact Within.refl
  · refine Within.ite (fun _ => ?_) (fun _ => ?_)
    · refine Within.andThen (State.yieldTask_within ..) (by decide) ?_
      exact Within.refl
    · extract_lets -useContext x1
      refine Within.have_ (t := x1) ?_ (fun h1 => ?_)
      · subst x1
        refine Within.andThen (State.taskOver_within ..) (by decide) ?_
        exact Within.refl
      split
      · split
        · refine Within.ite (fun _ => ?_) (fun _ => ?_)
          · refine Within.andThen (State.redone_within ..) (by decide) ?_
            exact h1
          · refine Within.ite (fun _ => ?_) (fun _ => ?_)
            · refine Within.andThen (State.stageDone_within ..) (by decide) ?_
              exact h1
            · exact h1
        · exact h1
      · refine Within.andThen (State.endSplit_within ..) (by decide) ?_
        exact Within.refl
      · refine Within.andThen (State.sampleDone_within ..) (by decide) ?_
        exact h1
      · refine Within.andThen (State.mergeDone_within ..) (by decide) ?_
        exact h1
      · exact h1

end Sys2Proof.Machine
end

