-- ==== Sys2Proof/Laws/Fabric.lean ====
section
/-! SUPPORT. For each operation of Machine/Fabric.lean: the fields it may change, that it keeps the invariant, and that the watch clock does not go back. -/

namespace Sys2Proof.Machine

set_option linter.all false
set_option Elab.async false

theorem State.putInQueue_within (s : State) (island : Nat) (i : Option Dir) (q : List Transfer) :
    Within [.ar] s (State.putInQueue s island i q) := by
  unfold State.putInQueue
  extract_lets -useContext 
  refine Within.set_ar (by decide) ?_
  exact Within.refl

theorem State.putStrait_within (s : State) (x : StraitSt) :
    Within [.ar] s (State.putStrait s x) := by
  unfold State.putStrait
  refine Within.set_ar (by decide) ?_
  exact Within.refl

theorem State.cutStrait_within (s : State) (x : StraitSt) :
    Within [.ar] s (State.cutStrait s x) := by
  unfold State.cutStrait
  extract_lets -useContext x1
  refine Within.have_ (t := x1) ?_ (fun h1 => ?_)
  · subst x1
    refine Within.andThen (State.putStrait_within ..) (by decide) ?_
    exact Within.refl
  refine Within.foldr ?_ (fun _ _ => State.putInQueue_within ..)
  exact Within.set_ar (by decide) h1

theorem State.takeFresh_within (s : State) (here : Nat) (fresh : Option Transfer) :
    Within [.ar] s (State.takeFresh s here fresh) := by
  unfold State.takeFresh
  split
  · refine Within.ite (fun _ => ?_) (fun _ => ?_)
    · refine Within.ite (fun _ => ?_) (fun _ => ?_)
      · refine Within.set_ar (by decide) ?_
        exact Within.refl
      · refine Within.andThen (State.putInQueue_within ..) (by decide) ?_
        exact Within.refl
    · exact Within.refl
  · exact Within.refl

theorem execStraitTransfer_within {here : Nat} {out : Dir} {fresh : Option Transfer} {crcOk : Bool} {s : State} {t : State}
    (h : execStraitTransfer here out fresh crcOk s = .next t) : Within [.outbox, .regs, .flt, .mgmt, .ar] s t := by
  unfold execStraitTransfer at h
  obtain rfl := Host.Outcome.next.inj h
  refine Within.ite (fun _ => ?_) (fun _ => ?_)
  · exact Within.refl
  · extract_lets -useContext x1 _ _ x4 x5
    refine Within.have_ (t := x1) ?_ (fun h1 => ?_)
    · subst x1
      refine Within.andThen (State.takeFresh_within ..) (by decide) ?_
      exact Within.refl
    refine Within.have_ (t := x4) ?_ (fun h4 => ?_)
    · subst x4
      refine Within.andThen (State.count_within ..) (by decide) ?_
      exact h1
    refine Within.have_ (t := x5) ?_ (fun h5 => ?_)
    · subst x5
      refine Within.andThen (State.faultLog_within ..) (by decide) ?_
      refine Within.andThen (State.count_within ..) (by decide) ?_
      refine Within.andThen (State.cutStrait_within ..) (by decide) ?_
      exact h4
    split
    · exact h1
    · refine Within.ite (fun _ => ?_) (fun _ => ?_)
      · exact h1
      · split
        · exact h1
        · refine Within.ite (fun _ => ?_) (fun _ => ?_)
          · exact h1
          · refine Within.ite (fun _ => ?_) (fun _ => ?_)
            · refine Within.ite (fun _ => ?_) (fun _ => ?_)
              · refine Within.andThen (State.putStrait_within ..) (by decide) ?_
                exact h4
              · refine Within.ite (fun _ => ?_) (fun _ => ?_)
                · refine Within.andThen (State.fenceCause_within ..) (by decide) ?_
                  exact h5
                · exact h5
            · extract_lets -useContext _ x7
              refine Within.have_ (t := x7) ?_ (fun h7 => ?_)
              · subst x7
                refine Within.andThen (State.putStrait_within ..) (by decide) ?_
                refine Within.andThen (State.putInQueue_within ..) (by decide) ?_
                exact h1
              refine Within.ite (fun _ => ?_) (fun _ => ?_)
              · refine Within.set_ar (by decide) ?_
                exact h7
              · refine Within.andThen (State.putInQueue_within ..) (by decide) ?_
                exact h7

theorem State.atomic_within (s : State) (r : AtomicReq) (bytes : Nat) (f : Nat → Option Nat) :
    Within [.outbox, .regs, .mem, .mm, .sch, .cmd] s (State.atomic s r bytes f) := by
  unfold State.atomic
  refine Within.ite (fun _ => ?_) (fun _ => ?_)
  · exact Within.refl
  · split
    · extract_lets -useContext _ x2
      refine Within.have_ (t := x2) ?_ (fun h2 => ?_)
      · subst x2
        refine Within.andThen (State.count_within ..) (by decide) ?_
        exact Within.refl
      refine Within.andThen (State.complete_within ..) (by decide) ?_
      refine Within.andThen (State.emit_within ..) (by decide) ?_
      exact h2
    · extract_lets -useContext _ _ x5
      refine Within.have_ (t := x5) ?_ (fun h5 => ?_)
      · subst x5
        split
        · refine Within.andThen (State.setBytes_within ..) (by decide) ?_
          exact Within.refl
        · exact Within.refl
      refine Within.ite (fun _ => ?_) (fun _ => ?_)
      · refine Within.andThen (State.killTasks_within ..) (by decide) ?_
        exact Within.refl
      · refine Within.andThen (State.emit_within ..) (by decide) ?_
        refine Within.andThen (State.count_within ..) (by decide) ?_
        exact h5

theorem execAtomicAdd_within {r : AtomicReq} {ty : AddTy} {x : Nat} {s : State} {t : State}
    (h : execAtomicAdd r ty x s = .next t) : Within [.outbox, .regs, .mem, .mm, .sch, .cmd] s t := by
  unfold execAtomicAdd at h
  obtain rfl := Host.Outcome.next.inj h
  refine Within.andThen (State.atomic_within ..) (by decide) ?_
  exact Within.refl

theorem execAtomicMax_within {r : AtomicReq} {ty : MaxTy} {v : Nat} {idx : Nat} {s : State} {t : State}
    (h : execAtomicMax r ty v idx s = .next t) : Within [.outbox, .regs, .mem, .mm, .sch, .cmd] s t := by
  unfold execAtomicMax at h
  obtain rfl := Host.Outcome.next.inj h
  refine Within.andThen (State.atomic_within ..) (by decide) ?_
  exact Within.refl

theorem execAtomicMin_within {r : AtomicReq} {ty : MaxTy} {v : Nat} {idx : Nat} {s : State} {t : State}
    (h : execAtomicMin r ty v idx s = .next t) : Within [.outbox, .regs, .mem, .mm, .sch, .cmd] s t := by
  unfold execAtomicMin at h
  obtain rfl := Host.Outcome.next.inj h
  refine Within.andThen (State.atomic_within ..) (by decide) ?_
  exact Within.refl

theorem execCompareAndSwap_within {r : AtomicReq} {wide : Bool} {expected : Nat} {new : Nat} {s : State} {t : State}
    (h : execCompareAndSwap r wide expected new s = .next t) : Within [.outbox, .regs, .mem, .mm, .sch, .cmd] s t := by
  unfold execCompareAndSwap at h
  obtain rfl := Host.Outcome.next.inj h
  refine Within.andThen (State.atomic_within ..) (by decide) ?_
  exact Within.refl

end Sys2Proof.Machine
end

