-- ==== Sys2Proof/Laws/Memory.lean ====
section
/-! SUPPORT. For each operation of Machine/Memory.lean: the fields it may change, that it keeps the invariant, and that the watch clock does not go back. -/

namespace Sys2Proof.Machine

set_option linter.all false
set_option Elab.async false

theorem State.takeGrans_within {s : State} {stack : Nat} {parity : Bool} {n : Nat} {y0 : List Nat} {t : State}
    (h : State.takeGrans s stack parity n = some (y0, t)) : Within [.fresh] s t := by
  unfold State.takeGrans at h
  extract_lets -useContext _ _ x3 at h
  refine Within.have_ (t := x3.2) ?_ (fun h3 => ?_)
  · subst x3
    with_reducible refine Within.andThen (takeFree_within ..) (by decide) ?_
    exact Within.refl
  split at h
  · exact nomatch h
  · obtain rfl := congrArg (fun p => p.2) (Option.some.inj h)
    exact h3

theorem State.newHandle_within (s : State) (f : Nat) :
    Within [.fresh] s (State.newHandle s f).2 := by
  unfold State.newHandle
  extract_lets -useContext 
  refine Within.set_fresh (by decide) ?_
  exact Within.refl

theorem State.pruneFwds_within (s : State) :
    Within [.mm] s (State.pruneFwds s) := by
  unfold State.pruneFwds
  refine Within.set_mm (by decide) ?_
  exact Within.refl

theorem State.unforward_within (s : State) (pages : List Nat) :
    Within [.mm] s (State.unforward s pages) := by
  unfold State.unforward
  refine Within.set_mm (by decide) ?_
  exact Within.refl

theorem State.switchObj_within (s : State) (by_ : Nat) (o : Obj) (q : Obj) :
    Within [.regs, .mem, .mm, .sch] s (State.switchObj s by_ o q) := by
  unfold State.switchObj
  extract_lets -useContext x1 _ x3 x4
  refine Within.have_ (t := x1) ?_ (fun h1 => ?_)
  · subst x1
    refine Within.foldl ?_ (fun _ _ => ?_)
    · exact Within.refl
    · refine Within.andThen (State.objPut_within ..) (by decide) ?_
      exact Within.refl
  refine Within.have_ (t := x3) ?_ (fun h3 => ?_)
  · subst x3
    refine Within.andThen (State.objTraffic_within ..) (by decide) ?_
    refine Within.andThen (State.objTraffic_within ..) (by decide) ?_
    exact h1
  refine Within.have_ (t := x4) ?_ (fun h4 => ?_)
  · subst x4
    refine Within.andThen (State.updObj_within ..) (by decide) ?_
    exact h3
  refine Within.andThen (State.count_within ..) (by decide) ?_
  refine Within.andThen (State.pruneFwds_within ..) (by decide) ?_
  refine Within.set_mm (by decide) ?_
  exact h4

theorem State.copyUnits_within (s : State) (k : MemOpKind) (o : Obj) :
    Within [.fresh, .regs, .fl] s (State.copyUnits s k o) := by
  unfold State.copyUnits
  extract_lets -useContext 
  split
  · refine Within.foldl ?_ (fun _ _ => ?_)
    · exact Within.refl
    · refine Within.andThen (State.queueRead_within ..) (by decide) ?_
      exact Within.refl
  · refine Within.foldl ?_ (fun _ _ => ?_)
    · exact Within.refl
    · refine Within.andThen (State.queueWrite_within ..) (by decide) ?_
      exact Within.refl
  · exact Within.refl

theorem State.startMemOp_within (s : State) (k : MemOpKind) (r : CmdRef) (owner : Nat) (handle : Nat) (stack : Nat) (gs : List Nat) :
    Within [.mm] s (State.startMemOp s k r owner handle stack gs) := by
  unfold State.startMemOp
  extract_lets -useContext 
  refine Within.set_mm (by decide) ?_
  exact Within.refl

theorem State.allocT3_within (s : State) (r : CmdRef) (f : Nat) (b : Body) :
    Within [.outbox, .fresh, .regs, .mem, .mm, .sch, .cmd, .fl] s (State.allocT3 s r f b) := by
  unfold State.allocT3
  extract_lets -useContext 
  split
  · split
    · extract_lets -useContext _ _ _ x5
      refine Within.have_ (t := x5) ?_ (fun h5 => ?_)
      · subst x5
        refine Within.set_mem_mm (by decide) ?_ ?_
        · refine Within.snd ?_ (by assumption)
          with_reducible refine Within.andThen (State.newHandle_within ..) (by decide) ?_
          refine Within.snd ?_ (by assumption)
          with_reducible refine Within.andThen (takeFree_within ..) (by decide) ?_
          exact Within.refl
        · exact memWf_filter _ _
      refine Within.andThen (State.complete_within ..) (by decide) ?_
      refine Within.andThen (State.dropUnits_within ..) (by decide) ?_
      exact h5

theorem State.runAlloc_within (s : State) (r : CmdRef) (f : Nat) (b : Body) :
    Within [.outbox, .fresh, .regs, .mem, .mm, .sch, .cmd, .fl] s (State.runAlloc s r f b) := by
  unfold State.runAlloc
  extract_lets -useContext _ x2
  refine Within.have_of1 (f := x2) (fun _ => ?_) (fun h2 => ?_)
  · subst x2
    beta_reduce
    refine Within.andThen (State.complete_within ..) (by decide) ?_
    exact Within.refl
  refine Within.ite (fun _ => ?_) (fun _ => ?_)
  · refine Within.ite (fun _ => ?_) (fun _ => ?_)
    · exact h2 ..
    · refine Within.ite (fun _ => ?_) (fun _ => ?_)
      · exact h2 ..
      · refine Within.andThen (State.allocT3_within ..) (by decide) ?_
        exact Within.refl
  · refine Within.ite (fun _ => ?_) (fun _ => ?_)
    · exact h2 ..
    · split
      · exact h2 ..
      · split
        · refine Within.andThen (State.startMemOp_within ..) (by decide) ?_
          refine Within.snd ?_ (by assumption)
          with_reducible refine Within.andThen (State.newHandle_within ..) (by decide) ?_
          refine Within.andThen (State.takeGrans_within (by assumption)) (by decide) ?_
          exact Within.refl

theorem State.runFree_within (s : State) (r : CmdRef) (b : Body) (o : Obj) :
    Within [.outbox, .regs, .mm, .sch, .cmd, .fl] s (State.runFree s r b o) := by
  unfold State.runFree
  extract_lets -useContext x1 _ x3
  refine Within.have_of1 (f := x1) (fun _ => ?_) (fun h1 => ?_)
  · subst x1
    beta_reduce
    refine Within.andThen (State.complete_within ..) (by decide) ?_
    exact Within.refl
  refine Within.have_ (t := x3) ?_ (fun h3 => ?_)
  · subst x3
    refine Within.set_mm (by decide) ?_
    exact Within.refl
  refine Within.ite (fun _ => ?_) (fun _ => ?_)
  · exact h1 ..
  · refine Within.ite (fun _ => ?_) (fun _ => ?_)
    · refine Within.andThen (State.count_within ..) (by decide) ?_
      exact h1 ..
    · refine Within.ite (fun _ => ?_) (fun _ => ?_)
      · exact h1 ..
      · refine Within.andThen (State.complete_within ..) (by decide) ?_
        refine Within.andThen (State.unforward_within ..) (by decide) ?_
        refine Within.andThen (State.dropUnits_within ..) (by decide) ?_
        exact h3

theorem State.startCopy_within (s : State) (k : MemOpKind) (r : CmdRef) (b : Body) (o : Obj) :
    Within [.outbox, .fresh, .regs, .mm, .sch, .cmd, .fl] s (State.startCopy s k r b o) := by
  unfold State.startCopy
  extract_lets -useContext x1
  refine Within.have_of1 (f := x1) (fun _ => ?_) (fun h1 => ?_)
  · subst x1
    beta_reduce
    refine Within.andThen (State.complete_within ..) (by decide) ?_
    exact Within.refl
  refine Within.ite (fun _ => ?_) (fun _ => ?_)
  · exact h1 ..
  · split
    · exact h1 ..
    · refine Within.andThen (State.startMemOp_within ..) (by decide) ?_
      refine Within.andThen (State.copyUnits_within ..) (by decide) ?_
      refine Within.andThen (State.takeGrans_within (by assumption)) (by decide) ?_
      exact Within.refl

theorem State.runMove_within (s : State) (r : CmdRef) (b : Body) (o : Obj) :
    Within [.outbox, .fresh, .regs, .mm, .sch, .cmd, .fl] s (State.runMove s r b o) := by
  unfold State.runMove
  refine Within.ite (fun _ => ?_) (fun _ => ?_)
  · refine Within.andThen (State.complete_within ..) (by decide) ?_
    exact Within.refl
  · refine Within.ite (fun _ => ?_) (fun _ => ?_)
    · refine Within.andThen (State.complete_within ..) (by decide) ?_
      exact Within.refl
    · refine Within.andThen (State.startCopy_within ..) (by decide) ?_
      exact Within.refl

theorem State.addPin_within {s : State} {f : Nat} {o : Obj} {t : State}
    (h : State.addPin s f o = some t) : Within [.mm] s t := by
  unfold State.addPin at h
  split at h
  · obtain rfl := Option.some.inj h
    exact Within.refl
  · split at h
    · exact nomatch h
    · obtain rfl := Option.some.inj h
      refine Within.andThen (State.updObj_within ..) (by decide) ?_
      exact Within.refl

theorem State.runPromote_within (s : State) (r : CmdRef) (b : Body) (o : Obj) :
    Within [.outbox, .fresh, .regs, .mm, .sch, .cmd, .fl] s (State.runPromote s r b o) := by
  unfold State.runPromote
  extract_lets -useContext x1
  refine Within.have_of1 (f := x1) (fun _ => ?_) (fun h1 => ?_)
  · subst x1
    beta_reduce
    refine Within.andThen (State.complete_within ..) (by decide) ?_
    exact Within.refl
  refine Within.ite (fun _ => ?_) (fun _ => ?_)
  · exact h1 ..
  · split
    · exact h1 ..
    · refine Within.ite (fun _ => ?_) (fun _ => ?_)
      · refine Within.andThen (State.complete_within ..) (by decide) ?_
        refine Within.andThen (State.addPin_within (by assumption)) (by decide) ?_
        exact Within.refl
      · refine Within.andThen (State.startCopy_within ..) (by decide) ?_
        exact Within.refl

theorem State.runEvict_within (s : State) (r : CmdRef) (b : Body) (o : Obj) :
    Within [.outbox, .fresh, .regs, .mm, .sch, .cmd, .fl] s (State.runEvict s r b o) := by
  unfold State.runEvict
  extract_lets -useContext x1 x2
  refine Within.have_fn2 (f := x1) (fun _ _ => ?_) (fun h1 => ?_)
  · subst x1
    beta_reduce
    refine Within.andThen (State.complete_within ..) (by decide) ?_
    exact Within.refl
  refine Within.have_ (t := x2) ?_ (fun h2 => ?_)
  · subst x2
    refine Within.andThen (State.updObj_within ..) (by decide) ?_
    exact Within.refl
  refine Within.ite (fun _ => ?_) (fun _ => ?_)
  · refine Within.trans ?_ (h1 ..)
    exact Within.refl
  · refine Within.ite (fun _ => ?_) (fun _ => ?_)
    · refine Within.trans ?_ (h1 ..)
      exact Within.refl
    · refine Within.ite (fun _ => ?_) (fun _ => ?_)
      · refine Within.andThen (State.count_within ..) (by decide) ?_
        refine Within.trans ?_ (h1 ..)
        exact h2
      · refine Within.ite (fun _ => ?_) (fun _ => ?_)
        · refine Within.trans ?_ (h1 ..)
          exact h2
        · refine Within.andThen (State.startMemOp_within ..) (by decide) ?_
          refine Within.andThen (State.copyUnits_within ..) (by decide) ?_
          exact Within.refl

theorem State.runShare_within (s : State) (r : CmdRef) (b : Body) (o : Obj) :
    Within [.outbox, .fresh, .regs, .mm, .sch, .cmd] s (State.runShare s r b o) := by
  unfold State.runShare
  split
  · refine Within.andThen (State.complete_within ..) (by decide) ?_
    exact Within.refl
  · split
    · refine Within.andThen (State.complete_within ..) (by decide) ?_
      refine Within.andThen (State.updObj_within ..) (by decide) ?_
      refine Within.snd ?_ (by assumption)
      with_reducible refine Within.andThen (State.newHandle_within ..) (by decide) ?_
      exact Within.refl

theorem State.runUnshare_within (s : State) (r : CmdRef) (b : Body) (o : Obj) :
    Within [.outbox, .regs, .mm, .sch, .cmd] s (State.runUnshare s r b o) := by
  unfold State.runUnshare
  extract_lets -useContext x1
  refine Within.have_ (t := x1) ?_ (fun h1 => ?_)
  · subst x1
    refine Within.andThen (State.updObj_within ..) (by decide) ?_
    exact Within.refl
  refine Within.andThen (State.complete_within ..) (by decide) ?_
  exact h1

theorem State.runMem_within (s : State) (r : CmdRef) (h : CmdHdr) (b : Body) :
    Within [.outbox, .fresh, .regs, .mem, .mm, .sch, .cmd, .fl] s (State.runMem s r h b) := by
  unfold State.runMem
  split
  · refine Within.andThen (State.complete_within ..) (by decide) ?_
    exact Within.refl
  · refine Within.ite (fun _ => ?_) (fun _ => ?_)
    · refine Within.andThen (State.runAlloc_within ..) (by decide) ?_
      exact Within.refl
    · split
      · exact Within.refl
      · split
        · refine Within.andThen (State.runFree_within ..) (by decide) ?_
          exact Within.refl
        · refine Within.andThen (State.runMove_within ..) (by decide) ?_
          exact Within.refl
        · refine Within.andThen (State.runPromote_within ..) (by decide) ?_
          exact Within.refl
        · refine Within.andThen (State.runEvict_within ..) (by decide) ?_
          exact Within.refl
        · refine Within.andThen (State.runShare_within ..) (by decide) ?_
          exact Within.refl
        · refine Within.andThen (State.runUnshare_within ..) (by decide) ?_
          exact Within.refl

theorem actMem_within  (r : CmdRef) (l : Live) (s : State) :
    Within [.outbox, .fresh, .regs, .mem, .mm, .sch, .cmd, .fl] s (actMem r l s) := by
  unfold actMem
  split
  · refine Within.andThen (State.runMem_within ..) (by decide) ?_
    exact Within.refl
  · refine Within.ite (fun _ => ?_) (fun _ => ?_)
    · extract_lets -useContext 
      refine Within.set_mm (by decide) ?_
      exact Within.refl
    · refine Within.andThen (State.runMem_within ..) (by decide) ?_
      exact Within.refl

theorem State.runMemWaits_within (s : State) (owner : Nat) (handle : Nat) :
    Within [.outbox, .fresh, .regs, .mem, .mm, .sch, .cmd, .fl] s (State.runMemWaits s owner handle) := by
  unfold State.runMemWaits
  refine Within.foldl ?_ (fun _ _ => ?_)
  · exact Within.refl
  · refine Within.ite (fun _ => ?_) (fun _ => ?_)
    · exact Within.refl
    · refine Within.andThen (State.runMem_within ..) (by decide) ?_
      refine Within.set_mm (by decide) ?_
      exact Within.refl

theorem execAlloc_within {h : CmdHdr} {b : Body} {s : State} {t : State}
    (h : execAlloc h b s = .next t) : Within [.outbox, .fresh, .regs, .mem, .mm, .sch, .cmd, .fl, .mgmt] s t := by
  unfold execAlloc at h
  obtain rfl := Host.Outcome.next.inj h
  refine Within.trans ?_ (State.command_within (by decide) (fun _ _ _ => ?_) ..)
  · exact Within.refl
  · exact Within.mono (actMem_within ..) (by decide)

theorem execFree_within {h : CmdHdr} {b : Body} {s : State} {t : State}
    (h : execFree h b s = .next t) : Within [.outbox, .fresh, .regs, .mem, .mm, .sch, .cmd, .fl, .mgmt] s t := by
  unfold execFree at h
  obtain rfl := Host.Outcome.next.inj h
  refine Within.trans ?_ (State.command_within (by decide) (fun _ _ _ => ?_) ..)
  · exact Within.refl
  · exact Within.mono (actMem_within ..) (by decide)

theorem execMove_within {h : CmdHdr} {b : Body} {s : State} {t : State}
    (h : execMove h b s = .next t) : Within [.outbox, .fresh, .regs, .mem, .mm, .sch, .cmd, .fl, .mgmt] s t := by
  unfold execMove at h
  obtain rfl := Host.Outcome.next.inj h
  refine Within.trans ?_ (State.command_within (by decide) (fun _ _ _ => ?_) ..)
  · exact Within.refl
  · exact Within.mono (actMem_within ..) (by decide)

theorem execPromote_within {h : CmdHdr} {b : Body} {s : State} {t : State}
    (h : execPromote h b s = .next t) : Within [.outbox, .fresh, .regs, .mem, .mm, .sch, .cmd, .fl, .mgmt] s t := by
  unfold execPromote at h
  obtain rfl := Host.Outcome.next.inj h
  refine Within.trans ?_ (State.command_within (by decide) (fun _ _ _ => ?_) ..)
  · exact Within.refl
  · exact Within.mono (actMem_within ..) (by decide)

theorem execEvict_within {h : CmdHdr} {b : Body} {s : State} {t : State}
    (h : execEvict h b s = .next t) : Within [.outbox, .fresh, .regs, .mem, .mm, .sch, .cmd, .fl, .mgmt] s t := by
  unfold execEvict at h
  obtain rfl := Host.Outcome.next.inj h
  refine Within.trans ?_ (State.command_within (by decide) (fun _ _ _ => ?_) ..)
  · exact Within.refl
  · exact Within.mono (actMem_within ..) (by decide)

theorem execShare_within {h : CmdHdr} {b : Body} {s : State} {t : State}
    (h : execShare h b s = .next t) : Within [.outbox, .fresh, .regs, .mem, .mm, .sch, .cmd, .fl, .mgmt] s t := by
  unfold execShare at h
  obtain rfl := Host.Outcome.next.inj h
  refine Within.trans ?_ (State.command_within (by decide) (fun _ _ _ => ?_) ..)
  · exact Within.refl
  · exact Within.mono (actMem_within ..) (by decide)

theorem execUnshare_within {h : CmdHdr} {b : Body} {s : State} {t : State}
    (h : execUnshare h b s = .next t) : Within [.outbox, .fresh, .regs, .mem, .mm, .sch, .cmd, .fl, .mgmt] s t := by
  unfold execUnshare at h
  obtain rfl := Host.Outcome.next.inj h
  refine Within.trans ?_ (State.command_within (by decide) (fun _ _ _ => ?_) ..)
  · exact Within.refl
  · exact Within.mono (actMem_within ..) (by decide)

theorem State.dropMemOp_within (s : State) (r : CmdRef) :
    Within [.mm, .fl] s (State.dropMemOp s r) := by
  unfold State.dropMemOp
  extract_lets -useContext _ x2
  refine Within.have_ (t := x2) ?_ (fun h2 => ?_)
  · subst x2
    refine Within.andThen (State.cancelWrites_within ..) (by decide) ?_
    exact Within.refl
  refine Within.set_mm_fl (by decide) ?_
  exact h2

theorem State.zeroGran_within (s : State) (stack : Nat) (g : Nat) :
    Within [.mem, .mm] s (State.zeroGran s stack g) := by
  unfold State.zeroGran
  extract_lets -useContext x1
  refine Within.have_ (t := x1) ?_ (fun h1 => ?_)
  · subst x1
    refine Within.foldl ?_ (fun _ _ => ?_)
    · exact Within.refl
    · refine Within.andThen (State.t2Write_within ..) (by decide) ?_
      exact Within.refl
  refine Within.set_mm (by decide) ?_
  exact h1

theorem execAllocZeroed_within {q : CmdRef} {s : State} {t : State}
    (h : execAllocZeroed q s = .next t) : Within [.outbox, .regs, .mem, .mm, .sch, .cmd, .fl] s t := by
  unfold execAllocZeroed at h
  obtain rfl := Host.Outcome.next.inj h
  split
  · refine Within.ite (fun _ => ?_) (fun _ => ?_)
    · exact Within.refl
    · extract_lets -useContext x1 _ x3 _ x5
      refine Within.have_ (t := x1) ?_ (fun h1 => ?_)
      · subst x1
        refine Within.foldl ?_ (fun _ _ => ?_)
        · exact Within.refl
        · refine Within.andThen (State.zeroGran_within ..) (by decide) ?_
          exact Within.refl
      refine Within.have_ (t := x3) ?_ (fun h3 => ?_)
      · subst x3
        refine Within.andThen (State.dropMemOp_within ..) (by decide) ?_
        exact h1
      refine Within.have_ (t := x5) ?_ (fun h5 => ?_)
      · subst x5
        refine Within.set_mm (by decide) ?_
        exact h3
      refine Within.andThen (State.complete_within ..) (by decide) ?_
      exact h5
  · exact Within.refl

theorem State.commitMemOp_within (s : State) (x : MemOp) :
    Within [.outbox, .fresh, .regs, .mem, .mm, .sch, .cmd, .fl] s (State.commitMemOp s x) := by
  unfold State.commitMemOp
  extract_lets -useContext _ x2
  refine Within.have_ (t := x2) ?_ (fun h2 => ?_)
  · subst x2
    refine Within.andThen (State.dropMemOp_within ..) (by decide) ?_
    exact Within.refl
  split
  · extract_lets -useContext _ x4
    refine Within.have_ (t := x4) ?_ (fun h4 => ?_)
    · subst x4
      refine Within.ite (fun _ => ?_) (fun _ => ?_)
      · refine Within.andThen (State.complete_within ..) (by decide) ?_
        refine Within.andThen (State.switchObj_within ..) (by decide) ?_
        exact h2
      · refine Within.andThen (State.complete_within ..) (by decide) ?_
        exact h2
    refine Within.andThen (State.runMemWaits_within ..) (by decide) ?_
    exact h4
  · exact Within.refl

theorem execMoveCopyDone_within {q : CmdRef} {s : State} {t : State}
    (h : execMoveCopyDone q s = .next t) : Within [.outbox, .fresh, .regs, .mem, .mm, .sch, .cmd, .fl] s t := by
  unfold execMoveCopyDone at h
  obtain rfl := Host.Outcome.next.inj h
  split
  · exact Within.refl
  · refine Within.ite (fun _ => ?_) (fun _ => ?_)
    · exact Within.refl
    · refine Within.ite (fun _ => ?_) (fun _ => ?_)
      · refine Within.set_mm (by decide) ?_
        exact Within.refl
      · refine Within.andThen (State.commitMemOp_within ..) (by decide) ?_
        exact Within.refl

theorem State.switchMoves_within (s : State) :
    Within [.outbox, .fresh, .regs, .mem, .mm, .sch, .cmd, .fl] s (State.switchMoves s) := by
  unfold State.switchMoves
  refine Within.foldl ?_ (fun _ _ => ?_)
  · exact Within.refl
  · refine Within.andThen (State.commitMemOp_within ..) (by decide) ?_
    exact Within.refl

theorem State.updStack_within (s : State) (stack : Nat) (f : StackSt → StackSt) :
    Within [.mm] s (State.updStack s stack f) := by
  unfold State.updStack
  refine Within.set_mm (by decide) ?_
  exact Within.refl

theorem State.rebuildTraffic_within (s : State) (stack : Nat) (line : Nat) :
    Within [.mm, .sch] s (State.rebuildTraffic s stack line) := by
  unfold State.rebuildTraffic
  extract_lets -useContext _ x2
  refine Within.have_fn2 (f := x2) (fun _ _ => ?_) (fun h2 => ?_)
  · subst x2
    beta_reduce
    extract_lets -useContext 
    refine Within.ite (fun _ => ?_) (fun _ => ?_)
    · refine Within.andThen (State.traffic_within ..) (by decide) ?_
      exact Within.refl
    · refine Within.andThen (State.traffic_within ..) (by decide) ?_
      exact Within.refl
  refine Within.foldl ?_ (fun _ _ => ?_)
  · exact Within.refl
  · refine Within.trans ?_ (h2 ..)
    exact Within.refl

theorem execLineRebuild_within {stack : Nat} {line : Nat} {ok : Bool} {s : State} {t : State}
    (h : execLineRebuild stack line ok s = .next t) : Within [.outbox, .fresh, .regs, .flt, .mm, .sch, .mgmt] s t := by
  unfold execLineRebuild at h
  obtain rfl := Host.Outcome.next.inj h
  refine Within.ite (fun _ => ?_) (fun _ => ?_)
  · exact Within.refl
  · refine Within.ite (fun _ => ?_) (fun _ => ?_)
    · extract_lets -useContext x1 x2
      refine Within.have_ (t := x1) ?_ (fun h1 => ?_)
      · subst x1
        refine Within.andThen (State.updStack_within ..) (by decide) ?_
        exact Within.refl
      refine Within.have_ (t := x2) ?_ (fun h2 => ?_)
      · subst x2
        refine Within.andThen (State.rebuildTraffic_within ..) (by decide) ?_
        exact h1
      refine Within.andThen (State.faultLog_within ..) (by decide) ?_
      refine Within.andThen (State.stallUs_within ..) (by decide) ?_
      refine Within.andThen (State.count_within ..) (by decide) ?_
      refine Within.andThen (State.count_within ..) (by decide) ?_
      exact h2
    · refine Within.andThen (State.faultLog_within ..) (by decide) ?_
      exact Within.refl

theorem execDramScrubRead_within {stack : Nat} {line : Nat} {r : ScrubResult} {s : State} {t : State}
    (h : execDramScrubRead stack line r s = .next t) : Within [.outbox, .regs, .flt, .mm, .sch, .mgmt] s t := by
  unfold execDramScrubRead at h
  obtain rfl := Host.Outcome.next.inj h
  refine Within.ite (fun _ => ?_) (fun _ => ?_)
  · exact Within.refl
  · extract_lets -useContext _ x2 x3 _ x5 x6
    refine Within.have_ (t := x2) ?_ (fun h2 => ?_)
    · subst x2
      refine Within.andThen (State.traffic_within ..) (by decide) ?_
      exact Within.refl
    refine Within.have_ (t := x3) ?_ (fun h3 => ?_)
    · subst x3
      refine Within.ite (fun _ => ?_) (fun _ => ?_)
      · refine Within.andThen (State.updStack_within ..) (by decide) ?_
        exact h2
      · exact h2
    refine Within.have_ (t := x5) ?_ (fun h5 => ?_)
    · subst x5
      refine Within.andThen (State.updStack_within ..) (by decide) ?_
      exact h3
    refine Within.have_ (t := x6) ?_ (fun h6 => ?_)
    · subst x6
      refine Within.andThen (State.updStack_within ..) (by decide) ?_
      exact h3
    split
    · exact h3
    · refine Within.andThen (State.faultLog_within ..) (by decide) ?_
      refine Within.andThen (State.count_within ..) (by decide) ?_
      exact h5
    · refine Within.andThen (State.faultLog_within ..) (by decide) ?_
      refine Within.andThen (State.count_within ..) (by decide) ?_
      exact h6

theorem State.retireGran_within (s : State) (stack : Nat) (g : Nat) :
    Within [.outbox, .regs, .flt, .mm, .mgmt] s (State.retireGran s stack g) := by
  unfold State.retireGran
  extract_lets -useContext x1
  refine Within.have_ (t := x1) ?_ (fun h1 => ?_)
  · subst x1
    refine Within.andThen (State.updStack_within ..) (by decide) ?_
    exact Within.refl
  refine Within.andThen (State.faultLog_within ..) (by decide) ?_
  refine Within.set_mm (by decide) ?_
  exact h1

theorem State.copyGran_within (s : State) (stack : Nat) (g : Nat) (g2 : Nat) :
    Within [.mem, .mm] s (State.copyGran s stack g g2) := by
  unfold State.copyGran
  extract_lets -useContext _ x2
  refine Within.have_ (t := x2) ?_ (fun h2 => ?_)
  · subst x2
    refine Within.foldl ?_ (fun _ _ => ?_)
    · exact Within.refl
    · refine Within.andThen (State.t2Write_within ..) (by decide) ?_
      exact Within.refl
  refine Within.andThen (State.updStack_within ..) (by decide) ?_
  exact h2

theorem State.switchGran_within (s : State) (stack : Nat) (granule : Nat) (g2 : Nat) :
    Within [.mm, .cmd, .fl, .idx] s (State.switchGran s stack granule g2) := by
  unfold State.switchGran
  extract_lets -useContext 
  refine Within.set_mm_cmd_fl_idx (by decide) ?_
  exact Within.refl

theorem State.retireTo_within (s : State) (stack : Nat) (granule : Nat) (g2 : Nat) :
    Within [.outbox, .regs, .mem, .flt, .mm, .cmd, .fl, .mgmt, .idx] s (State.retireTo s stack granule g2) := by
  unfold State.retireTo
  refine Within.andThen (State.retireGran_within ..) (by decide) ?_
  refine Within.andThen (State.pruneFwds_within ..) (by decide) ?_
  refine Within.andThen (State.switchGran_within ..) (by decide) ?_
  refine Within.andThen (State.copyGran_within ..) (by decide) ?_
  exact Within.refl

theorem State.onGranuleRetire_within (s : State) (stack : Nat) (granule : Nat) :
    Within [.outbox, .fresh, .regs, .mem, .flt, .mm, .cmd, .fl, .mgmt, .idx] s (State.onGranuleRetire s stack granule) := by
  unfold State.onGranuleRetire
  refine Within.ite (fun _ => ?_) (fun _ => ?_)
  · exact Within.refl
  · refine Within.ite (fun _ => ?_) (fun _ => ?_)
    · refine Within.andThen (State.retireGran_within ..) (by decide) ?_
      exact Within.refl
    · refine Within.ite (fun _ => ?_) (fun _ => ?_)
      · refine Within.andThen (State.count_within ..) (by decide) ?_
        exact Within.refl
      · split
        · refine Within.andThen (State.retireTo_within ..) (by decide) ?_
          refine Within.andThen (State.takeGrans_within (by assumption)) (by decide) ?_
          exact Within.refl
        · refine Within.andThen (State.updStack_within ..) (by decide) ?_
          refine Within.andThen (State.count_within ..) (by decide) ?_
          exact Within.refl

theorem execGranuleRetire_within {stack : Nat} {granule : Nat} {s : State} {t : State}
    (h : execGranuleRetire stack granule s = .next t) : Within [.outbox, .fresh, .regs, .mem, .flt, .mm, .cmd, .fl, .mgmt, .idx] s t := by
  unfold execGranuleRetire at h
  obtain rfl := Host.Outcome.next.inj h
  refine Within.andThen (State.onGranuleRetire_within ..) (by decide) ?_
  exact Within.refl

theorem execStackThermalTick_within {stack : Nat} {temp : Nat} {s : State} {t : State}
    (h : execStackThermalTick stack temp s = .next t) : Within [.clock, .now, .regs, .mm] s t := by
  unfold execStackThermalTick at h
  obtain rfl := Host.Outcome.next.inj h
  refine Within.ite (fun _ => ?_) (fun _ => ?_)
  · exact Within.refl
  · split
    · exact Within.refl
    · extract_lets -useContext x1 _ _ _ x5
      refine Within.have_ (t := x1) ?_ (fun h1 => ?_)
      · subst x1
        refine Within.andThen (State.elapseTo_within ..) (by decide) ?_
        exact Within.refl
      refine Within.have_ (t := x5) ?_ (fun h5 => ?_)
      · subst x5
        refine Within.andThen (State.updStack_within ..) (by decide) ?_
        exact h1
      refine Within.ite (fun _ => ?_) (fun _ => ?_)
      · refine Within.andThen (State.count_within ..) (by decide) ?_
        exact h5
      · exact h5

theorem execLateRead_within {func : Nat} {tag : Nat} {s : State} {t : State}
    (h : execLateRead func tag s = .next t) : Within [.regs] s t := by
  unfold execLateRead at h
  obtain rfl := Host.Outcome.next.inj h
  split
  · refine Within.ite (fun _ => ?_) (fun _ => ?_)
    · refine Within.andThen (State.count_within ..) (by decide) ?_
      exact Within.refl
    · exact Within.refl
  · exact Within.refl

theorem State.setParGran_within (s : State) (die : Nat) (pg : Nat) :
    Within [.regs, .mem] s (State.setParGran s die pg) := by
  unfold State.setParGran
  extract_lets -useContext 
  refine Within.andThen (State.wr_within ..) (by decide) ?_
  refine Within.set_mem (by decide) ?_ ?_
  · exact Within.refl
  · exact memWf_filter _ _

end Sys2Proof.Machine
end

