-- ==== Sys2Proof/Laws/Ferry.lean ====
section
/-! SUPPORT. For each operation of Machine/Ferry.lean: the fields it may change, that it keeps the invariant, and that the watch clock does not go back. -/

namespace Sys2Proof.Machine

set_option linter.all false
set_option Elab.async false

theorem State.putSlot_within (s : State) (x : SlotSt) :
    Within [.mm] s (State.putSlot s x) := by
  unfold State.putSlot
  refine Within.set_mm (by decide) ?_
  exact Within.refl

theorem State.armWith_within (s : State) (island : Nat) (slot : Nat) (d : FerryDesc) :
    Within [.regs, .mm] s (State.armWith s island slot d) := by
  unfold State.armWith
  extract_lets -useContext _ _ _ x4 x5
  refine Within.have_ (t := x4) ?_ (fun h4 => ?_)
  · subst x4
    refine Within.set_mm (by decide) ?_
    exact Within.refl
  refine Within.have_ (t := x5) ?_ (fun h5 => ?_)
  · subst x5
    refine Within.andThen (State.putSlot_within ..) (by decide) ?_
    exact h4
  refine Within.ite (fun _ => ?_) (fun _ => ?_)
  · refine Within.andThen (State.putSlot_within ..) (by decide) ?_
    exact h4
  · refine Within.ite (fun _ => ?_) (fun _ => ?_)
    · refine Within.andThen (State.count_within ..) (by decide) ?_
      exact h5
    · exact h5

theorem State.arm_within (s : State) (island : Nat) (slot : Nat) :
    Within [.fresh, .regs, .mem, .mm, .sch, .fl, .kv] s (State.arm s island slot) := by
  unfold State.arm
  extract_lets -useContext 
  split
  · refine Within.andThen (State.armWith_within ..) (by decide) ?_
    rename_i hs
    split at hs
    · exact Within.mono (State.relocArm_within hs) (by decide)
    · obtain rfl := Option.some.inj hs
      exact Within.refl
  · exact Within.refl

theorem State.writeDesc_within (s : State) (island : Nat) (slot : Nat) (d : FerryDesc) :
    Within [.regs, .mm] s (State.writeDesc s island slot d) := by
  unfold State.writeDesc
  refine Within.ite (fun _ => ?_) (fun _ => ?_)
  · refine Within.foldl ?_ (fun _ _ => ?_)
    · exact Within.refl
    · extract_lets -useContext 
      refine Within.ite (fun _ => ?_) (fun _ => ?_)
      · refine Within.andThen (State.regWriteErr_within ..) (by decide) ?_
        exact Within.refl
      · refine Within.andThen (State.wr_within ..) (by decide) ?_
        exact Within.refl
  · refine Within.andThen (State.putSlot_within ..) (by decide) ?_
    exact Within.refl

theorem execFerryArm_within {island : Nat} {slot : Nat} {d : FerryDesc} {s : State} {t : State}
    (h : execFerryArm island slot d s = .next t) : Within [.fresh, .regs, .mem, .mm, .sch, .fl, .kv] s t := by
  unfold execFerryArm at h
  obtain rfl := Host.Outcome.next.inj h
  refine Within.ite (fun _ => ?_) (fun _ => ?_)
  · refine Within.andThen (State.arm_within ..) (by decide) ?_
    refine Within.andThen (State.writeDesc_within ..) (by decide) ?_
    exact Within.refl
  · exact Within.refl

theorem State.putAt_within (s : State) (a : Nat) (v : Byte) :
    Within [.mem] s (State.putAt s a v) := by
  unfold State.putAt
  refine Within.ite (fun _ => ?_) (fun _ => ?_)
  · refine Within.andThen (State.t2Write_within ..) (by decide) ?_
    exact Within.refl
  · refine Within.andThen (State.setByte_within ..) (by decide) ?_
    exact Within.refl

theorem State.followMove_within (s : State) (armed : Nat) (a : Nat) (v : Byte) :
    Within [.mem] s (State.followMove s armed a v) := by
  unfold State.followMove
  refine Within.foldl ?_ (fun _ _ => ?_)
  · exact Within.refl
  · refine Within.andThen (State.putAt_within ..) (by decide) ?_
    exact Within.refl

theorem State.devWrite_within (s : State) (armed : Nat) (a : Nat) (v : Byte) :
    Within [.mem] s (State.devWrite s armed a v) := by
  unfold State.devWrite
  refine Within.andThen (State.followMove_within ..) (by decide) ?_
  refine Within.andThen (State.putAt_within ..) (by decide) ?_
  exact Within.refl

theorem State.ferryCopy_within (s : State) (island : Nat) (armed : Nat) (d : FerryDesc) (n : Nat) :
    Within [.mem] s (State.ferryCopy s island armed d n) := by
  unfold State.ferryCopy
  extract_lets -useContext x1
  refine Within.have_fn3 (f := x1) (fun _ _ _ => ?_) (fun h1 => ?_)
  · subst x1
    beta_reduce
    refine Within.ite (fun _ => ?_) (fun _ => ?_)
    · refine Within.foldl ?_ (fun _ _ => ?_)
      · exact Within.refl
      · refine Within.andThen (State.setByte_within ..) (by decide) ?_
        exact Within.refl
    · refine Within.ite (fun _ => ?_) (fun _ => ?_)
      · refine Within.andThen (State.followMove_within ..) (by decide) ?_
        exact Within.refl
      · refine Within.andThen (State.devWrite_within ..) (by decide) ?_
        exact Within.refl
  refine Within.foldl ?_ (fun _ _ => ?_)
  · exact Within.refl
  · refine Within.foldl ?_ (fun _ _ => ?_)
    · exact Within.refl
    · refine Within.trans ?_ (h1 ..)
      exact Within.refl

theorem State.ferryFlash_within (s : State) (island : Nat) (d : FerryDesc) :
    Within [.fresh, .regs, .fl] s (State.ferryFlash s island d) := by
  unfold State.ferryFlash
  refine Within.foldl ?_ (fun _ _ => ?_)
  · exact Within.refl
  · refine Within.andThen (State.queueWrite_within ..) (by decide) ?_
    exact Within.refl

theorem State.endGen_within (s : State) (x : SlotSt) (stop : Option FerryCode) :
    Within [.mm] s (State.endGen s x stop) := by
  unfold State.endGen
  refine Within.andThen (State.putSlot_within ..) (by decide) ?_
  exact Within.refl

theorem State.stopGen_within (s : State) (x : SlotSt) (c : FerryCode) :
    Within [.regs, .mm] s (State.stopGen s x c) := by
  unfold State.stopGen
  extract_lets -useContext x1
  refine Within.have_ (t := x1) ?_ (fun h1 => ?_)
  · subst x1
    refine Within.andThen (State.endGen_within ..) (by decide) ?_
    exact Within.refl
  refine Within.andThen (State.pruneFwds_within ..) (by decide) ?_
  refine Within.ite (fun _ => ?_) (fun _ => ?_)
  · refine Within.andThen (State.count_within ..) (by decide) ?_
    exact h1
  · exact h1

theorem State.lockWait_within (s : State) (x : SlotSt) :
    Within [.regs, .mm] s (State.lockWait s x) := by
  unfold State.lockWait
  refine Within.ite (fun _ => ?_) (fun _ => ?_)
  · exact Within.refl
  · refine Within.andThen (State.count_within ..) (by decide) ?_
    refine Within.andThen (State.putSlot_within ..) (by decide) ?_
    exact Within.refl

theorem State.runGen_within (s : State) (x : SlotSt) (d : FerryDesc) (merged : Bool) :
    Within [.fresh, .regs, .mm, .sch, .fl] s (State.runGen s x d merged) := by
  unfold State.runGen
  extract_lets -useContext _ _ x3 x4 x5
  refine Within.have_ (t := x3) ?_ (fun h3 => ?_)
  · subst x3
    refine Within.andThen (State.putSlot_within ..) (by decide) ?_
    refine Within.set_mm (by decide) ?_
    exact Within.refl
  refine Within.have_ (t := x4) ?_ (fun h4 => ?_)
  · subst x4
    refine Within.foldl ?_ (fun _ _ => ?_)
    · exact h3
    · refine Within.andThen (State.queueRead_within ..) (by decide) ?_
      exact Within.refl
  refine Within.have_ (t := x5) ?_ (fun h5 => ?_)
  · subst x5
    refine Within.ite (fun _ => ?_) (fun _ => ?_)
    · refine Within.andThen (State.ferryFlash_within ..) (by decide) ?_
      exact h4
    · exact h4
  refine Within.ite (fun _ => ?_) (fun _ => ?_)
  · refine Within.set_sch (by decide) ?_
    exact h5
  · exact h5

theorem State.mergeGens_within (island : Nat) (x0 : Nat) (x1 : FerryDesc) (x2 : Nat) (x3 : State) :
    Within [.fresh, .regs, .mm, .sch, .fl] x3 (State.mergeGens island x0 x1 x2 x3) := by
  induction x0 generalizing x1 x2 x3 with
  | zero => exact Within.refl
  | succ n ih =>
    unfold State.mergeGens
    split
    · exact Within.refl
    · split
      · exact Within.refl
      · refine Within.ite (fun _ => ?_) (fun _ => Within.refl)
        split
        · exact Within.mono (State.stopGen_within ..) (by decide)
        · exact Within.trans (Within.andThen (State.count_within ..) (by decide) (Within.mono (State.runGen_within ..) (by decide))) (ih ..)

theorem execFerryGenerationStart_within {island : Nat} {s : State} {t : State}
    (h : execFerryGenerationStart island s = .next t) : Within [.fresh, .regs, .mm, .sch, .fl] s t := by
  unfold execFerryGenerationStart at h
  obtain rfl := Host.Outcome.next.inj h
  refine Within.ite (fun _ => ?_) (fun _ => ?_)
  · exact Within.refl
  · split
    · exact Within.refl
    · split
      · exact Within.refl
      · refine Within.ite (fun _ => ?_) (fun _ => ?_)
        · exact Within.refl
        · split
          · refine Within.andThen (State.stopGen_within ..) (by decide) ?_
            exact Within.refl
          · refine Within.ite (fun _ => ?_) (fun _ => ?_)
            · exact Within.refl
            · refine Within.ite (fun _ => ?_) (fun _ => ?_)
              · refine Within.andThen (State.lockWait_within ..) (by decide) ?_
                exact Within.refl
              · refine Within.andThen (State.mergeGens_within ..) (by decide) ?_
                refine Within.andThen (State.runGen_within ..) (by decide) ?_
                exact Within.refl

theorem execParityDeltaAck_within {stack : Nat} {line : Nat} {s : State} {t : State}
    (h : execParityDeltaAck stack line s = .next t) : Within [.mem, .mm] s t := by
  unfold execParityDeltaAck at h
  extract_lets -useContext  at h
  obtain rfl := Host.Outcome.next.inj h
  split
  · exact Within.refl
  · split
    · exact Within.refl
    · refine Within.ite (fun _ => ?_) (fun _ => ?_)
      · extract_lets -useContext _ x3
        refine Within.have_ (t := x3) ?_ (fun h3 => ?_)
        · subst x3
          refine Within.foldl ?_ (fun _ _ => ?_)
          · exact Within.refl
          · split
            · refine Within.andThen (State.devWrite_within ..) (by decide) ?_
              exact Within.refl
            · exact Within.refl
        refine Within.andThen (State.putSlot_within ..) (by decide) ?_
        exact h3
      · exact Within.refl

theorem State.rowTraffic_within (s : State) (f : Nat) (write : Bool) (r : Nat × Nat) :
    Within [.mm, .sch] s (State.rowTraffic s f write r) := by
  unfold State.rowTraffic
  split
  · refine Within.foldl ?_ (fun _ _ => ?_)
    · exact Within.refl
    · extract_lets -useContext 
      refine Within.andThen (State.granTraffic_within ..) (by decide) ?_
      exact Within.refl
  · refine Within.andThen (State.charge_within ..) (by decide) ?_
    exact Within.refl
  · exact Within.refl

theorem State.ferryTraffic_within (s : State) (island : Nat) (d : FerryDesc) :
    Within [.mm, .sch] s (State.ferryTraffic s island d) := by
  unfold State.ferryTraffic
  refine Within.foldl ?_ (fun _ _ => ?_)
  · refine Within.foldl ?_ (fun _ _ => ?_)
    · exact Within.refl
    · refine Within.andThen (State.rowTraffic_within ..) (by decide) ?_
      exact Within.refl
  · refine Within.andThen (State.rowTraffic_within ..) (by decide) ?_
    exact Within.refl

theorem State.ferryStall_within (s : State) (d : FerryDesc) :
    Within [.fresh, .regs] s (State.ferryStall s d) := by
  unfold State.ferryStall
  refine Within.ite (fun _ => ?_) (fun _ => ?_)
  · refine Within.andThen (State.stallUs_within ..) (by decide) ?_
    refine Within.andThen (State.count_within ..) (by decide) ?_
    exact Within.refl
  · refine Within.ite (fun _ => ?_) (fun _ => ?_)
    · refine Within.andThen (State.stallThermal_within ..) (by decide) ?_
      exact Within.refl
    · exact Within.refl

theorem execFerryGenerationDone_within {island : Nat} {slot : Nat} {readable : Bool} {s : State} {t : State}
    (h : execFerryGenerationDone island slot readable s = .next t) : Within [.fresh, .regs, .mem, .mm, .sch, .fl, .kv] s t := by
  unfold execFerryGenerationDone at h
  extract_lets -useContext  at h
  obtain rfl := Host.Outcome.next.inj h
  split
  · exact Within.refl
  · refine Within.ite (fun _ => ?_) (fun _ => ?_)
    · exact Within.refl
    · refine Within.ite (fun _ => ?_) (fun _ => ?_)
      · refine Within.andThen (State.lockWait_within ..) (by decide) ?_
        exact Within.refl
      · refine Within.ite (fun _ => ?_) (fun _ => ?_)
        · extract_lets -useContext 
          refine Within.andThen (State.stopGen_within ..) (by decide) ?_
          refine Within.andThen (State.ferryCopy_within ..) (by decide) ?_
          refine Within.set_fresh (by decide) ?_
          exact Within.refl
        · refine Within.ite (fun _ => ?_) (fun _ => ?_)
          · exact Within.refl
          · extract_lets -useContext x3 x4 x5
            refine Within.have_ (t := x3) ?_ (fun h3 => ?_)
            · subst x3
              refine Within.foldl ?_ (fun _ _ => ?_)
              · refine Within.andThen (State.ferryTraffic_within ..) (by decide) ?_
                refine Within.andThen (State.ferryCopy_within ..) (by decide) ?_
                exact Within.refl
              · refine Within.andThen (State.mapUnit_within ..) (by decide) ?_
                exact Within.refl
            refine Within.have_ (t := x4) ?_ (fun h4 => ?_)
            · subst x4
              refine Within.andThen (State.ferryStall_within ..) (by decide) ?_
              refine Within.andThen (State.endGen_within ..) (by decide) ?_
              exact h3
            refine Within.have_ (t := x5) ?_ (fun h5 => ?_)
            · subst x5
              refine Within.ite (fun _ => ?_) (fun _ => ?_)
              · refine Within.andThen (State.irq_within ..) (by decide) ?_
                exact h4
              · exact h4
            refine Within.andThen (State.pruneFwds_within ..) (by decide) ?_
            refine Within.ite (fun _ => ?_) (fun _ => ?_)
            · refine Within.andThen (State.arm_within ..) (by decide) ?_
              exact h5
            · exact h5

end Sys2Proof.Machine
end

