-- ==== Sys2Proof/Laws/Flash.lean ====
section
/-! SUPPORT. For each operation of Machine/Flash.lean: the fields it may change, that it keeps the invariant, and that the watch clock does not go back. -/

namespace Sys2Proof.Machine

set_option linter.all false
set_option Elab.async false

theorem State.flashLog_within (s : State) (cls : Nat) (action : Nat) (u : Nat) :
    Within [.outbox, .regs, .flt, .mgmt] s (State.flashLog s cls action u) := by
  unfold State.flashLog
  refine Within.andThen (State.faultLog_within ..) (by decide) ?_
  exact Within.refl

theorem State.loseUnit_within (s : State) (u : Nat) :
    Within [.outbox, .regs, .flt, .fl, .mgmt] s (State.loseUnit s u) := by
  unfold State.loseUnit
  refine Within.ite (fun _ => ?_) (fun _ => ?_)
  · exact Within.refl
  · refine Within.andThen (State.flashLog_within ..) (by decide) ?_
    refine Within.andThen (State.count_within ..) (by decide) ?_
    refine Within.set_fl (by decide) ?_
    exact Within.refl

theorem execFlashReadDone_within {unit : Nat} {retries : Nat} {readable : Bool} {s : State} {t : State}
    (h : execFlashReadDone unit retries readable s = .next t) : Within [.outbox, .fresh, .regs, .flt, .fl, .mgmt] s t := by
  unfold execFlashReadDone at h
  obtain rfl := Host.Outcome.next.inj h
  refine Within.ite (fun _ => ?_) (fun _ => ?_)
  · exact Within.refl
  · refine Within.ite (fun _ => ?_) (fun _ => ?_)
    · refine Within.ite (fun _ => ?_) (fun _ => ?_)
      · refine Within.andThen (State.mapLook_within ..) (by decide) ?_
        exact Within.refl
      · exact Within.refl
    · split
      · exact Within.refl
      · extract_lets -useContext x1
        refine Within.have_ (t := x1) ?_ (fun h1 => ?_)
        · subst x1
          refine Within.andThen (State.readPage_within ..) (by decide) ?_
          refine Within.andThen (State.serveRead_within (by assumption)) (by decide) ?_
          exact Within.refl
        refine Within.ite (fun _ => ?_) (fun _ => ?_)
        · exact h1
        · refine Within.ite (fun _ => ?_) (fun _ => ?_)
          · refine Within.andThen (State.loseUnit_within ..) (by decide) ?_
            exact h1
          · refine Within.ite (fun _ => ?_) (fun _ => ?_)
            · exact h1
            · refine Within.set_fl (by decide) ?_
              exact h1

theorem State.onStripeRebuild_within (s : State) (unit : Nat) (ok : Bool) :
    Within [.outbox, .fresh, .regs, .flt, .sch, .fl, .mgmt] s (State.onStripeRebuild s unit ok) := by
  unfold State.onStripeRebuild
  refine Within.ite (fun _ => ?_) (fun _ => ?_)
  · exact Within.refl
  · split
    · exact Within.refl
    · extract_lets -useContext _ _ _ x4 x5 _ x7
      refine Within.have_ (t := x4) ?_ (fun h4 => ?_)
      · subst x4
        refine Within.ite (fun _ => ?_) (fun _ => ?_)
        · refine Within.andThen (State.retireBlk_within ..) (by decide) ?_
          exact Within.refl
        · refine Within.andThen (State.putBlk_within ..) (by decide) ?_
          exact Within.refl
      refine Within.have_ (t := x5) ?_ (fun h5 => ?_)
      · subst x5
        refine Within.andThen (State.stallUs_within ..) (by decide) ?_
        refine Within.andThen (State.count_within ..) (by decide) ?_
        refine Within.andThen (State.count_within ..) (by decide) ?_
        exact h4
      refine Within.have_ (t := x7) ?_ (fun h7 => ?_)
      · subst x7
        refine Within.set_fl (by decide) ?_
        exact h5
      refine Within.ite (fun _ => ?_) (fun _ => ?_)
      · refine Within.andThen (State.flashLog_within ..) (by decide) ?_
        refine Within.andThen (State.flashWork_within ..) (by decide) ?_
        refine Within.andThen (State.mapUnit_within ..) (by decide) ?_
        exact h7
      · refine Within.andThen (State.loseUnit_within ..) (by decide) ?_
        exact Within.refl

theorem execStripeRebuild_within {unit : Nat} {ok : Bool} {s : State} {t : State}
    (h : execStripeRebuild unit ok s = .next t) : Within [.outbox, .fresh, .regs, .flt, .sch, .fl, .mgmt] s t := by
  unfold execStripeRebuild at h
  obtain rfl := Host.Outcome.next.inj h
  refine Within.andThen (State.onStripeRebuild_within ..) (by decide) ?_
  exact Within.refl

theorem execFlashWriteDurable_within {unit : Nat} {s : State} {t : State}
    (h : execFlashWriteDurable unit s = .next t) : Within [.fresh, .regs, .mem, .fl] s t := by
  unfold execFlashWriteDurable at h
  obtain rfl := Host.Outcome.next.inj h
  split
  · exact Within.refl
  · refine Within.ite (fun _ => ?_) (fun _ => ?_)
    · exact Within.refl
    · extract_lets -useContext x1
      refine Within.have_ (t := x1) ?_ (fun h1 => ?_)
      · subst x1
        refine Within.ite (fun _ => ?_) (fun _ => ?_)
        · exact Within.refl
        · refine Within.andThen (State.setBytes_within ..) (by decide) ?_
          exact Within.refl
      refine Within.andThen (State.endWrite_within ..) (by decide) ?_
      refine Within.andThen (State.dropWrite_within ..) (by decide) ?_
      exact h1

theorem execStripeCloseTimeout_within {group : Nat} {s : State} {t : State}
    (h : execStripeCloseTimeout group s = .next t) : Within [.clock, .now, .fl] s t := by
  unfold execStripeCloseTimeout at h
  obtain rfl := Host.Outcome.next.inj h
  split
  · exact Within.refl
  · extract_lets -useContext x1
    refine Within.have_ (t := x1) ?_ (fun h1 => ?_)
    · subst x1
      refine Within.andThen (State.elapseTo_within ..) (by decide) ?_
      exact Within.refl
    refine Within.andThen (State.putStripe_within ..) (by decide) ?_
    refine Within.set_fl (by decide) ?_
    exact h1

theorem State.startFMove_within (s : State) (k : FMoveKind) (u : Nat) :
    Within [.fresh, .fl] s (State.startFMove s k u) := by
  unfold State.startFMove
  split
  · exact Within.refl
  · extract_lets -useContext x1 x2
    refine Within.have_ (t := x1.2) ?_ (fun h1 => ?_)
    · subst x1
      with_reducible refine Within.andThen (State.newPlace_within ..) (by decide) ?_
      exact Within.refl
    refine Within.have_ (t := x2) ?_ (fun h2 => ?_)
    · subst x2
      exact h1
    split
    · exact Within.refl
    · refine Within.set_fl (by decide) ?_
      exact h2

theorem State.startMoves_within (s : State) (ch : Nat) (b : Nat) (k : FMoveKind) :
    Within [.fresh, .fl] s (State.startMoves s ch b k) := by
  unfold State.startMoves
  refine Within.foldl ?_ (fun _ _ => ?_)
  · exact Within.refl
  · refine Within.andThen (State.startFMove_within ..) (by decide) ?_
    exact Within.refl

theorem State.eraseBlk_within (s : State) (ch : Nat) (b : Nat) :
    Within [.fresh, .regs, .fl] s (State.eraseBlk s ch b) := by
  unfold State.eraseBlk
  extract_lets -useContext _ _ x3 x4 _ x6
  refine Within.have_ (t := x3) ?_ (fun h3 => ?_)
  · subst x3
    refine Within.set_fresh (by decide) ?_
    exact Within.refl
  refine Within.have_ (t := x4) ?_ (fun h4 => ?_)
  · subst x4
    refine Within.ite (fun _ => ?_) (fun _ => ?_)
    · refine Within.andThen (State.retireBlk_within ..) (by decide) ?_
      exact h3
    · refine Within.andThen (State.putBlk_within ..) (by decide) ?_
      exact h3
  refine Within.have_ (t := x6) ?_ (fun h6 => ?_)
  · subst x6
    refine Within.ite (fun _ => ?_) (fun _ => ?_)
    · exact h4
    · refine Within.set_fl (by decide) ?_
      exact h4
  refine Within.ite (fun _ => ?_) (fun _ => ?_)
  · exact Within.refl
  · refine Within.ite (fun _ => ?_) (fun _ => ?_)
    · exact h6
    · refine Within.set_fl (by decide) ?_
      exact h6

theorem execGcStep_within {channel : Nat} {block : Nat} {s : State} {t : State}
    (h : execGcStep channel block s = .next t) : Within [.fresh, .regs, .fl] s t := by
  unfold execGcStep at h
  obtain rfl := Host.Outcome.next.inj h
  refine Within.ite (fun _ => ?_) (fun _ => ?_)
  · exact Within.refl
  · extract_lets -useContext 
    refine Within.ite (fun _ => ?_) (fun _ => ?_)
    · refine Within.ite (fun _ => ?_) (fun _ => ?_)
      · exact Within.refl
      · refine Within.andThen (State.eraseBlk_within ..) (by decide) ?_
        exact Within.refl
    · refine Within.ite (fun _ => ?_) (fun _ => ?_)
      · exact Within.refl
      · refine Within.andThen (State.startMoves_within ..) (by decide) ?_
        exact Within.refl

theorem execWearLevelMove_within {channel : Nat} {block : Nat} {s : State} {t : State}
    (h : execWearLevelMove channel block s = .next t) : Within [.fresh, .fl] s t := by
  unfold execWearLevelMove at h
  obtain rfl := Host.Outcome.next.inj h
  refine Within.ite (fun _ => ?_) (fun _ => ?_)
  · refine Within.andThen (State.startMoves_within ..) (by decide) ?_
    exact Within.refl
  · exact Within.refl

theorem execReadDisturbRelocate_within {channel : Nat} {s : State} {t : State}
    (h : execReadDisturbRelocate channel s = .next t) : Within [.fresh, .regs, .fl] s t := by
  unfold execReadDisturbRelocate at h
  obtain rfl := Host.Outcome.next.inj h
  refine Within.ite (fun _ => ?_) (fun _ => ?_)
  · exact Within.refl
  · extract_lets -useContext y1
    clear_value y1
    split
    · exact Within.refl
    · extract_lets -useContext x2
      refine Within.have_ (t := x2) ?_ (fun h2 => ?_)
      · subst x2
        refine Within.andThen (State.putBlk_within ..) (by decide) ?_
        refine Within.andThen (State.startMoves_within ..) (by decide) ?_
        exact Within.refl
      refine Within.ite (fun _ => ?_) (fun _ => ?_)
      · refine Within.andThen (State.count_within ..) (by decide) ?_
        exact h2
      · exact h2

theorem execMoveMapSwitch_within {unit : Nat} {s : State} {t : State}
    (h : execMoveMapSwitch unit s = .next t) : Within [.fresh, .regs, .sch, .fl] s t := by
  unfold execMoveMapSwitch at h
  obtain rfl := Host.Outcome.next.inj h
  split
  · exact Within.refl
  · extract_lets -useContext _ _ x3
    refine Within.have_ (t := x3) ?_ (fun h3 => ?_)
    · subst x3
      refine Within.andThen (State.releaseReads_within ..) (by decide) ?_
      refine Within.set_fl (by decide) ?_
      exact Within.refl
    refine Within.ite (fun _ => ?_) (fun _ => ?_)
    · exact Within.refl
    · refine Within.ite (fun _ => ?_) (fun _ => ?_)
      · refine Within.andThen (State.flashWork_within ..) (by decide) ?_
        refine Within.andThen (State.settle_within ..) (by decide) ?_
        exact h3
      · refine Within.andThen (State.count_within ..) (by decide) ?_
        refine Within.andThen (State.stripeDone_within ..) (by decide) ?_
        exact h3

theorem execFlashScrubRead_within {channel : Nat} {page : Nat} {r : ScrubResult} {s : State} {t : State}
    (h : execFlashScrubRead channel page r s = .next t) : Within [.outbox, .regs, .flt, .sch, .fl, .mgmt] s t := by
  unfold execFlashScrubRead at h
  obtain rfl := Host.Outcome.next.inj h
  refine Within.ite (fun _ => ?_) (fun _ => ?_)
  · exact Within.refl
  · extract_lets -useContext _ x2 y3
    clear_value y3
    refine Within.have_ (t := x2) ?_ (fun h2 => ?_)
    · subst x2
      refine Within.ite (fun _ => ?_) (fun _ => ?_)
      · refine Within.set_fl (by decide) ?_
        exact Within.refl
      · exact Within.refl
    split
    · exact h2
    · extract_lets -useContext x4
      refine Within.have_ (t := x4) ?_ (fun h4 => ?_)
      · subst x4
        refine Within.andThen (State.flashWork_within ..) (by decide) ?_
        refine Within.andThen (State.countRead_within ..) (by decide) ?_
        exact h2
      split
      · exact h4
      · refine Within.andThen (State.flashLog_within ..) (by decide) ?_
        exact h4
      · refine Within.foldl ?_ (fun _ _ => ?_)
        · refine Within.andThen (State.count_within ..) (by decide) ?_
          exact h4
        · refine Within.ite (fun _ => ?_) (fun _ => ?_)
          · exact Within.refl
          · refine Within.ite (fun _ => ?_) (fun _ => ?_)
            · refine Within.andThen (State.loseUnit_within ..) (by decide) ?_
              exact Within.refl
            · refine Within.set_fl (by decide) ?_
              exact Within.refl

theorem execFlashChannelFail_within {channel : Nat} {s : State} {t : State}
    (h : execFlashChannelFail channel s = .next t) : Within [.outbox, .regs, .flt, .fl, .mgmt] s t := by
  unfold execFlashChannelFail at h
  obtain rfl := Host.Outcome.next.inj h
  refine Within.ite (fun _ => ?_) (fun _ => ?_)
  · exact Within.refl
  · refine Within.andThen (State.faultLog_within ..) (by decide) ?_
    refine Within.set_fl (by decide) ?_
    exact Within.refl

theorem execVuindigSystemReadDone_within {s : State} {t : State}
    (h : execVuindigSystemReadDone s = .next t) : Within [.fl] s t := by
  unfold execVuindigSystemReadDone at h
  obtain rfl := Host.Outcome.next.inj h
  refine Within.ite (fun _ => ?_) (fun _ => ?_)
  · refine Within.set_fl (by decide) ?_
    exact Within.refl
  · exact Within.refl

theorem State.takeCache_within (s : State) :
    Within [.fresh, .fl] s (State.takeCache s) := by
  unfold State.takeCache
  extract_lets -useContext 
  refine Within.set_fresh_fl (by decide) ?_
  exact Within.refl

theorem execSpillRegionReady_within {s : State} {t : State}
    (h : execSpillRegionReady s = .next t) : Within [.fl] s t := by
  unfold execSpillRegionReady at h
  obtain rfl := Host.Outcome.next.inj h
  refine Within.ite (fun _ => ?_) (fun _ => ?_)
  · refine Within.set_fl (by decide) ?_
    exact Within.refl
  · exact Within.refl

end Sys2Proof.Machine
end

