-- ==== Sys2Proof/Laws/Contexts.lean ====
section
/-! SUPPORT. For each operation of Machine/Contexts.lean: the fields it may change, that it keeps the invariant, and that the watch clock does not go back. -/

namespace Sys2Proof.Machine

set_option linter.all false
set_option Elab.async false

theorem State.undoSeqOpen_within (s : State) (slot : Nat) :
    Within [.outbox, .fresh, .regs, .mem, .mm, .sch, .zwx, .fl, .ar, .kv, .gen] s (State.undoSeqOpen s slot) := by
  unfold State.undoSeqOpen
  extract_lets -useContext x1
  refine Within.have_ (t := x1) ?_ (fun h1 => ?_)
  · subst x1
    refine Within.foldl ?_ (fun _ _ => ?_)
    · exact Within.refl
    · refine Within.foldl ?_ (fun _ _ => ?_)
      · exact Within.refl
      · refine Within.ite (fun _ => ?_) (fun _ => ?_)
        · refine Within.andThen (State.leaveStep_within ..) (by decide) ?_
          refine Within.andThen (State.updEntry_within ..) (by decide) ?_
          exact Within.refl
        · exact Within.refl
  refine Within.andThen (State.freeSeq_within ..) (by decide) ?_
  exact h1

theorem State.dropSel_within (s : State) (r : CmdRef) :
    Within [.mm, .sch, .idx] s (State.dropSel s r) := by
  unfold State.dropSel
  split
  · refine Within.andThen (State.dropRuns_within ..) (by decide) ?_
    refine Within.andThen (State.seqOver_within ..) (by decide) ?_
    refine Within.set_idx (by decide) ?_
    exact Within.refl
  · exact Within.refl

theorem State.dropMem_within (s : State) (r : CmdRef) :
    Within [.outbox, .fresh, .regs, .mem, .mm, .sch, .cmd, .fl] s (State.dropMem s r) := by
  unfold State.dropMem
  extract_lets -useContext x1 _ x3
  refine Within.have_ (t := x1) ?_ (fun h1 => ?_)
  · subst x1
    refine Within.andThen (State.dropMemOp_within ..) (by decide) ?_
    exact Within.refl
  refine Within.have_ (t := x3) ?_ (fun h3 => ?_)
  · subst x3
    refine Within.set_mm (by decide) ?_
    exact h1
  split
  · refine Within.andThen (State.runMemWaits_within ..) (by decide) ?_
    exact h3
  · exact h3

theorem State.dropSteps_within (s : State) (r : CmdRef) :
    Within [.outbox, .fresh, .regs, .mem, .mm, .sch, .zwx, .fl, .ar, .kv, .gen] s (State.dropSteps s r) := by
  unfold State.dropSteps
  extract_lets -useContext _ x2
  refine Within.have_ (t := x2) ?_ (fun h2 => ?_)
  · subst x2
    refine Within.set_gen (by decide) ?_
    exact Within.refl
  refine Within.foldl ?_ (fun _ _ => ?_)
  · exact h2
  · refine Within.andThen (State.discardStep_within ..) (by decide) ?_
    exact Within.refl

theorem State.dropOpens_within (s : State) (r : CmdRef) :
    Within [.outbox, .fresh, .regs, .mem, .mm, .sch, .zwx, .fl, .ar, .kv, .gen] s (State.dropOpens s r) := by
  unfold State.dropOpens
  refine Within.foldl ?_ (fun _ _ => ?_)
  · exact Within.refl
  · refine Within.andThen (State.undoSeqOpen_within ..) (by decide) ?_
    exact Within.refl

theorem State.discard_within (s : State) (l : Live) :
    Within [.outbox, .fresh, .regs, .mem, .mm, .sch, .cmd, .zwx, .fl, .ar, .idx, .kv, .gen] s (State.discard s l) := by
  unfold State.discard
  extract_lets -useContext _ _ x3
  refine Within.have_ (t := x3) ?_ (fun h3 => ?_)
  · subst x3
    refine Within.andThen (State.dropTasks_within ..) (by decide) ?_
    exact Within.refl
  refine Within.ite (fun _ => ?_) (fun _ => ?_)
  · refine Within.andThen (State.dropQuery_within ..) (by decide) ?_
    exact h3
  · refine Within.ite (fun _ => ?_) (fun _ => ?_)
    · refine Within.andThen (State.dropMutate_within ..) (by decide) ?_
      exact h3
    · refine Within.ite (fun _ => ?_) (fun _ => ?_)
      · refine Within.andThen (State.dropSel_within ..) (by decide) ?_
        exact h3
      · refine Within.ite (fun _ => ?_) (fun _ => ?_)
        · refine Within.andThen (State.dropSteps_within ..) (by decide) ?_
          exact h3
        · refine Within.ite (fun _ => ?_) (fun _ => ?_)
          · refine Within.andThen (State.dropOpens_within ..) (by decide) ?_
            exact h3
          · refine Within.ite (fun _ => ?_) (fun _ => ?_)
            · refine Within.set_gen (by decide) ?_
              exact h3
            · refine Within.ite (fun _ => ?_) (fun _ => ?_)
              · refine Within.andThen (State.dropMoves_within ..) (by decide) ?_
                exact h3
              · refine Within.ite (fun _ => ?_) (fun _ => ?_)
                · refine Within.andThen (State.dropMem_within ..) (by decide) ?_
                  exact h3
                · refine Within.ite (fun _ => ?_) (fun _ => ?_)
                  · refine Within.set_idx (by decide) ?_
                    exact h3
                  · exact h3

theorem State.ctxOpen_within (s : State) (r : CmdRef) (f : Nat) (b : Body) :
    Within [.outbox, .regs, .mm, .sch, .cmd] s (State.ctxOpen s r f b) := by
  unfold State.ctxOpen
  extract_lets -useContext y1
  clear_value y1
  split
  · refine Within.andThen (State.complete_within ..) (by decide) ?_
    exact Within.refl
  · refine Within.ite (fun _ => ?_) (fun _ => ?_)
    · refine Within.andThen (State.complete_within ..) (by decide) ?_
      exact Within.refl
    · extract_lets -useContext 
      refine Within.andThen (State.complete_within ..) (by decide) ?_
      refine Within.set_sch (by decide) ?_
      exact Within.refl

theorem State.ctxAdmit_within (s : State) (r : CmdRef) (b : Body) (c : Ctx) :
    Within [.outbox, .regs, .mm, .sch, .cmd] s (State.ctxAdmit s r b c) := by
  unfold State.ctxAdmit
  extract_lets -useContext x1
  refine Within.have_fn2 (f := x1) (fun _ _ => ?_) (fun h1 => ?_)
  · subst x1
    beta_reduce
    refine Within.andThen (State.complete_within ..) (by decide) ?_
    exact Within.refl
  split
  · refine Within.trans ?_ (h1 ..)
    exact Within.refl
  · refine Within.trans ?_ (h1 ..)
    exact Within.refl
  · refine Within.ite (fun _ => ?_) (fun _ => ?_)
    · refine Within.trans ?_ (h1 ..)
      exact Within.refl
    · split
      · refine Within.trans ?_ (h1 ..)
        refine Within.fst ?_ (by assumption)
        with_reducible refine Within.andThen (State.takeShare_within ..) (by decide) ?_
        exact Within.refl
      · extract_lets -useContext x2
        refine Within.have_ (t := x2) ?_ (fun h2 => ?_)
        · subst x2
          refine Within.andThen (State.updCtx_within ..) (by decide) ?_
          refine Within.fst ?_ (by assumption)
          with_reducible refine Within.andThen (State.takeShare_within ..) (by decide) ?_
          exact Within.refl
        refine Within.andThen (State.releaseHeld_within ..) (by decide) ?_
        refine Within.andThen (State.complete_within ..) (by decide) ?_
        exact h2

theorem State.holdBack_within (s : State) (l : Live) :
    Within [.outbox, .fresh, .regs, .mem, .mm, .sch, .cmd, .zwx, .fl, .ar, .idx, .kv, .gen] s (State.holdBack s l) := by
  unfold State.holdBack
  extract_lets -useContext x1 _ x3 x4
  refine Within.have_ (t := x1) ?_ (fun h1 => ?_)
  · subst x1
    refine Within.andThen (State.discard_within ..) (by decide) ?_
    exact Within.refl
  refine Within.have_ (t := x3) ?_ (fun h3 => ?_)
  · subst x3
    refine Within.set_cmd (by decide) ?_
    exact h1
  refine Within.have_ (t := x4) ?_ (fun h4 => ?_)
  · subst x4
    refine Within.andThen (State.updLive_within ..) (by decide) ?_
    exact h3
  refine Within.andThen (State.updChan_within ..) (by decide) ?_
  exact h4

theorem State.ctxRetire_within (s : State) (r : CmdRef) (c : Ctx) :
    Within [.outbox, .fresh, .regs, .mem, .mm, .sch, .cmd, .zwx, .fl, .ar, .idx, .kv, .gen] s (State.ctxRetire s r c) := by
  unfold State.ctxRetire
  extract_lets -useContext x1 x2
  refine Within.have_ (t := x1) ?_ (fun h1 => ?_)
  · subst x1
    refine Within.andThen (State.killTasks_within ..) (by decide) ?_
    refine Within.andThen (State.updCtx_within ..) (by decide) ?_
    exact Within.refl
  refine Within.have_ (t := x2) ?_ (fun h2 => ?_)
  · subst x2
    refine Within.foldl ?_ (fun _ _ => ?_)
    · exact h1
    · refine Within.andThen (State.discardStep_within ..) (by decide) ?_
      exact Within.refl
  refine Within.foldl ?_ (fun _ _ => ?_)
  · exact h2
  · refine Within.andThen (State.holdBack_within ..) (by decide) ?_
    exact Within.refl

theorem State.ctxClose_within (s : State) (r : CmdRef) (c : Ctx) :
    Within [.outbox, .regs, .mm, .sch, .cmd] s (State.ctxClose s r c) := by
  unfold State.ctxClose
  refine Within.ite (fun _ => ?_) (fun _ => ?_)
  · refine Within.andThen (State.complete_within ..) (by decide) ?_
    exact Within.refl
  · refine Within.andThen (State.complete_within ..) (by decide) ?_
    refine Within.set_sch (by decide) ?_
    exact Within.refl

theorem State.chanOpen_within (s : State) (r : CmdRef) (f : Nat) (ring : Nat) (src : Nat) (b : Body) (c : Ctx) :
    Within [.outbox, .fresh, .regs, .mm, .sch, .cmd, .idx] s (State.chanOpen s r f ring src b c) := by
  unfold State.chanOpen
  extract_lets -useContext x1
  refine Within.have_of1 (f := x1) (fun _ => ?_) (fun h1 => ?_)
  · subst x1
    beta_reduce
    refine Within.andThen (State.complete_within ..) (by decide) ?_
    exact Within.refl
  refine Within.ite (fun _ => ?_) (fun _ => ?_)
  · exact h1 ..
  · refine Within.ite (fun _ => ?_) (fun _ => ?_)
    · exact h1 ..
    · split
      · extract_lets -useContext 
        refine Within.andThen (State.complete_within ..) (by decide) ?_
        refine Within.andThen (State.addMark_within ..) (by decide) ?_
        refine Within.set_sch (by decide) ?_
        refine Within.snd ?_ (by assumption)
        with_reducible refine Within.andThen (State.draw_within ..) (by decide) ?_
        exact Within.refl

theorem State.chanClose_within (s : State) (r : CmdRef) (f : Nat) (b : Body) :
    Within [.outbox, .regs, .mm, .sch, .cmd] s (State.chanClose s r f b) := by
  unfold State.chanClose
  split
  · refine Within.andThen (State.complete_within ..) (by decide) ?_
    exact Within.refl
  · refine Within.ite (fun _ => ?_) (fun _ => ?_)
    · refine Within.andThen (State.complete_within ..) (by decide) ?_
      exact Within.refl
    · refine Within.andThen (State.updChan_within ..) (by decide) ?_
      exact Within.refl

theorem actCtx_within  (r : CmdRef) (l : Live) (s : State) :
    Within [.outbox, .fresh, .regs, .mem, .mm, .sch, .cmd, .zwx, .fl, .ar, .idx, .kv, .gen] s (actCtx r l s) := by
  unfold actCtx
  extract_lets -useContext _ _ x3
  refine Within.have_ (t := x3) ?_ (fun h3 => ?_)
  · subst x3
    refine Within.andThen (State.complete_within ..) (by decide) ?_
    exact Within.refl
  split
  · refine Within.andThen (State.complete_within ..) (by decide) ?_
    exact Within.refl
  · refine Within.ite (fun _ => ?_) (fun _ => ?_)
    · refine Within.andThen (State.ctxOpen_within ..) (by decide) ?_
      exact Within.refl
    · refine Within.ite (fun _ => ?_) (fun _ => ?_)
      · refine Within.andThen (State.chanClose_within ..) (by decide) ?_
        exact Within.refl
      · split
        · refine Within.andThen (State.complete_within ..) (by decide) ?_
          exact Within.refl
        · split
          · refine Within.ite (fun _ => ?_) (fun _ => ?_)
            · refine Within.andThen (State.ctxAdmit_within ..) (by decide) ?_
              exact Within.refl
            · exact h3
          · refine Within.ite (fun _ => ?_) (fun _ => ?_)
            · refine Within.andThen (State.ctxRetire_within ..) (by decide) ?_
              exact Within.refl
            · exact h3
          · refine Within.andThen (State.ctxClose_within ..) (by decide) ?_
            exact Within.refl
          · refine Within.andThen (State.chanOpen_within ..) (by decide) ?_
            exact Within.refl

theorem execOpenCtx_within {h : CmdHdr} {b : Body} {s : State} {t : State}
    (h : execOpenCtx h b s = .next t) : Within [.outbox, .fresh, .regs, .mem, .mm, .sch, .cmd, .zwx, .fl, .mgmt, .ar, .idx, .kv, .gen] s t := by
  unfold execOpenCtx at h
  obtain rfl := Host.Outcome.next.inj h
  refine Within.trans ?_ (State.command_within (by decide) (fun _ _ _ => ?_) ..)
  · exact Within.refl
  · exact Within.mono (actCtx_within ..) (by decide)

theorem execAdmitCtx_within {h : CmdHdr} {b : Body} {s : State} {t : State}
    (h : execAdmitCtx h b s = .next t) : Within [.outbox, .fresh, .regs, .mem, .mm, .sch, .cmd, .zwx, .fl, .mgmt, .ar, .idx, .kv, .gen] s t := by
  unfold execAdmitCtx at h
  obtain rfl := Host.Outcome.next.inj h
  refine Within.trans ?_ (State.command_within (by decide) (fun _ _ _ => ?_) ..)
  · exact Within.refl
  · exact Within.mono (actCtx_within ..) (by decide)

theorem execRetire_within {h : CmdHdr} {b : Body} {s : State} {t : State}
    (h : execRetire h b s = .next t) : Within [.outbox, .fresh, .regs, .mem, .mm, .sch, .cmd, .zwx, .fl, .mgmt, .ar, .idx, .kv, .gen] s t := by
  unfold execRetire at h
  obtain rfl := Host.Outcome.next.inj h
  refine Within.trans ?_ (State.command_within (by decide) (fun _ _ _ => ?_) ..)
  · exact Within.refl
  · exact Within.mono (actCtx_within ..) (by decide)

theorem execClose_within {h : CmdHdr} {b : Body} {s : State} {t : State}
    (h : execClose h b s = .next t) : Within [.outbox, .fresh, .regs, .mem, .mm, .sch, .cmd, .zwx, .fl, .mgmt, .ar, .idx, .kv, .gen] s t := by
  unfold execClose at h
  obtain rfl := Host.Outcome.next.inj h
  refine Within.trans ?_ (State.command_within (by decide) (fun _ _ _ => ?_) ..)
  · exact Within.refl
  · exact Within.mono (actCtx_within ..) (by decide)

theorem execChOpen_within {h : CmdHdr} {b : Body} {s : State} {t : State}
    (h : execChOpen h b s = .next t) : Within [.outbox, .fresh, .regs, .mem, .mm, .sch, .cmd, .zwx, .fl, .mgmt, .ar, .idx, .kv, .gen] s t := by
  unfold execChOpen at h
  obtain rfl := Host.Outcome.next.inj h
  refine Within.trans ?_ (State.command_within (by decide) (fun _ _ _ => ?_) ..)
  · exact Within.refl
  · exact Within.mono (actCtx_within ..) (by decide)

theorem execChClose_within {h : CmdHdr} {b : Body} {s : State} {t : State}
    (h : execChClose h b s = .next t) : Within [.outbox, .fresh, .regs, .mem, .mm, .sch, .cmd, .zwx, .fl, .mgmt, .ar, .idx, .kv, .gen] s t := by
  unfold execChClose at h
  obtain rfl := Host.Outcome.next.inj h
  refine Within.trans ?_ (State.command_within (by decide) (fun _ _ _ => ?_) ..)
  · exact Within.refl
  · exact Within.mono (actCtx_within ..) (by decide)

theorem execRetireDone_within {ctx : Nat} {s : State} {t : State}
    (h : execRetireDone ctx s = .next t) : Within [.outbox, .regs, .mm, .sch, .cmd] s t := by
  unfold execRetireDone at h
  obtain rfl := Host.Outcome.next.inj h
  split
  · exact Within.refl
  · refine Within.ite (fun _ => ?_) (fun _ => ?_)
    · exact Within.refl
    · extract_lets -useContext x1
      refine Within.have_ (t := x1) ?_ (fun h1 => ?_)
      · subst x1
        refine Within.andThen (State.updCtx_within ..) (by decide) ?_
        refine Within.andThen (State.dropShare_within ..) (by decide) ?_
        exact Within.refl
      split
      · refine Within.andThen (State.complete_within ..) (by decide) ?_
        exact h1
      · exact h1

theorem execChCloseDone_within {ch : Nat} {s : State} {t : State}
    (h : execChCloseDone ch s = .next t) : Within [.outbox, .regs, .mm, .sch, .cmd] s t := by
  unfold execChCloseDone at h
  obtain rfl := Host.Outcome.next.inj h
  split
  · exact Within.refl
  · split
    · exact Within.refl
    · refine Within.ite (fun _ => ?_) (fun _ => ?_)
      · exact Within.refl
      · extract_lets -useContext _ _ x3
        refine Within.have_ (t := x3) ?_ (fun h3 => ?_)
        · subst x3
          refine Within.set_sch_cmd (by decide) ?_
          exact Within.refl
        refine Within.andThen (State.complete_within ..) (by decide) ?_
        exact h3

end Sys2Proof.Machine
end

