-- ==== Sys2Proof/Laws/Ring.lean ====
section
/-! SUPPORT. For each operation of Machine/Ring.lean: the fields it may change, that it keeps the invariant, and that the watch clock does not go back. -/

namespace Sys2Proof.Machine

set_option linter.all false
set_option Elab.async false

theorem State.writeCq_within (s : State) (w : WaitCpl) :
    Within [.outbox, .brg] s (State.writeCq s w) := by
  unfold State.writeCq
  extract_lets -useContext _ _ _ x4
  refine Within.have_ (t := x4) ?_ (fun h4 => ?_)
  · subst x4
    refine Within.andThen (State.emits_within ..) (by decide) ?_
    exact Within.refl
  refine Within.set_brg (by decide) ?_
  exact h4

theorem State.putCq_within (s : State) (w : WaitCpl) :
    Within [.outbox, .regs, .brg] s (State.putCq s w) := by
  unfold State.putCq
  refine Within.ite (fun _ => ?_) (fun _ => ?_)
  · refine Within.andThen (State.count_within ..) (by decide) ?_
    refine Within.set_brg (by decide) ?_
    exact Within.refl
  · refine Within.andThen (State.writeCq_within ..) (by decide) ?_
    exact Within.refl

theorem State.drainCq_within (s : State) (ring : Nat) :
    Within [.outbox, .brg] s (State.drainCq s ring) := by
  unfold State.drainCq
  refine Within.foldl ?_ (fun _ _ => ?_)
  · exact Within.refl
  · refine Within.ite (fun _ => ?_) (fun _ => ?_)
    · exact Within.refl
    · refine Within.andThen (State.writeCq_within ..) (by decide) ?_
      refine Within.set_brg (by decide) ?_
      exact Within.refl

theorem State.bridgeCpl_within (s : State) (ring : Nat) (h : CmdHdr) (status : Nat) :
    Within [.outbox, .regs, .brg] s (State.bridgeCpl s ring h status) := by
  unfold State.bridgeCpl
  refine Within.andThen (State.putCq_within ..) (by decide) ?_
  exact Within.refl

theorem State.sendCmd_within (s : State) (c : RingCmd) :
    Within [.outbox, .brg] s (State.sendCmd s c) := by
  unfold State.sendCmd
  extract_lets -useContext 
  refine Within.andThen (State.emit_within ..) (by decide) ?_
  refine Within.set_brg (by decide) ?_
  exact Within.refl

theorem State.releaseOne_within (s : State) (c : RingCmd) :
    Within [.outbox, .brg] s (State.releaseOne s c) := by
  unfold State.releaseOne
  refine Within.ite (fun _ => ?_) (fun _ => ?_)
  · exact Within.refl
  · refine Within.andThen (State.sendCmd_within ..) (by decide) ?_
    exact Within.refl

theorem State.ringRelease_within (s : State) :
    Within [.outbox, .brg] s (State.ringRelease s) := by
  unfold State.ringRelease
  refine Within.foldl ?_ (fun _ _ => ?_)
  · exact Within.refl
  · refine Within.andThen (State.releaseOne_within ..) (by decide) ?_
    exact Within.refl

theorem State.pathFail_within (s : State) (o : Nat) :
    Within [.outbox, .regs, .brg, .mgmt] s (State.pathFail s o) := by
  unfold State.pathFail
  refine Within.ite (fun _ => ?_) (fun _ => ?_)
  · exact Within.refl
  · extract_lets -useContext _ x2 _ _ x5
    refine Within.have_ (t := x2) ?_ (fun h2 => ?_)
    · subst x2
      refine Within.andThen (State.wr_within ..) (by decide) ?_
      exact Within.refl
    refine Within.have_ (t := x5) ?_ (fun h5 => ?_)
    · subst x5
      refine Within.set_brg (by decide) ?_
      exact h2
    refine Within.andThen (State.ringRelease_within ..) (by decide) ?_
    refine Within.andThen (State.event_within ..) (by decide) ?_
    refine Within.foldl ?_ (fun _ _ => ?_)
    · exact h5
    · refine Within.andThen (State.bridgeCpl_within ..) (by decide) ?_
      exact Within.refl

theorem State.clearRings_within (s : State) :
    Within [.regs, .brg] s (State.clearRings s) := by
  unfold State.clearRings
  extract_lets -useContext 
  refine Within.set_regs_brg (by decide) ?_ ?_
  · exact Within.refl
  · exact regWf_filter _ _

theorem State.hostReset_within (s : State) :
    Within [.regs, .brg, .zwx] s (State.hostReset s) := by
  unfold State.hostReset
  extract_lets -useContext x1
  refine Within.have_ (t := x1) ?_ (fun h1 => ?_)
  · subst x1
    refine Within.andThen (State.clearRings_within ..) (by decide) ?_
    exact Within.refl
  refine Within.set_zwx (by decide) ?_
  exact h1

end Sys2Proof.Machine
end

