-- ==== Sys2Proof/Laws/Links.lean ====
section
/-! SUPPORT. For each operation of Machine/Links.lean: the fields it may change, that it keeps the invariant, and that the watch clock does not go back. -/

namespace Sys2Proof.Machine

set_option linter.all false
set_option Elab.async false

theorem State.updPort_within (s : State) (n : Nat) (f : Port → Port) :
    Within [.zwx] s (State.updPort s n f) := by
  unfold State.updPort
  refine Within.set_zwx (by decide) ?_
  exact Within.refl

theorem State.sendFrame_within (s : State) (n : Nat) (f : FrameIn) :
    Within [.outbox, .zwx] s (State.sendFrame s n f) := by
  unfold State.sendFrame
  extract_lets -useContext 
  refine Within.andThen (State.emit_within ..) (by decide) ?_
  refine Within.andThen (State.updPort_within ..) (by decide) ?_
  exact Within.refl

theorem State.pump_within (x0 : Nat) (x1 : Nat) (x2 : State) :
    Within [.outbox, .zwx] x2 (State.pump x0 x1 x2) := by
  induction x0 generalizing x2 with
  | zero => exact Within.refl
  | succ n ih =>
    unfold State.pump
    extract_lets
    split
    · exact Within.refl
    · exact Within.trans (State.sendFrame_within ..) (ih ..)

theorem State.enqueue_within (s : State) (n : Nat) (f : FrameIn) :
    Within [.outbox, .zwx] s (State.enqueue s n f) := by
  unfold State.enqueue
  extract_lets -useContext x1
  refine Within.have_ (t := x1) ?_ (fun h1 => ?_)
  · subst x1
    refine Within.andThen (State.updPort_within ..) (by decide) ?_
    exact Within.refl
  refine Within.andThen (State.pump_within ..) (by decide) ?_
  exact h1

theorem State.forward_within (s : State) (f : FrameIn) (arr : Option Nat) :
    Within [.outbox, .regs, .zwx] s (State.forward s f arr) := by
  unfold State.forward
  split
  · refine Within.andThen (State.enqueue_within ..) (by decide) ?_
    refine Within.ite (fun _ => ?_) (fun _ => ?_)
    · refine Within.andThen (State.count_within ..) (by decide) ?_
      exact Within.refl
    · exact Within.refl
  · refine Within.set_zwx (by decide) ?_
    exact Within.refl

theorem State.copyTo_within (s : State) (f : FrameIn) (p : Nat) :
    Within [.outbox, .regs, .zwx] s (State.copyTo s f p) := by
  unfold State.copyTo
  refine Within.ite (fun _ => ?_) (fun _ => ?_)
  · refine Within.andThen (State.enqueue_within ..) (by decide) ?_
    exact Within.refl
  · refine Within.ite (fun _ => ?_) (fun _ => ?_)
    · refine Within.andThen (State.enqueue_within ..) (by decide) ?_
      refine Within.andThen (State.count_within ..) (by decide) ?_
      exact Within.refl
    · refine Within.set_zwx (by decide) ?_
      exact Within.refl

theorem State.copyOut_within (s : State) (f : FrameIn) :
    Within [.outbox, .regs, .zwx] s (State.copyOut s f) := by
  unfold State.copyOut
  refine Within.foldl ?_ (fun _ _ => ?_)
  · exact Within.refl
  · refine Within.andThen (State.copyTo_within ..) (by decide) ?_
    exact Within.refl

theorem State.copyOn_within (s : State) (f : FrameIn) (arr : Nat) (again : Bool) :
    Within [.outbox, .regs, .zwx] s (State.copyOn s f arr again) := by
  unfold State.copyOn
  extract_lets -useContext x1
  refine Within.have_ (t := x1) ?_ (fun h1 => ?_)
  · subst x1
    refine Within.ite (fun _ => ?_) (fun _ => ?_)
    · exact Within.refl
    · refine Within.foldl ?_ (fun _ _ => ?_)
      · exact Within.refl
      · refine Within.andThen (State.copyTo_within ..) (by decide) ?_
        exact Within.refl
  refine Within.ite (fun _ => ?_) (fun _ => ?_)
  · refine Within.andThen (State.enqueue_within ..) (by decide) ?_
    exact h1
  · exact h1

theorem State.launch_within (s : State) (dst : Nat) (group : Bool) (cls : FClass) (ptype : Nat) (body : Body) :
    Within [.outbox, .regs, .zwx] s (State.launch s dst group cls ptype body) := by
  unfold State.launch
  extract_lets -useContext _ _ _ x4
  refine Within.have_ (t := x4) ?_ (fun h4 => ?_)
  · subst x4
    refine Within.set_zwx (by decide) ?_
    exact Within.refl
  refine Within.ite (fun _ => ?_) (fun _ => ?_)
  · refine Within.andThen (State.copyOut_within ..) (by decide) ?_
    exact h4
  · refine Within.andThen (State.forward_within ..) (by decide) ?_
    exact h4

theorem State.retryHolds_within (s : State) :
    Within [.outbox, .regs, .zwx] s (State.retryHolds s) := by
  unfold State.retryHolds
  extract_lets -useContext 
  refine Within.foldl ?_ (fun _ _ => ?_)
  · refine Within.set_zwx (by decide) ?_
    exact Within.refl
  · refine Within.ite (fun _ => ?_) (fun _ => ?_)
    · split
      · refine Within.andThen (State.copyTo_within ..) (by decide) ?_
        exact Within.refl
      · refine Within.set_zwx (by decide) ?_
        exact Within.refl
    · split
      · refine Within.andThen (State.enqueue_within ..) (by decide) ?_
        refine Within.ite (fun _ => ?_) (fun _ => ?_)
        · refine Within.andThen (State.count_within ..) (by decide) ?_
          exact Within.refl
        · exact Within.refl
      · refine Within.set_zwx (by decide) ?_
        exact Within.refl

theorem State.linkTraffic_within (s : State) (f : Nat) (n : Nat) :
    Within [.sch] s (State.linkTraffic s f n) := by
  unfold State.linkTraffic
  refine Within.andThen (State.charge_within ..) (by decide) ?_
  exact Within.refl

theorem State.frameNext_within (s : State) :
    Within [.outbox, .regs, .sch, .zwx] s (State.frameNext s) := by
  unfold State.frameNext
  split
  · exact Within.refl
  · extract_lets -useContext _ x2
    refine Within.have_ (t := x2) ?_ (fun h2 => ?_)
    · subst x2
      refine Within.set_zwx (by decide) ?_
      exact Within.refl
    split
    · extract_lets -useContext 
      refine Within.ite (fun _ => ?_) (fun _ => ?_)
      · refine Within.set_zwx (by decide) ?_
        exact h2
      · refine Within.andThen (State.launch_within ..) (by decide) ?_
        refine Within.andThen (State.linkTraffic_within ..) (by decide) ?_
        exact h2
    · exact h2

theorem State.pathLostTo_within (s : State) (dsts : List Nat) (lost : Nat) (cause : Nat) :
    Within [.outbox] s (State.pathLostTo s dsts lost cause) := by
  unfold State.pathLostTo
  refine Within.foldl ?_ (fun _ _ => ?_)
  · exact Within.refl
  · refine Within.andThen (State.emit_within ..) (by decide) ?_
    exact Within.refl

theorem State.delivered_within (s0 : State) (f : FrameIn) :
    Within [.sch, .zwx] s0 (State.delivered s0 f) := by
  unfold State.delivered
  extract_lets -useContext x1
  refine Within.have_ (t := x1) ?_ (fun h1 => ?_)
  · subst x1
    refine Within.andThen (State.linkTraffic_within ..) (by decide) ?_
    exact Within.refl
  refine Within.set_zwx (by decide) ?_
  exact h1

theorem State.putEseq_within (s : State) (x : EseqRx) :
    Within [.zwx] s (State.putEseq s x) := by
  unfold State.putEseq
  refine Within.set_zwx (by decide) ?_
  exact Within.refl

theorem State.drainEseq_within (x0 : Nat) (x1 : EseqRx) (x2 : State) :
    Within [.sch, .zwx] x2 (State.drainEseq x0 x1 x2) := by
  induction x0 generalizing x1 x2 with
  | zero => exact Within.mono (State.putEseq_within ..) (by decide)
  | succ n ih =>
    unfold State.drainEseq
    split
    · exact Within.mono (State.putEseq_within ..) (by decide)
    · exact Within.trans (Within.mono (State.delivered_within ..) (by decide)) (ih ..)

theorem State.passGap_within (s : State) (x : EseqRx) :
    Within [.outbox, .regs, .sch, .brg, .zwx, .mgmt] s (State.passGap s x) := by
  unfold State.passGap
  split
  · exact Within.refl
  · extract_lets -useContext _ x2 x3
    refine Within.have_ (t := x2) ?_ (fun h2 => ?_)
    · subst x2
      refine Within.andThen (State.pathLostTo_within ..) (by decide) ?_
      refine Within.andThen (State.count_within ..) (by decide) ?_
      exact Within.refl
    refine Within.have_ (t := x3) ?_ (fun h3 => ?_)
    · subst x3
      refine Within.ite (fun _ => ?_) (fun _ => ?_)
      · refine Within.andThen (State.pathFail_within ..) (by decide) ?_
        exact h2
      · exact h2
    refine Within.andThen (State.drainEseq_within ..) (by decide) ?_
    exact h3

theorem State.readFrame_within (s : State) (f : FrameIn) :
    Within [.outbox, .regs, .sch, .brg, .zwx, .mgmt] s (State.readFrame s f) := by
  unfold State.readFrame
  extract_lets -useContext 
  refine Within.ite (fun _ => ?_) (fun _ => ?_)
  · refine Within.andThen (State.drainEseq_within ..) (by decide) ?_
    refine Within.andThen (State.delivered_within ..) (by decide) ?_
    exact Within.refl
  · refine Within.ite (fun _ => ?_) (fun _ => ?_)
    · refine Within.andThen (State.count_within ..) (by decide) ?_
      exact Within.refl
    · refine Within.ite (fun _ => ?_) (fun _ => ?_)
      · refine Within.andThen (State.passGap_within ..) (by decide) ?_
        exact Within.refl
      · refine Within.andThen (State.putEseq_within ..) (by decide) ?_
        exact Within.refl

theorem State.portDown_within (s : State) (n : Nat) (cause : Nat) (retrain : Bool) :
    Within [.outbox, .regs, .zwx] s (State.portDown s n cause retrain) := by
  unfold State.portDown
  extract_lets -useContext _ _ _ x4 x5
  refine Within.have_ (t := x4) ?_ (fun h4 => ?_)
  · subst x4
    refine Within.andThen (State.updPort_within ..) (by decide) ?_
    exact Within.refl
  refine Within.have_ (t := x5) ?_ (fun h5 => ?_)
  · subst x5
    refine Within.andThen (State.count_within ..) (by decide) ?_
    exact h4
  refine Within.foldl ?_ (fun _ _ => ?_)
  · exact h5
  · refine Within.ite (fun _ => ?_) (fun _ => ?_)
    · refine Within.andThen (State.copyTo_within ..) (by decide) ?_
      exact Within.refl
    · refine Within.andThen (State.forward_within ..) (by decide) ?_
      exact Within.refl

theorem State.returnCredit_within (s : State) (n : Nat) (f : FrameIn) (transit : Bool) :
    Within [.outbox, .zwx] s (State.returnCredit s n f transit) := by
  unfold State.returnCredit
  extract_lets -useContext 
  refine Within.ite (fun _ => ?_) (fun _ => ?_)
  · refine Within.set_zwx (by decide) ?_
    exact Within.refl
  · refine Within.andThen (State.emit_within ..) (by decide) ?_
    exact Within.refl

theorem State.payCredit_within (s : State) :
    Within [.outbox, .zwx] s (State.payCredit s) := by
  unfold State.payCredit
  refine Within.ite (fun _ => ?_) (fun _ => ?_)
  · exact Within.refl
  · refine Within.andThen (State.emits_within ..) (by decide) ?_
    refine Within.set_zwx (by decide) ?_
    exact Within.refl

theorem State.refuseFrame_within (s : State) (n : Nat) (bad : Bool) :
    Within [.outbox, .regs, .zwx] s (State.refuseFrame s n bad) := by
  unfold State.refuseFrame
  extract_lets -useContext 
  refine Within.ite (fun _ => ?_) (fun _ => ?_)
  · exact Within.refl
  · refine Within.andThen (State.count_within ..) (by decide) ?_
    refine Within.andThen (State.emit_within ..) (by decide) ?_
    refine Within.andThen (State.updPort_within ..) (by decide) ?_
    exact Within.refl

theorem State.fecCount_within (s : State) (n : Nat) (f : FrameIn) :
    Within [.fresh, .regs] s (State.fecCount s n f) := by
  unfold State.fecCount
  extract_lets -useContext 
  refine Within.andThen (State.count_within ..) (by decide) ?_
  refine Within.andThen (State.count_within ..) (by decide) ?_
  refine Within.set_fresh (by decide) ?_
  exact Within.refl

theorem execFrame_within {port : Nat} {f : FrameIn} {st : State} {t : State}
    (h : execFrame port f st = .next t) : Within [.outbox, .fresh, .regs, .sch, .brg, .zwx, .mgmt] st t := by
  unfold execFrame at h
  obtain rfl := Host.Outcome.next.inj h
  refine Within.ite (fun _ => ?_) (fun _ => ?_)
  · exact Within.refl
  · extract_lets -useContext x1 _ x3 x4 _ x6 _ _ x9 x10 x11
    refine Within.have_ (t := x1) ?_ (fun h1 => ?_)
    · subst x1
      refine Within.andThen (State.fecCount_within ..) (by decide) ?_
      exact Within.refl
    refine Within.have_ (t := x3) ?_ (fun h3 => ?_)
    · subst x3
      refine Within.andThen (State.count_within ..) (by decide) ?_
      refine Within.andThen (State.updPort_within ..) (by decide) ?_
      exact h1
    refine Within.have_ (t := x4) ?_ (fun h4 => ?_)
    · subst x4
      refine Within.andThen (State.updPort_within ..) (by decide) ?_
      exact h1
    refine Within.have_ (t := x6) ?_ (fun h6 => ?_)
    · subst x6
      refine Within.andThen (State.emit_within ..) (by decide) ?_
      refine Within.andThen (State.updPort_within ..) (by decide) ?_
      exact h4
    refine Within.have_ (t := x9) ?_ (fun h9 => ?_)
    · subst x9
      refine Within.andThen (State.returnCredit_within ..) (by decide) ?_
      exact h6
    refine Within.have_ (t := x10) ?_ (fun h10 => ?_)
    · subst x10
      refine Within.ite (fun _ => ?_) (fun _ => ?_)
      · refine Within.andThen (State.readFrame_within ..) (by decide) ?_
        exact h9
      · exact h9
    refine Within.have_ (t := x11) ?_ (fun h11 => ?_)
    · subst x11
      refine Within.andThen (State.returnCredit_within ..) (by decide) ?_
      exact h6
    refine Within.ite (fun _ => ?_) (fun _ => ?_)
    · refine Within.ite (fun _ => ?_) (fun _ => ?_)
      · refine Within.andThen (State.portDown_within ..) (by decide) ?_
        exact h3
      · refine Within.andThen (State.refuseFrame_within ..) (by decide) ?_
        exact h3
    · refine Within.ite (fun _ => ?_) (fun _ => ?_)
      · refine Within.andThen (State.refuseFrame_within ..) (by decide) ?_
        exact h4
      · refine Within.ite (fun _ => ?_) (fun _ => ?_)
        · refine Within.ite (fun _ => ?_) (fun _ => ?_)
          · refine Within.andThen (State.emit_within ..) (by decide) ?_
            refine Within.andThen (State.updPort_within ..) (by decide) ?_
            exact h4
          · refine Within.andThen (State.refuseFrame_within ..) (by decide) ?_
            exact h4
        · refine Within.ite (fun _ => ?_) (fun _ => ?_)
          · refine Within.ite (fun _ => ?_) (fun _ => ?_)
            · refine Within.andThen (State.copyOut_within ..) (by decide) ?_
              exact h10
            · refine Within.andThen (State.copyOn_within ..) (by decide) ?_
              exact h10
          · refine Within.ite (fun _ => ?_) (fun _ => ?_)
            · refine Within.andThen (State.readFrame_within ..) (by decide) ?_
              exact h11
            · refine Within.andThen (State.forward_within ..) (by decide) ?_
              exact h11

theorem execAck_within {port : Nat} {lseq : Nat} {s : State} {t : State}
    (h : execAck port lseq s = .next t) : Within [.outbox, .zwx] s t := by
  unfold execAck at h
  obtain rfl := Host.Outcome.next.inj h
  refine Within.ite (fun _ => ?_) (fun _ => ?_)
  · exact Within.refl
  · extract_lets -useContext x1
    refine Within.have_ (t := x1) ?_ (fun h1 => ?_)
    · subst x1
      refine Within.andThen (State.updPort_within ..) (by decide) ?_
      exact Within.refl
    refine Within.andThen (State.pump_within ..) (by decide) ?_
    exact h1

theorem execNak_within {port : Nat} {lseq : Nat} {s : State} {t : State}
    (h : execNak port lseq s = .next t) : Within [.outbox, .regs, .zwx] s t := by
  unfold execNak at h
  obtain rfl := Host.Outcome.next.inj h
  refine Within.ite (fun _ => ?_) (fun _ => ?_)
  · exact Within.refl
  · extract_lets -useContext x1 _ x3
    refine Within.have_ (t := x1) ?_ (fun h1 => ?_)
    · subst x1
      refine Within.andThen (State.updPort_within ..) (by decide) ?_
      exact Within.refl
    refine Within.have_ (t := x3) ?_ (fun h3 => ?_)
    · subst x3
      refine Within.andThen (State.emits_within ..) (by decide) ?_
      exact h1
    refine Within.ite (fun _ => ?_) (fun _ => ?_)
    · exact h3
    · refine Within.andThen (State.count_within ..) (by decide) ?_
      exact h3

theorem execCredit_within {port : Nat} {cls : FClass} {vc : Nat} {transit : Bool} {units : Nat} {s : State} {t : State}
    (h : execCredit port cls vc transit units s = .next t) : Within [.outbox, .zwx] s t := by
  unfold execCredit at h
  obtain rfl := Host.Outcome.next.inj h
  refine Within.ite (fun _ => ?_) (fun _ => ?_)
  · exact Within.refl
  · extract_lets -useContext _ x2
    refine Within.have_ (t := x2) ?_ (fun h2 => ?_)
    · subst x2
      refine Within.andThen (State.updPort_within ..) (by decide) ?_
      exact Within.refl
    refine Within.andThen (State.pump_within ..) (by decide) ?_
    exact h2

theorem execMissedAck_within {port : Nat} {s : State} {t : State}
    (h : execMissedAck port s = .next t) : Within [.outbox, .clock, .now, .regs, .zwx] s t := by
  unfold execMissedAck at h
  obtain rfl := Host.Outcome.next.inj h
  refine Within.ite (fun _ => ?_) (fun _ => ?_)
  · exact Within.refl
  · split
    · exact Within.refl
    · refine Within.andThen (State.portDown_within ..) (by decide) ?_
      refine Within.andThen (State.count_within ..) (by decide) ?_
      refine Within.andThen (State.elapseTo_within ..) (by decide) ?_
      exact Within.refl

theorem State.readLane_within (s : State) (lane : Nat) (cause : Option LaneCause) :
    Within [.fresh, .zwx] s (State.readLane s lane cause) := by
  unfold State.readLane
  extract_lets -useContext 
  refine Within.andThen (State.updPort_within ..) (by decide) ?_
  refine Within.set_fresh (by decide) ?_
  exact Within.refl

theorem State.onLaneRetire_within (s0 : State) (lane : Nat) (cause : LaneCause) :
    Within [.outbox, .fresh, .regs, .flt, .zwx, .mgmt] s0 (State.onLaneRetire s0 lane cause) := by
  unfold State.onLaneRetire
  extract_lets -useContext _ x2 _ _ x5
  refine Within.have_ (t := x2) ?_ (fun h2 => ?_)
  · subst x2
    refine Within.andThen (State.readLane_within ..) (by decide) ?_
    exact Within.refl
  refine Within.have_ (t := x5) ?_ (fun h5 => ?_)
  · subst x5
    refine Within.andThen (State.faultLog_within ..) (by decide) ?_
    refine Within.andThen (State.count_within ..) (by decide) ?_
    refine Within.andThen (State.updPort_within ..) (by decide) ?_
    exact h2
  refine Within.ite (fun _ => ?_) (fun _ => ?_)
  · exact Within.refl
  · refine Within.ite (fun _ => ?_) (fun _ => ?_)
    · refine Within.andThen (State.portDown_within ..) (by decide) ?_
      exact h5
    · exact h5

theorem execLaneRetire_within {lane : Nat} {cause : LaneCause} {s : State} {t : State}
    (h : execLaneRetire lane cause s = .next t) : Within [.outbox, .fresh, .regs, .flt, .zwx, .mgmt] s t := by
  unfold execLaneRetire at h
  obtain rfl := Host.Outcome.next.inj h
  refine Within.andThen (State.onLaneRetire_within ..) (by decide) ?_
  exact Within.refl

theorem execLaneRejoin_within {lane : Nat} {s0 : State} {t : State}
    (h : execLaneRejoin lane s0 = .next t) : Within [.fresh, .clock, .now, .zwx] s0 t := by
  unfold execLaneRejoin at h
  extract_lets -useContext _ _ x3 x4 at h
  refine Within.have_ (t := x3) ?_ (fun h3 => ?_)
  · subst x3
    refine Within.andThen (State.readLane_within ..) (by decide) ?_
    refine Within.andThen (State.elapseTo_within ..) (by decide) ?_
    exact Within.refl
  refine Within.have_fn1 (f := x4) (fun _ => ?_) (fun h4 => ?_)
  · subst x4
    beta_reduce
    refine Within.andThen (State.updPort_within ..) (by decide) ?_
    exact Within.refl
  obtain rfl := Host.Outcome.next.inj h
  refine Within.ite (fun _ => ?_) (fun _ => ?_)
  · exact Within.refl
  · refine Within.ite (fun _ => ?_) (fun _ => ?_)
    · refine Within.trans ?_ (h4 ..)
      exact h3
    · refine Within.ite (fun _ => ?_) (fun _ => ?_)
      · refine Within.andThen (State.updPort_within ..) (by decide) ?_
        refine Within.trans ?_ (h4 ..)
        exact h3
      · exact Within.refl

theorem State.newKeys_within (s : State) (n : Nat) :
    Within [.fresh, .zwx] s (State.newKeys s n) := by
  unfold State.newKeys
  refine Within.andThen (State.updPort_within ..) (by decide) ?_
  refine Within.set_fresh (by decide) ?_
  exact Within.refl

theorem execRekey_within {port : Nat} {s : State} {t : State}
    (h : execRekey port s = .next t) : Within [.outbox, .zwx] s t := by
  unfold execRekey at h
  extract_lets -useContext  at h
  obtain rfl := Host.Outcome.next.inj h
  refine Within.ite (fun _ => ?_) (fun _ => ?_)
  · refine Within.andThen (State.emit_within ..) (by decide) ?_
    refine Within.andThen (State.updPort_within ..) (by decide) ?_
    exact Within.refl
  · exact Within.refl

theorem execKeySpent_within {port : Nat} {s : State} {t : State}
    (h : execKeySpent port s = .next t) : Within [.outbox, .regs, .zwx] s t := by
  unfold execKeySpent at h
  extract_lets -useContext  at h
  obtain rfl := Host.Outcome.next.inj h
  refine Within.ite (fun _ => ?_) (fun _ => ?_)
  · refine Within.andThen (State.portDown_within ..) (by decide) ?_
    exact Within.refl
  · exact Within.refl

theorem execKeyExchangeDone_within {port : Nat} {ok : Bool} {s : State} {t : State}
    (h : execKeyExchangeDone port ok s = .next t) : Within [.outbox, .fresh, .regs, .zwx] s t := by
  unfold execKeyExchangeDone at h
  extract_lets -useContext _ x2 at h
  refine Within.have_ (t := x2) ?_ (fun h2 => ?_)
  · subst x2
    refine Within.andThen (State.count_within ..) (by decide) ?_
    refine Within.andThen (State.updPort_within ..) (by decide) ?_
    refine Within.andThen (State.newKeys_within ..) (by decide) ?_
    exact Within.refl
  obtain rfl := Host.Outcome.next.inj h
  refine Within.ite (fun _ => ?_) (fun _ => ?_)
  · exact Within.refl
  · refine Within.ite (fun _ => ?_) (fun _ => ?_)
    · refine Within.andThen (State.pump_within ..) (by decide) ?_
      exact h2
    · refine Within.ite (fun _ => ?_) (fun _ => ?_)
      · refine Within.andThen (State.updPort_within ..) (by decide) ?_
        exact Within.refl
      · exact Within.refl

theorem execRekeyRetry_within {port : Nat} {s : State} {t : State}
    (h : execRekeyRetry port s = .next t) : Within [.outbox, .clock, .now, .zwx] s t := by
  unfold execRekeyRetry at h
  extract_lets -useContext  at h
  obtain rfl := Host.Outcome.next.inj h
  refine Within.ite (fun _ => ?_) (fun _ => ?_)
  · refine Within.andThen (State.emit_within ..) (by decide) ?_
    refine Within.andThen (State.updPort_within ..) (by decide) ?_
    refine Within.andThen (State.elapseTo_within ..) (by decide) ?_
    exact Within.refl
  · exact Within.refl

theorem State.hostDown_within (s : State) :
    Within [.outbox, .regs, .brg, .zwx] s (State.hostDown s) := by
  unfold State.hostDown
  refine Within.andThen (State.payCredit_within ..) (by decide) ?_
  refine Within.andThen (State.hostReset_within ..) (by decide) ?_
  exact Within.refl

theorem State.hostLinkDown_within (s : State) :
    Within [.outbox, .regs, .pwr, .brg, .zwx] s (State.hostLinkDown s) := by
  unfold State.hostLinkDown
  extract_lets -useContext x1
  refine Within.have_ (t := x1) ?_ (fun h1 => ?_)
  · subst x1
    refine Within.andThen (State.hostDown_within ..) (by decide) ?_
    exact Within.refl
  refine Within.foldl ?_ (fun _ _ => ?_)
  · refine Within.set_pwr_zwx (by decide) ?_ ?_
    · exact h1
    · exact fun h => h
  · refine Within.andThen (State.updPort_within ..) (by decide) ?_
    exact Within.refl

theorem execPcieLinkUp_within {s : State} {t : State}
    (h : execPcieLinkUp s = .next t) : Within [.pwr, .zwx] s t := by
  unfold execPcieLinkUp at h
  obtain rfl := Host.Outcome.next.inj h
  refine Within.ite (fun _ => ?_) (fun _ => ?_)
  · exact Within.refl
  · extract_lets -useContext _ _ x3
    refine Within.have_ (t := x3) ?_ (fun h3 => ?_)
    · subst x3
      refine Within.set_pwr_zwx (by decide) ?_ ?_
      · exact Within.refl
      · exact fun h => h
    refine Within.foldl ?_ (fun _ _ => ?_)
    · exact h3
    · refine Within.andThen (State.updPort_within ..) (by decide) ?_
      exact Within.refl

theorem execPcieLinkDown_within {s : State} {t : State}
    (h : execPcieLinkDown s = .next t) : Within [.outbox, .regs, .pwr, .brg, .zwx] s t := by
  unfold execPcieLinkDown at h
  obtain rfl := Host.Outcome.next.inj h
  refine Within.ite (fun _ => ?_) (fun _ => ?_)
  · refine Within.andThen (State.hostLinkDown_within ..) (by decide) ?_
    exact Within.refl
  · exact Within.refl

theorem execFunctionLevelReset_within {s : State} {t : State}
    (h : execFunctionLevelReset s = .next t) : Within [.outbox, .regs, .brg, .zwx] s t := by
  unfold execFunctionLevelReset at h
  obtain rfl := Host.Outcome.next.inj h
  refine Within.ite (fun _ => ?_) (fun _ => ?_)
  · refine Within.andThen (State.hostDown_within ..) (by decide) ?_
    exact Within.refl
  · exact Within.refl

theorem execD3hotEntry_within {s : State} {t : State}
    (h : execD3hotEntry s = .next t) : Within [.outbox, .regs, .brg, .zwx] s t := by
  unfold execD3hotEntry at h
  obtain rfl := Host.Outcome.next.inj h
  refine Within.ite (fun _ => ?_) (fun _ => ?_)
  · refine Within.andThen (State.hostDown_within ..) (by decide) ?_
    exact Within.refl
  · exact Within.refl

theorem execGapHoldExpire_within {src : Nat} {cls : FClass} {group : Option Nat} {s : State} {t : State}
    (h : execGapHoldExpire src cls group s = .next t) : Within [.outbox, .clock, .now, .regs, .sch, .brg, .zwx, .mgmt] s t := by
  unfold execGapHoldExpire at h
  extract_lets -useContext  at h
  obtain rfl := Host.Outcome.next.inj h
  refine Within.ite (fun _ => ?_) (fun _ => ?_)
  · exact Within.refl
  · refine Within.andThen (State.passGap_within ..) (by decide) ?_
    refine Within.andThen (State.elapseTo_within ..) (by decide) ?_
    exact Within.refl

theorem execXresend_within {xid : Nat} {s : State} {t : State}
    (h : execXresend xid s = .next t) : Within [.outbox, .clock, .now, .regs, .zwx] s t := by
  unfold execXresend at h
  obtain rfl := Host.Outcome.next.inj h
  split
  · exact Within.refl
  · extract_lets -useContext x1 _ x3
    refine Within.have_ (t := x1) ?_ (fun h1 => ?_)
    · subst x1
      refine Within.andThen (State.elapseTo_within ..) (by decide) ?_
      exact Within.refl
    refine Within.have_ (t := x3) ?_ (fun h3 => ?_)
    · subst x3
      refine Within.set_zwx (by decide) ?_
      exact h1
    refine Within.andThen (State.emit_within ..) (by decide) ?_
    refine Within.andThen (State.count_within ..) (by decide) ?_
    exact h3

theorem State.idle_within (s : State) :
    Within [.outbox, .clock, .now, .regs, .sch, .brg, .zwx] s (State.idle s) := by
  unfold State.idle
  refine Within.andThen (State.frameNext_within ..) (by decide) ?_
  refine Within.andThen (State.ringRelease_within ..) (by decide) ?_
  refine Within.andThen (State.elapse_within ..) (by decide) ?_
  exact Within.refl

end Sys2Proof.Machine
end

