-- ==== Sys2Proof/Laws/Power.lean ====
section
/-! SUPPORT. For each operation of Machine/Power.lean: the fields it may change, that it keeps the invariant, and that the watch clock does not go back. -/

namespace Sys2Proof.Machine

set_option linter.all false
set_option Elab.async false

theorem State.darken_within (s : State) :
    Within [.now, .latches, .regs, .busy, .notReady, .waits, .mem, .pwr, .flt, .mm, .sch, .cmd, .brg, .zwx, .fl, .sec, .mgmt, .ar, .idx, .kv, .gen] s (State.darken s) := by
  unfold State.darken
  refine ⟨fun p hp => by cases p <;> first | rfl | exact absurd hp (by decide), fun hi => ⟨?_, ?_, ?_⟩, Nat.le_refl _⟩
  · exact memWf_filter _ _ hi.mem
  · exact foldl_mapPut_wf resetWord _ _ _ [] rfl
  · exact ⟨by simp [PwrSt.reset], by simp [PwrSt.reset]⟩

theorem State.lastDown_within (s : State) (cause : Nat) (step : Nat) :
    Within [.regs] s (State.lastDown s cause step) := by
  unfold State.lastDown
  refine Within.andThen (State.wr_within ..) (by decide) ?_
  exact Within.refl

theorem State.setEvents_within (s : State) (mask : Nat) :
    Within [.regs] s (State.setEvents s mask) := by
  unfold State.setEvents
  refine Within.andThen (State.wr_within ..) (by decide) ?_
  exact Within.refl

theorem State.startUp_within (s : State) :
    Within [.pwr] s (State.startUp s) := by
  unfold State.startUp
  refine Within.set_pwr (by decide) ?_ ?_
  · exact Within.refl
  · exact fun h => h

theorem State.wake_within (s : State) (src : WakeSrc) :
    Within [.pwr] s (State.wake s src) := by
  unfold State.wake
  refine Within.ite (fun _ => ?_) (fun _ => ?_)
  · exact Within.refl
  · refine Within.ite (fun _ => ?_) (fun _ => ?_)
    · refine Within.set_pwr (by decide) ?_ ?_
      · exact Within.refl
      · exact fun h => h
    · refine Within.ite (fun _ => ?_) (fun _ => ?_)
      · exact Within.refl
      · refine Within.ite (fun _ => ?_) (fun _ => ?_)
        · refine Within.set_pwr (by decide) ?_ ?_
          · exact Within.refl
          · exact fun h => h
        · refine Within.andThen (State.startUp_within ..) (by decide) ?_
          exact Within.refl

theorem State.deliverWake_within (s : State) :
    Within [.regs, .pwr] s (State.deliverWake s) := by
  unfold State.deliverWake
  extract_lets -useContext _ x2
  refine Within.have_ (t := x2) ?_ (fun h2 => ?_)
  · subst x2
    refine Within.andThen (State.count_within ..) (by decide) ?_
    refine Within.set_pwr (by decide) ?_ ?_
    · exact Within.refl
    · exact fun h => h
  refine Within.ite (fun _ => ?_) (fun _ => ?_)
  · refine Within.andThen (State.irq_within ..) (by decide) ?_
    refine Within.andThen (State.wr_within ..) (by decide) ?_
    exact h2
  · refine Within.andThen (State.wake_within ..) (by decide) ?_
    exact h2

theorem State.updPin_within (s : State) (i : Nat) (f : PinSt → PinSt) :
    Within [.pwr] s (State.updPin s i f) := by
  unfold State.updPin
  refine Within.set_pwr (by decide) ?_ ?_
  · exact Within.refl
  · exact fun h => h

theorem execWakePinChange_within {pin : Nat} {level : Bool} {s : State} {t : State}
    (h : execWakePinChange pin level s = .next t) : Within [.regs, .pwr] s t := by
  unfold execWakePinChange at h
  obtain rfl := Host.Outcome.next.inj h
  split
  · exact Within.refl
  · extract_lets -useContext _ x2
    refine Within.have_ (t := x2) ?_ (fun h2 => ?_)
    · subst x2
      refine Within.andThen (State.updPin_within ..) (by decide) ?_
      exact Within.refl
    refine Within.ite (fun _ => ?_) (fun _ => ?_)
    · exact Within.refl
    · refine Within.ite (fun _ => ?_) (fun _ => ?_)
      · refine Within.andThen (State.updPin_within ..) (by decide) ?_
        exact Within.refl
      · refine Within.ite (fun _ => ?_) (fun _ => ?_)
        · split
          · refine Within.ite (fun _ => ?_) (fun _ => ?_)
            · refine Within.andThen (State.count_within ..) (by decide) ?_
              exact h2
            · exact h2
          · exact h2
        · refine Within.andThen (State.updPin_within ..) (by decide) ?_
          exact Within.refl

theorem execDebounceExpire_within {pin : Nat} {s : State} {t : State}
    (h : execDebounceExpire pin s = .next t) : Within [.clock, .now, .regs, .pwr] s t := by
  unfold execDebounceExpire at h
  obtain rfl := Host.Outcome.next.inj h
  split
  · exact Within.refl
  · split
    · exact Within.refl
    · refine Within.ite (fun _ => ?_) (fun _ => ?_)
      · exact Within.refl
      · extract_lets -useContext x1 _ x3
        refine Within.have_ (t := x1) ?_ (fun h1 => ?_)
        · subst x1
          refine Within.andThen (State.elapseClock_within ..) (by decide) ?_
          exact Within.refl
        refine Within.have_ (t := x3) ?_ (fun h3 => ?_)
        · subst x3
          refine Within.andThen (State.updPin_within ..) (by decide) ?_
          exact h1
        refine Within.ite (fun _ => ?_) (fun _ => ?_)
        · refine Within.ite (fun _ => ?_) (fun _ => ?_)
          · exact h3
          · split
            · refine Within.ite (fun _ => ?_) (fun _ => ?_)
              · refine Within.set_pwr (by decide) ?_ ?_
                · exact h3
                · exact fun h => h
              · refine Within.andThen (State.deliverWake_within ..) (by decide) ?_
                exact h3
            · refine Within.andThen (State.deliverWake_within ..) (by decide) ?_
              exact h3
        · refine Within.ite (fun _ => ?_) (fun _ => ?_)
          · refine Within.andThen (State.updPin_within ..) (by decide) ?_
            exact h1
          · refine Within.andThen (State.updPin_within ..) (by decide) ?_
            exact h1

theorem execWakeHoldExpire_within {s : State} {t : State}
    (h : execWakeHoldExpire s = .next t) : Within [.clock, .now, .regs, .pwr] s t := by
  unfold execWakeHoldExpire at h
  obtain rfl := Host.Outcome.next.inj h
  split
  · refine Within.andThen (State.deliverWake_within ..) (by decide) ?_
    refine Within.andThen (State.elapseClock_within ..) (by decide) ?_
    exact Within.refl
  · exact Within.refl

theorem execStuck_within {pin : Nat} {s : State} {t : State}
    (h : execStuck pin s = .next t) : Within [.outbox, .clock, .now, .regs, .pwr, .mgmt] s t := by
  unfold execStuck at h
  obtain rfl := Host.Outcome.next.inj h
  split
  · exact Within.refl
  · refine Within.ite (fun _ => ?_) (fun _ => ?_)
    · exact Within.refl
    · refine Within.andThen (State.mgmtEvent_within ..) (by decide) ?_
      refine Within.andThen (State.setEvents_within ..) (by decide) ?_
      refine Within.andThen (State.updPin_within ..) (by decide) ?_
      refine Within.andThen (State.elapseClock_within ..) (by decide) ?_
      exact Within.refl

theorem State.rearmPins_within (s : State) (data : Nat) :
    Within [.pwr] s (State.rearmPins s data) := by
  unfold State.rearmPins
  refine Within.foldl ?_ (fun _ _ => ?_)
  · exact Within.refl
  · refine Within.ite (fun _ => ?_) (fun _ => ?_)
    · exact Within.refl
    · refine Within.andThen (State.updPin_within ..) (by decide) ?_
      exact Within.refl

theorem execRearm_within {p : Path} {data : Nat} {s : State} {t : State}
    (h : execRearm p data s = .next t) : Within [.regs, .pwr] s t := by
  unfold execRearm at h
  obtain rfl := Host.Outcome.next.inj h
  refine Within.ite (fun _ => ?_) (fun _ => ?_)
  · exact Within.refl
  · refine Within.ite (fun _ => ?_) (fun _ => ?_)
    · refine Within.andThen (State.count_within ..) (by decide) ?_
      exact Within.refl
    · refine Within.andThen (State.rearmPins_within ..) (by decide) ?_
      exact Within.refl

theorem State.coolRegs_within (s : State) (r : CoolReading) :
    Within [.regs] s (State.coolRegs s r) := by
  unfold State.coolRegs
  refine Within.andThen (State.wr_within ..) (by decide) ?_
  refine Within.andThen (State.wr_within ..) (by decide) ?_
  refine Within.andThen (State.wr_within ..) (by decide) ?_
  exact Within.refl

theorem execWatchSample_within {signal : Nat} {r : CoolReading} {s : State} {t : State}
    (h : execWatchSample signal r s = .next t) : Within [.clock, .now, .regs, .pwr] s t := by
  unfold execWatchSample at h
  obtain rfl := Host.Outcome.next.inj h
  refine Within.ite (fun _ => ?_) (fun _ => ?_)
  · exact Within.refl
  · extract_lets -useContext x1
    refine Within.have_ (t := x1) ?_ (fun h1 => ?_)
    · subst x1
      refine Within.andThen (State.coolRegs_within ..) (by decide) ?_
      refine Within.andThen (State.elapseClock_within ..) (by decide) ?_
      exact Within.refl
    refine Within.ite (fun _ => ?_) (fun _ => ?_)
    · refine Within.andThen (State.wake_within ..) (by decide) ?_
      exact h1
    · exact h1

theorem execI3cAddressMatch_within {s : State} {t : State}
    (h : execI3cAddressMatch s = .next t) : Within [.pwr] s t := by
  unfold execI3cAddressMatch at h
  obtain rfl := Host.Outcome.next.inj h
  refine Within.ite (fun _ => ?_) (fun _ => ?_)
  · refine Within.andThen (State.wake_within ..) (by decide) ?_
    exact Within.refl
  · exact Within.refl

theorem execInputGood_within {s : State} {t : State}
    (h : execInputGood s = .next t) : Within [.pwr] s t := by
  unfold execInputGood at h
  extract_lets -useContext _ x2 at h
  refine Within.have_ (t := x2) ?_ (fun h2 => ?_)
  · subst x2
    refine Within.set_pwr (by decide) ?_ ?_
    · exact Within.refl
    · exact fun h => h
  obtain rfl := Host.Outcome.next.inj h
  refine Within.ite (fun _ => ?_) (fun _ => ?_)
  · refine Within.andThen (State.wake_within ..) (by decide) ?_
    exact h2
  · exact h2

theorem execInputFail_within {s : State} {t : State}
    (h : execInputFail s = .next t) : Within [.now, .latches, .regs, .busy, .notReady, .waits, .mem, .pwr, .flt, .mm, .sch, .cmd, .brg, .zwx, .fl, .sec, .mgmt, .ar, .idx, .kv, .gen] s t := by
  unfold execInputFail at h
  extract_lets -useContext _ x2 x3 at h
  refine Within.have_ (t := x2) ?_ (fun h2 => ?_)
  · subst x2
    refine Within.set_pwr (by decide) ?_ ?_
    · exact Within.refl
    · exact fun h => h
  refine Within.have_ (t := x3) ?_ (fun h3 => ?_)
  · subst x3
    refine Within.andThen (State.lastDown_within ..) (by decide) ?_
    refine Within.andThen (State.setEvents_within ..) (by decide) ?_
    refine Within.andThen (State.darken_within ..) (by decide) ?_
    exact h2
  obtain rfl := Host.Outcome.next.inj h
  refine Within.ite (fun _ => ?_) (fun _ => ?_)
  · refine Within.ite (fun _ => ?_) (fun _ => ?_)
    · refine Within.andThen (State.startUp_within ..) (by decide) ?_
      exact h3
    · exact h3
  · exact h2

theorem State.onAuxLoss_within (s : State) :
    Within [.now, .latches, .regs, .busy, .notReady, .waits, .mem, .pwr, .flt, .mm, .sch, .cmd, .brg, .zwx, .fl, .sec, .mgmt, .ar, .idx, .kv, .gen] s (State.onAuxLoss s) := by
  unfold State.onAuxLoss
  extract_lets -useContext x1
  refine Within.have_ (t := x1) ?_ (fun h1 => ?_)
  · subst x1
    refine Within.andThen (State.darken_within ..) (by decide) ?_
    exact Within.refl
  refine Within.set_regs_pwr (by decide) ?_ ?_ ?_
  · exact h1
  · exact fun h => regWf_filter _ _ (regWf_filter _ _ h)
  · exact fun h => h

theorem execAuxLoss_within {s : State} {t : State}
    (h : execAuxLoss s = .next t) : Within [.now, .latches, .regs, .busy, .notReady, .waits, .mem, .pwr, .flt, .mm, .sch, .cmd, .brg, .zwx, .fl, .sec, .mgmt, .ar, .idx, .kv, .gen] s t := by
  unfold execAuxLoss at h
  obtain rfl := Host.Outcome.next.inj h
  refine Within.andThen (State.onAuxLoss_within ..) (by decide) ?_
  exact Within.refl

theorem execAuxReturn_within {s : State} {t : State}
    (h : execAuxReturn s = .next t) : Within [.pwr] s t := by
  unfold execAuxReturn at h
  obtain rfl := Host.Outcome.next.inj h
  refine Within.ite (fun _ => ?_) (fun _ => ?_)
  · refine Within.set_pwr (by decide) ?_ ?_
    · exact Within.refl
    · exact fun h => h
  · exact Within.refl

theorem execPowerupChecksPassed_within {r : CoolReading} {s : State} {t : State}
    (h : execPowerupChecksPassed r s = .next t) : Within [.clock, .now, .pwr] s t := by
  unfold execPowerupChecksPassed at h
  obtain rfl := Host.Outcome.next.inj h
  refine Within.ite (fun _ => ?_) (fun _ => ?_)
  · exact Within.refl
  · refine Within.ite (fun _ => ?_) (fun _ => ?_)
    · extract_lets -useContext x1
      refine Within.have_ (t := x1) ?_ (fun h1 => ?_)
      · subst x1
        refine Within.andThen (State.elapseClock_within ..) (by decide) ?_
        exact Within.refl
      refine Within.set_pwr (by decide) ?_ ?_
      · exact h1
      · exact fun h => h
    · refine Within.set_pwr (by decide) ?_ ?_
      · exact Within.refl
      · exact fun h => h

theorem execRegRdy_within {s : State} {t : State}
    (h : execRegRdy s = .next t) : Within [.pwr] s t := by
  unfold execRegRdy at h
  obtain rfl := Host.Outcome.next.inj h
  refine Within.ite (fun _ => ?_) (fun _ => ?_)
  · refine Within.set_pwr (by decide) ?_ ?_
    · exact Within.refl
    · exact fun h => h
  · exact Within.refl

theorem execOscRdy_within {s : State} {t : State}
    (h : execOscRdy s = .next t) : Within [.pwr] s t := by
  unfold execOscRdy at h
  obtain rfl := Host.Outcome.next.inj h
  refine Within.ite (fun _ => ?_) (fun _ => ?_)
  · refine Within.set_pwr (by decide) ?_ ?_
    · exact Within.refl
    · exact fun _ => ⟨by simp, by simp⟩
  · exact Within.refl

theorem execMemRdy_within {failed : List Nat} {s : State} {t : State}
    (h : execMemRdy failed s = .next t) : Within [.outbox, .regs, .pwr, .flt, .mgmt] s t := by
  unfold execMemRdy at h
  obtain rfl := Host.Outcome.next.inj h
  refine Within.ite (fun _ => ?_) (fun _ => ?_)
  · extract_lets -useContext _ x2
    refine Within.have_ (t := x2) ?_ (fun h2 => ?_)
    · subst x2
      refine Within.set_pwr (by decide) ?_ ?_
      · exact Within.refl
      · exact fun h => h
    refine Within.foldl ?_ (fun _ _ => ?_)
    · exact h2
    · refine Within.ite (fun _ => ?_) (fun _ => ?_)
      · exact Within.refl
      · refine Within.andThen (State.faultLog_within ..) (by decide) ?_
        refine Within.andThen (State.count_within ..) (by decide) ?_
        refine Within.set_flt (by decide) ?_
        exact Within.refl
  · exact Within.refl

theorem State.enterHold_within (s : State) :
    Within [.regs, .pwr] s (State.enterHold s) := by
  unfold State.enterHold
  refine Within.ite (fun _ => ?_) (fun _ => ?_)
  · refine Within.andThen (State.count_within ..) (by decide) ?_
    refine Within.set_pwr (by decide) ?_ ?_
    · exact Within.refl
    · exact fun h => h
  · exact Within.refl

theorem State.tryLeaveHold_within (s : State) :
    Within [.regs, .pwr] s (State.tryLeaveHold s) := by
  unfold State.tryLeaveHold
  refine Within.ite (fun _ => ?_) (fun _ => ?_)
  · refine Within.ite (fun _ => ?_) (fun _ => ?_)
    · refine Within.andThen (State.count_within ..) (by decide) ?_
      refine Within.set_pwr (by decide) ?_ ?_
      · exact Within.refl
      · exact fun h => h
    · refine Within.set_pwr (by decide) ?_ ?_
      · exact Within.refl
      · exact fun h => h
  · exact Within.refl

theorem State.powerReq_within (s : State) (x0 : PReq) :
    Within [.regs, .pwr, .mm, .sch] s (State.powerReq s x0) := by
  unfold State.powerReq
  split
  · refine Within.ite (fun _ => ?_) (fun _ => ?_)
    · refine Within.andThen (State.enterHold_within ..) (by decide) ?_
      refine Within.set_pwr (by decide) ?_ ?_
      · exact Within.refl
      · exact fun h => h
    · exact Within.refl
  · refine Within.ite (fun _ => ?_) (fun _ => ?_)
    · refine Within.andThen (State.tryLeaveHold_within ..) (by decide) ?_
      refine Within.set_pwr (by decide) ?_ ?_
      · exact Within.refl
      · exact fun h => h
    · exact Within.refl
  · extract_lets -useContext _ x2
    refine Within.have_ (t := x2) ?_ (fun h2 => ?_)
    · subst x2
      refine Within.ite (fun _ => ?_) (fun _ => ?_)
      · refine Within.set_pwr (by decide) ?_ ?_
        · exact Within.refl
        · exact fun h => h
      · exact Within.refl
    refine Within.ite (fun _ => ?_) (fun _ => ?_)
    · refine Within.foldl ?_ (fun _ _ => ?_)
      · exact h2
      · refine Within.ite (fun _ => ?_) (fun _ => ?_)
        · refine Within.andThen (State.startReset_within ..) (by decide) ?_
          exact Within.refl
        · exact Within.refl
    · exact h2

theorem execLogicRdy_within {strap : Bool} {s : State} {t : State}
    (h : execLogicRdy strap s = .next t) : Within [.fresh, .now, .regs, .notReady, .fix, .pwr, .flt, .mm, .sch, .brg, .zwx, .sec] s t := by
  unfold execLogicRdy at h
  obtain rfl := Host.Outcome.next.inj h
  refine Within.ite (fun _ => ?_) (fun _ => ?_)
  · exact Within.refl
  · extract_lets -useContext _ _ _ _ _ _ _ x8 x9
    refine Within.have_ (t := x8) ?_ (fun h8 => ?_)
    · subst x8
      refine Within.set_fresh_now_notReady_fix_pwr_flt_brg_zwx_sec (by decide) ?_ ?_
      · exact Within.refl
      · exact fun h => h
    refine Within.have_ (t := x9) ?_ (fun h9 => ?_)
    · subst x9
      refine Within.foldl ?_ (fun _ _ => ?_)
      · exact h8
      · refine Within.andThen (State.powerReq_within ..) (by decide) ?_
        exact Within.refl
    refine Within.set_pwr (by decide) ?_ ?_
    · exact h9
    · exact fun h => h

theorem execPowerupStepTimeout_within {s : State} {t : State}
    (h : execPowerupStepTimeout s = .next t) : Within [.clock, .now, .regs, .pwr] s t := by
  unfold execPowerupStepTimeout at h
  obtain rfl := Host.Outcome.next.inj h
  refine Within.ite (fun _ => ?_) (fun _ => ?_)
  · extract_lets -useContext x1
    refine Within.have_ (t := x1) ?_ (fun h1 => ?_)
    · subst x1
      refine Within.andThen (State.setEvents_within ..) (by decide) ?_
      refine Within.andThen (State.elapseClock_within ..) (by decide) ?_
      exact Within.refl
    refine Within.set_pwr (by decide) ?_ ?_
    · exact h1
    · exact fun h => h
  · exact Within.refl

theorem execPowerDownDone_within {s : State} {t : State}
    (h : execPowerDownDone s = .next t) : Within [.now, .latches, .regs, .busy, .notReady, .waits, .mem, .pwr, .flt, .mm, .sch, .cmd, .brg, .zwx, .fl, .sec, .mgmt, .ar, .idx, .kv, .gen] s t := by
  unfold execPowerDownDone at h
  obtain rfl := Host.Outcome.next.inj h
  split
  · exact Within.refl
  · extract_lets -useContext x1
    refine Within.have_ (t := x1) ?_ (fun h1 => ?_)
    · subst x1
      refine Within.andThen (State.lastDown_within ..) (by decide) ?_
      refine Within.andThen (State.darken_within ..) (by decide) ?_
      exact Within.refl
    refine Within.ite (fun _ => ?_) (fun _ => ?_)
    · refine Within.andThen (State.startUp_within ..) (by decide) ?_
      exact h1
    · exact h1

theorem execResetPinAssert_within {s : State} {t : State}
    (h : execResetPinAssert s = .next t) : Within [.pwr] s t := by
  unfold execResetPinAssert at h
  extract_lets -useContext _ x2 at h
  refine Within.have_ (t := x2) ?_ (fun h2 => ?_)
  · subst x2
    refine Within.set_pwr (by decide) ?_ ?_
    · exact Within.refl
    · exact fun h => h
  obtain rfl := Host.Outcome.next.inj h
  refine Within.ite (fun _ => ?_) (fun _ => ?_)
  · refine Within.set_pwr (by decide) ?_ ?_
    · exact h2
    · exact fun h => h
  · exact h2

theorem execResetPinRelease_within {s : State} {t : State}
    (h : execResetPinRelease s = .next t) : Within [.pwr] s t := by
  unfold execResetPinRelease at h
  extract_lets -useContext _ x2 at h
  refine Within.have_ (t := x2) ?_ (fun h2 => ?_)
  · subst x2
    refine Within.set_pwr (by decide) ?_ ?_
    · exact Within.refl
    · exact fun h => h
  obtain rfl := Host.Outcome.next.inj h
  refine Within.ite (fun _ => ?_) (fun _ => ?_)
  · refine Within.andThen (State.startUp_within ..) (by decide) ?_
    exact h2
  · exact h2

theorem execThermalTrip_within {s : State} {t : State}
    (h : execThermalTrip s = .next t) : Within [.now, .latches, .regs, .busy, .notReady, .waits, .mem, .pwr, .flt, .mm, .sch, .cmd, .brg, .zwx, .fl, .sec, .mgmt, .ar, .idx, .kv, .gen] s t := by
  unfold execThermalTrip at h
  obtain rfl := Host.Outcome.next.inj h
  refine Within.ite (fun _ => ?_) (fun _ => ?_)
  · extract_lets -useContext x1
    refine Within.have_ (t := x1) ?_ (fun h1 => ?_)
    · subst x1
      refine Within.andThen (State.count_within ..) (by decide) ?_
      refine Within.andThen (State.lastDown_within ..) (by decide) ?_
      refine Within.andThen (State.setEvents_within ..) (by decide) ?_
      refine Within.andThen (State.darken_within ..) (by decide) ?_
      exact Within.refl
    refine Within.set_pwr (by decide) ?_ ?_
    · exact h1
    · exact fun h => h
  · exact Within.refl

theorem State.brownRecord_within (s : State) :
    Within [.regs, .pwr] s (State.brownRecord s) := by
  unfold State.brownRecord
  extract_lets -useContext _ x2
  refine Within.have_ (t := x2) ?_ (fun h2 => ?_)
  · subst x2
    refine Within.set_regs_pwr (by decide) ?_ ?_ ?_
    · exact Within.refl
    · exact regWf_filter _ _
    · exact fun _ => ⟨(by decide : 8 ≤ PwrSt.reset.nCap), (by decide : PwrSt.reset.nCap ≤ 32)⟩
  refine Within.andThen (State.lastDown_within ..) (by decide) ?_
  refine Within.andThen (State.count_within ..) (by decide) ?_
  refine Within.andThen (State.setEvents_within ..) (by decide) ?_
  exact h2

theorem State.onBrownout_within (s : State) :
    Within [.regs, .pwr] s (State.onBrownout s) := by
  unfold State.onBrownout
  refine Within.ite (fun _ => ?_) (fun _ => ?_)
  · exact Within.refl
  · refine Within.ite (fun _ => ?_) (fun _ => ?_)
    · refine Within.andThen (State.startUp_within ..) (by decide) ?_
      refine Within.andThen (State.brownRecord_within ..) (by decide) ?_
      exact Within.refl
    · refine Within.ite (fun _ => ?_) (fun _ => ?_)
      · extract_lets -useContext x1
        refine Within.have_ (t := x1) ?_ (fun h1 => ?_)
        · subst x1
          refine Within.andThen (State.brownRecord_within ..) (by decide) ?_
          exact Within.refl
        refine Within.set_pwr (by decide) ?_ ?_
        · exact h1
        · exact fun h => h
      · refine Within.andThen (State.brownRecord_within ..) (by decide) ?_
        exact Within.refl

theorem execBrownout_within {s : State} {t : State}
    (h : execBrownout s = .next t) : Within [.regs, .pwr] s t := by
  unfold execBrownout at h
  obtain rfl := Host.Outcome.next.inj h
  refine Within.andThen (State.onBrownout_within ..) (by decide) ?_
  exact Within.refl

theorem State.onPowerSample_within (s : State) (r : PowerReading) :
    Within [.clock, .now, .regs, .pwr] s (State.onPowerSample s r) := by
  unfold State.onPowerSample
  refine Within.ite (fun _ => ?_) (fun _ => ?_)
  · exact Within.refl
  · extract_lets -useContext x1
    refine Within.have_ (t := x1) ?_ (fun h1 => ?_)
    · subst x1
      refine Within.andThen (State.elapseTo_within ..) (by decide) ?_
      exact Within.refl
    refine Within.andThen (State.wr_within ..) (by decide) ?_
    refine Within.set_pwr (by decide) ?_ ?_
    · exact h1
    · exact fun h => h

theorem execPowerSample_within {r : PowerReading} {s : State} {t : State}
    (h : execPowerSample r s = .next t) : Within [.clock, .now, .regs, .pwr] s t := by
  unfold execPowerSample at h
  split at h
  · exact nomatch h
  · obtain rfl := Host.Outcome.next.inj h
    refine Within.andThen (State.onPowerSample_within ..) (by decide) ?_
    exact Within.refl

theorem execCapTick_within {s : State} {t : State}
    (h : execCapTick s = .next t) : Within [.clock, .now, .regs, .pwr] s t := by
  unfold execCapTick at h
  obtain rfl := Host.Outcome.next.inj h
  refine Within.ite (fun _ => ?_) (fun _ => ?_)
  · exact Within.refl
  · extract_lets -useContext x1 _ _ _ x5
    refine Within.have_ (t := x1) ?_ (fun h1 => ?_)
    · subst x1
      refine Within.andThen (State.elapseTo_within ..) (by decide) ?_
      exact Within.refl
    refine Within.have_ (t := x5) ?_ (fun h5 => ?_)
    · subst x5
      refine Within.set_pwr (by decide) ?_ ?_
      · exact h1
      · have hn : (s.elapseTo (s.pwr.lastCap + 100000)).pwr = s.pwr := (State.elapseTo_within ..).pwr
        rw [hn]
        intro hc
        show 8 ≤ (if _ then _ else _) ∧ (if _ then _ else _) ≤ 32
        refine ⟨?_, ?_⟩ <;> (repeat' split) <;> first | exact hc.1 | exact hc.2 | exact Nat.le_max_left .. | exact max_le (by decide) (by omega) | exact le_min (by decide) (by omega) | exact min_le_left ..
    refine Within.ite (fun _ => ?_) (fun _ => ?_)
    · refine Within.andThen (State.count_within ..) (by decide) ?_
      refine Within.set_pwr (by decide) ?_ ?_
      · exact h5
      · exact fun h => h
    · refine Within.ite (fun _ => ?_) (fun _ => ?_)
      · refine Within.set_pwr (by decide) ?_ ?_
        · exact h5
        · exact fun h => h
      · exact h5

theorem State.coolHold_within (s : State) (c : CoolCond) :
    Within [.regs, .pwr] s (State.coolHold s c) := by
  unfold State.coolHold
  refine Within.andThen (State.enterHold_within ..) (by decide) ?_
  refine Within.andThen (State.setEvents_within ..) (by decide) ?_
  refine Within.set_pwr (by decide) ?_ ?_
  · exact Within.refl
  · exact fun h => h

theorem execValveTick_within {r : CoolReading} {s : State} {t : State}
    (h : execValveTick r s = .next t) : Within [.fresh, .clock, .now, .regs, .pwr] s t := by
  unfold execValveTick at h
  obtain rfl := Host.Outcome.next.inj h
  refine Within.ite (fun _ => ?_) (fun _ => ?_)
  · exact Within.refl
  · extract_lets -useContext x1
    refine Within.have_ (t := x1) ?_ (fun h1 => ?_)
    · subst x1
      refine Within.andThen (State.elapseTo_within ..) (by decide) ?_
      exact Within.refl
    split
    · extract_lets -useContext _ x10 x11
      refine Within.have_ (t := x10) ?_ (fun h10 => ?_)
      · subst x10
        refine Within.andThen (State.coolRegs_within ..) (by decide) ?_
        refine Within.set_pwr (by decide) ?_ ?_
        · refine Within.snd ?_ (by assumption)
          refine Within.ite_snd (fun _ => ?_) (fun _ => ?_)
          · exact h1
          · refine Within.ite_snd (fun _ => ?_) (fun _ => ?_)
            · split
              · refine Within.snd ?_ (by assumption)
                with_reducible refine Within.andThen (State.freeVal_within ..) (by decide) ?_
                exact h1
            · exact h1
        · exact fun h => h
      refine Within.have_ (t := x11) ?_ (fun h11 => ?_)
      · subst x11
        refine Within.ite (fun _ => ?_) (fun _ => ?_)
        · exact h10
        · refine Within.andThen (State.coolHold_within ..) (by decide) ?_
          exact h10
      refine Within.ite (fun _ => ?_) (fun _ => ?_)
      · refine Within.andThen (State.count_within ..) (by decide) ?_
        exact h11
      · exact h11

theorem execCoolHoldEnter_within {c : CoolCond} {s : State} {t : State}
    (h : execCoolHoldEnter c s = .next t) : Within [.regs, .pwr] s t := by
  unfold execCoolHoldEnter at h
  obtain rfl := Host.Outcome.next.inj h
  refine Within.ite (fun _ => ?_) (fun _ => ?_)
  · refine Within.andThen (State.coolHold_within ..) (by decide) ?_
    exact Within.refl
  · exact Within.refl

theorem execCoolHoldClear_within {c : CoolCond} {s : State} {t : State}
    (h : execCoolHoldClear c s = .next t) : Within [.regs, .pwr] s t := by
  unfold execCoolHoldClear at h
  obtain rfl := Host.Outcome.next.inj h
  refine Within.ite (fun _ => ?_) (fun _ => ?_)
  · refine Within.andThen (State.tryLeaveHold_within ..) (by decide) ?_
    refine Within.set_pwr (by decide) ?_ ?_
    · exact Within.refl
    · exact fun h => h
  · exact Within.refl

theorem State.reqWrite_within (s : State) (p : Path) (q : PReq) :
    Within [.regs, .pwr, .mm, .sch] s (State.reqWrite s p q) := by
  unfold State.reqWrite
  refine Within.ite (fun _ => ?_) (fun _ => ?_)
  · refine Within.ite (fun _ => ?_) (fun _ => ?_)
    · refine Within.andThen (State.count_within ..) (by decide) ?_
      exact Within.refl
    · exact Within.refl
  · refine Within.ite (fun _ => ?_) (fun _ => ?_)
    · refine Within.set_pwr (by decide) ?_ ?_
      · exact Within.refl
      · exact fun h => h
    · refine Within.ite (fun _ => ?_) (fun _ => ?_)
      · exact Within.refl
      · refine Within.andThen (State.powerReq_within ..) (by decide) ?_
        exact Within.refl

theorem execEnterHold_within {p : Path} {s : State} {t : State}
    (h : execEnterHold p s = .next t) : Within [.regs, .pwr, .mm, .sch] s t := by
  unfold execEnterHold at h
  obtain rfl := Host.Outcome.next.inj h
  refine Within.andThen (State.reqWrite_within ..) (by decide) ?_
  exact Within.refl

theorem execLeaveHold_within {p : Path} {s : State} {t : State}
    (h : execLeaveHold p s = .next t) : Within [.regs, .pwr, .mm, .sch] s t := by
  unfold execLeaveHold at h
  obtain rfl := Host.Outcome.next.inj h
  refine Within.andThen (State.reqWrite_within ..) (by decide) ?_
  exact Within.refl

theorem execEnterWatch_within {p : Path} {force : Bool} {s : State} {t : State}
    (h : execEnterWatch p force s = .next t) : Within [.regs, .pwr, .mm, .sch] s t := by
  unfold execEnterWatch at h
  obtain rfl := Host.Outcome.next.inj h
  refine Within.andThen (State.reqWrite_within ..) (by decide) ?_
  exact Within.refl

theorem execQuiesceDone_within {s : State} {t : State}
    (h : execQuiesceDone s = .next t) : Within [.pwr] s t := by
  unfold execQuiesceDone at h
  obtain rfl := Host.Outcome.next.inj h
  refine Within.ite (fun _ => ?_) (fun _ => ?_)
  · refine Within.set_pwr (by decide) ?_ ?_
    · exact Within.refl
    · exact fun h => h
  · exact Within.refl

theorem State.clearEvents_within (s : State) (data : Nat) :
    Within [.regs] s (State.clearEvents s data) := by
  unfold State.clearEvents
  extract_lets -useContext 
  refine Within.andThen (State.wr_within ..) (by decide) ?_
  exact Within.refl

theorem execEventsClear_within {p : Path} {data : Nat} {s : State} {t : State}
    (h : execEventsClear p data s = .next t) : Within [.regs] s t := by
  unfold execEventsClear at h
  obtain rfl := Host.Outcome.next.inj h
  refine Within.ite (fun _ => ?_) (fun _ => ?_)
  · exact Within.refl
  · refine Within.ite (fun _ => ?_) (fun _ => ?_)
    · refine Within.andThen (State.count_within ..) (by decide) ?_
      exact Within.refl
    · refine Within.andThen (State.clearEvents_within ..) (by decide) ?_
      exact Within.refl

end Sys2Proof.Machine
end

