-- ==== Sys2Proof/Laws/Sched.lean ====
section
/-! SUPPORT. For each operation of Machine/Sched.lean: the fields it may change, that it keeps the invariant, and that the watch clock does not go back. -/

namespace Sys2Proof.Machine

set_option linter.all false
set_option Elab.async false

theorem execPreemptWaitExpire_within {island : Nat} {s : State} {t : State}
    (h : execPreemptWaitExpire island s = .next t) : Within [.clock, .now, .regs, .sch] s t := by
  unfold execPreemptWaitExpire at h
  extract_lets -useContext _ y2 at h
  clear_value y2
  obtain rfl := Host.Outcome.next.inj h
  split
  · exact Within.refl
  · extract_lets -useContext _ x5
    refine Within.have_ (t := x5) ?_ (fun h5 => ?_)
    · subst x5
      refine Within.andThen (State.elapseTo_within ..) (by decide) ?_
      exact Within.refl
    refine Within.ite (fun _ => ?_) (fun _ => ?_)
    · exact Within.refl
    · split
      · exact Within.refl
      · extract_lets -useContext x6
        refine Within.have_ (t := x6) ?_ (fun h6 => ?_)
        · subst x6
          refine Within.andThen (State.updTask_within ..) (by decide) ?_
          exact h5
        refine Within.andThen (State.count_within ..) (by decide) ?_
        refine Within.set_sch (by decide) ?_
        exact h6

theorem execTaskKill_within {islet : Nat} {s : State} {t : State}
    (h : execTaskKill islet s = .next t) : Within [.regs, .sch, .ar, .gen] s t := by
  unfold execTaskKill at h
  obtain rfl := Host.Outcome.next.inj h
  split
  · exact Within.refl
  · extract_lets -useContext x1
    refine Within.have_ (t := x1) ?_ (fun h1 => ?_)
    · subst x1
      refine Within.andThen (State.killRun_within ..) (by decide) ?_
      exact Within.refl
    refine Within.ite (fun _ => ?_) (fun _ => ?_)
    · refine Within.set_sch (by decide) ?_
      exact h1
    · refine Within.andThen (State.updTask_within ..) (by decide) ?_
      exact h1

theorem execResidencyStarved_within {s : State} {t : State}
    (h : execResidencyStarved s = .next t) : Within [.outbox, .clock, .now, .regs, .sch, .mgmt] s t := by
  unfold execResidencyStarved at h
  obtain rfl := Host.Outcome.next.inj h
  refine Within.ite (fun _ => ?_) (fun _ => ?_)
  · exact Within.refl
  · extract_lets -useContext _ _ _ x4
    refine Within.have_ (t := x4) ?_ (fun h4 => ?_)
    · subst x4
      refine Within.andThen (State.elapseTo_within ..) (by decide) ?_
      exact Within.refl
    refine Within.andThen (State.count_within ..) (by decide) ?_
    refine Within.andThen (State.event_within ..) (by decide) ?_
    refine Within.andThen (State.irq_within ..) (by decide) ?_
    refine Within.set_sch (by decide) ?_
    exact h4

theorem execSlowSample_within {rs : List CycleReading} {s : State} {t : State}
    (h : execSlowSample rs s = .next t) : Within [.clock, .now, .regs, .sch] s t := by
  unfold execSlowSample at h
  obtain rfl := Host.Outcome.next.inj h
  refine Within.ite (fun _ => ?_) (fun _ => ?_)
  · exact Within.refl
  · extract_lets -useContext x1 _ _ _ _ _ _ x8
    refine Within.have_ (t := x1) ?_ (fun h1 => ?_)
    · subst x1
      refine Within.andThen (State.elapseTo_within ..) (by decide) ?_
      exact Within.refl
    refine Within.have_ (t := x8) ?_ (fun h8 => ?_)
    · subst x8
      refine Within.set_sch (by decide) ?_
      exact h1
    refine Within.ite (fun _ => ?_) (fun _ => ?_)
    · refine Within.andThen (State.count_within ..) (by decide) ?_
      refine Within.andThen (State.irq_within ..) (by decide) ?_
      exact h8
    · exact h8

theorem State.flushRuns_within (s : State) (u : Nat) :
    Within [.sch] s (State.flushRuns s u) := by
  unfold State.flushRuns
  refine Within.foldl ?_ (fun _ _ => ?_)
  · exact Within.refl
  · refine Within.andThen (State.updTask_within ..) (by decide) ?_
    refine Within.andThen (State.chargeSince_within ..) (by decide) ?_
    exact Within.refl

theorem State.flushWaits_within (s : State) (u : Nat) :
    Within [.sch] s (State.flushWaits s u) := by
  unfold State.flushWaits
  refine Within.foldl ?_ (fun _ _ => ?_)
  · exact Within.refl
  · refine Within.andThen (State.updTask_within ..) (by decide) ?_
    refine Within.andThen (State.chargeWait_within ..) (by decide) ?_
    exact Within.refl

theorem State.takeLate_within (s : State) :
    Within [.sch] s (State.takeLate s) := by
  unfold State.takeLate
  refine Within.foldl ?_ (fun _ _ => ?_)
  · refine Within.set_sch (by decide) ?_
    exact Within.refl
  · refine Within.andThen (State.chargeSpan_within ..) (by decide) ?_
    exact Within.refl

theorem execAcctWindowClose_within {s : State} {t : State}
    (h : execAcctWindowClose s = .next t) : Within [.clock, .now, .regs, .sch] s t := by
  unfold execAcctWindowClose at h
  obtain rfl := Host.Outcome.next.inj h
  refine Within.ite (fun _ => ?_) (fun _ => ?_)
  · exact Within.refl
  · extract_lets -useContext x1
    refine Within.have_ (t := x1) ?_ (fun h1 => ?_)
    · subst x1
      refine Within.andThen (State.flushWaits_within ..) (by decide) ?_
      refine Within.andThen (State.flushRuns_within ..) (by decide) ?_
      refine Within.andThen (State.elapseTo_within ..) (by decide) ?_
      exact Within.refl
    refine Within.andThen (State.irq_within ..) (by decide) ?_
    refine Within.andThen (State.takeLate_within ..) (by decide) ?_
    refine Within.set_sch (by decide) ?_
    exact h1

theorem execEnergySample_within {r : EnergyReading} {s : State} {t : State}
    (h : execEnergySample r s = .next t) : Within [.clock, .now, .mm, .sch] s t := by
  unfold execEnergySample at h
  obtain rfl := Host.Outcome.next.inj h
  refine Within.ite (fun _ => ?_) (fun _ => ?_)
  · exact Within.refl
  · extract_lets -useContext _ x2 x3 _ _ _ _ x8
    refine Within.have_ (t := x2) ?_ (fun h2 => ?_)
    · subst x2
      refine Within.andThen (State.elapseTo_within ..) (by decide) ?_
      exact Within.refl
    refine Within.have_ (t := x3) ?_ (fun h3 => ?_)
    · subst x3
      refine Within.andThen (State.flushRuns_within ..) (by decide) ?_
      exact h2
    refine Within.have_ (t := x8) ?_ (fun h8 => ?_)
    · subst x8
      refine Within.ite (fun _ => ?_) (fun _ => ?_)
      · refine Within.set_sch (by decide) ?_
        exact h3
      · refine Within.foldl ?_ (fun _ _ => ?_)
        · exact h3
        · refine Within.andThen (State.chargeSpan_within ..) (by decide) ?_
          exact Within.refl
    refine Within.set_mm_sch (by decide) ?_
    exact h8

theorem State.drawKey_within (s : State) (f : Nat) :
    Within [.sec] s (State.drawKey s f) := by
  unfold State.drawKey
  refine Within.set_sec (by decide) ?_
  exact Within.refl

theorem State.funcEnabled_within (s : State) (f : Nat) (was : Bool) :
    Within [.mm, .sch, .sec] s (State.funcEnabled s f was) := by
  unfold State.funcEnabled
  extract_lets -useContext _ x2 x3
  refine Within.have_of1 (f := x2) (fun _ => ?_) (fun h2 => ?_)
  · subst x2
    beta_reduce
    refine Within.set_sch (by decide) ?_
    exact Within.refl
  refine Within.have_ (t := x3) ?_ (fun h3 => ?_)
  · subst x3
    exact h2 ..
  split
  · exact Within.refl
  · refine Within.ite (fun _ => ?_) (fun _ => ?_)
    · refine Within.ite (fun _ => ?_) (fun _ => ?_)
      · exact h3
      · refine Within.andThen (State.drawKey_within ..) (by decide) ?_
        exact h3
    · refine Within.ite (fun _ => ?_) (fun _ => ?_)
      · refine Within.andThen (State.startReset_within ..) (by decide) ?_
        exact Within.refl
      · exact h2 ..

theorem State.stopWork_within (s : State) (f : Nat) :
    Within [.mm, .idx, .gen] s (State.stopWork s f) := by
  unfold State.stopWork
  extract_lets -useContext 
  refine Within.set_mm_idx_gen (by decide) ?_
  exact Within.refl

theorem execPartitionResetKillsDone_within {func : Nat} {s : State} {t : State}
    (h : execPartitionResetKillsDone func s = .next t) : Within [.outbox, .fresh, .regs, .mem, .mm, .sch, .cmd, .zwx, .fl, .ar, .idx, .kv, .gen] s t := by
  unfold execPartitionResetKillsDone at h
  obtain rfl := Host.Outcome.next.inj h
  split
  · refine Within.ite (fun _ => ?_) (fun _ => ?_)
    · exact Within.refl
    · extract_lets -useContext x1 _ x3
      refine Within.have_ (t := x1) ?_ (fun h1 => ?_)
      · subst x1
        refine Within.andThen (State.stopWork_within ..) (by decide) ?_
        refine Within.andThen (State.dropTasks_within ..) (by decide) ?_
        exact Within.refl
      refine Within.have_ (t := x3) ?_ (fun h3 => ?_)
      · subst x3
        refine Within.foldl ?_ (fun _ _ => ?_)
        · exact h1
        · refine Within.andThen (State.complete_within ..) (by decide) ?_
          refine Within.andThen (State.discard_within ..) (by decide) ?_
          exact Within.refl
      refine Within.set_sch (by decide) ?_
      exact h3
  · exact Within.refl

theorem State.freeCaches_within (s : State) (f : Nat) :
    Within [.kv] s (State.freeCaches s f) := by
  unfold State.freeCaches
  extract_lets -useContext 
  refine Within.set_kv (by decide) ?_
  exact Within.refl

theorem State.freeObjects_within (s : State) (f : Nat) :
    Within [.outbox, .regs, .mm, .sch, .cmd, .fl] s (State.freeObjects s f) := by
  unfold State.freeObjects
  extract_lets -useContext _ _ _ _ _ x6 x7 x8
  refine Within.have_ (t := x6) ?_ (fun h6 => ?_)
  · subst x6
    refine Within.set_mm (by decide) ?_
    exact Within.refl
  refine Within.have_ (t := x7) ?_ (fun h7 => ?_)
  · subst x7
    refine Within.andThen (State.dropUnits_within ..) (by decide) ?_
    refine Within.foldl ?_ (fun _ _ => ?_)
    · exact h6
    · refine Within.andThen (State.unforward_within ..) (by decide) ?_
      exact Within.refl
  refine Within.have_fn2 (f := x8) (fun _ _ => ?_) (fun h8 => ?_)
  · subst x8
    beta_reduce
    split
    · refine Within.andThen (State.complete_within ..) (by decide) ?_
      exact Within.refl
    · exact Within.refl
  refine Within.foldl ?_ (fun _ _ => ?_)
  · refine Within.foldl ?_ (fun _ _ => ?_)
    · exact h7
    · refine Within.trans ?_ (h8 ..)
      exact Within.refl
  · refine Within.trans ?_ (h8 ..)
    exact Within.refl

theorem State.freeContexts_within (s : State) (f : Nat) :
    Within [.mm, .sch, .cmd] s (State.freeContexts s f) := by
  unfold State.freeContexts
  extract_lets -useContext x1
  refine Within.have_ (t := x1) ?_ (fun h1 => ?_)
  · subst x1
    refine Within.foldl ?_ (fun _ _ => ?_)
    · exact Within.refl
    · refine Within.andThen (State.dropShare_within ..) (by decide) ?_
      exact Within.refl
  refine Within.set_sch_cmd (by decide) ?_
  exact h1

theorem State.freeWork_within (s : State) (f : Nat) :
    Within [.outbox, .fresh, .regs, .mem, .mm, .sch, .cmd, .zwx, .fl, .ar, .idx, .kv, .gen] s (State.freeWork s f) := by
  unfold State.freeWork
  extract_lets -useContext x1 x2 x4 _ x6
  refine Within.have_ (t := x1) ?_ (fun h1 => ?_)
  · subst x1
    refine Within.foldl ?_ (fun _ _ => ?_)
    · exact Within.refl
    · refine Within.andThen (State.discardStep_within ..) (by decide) ?_
      exact Within.refl
  refine Within.have_ (t := x2) ?_ (fun h2 => ?_)
  · subst x2
    refine Within.foldl ?_ (fun _ _ => ?_)
    · exact h1
    · extract_lets -useContext x3
      refine Within.have_ (t := x3) ?_ (fun h3 => ?_)
      · subst x3
        refine Within.andThen (State.freeSeq_within ..) (by decide) ?_
        exact Within.refl
      split
      · refine Within.andThen (State.complete_within ..) (by decide) ?_
        exact h3
      · exact h3
  refine Within.have_ (t := x4) ?_ (fun h4 => ?_)
  · subst x4
    refine Within.andThen (State.dropModel_within ..) (by decide) ?_
    exact h2
  refine Within.have_ (t := x6) ?_ (fun h6 => ?_)
  · subst x6
    refine Within.ite (fun _ => ?_) (fun _ => ?_)
    · refine Within.set_sch (by decide) ?_
      exact h4
    · exact h2
  refine Within.foldl ?_ (fun _ _ => ?_)
  · refine Within.andThen (State.freeCaches_within ..) (by decide) ?_
    exact h6
  · refine Within.andThen (State.dropIndex_within ..) (by decide) ?_
    exact Within.refl

theorem execPartitionResetDone_within {func : Nat} {s : State} {t : State}
    (h : execPartitionResetDone func s = .next t) : Within [.outbox, .fresh, .regs, .mem, .flt, .mm, .sch, .cmd, .zwx, .fl, .sec, .mgmt, .ar, .idx, .kv, .gen] s t := by
  unfold execPartitionResetDone at h
  obtain rfl := Host.Outcome.next.inj h
  split
  · refine Within.ite (fun _ => ?_) (fun _ => ?_)
    · exact Within.refl
    · extract_lets -useContext x1 _ x3 x4
      refine Within.have_ (t := x1) ?_ (fun h1 => ?_)
      · subst x1
        refine Within.andThen (State.drawKey_within ..) (by decide) ?_
        refine Within.andThen (State.abandonFunc_within ..) (by decide) ?_
        refine Within.andThen (State.freeContexts_within ..) (by decide) ?_
        refine Within.andThen (State.freeObjects_within ..) (by decide) ?_
        refine Within.andThen (State.freeWork_within ..) (by decide) ?_
        exact Within.refl
      refine Within.have_ (t := x3) ?_ (fun h3 => ?_)
      · subst x3
        refine Within.set_sch (by decide) ?_
        exact h1
      refine Within.have_ (t := x4) ?_ (fun h4 => ?_)
      · subst x4
        refine Within.andThen (State.irq_within ..) (by decide) ?_
        refine Within.andThen (State.wr_within ..) (by decide) ?_
        refine Within.andThen (State.count_within ..) (by decide) ?_
        exact h3
      refine Within.andThen (State.event_within ..) (by decide) ?_
      refine Within.andThen (State.faultLog_within ..) (by decide) ?_
      exact h4
  · exact Within.refl

end Sys2Proof.Machine
end

