-- ==== Sys2Proof/Laws/Faults.lean ====
section
/-! SUPPORT. For each operation of Machine/Faults.lean: the fields it may change, that it keeps the invariant, and that the watch clock does not go back. -/

namespace Sys2Proof.Machine

set_option linter.all false
set_option Elab.async false

theorem State.killUnit_within (s : State) (t1 : Bool) (unit : Nat) :
    Within [.sch] s (State.killUnit s t1 unit) := by
  unfold State.killUnit
  refine Within.andThen (State.killTasks_within ..) (by decide) ?_
  exact Within.refl

theorem State.rescan_within (s : State) (island : Nat) :
    Within [.regs, .mm, .sch, .ar, .idx, .gen] s (State.rescan s island) := by
  unfold State.rescan
  extract_lets -useContext x1
  refine Within.have_ (t := x1) ?_ (fun h1 => ?_)
  · subst x1
    refine Within.andThen (State.dropRuns_within ..) (by decide) ?_
    refine Within.andThen (State.dropTasks_within ..) (by decide) ?_
    exact Within.refl
  refine Within.set_idx (by decide) ?_
  exact h1

theorem State.rebuildCopies_within (s : State) (die : Nat) :
    Within [.regs, .idx] s (State.rebuildCopies s die) := by
  unfold State.rebuildCopies
  refine Within.foldl ?_ (fun _ _ => ?_)
  · exact Within.refl
  · refine Within.andThen (State.refreshCents_within ..) (by decide) ?_
    exact Within.refl

theorem State.runAgain_within (s : State) (k : Cohort) (j : Nat) (p : Piece) (todo : List (Nat × Nat × Nat × Nat)) (at_ : Option Nat) :
    Within [.sch, .gen] s (State.runAgain s k j p todo at_) := by
  unfold State.runAgain
  refine Within.foldl ?_ (fun _ _ => ?_)
  · refine Within.andThen (State.updPiece_within ..) (by decide) ?_
    exact Within.refl
  · refine Within.andThen (State.addTask_within ..) (by decide) ?_
    exact Within.refl

theorem State.withdraw_within (s : State) (i : Nat) :
    Within [.flt, .sch, .gen] s (State.withdraw s i) := by
  unfold State.withdraw
  extract_lets -useContext 
  refine Within.foldl ?_ (fun _ _ => ?_)
  · exact Within.refl
  · extract_lets -useContext _ _ _ x5 _ x7
    refine Within.have_ (t := x5) ?_ (fun h5 => ?_)
    · subst x5
      refine Within.set_flt (by decide) ?_
      exact Within.refl
    refine Within.have_ (t := x7) ?_ (fun h7 => ?_)
    · subst x7
      refine Within.set_gen (by decide) ?_
      exact Within.refl
    split
    · exact Within.refl
    · extract_lets -useContext _ y9 _ _ x12
      clear_value y9
      refine Within.have_ (t := x12) ?_ (fun h12 => ?_)
      · subst x12
        refine Within.andThen (State.updPiece_within ..) (by decide) ?_
        exact h7
      refine Within.andThen (State.runAgain_within ..) (by decide) ?_
      exact h12

theorem State.redoBlocks_within (s : State) (i : Nat) :
    Within [.flt, .sch, .gen] s (State.redoBlocks s i) := by
  unfold State.redoBlocks
  extract_lets -useContext _ x2
  refine Within.have_ (t := x2) ?_ (fun h2 => ?_)
  · subst x2
    refine Within.set_flt (by decide) ?_
    exact Within.refl
  refine Within.foldl ?_ (fun _ _ => ?_)
  · exact Within.refl
  · refine Within.foldl ?_ (fun _ _ => ?_)
    · exact Within.refl
    · extract_lets -useContext 
      refine Within.ite (fun _ => ?_) (fun _ => ?_)
      · exact Within.refl
      · refine Within.andThen (State.runAgain_within ..) (by decide) ?_
        exact Within.refl

theorem State.restartStep_within (s : State) (slot : Nat) :
    Within [.outbox, .fresh, .regs, .mem, .mm, .sch, .zwx, .fl, .ar, .kv, .gen] s (State.restartStep s slot) := by
  unfold State.restartStep
  split
  · exact Within.refl
  · extract_lets -useContext x1 _ _ _ _ _ x7
    refine Within.have_ (t := x1) ?_ (fun h1 => ?_)
    · subst x1
      refine Within.andThen (State.discardStep_within ..) (by decide) ?_
      exact Within.refl
    refine Within.have_ (t := x7) ?_ (fun h7 => ?_)
    · subst x7
      refine Within.set_gen (by decide) ?_
      exact h1
    refine Within.foldl ?_ (fun _ _ => ?_)
    · exact h7
    · refine Within.andThen (State.startStage_within ..) (by decide) ?_
      exact Within.refl

theorem State.redoParts_within (s : State) (island : Nat) :
    Within [.sch, .gen] s (State.redoParts s island) := by
  unfold State.redoParts
  refine Within.foldl ?_ (fun _ _ => ?_)
  · exact Within.refl
  · refine Within.foldl ?_ (fun _ _ => ?_)
    · exact Within.refl
    · extract_lets -useContext _ _ x3
      refine Within.have_ (t := x3) ?_ (fun h3 => ?_)
      · subst x3
        refine Within.andThen (State.updAttn_within ..) (by decide) ?_
        exact Within.refl
      refine Within.foldl ?_ (fun _ _ => ?_)
      · exact h3
      · refine Within.foldl ?_ (fun _ _ => ?_)
        · exact Within.refl
        · refine Within.andThen (State.addRoam_within ..) (by decide) ?_
          exact Within.refl

theorem State.remake_within (s : State) (island : Nat) (released : Bool) :
    Within [.outbox, .fresh, .regs, .mem, .flt, .mm, .sch, .zwx, .fl, .ar, .idx, .kv, .gen] s (State.remake s island released) := by
  unfold State.remake
  extract_lets -useContext x1
  refine Within.have_ (t := x1) ?_ (fun h1 => ?_)
  · subst x1
    refine Within.andThen (State.rescan_within ..) (by decide) ?_
    exact Within.refl
  refine Within.ite (fun _ => ?_) (fun _ => ?_)
  · refine Within.foldl ?_ (fun _ _ => ?_)
    · exact h1
    · refine Within.andThen (State.restartStep_within ..) (by decide) ?_
      exact Within.refl
  · refine Within.andThen (State.redoParts_within ..) (by decide) ?_
    refine Within.andThen (State.redoBlocks_within ..) (by decide) ?_
    refine Within.andThen (State.withdraw_within ..) (by decide) ?_
    exact h1

theorem execSramScrubRead_within {t1 : Bool} {unit : Nat} {line : Nat} {r : ScrubResult} {use : SramUse} {s : State} {t : State}
    (h : execSramScrubRead t1 unit line r use s = .next t) : Within [.outbox, .fresh, .regs, .mem, .flt, .mm, .sch, .zwx, .fl, .mgmt, .ar, .idx, .kv, .gen] s t := by
  unfold execSramScrubRead at h
  extract_lets -useContext _ x2 _ _ _ _ _ x8 x9 at h
  refine Within.have_ (t := x2) ?_ (fun h2 => ?_)
  · subst x2
    refine Within.ite (fun _ => ?_) (fun _ => ?_)
    · refine Within.set_flt (by decide) ?_
      exact Within.refl
    · exact Within.refl
  refine Within.have_ (t := x8) ?_ (fun h8 => ?_)
  · subst x8
    refine Within.andThen (State.faultLog_within ..) (by decide) ?_
    refine Within.andThen (State.count_within ..) (by decide) ?_
    exact h2
  refine Within.have_ (t := x9) ?_ (fun h9 => ?_)
  · subst x9
    split
    · refine Within.andThen (State.killUnit_within ..) (by decide) ?_
      exact h8
    · refine Within.ite (fun _ => ?_) (fun _ => ?_)
      · refine Within.andThen (State.remake_within ..) (by decide) ?_
        refine Within.andThen (State.killUnit_within ..) (by decide) ?_
        exact h8
      · refine Within.andThen (State.killUnit_within ..) (by decide) ?_
        exact h8
    · refine Within.andThen (State.rebuildCopies_within ..) (by decide) ?_
      exact h8
    · exact h8
  obtain rfl := Host.Outcome.next.inj h
  split
  · exact h2
  · refine Within.andThen (State.faultLog_within ..) (by decide) ?_
    refine Within.andThen (State.count_within ..) (by decide) ?_
    exact h2
  · refine Within.ite (fun _ => ?_) (fun _ => ?_)
    · refine Within.andThen (State.fenceCause_within ..) (by decide) ?_
      exact h9
    · refine Within.set_flt (by decide) ?_
      exact h9

theorem State.fenceTasks_within (s : State) (u : FenceUnit) :
    Within [.regs, .sch, .ar, .gen] s (State.fenceTasks s u) := by
  unfold State.fenceTasks
  extract_lets -useContext _ _ x3 _ _ x6 _ x8
  refine Within.have_ (t := x3) ?_ (fun h3 => ?_)
  · subst x3
    refine Within.foldl ?_ (fun _ _ => ?_)
    · exact Within.refl
    · refine Within.andThen (State.killRun_within ..) (by decide) ?_
      exact Within.refl
  refine Within.have_ (t := x6) ?_ (fun h6 => ?_)
  · subst x6
    refine Within.set_sch (by decide) ?_
    exact h3
  refine Within.have_ (t := x8) ?_ (fun h8 => ?_)
  · subst x8
    refine Within.ite (fun _ => ?_) (fun _ => ?_)
    · refine Within.set_sch (by decide) ?_
      exact h6
    · exact h6
  refine Within.set_sch_ar (by decide) ?_
  exact h8

theorem State.moveRoles_within (s : State) (i : Nat) :
    Within [.regs, .mm, .sch, .ar, .idx, .gen] s (State.moveRoles s i) := by
  unfold State.moveRoles
  extract_lets -useContext _ x2 _ _ _ x6
  refine Within.have_ (t := x2) ?_ (fun h2 => ?_)
  · subst x2
    refine Within.andThen (State.rescan_within ..) (by decide) ?_
    exact Within.refl
  refine Within.have_ (t := x6) ?_ (fun h6 => ?_)
  · subst x6
    refine Within.ite (fun _ => ?_) (fun _ => ?_)
    · refine Within.andThen (State.count_within ..) (by decide) ?_
      exact h2
    · exact h2
  refine Within.set_sch_idx_gen (by decide) ?_
  exact h6

theorem State.listFence_within (s : State) (u : FenceUnit) :
    Within [.flt] s (State.listFence s u) := by
  unfold State.listFence
  extract_lets -useContext 
  refine Within.set_flt (by decide) ?_
  exact Within.refl

theorem State.recordFence_within (s : State) (u : FenceUnit) :
    Within [.outbox, .regs, .flt, .mgmt] s (State.recordFence s u) := by
  unfold State.recordFence
  extract_lets -useContext 
  refine Within.andThen (State.listFence_within ..) (by decide) ?_
  refine Within.andThen (State.irq_within ..) (by decide) ?_
  refine Within.andThen (State.faultLog_within ..) (by decide) ?_
  refine Within.andThen (State.count_within ..) (by decide) ?_
  exact Within.refl

theorem execFenceEffect_within {u : FenceUnit} {c : FenceCause} {s : State} {t : State}
    (h : execFenceEffect u c s = .next t) : Within [.outbox, .regs, .flt, .mm, .sch, .mgmt, .ar, .idx, .gen] s t := by
  unfold execFenceEffect at h
  obtain rfl := Host.Outcome.next.inj h
  refine Within.ite (fun _ => ?_) (fun _ => ?_)
  · exact Within.refl
  · extract_lets -useContext _ x2 _ x4 x5 x6 x7
    refine Within.have_ (t := x2) ?_ (fun h2 => ?_)
    · subst x2
      refine Within.set_flt (by decide) ?_
      exact Within.refl
    refine Within.have_ (t := x4) ?_ (fun h4 => ?_)
    · subst x4
      refine Within.set_flt (by decide) ?_
      exact h2
    refine Within.have_ (t := x5) ?_ (fun h5 => ?_)
    · subst x5
      refine Within.ite (fun _ => ?_) (fun _ => ?_)
      · refine Within.andThen (State.moveRoles_within ..) (by decide) ?_
        refine Within.andThen (State.redoBlocks_within ..) (by decide) ?_
        refine Within.andThen (State.withdraw_within ..) (by decide) ?_
        refine Within.andThen (State.abandon_within ..) (by decide) ?_
        exact h4
      · exact h4
    refine Within.have_ (t := x6) ?_ (fun h6 => ?_)
    · subst x6
      refine Within.andThen (State.fenceTasks_within ..) (by decide) ?_
      exact h5
    refine Within.have_ (t := x7) ?_ (fun h7 => ?_)
    · subst x7
      refine Within.ite (fun _ => ?_) (fun _ => ?_)
      · refine Within.andThen (State.count_within ..) (by decide) ?_
        exact h6
      · exact h6
    refine Within.ite (fun _ => ?_) (fun _ => ?_)
    · exact h2
    · refine Within.andThen (State.recordFence_within ..) (by decide) ?_
      exact h7

theorem State.askFence_within (s : State) (u : FenceUnit) :
    Within [.flt] s (State.askFence s u) := by
  unfold State.askFence
  refine Within.andThen (State.fenceCause_within ..) (by decide) ?_
  exact Within.refl

theorem State.askReadmit_within (s : State) (u : FenceUnit) :
    Within [.flt] s (State.askReadmit s u) := by
  unfold State.askReadmit
  refine Within.ite (fun _ => ?_) (fun _ => ?_)
  · refine Within.set_flt (by decide) ?_
    exact Within.refl
  · exact Within.refl

theorem State.emptyList_within (s : State) :
    Within [.flt] s (State.emptyList s) := by
  unfold State.emptyList
  refine Within.set_flt (by decide) ?_
  exact Within.refl

theorem State.admitUnit_within (s : State) (u : FenceUnit) :
    Within [.flt] s (State.admitUnit s u) := by
  unfold State.admitUnit
  refine Within.set_flt (by decide) ?_
  exact Within.refl

theorem State.clearUnit_within (s : State) (u : FenceUnit) :
    Within [.mem] s (State.clearUnit s u) := by
  unfold State.clearUnit
  extract_lets -useContext 
  refine Within.set_mem (by decide) ?_ ?_
  · exact Within.refl
  · exact memWf_filter _ _

theorem State.logReadmit_within (s : State) (u : FenceUnit) :
    Within [.outbox, .regs, .flt, .mgmt] s (State.logReadmit s u) := by
  unfold State.logReadmit
  refine Within.andThen (State.faultLog_within ..) (by decide) ?_
  refine Within.andThen (State.count_within ..) (by decide) ?_
  exact Within.refl

theorem execSelfTestDone_within {u : FenceUnit} {failed : List Nat} {s : State} {t : State}
    (h : execSelfTestDone u failed s = .next t) : Within [.outbox, .regs, .mem, .flt, .mgmt] s t := by
  unfold execSelfTestDone at h
  obtain rfl := Host.Outcome.next.inj h
  refine Within.ite (fun _ => ?_) (fun _ => ?_)
  · exact Within.refl
  · extract_lets -useContext _ x2 _ _ x5
    refine Within.have_ (t := x2) ?_ (fun h2 => ?_)
    · subst x2
      refine Within.andThen (State.clearUnit_within ..) (by decide) ?_
      refine Within.set_flt (by decide) ?_
      exact Within.refl
    refine Within.have_ (t := x5) ?_ (fun h5 => ?_)
    · subst x5
      refine Within.foldl ?_ (fun _ _ => ?_)
      · exact h2
      · refine Within.ite (fun _ => ?_) (fun _ => ?_)
        · refine Within.andThen (State.recordFence_within ..) (by decide) ?_
          refine Within.set_flt (by decide) ?_
          exact Within.refl
        · exact Within.refl
    refine Within.ite (fun _ => ?_) (fun _ => ?_)
    · refine Within.ite (fun _ => ?_) (fun _ => ?_)
      · refine Within.andThen (State.logReadmit_within ..) (by decide) ?_
        refine Within.andThen (State.admitUnit_within ..) (by decide) ?_
        exact h2
      · exact h2
    · refine Within.ite (fun _ => ?_) (fun _ => ?_)
      · exact h5
      · refine Within.andThen (State.logReadmit_within ..) (by decide) ?_
        refine Within.andThen (State.admitUnit_within ..) (by decide) ?_
        refine Within.foldl ?_ (fun _ _ => ?_)
        · exact h5
        · refine Within.andThen (State.admitUnit_within ..) (by decide) ?_
          exact Within.refl

theorem State.moveIntake_within (s : State) (stack : Nat) :
    Within [.mm] s (State.moveIntake s stack) := by
  unfold State.moveIntake
  extract_lets -useContext _ _ _ x4
  refine Within.have_ (t := x4) ?_ (fun h4 => ?_)
  · subst x4
    refine Within.set_mm (by decide) ?_
    exact Within.refl
  refine Within.ite (fun _ => ?_) (fun _ => ?_)
  · exact Within.refl
  · refine Within.ite (fun _ => ?_) (fun _ => ?_)
    · exact h4
    · refine Within.set_mm (by decide) ?_
      exact h4

theorem execStackFail_within {stack : Nat} {s : State} {t : State}
    (h : execStackFail stack s = .next t) : Within [.outbox, .fresh, .regs, .mem, .flt, .mm, .sch, .cmd, .zwx, .fl, .mgmt, .ar, .idx, .kv, .gen] s t := by
  unfold execStackFail at h
  obtain rfl := Host.Outcome.next.inj h
  refine Within.ite (fun _ => ?_) (fun _ => ?_)
  · exact Within.refl
  · extract_lets -useContext _ x2 x3
    refine Within.have_ (t := x2) ?_ (fun h2 => ?_)
    · subst x2
      refine Within.andThen (State.faultLog_within ..) (by decide) ?_
      refine Within.andThen (State.count_within ..) (by decide) ?_
      refine Within.set_flt (by decide) ?_
      exact Within.refl
    refine Within.have_ (t := x3) ?_ (fun h3 => ?_)
    · subst x3
      refine Within.foldl ?_ (fun _ _ => ?_)
      · exact h2
      · refine Within.andThen (State.complete_within ..) (by decide) ?_
        refine Within.andThen (State.discard_within ..) (by decide) ?_
        exact Within.refl
    refine Within.andThen (State.moveIntake_within ..) (by decide) ?_
    exact h3

theorem State.dropMgmt_within (s : State) :
    Within [.sec, .mgmt] s (State.dropMgmt s) := by
  unfold State.dropMgmt
  extract_lets -useContext _ x2
  refine Within.have_ (t := x2) ?_ (fun h2 => ?_)
  · subst x2
    split
    · refine Within.ite (fun _ => ?_) (fun _ => ?_)
      · exact Within.refl
      · refine Within.set_sec (by decide) ?_
        exact Within.refl
    · exact Within.refl
  refine Within.set_sec_mgmt (by decide) ?_
  exact h2

theorem execCoreWatchdogExpire_within {core : Nat} {s : State} {t : State}
    (h : execCoreWatchdogExpire core s = .next t) : Within [.outbox, .regs, .flt, .sec, .mgmt] s t := by
  unfold execCoreWatchdogExpire at h
  obtain rfl := Host.Outcome.next.inj h
  split
  · exact Within.refl
  · extract_lets -useContext x1 _ x3
    refine Within.have_ (t := x1) ?_ (fun h1 => ?_)
    · subst x1
      refine Within.ite (fun _ => ?_) (fun _ => ?_)
      · refine Within.andThen (State.dropMgmt_within ..) (by decide) ?_
        exact Within.refl
      · exact Within.refl
    refine Within.have_of1 (f := x3) (fun _ => ?_) (fun h3 => ?_)
    · subst x3
      beta_reduce
      refine Within.set_flt (by decide) ?_
      exact h1
    refine Within.ite (fun _ => ?_) (fun _ => ?_)
    · exact h3 ..
    · refine Within.andThen (State.faultLog_within ..) (by decide) ?_
      refine Within.andThen (State.count_within ..) (by decide) ?_
      exact h3 ..

theorem execCoreRestartDone_within {core : Nat} {s : State} {t : State}
    (h : execCoreRestartDone core s = .next t) : Within [.flt] s t := by
  unfold execCoreRestartDone at h
  obtain rfl := Host.Outcome.next.inj h
  split
  · exact Within.refl
  · refine Within.set_flt (by decide) ?_
    exact Within.refl

end Sys2Proof.Machine
end

