-- ==== Sys2Proof/Laws/Security.lean ====
section
/-! SUPPORT. For each operation of Machine/Security.lean: the fields it may change, that it keeps the invariant, and that the watch clock does not go back. -/

namespace Sys2Proof.Machine

set_option linter.all false
set_option Elab.async false

theorem execBootVerifyDone_within {s : State} {t : State}
    (h : execBootVerifyDone s = .next t) : Within [.regs, .sec] s t := by
  unfold execBootVerifyDone at h
  obtain rfl := Host.Outcome.next.inj h
  refine Within.ite (fun _ => ?_) (fun _ => ?_)
  · exact Within.refl
  · extract_lets -useContext 
    refine Within.ite (fun _ => ?_) (fun _ => ?_)
    · refine Within.set_sec (by decide) ?_
      exact Within.refl
    · refine Within.ite (fun _ => ?_) (fun _ => ?_)
      · refine Within.andThen (State.count_within ..) (by decide) ?_
        refine Within.set_sec (by decide) ?_
        exact Within.refl
      · refine Within.set_sec (by decide) ?_
        exact Within.refl

theorem execAliasCertIssued_within {s : State} {t : State}
    (h : execAliasCertIssued s = .next t) : Within [.sec] s t := by
  unfold execAliasCertIssued at h
  obtain rfl := Host.Outcome.next.inj h
  refine Within.ite (fun _ => ?_) (fun _ => ?_)
  · exact Within.refl
  · refine Within.set_sec (by decide) ?_
    exact Within.refl

theorem State.restartBoot_within (s : State) :
    Within [.sec] s (State.restartBoot s) := by
  unfold State.restartBoot
  refine Within.set_sec (by decide) ?_
  exact Within.refl

theorem State.commitSvn_within (s : State) :
    Within [.regs, .sec] s (State.commitSvn s) := by
  unfold State.commitSvn
  extract_lets -useContext 
  refine Within.ite (fun _ => ?_) (fun _ => ?_)
  · refine Within.set_sec (by decide) ?_
    exact Within.refl
  · refine Within.andThen (State.regWriteErr_within ..) (by decide) ?_
    exact Within.refl

theorem State.eraseKeys_within (s : State) :
    Within [.regs, .sec] s (State.eraseKeys s) := by
  unfold State.eraseKeys
  refine Within.ite (fun _ => ?_) (fun _ => ?_)
  · refine Within.set_sec (by decide) ?_
    exact Within.refl
  · refine Within.andThen (State.regWriteErr_within ..) (by decide) ?_
    exact Within.refl

theorem State.goUnlock_within (s : State) :
    Within [.fresh, .regs, .sec] s (State.goUnlock s) := by
  unfold State.goUnlock
  refine Within.ite (fun _ => ?_) (fun _ => ?_)
  · refine Within.andThen (State.regWriteErr_within ..) (by decide) ?_
    exact Within.refl
  · refine Within.set_fresh_sec (by decide) ?_
    exact Within.refl

theorem execUnlockCheckDone_within {s : State} {t : State}
    (h : execUnlockCheckDone s = .next t) : Within [.regs, .sec] s t := by
  unfold execUnlockCheckDone at h
  obtain rfl := Host.Outcome.next.inj h
  split
  · exact Within.refl
  · extract_lets -useContext 
    refine Within.ite (fun _ => ?_) (fun _ => ?_)
    · refine Within.set_sec (by decide) ?_
      exact Within.refl
    · refine Within.andThen (State.count_within ..) (by decide) ?_
      refine Within.set_sec (by decide) ?_
      exact Within.refl

theorem State.served_within {ps : List Field} {s : State} {t : Transport} {f : State → State}
    (hq : Field.sub [.regs] ps = true) (hf : ∀ u, Within ps u (f u)) : Within ps s (s.served t f) := by
  unfold State.served
  refine Within.ite (fun _ => Within.refl) (fun _ => ?_)
  have h := Within.mono (State.count_within s Reg.mgmtMctpRxCnt 1) hq
  exact Within.ite (fun _ => Within.trans h (hf _)) (fun _ => h)

theorem State.setSpdm_within (s : State) (t0 : Transport) (x : SpdmSt) :
    Within [.sec] s (State.setSpdm s t0 x) := by
  unfold State.setSpdm
  refine Within.set_sec (by decide) ?_
  exact Within.refl

theorem State.spdmAns_within (s : State) (t0 : Transport) (code : Nat) (b : List Byte) :
    Within [.outbox] s (State.spdmAns s t0 code b) := by
  unfold State.spdmAns
  refine Within.andThen (State.emit_within ..) (by decide) ?_
  exact Within.refl

theorem State.spdmErr_within (s : State) (t0 : Transport) (code : Nat) (data : Nat) :
    Within [.outbox] s (State.spdmErr s t0 code data) := by
  unfold State.spdmErr
  refine Within.andThen (State.spdmAns_within ..) (by decide) ?_
  exact Within.refl

theorem execGetVersion_within {t0 : Transport} {s : State} {t : State}
    (h : execGetVersion t0 s = .next t) : Within [.outbox, .regs, .sec] s t := by
  unfold execGetVersion at h
  obtain rfl := Host.Outcome.next.inj h
  refine Within.trans ?_ (State.served_within (by decide) (fun _ => ?_) ..)
  · exact Within.refl
  · refine Within.andThen (State.spdmAns_within ..) (by decide) ?_
    refine Within.andThen (State.setSpdm_within ..) (by decide) ?_
    exact Within.refl

theorem execGetCapabilities_within {t0 : Transport} {s : State} {t : State}
    (h : execGetCapabilities t0 s = .next t) : Within [.outbox, .regs, .sec] s t := by
  unfold execGetCapabilities at h
  obtain rfl := Host.Outcome.next.inj h
  refine Within.trans ?_ (State.served_within (by decide) (fun _ => ?_) ..)
  · exact Within.refl
  · refine Within.ite (fun _ => ?_) (fun _ => ?_)
    · refine Within.andThen (State.spdmAns_within ..) (by decide) ?_
      refine Within.andThen (State.setSpdm_within ..) (by decide) ?_
      exact Within.refl
    · refine Within.andThen (State.spdmErr_within ..) (by decide) ?_
      exact Within.refl

theorem execNegotiateAlgorithms_within {t0 : Transport} {s : State} {t : State}
    (h : execNegotiateAlgorithms t0 s = .next t) : Within [.outbox, .regs, .sec] s t := by
  unfold execNegotiateAlgorithms at h
  obtain rfl := Host.Outcome.next.inj h
  refine Within.trans ?_ (State.served_within (by decide) (fun _ => ?_) ..)
  · exact Within.refl
  · refine Within.ite (fun _ => ?_) (fun _ => ?_)
    · refine Within.andThen (State.spdmAns_within ..) (by decide) ?_
      refine Within.andThen (State.setSpdm_within ..) (by decide) ?_
      exact Within.refl
    · refine Within.andThen (State.spdmErr_within ..) (by decide) ?_
      exact Within.refl

theorem State.negotiated_within {ps : List Field} {s : State} {t : Transport} {code : Nat} {f : State → State}
    (hq : Field.sub [.outbox, .regs] ps = true) (hf : ∀ u, Within ps u (f u)) : Within ps s (s.negotiated t code f) := by
  unfold State.negotiated
  refine State.served_within (Field.sub_trans (by decide) hq) (fun u => Within.ite (fun _ => hf u) (fun _ => ?_))
  exact Within.mono (State.spdmErr_within ..) (Field.sub_trans (by decide) hq)

theorem execGetDigests_within {t0 : Transport} {s : State} {t : State}
    (h : execGetDigests t0 s = .next t) : Within [.outbox, .regs] s t := by
  unfold execGetDigests at h
  obtain rfl := Host.Outcome.next.inj h
  refine Within.trans ?_ (State.negotiated_within (by decide) (fun _ => ?_) ..)
  · exact Within.refl
  · refine Within.andThen (State.spdmAns_within ..) (by decide) ?_
    exact Within.refl

theorem execGetCertificate_within {t0 : Transport} {slot : Nat} {off : Nat} {len : Nat} {s : State} {t : State}
    (h : execGetCertificate t0 slot off len s = .next t) : Within [.outbox, .regs] s t := by
  unfold execGetCertificate at h
  obtain rfl := Host.Outcome.next.inj h
  refine Within.trans ?_ (State.negotiated_within (by decide) (fun _ => ?_) ..)
  · exact Within.refl
  · refine Within.ite (fun _ => ?_) (fun _ => ?_)
    · refine Within.andThen (State.spdmErr_within ..) (by decide) ?_
      exact Within.refl
    · refine Within.andThen (State.spdmAns_within ..) (by decide) ?_
      exact Within.refl

theorem State.spdmNonce_within (s : State) :
    Within [.fresh] s (State.spdmNonce s).2 := by
  unfold State.spdmNonce
  refine Within.set_fresh (by decide) ?_
  exact Within.refl

theorem execChallenge_within {t0 : Transport} {slot : Nat} {nonce : Body} {s : State} {t : State}
    (h : execChallenge t0 slot nonce s = .next t) : Within [.outbox, .fresh, .regs] s t := by
  unfold execChallenge at h
  obtain rfl := Host.Outcome.next.inj h
  refine Within.trans ?_ (State.negotiated_within (by decide) (fun _ => ?_) ..)
  · exact Within.refl
  · refine Within.ite (fun _ => ?_) (fun _ => ?_)
    · refine Within.andThen (State.spdmErr_within ..) (by decide) ?_
      exact Within.refl
    · extract_lets -useContext x1
      refine Within.have_ (t := x1.2) ?_ (fun h1 => ?_)
      · subst x1
        with_reducible refine Within.andThen (State.spdmNonce_within ..) (by decide) ?_
        exact Within.refl
      refine Within.andThen (State.spdmAns_within ..) (by decide) ?_
      exact h1

theorem execGetMeasurements_within {t0 : Transport} {index : Nat} {nonce : Body} {s : State} {t : State}
    (h : execGetMeasurements t0 index nonce s = .next t) : Within [.outbox, .fresh, .regs] s t := by
  unfold execGetMeasurements at h
  obtain rfl := Host.Outcome.next.inj h
  refine Within.trans ?_ (State.negotiated_within (by decide) (fun _ => ?_) ..)
  · exact Within.refl
  · extract_lets -useContext _ x2
    refine Within.have_ (t := x2.2) ?_ (fun h2 => ?_)
    · subst x2
      with_reducible refine Within.andThen (State.spdmNonce_within ..) (by decide) ?_
      exact Within.refl
    refine Within.ite (fun _ => ?_) (fun _ => ?_)
    · refine Within.andThen (State.spdmErr_within ..) (by decide) ?_
      exact Within.refl
    · refine Within.andThen (State.spdmAns_within ..) (by decide) ?_
      exact h2

theorem execSpdmUnsupportedRequest_within {t0 : Transport} {code : Nat} {s : State} {t : State}
    (h : execSpdmUnsupportedRequest t0 code s = .next t) : Within [.outbox, .regs] s t := by
  unfold execSpdmUnsupportedRequest at h
  obtain rfl := Host.Outcome.next.inj h
  refine Within.trans ?_ (State.served_within (by decide) (fun _ => ?_) ..)
  · exact Within.refl
  · refine Within.andThen (State.spdmErr_within ..) (by decide) ?_
    exact Within.refl

end Sys2Proof.Machine
end

