-- ==== Sys2Proof/Laws/Registers.lean ====
section
/-! SUPPORT. For each operation of Machine/Registers.lean: the fields it may change, that it keeps the invariant, and that the watch clock does not go back. -/

namespace Sys2Proof.Machine

set_option linter.all false
set_option Elab.async false

theorem State.unlatch_within (s : State) (a : Nat) :
    Within [.latches] s (State.unlatch s a) := by
  unfold State.unlatch
  refine Within.set_latches (by decide) ?_
  exact Within.refl

theorem State.readWord_within (s : State) (a : Nat) :
    Within [.latches, .regs] s (State.readWord s a).2 := by
  unfold State.readWord
  refine Within.ite_snd (fun _ => ?_) (fun _ => ?_)
  · refine Within.set_latches (by decide) ?_
    exact Within.refl
  · split
    · exact Within.refl
    · refine Within.ite_snd (fun _ => ?_) (fun _ => ?_)
      · with_reducible refine Within.andThen (State.dbgRead_within ..) (by decide) ?_
        exact Within.refl
      · exact Within.refl

theorem State.portEnable_within (s : State) (n : Nat) (en : Bool) :
    Within [.outbox, .regs, .pwr, .brg, .zwx] s (State.portEnable s n en) := by
  unfold State.portEnable
  extract_lets -useContext 
  refine Within.ite (fun _ => ?_) (fun _ => ?_)
  · refine Within.ite (fun _ => ?_) (fun _ => ?_)
    · exact Within.refl
    · refine Within.andThen (State.updPort_within ..) (by decide) ?_
      refine Within.andThen (State.hostLinkDown_within ..) (by decide) ?_
      exact Within.refl
  · refine Within.ite (fun _ => ?_) (fun _ => ?_)
    · refine Within.ite (fun _ => ?_) (fun _ => ?_)
      · refine Within.andThen (State.updPort_within ..) (by decide) ?_
        exact Within.refl
      · exact Within.refl
    · refine Within.ite (fun _ => ?_) (fun _ => ?_)
      · refine Within.andThen (State.updPort_within ..) (by decide) ?_
        exact Within.refl
      · refine Within.andThen (State.portDown_within ..) (by decide) ?_
        exact Within.refl

theorem State.lresetActs_within (s : State) (t0 : State) (b : Nat) :
    Within [.outbox, .regs, .mem, .pwr, .mm, .sch, .brg, .zwx, .fl, .sec, .ar] t0 (State.lresetActs s t0 b) := by
  unfold State.lresetActs
  split
  · exact Within.refl
  · refine Within.ite (fun _ => ?_) (fun _ => ?_)
    · refine Within.foldl ?_ (fun _ _ => ?_)
      · exact Within.refl
      · refine Within.andThen (State.funcEnabled_within ..) (by decide) ?_
        exact Within.refl
    · refine Within.ite (fun _ => ?_) (fun _ => ?_)
      · refine Within.set_fl (by decide) ?_
        exact Within.refl
      · refine Within.ite (fun _ => ?_) (fun _ => ?_)
        · refine Within.ite (fun _ => ?_) (fun _ => ?_)
          · exact Within.refl
          · refine Within.andThen (State.portEnable_within ..) (by decide) ?_
            exact Within.refl
        · refine Within.ite (fun _ => ?_) (fun _ => ?_)
          · refine Within.andThen (State.putIslet_within ..) (by decide) ?_
            exact Within.refl
          · refine Within.ite (fun _ => ?_) (fun _ => ?_)
            · extract_lets -useContext x1
              refine Within.have_ (t := x1) ?_ (fun h1 => ?_)
              · subst x1
                refine Within.andThen (State.wr_within ..) (by decide) ?_
                exact Within.refl
              refine Within.ite (fun _ => ?_) (fun _ => ?_)
              · refine Within.andThen (State.setParGran_within ..) (by decide) ?_
                exact h1
              · refine Within.andThen (State.regWriteErr_within ..) (by decide) ?_
                exact h1
            · refine Within.ite (fun _ => ?_) (fun _ => ?_)
              · refine Within.andThen (State.payCredit_within ..) (by decide) ?_
                refine Within.andThen (State.drainCq_within ..) (by decide) ?_
                exact Within.refl
              · exact Within.refl

theorem State.finishReset_within (s : State) (b : Nat) :
    Within [.outbox, .fresh, .clock, .now, .latches, .regs, .busy, .mem, .pwr, .mm, .sch, .brg, .zwx, .fl, .sec, .ar] s (State.finishReset s b) := by
  unfold State.finishReset
  refine Within.ite (fun _ => ?_) (fun _ => ?_)
  · extract_lets -useContext x1 x2 x3
    refine Within.have_ (t := x1) ?_ (fun h1 => ?_)
    · subst x1
      refine Within.andThen (State.elapse_within ..) (by decide) ?_
      exact Within.refl
    refine Within.have_ (t := x2) ?_ (fun h2 => ?_)
    · subst x2
      refine Within.set_fresh_busy (by decide) ?_
      exact h1
    refine Within.have_ (t := x3) ?_ (fun h3 => ?_)
    · subst x3
      refine Within.set_latches_regs (by decide) ?_ ?_
      · exact h2
      · exact fun _ => foldl_mapPut_wf resetWord (fun e : Nat × Word => e.1) (fun e => if pageBase e.1 = b then lresetWord e.1 e.2 else e.2) _ [] rfl
    refine Within.andThen (State.lresetActs_within ..) (by decide) ?_
    exact h3
  · exact Within.refl

theorem State.writeCtl_within (s : State) (a : Nat) (v : Nat) :
    Within [.regs, .busy] s (State.writeCtl s a v) := by
  unfold State.writeCtl
  extract_lets -useContext x1
  refine Within.have_ (t := x1) ?_ (fun h1 => ?_)
  · subst x1
    refine Within.andThen (State.wr_within ..) (by decide) ?_
    exact Within.refl
  refine Within.ite (fun _ => ?_) (fun _ => ?_)
  · refine Within.set_busy (by decide) ?_
    exact h1
  · exact h1

theorem State.writeWo_within (s : State) (p : Path) (typ : Nat) (i : Nat) (off : Nat) (v : Nat) :
    Within [.fresh, .regs, .mem, .pwr, .flt, .mm, .sch, .fl, .sec, .kv] s (State.writeWo s p typ i off v) := by
  unfold State.writeWo
  refine Within.ite (fun _ => ?_) (fun _ => ?_)
  · extract_lets -useContext 
    refine Within.andThen (State.wr_within ..) (by decide) ?_
    exact Within.refl
  · split
    · refine Within.ite (fun _ => ?_) (fun _ => ?_)
      · split
        · refine Within.andThen (State.reqWrite_within ..) (by decide) ?_
          exact Within.refl
        · refine Within.andThen (State.reqWrite_within ..) (by decide) ?_
          exact Within.refl
        · refine Within.andThen (State.reqWrite_within ..) (by decide) ?_
          exact Within.refl
        · exact Within.refl
      · refine Within.ite (fun _ => ?_) (fun _ => ?_)
        · refine Within.andThen (State.rearmPins_within ..) (by decide) ?_
          exact Within.refl
        · exact Within.refl
    · extract_lets -useContext 
      split
      · refine Within.andThen (State.askFence_within ..) (by decide) ?_
        exact Within.refl
      · refine Within.andThen (State.askReadmit_within ..) (by decide) ?_
        exact Within.refl
      · refine Within.andThen (State.emptyList_within ..) (by decide) ?_
        exact Within.refl
      · exact Within.refl
    · extract_lets -useContext x3 x4
      refine Within.have_ (t := x3) ?_ (fun h3 => ?_)
      · subst x3
        refine Within.ite (fun _ => ?_) (fun _ => ?_)
        · refine Within.andThen (State.goUnlock_within ..) (by decide) ?_
          exact Within.refl
        · exact Within.refl
      refine Within.have_ (t := x4) ?_ (fun h4 => ?_)
      · subst x4
        refine Within.ite (fun _ => ?_) (fun _ => ?_)
        · refine Within.andThen (State.commitSvn_within ..) (by decide) ?_
          exact h3
        · exact h3
      refine Within.ite (fun _ => ?_) (fun _ => ?_)
      · refine Within.andThen (State.eraseKeys_within ..) (by decide) ?_
        exact h4
      · exact h4
    · extract_lets -useContext 
      refine Within.andThen (State.wr_within ..) (by decide) ?_
      exact Within.refl
    · refine Within.ite (fun _ => ?_) (fun _ => ?_)
      · refine Within.andThen (State.startReset_within ..) (by decide) ?_
        exact Within.refl
      · exact Within.refl
    · refine Within.ite (fun _ => ?_) (fun _ => ?_)
      · refine Within.andThen (State.arm_within ..) (by decide) ?_
        exact Within.refl
      · exact Within.refl
    · exact Within.refl

theorem State.writeWakeCfg_within (s : State) (k : Nat) (new : Nat) :
    Within [.regs, .pwr] s (State.writeWakeCfg s k new) := by
  unfold State.writeWakeCfg
  extract_lets -useContext 
  refine Within.andThen (State.updPin_within ..) (by decide) ?_
  refine Within.andThen (State.wr_within ..) (by decide) ?_
  exact Within.refl

theorem State.enableRing_within (s : State) (ring : Nat) :
    Within [.brg, .zwx] s (State.enableRing s ring) := by
  unfold State.enableRing
  refine Within.set_brg_zwx (by decide) ?_
  exact Within.refl

theorem State.writeRing_within (s : State) (typ : Nat) (i : Nat) (off : Nat) (a : Nat) (new : Nat) :
    Within [.outbox, .regs, .brg, .zwx] s (State.writeRing s typ i off a new) := by
  unfold State.writeRing
  extract_lets -useContext _ _ _ _ x5
  refine Within.have_ (t := x5) ?_ (fun h5 => ?_)
  · subst x5
    refine Within.andThen (State.wr_within ..) (by decide) ?_
    exact Within.refl
  refine Within.ite (fun _ => ?_) (fun _ => ?_)
  · refine Within.andThen (State.regWriteErr_within ..) (by decide) ?_
    exact Within.refl
  · refine Within.ite (fun _ => ?_) (fun _ => ?_)
    · refine Within.andThen (State.enableRing_within ..) (by decide) ?_
      exact h5
    · refine Within.ite (fun _ => ?_) (fun _ => ?_)
      · refine Within.set_brg_zwx (by decide) ?_
        exact h5
      · refine Within.ite (fun _ => ?_) (fun _ => ?_)
        · refine Within.andThen (State.payCredit_within ..) (by decide) ?_
          refine Within.andThen (State.drainCq_within ..) (by decide) ?_
          exact h5
        · exact h5

theorem State.writeRw_within (s : State) (typ : Nat) (i : Nat) (off : Nat) (a : Nat) (new : Nat) :
    Within [.outbox, .regs, .mem, .pwr, .mm, .sch, .brg, .zwx, .sec, .ar] s (State.writeRw s typ i off a new) := by
  unfold State.writeRw
  split
  · refine Within.ite (fun _ => ?_) (fun _ => ?_)
    · refine Within.andThen (State.writeWakeCfg_within ..) (by decide) ?_
      exact Within.refl
    · refine Within.andThen (State.wr_within ..) (by decide) ?_
      exact Within.refl
  · refine Within.ite (fun _ => ?_) (fun _ => ?_)
    · refine Within.andThen (State.funcEnabled_within ..) (by decide) ?_
      refine Within.andThen (State.wr_within ..) (by decide) ?_
      exact Within.refl
    · refine Within.andThen (State.wr_within ..) (by decide) ?_
      exact Within.refl
  · refine Within.ite (fun _ => ?_) (fun _ => ?_)
    · refine Within.andThen (State.regWriteErr_within ..) (by decide) ?_
      exact Within.refl
    · refine Within.andThen (State.wr_within ..) (by decide) ?_
      exact Within.refl
  · refine Within.ite (fun _ => ?_) (fun _ => ?_)
    · refine Within.andThen (State.regWriteErr_within ..) (by decide) ?_
      exact Within.refl
    · refine Within.andThen (State.wr_within ..) (by decide) ?_
      exact Within.refl
  · refine Within.ite (fun _ => ?_) (fun _ => ?_)
    · refine Within.andThen (State.regWriteErr_within ..) (by decide) ?_
      exact Within.refl
    · refine Within.andThen (State.wr_within ..) (by decide) ?_
      exact Within.refl
  · refine Within.ite (fun _ => ?_) (fun _ => ?_)
    · refine Within.andThen (State.writeRing_within ..) (by decide) ?_
      exact Within.refl
    · refine Within.andThen (State.wr_within ..) (by decide) ?_
      exact Within.refl
  · extract_lets -useContext 
    refine Within.ite (fun _ => ?_) (fun _ => ?_)
    · refine Within.andThen (State.portEnable_within ..) (by decide) ?_
      refine Within.andThen (State.wr_within ..) (by decide) ?_
      exact Within.refl
    · refine Within.andThen (State.wr_within ..) (by decide) ?_
      exact Within.refl
  · refine Within.ite (fun _ => ?_) (fun _ => ?_)
    · refine Within.andThen (State.haltIslet_within ..) (by decide) ?_
      exact Within.refl
    · refine Within.andThen (State.wr_within ..) (by decide) ?_
      exact Within.refl
  · extract_lets -useContext 
    refine Within.ite (fun _ => ?_) (fun _ => ?_)
    · refine Within.andThen (State.regWriteErr_within ..) (by decide) ?_
      exact Within.refl
    · refine Within.andThen (State.wr_within ..) (by decide) ?_
      exact Within.refl
  · refine Within.ite (fun _ => ?_) (fun _ => ?_)
    · refine Within.ite (fun _ => ?_) (fun _ => ?_)
      · exact Within.refl
      · refine Within.ite (fun _ => ?_) (fun _ => ?_)
        · refine Within.andThen (State.setParGran_within ..) (by decide) ?_
          exact Within.refl
        · refine Within.andThen (State.regWriteErr_within ..) (by decide) ?_
          exact Within.refl
    · refine Within.andThen (State.wr_within ..) (by decide) ?_
      exact Within.refl
  · refine Within.andThen (State.writeRing_within ..) (by decide) ?_
    exact Within.refl
  · refine Within.andThen (State.wr_within ..) (by decide) ?_
    exact Within.refl

theorem State.writeReg_within (s : State) (p : Path) (typ : Nat) (i : Nat) (r : RegRow) (a : Nat) (v : Nat) (refused : Nat) :
    Within [.outbox, .fresh, .regs, .busy, .mem, .pwr, .flt, .mm, .sch, .brg, .zwx, .fl, .sec, .ar, .kv] s (State.writeReg s p typ i r a v refused) := by
  unfold State.writeReg
  extract_lets -useContext _ _ _ x4
  refine Within.have_ (t := x4) ?_ (fun h4 => ?_)
  · subst x4
    refine Within.andThen (State.wr_within ..) (by decide) ?_
    exact Within.refl
  refine Within.ite (fun _ => ?_) (fun _ => ?_)
  · refine Within.andThen (State.writeCtl_within ..) (by decide) ?_
    exact Within.refl
  · split
    · exact Within.refl
    · exact Within.refl
    · refine Within.andThen (State.writeWo_within ..) (by decide) ?_
      exact Within.refl
    · refine Within.ite (fun _ => ?_) (fun _ => ?_)
      · refine Within.andThen (State.clearEvents_within ..) (by decide) ?_
        exact Within.refl
      · refine Within.ite (fun _ => ?_) (fun _ => ?_)
        · refine Within.andThen (State.wr_within ..) (by decide) ?_
          exact h4
        · exact h4
    · refine Within.ite (fun _ => ?_) (fun _ => ?_)
      · refine Within.andThen (State.writeRw_within ..) (by decide) ?_
        exact Within.refl
      · refine Within.andThen (State.regWriteErr_within ..) (by decide) ?_
        exact Within.refl

theorem State.writeNow_within (s : State) (p : Path) (a : Nat) (v : Nat) :
    Within [.outbox, .fresh, .latches, .regs, .busy, .mem, .pwr, .flt, .mm, .sch, .brg, .zwx, .fl, .sec, .ar, .kv] s (State.writeNow s p a v) := by
  unfold State.writeNow
  split
  · extract_lets -useContext _ x2
    refine Within.have_ (t := x2) ?_ (fun h2 => ?_)
    · subst x2
      refine Within.ite (fun _ => ?_) (fun _ => ?_)
      · refine Within.andThen (State.count_within ..) (by decide) ?_
        exact Within.refl
      · exact Within.refl
    refine Within.ite (fun _ => ?_) (fun _ => ?_)
    · exact h2
    · refine Within.ite (fun _ => ?_) (fun _ => ?_)
      · exact h2
      · refine Within.andThen (State.unlatch_within ..) (by decide) ?_
        refine Within.andThen (State.writeReg_within ..) (by decide) ?_
        exact h2
  · exact Within.refl

theorem State.writeWord_within (s : State) (p : Path) (a : Nat) (v : Nat) :
    Within [.outbox, .fresh, .clock, .now, .latches, .regs, .busy, .waits, .mem, .pwr, .flt, .mm, .sch, .brg, .zwx, .fl, .sec, .ar, .kv] s (State.writeWord s p a v) := by
  unfold State.writeWord
  extract_lets -useContext x1
  refine Within.have_ (t := x1) ?_ (fun h1 => ?_)
  · subst x1
    refine Within.andThen (State.finishReset_within ..) (by decide) ?_
    exact Within.refl
  refine Within.ite (fun _ => ?_) (fun _ => ?_)
  · refine Within.set_waits (by decide) ?_
    exact h1
  · refine Within.andThen (State.writeNow_within ..) (by decide) ?_
    exact h1

theorem State.pageReady_within (s : State) (b : Nat) :
    Within [.outbox, .fresh, .latches, .regs, .busy, .notReady, .waits, .mem, .pwr, .flt, .mm, .sch, .brg, .zwx, .fl, .sec, .ar, .kv] s (State.pageReady s b) := by
  unfold State.pageReady
  extract_lets -useContext 
  refine Within.foldl ?_ (fun _ _ => ?_)
  · refine Within.set_notReady_waits (by decide) ?_
    exact Within.refl
  · refine Within.andThen (State.writeNow_within ..) (by decide) ?_
    exact Within.refl

theorem State.writeAccess_within (s : State) (p : Path) (a : Nat) (wide : Bool) (v : Nat) :
    Within [.outbox, .fresh, .clock, .now, .latches, .regs, .busy, .waits, .mem, .pwr, .flt, .mm, .sch, .brg, .zwx, .fl, .sec, .ar, .kv] s (State.writeAccess s p a wide v) := by
  unfold State.writeAccess
  extract_lets -useContext x1
  refine Within.have_ (t := x1) ?_ (fun h1 => ?_)
  · subst x1
    refine Within.andThen (State.writeWord_within ..) (by decide) ?_
    exact Within.refl
  refine Within.ite (fun _ => ?_) (fun _ => ?_)
  · refine Within.andThen (State.writeWord_within ..) (by decide) ?_
    exact h1
  · exact h1

theorem State.readAccess_within (s : State) (a : Nat) (wide : Bool) :
    Within [.outbox, .fresh, .clock, .now, .latches, .regs, .busy, .mem, .pwr, .mm, .sch, .brg, .zwx, .fl, .sec, .ar] s (State.readAccess s a wide).2 := by
  unfold State.readAccess
  extract_lets -useContext x1 x2 x3
  refine Within.have_ (t := x1) ?_ (fun h1 => ?_)
  · subst x1
    refine Within.andThen (State.finishReset_within ..) (by decide) ?_
    exact Within.refl
  refine Within.have_ (t := x2.2) ?_ (fun h2 => ?_)
  · subst x2
    with_reducible refine Within.andThen (State.readWord_within ..) (by decide) ?_
    exact h1
  refine Within.have_ (t := x3.2) ?_ (fun h3 => ?_)
  · subst x3
    with_reducible refine Within.andThen (State.readWord_within ..) (by decide) ?_
    exact h2
  refine Within.ite_snd (fun _ => ?_) (fun _ => ?_)
  · exact h2
  · exact h3

theorem State.badWrite_within (s : State) (p : Path) (a : Nat) (wide : Bool) :
    Within [.outbox, .regs] s (State.badWrite s p a wide) := by
  unfold State.badWrite
  split
  · refine Within.ite (fun _ => ?_) (fun _ => ?_)
    · refine Within.andThen (State.count_within ..) (by decide) ?_
      exact Within.refl
    · exact Within.refl
  · refine Within.andThen (State.emit_within ..) (by decide) ?_
    exact Within.refl

theorem execRegisterWrite_within {p : Path} {addr : Nat} {wide : Bool} {data : Nat} {s : State} {t : State}
    (h : execRegisterWrite p addr wide data s = .next t) : Within [.outbox, .fresh, .clock, .now, .latches, .regs, .busy, .waits, .mem, .pwr, .flt, .mm, .sch, .brg, .zwx, .fl, .sec, .ar, .kv] s t := by
  unfold execRegisterWrite at h
  obtain rfl := Host.Outcome.next.inj h
  refine Within.ite (fun _ => ?_) (fun _ => ?_)
  · exact Within.refl
  · refine Within.ite (fun _ => ?_) (fun _ => ?_)
    · refine Within.andThen (State.writeAccess_within ..) (by decide) ?_
      exact Within.refl
    · refine Within.andThen (State.badWrite_within ..) (by decide) ?_
      exact Within.refl

theorem State.writeOne_within (s : State) (p : Path) (a : Nat) (data : Nat) :
    Within [.outbox, .fresh, .clock, .now, .latches, .regs, .busy, .waits, .mem, .pwr, .flt, .mm, .sch, .brg, .zwx, .fl, .sec, .ar, .kv] s (State.writeOne s p a data) := by
  unfold State.writeOne
  refine Within.ite (fun _ => ?_) (fun _ => ?_)
  · refine Within.andThen (State.writeWord_within ..) (by decide) ?_
    exact Within.refl
  · exact Within.refl

theorem execLocalReset_within {p : Path} {page : Nat} {s : State} {t : State}
    (h : execLocalReset p page s = .next t) : Within [.outbox, .fresh, .clock, .now, .latches, .regs, .busy, .waits, .mem, .pwr, .flt, .mm, .sch, .brg, .zwx, .fl, .sec, .ar, .kv] s t := by
  unfold execLocalReset at h
  obtain rfl := Host.Outcome.next.inj h
  refine Within.andThen (State.writeOne_within ..) (by decide) ?_
  exact Within.refl

theorem execLocalResetDone_within {page : Nat} {s : State} {t : State}
    (h : execLocalResetDone page s = .next t) : Within [.outbox, .fresh, .clock, .now, .latches, .regs, .busy, .mem, .pwr, .mm, .sch, .brg, .zwx, .fl, .sec, .ar] s t := by
  unfold execLocalResetDone at h
  obtain rfl := Host.Outcome.next.inj h
  refine Within.ite (fun _ => ?_) (fun _ => ?_)
  · refine Within.andThen (State.finishReset_within ..) (by decide) ?_
    exact Within.refl
  · exact Within.refl

theorem execBlkIrqSet_within {p : Path} {page : Nat} {data : Nat} {s : State} {t : State}
    (h : execBlkIrqSet p page data s = .next t) : Within [.outbox, .fresh, .clock, .now, .latches, .regs, .busy, .waits, .mem, .pwr, .flt, .mm, .sch, .brg, .zwx, .fl, .sec, .ar, .kv] s t := by
  unfold execBlkIrqSet at h
  obtain rfl := Host.Outcome.next.inj h
  refine Within.andThen (State.writeOne_within ..) (by decide) ?_
  exact Within.refl

theorem execDevtimeLoRead_within {p : Path} {s : State} {t : State}
    (h : execDevtimeLoRead p s = .next t) : Within [.outbox, .fresh, .clock, .now, .latches, .regs, .busy, .mem, .pwr, .mm, .sch, .brg, .zwx, .fl, .sec, .ar] s t := by
  unfold execDevtimeLoRead at h
  obtain rfl := Host.Outcome.next.inj h
  refine Within.ite (fun _ => ?_) (fun _ => ?_)
  · extract_lets -useContext x1
    refine Within.have_ (t := x1.2) ?_ (fun h1 => ?_)
    · subst x1
      with_reducible refine Within.andThen (State.readAccess_within ..) (by decide) ?_
      exact Within.refl
    refine Within.andThen (State.emit_within ..) (by decide) ?_
    exact h1
  · exact Within.refl

theorem execParCfgWrite_within {p : Path} {die : Nat} {data : Nat} {s : State} {t : State}
    (h : execParCfgWrite p die data s = .next t) : Within [.outbox, .fresh, .clock, .now, .latches, .regs, .busy, .waits, .mem, .pwr, .flt, .mm, .sch, .brg, .zwx, .fl, .sec, .ar, .kv] s t := by
  unfold execParCfgWrite at h
  obtain rfl := Host.Outcome.next.inj h
  refine Within.ite (fun _ => ?_) (fun _ => ?_)
  · refine Within.andThen (State.writeOne_within ..) (by decide) ?_
    exact Within.refl
  · exact Within.refl

theorem execSpillCfgWrite_within {p : Path} {data : Nat} {s : State} {t : State}
    (h : execSpillCfgWrite p data s = .next t) : Within [.outbox, .fresh, .clock, .now, .latches, .regs, .busy, .waits, .mem, .pwr, .flt, .mm, .sch, .brg, .zwx, .fl, .sec, .ar, .kv] s t := by
  unfold execSpillCfgWrite at h
  obtain rfl := Host.Outcome.next.inj h
  refine Within.andThen (State.writeOne_within ..) (by decide) ?_
  exact Within.refl

theorem execFuncCfgWrite_within {p : Path} {func : Nat} {data : Nat} {s : State} {t : State}
    (h : execFuncCfgWrite p func data s = .next t) : Within [.outbox, .fresh, .clock, .now, .latches, .regs, .busy, .waits, .mem, .pwr, .flt, .mm, .sch, .brg, .zwx, .fl, .sec, .ar, .kv] s t := by
  unfold execFuncCfgWrite at h
  obtain rfl := Host.Outcome.next.inj h
  refine Within.ite (fun _ => ?_) (fun _ => ?_)
  · refine Within.andThen (State.writeOne_within ..) (by decide) ?_
    exact Within.refl
  · exact Within.refl

theorem execFuncReset_within {p : Path} {func : Nat} {s : State} {t : State}
    (h : execFuncReset p func s = .next t) : Within [.outbox, .fresh, .clock, .now, .latches, .regs, .busy, .waits, .mem, .pwr, .flt, .mm, .sch, .brg, .zwx, .fl, .sec, .ar, .kv] s t := by
  unfold execFuncReset at h
  obtain rfl := Host.Outcome.next.inj h
  refine Within.ite (fun _ => ?_) (fun _ => ?_)
  · refine Within.andThen (State.writeOne_within ..) (by decide) ?_
    exact Within.refl
  · exact Within.refl

theorem execPortCfgWrite_within {p : Path} {port : Nat} {data : Nat} {s : State} {t : State}
    (h : execPortCfgWrite p port data s = .next t) : Within [.outbox, .fresh, .clock, .now, .latches, .regs, .busy, .waits, .mem, .pwr, .flt, .mm, .sch, .brg, .zwx, .fl, .sec, .ar, .kv] s t := by
  unfold execPortCfgWrite at h
  obtain rfl := Host.Outcome.next.inj h
  refine Within.ite (fun _ => ?_) (fun _ => ?_)
  · refine Within.andThen (State.writeOne_within ..) (by decide) ?_
    exact Within.refl
  · exact Within.refl

theorem execFence_within {p : Path} {u : FenceUnit} {s : State} {t : State}
    (h : execFence p u s = .next t) : Within [.outbox, .fresh, .clock, .now, .latches, .regs, .busy, .waits, .mem, .pwr, .flt, .mm, .sch, .brg, .zwx, .fl, .sec, .ar, .kv] s t := by
  unfold execFence at h
  obtain rfl := Host.Outcome.next.inj h
  refine Within.ite (fun _ => ?_) (fun _ => ?_)
  · refine Within.andThen (State.writeOne_within ..) (by decide) ?_
    exact Within.refl
  · exact Within.refl

theorem execReadmit_within {p : Path} {u : FenceUnit} {s : State} {t : State}
    (h : execReadmit p u s = .next t) : Within [.outbox, .fresh, .clock, .now, .latches, .regs, .busy, .waits, .mem, .pwr, .flt, .mm, .sch, .brg, .zwx, .fl, .sec, .ar, .kv] s t := by
  unfold execReadmit at h
  obtain rfl := Host.Outcome.next.inj h
  refine Within.ite (fun _ => ?_) (fun _ => ?_)
  · refine Within.andThen (State.writeOne_within ..) (by decide) ?_
    exact Within.refl
  · exact Within.refl

theorem execClearList_within {p : Path} {s : State} {t : State}
    (h : execClearList p s = .next t) : Within [.outbox, .fresh, .clock, .now, .latches, .regs, .busy, .waits, .mem, .pwr, .flt, .mm, .sch, .brg, .zwx, .fl, .sec, .ar, .kv] s t := by
  unfold execClearList at h
  obtain rfl := Host.Outcome.next.inj h
  refine Within.andThen (State.writeOne_within ..) (by decide) ?_
  exact Within.refl

theorem execSvnCommit_within {p : Path} {s : State} {t : State}
    (h : execSvnCommit p s = .next t) : Within [.outbox, .fresh, .clock, .now, .latches, .regs, .busy, .waits, .mem, .pwr, .flt, .mm, .sch, .brg, .zwx, .fl, .sec, .ar, .kv] s t := by
  unfold execSvnCommit at h
  obtain rfl := Host.Outcome.next.inj h
  refine Within.andThen (State.writeOne_within ..) (by decide) ?_
  exact Within.refl

theorem execEraseAll_within {p : Path} {s : State} {t : State}
    (h : execEraseAll p s = .next t) : Within [.outbox, .fresh, .clock, .now, .latches, .regs, .busy, .waits, .mem, .pwr, .flt, .mm, .sch, .brg, .zwx, .fl, .sec, .ar, .kv] s t := by
  unfold execEraseAll at h
  obtain rfl := Host.Outcome.next.inj h
  refine Within.andThen (State.writeOne_within ..) (by decide) ?_
  exact Within.refl

theorem execUnlockGo_within {p : Path} {s : State} {t : State}
    (h : execUnlockGo p s = .next t) : Within [.outbox, .fresh, .clock, .now, .latches, .regs, .busy, .waits, .mem, .pwr, .flt, .mm, .sch, .brg, .zwx, .fl, .sec, .ar, .kv] s t := by
  unfold execUnlockGo at h
  obtain rfl := Host.Outcome.next.inj h
  refine Within.andThen (State.writeOne_within ..) (by decide) ?_
  exact Within.refl

theorem execPathClear_within {p : Path} {hi : Bool} {data : Nat} {s : State} {t : State}
    (h : execPathClear p hi data s = .next t) : Within [.outbox, .fresh, .clock, .now, .latches, .regs, .busy, .waits, .mem, .pwr, .flt, .mm, .sch, .brg, .zwx, .fl, .sec, .ar, .kv] s t := by
  unfold execPathClear at h
  obtain rfl := Host.Outcome.next.inj h
  refine Within.andThen (State.writeOne_within ..) (by decide) ?_
  exact Within.refl

end Sys2Proof.Machine
end

