-- ==== Sys2Proof/Laws/Bridge.lean ====
section
/-! SUPPORT. For each operation of Machine/Bridge.lean: the fields it may change, that it keeps the invariant, and that the watch clock does not go back. -/

namespace Sys2Proof.Machine

set_option linter.all false
set_option Elab.async false

theorem execSqTailWrite_within {ring : Nat} {tail : Nat} {s : State} {t : State}
    (h : execSqTailWrite ring tail s = .next t) : Within [.outbox, .fresh, .clock, .now, .latches, .regs, .busy, .waits, .mem, .pwr, .flt, .mm, .sch, .brg, .zwx, .fl, .sec, .ar, .kv] s t := by
  unfold execSqTailWrite at h
  obtain rfl := Host.Outcome.next.inj h
  refine Within.ite (fun _ => ?_) (fun _ => ?_)
  · refine Within.andThen (State.writeOne_within ..) (by decide) ?_
    exact Within.refl
  · exact Within.refl

theorem State.takeEntry_within (s : State) (ring : Nat) (h : CmdHdr) (e : SqEntry) (body : Body) :
    Within [.outbox, .regs, .brg] s (State.takeEntry s ring h e body) := by
  unfold State.takeEntry
  extract_lets -useContext 
  split
  · extract_lets -useContext x4
    refine Within.have_ (t := x4) ?_ (fun h4 => ?_)
    · subst x4
      refine Within.set_brg (by decide) ?_
      exact Within.refl
    refine Within.andThen (State.bridgeCpl_within ..) (by decide) ?_
    refine Within.andThen (State.bridgeCpl_within ..) (by decide) ?_
    exact h4
  · refine Within.set_brg (by decide) ?_
    exact Within.refl

theorem execSqFetch_within {ring : Nat} {e : SqEntry} {b : Body} {s : State} {t : State}
    (h : execSqFetch ring e b s = .next t) : Within [.outbox, .regs, .brg] s t := by
  unfold execSqFetch at h
  obtain rfl := Host.Outcome.next.inj h
  refine Within.ite (fun _ => ?_) (fun _ => ?_)
  · exact Within.refl
  · extract_lets -useContext _ _ x3
    refine Within.have_ (t := x3) ?_ (fun h3 => ?_)
    · subst x3
      refine Within.set_brg (by decide) ?_
      exact Within.refl
    refine Within.ite (fun _ => ?_) (fun _ => ?_)
    · refine Within.andThen (State.bridgeCpl_within ..) (by decide) ?_
      exact h3
    · refine Within.ite (fun _ => ?_) (fun _ => ?_)
      · refine Within.andThen (State.bridgeCpl_within ..) (by decide) ?_
        exact h3
      · refine Within.andThen (State.ringRelease_within ..) (by decide) ?_
        refine Within.andThen (State.takeEntry_within ..) (by decide) ?_
        exact h3

theorem State.updRing_within (s : State) (id : Nat) (f : RingCmd → RingCmd) :
    Within [.brg] s (State.updRing s id f) := by
  unfold State.updRing
  refine Within.set_brg (by decide) ?_
  exact Within.refl

theorem execXferReady_within {srcOrd : Nat} {func : Nat} {tag : Nat} {handle : Nat} {grant : Nat} {s : State} {t : State}
    (h : execXferReady srcOrd func tag handle grant s = .next t) : Within [.outbox, .brg] s t := by
  unfold execXferReady at h
  obtain rfl := Host.Outcome.next.inj h
  split
  · exact Within.refl
  · extract_lets -useContext x1
    refine Within.have_ (t := x1) ?_ (fun h1 => ?_)
    · subst x1
      refine Within.andThen (State.updRing_within ..) (by decide) ?_
      exact Within.refl
    refine Within.andThen (State.ringRelease_within ..) (by decide) ?_
    refine Within.ite (fun _ => ?_) (fun _ => ?_)
    · refine Within.andThen (State.emits_within ..) (by decide) ?_
      exact h1
    · exact h1

theorem execBusyRetry_within {srcOrd : Nat} {func : Nat} {tag : Nat} {_cause : Nat} {hint : Nat} {s : State} {t : State}
    (h : execBusyRetry srcOrd func tag _cause hint s = .next t) : Within [.brg] s t := by
  unfold execBusyRetry at h
  obtain rfl := Host.Outcome.next.inj h
  split
  · exact Within.refl
  · refine Within.andThen (State.updRing_within ..) (by decide) ?_
    exact Within.refl

theorem execBusyResend_within {ring : Nat} {ord : Nat} {tag : Nat} {s : State} {t : State}
    (h : execBusyResend ring ord tag s = .next t) : Within [.outbox, .clock, .now, .regs, .brg] s t := by
  unfold execBusyResend at h
  obtain rfl := Host.Outcome.next.inj h
  split
  · exact Within.refl
  · refine Within.ite (fun _ => ?_) (fun _ => ?_)
    · exact Within.refl
    · refine Within.andThen (State.ringRelease_within ..) (by decide) ?_
      refine Within.andThen (State.count_within ..) (by decide) ?_
      refine Within.andThen (State.sendCmd_within ..) (by decide) ?_
      refine Within.andThen (State.elapseTo_within ..) (by decide) ?_
      exact Within.refl

theorem execCpl_within {c : CplPkt} {s : State} {t : State}
    (h : execCpl c s = .next t) : Within [.outbox, .regs, .brg] s t := by
  unfold execCpl at h
  obtain rfl := Host.Outcome.next.inj h
  refine Within.ite (fun _ => ?_) (fun _ => ?_)
  · exact Within.refl
  · refine Within.ite (fun _ => ?_) (fun _ => ?_)
    · refine Within.andThen (State.count_within ..) (by decide) ?_
      exact Within.refl
    · refine Within.ite (fun _ => ?_) (fun _ => ?_)
      · refine Within.ite (fun _ => ?_) (fun _ => ?_)
        · refine Within.andThen (State.putCq_within ..) (by decide) ?_
          exact Within.refl
        · exact Within.refl
      · split
        · refine Within.andThen (State.count_within ..) (by decide) ?_
          exact Within.refl
        · extract_lets -useContext _ x2 _ x4
          refine Within.have_ (t := x2) ?_ (fun h2 => ?_)
          · subst x2
            refine Within.ite (fun _ => ?_) (fun _ => ?_)
            · exact Within.refl
            · refine Within.andThen (State.emit_within ..) (by decide) ?_
              exact Within.refl
          refine Within.have_ (t := x4) ?_ (fun h4 => ?_)
          · subst x4
            refine Within.set_brg (by decide) ?_
            exact h2
          refine Within.ite (fun _ => ?_) (fun _ => ?_)
          · exact h2
          · refine Within.andThen (State.ringRelease_within ..) (by decide) ?_
            refine Within.andThen (State.putCq_within ..) (by decide) ?_
            exact h4

theorem execEvent_within {e : EventPkt} {s : State} {t : State}
    (h : execEvent e s = .next t) : Within [.outbox, .regs, .brg] s t := by
  unfold execEvent at h
  obtain rfl := Host.Outcome.next.inj h
  refine Within.ite (fun _ => ?_) (fun _ => ?_)
  · exact Within.refl
  · refine Within.ite (fun _ => ?_) (fun _ => ?_)
    · refine Within.andThen (State.count_within ..) (by decide) ?_
      exact Within.refl
    · extract_lets -useContext _ _ _ _ x5
      refine Within.have_ (t := x5) ?_ (fun h5 => ?_)
      · subst x5
        refine Within.andThen (State.emits_within ..) (by decide) ?_
        exact Within.refl
      refine Within.ite (fun _ => ?_) (fun _ => ?_)
      · refine Within.andThen (State.count_within ..) (by decide) ?_
        refine Within.set_brg (by decide) ?_
        exact Within.refl
      · refine Within.set_brg (by decide) ?_
        exact h5

theorem execCqHeadWrite_within {ring : Nat} {head : Nat} {s : State} {t : State}
    (h : execCqHeadWrite ring head s = .next t) : Within [.outbox, .fresh, .clock, .now, .latches, .regs, .busy, .waits, .mem, .pwr, .flt, .mm, .sch, .brg, .zwx, .fl, .sec, .ar, .kv] s t := by
  unfold execCqHeadWrite at h
  obtain rfl := Host.Outcome.next.inj h
  refine Within.ite (fun _ => ?_) (fun _ => ?_)
  · refine Within.andThen (State.writeOne_within ..) (by decide) ?_
    exact Within.refl
  · exact Within.refl

theorem execAnswerTimeout_within {ord : Nat} {s : State} {t : State}
    (h : execAnswerTimeout ord s = .next t) : Within [.outbox, .clock, .now, .regs, .brg, .mgmt] s t := by
  unfold execAnswerTimeout at h
  obtain rfl := Host.Outcome.next.inj h
  split
  · exact Within.refl
  · refine Within.andThen (State.pathFail_within ..) (by decide) ?_
    refine Within.andThen (State.elapseTo_within ..) (by decide) ?_
    exact Within.refl

theorem State.barAnswer_within (s : State) (off : Nat) (wide : Bool) (v : Nat) (err : Bool) :
    Within [.outbox] s (State.barAnswer s off wide v err) := by
  unfold State.barAnswer
  refine Within.andThen (State.emit_within ..) (by decide) ?_
  exact Within.refl

theorem execBar2Access_within {off : Nat} {bytes : Nat} {write : Bool} {data : Nat} {s : State} {t : State}
    (h : execBar2Access off bytes write data s = .next t) : Within [.outbox, .fresh, .clock, .now, .latches, .regs, .busy, .waits, .mem, .pwr, .flt, .mm, .sch, .brg, .zwx, .fl, .sec, .ar, .kv] s t := by
  unfold execBar2Access at h
  obtain rfl := Host.Outcome.next.inj h
  refine Within.ite (fun _ => ?_) (fun _ => ?_)
  · exact Within.refl
  · extract_lets -useContext _ _ _ _ x5 x6
    refine Within.have_ (t := x5.2) ?_ (fun h5 => ?_)
    · subst x5
      with_reducible refine Within.andThen (State.readAccess_within ..) (by decide) ?_
      exact Within.refl
    refine Within.have_ (t := x6) ?_ (fun h6 => ?_)
    · subst x6
      refine Within.andThen (State.count_within ..) (by decide) ?_
      exact Within.refl
    refine Within.ite (fun _ => ?_) (fun _ => ?_)
    · refine Within.ite (fun _ => ?_) (fun _ => ?_)
      · refine Within.ite (fun _ => ?_) (fun _ => ?_)
        · refine Within.andThen (State.writeAccess_within ..) (by decide) ?_
          exact Within.refl
        · refine Within.andThen (State.barAnswer_within ..) (by decide) ?_
          exact h5
      · refine Within.ite (fun _ => ?_) (fun _ => ?_)
        · exact h6
        · refine Within.andThen (State.barAnswer_within ..) (by decide) ?_
          exact h6
    · refine Within.ite (fun _ => ?_) (fun _ => ?_)
      · refine Within.ite (fun _ => ?_) (fun _ => ?_)
        · exact Within.refl
        · refine Within.andThen (State.barAnswer_within ..) (by decide) ?_
          exact Within.refl
      · refine Within.andThen (State.emit_within ..) (by decide) ?_
        refine Within.set_brg (by decide) ?_
        exact Within.refl

theorem State.regAnswer_within (s : State) (r : RegPkt) (v : Nat) (err : Bool) :
    Within [.outbox] s (State.regAnswer s r v err) := by
  unfold State.regAnswer
  refine Within.andThen (State.emit_within ..) (by decide) ?_
  exact Within.refl

theorem execRegRd_within {r : RegPkt} {s : State} {t : State}
    (h : execRegRd r s = .next t) : Within [.outbox, .fresh, .clock, .now, .latches, .regs, .busy, .mem, .pwr, .mm, .sch, .brg, .zwx, .fl, .sec, .ar] s t := by
  unfold execRegRd at h
  obtain rfl := Host.Outcome.next.inj h
  refine Within.ite (fun _ => ?_) (fun _ => ?_)
  · exact Within.refl
  · refine Within.ite (fun _ => ?_) (fun _ => ?_)
    · refine Within.andThen (State.regAnswer_within ..) (by decide) ?_
      exact Within.refl
    · extract_lets -useContext x1
      refine Within.have_ (t := x1.2) ?_ (fun h1 => ?_)
      · subst x1
        with_reducible refine Within.andThen (State.readAccess_within ..) (by decide) ?_
        exact Within.refl
      refine Within.andThen (State.regAnswer_within ..) (by decide) ?_
      exact h1

theorem execRegWr_within {r : RegPkt} {s : State} {t : State}
    (h : execRegWr r s = .next t) : Within [.outbox, .fresh, .clock, .now, .latches, .regs, .busy, .waits, .mem, .pwr, .flt, .mm, .sch, .brg, .zwx, .fl, .sec, .ar, .kv] s t := by
  unfold execRegWr at h
  obtain rfl := Host.Outcome.next.inj h
  refine Within.ite (fun _ => ?_) (fun _ => ?_)
  · exact Within.refl
  · refine Within.ite (fun _ => ?_) (fun _ => ?_)
    · refine Within.andThen (State.regAnswer_within ..) (by decide) ?_
      exact Within.refl
    · refine Within.andThen (State.regAnswer_within ..) (by decide) ?_
      refine Within.andThen (State.writeAccess_within ..) (by decide) ?_
      exact Within.refl

theorem State.endWin_within (s : State) (w : WinAcc) (v : Nat) (bad : Bool) :
    Within [.outbox, .regs, .brg] s (State.endWin s w v bad) := by
  unfold State.endWin
  extract_lets -useContext _ x2 x3
  refine Within.have_ (t := x2) ?_ (fun h2 => ?_)
  · subst x2
    refine Within.set_brg (by decide) ?_
    exact Within.refl
  refine Within.have_ (t := x3) ?_ (fun h3 => ?_)
  · subst x3
    refine Within.ite (fun _ => ?_) (fun _ => ?_)
    · refine Within.andThen (State.count_within ..) (by decide) ?_
      exact h2
    · exact h2
  refine Within.ite (fun _ => ?_) (fun _ => ?_)
  · exact h3
  · refine Within.andThen (State.barAnswer_within ..) (by decide) ?_
    exact h3

theorem execRegRsp_within {r : RegPkt} {s : State} {t : State}
    (h : execRegRsp r s = .next t) : Within [.outbox, .regs, .brg] s t := by
  unfold execRegRsp at h
  obtain rfl := Host.Outcome.next.inj h
  split
  · exact Within.refl
  · refine Within.andThen (State.endWin_within ..) (by decide) ?_
    exact Within.refl

theorem execRegwinTimeout_within {rid : Nat} {s : State} {t : State}
    (h : execRegwinTimeout rid s = .next t) : Within [.outbox, .clock, .now, .regs, .brg] s t := by
  unfold execRegwinTimeout at h
  obtain rfl := Host.Outcome.next.inj h
  split
  · exact Within.refl
  · refine Within.andThen (State.endWin_within ..) (by decide) ?_
    refine Within.andThen (State.elapseTo_within ..) (by decide) ?_
    exact Within.refl

theorem execReservedPtypeDrop_within {ptype : Nat} {s : State} {t : State}
    (h : execReservedPtypeDrop ptype s = .next t) : Within [.regs] s t := by
  unfold execReservedPtypeDrop at h
  obtain rfl := Host.Outcome.next.inj h
  refine Within.ite (fun _ => ?_) (fun _ => ?_)
  · refine Within.andThen (State.count_within ..) (by decide) ?_
    exact Within.refl
  · exact Within.refl

theorem execBusyHintExpire_within {func : Nat} {queue : Option Nat} {s : State} {t : State}
    (h : execBusyHintExpire func queue s = .next t) : Within [.clock, .now] s t := by
  unfold execBusyHintExpire at h
  obtain rfl := Host.Outcome.next.inj h
  split
  · exact Within.refl
  · refine Within.andThen (State.elapseTo_within ..) (by decide) ?_
    exact Within.refl

end Sys2Proof.Machine
end

