-- ==== Sys2Proof/Laws/Mgmt.lean ====
section
/-! SUPPORT. For each operation of Machine/Mgmt.lean: the fields it may change, that it keeps the invariant, and that the watch clock does not go back. -/

namespace Sys2Proof.Machine

set_option linter.all false
set_option Elab.async false

theorem State.taken_within {ps : List Field} {s : State} {t : Transport} {f : State → State}
    (hq : Field.sub [.regs] ps = true) (hf : ∀ u, Within ps u (f u)) : Within ps s (s.taken t f) := by
  unfold State.taken
  refine Within.ite (fun _ => ?_) (fun _ => Within.refl)
  exact Within.trans (Within.mono (State.count_within ..) hq) (hf _)

theorem State.regAns_within (s : State) (t0 : Transport) (err : Bool) (data : Nat) :
    Within [.outbox] s (State.regAns s t0 err data) := by
  unfold State.regAns
  refine Within.andThen (State.emit_within ..) (by decide) ?_
  exact Within.refl

theorem execRegisterMessageRead_within {t0 : Transport} {wide : Bool} {addr : Nat} {s : State} {t : State}
    (h : execRegisterMessageRead t0 wide addr s = .next t) : Within [.outbox, .fresh, .clock, .now, .latches, .regs, .busy, .mem, .pwr, .mm, .sch, .brg, .zwx, .fl, .sec, .ar] s t := by
  unfold execRegisterMessageRead at h
  obtain rfl := Host.Outcome.next.inj h
  refine Within.trans ?_ (State.taken_within (by decide) (fun _ => ?_) ..)
  · exact Within.refl
  · refine Within.ite (fun _ => ?_) (fun _ => ?_)
    · extract_lets -useContext x1
      refine Within.have_ (t := x1.2) ?_ (fun h1 => ?_)
      · subst x1
        with_reducible refine Within.andThen (State.readAccess_within ..) (by decide) ?_
        exact Within.refl
      refine Within.andThen (State.regAns_within ..) (by decide) ?_
      exact h1
    · refine Within.andThen (State.regAns_within ..) (by decide) ?_
      exact Within.refl

theorem execRegisterMessageWrite_within {t0 : Transport} {wide : Bool} {addr : Nat} {data : Nat} {s : State} {t : State}
    (h : execRegisterMessageWrite t0 wide addr data s = .next t) : Within [.outbox, .fresh, .clock, .now, .latches, .regs, .busy, .waits, .mem, .pwr, .flt, .mm, .sch, .brg, .zwx, .fl, .sec, .ar, .kv] s t := by
  unfold execRegisterMessageWrite at h
  obtain rfl := Host.Outcome.next.inj h
  refine Within.trans ?_ (State.taken_within (by decide) (fun _ => ?_) ..)
  · exact Within.refl
  · refine Within.ite (fun _ => ?_) (fun _ => ?_)
    · refine Within.andThen (State.regAns_within ..) (by decide) ?_
      refine Within.andThen (State.writeAccess_within ..) (by decide) ?_
      exact Within.refl
    · refine Within.andThen (State.regAns_within ..) (by decide) ?_
      exact Within.refl

theorem execMctpControl_within {t0 : Transport} {eid : Nat} {s : State} {t : State}
    (h : execMctpControl t0 eid s = .next t) : Within [.outbox, .regs, .mgmt] s t := by
  unfold execMctpControl at h
  obtain rfl := Host.Outcome.next.inj h
  refine Within.trans ?_ (State.served_within (by decide) (fun _ => ?_) ..)
  · exact Within.refl
  · refine Within.ite (fun _ => ?_) (fun _ => ?_)
    · refine Within.andThen (State.emit_within ..) (by decide) ?_
      exact Within.refl
    · refine Within.andThen (State.emit_within ..) (by decide) ?_
      refine Within.set_mgmt (by decide) ?_
      exact Within.refl

theorem execMctpDiscard_within {t0 : Transport} {ty : Nat} {len : Nat} {s : State} {t : State}
    (h : execMctpDiscard t0 ty len s = .next t) : Within [.regs] s t := by
  unfold execMctpDiscard at h
  obtain rfl := Host.Outcome.next.inj h
  refine Within.ite (fun _ => ?_) (fun _ => ?_)
  · exact Within.refl
  · refine Within.trans ?_ (State.taken_within (by decide) (fun _ => ?_) ..)
    · exact Within.refl
    · refine Within.andThen (State.count_within ..) (by decide) ?_
      exact Within.refl

theorem State.publishSensor_within (s : State) (id : Nat) (v : Nat) :
    Within [.outbox, .regs, .mgmt] s (State.publishSensor s id v) := by
  unfold State.publishSensor
  extract_lets -useContext _ _ _ x4
  refine Within.have_ (t := x4) ?_ (fun h4 => ?_)
  · subst x4
    refine Within.set_mgmt (by decide) ?_
    exact Within.refl
  refine Within.ite (fun _ => ?_) (fun _ => ?_)
  · refine Within.andThen (State.mgmtEvent_within ..) (by decide) ?_
    exact h4
  · exact h4

theorem State.publishRates_within (s : State) (due : Nat) :
    Within [.outbox, .regs, .mgmt] s (State.publishRates s due) := by
  unfold State.publishRates
  extract_lets -useContext _ x2 x3
  refine Within.have_fn2 (f := x2) (fun _ _ => ?_) (fun h2 => ?_)
  · subst x2
    beta_reduce
    refine Within.andThen (State.publishSensor_within ..) (by decide) ?_
    exact Within.refl
  refine Within.have_ (t := x3) ?_ (fun h3 => ?_)
  · subst x3
    refine Within.trans ?_ (h2 ..)
    refine Within.trans ?_ (h2 ..)
    exact Within.refl
  refine Within.ite (fun _ => ?_) (fun _ => ?_)
  · exact Within.refl
  · refine Within.set_mgmt (by decide) ?_
    exact h3

theorem State.refreshSensors_within (s : State) (due : Nat) :
    Within [.outbox, .regs, .mgmt] s (State.refreshSensors s due) := by
  unfold State.refreshSensors
  refine Within.andThen (State.publishRates_within ..) (by decide) ?_
  refine Within.foldl ?_ (fun _ _ => ?_)
  · exact Within.refl
  · refine Within.andThen (State.publishSensor_within ..) (by decide) ?_
    exact Within.refl

theorem State.pruneRates_within (s : State) (due : Nat) :
    Within [.mgmt] s (State.pruneRates s due) := by
  unfold State.pruneRates
  refine Within.set_mgmt (by decide) ?_
  exact Within.refl

theorem State.publishStack_within (due : Nat) (s : State) (k : Nat) :
    Within [.regs, .mm] s (State.publishStack due s k) := by
  unfold State.publishStack
  extract_lets -useContext _ _ _ x4 x5
  refine Within.have_ (t := x4) ?_ (fun h4 => ?_)
  · subst x4
    refine Within.andThen (State.wr_within ..) (by decide) ?_
    refine Within.andThen (State.wr_within ..) (by decide) ?_
    refine Within.andThen (State.wr_within ..) (by decide) ?_
    refine Within.andThen (State.wr_within ..) (by decide) ?_
    exact Within.refl
  refine Within.have_ (t := x5) ?_ (fun h5 => ?_)
  · subst x5
    refine Within.andThen (State.wr_within ..) (by decide) ?_
    refine Within.andThen (State.wr_within ..) (by decide) ?_
    exact h4
  refine Within.set_mm (by decide) ?_
  exact h5

theorem State.publishLanes_within (s : State) (n : Nat) :
    Within [.fresh, .zwx] s (State.publishLanes s n) := by
  unfold State.publishLanes
  extract_lets -useContext 
  refine Within.andThen (State.updPort_within ..) (by decide) ?_
  refine Within.set_fresh (by decide) ?_
  exact Within.refl

theorem State.publishDies_within (s : State) :
    Within [.fresh, .mgmt] s (State.publishDies s) := by
  unfold State.publishDies
  extract_lets -useContext 
  refine Within.set_fresh_mgmt (by decide) ?_
  exact Within.refl

theorem State.copyLists_within (s : State) :
    Within [.flt, .mm] s (State.copyLists s) := by
  unfold State.copyLists
  extract_lets -useContext 
  refine Within.set_flt_mm (by decide) ?_
  exact Within.refl

theorem State.reportSlow_within (s : State) :
    Within [.outbox, .regs, .sch, .mgmt] s (State.reportSlow s) := by
  unfold State.reportSlow
  extract_lets -useContext _ x2
  refine Within.have_ (t := x2) ?_ (fun h2 => ?_)
  · subst x2
    refine Within.foldl ?_ (fun _ _ => ?_)
    · exact Within.refl
    · refine Within.andThen (State.mgmtEvent_within ..) (by decide) ?_
      exact Within.refl
  refine Within.set_sch (by decide) ?_
  exact h2

theorem State.resizeCache_within (s : State) :
    Within [.fresh, .fl] s (State.resizeCache s) := by
  unfold State.resizeCache
  refine Within.ite (fun _ => ?_) (fun _ => ?_)
  · refine Within.andThen (State.takeCache_within ..) (by decide) ?_
    refine Within.set_fl (by decide) ?_
    exact Within.refl
  · exact Within.refl

theorem execMgmtPeriod_within {s : State} {t : State}
    (h : execMgmtPeriod s = .next t) : Within [.outbox, .fresh, .clock, .now, .regs, .flt, .mm, .sch, .zwx, .fl, .mgmt] s t := by
  unfold execMgmtPeriod at h
  obtain rfl := Host.Outcome.next.inj h
  refine Within.ite (fun _ => ?_) (fun _ => ?_)
  · exact Within.refl
  · extract_lets -useContext _ x2 _ x4 x5 x6
    refine Within.have_ (t := x2) ?_ (fun h2 => ?_)
    · subst x2
      refine Within.andThen (State.elapseTo_within ..) (by decide) ?_
      exact Within.refl
    refine Within.have_ (t := x4) ?_ (fun h4 => ?_)
    · subst x4
      refine Within.foldl ?_ (fun _ _ => ?_)
      · refine Within.set_mgmt (by decide) ?_
        exact h2
      · refine Within.andThen (State.publishStack_within ..) (by decide) ?_
        exact Within.refl
    refine Within.have_ (t := x5) ?_ (fun h5 => ?_)
    · subst x5
      refine Within.andThen (State.publishDies_within ..) (by decide) ?_
      refine Within.foldl ?_ (fun _ _ => ?_)
      · exact h4
      · refine Within.andThen (State.publishLanes_within ..) (by decide) ?_
        exact Within.refl
    refine Within.have_ (t := x6) ?_ (fun h6 => ?_)
    · subst x6
      refine Within.andThen (State.resizeCache_within ..) (by decide) ?_
      exact h5
    refine Within.andThen (State.pruneRates_within ..) (by decide) ?_
    refine Within.ite (fun _ => ?_) (fun _ => ?_)
    · refine Within.andThen (State.reportSlow_within ..) (by decide) ?_
      refine Within.andThen (State.refreshSensors_within ..) (by decide) ?_
      refine Within.andThen (State.copyLists_within ..) (by decide) ?_
      exact h6
    · exact h6

theorem State.pldmAns_within (s : State) (t0 : Transport) (code : Nat) (b : List Nat) :
    Within [.outbox] s (State.pldmAns s t0 code b) := by
  unfold State.pldmAns
  refine Within.andThen (State.emit_within ..) (by decide) ?_
  exact Within.refl

theorem State.pldmNo_within (s : State) (t0 : Transport) :
    Within [.outbox] s (State.pldmNo s t0) := by
  unfold State.pldmNo
  refine Within.andThen (State.pldmAns_within ..) (by decide) ?_
  exact Within.refl

theorem execPldmBaseRequest_within {t0 : Transport} {cmd : Nat} {s : State} {t : State}
    (h : execPldmBaseRequest t0 cmd s = .next t) : Within [.outbox, .regs] s t := by
  unfold execPldmBaseRequest at h
  obtain rfl := Host.Outcome.next.inj h
  refine Within.trans ?_ (State.served_within (by decide) (fun _ => ?_) ..)
  · exact Within.refl
  · refine Within.ite (fun _ => ?_) (fun _ => ?_)
    · refine Within.andThen (State.pldmAns_within ..) (by decide) ?_
      exact Within.refl
    · refine Within.andThen (State.pldmNo_within ..) (by decide) ?_
      exact Within.refl

theorem execPldmSensorRead_within {t0 : Transport} {id : Nat} {s : State} {t : State}
    (h : execPldmSensorRead t0 id s = .next t) : Within [.outbox, .regs] s t := by
  unfold execPldmSensorRead at h
  obtain rfl := Host.Outcome.next.inj h
  refine Within.trans ?_ (State.served_within (by decide) (fun _ => ?_) ..)
  · exact Within.refl
  · refine Within.ite (fun _ => ?_) (fun _ => ?_)
    · refine Within.andThen (State.pldmAns_within ..) (by decide) ?_
      exact Within.refl
    · refine Within.andThen (State.pldmAns_within ..) (by decide) ?_
      exact Within.refl

theorem execSetSensorThresholds_within {t0 : Transport} {id : Nat} {warn : Nat} {crit : Nat} {s : State} {t : State}
    (h : execSetSensorThresholds t0 id warn crit s = .next t) : Within [.outbox, .regs, .mgmt] s t := by
  unfold execSetSensorThresholds at h
  obtain rfl := Host.Outcome.next.inj h
  refine Within.trans ?_ (State.served_within (by decide) (fun _ => ?_) ..)
  · exact Within.refl
  · refine Within.ite (fun _ => ?_) (fun _ => ?_)
    · refine Within.andThen (State.pldmAns_within ..) (by decide) ?_
      refine Within.set_mgmt (by decide) ?_
      exact Within.refl
    · refine Within.andThen (State.pldmAns_within ..) (by decide) ?_
      exact Within.refl

theorem execSetEventReceiver_within {t0 : Transport} {eid : Nat} {s : State} {t : State}
    (h : execSetEventReceiver t0 eid s = .next t) : Within [.outbox, .regs, .mgmt] s t := by
  unfold execSetEventReceiver at h
  obtain rfl := Host.Outcome.next.inj h
  refine Within.trans ?_ (State.served_within (by decide) (fun _ => ?_) ..)
  · exact Within.refl
  · extract_lets -useContext 
    refine Within.andThen (State.pldmAns_within ..) (by decide) ?_
    refine Within.set_mgmt (by decide) ?_
    exact Within.refl

theorem execPollForPlatformEventMessage_within {t0 : Transport} {s : State} {t : State}
    (h : execPollForPlatformEventMessage t0 s = .next t) : Within [.outbox, .regs, .mgmt] s t := by
  unfold execPollForPlatformEventMessage at h
  obtain rfl := Host.Outcome.next.inj h
  refine Within.trans ?_ (State.served_within (by decide) (fun _ => ?_) ..)
  · exact Within.refl
  · split
    · refine Within.andThen (State.pldmAns_within ..) (by decide) ?_
      exact Within.refl
    · refine Within.andThen (State.emit_within ..) (by decide) ?_
      refine Within.set_mgmt (by decide) ?_
      exact Within.refl

theorem execEffecterWrite_within {t0 : Transport} {id : Nat} {value : Nat} {s : State} {t : State}
    (h : execEffecterWrite t0 id value s = .next t) : Within [.outbox, .fresh, .clock, .now, .latches, .regs, .busy, .waits, .mem, .pwr, .flt, .mm, .sch, .brg, .zwx, .fl, .sec, .ar, .kv] s t := by
  unfold execEffecterWrite at h
  obtain rfl := Host.Outcome.next.inj h
  refine Within.trans ?_ (State.served_within (by decide) (fun _ => ?_) ..)
  · exact Within.refl
  · refine Within.ite (fun _ => ?_) (fun _ => ?_)
    · refine Within.andThen (State.pldmAns_within ..) (by decide) ?_
      exact Within.refl
    · split
      · refine Within.andThen (State.pldmAns_within ..) (by decide) ?_
        refine Within.andThen (State.writeWord_within ..) (by decide) ?_
        exact Within.refl
      · refine Within.andThen (State.pldmAns_within ..) (by decide) ?_
        exact Within.refl

theorem execPldmUnsupported_within {t0 : Transport} {_ty : Nat} {_cmd : Nat} {s : State} {t : State}
    (h : execPldmUnsupported t0 _ty _cmd s = .next t) : Within [.outbox, .regs] s t := by
  unfold execPldmUnsupported at h
  obtain rfl := Host.Outcome.next.inj h
  refine Within.trans ?_ (State.served_within (by decide) (fun _ => ?_) ..)
  · exact Within.refl
  · refine Within.andThen (State.pldmNo_within ..) (by decide) ?_
    exact Within.refl

theorem State.updServed_within {ps : List Field} {s : State} {t : Transport} {f : State → State}
    (hq : Field.sub [.regs] ps = true) (hf : ∀ u, Within ps u (f u)) : Within ps s (s.updServed t f) := by
  unfold State.updServed
  refine Within.ite (fun _ => Within.ite (fun _ => ?_) (fun _ => ?_)) (fun _ => State.served_within hq hf)
  · exact State.taken_within hq hf
  · exact State.taken_within hq (fun _ => Within.refl)

theorem State.putFw_within (s : State) (b : Bool) (img : List Byte) :
    Within [.sec] s (State.putFw s b img) := by
  unfold State.putFw
  refine Within.set_sec (by decide) ?_
  exact Within.refl

theorem State.askChunk_within (s : State) (u : UpdateSt) :
    Within [.outbox] s (State.askChunk s u) := by
  unfold State.askChunk
  refine Within.ite (fun _ => ?_) (fun _ => ?_)
  · refine Within.andThen (State.emit_within ..) (by decide) ?_
    exact Within.refl
  · exact Within.refl

theorem State.cancelUpd_within (s : State) (u : UpdateSt) :
    Within [.sec, .mgmt] s (State.cancelUpd s u) := by
  unfold State.cancelUpd
  extract_lets -useContext x1 _ x3
  refine Within.have_ (t := x1) ?_ (fun h1 => ?_)
  · subst x1
    refine Within.andThen (State.putFw_within ..) (by decide) ?_
    exact Within.refl
  refine Within.have_ (t := x3) ?_ (fun h3 => ?_)
  · subst x3
    refine Within.set_sec_mgmt (by decide) ?_
    exact h1
  refine Within.ite (fun _ => ?_) (fun _ => ?_)
  · refine Within.andThen (State.restartBoot_within ..) (by decide) ?_
    exact h3
  · exact h3

theorem execRequestUpdate_within {t0 : Transport} {imageLen : Nat} {s : State} {t : State}
    (h : execRequestUpdate t0 imageLen s = .next t) : Within [.outbox, .regs, .sec, .mgmt] s t := by
  unfold execRequestUpdate at h
  obtain rfl := Host.Outcome.next.inj h
  refine Within.trans ?_ (State.updServed_within (by decide) (fun _ => ?_) ..)
  · exact Within.refl
  · refine Within.ite (fun _ => ?_) (fun _ => ?_)
    · refine Within.andThen (State.pldmAns_within ..) (by decide) ?_
      exact Within.refl
    · extract_lets -useContext _ _ x3
      refine Within.have_ (t := x3) ?_ (fun h3 => ?_)
      · subst x3
        refine Within.andThen (State.putFw_within ..) (by decide) ?_
        exact Within.refl
      refine Within.andThen (State.askChunk_within ..) (by decide) ?_
      refine Within.andThen (State.pldmAns_within ..) (by decide) ?_
      refine Within.set_sec_mgmt (by decide) ?_
      exact h3

theorem execRequestFirmwareData_within {off : Nat} {chunk : Body} {s : State} {t : State}
    (h : execRequestFirmwareData off chunk s = .next t) : Within [.outbox, .regs, .sec, .mgmt] s t := by
  unfold execRequestFirmwareData at h
  obtain rfl := Host.Outcome.next.inj h
  split
  · exact Within.refl
  · refine Within.trans ?_ (State.updServed_within (by decide) (fun _ => ?_) ..)
    · exact Within.refl
    · refine Within.ite (fun _ => ?_) (fun _ => ?_)
      · exact Within.refl
      · extract_lets -useContext 
        refine Within.andThen (State.askChunk_within ..) (by decide) ?_
        refine Within.andThen (State.putFw_within ..) (by decide) ?_
        refine Within.set_mgmt (by decide) ?_
        exact Within.refl

theorem execVerifyComplete_within {s : State} {t : State}
    (h : execVerifyComplete s = .next t) : Within [.outbox, .sec, .mgmt] s t := by
  unfold execVerifyComplete at h
  obtain rfl := Host.Outcome.next.inj h
  split
  · exact Within.refl
  · refine Within.ite (fun _ => ?_) (fun _ => ?_)
    · exact Within.refl
    · refine Within.ite (fun _ => ?_) (fun _ => ?_)
      · refine Within.andThen (State.pldmAns_within ..) (by decide) ?_
        refine Within.set_sec_mgmt (by decide) ?_
        exact Within.refl
      · refine Within.andThen (State.cancelUpd_within ..) (by decide) ?_
        refine Within.andThen (State.pldmAns_within ..) (by decide) ?_
        exact Within.refl

theorem execApplyComplete_within {s : State} {t : State}
    (h : execApplyComplete s = .next t) : Within [.outbox, .regs, .mgmt] s t := by
  unfold execApplyComplete at h
  obtain rfl := Host.Outcome.next.inj h
  split
  · exact Within.refl
  · refine Within.ite (fun _ => ?_) (fun _ => ?_)
    · exact Within.refl
    · extract_lets -useContext x1
      refine Within.have_ (t := x1) ?_ (fun h1 => ?_)
      · subst x1
        refine Within.andThen (State.wr_within ..) (by decide) ?_
        exact Within.refl
      refine Within.andThen (State.pldmAns_within ..) (by decide) ?_
      refine Within.set_mgmt (by decide) ?_
      exact h1

theorem execActivateFirmware_within {t0 : Transport} {s : State} {t : State}
    (h : execActivateFirmware t0 s = .next t) : Within [.outbox, .regs, .sec, .mgmt] s t := by
  unfold execActivateFirmware at h
  obtain rfl := Host.Outcome.next.inj h
  refine Within.trans ?_ (State.updServed_within (by decide) (fun _ => ?_) ..)
  · exact Within.refl
  · split
    · refine Within.andThen (State.pldmAns_within ..) (by decide) ?_
      exact Within.refl
    · refine Within.ite (fun _ => ?_) (fun _ => ?_)
      · refine Within.andThen (State.pldmAns_within ..) (by decide) ?_
        exact Within.refl
      · extract_lets -useContext _ x2
        refine Within.have_ (t := x2) ?_ (fun h2 => ?_)
        · subst x2
          refine Within.andThen (State.pldmAns_within ..) (by decide) ?_
          refine Within.set_mgmt (by decide) ?_
          exact Within.refl
        refine Within.ite (fun _ => ?_) (fun _ => ?_)
        · refine Within.andThen (State.restartBoot_within ..) (by decide) ?_
          exact h2
        · exact h2

theorem execCancelUpdate_within {t0 : Transport} {s : State} {t : State}
    (h : execCancelUpdate t0 s = .next t) : Within [.outbox, .regs, .sec, .mgmt] s t := by
  unfold execCancelUpdate at h
  obtain rfl := Host.Outcome.next.inj h
  refine Within.trans ?_ (State.updServed_within (by decide) (fun _ => ?_) ..)
  · exact Within.refl
  · split
    · refine Within.andThen (State.pldmAns_within ..) (by decide) ?_
      exact Within.refl
    · refine Within.ite (fun _ => ?_) (fun _ => ?_)
      · refine Within.andThen (State.pldmAns_within ..) (by decide) ?_
        exact Within.refl
      · refine Within.andThen (State.cancelUpd_within ..) (by decide) ?_
        refine Within.andThen (State.pldmAns_within ..) (by decide) ?_
        exact Within.refl

theorem execUpdateTimeout_within {s : State} {t : State}
    (h : execUpdateTimeout s = .next t) : Within [.clock, .now, .sec, .mgmt] s t := by
  unfold execUpdateTimeout at h
  obtain rfl := Host.Outcome.next.inj h
  split
  · exact Within.refl
  · refine Within.ite (fun _ => ?_) (fun _ => ?_)
    · exact Within.refl
    · refine Within.andThen (State.cancelUpd_within ..) (by decide) ?_
      refine Within.andThen (State.elapseTo_within ..) (by decide) ?_
      exact Within.refl

end Sys2Proof.Machine
end

