-- ==== Sys2Proof/Laws/Central.lean ====
section
/-! SUPPORT. For each operation of Machine/Central.lean: the fields it may change, that it keeps the invariant, and that the watch clock does not go back. -/

namespace Sys2Proof.Machine

set_option linter.all false
set_option Elab.async false

theorem actNop_within  (r : CmdRef) (l : Live) (s : State) :
    Within [.outbox, .regs, .mm, .sch, .cmd] s (actNop r l s) := by
  unfold actNop
  refine Within.andThen (State.complete_within ..) (by decide) ?_
  exact Within.refl

theorem actOf_within (o : Nat) (r : CmdRef) (l : Live) (s : State) :
    Within [.outbox, .fresh, .regs, .mem, .mm, .sch, .cmd, .zwx, .fl, .ar, .idx, .kv, .gen] s (actOf o r l s) := by
  unfold actOf
  split
  · exact Within.mono (actCtx_within ..) (by decide)
  · exact Within.mono (actMem_within ..) (by decide)
  · exact Within.mono (actIndexLoad_within ..) (by decide)
  · exact Within.mono (actIndexSave_within ..) (by decide)
  · exact Within.mono (actIndexUnload_within ..) (by decide)
  · exact Within.mono (actIndexCompact_within ..) (by decide)
  · exact Within.mono (actSearch_within ..) (by decide)
  · exact Within.mono (actMutate_within ..) (by decide)
  · exact Within.mono (actSelect_within ..) (by decide)
  · exact Within.mono (actModelLoad_within ..) (by decide)
  · exact Within.mono (actModelUnload_within ..) (by decide)
  · exact Within.mono (actSeqOpen_within ..) (by decide)
  · exact Within.mono (actSeqClose_within ..) (by decide)
  · exact Within.mono (actStep_within ..) (by decide)
  · exact Within.mono (actKv_within ..) (by decide)
  · exact Within.mono (actNop_within ..) (by decide)

theorem execNop_within {h : CmdHdr} {b : Body} {s : State} {t : State}
    (h : execNop h b s = .next t) : Within [.outbox, .fresh, .regs, .mm, .sch, .cmd, .mgmt] s t := by
  unfold execNop at h
  obtain rfl := Host.Outcome.next.inj h
  refine Within.trans ?_ (State.command_within (by decide) (fun _ _ _ => ?_) ..)
  · exact Within.refl
  · exact Within.mono (actNop_within ..) (by decide)

theorem State.decideAbort_within (s : State) (r : CmdRef) :
    Within [.outbox, .fresh, .regs, .mem, .mm, .sch, .cmd, .zwx, .fl, .ar, .idx, .kv, .gen] s (State.decideAbort s r) := by
  unfold State.decideAbort
  split
  · exact Within.refl
  · refine Within.ite (fun _ => ?_) (fun _ => ?_)
    · refine Within.andThen (State.complete_within ..) (by decide) ?_
      exact Within.refl
    · extract_lets -useContext 
      split
      · refine Within.andThen (State.count_within ..) (by decide) ?_
        refine Within.andThen (State.complete_within ..) (by decide) ?_
        exact Within.refl
      · extract_lets -useContext x2 x3
        refine Within.have_ (t := x2) ?_ (fun h2 => ?_)
        · subst x2
          refine Within.andThen (State.complete_within ..) (by decide) ?_
          refine Within.andThen (State.discard_within ..) (by decide) ?_
          exact Within.refl
        refine Within.have_ (t := x3) ?_ (fun h3 => ?_)
        · subst x3
          refine Within.ite (fun _ => ?_) (fun _ => ?_)
          · refine Within.andThen (State.count_within ..) (by decide) ?_
            exact h2
          · exact h2
        refine Within.andThen (State.count_within ..) (by decide) ?_
        refine Within.andThen (State.complete_within ..) (by decide) ?_
        exact h3

theorem State.onAbort_within (s : State) (h : CmdHdr) (b : Body) :
    Within [.outbox, .fresh, .regs, .mem, .mm, .sch, .cmd, .zwx, .fl, .mgmt, .ar, .idx, .kv, .gen] s (State.onAbort s h b) := by
  unfold State.onAbort
  refine Within.ite (fun _ => ?_) (fun _ => ?_)
  · exact Within.refl
  · split
    · refine Within.fst ?_ (by assumption)
      with_reducible refine Within.andThen (State.arrive_within ..) (by decide) ?_
      exact Within.refl
    · refine Within.andThen (State.decideAbort_within ..) (by decide) ?_
      refine Within.fst ?_ (by assumption)
      with_reducible refine Within.andThen (State.arrive_within ..) (by decide) ?_
      exact Within.refl

theorem execAbort_within {h : CmdHdr} {b : Body} {s : State} {t : State}
    (h : execAbort h b s = .next t) : Within [.outbox, .fresh, .regs, .mem, .mm, .sch, .cmd, .zwx, .fl, .mgmt, .ar, .idx, .kv, .gen] s t := by
  unfold execAbort at h
  obtain rfl := Host.Outcome.next.inj h
  refine Within.andThen (State.onAbort_within ..) (by decide) ?_
  exact Within.refl

theorem State.bodyComplete_within (s : State) (r : CmdRef) :
    Within [.outbox, .fresh, .regs, .mem, .mm, .sch, .cmd, .zwx, .fl, .ar, .idx, .kv, .gen] s (State.bodyComplete s r) := by
  unfold State.bodyComplete
  split
  · exact Within.refl
  · refine Within.ite (fun _ => ?_) (fun _ => ?_)
    · refine Within.andThen (State.decideAbort_within ..) (by decide) ?_
      exact Within.refl
    · refine Within.trans ?_ (State.bodyEnter_within (by decide) (fun _ _ _ => ?_) ..)
      · exact Within.refl
      · exact Within.mono (actOf_within ..) (by decide)

theorem execData_within {d : DataPkt} {s : State} {t : State}
    (h : execData d s = .next t) : Within [.outbox, .fresh, .regs, .mem, .mm, .sch, .cmd, .zwx, .fl, .ar, .idx, .kv, .gen] s t := by
  unfold execData at h
  extract_lets -useContext  at h
  obtain rfl := Host.Outcome.next.inj h
  refine Within.ite (fun _ => ?_) (fun _ => ?_)
  · exact Within.refl
  · split
    · refine Within.andThen (State.count_within ..) (by decide) ?_
      exact Within.refl
    · extract_lets -useContext _ x3
      refine Within.have_ (t := x3) ?_ (fun h3 => ?_)
      · subst x3
        refine Within.andThen (State.updLive_within ..) (by decide) ?_
        exact Within.refl
      refine Within.ite (fun _ => ?_) (fun _ => ?_)
      · refine Within.andThen (State.bodyComplete_within ..) (by decide) ?_
        exact h3
      · exact h3

theorem State.popStream_within (s : State) (island : Nat) :
    Within [.cmd] s (State.popStream s island) := by
  unfold State.popStream
  refine Within.set_cmd (by decide) ?_
  exact Within.refl

theorem State.asReady_within (s : State) :
    Within [.idx] s (State.asReady s) := by
  unfold State.asReady
  refine Within.set_idx (by decide) ?_
  exact Within.refl

theorem execIngressStamp_within {island : Nat} {s : State} {t : State}
    (h : execIngressStamp island s = .next t) : Within [.outbox, .fresh, .regs, .mem, .mm, .sch, .cmd, .zwx, .fl, .ar, .idx, .kv, .gen] s t := by
  unfold execIngressStamp at h
  obtain rfl := Host.Outcome.next.inj h
  refine Within.ite (fun _ => ?_) (fun _ => ?_)
  · exact Within.refl
  · split
    · refine Within.ite (fun _ => ?_) (fun _ => ?_)
      · exact Within.refl
      · extract_lets -useContext x1 x2
        refine Within.have_ (t := x1) ?_ (fun h1 => ?_)
        · subst x1
          refine Within.andThen (State.popStream_within ..) (by decide) ?_
          exact Within.refl
        refine Within.have_ (t := x2) ?_ (fun h2 => ?_)
        · subst x2
          refine Within.andThen (State.stamp_within ..) (by decide) ?_
          exact h1
        split
        · exact h1
        · split
          · refine Within.andThen (State.complete_within ..) (by decide) ?_
            exact h1
          · split
            · exact h2
            · refine Within.andThen (actOf_within ..) (by decide) ?_
              exact h2
    · exact Within.refl

theorem execBoundaryMarker_within {island : Nat} {s : State} {t : State}
    (h : execBoundaryMarker island s = .next t) : Within [.cmd, .idx] s t := by
  unfold execBoundaryMarker at h
  obtain rfl := Host.Outcome.next.inj h
  refine Within.ite (fun _ => ?_) (fun _ => ?_)
  · exact Within.refl
  · split
    · extract_lets -useContext x1
      refine Within.have_ (t := x1) ?_ (fun h1 => ?_)
      · subst x1
        refine Within.andThen (State.popStream_within ..) (by decide) ?_
        exact Within.refl
      refine Within.set_idx (by decide) ?_
      exact h1
    · exact Within.refl

theorem State.countOverruns_within (s : State) (b : Nat) :
    Within [.regs, .idx] s (State.countOverruns s b) := by
  unfold State.countOverruns
  extract_lets -useContext _ x2
  refine Within.have_ (t := x2) ?_ (fun h2 => ?_)
  · subst x2
    refine Within.foldl ?_ (fun _ _ => ?_)
    · exact Within.refl
    · refine Within.andThen (State.count_within ..) (by decide) ?_
      exact Within.refl
  refine Within.set_idx (by decide) ?_
  exact h2

theorem State.openTide_within (s : State) (m : Nat) :
    Within [.cmd, .idx] s (State.openTide s m) := by
  unfold State.openTide
  extract_lets -useContext 
  refine Within.set_cmd_idx (by decide) ?_
  exact Within.refl

theorem State.tellEpoch_within (s : State) (m : Nat) :
    Within [.outbox] s (State.tellEpoch s m) := by
  unfold State.tellEpoch
  extract_lets -useContext 
  refine Within.ite (fun _ => ?_) (fun _ => ?_)
  · exact Within.refl
  · refine Within.ite (fun _ => ?_) (fun _ => ?_)
    · refine Within.andThen (State.emit_within ..) (by decide) ?_
      exact Within.refl
    · refine Within.andThen (State.emit_within ..) (by decide) ?_
      exact Within.refl

theorem State.readyIndexes_within (s : State) :
    Within [.outbox, .regs, .mm, .sch, .cmd, .idx] s (State.readyIndexes s) := by
  unfold State.readyIndexes
  refine Within.foldl ?_ (fun _ _ => ?_)
  · exact Within.refl
  · extract_lets -useContext x1
    refine Within.have_ (t := x1) ?_ (fun h1 => ?_)
    · subst x1
      refine Within.andThen (State.updIndex_within ..) (by decide) ?_
      exact Within.refl
    split
    · refine Within.andThen (State.complete_within ..) (by decide) ?_
      exact h1
    · exact h1

theorem State.switchIngress_within (s : State) :
    Within [.sch, .idx] s (State.switchIngress s) := by
  unfold State.switchIngress
  extract_lets -useContext _ _ _ x4 x5
  refine Within.have_ (t := x4) ?_ (fun h4 => ?_)
  · subst x4
    refine Within.set_sch_idx (by decide) ?_
    exact Within.refl
  refine Within.have_ (t := x5) ?_ (fun h5 => ?_)
  · subst x5
    refine Within.foldl ?_ (fun _ _ => ?_)
    · exact h4
    · refine Within.andThen (State.addMark_within ..) (by decide) ?_
      exact Within.refl
  refine Within.set_idx (by decide) ?_
  exact h5

theorem execTideBoundary_within {s : State} {t : State}
    (h : execTideBoundary s = .next t) : Within [.outbox, .fresh, .clock, .now, .regs, .mem, .mm, .sch, .cmd, .fl, .idx] s t := by
  unfold execTideBoundary at h
  obtain rfl := Host.Outcome.next.inj h
  refine Within.ite (fun _ => ?_) (fun _ => ?_)
  · exact Within.refl
  · extract_lets -useContext _ x2 x3 x4 x5 _ _ x8 x9 x10
    refine Within.have_ (t := x2) ?_ (fun h2 => ?_)
    · subst x2
      refine Within.andThen (State.elapseTo_within ..) (by decide) ?_
      exact Within.refl
    refine Within.have_ (t := x3) ?_ (fun h3 => ?_)
    · subst x3
      refine Within.ite (fun _ => ?_) (fun _ => ?_)
      · refine Within.andThen (State.count_within ..) (by decide) ?_
        exact h2
      · exact h2
    refine Within.have_ (t := x4) ?_ (fun h4 => ?_)
    · subst x4
      refine Within.andThen (State.switchIngress_within ..) (by decide) ?_
      refine Within.andThen (State.tellEpoch_within ..) (by decide) ?_
      refine Within.andThen (State.openTide_within ..) (by decide) ?_
      refine Within.andThen (State.countOverruns_within ..) (by decide) ?_
      exact h3
    refine Within.have_ (t := x5) ?_ (fun h5 => ?_)
    · subst x5
      refine Within.andThen (State.readyIndexes_within ..) (by decide) ?_
      exact h4
    refine Within.have_ (t := x8) ?_ (fun h8 => ?_)
    · subst x8
      refine Within.set_idx (by decide) ?_
      exact h5
    refine Within.have_ (t := x9) ?_ (fun h9 => ?_)
    · subst x9
      refine Within.foldl ?_ (fun _ _ => ?_)
      · exact h8
      · refine Within.andThen (State.refreshCents_within ..) (by decide) ?_
        refine Within.andThen (State.indexBoundary_within ..) (by decide) ?_
        exact Within.refl
    refine Within.have_ (t := x10) ?_ (fun h10 => ?_)
    · subst x10
      refine Within.foldl ?_ (fun _ _ => ?_)
      · exact h9
      · split
        · refine Within.andThen (State.releaseQuar_within ..) (by decide) ?_
          exact Within.refl
        · exact Within.refl
    refine Within.andThen (State.monitor_within ..) (by decide) ?_
    refine Within.andThen (State.switchMoves_within ..) (by decide) ?_
    exact h10

theorem execCommandEngineReady_within {s : State} {t : State}
    (h : execCommandEngineReady s = .next t) : Within [.outbox, .fresh, .latches, .regs, .busy, .notReady, .waits, .mem, .pwr, .flt, .mm, .sch, .cmd, .brg, .zwx, .fl, .sec, .ar, .idx, .kv] s t := by
  unfold execCommandEngineReady at h
  obtain rfl := Host.Outcome.next.inj h
  refine Within.ite (fun _ => ?_) (fun _ => ?_)
  · exact Within.refl
  · extract_lets -useContext _ _ _ x4
    refine Within.have_ (t := x4) ?_ (fun h4 => ?_)
    · subst x4
      refine Within.set_mm_cmd_idx (by decide) ?_
      exact Within.refl
    refine Within.andThen (State.pageReady_within ..) (by decide) ?_
    exact h4

theorem execMapJournalReplayed_within {s : State} {t : State}
    (h : execMapJournalReplayed s = .next t) : Within [.outbox, .fresh, .latches, .regs, .busy, .notReady, .waits, .mem, .pwr, .flt, .mm, .sch, .brg, .zwx, .fl, .sec, .ar, .kv] s t := by
  unfold execMapJournalReplayed at h
  obtain rfl := Host.Outcome.next.inj h
  refine Within.ite (fun _ => ?_) (fun _ => ?_)
  · exact Within.refl
  · refine Within.andThen (State.pageReady_within ..) (by decide) ?_
    refine Within.andThen (State.takeCache_within ..) (by decide) ?_
    refine Within.set_fl (by decide) ?_
    exact Within.refl

end Sys2Proof.Machine
end

