-- ==== Sys2Proof/Laws/Ports.lean ====
section
/-! SUPPORT. For each operation of Machine/Ports.lean: the fields it may change, that it keeps the invariant, and that the watch clock does not go back. -/

namespace Sys2Proof.Machine

set_option linter.all false
set_option Elab.async false

theorem State.archReady_within (s : State) :
    Within [.outbox, .fresh, .latches, .regs, .busy, .notReady, .waits, .mem, .pwr, .flt, .mm, .sch, .brg, .zwx, .fl, .sec, .ar, .kv] s (State.archReady s) := by
  unfold State.archReady
  refine Within.ite (fun _ => ?_) (fun _ => ?_)
  · exact Within.refl
  · refine Within.andThen (State.pageReady_within ..) (by decide) ?_
    refine Within.set_zwx (by decide) ?_
    exact Within.refl

theorem State.trainOver_within (s : State) (n : Nat) (cause : Nat) :
    Within [.outbox, .fresh, .latches, .regs, .busy, .notReady, .waits, .mem, .pwr, .flt, .mm, .sch, .brg, .zwx, .fl, .sec, .ar, .kv] s (State.trainOver s n cause) := by
  unfold State.trainOver
  refine Within.andThen (State.archReady_within ..) (by decide) ?_
  refine Within.andThen (State.updPort_within ..) (by decide) ?_
  exact Within.refl

theorem State.trainUp_within (s : State) (n : Nat) (t0 : TrainInfo) :
    Within [.outbox, .fresh, .latches, .regs, .busy, .notReady, .waits, .mem, .pwr, .flt, .mm, .sch, .brg, .zwx, .fl, .sec, .ar, .kv] s (State.trainUp s n t0) := by
  unfold State.trainUp
  extract_lets -useContext _ x2 _ x4 _ x6
  refine Within.have_ (t := x2) ?_ (fun h2 => ?_)
  · subst x2
    refine Within.ite (fun _ => ?_) (fun _ => ?_)
    · refine Within.andThen (State.newKeys_within ..) (by decide) ?_
      exact Within.refl
    · exact Within.refl
  refine Within.have_ (t := x4) ?_ (fun h4 => ?_)
  · subst x4
    refine Within.andThen (State.updPort_within ..) (by decide) ?_
    exact h2
  refine Within.have_ (t := x6) ?_ (fun h6 => ?_)
  · subst x6
    refine Within.andThen (State.emits_within ..) (by decide) ?_
    exact h4
  refine Within.andThen (State.retryHolds_within ..) (by decide) ?_
  refine Within.andThen (State.archReady_within ..) (by decide) ?_
  refine Within.set_fresh (by decide) ?_
  exact h6

theorem execPortTrainDone_within {port : Nat} {t0 : TrainInfo} {s : State} {t : State}
    (h : execPortTrainDone port t0 s = .next t) : Within [.outbox, .fresh, .latches, .regs, .busy, .notReady, .waits, .mem, .pwr, .flt, .mm, .sch, .brg, .zwx, .fl, .sec, .ar, .kv] s t := by
  unfold execPortTrainDone at h
  obtain rfl := Host.Outcome.next.inj h
  refine Within.ite (fun _ => ?_) (fun _ => ?_)
  · exact Within.refl
  · extract_lets -useContext 
    refine Within.ite (fun _ => ?_) (fun _ => ?_)
    · refine Within.andThen (State.trainOver_within ..) (by decide) ?_
      exact Within.refl
    · refine Within.ite (fun _ => ?_) (fun _ => ?_)
      · refine Within.andThen (State.trainOver_within ..) (by decide) ?_
        exact Within.refl
      · refine Within.ite (fun _ => ?_) (fun _ => ?_)
        · refine Within.andThen (State.trainOver_within ..) (by decide) ?_
          refine Within.andThen (State.count_within ..) (by decide) ?_
          exact Within.refl
        · refine Within.ite (fun _ => ?_) (fun _ => ?_)
          · refine Within.andThen (State.trainOver_within ..) (by decide) ?_
            exact Within.refl
          · refine Within.andThen (State.trainUp_within ..) (by decide) ?_
            exact Within.refl

theorem execTrainFail_within {port : Nat} {s : State} {t : State}
    (h : execTrainFail port s = .next t) : Within [.outbox, .fresh, .clock, .now, .latches, .regs, .busy, .notReady, .waits, .mem, .pwr, .flt, .mm, .sch, .brg, .zwx, .fl, .sec, .ar, .kv] s t := by
  unfold execTrainFail at h
  obtain rfl := Host.Outcome.next.inj h
  refine Within.ite (fun _ => ?_) (fun _ => ?_)
  · exact Within.refl
  · refine Within.andThen (State.trainOver_within ..) (by decide) ?_
    refine Within.andThen (State.elapseTo_within ..) (by decide) ?_
    exact Within.refl

theorem execTrainRetry_within {port : Nat} {s : State} {t : State}
    (h : execTrainRetry port s = .next t) : Within [.clock, .now, .zwx] s t := by
  unfold execTrainRetry at h
  obtain rfl := Host.Outcome.next.inj h
  refine Within.ite (fun _ => ?_) (fun _ => ?_)
  · exact Within.refl
  · extract_lets -useContext x1
    refine Within.have_ (t := x1) ?_ (fun h1 => ?_)
    · subst x1
      refine Within.andThen (State.elapseTo_within ..) (by decide) ?_
      exact Within.refl
    refine Within.andThen (State.updPort_within ..) (by decide) ?_
    exact h1

theorem execXwrite_within {x : XPkt} {s : State} {t : State}
    (h : execXwrite x s = .next t) : Within [.outbox, .fresh, .regs, .mem, .mm, .sch, .zwx, .fl, .ar, .kv, .gen] s t := by
  unfold execXwrite at h
  obtain rfl := Host.Outcome.next.inj h
  refine Within.ite (fun _ => ?_) (fun _ => ?_)
  · exact Within.refl
  · refine Within.ite (fun _ => ?_) (fun _ => ?_)
    · extract_lets -useContext x1
      refine Within.have_ (t := x1.1) ?_ (fun h1 => ?_)
      · subst x1
        refine Within.ite_fst (fun _ => ?_) (fun _ => ?_)
        · with_reducible refine Within.andThen (State.takePlace_within ..) (by decide) ?_
          exact Within.refl
        · exact Within.refl
      refine Within.andThen (State.emit_within ..) (by decide) ?_
      exact h1
    · refine Within.ite (fun _ => ?_) (fun _ => ?_)
      · extract_lets -useContext x2 x3 x4
        refine Within.have_ (t := x2) ?_ (fun h2 => ?_)
        · subst x2
          refine Within.foldl ?_ (fun _ _ => ?_)
          · exact Within.refl
          · refine Within.andThen (State.devWrite_within ..) (by decide) ?_
            exact Within.refl
        refine Within.have_ (t := x3) ?_ (fun h3 => ?_)
        · subst x3
          refine Within.andThen (State.rowTraffic_within ..) (by decide) ?_
          exact h2
        refine Within.have_ (t := x4) ?_ (fun h4 => ?_)
        · subst x4
          refine Within.ite (fun _ => ?_) (fun _ => ?_)
          · refine Within.andThen (State.mapBytes_within ..) (by decide) ?_
            exact h3
          · exact h3
        refine Within.andThen (State.emit_within ..) (by decide) ?_
        exact h4
      · refine Within.andThen (State.emit_within ..) (by decide) ?_
        exact Within.refl

theorem execXread_within {x : XPkt} {s : State} {t : State}
    (h : execXread x s = .next t) : Within [.outbox, .mm, .sch] s t := by
  unfold execXread at h
  obtain rfl := Host.Outcome.next.inj h
  refine Within.ite (fun _ => ?_) (fun _ => ?_)
  · exact Within.refl
  · refine Within.ite (fun _ => ?_) (fun _ => ?_)
    · split
      · refine Within.andThen (State.emit_within ..) (by decide) ?_
        exact Within.refl
      · refine Within.andThen (State.emit_within ..) (by decide) ?_
        exact Within.refl
    · refine Within.ite (fun _ => ?_) (fun _ => ?_)
      · refine Within.andThen (State.emit_within ..) (by decide) ?_
        refine Within.andThen (State.rowTraffic_within ..) (by decide) ?_
        exact Within.refl
      · refine Within.andThen (State.emit_within ..) (by decide) ?_
        exact Within.refl

theorem State.endXfer_within (s : State) (o : XferOut) :
    Within [.zwx] s (State.endXfer s o) := by
  unfold State.endXfer
  refine Within.set_zwx (by decide) ?_
  exact Within.refl

theorem State.detachX_within (s : State) (m : XMcast) (os : List Nat) :
    Within [.outbox, .regs, .zwx] s (State.detachX s m os) := by
  unfold State.detachX
  extract_lets -useContext _ _ _ x4
  refine Within.have_ (t := x4) ?_ (fun h4 => ?_)
  · subst x4
    refine Within.set_zwx (by decide) ?_
    exact Within.refl
  refine Within.ite (fun _ => ?_) (fun _ => ?_)
  · exact h4
  · refine Within.andThen (State.emits_within ..) (by decide) ?_
    refine Within.andThen (State.count_within ..) (by decide) ?_
    exact h4

theorem State.endMcasts_within (s : State) :
    Within [.zwx] s (State.endMcasts s) := by
  unfold State.endMcasts
  refine Within.set_zwx (by decide) ?_
  exact Within.refl

theorem State.ackMcast_within (s : State) (id : Nat) (ord : Nat) (n : Nat) :
    Within [.outbox, .regs, .zwx] s (State.ackMcast s id ord n) := by
  unfold State.ackMcast
  split
  · exact Within.refl
  · extract_lets -useContext _ _ _ _ x5
    refine Within.have_ (t := x5) ?_ (fun h5 => ?_)
    · subst x5
      refine Within.set_zwx (by decide) ?_
      exact Within.refl
    refine Within.andThen (State.endMcasts_within ..) (by decide) ?_
    refine Within.andThen (State.detachX_within ..) (by decide) ?_
    exact h5

theorem execXack_within {x : XPkt} {s : State} {t : State}
    (h : execXack x s = .next t) : Within [.outbox, .fresh, .regs, .mem, .mm, .sch, .zwx, .fl, .kv, .gen] s t := by
  unfold execXack at h
  obtain rfl := Host.Outcome.next.inj h
  split
  · exact Within.refl
  · extract_lets -useContext x1
    refine Within.have_ (t := x1) ?_ (fun h1 => ?_)
    · subst x1
      refine Within.andThen (State.endXfer_within ..) (by decide) ?_
      exact Within.refl
    split
    · refine Within.ite (fun _ => ?_) (fun _ => ?_)
      · refine Within.andThen (State.mirrorEnd_within ..) (by decide) ?_
        exact h1
      · exact h1
    · refine Within.ite (fun _ => ?_) (fun _ => ?_)
      · exact h1
      · refine Within.andThen (State.ackMcast_within ..) (by decide) ?_
        exact h1
    · exact h1

theorem State.mirrorLost_within (s : State) (p : PageRef) :
    Within [.fresh, .regs, .mem, .mm, .sch, .zwx, .fl] s (State.mirrorLost s p) := by
  unfold State.mirrorLost
  extract_lets -useContext _ x2
  refine Within.have_ (t := x2) ?_ (fun h2 => ?_)
  · subst x2
    refine Within.set_zwx (by decide) ?_
    exact Within.refl
  refine Within.andThen (State.mirrorBack_within ..) (by decide) ?_
  split
  · refine Within.andThen (State.setPage_within ..) (by decide) ?_
    exact h2
  · exact h2

theorem State.onXreadRsp_within (s : State) (x : XPkt) :
    Within [.outbox, .fresh, .regs, .mem, .mm, .sch, .zwx, .fl, .kv] s (State.onXreadRsp s x) := by
  unfold State.onXreadRsp
  split
  · exact Within.refl
  · extract_lets -useContext x1
    refine Within.have_ (t := x1) ?_ (fun h1 => ?_)
    · subst x1
      refine Within.andThen (State.endXfer_within ..) (by decide) ?_
      exact Within.refl
    split
    · refine Within.ite (fun _ => ?_) (fun _ => ?_)
      · refine Within.andThen (State.mirrorLost_within ..) (by decide) ?_
        exact h1
      · split
        · exact h1
        · split
          · exact h1
          · split
            · refine Within.andThen (State.stallRemote_within ..) (by decide) ?_
              refine Within.andThen (State.mirrorBack_within ..) (by decide) ?_
              refine Within.andThen (State.mendPage_within ..) (by decide) ?_
              refine Within.andThen (State.reframe_within (by assumption)) (by decide) ?_
              exact h1
            · refine Within.andThen (State.reframe_within (by assumption)) (by decide) ?_
              exact h1
    · split
      · refine Within.andThen (State.weightCame_within ..) (by decide) ?_
        exact h1
      · exact h1
    · exact h1

theorem execXreadRsp_within {x : XPkt} {s : State} {t : State}
    (h : execXreadRsp x s = .next t) : Within [.outbox, .fresh, .regs, .mem, .mm, .sch, .zwx, .fl, .kv] s t := by
  unfold execXreadRsp at h
  obtain rfl := Host.Outcome.next.inj h
  refine Within.andThen (State.onXreadRsp_within ..) (by decide) ?_
  exact Within.refl

theorem State.pathLost_within (s : State) (lost : Nat) :
    Within [.outbox, .fresh, .regs, .mem, .mm, .sch, .brg, .zwx, .fl, .mgmt, .kv, .gen] s (State.pathLost s lost) := by
  unfold State.pathLost
  refine Within.ite (fun _ => ?_) (fun _ => ?_)
  · exact Within.refl
  · extract_lets -useContext _ _ _ _ x5 x6 _ x8 x9 x10
    refine Within.have_ (t := x5) ?_ (fun h5 => ?_)
    · subst x5
      refine Within.set_zwx (by decide) ?_
      exact Within.refl
    refine Within.have_ (t := x6) ?_ (fun h6 => ?_)
    · subst x6
      refine Within.foldl ?_ (fun _ _ => ?_)
      · exact h5
      · refine Within.andThen (State.mirrorEnd_within ..) (by decide) ?_
        exact Within.refl
    refine Within.have_ (t := x8) ?_ (fun h8 => ?_)
    · subst x8
      refine Within.foldl ?_ (fun _ _ => ?_)
      · exact h6
      · refine Within.ite (fun _ => ?_) (fun _ => ?_)
        · refine Within.andThen (State.weightCame_within ..) (by decide) ?_
          exact Within.refl
        · exact Within.refl
    refine Within.have_ (t := x9) ?_ (fun h9 => ?_)
    · subst x9
      refine Within.foldl ?_ (fun _ _ => ?_)
      · exact h8
      · refine Within.andThen (State.mirrorLost_within ..) (by decide) ?_
        exact Within.refl
    refine Within.have_ (t := x10) ?_ (fun h10 => ?_)
    · subst x10
      refine Within.foldl ?_ (fun _ _ => ?_)
      · exact h9
      · refine Within.andThen (State.endMcasts_within ..) (by decide) ?_
        refine Within.andThen (State.detachX_within ..) (by decide) ?_
        exact Within.refl
    refine Within.ite (fun _ => ?_) (fun _ => ?_)
    · refine Within.andThen (State.pathFail_within ..) (by decide) ?_
      exact h10
    · exact h10

theorem execPathLost_within {_srcOrd : Nat} {lost : Nat} {_cause : Nat} {s : State} {t : State}
    (h : execPathLost _srcOrd lost _cause s = .next t) : Within [.outbox, .fresh, .regs, .mem, .mm, .sch, .brg, .zwx, .fl, .mgmt, .kv, .gen] s t := by
  unfold execPathLost at h
  obtain rfl := Host.Outcome.next.inj h
  refine Within.andThen (State.pathLost_within ..) (by decide) ?_
  exact Within.refl

theorem execNoRouteExpire_within {dst : Nat} {s : State} {t : State}
    (h : execNoRouteExpire dst s = .next t) : Within [.outbox, .fresh, .clock, .now, .regs, .mem, .mm, .sch, .brg, .zwx, .fl, .mgmt, .kv, .gen] s t := by
  unfold execNoRouteExpire at h
  obtain rfl := Host.Outcome.next.inj h
  split
  · exact Within.refl
  · extract_lets -useContext x1 _ x3 x4
    refine Within.have_ (t := x1) ?_ (fun h1 => ?_)
    · subst x1
      refine Within.andThen (State.elapseTo_within ..) (by decide) ?_
      exact Within.refl
    refine Within.have_ (t := x3) ?_ (fun h3 => ?_)
    · subst x3
      refine Within.andThen (State.count_within ..) (by decide) ?_
      refine Within.set_zwx (by decide) ?_
      exact h1
    refine Within.have_ (t := x4) ?_ (fun h4 => ?_)
    · subst x4
      refine Within.andThen (State.pathLostTo_within ..) (by decide) ?_
      exact h3
    refine Within.ite (fun _ => ?_) (fun _ => ?_)
    · refine Within.andThen (State.pathLost_within ..) (by decide) ?_
      exact h4
    · exact h4

theorem execPerstAssert_within {s : State} {t : State}
    (h : execPerstAssert s = .next t) : Within [.outbox, .regs, .pwr, .brg, .zwx] s t := by
  unfold execPerstAssert at h
  extract_lets -useContext _ x2 x3 at h
  refine Within.have_ (t := x2) ?_ (fun h2 => ?_)
  · subst x2
    refine Within.set_pwr (by decide) ?_ ?_
    · exact Within.refl
    · exact fun h => h
  refine Within.have_ (t := x3) ?_ (fun h3 => ?_)
  · subst x3
    refine Within.andThen (State.hostDown_within ..) (by decide) ?_
    exact h2
  obtain rfl := Host.Outcome.next.inj h
  refine Within.ite (fun _ => ?_) (fun _ => ?_)
  · exact h2
  · refine Within.foldl ?_ (fun _ _ => ?_)
    · refine Within.set_pwr_zwx (by decide) ?_ ?_
      · exact h3
      · exact fun h => h
    · refine Within.andThen (State.updPort_within ..) (by decide) ?_
      exact Within.refl

theorem execPerstRelease_within {s : State} {t : State}
    (h : execPerstRelease s = .next t) : Within [.pwr] s t := by
  unfold execPerstRelease at h
  obtain rfl := Host.Outcome.next.inj h
  refine Within.set_pwr (by decide) ?_ ?_
  · exact Within.refl
  · exact fun h => h

end Sys2Proof.Machine
end

