-- ==== Sys2Proof/Laws/State.lean ====
section
/-! SUPPORT. The plain record updates, field by field: what each leaves as it was, and the field it writes. -/

namespace Sys2Proof.Machine

@[simp] theorem State.putIslet_frame (s : State) (x : IsletSt) :
    (s.putIslet x).pending = s.pending ∧ (s.putIslet x).outbox = s.outbox ∧ (s.putIslet x).fresh = s.fresh ∧
    (s.putIslet x).clock = s.clock ∧ (s.putIslet x).now = s.now ∧ (s.putIslet x).latches = s.latches ∧ (s.putIslet x).regs = s.regs ∧
    (s.putIslet x).busy = s.busy ∧ (s.putIslet x).notReady = s.notReady ∧ (s.putIslet x).waits = s.waits ∧ (s.putIslet x).mem = s.mem ∧
    (s.putIslet x).fix = s.fix ∧ (s.putIslet x).pwr = s.pwr ∧ (s.putIslet x).flt = s.flt ∧ (s.putIslet x).mm = s.mm ∧
    (s.putIslet x).sch = s.sch ∧ (s.putIslet x).cmd = s.cmd ∧ (s.putIslet x).brg = s.brg ∧ (s.putIslet x).zwx = s.zwx ∧
    (s.putIslet x).fl = s.fl ∧ (s.putIslet x).sec = s.sec ∧ (s.putIslet x).mgmt = s.mgmt ∧ (s.putIslet x).idx = s.idx ∧
    (s.putIslet x).kv = s.kv ∧ (s.putIslet x).gen = s.gen :=
  ⟨rfl, rfl, rfl, rfl, rfl, rfl, rfl, rfl, rfl, rfl, rfl, rfl, rfl, rfl, rfl, rfl, rfl, rfl, rfl, rfl, rfl, rfl, rfl, rfl, rfl⟩

@[simp] theorem State.putIslet_ar (s : State) (x : IsletSt) : (s.putIslet x).ar =
    { s.ar with islets := s.ar.islets.filter (fun y => y.islet != x.islet) ++ [x] } := rfl

@[simp] theorem State.updCohort_frame (s : State) (slot : Nat) (f : Cohort → Cohort) :
    (s.updCohort slot f).pending = s.pending ∧ (s.updCohort slot f).outbox = s.outbox ∧ (s.updCohort slot f).fresh = s.fresh ∧
    (s.updCohort slot f).clock = s.clock ∧ (s.updCohort slot f).now = s.now ∧ (s.updCohort slot f).latches = s.latches ∧
    (s.updCohort slot f).regs = s.regs ∧ (s.updCohort slot f).busy = s.busy ∧ (s.updCohort slot f).notReady = s.notReady ∧
    (s.updCohort slot f).waits = s.waits ∧ (s.updCohort slot f).mem = s.mem ∧ (s.updCohort slot f).fix = s.fix ∧
    (s.updCohort slot f).pwr = s.pwr ∧ (s.updCohort slot f).flt = s.flt ∧ (s.updCohort slot f).mm = s.mm ∧
    (s.updCohort slot f).sch = s.sch ∧ (s.updCohort slot f).cmd = s.cmd ∧ (s.updCohort slot f).brg = s.brg ∧
    (s.updCohort slot f).zwx = s.zwx ∧ (s.updCohort slot f).fl = s.fl ∧ (s.updCohort slot f).sec = s.sec ∧
    (s.updCohort slot f).mgmt = s.mgmt ∧ (s.updCohort slot f).ar = s.ar ∧ (s.updCohort slot f).idx = s.idx ∧
    (s.updCohort slot f).kv = s.kv :=
  ⟨rfl, rfl, rfl, rfl, rfl, rfl, rfl, rfl, rfl, rfl, rfl, rfl, rfl, rfl, rfl, rfl, rfl, rfl, rfl, rfl, rfl, rfl, rfl, rfl, rfl⟩

@[simp] theorem State.updCohort_gen (s : State) (slot : Nat) (f : Cohort → Cohort) : (s.updCohort slot f).gen =
    { s.gen with cohorts := updWhere (fun k => k.slot == slot) f s.gen.cohorts } := rfl

@[simp] theorem State.takeFar_frame (s : State) (f : XPkt → Bool) :
    (s.takeFar f).pending = s.pending ∧ (s.takeFar f).outbox = s.outbox ∧ (s.takeFar f).fresh = s.fresh ∧ (s.takeFar f).clock = s.clock ∧
    (s.takeFar f).now = s.now ∧ (s.takeFar f).latches = s.latches ∧ (s.takeFar f).regs = s.regs ∧ (s.takeFar f).busy = s.busy ∧
    (s.takeFar f).notReady = s.notReady ∧ (s.takeFar f).waits = s.waits ∧ (s.takeFar f).mem = s.mem ∧ (s.takeFar f).fix = s.fix ∧
    (s.takeFar f).pwr = s.pwr ∧ (s.takeFar f).flt = s.flt ∧ (s.takeFar f).mm = s.mm ∧ (s.takeFar f).sch = s.sch ∧
    (s.takeFar f).cmd = s.cmd ∧ (s.takeFar f).brg = s.brg ∧ (s.takeFar f).zwx = s.zwx ∧ (s.takeFar f).fl = s.fl ∧
    (s.takeFar f).sec = s.sec ∧ (s.takeFar f).mgmt = s.mgmt ∧ (s.takeFar f).ar = s.ar ∧ (s.takeFar f).idx = s.idx ∧
    (s.takeFar f).gen = s.gen :=
  ⟨rfl, rfl, rfl, rfl, rfl, rfl, rfl, rfl, rfl, rfl, rfl, rfl, rfl, rfl, rfl, rfl, rfl, rfl, rfl, rfl, rfl, rfl, rfl, rfl, rfl⟩

@[simp] theorem State.takeFar_kv (s : State) (f : XPkt → Bool) : (s.takeFar f).kv =
    { s.kv with far := s.kv.far.filter (fun y => !f y) } := rfl

@[simp] theorem State.updRing_frame (s : State) (id : Nat) (f : RingCmd → RingCmd) :
    (s.updRing id f).pending = s.pending ∧ (s.updRing id f).outbox = s.outbox ∧ (s.updRing id f).fresh = s.fresh ∧
    (s.updRing id f).clock = s.clock ∧ (s.updRing id f).now = s.now ∧ (s.updRing id f).latches = s.latches ∧
    (s.updRing id f).regs = s.regs ∧ (s.updRing id f).busy = s.busy ∧ (s.updRing id f).notReady = s.notReady ∧
    (s.updRing id f).waits = s.waits ∧ (s.updRing id f).mem = s.mem ∧ (s.updRing id f).fix = s.fix ∧ (s.updRing id f).pwr = s.pwr ∧
    (s.updRing id f).flt = s.flt ∧ (s.updRing id f).mm = s.mm ∧ (s.updRing id f).sch = s.sch ∧ (s.updRing id f).cmd = s.cmd ∧
    (s.updRing id f).zwx = s.zwx ∧ (s.updRing id f).fl = s.fl ∧ (s.updRing id f).sec = s.sec ∧ (s.updRing id f).mgmt = s.mgmt ∧
    (s.updRing id f).ar = s.ar ∧ (s.updRing id f).idx = s.idx ∧ (s.updRing id f).kv = s.kv ∧ (s.updRing id f).gen = s.gen :=
  ⟨rfl, rfl, rfl, rfl, rfl, rfl, rfl, rfl, rfl, rfl, rfl, rfl, rfl, rfl, rfl, rfl, rfl, rfl, rfl, rfl, rfl, rfl, rfl, rfl, rfl⟩

@[simp] theorem State.updRing_brg (s : State) (id : Nat) (f : RingCmd → RingCmd) : (s.updRing id f).brg =
    { s.brg with cmds := updWhere (fun c => c.id == id) f s.brg.cmds } := rfl

@[simp] theorem State.popStream_frame (s : State) (island : Nat) :
    (s.popStream island).pending = s.pending ∧ (s.popStream island).outbox = s.outbox ∧ (s.popStream island).fresh = s.fresh ∧
    (s.popStream island).clock = s.clock ∧ (s.popStream island).now = s.now ∧ (s.popStream island).latches = s.latches ∧
    (s.popStream island).regs = s.regs ∧ (s.popStream island).busy = s.busy ∧ (s.popStream island).notReady = s.notReady ∧
    (s.popStream island).waits = s.waits ∧ (s.popStream island).mem = s.mem ∧ (s.popStream island).fix = s.fix ∧
    (s.popStream island).pwr = s.pwr ∧ (s.popStream island).flt = s.flt ∧ (s.popStream island).mm = s.mm ∧
    (s.popStream island).sch = s.sch ∧ (s.popStream island).brg = s.brg ∧ (s.popStream island).zwx = s.zwx ∧
    (s.popStream island).fl = s.fl ∧ (s.popStream island).sec = s.sec ∧ (s.popStream island).mgmt = s.mgmt ∧
    (s.popStream island).ar = s.ar ∧ (s.popStream island).idx = s.idx ∧ (s.popStream island).kv = s.kv ∧ (s.popStream island).gen = s.gen :=
  ⟨rfl, rfl, rfl, rfl, rfl, rfl, rfl, rfl, rfl, rfl, rfl, rfl, rfl, rfl, rfl, rfl, rfl, rfl, rfl, rfl, rfl, rfl, rfl, rfl, rfl⟩

@[simp] theorem State.popStream_cmd (s : State) (island : Nat) : (s.popStream island).cmd =
    { s.cmd with deliver := s.cmd.deliver.eraseP (fun d => d.1 == island) } := rfl

@[simp] theorem State.asReady_frame (s : State) :
    s.asReady.pending = s.pending ∧ s.asReady.outbox = s.outbox ∧ s.asReady.fresh = s.fresh ∧ s.asReady.clock = s.clock ∧
    s.asReady.now = s.now ∧ s.asReady.latches = s.latches ∧ s.asReady.regs = s.regs ∧ s.asReady.busy = s.busy ∧
    s.asReady.notReady = s.notReady ∧ s.asReady.waits = s.waits ∧ s.asReady.mem = s.mem ∧ s.asReady.fix = s.fix ∧ s.asReady.pwr = s.pwr ∧
    s.asReady.flt = s.flt ∧ s.asReady.mm = s.mm ∧ s.asReady.sch = s.sch ∧ s.asReady.cmd = s.cmd ∧ s.asReady.brg = s.brg ∧
    s.asReady.zwx = s.zwx ∧ s.asReady.fl = s.fl ∧ s.asReady.sec = s.sec ∧ s.asReady.mgmt = s.mgmt ∧ s.asReady.ar = s.ar ∧
    s.asReady.kv = s.kv ∧ s.asReady.gen = s.gen :=
  ⟨rfl, rfl, rfl, rfl, rfl, rfl, rfl, rfl, rfl, rfl, rfl, rfl, rfl, rfl, rfl, rfl, rfl, rfl, rfl, rfl, rfl, rfl, rfl, rfl, rfl⟩

@[simp] theorem State.asReady_idx (s : State) : s.asReady.idx =
    { s.idx with indexes := s.idx.indexes.map (fun x => if x.st = 3 then { x with st := 2 } else x) } := rfl

@[simp] theorem State.putStrait_frame (s : State) (x : StraitSt) :
    (s.putStrait x).pending = s.pending ∧ (s.putStrait x).outbox = s.outbox ∧ (s.putStrait x).fresh = s.fresh ∧
    (s.putStrait x).clock = s.clock ∧ (s.putStrait x).now = s.now ∧ (s.putStrait x).latches = s.latches ∧ (s.putStrait x).regs = s.regs ∧
    (s.putStrait x).busy = s.busy ∧ (s.putStrait x).notReady = s.notReady ∧ (s.putStrait x).waits = s.waits ∧ (s.putStrait x).mem = s.mem ∧
    (s.putStrait x).fix = s.fix ∧ (s.putStrait x).pwr = s.pwr ∧ (s.putStrait x).flt = s.flt ∧ (s.putStrait x).mm = s.mm ∧
    (s.putStrait x).sch = s.sch ∧ (s.putStrait x).cmd = s.cmd ∧ (s.putStrait x).brg = s.brg ∧ (s.putStrait x).zwx = s.zwx ∧
    (s.putStrait x).fl = s.fl ∧ (s.putStrait x).sec = s.sec ∧ (s.putStrait x).mgmt = s.mgmt ∧ (s.putStrait x).idx = s.idx ∧
    (s.putStrait x).kv = s.kv ∧ (s.putStrait x).gen = s.gen :=
  ⟨rfl, rfl, rfl, rfl, rfl, rfl, rfl, rfl, rfl, rfl, rfl, rfl, rfl, rfl, rfl, rfl, rfl, rfl, rfl, rfl, rfl, rfl, rfl, rfl, rfl⟩

@[simp] theorem State.putStrait_ar (s : State) (x : StraitSt) : (s.putStrait x).ar =
    { s.ar with straits := s.ar.straits.filter (fun y => !(y.island == x.island && y.dir == x.dir)) ++ [x] } := rfl

@[simp] theorem State.emptyList_frame (s : State) :
    s.emptyList.pending = s.pending ∧ s.emptyList.outbox = s.outbox ∧ s.emptyList.fresh = s.fresh ∧ s.emptyList.clock = s.clock ∧
    s.emptyList.now = s.now ∧ s.emptyList.latches = s.latches ∧ s.emptyList.regs = s.regs ∧ s.emptyList.busy = s.busy ∧
    s.emptyList.notReady = s.notReady ∧ s.emptyList.waits = s.waits ∧ s.emptyList.mem = s.mem ∧ s.emptyList.fix = s.fix ∧
    s.emptyList.pwr = s.pwr ∧ s.emptyList.mm = s.mm ∧ s.emptyList.sch = s.sch ∧ s.emptyList.cmd = s.cmd ∧ s.emptyList.brg = s.brg ∧
    s.emptyList.zwx = s.zwx ∧ s.emptyList.fl = s.fl ∧ s.emptyList.sec = s.sec ∧ s.emptyList.mgmt = s.mgmt ∧ s.emptyList.ar = s.ar ∧
    s.emptyList.idx = s.idx ∧ s.emptyList.kv = s.kv ∧ s.emptyList.gen = s.gen :=
  ⟨rfl, rfl, rfl, rfl, rfl, rfl, rfl, rfl, rfl, rfl, rfl, rfl, rfl, rfl, rfl, rfl, rfl, rfl, rfl, rfl, rfl, rfl, rfl, rfl, rfl⟩

@[simp] theorem State.emptyList_flt (s : State) : s.emptyList.flt =
    { s.flt with fenceList := [] } := rfl

@[simp] theorem State.admitUnit_frame (s : State) (u : FenceUnit) :
    (s.admitUnit u).pending = s.pending ∧ (s.admitUnit u).outbox = s.outbox ∧ (s.admitUnit u).fresh = s.fresh ∧
    (s.admitUnit u).clock = s.clock ∧ (s.admitUnit u).now = s.now ∧ (s.admitUnit u).latches = s.latches ∧ (s.admitUnit u).regs = s.regs ∧
    (s.admitUnit u).busy = s.busy ∧ (s.admitUnit u).notReady = s.notReady ∧ (s.admitUnit u).waits = s.waits ∧ (s.admitUnit u).mem = s.mem ∧
    (s.admitUnit u).fix = s.fix ∧ (s.admitUnit u).pwr = s.pwr ∧ (s.admitUnit u).mm = s.mm ∧ (s.admitUnit u).sch = s.sch ∧
    (s.admitUnit u).cmd = s.cmd ∧ (s.admitUnit u).brg = s.brg ∧ (s.admitUnit u).zwx = s.zwx ∧ (s.admitUnit u).fl = s.fl ∧
    (s.admitUnit u).sec = s.sec ∧ (s.admitUnit u).mgmt = s.mgmt ∧ (s.admitUnit u).ar = s.ar ∧ (s.admitUnit u).idx = s.idx ∧
    (s.admitUnit u).kv = s.kv ∧ (s.admitUnit u).gen = s.gen :=
  ⟨rfl, rfl, rfl, rfl, rfl, rfl, rfl, rfl, rfl, rfl, rfl, rfl, rfl, rfl, rfl, rfl, rfl, rfl, rfl, rfl, rfl, rfl, rfl, rfl, rfl⟩

@[simp] theorem State.admitUnit_flt (s : State) (u : FenceUnit) : (s.admitUnit u).flt =
    { s.flt with
    islands := if u.whole then s.flt.islands.filter (fun i => i != u.island) else s.flt.islands
    islets := if u.whole then s.flt.islets else s.flt.islets.filter (fun i => i != u.island * 16 + u.islet)
    fenceList := updWhere (fun (e : FenceEntry) => e.unit == u) (fun e => { e with fenced := false }) s.flt.fenceList } := rfl

@[simp] theorem State.putSlot_frame (s : State) (x : SlotSt) :
    (s.putSlot x).pending = s.pending ∧ (s.putSlot x).outbox = s.outbox ∧ (s.putSlot x).fresh = s.fresh ∧ (s.putSlot x).clock = s.clock ∧
    (s.putSlot x).now = s.now ∧ (s.putSlot x).latches = s.latches ∧ (s.putSlot x).regs = s.regs ∧ (s.putSlot x).busy = s.busy ∧
    (s.putSlot x).notReady = s.notReady ∧ (s.putSlot x).waits = s.waits ∧ (s.putSlot x).mem = s.mem ∧ (s.putSlot x).fix = s.fix ∧
    (s.putSlot x).pwr = s.pwr ∧ (s.putSlot x).flt = s.flt ∧ (s.putSlot x).sch = s.sch ∧ (s.putSlot x).cmd = s.cmd ∧
    (s.putSlot x).brg = s.brg ∧ (s.putSlot x).zwx = s.zwx ∧ (s.putSlot x).fl = s.fl ∧ (s.putSlot x).sec = s.sec ∧
    (s.putSlot x).mgmt = s.mgmt ∧ (s.putSlot x).ar = s.ar ∧ (s.putSlot x).idx = s.idx ∧ (s.putSlot x).kv = s.kv ∧
    (s.putSlot x).gen = s.gen :=
  ⟨rfl, rfl, rfl, rfl, rfl, rfl, rfl, rfl, rfl, rfl, rfl, rfl, rfl, rfl, rfl, rfl, rfl, rfl, rfl, rfl, rfl, rfl, rfl, rfl, rfl⟩

@[simp] theorem State.putSlot_mm (s : State) (x : SlotSt) : (s.putSlot x).mm =
    { s.mm with slots := s.mm.slots.filter (fun y => !(y.island == x.island && y.slot == x.slot)) ++ [x] } := rfl

@[simp] theorem State.setModel_frame (s : State) (m : ModelSt) :
    (s.setModel m).pending = s.pending ∧ (s.setModel m).outbox = s.outbox ∧ (s.setModel m).fresh = s.fresh ∧
    (s.setModel m).clock = s.clock ∧ (s.setModel m).now = s.now ∧ (s.setModel m).latches = s.latches ∧ (s.setModel m).regs = s.regs ∧
    (s.setModel m).busy = s.busy ∧ (s.setModel m).notReady = s.notReady ∧ (s.setModel m).waits = s.waits ∧ (s.setModel m).mem = s.mem ∧
    (s.setModel m).fix = s.fix ∧ (s.setModel m).pwr = s.pwr ∧ (s.setModel m).flt = s.flt ∧ (s.setModel m).mm = s.mm ∧
    (s.setModel m).sch = s.sch ∧ (s.setModel m).cmd = s.cmd ∧ (s.setModel m).brg = s.brg ∧ (s.setModel m).zwx = s.zwx ∧
    (s.setModel m).fl = s.fl ∧ (s.setModel m).sec = s.sec ∧ (s.setModel m).mgmt = s.mgmt ∧ (s.setModel m).ar = s.ar ∧
    (s.setModel m).idx = s.idx ∧ (s.setModel m).kv = s.kv :=
  ⟨rfl, rfl, rfl, rfl, rfl, rfl, rfl, rfl, rfl, rfl, rfl, rfl, rfl, rfl, rfl, rfl, rfl, rfl, rfl, rfl, rfl, rfl, rfl, rfl, rfl⟩

@[simp] theorem State.setModel_gen (s : State) (m : ModelSt) : (s.setModel m).gen =
    { s.gen with model := m } := rfl

@[simp] theorem State.updIndex_frame (s : State) (n : Nat) (f : Index → Index) :
    (s.updIndex n f).pending = s.pending ∧ (s.updIndex n f).outbox = s.outbox ∧ (s.updIndex n f).fresh = s.fresh ∧
    (s.updIndex n f).clock = s.clock ∧ (s.updIndex n f).now = s.now ∧ (s.updIndex n f).latches = s.latches ∧
    (s.updIndex n f).regs = s.regs ∧ (s.updIndex n f).busy = s.busy ∧ (s.updIndex n f).notReady = s.notReady ∧
    (s.updIndex n f).waits = s.waits ∧ (s.updIndex n f).mem = s.mem ∧ (s.updIndex n f).fix = s.fix ∧ (s.updIndex n f).pwr = s.pwr ∧
    (s.updIndex n f).flt = s.flt ∧ (s.updIndex n f).mm = s.mm ∧ (s.updIndex n f).sch = s.sch ∧ (s.updIndex n f).cmd = s.cmd ∧
    (s.updIndex n f).brg = s.brg ∧ (s.updIndex n f).zwx = s.zwx ∧ (s.updIndex n f).fl = s.fl ∧ (s.updIndex n f).sec = s.sec ∧
    (s.updIndex n f).mgmt = s.mgmt ∧ (s.updIndex n f).ar = s.ar ∧ (s.updIndex n f).kv = s.kv ∧ (s.updIndex n f).gen = s.gen :=
  ⟨rfl, rfl, rfl, rfl, rfl, rfl, rfl, rfl, rfl, rfl, rfl, rfl, rfl, rfl, rfl, rfl, rfl, rfl, rfl, rfl, rfl, rfl, rfl, rfl, rfl⟩

@[simp] theorem State.updIndex_idx (s : State) (n : Nat) (f : Index → Index) : (s.updIndex n f).idx =
    { s.idx with indexes := updWhere (fun x => x.no == n) f s.idx.indexes } := rfl

@[simp] theorem State.putShoalSt_frame (s : State) (x : ShoalSt) :
    (s.putShoalSt x).pending = s.pending ∧ (s.putShoalSt x).outbox = s.outbox ∧ (s.putShoalSt x).fresh = s.fresh ∧
    (s.putShoalSt x).clock = s.clock ∧ (s.putShoalSt x).now = s.now ∧ (s.putShoalSt x).latches = s.latches ∧
    (s.putShoalSt x).regs = s.regs ∧ (s.putShoalSt x).busy = s.busy ∧ (s.putShoalSt x).notReady = s.notReady ∧
    (s.putShoalSt x).waits = s.waits ∧ (s.putShoalSt x).mem = s.mem ∧ (s.putShoalSt x).fix = s.fix ∧ (s.putShoalSt x).pwr = s.pwr ∧
    (s.putShoalSt x).flt = s.flt ∧ (s.putShoalSt x).mm = s.mm ∧ (s.putShoalSt x).sch = s.sch ∧ (s.putShoalSt x).cmd = s.cmd ∧
    (s.putShoalSt x).brg = s.brg ∧ (s.putShoalSt x).zwx = s.zwx ∧ (s.putShoalSt x).fl = s.fl ∧ (s.putShoalSt x).sec = s.sec ∧
    (s.putShoalSt x).mgmt = s.mgmt ∧ (s.putShoalSt x).ar = s.ar ∧ (s.putShoalSt x).kv = s.kv ∧ (s.putShoalSt x).gen = s.gen :=
  ⟨rfl, rfl, rfl, rfl, rfl, rfl, rfl, rfl, rfl, rfl, rfl, rfl, rfl, rfl, rfl, rfl, rfl, rfl, rfl, rfl, rfl, rfl, rfl, rfl, rfl⟩

@[simp] theorem State.putShoalSt_idx (s : State) (x : ShoalSt) : (s.putShoalSt x).idx =
    { s.idx with shoals := s.idx.shoals.filter (fun y => !(y.idx == x.idx && y.shoal == x.shoal)) ++ [x] } := rfl

@[simp] theorem State.putFilt_frame (s : State) (x : FiltSt) :
    (s.putFilt x).pending = s.pending ∧ (s.putFilt x).outbox = s.outbox ∧ (s.putFilt x).fresh = s.fresh ∧ (s.putFilt x).clock = s.clock ∧
    (s.putFilt x).now = s.now ∧ (s.putFilt x).latches = s.latches ∧ (s.putFilt x).regs = s.regs ∧ (s.putFilt x).busy = s.busy ∧
    (s.putFilt x).notReady = s.notReady ∧ (s.putFilt x).waits = s.waits ∧ (s.putFilt x).mem = s.mem ∧ (s.putFilt x).fix = s.fix ∧
    (s.putFilt x).pwr = s.pwr ∧ (s.putFilt x).flt = s.flt ∧ (s.putFilt x).mm = s.mm ∧ (s.putFilt x).sch = s.sch ∧
    (s.putFilt x).cmd = s.cmd ∧ (s.putFilt x).brg = s.brg ∧ (s.putFilt x).zwx = s.zwx ∧ (s.putFilt x).fl = s.fl ∧
    (s.putFilt x).sec = s.sec ∧ (s.putFilt x).mgmt = s.mgmt ∧ (s.putFilt x).ar = s.ar ∧ (s.putFilt x).kv = s.kv ∧
    (s.putFilt x).gen = s.gen :=
  ⟨rfl, rfl, rfl, rfl, rfl, rfl, rfl, rfl, rfl, rfl, rfl, rfl, rfl, rfl, rfl, rfl, rfl, rfl, rfl, rfl, rfl, rfl, rfl, rfl, rfl⟩

@[simp] theorem State.putFilt_idx (s : State) (x : FiltSt) : (s.putFilt x).idx =
    { s.idx with filts := s.idx.filts.filter (fun y => !(y.func == x.func && y.handle == x.handle)) ++ [x] } := rfl

@[simp] theorem State.updKv_frame (s : State) (ctx : Nat) (f : KvCtx → KvCtx) :
    (s.updKv ctx f).pending = s.pending ∧ (s.updKv ctx f).outbox = s.outbox ∧ (s.updKv ctx f).fresh = s.fresh ∧
    (s.updKv ctx f).clock = s.clock ∧ (s.updKv ctx f).now = s.now ∧ (s.updKv ctx f).latches = s.latches ∧ (s.updKv ctx f).regs = s.regs ∧
    (s.updKv ctx f).busy = s.busy ∧ (s.updKv ctx f).notReady = s.notReady ∧ (s.updKv ctx f).waits = s.waits ∧ (s.updKv ctx f).mem = s.mem ∧
    (s.updKv ctx f).fix = s.fix ∧ (s.updKv ctx f).pwr = s.pwr ∧ (s.updKv ctx f).flt = s.flt ∧ (s.updKv ctx f).mm = s.mm ∧
    (s.updKv ctx f).sch = s.sch ∧ (s.updKv ctx f).cmd = s.cmd ∧ (s.updKv ctx f).brg = s.brg ∧ (s.updKv ctx f).zwx = s.zwx ∧
    (s.updKv ctx f).fl = s.fl ∧ (s.updKv ctx f).sec = s.sec ∧ (s.updKv ctx f).mgmt = s.mgmt ∧ (s.updKv ctx f).ar = s.ar ∧
    (s.updKv ctx f).idx = s.idx ∧ (s.updKv ctx f).gen = s.gen :=
  ⟨rfl, rfl, rfl, rfl, rfl, rfl, rfl, rfl, rfl, rfl, rfl, rfl, rfl, rfl, rfl, rfl, rfl, rfl, rfl, rfl, rfl, rfl, rfl, rfl, rfl⟩

@[simp] theorem State.updKv_kv (s : State) (ctx : Nat) (f : KvCtx → KvCtx) : (s.updKv ctx f).kv =
    { s.kv with ctxs := updWhere (fun c => c.ctx == ctx) f s.kv.ctxs } := rfl

@[simp] theorem State.updSeq_frame (s : State) (slot : Nat) (f : Seq → Seq) :
    (s.updSeq slot f).pending = s.pending ∧ (s.updSeq slot f).outbox = s.outbox ∧ (s.updSeq slot f).fresh = s.fresh ∧
    (s.updSeq slot f).clock = s.clock ∧ (s.updSeq slot f).now = s.now ∧ (s.updSeq slot f).latches = s.latches ∧
    (s.updSeq slot f).regs = s.regs ∧ (s.updSeq slot f).busy = s.busy ∧ (s.updSeq slot f).notReady = s.notReady ∧
    (s.updSeq slot f).waits = s.waits ∧ (s.updSeq slot f).mem = s.mem ∧ (s.updSeq slot f).fix = s.fix ∧ (s.updSeq slot f).pwr = s.pwr ∧
    (s.updSeq slot f).flt = s.flt ∧ (s.updSeq slot f).mm = s.mm ∧ (s.updSeq slot f).sch = s.sch ∧ (s.updSeq slot f).cmd = s.cmd ∧
    (s.updSeq slot f).brg = s.brg ∧ (s.updSeq slot f).zwx = s.zwx ∧ (s.updSeq slot f).fl = s.fl ∧ (s.updSeq slot f).sec = s.sec ∧
    (s.updSeq slot f).mgmt = s.mgmt ∧ (s.updSeq slot f).ar = s.ar ∧ (s.updSeq slot f).idx = s.idx ∧ (s.updSeq slot f).kv = s.kv :=
  ⟨rfl, rfl, rfl, rfl, rfl, rfl, rfl, rfl, rfl, rfl, rfl, rfl, rfl, rfl, rfl, rfl, rfl, rfl, rfl, rfl, rfl, rfl, rfl, rfl, rfl⟩

@[simp] theorem State.updSeq_gen (s : State) (slot : Nat) (f : Seq → Seq) : (s.updSeq slot f).gen =
    { s.gen with seqs := updWhere (fun q => q.slot == slot) f s.gen.seqs } := rfl

@[simp] theorem State.dropRuns_frame (s : State) (p : RunList → Bool) :
    (s.dropRuns p).pending = s.pending ∧ (s.dropRuns p).outbox = s.outbox ∧ (s.dropRuns p).fresh = s.fresh ∧
    (s.dropRuns p).clock = s.clock ∧ (s.dropRuns p).now = s.now ∧ (s.dropRuns p).latches = s.latches ∧ (s.dropRuns p).regs = s.regs ∧
    (s.dropRuns p).busy = s.busy ∧ (s.dropRuns p).notReady = s.notReady ∧ (s.dropRuns p).waits = s.waits ∧ (s.dropRuns p).mem = s.mem ∧
    (s.dropRuns p).fix = s.fix ∧ (s.dropRuns p).pwr = s.pwr ∧ (s.dropRuns p).flt = s.flt ∧ (s.dropRuns p).sch = s.sch ∧
    (s.dropRuns p).cmd = s.cmd ∧ (s.dropRuns p).brg = s.brg ∧ (s.dropRuns p).zwx = s.zwx ∧ (s.dropRuns p).fl = s.fl ∧
    (s.dropRuns p).sec = s.sec ∧ (s.dropRuns p).mgmt = s.mgmt ∧ (s.dropRuns p).ar = s.ar ∧ (s.dropRuns p).idx = s.idx ∧
    (s.dropRuns p).kv = s.kv ∧ (s.dropRuns p).gen = s.gen :=
  ⟨rfl, rfl, rfl, rfl, rfl, rfl, rfl, rfl, rfl, rfl, rfl, rfl, rfl, rfl, rfl, rfl, rfl, rfl, rfl, rfl, rfl, rfl, rfl, rfl, rfl⟩

@[simp] theorem State.dropRuns_mm (s : State) (p : RunList → Bool) : (s.dropRuns p).mm =
    { s.mm with runs := s.mm.runs.filter (fun x => !p x) } := rfl

@[simp] theorem State.dropShare_frame (s : State) (owner : ShareOwner) :
    (s.dropShare owner).pending = s.pending ∧ (s.dropShare owner).outbox = s.outbox ∧ (s.dropShare owner).fresh = s.fresh ∧
    (s.dropShare owner).clock = s.clock ∧ (s.dropShare owner).now = s.now ∧ (s.dropShare owner).latches = s.latches ∧
    (s.dropShare owner).regs = s.regs ∧ (s.dropShare owner).busy = s.busy ∧ (s.dropShare owner).notReady = s.notReady ∧
    (s.dropShare owner).waits = s.waits ∧ (s.dropShare owner).mem = s.mem ∧ (s.dropShare owner).fix = s.fix ∧
    (s.dropShare owner).pwr = s.pwr ∧ (s.dropShare owner).flt = s.flt ∧ (s.dropShare owner).sch = s.sch ∧ (s.dropShare owner).cmd = s.cmd ∧
    (s.dropShare owner).brg = s.brg ∧ (s.dropShare owner).zwx = s.zwx ∧ (s.dropShare owner).fl = s.fl ∧ (s.dropShare owner).sec = s.sec ∧
    (s.dropShare owner).mgmt = s.mgmt ∧ (s.dropShare owner).ar = s.ar ∧ (s.dropShare owner).idx = s.idx ∧ (s.dropShare owner).kv = s.kv ∧
    (s.dropShare owner).gen = s.gen :=
  ⟨rfl, rfl, rfl, rfl, rfl, rfl, rfl, rfl, rfl, rfl, rfl, rfl, rfl, rfl, rfl, rfl, rfl, rfl, rfl, rfl, rfl, rfl, rfl, rfl, rfl⟩

@[simp] theorem State.dropShare_mm (s : State) (owner : ShareOwner) : (s.dropShare owner).mm =
    { s.mm with shares := s.mm.shares.filter (fun x => x.owner != owner) } := rfl

@[simp] theorem State.updPort_frame (s : State) (n : Nat) (f : Port → Port) :
    (s.updPort n f).pending = s.pending ∧ (s.updPort n f).outbox = s.outbox ∧ (s.updPort n f).fresh = s.fresh ∧
    (s.updPort n f).clock = s.clock ∧ (s.updPort n f).now = s.now ∧ (s.updPort n f).latches = s.latches ∧ (s.updPort n f).regs = s.regs ∧
    (s.updPort n f).busy = s.busy ∧ (s.updPort n f).notReady = s.notReady ∧ (s.updPort n f).waits = s.waits ∧ (s.updPort n f).mem = s.mem ∧
    (s.updPort n f).fix = s.fix ∧ (s.updPort n f).pwr = s.pwr ∧ (s.updPort n f).flt = s.flt ∧ (s.updPort n f).mm = s.mm ∧
    (s.updPort n f).sch = s.sch ∧ (s.updPort n f).cmd = s.cmd ∧ (s.updPort n f).brg = s.brg ∧ (s.updPort n f).fl = s.fl ∧
    (s.updPort n f).sec = s.sec ∧ (s.updPort n f).mgmt = s.mgmt ∧ (s.updPort n f).ar = s.ar ∧ (s.updPort n f).idx = s.idx ∧
    (s.updPort n f).kv = s.kv ∧ (s.updPort n f).gen = s.gen :=
  ⟨rfl, rfl, rfl, rfl, rfl, rfl, rfl, rfl, rfl, rfl, rfl, rfl, rfl, rfl, rfl, rfl, rfl, rfl, rfl, rfl, rfl, rfl, rfl, rfl, rfl⟩

@[simp] theorem State.updPort_zwx (s : State) (n : Nat) (f : Port → Port) : (s.updPort n f).zwx =
    { s.zwx with ports := updAt n f s.zwx.ports } := rfl

@[simp] theorem State.putEseq_frame (s : State) (x : EseqRx) :
    (s.putEseq x).pending = s.pending ∧ (s.putEseq x).outbox = s.outbox ∧ (s.putEseq x).fresh = s.fresh ∧ (s.putEseq x).clock = s.clock ∧
    (s.putEseq x).now = s.now ∧ (s.putEseq x).latches = s.latches ∧ (s.putEseq x).regs = s.regs ∧ (s.putEseq x).busy = s.busy ∧
    (s.putEseq x).notReady = s.notReady ∧ (s.putEseq x).waits = s.waits ∧ (s.putEseq x).mem = s.mem ∧ (s.putEseq x).fix = s.fix ∧
    (s.putEseq x).pwr = s.pwr ∧ (s.putEseq x).flt = s.flt ∧ (s.putEseq x).mm = s.mm ∧ (s.putEseq x).sch = s.sch ∧
    (s.putEseq x).cmd = s.cmd ∧ (s.putEseq x).brg = s.brg ∧ (s.putEseq x).fl = s.fl ∧ (s.putEseq x).sec = s.sec ∧
    (s.putEseq x).mgmt = s.mgmt ∧ (s.putEseq x).ar = s.ar ∧ (s.putEseq x).idx = s.idx ∧ (s.putEseq x).kv = s.kv ∧
    (s.putEseq x).gen = s.gen :=
  ⟨rfl, rfl, rfl, rfl, rfl, rfl, rfl, rfl, rfl, rfl, rfl, rfl, rfl, rfl, rfl, rfl, rfl, rfl, rfl, rfl, rfl, rfl, rfl, rfl, rfl⟩

@[simp] theorem State.putEseq_zwx (s : State) (x : EseqRx) : (s.putEseq x).zwx =
    { s.zwx with
    eseqRx := s.zwx.eseqRx.filter (fun e => !(e.src == x.src && e.cls == x.cls && e.group == x.group)) ++ [x] } := rfl

@[simp] theorem State.pruneFwds_frame (s : State) :
    s.pruneFwds.pending = s.pending ∧ s.pruneFwds.outbox = s.outbox ∧ s.pruneFwds.fresh = s.fresh ∧ s.pruneFwds.clock = s.clock ∧
    s.pruneFwds.now = s.now ∧ s.pruneFwds.latches = s.latches ∧ s.pruneFwds.regs = s.regs ∧ s.pruneFwds.busy = s.busy ∧
    s.pruneFwds.notReady = s.notReady ∧ s.pruneFwds.waits = s.waits ∧ s.pruneFwds.mem = s.mem ∧ s.pruneFwds.fix = s.fix ∧
    s.pruneFwds.pwr = s.pwr ∧ s.pruneFwds.flt = s.flt ∧ s.pruneFwds.sch = s.sch ∧ s.pruneFwds.cmd = s.cmd ∧ s.pruneFwds.brg = s.brg ∧
    s.pruneFwds.zwx = s.zwx ∧ s.pruneFwds.fl = s.fl ∧ s.pruneFwds.sec = s.sec ∧ s.pruneFwds.mgmt = s.mgmt ∧ s.pruneFwds.ar = s.ar ∧
    s.pruneFwds.idx = s.idx ∧ s.pruneFwds.kv = s.kv ∧ s.pruneFwds.gen = s.gen :=
  ⟨rfl, rfl, rfl, rfl, rfl, rfl, rfl, rfl, rfl, rfl, rfl, rfl, rfl, rfl, rfl, rfl, rfl, rfl, rfl, rfl, rfl, rfl, rfl, rfl, rfl⟩

@[simp] theorem State.pruneFwds_mm (s : State) : s.pruneFwds.mm =
    { s.mm with fwds := s.mm.fwds.foldl (fun kept f =>
      if s.mm.slots.any (fun x => x.names f.old f.armed) || kept.any (fun k => k.new == f.old) then kept ++ [f] else kept) [] } := rfl

@[simp] theorem State.unforward_frame (s : State) (pages : List Nat) :
    (s.unforward pages).pending = s.pending ∧ (s.unforward pages).outbox = s.outbox ∧ (s.unforward pages).fresh = s.fresh ∧
    (s.unforward pages).clock = s.clock ∧ (s.unforward pages).now = s.now ∧ (s.unforward pages).latches = s.latches ∧
    (s.unforward pages).regs = s.regs ∧ (s.unforward pages).busy = s.busy ∧ (s.unforward pages).notReady = s.notReady ∧
    (s.unforward pages).waits = s.waits ∧ (s.unforward pages).mem = s.mem ∧ (s.unforward pages).fix = s.fix ∧
    (s.unforward pages).pwr = s.pwr ∧ (s.unforward pages).flt = s.flt ∧ (s.unforward pages).sch = s.sch ∧ (s.unforward pages).cmd = s.cmd ∧
    (s.unforward pages).brg = s.brg ∧ (s.unforward pages).zwx = s.zwx ∧ (s.unforward pages).fl = s.fl ∧ (s.unforward pages).sec = s.sec ∧
    (s.unforward pages).mgmt = s.mgmt ∧ (s.unforward pages).ar = s.ar ∧ (s.unforward pages).idx = s.idx ∧ (s.unforward pages).kv = s.kv ∧
    (s.unforward pages).gen = s.gen :=
  ⟨rfl, rfl, rfl, rfl, rfl, rfl, rfl, rfl, rfl, rfl, rfl, rfl, rfl, rfl, rfl, rfl, rfl, rfl, rfl, rfl, rfl, rfl, rfl, rfl, rfl⟩

@[simp] theorem State.unforward_mm (s : State) (pages : List Nat) : (s.unforward pages).mm =
    { s.mm with fwds := s.mm.fwds.map (fun f => if pages.contains f.new then { f with new := f.old } else f) } := rfl

@[simp] theorem State.updStack_frame (s : State) (stack : Nat) (f : StackSt → StackSt) :
    (s.updStack stack f).pending = s.pending ∧ (s.updStack stack f).outbox = s.outbox ∧ (s.updStack stack f).fresh = s.fresh ∧
    (s.updStack stack f).clock = s.clock ∧ (s.updStack stack f).now = s.now ∧ (s.updStack stack f).latches = s.latches ∧
    (s.updStack stack f).regs = s.regs ∧ (s.updStack stack f).busy = s.busy ∧ (s.updStack stack f).notReady = s.notReady ∧
    (s.updStack stack f).waits = s.waits ∧ (s.updStack stack f).mem = s.mem ∧ (s.updStack stack f).fix = s.fix ∧
    (s.updStack stack f).pwr = s.pwr ∧ (s.updStack stack f).flt = s.flt ∧ (s.updStack stack f).sch = s.sch ∧
    (s.updStack stack f).cmd = s.cmd ∧ (s.updStack stack f).brg = s.brg ∧ (s.updStack stack f).zwx = s.zwx ∧
    (s.updStack stack f).fl = s.fl ∧ (s.updStack stack f).sec = s.sec ∧ (s.updStack stack f).mgmt = s.mgmt ∧
    (s.updStack stack f).ar = s.ar ∧ (s.updStack stack f).idx = s.idx ∧ (s.updStack stack f).kv = s.kv ∧ (s.updStack stack f).gen = s.gen :=
  ⟨rfl, rfl, rfl, rfl, rfl, rfl, rfl, rfl, rfl, rfl, rfl, rfl, rfl, rfl, rfl, rfl, rfl, rfl, rfl, rfl, rfl, rfl, rfl, rfl, rfl⟩

@[simp] theorem State.updStack_mm (s : State) (stack : Nat) (f : StackSt → StackSt) : (s.updStack stack f).mm =
    { s.mm with stk := updAt stack f s.mm.stk } := rfl

@[simp] theorem State.pruneRates_frame (s : State) (due : Nat) :
    (s.pruneRates due).pending = s.pending ∧ (s.pruneRates due).outbox = s.outbox ∧ (s.pruneRates due).fresh = s.fresh ∧
    (s.pruneRates due).clock = s.clock ∧ (s.pruneRates due).now = s.now ∧ (s.pruneRates due).latches = s.latches ∧
    (s.pruneRates due).regs = s.regs ∧ (s.pruneRates due).busy = s.busy ∧ (s.pruneRates due).notReady = s.notReady ∧
    (s.pruneRates due).waits = s.waits ∧ (s.pruneRates due).mem = s.mem ∧ (s.pruneRates due).fix = s.fix ∧ (s.pruneRates due).pwr = s.pwr ∧
    (s.pruneRates due).flt = s.flt ∧ (s.pruneRates due).mm = s.mm ∧ (s.pruneRates due).sch = s.sch ∧ (s.pruneRates due).cmd = s.cmd ∧
    (s.pruneRates due).brg = s.brg ∧ (s.pruneRates due).zwx = s.zwx ∧ (s.pruneRates due).fl = s.fl ∧ (s.pruneRates due).sec = s.sec ∧
    (s.pruneRates due).ar = s.ar ∧ (s.pruneRates due).idx = s.idx ∧ (s.pruneRates due).kv = s.kv ∧ (s.pruneRates due).gen = s.gen :=
  ⟨rfl, rfl, rfl, rfl, rfl, rfl, rfl, rfl, rfl, rfl, rfl, rfl, rfl, rfl, rfl, rfl, rfl, rfl, rfl, rfl, rfl, rfl, rfl, rfl, rfl⟩

@[simp] theorem State.pruneRates_mgmt (s : State) (due : Nat) : (s.pruneRates due).mgmt =
    { s.mgmt with rates := s.mgmt.rates.filter (fun e => decide (due ≤ e.2.1 + 65535000000)) } := rfl

@[simp] theorem State.putFw_frame (s : State) (b : Bool) (img : List Byte) :
    (s.putFw b img).pending = s.pending ∧ (s.putFw b img).outbox = s.outbox ∧ (s.putFw b img).fresh = s.fresh ∧
    (s.putFw b img).clock = s.clock ∧ (s.putFw b img).now = s.now ∧ (s.putFw b img).latches = s.latches ∧ (s.putFw b img).regs = s.regs ∧
    (s.putFw b img).busy = s.busy ∧ (s.putFw b img).notReady = s.notReady ∧ (s.putFw b img).waits = s.waits ∧ (s.putFw b img).mem = s.mem ∧
    (s.putFw b img).fix = s.fix ∧ (s.putFw b img).pwr = s.pwr ∧ (s.putFw b img).flt = s.flt ∧ (s.putFw b img).mm = s.mm ∧
    (s.putFw b img).sch = s.sch ∧ (s.putFw b img).cmd = s.cmd ∧ (s.putFw b img).brg = s.brg ∧ (s.putFw b img).zwx = s.zwx ∧
    (s.putFw b img).fl = s.fl ∧ (s.putFw b img).mgmt = s.mgmt ∧ (s.putFw b img).ar = s.ar ∧ (s.putFw b img).idx = s.idx ∧
    (s.putFw b img).kv = s.kv ∧ (s.putFw b img).gen = s.gen :=
  ⟨rfl, rfl, rfl, rfl, rfl, rfl, rfl, rfl, rfl, rfl, rfl, rfl, rfl, rfl, rfl, rfl, rfl, rfl, rfl, rfl, rfl, rfl, rfl, rfl, rfl⟩

@[simp] theorem State.putFw_sec (s : State) (b : Bool) (img : List Byte) : (s.putFw b img).sec =
    if b then { s.sec with slotB := img } else { s.sec with slotA := img } := rfl

@[simp] theorem State.takeMark_frame (s : State) (src : Nat) (epoch : Nat) (fresh : Bool) :
    (s.takeMark src epoch fresh).pending = s.pending ∧ (s.takeMark src epoch fresh).outbox = s.outbox ∧
    (s.takeMark src epoch fresh).fresh = s.fresh ∧ (s.takeMark src epoch fresh).clock = s.clock ∧
    (s.takeMark src epoch fresh).now = s.now ∧ (s.takeMark src epoch fresh).latches = s.latches ∧
    (s.takeMark src epoch fresh).regs = s.regs ∧ (s.takeMark src epoch fresh).busy = s.busy ∧
    (s.takeMark src epoch fresh).notReady = s.notReady ∧ (s.takeMark src epoch fresh).waits = s.waits ∧
    (s.takeMark src epoch fresh).mem = s.mem ∧ (s.takeMark src epoch fresh).fix = s.fix ∧ (s.takeMark src epoch fresh).pwr = s.pwr ∧
    (s.takeMark src epoch fresh).flt = s.flt ∧ (s.takeMark src epoch fresh).mm = s.mm ∧ (s.takeMark src epoch fresh).sch = s.sch ∧
    (s.takeMark src epoch fresh).cmd = s.cmd ∧ (s.takeMark src epoch fresh).brg = s.brg ∧ (s.takeMark src epoch fresh).fl = s.fl ∧
    (s.takeMark src epoch fresh).sec = s.sec ∧ (s.takeMark src epoch fresh).mgmt = s.mgmt ∧ (s.takeMark src epoch fresh).ar = s.ar ∧
    (s.takeMark src epoch fresh).kv = s.kv ∧ (s.takeMark src epoch fresh).gen = s.gen :=
  ⟨rfl, rfl, rfl, rfl, rfl, rfl, rfl, rfl, rfl, rfl, rfl, rfl, rfl, rfl, rfl, rfl, rfl, rfl, rfl, rfl, rfl, rfl, rfl, rfl⟩

@[simp] theorem State.wr_frame (s : State) (a : Nat) (v : Nat) :
    (s.wr a v).pending = s.pending ∧ (s.wr a v).outbox = s.outbox ∧ (s.wr a v).fresh = s.fresh ∧ (s.wr a v).clock = s.clock ∧
    (s.wr a v).now = s.now ∧ (s.wr a v).latches = s.latches ∧ (s.wr a v).busy = s.busy ∧ (s.wr a v).notReady = s.notReady ∧
    (s.wr a v).waits = s.waits ∧ (s.wr a v).mem = s.mem ∧ (s.wr a v).fix = s.fix ∧ (s.wr a v).pwr = s.pwr ∧ (s.wr a v).flt = s.flt ∧
    (s.wr a v).mm = s.mm ∧ (s.wr a v).sch = s.sch ∧ (s.wr a v).cmd = s.cmd ∧ (s.wr a v).brg = s.brg ∧ (s.wr a v).zwx = s.zwx ∧
    (s.wr a v).fl = s.fl ∧ (s.wr a v).sec = s.sec ∧ (s.wr a v).mgmt = s.mgmt ∧ (s.wr a v).ar = s.ar ∧ (s.wr a v).idx = s.idx ∧
    (s.wr a v).kv = s.kv ∧ (s.wr a v).gen = s.gen :=
  ⟨rfl, rfl, rfl, rfl, rfl, rfl, rfl, rfl, rfl, rfl, rfl, rfl, rfl, rfl, rfl, rfl, rfl, rfl, rfl, rfl, rfl, rfl, rfl, rfl, rfl⟩

@[simp] theorem State.wr_regs (s : State) (a : Nat) (v : Nat) : (s.wr a v).regs =
    mapPut (resetWord a) a (BitVec.ofNat 32 v) s.regs := rfl

@[simp] theorem State.emit_frame (s : State) (o : Out) :
    (s.emit o).pending = s.pending ∧ (s.emit o).fresh = s.fresh ∧ (s.emit o).clock = s.clock ∧ (s.emit o).now = s.now ∧
    (s.emit o).latches = s.latches ∧ (s.emit o).regs = s.regs ∧ (s.emit o).busy = s.busy ∧ (s.emit o).notReady = s.notReady ∧
    (s.emit o).waits = s.waits ∧ (s.emit o).mem = s.mem ∧ (s.emit o).fix = s.fix ∧ (s.emit o).pwr = s.pwr ∧ (s.emit o).flt = s.flt ∧
    (s.emit o).mm = s.mm ∧ (s.emit o).sch = s.sch ∧ (s.emit o).cmd = s.cmd ∧ (s.emit o).brg = s.brg ∧ (s.emit o).zwx = s.zwx ∧
    (s.emit o).fl = s.fl ∧ (s.emit o).sec = s.sec ∧ (s.emit o).mgmt = s.mgmt ∧ (s.emit o).ar = s.ar ∧ (s.emit o).idx = s.idx ∧
    (s.emit o).kv = s.kv ∧ (s.emit o).gen = s.gen :=
  ⟨rfl, rfl, rfl, rfl, rfl, rfl, rfl, rfl, rfl, rfl, rfl, rfl, rfl, rfl, rfl, rfl, rfl, rfl, rfl, rfl, rfl, rfl, rfl, rfl, rfl⟩

@[simp] theorem State.emit_outbox (s : State) (o : Out) : (s.emit o).outbox =
    s.outbox ++ [o] := rfl

@[simp] theorem State.emits_frame (s : State) (os : List Out) :
    (s.emits os).pending = s.pending ∧ (s.emits os).fresh = s.fresh ∧ (s.emits os).clock = s.clock ∧ (s.emits os).now = s.now ∧
    (s.emits os).latches = s.latches ∧ (s.emits os).regs = s.regs ∧ (s.emits os).busy = s.busy ∧ (s.emits os).notReady = s.notReady ∧
    (s.emits os).waits = s.waits ∧ (s.emits os).mem = s.mem ∧ (s.emits os).fix = s.fix ∧ (s.emits os).pwr = s.pwr ∧
    (s.emits os).flt = s.flt ∧ (s.emits os).mm = s.mm ∧ (s.emits os).sch = s.sch ∧ (s.emits os).cmd = s.cmd ∧ (s.emits os).brg = s.brg ∧
    (s.emits os).zwx = s.zwx ∧ (s.emits os).fl = s.fl ∧ (s.emits os).sec = s.sec ∧ (s.emits os).mgmt = s.mgmt ∧ (s.emits os).ar = s.ar ∧
    (s.emits os).idx = s.idx ∧ (s.emits os).kv = s.kv ∧ (s.emits os).gen = s.gen :=
  ⟨rfl, rfl, rfl, rfl, rfl, rfl, rfl, rfl, rfl, rfl, rfl, rfl, rfl, rfl, rfl, rfl, rfl, rfl, rfl, rfl, rfl, rfl, rfl, rfl, rfl⟩

@[simp] theorem State.emits_outbox (s : State) (os : List Out) : (s.emits os).outbox =
    s.outbox ++ os := rfl

@[simp] theorem State.draw_frame (s : State) (l : List Nat) :
    (s.draw l).2.pending = s.pending ∧ (s.draw l).2.outbox = s.outbox ∧ (s.draw l).2.clock = s.clock ∧ (s.draw l).2.now = s.now ∧
    (s.draw l).2.latches = s.latches ∧ (s.draw l).2.regs = s.regs ∧ (s.draw l).2.busy = s.busy ∧ (s.draw l).2.notReady = s.notReady ∧
    (s.draw l).2.waits = s.waits ∧ (s.draw l).2.mem = s.mem ∧ (s.draw l).2.fix = s.fix ∧ (s.draw l).2.pwr = s.pwr ∧
    (s.draw l).2.flt = s.flt ∧ (s.draw l).2.mm = s.mm ∧ (s.draw l).2.sch = s.sch ∧ (s.draw l).2.cmd = s.cmd ∧ (s.draw l).2.brg = s.brg ∧
    (s.draw l).2.zwx = s.zwx ∧ (s.draw l).2.fl = s.fl ∧ (s.draw l).2.sec = s.sec ∧ (s.draw l).2.mgmt = s.mgmt ∧ (s.draw l).2.ar = s.ar ∧
    (s.draw l).2.idx = s.idx ∧ (s.draw l).2.kv = s.kv ∧ (s.draw l).2.gen = s.gen :=
  ⟨rfl, rfl, rfl, rfl, rfl, rfl, rfl, rfl, rfl, rfl, rfl, rfl, rfl, rfl, rfl, rfl, rfl, rfl, rfl, rfl, rfl, rfl, rfl, rfl, rfl⟩

@[simp] theorem State.freeVal_frame (s : State) :
    s.freeVal.2.pending = s.pending ∧ s.freeVal.2.outbox = s.outbox ∧ s.freeVal.2.clock = s.clock ∧ s.freeVal.2.now = s.now ∧
    s.freeVal.2.latches = s.latches ∧ s.freeVal.2.regs = s.regs ∧ s.freeVal.2.busy = s.busy ∧ s.freeVal.2.notReady = s.notReady ∧
    s.freeVal.2.waits = s.waits ∧ s.freeVal.2.mem = s.mem ∧ s.freeVal.2.fix = s.fix ∧ s.freeVal.2.pwr = s.pwr ∧ s.freeVal.2.flt = s.flt ∧
    s.freeVal.2.mm = s.mm ∧ s.freeVal.2.sch = s.sch ∧ s.freeVal.2.cmd = s.cmd ∧ s.freeVal.2.brg = s.brg ∧ s.freeVal.2.zwx = s.zwx ∧
    s.freeVal.2.fl = s.fl ∧ s.freeVal.2.sec = s.sec ∧ s.freeVal.2.mgmt = s.mgmt ∧ s.freeVal.2.ar = s.ar ∧ s.freeVal.2.idx = s.idx ∧
    s.freeVal.2.kv = s.kv ∧ s.freeVal.2.gen = s.gen :=
  ⟨rfl, rfl, rfl, rfl, rfl, rfl, rfl, rfl, rfl, rfl, rfl, rfl, rfl, rfl, rfl, rfl, rfl, rfl, rfl, rfl, rfl, rfl, rfl, rfl, rfl⟩

@[simp] theorem State.setByte_frame (s : State) (a : Nat) (v : Byte) :
    (s.setByte a v).pending = s.pending ∧ (s.setByte a v).outbox = s.outbox ∧ (s.setByte a v).fresh = s.fresh ∧
    (s.setByte a v).clock = s.clock ∧ (s.setByte a v).now = s.now ∧ (s.setByte a v).latches = s.latches ∧ (s.setByte a v).regs = s.regs ∧
    (s.setByte a v).busy = s.busy ∧ (s.setByte a v).notReady = s.notReady ∧ (s.setByte a v).waits = s.waits ∧ (s.setByte a v).fix = s.fix ∧
    (s.setByte a v).pwr = s.pwr ∧ (s.setByte a v).flt = s.flt ∧ (s.setByte a v).mm = s.mm ∧ (s.setByte a v).sch = s.sch ∧
    (s.setByte a v).cmd = s.cmd ∧ (s.setByte a v).brg = s.brg ∧ (s.setByte a v).zwx = s.zwx ∧ (s.setByte a v).fl = s.fl ∧
    (s.setByte a v).sec = s.sec ∧ (s.setByte a v).mgmt = s.mgmt ∧ (s.setByte a v).ar = s.ar ∧ (s.setByte a v).idx = s.idx ∧
    (s.setByte a v).kv = s.kv ∧ (s.setByte a v).gen = s.gen :=
  ⟨rfl, rfl, rfl, rfl, rfl, rfl, rfl, rfl, rfl, rfl, rfl, rfl, rfl, rfl, rfl, rfl, rfl, rfl, rfl, rfl, rfl, rfl, rfl, rfl, rfl⟩

@[simp] theorem State.setByte_mem (s : State) (a : Nat) (v : Byte) : (s.setByte a v).mem =
    mapPut 0 a v s.mem := rfl

@[simp] theorem State.updObj_frame (s : State) (o : Obj) (f : Obj → Obj) :
    (s.updObj o f).pending = s.pending ∧ (s.updObj o f).outbox = s.outbox ∧ (s.updObj o f).fresh = s.fresh ∧
    (s.updObj o f).clock = s.clock ∧ (s.updObj o f).now = s.now ∧ (s.updObj o f).latches = s.latches ∧ (s.updObj o f).regs = s.regs ∧
    (s.updObj o f).busy = s.busy ∧ (s.updObj o f).notReady = s.notReady ∧ (s.updObj o f).waits = s.waits ∧ (s.updObj o f).mem = s.mem ∧
    (s.updObj o f).fix = s.fix ∧ (s.updObj o f).pwr = s.pwr ∧ (s.updObj o f).flt = s.flt ∧ (s.updObj o f).sch = s.sch ∧
    (s.updObj o f).cmd = s.cmd ∧ (s.updObj o f).brg = s.brg ∧ (s.updObj o f).zwx = s.zwx ∧ (s.updObj o f).fl = s.fl ∧
    (s.updObj o f).sec = s.sec ∧ (s.updObj o f).mgmt = s.mgmt ∧ (s.updObj o f).ar = s.ar ∧ (s.updObj o f).idx = s.idx ∧
    (s.updObj o f).kv = s.kv ∧ (s.updObj o f).gen = s.gen :=
  ⟨rfl, rfl, rfl, rfl, rfl, rfl, rfl, rfl, rfl, rfl, rfl, rfl, rfl, rfl, rfl, rfl, rfl, rfl, rfl, rfl, rfl, rfl, rfl, rfl, rfl⟩

@[simp] theorem State.updObj_mm (s : State) (o : Obj) (f : Obj → Obj) : (s.updObj o f).mm =
    { s.mm with objs := updWhere (fun x => x.func == o.func && x.handle == o.handle) f s.mm.objs } := rfl

@[simp] theorem State.putBlk_frame (s : State) (x : Blk) :
    (s.putBlk x).pending = s.pending ∧ (s.putBlk x).outbox = s.outbox ∧ (s.putBlk x).fresh = s.fresh ∧ (s.putBlk x).clock = s.clock ∧
    (s.putBlk x).now = s.now ∧ (s.putBlk x).latches = s.latches ∧ (s.putBlk x).regs = s.regs ∧ (s.putBlk x).busy = s.busy ∧
    (s.putBlk x).notReady = s.notReady ∧ (s.putBlk x).waits = s.waits ∧ (s.putBlk x).mem = s.mem ∧ (s.putBlk x).fix = s.fix ∧
    (s.putBlk x).pwr = s.pwr ∧ (s.putBlk x).flt = s.flt ∧ (s.putBlk x).mm = s.mm ∧ (s.putBlk x).sch = s.sch ∧ (s.putBlk x).cmd = s.cmd ∧
    (s.putBlk x).brg = s.brg ∧ (s.putBlk x).zwx = s.zwx ∧ (s.putBlk x).sec = s.sec ∧ (s.putBlk x).mgmt = s.mgmt ∧ (s.putBlk x).ar = s.ar ∧
    (s.putBlk x).idx = s.idx ∧ (s.putBlk x).kv = s.kv ∧ (s.putBlk x).gen = s.gen :=
  ⟨rfl, rfl, rfl, rfl, rfl, rfl, rfl, rfl, rfl, rfl, rfl, rfl, rfl, rfl, rfl, rfl, rfl, rfl, rfl, rfl, rfl, rfl, rfl, rfl, rfl⟩

@[simp] theorem State.putBlk_fl (s : State) (x : Blk) : (s.putBlk x).fl =
    { s.fl with blocks := s.fl.blocks.filter (fun y => !(y.ch == x.ch && y.blk == x.blk)) ++ [x] } := rfl

@[simp] theorem State.nextOn_frame (s : State) (c : Nat) :
    (s.nextOn c).2.pending = s.pending ∧ (s.nextOn c).2.outbox = s.outbox ∧ (s.nextOn c).2.fresh = s.fresh ∧
    (s.nextOn c).2.clock = s.clock ∧ (s.nextOn c).2.now = s.now ∧ (s.nextOn c).2.latches = s.latches ∧ (s.nextOn c).2.regs = s.regs ∧
    (s.nextOn c).2.busy = s.busy ∧ (s.nextOn c).2.notReady = s.notReady ∧ (s.nextOn c).2.waits = s.waits ∧ (s.nextOn c).2.mem = s.mem ∧
    (s.nextOn c).2.fix = s.fix ∧ (s.nextOn c).2.pwr = s.pwr ∧ (s.nextOn c).2.flt = s.flt ∧ (s.nextOn c).2.mm = s.mm ∧
    (s.nextOn c).2.sch = s.sch ∧ (s.nextOn c).2.cmd = s.cmd ∧ (s.nextOn c).2.brg = s.brg ∧ (s.nextOn c).2.zwx = s.zwx ∧
    (s.nextOn c).2.sec = s.sec ∧ (s.nextOn c).2.mgmt = s.mgmt ∧ (s.nextOn c).2.ar = s.ar ∧ (s.nextOn c).2.idx = s.idx ∧
    (s.nextOn c).2.kv = s.kv ∧ (s.nextOn c).2.gen = s.gen :=
  ⟨rfl, rfl, rfl, rfl, rfl, rfl, rfl, rfl, rfl, rfl, rfl, rfl, rfl, rfl, rfl, rfl, rfl, rfl, rfl, rfl, rfl, rfl, rfl, rfl, rfl⟩

@[simp] theorem State.releaseReads_frame (s : State) (ch : Nat) :
    (s.releaseReads ch).pending = s.pending ∧ (s.releaseReads ch).outbox = s.outbox ∧ (s.releaseReads ch).fresh = s.fresh ∧
    (s.releaseReads ch).clock = s.clock ∧ (s.releaseReads ch).now = s.now ∧ (s.releaseReads ch).latches = s.latches ∧
    (s.releaseReads ch).regs = s.regs ∧ (s.releaseReads ch).busy = s.busy ∧ (s.releaseReads ch).notReady = s.notReady ∧
    (s.releaseReads ch).waits = s.waits ∧ (s.releaseReads ch).mem = s.mem ∧ (s.releaseReads ch).fix = s.fix ∧
    (s.releaseReads ch).pwr = s.pwr ∧ (s.releaseReads ch).flt = s.flt ∧ (s.releaseReads ch).mm = s.mm ∧ (s.releaseReads ch).sch = s.sch ∧
    (s.releaseReads ch).cmd = s.cmd ∧ (s.releaseReads ch).brg = s.brg ∧ (s.releaseReads ch).zwx = s.zwx ∧ (s.releaseReads ch).sec = s.sec ∧
    (s.releaseReads ch).mgmt = s.mgmt ∧ (s.releaseReads ch).ar = s.ar ∧ (s.releaseReads ch).idx = s.idx ∧ (s.releaseReads ch).kv = s.kv ∧
    (s.releaseReads ch).gen = s.gen :=
  ⟨rfl, rfl, rfl, rfl, rfl, rfl, rfl, rfl, rfl, rfl, rfl, rfl, rfl, rfl, rfl, rfl, rfl, rfl, rfl, rfl, rfl, rfl, rfl, rfl, rfl⟩

@[simp] theorem State.releaseReads_fl (s : State) (ch : Nat) : (s.releaseReads ch).fl =
    { s.fl with reads := updWhere (fun r => r.ch == ch) (fun r => { r with ahead := true }) s.fl.reads } := rfl

@[simp] theorem State.endXfer_frame (s : State) (o : XferOut) :
    (s.endXfer o).pending = s.pending ∧ (s.endXfer o).outbox = s.outbox ∧ (s.endXfer o).fresh = s.fresh ∧ (s.endXfer o).clock = s.clock ∧
    (s.endXfer o).now = s.now ∧ (s.endXfer o).latches = s.latches ∧ (s.endXfer o).regs = s.regs ∧ (s.endXfer o).busy = s.busy ∧
    (s.endXfer o).notReady = s.notReady ∧ (s.endXfer o).waits = s.waits ∧ (s.endXfer o).mem = s.mem ∧ (s.endXfer o).fix = s.fix ∧
    (s.endXfer o).pwr = s.pwr ∧ (s.endXfer o).flt = s.flt ∧ (s.endXfer o).mm = s.mm ∧ (s.endXfer o).sch = s.sch ∧
    (s.endXfer o).cmd = s.cmd ∧ (s.endXfer o).brg = s.brg ∧ (s.endXfer o).fl = s.fl ∧ (s.endXfer o).sec = s.sec ∧
    (s.endXfer o).mgmt = s.mgmt ∧ (s.endXfer o).ar = s.ar ∧ (s.endXfer o).idx = s.idx ∧ (s.endXfer o).kv = s.kv ∧
    (s.endXfer o).gen = s.gen :=
  ⟨rfl, rfl, rfl, rfl, rfl, rfl, rfl, rfl, rfl, rfl, rfl, rfl, rfl, rfl, rfl, rfl, rfl, rfl, rfl, rfl, rfl, rfl, rfl, rfl, rfl⟩

@[simp] theorem State.endXfer_zwx (s : State) (o : XferOut) : (s.endXfer o).zwx =
    { s.zwx with xfers := s.zwx.xfers.erase o } := rfl

@[simp] theorem State.endMcasts_frame (s : State) :
    s.endMcasts.pending = s.pending ∧ s.endMcasts.outbox = s.outbox ∧ s.endMcasts.fresh = s.fresh ∧ s.endMcasts.clock = s.clock ∧
    s.endMcasts.now = s.now ∧ s.endMcasts.latches = s.latches ∧ s.endMcasts.regs = s.regs ∧ s.endMcasts.busy = s.busy ∧
    s.endMcasts.notReady = s.notReady ∧ s.endMcasts.waits = s.waits ∧ s.endMcasts.mem = s.mem ∧ s.endMcasts.fix = s.fix ∧
    s.endMcasts.pwr = s.pwr ∧ s.endMcasts.flt = s.flt ∧ s.endMcasts.mm = s.mm ∧ s.endMcasts.sch = s.sch ∧ s.endMcasts.cmd = s.cmd ∧
    s.endMcasts.brg = s.brg ∧ s.endMcasts.fl = s.fl ∧ s.endMcasts.sec = s.sec ∧ s.endMcasts.mgmt = s.mgmt ∧ s.endMcasts.ar = s.ar ∧
    s.endMcasts.idx = s.idx ∧ s.endMcasts.kv = s.kv ∧ s.endMcasts.gen = s.gen :=
  ⟨rfl, rfl, rfl, rfl, rfl, rfl, rfl, rfl, rfl, rfl, rfl, rfl, rfl, rfl, rfl, rfl, rfl, rfl, rfl, rfl, rfl, rfl, rfl, rfl, rfl⟩

@[simp] theorem State.endMcasts_zwx (s : State) : s.endMcasts.zwx =
    { s.zwx with xmcasts := s.zwx.xmcasts.filter (fun y => !y.attached.all (fun r => decide (y.total ≤ r.2))) } := rfl

@[simp] theorem State.updLive_frame (s : State) (r : CmdRef) (f : Live → Live) :
    (s.updLive r f).pending = s.pending ∧ (s.updLive r f).outbox = s.outbox ∧ (s.updLive r f).fresh = s.fresh ∧
    (s.updLive r f).clock = s.clock ∧ (s.updLive r f).now = s.now ∧ (s.updLive r f).latches = s.latches ∧ (s.updLive r f).regs = s.regs ∧
    (s.updLive r f).busy = s.busy ∧ (s.updLive r f).notReady = s.notReady ∧ (s.updLive r f).waits = s.waits ∧ (s.updLive r f).mem = s.mem ∧
    (s.updLive r f).fix = s.fix ∧ (s.updLive r f).pwr = s.pwr ∧ (s.updLive r f).flt = s.flt ∧ (s.updLive r f).mm = s.mm ∧
    (s.updLive r f).sch = s.sch ∧ (s.updLive r f).brg = s.brg ∧ (s.updLive r f).zwx = s.zwx ∧ (s.updLive r f).fl = s.fl ∧
    (s.updLive r f).sec = s.sec ∧ (s.updLive r f).mgmt = s.mgmt ∧ (s.updLive r f).ar = s.ar ∧ (s.updLive r f).idx = s.idx ∧
    (s.updLive r f).kv = s.kv ∧ (s.updLive r f).gen = s.gen :=
  ⟨rfl, rfl, rfl, rfl, rfl, rfl, rfl, rfl, rfl, rfl, rfl, rfl, rfl, rfl, rfl, rfl, rfl, rfl, rfl, rfl, rfl, rfl, rfl, rfl, rfl⟩

@[simp] theorem State.updLive_cmd (s : State) (r : CmdRef) (f : Live → Live) : (s.updLive r f).cmd =
    { s.cmd with live := updWhere (fun l => l.h.func == r.func && l.h.tag == r.tag) f s.cmd.live } := rfl

@[simp] theorem State.updChan_frame (s : State) (n : Nat) (f : Chan → Chan) :
    (s.updChan n f).pending = s.pending ∧ (s.updChan n f).outbox = s.outbox ∧ (s.updChan n f).fresh = s.fresh ∧
    (s.updChan n f).clock = s.clock ∧ (s.updChan n f).now = s.now ∧ (s.updChan n f).latches = s.latches ∧ (s.updChan n f).regs = s.regs ∧
    (s.updChan n f).busy = s.busy ∧ (s.updChan n f).notReady = s.notReady ∧ (s.updChan n f).waits = s.waits ∧ (s.updChan n f).mem = s.mem ∧
    (s.updChan n f).fix = s.fix ∧ (s.updChan n f).pwr = s.pwr ∧ (s.updChan n f).flt = s.flt ∧ (s.updChan n f).mm = s.mm ∧
    (s.updChan n f).cmd = s.cmd ∧ (s.updChan n f).brg = s.brg ∧ (s.updChan n f).zwx = s.zwx ∧ (s.updChan n f).fl = s.fl ∧
    (s.updChan n f).sec = s.sec ∧ (s.updChan n f).mgmt = s.mgmt ∧ (s.updChan n f).ar = s.ar ∧ (s.updChan n f).idx = s.idx ∧
    (s.updChan n f).kv = s.kv ∧ (s.updChan n f).gen = s.gen :=
  ⟨rfl, rfl, rfl, rfl, rfl, rfl, rfl, rfl, rfl, rfl, rfl, rfl, rfl, rfl, rfl, rfl, rfl, rfl, rfl, rfl, rfl, rfl, rfl, rfl, rfl⟩

@[simp] theorem State.updChan_sch (s : State) (n : Nat) (f : Chan → Chan) : (s.updChan n f).sch =
    { s.sch with chans := updWhere (fun c => c.num == n) f s.sch.chans } := rfl

@[simp] theorem State.updCtx_frame (s : State) (id : Nat) (f : Ctx → Ctx) :
    (s.updCtx id f).pending = s.pending ∧ (s.updCtx id f).outbox = s.outbox ∧ (s.updCtx id f).fresh = s.fresh ∧
    (s.updCtx id f).clock = s.clock ∧ (s.updCtx id f).now = s.now ∧ (s.updCtx id f).latches = s.latches ∧ (s.updCtx id f).regs = s.regs ∧
    (s.updCtx id f).busy = s.busy ∧ (s.updCtx id f).notReady = s.notReady ∧ (s.updCtx id f).waits = s.waits ∧ (s.updCtx id f).mem = s.mem ∧
    (s.updCtx id f).fix = s.fix ∧ (s.updCtx id f).pwr = s.pwr ∧ (s.updCtx id f).flt = s.flt ∧ (s.updCtx id f).mm = s.mm ∧
    (s.updCtx id f).cmd = s.cmd ∧ (s.updCtx id f).brg = s.brg ∧ (s.updCtx id f).zwx = s.zwx ∧ (s.updCtx id f).fl = s.fl ∧
    (s.updCtx id f).sec = s.sec ∧ (s.updCtx id f).mgmt = s.mgmt ∧ (s.updCtx id f).ar = s.ar ∧ (s.updCtx id f).idx = s.idx ∧
    (s.updCtx id f).kv = s.kv ∧ (s.updCtx id f).gen = s.gen :=
  ⟨rfl, rfl, rfl, rfl, rfl, rfl, rfl, rfl, rfl, rfl, rfl, rfl, rfl, rfl, rfl, rfl, rfl, rfl, rfl, rfl, rfl, rfl, rfl, rfl, rfl⟩

@[simp] theorem State.updCtx_sch (s : State) (id : Nat) (f : Ctx → Ctx) : (s.updCtx id f).sch =
    { s.sch with ctxs := updWhere (fun c => c.id == id) f s.sch.ctxs } := rfl

@[simp] theorem State.answerTime_frame (s : State) :
    s.answerTime.pending = s.pending ∧ s.answerTime.outbox = s.outbox ∧ s.answerTime.clock = s.clock ∧ s.answerTime.now = s.now ∧
    s.answerTime.latches = s.latches ∧ s.answerTime.regs = s.regs ∧ s.answerTime.busy = s.busy ∧ s.answerTime.notReady = s.notReady ∧
    s.answerTime.waits = s.waits ∧ s.answerTime.mem = s.mem ∧ s.answerTime.fix = s.fix ∧ s.answerTime.pwr = s.pwr ∧
    s.answerTime.flt = s.flt ∧ s.answerTime.mm = s.mm ∧ s.answerTime.sch = s.sch ∧ s.answerTime.brg = s.brg ∧ s.answerTime.zwx = s.zwx ∧
    s.answerTime.fl = s.fl ∧ s.answerTime.sec = s.sec ∧ s.answerTime.mgmt = s.mgmt ∧ s.answerTime.ar = s.ar ∧ s.answerTime.idx = s.idx ∧
    s.answerTime.kv = s.kv ∧ s.answerTime.gen = s.gen :=
  ⟨rfl, rfl, rfl, rfl, rfl, rfl, rfl, rfl, rfl, rfl, rfl, rfl, rfl, rfl, rfl, rfl, rfl, rfl, rfl, rfl, rfl, rfl, rfl, rfl⟩

@[simp] theorem State.unlatch_frame (s : State) (a : Nat) :
    (s.unlatch a).pending = s.pending ∧ (s.unlatch a).outbox = s.outbox ∧ (s.unlatch a).fresh = s.fresh ∧ (s.unlatch a).clock = s.clock ∧
    (s.unlatch a).now = s.now ∧ (s.unlatch a).regs = s.regs ∧ (s.unlatch a).busy = s.busy ∧ (s.unlatch a).notReady = s.notReady ∧
    (s.unlatch a).waits = s.waits ∧ (s.unlatch a).mem = s.mem ∧ (s.unlatch a).fix = s.fix ∧ (s.unlatch a).pwr = s.pwr ∧
    (s.unlatch a).flt = s.flt ∧ (s.unlatch a).mm = s.mm ∧ (s.unlatch a).sch = s.sch ∧ (s.unlatch a).cmd = s.cmd ∧
    (s.unlatch a).brg = s.brg ∧ (s.unlatch a).zwx = s.zwx ∧ (s.unlatch a).fl = s.fl ∧ (s.unlatch a).sec = s.sec ∧
    (s.unlatch a).mgmt = s.mgmt ∧ (s.unlatch a).ar = s.ar ∧ (s.unlatch a).idx = s.idx ∧ (s.unlatch a).kv = s.kv ∧
    (s.unlatch a).gen = s.gen :=
  ⟨rfl, rfl, rfl, rfl, rfl, rfl, rfl, rfl, rfl, rfl, rfl, rfl, rfl, rfl, rfl, rfl, rfl, rfl, rfl, rfl, rfl, rfl, rfl, rfl, rfl⟩

@[simp] theorem State.unlatch_latches (s : State) (a : Nat) : (s.unlatch a).latches =
    s.latches.filter (fun e => e.1 != a) := rfl

@[simp] theorem State.enableRing_frame (s : State) (ring : Nat) :
    (s.enableRing ring).pending = s.pending ∧ (s.enableRing ring).outbox = s.outbox ∧ (s.enableRing ring).fresh = s.fresh ∧
    (s.enableRing ring).clock = s.clock ∧ (s.enableRing ring).now = s.now ∧ (s.enableRing ring).latches = s.latches ∧
    (s.enableRing ring).regs = s.regs ∧ (s.enableRing ring).busy = s.busy ∧ (s.enableRing ring).notReady = s.notReady ∧
    (s.enableRing ring).waits = s.waits ∧ (s.enableRing ring).mem = s.mem ∧ (s.enableRing ring).fix = s.fix ∧
    (s.enableRing ring).pwr = s.pwr ∧ (s.enableRing ring).flt = s.flt ∧ (s.enableRing ring).mm = s.mm ∧ (s.enableRing ring).sch = s.sch ∧
    (s.enableRing ring).cmd = s.cmd ∧ (s.enableRing ring).fl = s.fl ∧ (s.enableRing ring).sec = s.sec ∧ (s.enableRing ring).mgmt = s.mgmt ∧
    (s.enableRing ring).ar = s.ar ∧ (s.enableRing ring).idx = s.idx ∧ (s.enableRing ring).kv = s.kv ∧ (s.enableRing ring).gen = s.gen :=
  ⟨rfl, rfl, rfl, rfl, rfl, rfl, rfl, rfl, rfl, rfl, rfl, rfl, rfl, rfl, rfl, rfl, rfl, rfl, rfl, rfl, rfl, rfl, rfl, rfl⟩

@[simp] theorem State.drawKey_frame (s : State) (f : Nat) :
    (s.drawKey f).pending = s.pending ∧ (s.drawKey f).outbox = s.outbox ∧ (s.drawKey f).fresh = s.fresh ∧ (s.drawKey f).clock = s.clock ∧
    (s.drawKey f).now = s.now ∧ (s.drawKey f).latches = s.latches ∧ (s.drawKey f).regs = s.regs ∧ (s.drawKey f).busy = s.busy ∧
    (s.drawKey f).notReady = s.notReady ∧ (s.drawKey f).waits = s.waits ∧ (s.drawKey f).mem = s.mem ∧ (s.drawKey f).fix = s.fix ∧
    (s.drawKey f).pwr = s.pwr ∧ (s.drawKey f).flt = s.flt ∧ (s.drawKey f).mm = s.mm ∧ (s.drawKey f).sch = s.sch ∧
    (s.drawKey f).cmd = s.cmd ∧ (s.drawKey f).brg = s.brg ∧ (s.drawKey f).zwx = s.zwx ∧ (s.drawKey f).fl = s.fl ∧
    (s.drawKey f).mgmt = s.mgmt ∧ (s.drawKey f).ar = s.ar ∧ (s.drawKey f).idx = s.idx ∧ (s.drawKey f).kv = s.kv ∧
    (s.drawKey f).gen = s.gen :=
  ⟨rfl, rfl, rfl, rfl, rfl, rfl, rfl, rfl, rfl, rfl, rfl, rfl, rfl, rfl, rfl, rfl, rfl, rfl, rfl, rfl, rfl, rfl, rfl, rfl, rfl⟩

@[simp] theorem State.drawKey_sec (s : State) (f : Nat) : (s.drawKey f).sec =
    { s.sec with
    atRest := s.sec.atRest.filter (fun k => k.1 != f) ++ [(f, s.sec.nextKey)], nextKey := s.sec.nextKey + 1 } := rfl

@[simp] theorem State.updQuery_frame (s : State) (r : CmdRef) (f : Query → Query) :
    (s.updQuery r f).pending = s.pending ∧ (s.updQuery r f).outbox = s.outbox ∧ (s.updQuery r f).fresh = s.fresh ∧
    (s.updQuery r f).clock = s.clock ∧ (s.updQuery r f).now = s.now ∧ (s.updQuery r f).latches = s.latches ∧
    (s.updQuery r f).regs = s.regs ∧ (s.updQuery r f).busy = s.busy ∧ (s.updQuery r f).notReady = s.notReady ∧
    (s.updQuery r f).waits = s.waits ∧ (s.updQuery r f).mem = s.mem ∧ (s.updQuery r f).fix = s.fix ∧ (s.updQuery r f).pwr = s.pwr ∧
    (s.updQuery r f).flt = s.flt ∧ (s.updQuery r f).mm = s.mm ∧ (s.updQuery r f).sch = s.sch ∧ (s.updQuery r f).cmd = s.cmd ∧
    (s.updQuery r f).brg = s.brg ∧ (s.updQuery r f).zwx = s.zwx ∧ (s.updQuery r f).fl = s.fl ∧ (s.updQuery r f).sec = s.sec ∧
    (s.updQuery r f).mgmt = s.mgmt ∧ (s.updQuery r f).ar = s.ar ∧ (s.updQuery r f).kv = s.kv ∧ (s.updQuery r f).gen = s.gen :=
  ⟨rfl, rfl, rfl, rfl, rfl, rfl, rfl, rfl, rfl, rfl, rfl, rfl, rfl, rfl, rfl, rfl, rfl, rfl, rfl, rfl, rfl, rfl, rfl, rfl, rfl⟩

@[simp] theorem State.updQuery_idx (s : State) (r : CmdRef) (f : Query → Query) : (s.updQuery r f).idx =
    { s.idx with queries := updWhere (fun q => q.r == r) f s.idx.queries } := rfl

@[simp] theorem State.restartBoot_frame (s : State) :
    s.restartBoot.pending = s.pending ∧ s.restartBoot.outbox = s.outbox ∧ s.restartBoot.fresh = s.fresh ∧ s.restartBoot.clock = s.clock ∧
    s.restartBoot.now = s.now ∧ s.restartBoot.latches = s.latches ∧ s.restartBoot.regs = s.regs ∧ s.restartBoot.busy = s.busy ∧
    s.restartBoot.notReady = s.notReady ∧ s.restartBoot.waits = s.waits ∧ s.restartBoot.mem = s.mem ∧ s.restartBoot.fix = s.fix ∧
    s.restartBoot.pwr = s.pwr ∧ s.restartBoot.flt = s.flt ∧ s.restartBoot.mm = s.mm ∧ s.restartBoot.sch = s.sch ∧
    s.restartBoot.cmd = s.cmd ∧ s.restartBoot.brg = s.brg ∧ s.restartBoot.zwx = s.zwx ∧ s.restartBoot.fl = s.fl ∧
    s.restartBoot.mgmt = s.mgmt ∧ s.restartBoot.ar = s.ar ∧ s.restartBoot.idx = s.idx ∧ s.restartBoot.kv = s.kv ∧
    s.restartBoot.gen = s.gen :=
  ⟨rfl, rfl, rfl, rfl, rfl, rfl, rfl, rfl, rfl, rfl, rfl, rfl, rfl, rfl, rfl, rfl, rfl, rfl, rfl, rfl, rfl, rfl, rfl, rfl, rfl⟩

@[simp] theorem State.restartBoot_sec (s : State) : s.restartBoot.sec =
    { s.sec with step := .verify, result := 0 } := rfl

@[simp] theorem State.setSpdm_frame (s : State) (t0 : Transport) (x : SpdmSt) :
    (s.setSpdm t0 x).pending = s.pending ∧ (s.setSpdm t0 x).outbox = s.outbox ∧ (s.setSpdm t0 x).fresh = s.fresh ∧
    (s.setSpdm t0 x).clock = s.clock ∧ (s.setSpdm t0 x).now = s.now ∧ (s.setSpdm t0 x).latches = s.latches ∧
    (s.setSpdm t0 x).regs = s.regs ∧ (s.setSpdm t0 x).busy = s.busy ∧ (s.setSpdm t0 x).notReady = s.notReady ∧
    (s.setSpdm t0 x).waits = s.waits ∧ (s.setSpdm t0 x).mem = s.mem ∧ (s.setSpdm t0 x).fix = s.fix ∧ (s.setSpdm t0 x).pwr = s.pwr ∧
    (s.setSpdm t0 x).flt = s.flt ∧ (s.setSpdm t0 x).mm = s.mm ∧ (s.setSpdm t0 x).sch = s.sch ∧ (s.setSpdm t0 x).cmd = s.cmd ∧
    (s.setSpdm t0 x).brg = s.brg ∧ (s.setSpdm t0 x).zwx = s.zwx ∧ (s.setSpdm t0 x).fl = s.fl ∧ (s.setSpdm t0 x).mgmt = s.mgmt ∧
    (s.setSpdm t0 x).ar = s.ar ∧ (s.setSpdm t0 x).idx = s.idx ∧ (s.setSpdm t0 x).kv = s.kv ∧ (s.setSpdm t0 x).gen = s.gen :=
  ⟨rfl, rfl, rfl, rfl, rfl, rfl, rfl, rfl, rfl, rfl, rfl, rfl, rfl, rfl, rfl, rfl, rfl, rfl, rfl, rfl, rfl, rfl, rfl, rfl, rfl⟩

@[simp] theorem State.setSpdm_sec (s : State) (t0 : Transport) (x : SpdmSt) : (s.setSpdm t0 x).sec =
    { s.sec with spdm := s.sec.spdm.filter (fun e => e.1 != t0) ++ [(t0, x)] } := rfl

@[simp] theorem State.spdmNonce_frame (s : State) :
    s.spdmNonce.2.pending = s.pending ∧ s.spdmNonce.2.outbox = s.outbox ∧ s.spdmNonce.2.clock = s.clock ∧ s.spdmNonce.2.now = s.now ∧
    s.spdmNonce.2.latches = s.latches ∧ s.spdmNonce.2.regs = s.regs ∧ s.spdmNonce.2.busy = s.busy ∧ s.spdmNonce.2.notReady = s.notReady ∧
    s.spdmNonce.2.waits = s.waits ∧ s.spdmNonce.2.mem = s.mem ∧ s.spdmNonce.2.fix = s.fix ∧ s.spdmNonce.2.pwr = s.pwr ∧
    s.spdmNonce.2.flt = s.flt ∧ s.spdmNonce.2.mm = s.mm ∧ s.spdmNonce.2.sch = s.sch ∧ s.spdmNonce.2.cmd = s.cmd ∧
    s.spdmNonce.2.brg = s.brg ∧ s.spdmNonce.2.zwx = s.zwx ∧ s.spdmNonce.2.fl = s.fl ∧ s.spdmNonce.2.sec = s.sec ∧
    s.spdmNonce.2.mgmt = s.mgmt ∧ s.spdmNonce.2.ar = s.ar ∧ s.spdmNonce.2.idx = s.idx ∧ s.spdmNonce.2.kv = s.kv ∧
    s.spdmNonce.2.gen = s.gen :=
  ⟨rfl, rfl, rfl, rfl, rfl, rfl, rfl, rfl, rfl, rfl, rfl, rfl, rfl, rfl, rfl, rfl, rfl, rfl, rfl, rfl, rfl, rfl, rfl, rfl, rfl⟩

@[simp] theorem State.chargeNow_frame (s : State) (x : LateAcct) :
    (s.chargeNow x).pending = s.pending ∧ (s.chargeNow x).outbox = s.outbox ∧ (s.chargeNow x).fresh = s.fresh ∧
    (s.chargeNow x).clock = s.clock ∧ (s.chargeNow x).now = s.now ∧ (s.chargeNow x).latches = s.latches ∧ (s.chargeNow x).regs = s.regs ∧
    (s.chargeNow x).busy = s.busy ∧ (s.chargeNow x).notReady = s.notReady ∧ (s.chargeNow x).waits = s.waits ∧ (s.chargeNow x).mem = s.mem ∧
    (s.chargeNow x).fix = s.fix ∧ (s.chargeNow x).pwr = s.pwr ∧ (s.chargeNow x).flt = s.flt ∧ (s.chargeNow x).mm = s.mm ∧
    (s.chargeNow x).cmd = s.cmd ∧ (s.chargeNow x).brg = s.brg ∧ (s.chargeNow x).zwx = s.zwx ∧ (s.chargeNow x).fl = s.fl ∧
    (s.chargeNow x).sec = s.sec ∧ (s.chargeNow x).mgmt = s.mgmt ∧ (s.chargeNow x).ar = s.ar ∧ (s.chargeNow x).idx = s.idx ∧
    (s.chargeNow x).kv = s.kv ∧ (s.chargeNow x).gen = s.gen :=
  ⟨rfl, rfl, rfl, rfl, rfl, rfl, rfl, rfl, rfl, rfl, rfl, rfl, rfl, rfl, rfl, rfl, rfl, rfl, rfl, rfl, rfl, rfl, rfl, rfl, rfl⟩

@[simp] theorem State.chargeNow_sch (s : State) (x : LateAcct) : (s.chargeNow x).sch =
    { s.sch with
    cur := updAt x.func (fun a => a.add x.a) s.sch.cur
    slotCur := match x.slot with
      | some k => updAt k (fun a => a.add x.sa) s.sch.slotCur
      | none => s.sch.slotCur } := rfl

@[simp] theorem State.updTask_frame (s : State) (id : Nat) (f : Task → Task) :
    (s.updTask id f).pending = s.pending ∧ (s.updTask id f).outbox = s.outbox ∧ (s.updTask id f).fresh = s.fresh ∧
    (s.updTask id f).clock = s.clock ∧ (s.updTask id f).now = s.now ∧ (s.updTask id f).latches = s.latches ∧
    (s.updTask id f).regs = s.regs ∧ (s.updTask id f).busy = s.busy ∧ (s.updTask id f).notReady = s.notReady ∧
    (s.updTask id f).waits = s.waits ∧ (s.updTask id f).mem = s.mem ∧ (s.updTask id f).fix = s.fix ∧ (s.updTask id f).pwr = s.pwr ∧
    (s.updTask id f).flt = s.flt ∧ (s.updTask id f).mm = s.mm ∧ (s.updTask id f).cmd = s.cmd ∧ (s.updTask id f).brg = s.brg ∧
    (s.updTask id f).zwx = s.zwx ∧ (s.updTask id f).fl = s.fl ∧ (s.updTask id f).sec = s.sec ∧ (s.updTask id f).mgmt = s.mgmt ∧
    (s.updTask id f).ar = s.ar ∧ (s.updTask id f).idx = s.idx ∧ (s.updTask id f).kv = s.kv ∧ (s.updTask id f).gen = s.gen :=
  ⟨rfl, rfl, rfl, rfl, rfl, rfl, rfl, rfl, rfl, rfl, rfl, rfl, rfl, rfl, rfl, rfl, rfl, rfl, rfl, rfl, rfl, rfl, rfl, rfl, rfl⟩

@[simp] theorem State.updTask_sch (s : State) (id : Nat) (f : Task → Task) : (s.updTask id f).sch =
    { s.sch with tasks := updWhere (fun t => t.id == id) f s.sch.tasks } := rfl

@[simp] theorem State.killTasks_frame (s : State) (p : Task → Bool) :
    (s.killTasks p).pending = s.pending ∧ (s.killTasks p).outbox = s.outbox ∧ (s.killTasks p).fresh = s.fresh ∧
    (s.killTasks p).clock = s.clock ∧ (s.killTasks p).now = s.now ∧ (s.killTasks p).latches = s.latches ∧ (s.killTasks p).regs = s.regs ∧
    (s.killTasks p).busy = s.busy ∧ (s.killTasks p).notReady = s.notReady ∧ (s.killTasks p).waits = s.waits ∧ (s.killTasks p).mem = s.mem ∧
    (s.killTasks p).fix = s.fix ∧ (s.killTasks p).pwr = s.pwr ∧ (s.killTasks p).flt = s.flt ∧ (s.killTasks p).mm = s.mm ∧
    (s.killTasks p).cmd = s.cmd ∧ (s.killTasks p).brg = s.brg ∧ (s.killTasks p).zwx = s.zwx ∧ (s.killTasks p).fl = s.fl ∧
    (s.killTasks p).sec = s.sec ∧ (s.killTasks p).mgmt = s.mgmt ∧ (s.killTasks p).ar = s.ar ∧ (s.killTasks p).idx = s.idx ∧
    (s.killTasks p).kv = s.kv ∧ (s.killTasks p).gen = s.gen :=
  ⟨rfl, rfl, rfl, rfl, rfl, rfl, rfl, rfl, rfl, rfl, rfl, rfl, rfl, rfl, rfl, rfl, rfl, rfl, rfl, rfl, rfl, rfl, rfl, rfl, rfl⟩

@[simp] theorem State.killTasks_sch (s : State) (p : Task → Bool) : (s.killTasks p).sch =
    { s.sch with
    tasks := (s.sch.tasks.map (fun t => if p t && t.islet.isSome then { t with killing := true } else t)) } := rfl

@[simp] theorem State.clearIslet_frame (s : State) (i : Nat) :
    (s.clearIslet i).pending = s.pending ∧ (s.clearIslet i).outbox = s.outbox ∧ (s.clearIslet i).fresh = s.fresh ∧
    (s.clearIslet i).clock = s.clock ∧ (s.clearIslet i).now = s.now ∧ (s.clearIslet i).latches = s.latches ∧
    (s.clearIslet i).regs = s.regs ∧ (s.clearIslet i).busy = s.busy ∧ (s.clearIslet i).notReady = s.notReady ∧
    (s.clearIslet i).waits = s.waits ∧ (s.clearIslet i).mem = s.mem ∧ (s.clearIslet i).fix = s.fix ∧ (s.clearIslet i).pwr = s.pwr ∧
    (s.clearIslet i).flt = s.flt ∧ (s.clearIslet i).mm = s.mm ∧ (s.clearIslet i).sch = s.sch ∧ (s.clearIslet i).cmd = s.cmd ∧
    (s.clearIslet i).brg = s.brg ∧ (s.clearIslet i).zwx = s.zwx ∧ (s.clearIslet i).fl = s.fl ∧ (s.clearIslet i).sec = s.sec ∧
    (s.clearIslet i).mgmt = s.mgmt ∧ (s.clearIslet i).idx = s.idx ∧ (s.clearIslet i).kv = s.kv ∧ (s.clearIslet i).gen = s.gen :=
  ⟨rfl, rfl, rfl, rfl, rfl, rfl, rfl, rfl, rfl, rfl, rfl, rfl, rfl, rfl, rfl, rfl, rfl, rfl, rfl, rfl, rfl, rfl, rfl, rfl, rfl⟩

@[simp] theorem State.clearIslet_ar (s : State) (i : Nat) : (s.clearIslet i).ar =
    { s.ar with islets := updWhere (fun x => x.islet == i) (fun x => { x with
      acc0 := List.replicate 1024 0, acc1 := List.replicate 1024 0, scale0 := 0, scale1 := 0, ops := [], vwaits := [] }) s.ar.islets } := rfl

@[simp] theorem State.abandon_frame (s : State) (p : SlotSt → Bool) (code : FerryCode) :
    (s.abandon p code).pending = s.pending ∧ (s.abandon p code).outbox = s.outbox ∧ (s.abandon p code).fresh = s.fresh ∧
    (s.abandon p code).clock = s.clock ∧ (s.abandon p code).now = s.now ∧ (s.abandon p code).latches = s.latches ∧
    (s.abandon p code).regs = s.regs ∧ (s.abandon p code).busy = s.busy ∧ (s.abandon p code).notReady = s.notReady ∧
    (s.abandon p code).waits = s.waits ∧ (s.abandon p code).mem = s.mem ∧ (s.abandon p code).fix = s.fix ∧ (s.abandon p code).pwr = s.pwr ∧
    (s.abandon p code).flt = s.flt ∧ (s.abandon p code).sch = s.sch ∧ (s.abandon p code).cmd = s.cmd ∧ (s.abandon p code).brg = s.brg ∧
    (s.abandon p code).zwx = s.zwx ∧ (s.abandon p code).fl = s.fl ∧ (s.abandon p code).sec = s.sec ∧ (s.abandon p code).mgmt = s.mgmt ∧
    (s.abandon p code).ar = s.ar ∧ (s.abandon p code).idx = s.idx ∧ (s.abandon p code).kv = s.kv ∧ (s.abandon p code).gen = s.gen :=
  ⟨rfl, rfl, rfl, rfl, rfl, rfl, rfl, rfl, rfl, rfl, rfl, rfl, rfl, rfl, rfl, rfl, rfl, rfl, rfl, rfl, rfl, rfl, rfl, rfl, rfl⟩

@[simp] theorem State.abandon_mm (s : State) (p : SlotSt → Bool) (code : FerryCode) : (s.abandon p code).mm =
    { s.mm with slots := updWhere p (fun x =>
      let had := x.work.isSome || x.pend.isSome
      { x with work := none, pend := none, started := false, sent := 0, acked := [], merged := false, waited := false
               code := if had then code else x.code, err := if had then true else x.err }) s.mm.slots } := rfl

@[simp] theorem State.fenceCause_frame (s : State) (u : FenceUnit) (c : FenceCause) :
    (s.fenceCause u c).pending = s.pending ∧ (s.fenceCause u c).outbox = s.outbox ∧ (s.fenceCause u c).fresh = s.fresh ∧
    (s.fenceCause u c).clock = s.clock ∧ (s.fenceCause u c).now = s.now ∧ (s.fenceCause u c).latches = s.latches ∧
    (s.fenceCause u c).regs = s.regs ∧ (s.fenceCause u c).busy = s.busy ∧ (s.fenceCause u c).notReady = s.notReady ∧
    (s.fenceCause u c).waits = s.waits ∧ (s.fenceCause u c).mem = s.mem ∧ (s.fenceCause u c).fix = s.fix ∧ (s.fenceCause u c).pwr = s.pwr ∧
    (s.fenceCause u c).mm = s.mm ∧ (s.fenceCause u c).sch = s.sch ∧ (s.fenceCause u c).cmd = s.cmd ∧ (s.fenceCause u c).brg = s.brg ∧
    (s.fenceCause u c).zwx = s.zwx ∧ (s.fenceCause u c).fl = s.fl ∧ (s.fenceCause u c).sec = s.sec ∧ (s.fenceCause u c).mgmt = s.mgmt ∧
    (s.fenceCause u c).ar = s.ar ∧ (s.fenceCause u c).idx = s.idx ∧ (s.fenceCause u c).kv = s.kv ∧ (s.fenceCause u c).gen = s.gen :=
  ⟨rfl, rfl, rfl, rfl, rfl, rfl, rfl, rfl, rfl, rfl, rfl, rfl, rfl, rfl, rfl, rfl, rfl, rfl, rfl, rfl, rfl, rfl, rfl, rfl, rfl⟩

@[simp] theorem State.fenceCause_flt (s : State) (u : FenceUnit) (c : FenceCause) : (s.fenceCause u c).flt =
    { s.flt with causes := addOnce (u, c) s.flt.causes } := rfl

end Sys2Proof.Machine
end

