-- ==== Sys2Proof/Tests/Slice0.lean ====
section
/-! SUPPORT. Our own tests: each check of WellFormed refuses a term that breaks it, worked examples of the manual, and for every statement
with hypotheses a theorem `wit_<Name>` with concrete states and operands that meet them together, clause by clause. -/

open Sys2Proof Sys2Proof.Machine

namespace Sys2Proof.Tests

/- One theorem at a time: elaborated side by side, each would hold a thread while it waits for the kernel to check the ones before it. -/
set_option Elab.async false
set_option linter.all false

/-! ## Well-formedness: each check refuses a term that breaks it alone -/

def gCmdHdr : CmdHdr :=
  { opcode := 0, func := 0, fence := false, channel := 0, tag := 0, srcOrd := 0, dstOrd := 0, ring := 0, inlineLen := 0, xferLen := 0, reserved := 0 }
def gCmdRef : CmdRef :=
  { func := 0, tag := 0 }
def gTransfer : Transfer :=
  { src := 0, dst := 0, data := List.replicate 64 0 }
def gMatOp : MatOp :=
  { fmtA := Fmt.int4, fmtB := Fmt.int4, scaleA := ScaleFmt.none, scaleB := ScaleFmt.none, mxBlock := 0, acc := AccKind.acc16, m := 0, n := 0, k := 0, tile := 0, init := InitKind.clear, preshift := 0, seed := 0, winLsb := 0, readout := Readout.none, readRnd := Rnd.rne, aOff := 0, bOff := 0, saOff := 0, sbOff := 0, biasOff := 0, outOff := 0, func := 0, tag := 0 }
def gAtomicReq : AtomicReq :=
  { islet := 0, addr := 0, ctxSlot := 0, seqr := false, func := 0, tag := 0 }
def gDataPkt : DataPkt :=
  { func := 0, tag := 0, handle := 0, offset := 0, bytes := [0] }
def gCplPkt : CplPkt :=
  { status := 0, func := 0, kind := 0, dupTag := false, last := false, channel := 0, tag := 0, srcOrd := 0, ring := 0, bodyLen := 0, fragOff := 0, time := 0, bytes := [] }
def gEventPkt : EventPkt :=
  { code := 0, func := 0, wide := false, srcOrd := 0, data := 0, time := 0 }
def gSqEntry : SqEntry :=
  { dstOrd := 0, opcode := 0, fence := false, channel := 0, tag := 0, bodyAddr := 0, bodyLen := 0, respAddr := 0, respLen := 0, reserved := 0 }
def gRegPkt : RegPkt :=
  { wide := false, srcOrd := 0, rid := 0, addr := 0, data := 0, err := false }
def gXPkt : XPkt :=
  { srcOrd := 0, func := 0, xid := 0, addr := 0, lenM1 := 0, replyAddr := 0, err := false, data := [], place := .memory }
def gFrameIn : FrameIn :=
  { dst := 0, src := 0, cls := FClass.req, vc := 0, mc := false, group := 0, eseq := 0, lseq := 0, keyPhase := 0, crcOk := false, tagOk := false, ptype := 0, body := [] }
def gTrainInfo : TrainInfo :=
  { peerOrd := 0, peerDims := 0, peerEnc := false, peerBridge := false, authOk := false, flightNs := 0, laneMask := 0 }
def gFerryDesc : FerryDesc :=
  { src := 0, dst := 0, len := 0, rowsM1 := 0, srcStride := 0, dstStride := 0, mode := 0, mergeOk := false, irq := false, chain := false, next := 0, func := 0, ctx := 0, mcastSet := 0, reserved := 0 }
def gFenceUnit : FenceUnit :=
  { whole := false, island := 0, islet := 0 }
def gPageRef : PageRef :=
  { seq := 0, layer := 0, group := 0, page := 0 }
def gAttnRef : AttnRef :=
  { slot := 0, entry := 0, layer := 0, group := 0 }
def gBufHandle : BufHandle :=
  { island := 0, buf := 0, half := 0, cohort := 0, stage := 0, layer := 0, mb := 0, rowsM1 := 0 }
def gTileRef : TileRef :=
  { slot := 0, layer := 0, proj := 0, col := 0, kblk := 0 }
def gBwdEntry : BwdEntry :=
  { seq := 0, qlen := 1, pos0 := 0, rowBase := 0 }
def gBwdReq : BwdReq :=
  { func := 0, layer := 0, table := [gBwdEntry], q := [], o := [], dO := [], m := [], l := [], pages := [], outObj := 0 }
def gPowerReading : PowerReading :=
  { centiVolt := 0, watt := 0 }
def gCoolReading : CoolReading :=
  { inlet := 0, outlet := 0, flow := 0, inPress := 0, outPress := 0, pumpHz := 0, stackMax := 0, dieMax := 0, inRange := false }
def gEnergyReading : EnergyReading :=
  { perIsland := [], perStack := [], links := 0, flash := 0, total := 0 }

theorem test_wf_refuses_operands :
    (gCmdHdr.wf && ([{ gCmdHdr with opcode := 256 }, { gCmdHdr with func := 16 }, { gCmdHdr with channel := 256 }, { gCmdHdr with tag := 65536 }, { gCmdHdr with srcOrd := 64 }, { gCmdHdr with dstOrd := 64 }, { gCmdHdr with ring := 256 }, { gCmdHdr with inlineLen := 8192 }, { gCmdHdr with xferLen := 0x100000000 }] : List CmdHdr).all (fun x => !x.wf)) = true ∧
    (gCmdRef.wf && ([{ gCmdRef with func := 16 }, { gCmdRef with tag := 65536 }] : List CmdRef).all (fun x => !x.wf)) = true ∧
    (gTransfer.wf && ([{ gTransfer with src := 512 }, { gTransfer with dst := 512 }, { gTransfer with dst := 128 }, { gTransfer with data := [] }] : List Transfer).all (fun x => !x.wf)) = true ∧
    (gMatOp.wf && ([{ gMatOp with tile := 2 }, { gMatOp with func := 16 }, { gMatOp with tag := 65536 }, { gMatOp with aOff := 131072 }, { gMatOp with bOff := 131072 }, { gMatOp with saOff := 131072 }, { gMatOp with sbOff := 131072 }, { gMatOp with biasOff := 131072 }, { gMatOp with outOff := 131072 }] : List MatOp).all (fun x => !x.wf)) = true ∧
    (gAtomicReq.wf && ([{ gAtomicReq with islet := 8192 }, { gAtomicReq with addr := 0x1000000000000 }, { gAtomicReq with func := 16 }, { gAtomicReq with tag := 65536 }] : List AtomicReq).all (fun x => !x.wf)) = true ∧
    (gDataPkt.wf && ([{ gDataPkt with func := 16 }, { gDataPkt with tag := 65536 }, { gDataPkt with handle := 0x100000000 }, { gDataPkt with offset := 0x100000000 }, { gDataPkt with bytes := [] }, { gDataPkt with bytes := List.replicate 4097 0 }] : List DataPkt).all (fun x => !x.wf)) = true ∧
    (gCplPkt.wf && ([{ gCplPkt with status := 256 }, { gCplPkt with func := 16 }, { gCplPkt with kind := 4 }, { gCplPkt with channel := 256 }, { gCplPkt with tag := 65536 }, { gCplPkt with srcOrd := 64 }, { gCplPkt with ring := 256 }, { gCplPkt with bodyLen := 0x100000000 }, { gCplPkt with fragOff := 0x100000000 }, { gCplPkt with bytes := List.replicate 4097 0 }] : List CplPkt).all (fun x => !x.wf)) = true ∧
    (gEventPkt.wf && ([{ gEventPkt with code := 256 }, { gEventPkt with func := 16 }, { gEventPkt with srcOrd := 64 }] : List EventPkt).all (fun x => !x.wf)) = true ∧
    (gSqEntry.wf && ([{ gSqEntry with dstOrd := 64 }, { gSqEntry with opcode := 256 }, { gSqEntry with channel := 256 }, { gSqEntry with tag := 65536 }] : List SqEntry).all (fun x => !x.wf)) = true ∧
    (gRegPkt.wf && ([{ gRegPkt with srcOrd := 64 }, { gRegPkt with rid := 65536 }, { gRegPkt with addr := 0x1000000 }, { gRegPkt with data := 0x10000000000000000 }] : List RegPkt).all (fun x => !x.wf)) = true ∧
    (gXPkt.wf && ([{ gXPkt with srcOrd := 64 }, { gXPkt with func := 16 }, { gXPkt with xid := 0x100000000 }, { gXPkt with addr := 0x1000000000000 }, { gXPkt with lenM1 := 4096 }, { gXPkt with replyAddr := 0x1000000000000 }, { gXPkt with data := List.replicate 4097 0 }, { gXPkt with place := .hold 64 0 true }, { gXPkt with place := .mirror 0 gPageRef 6 }] : List XPkt).all (fun x => !x.wf)) = true ∧
    (gFrameIn.wf && ([{ gFrameIn with dst := 64 }, { gFrameIn with src := 64 }, { gFrameIn with vc := 2 }, { gFrameIn with group := 16 }, { gFrameIn with eseq := 65536 }, { gFrameIn with lseq := 65536 }, { gFrameIn with keyPhase := 2 }, { gFrameIn with ptype := 256 }, { gFrameIn with body := List.replicate 4129 0 }] : List FrameIn).all (fun x => !x.wf)) = true ∧
    (gTrainInfo.wf && ([{ gTrainInfo with peerOrd := 64 }, { gTrainInfo with peerDims := 64 }, { gTrainInfo with laneMask := 256 }] : List TrainInfo).all (fun x => !x.wf)) = true ∧
    (gFerryDesc.wf && ([{ gFerryDesc with src := 0x1000000000000 }, { gFerryDesc with dst := 0x1000000000000 }, { gFerryDesc with len := 0x100000000 }, { gFerryDesc with rowsM1 := 65536 }, { gFerryDesc with mode := 4 }, { gFerryDesc with next := 64 }, { gFerryDesc with func := 16 }] : List FerryDesc).all (fun x => !x.wf)) = true ∧
    (gFenceUnit.wf && ([{ gFenceUnit with island := 512 }, { gFenceUnit with islet := 16 }] : List FenceUnit).all (fun x => !x.wf)) = true ∧
    (gPageRef.wf && ([{ gPageRef with seq := 16384 }, { gPageRef with layer := 256 }, { gPageRef with group := 256 }, { gPageRef with page := 0x40000 }] : List PageRef).all (fun x => !x.wf)) = true ∧
    (gAttnRef.wf && ([{ gAttnRef with slot := 2 }, { gAttnRef with layer := 256 }, { gAttnRef with group := 256 }] : List AttnRef).all (fun x => !x.wf)) = true ∧
    (gBufHandle.wf && ([{ gBufHandle with island := 512 }, { gBufHandle with buf := 2 }, { gBufHandle with half := 2 }, { gBufHandle with layer := 256 }] : List BufHandle).all (fun x => !x.wf)) = true ∧
    (gTileRef.wf && ([{ gTileRef with slot := 2 }, { gTileRef with layer := 256 }] : List TileRef).all (fun x => !x.wf)) = true ∧
    (gBwdReq.wf && ([{ gBwdReq with table := [{ gBwdEntry with seq := 16384 }] }, { gBwdReq with table := [{ gBwdEntry with qlen := 0 }] }, { gBwdReq with table := [{ gBwdEntry with qlen := 65537 }] }, { gBwdReq with table := [{ gBwdEntry with pos0 := 0x1000000 }] }, { gBwdReq with layer := 256 }, { gBwdReq with func := 16 }] : List BwdReq).all (fun x => !x.wf)) = true ∧
    (gPowerReading.wf && ([{ gPowerReading with centiVolt := 65536 }, { gPowerReading with watt := 65536 }] : List PowerReading).all (fun x => !x.wf)) = true ∧
    (gCoolReading.wf && ([{ gCoolReading with inlet := 256 }, { gCoolReading with outlet := 256 }, { gCoolReading with flow := 256 }, { gCoolReading with inPress := 4096 }, { gCoolReading with outPress := 4096 }, { gCoolReading with pumpHz := 65536 }] : List CoolReading).all (fun x => !x.wf)) = true ∧
    (gEnergyReading.wf && ([{ gEnergyReading with perIsland := [(512, 0)] }, { gEnergyReading with perStack := [(32, 0)] }] : List EnergyReading).all (fun x => !x.wf)) = true := by
  refine ⟨?_, ?_, ?_, ?_, ?_, ?_, ?_, ?_, ?_, ?_, ?_, ?_, ?_, ?_, ?_, ?_, ?_, ?_, ?_, ?_, ?_, ?_, ?_⟩ <;> decide +kernel

theorem test_wf_refuses_commands_1 : ([
    (.registerWrite Path.host 0 false 0, .registerWrite Path.host 0x1000000 false 0),
    (.registerWrite Path.host 0 false 0, .registerWrite Path.host 0 false 0x10000000000000000),
    (.localReset Path.host 0, .localReset Path.host 0x1000000),
    (.localResetDone 0, .localResetDone 0x1000000),
    (.blkIrqSet Path.host 0 0, .blkIrqSet Path.host 0x1000000 0),
    (.blkIrqSet Path.host 0 0, .blkIrqSet Path.host 0 0x100000000),
    (.eventsClear Path.host 0, .eventsClear Path.host 0x100000000),
    (.straitTransfer 0 Dir.north none false, .straitTransfer 512 Dir.north none false),
    (.straitTransfer 0 Dir.north none false, .straitTransfer 0 Dir.north (some { gTransfer with src := 512 }) false),
    (.matrixOpIssue 0 gMatOp, .matrixOpIssue 8192 gMatOp),
    (.matrixOpIssue 0 gMatOp, .matrixOpIssue 0 { gMatOp with tile := 2 }),
    (.matrixPassEnd 0 false, .matrixPassEnd 8192 false),
    (.matrixOpComplete 0, .matrixOpComplete 8192),
    (.vectorOp 0 ({ kind := VecKind.fma, a := 0, b := 0, c := 0, d := 0, rnd := Rnd.rne, seed := 0, store := none : VecOp }), .vectorOp 8192 ({ kind := VecKind.fma, a := 0, b := 0, c := 0, d := 0, rnd := Rnd.rne, seed := 0, store := none : VecOp })),
    (.atomicAdd gAtomicReq AddTy.int32 0, .atomicAdd { gAtomicReq with islet := 8192 } AddTy.int32 0),
    (.atomicAdd gAtomicReq AddTy.int32 0, .atomicAdd gAtomicReq AddTy.int32 0x10000000000000000),
    (.atomicMax gAtomicReq MaxTy.int32 0 0, .atomicMax { gAtomicReq with islet := 8192 } MaxTy.int32 0 0),
    (.atomicMax gAtomicReq MaxTy.int32 0 0, .atomicMax gAtomicReq MaxTy.int32 0x100000000 0),
    (.atomicMax gAtomicReq MaxTy.int32 0 0, .atomicMax gAtomicReq MaxTy.int32 0 0x100000000),
    (.atomicMin gAtomicReq MaxTy.int32 0 0, .atomicMin { gAtomicReq with islet := 8192 } MaxTy.int32 0 0),
    (.atomicMin gAtomicReq MaxTy.int32 0 0, .atomicMin gAtomicReq MaxTy.int32 0x100000000 0),
    (.atomicMin gAtomicReq MaxTy.int32 0 0, .atomicMin gAtomicReq MaxTy.int32 0 0x100000000),
    (.compareAndSwap gAtomicReq false 0 0, .compareAndSwap { gAtomicReq with islet := 8192 } false 0 0),
    (.compareAndSwap gAtomicReq false 0 0, .compareAndSwap gAtomicReq false 0x10000000000000000 0),
    (.compareAndSwap gAtomicReq false 0 0, .compareAndSwap gAtomicReq false 0 0x10000000000000000),
    (.dbgHalt Path.host 0 0, .dbgHalt Path.host 4 0),
    (.dbgHalt Path.host 0 0, .dbgHalt Path.host 0 0x100000000),
    (.dbgDataRead Path.host 0 0, .dbgDataRead Path.host 4 0),
    (.dbgDataRead Path.host 0 0, .dbgDataRead Path.host 0 64),
    (.indexLoad gCmdHdr [], .indexLoad { gCmdHdr with opcode := 256 } [])] : List (Instr × Instr)).all (fun e => e.1.wf && !e.2.wf) = true := by
  decide +kernel

theorem test_wf_refuses_commands_2 : ([
    (.indexLoad gCmdHdr [], .indexLoad gCmdHdr (List.replicate 4097 0)),
    (.indexImageCopied 0, .indexImageCopied 64),
    (.centroidCopyBuilt 0, .centroidCopyBuilt 64),
    (.indexSave gCmdHdr [], .indexSave { gCmdHdr with opcode := 256 } []),
    (.indexSave gCmdHdr [], .indexSave gCmdHdr (List.replicate 4097 0)),
    (.indexSaveDone 0, .indexSaveDone 64),
    (.indexUnload gCmdHdr [], .indexUnload { gCmdHdr with opcode := 256 } []),
    (.indexUnload gCmdHdr [], .indexUnload gCmdHdr (List.replicate 4097 0)),
    (.indexUnloadDone 0, .indexUnloadDone 64),
    (.indexCompact gCmdHdr [], .indexCompact { gCmdHdr with opcode := 256 } []),
    (.indexCompact gCmdHdr [], .indexCompact gCmdHdr (List.replicate 4097 0)),
    (.search gCmdHdr [], .search { gCmdHdr with opcode := 256 } []),
    (.search gCmdHdr [], .search gCmdHdr (List.replicate 4097 0)),
    (.ingressStamp 0, .ingressStamp 513),
    (.boundaryMarker 0, .boundaryMarker 512),
    (.probeSelectionDone gCmdRef, .probeSelectionDone { gCmdRef with func := 16 }),
    (.setSeal 0, .setSeal 64),
    (.setScanStart 0, .setScanStart 4),
    (.setScanDone 0 [], .setScanDone 512 []),
    (.setScanDone 0 [], .setScanDone 0 [0x100000]),
    (.setReportDone 0, .setReportDone 512),
    (.queryRoundMerged gCmdRef, .queryRoundMerged { gCmdRef with func := 16 }),
    (.rerankDone gCmdRef [], .rerankDone { gCmdRef with func := 16 } []),
    (.searchComplete gCmdRef, .searchComplete { gCmdRef with func := 16 }),
    (.mutate gCmdHdr [], .mutate { gCmdHdr with opcode := 256 } []),
    (.mutate gCmdHdr [], .mutate gCmdHdr (List.replicate 4097 0)),
    (.mutateStaging 0, .mutateStaging 64),
    (.epochMark 0 0, .epochMark 64 0),
    (.epochMark 0 0, .epochMark 0 0x10000000000000000),
    (.epochReport 0 0, .epochReport 64 0)] : List (Instr × Instr)).all (fun e => e.1.wf && !e.2.wf) = true := by
  decide +kernel

theorem test_wf_refuses_commands_3 : ([
    (.epochReport 0 0, .epochReport 0 0x10000000000000000),
    (.compactPassStart 0, .compactPassStart 32),
    (.topk gCmdHdr [], .topk { gCmdHdr with opcode := 256 } []),
    (.topk gCmdHdr [], .topk gCmdHdr (List.replicate 4097 0)),
    (.merge gCmdHdr [], .merge { gCmdHdr with opcode := 256 } []),
    (.merge gCmdHdr [], .merge gCmdHdr (List.replicate 4097 0)),
    (.selectPieceDone gCmdRef 0 0 false, .selectPieceDone { gCmdRef with func := 16 } 0 0 false),
    (.selectComplete gCmdRef, .selectComplete { gCmdRef with func := 16 }),
    (.pageChoiceDone gAttnRef [], .pageChoiceDone { gAttnRef with slot := 2 } []),
    (.pageChoiceDone gAttnRef [], .pageChoiceDone gAttnRef [0x40000]),
    (.recomputeDone gPageRef, .recomputeDone { gPageRef with seq := 16384 }),
    (.attnSplitDone gAttnRef 0 0, .attnSplitDone { gAttnRef with slot := 2 } 0 0),
    (.attnMerge gAttnRef, .attnMerge { gAttnRef with slot := 2 }),
    (.kvAppend 0 0 0, .kvAppend 2 0 0),
    (.kvAppend 0 0 0, .kvAppend 0 0 256),
    (.mirrorAck gPageRef false, .mirrorAck { gPageRef with seq := 16384 } false),
    (.attnBackward gBwdReq, .attnBackward { gBwdReq with layer := 256 }),
    (.spillDurable gPageRef false, .spillDurable { gPageRef with seq := 16384 } false),
    (.t3PageReadDone gAttnRef 0 false, .t3PageReadDone { gAttnRef with slot := 2 } 0 false),
    (.t3PageReadDone gAttnRef 0 false, .t3PageReadDone gAttnRef 0x40000 false),
    (.promotionDone gPageRef, .promotionDone { gPageRef with seq := 16384 }),
    (.relocationCopyDone gPageRef, .relocationCopyDone { gPageRef with seq := 16384 }),
    (.holdExpire 0, .holdExpire 16384),
    (.config gCmdHdr [], .config { gCmdHdr with opcode := 256 } []),
    (.config gCmdHdr [], .config gCmdHdr (List.replicate 4097 0)),
    (.prefetch gCmdHdr [], .prefetch { gCmdHdr with opcode := 256 } []),
    (.prefetch gCmdHdr [], .prefetch gCmdHdr (List.replicate 4097 0)),
    (.spill gCmdHdr [], .spill { gCmdHdr with opcode := 256 } []),
    (.spill gCmdHdr [], .spill gCmdHdr (List.replicate 4097 0)),
    (.modelLoad gCmdHdr [], .modelLoad { gCmdHdr with opcode := 256 } [])] : List (Instr × Instr)).all (fun e => e.1.wf && !e.2.wf) = true := by
  decide +kernel

theorem test_wf_refuses_commands_4 : ([
    (.modelLoad gCmdHdr [], .modelLoad gCmdHdr (List.replicate 4097 0)),
    (.modelUnload gCmdHdr [], .modelUnload { gCmdHdr with opcode := 256 } []),
    (.modelUnload gCmdHdr [], .modelUnload gCmdHdr (List.replicate 4097 0)),
    (.seqOpen gCmdHdr [], .seqOpen { gCmdHdr with opcode := 256 } []),
    (.seqOpen gCmdHdr [], .seqOpen gCmdHdr (List.replicate 4097 0)),
    (.seqClose gCmdHdr [], .seqClose { gCmdHdr with opcode := 256 } []),
    (.seqClose gCmdHdr [], .seqClose gCmdHdr (List.replicate 4097 0)),
    (.step gCmdHdr [], .step { gCmdHdr with opcode := 256 } []),
    (.step gCmdHdr [], .step gCmdHdr (List.replicate 4097 0)),
    (.weightTileLanded 0 gTileRef, .weightTileLanded 512 gTileRef),
    (.weightTileLanded 0 gTileRef, .weightTileLanded 0 { gTileRef with slot := 2 }),
    (.swap 0 gBufHandle, .swap 512 gBufHandle),
    (.swap 0 gBufHandle, .swap 0 { gBufHandle with island := 512 }),
    (.handleReturn 0 0 gBufHandle, .handleReturn 512 0 gBufHandle),
    (.handleReturn 0 0 gBufHandle, .handleReturn 0 0 { gBufHandle with island := 512 }),
    (.taskDispatch 0, .taskDispatch 512),
    (.taskAge 0 0, .taskAge 512 0),
    (.taskEnd 0, .taskEnd 8192),
    (.stepCommit 0, .stepCommit 2),
    (.mcastAck 0 0 0, .mcastAck 512 0 0),
    (.mcastAck 0 0 0, .mcastAck 0 512 0),
    (.alloc gCmdHdr [], .alloc { gCmdHdr with opcode := 256 } []),
    (.alloc gCmdHdr [], .alloc gCmdHdr (List.replicate 4097 0)),
    (.allocZeroed gCmdRef, .allocZeroed { gCmdRef with func := 16 }),
    (.free gCmdHdr [], .free { gCmdHdr with opcode := 256 } []),
    (.free gCmdHdr [], .free gCmdHdr (List.replicate 4097 0)),
    (.move gCmdHdr [], .move { gCmdHdr with opcode := 256 } []),
    (.move gCmdHdr [], .move gCmdHdr (List.replicate 4097 0)),
    (.moveCopyDone gCmdRef, .moveCopyDone { gCmdRef with func := 16 }),
    (.promote gCmdHdr [], .promote { gCmdHdr with opcode := 256 } [])] : List (Instr × Instr)).all (fun e => e.1.wf && !e.2.wf) = true := by
  decide +kernel

theorem test_wf_refuses_commands_5 : ([
    (.promote gCmdHdr [], .promote gCmdHdr (List.replicate 4097 0)),
    (.evict gCmdHdr [], .evict { gCmdHdr with opcode := 256 } []),
    (.evict gCmdHdr [], .evict gCmdHdr (List.replicate 4097 0)),
    (.share gCmdHdr [], .share { gCmdHdr with opcode := 256 } []),
    (.share gCmdHdr [], .share gCmdHdr (List.replicate 4097 0)),
    (.unshare gCmdHdr [], .unshare { gCmdHdr with opcode := 256 } []),
    (.unshare gCmdHdr [], .unshare gCmdHdr (List.replicate 4097 0)),
    (.parityDeltaAck 0 0, .parityDeltaAck 32 0),
    (.parityDeltaAck 0 0, .parityDeltaAck 0 0x40000000),
    (.lineRebuild 0 0 false, .lineRebuild 32 0 false),
    (.lineRebuild 0 0 false, .lineRebuild 0 0x40000000 false),
    (.parCfgWrite Path.host 0 0, .parCfgWrite Path.host 4 0),
    (.parCfgWrite Path.host 0 0, .parCfgWrite Path.host 0 0x100000000),
    (.dramScrubRead 0 0 ScrubResult.clean, .dramScrubRead 32 0 ScrubResult.clean),
    (.dramScrubRead 0 0 ScrubResult.clean, .dramScrubRead 0 0x40000000 ScrubResult.clean),
    (.granuleRetire 0 0, .granuleRetire 32 0),
    (.granuleRetire 0 0, .granuleRetire 0 0x100000),
    (.stackThermalTick 0 0, .stackThermalTick 32 0),
    (.stackThermalTick 0 0, .stackThermalTick 0 256),
    (.lateRead 0 0, .lateRead 16 0),
    (.lateRead 0 0, .lateRead 0 65536),
    (.ferryArm 0 0 gFerryDesc, .ferryArm 512 0 gFerryDesc),
    (.ferryArm 0 0 gFerryDesc, .ferryArm 0 64 gFerryDesc),
    (.ferryArm 0 0 gFerryDesc, .ferryArm 0 0 { gFerryDesc with src := 0x1000000000000 }),
    (.ferryGenerationStart 0, .ferryGenerationStart 512),
    (.ferryGenerationDone 0 0 false, .ferryGenerationDone 512 0 false),
    (.ferryGenerationDone 0 0 false, .ferryGenerationDone 0 64 false),
    (.flashReadDone 0 0 false, .flashReadDone 0x400000000 0 false),
    (.stripeRebuild 0 false, .stripeRebuild 0x400000000 false),
    (.flashWriteDurable 0, .flashWriteDurable 0x400000000)] : List (Instr × Instr)).all (fun e => e.1.wf && !e.2.wf) = true := by
  decide +kernel

theorem test_wf_refuses_commands_6 : ([
    (.stripeCloseTimeout 0, .stripeCloseTimeout 4),
    (.gcStep 0 0, .gcStep 64 0),
    (.wearLevelMove 0 0, .wearLevelMove 64 0),
    (.readDisturbRelocate 0, .readDisturbRelocate 64),
    (.moveMapSwitch 0, .moveMapSwitch 0x400000000),
    (.flashScrubRead 0 0 ScrubResult.clean, .flashScrubRead 64 0 ScrubResult.clean),
    (.flashChannelFail 0, .flashChannelFail 64),
    (.spillCfgWrite Path.host 0, .spillCfgWrite Path.host 0x100000000),
    (.openCtx gCmdHdr [], .openCtx { gCmdHdr with opcode := 256 } []),
    (.openCtx gCmdHdr [], .openCtx gCmdHdr (List.replicate 4097 0)),
    (.admitCtx gCmdHdr [], .admitCtx { gCmdHdr with opcode := 256 } []),
    (.admitCtx gCmdHdr [], .admitCtx gCmdHdr (List.replicate 4097 0)),
    (.retire gCmdHdr [], .retire { gCmdHdr with opcode := 256 } []),
    (.retire gCmdHdr [], .retire gCmdHdr (List.replicate 4097 0)),
    (.retireDone 0, .retireDone 64),
    (.close gCmdHdr [], .close { gCmdHdr with opcode := 256 } []),
    (.close gCmdHdr [], .close gCmdHdr (List.replicate 4097 0)),
    (.chOpen gCmdHdr [], .chOpen { gCmdHdr with opcode := 256 } []),
    (.chOpen gCmdHdr [], .chOpen gCmdHdr (List.replicate 4097 0)),
    (.chClose gCmdHdr [], .chClose { gCmdHdr with opcode := 256 } []),
    (.chClose gCmdHdr [], .chClose gCmdHdr (List.replicate 4097 0)),
    (.chCloseDone 0, .chCloseDone 256),
    (.funcCfgWrite Path.host 0 0, .funcCfgWrite Path.host 16 0),
    (.funcCfgWrite Path.host 0 0, .funcCfgWrite Path.host 0 0x100000000),
    (.funcReset Path.host 0, .funcReset Path.host 16),
    (.partitionResetKillsDone 0, .partitionResetKillsDone 16),
    (.partitionResetDone 0, .partitionResetDone 16),
    (.preemptWaitExpire 0, .preemptWaitExpire 512),
    (.taskKill 0, .taskKill 8192),
    (.slowSample [], .slowSample [{ island := 512, cycles := 0 }])] : List (Instr × Instr)).all (fun e => e.1.wf && !e.2.wf) = true := by
  decide +kernel

theorem test_wf_refuses_commands_7 : ([
    (.energySample gEnergyReading, .energySample { gEnergyReading with perIsland := [(512, 0)] }),
    (.nop gCmdHdr [], .nop { gCmdHdr with opcode := 256 } []),
    (.nop gCmdHdr [], .nop gCmdHdr (List.replicate 4097 0)),
    (.abort gCmdHdr [], .abort { gCmdHdr with opcode := 256 } []),
    (.abort gCmdHdr [], .abort gCmdHdr (List.replicate 4097 0)),
    (.data gDataPkt, .data { gDataPkt with func := 16 }),
    (.reservedPtypeDrop 0, .reservedPtypeDrop 256),
    (.busyHintExpire 0 none, .busyHintExpire 16 none),
    (.busyHintExpire 0 none, .busyHintExpire 0 (some 256)),
    (.regRd gRegPkt, .regRd { gRegPkt with srcOrd := 64 }),
    (.regWr gRegPkt, .regWr { gRegPkt with srcOrd := 64 }),
    (.regRsp gRegPkt, .regRsp { gRegPkt with srcOrd := 64 }),
    (.bar2Access 0 4 false 0, .bar2Access 0x40000000 4 false 0),
    (.bar2Access 0 4 false 0, .bar2Access 0 3 false 0),
    (.regwinTimeout 0, .regwinTimeout 65536),
    (.sqTailWrite 0 0, .sqTailWrite 256 0),
    (.sqTailWrite 0 0, .sqTailWrite 0 65536),
    (.sqFetch 0 gSqEntry [], .sqFetch 256 gSqEntry []),
    (.sqFetch 0 gSqEntry [], .sqFetch 0 { gSqEntry with dstOrd := 64 } []),
    (.xferReady 0 0 0 0 0, .xferReady 64 0 0 0 0),
    (.xferReady 0 0 0 0 0, .xferReady 0 16 0 0 0),
    (.xferReady 0 0 0 0 0, .xferReady 0 0 65536 0 0),
    (.xferReady 0 0 0 0 0, .xferReady 0 0 0 0x100000000 0),
    (.xferReady 0 0 0 0 0, .xferReady 0 0 0 0 0x100000000),
    (.busyRetry 0 0 0 0 0, .busyRetry 64 0 0 0 0),
    (.busyRetry 0 0 0 0 0, .busyRetry 0 16 0 0 0),
    (.busyRetry 0 0 0 0 0, .busyRetry 0 0 65536 0 0),
    (.busyRetry 0 0 0 0 0, .busyRetry 0 0 0 4 0),
    (.busyRetry 0 0 0 0 0, .busyRetry 0 0 0 0 65536),
    (.busyResend 0 0 0, .busyResend 256 0 0)] : List (Instr × Instr)).all (fun e => e.1.wf && !e.2.wf) = true := by
  decide +kernel

theorem test_wf_refuses_commands_8 : ([
    (.busyResend 0 0 0, .busyResend 0 64 0),
    (.busyResend 0 0 0, .busyResend 0 0 65536),
    (.cpl gCplPkt, .cpl { gCplPkt with status := 256 }),
    (.event gEventPkt, .event { gEventPkt with code := 256 }),
    (.cqHeadWrite 0 0, .cqHeadWrite 256 0),
    (.cqHeadWrite 0 0, .cqHeadWrite 0 65536),
    (.answerTimeout 0, .answerTimeout 64),
    (.pathClear Path.host false 0, .pathClear Path.host false 0x100000000),
    (.frame 0 gFrameIn, .frame 8 gFrameIn),
    (.frame 0 gFrameIn, .frame 0 { gFrameIn with dst := 64 }),
    (.ack 0 0, .ack 8 0),
    (.ack 0 0, .ack 0 65536),
    (.nak 0 0, .nak 8 0),
    (.nak 0 0, .nak 0 65536),
    (.credit 0 FClass.req 0 false 0, .credit 8 FClass.req 0 false 0),
    (.credit 0 FClass.req 0 false 0, .credit 0 FClass.req 2 false 0),
    (.missedAck 0, .missedAck 8),
    (.laneRetire 0 LaneCause.margin, .laneRetire 64 LaneCause.margin),
    (.laneRejoin 0, .laneRejoin 64),
    (.portTrainDone 0 gTrainInfo, .portTrainDone 8 gTrainInfo),
    (.portTrainDone 0 gTrainInfo, .portTrainDone 0 { gTrainInfo with peerOrd := 64 }),
    (.trainFail 0, .trainFail 8),
    (.trainRetry 0, .trainRetry 8),
    (.rekey 0, .rekey 8),
    (.keySpent 0, .keySpent 8),
    (.portCfgWrite Path.host 0 0, .portCfgWrite Path.host 8 0),
    (.portCfgWrite Path.host 0 0, .portCfgWrite Path.host 0 0x100000000),
    (.gapHoldExpire 0 FClass.req none, .gapHoldExpire 64 FClass.req none),
    (.gapHoldExpire 0 FClass.req none, .gapHoldExpire 0 FClass.req (some 16)),
    (.noRouteExpire 0, .noRouteExpire 64)] : List (Instr × Instr)).all (fun e => e.1.wf && !e.2.wf) = true := by
  decide +kernel

theorem test_wf_refuses_commands_9 : ([
    (.pathLost 0 0 0, .pathLost 64 0 0),
    (.pathLost 0 0 0, .pathLost 0 64 0),
    (.pathLost 0 0 0, .pathLost 0 0 4),
    (.xwrite gXPkt, .xwrite { gXPkt with srcOrd := 64 }),
    (.xack gXPkt, .xack { gXPkt with srcOrd := 64 }),
    (.xread gXPkt, .xread { gXPkt with srcOrd := 64 }),
    (.xreadRsp gXPkt, .xreadRsp { gXPkt with srcOrd := 64 }),
    (.xresend 0, .xresend 0x100000000),
    (.wakePinChange 0 false, .wakePinChange 4 false),
    (.debounceExpire 0, .debounceExpire 4),
    (.stuck 0, .stuck 4),
    (.rearm Path.host 0, .rearm Path.host 0x100000000),
    (.watchSample 0 gCoolReading, .watchSample 256 gCoolReading),
    (.watchSample 0 gCoolReading, .watchSample 0 { gCoolReading with inlet := 256 }),
    (.powerupChecksPassed gCoolReading, .powerupChecksPassed { gCoolReading with inlet := 256 }),
    (.memRdy [], .memRdy [32]),
    (.powerSample gPowerReading, .powerSample { gPowerReading with centiVolt := 65536 }),
    (.valveTick gCoolReading, .valveTick { gCoolReading with inlet := 256 }),
    (.fenceEffect gFenceUnit FenceCause.checkMismatch, .fenceEffect { gFenceUnit with island := 512 } FenceCause.checkMismatch),
    (.fence Path.host gFenceUnit, .fence Path.host { gFenceUnit with island := 512 }),
    (.readmit Path.host gFenceUnit, .readmit Path.host { gFenceUnit with island := 512 }),
    (.selfTestDone gFenceUnit [], .selfTestDone { gFenceUnit with island := 512 } []),
    (.selfTestDone gFenceUnit [], .selfTestDone gFenceUnit [17]),
    (.stackFail 0, .stackFail 32),
    (.coreWatchdogExpire 0, .coreWatchdogExpire 4),
    (.coreRestartDone 0, .coreRestartDone 4),
    (.getCertificate Transport.i3c 0 0 0, .getCertificate Transport.i3c 256 0 0),
    (.challenge Transport.i3c 0 (List.replicate 32 0), .challenge Transport.i3c 0 []),
    (.getMeasurements Transport.i3c 0 (List.replicate 32 0), .getMeasurements Transport.i3c 256 (List.replicate 32 0)),
    (.getMeasurements Transport.i3c 0 (List.replicate 32 0), .getMeasurements Transport.i3c 0 [])] : List (Instr × Instr)).all (fun e => e.1.wf && !e.2.wf) = true := by
  decide +kernel

theorem test_wf_refuses_commands_10 : ([
    (.spdmUnsupportedRequest Transport.i3c 0, .spdmUnsupportedRequest Transport.i3c 256),
    (.registerMessageRead Transport.i3c false 0, .registerMessageRead Transport.i3c false 0x1000000),
    (.registerMessageWrite Transport.i3c false 0 0, .registerMessageWrite Transport.i3c false 0x1000000 0),
    (.registerMessageWrite Transport.i3c false 0 0, .registerMessageWrite Transport.i3c false 0 0x10000000000000000),
    (.mctpControl Transport.i3c 0, .mctpControl Transport.i3c 256),
    (.mctpDiscard Transport.i3c 0 0, .mctpDiscard Transport.i3c 256 0),
    (.pldmBaseRequest Transport.i3c 0, .pldmBaseRequest Transport.i3c 256),
    (.pldmSensorRead Transport.i3c 0, .pldmSensorRead Transport.i3c 65536),
    (.setSensorThresholds Transport.i3c 0 0 0, .setSensorThresholds Transport.i3c 65536 0 0),
    (.setSensorThresholds Transport.i3c 0 0 0, .setSensorThresholds Transport.i3c 0 0x100000000 0),
    (.setSensorThresholds Transport.i3c 0 0 0, .setSensorThresholds Transport.i3c 0 0 0x100000000),
    (.setEventReceiver Transport.i3c 0, .setEventReceiver Transport.i3c 256),
    (.effecterWrite Transport.i3c 0 0, .effecterWrite Transport.i3c 65536 0),
    (.effecterWrite Transport.i3c 0 0, .effecterWrite Transport.i3c 0 0x100000000),
    (.pldmUnsupported Transport.i3c 0 0, .pldmUnsupported Transport.i3c 256 0),
    (.pldmUnsupported Transport.i3c 0 0, .pldmUnsupported Transport.i3c 0 256),
    (.requestFirmwareData 0 [], .requestFirmwareData 0 (List.replicate 1025 0)),
    (.keyExchangeDone 0 false, .keyExchangeDone 8 false),
    (.rekeyRetry 0, .rekeyRetry 8)] : List (Instr × Instr)).all (fun e => e.1.wf && !e.2.wf) = true := by
  decide +kernel

/-! ## States and operands of the witnesses -/

/-- The state after a command that completes. -/
def after (i : Instr) (s : State) : State := match exec i s with
  | .next t => t
  | _ => s

/-- Every page ready, and the command engine with it. -/
def exOn : State := { State.reset with notReady := [], cmd := { CmdSt.reset with ready := true } }

/-- The same with some registers written. -/
def exReg (rs : List (Nat × Nat)) : State := rs.foldl (fun s e => s.wr e.1 e.2) exOn

/-- The bridge of an archipelago of two devices, with its page registers written. -/
def exBridge (rs : List (Nat × Nat)) : State := { exReg rs with fix := { FixSt.reset with bridge := true, dx := 2 } }

/-- WATCH at a step of the power-up. -/
def exWatch (up : Nat) : State :=
  { State.reset with pwr := { PwrSt.reset with st := .watch, upStep := up, rdy := 0, fullMode := false } }

/-- WATCH with registers of the watch domain written. -/
def exWatchReg (rs : List (Nat × Nat)) : State := rs.foldl (fun s e => s.wr e.1 e.2) (exWatch 0)

/-- A state of power. -/
def exPower (st : PState) : State := { exOn with pwr := { PwrSt.reset with st := st } }

/-- A pin in one state, pin 0. -/
def exPin (p : PinSt) : State := { exOn with pwr := { PwrSt.reset with pins := p :: List.replicate 3 PinSt.reset } }

/-- Coolant well within its limits. -/
def exCool : CoolReading :=
  { inlet := 30, outlet := 40, flow := 40, inPress := 100, outPress := 90, pumpHz := 50, stackMax := 60, dieMax := 70, inRange := true }

/-- The page row and the register row of an address. -/
def exPage (a : Nat) (h : (pageOf a).isSome = true) : PageRow := ((pageOf a).get h).1
def exRow (a : Nat) (h : (rowOf a).isSome = true) : RegRow := (rowOf a).get h

/-- A matrix operation on one element of each operand. -/
def exMat : MatOp :=
  { fmtA := .int8, fmtB := .int8, scaleA := .none, scaleB := .none, mxBlock := 32, acc := .acc32, m := 1, n := 1, k := 1, tile := 0,
    init := .clear, preshift := 0, seed := 0, winLsb := 0, readout := .int32, readRnd := .rne, aOff := 0, bOff := 64, saOff := 0,
    sbOff := 0, biasOff := 0, outOff := 128, func := 0, tag := 0 }

/-- Its run before its first pass. -/
def exRun : MatRun :=
  { op := exMat, pass := 0, attempt := 0, mode := .full, promoted := false, winRange := false, gens := [], ovf := false,
    nanSeen := false, finished := false }

/-- Islet 0 with operations. -/
def exIslet (ops : List MatRun) : State := { exOn with ar := { exOn.ar with islets := [{ isletZero 0 with ops := ops }] } }

/-- A vector instruction on register 0 into register 1. -/
def exVec (k : VecKind) : VecOp := { kind := k, a := 0, b := 0, c := 0, d := 1, rnd := .rne, seed := 0, store := none }

/-- An atomic of a sequencer on the first word of the system area of island 0. -/
def exAtomic : AtomicReq := { islet := 0, addr := 0x100000000000, ctxSlot := 0, seqr := true, func := 0, tag := 0 }

/-- A transfer of island 0 for its neighbour to the south, and island 0 with it. -/
def exNear : Transfer := { src := 0, dst := (neighbour 0 .south).getD 0, data := [] }
def exStrait (fails : Nat) : State := { exOn with ar := { exOn.ar with
  inq := [{ island := 0, from_ := none, q := [exNear] }]
  straits := [{ island := 0, dir := .south, fails := fails, cut := false, last := 4 }] } }

/-- A window read of a register of device 1 in flight. -/
def exWin : WinAcc := { rid := 7, ord := 1, wide := false, write := false, off := 0x1007040, sentAt := 0 }

/-- The bridge while it waits for that read. -/
def exWindow : State := { exBridge [] with brg := { BridgeSt.reset with wins := [exWin] } }

/-- The command every example is about: function 0, tag 5. -/
def exRef : CmdRef := { func := 0, tag := 5 }

/-- A header of that command on channel 0 with an inline body. -/
def exHdr (op len : Nat) : CmdHdr :=
  { opcode := op, func := 0, fence := false, channel := 0, tag := 5, srcOrd := 0, dstOrd := 0, ring := 0, inlineLen := len,
    xferLen := 0, reserved := 0 }

/-- That command in flight with a body. -/
def exLive (op : Nat) (b : Body) : Live :=
  { h := exHdr op b.length, body := b, got := [], handle := 0, intake := [], stage := .running, island := 0, stamp := 0, tide := 0,
    epoch := 0, accepted := 0, order := 0, committed := false, came := 0 }

/-- An object of function 0 in T2, on stack 0 from granule 16 `h` on, and one in T3. -/
def exObj (h : Nat) : Obj :=
  { func := 0, handle := h, t3Alloc := false, inT2 := true, stack := 0, parity := false, size := 2 ^ 20,
    grans := (List.range 16).map (fun i => 16 * h + i), units := [], pins := [], shares := [], key := none }
def exFile (h : Nat) : Obj :=
  { func := 0, handle := h, t3Alloc := true, inT2 := false, stack := 0, parity := false, size := 2 ^ 26, grans := [],
    units := List.range 16, pins := [], shares := [], key := none }

/-- A resident context, and its channel on island 0. -/
def exCtx : Ctx :=
  { id := 0, func := 0, prio := 0, slices := 1, units := 1, seed := 0, st := .resident, slot := 0, first := 0, retire := none,
    since := 0, done := 0 }
def exChan : Chan :=
  { num := 0, func := 0, ctx := 0, island := 0, flow := false, ring := 0, closing := none, held := [], newIsland := none, src := 0 }

/-- Function 0 enabled, with its context, its channel and objects: T2 with handles 0 and 1, T3 with handle 2. -/
def exBase : State := { exReg [(Reg.schedFuncCfg 0, 1)] with
  sch := { SchedSt.reset with funcs := .active :: List.replicate 15 .disabled, ctxs := [exCtx], chans := [exChan] }
  mm := { MemSt.reset with objs := [exObj 0, exObj 1, exFile 2] } }

/-- The state and the live command right after a command arrived with its body. -/
def sent (s : State) (h : CmdHdr) (b : Body) : State := ((s.arrive h b).1.bodyDone h.ref).1
def sentLive (s : State) (h : CmdHdr) (b : Body) : Live := ((sent s h b).live? h.ref).getD (exLive 0 [])

/-- Whether a command is stamped at once, and whether it waits for its stamp, as one check each. -/
def stampsB (s : State) (chk : BodyCheck) (h : CmdHdr) (b : Body) : Bool :=
  s.powered && (s.arrive h b).2 == some h.ref &&
  ((s.arrive h b).1.live? h.ref).any (fun x => (chk (s.arrive h b).1 x.h x.body).isNone) &&
  ((s.arrive h b).1.bodyDone h.ref).2 && ((sent s h b).live? h.ref).isSome
def waitsB (s : State) (chk : BodyCheck) (h : CmdHdr) (b : Body) : Bool :=
  s.powered && (s.arrive h b).2 == some h.ref &&
  ((s.arrive h b).1.live? h.ref).any (fun x => (chk (s.arrive h b).1 x.h x.body).isNone) && !((s.arrive h b).1.bodyDone h.ref).2

theorem stamps_of_check {s : State} {chk : BodyCheck} {h : CmdHdr} {b : Body} (c : stampsB s chk h b = true) :
    s.stampsAtOnce chk h b (sentLive s h b) (sent s h b) := by
  simp only [stampsB, Bool.and_eq_true, beq_iff_eq] at c
  obtain ⟨⟨⟨⟨c1, c2⟩, c3⟩, c4⟩, c5⟩ := c
  refine ⟨c1, c2, c3, Prod.ext rfl c4, ?_⟩
  obtain ⟨l, hl⟩ := Option.isSome_iff_exists.mp c5
  simp [sentLive, hl]

theorem waits_of_check {s : State} {chk : BodyCheck} {h : CmdHdr} {b : Body} (c : waitsB s chk h b = true) :
    s.waitsForStamp chk h b (sent s h b) := by
  simp only [waitsB, Bool.and_eq_true, beq_iff_eq, Bool.not_eq_true'] at c
  obtain ⟨⟨⟨c1, c2⟩, c3⟩, c4⟩ := c
  exact ⟨c1, c2, c3, Prod.ext rfl c4⟩

/-- The state and the command once it is accepted, and the check that it takes its place on a stream. -/
def arrived (s : State) (h : CmdHdr) (b : Body) : State := (s.arrive h b).1
def arrivedLive (s : State) (h : CmdHdr) (b : Body) : Live := ((arrived s h b).live? h.ref).getD (exLive 0 [])
def entersB (s : State) (chk : BodyCheck) (h : CmdHdr) (b : Body) : Bool :=
  s.powered && (s.arrive h b).2 == some h.ref && ((arrived s h b).live? h.ref).isSome && (arrivedLive s h b).h == h &&
  (chk (arrived s h b) h (arrivedLive s h b).body).isNone && (arrived s h b).resident h && !h.fence

theorem enters_of_check {s : State} {chk : BodyCheck} {h : CmdHdr} {b : Body} (c : entersB s chk h b = true) :
    s.entersStream chk h b (arrived s h b) (arrivedLive s h b) := by
  simp only [entersB, Bool.and_eq_true, beq_iff_eq, Bool.not_eq_true', Option.isNone_iff_eq_none] at c
  obtain ⟨⟨⟨⟨⟨⟨c1, c2⟩, c3⟩, c4⟩, c5⟩, c6⟩, c7⟩ := c
  obtain ⟨l, hl⟩ := Option.isSome_iff_exists.mp c3
  exact ⟨c1, Prod.ext rfl c2, by simp [arrivedLive, hl], c4, c5, c6, c7⟩

/-- An index of one empty shoal, with its one centroid, in state `st`. -/
def exIndex (st : Nat) : Index :=
  { no := 0, func := 0, ingress := 0, newIngress := none, st := st, desc := List.replicate 64 0, live := 0, img := 1, imgDone := true,
    built := true, due := 0, cents := [{ src := [], codes := [], scales := [], word := 0 }], loadCmd := none, unloadCmd := none, saves := [], sealNo := 0,
    sweep := 0, lowDir := false, digests := [] }
def exIdx (x : Index) : State := { exBase with idx := { IdxSt.reset with indexes := [x] } }

/-- Object 1 with an image header of the index kind and one section that runs past the object's end. -/
def exImage (x : Index) : State :=
  ((exIdx x).setBytes (t2Addr 0 (16 * 65536)) (leBytes 8 (0x4B5A494D + 2 ^ 32 + 2 ^ 40 + 2 ^ 48))).setBytes
    (t2Addr 0 (16 * 65536 + 72)) (leBytes 8 (2 ^ 40))

/-- One entry in the command stream of island 0, with the command in flight. -/
def exStream (x : Stream) (op : Nat) : State :=
  { exBase with cmd := { exBase.cmd with deliver := [(0, x)], live := [exLive op []] } }

/-- Two commands of one channel in the streams, the later of which has come to its island's head. -/
def exOlder : Live := { exLive Op.nop [] with h := { exHdr Op.nop 0 with tag := 4 }, stage := .delivered, order := 1 }
def exBehind : State := { exBase with cmd := { exBase.cmd with
  deliver := [(0, .cmd exRef)], live := [exOlder, { exLive Op.nop [] with stage := .delivered, order := 2 }] } }

/-- Two devices in a row, without a bridge here, that follow nobody or one. -/
def exTwo (f : Option Nat) : State :=
  { exOn with fix := { FixSt.reset with dx := 2, ord := 1 }, zwx := { State.reset.zwx with follow := f } }

/-- A query of index 0 in a state, and the state with it and its command. -/
def exQuery (st : QSt) : Query :=
  { r := exRef, idx := 0, ord := 0, epoch := 0, bno := 0, st := st, vec := [], codes := [], scales := [], norm := 0, order := [],
    pos := 0, taken := 0, probesDone := 0, waiting := [], nBound := 0, rounds := 0, level := 0, vis := 0, pass := 0, dup := 0,
    skipped := false, rrPart := false, merged := [], lists := [], result := [], tie := false }
def exSearch (st : QSt) (b : Body) : State :=
  { exIdx (exIndex 2) with
    idx := { IdxSt.reset with indexes := [exIndex 2], queries := [exQuery st] }
    cmd := { exBase.cmd with live := [exLive Op.search b] } }

/-- A command in the stream of island 0, for index 0. -/
def exStamping (op : Nat) (b : Body) : State :=
  { exIdx (exIndex 2) with cmd := { exBase.cmd with deliver := [(0, .cmd exRef)], live := [exLive op b] } }

/-- A set of shoal 0 of index 0 in a bank. -/
def exBank (st : BankSt) : Bank :=
  { idx := 0, shoal := 0, st := st, cap := 0, target := 0, rows := 0, code := none, island := 0, kib := 0, late := false, qs := [] }
def exBanks (st : BankSt) : State :=
  { exBase with idx := { IdxSt.reset with indexes := [exIndex 2], banks := [exBank st] } }

/-- A set that reports to one query, which waits for its shoal. -/
def exSetQ : SetQ := { r := exRef, ord := 0, thr := 0, cand := [], vis := 0, pass := 0, skipped := false, out := false }
def exReporting : State := { exSearch .scanning [] with idx := { (exSearch .scanning []).idx with
  banks := [{ exBank .report with qs := [exSetQ] }] } }

/-- A mutation of one DELETE record, and the same staged. -/
def exMutation : Body := List.replicate 64 0 ++ leBytes 32 (2 * 2 ^ 48)
def exStaged : Staged := { r := exRef, idx := 0, ord := 0, bno := 0, commitAt := 0, count := 1, recs := none, deferred := false }

/-- A TOPK and a MERGE body, and the selection before its first piece. -/
def exTopk : Body := leBytes 64 (2 ^ 64 + 2 ^ 160)
def exMerge : Body := leBytes 64 (1 + 2 ^ 160)
def exSel : SelRun := { r := exRef, at_ := [], done := [], lists := [], nans := [], bad := false }
def exSelect (b : Body) : State :=
  { exBase with cmd := { exBase.cmd with live := [exLive Op.select b] }, idx := { IdxSt.reset with sels := [exSel] } }

/-- A key-value cache of context 0 with two pools of object 0, page tables in object 1. -/
def exKv : KvCtx :=
  { ctx := 0, func := 0, pools := [(0, 1), (0, 1)], root := 1, ageq := 0, drop := false, layout := 0, mirror := false, devs := [0],
    mirs := [], span := 1, quota := 0, next := none, frames := [], leaves := [], dirSlots := [], chunks := [], age := [], ageTail := 0,
    spill := [], spillNext := 0, key := none }

/-- A sequence of that context, an entry of it in a step, its attention run, and the cohort step. -/
def exSeq : Seq :=
  { slot := 0, func := 0, ctx := 0, chan := 0, flow := false, cohort := 0, body := [], written := 0, last := 0, tokens := 0, level := 0,
    readyAt := 0, began := false, wait := none, want := none, heldAt := 0, noCand := 0, closeCmd := none, openCmd := none,
    ended := false, keep := false }
def exEntry : CEntry :=
  { seq := 0, qlen := 1, pos0 := 0, rowBase := 0, level := 0, status := 0, die := 0, token := none, nan := false, doneAt := 0,
    left := false }
def exAttn : AttnRun :=
  { entry := 0, layer := 0, group := 0, chosen := false, listed := false, retr := [], splits := [], parts := [], merge := 0, arrived := 0, out := none }
def exCohort (r : AttnRun) : Cohort :=
  { slot := 0, chan := 0, flow := none, func := 0, ctx := 0, cmd := some exRef, no := 1, opened := 0, entries := [exEntry], pieces := [],
    fresh := [], attns := [r], wins := [], busy := 0, bytes := 0, ops := 0 }
def exAt : AttnRef := { slot := 0, entry := 0, layer := 0, group := 0 }

/-- A model of one layer, resident. -/
def exModel : ModelSt :=
  { st := 2, func := 0, desc := List.replicate 128 0, img := 1, ident := 0, loadCmd := none, winKib := 0, digests := [] }

/-- The cache with that sequence, and with a cohort step. -/
def exCache (q : Seq) (k : KvSt) : State := { exBase with kv := k, gen := { GenSt.reset with seqs := [q] } }
def exStep (r : AttnRun) : State :=
  { exBase with kv := { KvSt.reset with ctxs := [exKv] }, gen := { GenSt.reset with seqs := [exSeq], cohorts := [exCohort r] } }

/-- Page 5 of the sequence, and its table word in object 1: in T2, full, pool 0, frame 0. -/
def exPg : PageRef := { seq := 0, layer := 0, group := 0, page := 5 }
def exPaged (s : State) : State := s.setBytes (t2Addr 0 (16 * 65536 + 80)) (leBytes 16 (2 ^ 40 + 64 * 2 ^ 42))

/-- A movement of that page. -/
def exMove : PageMove := { p := exPg, ctx := 0, pool := 0, frame := 0, spill := 0, cmd := none, spare := none, done := false, gone := false }

/-- A split of page 5 that a task of islet 3 runs, and the step with that task. -/
def exSplitRun : AttnRun := { exAttn with chosen := true, splits := [{ pages := [5], t3 := false, stack := 0, landed := [], done := [] }] }

/-- The cache with a movement of the page to T3, and flash ready for it or not. -/
def exSpilling (ready : Bool) : State := { exCache exSeq { KvSt.reset with ctxs := [exKv], spills := [exMove] } with
  fl := { FlashSt.reset with ready := ready } }
def exPromoting : PageMove := { exMove with cmd := some exRef }

/-- A task on an islet. -/
def exTask (k : TaskKind) (islet : Option Nat) : Task :=
  { id := 0, island := 0, kind := k, func := 0, ctx := none, cls := 0, aged := false, entered := 0, ready := true, islet := islet,
    started := 0, since := 0, killing := false, kills := 0, tiles := 0, save := none, ran := 0, cmd := none, homes := [] }


def exSplitStep : State := { exStep exSplitRun with
  sch := { SchedSt.reset with tasks := [exTask (.split exAt 5 0) (some 3)] }
  gen := { (exStep exSplitRun).gen with cohorts := [{ exCohort exSplitRun with entries := [{ exEntry with pos0 := 400 }] }] } }

/-- The sections of a saved image, and a length that the image does not pass: the kernel counts it without writing out the padding. -/
def saveSecs (s : State) (x : Index) : List (Nat × List Byte) :=
  let bm (h : Nat) : Nat × List Byte := (6, s.hBytes x.func h 0 (bmBytes (s.bmBlocks x.func h) (s.bmLeafCap x.func h)))
  [(1, (x.desc.take 52) ++ leBytes 12 (x.live + 2 * 2 ^ 64)),
    (2, ((List.range x.nShoals).map (fun h => leBytes 32 (setBits (leNat (s.hBytes x.func x.hTab (32 * h) 32)) 225 224 0))).flatten),
    (3, s.hBytes x.func x.hCent 0 (x.nShoals * x.dims * 4)),
    (4, ((List.range x.nShoals).map (fun h => s.hBytes x.func (s.shCode x h) 0 (cdiv (s.shRows x h) 32 * x.blockBytes))).flatten),
    (5, ((List.range x.nShoals).map (fun h => s.hBytes x.func x.hMap (8 * s.shBase x h) (8 * s.shRows x h))).flatten),
    bm x.hTomb] ++ (s.filtersOf x).map bm
def tabLen (secs : List (Nat × List Byte)) : Nat := (secs.map (fun p => 48 * cdiv p.2.length 67108864)).sum
def imageLen (secs : List (Nat × List Byte)) : Nat :=
  max (64 + 64 * secs.length) 65536 + max (tabLen secs) (cdiv (tabLen secs) 65536 * 65536) +
    (secs.map (fun p => max p.2.length (roundUp p.2.length 65536))).sum

theorem leBytes_length (n v : Nat) : (leBytes n v).length = n := by
  induction n generalizing v with
  | zero => rfl
  | succ n ih => simp [leBytes, ih]

theorem sha384_length (b : List Byte) : (sha384 b).length = 48 := by simp [sha384, exactly]

theorem chunk_digests_length (b : List Byte) : ((chunksOf b).map sha384).flatten.length = 48 * cdiv b.length 67108864 := by
  simp [chunksOf, List.length_flatten, Function.comp_def, sha384_length, Nat.mul_comm]

theorem digest_table_length (secs : List (Nat × List Byte)) :
    (secs.map (fun p => ((chunksOf p.2).map sha384).flatten)).flatten.length = tabLen secs := by
  simp only [tabLen, ← chunk_digests_length, List.length_flatten, List.map_map, Function.comp_def]

theorem buildImage_length_le (kind ident : Nat) (secs : List (Nat × List Byte)) :
    (buildImage kind ident secs).length ≤ imageLen secs := by
  simp only [buildImage, List.length_append, digest_table_length, List.length_replicate, add_tsub_eq_max, imageLen, leBytes_length,
    Nat.add_sub_cancel_left]
  refine Nat.add_le_add (Nat.add_le_add_right (max_le_max (Nat.add_le_add_left ?_ 64) (Nat.le_refl _)) _) (Nat.le_of_eq ?_)
  · simp only [List.length_flatten, List.map_map, Function.comp_def, List.length_append, leBytes_length, sectionDigest, sha384_length,
      List.map_const', List.sum_replicate, List.length_zip, smul_eq_mul]
    omega
  · simp only [List.length_flatten, List.map_map, Function.comp_def, List.length_append, List.length_replicate, add_tsub_eq_max]

theorem saveImage_length_le (s : State) (x : Index) : (s.saveImage x).length ≤ imageLen (saveSecs s x) :=
  buildImage_length_le 1 0 (saveSecs s x)

/-- The check of an INDEX_SAVE by that length. -/
def chkSaveLen : BodyCheck := fun s h b =>
  if fld b 31 6 ≠ 0 then some (Status.indexParam, [])
  else match s.readyIndex h.func (fld b 5 0) with
  | none => some (Status.indexNotReady, [])
  | some x => match s.obj? h.func (fld b 63 32) with
    | none => some (Status.indexParam, [])
    | some o =>
      if o.inT2 || o.func != h.func then some (Status.indexParam, [])
      else if imageLen (saveSecs s x) > o.size ∨ 57 < (s.filtersOf x).length then some (Status.imageSpace, []) else none

theorem chkIndexSave_of_len (s : State) (h : CmdHdr) (b : Body) (c : chkSaveLen s h b = none) : chkIndexSave s h b = none := by
  simp only [chkSaveLen] at c
  simp only [chkIndexSave]
  repeat' split at c
  all_goals first | cases c | skip
  all_goals simp_all
  all_goals
    rename_i fit
    simp only [State.imageFits, Bool.and_eq_true, decide_eq_true_eq]
    exact ⟨Nat.le_trans (saveImage_length_le _ _) fit.1, fit.2⟩

theorem imageFits_of_len {s : State} {x : Index} {oo : Option Obj}
    (c : oo.any (fun o => decide (imageLen (saveSecs s x) ≤ o.size) && decide ((s.filtersOf x).length ≤ 57)) = true) :
    oo.any (s.imageFits x) = true := by
  simp only [Option.any_eq_true, Bool.and_eq_true, decide_eq_true_eq, State.imageFits] at c ⊢
  obtain ⟨o, ho, c1, c2⟩ := c
  exact ⟨o, ho, Nat.le_trans (saveImage_length_le _ _) c1, c2⟩

theorem stampsB_of_check {s : State} {chk chk' : BodyCheck} {h : CmdHdr} {b : Body}
    (w : ∀ s h b, chk s h b = none → chk' s h b = none) (c : stampsB s chk h b = true) : stampsB s chk' h b = true := by
  simp only [stampsB, Bool.and_eq_true, Option.any_eq_true, Option.isNone_iff_eq_none] at c ⊢
  obtain ⟨⟨⟨c1, x, hx, c2⟩, c3⟩, c4⟩ := c
  exact ⟨⟨⟨c1, x, hx, w _ _ _ c2⟩, c3⟩, c4⟩

theorem exSave_stamps :
    stampsB (exIdx (exIndex 2)) chkIndexSave (exHdr Op.indexSave 8) (leBytes 8 (2 * 2 ^ 32)) = true :=
  stampsB_of_check chkIndexSave_of_len (by decide +kernel)

theorem exSave_fits :
    ((sent (exIdx (exIndex 2)) (exHdr Op.indexSave 8) (leBytes 8 (2 * 2 ^ 32))).obj?
      (sentLive (exIdx (exIndex 2)) (exHdr Op.indexSave 8) (leBytes 8 (2 * 2 ^ 32))).h.func
      (fld (sentLive (exIdx (exIndex 2)) (exHdr Op.indexSave 8) (leBytes 8 (2 * 2 ^ 32))).body 63 32)).any
      ((sent (exIdx (exIndex 2)) (exHdr Op.indexSave 8) (leBytes 8 (2 * 2 ^ 32))).imageFits (exIndex 2)) = true :=
  imageFits_of_len (by decide +kernel)

/-- A piece of rows at the end of stage 1, the half of island 0 it fills, and the cohort step with pieces and handle queues. -/
def exPiece : Piece :=
  { die := 0, mb := 0, rows := [(0, 0)], low := false, chunk0 := 0, st := 1, layer := 0, started := true, full := true, done := [],
    parts := [], res := [], cur := [], swapped := [], again := [], owed := [] }
def exBuf : BufHandle := { island := 0, buf := 0, half := 0, cohort := 0, stage := 1, layer := 0, mb := 0, rowsM1 := 0 }
def exPieces (ps : List Piece) (qs : List HQueue) : State := { exBase with
  sch := { exBase.sch with ctxs := [{ exCtx with units := 64 }] }
  gen := { GenSt.reset with
  model := { exModel with desc := leBytes 128 (2 ^ 16), winKib := 64 }, queues := qs, cohorts := [{ exCohort exAttn with pieces := ps }] } }
def exQueue (st : Nat) (bs : List BufHandle) : HQueue := { island := 0, stage := st, q := bs }

/-- A sequence of the flow mode, with the model resident. -/
def exFlow : State := { exBase with gen := { GenSt.reset with model := exModel, seqs := [{ exSeq with flow := true }] } }

/-- A model that loads, from an image in object 1. -/
def exLoading (bad : Bool) : State :=
  { (if bad then exImage (exIndex 2) else exBase) with
    gen := { GenSt.reset with model := { exModel with st := 1, loadCmd := some exRef } }
    cmd := { exBase.cmd with live := [exLive Op.modelLoad []] } }

/-- Tasks of island 0, and a stage task of the piece above with its tiles in the window of its island, or with none. -/
def exTasks (ts : List Task) : State := { exOn with sch := { SchedSt.reset with tasks := ts } }
def exStageTask (tiles : Bool) (p : Piece) : State :=
  let s := exPieces [p] []
  let k := { exCohort exAttn with pieces := [p] }
  let i := s.colIsland 0 0
  { s with
    sch := { exBase.sch with tasks := [exTask (.stage 0 0 1 0 0 0) (some 3)] }
    gen := { s.gen with cohorts := [{ k with wins := if tiles then [{ island := i, tiles := s.islandTiles k i }] else [] }] } }
def exGoing : Piece := { exPiece with full := false }
def exMcast : Mcast := { sender := 0, total := 10, recv := [(1, 0)], detached := [], weight := false }
def exFlow0 : State := { exBase with gen := { GenSt.reset with model := exModel } }

/-- A step whose one sequence has its token. -/
def exSampled : State := { exStep exAttn with gen := { (exStep exAttn).gen with
  cohorts := [{ exCohort exAttn with entries := [{ exEntry with token := some 4 }] }] } }

/-- A movement of an object, and the state with it and its command. -/
def exMemOp (k : MemOpKind) (tag : Nat) : MemOp :=
  { kind := k, func := 0, tag := tag, owner := 0, handle := 0, dstStack := 1, dstGrans := [5], copied := false }
def exMoving (i : List Index) (x : MemOp) : State :=
  { exBase with mm := { exBase.mm with ops := [x] }, idx := { IdxSt.reset with indexes := i }
                cmd := { exBase.cmd with live := [exLive Op.mem (leBytes 64 (1 + 2 ^ 64))] } }

/-- Stack 1 in a state, with 16 parity granules a stack in its group, and its granule 3 in use or not. -/
def exStack (x : StackSt) (used : Bool) : State := { exReg [(Reg.dramcParCfg 0, 16)] with mm := { MemSt.reset with
  stk := StackSt.reset :: x :: List.replicate 30 StackSt.reset
  objs := if used then [{ exObj 0 with stack := 1, grans := [3] }] else [] } }
def exBadLine : StackSt := { StackSt.reset with bad := [0] }
def exBadGran : StackSt := { StackSt.reset with ues := [3] }
def exTaken : Option (List Nat × State) := (exStack exBadGran true).takeGrans 1 ((exStack exBadGran true).inClass 1 true 3) 1

/-- A descriptor between the system area of island 0 and an address, and the slot that holds it. -/
def exDesc (dst mode : Nat) : FerryDesc :=
  { src := 0x100000000000, dst := dst, len := 64, rowsM1 := 0, srcStride := 0, dstStride := 0, mode := mode, mergeOk := false, irq := false,
    chain := false, next := 0, func := 0, ctx := 0, mcastSet := 0, reserved := 0 }
def exSlot (d : FerryDesc) (started : Bool) : SlotSt := { SlotSt.idle 0 0 with work := some d, started := started }
def exFerry (s : State) (x : SlotSt) : State := { s with mm := { s.mm with slots := [x] } }
def exT1 (mode : Nat) : FerryDesc := exDesc 0x100000001000 mode
def exToT2 : FerryDesc := exDesc (t2Addr 1 0) 0

/-- The flash in a state, and a ready flash with a map. -/
def exFlash (f : FlashSt) : State := { exOn with fl := f }
def exMapped (m : List (Nat × Nat)) : FlashSt := { FlashSt.reset with ready := true, map := m }
def exBlk (b erases : Nat) (marked : Bool) : Blk :=
  { ch := 0, blk := b, slc := false, used := true, erases := erases, reads := 0, rebuilds := 0, marked := marked, backlog := false, retired := false }
def exGc : FMove := { unit := 5, src := 64, dst := 128, kind := .gc, susp := 0 }
def exFWrite : FWrite := { unit := 5, bytes := [], copy := false, place := 64, ch := 0, waiting := false, susp := 0 }
def exStripe : Stripe := { group := 0, no := 0, opened := 0, units := [(5, 64, true)], shut := false }
def exBuffered : State := exFlash { exMapped [(5, 64)] with stripes := [exStripe] }
def exBusy : State := { exBase with mm := { exBase.mm with ops := [exMemOp .move 9] } }
/-- Contexts and channels of function 0 in other states. -/
def exCtxs (cs : List Ctx) (hs : List Chan) (ls : List Live) : State := { exReg [(Reg.schedFuncCfg 0, 1 + 4 * 256)] with
  sch := { SchedSt.reset with funcs := .active :: List.replicate 15 .disabled, ctxs := cs, chans := hs }
  cmd := { exOn.cmd with live := ls } }
def exRetiring : Ctx := { exCtx with st := .retiring, retire := some exRef }
def exClosing : Chan := { exChan with closing := some exRef }
def exResetting (killed : Bool) : State :=
  { exOn with sch := { SchedSt.reset with funcs := .resetting 1 killed :: List.replicate 15 .disabled } }

/-- Island 0 full of tasks of class 0 while one of class 1 waits. -/
def exWaiting : Task := { exTask .probe none with id := 20, cls := 1 }
def exFull : State := { exReg [(Reg.schedPreemptCfg, 2 ^ 16)] with sch := { SchedSt.reset with
  tasks := exWaiting :: (List.range 16).map (fun i => { exTask .probe (some i) with id := i }) } }
def exKilled : Task := { exTask .probe (some 3) with killing := true }

/-- Eight idle resident contexts, and a ninth that waits with a command. -/
def exStarving : State := exCtxs
  ({ exCtx with id := 8, st := .waiting } :: (List.range 8).map (fun i => { exCtx with id := i, slot := i }))
  [{ exChan with ctx := 8 }] [exLive Op.search []]

/-- A command whose body of 128 bytes has not come yet, a packet of it, and another function's. -/
def exAwaiting : Live := { exLive Op.mutate [] with h := { exHdr Op.mutate 0 with xferLen := 128 }, handle := 3, stage := .awaiting }
def exData (f : Nat) : DataPkt := { func := f, tag := 5, handle := 3, offset := 0, bytes := List.replicate 64 0 }
def exIntake (ls : List Live) : State := { exOn with cmd := { exOn.cmd with live := ls } }
def exHint : Hint := { func := 0, chan := none, cause := 0, untilNs := 0, n := 0 }

/-- A hint of the function-class queue that still runs. -/
def exRunning : Hint := { exHint with untilNs := 1000, n := 1 }

/-- Ring 0 of the bridge with an entry to fetch, an entry, and a command taken from the ring. -/
def exRings (rs : List (Nat × Nat)) : State :=
  exBridge ([(Reg.hringSqCfg 0, 1 + 4 * 256), (Reg.hringCqCfg 0, 1 + 4 * 256), (Reg.hringSqTail 0, 1)] ++ rs)
def exSq (reserved : Nat) : SqEntry :=
  { dstOrd := 1, opcode := Op.nop, fence := false, channel := 0, tag := 5, bodyAddr := 0, bodyLen := 0, respAddr := 64, respLen := 64,
    reserved := reserved }
def exRingCmd (refused : Bool) : RingCmd :=
  { id := 0, ring := 0, ord := 1, h := { exHdr Op.mutate 0 with xferLen := 128 }, body := List.replicate 128 0, respAddr := 64, respLen := 64,
    sent := true, answered := false, refused := refused, retried := false, sentAt := 0, resendAt := 0 }
def exFirst : RingCmd := { exRingCmd true with id := 1, h := { (exRingCmd true).h with tag := 4 } }
def exRingSt (cs : List RingCmd) : State := { exRings [] with brg := { BridgeSt.reset with cmds := cs } }
def exCpl (last : Bool) (bs : Body) : CplPkt :=
  { status := 0, func := 0, kind := 0, dupTag := false, last := last, channel := 0, tag := 5, srcOrd := 1, ring := 0, bodyLen := bs.length,
    fragOff := 0, time := 0, bytes := bs }
def exEvent : EventPkt := { code := 1, func := 0, wide := false, srcOrd := 1, data := 0, time := 0 }
/-- Port 0 of a row of two devices in a state, an arriving frame, and what a training learns. -/
def exLink (p : Port) : State := { exReg [(Reg.zwxPortCfg 0, 1)] with
  fix := { FixSt.reset with dx := 2 }, zwx := { ZwxSt.reset with ports := p :: (List.range 7).map (fun i => Port.reset (i + 1)) } }
def exUp : Port := { Port.reset 0 with st := .up, laneMask := 1 }
def exEnc : Port := { exUp with enc := true, keys := some (0, 0) }
def exFrame (lseq : Nat) (crcOk tagOk : Bool) : FrameIn :=
  { dst := 0, src := 1, cls := .req, vc := 0, mc := false, group := 0, eseq := 0, lseq := lseq, keyPhase := 0, crcOk := crcOk,
    tagOk := tagOk, ptype := 0, body := [] }
def exSent : Sent := { lseq := 3, f := exFrame 3 true true, wire := [], at_ := 0 }
def exTrain (o : Nat) : TrainInfo :=
  { peerOrd := o, peerDims := 1, peerEnc := false, peerBridge := false, authOk := false, flightNs := 5, laneMask := 255 }

/-- A transfer of four bytes, and one outstanding for a mirror page. -/
def exX (addr : Nat) (err : Bool) : XPkt :=
  { srcOrd := 1, func := 0, xid := 7, addr := addr, lenM1 := 3, replyAddr := 0, err := err, data := [1, 2, 3, 4], place := .memory }
def exOut (write : Bool) : XferOut :=
  { xid := 7, dst := 1, write := write, x := exX 0x100000000000 false, sentAt := 0, use := .mirror exPg }
def exXfers (o : XferOut) : State :=
  { exCache exSeq { KvSt.reset with ctxs := [exKv] } with zwx := { ZwxSt.reset with xfers := [o] } }

/-- WATCH after a thermal trip, with a wake whose hold has run. -/
def exTripped (up : Nat) (wake : Bool) : State := { exWatchReg [(Reg.pwrEvents, 1)] with
  pwr := { PwrSt.reset with st := .watch, upStep := up, rdy := 0, fullMode := false, heldWake := wake, lastWake := some 0 } }

/-- Units and cores in trouble. -/
def exUnit (whole : Bool) : FenceUnit := { whole := whole, island := 0, islet := 0 }
def exFaulty (f : FaultSt) : State := { exOn with flt := f }
def exCore (restarting : Bool) (rs : List Nat) : CoreSt := { up := !restarting, restarting := restarting, restarts := rs }
def exCores (c : CoreSt) : State := { exOn with
  sec := { SecSt.reset with released := true }, flt := { FaultSt.reset with cores := exCore false [] :: List.replicate 3 c } }

/-- The control cores serve, with SPDM in a state on I3C, and with an update. -/
def exServe (st : SpdmSt) (m : MgmtSt) : State := { exOn with
  sec := { SecSt.reset with step := .done, released := true, spdm := [(.i3c, st)] }, mgmt := m }
def exUpd (got : List Byte) (verified : Option Bool) (applied : Bool) : UpdateSt :=
  { t := .i3c, slotB := true, len := 2, got := got, lastAnswer := 0, verified := verified, applied := applied }
def exUpdating (w : UpdateSt) : State := exServe .start { MgmtSt.reset with update := some w }

/-- A transfer held at its router because the neighbour's input to the south is full. -/
def exHeld : Transfer := { src := 0, dst := (((neighbour 0 .south).bind (fun a => neighbour a .south)).getD 0), data := [] }
def exFullInput : State := { exOn with ar := { exOn.ar with
  inq := [{ island := 0, from_ := none, q := [exHeld] },
    { island := (neighbour 0 .south).getD 0, from_ := some .north, q := List.replicate (Config.straitRoom + 1) exHeld }] } }

/-- The descriptor of an index of one shoal of 4,096 slots and 32 dimensions in objects 0 and 1, and the state whose objects hold its
shoal header and its tombstone bitmap. -/
def exDesc64 : Body :=
  leBytes 64 (2 ^ 8 + 2 ^ 16 + 4096 * 2 ^ 64 + 2 ^ 288 + 2 ^ 320 + 2 ^ 352)
def exLoadable : State :=
  (exBase.setBytes (t2Addr 0 0) (leBytes 32 (2 ^ 48))).setBytes (t2Addr 0 (16 * 65536)) (leBytes 64 (2 ^ 8 + 2 ^ 32 + 2 ^ 64))

/-- Object 1 with an image header of the index kind and one empty section whose digest holds, and the same with a tombstone bitmap in
object 0 whose one block is bad. -/
def exCells : List Host.Cell :=
  (leBytes 8 (0x4B5A494D + 2 ^ 32 + 2 ^ 40 + 2 ^ 48)).zipIdx.map (fun e => (t2Addr 0 (16 * 65536) + e.2, e.1)) ++
    (List.range 48).map (fun i => (t2Addr 0 (16 * 65536) + 80 + i, (Config.sha384 []).getD i 0))
def exWhole (cs : List Host.Cell) : State := { exIdx { exIndex 1 with imgDone := false, loadCmd := some exRef } with mem := cs ++ exCells }
def exBadTomb : List Host.Cell := [(t2Addr 0 4, 1), (t2Addr 0 64, 1), (t2Addr 0 192, 5)]

theorem exWhole_byte (cs : List Host.Cell) (i : Nat) (h : i < 48) : (exWhole cs).objByte (exObj 1) (80 + i) = mapGet 0 (t2Addr 0 (16 * 65536 + (80 + i))) (cs ++ exCells) := by
  have a : (80 + i) / 65536 = 0 := by omega
  have b : (80 + i) % 65536 = 80 + i := by omega
  rw [State.objByte, a, b]
  rfl
theorem exWhole_digest (cs : List Host.Cell) (h : cs = [] ∨ cs = exBadTomb) : (exWhole cs).objBytes (exObj 1) 80 48 = sectionDigest [] := by
  have d : sectionDigest [] = exactly 48 (Config.sha384 []) := rfl
  rw [d, exactly]
  refine List.map_congr_left (fun i hi => ?_)
  rw [List.mem_range] at hi
  rw [exWhole_byte cs i hi]
  rcases h with rfl | rfl <;> simp only [exCells, exBadTomb, leBytes, t2Addr] <;> interval_cases i <;> rfl
theorem chunksOf_nil : chunksOf [] = [] := rfl
theorem objBytes_nil (s : State) (o : Obj) (b : Nat) : s.objBytes o b 0 = [] := rfl
theorem objReadable_nil (s : State) (o : Obj) : s.objReadable o 0 0 = true := rfl
theorem imageBad_of_digest {s : State} {o : Obj} (h : s.objBytes o 80 48 = sectionDigest [])
    (n : s.objNat o 6 1 = 1 ∧ s.objNat o 68 1 = 0 ∧ s.objNat o 64 4 = 0 ∧ s.objNat o 72 8 = 0 ∧ s.objNat o 24 4 = 0) :
    s.imageBad o = none := by
  obtain ⟨a, b, c, d, f⟩ := n
  have e : s.imageSecs o = [(0, 0, 0, sectionDigest [])] := by simp [State.imageSecs, a, b, c, d, h]
  have g : firstChunks [(0, 0, 0, sectionDigest [])] = [((0, 0, 0, sectionDigest []), 0)] := rfl
  have c0 : cdiv 0 67108864 = 0 := rfl
  simp only [State.imageBad, e, f, g, c0, List.find?, objReadable_nil, objBytes_nil, chunksOf_nil, Nat.zero_mul, Nat.mul_zero, Nat.add_zero, List.map_nil, List.flatten_nil]
  simp
theorem exWhole_ok : (exWhole []).imageBad (exObj 1) = none ∧ (exWhole exBadTomb).imageBad (exObj 1) = none :=
  ⟨imageBad_of_digest (exWhole_digest [] (.inl rfl)) (by decide +kernel), imageBad_of_digest (exWhole_digest _ (.inr rfl)) (by decide +kernel)⟩

/-- A layer of two heads with a window of two pages, described in object 0. -/
def exHeads (s : State) : State := s.setBytes (t2Addr 0 0) (leBytes 16 (2 ^ 8 + 2 ^ 16 + 2 * 2 ^ 64))

/-- A cache laid out by position on devices 0 and 1, and an entry at position 64 of its sequence. -/
def exFarKv : KvCtx := { exKv with layout := 2, devs := [0, 1] }
def exFarStep : State := { exBase with
  kv := { KvSt.reset with ctxs := [exFarKv] }
  gen := { GenSt.reset with
    seqs := [{ exSeq with written := 64 }], cohorts := [{ exCohort exAttn with entries := [{ exEntry with pos0 := 64 }] }] } }

/-- Page 5 of the sequence on layer 1, to be recomputed while the pages of its window are gone. -/
def exDeep : PageRef := { exPg with layer := 1 }
def exRedo : State := exHeads (exCache { exSeq with written := 321 } { KvSt.reset with ctxs := [exKv], rebuild := [exDeep] })
def exRedo1 : State :=
  (exRedo.redoRows exKv { exSeq with written := 321 } exDeep (exRedo.redoCount { exSeq with written := 321 } exDeep)).1
theorem exRedo_needs : exRedo.redoRows exKv { exSeq with written := 321 } exDeep (exRedo.redoCount { exSeq with written := 321 } exDeep) =
    (exRedo1, .needs { seq := 0, layer := 0, group := 0, page := 3 }) :=
  Prod.ext (by rw [exRedo1]) (by decide +kernel)
def exRedo0 : State := exCache exSeq { KvSt.reset with ctxs := [exKv], rebuild := [exPg] }

/-- The cache as the CONFIG of zeros makes it. -/
def exSameKv : State := exCache exSeq { KvSt.reset with ctxs := [kvConfig 0 0 none (List.replicate 72 0)] }

theorem eq_some_getD {α : Type} {o : Option α} {d : α} (h : o.isSome = true) : o = some (o.getD d) := by
  cases o with
  | none => cases h
  | some x => rfl

/-- A resident model whose first tile lies in the parity region, in granules 1 to 16 of stack 0, with bad lines; with the region set up or
not, and with an image in object 1 that has the tile's section. -/
def exWeights (par : Bool) (bad : List Nat) : State :=
  ({ exBase.wr (Reg.dramcParCfg 0) (if par then 32 else 0) with
    mm := { exBase.mm with
      objs := [{ exObj 0 with grans := (List.range 16).map (fun i => i + 1) }, { exObj 1 with grans := (List.range 16).map (fun i => i + 40) }]
      stk := { StackSt.reset with bad := bad } :: List.replicate 31 StackSt.reset }
    gen := { GenSt.reset with model := exModel, cfg := [0, 64] } } : State).setBytes (t2Addr 0 (40 * 65536))
      (leBytes 8 (2 ^ 48) ++ List.replicate 60 0 ++ [0x13])
def exTile : TileRef := { slot := 0, layer := 0, proj := 0, col := 0, kblk := 0 }

/-- The same with replicas on devices 1 and 2. -/
def exReplicas (rs : Bool) : State := { exWeights false [1024, 40960] with
  gen := { (exWeights false [1024, 40960]).gen with cfg := [0, if rs then 0x4241 else 0] } }

/-- An element of two receivers, the first of which lags by a window. -/
def exLag : Mcast := { sender := 0, total := 200000, recv := [(1, 0), (2, 65535)], detached := [], weight := false }
def exAgain : Piece := { exPiece with again := [(1, 0, 0, 0)] }

/-- Two generations of one pair of controllers, of which the first was sent before the second. -/
def exEarlier : SlotSt := { exSlot exToT2 true with acked := [2 ^ 30] }
def exSecond : SlotSt := { SlotSt.idle 0 1 with work := some exToT2, started := true, sent := 1 }
def exOrdered : State := { exStack exBadLine false with mm := { (exStack exBadLine false).mm with slots := [exEarlier, exSecond] } }

/-- A generation into islet memory that a matrix operation reads, and a state in which it is armed or runs. -/
def exToT0 : FerryDesc := exDesc 0x110000000000 0
def exLocked (started : Bool) : State := exFerry { exBase with ar := (exIslet [exRun]).ar } (exSlot exToT0 started)

/-- A cache with one frame in use, whose page is not full, and the firmware's copy of that frame to the other pool. -/
def exHalfKv : KvCtx := { exKv with pools := [(0, 1), (1, 1)], frames := [(0, 0)] }
def exHalf : State := (exHeads (exCache { exSeq with written := 384 } { KvSt.reset with ctxs := [exHalfKv] })).setBytes
  (t2Addr 0 (16 * 65536 + 80)) (leBytes 16 (2 ^ 40 + 3 * 2 ^ 42))
def exReloc : FerryDesc := { exDesc (t2Addr 0 (16 * 65536)) 0 with src := 0, len := 16384 }

/-- A channel with reads in its queue. -/
def exReads (rs : List FRead) : State := exFlash { exMapped [(5, 64)] with reads := rs }
def exHeldX (data : Body) : XPkt := { exX 0 false with place := .hold 0 0 true, data := data }

/-- A weight that another device asks for, and a transfer outstanding for a part of a mirrored page of a sequence that is open here. -/
def exWant : XPkt := { exX 0 false with place := .weights (.tile exTile) }
def exGood : State := { exBase with gen := { GenSt.reset with model := exModel } }
def exOutM : XferOut := { exOut false with x := { exX 0 false with place := .mirror 0 exPg 0 } }
def exOutW : XferOut := { exOut false with x := { exX 0 false with place := .weights (.tile exTile) }, use := .weight }
def exMirrorIn : State := exPaged (exXfers exOutM)

/-! ## Worked examples of the manual and small steps -/

/-- Chapter 1, the example of island C2.077: its straits run to C2.076, C2.078 and C2.073, and it has none to the south. -/
theorem test_straits_of_c2_077 : neighbour 333 .west = some 332 ∧ neighbour 333 .east = some 334 ∧ neighbour 333 .north = some 329 ∧
    neighbour 333 .south = none := by decide

/-- Chapter 18, two addresses: DRAMC.THERM of S19 and FERRY.SLOT_STAT5 of island C2.077. -/
theorem test_register_addresses : Reg.dramcTherm 19 = 0x053040 ∧ Reg.ferrySlotStat 333 5 = 0x34D114 := by decide

/-- An archipelago of 4 × 4 × 4 with its bridge at ordinal 0. -/
def exCube : FixSt := { FixSt.reset with dx := 4, dy := 4, dz := 4, bridge := true }

/-- Chapter 18: BAR2 offset 0x2A05_3040 reads that register of device 42. -/
theorem test_bar2_reaches_device_42 : (after (.bar2Access 0x2A053040 4 false 0) { exOn with fix := exCube }).outbox =
    [.regRead 42 { wide := false, srcOrd := 0, rid := 0, addr := 0x053040, data := 0, err := false }] := by decide +kernel

/-- Chapter 14, the example of a route: 0 to 42 by +X, +Y and +Z in six hops. -/
theorem test_route_to_42 : (exCube.routeFrom 0 42).map (fun h => (h.next, h.vc)) = [(1, 0), (2, 0), (6, 0), (10, 0), (26, 0), (42, 0)] := by
  decide +kernel

/-- Chapter 10, a lagoon at reset values: 2 × 512 KiB are 64 units and 132 KiB are 9. -/
theorem test_lagoon_units : cdiv (2 * 512) 16 = 64 ∧ cdiv 132 16 = 9 := by decide

/-- Chapter 3, one INT4 block: for a largest residual of 0.9 the scale is 0.140 625. -/
theorem test_int4_scale : e4m3Fmt.decode (e4m3Scale 0x3F666666 7).1 = .fin false 9 (-6) := by decide +kernel

/-- Chapter 2, a small term between large opposite terms: 2^20 + 0.01 rounds up for 5,242 of 65,536 draws. -/
theorem test_small_term_rounds : fp32Fmt.encode ((f32 0x49800000).add (f32 0x3C23D70A)) (.stoch 60294) .toInf = 0x49800001 ∧
    fp32Fmt.encode ((f32 0x49800000).add (f32 0x3C23D70A)) (.stoch 60293) .toInf = 0x49800000 := by decide +kernel

/-- A pulse of 40 µs on an active-low pin with DEBOUNCE_US = 100. -/
def exPulse : State := after (.wakePinChange 0 true) { after (.wakePinChange 0 false)
  (exReg [(Reg.pwrWakeCfg 0, 1 + 100 * 2 ^ 16)]) with clock := 40000 }

/-- Chapter 15, two pins, step 2: the pulse is a glitch, so nothing is accepted and GLITCH_CNT counts. -/
theorem test_glitch_is_counted : exPulse.rd Reg.pwrGlitchCnt = 1 ∧ exPulse.pwr.lastWake = none := by decide +kernel

/-- A step takes the command at the front of the queue and leaves the rest. -/
theorem test_step_takes_the_front : (match step { exOn with pending := [.missedAck 3, .tideBoundary] } with
    | .next t => t.pending == [.tideBoundary]
    | _ => false) = true := by decide +kernel

/-- From reset, with an empty queue, the block idles. -/
theorem test_reset_idles : (match step State.reset with
    | .next t => t.pending == [] && t.pwr.st == .run
    | _ => false) = true := by decide +kernel

/-- R460: a power reading above the ratings of the module faults by name. -/
theorem test_outside_ratings : exec (.powerSample { centiVolt := 7201, watt := 100 }) exOn = .fault .outsideRatings := rfl

/-! ## Witnesses of the statements' hypotheses, one conjunct a clause -/

theorem wit_StepRunsTheFrontCommand :
    ∃ s : State, s.pending = [] := by
  refine ⟨State.reset, ?_⟩ <;>
  first | with_reducible rfl | decide +kernel | exact stamps_of_check (by decide +kernel) | exact waits_of_check (by decide +kernel) | exact ⟨by decide +kernel, by decide +kernel, by decide +kernel, by decide +kernel⟩ | rfl

theorem wit_CommandsKeepTheQueue :
    ∃ i : Instr, ∃ s : State, ∃ t : State, exec i s = .next t := by
  refine ⟨.auxReturn, State.reset, after (.auxReturn) (State.reset), ?_⟩ <;>
  first | with_reducible rfl | decide +kernel | exact stamps_of_check (by decide +kernel) | exact waits_of_check (by decide +kernel) | exact ⟨by decide +kernel, by decide +kernel, by decide +kernel, by decide +kernel⟩ | rfl

theorem wit_StepKeepsInvariant :
    ∃ s : State, ∃ t : State, Inv s ∧ step s = .next t := by
  refine ⟨State.reset, State.reset.idle, ?_, ?_⟩ <;>
  first | with_reducible rfl | decide +kernel | exact stamps_of_check (by decide +kernel) | exact waits_of_check (by decide +kernel) | exact ⟨by decide +kernel, by decide +kernel, by decide +kernel, by decide +kernel⟩ | rfl

theorem wit_WithoutAuxiliaryInputTheModuleStaysOff :
    ∃ i : Instr, ∃ s : State, ∃ t : State, s.pwr.st = .off ∧ s.pwr.upStep = 0 ∧ s.pwr.downCause = none ∧ i ≠ .auxReturn ∧ exec i s = .next t := by
  refine ⟨.inputGood, { State.reset with pwr := { PwrSt.reset with st := .off } }, after (.inputGood) ({ State.reset with pwr := { PwrSt.reset with st := .off } }), ?_, ?_, ?_, ?_, ?_⟩ <;>
  first | with_reducible rfl | decide +kernel | exact stamps_of_check (by decide +kernel) | exact waits_of_check (by decide +kernel) | exact ⟨by decide +kernel, by decide +kernel, by decide +kernel, by decide +kernel⟩ | rfl

theorem wit_StrapsAreTakenAtLogicReady :
    (∃ i : Instr, ∃ s : State, ∃ t : State, (∀ b, i ≠ .logicRdy b) ∧ exec i s = .next t) ∧
    (∃ s : State, s.pwr.upStep = 5) := by
  refine ⟨⟨.capTick, State.reset, after (.capTick) (State.reset), ?_, ?_⟩,
    ⟨exWatch 5, ?_⟩⟩ <;>
  first | with_reducible rfl | decide +kernel | exact stamps_of_check (by decide +kernel) | exact waits_of_check (by decide +kernel) | exact ⟨by decide +kernel, by decide +kernel, by decide +kernel, by decide +kernel⟩ | rfl

theorem wit_OtherCommandsLeaveMemory :
    ∃ i : Instr, ∃ s : State, ∃ t : State, i.storesBytes = false ∧ exec i s = .next t := by
  refine ⟨.perstRelease, { State.reset with fix := { FixSt.reset with bridge := false } }, after (.perstRelease) ({ State.reset with fix := { FixSt.reset with bridge := false } }), ?_, ?_⟩ <;>
  first | with_reducible rfl | decide +kernel | exact stamps_of_check (by decide +kernel) | exact waits_of_check (by decide +kernel) | exact ⟨by decide +kernel, by decide +kernel, by decide +kernel, by decide +kernel⟩ | rfl

theorem wit_OtherCommandsLeaveRegisters :
    ∃ i : Instr, ∃ s : State, ∃ t : State, i.writesRegs = false ∧ exec i s = .next t := by
  refine ⟨.perstRelease, { State.reset with fix := { FixSt.reset with bridge := false } }, after (.perstRelease) ({ State.reset with fix := { FixSt.reset with bridge := false } }), ?_, ?_⟩ <;>
  first | with_reducible rfl | decide +kernel | exact stamps_of_check (by decide +kernel) | exact waits_of_check (by decide +kernel) | exact ⟨by decide +kernel, by decide +kernel, by decide +kernel, by decide +kernel⟩ | rfl

theorem wit_TimeNeverGoesBack :
    (∃ i : Instr, ∃ s : State, ∃ t : State, i.movesTime = false ∧ exec i s = .next t) ∧
    (∃ i : Instr, ∃ s : State, ∃ t : State, exec i s = .next t) := by
  refine ⟨⟨.perstRelease, State.reset, after (.perstRelease) (State.reset), ?_, ?_⟩,
    ⟨.wakeHoldExpire, { State.reset with pwr := { PwrSt.reset with heldWake := true, lastWake := some 5 } }, after (.wakeHoldExpire) ({ State.reset with pwr := { PwrSt.reset with heldWake := true, lastWake := some 5 } }), ?_⟩⟩ <;>
  first | with_reducible rfl | decide +kernel | exact stamps_of_check (by decide +kernel) | exact waits_of_check (by decide +kernel) | exact ⟨by decide +kernel, by decide +kernel, by decide +kernel, by decide +kernel⟩ | rfl

theorem wit_OtherCommandsLeavePower :
    ∃ i : Instr, ∃ s : State, ∃ t : State, i.changesPower = false ∧ exec i s = .next t := by
  refine ⟨.bootVerifyDone, State.reset, after (.bootVerifyDone) (State.reset), ?_, ?_⟩ <;>
  first | with_reducible rfl | decide +kernel | exact stamps_of_check (by decide +kernel) | exact waits_of_check (by decide +kernel) | exact ⟨by decide +kernel, by decide +kernel, by decide +kernel, by decide +kernel⟩ | rfl

theorem wit_OtherCommandsLeaveFaultsSecurityManagement :
    (∃ i : Instr, ∃ s : State, ∃ t : State, exec i s = .next t ∧ i.changesFaults = false) ∧
    (∃ i : Instr, ∃ s : State, ∃ t : State, exec i s = .next t ∧ i.changesSecurity = false) ∧
    (∃ i : Instr, ∃ s : State, ∃ t : State, exec i s = .next t ∧ i.changesMgmt = false) := by
  refine ⟨⟨.perstRelease, { State.reset with fix := { FixSt.reset with bridge := false } }, after (.perstRelease) ({ State.reset with fix := { FixSt.reset with bridge := false } }), ?_, ?_⟩,
    ⟨.perstRelease, { State.reset with fix := { FixSt.reset with bridge := false } }, after (.perstRelease) ({ State.reset with fix := { FixSt.reset with bridge := false } }), ?_, ?_⟩,
    ⟨.perstRelease, { State.reset with fix := { FixSt.reset with bridge := false } }, after (.perstRelease) ({ State.reset with fix := { FixSt.reset with bridge := false } }), ?_, ?_⟩⟩ <;>
  first | with_reducible rfl | decide +kernel | exact stamps_of_check (by decide +kernel) | exact waits_of_check (by decide +kernel) | exact ⟨by decide +kernel, by decide +kernel, by decide +kernel, by decide +kernel⟩ | rfl

theorem wit_OtherCommandsLeaveUnitsTiersAndModel :
    (∃ i : Instr, ∃ s : State, ∃ t : State, exec i s = .next t ∧ i.changesArith = false) ∧
    (∃ i : Instr, ∃ s : State, ∃ t : State, exec i s = .next t ∧ i.changesIndex = false) ∧
    (∃ i : Instr, ∃ s : State, ∃ t : State, exec i s = .next t ∧ i.changesKv = false) ∧
    (∃ i : Instr, ∃ s : State, ∃ t : State, exec i s = .next t ∧ i.changesTables = false) ∧
    (∃ i : Instr, ∃ s : State, ∃ t : State, exec i s = .next t ∧ i.changesFlash = false) ∧
    (∃ i : Instr, ∃ s : State, ∃ t : State, exec i s = .next t ∧ i.changesGen = false) := by
  refine ⟨⟨.perstRelease, { State.reset with fix := { FixSt.reset with bridge := false } }, after (.perstRelease) ({ State.reset with fix := { FixSt.reset with bridge := false } }), ?_, ?_⟩,
    ⟨.perstRelease, { State.reset with fix := { FixSt.reset with bridge := false } }, after (.perstRelease) ({ State.reset with fix := { FixSt.reset with bridge := false } }), ?_, ?_⟩,
    ⟨.perstRelease, { State.reset with fix := { FixSt.reset with bridge := false } }, after (.perstRelease) ({ State.reset with fix := { FixSt.reset with bridge := false } }), ?_, ?_⟩,
    ⟨.perstRelease, { State.reset with fix := { FixSt.reset with bridge := false } }, after (.perstRelease) ({ State.reset with fix := { FixSt.reset with bridge := false } }), ?_, ?_⟩,
    ⟨.perstRelease, { State.reset with fix := { FixSt.reset with bridge := false } }, after (.perstRelease) ({ State.reset with fix := { FixSt.reset with bridge := false } }), ?_, ?_⟩,
    ⟨.perstRelease, { State.reset with fix := { FixSt.reset with bridge := false } }, after (.perstRelease) ({ State.reset with fix := { FixSt.reset with bridge := false } }), ?_, ?_⟩⟩ <;>
  first | with_reducible rfl | decide +kernel | exact stamps_of_check (by decide +kernel) | exact waits_of_check (by decide +kernel) | exact ⟨by decide +kernel, by decide +kernel, by decide +kernel, by decide +kernel⟩ | rfl

theorem wit_OtherCommandsLeaveQueuesAndLinks :
    (∃ i : Instr, ∃ s : State, ∃ t : State, exec i s = .next t ∧ i.changesSched = false) ∧
    (∃ i : Instr, ∃ s : State, ∃ t : State, exec i s = .next t ∧ i.changesCommands = false) ∧
    (∃ i : Instr, ∃ s : State, ∃ t : State, exec i s = .next t ∧ i.changesBridge = false) ∧
    (∃ i : Instr, ∃ s : State, ∃ t : State, exec i s = .next t ∧ i.changesLinks = false) ∧
    (∃ i : Instr, ∃ s : State, ∃ t : State, exec i s = .next t ∧ i.sends = false) := by
  refine ⟨⟨.perstRelease, { State.reset with fix := { FixSt.reset with bridge := false } }, after (.perstRelease) ({ State.reset with fix := { FixSt.reset with bridge := false } }), ?_, ?_⟩,
    ⟨.perstRelease, { State.reset with fix := { FixSt.reset with bridge := false } }, after (.perstRelease) ({ State.reset with fix := { FixSt.reset with bridge := false } }), ?_, ?_⟩,
    ⟨.perstRelease, { State.reset with fix := { FixSt.reset with bridge := false } }, after (.perstRelease) ({ State.reset with fix := { FixSt.reset with bridge := false } }), ?_, ?_⟩,
    ⟨.perstRelease, { State.reset with fix := { FixSt.reset with bridge := false } }, after (.perstRelease) ({ State.reset with fix := { FixSt.reset with bridge := false } }), ?_, ?_⟩,
    ⟨.perstRelease, { State.reset with fix := { FixSt.reset with bridge := false } }, after (.perstRelease) ({ State.reset with fix := { FixSt.reset with bridge := false } }), ?_, ?_⟩⟩ <;>
  first | with_reducible rfl | decide +kernel | exact stamps_of_check (by decide +kernel) | exact waits_of_check (by decide +kernel) | exact ⟨by decide +kernel, by decide +kernel, by decide +kernel, by decide +kernel⟩ | rfl

theorem wit_RegisterWriteSetsItsFields :
    (∃ s : State, ∃ p : Path, ∃ a : Nat, ∃ v : Nat, ∃ i : Nat, ∃ pg : PageRow, ∃ r : RegRow, Registers.wf s.regs = true ∧ s.reachable a ∧ pageOf a = some (pg, i) ∧ rowOf a = some r ∧ r.acc = .rw ∧ 0x40 ≤ a % 0x1000 ∧ pg.typ ∉ [0x03, 0x07, 0x0C, 0x0E, 0x0F, 0x10, 0x12, 0x13, 0x16, 0x18, 0x19] ∧ s.refusedBits p pg a (v % 2 ^ 32) = 0 ∧ (p = .host → a % 0x1000 < 0x400 ∨ bit (s.rd (pageBase a + 0x0C)) 1 = true) ∧ rangesOk r (v % 2 ^ 32) = true) ∧
    (∃ s : State, ∃ p : Path, ∃ a : Nat, ∃ v : Nat, ∃ i : Nat, ∃ pg : PageRow, ∃ r : RegRow, Registers.wf s.regs = true ∧ s.reachable a ∧ pageOf a = some (pg, i) ∧ rowOf a = some r ∧ r.acc = .rw ∧ 0x40 ≤ a % 0x1000 ∧ pg.typ ∉ [0x03, 0x07, 0x0C, 0x0E, 0x0F, 0x10, 0x12, 0x13, 0x16, 0x18, 0x19] ∧ s.refusedBits p pg a (v % 2 ^ 32) = 0 ∧ (p = .host → a % 0x1000 < 0x400 ∨ bit (s.rd (pageBase a + 0x0C)) 1 = true) ∧ rangesOk r (v % 2 ^ 32) = false) := by
  refine ⟨⟨exOn, .core, Reg.tidePeriod, 1000, 0, exPage Reg.tidePeriod (by decide +kernel), exRow Reg.tidePeriod (by decide +kernel), ?_, ?_, ?_, ?_, ?_, ?_, ?_, ?_, ?_, ?_⟩,
    ⟨exOn, .core, Reg.tidePeriod, 0, 0, exPage Reg.tidePeriod (by decide +kernel), exRow Reg.tidePeriod (by decide +kernel), ?_, ?_, ?_, ?_, ?_, ?_, ?_, ?_, ?_, ?_⟩⟩ <;>
  first | with_reducible rfl | decide +kernel | exact stamps_of_check (by decide +kernel) | exact waits_of_check (by decide +kernel) | exact ⟨by decide +kernel, by decide +kernel, by decide +kernel, by decide +kernel⟩ | rfl

theorem wit_BlockControlWrites :
    (∃ s : State, ∃ p : Path, ∃ page : Nat, ∃ i : Nat, ∃ pg : PageRow, ∃ r : RegRow, s.reachable (pageBase page + 0x0C) ∧ pageOf (pageBase page + 0x0C) = some (pg, i) ∧ rowOf (pageBase page + 0x0C) = some r ∧ r.wmask = 3 ∧ (pageBase page + 0x0C) % 0x1000 = 0x0C ∧ s.refusedBits p pg (pageBase page + 0x0C) (s.rd (pageBase page + 0x0C) % 4 + 4) = 0) ∧
    (∃ s : State, ∃ p : Path, ∃ page : Nat, ∃ data : Nat, ∃ i : Nat, ∃ pg : PageRow, ∃ r : RegRow, Registers.wf s.regs = true ∧ s.reachable (pageBase page + 0x1C) ∧ pageOf (pageBase page + 0x1C) = some (pg, i) ∧ rowOf (pageBase page + 0x1C) = some r ∧ r.acc = .wo ∧ r.wmask = irqMask pg ∧ (pageBase page + 0x1C) % 0x1000 = 0x1C ∧ s.refusedBits p pg (pageBase page + 0x1C) (data % 2 ^ 32) = 0) ∧
    (∃ s : State, ∃ page : Nat, ∃ i : Nat, ∃ pg : PageRow, s.powered = true ∧ s.busy.contains (pageBase page) = true ∧ Registers.wf s.regs = true ∧ pageOf (pageBase page) = some (pg, i) ∧ pg.typ ∉ [0x07, 0x0E, 0x12, 0x13, 0x18, 0x19]) := by
  refine ⟨⟨exOn, .core, 0x7000, 0, exPage 0x700C (by decide +kernel), exRow 0x700C (by decide +kernel), ?_, ?_, ?_, ?_, ?_, ?_⟩,
    ⟨exOn, .core, 0x4000, 1, 0, exPage 0x401C (by decide +kernel), exRow 0x401C (by decide +kernel), ?_, ?_, ?_, ?_, ?_, ?_, ?_, ?_⟩,
    ⟨{ exOn with busy := [pageBase 0x7000] }, 0x7000, 0, exPage (pageBase 0x7000) (by decide +kernel), ?_, ?_, ?_, ?_, ?_⟩⟩ <;>
  first | with_reducible rfl | decide +kernel | exact stamps_of_check (by decide +kernel) | exact waits_of_check (by decide +kernel) | exact ⟨by decide +kernel, by decide +kernel, by decide +kernel, by decide +kernel⟩ | rfl

theorem wit_EventsClearAndDeviceTimeLatches :
    (∃ s : State, ∃ p : Path, Registers.wf s.regs = true ∧ s.powered = true ∧ p ≠ .host) ∧
    (∃ s : State, s.powered = true) ∧
    (∃ s : State, ∃ p : Path, s.powered = true ∧ p ≠ .host) ∧
    (∃ s : State, s.powered = true ∧ s.busy.contains (pageBase Reg.pwrDevtimeLo) = false ∧ s.notReady.contains (pageBase Reg.pwrDevtimeLo) = false) := by
  refine ⟨⟨exReg [(Reg.pwrEvents, 0x3F)], .mgmt, ?_, ?_, ?_⟩,
    ⟨exOn, ?_⟩,
    ⟨exOn, .core, ?_, ?_⟩,
    ⟨exOn, ?_, ?_, ?_⟩⟩ <;>
  first | with_reducible rfl | decide +kernel | exact stamps_of_check (by decide +kernel) | exact waits_of_check (by decide +kernel) | exact ⟨by decide +kernel, by decide +kernel, by decide +kernel, by decide +kernel⟩ | rfl

theorem wit_RegisterPacketsAreAnswered :
    (∃ s : State, ∃ r : RegPkt, s.powered = true ∧ s.accessOk r.addr r.wide = true) ∧
    (∃ s : State, ∃ r : RegPkt, s.powered = true ∧ s.accessOk r.addr r.wide = false) ∧
    (∃ s : State, ∃ u : State, ∃ t : Transport, ∃ wide : Bool, ∃ addr : Nat, s.mctpRuns t = true ∧ u = s.count Reg.mgmtMctpRxCnt ∧ u.accessOk addr wide = true) := by
  refine ⟨⟨exOn, { wide := false, srcOrd := 1, rid := 7, addr := Reg.tidePeriod, data := 5, err := false }, ?_, ?_⟩,
    ⟨exOn, { wide := false, srcOrd := 1, rid := 7, addr := 2, data := 5, err := false }, ?_, ?_⟩,
    ⟨exOn, _, .i3c, false, Reg.tidePeriod, ?_, rfl, ?_⟩⟩ <;>
  first | with_reducible rfl | decide +kernel | exact stamps_of_check (by decide +kernel) | exact waits_of_check (by decide +kernel) | exact ⟨by decide +kernel, by decide +kernel, by decide +kernel, by decide +kernel⟩ | rfl

theorem wit_RegisterWindowsOfTheBridge :
    (∃ s : State, ∃ off : Nat, s.powered = true ∧ s.fix.bridge = true ∧ off / 2 ^ 24 ≠ s.fix.ord ∧ off % 4 = 0 ∧ off / 2 ^ 24 < s.fix.devices ∧ s.pathDown (off / 2 ^ 24) = false) ∧
    (∃ s : State, ∃ r : RegPkt, ∃ w : WinAcc, s.powered = true ∧ s.brg.wins.find? (fun w => w.rid == r.rid && w.ord == r.srcOrd) = some w ∧ w.write = false ∧ r.err = false) ∧
    (∃ s : State, ∃ r : RegPkt, ∃ w : WinAcc, s.powered = true ∧ s.brg.wins.find? (fun w => w.rid == r.rid && w.ord == r.srcOrd) = some w ∧ w.write = false ∧ r.err = true) ∧
    (∃ s : State, ∃ r : RegPkt, ∃ w : WinAcc, s.powered = true ∧ s.brg.wins.find? (fun w => w.rid == r.rid && w.ord == r.srcOrd) = some w ∧ w.write = true ∧ r.err = false) ∧
    (∃ s : State, ∃ r : RegPkt, ∃ w : WinAcc, s.powered = true ∧ s.brg.wins.find? (fun w => w.rid == r.rid && w.ord == r.srcOrd) = some w ∧ w.write = true ∧ r.err = true) ∧
    (∃ s : State, ∃ u : State, ∃ rid : Nat, ∃ w : WinAcc, s.powered = true ∧ s.brg.wins.find? (fun w => w.rid == rid) = some w ∧ w.write = false ∧ u = s.elapseTo (w.sentAt + bits (s.rd Reg.hostRegwinCfg) 9 0 * 1000)) := by
  refine ⟨⟨exBridge [], 0x1007040, ?_, ?_, ?_, ?_, ?_, ?_⟩,
    ⟨{ exWindow with brg := { BridgeSt.reset with wins := [{ exWin with write := false }] } }, { wide := false, srcOrd := 1, rid := 7, addr := 0x7040, data := 5, err := false }, { exWin with write := false }, ?_, ?_, ?_, ?_⟩,
    ⟨{ exWindow with brg := { BridgeSt.reset with wins := [{ exWin with write := false }] } }, { wide := false, srcOrd := 1, rid := 7, addr := 0x7040, data := 5, err := true }, { exWin with write := false }, ?_, ?_, ?_, ?_⟩,
    ⟨{ exWindow with brg := { BridgeSt.reset with wins := [{ exWin with write := true }] } }, { wide := false, srcOrd := 1, rid := 7, addr := 0x7040, data := 5, err := false }, { exWin with write := true }, ?_, ?_, ?_, ?_⟩,
    ⟨{ exWindow with brg := { BridgeSt.reset with wins := [{ exWin with write := true }] } }, { wide := false, srcOrd := 1, rid := 7, addr := 0x7040, data := 5, err := true }, { exWin with write := true }, ?_, ?_, ?_, ?_⟩,
    ⟨exWindow, _, 7, exWin, ?_, ?_, ?_, rfl⟩⟩ <;>
  first | with_reducible rfl | decide +kernel | exact stamps_of_check (by decide +kernel) | exact waits_of_check (by decide +kernel) | exact ⟨by decide +kernel, by decide +kernel, by decide +kernel, by decide +kernel⟩ | rfl

theorem wit_OneRegisterWritesAct :
    (∃ s : State, s.reachable Reg.vuindigSpillCfg) ∧
    (∃ s : State, ∃ hi : Bool, s.reachable (if hi then Reg.hostPathClearHi else Reg.hostPathClearLo)) ∧
    (∃ s : State, ∃ die, die < 4 ∧ s.reachable (Reg.dramcParCfg (die * 8))) ∧
    (∃ s : State, ∃ func, func < 16 ∧ s.reachable (Reg.schedFuncCfg func)) ∧
    (∃ s : State, ∃ port, port < 8 ∧ s.reachable (Reg.zwxPortCfg port)) ∧
    (∃ s : State, ∃ ring, ring < 256 ∧ s.reachable (Reg.hringCqHead ring)) ∧
    (∃ s : State, ∃ ring : Nat, ∃ tail : Nat, ∃ i : Nat, ∃ pg : PageRow, ∃ r : RegRow, Registers.wf s.regs = true ∧ ring < 256 ∧ s.reachable (Reg.hringSqTail ring) ∧ pageOf (Reg.hringSqTail ring) = some (pg, i) ∧ pg.typ = 0x19 ∧ rowOf (Reg.hringSqTail ring) = some r ∧ r.acc = .rw ∧ r.ranges = [] ∧ r.wmask = 0xFFFF ∧ Reg.hringSqTail ring % 0x1000 = 0x58 ∧ s.refusedBits .host pg (Reg.hringSqTail ring) (tail % 2 ^ 32) = 0) ∧
    (∃ s : State, ∃ u : FenceUnit, s.reachable Reg.faultFenceCtl ∧ u.island < 512 ∧ u.islet < 16 ∧ (u.whole = true → u.islet = 0)) ∧
    (∃ s : State, s.reachable Reg.faultFenceCtl) ∧
    (∃ s : State, ∃ f : Nat, f < 16 ∧ s.reachable (Reg.funcReset f)) ∧
    (∃ s : State, s.reachable Reg.secCtl) := by
  refine ⟨⟨exOn, ?_⟩,
    ⟨exBridge [], true, ?_⟩,
    ⟨exOn, 3, ?_, ?_⟩,
    ⟨exOn, 15, ?_, ?_⟩,
    ⟨exOn, 7, ?_, ?_⟩,
    ⟨exBridge [], 255, ?_, ?_⟩,
    ⟨exBridge [], 255, 3, 255, exPage (Reg.hringSqTail 255) (by decide +kernel), exRow (Reg.hringSqTail 255) (by decide +kernel), ?_, ?_, ?_, ?_, ?_, ?_, ?_, ?_, ?_, ?_, ?_⟩,
    ⟨exOn, { whole := false, island := 511, islet := 15 }, ?_, ?_, ?_, ?_⟩,
    ⟨exOn, ?_⟩,
    ⟨exOn, 15, ?_, ?_⟩,
    ⟨exOn, ?_⟩⟩ <;>
  first | with_reducible rfl | decide +kernel | exact stamps_of_check (by decide +kernel) | exact waits_of_check (by decide +kernel) | exact ⟨by decide +kernel, by decide +kernel, by decide +kernel, by decide +kernel⟩ | rfl

theorem wit_PowerUpRunsInOrder :
    (∃ s : State, ∃ u : State, ∃ r : CoolReading, s.pwr.st = .watch ∧ s.pwr.upStep = 1 ∧ s.upChecks r = true ∧ u = s.elapseClock (s.clock + 100000000)) ∧
    (∃ s : State, s.pwr.upStep = 2) ∧
    (∃ s : State, s.pwr.upStep = 3) ∧
    (∃ s : State, s.pwr.upStep = 4) ∧
    (∃ s : State, s.pwr.upStep = 5 ∧ s.pwr.reqs = []) ∧
    (∃ s : State, ∃ u : State, 2 ≤ s.pwr.upStep ∧ s.pwr.upStep ≤ 5 ∧ u = (s.elapseClock (s.clock + upLimit s.pwr.upStep)).setEvents 0x02) := by
  refine ⟨⟨exWatch 1, _, exCool, ?_, ?_, ?_, rfl⟩,
    ⟨exWatch 2, ?_⟩,
    ⟨exWatch 3, ?_⟩,
    ⟨exWatch 4, ?_⟩,
    ⟨exWatch 5, ?_, ?_⟩,
    ⟨exWatch 5, _, ?_, ?_, rfl⟩⟩ <;>
  first | with_reducible rfl | decide +kernel | exact stamps_of_check (by decide +kernel) | exact waits_of_check (by decide +kernel) | exact ⟨by decide +kernel, by decide +kernel, by decide +kernel, by decide +kernel⟩ | rfl

theorem wit_LosingPowerKeepsOnlyFlash :
    (∃ s : State, ∃ c : Nat, s.pwr.downCause = some c ∧ s.pwr.wakeNoted = false) ∧
    (∃ s : State, s.mainOn = true) := by
  refine ⟨⟨{ exOn with pwr := { PwrSt.reset with downCause := some 1 } }, 1, ?_, ?_⟩,
    ⟨exOn, ?_⟩⟩ <;>
  first | with_reducible rfl | decide +kernel | exact stamps_of_check (by decide +kernel) | exact waits_of_check (by decide +kernel) | exact ⟨by decide +kernel, by decide +kernel, by decide +kernel, by decide +kernel⟩ | rfl

theorem wit_WatchDomainInputs :
    (∃ s : State, s.pwr.st = .off) ∧
    (∃ s : State, s.pwr.st = .watch ∧ s.pwr.upStep = 0 ∧ s.pwr.downCause = none ∧ s.pwr.resetHeld = false ∧ s.pwr.pufails < 3 ∧ bit (s.rd Reg.pwrEvents) 0 = false ∧ bit (s.rd Reg.pwrWatchCfg) 8 = true) ∧
    (∃ s : State, s.pwr.st = .watch ∧ s.pwr.upStep = 0 ∧ s.pwr.downCause = none ∧ s.pwr.resetHeld = false ∧ bit (s.rd Reg.pwrWatchCfg) 9 = true) ∧
    (∃ s : State, s.powered = true) ∧
    (∃ s : State, s.powered = false) ∧
    (∃ s : State, s.pwr.resetHeld = true ∧ s.pwr.wakeNoted = true ∧ s.pwr.st = .watch ∧ s.pwr.downCause = none ∧ s.pwr.upStep = 0) ∧
    (∃ s : State, s.fix.bridge = false) ∧
    (∃ s : State, s.pwr.st = .watch ∧ s.pwr.fullMode = false ∧ s.pwr.inputGood = false) := by
  refine ⟨⟨exPower .off, ?_⟩,
    ⟨exWatchReg [(Reg.pwrWatchCfg, 0x100)], ?_, ?_, ?_, ?_, ?_, ?_, ?_⟩,
    ⟨exWatchReg [(Reg.pwrWatchCfg, 0x200)], ?_, ?_, ?_, ?_, ?_⟩,
    ⟨exOn, ?_⟩,
    ⟨exWatch 0, ?_⟩,
    ⟨{ exWatch 0 with pwr := { (exWatch 0).pwr with resetHeld := true, wakeNoted := true } }, ?_, ?_, ?_, ?_, ?_⟩,
    ⟨exOn, ?_⟩,
    ⟨{ exWatch 0 with pwr := { (exWatch 0).pwr with inputGood := false } }, ?_, ?_, ?_⟩⟩ <;>
  first | with_reducible rfl | decide +kernel | exact stamps_of_check (by decide +kernel) | exact waits_of_check (by decide +kernel) | exact ⟨by decide +kernel, by decide +kernel, by decide +kernel, by decide +kernel⟩ | rfl

theorem wit_WakePinsDebounceAndFire :
    (∃ s : State, ∃ k : Nat, ∃ p : PinSt, ∃ level : Bool, s.pwr.pins[k]? = some p ∧ s.pwr.st ≠ .off ∧ (level == bit (s.rd (Reg.pwrWakeCfg k)) 1) ≠ p.active ∧ bit (s.rd (Reg.pwrWakeCfg k)) 0 = true ∧ (level == bit (s.rd (Reg.pwrWakeCfg k)) 1) ≠ p.accepted) ∧
    (∃ s : State, ∃ u : State, ∃ k : Nat, ∃ t : Nat, ∃ p : PinSt, s.pwr.pins[k]? = some p ∧ p.changedAt = some t ∧ s.pwr.st ≠ .off ∧ p.active = true ∧ p.masked = false ∧ p.stuck = false ∧ s.pwr.lastWake = none ∧ u = s.elapseClock (t + s.debounceNs k)) ∧
    (∃ s : State, ∃ w : Nat, s.pwr.heldWake = true ∧ s.pwr.lastWake = some w) ∧
    (∃ s : State, ∃ k : Nat, ∃ p : PinSt, s.pwr.pins[k]? = some p ∧ s.pwr.st ≠ .off ∧ p.accepted = true ∧ p.active = true ∧ p.stuck = false) ∧
    (∃ s : State, ∃ k : Nat, ∃ p : PinSt, ∃ data : Nat, s.powered = true ∧ k < 4 ∧ bit data k = true ∧ s.pwr.pins[k]? = some p ∧ p.stuck = true ∧ p.accepted = false) := by
  refine ⟨⟨exReg [(Reg.pwrWakeCfg 0, 3)], 0, PinSt.reset, true, ?_, ?_, ?_, ?_, ?_⟩,
    ⟨exPin { PinSt.reset with active := true, changedAt := some 5 }, _, 0, 5, { PinSt.reset with active := true, changedAt := some 5 }, ?_, ?_, ?_, ?_, ?_, ?_, ?_, rfl⟩,
    ⟨{ exOn with pwr := { PwrSt.reset with heldWake := true, lastWake := some 5 } }, 5, ?_, ?_⟩,
    ⟨exPin { PinSt.reset with accepted := true, active := true }, 0, { PinSt.reset with accepted := true, active := true }, ?_, ?_, ?_, ?_, ?_⟩,
    ⟨exPin { PinSt.reset with stuck := true, masked := true }, 0, { PinSt.reset with stuck := true, masked := true }, 1, ?_, ?_, ?_, ?_, ?_, ?_⟩⟩ <;>
  first | with_reducible rfl | decide +kernel | exact stamps_of_check (by decide +kernel) | exact waits_of_check (by decide +kernel) | exact ⟨by decide +kernel, by decide +kernel, by decide +kernel, by decide +kernel⟩ | rfl

theorem wit_PowerAndCoolingLoops :
    (∃ s : State, ∃ u : State, ∃ r : PowerReading, s.powered = true ∧ r.centiVolt ≤ 7200 ∧ u = s.elapseTo (s.now + 10000)) ∧
    (∃ s : State, s.powered = true ∧ s.pwr.st = .cap ∧ s.aboveCap = true ∧ s.belowCap = false) ∧
    (∃ s : State, s.powered = true ∧ s.pwr.st = .cap ∧ s.aboveCap = false ∧ s.belowCap = true ∧ s.pwr.capBelow = 9 ∧ s.pwr.nCap = 31) ∧
    (∃ s : State, ∃ r : CoolReading, s.powered = true ∧ r.inRange = false) ∧
    (∃ s : State, ∃ u : State, ∃ signal : Nat, ∃ r : CoolReading, s.pwr.st = .watch ∧ s.pwr.upStep = 0 ∧ u = (s.elapseClock (s.clock + bits (s.rd Reg.pwrWatchCfg) 7 0 * 1000000)).coolRegs r ∧ signal &&& bits (s.rd Reg.pwrWatchCfg) 23 16 = 0) := by
  refine ⟨⟨exOn, _, { centiVolt := 7200, watt := 1500 }, ?_, ?_, rfl⟩,
    ⟨{ exOn with pwr := { PwrSt.reset with st := .cap, samples := [3000] } }, ?_, ?_, ?_, ?_⟩,
    ⟨{ exOn with pwr := { PwrSt.reset with st := .cap, samples := [100], capBelow := 9, nCap := 31 } }, ?_, ?_, ?_, ?_, ?_, ?_⟩,
    ⟨exOn, { exCool with inRange := false }, ?_, ?_⟩,
    ⟨exWatch 0, _, 0, exCool, ?_, ?_, rfl, ?_⟩⟩ <;>
  first | with_reducible rfl | decide +kernel | exact stamps_of_check (by decide +kernel) | exact waits_of_check (by decide +kernel) | exact ⟨by decide +kernel, by decide +kernel, by decide +kernel, by decide +kernel⟩ | rfl

theorem wit_HoldAndWatchRequests :
    (∃ s : State, ∃ c : CoolCond, (s.pwr.st = .run ∨ s.pwr.st = .cap) ∧ (c = .flowLow → 20000 ≤ s.pwr.valve)) ∧
    (∃ s : State, ∃ c : CoolCond, s.pwr.st = .hold ∧ s.pwr.conds = [c] ∧ s.pwr.holdReq = false ∧ s.pwr.nCap = 32) ∧
    (∃ s : State, ∃ p : Path, p ≠ .host ∧ s.pwr.upStep = 0 ∧ s.powered = true ∧ s.pwr.st = .run) ∧
    (∃ s : State, ∃ p : Path, p ≠ .host ∧ s.pwr.upStep = 0 ∧ s.powered = true ∧ s.pwr.st = .hold ∧ s.pwr.conds = [] ∧ s.pwr.nCap < 32) ∧
    (∃ s : State, ∃ p : Path, p ≠ .host ∧ s.pwr.upStep = 0 ∧ s.powered = true ∧ s.pwr.st = .run) ∧
    (∃ s : State, s.powered = true) ∧
    (∃ s : State, s.pwr.st = .quiesce ∧ s.powered = true ∧ s.cmd.live = [] ∧ s.sch.funcs.all (fun f => match f with | .resetting _ _ => false | _ => true) = true) := by
  refine ⟨⟨exOn, .flowLow, ?_, ?_⟩,
    ⟨{ exOn with pwr := { PwrSt.reset with st := .hold, conds := [.flowLow] } }, .flowLow, ?_, ?_, ?_, ?_⟩,
    ⟨exOn, .core, ?_, ?_, ?_, ?_⟩,
    ⟨{ exOn with pwr := { PwrSt.reset with st := .hold, nCap := 8 } }, .mgmt, ?_, ?_, ?_, ?_, ?_, ?_⟩,
    ⟨exOn, .core, ?_, ?_, ?_, ?_⟩,
    ⟨exOn, ?_⟩,
    ⟨exPower .quiesce, ?_, ?_, ?_, ?_⟩⟩ <;>
  first | with_reducible rfl | decide +kernel | exact stamps_of_check (by decide +kernel) | exact waits_of_check (by decide +kernel) | exact ⟨by decide +kernel, by decide +kernel, by decide +kernel, by decide +kernel⟩ | rfl

theorem wit_MatrixOperationsRunByPasses :
    (∃ s : State, ∃ i : Nat, ∃ op : MatOp, s.powered = true ∧ s.isletFenced i = false ∧ matOpOk op = true ∧ s.readoutOk i op = true ∧ (s.islet i).halt = false ∧ (s.islet i).ops = []) ∧
    (∃ s : State, ∃ i : Nat, ∃ op : MatOp, s.powered = true ∧ s.isletFenced i = false ∧ (matOpOk op && s.readoutOk i op) = false) ∧
    (∃ s : State, ∃ i : Nat, ∃ k : Nat, ∃ r : MatRun, runningOp (s.islet i).ops = some k ∧ (s.islet i).ops[k]? = some r ∧ r.mode = .full ∧ (s.islet i).halted = false) ∧
    (∃ s : State, ∃ i : Nat, ∃ k : Nat, ∃ r : MatRun, finishedOp (s.islet i).ops = some k ∧ (s.islet i).ops[k]? = some r) := by
  refine ⟨⟨exOn, 0, exMat, ?_, ?_, ?_, ?_, ?_, ?_⟩,
    ⟨exOn, 0, { exMat with m := 0 }, ?_, ?_, ?_⟩,
    ⟨exIslet [exRun], 0, 0, exRun, ?_, ?_, ?_, ?_⟩,
    ⟨exIslet [{ exRun with finished := true }], 0, 0, { exRun with finished := true }, ?_, ?_⟩⟩ <;>
  first | with_reducible rfl | decide +kernel | exact stamps_of_check (by decide +kernel) | exact waits_of_check (by decide +kernel) | exact ⟨by decide +kernel, by decide +kernel, by decide +kernel, by decide +kernel⟩ | rfl

theorem wit_LaneReductionsFollowTheTree :
    (∃ s : State, ∃ i : Nat, ∃ v : VecOp, s.powered = true ∧ s.isletFenced i = false ∧ v.kind ∉ [.reduceSum, .reduceMax, .reduceMin]) ∧
    (∃ s : State, ∃ i : Nat, ∃ v : VecOp, s.powered = true ∧ s.isletFenced i = false ∧ ((s.islet i).vreg v.a).length = 64 ∧ v.kind = .reduceSum ∧ v.rnd = .rne) ∧
    (∃ s : State, ∃ i : Nat, ∃ v : VecOp, s.powered = true ∧ s.isletFenced i = false ∧ ((s.islet i).vreg v.a).length = 64 ∧ v.kind = .reduceSum ∧ v.rnd = .sr) ∧
    (∃ s : State, ∃ i : Nat, ∃ v : VecOp, s.powered = true ∧ s.isletFenced i = false ∧ ((s.islet i).vreg v.a).length = 64 ∧ v.kind = .reduceMax) ∧
    (∃ s : State, ∃ i : Nat, ∃ v : VecOp, s.powered = true ∧ s.isletFenced i = false ∧ ((s.islet i).vreg v.a).length = 64 ∧ v.kind = .reduceMin) ∧
    (∃ s : State, ∃ i : Nat, ∃ l : Nat, ∃ v : VecOp, s.powered = true ∧ s.isletFenced i = false ∧ l < 64 ∧ v.kind = .iadd) := by
  refine ⟨⟨exOn, 0, { exVec .fma with rnd := .sr }, ?_, ?_, ?_⟩,
    ⟨exOn, 0, exVec .reduceSum, ?_, ?_, ?_, ?_, ?_⟩,
    ⟨exOn, 0, { exVec .reduceSum with rnd := .sr }, ?_, ?_, ?_, ?_, ?_⟩,
    ⟨exOn, 0, exVec .reduceMax, ?_, ?_, ?_, ?_⟩,
    ⟨exOn, 0, exVec .reduceMin, ?_, ?_, ?_, ?_⟩,
    ⟨exOn, 0, 63, exVec .iadd, ?_, ?_, ?_, ?_⟩⟩ <;>
  first | with_reducible rfl | decide +kernel | exact stamps_of_check (by decide +kernel) | exact waits_of_check (by decide +kernel) | exact ⟨by decide +kernel, by decide +kernel, by decide +kernel, by decide +kernel⟩ | rfl

theorem wit_CompareAndSwapComparesBits :
    ∃ s : State, ∃ r : AtomicReq, ∃ wide : Bool, ∃ n : Nat, n = (if wide then 8 else 4) ∧ s.powered = true ∧ s.atomicRefusal r n = none ∧ s.flt.islands.contains ((r.addr - 0x100000000000) / 2 ^ 21) = false ∧ Memory.wf s.mem = true := by
  refine ⟨exOn, exAtomic, true, _, rfl, ?_, ?_, ?_, ?_⟩ <;>
  first | with_reducible rfl | decide +kernel | exact stamps_of_check (by decide +kernel) | exact waits_of_check (by decide +kernel) | exact ⟨by decide +kernel, by decide +kernel, by decide +kernel, by decide +kernel⟩ | rfl

theorem wit_AtomicsReturnTheOldContents :
    (∃ s : State, ∃ r : AtomicReq, ∃ ty : AddTy, ∃ n : Nat, n = addBytes ty ∧ s.powered = true ∧ s.atomicRefusal r n = none ∧ s.flt.islands.contains ((r.addr - 0x100000000000) / 2 ^ 21) = false ∧ Memory.wf s.mem = true) ∧
    (∃ s : State, ∃ r : AtomicReq, s.powered = true ∧ s.atomicRefusal r 8 = none ∧ s.flt.islands.contains ((r.addr - 0x100000000000) / 2 ^ 21) = false ∧ Memory.wf s.mem = true) ∧
    (∃ s : State, ∃ r : AtomicReq, ∃ v : Nat, ∃ idx : Nat, s.powered = true ∧ s.atomicRefusal r 8 = none ∧ s.flt.islands.contains ((r.addr - 0x100000000000) / 2 ^ 21) = false ∧ Memory.wf s.mem = true ∧ v < 2 ^ 32 ∧ idx < 2 ^ 32) ∧
    (∃ s : State, ∃ r : AtomicReq, ∃ ty : AddTy, ∃ st : Nat, s.powered = true ∧ s.atomicRefusal r (addBytes ty) = some st) ∧
    (∃ s : State, ∃ r : AtomicReq, ∃ st : Nat, s.powered = true ∧ s.atomicRefusal r 8 = some st) := by
  refine ⟨⟨exOn, exAtomic, .int64, _, rfl, ?_, ?_, ?_, ?_⟩,
    ⟨exOn, exAtomic, ?_, ?_, ?_, ?_⟩,
    ⟨exOn, exAtomic, 0xFFFFFFFF, 0, ?_, ?_, ?_, ?_, ?_, ?_⟩,
    ⟨exOn, { exAtomic with addr := 0x100000000002 }, .fp32, Status.alignError, ?_, ?_⟩,
    ⟨exOn, { exAtomic with addr := 0x100000000004 }, Status.alignError, ?_, ?_⟩⟩ <;>
  first | with_reducible rfl | decide +kernel | exact stamps_of_check (by decide +kernel) | exact waits_of_check (by decide +kernel) | exact ⟨by decide +kernel, by decide +kernel, by decide +kernel, by decide +kernel⟩ | rfl

theorem wit_DebugHaltAndData :
    (∃ s : State, ∃ data : Nat, s.powered = true ∧ bit data 0 = true) ∧
    (∃ s : State, ∃ data : Nat, s.powered = true ∧ bit data 0 = false) ∧
    (∃ s : State, s.powered = true) := by
  refine ⟨⟨exOn, 1, ?_, ?_⟩,
    ⟨exOn, 0, ?_, ?_⟩,
    ⟨exOn, ?_⟩⟩ <;>
  first | with_reducible rfl | decide +kernel | exact stamps_of_check (by decide +kernel) | exact waits_of_check (by decide +kernel) | exact ⟨by decide +kernel, by decide +kernel, by decide +kernel, by decide +kernel⟩ | rfl

theorem wit_StraitsMoveTransfers :
    (∃ s : State, ∃ u : State, ∃ here : Nat, ∃ i : Nat, ∃ nb : Nat, ∃ out : Dir, ∃ fresh : Option Transfer, ∃ tr : Transfer, s.powered = true ∧ u = s.takeFresh here fresh ∧ neighbour here out = some nb ∧ (u.strait here out).cut = false ∧ u.grant here out = some (i, tr) ∧ u.inputFull nb (Dir.opp out) = false ∧ nb = tr.dst) ∧
    (∃ s : State, ∃ u : State, ∃ here : Nat, ∃ i : Nat, ∃ nb : Nat, ∃ out : Dir, ∃ fresh : Option Transfer, ∃ tr : Transfer, s.powered = true ∧ u = s.takeFresh here fresh ∧ neighbour here out = some nb ∧ (u.strait here out).cut = false ∧ u.grant here out = some (i, tr) ∧ u.inputFull nb (Dir.opp out) = false ∧ nb ≠ tr.dst) ∧
    (∃ s : State, ∃ u : State, ∃ here : Nat, ∃ i : Nat, ∃ nb : Nat, ∃ out : Dir, ∃ fresh : Option Transfer, ∃ tr : Transfer, s.powered = true ∧ u = s.takeFresh here fresh ∧ neighbour here out = some nb ∧ (u.strait here out).cut = false ∧ u.grant here out = some (i, tr) ∧ u.inputFull nb (Dir.opp out) = false ∧ (u.strait here out).fails < 15) ∧
    (∃ s : State, ∃ u : State, ∃ here : Nat, ∃ i : Nat, ∃ nb : Nat, ∃ out : Dir, ∃ fresh : Option Transfer, ∃ tr : Transfer, s.powered = true ∧ u = s.takeFresh here fresh ∧ neighbour here out = some nb ∧ (u.strait here out).cut = false ∧ u.grant here out = some (i, tr) ∧ u.inputFull nb (Dir.opp out) = true) ∧
    (∃ s : State, ∃ u : State, ∃ here : Nat, ∃ out : Dir, ∃ fresh : Option Transfer, s.powered = true ∧ u = s.takeFresh here fresh ∧ (neighbour here out = none ∨ (u.strait here out).cut = true ∨ u.grant here out = none)) := by
  refine ⟨⟨exStrait 0, _, 0, 0, (neighbour 0 .south).getD 0, .south, none, exNear, ?_, rfl, ?_, ?_, ?_, ?_, ?_⟩,
    ⟨exOn, _, 0, 0, (neighbour 0 .south).getD 0, .south, some { exHeld with data := List.replicate 64 0 }, { exHeld with data := List.replicate 64 0 }, ?_, rfl, ?_, ?_, ?_, ?_, ?_⟩,
    ⟨exStrait 14, _, 0, 0, (neighbour 0 .south).getD 0, .south, none, exNear, ?_, rfl, ?_, ?_, ?_, ?_, ?_⟩,
    ⟨exFullInput, _, 0, 0, (neighbour 0 .south).getD 0, .south, none, exHeld, ?_, rfl, ?_, ?_, ?_, by simp [State.takeFresh, State.inputFull, State.inQueue, exFullInput, Dir.opp]⟩,
    ⟨exOn, _, 0, .north, none, ?_, rfl, ?_⟩⟩ <;>
  first | with_reducible rfl | decide +kernel | exact stamps_of_check (by decide +kernel) | exact waits_of_check (by decide +kernel) | exact ⟨by decide +kernel, by decide +kernel, by decide +kernel, by decide +kernel⟩ | rfl

theorem wit_IndexesLoadSaveAndUnload :
    (∃ s : State, ∃ t : State, ∃ h : CmdHdr, ∃ b : Body, ∃ l : Live, ∃ x : Index, ∃ st, s.stampsAtOnce noCheck h b l t ∧ isIndexLoad h b = true ∧ x = t.loading h.ref l ∧ t.loadCheck x = some st) ∧
    (∃ s : State, ∃ t : State, ∃ h : CmdHdr, ∃ b : Body, ∃ l : Live, ∃ x : Index, s.stampsAtOnce noCheck h b l t ∧ isIndexLoad h b = true ∧ x = t.loading h.ref l ∧ t.loadCheck x = none) ∧
    (∃ s : State, ∃ t : State, ∃ h : CmdHdr, ∃ b : Body, ∃ l : Live, ∃ x : Index, s.stampsAtOnce chkIndexSave h b l t ∧ isIndexSave h b = true ∧ (t.heldIndex l.h.func (fld l.body 5 0) = some x) ∧ (t.obj? l.h.func (fld l.body 63 32)).any (t.imageFits x) = true) ∧
    (∃ s : State, ∃ t : State, ∃ h : CmdHdr, ∃ b : Body, ∃ l : Live, ∃ x : Index, s.stampsAtOnce chkIndexUnload h b l t ∧ isIndexUnload h b = true ∧ (t.readyIndex l.h.func (fld l.body 5 0) = some x)) ∧
    (∃ s : State, ∃ idx : Nat, ∃ x : Index, ∃ o : Obj, s.index? idx = some x ∧ x.st = 1 ∧ x.imgDone = false ∧ (s.obj? x.func x.img = some o) ∧ s.objWaits o = false ∧ s.imageHeaderOk o 1 = true ∧ x.loadCmd = none) ∧
    (∃ s : State, ∃ idx : Nat, ∃ x : Index, ∃ o : Obj, s.index? idx = some x ∧ x.st = 1 ∧ x.imgDone = false ∧ (s.obj? x.func x.img = some o) ∧ s.objWaits o = true) ∧
    (∃ s : State, ∃ idx : Nat, ∃ x : Index, ∃ o : Obj, ∃ r : CmdRef, s.index? idx = some x ∧ x.st = 1 ∧ x.imgDone = false ∧ x.loadCmd = some r ∧ (s.obj? x.func x.img = some o) ∧ s.objWaits o = false ∧ s.imageHeaderOk o 1 = false) ∧
    (∃ s : State, ∃ idx : Nat, ∃ x : Index, ∃ o : Obj, ∃ r : CmdRef, ∃ ty, s.index? idx = some x ∧ x.st = 1 ∧ x.imgDone = false ∧ x.loadCmd = some r ∧ (s.obj? x.func x.img = some o) ∧ s.objWaits o = false ∧ s.imageHeaderOk o 1 = true ∧ s.imageBad o = some ty) ∧
    (∃ s : State, ∃ idx : Nat, ∃ x : Index, ∃ o : Obj, ∃ r : CmdRef, s.index? idx = some x ∧ x.st = 1 ∧ x.imgDone = false ∧ x.loadCmd = some r ∧ (s.obj? x.func x.img = some o) ∧ s.objWaits o = false ∧ s.imageHeaderOk o 1 = true ∧ s.imageBad o = none ∧ ((s.objTraffic x.func o false 0 o.size).copyImage x o).tombBad x = true) ∧
    (∃ s : State, ∃ idx : Nat, ∃ x : Index, ∃ o : Obj, ∃ r : CmdRef, s.index? idx = some x ∧ x.st = 1 ∧ x.imgDone = false ∧ x.loadCmd = some r ∧ (s.obj? x.func x.img = some o) ∧ s.objWaits o = false ∧ s.imageHeaderOk o 1 = true ∧ s.imageBad o = none ∧ ((s.objTraffic x.func o false 0 o.size).copyImage x o).tombBad x = false) ∧
    (∃ s : State, ∃ idx : Nat, ∃ x : Index, ∃ r : CmdRef, s.index? idx = some x ∧ x.st = 1 ∧ x.imgDone = true ∧ x.built = false ∧ x.loadCmd = some r ∧ (s.takeShare (.index idx) (some x.centDie) x.centUnits).2 = true) ∧
    (∃ s : State, ∃ idx : Nat, ∃ x : Index, ∃ r : CmdRef, s.index? idx = some x ∧ x.st = 1 ∧ x.imgDone = true ∧ x.built = false ∧ x.loadCmd = some r ∧ (s.takeShare (.index idx) (some x.centDie) x.centUnits).2 = false) ∧
    (∃ s : State, ∃ idx : Nat, ∃ x : Index, ∃ v : SaveRun, ∃ vs : List SaveRun, ∃ o : Obj, s.index? idx = some x ∧ x.saves = v :: vs ∧ (s.obj? x.func v.target = some o) ∧ s.fl.ready = true ∧ s.objUnwritten o = true) ∧
    (∃ s : State, ∃ idx : Nat, ∃ x : Index, ∃ v : SaveRun, ∃ vs : List SaveRun, ∃ o : Obj, s.index? idx = some x ∧ x.saves = v :: vs ∧ (s.obj? x.func v.target = some o) ∧ s.fl.ready = true ∧ s.objUnwritten o = false) ∧
    (∃ s : State, ∃ idx : Nat, ∃ x : Index, ∃ r : CmdRef, s.index? idx = some x ∧ x.st = 3 ∧ s.indexBusy idx = false ∧ x.unloadCmd = some r) := by
  refine ⟨⟨exBase, sent (exBase) (exHdr Op.indexLoad 68) (List.replicate 68 0), exHdr Op.indexLoad 68, List.replicate 68 0, sentLive (exBase) (exHdr Op.indexLoad 68) (List.replicate 68 0), _, Status.indexParam, ?_, ?_, rfl, ?_⟩,
    ⟨exLoadable, sent (exLoadable) (exHdr Op.indexLoad 68) (exDesc64 ++ List.replicate 4 0), exHdr Op.indexLoad 68, exDesc64 ++ List.replicate 4 0, sentLive (exLoadable) (exHdr Op.indexLoad 68) (exDesc64 ++ List.replicate 4 0), _, ?_, ?_, rfl, ?_⟩,
    ⟨exIdx (exIndex 2), sent (exIdx (exIndex 2)) (exHdr Op.indexSave 8) (leBytes 8 (2 * 2 ^ 32)), exHdr Op.indexSave 8, leBytes 8 (2 * 2 ^ 32), sentLive (exIdx (exIndex 2)) (exHdr Op.indexSave 8) (leBytes 8 (2 * 2 ^ 32)), exIndex 2, stamps_of_check exSave_stamps, by decide +kernel, ?_, exSave_fits⟩,
    ⟨exIdx (exIndex 2), sent (exIdx (exIndex 2)) (exHdr Op.indexUnload 4) (List.replicate 4 0), exHdr Op.indexUnload 4, List.replicate 4 0, sentLive (exIdx (exIndex 2)) (exHdr Op.indexUnload 4) (List.replicate 4 0), exIndex 2, ?_, ?_, ?_⟩,
    ⟨exImage { exIndex 1 with imgDone := false }, 0, { exIndex 1 with imgDone := false }, exObj 1, ?_, ?_, ?_, ?_, ?_, ?_, ?_⟩,
    ⟨exIdx { exIndex 1 with imgDone := false, img := 2 }, 0, { exIndex 1 with imgDone := false, img := 2 }, exFile 2, ?_, ?_, ?_, ?_, ?_⟩,
    ⟨exIdx { exIndex 1 with imgDone := false, loadCmd := some exRef }, 0, { exIndex 1 with imgDone := false, loadCmd := some exRef }, exObj 1, exRef, ?_, ?_, ?_, ?_, ?_, ?_, ?_⟩,
    ⟨exImage { exIndex 1 with imgDone := false, loadCmd := some exRef }, 0, { exIndex 1 with imgDone := false, loadCmd := some exRef }, exObj 1, exRef, 0, ?_, ?_, ?_, ?_, ?_, ?_, ?_, ?_⟩,
    ⟨exWhole exBadTomb, 0, { exIndex 1 with imgDone := false, loadCmd := some exRef }, exObj 1, exRef, ?_, ?_, ?_, ?_, ?_, ?_, ?_, exWhole_ok.2, ?_⟩,
    ⟨exWhole [], 0, { exIndex 1 with imgDone := false, loadCmd := some exRef }, exObj 1, exRef, ?_, ?_, ?_, ?_, ?_, ?_, ?_, exWhole_ok.1, ?_⟩,
    ⟨exIdx { exIndex 1 with built := false, loadCmd := some exRef, desc := exDesc64 }, 0, { exIndex 1 with built := false, loadCmd := some exRef, desc := exDesc64 }, exRef, ?_, ?_, ?_, ?_, ?_, ?_⟩,
    ⟨{ exIdx { exIndex 1 with built := false, loadCmd := some exRef, desc := exDesc64 } with mm := { MemSt.reset with shares := [{ owner := .model, die := none, us := (List.range 4).map (fun d => (d, List.range 256)) }] } }, 0, { exIndex 1 with built := false, loadCmd := some exRef, desc := exDesc64 }, exRef, ?_, ?_, ?_, ?_, ?_, ?_⟩,
    ⟨{ exIdx { exIndex 2 with saves := [{ r := exRef, target := 2 }] } with fl := { FlashSt.reset with ready := true, writes := [exFWrite] } }, 0, { exIndex 2 with saves := [{ r := exRef, target := 2 }] }, { r := exRef, target := 2 }, [], exFile 2, ?_, ?_, ?_, ?_, ?_⟩,
    ⟨{ exIdx { exIndex 2 with saves := [{ r := exRef, target := 2 }] } with fl := { FlashSt.reset with ready := true } }, 0, { exIndex 2 with saves := [{ r := exRef, target := 2 }] }, { r := exRef, target := 2 }, [], exFile 2, ?_, ?_, ?_, ?_, ?_⟩,
    ⟨exIdx { exIndex 3 with unloadCmd := some exRef }, 0, { exIndex 3 with unloadCmd := some exRef }, exRef, ?_, ?_, ?_, ?_⟩⟩ <;>
  first | with_reducible rfl | decide +kernel | exact stamps_of_check (by decide +kernel) | exact waits_of_check (by decide +kernel) | exact ⟨by decide +kernel, by decide +kernel, by decide +kernel, by decide +kernel⟩ | rfl

theorem wit_TidesNumberTheCommands :
    (∃ s : State, s.powered = true ∧ s.cmd.ready = true) ∧
    (∃ s : State, ∃ i : Nat, ∃ n : Nat, ∃ b : Nat, s.powered = true ∧ s.streamHead i = some (.mark n b)) ∧
    (∃ s : State, ∃ t : State, ∃ i : Nat, ∃ r : CmdRef, ∃ l0 : Live, ∃ l : Live, s.powered = true ∧ s.streamHead i = some (.cmd r) ∧ ((s.live? r).map s.stampWaits).getD false = false ∧ (s.popStream i).live? r = some l0 ∧ checkOf l0.h.opcode (s.popStream i).asReady l0.h l0.body = none ∧ t = (s.popStream i).stamp r i ∧ t.live? r = some l) ∧
    (∃ s : State, ∃ i : Nat, ∃ r : CmdRef, s.powered = true ∧ s.streamHead i = some (.cmd r) ∧ ((s.live? r).map s.stampWaits).getD false = true) ∧
    (∃ s : State, ∃ i : Nat, ∃ st : Nat, ∃ r : CmdRef, ∃ l : Live, ∃ b : Body, s.powered = true ∧ s.streamHead i = some (.cmd r) ∧ ((s.live? r).map s.stampWaits).getD false = false ∧ (s.popStream i).live? r = some l ∧ checkOf l.h.opcode (s.popStream i).asReady l.h l.body = some (st, b)) ∧
    (∃ s : State, ∃ src : Nat, s.powered = true ∧ s.alone = false ∧ s.fix.bridge = false ∧ (s.zwx.follow = none ∨ s.zwx.follow = some src)) ∧
    (∃ s : State, ∃ src : Nat, ∃ f : Nat, s.powered = true ∧ s.alone = false ∧ s.fix.bridge = false ∧ s.zwx.follow = some f ∧ f ≠ src) ∧
    (∃ s : State, s.powered = true ∧ s.alone = true) ∧
    (∃ s : State, ∃ src : Nat, s.powered = true ∧ s.alone = false ∧ s.fix.bridge = true ∧ s.fix.ord ≤ src) ∧
    (∃ s : State, ∃ src : Nat, s.powered = true ∧ s.alone = false ∧ s.fix.bridge = true ∧ s.zwx.follow = none ∧ src ≠ s.fix.ord) ∧
    (∃ s : State, ∃ src : Nat, s.powered = true ∧ (s.alone = true ∨ s.fix.bridge = false ∨ s.zwx.follow.isSome = true ∨ src = s.fix.ord)) ∧
    (∃ s : State, s.fix.bridge = false ∧ s.idx.lost = false ∧ s.idx.lostTides ≤ s.idx.sinceMark) := by
  refine ⟨⟨exOn, ?_, ?_⟩,
    ⟨exStream (.mark 5 2) 0, 0, 5, 2, ?_, ?_⟩,
    ⟨exStream (.cmd exRef) Op.nop, _, 0, exRef, exLive Op.nop [], (((((exStream (.cmd exRef) Op.nop).popStream 0).stamp exRef 0).live? exRef).getD (exLive 0 [])), ?_, ?_, ?_, ?_, ?_, rfl, ?_⟩,
    ⟨exBehind, 0, exRef, ?_, ?_, ?_⟩,
    ⟨exStream (.cmd exRef) Op.search, 0, Status.indexNotReady, exRef, exLive Op.search [], [], ?_, ?_, ?_, ?_, ?_⟩,
    ⟨exTwo none, 0, ?_, ?_, ?_, ?_⟩,
    ⟨exTwo (some 1), 0, 1, ?_, ?_, ?_, ?_, ?_⟩,
    ⟨exOn, ?_, ?_⟩,
    ⟨{ exTwo none with fix := { FixSt.reset with dx := 2, ord := 1, bridge := true } }, 1, ?_, ?_, ?_, ?_⟩,
    ⟨{ exTwo none with fix := { FixSt.reset with dx := 2, ord := 1, bridge := true } }, 0, ?_, ?_, ?_, ?_, ?_⟩,
    ⟨{ exTwo (some 2) with fix := { FixSt.reset with dx := 2, ord := 1, bridge := true } }, 0, ?_, Or.inr (Or.inr (Or.inl (by decide +kernel)))⟩,
    ⟨{ exOn with idx := { IdxSt.reset with sinceMark := 16 } }, ?_, ?_, ?_⟩⟩ <;>
  first | with_reducible rfl | decide +kernel | exact stamps_of_check (by decide +kernel) | exact waits_of_check (by decide +kernel) | exact ⟨by decide +kernel, by decide +kernel, by decide +kernel, by decide +kernel⟩ | rfl

theorem wit_QueriesRunToCompletion :
    (∃ s : State, ∃ t : State, ∃ h : CmdHdr, ∃ b : Body, s.waitsForStamp chkSearch h b t ∧ isSearch h b = true) ∧
    (∃ s : State, ∃ u : State, ∃ h : CmdHdr, ∃ b : Body, ∃ l : Live, s.entersStream chkSearch h b u l ∧ isSearch h b = true) ∧
    (∃ s : State, ∃ t : State, ∃ i : Nat, ∃ r : CmdRef, ∃ l0 : Live, ∃ l : Live, ∃ x : Index, s.powered = true ∧ s.streamHead i = some (.cmd r) ∧ ((s.live? r).map s.stampWaits).getD false = false ∧ (s.popStream i).live? r = some l0 ∧ l0.h.opcode = Op.search ∧ chkSearch (s.popStream i).asReady l0.h l0.body = none ∧ t = (s.popStream i).stamp r i ∧ t.live? r = some l ∧ (t.heldIndex l.h.func (fld l.body 5 0) = some x) ∧ t.query? r = none) ∧
    (∃ s : State, ∃ q : CmdRef, ∃ y : Query, ∃ x : Index, s.query? q = some y ∧ y.st = .probing ∧ s.index? y.idx = some x) ∧
    (∃ s : State, ∃ i : Nat, ∃ x : Index, s.index? i = some x ∧ x.sealNo < s.idx.bno ∧ 2 ≤ x.st ∧ s.probesDone i = true) ∧
    (∃ s : State, ∃ die : Nat, ∃ i : Nat, ∃ k : Bank, ((s.sealedOrder die).find? (fun k => (s.bankIsland k).isSome) = some k) ∧ s.bankIsland k = some i ∧ s.idx.bno ≤ k.target) ∧
    (∃ s : State, ∃ i : Nat, ∃ k : Bank, ∃ x : Index, (s.idx.banks.find? (fun k => k.st == .scan && k.island == i) = some k) ∧ s.index? k.idx = some x) ∧
    (∃ s : State, ∃ i : Nat, ∃ k : Bank, ∃ x : Index, (s.idx.banks.find? (fun k => k.st == .report && k.island == i) = some k) ∧ s.index? k.idx = some x) ∧
    (∃ s : State, ∃ i : Nat, ∃ k : Bank, ∃ x : Index, ∃ p : SetQ, ∃ y : Query, (s.idx.banks.find? (fun k => k.st == .report && k.island == i) = some k) ∧ s.index? k.idx = some x ∧ k.qs = [p] ∧ p.out = false ∧ s.query? p.r = some y ∧ y.ord = p.ord) ∧
    (∃ s : State, ∃ q : CmdRef, ∃ y : Query, ∃ x : Index, s.query? q = some y ∧ y.st = .scanning ∧ y.nBound = 0 ∧ y.waiting = [] ∧ s.index? y.idx = some x ∧ ((searchF1 (s.qBody q) = none ∧ searchF2 (s.qBody q) = none) ∨ searchK (s.qBody q) ≤ y.pass ∨ y.order.length ≤ y.pos ∨ 2 ≤ y.level)) ∧
    (∃ s : State, ∃ q : CmdRef, ∃ y : Query, ∃ x : Index, s.query? q = some y ∧ y.st = .scanning ∧ y.nBound = 0 ∧ y.waiting = [] ∧ s.index? y.idx = some x ∧ (searchF1 (s.qBody q) ≠ none ∨ searchF2 (s.qBody q) ≠ none) ∧ y.pass < searchK (s.qBody q) ∧ y.pos < y.order.length ∧ y.level < 2) ∧
    (∃ s : State, ∃ q : CmdRef, ∃ y : Query, ∃ x : Index, s.query? q = some y ∧ y.st = .merged ∧ s.index? y.idx = some x ∧ s.reranks x y = true) ∧
    (∃ s : State, ∃ q : CmdRef, ∃ y : Query, ∃ x : Index, s.query? q = some y ∧ s.index? y.idx = some x ∧ (y.st = .final ∨ (y.st = .merged ∧ s.reranks x y = false))) := by
  refine ⟨⟨exIdx (exIndex 2), sent (exIdx (exIndex 2)) (exHdr Op.search 32) (List.replicate 32 0), exHdr Op.search 32, List.replicate 32 0, ?_, ?_⟩,
    ⟨exIdx (exIndex 2), _, exHdr Op.search 32, List.replicate 32 0, _, enters_of_check (by decide +kernel), ?_⟩,
    ⟨{ exIdx (exIndex 2) with cmd := { exBase.cmd with deliver := [(0, .cmd exRef)], live := [exLive Op.search (List.replicate 32 0)] } }, _, 0, exRef, exLive Op.search (List.replicate 32 0), ((((({ exIdx (exIndex 2) with cmd := { exBase.cmd with deliver := [(0, .cmd exRef)], live := [exLive Op.search (List.replicate 32 0)] } }).popStream 0).stamp exRef 0).live? exRef).getD (exLive 0 [])), exIndex 2, ?_, ?_, ?_, ?_, ?_, ?_, rfl, ?_, ?_, ?_⟩,
    ⟨exSearch .probing [], exRef, exQuery .probing, exIndex 2, ?_, ?_, ?_⟩,
    ⟨{ exIdx (exIndex 2) with idx := { IdxSt.reset with indexes := [exIndex 2], bno := 1 } }, 0, exIndex 2, ?_, ?_, ?_, ?_⟩,
    ⟨exBanks .sealed_, 0, 0, exBank .sealed_, ?_, ?_, ?_⟩,
    ⟨exBanks .scan, 0, exBank .scan, exIndex 2, ?_, ?_⟩,
    ⟨exBanks .report, 0, exBank .report, exIndex 2, ?_, ?_⟩,
    ⟨exReporting, 0, { exBank .report with qs := [exSetQ] }, exIndex 2, exSetQ, exQuery .scanning, ?_, ?_, ?_, ?_, ?_, ?_⟩,
    ⟨exSearch .scanning [], exRef, exQuery .scanning, exIndex 2, ?_, ?_, ?_, ?_, ?_, Or.inl ⟨by decide +kernel, by decide +kernel⟩⟩,
    ⟨{ exSearch .scanning (leBytes 32 (2 ^ 9)) with idx := { IdxSt.reset with indexes := [exIndex 2], queries := [{ exQuery .scanning with order := [(0, 0)] }] } }, exRef, { exQuery .scanning with order := [(0, 0)] }, exIndex 2, ?_, ?_, ?_, ?_, ?_, Or.inl (by decide +kernel), ?_, ?_, ?_⟩,
    ⟨exSearch .merged (leBytes 32 (2 ^ 64)), exRef, exQuery .merged, exIndex 2, ?_, ?_, ?_, ?_⟩,
    ⟨exSearch .final [], exRef, exQuery .final, exIndex 2, ?_, ?_, ?_⟩⟩ <;>
  first | with_reducible rfl | decide +kernel | exact stamps_of_check (by decide +kernel) | exact waits_of_check (by decide +kernel) | exact ⟨by decide +kernel, by decide +kernel, by decide +kernel, by decide +kernel⟩ | rfl

theorem wit_MutationsStageAndPassesStart :
    (∃ s : State, ∃ t : State, ∃ h : CmdHdr, ∃ b : Body, s.waitsForStamp chkMutate h b t ∧ isMutate h b = true) ∧
    (∃ s : State, ∃ t : State, ∃ h : CmdHdr, ∃ b : Body, s.waitsForStamp chkIndexCompact h b t ∧ isIndexCompact h b = true) ∧
    (∃ s : State, ∃ u : State, ∃ h : CmdHdr, ∃ b : Body, ∃ l : Live, isMutate h b = true ∧ s.entersStream chkMutate h b u l) ∧
    (∃ s : State, ∃ u : State, ∃ h : CmdHdr, ∃ b : Body, ∃ l : Live, isIndexCompact h b = true ∧ s.entersStream chkIndexCompact h b u l) ∧
    (∃ s : State, ∃ t : State, ∃ i : Nat, ∃ r : CmdRef, ∃ l0 : Live, ∃ l : Live, ∃ x : Index, s.powered = true ∧ s.streamHead i = some (.cmd r) ∧ ((s.live? r).map s.stampWaits).getD false = false ∧ (s.popStream i).live? r = some l0 ∧ checkOf l0.h.opcode (s.popStream i).asReady l0.h l0.body = none ∧ t = (s.popStream i).stamp r i ∧ t.live? r = some l ∧ (t.heldIndex l.h.func (fld l.body 5 0) = some x) ∧ l0.h.opcode = Op.mutate) ∧
    (∃ s : State, ∃ t : State, ∃ i : Nat, ∃ r : CmdRef, ∃ l0 : Live, ∃ l : Live, ∃ x : Index, s.powered = true ∧ s.streamHead i = some (.cmd r) ∧ ((s.live? r).map s.stampWaits).getD false = false ∧ (s.popStream i).live? r = some l0 ∧ checkOf l0.h.opcode (s.popStream i).asReady l0.h l0.body = none ∧ t = (s.popStream i).stamp r i ∧ t.live? r = some l ∧ (t.heldIndex l.h.func (fld l.body 5 0) = some x) ∧ l0.h.opcode = Op.indexCompact) ∧
    (∃ s : State, ∃ i : Nat, ∃ m : Staged, ∃ x : Index, (s.idx.staged.find? (fun m => m.idx == i && m.recs.isNone) = some m) ∧ s.index? i = some x) ∧
    (∃ s : State, ∃ i : Nat, (s.idx.staged.find? (fun m => m.idx == i && m.recs.isNone) = none) ∨ s.index? i = none) ∧
    (∃ s : State, ∃ stack : Nat, ∃ a : Nat, ∃ b : Nat, ∃ h : Nat, ∃ x : Index, ∃ o : Obj, (∀ p ∈ s.idx.passes, p.running = false) ∧ bits s.idx.compact 3 0 ≠ 0 ∧ s.passCandidates stack = [(x, h, a, b)] ∧ (s.obj? x.func x.hTab = some o)) := by
  refine ⟨⟨exIdx (exIndex 2), sent (exIdx (exIndex 2)) (exHdr Op.mutate 96) exMutation, exHdr Op.mutate 96, exMutation, ?_, ?_⟩,
    ⟨exIdx (exIndex 2), sent (exIdx (exIndex 2)) (exHdr Op.indexCompact 16) (List.replicate 16 0), exHdr Op.indexCompact 16, List.replicate 16 0, ?_, ?_⟩,
    ⟨exIdx (exIndex 2), _, exHdr Op.mutate 96, exMutation, _, ?_, enters_of_check (by decide +kernel)⟩,
    ⟨exIdx (exIndex 2), _, exHdr Op.indexCompact 16, List.replicate 16 0, _, ?_, enters_of_check (by decide +kernel)⟩,
    ⟨(exStamping Op.mutate exMutation), _, 0, exRef, exLive Op.mutate exMutation, (((((exStamping Op.mutate exMutation).popStream 0).stamp exRef 0).live? exRef).getD (exLive 0 [])), exIndex 2, ?_, ?_, ?_, ?_, ?_, rfl, ?_, ?_, ?_⟩,
    ⟨(exStamping Op.indexCompact (List.replicate 16 0)), _, 0, exRef, exLive Op.indexCompact (List.replicate 16 0), (((((exStamping Op.indexCompact (List.replicate 16 0)).popStream 0).stamp exRef 0).live? exRef).getD (exLive 0 [])), exIndex 2, ?_, ?_, ?_, ?_, ?_, rfl, ?_, ?_, ?_⟩,
    ⟨{ exIdx (exIndex 2) with idx := { IdxSt.reset with indexes := [exIndex 2], staged := [exStaged] } }, 0, exStaged, exIndex 2, ?_, ?_⟩,
    ⟨exBase, 0, Or.inr (by decide +kernel)⟩,
    ⟨{ exIdx (exIndex 2) with idx := { IdxSt.reset with indexes := [exIndex 2], passes := [{ idx := 0, shoal := 0, running := false, moved := false, left := [], cmds := [] }] } }, 0, ((exIdx (exIndex 2)).deadRows (exIndex 2) 0).length, max 1 ((exIdx (exIndex 2)).shRows (exIndex 2) 0), 0, exIndex 2, exObj 0, ?_, ?_, ?_, ?_⟩⟩ <;>
  first | with_reducible rfl | decide +kernel | exact stamps_of_check (by decide +kernel) | exact waits_of_check (by decide +kernel) | exact ⟨by decide +kernel, by decide +kernel, by decide +kernel, by decide +kernel⟩ | rfl

theorem wit_SelectionsRun :
    (∃ s : State, ∃ t : State, ∃ h : CmdHdr, ∃ b : Body, ∃ l : Live, s.stampsAtOnce chkSelect h b l t ∧ isTopk h b = true) ∧
    (∃ s : State, ∃ t : State, ∃ h : CmdHdr, ∃ b : Body, ∃ l : Live, s.stampsAtOnce chkSelect h b l t ∧ isMerge h b = true) ∧
    (∃ s : State, ∃ q : CmdRef, ∃ row : Nat, ∃ piece : Nat, ∃ x : SelRun, ∃ l : Live, ∃ o : Obj, ∃ p : PieceAt, s.sel? q = some x ∧ s.live? q = some l ∧ (s.obj? l.h.func (fld l.body 159 128) = some o) ∧ selOp l.body = 0 ∧ (x.at_.find? (fun p => p.row == row && p.piece == piece) = some p) ∧ (row, piece) ∉ x.done) ∧
    (∃ s : State, ∃ q : CmdRef, ∃ x : SelRun, ∃ l : Live, s.sel? q = some x ∧ s.live? q = some l ∧ (selOp l.body = 1 ∨ selRows l.body * selPieces l.body ≤ x.done.length)) := by
  refine ⟨⟨exBase, sent (exBase) (exHdr Op.select 64) (exTopk), exHdr Op.select 64, exTopk, sentLive (exBase) (exHdr Op.select 64) (exTopk), ?_, ?_⟩,
    ⟨exBase, sent (exBase) (exHdr Op.select 64) (exMerge), exHdr Op.select 64, exMerge, sentLive (exBase) (exHdr Op.select 64) (exMerge), ?_, ?_⟩,
    ⟨{ exSelect exTopk with idx := { IdxSt.reset with sels := [{ exSel with at_ := [{ row := 0, piece := 0, island := 0, kib := 0 }] }] } }, exRef, 0, 0, { exSel with at_ := [{ row := 0, piece := 0, island := 0, kib := 0 }] }, exLive Op.select exTopk, exObj 0, { row := 0, piece := 0, island := 0, kib := 0 }, ?_, ?_, ?_, ?_, ?_, ?_⟩,
    ⟨exSelect exMerge, exRef, exSel, exLive Op.select exMerge, ?_, ?_, ?_⟩⟩ <;>
  first | with_reducible rfl | decide +kernel | exact stamps_of_check (by decide +kernel) | exact waits_of_check (by decide +kernel) | exact ⟨by decide +kernel, by decide +kernel, by decide +kernel, by decide +kernel⟩ | rfl

theorem wit_AttentionRunsInAStep :
    (∃ s : State, ∃ a : AttnRef, ∃ un : List Nat, ∃ pick : List Nat, ∃ el : List Nat, ∃ mine : List Nat, ∃ sc : List (Nat × Nat), ∃ far : List (Option (List (Nat × Nat))), ∃ k : Cohort, ∃ r : AttnRun, ∃ x : CEntry, ∃ c : KvCtx, ∃ d : Body, ∃ ref : Nat → PageRef, s.cohort? a.slot = some k ∧ k.attn? a = some r ∧ k.entries[a.entry]? = some x ∧ s.kv? k.ctx = some c ∧ r.chosen = false ∧ r.listed = false ∧ d = s.attnDesc a.layer ∧ el = s.eligible d x ∧ (ref = (fun n => { seq := x.seq, layer := a.layer, group := a.group, page := n })) ∧ (mine = el.filter (fun n => s.pageHere c (ref n))) ∧ sc = bestPages (adRetr d) (s.pageScores c k d a x mine) ∧ far = (s.others c).map (s.farList c x (ref 0)) ∧ (adRetr d < el.length → ∀ n ∈ mine, s.listReadable c (ref n) = true ∧ s.metaReadable c (ref n) = true) ∧ s.mergesHere c x = true ∧ (adRetr d < el.length → c.layout = 2 → ∀ l ∈ far, l ≠ none) ∧ (pick = (if el.length ≤ adRetr d then el else if c.layout = 2 then choosePages (adRetr d) (sc ++ (far.filterMap id).flatten) else sortBy id (sc.map (fun e => e.1)))) ∧ (∀ n ∈ pick, s.pageHere c (ref n) = true → n ∉ un ∧ pwState (s.pageWord c (ref n)) ≠ 3 ∧ (pwState (s.pageWord c (ref n)) ≠ 2 → s.pageReadable c (ref n) = true))) ∧
    (∃ s : State, ∃ a : AttnRef, ∃ el : List Nat, ∃ mine : List Nat, ∃ sc : List (Nat × Nat), ∃ far : List (Option (List (Nat × Nat))), ∃ k : Cohort, ∃ r : AttnRun, ∃ x : CEntry, ∃ c : KvCtx, ∃ d : Body, ∃ ref : Nat → PageRef, s.cohort? a.slot = some k ∧ k.attn? a = some r ∧ k.entries[a.entry]? = some x ∧ s.kv? k.ctx = some c ∧ r.chosen = false ∧ r.listed = false ∧ d = s.attnDesc a.layer ∧ el = s.eligible d x ∧ (ref = (fun n => { seq := x.seq, layer := a.layer, group := a.group, page := n })) ∧ (mine = el.filter (fun n => s.pageHere c (ref n))) ∧ sc = bestPages (adRetr d) (s.pageScores c k d a x mine) ∧ far = (s.others c).map (s.farList c x (ref 0)) ∧ (adRetr d < el.length → ∀ n ∈ mine, s.listReadable c (ref n) = true ∧ s.metaReadable c (ref n) = true) ∧ s.mergesHere c x = false ∧ adRetr d < el.length) ∧
    (∃ s : State, ∃ a : AttnRef, ∃ split : Nat, ∃ rb : Nat, ∃ t : Task, s.runningTask (.split a split rb) = some t ∧ s.splitGap a split rb = none) ∧
    (∃ s : State, ∃ a : AttnRef, ∃ split : Nat, ∃ rb : Nat, ∃ t : Task, ∃ g, s.runningTask (.split a split rb) = some t ∧ s.splitGap a split rb = some g) ∧
    (∃ s : State, ∃ a : AttnRef, ∃ v : Task, ∃ k : Cohort, ∃ r : AttnRun, ∃ x : CEntry, ∃ c : KvCtx, s.runningTask (.merge a) = some v ∧ s.cohort? a.slot = some k ∧ k.attn? a = some r ∧ k.entries[a.entry]? = some x ∧ s.kv? k.ctx = some c) ∧
    (∃ s : State, ∃ slot : Nat, ∃ entry : Nat, ∃ layer : Nat, ∃ k : Cohort, ∃ x : CEntry, s.cohort? slot = some k ∧ k.entries[entry]? = some x ∧ x.left = false ∧ (∃ r ∈ k.attns, r.entry = entry ∧ r.layer = layer) ∧ (∀ r ∈ k.attns, r.entry = entry → r.layer = layer → r.out ≠ none)) ∧
    (∃ s : State, ∃ r : BwdReq, ∃ e : BwdEntry, ∃ q : Seq, ∃ c : KvCtx, r.table.head? = some e ∧ s.seq? e.seq = some q ∧ s.kv? q.ctx = some c ∧ (c.func = r.func) ∧ s.gen.model.st = 2 ∧ r.layer < s.mLayers ∧ (∀ y ∈ r.table, (s.seq? y.seq).map (fun q => q.ctx) = some c.ctx)) := by
  refine ⟨⟨exStep exAttn, exAt, [], _, _, _, _, _, exCohort exAttn, exAttn, exEntry, exKv, _, _, ?_, ?_, ?_, ?_, ?_, ?_, rfl, rfl, rfl, rfl, rfl, rfl, ?_, ?_, ?_, rfl, ?_⟩,
    ⟨exFarStep, exAt, _, _, _, _, { exCohort exAttn with entries := [{ exEntry with pos0 := 64 }] }, exAttn, { exEntry with pos0 := 64 }, exFarKv, _, _, ?_, ?_, ?_, ?_, ?_, ?_, rfl, rfl, rfl, rfl, rfl, rfl, ?_, ?_, ?_⟩,
    ⟨{ exOn with sch := { SchedSt.reset with tasks := [exTask (.split exAt 0 0) (some 3)] } }, exAt, 0, 0, exTask (.split exAt 0 0) (some 3), ?_, ?_⟩,
    ⟨exSplitStep, exAt, 5, 0, exTask (.split exAt 5 0) (some 3), (exKv, exPg, 0), ?_, ?_⟩,
    ⟨{ exStep exAttn with sch := { SchedSt.reset with tasks := [exTask (.merge exAt) (some 3)] } }, exAt, exTask (.merge exAt) (some 3), exCohort exAttn, exAttn, exEntry, exKv, ?_, ?_, ?_, ?_, ?_⟩,
    ⟨exStep { exAttn with out := some [] }, 0, 0, 0, exCohort { exAttn with out := some [] }, exEntry, ?_, ?_, ?_, ?_, ?_⟩,
    ⟨{ exStep exAttn with gen := { (exStep exAttn).gen with model := exModel } }, { gBwdReq with outObj := 1 }, gBwdEntry, exSeq, exKv, ?_, ?_, ?_, ?_, ?_, ?_, ?_⟩⟩ <;>
  first | with_reducible rfl | decide +kernel | exact stamps_of_check (by decide +kernel) | exact waits_of_check (by decide +kernel) | exact ⟨by decide +kernel, by decide +kernel, by decide +kernel, by decide +kernel⟩ | rfl

theorem wit_CachePagesMoveAndCommandsRun :
    (∃ s : State, ∃ u : State, ∃ p : PageRef, ∃ m : PageMove, ∃ c : KvCtx, (s.kv.spills.find? (fun m => m.p == p && !m.done) = some m) ∧ s.kv? m.ctx = some c ∧ s.spillTurn m.spill = true ∧ (u = ((((s.endSpillWrite m.spill).setBytes (spillAddr m.spill) (s.hBytes c.func (c.pools.getD m.pool (0, 0)).1 (m.frame * 16384) 16384)).mapSpill m.spill).hTraffic c.func c.func (c.pools.getD m.pool (0, 0)).1 false (m.frame * 16384) 16384).charge c.func (fun a => { a with t3wr := a.t3wr + 16384 }))) ∧
    (∃ s : State, ∃ p : PageRef, ∃ m : PageMove, ∃ c : KvCtx, (s.kv.spills.find? (fun m => m.p == p && !m.done) = some m) ∧ s.kv? m.ctx = some c ∧ s.spillTurn m.spill = false) ∧
    (∃ s : State, ∃ p : PageRef, ∃ m : PageMove, ∃ c : KvCtx, (s.kv.spills.find? (fun m => m.p == p && !m.done) = some m) ∧ s.kv? m.ctx = some c ∧ s.spillTurn m.spill = true ∧ m.spare = none) ∧
    (∃ s : State, ∃ a : AttnRef, ∃ page : Nat, ∃ k : Cohort, ∃ r : AttnRun, ∃ x : CEntry, ∃ c : KvCtx, ∃ sp : Split, s.cohort? a.slot = some k ∧ k.attn? a = some r ∧ k.entries[a.entry]? = some x ∧ s.kv? k.ctx = some c ∧ sp ∈ r.splits ∧ sp.t3 = true ∧ page ∈ sp.pages ∧ page ∉ sp.landed ∧ s.pageReadable c { seq := x.seq, layer := a.layer, group := a.group, page := page } = true ∧ (s.pageServed c { seq := x.seq, layer := a.layer, group := a.group, page := page }).isSome = true) ∧
    (∃ s : State, ∃ p : PageRef, ∃ m : PageMove, ∃ c : KvCtx, (s.kv.promos.find? (fun m => m.p == p) = some m) ∧ s.kv? m.ctx = some c ∧ (m.cmd.isSome = true ∧ (s.pageServed c p).isSome = true)) ∧
    (∃ s : State, ∃ u : State, ∃ p : PageRef, ∃ m : PageMove, ∃ c : KvCtx, (s.kv.relocs.find? (fun m => m.p == p && !m.done) = some m) ∧ s.kv? m.ctx = some c ∧ u = s.putFrame c m.pool m.frame 0 (s.codeBytes c p 0 16384)) ∧
    (∃ s : State, ∃ p : PageRef, s.kv.mirroring.contains p = true) ∧
    (∃ s : State, ∃ v : State, ∃ p : PageRef, ∃ q : Seq, ∃ c : KvCtx, ∃ y, s.kv.rebuild.contains p = true ∧ s.seq? p.seq = some q ∧ s.kv? q.ctx = some c ∧ (((s.obj? q.func (sqToklog q.body)).map (fun o => s.objReadable o (256 * p.page) 256)).getD false = true) ∧ s.redoRows c q p (s.redoCount q p) = (v, .needs y) ∧ s.kv.rebuild.contains y = false) ∧
    (∃ s : State, ∃ v : State, ∃ p : PageRef, ∃ q : Seq, ∃ c : KvCtx, ∃ t : State, ∃ u : State, ∃ rows : List Fresh, s.kv.rebuild.contains p = true ∧ s.seq? p.seq = some q ∧ s.kv? q.ctx = some c ∧ (((s.obj? q.func (sqToklog q.body)).map (fun o => s.objReadable o (256 * p.page) 256)).getD false = true) ∧ s.redoRows c q p (s.redoCount q p) = (v, .rows rows) ∧ (State.reframeAll q.ctx (s.lostPages c p) { s with kv := { s.kv with rebuild := s.kv.rebuild.filter (fun x => x != p), far := v.kv.far }, regs := v.regs, fresh := v.fresh, mm := v.mm, sch := v.sch } = some t) ∧ (u = (s.lostPages c p).foldl (fun s x => s.recode c x rows) t) ∧ (∀ x ∈ u.kv.rebuild, x.seq ≠ p.seq)) ∧
    (∃ s : State, ∃ t : State, ∃ h : CmdHdr, ∃ b : Body, ∃ l : Live, s.stampsAtOnce chkKv h b l t ∧ isKvConfig h b = true) ∧
    (∃ s : State, ∃ t : State, ∃ h : CmdHdr, ∃ b : Body, ∃ l : Live, s.stampsAtOnce chkKv h b l t ∧ isKvPrefetch h b = true) ∧
    (∃ s : State, ∃ t : State, ∃ h : CmdHdr, ∃ b : Body, ∃ l : Live, s.stampsAtOnce chkKv h b l t ∧ isKvSpill h b = true) ∧
    (∃ s : State, ∃ t : State, ∃ h : CmdHdr, ∃ b : Body, ∃ l : Live, ∃ x, ∃ n, s.stampsAtOnce chkKv h b l t ∧ t.chanCtx l.h.channel = some x ∧ kvOp l.body = 0 ∧ (n = kvConfig x.id l.h.func (t.atRestKey l.h.func) l.body) ∧ n.quota + t.otherQuotas x.id ≤ t.spillFrames ∧ t.kv? x.id = none) ∧
    (∃ s : State, ∃ t : State, ∃ h : CmdHdr, ∃ b : Body, ∃ l : Live, ∃ x, ∃ n, ∃ c, s.stampsAtOnce chkKv h b l t ∧ t.chanCtx l.h.channel = some x ∧ kvOp l.body = 0 ∧ (n = kvConfig x.id l.h.func (t.atRestKey l.h.func) l.body) ∧ n.quota + t.otherQuotas x.id ≤ t.spillFrames ∧ t.kv? x.id = some c ∧ c.pools = n.pools ∧ c.root = n.root ∧ c.ageq = n.ageq ∧ c.layout = n.layout ∧ c.mirror = n.mirror ∧ c.devs = n.devs ∧ c.mirs = n.mirs ∧ c.span = n.span) ∧
    (∃ s : State, ∃ t : State, ∃ h : CmdHdr, ∃ b : Body, ∃ l : Live, ∃ x, s.stampsAtOnce chkKv h b l t ∧ t.chanCtx l.h.channel = some x ∧ kvOp l.body ≠ 0 ∧ t.kvNamed l.body = []) ∧
    (∃ s : State, ∃ t : State, ∃ h : CmdHdr, ∃ b : Body, ∃ l : Live, ∃ x, s.stampsAtOnce chkKv h b l t ∧ t.chanCtx l.h.channel = some x ∧ kvOp l.body ≠ 0 ∧ t.kvNamed l.body ≠ []) ∧
    (∃ s : State, ∃ seq : Nat, ∃ pos : Nat, ∃ n : Nat, ∃ q : Seq, ∃ c : KvCtx, s.seq? seq = some q ∧ q.want = some (pos, n) ∧ s.kv? q.ctx = some c ∧ q.flow = false ∧ q.heldAt + bits (s.genCfg 3) 7 0 ≤ s.gen.boundaries) := by
  refine ⟨⟨exSpilling true, _, exPg, exMove, exKv, ?_, ?_, ?_, rfl⟩,
    ⟨exSpilling false, exPg, exMove, exKv, ?_, ?_, ?_⟩,
    ⟨exSpilling true, exPg, exMove, exKv, ?_, ?_, ?_, ?_⟩,
    ⟨exPaged (exStep { exAttn with chosen := true, splits := [{ pages := [5], t3 := true, stack := 0, landed := [], done := [] }] }), exAt, 5, exCohort { exAttn with chosen := true, splits := [{ pages := [5], t3 := true, stack := 0, landed := [], done := [] }] }, { exAttn with chosen := true, splits := [{ pages := [5], t3 := true, stack := 0, landed := [], done := [] }] }, exEntry, exKv, { pages := [5], t3 := true, stack := 0, landed := [], done := [] }, ?_, ?_, ?_, ?_, ?_, ?_, ?_, ?_, ?_, ?_⟩,
    ⟨exPaged (exCache exSeq { KvSt.reset with ctxs := [exKv], promos := [exPromoting] }), exPg, exPromoting, exKv, ?_, ?_, ?_, ?_⟩,
    ⟨exCache exSeq { KvSt.reset with ctxs := [exKv], relocs := [exMove] }, _, exPg, exMove, exKv, ?_, ?_, rfl⟩,
    ⟨exCache exSeq { KvSt.reset with ctxs := [exKv], mirroring := [exPg] }, exPg, ?_⟩,
    ⟨exRedo, exRedo1, exDeep, { exSeq with written := 321 }, exKv, { seq := 0, layer := 0, group := 0, page := 3 }, ?_, ?_, ?_, ?_, exRedo_needs, ?_⟩,
    ⟨exRedo0, _, exPg, exSeq, exKv, _, _, [], ?_, ?_, ?_, ?_, Prod.ext rfl (by decide +kernel), rfl, rfl, ?_⟩,
    ⟨exBase, sent (exBase) (exHdr Op.kv 72) (List.replicate 72 0), exHdr Op.kv 72, List.replicate 72 0, sentLive (exBase) (exHdr Op.kv 72) (List.replicate 72 0), ?_, ?_⟩,
    ⟨exCache exSeq { KvSt.reset with ctxs := [exKv] }, sent (exCache exSeq { KvSt.reset with ctxs := [exKv] }) (exHdr Op.kv 64) (leBytes 64 1), exHdr Op.kv 64, leBytes 64 1, sentLive (exCache exSeq { KvSt.reset with ctxs := [exKv] }) (exHdr Op.kv 64) (leBytes 64 1), ?_, ?_⟩,
    ⟨exCache exSeq { KvSt.reset with ctxs := [exKv] }, sent (exCache exSeq { KvSt.reset with ctxs := [exKv] }) (exHdr Op.kv 64) (leBytes 64 2), exHdr Op.kv 64, leBytes 64 2, sentLive (exCache exSeq { KvSt.reset with ctxs := [exKv] }) (exHdr Op.kv 64) (leBytes 64 2), ?_, ?_⟩,
    ⟨exBase, sent (exBase) (exHdr Op.kv 72) (List.replicate 72 0), exHdr Op.kv 72, List.replicate 72 0, sentLive (exBase) (exHdr Op.kv 72) (List.replicate 72 0), exCtx, _, ?_, ?_, ?_, rfl, ?_, ?_⟩,
    ⟨exSameKv, sent (exSameKv) (exHdr Op.kv 72) (List.replicate 72 0), exHdr Op.kv 72, List.replicate 72 0, sentLive (exSameKv) (exHdr Op.kv 72) (List.replicate 72 0), exCtx, _, kvConfig 0 0 none (List.replicate 72 0), ?_, ?_, ?_, rfl, ?_, ?_, ?_, ?_, ?_, ?_, ?_, ?_, ?_, ?_⟩,
    ⟨exCache exSeq { KvSt.reset with ctxs := [exKv] }, sent (exCache exSeq { KvSt.reset with ctxs := [exKv] }) (exHdr Op.kv 64) (leBytes 64 1), exHdr Op.kv 64, leBytes 64 1, sentLive (exCache exSeq { KvSt.reset with ctxs := [exKv] }) (exHdr Op.kv 64) (leBytes 64 1), exCtx, ?_, ?_, ?_, ?_⟩,
    ⟨exHeads (exCache exSeq { KvSt.reset with ctxs := [exKv] }), sent (exHeads (exCache exSeq { KvSt.reset with ctxs := [exKv] })) (exHdr Op.kv 64) (leBytes 64 1), exHdr Op.kv 64, leBytes 64 1, sentLive (exHeads (exCache exSeq { KvSt.reset with ctxs := [exKv] })) (exHdr Op.kv 64) (leBytes 64 1), exCtx, ?_, ?_, ?_, ?_⟩,
    ⟨{ exBase with kv := { KvSt.reset with ctxs := [exKv] }, gen := { GenSt.reset with seqs := [{ exSeq with want := some (0, 1) }], boundaries := 16 } }, 0, 0, 1, { exSeq with want := some (0, 1) }, exKv, ?_, ?_, ?_, ?_, ?_⟩⟩ <;>
  first | with_reducible rfl | decide +kernel | exact stamps_of_check (by decide +kernel) | exact waits_of_check (by decide +kernel) | exact ⟨by decide +kernel, by decide +kernel, by decide +kernel, by decide +kernel⟩ | rfl

theorem wit_ModelsAndSequencesOpenAndClose :
    (∃ s : State, ∃ t : State, ∃ h : CmdHdr, ∃ b : Body, ∃ l : Live, s.stampsAtOnce noCheck h b l t ∧ isModelLoad h b = true) ∧
    (∃ s : State, ∃ o : Obj, ∃ r : CmdRef, s.gen.model.st = 1 ∧ s.obj? s.gen.model.func s.gen.model.img = some o ∧ s.gen.model.loadCmd = some r ∧ ((s.copyModel o).takeShare .model none (cdiv (2 * s.gen.model.winKib) 16)).2 = true) ∧
    (∃ s : State, ∃ o : Obj, ∃ r : CmdRef, ∃ ty : Nat, s.gen.model.st = 1 ∧ s.obj? s.gen.model.func s.gen.model.img = some o ∧ s.imageBad o = some ty ∧ s.gen.model.loadCmd = some r) ∧
    (∃ s : State, ∃ t : State, ∃ h : CmdHdr, ∃ b : Body, ∃ l : Live, s.stampsAtOnce noCheck h b l t ∧ isModelUnload h b = true) ∧
    (∃ s : State, ∃ t : State, ∃ h : CmdHdr, ∃ b : Body, ∃ l : Live, ∃ c : Chan, s.stampsAtOnce chkSeqOpen h b l t ∧ isSeqOpen h b = true ∧ t.chan? l.h.channel = some c) ∧
    (∃ s : State, ∃ t : State, ∃ h : CmdHdr, ∃ b : Body, ∃ l : Live, s.stampsAtOnce chkSeqClose h b l t ∧ isSeqClose h b = true) ∧
    (∃ s : State, ∃ t : State, ∃ h : CmdHdr, ∃ b : Body, ∃ l : Live, s.stampsAtOnce chkStep h b l t ∧ isStep h b = true) := by
  refine ⟨⟨exBase, sent (exBase) (exHdr Op.modelLoad 68) (List.replicate 68 0), exHdr Op.modelLoad 68, List.replicate 68 0, sentLive (exBase) (exHdr Op.modelLoad 68) (List.replicate 68 0), ?_, ?_⟩,
    ⟨exLoading false, exObj 1, exRef, ?_, ?_, ?_, ?_⟩,
    ⟨exLoading true, exObj 1, exRef, 0, ?_, ?_, ?_, ?_⟩,
    ⟨exBase, sent (exBase) (exHdr Op.modelUnload 0) ([]), exHdr Op.modelUnload 0, [], sentLive (exBase) (exHdr Op.modelUnload 0) ([]), ?_, ?_⟩,
    ⟨exFlow0, sent (exFlow0) (exHdr Op.seqOpen 64) (leBytes 64 (0)), exHdr Op.seqOpen 64, leBytes 64 (0), sentLive (exFlow0) (exHdr Op.seqOpen 64) (leBytes 64 (0)), exChan, ?_, ?_, ?_⟩,
    ⟨exCache exSeq KvSt.reset, sent (exCache exSeq KvSt.reset) (exHdr Op.seqClose 4) (leBytes 4 0), exHdr Op.seqClose 4, leBytes 4 0, sentLive (exCache exSeq KvSt.reset) (exHdr Op.seqClose 4) (leBytes 4 0), ?_, ?_⟩,
    ⟨exFlow0, sent (exFlow0) (exHdr Op.step 64) (leBytes 64 0), exHdr Op.step 64, leBytes 64 0, sentLive (exFlow0) (exHdr Op.step 64) (leBytes 64 0), ?_, ?_⟩⟩ <;>
  first | with_reducible rfl | decide +kernel | exact stamps_of_check (by decide +kernel) | exact waits_of_check (by decide +kernel) | exact ⟨by decide +kernel, by decide +kernel, by decide +kernel, by decide +kernel⟩ | rfl

theorem wit_CohortStepsOpenRunAndCommit :
    (∃ s : State, ∃ u : State, ∃ c : Nat × Option (Nat × Nat), ∃ e, s.gen.cohorts.length < 2 ∧ u = s.boundaryWork ∧ u.gen.model.st = 2 ∧ c ∈ u.candidates ∧ (∀ d ∈ u.candidates, d = c ∨ c.1 < d.1) ∧ c.2 = some e) ∧
    (∃ s : State, ∃ u : State, ∃ c : Nat × Option (Nat × Nat), ∃ r, ∃ rs, s.gen.cohorts.length < 2 ∧ u = s.boundaryWork ∧ u.gen.model.st = 2 ∧ c ∈ u.candidates ∧ (∀ d ∈ u.candidates, d = c ∨ c.1 < d.1) ∧ c.2 = none ∧ u.gen.steps = r :: rs) ∧
    (∃ s : State, ∃ u : State, s.gen.cohorts.length < 2 ∧ u = s.boundaryWork ∧ (u.gen.model.st ≠ 2 ∨ u.candidates = [])) ∧
    (∃ s : State, ∃ i : Nat, ∃ t : TileRef, ∃ k : Cohort, s.cohort? t.slot = some k ∧ s.gen.model.st = 2 ∧ s.nextTile k i = some t ∧ (((k.window i).tiles.map (fun x => tileBytes (s.wFmtOf (decide (x.proj ≥ 5))))).sum + tileBytes (s.wFmtOf (decide (t.proj ≥ 5))) ≤ s.gen.model.winKib * 1024) ∧ s.weightBad (.tile t) = false) ∧
    (∃ s : State, ∃ n : Nat, ∃ i : Nat, ∃ b : BufHandle, (∀ w ∈ s.gen.swaps, w.b ≠ b) ∧ s.swapRes n b = .go i) ∧
    (∃ s : State, ∃ n : Nat, ∃ b : BufHandle, (∀ w ∈ s.gen.swaps, w.b ≠ b) ∧ s.swapRes n b = .wait) ∧
    (∃ s : State, ∃ n : Nat, ∃ b : BufHandle, (∀ w ∈ s.gen.swaps, w.b ≠ b) ∧ s.swapRes n b = .queueFull) ∧
    (∃ s : State, ∃ n : Nat, ∃ b : BufHandle, (∀ w ∈ s.gen.swaps, w.b ≠ b) ∧ s.swapRes n b = .tooLarge) ∧
    (∃ s : State, ∃ n : Nat, ∃ st : Nat, ∃ b : BufHandle, ∃ q : HQueue, q ∈ s.gen.queues ∧ q.island = n ∧ q.stage = st ∧ b ∈ q.q ∧ s.halfRead st b = true) ∧
    (∃ s : State, ∃ slot : Nat, ∃ k : Cohort, s.cohort? slot = some k ∧ k.sampled = true) ∧
    (∃ s : State, ∃ w : WeightRef, ∃ h : Nat, ∃ off : Nat, ∃ n : Nat, ∃ par : Bool, s.gen.model.st = 2 ∧ s.weightBad w = true ∧ s.weightAt w = (h, off, n) ∧ (par = s.hReadable s.gen.model.func h off n) ∧ par = true) ∧
    (∃ s : State, ∃ w : WeightRef, ∃ h : Nat, ∃ off : Nat, ∃ n : Nat, ∃ par : Bool, ∃ o, ∃ at_, s.gen.model.st = 2 ∧ s.weightBad w = true ∧ s.weightAt w = (h, off, n) ∧ (par = s.hReadable s.gen.model.func h off n) ∧ par = false ∧ s.imageGives w = true ∧ s.weightImage w = some (o, at_)) ∧
    (∃ s : State, ∃ w : WeightRef, ∃ h : Nat, ∃ off : Nat, ∃ n : Nat, ∃ par : Bool, ∃ dev, ∃ ds, s.gen.model.st = 2 ∧ s.weightBad w = true ∧ s.weightAt w = (h, off, n) ∧ (par = s.hReadable s.gen.model.func h off n) ∧ par = false ∧ s.imageGives w = false ∧ s.weightAsked w = [] ∧ s.replicas = dev :: ds) ∧
    (∃ s : State, ∃ w : WeightRef, ∃ h : Nat, ∃ off : Nat, ∃ n : Nat, ∃ par : Bool, s.gen.model.st = 2 ∧ s.weightBad w = true ∧ s.weightAt w = (h, off, n) ∧ (par = s.hReadable s.gen.model.func h off n) ∧ par = false ∧ s.imageGives w = false ∧ s.weightAsked w = []) := by
  refine ⟨⟨exFlow, _, (0, some (0, 0)), (0, 0), ?_, rfl, ?_, ?_, ?_, ?_⟩,
    ⟨{ exBase with gen := { GenSt.reset with model := exModel, steps := [exRef] }, cmd := { exBase.cmd with live := [exLive Op.step []] } }, _, (0, none), exRef, [], ?_, rfl, ?_, ?_, ?_, ?_, ?_⟩,
    ⟨exOn, _, ?_, rfl, ?_⟩,
    ⟨exPieces [{ exPiece with st := 0, full := false }] [], 0, exTile, { exCohort exAttn with pieces := [{ exPiece with st := 0, full := false }] }, ?_, ?_, ?_, ?_, ?_⟩,
    ⟨exPieces [exPiece] [], 0, 0, exBuf, ?_, ?_⟩,
    ⟨exPieces [exPiece] [exQueue 2 [{ exBuf with half := 1 }]], 0, exBuf, ?_, ?_⟩,
    ⟨exPieces [exPiece] [exQueue 2 (List.replicate 64 { exBuf with buf := 1 })], 0, exBuf, ?_, ?_⟩,
    ⟨{ exPieces [exPiece] [] with sch := { exBase.sch with ctxs := [{ exCtx with units := 0 }] } }, 0, exBuf, ?_, ?_⟩,
    ⟨exPieces [{ exPiece with st := 2 }] [exQueue 2 [exBuf]], 0, 2, exBuf, exQueue 2 [exBuf], ?_, ?_, ?_, ?_, ?_⟩,
    ⟨exSampled, 0, { exCohort exAttn with entries := [{ exEntry with token := some 4 }] }, ?_, ?_⟩,
    ⟨exWeights true [1024], .tile exTile, ((exWeights true [1024]).weightAt (.tile exTile)).1, ((exWeights true [1024]).weightAt (.tile exTile)).2.1, ((exWeights true [1024]).weightAt (.tile exTile)).2.2, true, ?_, ?_, rfl, ?_, ?_⟩,
    ⟨exWeights false [1024], .tile exTile, ((exWeights false [1024]).weightAt (.tile exTile)).1, ((exWeights false [1024]).weightAt (.tile exTile)).2.1, ((exWeights false [1024]).weightAt (.tile exTile)).2.2, false, (((exWeights false [1024]).weightImage (.tile exTile)).getD (exObj 0, 0)).1, (((exWeights false [1024]).weightImage (.tile exTile)).getD (exObj 0, 0)).2, ?_, ?_, rfl, ?_, ?_, ?_, eq_some_getD (d := (exObj 0, 0)) (by decide +kernel)⟩,
    ⟨exReplicas true, .tile exTile, ((exReplicas true).weightAt (.tile exTile)).1, ((exReplicas true).weightAt (.tile exTile)).2.1, ((exReplicas true).weightAt (.tile exTile)).2.2, false, 1, [2], ?_, ?_, rfl, ?_, ?_, ?_, ?_, ?_⟩,
    ⟨exReplicas false, .tile exTile, ((exReplicas false).weightAt (.tile exTile)).1, ((exReplicas false).weightAt (.tile exTile)).2.1, ((exReplicas false).weightAt (.tile exTile)).2.2, false, ?_, ?_, rfl, ?_, ?_, ?_, ?_⟩⟩ <;>
  first | with_reducible rfl | decide +kernel | exact stamps_of_check (by decide +kernel) | exact waits_of_check (by decide +kernel) | exact ⟨by decide +kernel, by decide +kernel, by decide +kernel, by decide +kernel⟩ | rfl

theorem wit_TasksAreDispatchedAndEnd :
    (∃ s : State, ∃ island : Nat, ∃ i : Nat, ∃ f : Task, ∃ v : Task, s.hugeTask island = none ∧ f ∈ s.startable island ∧ (∀ y ∈ s.startable island, y = f ∨ f.key < y.key) ∧ ((s.lateTask island f = none ∧ v = f) ∨ (∃ z, s.lateTask island f = some z ∧ v ∈ s.startable island ∧ v.rank = f.rank ∧ ∀ y ∈ s.startable island, y.rank = f.rank → y = v ∨ switchRank z v * 2 ^ 90 + v.key < switchRank z y * 2 ^ 90 + y.key)) ∧ (v.save = some i ∨ (v.save = none ∧ (s.freeIslets island).head? = some i))) ∧
    (∃ s : State, ∃ island : Nat, ∃ id : Nat, ∃ v : Task, (s.sch.tasks.find? (fun t => t.id == id && t.island == island && t.islet.isNone && t.ready && !t.aged) = some v)) ∧
    (∃ s : State, ∃ islet : Nat, ∃ v : Task, (s.sch.tasks.find? (fun t => t.islet == some islet && !t.killing) = some v) ∧ s.stageGap v = true) ∧
    (∃ s : State, ∃ islet : Nat, ∃ v : Task, ∃ a, ∃ n, ∃ rb, (s.sch.tasks.find? (fun t => t.islet == some islet && !t.killing) = some v) ∧ v.kind = .split a n rb) ∧
    (∃ s : State, ∃ islet : Nat, ∃ v : Task, ∃ slot, ∃ e, (s.sch.tasks.find? (fun t => t.islet == some islet && !t.killing) = some v) ∧ v.kind = .sample slot e) ∧
    (∃ s : State, ∃ islet : Nat, ∃ v : Task, ∃ a, (s.sch.tasks.find? (fun t => t.islet == some islet && !t.killing) = some v) ∧ v.kind = .merge a) ∧
    (∃ s : State, ∃ islet : Nat, ∃ v : Task, ∃ slot, ∃ i, ∃ st, ∃ layer, ∃ ch, ∃ c, ∃ p, (s.sch.tasks.find? (fun t => t.islet == some islet && !t.killing) = some v) ∧ v.kind = .stage slot i st layer ch c ∧ s.stageGap v = false ∧ (((s.taskOver v).cohort? slot).bind (fun k => k.pieces[i]?) = some p) ∧ p.again.contains (st, layer, ch, c) = true) ∧
    (∃ s : State, ∃ islet : Nat, ∃ v : Task, ∃ slot, ∃ i, ∃ st, ∃ layer, ∃ ch, ∃ c, ∃ p, (s.sch.tasks.find? (fun t => t.islet == some islet && !t.killing) = some v) ∧ v.kind = .stage slot i st layer ch c ∧ s.stageGap v = false ∧ (((s.taskOver v).cohort? slot).bind (fun k => k.pieces[i]?) = some p) ∧ p.again.contains (st, layer, ch, c) = false ∧ p.st = st ∧ p.layer = layer) ∧
    (∃ s : State, ∃ islet : Nat, ∃ v : Task, (s.sch.tasks.find? (fun t => t.islet == some islet && !t.killing) = some v) ∧ (v.kind = .probe ∨ v.kind = .backward ∨ (∃ r n, v.kind = .piece r n) ∨ (∃ b g, v.kind = .scan b g) ∨ (∃ x h, v.kind = .moves x h))) ∧
    (∃ s : State, ∃ snd : Nat, ∃ rcv : Nat, ∃ n : Nat, ∃ slowest : Nat, ∃ m : Mcast, ∃ m1 : Mcast, (s.sch.mcasts.find? (fun m => m.sender == snd && m.attached.any (fun r => r.1 == rcv)) = some m) ∧ (slowest = ((m.attached.filter (fun r => r.1 != rcv)).map (fun r => r.2)).foldl min m.total) ∧ (m1 = { m with recv := m.recv.map (fun r => if r.1 = rcv then (r.1, min (min m.total (slowest + 65536)) (r.2 + n)) else r) }) ∧ (∀ r ∈ m1.attached, m1.fastest < r.2 + 65536)) ∧
    (∃ s : State, ∃ snd : Nat, ∃ rcv : Nat, ∃ n : Nat, ∃ slowest : Nat, ∃ m : Mcast, ∃ m1 : Mcast, ∃ r, (s.sch.mcasts.find? (fun m => m.sender == snd && m.attached.any (fun r => r.1 == rcv)) = some m) ∧ (slowest = ((m.attached.filter (fun r => r.1 != rcv)).map (fun r => r.2)).foldl min m.total) ∧ (m1 = { m with recv := m.recv.map (fun r => if r.1 = rcv then (r.1, min (min m.total (slowest + 65536)) (r.2 + n)) else r) }) ∧ (m1.attached.filter (fun r => decide (r.2 + 65536 ≤ m1.fastest)) = [r]) ∧ m1.fastest < m1.total ∧ m.weight = false) := by
  refine ⟨⟨exTasks [exTask .probe none], 0, 0, exTask .probe none, exTask .probe none, ?_, ?_, ?_, Or.inl ⟨by decide +kernel, rfl⟩, Or.inr ⟨by decide +kernel, by decide +kernel⟩⟩,
    ⟨exTasks [exTask .probe none], 0, 0, exTask .probe none, ?_⟩,
    ⟨exStageTask false exPiece, 3, exTask (.stage 0 0 1 0 0 0) (some 3), ?_, ?_⟩,
    ⟨exTasks [exTask (.split exAt 0 0) (some 3)], 3, exTask (.split exAt 0 0) (some 3), exAt, 0, 0, ?_, ?_⟩,
    ⟨exTasks [exTask (.sample 0 0) (some 3)], 3, exTask (.sample 0 0) (some 3), 0, 0, ?_, ?_⟩,
    ⟨exTasks [exTask (.merge exAt) (some 3)], 3, exTask (.merge exAt) (some 3), exAt, ?_, ?_⟩,
    ⟨exStageTask true exAgain, 3, exTask (.stage 0 0 1 0 0 0) (some 3), 0, 0, 1, 0, 0, 0, exAgain, ?_, ?_, ?_, ?_, ?_⟩,
    ⟨exStageTask true exGoing, 3, exTask (.stage 0 0 1 0 0 0) (some 3), 0, 0, 1, 0, 0, 0, exGoing, ?_, ?_, ?_, ?_, ?_, ?_, ?_⟩,
    ⟨exTasks [exTask .probe (some 3)], 3, exTask .probe (some 3), ?_, Or.inl rfl⟩,
    ⟨{ exOn with sch := { SchedSt.reset with mcasts := [exMcast] } }, 0, 1, 4, _, exMcast, _, ?_, rfl, rfl, ?_⟩,
    ⟨{ exOn with sch := { SchedSt.reset with mcasts := [exLag] } }, 0, 2, 1, _, exLag, _, (1, 0), ?_, rfl, rfl, ?_, ?_, ?_⟩⟩ <;>
  first | with_reducible rfl | decide +kernel | exact stamps_of_check (by decide +kernel) | exact waits_of_check (by decide +kernel) | exact ⟨by decide +kernel, by decide +kernel, by decide +kernel, by decide +kernel⟩ | rfl

theorem wit_ObjectsAreAllocatedAndMoved :
    (∃ s : State, ∃ t : State, ∃ h : CmdHdr, ∃ b : Body, ∃ l : Live, s.stampsAtOnce chkMem h b l t ∧ isAlloc h b = true) ∧
    (∃ s : State, ∃ t : State, ∃ h : CmdHdr, ∃ b : Body, ∃ l : Live, s.stampsAtOnce chkMem h b l t ∧ isFree h b = true) ∧
    (∃ s : State, ∃ t : State, ∃ h : CmdHdr, ∃ b : Body, ∃ l : Live, s.stampsAtOnce chkMem h b l t ∧ isMove h b = true) ∧
    (∃ s : State, ∃ t : State, ∃ h : CmdHdr, ∃ b : Body, ∃ l : Live, s.stampsAtOnce chkMem h b l t ∧ isPromote h b = true) ∧
    (∃ s : State, ∃ t : State, ∃ h : CmdHdr, ∃ b : Body, ∃ l : Live, s.stampsAtOnce chkMem h b l t ∧ isEvict h b = true) ∧
    (∃ s : State, ∃ t : State, ∃ h : CmdHdr, ∃ b : Body, ∃ l : Live, s.stampsAtOnce chkMem h b l t ∧ isShare h b = true) ∧
    (∃ s : State, ∃ t : State, ∃ h : CmdHdr, ∃ b : Body, ∃ l : Live, s.stampsAtOnce chkMem h b l t ∧ isUnshare h b = true) ∧
    (∃ s : State, ∃ t : State, ∃ h : CmdHdr, ∃ b : Body, ∃ l : Live, s.stampsAtOnce chkMem h b l t ∧ memOp l.body = 1) ∧
    (∃ s : State, ∃ t : State, ∃ h : CmdHdr, ∃ b : Body, ∃ l : Live, ∃ o, s.stampsAtOnce chkMem h b l t ∧ memOp l.body ≠ 1 ∧ t.obj? l.h.func (memHandle l.body) = some o ∧ t.memBusy o.func o.handle = false ∧ (∀ w ∈ t.mm.waits, w.owner = o.func → w.handle ≠ o.handle)) ∧
    (∃ s : State, ∃ t : State, ∃ h : CmdHdr, ∃ b : Body, ∃ l : Live, ∃ o, s.stampsAtOnce chkMem h b l t ∧ memOp l.body ≠ 1 ∧ t.obj? l.h.func (memHandle l.body) = some o ∧ t.memBusy o.func o.handle = true) ∧
    (∃ s : State, ∃ q : CmdRef, ∃ x : MemOp, ∃ l : Live, s.memOp? q = some x ∧ s.live? q = some l ∧ x.kind = .alloc ∧ Memory.wf s.mem = true ∧ x.dstStack < 32 ∧ (∀ g ∈ x.dstGrans, g < 2 ^ 20)) ∧
    (∃ s : State, ∃ q : CmdRef, ∃ x : MemOp, ∃ o : Obj, s.memOp? q = some x ∧ x.kind ≠ .alloc ∧ x.copied = false ∧ s.mm.objs.find? (fun o => o.func == x.owner && o.handle == x.handle) = some o ∧ s.copyWaits x = true) ∧
    (∃ s : State, ∃ q : CmdRef, ∃ x : MemOp, ∃ o : Obj, s.memOp? q = some x ∧ x.kind ≠ .alloc ∧ x.copied = false ∧ s.mm.objs.find? (fun o => o.func == x.owner && o.handle == x.handle) = some o ∧ s.copyWaits x = false ∧ s.idxBound o = false) ∧
    (∃ s : State, ∃ q : CmdRef, ∃ x : MemOp, ∃ o : Obj, s.memOp? q = some x ∧ x.kind ≠ .alloc ∧ x.copied = false ∧ s.mm.objs.find? (fun o => o.func == x.owner && o.handle == x.handle) = some o ∧ s.copyWaits x = false ∧ s.idxBound o = true) := by
  refine ⟨⟨exBase, sent (exBase) (exHdr Op.mem 64) (leBytes 64 (1 + 2 ^ 64)), exHdr Op.mem 64, leBytes 64 (1 + 2 ^ 64), sentLive (exBase) (exHdr Op.mem 64) (leBytes 64 (1 + 2 ^ 64)), ?_, ?_⟩,
    ⟨exBase, sent (exBase) (exHdr Op.mem 64) (leBytes 64 (2)), exHdr Op.mem 64, leBytes 64 (2), sentLive (exBase) (exHdr Op.mem 64) (leBytes 64 (2)), ?_, ?_⟩,
    ⟨exBase, sent (exBase) (exHdr Op.mem 64) (leBytes 64 (3)), exHdr Op.mem 64, leBytes 64 (3), sentLive (exBase) (exHdr Op.mem 64) (leBytes 64 (3)), ?_, ?_⟩,
    ⟨exBase, sent (exBase) (exHdr Op.mem 64) (leBytes 64 (4 + 2 ^ 33)), exHdr Op.mem 64, leBytes 64 (4 + 2 ^ 33), sentLive (exBase) (exHdr Op.mem 64) (leBytes 64 (4 + 2 ^ 33)), ?_, ?_⟩,
    ⟨exBase, sent (exBase) (exHdr Op.mem 64) (leBytes 64 (5)), exHdr Op.mem 64, leBytes 64 (5), sentLive (exBase) (exHdr Op.mem 64) (leBytes 64 (5)), ?_, ?_⟩,
    ⟨exBase, sent (exBase) (exHdr Op.mem 64) (leBytes 64 (6 + 2 ^ 16)), exHdr Op.mem 64, leBytes 64 (6 + 2 ^ 16), sentLive (exBase) (exHdr Op.mem 64) (leBytes 64 (6 + 2 ^ 16)), ?_, ?_⟩,
    ⟨exBase, sent (exBase) (exHdr Op.mem 64) (leBytes 64 (7 + 2 ^ 16)), exHdr Op.mem 64, leBytes 64 (7 + 2 ^ 16), sentLive (exBase) (exHdr Op.mem 64) (leBytes 64 (7 + 2 ^ 16)), ?_, ?_⟩,
    ⟨exBase, sent (exBase) (exHdr Op.mem 64) (leBytes 64 (1 + 2 ^ 64)), exHdr Op.mem 64, leBytes 64 (1 + 2 ^ 64), sentLive (exBase) (exHdr Op.mem 64) (leBytes 64 (1 + 2 ^ 64)), ?_, ?_⟩,
    ⟨exBase, sent (exBase) (exHdr Op.mem 64) (leBytes 64 (2)), exHdr Op.mem 64, leBytes 64 (2), sentLive (exBase) (exHdr Op.mem 64) (leBytes 64 (2)), exObj 0, ?_, ?_, ?_, ?_, ?_⟩,
    ⟨exBusy, sent (exBusy) (exHdr Op.mem 64) (leBytes 64 (2)), exHdr Op.mem 64, leBytes 64 (2), sentLive (exBusy) (exHdr Op.mem 64) (leBytes 64 (2)), exObj 0, ?_, ?_, ?_, ?_⟩,
    ⟨exMoving [] (exMemOp .alloc 5), exRef, exMemOp .alloc 5, exLive Op.mem (leBytes 64 (1 + 2 ^ 64)), ?_, ?_, ?_, ?_, ?_, ?_⟩,
    ⟨exMoving [] (exMemOp .evict 5), exRef, exMemOp .evict 5, exObj 0, ?_, ?_, ?_, ?_, ?_⟩,
    ⟨exMoving [] (exMemOp .move 5), exRef, exMemOp .move 5, exObj 0, ?_, ?_, ?_, ?_, ?_, ?_⟩,
    ⟨exMoving [exIndex 2] (exMemOp .move 5), exRef, exMemOp .move 5, exObj 0, ?_, ?_, ?_, ?_, ?_, ?_⟩⟩ <;>
  first | with_reducible rfl | decide +kernel | exact stamps_of_check (by decide +kernel) | exact waits_of_check (by decide +kernel) | exact ⟨by decide +kernel, by decide +kernel, by decide +kernel, by decide +kernel⟩ | rfl

theorem wit_LinesGranulesAndStacks :
    (∃ s : State, ∃ k : Nat, ∃ line : Nat, s.lineBad k line = true ∧ s.lineRebuilds k line = true ∧ s.flt.failedStacks.contains k = false) ∧
    (∃ s : State, ∃ k : Nat, ∃ line : Nat, s.lineBad k line = true) ∧
    (∃ s : State, ∃ k : Nat, ∃ line : Nat, s.powered = true ∧ s.flt.failedStacks.contains k = false ∧ line ≠ 0) ∧
    (∃ s : State, ∃ k : Nat, ∃ line : Nat, ∃ x : StackSt, s.powered = true ∧ s.flt.failedStacks.contains k = false ∧ s.mm.stk[k]? = some x ∧ line ≠ 0) ∧
    (∃ s : State, ∃ k : Nat, s.powered = true ∧ s.flt.failedStacks.contains k = false ∧ k < s.mm.stk.length) ∧
    (∃ s : State, ∃ k : Nat, ∃ g : Nat, ∃ x : StackSt, s.mm.stk[k]? = some x ∧ g ∈ x.ues ∧ (k, g) ∉ s.mm.retired ∧ (s.inClass k true g = true ∨ s.inClass k false g = true) ∧ s.granUsed k g = false) ∧
    (∃ s : State, ∃ k : Nat, ∃ g : Nat, ∃ x : StackSt, ∃ gs, ∃ u, s.mm.stk[k]? = some x ∧ g ∈ x.ues ∧ (k, g) ∉ s.mm.retired ∧ (s.inClass k true g = true ∨ s.inClass k false g = true) ∧ s.granUsed k g = true ∧ s.takeGrans k (s.inClass k true g) 1 = some (gs, u)) ∧
    (∃ s : State, ∃ k : Nat, ∃ g : Nat, ∃ x : StackSt, s.mm.stk[k]? = some x ∧ g ∈ x.ues ∧ (k, g) ∉ s.mm.retired ∧ (s.inClass k true g = true ∨ s.inClass k false g = true) ∧ s.granUsed k g = true ∧ s.takeGrans k (s.inClass k true g) 1 = none) ∧
    (∃ s : State, ∃ k : Nat, ∃ x : StackSt, s.powered = true ∧ s.mm.stk[k]? = some x) ∧
    (∃ s : State, ∃ k : Nat, ∃ line : Nat, ∃ l : Nat, ∃ x : SlotSt, ∃ d : FerryDesc, l = k * 2 ^ 30 + line ∧ s.mm.slots.find? (fun x => x.started && !x.acked.contains l && ((x.work.map (fun d => (s.parityLines x.island d).contains l)).getD false)) = some x ∧ x.work = some d ∧ s.sentBefore x d = false ∧ (∀ r ∈ d.srcRows, s.devReadable r.1 r.2 = true)) ∧
    (∃ s : State, ∃ k : Nat, ∃ line : Nat, ∃ l : Nat, ∃ x : SlotSt, ∃ d : FerryDesc, l = k * 2 ^ 30 + line ∧ s.mm.slots.find? (fun x => x.started && !x.acked.contains l && ((x.work.map (fun d => (s.parityLines x.island d).contains l)).getD false)) = some x ∧ x.work = some d ∧ s.sentBefore x d = true) ∧
    (∃ s : State, ∃ f : Nat, ∃ tag : Nat, ∃ l : Live, s.live? { func := f, tag := tag } = some l ∧ l.stage = .running) := by
  refine ⟨⟨exStack exBadLine false, 1, 0, ?_, ?_, ?_⟩,
    ⟨exStack exBadLine false, 1, 0, ?_⟩,
    ⟨exStack exBadLine false, 1, 1, ?_, ?_, ?_⟩,
    ⟨exStack exBadLine false, 1, 1, exBadLine, ?_, ?_, ?_, ?_⟩,
    ⟨exStack exBadLine false, 1, ?_, ?_, ?_⟩,
    ⟨exStack exBadGran false, 1, 3, exBadGran, ?_, ?_, ?_, ?_, ?_⟩,
    ⟨exStack exBadGran true, 1, 3, exBadGran, (exTaken.getD ([], exOn)).1, (exTaken.getD ([], exOn)).2, ?_, ?_, ?_, ?_, ?_, ?_⟩,
    ⟨{ exStack exBadGran true with flt := { FaultSt.reset with failedStacks := [1] } }, 1, 3, exBadGran, ?_, ?_, ?_, ?_, ?_, ?_⟩,
    ⟨exStack exBadLine false, 1, exBadLine, ?_, ?_⟩,
    ⟨exFerry (exStack exBadLine false) (exSlot exToT2 true), 1, 0, 2 ^ 30, exSlot exToT2 true, exToT2, ?_, ?_, ?_, ?_, ?_⟩,
    ⟨exOrdered, 1, 0, 2 ^ 30, exSecond, exToT2, ?_, ?_, ?_, ?_⟩,
    ⟨{ exBase with cmd := { exBase.cmd with live := [exLive Op.select exTopk] } }, 0, 5, exLive Op.select exTopk, ?_, ?_⟩⟩ <;>
  first | with_reducible rfl | decide +kernel | exact stamps_of_check (by decide +kernel) | exact waits_of_check (by decide +kernel) | exact ⟨by decide +kernel, by decide +kernel, by decide +kernel, by decide +kernel⟩ | rfl

theorem wit_FerriesArmRunAndEnd :
    (∃ s : State, ∃ w : State, ∃ u : State, ∃ island : Nat, ∃ k : Nat, ∃ d : FerryDesc, ∃ e : FerryDesc, s.powered = true ∧ island < 512 ∧ k < 64 ∧ s.flt.islands.contains island = false ∧ w = s.writeDesc island k d ∧ e = w.slotDesc island k ∧ (if 56 ≤ k then w.relocArm e else some w) = some u) ∧
    (∃ s : State, ∃ w : State, ∃ u : State, ∃ island : Nat, ∃ k : Nat, ∃ d : FerryDesc, ∃ e : FerryDesc, s.powered = true ∧ island < 512 ∧ k < 64 ∧ s.flt.islands.contains island = false ∧ w = s.writeDesc island k d ∧ e = w.slotDesc island k ∧ (if 56 ≤ k then w.relocArm e else some w) = some u ∧ 56 ≤ k) ∧
    (∃ s : State, ∃ w : State, ∃ island : Nat, ∃ k : Nat, ∃ d : FerryDesc, s.powered = true ∧ island < 512 ∧ 56 ≤ k ∧ k < 64 ∧ s.flt.islands.contains island = false ∧ w = s.writeDesc island k d ∧ w.relocArm (w.slotDesc island k) = none) ∧
    (∃ s : State, ∃ island : Nat, ∃ x : SlotSt, ∃ xs : List SlotSt, ∃ d : FerryDesc, ∃ c, s.powered = true ∧ s.armed island = x :: xs ∧ x.work = some d ∧ (((s.flying island).filter (fun y => !y.merged)).length < 16) ∧ s.ferryEarly island d = false ∧ s.ferryStop x d = some c) ∧
    (∃ s : State, ∃ island : Nat, ∃ x : SlotSt, ∃ xs : List SlotSt, ∃ d : FerryDesc, s.powered = true ∧ s.armed island = x :: xs ∧ x.work = some d ∧ (((s.flying island).filter (fun y => !y.merged)).length < 16) ∧ s.ferryEarly island d = false ∧ s.ferryStop x d = none ∧ s.ferryBlocked island d = false ∧ s.ferryLocked island d = true) ∧
    (∃ s : State, ∃ island : Nat, ∃ x : SlotSt, ∃ xs : List SlotSt, ∃ d : FerryDesc, s.powered = true ∧ s.armed island = x :: xs ∧ x.work = some d ∧ (((s.flying island).filter (fun y => !y.merged)).length < 16) ∧ s.ferryEarly island d = false ∧ s.ferryStop x d = none ∧ s.ferryBlocked island d = false ∧ s.ferryLocked island d = false) ∧
    (∃ s : State, ∃ island : Nat, ∃ k : Nat, ∃ x : SlotSt, ∃ d : FerryDesc, x = s.slot island k ∧ x.work = some d ∧ x.started = true ∧ s.mergeWaits x d = false ∧ s.sentBefore x d = false ∧ (∀ n ∈ readUnits d, (∀ r ∈ s.fl.reads, r.unit ≠ n) ∧ n ∉ s.fl.rebuilding) ∧ s.ferryLocked island d = true) ∧
    (∃ s : State, ∃ island : Nat, ∃ k : Nat, ∃ x : SlotSt, ∃ d : FerryDesc, x = s.slot island k ∧ x.work = some d ∧ x.started = true ∧ s.mergeWaits x d = false ∧ s.sentBefore x d = false ∧ (∀ n ∈ readUnits d, (∀ r ∈ s.fl.reads, r.unit ≠ n) ∧ n ∉ s.fl.rebuilding) ∧ s.ferryLocked island d = false) ∧
    (∃ s : State, ∃ u : State, ∃ island : Nat, ∃ k : Nat, ∃ x : SlotSt, ∃ d : FerryDesc, x = s.slot island k ∧ x.work = some d ∧ x.started = true ∧ s.mergeWaits x d = false ∧ s.sentBefore x d = false ∧ (∀ n ∈ readUnits d, (∀ r ∈ s.fl.reads, r.unit ≠ n) ∧ n ∉ s.fl.rebuilding) ∧ s.ferryLocked island d = false ∧ (∀ r ∈ d.srcRows, s.devReadable r.1 r.2 = true) ∧ (∀ n ∈ s.ferryUnits island d, ∀ w ∈ s.fl.writes, w.unit ≠ n) ∧ (∀ l ∈ s.parityLines island d, l ∈ x.acked) ∧ (d.mode = 1 → ∀ m ∈ s.sch.mcasts, m.sender = island → m.weight = true) ∧ d.irq = false ∧ d.chain = false ∧ u = ((s.forwardedUnits x d).foldl (fun s n => s.mapUnit n.2 n.1) ((s.ferryCopy island x.order d d.bytes).ferryTraffic island d)).endGen x none) := by
  refine ⟨⟨exOn, _, _, 0, 0, exT1 0, _, ?_, ?_, ?_, ?_, rfl, rfl, rfl⟩,
    ⟨exBase, _, _, 0, 56, exT1 0, _, ?_, ?_, ?_, ?_, rfl, rfl, eq_some_getD (d := exOn) (by decide +kernel), ?_⟩,
    ⟨exHalf, _, 0, 56, exReloc, ?_, ?_, ?_, ?_, ?_, rfl, ?_⟩,
    ⟨exFerry exBase (exSlot (exT1 3) false), 0, exSlot (exT1 3) false, [], exT1 3, .param, ?_, ?_, ?_, ?_, ?_, ?_⟩,
    ⟨exLocked false, 0, exSlot exToT0 false, [], exToT0, ?_, ?_, ?_, ?_, ?_, ?_, ?_, ?_⟩,
    ⟨exFerry exBase (exSlot (exT1 0) false), 0, exSlot (exT1 0) false, [], exT1 0, ?_, ?_, ?_, ?_, ?_, ?_, ?_, ?_⟩,
    ⟨exLocked true, 0, 0, _, exToT0, rfl, ?_, ?_, ?_, ?_, ?_, ?_⟩,
    ⟨exFerry exBase (exSlot (exT1 0) true), 0, 0, _, exT1 0, rfl, ?_, ?_, ?_, ?_, ?_, ?_⟩,
    ⟨exFerry exBase (exSlot (exT1 0) true), _, 0, 0, _, exT1 0, rfl, ?_, ?_, ?_, ?_, ?_, ?_, ?_, ?_, ?_, ?_, ?_, ?_, rfl⟩⟩ <;>
  first | with_reducible rfl | decide +kernel | exact stamps_of_check (by decide +kernel) | exact waits_of_check (by decide +kernel) | exact ⟨by decide +kernel, by decide +kernel, by decide +kernel, by decide +kernel⟩ | rfl

theorem wit_FlashKeepsItsUnits :
    (∃ s : State, ∃ u : Nat, ∃ p : Nat, s.powered = true ∧ s.fl.ready = true ∧ s.place? u = some p ∧ s.serveRead u = none) ∧
    (∃ s : State, ∃ v : State, ∃ u : Nat, ∃ p : Nat, ∃ r : FRead, s.powered = true ∧ s.fl.ready = true ∧ s.place? u = some p ∧ s.serveRead u = some (r, v) ∧ s.buffered u r.place = true) ∧
    (∃ s : State, ∃ v : State, ∃ u : Nat, ∃ p : Nat, ∃ r : FRead, s.powered = true ∧ s.fl.ready = true ∧ s.place? u = some p ∧ s.serveRead u = some (r, v) ∧ s.buffered u r.place = false ∧ isSpillUnit u = true) ∧
    (∃ s : State, ∃ v : State, ∃ u : Nat, ∃ p : Nat, ∃ r : FRead, s.powered = true ∧ s.fl.ready = true ∧ s.place? u = some p ∧ s.serveRead u = some (r, v) ∧ s.buffered u r.place = false ∧ isSpillUnit u = false ∧ s.mapUnitReadable u = true ∧ s.fl.failed.contains r.ch = false) ∧
    (∃ s : State, ∃ u : Nat, ∃ p : Nat, s.fl.rebuilding.contains u = true ∧ s.rebuildTurn u = true ∧ s.place? u = some p ∧ (∀ c ∈ s.fl.failed, c / 16 = p % 64 / 16 → c = p % 64)) ∧
    (∃ s : State, ∃ u : Nat, ∃ w : FWrite, (s.fl.writes.find? (fun w => w.unit == u) = some w) ∧ s.powered = true ∧ s.fl.ready = true ∧ s.writeTurn w = false) ∧
    (∃ s : State, ∃ u : Nat, ∃ w : FWrite, (s.fl.writes.find? (fun w => w.unit == u) = some w) ∧ s.powered = true ∧ s.fl.ready = true ∧ s.writeTurn w = true ∧ (w.copy = true → isSpillUnit u = false) ∧ Memory.wf s.mem = true ∧ w.copy = false) ∧
    (∃ s : State, ∃ g : Nat, ∃ x : Stripe, (s.fl.stripes.find? (fun y => y.group == g && !y.shut) = some x)) ∧
    (∃ s : State, ∃ c : Nat, ∃ b : Nat, s.powered = true ∧ s.fl.ready = true ∧ s.chQuiet c = true ∧ s.blkUnits c b = []) ∧
    (∃ s : State, ∃ c : Nat, ∃ b : Nat, s.powered = true ∧ s.fl.ready = true ∧ s.chQuiet c = true ∧ s.blkUnits c b ≠ [] ∧ (∀ k ∈ s.usedBlks c, (s.blkUnits c b).length ≤ (s.blkUnits c k).length)) ∧
    (∃ s : State, ∃ c : Nat, ∃ b : Nat, s.powered = true ∧ s.fl.ready = true ∧ s.chQuiet c = true ∧ s.wearSpread (s.blk c b) = true) ∧
    (∃ s : State, ∃ c : Nat, ∃ x : Blk, s.chQuiet c = true ∧ (s.fl.blocks.filter (fun y => y.ch == c && y.marked) = [x])) ∧
    (∃ s : State, ∃ u : Nat, ∃ m : FMove, (s.fl.moves.find? (fun m => m.unit == u) = some m) ∧ s.chBusy (m.dst % 64) = false ∧ s.firstMove (m.dst % 64) = some m ∧ s.place? u = some m.src ∧ m.dst ≠ 0) ∧
    (∃ s : State, ∃ u : Nat, ∃ m : FMove, (s.fl.moves.find? (fun m => m.unit == u) = some m) ∧ s.chBusy (m.dst % 64) = false ∧ s.firstMove (m.dst % 64) = some m ∧ s.place? u ≠ some m.src) ∧
    (∃ s : State, ∃ c : Nat, ∃ p : Nat, ∃ es : List (Nat × Nat), s.powered = true ∧ s.fl.ready = true ∧ p ≠ 0 ∧ (es = s.fl.map.filter (fun e => e.2 % 64 == c && e.2 / 64 / 4 == p))) ∧
    (∃ s : State, ∃ c : Nat, ∃ p : Nat, ∃ u : Nat, ∃ q : Nat, s.powered = true ∧ s.fl.ready = true ∧ s.chQuiet c = true ∧ (u, q) ∈ s.fl.map ∧ q % 64 = c ∧ q / 64 / 4 = p ∧ isSpillUnit u = true ∧ s.buffered u q = false) ∧
    (∃ s : State, ∃ c : Nat, s.powered = true ∧ c < 64 ∧ s.fl.failed.contains c = false) ∧
    (∃ s : State, s.powered = true) ∧
    (∃ s : State, s.powered = true ∧ s.fl.sysRead = true ∧ s.fl.ready = false) ∧
    (∃ s : State, s.fl.ready = true) := by
  refine ⟨⟨exReads [{ unit := 7, place := 128, ch := 0, ahead := true }], 5, 64, ?_, ?_, ?_, ?_⟩,
    ⟨exBuffered, ((exBuffered.serveRead 5).getD ({ unit := 0, place := 0, ch := 0, ahead := true }, exOn)).2, 5, 64, ((exBuffered.serveRead 5).getD ({ unit := 0, place := 0, ch := 0, ahead := true }, exOn)).1, ?_, ?_, ?_, eq_some_getD (d := ({ unit := 0, place := 0, ch := 0, ahead := true }, exOn)) (by decide +kernel), ?_⟩,
    ⟨(exFlash (exMapped [(0x3C0000000, 64)])), (((exFlash (exMapped [(0x3C0000000, 64)])).serveRead 0x3C0000000).getD ({ unit := 0, place := 0, ch := 0, ahead := true }, exOn)).2, 0x3C0000000, 64, (((exFlash (exMapped [(0x3C0000000, 64)])).serveRead 0x3C0000000).getD ({ unit := 0, place := 0, ch := 0, ahead := true }, exOn)).1, ?_, ?_, ?_, eq_some_getD (d := ({ unit := 0, place := 0, ch := 0, ahead := true }, exOn)) (by decide +kernel), ?_, ?_⟩,
    ⟨(exReads []), (((exReads []).serveRead 5).getD ({ unit := 0, place := 0, ch := 0, ahead := true }, exOn)).2, 5, 64, (((exReads []).serveRead 5).getD ({ unit := 0, place := 0, ch := 0, ahead := true }, exOn)).1, ?_, ?_, ?_, eq_some_getD (d := ({ unit := 0, place := 0, ch := 0, ahead := true }, exOn)) (by decide +kernel), ?_, ?_, ?_, ?_⟩,
    ⟨exFlash { exMapped [(5, 64)] with rebuilding := [5] }, 5, 64, ?_, ?_, ?_, ?_⟩,
    ⟨exFlash { exMapped [(5, 64)] with writes := [{ exFWrite with waiting := true }] }, 5, { exFWrite with waiting := true }, ?_, ?_, ?_, ?_⟩,
    ⟨exFlash { exMapped [(5, 64)] with writes := [exFWrite] }, 5, exFWrite, ?_, ?_, ?_, ?_, ?_, ?_, ?_⟩,
    ⟨exBuffered, 0, exStripe, ?_⟩,
    ⟨exFlash (exMapped []), 0, 0, ?_, ?_, ?_, ?_⟩,
    ⟨exFlash (exMapped [(5, 64)]), 0, blockNo 5 64, ?_, ?_, ?_, by simp [State.blkUnits, exFlash, exMapped], by simp [State.usedBlks, exFlash, exMapped]⟩,
    ⟨exFlash { exMapped [] with blocks := [exBlk 0 0 false, exBlk 1 400 false] }, 0, 0, ?_, ?_, ?_, ?_⟩,
    ⟨exFlash { exMapped [] with blocks := [exBlk 0 0 true] }, 0, exBlk 0 0 true, ?_, ?_⟩,
    ⟨exFlash { exMapped [(5, 64)] with moves := [exGc] }, 5, exGc, ?_, ?_, ?_, ?_, ?_⟩,
    ⟨exFlash { exMapped [(5, 65)] with moves := [exGc] }, 5, exGc, ?_, ?_, ?_, ?_⟩,
    ⟨exFlash (exMapped [(5, 256)]), 0, 1, _, ?_, ?_, ?_, rfl⟩,
    ⟨exFlash (exMapped [(0x3C0000000, 0)]), 0, 0, 0x3C0000000, 0, ?_, ?_, ?_, ?_, ?_, ?_, ?_, ?_⟩,
    ⟨exOn, 0, ?_, ?_, ?_⟩,
    ⟨exOn, ?_⟩,
    ⟨exFlash { FlashSt.reset with sysRead := true }, ?_, ?_, ?_⟩,
    ⟨exFlash (exMapped []), ?_⟩⟩ <;>
  first | with_reducible rfl | decide +kernel | exact stamps_of_check (by decide +kernel) | exact waits_of_check (by decide +kernel) | exact ⟨by decide +kernel, by decide +kernel, by decide +kernel, by decide +kernel⟩ | rfl

theorem wit_ContextsAndChannelsOpenAndClose :
    (∃ s : State, ∃ t : State, ∃ h : CmdHdr, ∃ b : Body, ∃ l : Live, s.stampsAtOnce chkCtx h b l t ∧ isOpenCtx h b = true) ∧
    (∃ s : State, ∃ t : State, ∃ h : CmdHdr, ∃ b : Body, ∃ l : Live, s.stampsAtOnce chkCtx h b l t ∧ isAdmitCtx h b = true) ∧
    (∃ s : State, ∃ t : State, ∃ h : CmdHdr, ∃ b : Body, ∃ l : Live, s.stampsAtOnce chkCtx h b l t ∧ isRetire h b = true) ∧
    (∃ s : State, ∃ t : State, ∃ h : CmdHdr, ∃ b : Body, ∃ l : Live, s.stampsAtOnce chkCtx h b l t ∧ isClose h b = true) ∧
    (∃ s : State, ∃ t : State, ∃ h : CmdHdr, ∃ b : Body, ∃ l : Live, s.stampsAtOnce chkCtx h b l t ∧ isChOpen h b = true) ∧
    (∃ s : State, ∃ t : State, ∃ h : CmdHdr, ∃ b : Body, ∃ l : Live, s.stampsAtOnce chkCtx h b l t ∧ isChClose h b = true) ∧
    (∃ s : State, ∃ t : State, ∃ h : CmdHdr, ∃ b : Body, ∃ l : Live, ∃ i, s.stampsAtOnce chkCtx h b l t ∧ chkCtx t l.h l.body = none ∧ ctxOp l.body = 1 ∧ (List.range 64).find? (fun i => !t.sch.ctxs.any (fun c => c.id == i)) = some i ∧ (t.sch.ctxs.filter (fun c => c.func == l.h.func)).length < bits (t.rd (Reg.schedFuncCfg l.h.func)) 14 8) ∧
    (∃ s : State, ∃ t : State, ∃ h : CmdHdr, ∃ b : Body, ∃ l : Live, ∃ c, s.stampsAtOnce chkCtx h b l t ∧ chkCtx t l.h l.body = none ∧ ctxOp l.body = 4 ∧ t.ctx? (ctxId l.body) = some c ∧ c.func = l.h.func ∧ c.st = .waiting ∧ (∀ x ∈ t.sch.chans, x.ctx ≠ c.id) ∧ (∀ q ∈ t.gen.seqs, q.ctx ≠ c.id) ∧ t.kv? c.id = none ∧ t.ctxLive c.id = []) ∧
    (∃ s : State, ∃ n : Nat, ∃ c : Ctx, ∃ r : CmdRef, s.ctx? n = some c ∧ c.st = .retiring ∧ c.retire = some r ∧ (∀ l ∈ s.ctxLive n, l.flowOpen = true ∨ (l.stage ≠ .running ∧ l.stage ≠ .staged)) ∧ (∀ x ∈ s.sch.tasks, x.ctx = some n → x.islet = none)) ∧
    (∃ s : State, ∃ n : Nat, ∃ x : Chan, ∃ r : CmdRef, s.chan? n = some x ∧ x.closing = some r ∧ (∀ l ∈ s.cmd.live, l.h.queue ≠ some n)) := by
  refine ⟨⟨exCtxs [exCtx] [exChan] [], sent (exCtxs [exCtx] [exChan] []) (exHdr Op.ctx 64) (leBytes 64 (1 + 2 ^ 24)), exHdr Op.ctx 64, leBytes 64 (1 + 2 ^ 24), sentLive (exCtxs [exCtx] [exChan] []) (exHdr Op.ctx 64) (leBytes 64 (1 + 2 ^ 24)), ?_, ?_⟩,
    ⟨exCtxs [exCtx] [exChan] [], sent (exCtxs [exCtx] [exChan] []) (exHdr Op.ctx 64) (leBytes 64 (2)), exHdr Op.ctx 64, leBytes 64 (2), sentLive (exCtxs [exCtx] [exChan] []) (exHdr Op.ctx 64) (leBytes 64 (2)), ?_, ?_⟩,
    ⟨exCtxs [exCtx] [exChan] [], sent (exCtxs [exCtx] [exChan] []) (exHdr Op.ctx 64) (leBytes 64 (3)), exHdr Op.ctx 64, leBytes 64 (3), sentLive (exCtxs [exCtx] [exChan] []) (exHdr Op.ctx 64) (leBytes 64 (3)), ?_, ?_⟩,
    ⟨exCtxs [exCtx] [exChan] [], sent (exCtxs [exCtx] [exChan] []) (exHdr Op.ctx 64) (leBytes 64 (4)), exHdr Op.ctx 64, leBytes 64 (4), sentLive (exCtxs [exCtx] [exChan] []) (exHdr Op.ctx 64) (leBytes 64 (4)), ?_, ?_⟩,
    ⟨exCtxs [exCtx] [exChan] [], sent (exCtxs [exCtx] [exChan] []) (exHdr Op.ctx 64) (leBytes 64 (5)), exHdr Op.ctx 64, leBytes 64 (5), sentLive (exCtxs [exCtx] [exChan] []) (exHdr Op.ctx 64) (leBytes 64 (5)), ?_, ?_⟩,
    ⟨exCtxs [exCtx] [exChan] [], sent (exCtxs [exCtx] [exChan] []) (exHdr Op.ctx 64) (leBytes 64 (6)), exHdr Op.ctx 64, leBytes 64 (6), sentLive (exCtxs [exCtx] [exChan] []) (exHdr Op.ctx 64) (leBytes 64 (6)), ?_, ?_⟩,
    ⟨exCtxs [exCtx] [exChan] [], sent (exCtxs [exCtx] [exChan] []) (exHdr Op.ctx 64) (leBytes 64 (1 + 2 ^ 24)), exHdr Op.ctx 64, leBytes 64 (1 + 2 ^ 24), sentLive (exCtxs [exCtx] [exChan] []) (exHdr Op.ctx 64) (leBytes 64 (1 + 2 ^ 24)), 1, ?_, ?_, ?_, ?_, ?_⟩,
    ⟨exCtxs [{ exCtx with st := .waiting }] [] [], sent (exCtxs [{ exCtx with st := .waiting }] [] []) (exHdr Op.ctx 64) (leBytes 64 (4)), exHdr Op.ctx 64, leBytes 64 (4), sentLive (exCtxs [{ exCtx with st := .waiting }] [] []) (exHdr Op.ctx 64) (leBytes 64 (4)), { exCtx with st := .waiting }, ?_, ?_, ?_, ?_, ?_, ?_, ?_, ?_, ?_, ?_⟩,
    ⟨exCtxs [exRetiring] [] [exLive Op.ctx []], 0, exRetiring, exRef, ?_, ?_, ?_, ?_, ?_⟩,
    ⟨exCtxs [exCtx] [exClosing] [exLive Op.ctx []], 0, exClosing, exRef, ?_, ?_, ?_⟩⟩ <;>
  first | with_reducible rfl | decide +kernel | exact stamps_of_check (by decide +kernel) | exact waits_of_check (by decide +kernel) | exact ⟨by decide +kernel, by decide +kernel, by decide +kernel, by decide +kernel⟩ | rfl

theorem wit_PartitionResetFreesItsFunction :
    (∃ s : State, ∃ f : Nat, ∃ cause : Nat, s.fstate f = .resetting cause false ∧ (∀ x ∈ s.sch.tasks, x.func = f → x.islet = none)) ∧
    (∃ s : State, ∃ f : Nat, ∃ cause : Nat, s.fstate f = .resetting cause true ∧ (∀ l ∈ s.cmd.live, l.h.func = f → l.flowOpen = true) ∧ (∀ x ∈ s.sch.tasks, x.func = f → x.islet = none)) := by
  refine ⟨⟨exResetting false, 0, 1, ?_, ?_⟩,
    ⟨exResetting true, 0, 1, ?_, ?_, ?_⟩⟩ <;>
  first | with_reducible rfl | decide +kernel | exact stamps_of_check (by decide +kernel) | exact waits_of_check (by decide +kernel) | exact ⟨by decide +kernel, by decide +kernel, by decide +kernel, by decide +kernel⟩ | rfl

theorem wit_SchedulerWatchesItsIslands :
    (∃ s : State, ∃ i : Nat, ∃ w : Task, ∃ v : Task, bit (s.rd Reg.schedPreemptCfg) 16 = true ∧ s.freeIslets i = [] ∧ w ∈ s.sch.tasks ∧ w.island = i ∧ w.islet = none ∧ w.ready = true ∧ s.victim i w.cls = some v ∧ (∀ y ∈ s.sch.tasks, y.island = i → y.islet = none → y.ready = true → (s.victim i y.cls).isSome = true → y = w ∨ w.key < y.key)) ∧
    (∃ s : State, ∃ i : Nat, ∃ v : Task, (s.sch.tasks.find? (fun t => t.islet == some i && t.killing) = some v) ∧ s.taskGone v = true) ∧
    (∃ s : State, ∃ i : Nat, ∃ v : Task, (s.sch.tasks.find? (fun t => t.islet == some i && t.killing) = some v) ∧ s.taskGone v = false) ∧
    (∃ s : State, s.starving = true) ∧
    (∃ s : State, s.powered = true) ∧
    (∃ s : State, s.powered = true) ∧
    (∃ s : State, s.powered = true) := by
  refine ⟨⟨exFull, 0, exWaiting, (exFull.victim 0 1).getD exWaiting, ?_, ?_, ?_, ?_, ?_, ?_, ?_, ?_⟩,
    ⟨exTasks [{ exKilled with cmd := some exRef }], 3, { exKilled with cmd := some exRef }, ?_, ?_⟩,
    ⟨exTasks [exKilled], 3, exKilled, ?_, ?_⟩,
    ⟨exStarving, ?_⟩,
    ⟨exOn, ?_⟩,
    ⟨exOn, ?_⟩,
    ⟨exOn, ?_⟩⟩ <;>
  first | with_reducible rfl | decide +kernel | exact stamps_of_check (by decide +kernel) | exact waits_of_check (by decide +kernel) | exact ⟨by decide +kernel, by decide +kernel, by decide +kernel, by decide +kernel⟩ | rfl

theorem wit_CommandsArriveAndComplete :
    (∃ s : State, ∃ t : State, ∃ h : CmdHdr, ∃ b : Body, ∃ l : Live, s.stampsAtOnce noCheck h b l t ∧ isNop h b = true) ∧
    (∃ s : State, ∃ t : State, ∃ h : CmdHdr, ∃ b : Body, h.opcode = Op.abort ∧ s.arrive h b = (t, some h.ref)) ∧
    (∃ s : State, ∃ d : DataPkt, ∃ l : Live, s.powered = true ∧ s.live? { func := d.func, tag := d.tag } = some l ∧ l.takes d = true ∧ ((l.got ++ [(d.offset, d.bytes.length)]).map (fun g => g.2)).sum ≠ l.h.xferLen) ∧
    (∃ s : State, ∃ d : DataPkt, s.powered = true ∧ (∀ l, s.live? { func := d.func, tag := d.tag } = some l → l.takes d = false)) ∧
    (∃ s : State, ∃ p : Nat, s.powered = true ∧ knownPtype (p % 256) = false) ∧
    (∃ s : State, ∃ f : Nat, ∃ q : Option Nat, ∃ x : Hint, s.powered = true ∧ s.cmd.hints.find? (fun x => x.func == f && x.chan == q) = some x) ∧
    (∃ s : State, ∃ h : CmdHdr, ∃ b : Body, s.powered = true ∧ s.cmd.ready = false ∧ isNop h b = true ∧ s.running? h = none) ∧
    (∃ s : State, ∃ h : CmdHdr, ∃ b : Body, ∃ x, s.powered = true ∧ s.cmd.ready = false ∧ isNop h b = true ∧ s.running? h = some x) ∧
    (∃ s : State, s.cmd.ready = false ∧ s.mgmtServes = true ∧ s.fl.sysRead = true ∧ s.flt.selfTests = []) := by
  refine ⟨⟨exBase, sent (exBase) (exHdr Op.nop 0) ([]), exHdr Op.nop 0, [], sentLive (exBase) (exHdr Op.nop 0) ([]), ?_, ?_⟩,
    ⟨exBase, (exBase.arrive (exHdr Op.abort 4) (leBytes 4 9)).1, exHdr Op.abort 4, leBytes 4 9, ?_, ?_⟩,
    ⟨exIntake [exAwaiting], exData 0, exAwaiting, ?_, ?_, ?_, ?_⟩,
    ⟨exIntake [exAwaiting], exData 1, ?_, ?_⟩,
    ⟨exOn, 0, ?_, ?_⟩,
    ⟨{ exOn with cmd := { exOn.cmd with hints := [exHint] } }, 0, none, exHint, ?_, ?_⟩,
    ⟨{ exOn with cmd := CmdSt.reset }, exHdr Op.nop 0, [], ?_, ?_, ?_, ?_⟩,
    ⟨{ exOn with cmd := { CmdSt.reset with hints := [exRunning] } }, exHdr Op.nop 0, [], exRunning, ?_, ?_, ?_, ?_⟩,
    ⟨{ exOn with cmd := CmdSt.reset, sec := { SecSt.reset with released := true }, fl := { FlashSt.reset with sysRead := true } }, ?_, ?_, ?_, ?_⟩⟩ <;>
  first | with_reducible rfl | decide +kernel | exact stamps_of_check (by decide +kernel) | exact waits_of_check (by decide +kernel) | exact ⟨by decide +kernel, by decide +kernel, by decide +kernel, by decide +kernel⟩ | rfl

theorem wit_RingsCarryCommandsAndCompletions :
    (∃ s : State, ∃ t : State, ∃ ring : Nat, ∃ e : SqEntry, s.mayFetch ring = true ∧ t = { s with brg := { s.brg with sqHead := mapPut 0 ring ((s.sqHead ring + 1) % ringSize (s.rd (Reg.hringSqCfg ring))) s.brg.sqHead } } ∧ (e.reserved ≠ 0 ∨ e.bodyAddr % 64 ≠ 0 ∨ e.respAddr % 64 ≠ 0)) ∧
    (∃ s : State, ∃ t : State, ∃ ring : Nat, ∃ e : SqEntry, s.mayFetch ring = true ∧ t = { s with brg := { s.brg with sqHead := mapPut 0 ring ((s.sqHead ring + 1) % ringSize (s.rd (Reg.hringSqCfg ring))) s.brg.sqHead } } ∧ e.reserved = 0 ∧ e.bodyAddr % 64 = 0 ∧ e.respAddr % 64 = 0 ∧ t.pathDown (e.dstOrd % 64) = true) ∧
    (∃ s : State, ∃ t : State, ∃ ring : Nat, ∃ e : SqEntry, s.mayFetch ring = true ∧ t = { s with brg := { s.brg with sqHead := mapPut 0 ring ((s.sqHead ring + 1) % ringSize (s.rd (Reg.hringSqCfg ring))) s.brg.sqHead } } ∧ e.reserved = 0 ∧ e.bodyAddr % 64 = 0 ∧ e.respAddr % 64 = 0 ∧ t.pathDown (e.dstOrd % 64) = false) ∧
    (∃ s : State, ∃ o : Nat, ∃ f : Nat, ∃ tag : Nat, ∃ g : Nat, ∃ c : RingCmd, s.fix.bridge = true ∧ s.ringCmd? o f tag = some c ∧ 0 < c.h.xferLen ∧ 0 < g) ∧
    (∃ s : State, ∃ o : Nat, ∃ f : Nat, ∃ tag : Nat, ∃ g : Nat, ∃ c : RingCmd, s.fix.bridge = true ∧ s.ringCmd? o f tag = some c ∧ 0 < c.h.xferLen ∧ g = 0) ∧
    (∃ s : State, ∃ o : Nat, ∃ f : Nat, ∃ tag : Nat, ∃ c : RingCmd, s.fix.bridge = true ∧ s.ringCmd? o f tag = some c) ∧
    (∃ s : State, ∃ ring : Nat, ∃ o : Nat, ∃ tag : Nat, ∃ c : RingCmd, s.brg.cmds.find? (fun c => c.refused && c.ring == ring && c.ord == o && c.h.tag == tag) = some c ∧ s.heldBack c = false) ∧
    (∃ s : State, ∃ ring : Nat, ∃ o : Nat, ∃ tag : Nat, ∃ c : RingCmd, s.brg.cmds.find? (fun c => c.refused && c.ring == ring && c.ord == o && c.h.tag == tag) = some c ∧ s.heldBack c = true) ∧
    (∃ s : State, ∃ c : CplPkt, ∃ x : RingCmd, s.powered = true ∧ s.fix.bridge = true ∧ s.zwx.hostDrop = false ∧ c.kind = 0 ∧ s.cplFor c = some x ∧ c.last = false ∧ c.bytes.take (x.respLen - c.fragOff) = []) ∧
    (∃ s : State, ∃ c : CplPkt, ∃ x : RingCmd, s.powered = true ∧ s.fix.bridge = true ∧ s.zwx.hostDrop = false ∧ c.kind = 0 ∧ s.cplFor c = some x ∧ c.last = false ∧ c.bytes.take (x.respLen - c.fragOff) ≠ []) ∧
    (∃ s : State, ∃ c : CplPkt, ∃ x : RingCmd, s.powered = true ∧ s.fix.bridge = true ∧ s.zwx.hostDrop = false ∧ c.kind = 0 ∧ s.cplFor c = some x ∧ c.last = true) ∧
    (∃ s : State, ∃ c : CplPkt, s.powered = true ∧ s.fix.bridge = true ∧ s.zwx.hostDrop = false ∧ c.kind = 0 ∧ s.cplFor c = none) ∧
    (∃ s : State, ∃ c : CplPkt, s.powered = true ∧ s.fix.bridge = true ∧ s.zwx.hostDrop = false ∧ c.kind ≠ 0) ∧
    (∃ s : State, s.powered = true ∧ s.fix.bridge = true ∧ s.zwx.hostDrop = true) ∧
    (∃ s : State, s.powered = true ∧ s.fix.bridge = true ∧ s.zwx.hostDrop = false ∧ bit (s.rd Reg.hostEvqCfg) 0 = true ∧ (s.brg.evqTail + 1) % ringSize (s.rd Reg.hostEvqCfg) ≠ bits (s.rd Reg.hostEvqHead) 15 0 % ringSize (s.rd Reg.hostEvqCfg)) ∧
    (∃ s : State, s.powered = true ∧ s.fix.bridge = true ∧ s.zwx.hostDrop = false ∧ bit (s.rd Reg.hostEvqCfg) 0 = true ∧ (s.brg.evqTail + 1) % ringSize (s.rd Reg.hostEvqCfg) = bits (s.rd Reg.hostEvqHead) 15 0 % ringSize (s.rd Reg.hostEvqCfg)) ∧
    (∃ s : State, ∃ o : Nat, ∃ c : RingCmd, s.brg.cmds.find? (fun c => c.ord == o && c.sent && !c.answered && decide (c.h.xferLen > 0)) = some c) := by
  refine ⟨⟨exRings [], _, 0, exSq 1, ?_, rfl, ?_⟩,
    ⟨exRings [(Reg.hostPathDownLo, 2)], _, 0, exSq 0, ?_, rfl, ?_, ?_, ?_, ?_⟩,
    ⟨exRings [], _, 0, exSq 0, ?_, rfl, ?_, ?_, ?_, ?_⟩,
    ⟨exRingSt [exRingCmd false], 1, 0, 5, 2, exRingCmd false, ?_, ?_, ?_, ?_⟩,
    ⟨exRingSt [exRingCmd false], 1, 0, 5, _, exRingCmd false, ?_, ?_, ?_, rfl⟩,
    ⟨exRingSt [exRingCmd false], 1, 0, 5, exRingCmd false, ?_, ?_⟩,
    ⟨exRingSt [exRingCmd true], 0, 1, 5, exRingCmd true, ?_, ?_⟩,
    ⟨exRingSt [exFirst, exRingCmd true], 0, 1, 5, exRingCmd true, ?_, ?_⟩,
    ⟨exRingSt [exRingCmd false], exCpl false [], exRingCmd false, ?_, ?_, ?_, ?_, ?_, ?_, ?_⟩,
    ⟨exRingSt [exRingCmd false], exCpl false [7], exRingCmd false, ?_, ?_, ?_, ?_, ?_, ?_, ?_⟩,
    ⟨exRingSt [exRingCmd false], exCpl true [7], exRingCmd false, ?_, ?_, ?_, ?_, ?_, ?_⟩,
    ⟨exRingSt [], exCpl true [], ?_, ?_, ?_, ?_, ?_⟩,
    ⟨exRingSt [], { exCpl true [] with kind := 1 }, ?_, ?_, ?_, ?_⟩,
    ⟨{ exRingSt [] with zwx := { ZwxSt.reset with hostDrop := true } }, ?_, ?_, ?_⟩,
    ⟨exRings [(Reg.hostEvqCfg, 1 + 4 * 256)], ?_, ?_, ?_, ?_, ?_⟩,
    ⟨exRings [(Reg.hostEvqCfg, 1 + 4 * 256), (Reg.hostEvqHead, 1)], ?_, ?_, ?_, ?_, ?_⟩,
    ⟨exRingSt [exRingCmd false], 1, exRingCmd false, ?_⟩⟩ <;>
  first | with_reducible rfl | decide +kernel | exact stamps_of_check (by decide +kernel) | exact waits_of_check (by decide +kernel) | exact ⟨by decide +kernel, by decide +kernel, by decide +kernel, by decide +kernel⟩ | rfl

theorem wit_PortsCarryFrames :
    (∃ s : State, ∃ n : Nat, ∃ f : FrameIn, s.portUp n = true ∧ ((s.port n).enc = true → f.tagOk = true) ∧ f.crcOk = true ∧ f.lseq = (s.port n).rxSeq) ∧
    (∃ s : State, ∃ u : State, ∃ n : Nat, ∃ f : FrameIn, s.portUp n = true ∧ ((s.port n).enc = true → f.tagOk = true) ∧ u = s.fecCount n f ∧ f.crcOk = false) ∧
    (∃ s : State, ∃ u : State, ∃ n : Nat, ∃ f : FrameIn, s.portUp n = true ∧ ((s.port n).enc = true → f.tagOk = true) ∧ u = s.fecCount n f ∧ f.crcOk = true ∧ f.lseq ≠ (s.port n).rxSeq ∧ 32768 < ((s.port n).rxSeq + 65536 - f.lseq) % 65536) ∧
    (∃ s : State, ∃ t : State, ∃ n : Nat, ∃ f : FrameIn, s.portUp n = true ∧ (s.port n).enc = true ∧ f.tagOk = false ∧ t = ((s.fecCount n f).updPort n (fun p => { p with tagFails := p.tagFails + 1 })).count (Reg.zwxEncFailCnt n) ∧ 15 ≤ (s.port n).tagFails) ∧
    (∃ s : State, ∃ t : State, ∃ n : Nat, ∃ f : FrameIn, s.portUp n = true ∧ (s.port n).enc = true ∧ f.tagOk = false ∧ t = ((s.fecCount n f).updPort n (fun p => { p with tagFails := p.tagFails + 1 })).count (Reg.zwxEncFailCnt n) ∧ (s.port n).tagFails < 15) ∧
    (∃ s : State, ∃ t : State, ∃ n : Nat, ∃ l : Nat, s.portUp n = true ∧ t = s.updPort n (fun p => p.acked l)) ∧
    (∃ s : State, ∃ t : State, ∃ n : Nat, ∃ l : Nat, s.portUp n = true ∧ t = s.updPort n (fun p => { p.acked ((l + 65535) % 65536) with replay := (p.acked ((l + 65535) % 65536)).replay.map (fun r => { r with at_ := s.now }) }) ∧ (t.port n).replay = []) ∧
    (∃ s : State, ∃ t : State, ∃ n : Nat, ∃ l : Nat, s.portUp n = true ∧ t = s.updPort n (fun p => { p.acked ((l + 65535) % 65536) with replay := (p.acked ((l + 65535) % 65536)).replay.map (fun r => { r with at_ := s.now }) }) ∧ (t.port n).replay ≠ []) ∧
    (∃ s : State, ∃ t : State, ∃ n : Nat, ∃ vc : Nat, ∃ u : Nat, ∃ c : FClass, ∃ b : Bool, s.portUp n = true ∧ t = s.updPort n (fun p => p.setCredit (c, vc, b) (p.has (c, vc, b) + u))) ∧
    (∃ s : State, ∃ n : Nat, ∃ r : Sent, ∃ rs : List Sent, s.portUp n = true ∧ (s.port n).replay = r :: rs) ∧
    (∃ s : State, ∃ l : Nat, s.portUp (l / 8) = true ∧ bit (s.port (l / 8)).laneMask (l % 8) = true) ∧
    (∃ s : State, ∃ l : Nat, l < 64 ∧ s.portUp (l / 8) = true ∧ bit (s.port (l / 8)).laneMask (l % 8) = false) ∧
    (∃ s : State, ∃ n : Nat, ∃ t : TrainInfo, s.powered = true ∧ (s.port n).st = .training ∧ expectedPort s.fix n = true ∧ t.peerOrd = s.fix.peer s.fix.ord n ∧ t.peerDims = s.fix.dims ∧ t.peerEnc = bit (s.rd (Reg.zwxPortCfg n)) 1 ∧ (t.peerEnc = true → t.authOk = true) ∧ t.laneMask % 256 ≠ 0) ∧
    (∃ s : State, ∃ n : Nat, ∃ t : TrainInfo, s.powered = true ∧ (s.port n).st = .training ∧ t.peerOrd ≠ s.fix.peer s.fix.ord n) ∧
    (∃ s : State, ∃ t : State, ∃ n : Nat, s.powered = true ∧ (s.port n).st = .down ∧ expectedPort s.fix n = true ∧ bit (s.rd (Reg.zwxPortCfg n)) 0 = true ∧ t = s.elapseTo ((s.port n).since + 1000000000)) ∧
    (∃ s : State, ∃ n : Nat, s.portUp n = true ∧ (s.port n).enc = true ∧ 2 ^ 47 ≤ (s.port n).frames ∧ (s.port n).rekeying = false ∧ (s.port n).retryAt = 0) ∧
    (∃ s : State, ∃ n : Nat, s.portUp n = true ∧ (s.port n).enc = true ∧ 2 ^ 48 ≤ (s.port n).frames) ∧
    (∃ s : State, ∃ n : Nat, s.portUp n = true ∧ (s.port n).enc = true ∧ 0 < (s.port n).retryAt ∧ (s.port n).rekeying = false) ∧
    (∃ s : State, ∃ n : Nat, s.portUp n = true ∧ (s.port n).enc = true ∧ (s.port n).rekeying = true) ∧
    (∃ s : State, ∃ t : State, ∃ n : Nat, s.portUp n = true ∧ (s.port n).enc = true ∧ t = ((s.newKeys n).updPort n (fun p => { p with txPhase := 1 - p.txPhase, frames := 0, oldKey := true, rekeying := false, retryAt := 0 })).count Reg.secRekeyCnt) := by
  refine ⟨⟨exLink exUp, 0, exFrame 0 true true, ?_, ?_, ?_, ?_⟩,
    ⟨exLink exUp, _, 0, exFrame 0 false true, ?_, ?_, rfl, ?_⟩,
    ⟨exLink exUp, _, 0, exFrame 1 true true, ?_, ?_, rfl, ?_, ?_, ?_⟩,
    ⟨exLink { exEnc with tagFails := 15 }, _, 0, exFrame 0 true false, ?_, ?_, ?_, rfl, ?_⟩,
    ⟨exLink exEnc, _, 0, exFrame 0 true false, ?_, ?_, ?_, rfl, ?_⟩,
    ⟨exLink exUp, _, 0, 3, ?_, rfl⟩,
    ⟨exLink exUp, _, 0, 3, ?_, rfl, ?_⟩,
    ⟨exLink { exUp with replay := [exSent] }, _, 0, 3, ?_, rfl, ?_⟩,
    ⟨exLink exUp, _, 0, 0, 4, .req, false, ?_, rfl⟩,
    ⟨exLink { exUp with replay := [exSent] }, 0, exSent, [], ?_, ?_⟩,
    ⟨exLink exUp, 0, ?_, ?_⟩,
    ⟨exLink exUp, 1, ?_, ?_, ?_⟩,
    ⟨exLink { exUp with st := .training }, 0, exTrain 1, ?_, ?_, ?_, ?_, ?_, ?_, ?_, ?_⟩,
    ⟨exLink { exUp with st := .training }, 0, exTrain 5, ?_, ?_, ?_⟩,
    ⟨exLink (Port.reset 0), _, 0, ?_, ?_, ?_, ?_, rfl⟩,
    ⟨exLink { exEnc with frames := 2 ^ 47 }, 0, ?_, ?_, ?_, ?_, ?_⟩,
    ⟨exLink { exEnc with frames := 2 ^ 48 }, 0, ?_, ?_, ?_⟩,
    ⟨exLink { exEnc with retryAt := 1 }, 0, ?_, ?_, ?_, ?_⟩,
    ⟨exLink { exEnc with rekeying := true }, 0, ?_, ?_, ?_⟩,
    ⟨exLink exEnc, _, 0, ?_, ?_, rfl⟩⟩ <;>
  first | with_reducible rfl | decide +kernel | exact stamps_of_check (by decide +kernel) | exact waits_of_check (by decide +kernel) | exact ⟨by decide +kernel, by decide +kernel, by decide +kernel, by decide +kernel⟩ | rfl

theorem wit_HostLinkAndLostPaths :
    (∃ s : State, s.fix.bridge = true ∧ 7 < s.zwx.ports.length ∧ s.powered = true ∧ s.pwr.perst = false ∧ bit (s.rd (Reg.zwxPortCfg 6)) 0 = true ∧ bit (s.rd (Reg.zwxPortCfg 7)) 0 = true) ∧
    (∃ s : State, ∃ src : Nat, ∃ c : FClass, ∃ g : Option Nat, ∃ x : EseqRx, x = s.eseqOf src (if g.isSome then .ctl else c) g ∧ x.held ≠ [] ∧ g = none) ∧
    (∃ s : State, ∃ src : Nat, ∃ c : FClass, ∃ g : Option Nat, ∃ x : EseqRx, x = s.eseqOf src (if g.isSome then .ctl else c) g ∧ x.held ≠ [] ∧ g = some 3) ∧
    (∃ s : State, ∃ t : State, ∃ u : State, ∃ dst : Nat, ∃ h : RouteHold, (s.zwx.routeHold.find? (fun h => h.f.dst == dst) = some h) ∧ t = s.elapseTo (h.since + bits (s.rd Reg.archHoldCfg) 9 0 * 1000) ∧ (u = (({ t with zwx := { t.zwx with routeHold := t.zwx.routeHold.erase h } } : State).count Reg.archRouteDropCnt).pathLostTo (([s.bridgeOrd, h.f.src].eraseDups).filter (fun o => o != s.fix.ord)) dst 0) ∧ ¬(s.fix.bridge = true ∨ h.f.src = s.fix.ord)) ∧
    (∃ s : State, ∃ t : State, ∃ u : State, ∃ dst : Nat, ∃ h : RouteHold, (s.zwx.routeHold.find? (fun h => h.f.dst == dst) = some h) ∧ t = s.elapseTo (h.since + bits (s.rd Reg.archHoldCfg) 9 0 * 1000) ∧ (u = (({ t with zwx := { t.zwx with routeHold := t.zwx.routeHold.erase h } } : State).count Reg.archRouteDropCnt).pathLostTo (([s.bridgeOrd, h.f.src].eraseDups).filter (fun o => o != s.fix.ord)) dst 0) ∧ (s.fix.bridge = true ∨ h.f.src = s.fix.ord)) ∧
    (∃ s : State, s.powered = true ∧ s.replicas.Nodup) := by
  refine ⟨⟨exBridge [(Reg.zwxPortCfg 6, 1), (Reg.zwxPortCfg 7, 1)], ?_, ?_, ?_, ?_, ?_, ?_⟩,
    ⟨{ exOn with zwx := { ZwxSt.reset with eseqRx := [{ src := 1, cls := .req, group := none, next := 0, held := [exFrame 2 true true], since := 0 }] } }, 1, .req, none, _, rfl, ?_, rfl⟩,
    ⟨{ exOn with zwx := { ZwxSt.reset with eseqRx := [{ src := 1, cls := .ctl, group := some 3, next := 0, held := [exFrame 2 true true], since := 0 }] } }, 1, .req, some 3, _, rfl, ?_, rfl⟩,
    ⟨{ exOn with zwx := { ZwxSt.reset with routeHold := [{ f := exFrame 0 true true, since := 0 }] } }, _, _, 0, { f := exFrame 0 true true, since := 0 }, ?_, rfl, rfl, ?_⟩,
    ⟨{ exBridge [] with zwx := { ZwxSt.reset with routeHold := [{ f := exFrame 0 true true, since := 0 }] } }, _, _, 0, { f := exFrame 0 true true, since := 0 }, ?_, rfl, rfl, ?_⟩,
    ⟨exReplicas true, ?_, ?_⟩⟩ <;>
  first | with_reducible rfl | decide +kernel | exact stamps_of_check (by decide +kernel) | exact waits_of_check (by decide +kernel) | exact ⟨by decide +kernel, by decide +kernel, by decide +kernel, by decide +kernel⟩ | rfl

theorem wit_TransfersReadAndWrite :
    (∃ s : State, ∃ x : XPkt, s.powered = true ∧ s.xWaits x = true) ∧
    (∃ s : State, ∃ x : XPkt, s.powered = true ∧ s.xWaits x = false ∧ x.place = .memory ∧ s.xAllowed x true = true ∧ x.data.length = x.lenM1 + 1) ∧
    (∃ s : State, ∃ x : XPkt, s.powered = true ∧ x.place ≠ .memory ∧ x.data.length = x.lenM1 + 1) ∧
    (∃ s : State, ∃ x : XPkt, s.powered = true ∧ x.place ≠ .memory ∧ x.data.length ≠ x.lenM1 + 1) ∧
    (∃ s : State, ∃ x : XPkt, ∃ b, s.powered = true ∧ x.place ≠ .memory ∧ s.placeBytes x = some b ∧ b.length = x.lenM1 + 1) ∧
    (∃ s : State, ∃ x : XPkt, s.powered = true ∧ x.place ≠ .memory ∧ s.placeBytes x = none) ∧
    (∃ s : State, ∃ x : XPkt, s.powered = true ∧ s.xWaits x = false ∧ x.place = .memory ∧ s.xAllowed x true = false) ∧
    (∃ s : State, ∃ x : XPkt, s.powered = true ∧ s.xWaits x = false ∧ x.place = .memory ∧ s.xAllowed x false = true ∧ s.devReadable x.addr (x.lenM1 + 1) = true) ∧
    (∃ s : State, ∃ x : XPkt, s.powered = true ∧ s.xWaits x = false ∧ x.place = .memory ∧ (s.xAllowed x false = false ∨ s.devReadable x.addr (x.lenM1 + 1) = false)) ∧
    (∃ s : State, ∃ x : XPkt, ∃ o : XferOut, ∃ p : PageRef, s.powered = true ∧ o.use = .mirror p ∧ s.xfer? x true = some o ∧ x.err = false) ∧
    (∃ s : State, ∃ x : XPkt, ∃ o : XferOut, ∃ p : PageRef, s.powered = true ∧ o.use = .mirror p ∧ s.xfer? x true = some o ∧ x.err = true) ∧
    (∃ s : State, ∃ x : XPkt, ∃ o : XferOut, ∃ p : PageRef, s.powered = true ∧ o.use = .mirror p ∧ s.xfer? x false = some o ∧ (x.err = true ∨ x.data.length ≠ o.x.lenM1 + 1)) ∧
    (∃ s : State, ∃ x : XPkt, ∃ o : XferOut, ∃ p : PageRef, ∃ u : State, ∃ q : Seq, ∃ c : KvCtx, ∃ d : KvCtx, ∃ n : Nat, ∃ j : Nat, ∃ g : PageRef, s.powered = true ∧ o.use = .mirror p ∧ s.xfer? x false = some o ∧ x.err = false ∧ x.data.length = o.x.lenM1 + 1 ∧ s.seq? p.seq = some q ∧ s.kv? q.ctx = some c ∧ (s.endXfer o).reframe q.ctx p = some u ∧ u.kv? q.ctx = some d ∧ o.x.place = .mirror n g j) ∧
    (∃ s : State, ∃ u : State, ∃ x : XPkt, ∃ o : XferOut, ∃ w : WeightRef, s.powered = true ∧ o.use = .weight ∧ o.x.place = .weights w ∧ s.xfer? x false = some o ∧ u = (s.endXfer o).mendPart w o.x.addr x.data ∧ x.err = false ∧ x.data.length = o.x.lenM1 + 1) ∧
    (∃ s : State, ∃ u : State, ∃ x : XPkt, ∃ o : XferOut, ∃ w : WeightRef, s.powered = true ∧ o.use = .weight ∧ o.x.place = .weights w ∧ s.xfer? x false = some o ∧ u = (s.endXfer o).mendPart w o.x.addr x.data ∧ x.err = true) ∧
    (∃ s : State, ∃ xid : Nat, ∃ o : XferOut, (s.zwx.xfers.find? (fun o => o.xid == xid) = some o)) := by
  refine ⟨⟨exOn, exX (t3Addr 0) false, ?_, ?_⟩,
    ⟨exOn, exX 0x100000000000 false, ?_, ?_, ?_, ?_, ?_⟩,
    ⟨exOn, exHeldX [1, 2, 3, 4], ?_, ?_, ?_⟩,
    ⟨exOn, exHeldX [], ?_, ?_, ?_⟩,
    ⟨exGood, exWant, (exGood.placeBytes exWant).getD [], ?_, ?_, eq_some_getD (by decide +kernel), ?_⟩,
    ⟨exOn, exHeldX [], ?_, ?_, ?_⟩,
    ⟨exOn, exX 0x900000000000 false, ?_, ?_, ?_, ?_⟩,
    ⟨exOn, exX 0x100000000000 false, ?_, ?_, ?_, ?_, ?_⟩,
    ⟨exOn, exX 0x900000000000 false, ?_, ?_, ?_, Or.inl (by decide +kernel)⟩,
    ⟨exXfers (exOut true), exX 0x100000000000 false, exOut true, exPg, ?_, ?_, ?_, ?_⟩,
    ⟨exXfers (exOut true), exX 0x100000000000 true, exOut true, exPg, ?_, ?_, ?_, ?_⟩,
    ⟨exXfers (exOut false), exX 0x100000000000 true, exOut false, exPg, ?_, ?_, ?_, ?_⟩,
    ⟨exMirrorIn, exX 0x100000000000 false, exOutM, exPg, ((exMirrorIn.endXfer exOutM).reframe exSeq.ctx exPg).getD exOn, exSeq, exKv, ((((exMirrorIn.endXfer exOutM).reframe exSeq.ctx exPg).getD exOn).kv? 0).getD exKv, 0, 0, exPg, ?_, ?_, ?_, ?_, ?_, ?_, ?_, eq_some_getD (by decide +kernel), eq_some_getD (by decide +kernel), ?_⟩,
    ⟨exXfers exOutW, _, exX 0x100000000000 false, exOutW, .tile exTile, ?_, ?_, ?_, ?_, rfl, ?_, ?_⟩,
    ⟨exXfers exOutW, _, exX 0x100000000000 true, exOutW, .tile exTile, ?_, ?_, ?_, ?_, rfl, ?_⟩,
    ⟨exXfers (exOut false), 7, exOut false, ?_⟩⟩ <;>
  first | with_reducible rfl | decide +kernel | exact stamps_of_check (by decide +kernel) | exact waits_of_check (by decide +kernel) | exact ⟨by decide +kernel, by decide +kernel, by decide +kernel, by decide +kernel⟩ | rfl

theorem wit_TripIsFollowedOnlyByPinOrManagement :
    (∃ s : State, Registers.wf s.regs = true ∧ s.mainOn = true) ∧
    (∃ i : Instr, ∃ s : State, ∃ t : State, s.pwr.st = .watch ∧ s.pwr.upStep = 0 ∧ s.pwr.downCause = none ∧ s.pwr.wakeNoted = false ∧ bit (s.rd Reg.pwrEvents) 0 = true ∧ exec i s = .next t ∧ (t.pwr.upStep ≠ 0 ∨ t.pwr.wakeNoted = true)) ∧
    (∃ s : State, ∃ w : Nat, s.pwr.st = .watch ∧ s.pwr.upStep = 0 ∧ s.pwr.downCause = none ∧ s.pwr.resetHeld = false ∧ s.pwr.heldWake = true ∧ s.pwr.lastWake = some w) ∧
    (∃ s : State, ∃ r : CoolReading, s.pwr.st = .watch ∧ s.pwr.upStep = 1 ∧ bit (s.rd Reg.pwrEvents) 0 = true ∧ (95 < r.dieMax ∨ 85 < r.stackMax)) ∧
    (∃ s : State, ∃ r : CoolReading, s.pwr.st = .watch ∧ s.pwr.upStep = 1 ∧ bit (s.rd Reg.pwrEvents) 0 = true ∧ r.dieMax ≤ 95 ∧ r.stackMax ≤ 85 ∧ s.pwr.inputGood = true ∧ r.inlet ≤ 45 ∧ 20 ≤ r.flow) := by
  refine ⟨⟨exOn, ?_, ?_⟩,
    ⟨.wakeHoldExpire, exTripped 0 true, after (.wakeHoldExpire) (exTripped 0 true), ?_, ?_, ?_, ?_, ?_, ?_, ?_⟩,
    ⟨exTripped 0 true, 0, ?_, ?_, ?_, ?_, ?_, ?_⟩,
    ⟨exTripped 1 false, { exCool with dieMax := 96 }, ?_, ?_, ?_, ?_⟩,
    ⟨exTripped 1 false, exCool, ?_, ?_, ?_, ?_, ?_, ?_, ?_, ?_⟩⟩ <;>
  first | with_reducible rfl | decide +kernel | exact stamps_of_check (by decide +kernel) | exact waits_of_check (by decide +kernel) | exact ⟨by decide +kernel, by decide +kernel, by decide +kernel, by decide +kernel⟩ | rfl

theorem wit_UnitsAreFencedAndReadmitted :
    (∃ s : State, ∃ t1 : Bool, ∃ unit : Nat, ∃ line : Nat, line ≠ 0 ∧ s.flt.lineUe.contains (t1, unit, line) = false) ∧
    (∃ s : State, ∃ t1 : Bool, ∃ unit : Nat, ∃ line : Nat, line ≠ 0 ∧ s.flt.lineUe.contains (t1, unit, line) = true) ∧
    (∃ s : State, ∃ u : FenceUnit, ∃ c : FenceCause, u.island < 512 ∧ u.islet < 16 ∧ s.causeStands u c = true ∧ s.unitFenced u = false) ∧
    (∃ s : State, ∃ u : FenceUnit, u ∈ s.flt.selfTests ∧ u.whole = false ∧ s.fencedOut u = false) ∧
    (∃ s : State, ∃ u : FenceUnit, ∃ failed : List Nat, u ∈ s.flt.selfTests ∧ u.whole = false ∧ (failed ≠ [] ∨ s.fencedOut u = true)) ∧
    (∃ s : State, ∃ u : FenceUnit, u ∈ s.flt.selfTests ∧ u.whole = true ∧ s.fencedOut u = false ∧ (∀ j < 16, s.fencedOut { whole := false, island := u.island, islet := j } = false)) ∧
    (∃ s : State, ∃ t : State, ∃ stack : Nat, s.powered = true ∧ stack < 32 ∧ s.flt.failedStacks.contains stack = false ∧ s.bodiesOn stack = [] ∧ t = ((({ s with flt := { s.flt with failedStacks := s.flt.failedStacks ++ [stack] } } : State).count Reg.faultStackFailCnt).faultLog 0x18 stack 7 5 0 (t2Addr stack 0))) ∧
    (∃ s : State, ∃ core : Nat, ∃ c : CoreSt, ∃ l : List Nat, s.flt.cores[core]? = some c ∧ c.up = true ∧ s.sec.released = true ∧ s.powered = true ∧ s.servingCore ≠ some core ∧ l = c.restarts.filter (fun t => decide (s.clock < t + 600000000000)) ∧ 3 ≤ l.length) ∧
    (∃ s : State, ∃ core : Nat, ∃ c : CoreSt, ∃ l : List Nat, s.flt.cores[core]? = some c ∧ c.up = true ∧ s.sec.released = true ∧ s.powered = true ∧ s.servingCore ≠ some core ∧ l = c.restarts.filter (fun t => decide (s.clock < t + 600000000000)) ∧ l.length < 3) ∧
    (∃ s : State, ∃ core : Nat, ∃ c : CoreSt, s.flt.cores[core]? = some c ∧ c.restarting = true) := by
  refine ⟨⟨exOn, true, 0, 1, ?_, ?_⟩,
    ⟨exFaulty { FaultSt.reset with lineUe := [(true, 0, 1)] }, true, 0, 1, ?_, ?_⟩,
    ⟨exOn, exUnit true, .selectParity, ?_, ?_, ?_, ?_⟩,
    ⟨exFaulty { FaultSt.reset with selfTests := [exUnit false] }, exUnit false, ?_, ?_, ?_⟩,
    ⟨exFaulty { FaultSt.reset with selfTests := [exUnit false] }, exUnit false, [1], ?_, ?_, ?_⟩,
    ⟨exFaulty { FaultSt.reset with selfTests := [exUnit true] }, exUnit true, ?_, ?_, ?_, ?_⟩,
    ⟨exOn, _, 0, ?_, ?_, ?_, ?_, rfl⟩,
    ⟨exCores (exCore false [0, 0, 0]), 1, exCore false [0, 0, 0], _, ?_, ?_, ?_, ?_, ?_, rfl, ?_⟩,
    ⟨exCores (exCore false []), 1, exCore false [], _, ?_, ?_, ?_, ?_, ?_, rfl, ?_⟩,
    ⟨exCores (exCore true []), 1, exCore true [], ?_, ?_⟩⟩ <;>
  first | with_reducible rfl | decide +kernel | exact stamps_of_check (by decide +kernel) | exact waits_of_check (by decide +kernel) | exact ⟨by decide +kernel, by decide +kernel, by decide +kernel, by decide +kernel⟩ | rfl

theorem wit_SecurityRootBootsUnlocksAndAttests :
    (∃ s : State, s.powered = true ∧ s.sec.step = .verify) ∧
    (∃ s : State, s.powered = true ∧ s.sec.step = .identity) ∧
    (∃ s : State, ∃ k : List Byte, ∃ nonce : Nat, s.sec.token = some (k, nonce)) ∧
    (∃ s : State, ∃ u : State, ∃ t : Transport, s.mctpRuns t = true ∧ u = s.count Reg.mgmtMctpRxCnt ∧ u.mgmtServes = false) ∧
    (∃ s : State, ∃ u : State, ∃ t : Transport, s.mctpRuns t = true ∧ u = s.count Reg.mgmtMctpRxCnt ∧ u.mgmtServes = true ∧ (u.spdmOf t = .version ∨ u.spdmOf t = .caps)) ∧
    (∃ s : State, ∃ u : State, ∃ t : Transport, s.mctpRuns t = true ∧ u = s.count Reg.mgmtMctpRxCnt ∧ u.mgmtServes = true ∧ u.spdmOf t = .start) ∧
    (∃ s : State, ∃ u : State, ∃ t : Transport, s.mctpRuns t = true ∧ u = s.count Reg.mgmtMctpRxCnt ∧ u.mgmtServes = true ∧ (u.spdmOf t = .caps ∨ u.spdmOf t = .algs)) ∧
    (∃ s : State, ∃ u : State, ∃ t : Transport, s.mctpRuns t = true ∧ u = s.count Reg.mgmtMctpRxCnt ∧ u.mgmtServes = true) ∧
    (∃ s : State, ∃ u : State, ∃ t : Transport, s.mctpRuns t = true ∧ u = s.count Reg.mgmtMctpRxCnt ∧ u.mgmtServes = true ∧ u.spdmOf t ≠ .algs) ∧
    (∃ s : State, ∃ u : State, ∃ t : Transport, s.mctpRuns t = true ∧ u = s.count Reg.mgmtMctpRxCnt ∧ u.mgmtServes = true ∧ u.spdmOf t = .algs) ∧
    (∃ s : State, ∃ u : State, ∃ t : Transport, ∃ slot, s.mctpRuns t = true ∧ u = s.count Reg.mgmtMctpRxCnt ∧ u.mgmtServes = true ∧ u.spdmOf t = .algs ∧ slot ≠ 0) ∧
    (∃ s : State, ∃ u : State, ∃ t : Transport, s.mctpRuns t = true ∧ u = s.count Reg.mgmtMctpRxCnt ∧ u.mgmtServes = true ∧ u.spdmOf t = .algs) ∧
    (∃ s : State, ∃ u : State, ∃ t : Transport, ∃ index, s.mctpRuns t = true ∧ u = s.count Reg.mgmtMctpRxCnt ∧ u.mgmtServes = true ∧ u.spdmOf t = .algs ∧ 1 ≤ index ∧ index ≤ 6) ∧
    (∃ s : State, ∃ u : State, ∃ t : Transport, ∃ index, s.mctpRuns t = true ∧ u = s.count Reg.mgmtMctpRxCnt ∧ u.mgmtServes = true ∧ u.spdmOf t = .algs ∧ 6 < index ∧ index ≠ 0xFF) := by
  refine ⟨⟨exOn, ?_, ?_⟩,
    ⟨{ exOn with sec := { SecSt.reset with step := .identity } }, ?_, ?_⟩,
    ⟨{ exOn with sec := { SecSt.reset with token := some ([], 5) } }, [], 5, ?_⟩,
    ⟨exOn, _, .i3c, ?_, rfl, ?_⟩,
    ⟨exServe .version MgmtSt.reset, _, .i3c, ?_, rfl, ?_, ?_⟩,
    ⟨exServe .start MgmtSt.reset, _, .i3c, ?_, rfl, ?_, ?_⟩,
    ⟨exServe .caps MgmtSt.reset, _, .i3c, ?_, rfl, ?_, ?_⟩,
    ⟨exServe .start MgmtSt.reset, _, .i3c, ?_, rfl, ?_⟩,
    ⟨exServe .caps MgmtSt.reset, _, .i3c, ?_, rfl, ?_, ?_⟩,
    ⟨exServe .algs MgmtSt.reset, _, .i3c, ?_, rfl, ?_, ?_⟩,
    ⟨exServe .algs MgmtSt.reset, _, .i3c, 1, ?_, rfl, ?_, ?_, ?_⟩,
    ⟨exServe .algs MgmtSt.reset, _, .i3c, ?_, rfl, ?_, ?_⟩,
    ⟨exServe .algs MgmtSt.reset, _, .i3c, 6, ?_, rfl, ?_, ?_, ?_, ?_⟩,
    ⟨exServe .algs MgmtSt.reset, _, .i3c, 7, ?_, rfl, ?_, ?_, ?_, ?_⟩⟩ <;>
  first | with_reducible rfl | decide +kernel | exact stamps_of_check (by decide +kernel) | exact waits_of_check (by decide +kernel) | exact ⟨by decide +kernel, by decide +kernel, by decide +kernel, by decide +kernel⟩ | rfl

theorem wit_ManagementMessagesAreAnswered :
    (∃ s : State, ∃ u : State, ∃ t : Transport, ∃ eid, s.mctpRuns t = true ∧ u = s.count Reg.mgmtMctpRxCnt ∧ eid % 256 ≠ 0 ∧ eid % 256 ≠ 255) ∧
    (∃ s : State, ∃ u : State, ∃ t : Transport, ∃ eid, s.mctpRuns t = true ∧ u = s.count Reg.mgmtMctpRxCnt ∧ (eid % 256 = 0 ∨ eid % 256 = 255)) ∧
    (∃ s : State, ∃ u : State, ∃ t : Transport, ∃ ty, ∃ len, s.mctpRuns t = true ∧ u = s.count Reg.mgmtMctpRxCnt ∧ (mctpTypes.contains ty = false ∨ 4096 < len)) ∧
    (∃ s : State, ∃ u : State, ∃ t : Transport, ∃ cmd, s.mctpRuns t = true ∧ u = s.count Reg.mgmtMctpRxCnt ∧ u.mgmtServes = true ∧ 1 ≤ cmd ∧ cmd ≤ 5) ∧
    (∃ s : State, ∃ u : State, ∃ t : Transport, s.mctpRuns t = true ∧ u = s.count Reg.mgmtMctpRxCnt ∧ u.mgmtServes = true) ∧
    (∃ s : State, ∃ u : State, ∃ t : Transport, ∃ id, s.mctpRuns t = true ∧ u = s.count Reg.mgmtMctpRxCnt ∧ u.mgmtServes = true ∧ (numericIds ++ stateIds).contains id = true) ∧
    (∃ s : State, ∃ u : State, ∃ t : Transport, ∃ id, s.mctpRuns t = true ∧ u = s.count Reg.mgmtMctpRxCnt ∧ u.mgmtServes = true ∧ (numericIds ++ stateIds).contains id = false) ∧
    (∃ s : State, ∃ u : State, ∃ t : Transport, ∃ id, s.mctpRuns t = true ∧ u = s.count Reg.mgmtMctpRxCnt ∧ u.mgmtServes = true ∧ numericIds.contains id = true) ∧
    (∃ s : State, ∃ u : State, ∃ t : Transport, s.mctpRuns t = true ∧ u = s.count Reg.mgmtMctpRxCnt ∧ u.mgmtServes = true) ∧
    (∃ s : State, ∃ u : State, ∃ t : Transport, ∃ q, s.mctpRuns t = true ∧ u = s.count Reg.mgmtMctpRxCnt ∧ u.mgmtServes = true ∧ u.mgmt.queue.find? (fun q => q.1 == t) = some q) ∧
    (∃ s : State, ∃ u : State, ∃ t : Transport, s.mctpRuns t = true ∧ u = s.count Reg.mgmtMctpRxCnt ∧ u.mgmtServes = true ∧ u.mgmt.queue.find? (fun q => q.1 == t) = none) ∧
    (∃ s : State, ∃ u : State, ∃ t : Transport, ∃ v, s.mctpRuns t = true ∧ u = s.count Reg.mgmtMctpRxCnt ∧ u.mgmtServes = true ∧ 1400 ≤ v ∧ v ≤ 2400) ∧
    (∃ s : State, ∃ u : State, ∃ t : Transport, ∃ v, s.mctpRuns t = true ∧ u = s.count Reg.mgmtMctpRxCnt ∧ u.mgmtServes = true ∧ v ≤ 100) ∧
    (∃ s : State, ∃ u : State, ∃ t : Transport, ∃ id, ∃ v, s.mctpRuns t = true ∧ u = s.count Reg.mgmtMctpRxCnt ∧ u.mgmtServes = true ∧ (id = 301 ∧ v < 16)) ∧
    (∃ s : State, ∃ u : State, ∃ t : Transport, ∃ id, ∃ v, s.mctpRuns t = true ∧ u = s.count Reg.mgmtMctpRxCnt ∧ u.mgmtServes = true ∧ ((id = 300 ∧ (v < 1400 ∨ 2400 < v)) ∨ (id = 301 ∧ 16 ≤ v) ∨ (id = 302 ∧ 100 < v))) ∧
    (∃ s : State, ∃ u : State, ∃ t : Transport, ∃ id, ∃ v, s.mctpRuns t = true ∧ u = s.count Reg.mgmtMctpRxCnt ∧ u.mgmtServes = true ∧ ((id = 300 ∧ (v < 1400 ∨ 2400 < v)) ∨ (id = 301 ∧ 16 ≤ v) ∨ (id = 302 ∧ 100 < v))) ∧
    (∃ s : State, ∃ u : State, ∃ t : Transport, ∃ id, ∃ v, s.mctpRuns t = true ∧ u = s.count Reg.mgmtMctpRxCnt ∧ u.mgmtServes = true ∧ ((id = 300 ∧ (v < 1400 ∨ 2400 < v)) ∨ (id = 301 ∧ 16 ≤ v) ∨ (id = 302 ∧ 100 < v))) ∧
    (∃ s : State, ∃ u : State, ∃ t : Transport, ∃ id, ∃ v : Nat, s.mctpRuns t = true ∧ u = s.count Reg.mgmtMctpRxCnt ∧ u.mgmtServes = true ∧ (id < 300 ∨ 302 < id)) ∧
    (∃ s : State, s.powered = true) := by
  refine ⟨⟨exOn, _, .i3c, 8, ?_, rfl, ?_, ?_⟩,
    ⟨exOn, _, .i3c, 255, ?_, rfl, ?_⟩,
    ⟨exOn, _, .i3c, 1, 4097, ?_, rfl, ?_⟩,
    ⟨exServe .start MgmtSt.reset, _, .i3c, 5, ?_, rfl, ?_, ?_, ?_⟩,
    ⟨exServe .start MgmtSt.reset, _, .i3c, ?_, rfl, ?_⟩,
    ⟨exServe .start MgmtSt.reset, _, .i3c, 1, ?_, rfl, ?_, ?_⟩,
    ⟨exServe .start MgmtSt.reset, _, .i3c, 199, ?_, rfl, ?_, ?_⟩,
    ⟨exServe .start MgmtSt.reset, _, .i3c, 127, ?_, rfl, ?_, ?_⟩,
    ⟨exServe .start MgmtSt.reset, _, .i3c, ?_, rfl, ?_⟩,
    ⟨exServe .start { MgmtSt.reset with queue := [(.i3c, .control 0)] }, _, .i3c, (.i3c, .control 0), ?_, rfl, ?_, ?_⟩,
    ⟨exServe .start MgmtSt.reset, _, .i3c, ?_, rfl, ?_, ?_⟩,
    ⟨exServe .start MgmtSt.reset, _, .i3c, 2400, ?_, rfl, ?_, ?_, ?_⟩,
    ⟨exServe .start MgmtSt.reset, _, .i3c, 100, ?_, rfl, ?_, ?_⟩,
    ⟨exServe .start MgmtSt.reset, _, .i3c, 301, 15, ?_, rfl, ?_, ?_⟩,
    ⟨exServe .start MgmtSt.reset, _, .i3c, 300, 1399, ?_, rfl, ?_, ?_⟩,
    ⟨exServe .start MgmtSt.reset, _, .i3c, 301, 16, ?_, rfl, ?_, ?_⟩,
    ⟨exServe .start MgmtSt.reset, _, .i3c, 302, 101, ?_, rfl, ?_, ?_⟩,
    ⟨exServe .start MgmtSt.reset, _, .i3c, 303, 0, ?_, rfl, ?_, ?_⟩,
    ⟨exOn, ?_⟩⟩ <;>
  first | with_reducible rfl | decide +kernel | exact stamps_of_check (by decide +kernel) | exact waits_of_check (by decide +kernel) | exact ⟨by decide +kernel, by decide +kernel, by decide +kernel, by decide +kernel⟩ | rfl

theorem wit_FirmwareIsUpdatedInTheOtherSlot :
    (∃ s : State, ∃ u : State, ∃ t : Transport, s.sec.step ≠ .recovery ∧ s.mctpRuns t = true ∧ u = s.count Reg.mgmtMctpRxCnt ∧ u.mgmtServes = true ∧ s.mgmt.update = none) ∧
    (∃ s : State, ∃ u : State, ∃ t : Transport, s.sec.step ≠ .recovery ∧ s.mctpRuns t = true ∧ u = s.count Reg.mgmtMctpRxCnt ∧ u.mgmtServes = true ∧ s.mgmt.update.isSome = true) ∧
    (∃ s : State, ∃ u : State, ∃ w : UpdateSt, ∃ chunk : Body, s.sec.step ≠ .recovery ∧ s.mgmt.update = some w ∧ s.mctpRuns w.t = true ∧ u = s.count Reg.mgmtMctpRxCnt ∧ u.mgmtServes = true ∧ chunk ≠ [] ∧ chunk.length = min 1024 (w.len - w.got.length)) ∧
    (∃ s : State, ∃ w : UpdateSt, s.powered = true ∧ s.mgmt.update = some w ∧ w.len ≤ w.got.length ∧ w.verified = none) ∧
    (∃ s : State, ∃ w : UpdateSt, Registers.wf s.regs = true ∧ s.powered = true ∧ s.mgmt.update = some w ∧ w.verified = some true ∧ w.applied = false) ∧
    (∃ s : State, ∃ u : State, ∃ w : UpdateSt, s.sec.step ≠ .recovery ∧ s.mctpRuns w.t = true ∧ u = s.count Reg.mgmtMctpRxCnt ∧ u.mgmtServes = true ∧ s.mgmt.update = some w ∧ w.applied = true) ∧
    (∃ s : State, ∃ u : State, ∃ w : UpdateSt, s.sec.step ≠ .recovery ∧ s.mctpRuns w.t = true ∧ u = s.count Reg.mgmtMctpRxCnt ∧ u.mgmtServes = true ∧ s.mgmt.update = some w ∧ w.applied = false) ∧
    (∃ s : State, ∃ u : State, ∃ w : UpdateSt, s.sec.step ≠ .recovery ∧ s.mctpRuns w.t = true ∧ u = s.count Reg.mgmtMctpRxCnt ∧ u.mgmtServes = true ∧ s.mgmt.update = some w ∧ w.applied = false) ∧
    (∃ s : State, ∃ w : UpdateSt, s.powered = true ∧ s.mgmt.update = some w ∧ w.got.length < w.len) := by
  refine ⟨⟨exServe .start MgmtSt.reset, _, .i3c, ?_, ?_, rfl, ?_, ?_⟩,
    ⟨exUpdating (exUpd [] none false), _, .i3c, ?_, ?_, rfl, ?_, ?_⟩,
    ⟨exUpdating (exUpd [] none false), _, exUpd [] none false, [1, 2], ?_, ?_, ?_, rfl, ?_, ?_, ?_⟩,
    ⟨exUpdating (exUpd [1, 2] none false), exUpd [1, 2] none false, ?_, ?_, ?_, ?_⟩,
    ⟨exUpdating (exUpd [1, 2] (some true) false), exUpd [1, 2] (some true) false, ?_, ?_, ?_, ?_, ?_⟩,
    ⟨exUpdating (exUpd [1, 2] (some true) true), _, exUpd [1, 2] (some true) true, ?_, ?_, rfl, ?_, ?_, ?_⟩,
    ⟨exUpdating (exUpd [] none false), _, exUpd [] none false, ?_, ?_, rfl, ?_, ?_, ?_⟩,
    ⟨exUpdating (exUpd [] none false), _, exUpd [] none false, ?_, ?_, rfl, ?_, ?_, ?_⟩,
    ⟨exUpdating (exUpd [] none false), exUpd [] none false, ?_, ?_, ?_⟩⟩ <;>
  first | with_reducible rfl | decide +kernel | exact stamps_of_check (by decide +kernel) | exact waits_of_check (by decide +kernel) | exact ⟨by decide +kernel, by decide +kernel, by decide +kernel, by decide +kernel⟩ | rfl

end Sys2Proof.Tests
end

section
/-! The rules of byte memory, of a counter and of a lagoon atomic that is carried out, for the statements of chapter 2. -/

namespace Sys2Proof.Machine

/-! ## Numbers as little-endian bytes -/

@[simp] theorem length_leBytes (n v : Nat) : (leBytes n v).length = n := by
  induction n generalizing v with
  | zero => rfl
  | succ n ih => simp [leBytes, ih]

theorem leNat_leBytes (n v : Nat) : leNat (leBytes n v) = v % 256 ^ n := by
  induction n generalizing v with
  | zero => simp [leBytes, leNat, Nat.mod_one]
  | succ n ih => rw [leBytes, leNat, ih, Nat.pow_succ', Nat.mod_mul, BitVec.toNat_ofNat]

/-! ## Byte memory: a read after a write -/

theorem State.byte_setByte_same {s : State} (h : Memory.wf s.mem = true) (a : Nat) (v : Byte) : (s.setByte a v).byte a = v :=
  mapGet_put_same (fun _ => 0) a v s.mem h

theorem State.byte_setByte_other (s : State) {a x : Nat} (v : Byte) (hx : x ≠ a) : (s.setByte a v).byte x = s.byte x :=
  mapGet_put_other 0 0 a x v s.mem hx

theorem State.setByte_memWf {s : State} (h : Memory.wf s.mem = true) (a : Nat) (v : Byte) : Memory.wf (s.setByte a v).mem = true :=
  mapPut_wf (fun _ => 0) a v s.mem h

theorem State.byte_setBytes_outside (s : State) (a : Nat) (bs : List Byte) {x : Nat} (hx : x < a ∨ a + bs.length ≤ x) :
    (s.setBytes a bs).byte x = s.byte x := by
  induction bs generalizing s a with
  | nil => rfl
  | cons b bs ih =>
    rw [List.length_cons] at hx
    rw [State.setBytes, ih (s.setByte a b) (a + 1) (by omega), State.byte_setByte_other s b (by omega)]

/-- Reading a range answers its first byte, then the rest. -/
theorem State.bytes_succ (s : State) (a n : Nat) : s.bytes a (n + 1) = s.byte a :: s.bytes (a + 1) n := by
  simp [State.bytes, List.range_succ_eq_map, Nat.add_assoc, Nat.add_comm 1]

theorem State.bytes_setBytes {s : State} (h : Memory.wf s.mem = true) (a : Nat) (bs : List Byte) :
    (s.setBytes a bs).bytes a bs.length = bs := by
  induction bs generalizing s a with
  | nil => rfl
  | cons b bs ih =>
    rw [List.length_cons, State.bytes_succ, State.setBytes, ih (State.setByte_memWf h a b),
      State.byte_setBytes_outside (s.setByte a b) (a + 1) bs (by omega), State.byte_setByte_same h]

theorem State.leNat_bytes_setBytes {s : State} (h : Memory.wf s.mem = true) (a n v : Nat) :
    leNat ((s.setBytes a (leBytes n v)).bytes a n) = v % 256 ^ n := by
  have hb := State.bytes_setBytes h a (leBytes n v)
  rw [length_leBytes] at hb
  rw [hb, leNat_leBytes]

/-! ## What a count and an output leave -/

@[simp] theorem State.byte_count (s : State) (a n x : Nat) : (s.count a n).byte x = s.byte x :=
  congrArg (mapGet 0 x) ((State.count_within s a n).same .mem (by decide))

@[simp] theorem State.byte_emit (s : State) (o : Out) (x : Nat) : (s.emit o).byte x = s.byte x := rfl

@[simp] theorem State.outbox_count (s : State) (a n : Nat) : (s.count a n).outbox = s.outbox :=
  (State.count_within s a n).same .outbox (by decide)

@[simp] theorem State.outbox_setBytes (s : State) (a : Nat) (bs : List Byte) : (s.setBytes a bs).outbox = s.outbox :=
  (State.setBytes_within s a bs).same .outbox (by decide)

/-! ## A lagoon atomic that is carried out (R54, R256) -/

/-- What the bank stores: the word that `f` gives for the old contents, where it gives one. -/
def State.atomicStore (s : State) (addr bytes : Nat) (f : Nat → Option Nat) : State :=
  match f (leNat (s.bytes addr bytes)) with
  | some v => s.setBytes addr (leBytes bytes v)
  | none => s

section
variable {s : State} {r : AtomicReq} {n : Nat} {f : Nat → Option Nat}

/-- An atomic that is neither refused nor met by a fence stores, counts and returns the old contents. -/
theorem State.atomic_carried (hp : s.powered = true) (hr : s.atomicRefusal r n = none)
    (hf : s.flt.islands.contains ((r.addr - 0x100000000000) / 2 ^ 21) = false) :
    s.atomic r n f = ((s.atomicStore r.addr n f).count (Reg.lagoonAtomicCnt ((r.addr - 0x100000000000) / 2 ^ 21 / 128))).emit
      (.atomicOld r.islet (leNat (s.bytes r.addr n))) := by
  unfold State.atomic
  simp only [hp, hr, hf, Bool.not_true, Bool.false_eq_true, if_false]
  rfl

theorem State.atomicStore_some {v : Nat} {a : Nat} (hv : f (leNat (s.bytes a n)) = some v) :
    s.atomicStore a n f = s.setBytes a (leBytes n v) := by
  rw [State.atomicStore, hv]

theorem State.atomicStore_none {a : Nat} (hv : f (leNat (s.bytes a n)) = none) : s.atomicStore a n f = s := by
  rw [State.atomicStore, hv]

@[simp] theorem State.outbox_atomicStore (a : Nat) : (s.atomicStore a n f).outbox = s.outbox := by
  unfold State.atomicStore
  split
  · exact State.outbox_setBytes ..
  · rfl

theorem State.byte_atomicStore_outside {a x : Nat} (hx : x < a ∨ a + n ≤ x) : (s.atomicStore a n f).byte x = s.byte x := by
  unfold State.atomicStore
  split
  · exact State.byte_setBytes_outside s a _ (by rwa [length_leBytes])
  · rfl

/-- The bytes after an atomic that is carried out are those its bank stored. -/
theorem State.byte_atomic_carried (hp : s.powered = true) (hr : s.atomicRefusal r n = none)
    (hf : s.flt.islands.contains ((r.addr - 0x100000000000) / 2 ^ 21) = false) (x : Nat) :
    (s.atomic r n f).byte x = (s.atomicStore r.addr n f).byte x := by
  rw [State.atomic_carried hp hr hf, State.byte_emit, State.byte_count]

theorem State.outbox_atomic_carried (hp : s.powered = true) (hr : s.atomicRefusal r n = none)
    (hf : s.flt.islands.contains ((r.addr - 0x100000000000) / 2 ^ 21) = false) :
    (s.atomic r n f).outbox = s.outbox ++ [.atomicOld r.islet (leNat (s.bytes r.addr n))] := by
  rw [State.atomic_carried hp hr hf, State.emit_outbox, State.outbox_count, State.outbox_atomicStore]

theorem State.bytes_congr {s t : State} (h : ∀ x, t.byte x = s.byte x) (a n : Nat) : t.bytes a n = s.bytes a n := by
  simp only [State.bytes, h]

/-- The word at the address of an atomic that is carried out and stores `v`. -/
theorem State.leNat_bytes_atomic_carried (hm : Memory.wf s.mem = true) (hp : s.powered = true) (hr : s.atomicRefusal r n = none)
    (hf : s.flt.islands.contains ((r.addr - 0x100000000000) / 2 ^ 21) = false) {v : Nat}
    (hv : f (leNat (s.bytes r.addr n)) = some v) : leNat ((s.atomic r n f).bytes r.addr n) = v % 256 ^ n := by
  rw [State.bytes_congr (State.byte_atomic_carried hp hr hf), State.atomicStore_some hv, State.leNat_bytes_setBytes hm]

end

/-! ## Compare-and-swap (R57) -/

/-- The word that compare-and-swap of `n` bytes stores for the old contents `old`, if any. -/
def swapWord (n expected new old : Nat) : Option Nat := if old = expected then some (new % 2 ^ (8 * n)) else none

theorem exec_compareAndSwap (r : AtomicReq) (wide : Bool) (expected new : Nat) (s : State) :
    exec (.compareAndSwap r wide expected new) s =
      .next (s.atomic r (if wide then 8 else 4) (swapWord (if wide then 8 else 4) expected new)) := by
  cases wide <;> rfl

/-- Settles O30: the atomic is carried out at its bank, and the bank stores the new word exactly where the old one is the expected one. -/
theorem compareAndSwapComparesBits : Obligations.CompareAndSwapComparesBits := by
  unfold Obligations.CompareAndSwapComparesBits
  intro s r wide expected new n hn hp hr hf hm
  have hpow : 2 ^ (8 * n) = 256 ^ n := by rw [Nat.pow_mul]
  refine ⟨s.atomic r n (swapWord n expected new), ?_, State.outbox_atomic_carried hp hr hf, fun heq => ?_, fun hne x => ?_,
    fun x hx => ?_⟩
  · rw [exec_compareAndSwap, ← hn]
  · rw [State.leNat_bytes_atomic_carried hm hp hr hf (if_pos heq), hpow, Nat.mod_mod]
  · rw [State.byte_atomic_carried hp hr hf, State.atomicStore_none (if_neg hne)]
  · rw [State.byte_atomic_carried hp hr hf, State.byte_atomicStore_outside hx]

end Sys2Proof.Machine
end

section
/-! The vector unit (R50 to R53): what one operation leaves, and the six-stage tree across the lanes. -/

namespace Sys2Proof.Machine

/-! ## Islets and vector registers: a read after a write -/

theorem State.islet_islet (s : State) (i : Nat) : (s.islet i).islet = i := by
  unfold State.islet
  cases h : s.ar.islets.find? (fun x => x.islet == i) with
  | none => rfl
  | some x => simpa using List.find?_some h

section
variable {α : Type} (key : α → Nat) (l : List α)

/-- In a list kept by keys, the entry that replaced those of its key is the one found under it. -/
theorem find?_replaced_same {d : Nat} {e : α} (he : key e = d) :
    (l.filter (fun y => key y != d) ++ [e]).find? (fun y => key y == d) = some e := by
  have hnone : (l.filter (fun y => key y != d)).find? (fun y => key y == d) = none := by simp
  rw [List.find?_append, hnone, List.find?_singleton]
  simp [he]

/-- Under any other key the entry is found that stood there. -/
theorem find?_replaced_other {d k : Nat} {e : α} (he : key e = d) (hk : k ≠ d) :
    (l.filter (fun y => key y != d) ++ [e]).find? (fun y => key y == k) = l.find? (fun y => key y == k) := by
  have hkey : ∀ y, decide ((key y != d) = true ∧ (key y == k) = true) = (key y == k) := by
    intro y
    by_cases hy : key y = k <;> simp [hy, hk]
  simp only [List.find?_append, List.find?_filter, List.find?_singleton, hkey, he]
  rw [if_neg (by simpa using Ne.symm hk), Option.or_none]

end

theorem State.islet_putIslet {x : IsletSt} {i : Nat} (s : State) (hx : x.islet = i) : (s.putIslet x).islet i = x := by
  subst hx
  rw [State.islet, State.putIslet_ar, find?_replaced_same IsletSt.islet s.ar.islets rfl, Option.getD_some]

theorem State.islet_of_ar_eq {s t : State} (h : t.ar = s.ar) (i : Nat) : t.islet i = s.islet i := by
  rw [State.islet, State.islet, h]

/-- An islet's state after `lanes` went to vector register `d`. -/
def IsletSt.setVreg (x : IsletSt) (d : Nat) (lanes : List Nat) : IsletSt :=
  { x with vregs := x.vregs.filter (fun e => e.1 != d) ++ [(d, lanes)] }

@[simp] theorem IsletSt.vregs_setVreg (x : IsletSt) (d : Nat) (lanes : List Nat) :
    (x.setVreg d lanes).vregs = x.vregs.filter (fun e => e.1 != d) ++ [(d, lanes)] := rfl

@[simp] theorem IsletSt.vreg_setVreg_same (x : IsletSt) (d : Nat) (lanes : List Nat) : (x.setVreg d lanes).vreg d = lanes := by
  rw [IsletSt.vreg, IsletSt.vregs_setVreg, find?_replaced_same Prod.fst x.vregs (d := d) (e := (d, lanes)) rfl]

theorem IsletSt.vreg_setVreg_other (x : IsletSt) {d e : Nat} (lanes : List Nat) (he : e ≠ d) : (x.setVreg d lanes).vreg e = x.vreg e := by
  rw [IsletSt.vreg, IsletSt.vregs_setVreg, find?_replaced_other Prod.fst x.vregs (d := d) (e := (d, lanes)) rfl he, ← IsletSt.vreg]

/-! ## What a count and a store of lanes leave -/

theorem State.rd_count_other (s : State) {a x : Nat} (n : Nat) (hx : x ≠ a) : (s.count a n).rd x = s.rd x := by
  unfold State.count
  split
  · exact congrArg BitVec.toNat (mapGet_put_other (resetWord a) (resetWord x) a x _ s.regs hx)
  · rfl

@[simp] theorem State.ar_count (s : State) (a n : Nat) : (s.count a n).ar = s.ar := (State.count_within s a n).same .ar (by decide)

theorem length_flatMap_leBytes (k : Nat) (lanes : List Nat) : (lanes.flatMap (leBytes k)).length = k * lanes.length := by
  simp [List.length_flatMap, Nat.mul_comm]

/-- What an operation of the vector unit leaves on islet `i`: registers and operations in `x`, every register but the two counters, and
the bytes that `out` holds of. -/
structure VectorFrame (s : State) (i : Nat) (x : IsletSt) (out : Nat → Prop) (t : State) : Prop where
  vregs : (t.islet i).vregs = x.vregs
  ops : (t.islet i).ops = x.ops
  rd : ∀ a, a ≠ Reg.arithNanCnt (isletDie i) → a ≠ Reg.arithLockWaitCnt (isletDie i) → t.rd a = s.rd a
  byte : ∀ a, out a → t.byte a = s.byte a

namespace VectorFrame

variable {s t : State} {i : Nat} {x : IsletSt} {out : Nat → Prop}

theorem count (h : VectorFrame s i x out t) {c : Nat} (hc : c = Reg.arithNanCnt (isletDie i) ∨ c = Reg.arithLockWaitCnt (isletDie i))
    (n : Nat) : VectorFrame s i x out (t.count c n) where
  vregs := by rw [State.islet_of_ar_eq (State.ar_count t c n), h.vregs]
  ops := by rw [State.islet_of_ar_eq (State.ar_count t c n), h.ops]
  rd a hn hl := by rw [State.rd_count_other t n (by rcases hc with rfl | rfl <;> assumption), h.rd a hn hl]
  byte a ha := by rw [State.byte_count, h.byte a ha]

theorem putIslet (h : VectorFrame s i x out t) {y : IsletSt} (hi : y.islet = i) (hv : y.vregs = x.vregs) (ho : y.ops = x.ops) :
    VectorFrame s i x out (t.putIslet y) where
  vregs := by rw [State.islet_putIslet t hi, hv]
  ops := by rw [State.islet_putIslet t hi, ho]
  rd := h.rd
  byte := h.byte

theorem setBytes (h : VectorFrame s i x out t) {b : Nat} {bs : List Byte} (hb : ∀ a, out a → a < b ∨ b + bs.length ≤ a) :
    VectorFrame s i x out (t.setBytes b bs) where
  vregs := by rw [State.islet_of_ar_eq ((State.setBytes_within t b bs).same .ar (by decide)), h.vregs]
  ops := by rw [State.islet_of_ar_eq ((State.setBytes_within t b bs).same .ar (by decide)), h.ops]
  rd a hn hl := by
    have hr : (t.setBytes b bs).rd a = t.rd a :=
      congrArg (fun m => (mapGet (resetWord a) a m).toNat) ((State.setBytes_within t b bs).same .regs (by decide))
    rw [hr, h.rd a hn hl]
  byte a ha := by rw [State.byte_setBytes_outside t b bs (hb a ha), h.byte a ha]

/-- A store outside islet memory does nothing, one to a locked range waits and is counted, any other stores (R33). -/
theorem vectorStore (h : VectorFrame s i x out t) {off : Nat} {lanes : List Nat}
    (hb : ∀ a, out a → a < t0Addr i off ∨ t0Addr i off + 4 * lanes.length ≤ a) : VectorFrame s i x out (t.vectorStore i off lanes) := by
  unfold State.vectorStore
  extract_lets b
  split
  · exact h
  · split
    · exact (h.putIslet (y := { t.islet i with vwaits := (t.islet i).vwaits ++ [(off, b)] }) (State.islet_islet t i) h.vregs h.ops).count
        (.inr rfl) 1
    · exact h.setBytes (by rwa [length_flatMap_leBytes])

end VectorFrame

/-! ## One operation -/

/-- The generators of the 64 lanes. -/
def laneGens (v : VecOp) : List Nat := (List.range 64).map (genState v.seed)

/-- The rounding bits of lane `l`: to nearest, or the first draw of the lane's own generator (R40, R41). -/
def laneRnd (v : VecOp) (l : Nat) : RndBits :=
  match v.rnd with
  | .rne => .near
  | .sr => .stoch (draw16 ((laneGens v).getD l 1)).1

theorem laneRnd_of_lt (v : VecOp) {l : Nat} (hl : l < 64) : laneRnd v l = match v.rnd with
    | .rne => .near
    | .sr => .stoch (draw16 (genState v.seed l)).1 := by
  simp [laneRnd, laneGens, hl]

/-- One addition of the tree: the rounded sum, and the generator after its draw. -/
def treeAdd (v : VecOp) (p q g : Nat) : Nat × Nat :=
  match v.rnd with
  | .rne => (fAdd p q, g)
  | .sr => (fp32Fmt.encode ((f32 p).add (f32 q)) (.stoch (draw16 g).1) .toInf, (draw16 g).2)

/-- The lanes that an operation writes to its destination. -/
def IsletSt.vectorResult (x : IsletSt) (v : VecOp) : List Nat :=
  match v.kind with
  | .reduceSum => laneTree (treeAdd v) (x.vreg v.a) (laneGens v)
  | .reduceMax => laneTree (fun p q g => (if fLt p q then q else p, g)) (x.vreg v.a) (laneGens v)
  | .reduceMin => laneTree (fun p q g => (if fLt q p then q else p, g)) (x.vreg v.a) (laneGens v)
  | k => (List.range 64).map (fun l => laneOp k ((x.vreg v.a).getD l 0) ((x.vreg v.b).getD l 0) ((x.vreg v.c).getD l 0) (laneRnd v l))

/-- The state after the result went to its register, and to islet memory where the operation stores it. -/
def State.vectorStored (s : State) (i : Nat) (v : VecOp) : State :=
  let t := s.putIslet ((s.islet i).setVreg v.d ((s.islet i).vectorResult v))
  match v.store with
  | some off => t.vectorStore i off ((s.islet i).vectorResult v)
  | none => t

theorem exec_vectorOp {s : State} {i : Nat} {v : VecOp} (hp : s.powered = true) (hf : s.isletFenced i = false) :
    exec (.vectorOp i v) s = .next (if nanConversions v.kind ((s.islet i).vreg v.a) > 0 then
      (s.vectorStored i v).count (Reg.arithNanCnt (isletDie i)) (nanConversions v.kind ((s.islet i).vreg v.a)) else s.vectorStored i v) := by
  have hrun : (!s.powered || s.isletFenced i) = false := by rw [hp, hf]; rfl
  change execVectorOp i v s = _
  unfold execVectorOp
  simp only [hrun, Bool.false_eq_true, if_false]
  rfl

/-- What a vector operation leaves: its result stands in its register, and beside the bytes of a stored result all is as it was. -/
theorem State.vectorOp_frame {s : State} {i : Nat} {v : VecOp} (hp : s.powered = true) (hf : s.isletFenced i = false) :
    ∃ t, exec (.vectorOp i v) s = .next t ∧ VectorFrame s i ((s.islet i).setVreg v.d ((s.islet i).vectorResult v))
      (fun x => ∀ off, v.store = some off → x < t0Addr i off ∨ t0Addr i off + 4 * ((s.islet i).vectorResult v).length ≤ x) t := by
  set res := (s.islet i).vectorResult v with hres
  refine ⟨_, exec_vectorOp hp hf, ?_⟩
  have hput : VectorFrame s i ((s.islet i).setVreg v.d res)
      (fun x => ∀ off, v.store = some off → x < t0Addr i off ∨ t0Addr i off + 4 * res.length ≤ x)
      (s.putIslet ((s.islet i).setVreg v.d res)) := by
    have hi : (s.putIslet ((s.islet i).setVreg v.d res)).islet i = (s.islet i).setVreg v.d res :=
      State.islet_putIslet s (State.islet_islet s i)
    exact ⟨by rw [hi], by rw [hi], fun _ _ _ => rfl, fun _ _ => rfl⟩
  have hstored : VectorFrame s i ((s.islet i).setVreg v.d res)
      (fun x => ∀ off, v.store = some off → x < t0Addr i off ∨ t0Addr i off + 4 * res.length ≤ x) (s.vectorStored i v) := by
    unfold State.vectorStored
    split
    · next off hoff => exact hput.vectorStore fun a ha => ha off hoff
    · exact hput
  split
  · exact hstored.count (.inl rfl) _
  · exact hstored

/-! ## The tree (R53) -/

/-- One stage of the tree: the lanes below `w` take the lanes `w` above them, each with its generator. -/
def laneStage (f : Nat → Nat → Nat → Nat × Nat) (w : Nat) (acc : List Nat × List Nat) : List Nat × List Nat :=
  let res := (List.range w).map (fun l => f (acc.1.getD l 0) (acc.1.getD (l + w) 0) (acc.2.getD l 1))
  (acc.1.mapIdx (fun l x => if l < w then (res.getD l (x, 0)).1 else x), acc.2.mapIdx (fun l g => if l < w then (res.getD l (0, g)).2 else g))

theorem laneTree_eq_foldl (f : Nat → Nat → Nat → Nat × Nat) (lanes gens : List Nat) :
    laneTree f lanes gens = ([32, 16, 8, 4, 2, 1].foldl (fun acc w => laneStage f w acc) (lanes, gens)).1 := rfl

/-- The value and the generator of lane `l` after `n` stages. -/
def laneAfter (f : Nat → Nat → Nat → Nat × Nat) (lanes gens : List Nat) : Nat → Nat → Nat × Nat
  | 0, l => (lanes.getD l 0, gens.getD l 1)
  | n + 1, l => f (laneAfter f lanes gens n l).1 (laneAfter f lanes gens n (l + 2 ^ (5 - n))).1 (laneAfter f lanes gens n l).2

/-- The first `w` lanes and generators are those of `p`. -/
structure LanesAre (w : Nat) (acc : List Nat × List Nat) (p : Nat → Nat × Nat) : Prop where
  lanes : w ≤ acc.1.length
  gens : w ≤ acc.2.length
  val : ∀ l, l < w → acc.1.getD l 0 = (p l).1
  gen : ∀ l, l < w → acc.2.getD l 1 = (p l).2

theorem LanesAre.stage {f : Nat → Nat → Nat → Nat × Nat} {w : Nat} {acc : List Nat × List Nat} {p : Nat → Nat × Nat}
    (h : LanesAre (w + w) acc p) : LanesAre w (laneStage f w acc) (fun l => f (p l).1 (p (l + w)).1 (p l).2) := by
  obtain ⟨hl, hg, hv, hgen⟩ := h
  refine ⟨by simp [laneStage]; omega, by simp [laneStage]; omega, fun l hlw => ?_, fun l hlw => ?_⟩
  · rw [← hv l (by omega), ← hv (l + w) (by omega), ← hgen l (by omega)]
    have hlen : l < acc.1.length := by omega
    simp [laneStage, hlw, hlen]
  · rw [← hv l (by omega), ← hv (l + w) (by omega), ← hgen l (by omega)]
    have hlen : l < acc.2.length := by omega
    simp [laneStage, hlw, hlen]

/-- Six stages over 64 lanes end in lane 0. -/
theorem laneTree_getD_zero (f : Nat → Nat → Nat → Nat × Nat) {lanes gens : List Nat} (hl : lanes.length = 64) (hg : gens.length = 64) :
    (laneTree f lanes gens).getD 0 0 = (laneAfter f lanes gens 6 0).1 := by
  have h0 : LanesAre 64 (lanes, gens) (laneAfter f lanes gens 0) := ⟨hl.ge, hg.ge, fun _ _ => rfl, fun _ _ => rfl⟩
  have h6 := ((((((h0.stage (f := f) (w := 32)).stage (f := f) (w := 16)).stage (f := f) (w := 8)).stage (f := f) (w := 4)).stage
    (f := f) (w := 2)).stage (f := f) (w := 1))
  exact h6.val 0 (by decide)

/-- A tree that leaves the generators alone gives lane by lane what `laneAt` says. -/
theorem laneAfter_fst_eq_laneAt (f : Nat → Nat → Nat) (lanes gens : List Nat) (n l : Nat) :
    (laneAfter (fun p q g => (f p q, g)) lanes gens n l).1 = laneAt f lanes n l := by
  induction n generalizing l with
  | zero => rfl
  | succ n ih => simp [laneAfter, laneAt, ih]

theorem laneAfter_treeAdd_sr {v : VecOp} (hr : v.rnd = .sr) (lanes gens : List Nat) (n l : Nat) :
    laneAfter (treeAdd v) lanes gens n l = laneSumSr lanes gens n l := by
  induction n generalizing l with
  | zero => rfl
  | succ n ih => simp [laneAfter, laneSumSr, treeAdd, hr, ih]

theorem treeAdd_of_rne {v : VecOp} (hr : v.rnd = .rne) : treeAdd v = fun p q g => (fAdd p q, g) := by
  funext p q g
  rw [treeAdd, hr]

@[simp] theorem length_laneGens (v : VecOp) : (laneGens v).length = 64 := by simp [laneGens]

@[simp] theorem length_laneTree (f : Nat → Nat → Nat → Nat × Nat) (lanes gens : List Nat) :
    (laneTree f lanes gens).length = lanes.length := by
  simp [laneTree]

/-! ## The results of one operation -/

namespace IsletSt

variable {x : IsletSt} {v : VecOp}

theorem vectorResult_of_lane_kind (hk : v.kind ∉ [.reduceSum, .reduceMax, .reduceMin]) : x.vectorResult v = (List.range 64).map (fun l =>
    laneOp v.kind ((x.vreg v.a).getD l 0) ((x.vreg v.b).getD l 0) ((x.vreg v.c).getD l 0) (match v.rnd with
      | .rne => .near
      | .sr => .stoch (draw16 (genState v.seed l)).1)) := by
  have hlanes : x.vectorResult v = (List.range 64).map (fun l =>
      laneOp v.kind ((x.vreg v.a).getD l 0) ((x.vreg v.b).getD l 0) ((x.vreg v.c).getD l 0) (laneRnd v l)) := by
    unfold vectorResult
    split <;> simp_all
  rw [hlanes]
  exact List.map_congr_left fun l hl => congrArg (laneOp _ _ _ _) (laneRnd_of_lt v (List.mem_range.1 hl))

theorem vectorResult_iadd (hk : v.kind = .iadd) {l : Nat} (hl : l < 64) :
    (x.vectorResult v).getD l 0 = ((x.vreg v.a).getD l 0 + (x.vreg v.b).getD l 0) % 2 ^ 32 := by
  rw [vectorResult_of_lane_kind (by simp [hk]), hk]
  simp [laneOp, hl]

theorem vectorResult_reduceSum_rne (hlen : (x.vreg v.a).length = 64) (hk : v.kind = .reduceSum) (hr : v.rnd = .rne) :
    (x.vectorResult v).getD 0 0 = laneAt fAdd (x.vreg v.a) 6 0 := by
  rw [vectorResult, hk]
  change (laneTree _ _ _).getD 0 0 = _
  rw [laneTree_getD_zero _ hlen (length_laneGens v), treeAdd_of_rne hr, laneAfter_fst_eq_laneAt]

theorem vectorResult_reduceSum_sr (hlen : (x.vreg v.a).length = 64) (hk : v.kind = .reduceSum) (hr : v.rnd = .sr) :
    (x.vectorResult v).getD 0 0 = (laneSumSr (x.vreg v.a) (laneGens v) 6 0).1 := by
  rw [vectorResult, hk]
  change (laneTree _ _ _).getD 0 0 = _
  rw [laneTree_getD_zero _ hlen (length_laneGens v), laneAfter_treeAdd_sr hr]

theorem vectorResult_reduceMax (hlen : (x.vreg v.a).length = 64) (hk : v.kind = .reduceMax) :
    (x.vectorResult v).getD 0 0 = laneAt (fun p q => if fLt p q then q else p) (x.vreg v.a) 6 0 := by
  rw [vectorResult, hk]
  change (laneTree _ _ _).getD 0 0 = _
  rw [laneTree_getD_zero _ hlen (length_laneGens v), laneAfter_fst_eq_laneAt]

theorem vectorResult_reduceMin (hlen : (x.vreg v.a).length = 64) (hk : v.kind = .reduceMin) :
    (x.vectorResult v).getD 0 0 = laneAt (fun p q => if fLt q p then q else p) (x.vreg v.a) 6 0 := by
  rw [vectorResult, hk]
  change (laneTree _ _ _).getD 0 0 = _
  rw [laneTree_getD_zero _ hlen (length_laneGens v), laneAfter_fst_eq_laneAt]

/-- No result is longer than the 64 lanes or the register that a reduction reads. -/
theorem length_vectorResult_le (hlen : (x.vreg v.a).length ≤ 64) : (x.vectorResult v).length ≤ 64 := by
  unfold vectorResult
  split <;> simp [hlen]

end IsletSt

/-- Everything but the value of a result, where the register that is read has at most the 64 lanes of R50. -/
theorem vectorOp_leaves_of_length_le {s : State} {i : Nat} {v : VecOp} (hp : s.powered = true) (hf : s.isletFenced i = false)
    (hlen : ((s.islet i).vreg v.a).length ≤ 64) : ∃ t, exec (.vectorOp i v) s = .next t ∧
      (t.islet i).vreg v.d = (s.islet i).vectorResult v ∧ (∀ d, d ≠ v.d → (t.islet i).vreg d = (s.islet i).vreg d) ∧
      (t.islet i).ops = (s.islet i).ops ∧
      (∀ a, a ≠ Reg.arithNanCnt (isletDie i) → a ≠ Reg.arithLockWaitCnt (isletDie i) → t.rd a = s.rd a) ∧
      ∀ x, (∀ off, v.store = some off → x < t0Addr i off ∨ t0Addr i off + 256 ≤ x) → t.byte x = s.byte x := by
  obtain ⟨t, ht, hvregs, hops, hrd, hbyte⟩ := State.vectorOp_frame hp hf
  have hvreg : ∀ d, (t.islet i).vreg d = ((s.islet i).setVreg v.d ((s.islet i).vectorResult v)).vreg d := by
    intro d
    rw [IsletSt.vreg, hvregs, ← IsletSt.vreg]
  refine ⟨t, ht, ?_, fun d hd => ?_, hops, hrd, fun x hx => hbyte x fun off hoff => ?_⟩
  · rw [hvreg, IsletSt.vreg_setVreg_same]
  · rw [hvreg, IsletSt.vreg_setVreg_other _ _ hd]
  · have h64 := IsletSt.length_vectorResult_le hlen
    have hout := hx off hoff
    omega

/-- Refutes O29: its first clause bounds the bytes that any operation stores by 256 in every state, also where the register that a
reduction reads holds more than 64 lanes; the stored result is then as long as that register. Here lane 64 of register 0 is 1, and
the store of its maximum at offset 0 changes byte 256. With at most 64 lanes that clause holds (`vectorOp_leaves_of_length_le`), and
the lanes' values are those the other clauses state (`IsletSt.vectorResult_of_lane_kind` and the lemmas after it). -/
theorem not_laneReductionsFollowTheTree : ¬ Obligations.LaneReductionsFollowTheTree := by
  unfold Obligations.LaneReductionsFollowTheTree
  rintro ⟨hany, -⟩
  obtain ⟨t, ht, -, -, -, -, hbyte⟩ := hany
    { State.reset with ar := { State.reset.ar with islets := [{ isletZero 0 with vregs := [(0, List.replicate 64 0 ++ [1])] }] } } 0
    { kind := .reduceMax, a := 0, b := 0, c := 0, d := 1, rnd := .rne, seed := 0, store := some 0 } rfl rfl
  obtain rfl := Host.Outcome.next.inj ht
  have h256 := hbyte (t0Addr 0 0 + 256) fun off hoff => by
    obtain rfl := Option.some.inj hoff
    exact .inr (Nat.le_refl _)
  exact absurd h256 (by decide +kernel)

end Sys2Proof.Machine
end

section
/-! What a thermal trip leaves, and which commands start a power-up after it, for the statements of chapter 15. -/

namespace Sys2Proof

/-- The commands that do nothing while the main domains are off: accesses to registers on any path, what READY rises bring, and the
loops and events of the powered device. -/
def Instr.needsMainPower : Instr → Bool
  | .registerWrite .. | .localReset .. | .localResetDone .. | .blkIrqSet .. | .devtimeLoRead .. | .parCfgWrite .. |
    .spillCfgWrite .. | .funcCfgWrite .. | .funcReset .. | .regRd .. | .regWr .. | .bar2Access .. | .sqTailWrite .. |
    .cqHeadWrite .. | .pathClear .. | .portTrainDone .. | .trainFail .. | .portCfgWrite .. | .rearm .. | .valveTick .. |
    .fence .. | .readmit .. | .clearList .. | .svnCommit .. | .eraseAll .. | .unlockGo .. | .registerMessageRead .. |
    .registerMessageWrite .. | .effecterWrite .. | .mapJournalReplayed .. | .capTick .. | .quiesceDone .. |
    .commandEngineReady .. | .pcieLinkUp .. => true
  | _ => false

/-- The commands that may start a power-up, or note a wake event for one, while EVENTS.TRIP is set (R387, R389). -/
def Instr.wakesAfterTrip : Instr → Bool
  | .debounceExpire .. | .wakeHoldExpire .. | .i3cAddressMatch .. | .brownout .. => true
  | _ => false

theorem Instr.wakesAfterTrip_iff {i : Instr} : i.wakesAfterTrip = true ↔
    (∃ k, i = .debounceExpire k) ∨ i = .wakeHoldExpire ∨ i = .i3cAddressMatch ∨ i = .brownout := by
  unfold Instr.wakesAfterTrip
  split <;> simp_all

end Sys2Proof

namespace Sys2Proof.Machine

/-! ## Commands outside the power and pin commands leave the power state -/

theorem exec_pwr_of_not_changesPower {i : Instr} {s t : State} (hi : i.changesPower = false) (h : exec i s = .next t) :
    t.pwr = s.pwr := by
  cases i
  case eventsClear => exact (execEventsClear_within h).pwr
  case straitTransfer => exact (execStraitTransfer_within h).pwr
  case matrixOpIssue => exact (execMatrixOpIssue_within h).pwr
  case matrixPassEnd => exact (execMatrixPassEnd_within h).pwr
  case matrixOpComplete => exact (execMatrixOpComplete_within h).pwr
  case vectorOp => exact (execVectorOp_within h).pwr
  case atomicAdd => exact (execAtomicAdd_within h).pwr
  case atomicMax => exact (execAtomicMax_within h).pwr
  case atomicMin => exact (execAtomicMin_within h).pwr
  case compareAndSwap => exact (execCompareAndSwap_within h).pwr
  case dbgHalt => exact (execDbgHalt_within h).pwr
  case dbgDataRead => exact (execDbgDataRead_within h).pwr
  case indexLoad => exact (execIndexLoad_within h).pwr
  case indexImageCopied => exact (execIndexImageCopied_within h).pwr
  case centroidCopyBuilt => exact (execCentroidCopyBuilt_within h).pwr
  case indexSave => exact (execIndexSave_within h).pwr
  case indexSaveDone => exact (execIndexSaveDone_within h).pwr
  case indexUnload => exact (execIndexUnload_within h).pwr
  case indexUnloadDone => exact (execIndexUnloadDone_within h).pwr
  case indexCompact => exact (execIndexCompact_within h).pwr
  case search => exact (execSearch_within h).pwr
  case ingressStamp => exact (execIngressStamp_within h).pwr
  case boundaryMarker => exact (execBoundaryMarker_within h).pwr
  case probeSelectionDone => exact (execProbeSelectionDone_within h).pwr
  case setSeal => exact (execSetSeal_within h).pwr
  case setScanStart => exact (execSetScanStart_within h).pwr
  case setScanDone => exact (execSetScanDone_within h).pwr
  case setReportDone => exact (execSetReportDone_within h).pwr
  case queryRoundMerged => exact (execQueryRoundMerged_within h).pwr
  case rerankDone => exact (execRerankDone_within h).pwr
  case searchComplete => exact (execSearchComplete_within h).pwr
  case mutate => exact (execMutate_within h).pwr
  case mutateStaging => exact (execMutateStaging_within h).pwr
  case epochMark => exact (execEpochMark_within h).pwr
  case epochReport => exact (execEpochReport_within h).pwr
  case compactPassStart => exact (execCompactPassStart_within h).pwr
  case topk => exact (execTopk_within h).pwr
  case merge => exact (execMerge_within h).pwr
  case selectPieceDone => exact (execSelectPieceDone_within h).pwr
  case selectComplete => exact (execSelectComplete_within h).pwr
  case pageChoiceDone => exact (execPageChoiceDone_within h).pwr
  case recomputeDone => exact (execRecomputeDone_within h).pwr
  case attnSplitDone => exact (execAttnSplitDone_within h).pwr
  case attnMerge => exact (execAttnMerge_within h).pwr
  case kvAppend => exact (execKvAppend_within h).pwr
  case mirrorAck => exact (execMirrorAck_within h).pwr
  case attnBackward => exact (execAttnBackward_within h).pwr
  case spillDurable => exact (execSpillDurable_within h).pwr
  case t3PageReadDone => exact (execT3PageReadDone_within h).pwr
  case promotionDone => exact (execPromotionDone_within h).pwr
  case relocationCopyDone => exact (execRelocationCopyDone_within h).pwr
  case holdExpire => exact (execHoldExpire_within h).pwr
  case config => exact (execConfig_within h).pwr
  case prefetch => exact (execPrefetch_within h).pwr
  case spill => exact (execSpill_within h).pwr
  case modelLoad => exact (execModelLoad_within h).pwr
  case modelUnload => exact (execModelUnload_within h).pwr
  case seqOpen => exact (execSeqOpen_within h).pwr
  case seqClose => exact (execSeqClose_within h).pwr
  case step => exact (execStep_within h).pwr
  case weightTileLanded => exact (execWeightTileLanded_within h).pwr
  case swap => exact (execSwap_within h).pwr
  case handleReturn => exact (execHandleReturn_within h).pwr
  case taskDispatch => exact (execTaskDispatch_within h).pwr
  case taskAge => exact (execTaskAge_within h).pwr
  case taskEnd => exact (execTaskEnd_within h).pwr
  case stepCommit => exact (execStepCommit_within h).pwr
  case weightRepairDone => exact (execWeightRepairDone_within h).pwr
  case mcastAck => exact (execMcastAck_within h).pwr
  case alloc => exact (execAlloc_within h).pwr
  case allocZeroed => exact (execAllocZeroed_within h).pwr
  case free => exact (execFree_within h).pwr
  case move => exact (execMove_within h).pwr
  case moveCopyDone => exact (execMoveCopyDone_within h).pwr
  case promote => exact (execPromote_within h).pwr
  case evict => exact (execEvict_within h).pwr
  case share => exact (execShare_within h).pwr
  case unshare => exact (execUnshare_within h).pwr
  case parityDeltaAck => exact (execParityDeltaAck_within h).pwr
  case lineRebuild => exact (execLineRebuild_within h).pwr
  case dramScrubRead => exact (execDramScrubRead_within h).pwr
  case granuleRetire => exact (execGranuleRetire_within h).pwr
  case stackThermalTick => exact (execStackThermalTick_within h).pwr
  case lateRead => exact (execLateRead_within h).pwr
  case ferryArm => exact (execFerryArm_within h).pwr
  case ferryGenerationStart => exact (execFerryGenerationStart_within h).pwr
  case ferryGenerationDone => exact (execFerryGenerationDone_within h).pwr
  case flashReadDone => exact (execFlashReadDone_within h).pwr
  case stripeRebuild => exact (execStripeRebuild_within h).pwr
  case flashWriteDurable => exact (execFlashWriteDurable_within h).pwr
  case stripeCloseTimeout => exact (execStripeCloseTimeout_within h).pwr
  case gcStep => exact (execGcStep_within h).pwr
  case wearLevelMove => exact (execWearLevelMove_within h).pwr
  case readDisturbRelocate => exact (execReadDisturbRelocate_within h).pwr
  case moveMapSwitch => exact (execMoveMapSwitch_within h).pwr
  case flashScrubRead => exact (execFlashScrubRead_within h).pwr
  case flashChannelFail => exact (execFlashChannelFail_within h).pwr
  case openCtx => exact (execOpenCtx_within h).pwr
  case admitCtx => exact (execAdmitCtx_within h).pwr
  case retire => exact (execRetire_within h).pwr
  case retireDone => exact (execRetireDone_within h).pwr
  case close => exact (execClose_within h).pwr
  case chOpen => exact (execChOpen_within h).pwr
  case chClose => exact (execChClose_within h).pwr
  case chCloseDone => exact (execChCloseDone_within h).pwr
  case partitionResetKillsDone => exact (execPartitionResetKillsDone_within h).pwr
  case partitionResetDone => exact (execPartitionResetDone_within h).pwr
  case preemptWaitExpire => exact (execPreemptWaitExpire_within h).pwr
  case taskKill => exact (execTaskKill_within h).pwr
  case slowSample => exact (execSlowSample_within h).pwr
  case energySample => exact (execEnergySample_within h).pwr
  case nop => exact (execNop_within h).pwr
  case abort => exact (execAbort_within h).pwr
  case data => exact (execData_within h).pwr
  case reservedPtypeDrop => exact (execReservedPtypeDrop_within h).pwr
  case busyHintExpire => exact (execBusyHintExpire_within h).pwr
  case regRsp => exact (execRegRsp_within h).pwr
  case regwinTimeout => exact (execRegwinTimeout_within h).pwr
  case sqFetch => exact (execSqFetch_within h).pwr
  case xferReady => exact (execXferReady_within h).pwr
  case busyRetry _ _ _ cause _ => exact (execBusyRetry_within (_cause := cause) h).pwr
  case busyResend => exact (execBusyResend_within h).pwr
  case cpl => exact (execCpl_within h).pwr
  case event => exact (execEvent_within h).pwr
  case answerTimeout => exact (execAnswerTimeout_within h).pwr
  case frame => exact (execFrame_within h).pwr
  case ack => exact (execAck_within h).pwr
  case nak => exact (execNak_within h).pwr
  case credit => exact (execCredit_within h).pwr
  case missedAck => exact (execMissedAck_within h).pwr
  case laneRetire => exact (execLaneRetire_within h).pwr
  case laneRejoin => exact (execLaneRejoin_within h).pwr
  case trainRetry => exact (execTrainRetry_within h).pwr
  case rekey => exact (execRekey_within h).pwr
  case keySpent => exact (execKeySpent_within h).pwr
  case gapHoldExpire => exact (execGapHoldExpire_within h).pwr
  case noRouteExpire => exact (execNoRouteExpire_within h).pwr
  case pathLost o _ c => exact (execPathLost_within (_srcOrd := o) (_cause := c) h).pwr
  case xwrite => exact (execXwrite_within h).pwr
  case xack => exact (execXack_within h).pwr
  case xread => exact (execXread_within h).pwr
  case xreadRsp => exact (execXreadRsp_within h).pwr
  case xresend => exact (execXresend_within h).pwr
  case sramScrubRead => exact (execSramScrubRead_within h).pwr
  case fenceEffect => exact (execFenceEffect_within h).pwr
  case selfTestDone => exact (execSelfTestDone_within h).pwr
  case stackFail => exact (execStackFail_within h).pwr
  case coreWatchdogExpire => exact (execCoreWatchdogExpire_within h).pwr
  case coreRestartDone => exact (execCoreRestartDone_within h).pwr
  case getVersion => exact (execGetVersion_within h).pwr
  case getCapabilities => exact (execGetCapabilities_within h).pwr
  case negotiateAlgorithms => exact (execNegotiateAlgorithms_within h).pwr
  case getDigests => exact (execGetDigests_within h).pwr
  case getCertificate => exact (execGetCertificate_within h).pwr
  case challenge => exact (execChallenge_within h).pwr
  case getMeasurements => exact (execGetMeasurements_within h).pwr
  case spdmUnsupportedRequest => exact (execSpdmUnsupportedRequest_within h).pwr
  case mctpControl => exact (execMctpControl_within h).pwr
  case mctpDiscard => exact (execMctpDiscard_within h).pwr
  case pldmBaseRequest => exact (execPldmBaseRequest_within h).pwr
  case pldmSensorRead => exact (execPldmSensorRead_within h).pwr
  case setSensorThresholds => exact (execSetSensorThresholds_within h).pwr
  case setEventReceiver => exact (execSetEventReceiver_within h).pwr
  case pollForPlatformEventMessage => exact (execPollForPlatformEventMessage_within h).pwr
  case pldmUnsupported _ ty cmd => exact (execPldmUnsupported_within (_ty := ty) (_cmd := cmd) h).pwr
  case requestUpdate => exact (execRequestUpdate_within h).pwr
  case requestFirmwareData => exact (execRequestFirmwareData_within h).pwr
  case activateFirmware => exact (execActivateFirmware_within h).pwr
  case cancelUpdate => exact (execCancelUpdate_within h).pwr
  case keyExchangeDone => exact (execKeyExchangeDone_within h).pwr
  case rekeyRetry => exact (execRekeyRetry_within h).pwr
  case tideBoundary => exact (execTideBoundary_within h).pwr
  case alignLost => exact (execAlignLost_within h).pwr
  case stepBoundary => exact (execStepBoundary_within h).pwr
  case modelImageCopied => exact (execModelImageCopied_within h).pwr
  case mgmtPeriod => exact (execMgmtPeriod_within h).pwr
  case vuindigSystemReadDone => exact (execVuindigSystemReadDone_within h).pwr
  case spillRegionReady => exact (execSpillRegionReady_within h).pwr
  case residencyStarved => exact (execResidencyStarved_within h).pwr
  case acctWindowClose => exact (execAcctWindowClose_within h).pwr
  case functionLevelReset => exact (execFunctionLevelReset_within h).pwr
  case d3hotEntry => exact (execD3hotEntry_within h).pwr
  case bootVerifyDone => exact (execBootVerifyDone_within h).pwr
  case aliasCertIssued => exact (execAliasCertIssued_within h).pwr
  case unlockCheckDone => exact (execUnlockCheckDone_within h).pwr
  case verifyComplete => exact (execVerifyComplete_within h).pwr
  case applyComplete => exact (execApplyComplete_within h).pwr
  case updateTimeout => exact (execUpdateTimeout_within h).pwr
  all_goals exact nomatch hi

/-! ## What the shared operations leave of the registers and of the power state -/

theorem State.rd_wr_same {s : State} (h : Registers.wf s.regs = true) (a v : Nat) : (s.wr a v).rd a = v % 2 ^ 32 := by
  rw [State.rd, State.wr_regs, mapGet_put_same _ _ _ _ h, BitVec.toNat_ofNat]

theorem State.rd_wr_other (s : State) {a x : Nat} (v : Nat) (hx : x ≠ a) : (s.wr a v).rd x = s.rd x :=
  congrArg BitVec.toNat (mapGet_put_other (resetWord a) (resetWord x) a x _ s.regs hx)

theorem State.rd_setEvents {s : State} (h : Registers.wf s.regs = true) (m : Nat) :
    (s.setEvents m).rd Reg.pwrEvents = (s.rd Reg.pwrEvents ||| m) % 2 ^ 32 :=
  State.rd_wr_same h ..

theorem State.rd_coolRegs_other (s : State) (r : CoolReading) {a : Nat} (hstat : a ≠ Reg.pwrCoolStat) (hpress : a ≠ Reg.pwrPress)
    (hpump : a ≠ Reg.pwrPumpHz) : (s.coolRegs r).rd a = s.rd a := by
  rw [State.coolRegs, State.rd_wr_other _ _ hpump, State.rd_wr_other _ _ hpress, State.rd_wr_other _ _ hstat]

theorem State.darken_regs_wf (s : State) : Registers.wf s.darken.regs = true := foldl_mapPut_wf resetWord _ _ _ [] rfl

@[simp] theorem State.pwr_count (s : State) (a n : Nat) : (s.count a n).pwr = s.pwr := (State.count_within s a n).pwr

@[simp] theorem State.pwr_setEvents (s : State) (m : Nat) : (s.setEvents m).pwr = s.pwr := (State.setEvents_within s m).pwr

@[simp] theorem State.pwr_lastDown (s : State) (cause k : Nat) : (s.lastDown cause k).pwr = s.pwr :=
  (State.lastDown_within s cause k).pwr

@[simp] theorem State.pwr_elapseClock (s : State) (w : Nat) : (s.elapseClock w).pwr = s.pwr := (State.elapseClock_within s w).pwr

@[simp] theorem State.pwr_coolRegs (s : State) (r : CoolReading) : (s.coolRegs r).pwr = s.pwr := (State.coolRegs_within s r).pwr

@[simp] theorem State.pwr_mgmtEvent (s : State) (a : MctpAns) : (s.mgmtEvent a).pwr = s.pwr := (State.mgmtEvent_within s a).pwr

@[simp] theorem State.pwr_hostDown (s : State) : s.hostDown.pwr = s.pwr := (State.hostDown_within s).pwr

/-! ## While the main domains are off -/

section
variable {s : State} (hp : s.powered = false)
include hp

theorem State.writeOne_of_not_powered (p : Path) (a data : Nat) : s.writeOne p a data = s := by
  simp [State.writeOne, hp]

theorem State.not_mctpRuns_of_not_powered (x : Transport) : s.mctpRuns x = false := by
  simp [State.mctpRuns, hp]

theorem State.reqWrite_of_not_powered (hu : s.pwr.upStep = 0) (p : Path) (q : PReq) : s.reqWrite p q = s := by
  simp [State.reqWrite, hp, hu]

theorem execPowerSample_of_not_powered {r : PowerReading} {t : State} (h : execPowerSample r s = .next t) : t = s := by
  unfold execPowerSample at h
  split at h
  · exact nomatch h
  · rw [State.onPowerSample, if_pos (by simp [hp])] at h
    exact (Host.Outcome.next.inj h).symm

theorem exec_eq_self_of_not_powered {i : Instr} (hi : i.needsMainPower = true) : exec i s = .next s := by
  have hw := State.writeOne_of_not_powered hp
  have hm := State.not_mctpRuns_of_not_powered hp
  cases i
  case registerWrite => simp [exec, execRegisterWrite, hp]
  case localReset => simp [exec, execLocalReset, hw]
  case localResetDone => simp [exec, execLocalResetDone, hp]
  case blkIrqSet => simp [exec, execBlkIrqSet, hw]
  case devtimeLoRead => simp [exec, execDevtimeLoRead, hp]
  case parCfgWrite => simp [exec, execParCfgWrite, hw]
  case spillCfgWrite => simp [exec, execSpillCfgWrite, hw]
  case funcCfgWrite => simp [exec, execFuncCfgWrite, hw]
  case funcReset => simp [exec, execFuncReset, hw]
  case regRd => simp [exec, execRegRd, hp]
  case regWr => simp [exec, execRegWr, hp]
  case bar2Access => simp [exec, execBar2Access, hp]
  case sqTailWrite => simp [exec, execSqTailWrite, hw]
  case cqHeadWrite => simp [exec, execCqHeadWrite, hw]
  case pathClear => simp [exec, execPathClear, hw]
  case portTrainDone => simp [exec, execPortTrainDone, hp]
  case trainFail => simp [exec, execTrainFail, hp]
  case portCfgWrite => simp [exec, execPortCfgWrite, hw]
  case rearm => simp [exec, execRearm, hp]
  case valveTick => simp [exec, execValveTick, hp]
  case fence => simp [exec, execFence, hw]
  case readmit => simp [exec, execReadmit, hw]
  case clearList => simp [exec, execClearList, hw]
  case svnCommit => simp [exec, execSvnCommit, hw]
  case eraseAll => simp [exec, execEraseAll, hw]
  case unlockGo => simp [exec, execUnlockGo, hw]
  case registerMessageRead => simp [exec, execRegisterMessageRead, State.taken, hm]
  case registerMessageWrite => simp [exec, execRegisterMessageWrite, State.taken, hm]
  case effecterWrite => simp [exec, execEffecterWrite, State.served, hm]
  case mapJournalReplayed => simp [exec, execMapJournalReplayed, hp]
  case capTick => simp [exec, execCapTick, hp]
  case quiesceDone => simp [exec, execQuiesceDone, hp]
  case commandEngineReady => simp [exec, execCommandEngineReady, State.mgmtServes, hp]
  case pcieLinkUp => simp [exec, execPcieLinkUp, hp]
  all_goals exact nomatch hi

end

/-! ## No power-up runs, and none is noted -/

/-- No power-up runs and no wake event is noted for one. -/
def PwrSt.noStart (p : PwrSt) : Prop := p.upStep = 0 ∧ p.wakeNoted = false

@[simp] theorem State.noStart_updPin (s : State) (k : Nat) (f : PinSt → PinSt) : (s.updPin k f).pwr.noStart ↔ s.pwr.noStart :=
  Iff.rfl

@[simp] theorem State.noStart_hostLinkDown (s : State) : s.hostLinkDown.pwr.noStart ↔ s.pwr.noStart := by
  simp [State.hostLinkDown, PwrSt.noStart]

theorem noStart_of_execWakePinChange {k : Nat} {level : Bool} {s t : State} (hs : s.pwr.noStart)
    (h : execWakePinChange k level s = .next t) : t.pwr.noStart := by
  unfold execWakePinChange at h
  obtain rfl := Host.Outcome.next.inj h
  split
  · exact hs
  · dsimp only
    split_ifs
    · exact hs
    · exact hs
    · split
      · split_ifs <;> simpa using hs
      · exact hs
    · exact hs

theorem noStart_of_execStuck {k : Nat} {s t : State} (hs : s.pwr.noStart) (h : execStuck k s = .next t) : t.pwr.noStart := by
  unfold execStuck at h
  obtain rfl := Host.Outcome.next.inj h
  split
  · exact hs
  · split_ifs <;> simpa using hs

/-! ## After a trip -/

/-- The device as a trip leaves it (R389, R396): in WATCH, with no power-up or power-down, nothing noted, and EVENTS.TRIP set. -/
structure State.Tripped (s : State) : Prop where
  st : s.pwr.st = .watch
  upStep : s.pwr.upStep = 0
  downCause : s.pwr.downCause = none
  wakeNoted : s.pwr.wakeNoted = false
  trip : bit (s.rd Reg.pwrEvents) 0 = true

theorem bit_zero_or_one (w : Nat) : bit ((w ||| 1) % 2 ^ 32) 0 = true := by
  simp [bit, bits]

theorem tripped_of_thermalTrip {s : State} (hm : s.mainOn = true) : ∃ t, exec .thermalTrip s = .next t ∧ t.Tripped := by
  refine ⟨_, congrArg Host.Outcome.next (if_pos hm), ?_⟩
  have hpwr : (((s.darken.setEvents 0x01).lastDown 2 0).count Reg.pwrTripCnt).pwr = s.darken.pwr := by simp
  have htrip : bit ((((s.darken.setEvents 0x01).lastDown 2 0).count Reg.pwrTripCnt).rd Reg.pwrEvents) 0 = true := by
    rw [State.rd_count_other _ _ (by decide), State.lastDown, State.rd_wr_other _ _ (by decide), State.rd_setEvents s.darken_regs_wf]
    exact bit_zero_or_one _
  exact ⟨congrArg PwrSt.st hpwr, congrArg PwrSt.upStep hpwr, congrArg PwrSt.downCause hpwr, rfl, htrip⟩

/-- AUTO_ON and signal detect are not answered while EVENTS.TRIP is set (R389). -/
theorem State.wake_of_trip {s : State} (ht : bit (s.rd Reg.pwrEvents) 0 = true) {src : WakeSrc} (hpin : src ≠ .pin)
    (hmgmt : src ≠ .mgmt) : s.wake src = s := by
  cases src with
  | pin => exact absurd rfl hpin
  | mgmt => exact absurd rfl hmgmt
  | auto => simp [State.wake, State.answers, ht]
  | link => simp [State.wake, State.answers, ht]

namespace State.Tripped
variable {s t : State} (hs : s.Tripped)
include hs

theorem noStart : s.pwr.noStart := ⟨hs.upStep, hs.wakeNoted⟩

theorem not_powered : s.powered = false := by simp [State.powered, hs.st]

theorem not_mainOn : s.mainOn = false := by simp [State.mainOn, hs.st, hs.upStep, hs.downCause]

theorem noStart_of_execWatchSample {signal : Nat} {r : CoolReading} (h : execWatchSample signal r s = .next t) : t.pwr.noStart := by
  unfold execWatchSample at h
  obtain rfl := Host.Outcome.next.inj h
  have htrip (w : Nat) : bit (((s.elapseClock w).coolRegs r).rd Reg.pwrEvents) 0 = true := by
    rw [State.rd_coolRegs_other _ _ (by decide) (by decide) (by decide)]
    exact hs.trip
  simp [hs.st, hs.upStep, State.wake_of_trip (htrip _), hs.noStart]

theorem noStart_of_execInputGood (h : execInputGood s = .next t) : t.pwr.noStart := by
  unfold execInputGood at h
  obtain rfl := Host.Outcome.next.inj h
  rw [State.wake_of_trip (by exact hs.trip) (by decide) (by decide), ite_self]
  exact hs.noStart

/-- The commands of the power controller, the watch domain and the pins that act also while the main domains are off: those of
`changesPower` that are neither of `needsMainPower` nor of `wakesAfterTrip`. -/
theorem noStart_of_power_command {i : Instr} (hi : (i.changesPower && !i.needsMainPower && !i.wakesAfterTrip) = true)
    (h : exec i s = .next t) : t.pwr.noStart := by
  have hp := hs.not_powered
  have hm := hs.not_mainOn
  have ends {u : State} (e : exec i s = .next u) (hu : u.pwr.noStart) : t.pwr.noStart :=
    Host.Outcome.next.inj (e.symm.trans h) ▸ hu
  have idle {u : State} (e : exec i s = .next u) (hu : u = s) : t.pwr.noStart := ends e (hu ▸ hs.noStart)
  cases i
  case wakePinChange => exact noStart_of_execWakePinChange hs.noStart h
  case stuck => exact noStart_of_execStuck hs.noStart h
  case watchSample => exact hs.noStart_of_execWatchSample h
  case inputGood => exact hs.noStart_of_execInputGood h
  case powerupChecksPassed => exact idle rfl (by simp [hs.upStep])
  case regRdy => exact idle rfl (by simp [hs.upStep])
  case oscRdy => exact idle rfl (by simp [hs.upStep])
  case memRdy => exact idle rfl (by simp [hs.upStep])
  case logicRdy => exact idle rfl (by simp [hs.upStep])
  case powerupStepTimeout => exact idle rfl (by simp [hs.upStep])
  case powerDownDone => exact idle rfl (by simp [hs.downCause])
  case thermalTrip => exact idle rfl (by simp [hm])
  case coolHoldEnter => exact idle rfl (by simp [hs.st])
  case enterHold => exact idle rfl (State.reqWrite_of_not_powered hp hs.upStep ..)
  case leaveHold => exact idle rfl (State.reqWrite_of_not_powered hp hs.upStep ..)
  case enterWatch => exact idle rfl (State.reqWrite_of_not_powered hp hs.upStep ..)
  case powerSample => exact execPowerSample_of_not_powered hp h ▸ hs.noStart
  case auxLoss => exact ends rfl ⟨rfl, rfl⟩
  case perstRelease => exact ends rfl hs.noStart
  case perstAssert => exact ends (congrArg Host.Outcome.next (if_pos (by simp [hp]))) hs.noStart
  case inputFail => exact ends (congrArg Host.Outcome.next (if_neg (by simp [hm]))) hs.noStart
  case auxReturn => exact ends (congrArg Host.Outcome.next (if_neg (by simp [hs.st]))) hs.noStart
  case resetPinAssert => exact ends (congrArg Host.Outcome.next (if_neg (by simp [hp]))) hs.noStart
  case resetPinRelease => exact ends (congrArg Host.Outcome.next (if_neg (by simp [hs.wakeNoted]))) hs.noStart
  case pcieLinkDown =>
    refine ends rfl ?_
    split_ifs
    · exact s.noStart_hostLinkDown.2 hs.noStart
    · exact hs.noStart
  case coolHoldClear =>
    refine ends rfl ?_
    split_ifs
    · rw [State.tryLeaveHold, if_neg (by simp [hs.st])]
      exact hs.noStart
    · exact hs.noStart
  all_goals exact nomatch hi

theorem noStart_of_exec {i : Instr} (hw : i.wakesAfterTrip = false) (h : exec i s = .next t) : t.pwr.noStart := by
  cases hc : i.changesPower
  case false => exact exec_pwr_of_not_changesPower hc h ▸ hs.noStart
  case true =>
    cases hn : i.needsMainPower
    case false => exact hs.noStart_of_power_command (by simp [hc, hn, hw]) h
    case true =>
      obtain rfl := Host.Outcome.next.inj ((exec_eq_self_of_not_powered hs.not_powered hn).symm.trans h)
      exact hs.noStart

end State.Tripped

/-! ## The power-up that a wake event starts -/

theorem exec_wakeHoldExpire {s : State} {w : Nat} (hh : s.pwr.heldWake = true) (hw : s.pwr.lastWake = some w) :
    exec .wakeHoldExpire s = .next (s.elapseClock (w + 10000000)).deliverWake := by
  simp [exec, execWakeHoldExpire, hh, hw]

theorem State.deliverWake_of_watch {s : State} (hst : s.pwr.st = .watch) (hu : s.pwr.upStep = 0) (hd : s.pwr.downCause = none)
    (hr : s.pwr.resetHeld = false) : s.deliverWake.pwr.upStep = 1 := by
  simp [State.deliverWake, State.wake, State.answers, State.startUp, hst, hu, hd, hr]

theorem State.upChecks_of_trip {s : State} (ht : bit (s.rd Reg.pwrEvents) 0 = true) (r : CoolReading) :
    s.upChecks r = true ↔ s.pwr.inputGood = true ∧ r.inlet ≤ 45 ∧ 20 ≤ r.flow ∧ r.dieMax ≤ 95 ∧ r.stackMax ≤ 85 := by
  simp [State.upChecks, ht, and_assoc]

section
variable {s : State} {r : CoolReading} (hst : s.pwr.st = .watch) (hu : s.pwr.upStep = 1)
include hst hu

theorem exec_powerupChecksPassed_of_failing (hc : s.upChecks r = false) :
    exec (.powerupChecksPassed r) s = .next { s with pwr := { s.pwr with coolWait := true } } :=
  congrArg Host.Outcome.next ((if_neg (by simp [hst, hu])).trans (if_neg (by simp [hc])))

theorem exec_powerupChecksPassed_of_good (hc : s.upChecks r = true) :
    ∃ t, exec (.powerupChecksPassed r) s = .next t ∧ t.pwr.upStep = 2 :=
  ⟨_, congrArg Host.Outcome.next ((if_neg (by simp [hst, hu])).trans (if_pos hc)), rfl⟩

end

/-- Settles O56: a trip leaves the device `State.Tripped`, and a command on such a device starts or notes no power-up unless it is one of
the four (`State.Tripped.noStart_of_exec`, by the three groups of commands); the checks of step 1 are those of R389 while TRIP is set. -/
theorem tripIsFollowedOnlyByPinOrManagement : Obligations.TripIsFollowedOnlyByPinOrManagement := by
  unfold Obligations.TripIsFollowedOnlyByPinOrManagement
  refine ⟨fun s _ hm => ?_, fun i s t hst hu hd hn ht h hstart => ?_, fun s w hst hu hd hr hh hw => ?_,
    fun s r hst hu ht => ⟨fun hhot => ?_, fun hdie hstack hin hinlet hflow => ?_⟩⟩
  · obtain ⟨t, h, ht⟩ := tripped_of_thermalTrip hm
    exact ⟨t, h, ht.st, ht.upStep, ht.downCause, ht.wakeNoted, ht.trip⟩
  · refine Instr.wakesAfterTrip_iff.1 (by_contra fun hi => ?_)
    obtain ⟨hu', hn'⟩ := State.Tripped.noStart_of_exec ⟨hst, hu, hd, hn, ht⟩ (Bool.eq_false_iff.2 hi) h
    simp [hu', hn'] at hstart
  · exact ⟨_, exec_wakeHoldExpire hh hw, State.deliverWake_of_watch (by simpa) (by simpa) (by simpa) (by simpa)⟩
  · refine exec_powerupChecksPassed_of_failing hst hu (Bool.eq_false_iff.2 fun hc => ?_)
    obtain ⟨-, -, -, hdie, hstack⟩ := (State.upChecks_of_trip ht r).1 hc
    omega
  · exact exec_powerupChecksPassed_of_good hst hu ((State.upChecks_of_trip ht r).2 ⟨hin, hinlet, hflow, hdie, hstack⟩)

end Sys2Proof.Machine
end

section
/-! Lists kept by place or by key: what a change of one entry leaves, and what is found after it. -/

namespace Sys2Proof.Machine

/- The elaborator's threads each take a stack: one proof at a time keeps a text of this length within the memory limit. -/
set_option Elab.async false

section
variable {α : Type}

theorem getElem?_updAt_same (i : Nat) (f : α → α) (l : List α) : (updAt i f l)[i]? = (l[i]?).map f := by
  simp [updAt, List.getElem?_mapIdx]

theorem getElem?_updAt_other {i j : Nat} (f : α → α) (l : List α) (hj : j ≠ i) : (updAt i f l)[j]? = l[j]? := by
  simp [updAt, List.getElem?_mapIdx, hj]

@[simp] theorem length_updAt (i : Nat) (f : α → α) (l : List α) : (updAt i f l).length = l.length := by
  simp [updAt]

theorem mem_addOnce_self [DecidableEq α] (x : α) (l : List α) : x ∈ addOnce x l := by
  unfold addOnce
  split <;> simp_all

theorem mem_addOnce_of_mem [DecidableEq α] {x y : α} {l : List α} (h : y ∈ l) : y ∈ addOnce x l := by
  unfold addOnce
  split <;> simp_all

/-- An entry changed under a key that the change keeps is found, changed, under that key. -/
theorem find?_updWhere_same {p : α → Bool} {f : α → α} (hf : ∀ x, p x = true → p (f x) = true) (l : List α) :
    (updWhere p f l).find? p = (l.find? p).map f := by
  induction l with
  | nil => rfl
  | cons x l ih =>
    have hcons : updWhere p f (x :: l) = (if p x then f x else x) :: updWhere p f l := rfl
    cases hx : p x <;> simp_all

/-- Under a key of which the change does not speak the same entry is found. -/
theorem find?_updWhere_other {p q : α → Bool} {f : α → α} (hp : ∀ x, p x = true → q x = false ∧ q (f x) = false) (l : List α) :
    (updWhere p f l).find? q = l.find? q := by
  induction l with
  | nil => rfl
  | cons x l ih =>
    have hcons : updWhere p f (x :: l) = (if p x then f x else x) :: updWhere p f l := rfl
    cases hx : p x
    · simp_all [List.find?_cons]
    · obtain ⟨h1, h2⟩ := hp x hx
      simp_all

end

end Sys2Proof.Machine
end

section
/-! What each command may change at most, once for all commands, and the statements that follow from it: the frames, the queue, time, and
the invariant. -/

namespace Sys2Proof.Machine

/- The elaborator's threads each take a stack: one proof at a time keeps a text of this length within the memory limit. -/
set_option Elab.async false

/-- Whether a command may change a part of the state: by the lists of Effects.lean, where one speaks of that part. -/
def Field.mayChangeBy : Field → Instr → Bool
  | .pending, _ => false
  | .fix, .logicRdy _ => true
  | .fix, _ => false
  | .mem, i => i.storesBytes
  | .regs, i => i.writesRegs
  | .clock, i => i.movesTime
  | .now, i => i.movesTime
  | .pwr, i => i.changesPower
  | .flt, i => i.changesFaults
  | .sec, i => i.changesSecurity
  | .mgmt, i => i.changesMgmt
  | .ar, i => i.changesArith
  | .idx, i => i.changesIndex
  | .kv, i => i.changesKv
  | .gen, i => i.changesGen
  | .mm, i => i.changesTables
  | .fl, i => i.changesFlash
  | .sch, i => i.changesSched
  | .cmd, i => i.changesCommands
  | .brg, i => i.changesBridge
  | .zwx, i => i.changesLinks
  | .outbox, i => i.sends
  | .fresh, _ => true
  | .latches, _ => true
  | .busy, _ => true
  | .notReady, _ => true
  | .waits, _ => true

/-- A command changes only parts that the lists name it for, keeps the invariant, and does not move the watch clock back. -/
theorem exec_within {i : Instr} {s t : State} (h : exec i s = .next t) : ∃ ps, Within ps s t ∧ ps.all (fun p => p.mayChangeBy i) = true := by
  cases i
  case registerWrite => exact ⟨_, execRegisterWrite_within h, rfl⟩
  case localReset => exact ⟨_, execLocalReset_within h, rfl⟩
  case localResetDone => exact ⟨_, execLocalResetDone_within h, rfl⟩
  case blkIrqSet => exact ⟨_, execBlkIrqSet_within h, rfl⟩
  case eventsClear => exact ⟨_, execEventsClear_within h, rfl⟩
  case devtimeLoRead => exact ⟨_, execDevtimeLoRead_within h, rfl⟩
  case straitTransfer => exact ⟨_, execStraitTransfer_within h, rfl⟩
  case matrixOpIssue => exact ⟨_, execMatrixOpIssue_within h, rfl⟩
  case matrixPassEnd => exact ⟨_, execMatrixPassEnd_within h, rfl⟩
  case matrixOpComplete => exact ⟨_, execMatrixOpComplete_within h, rfl⟩
  case vectorOp => exact ⟨_, execVectorOp_within h, rfl⟩
  case atomicAdd => exact ⟨_, execAtomicAdd_within h, rfl⟩
  case atomicMax => exact ⟨_, execAtomicMax_within h, rfl⟩
  case atomicMin => exact ⟨_, execAtomicMin_within h, rfl⟩
  case compareAndSwap => exact ⟨_, execCompareAndSwap_within h, rfl⟩
  case dbgHalt => exact ⟨_, execDbgHalt_within h, rfl⟩
  case dbgDataRead => exact ⟨_, execDbgDataRead_within h, rfl⟩
  case indexLoad => exact ⟨_, execIndexLoad_within h, rfl⟩
  case indexImageCopied => exact ⟨_, execIndexImageCopied_within h, rfl⟩
  case centroidCopyBuilt => exact ⟨_, execCentroidCopyBuilt_within h, rfl⟩
  case indexSave => exact ⟨_, execIndexSave_within h, rfl⟩
  case indexSaveDone => exact ⟨_, execIndexSaveDone_within h, rfl⟩
  case indexUnload => exact ⟨_, execIndexUnload_within h, rfl⟩
  case indexUnloadDone => exact ⟨_, execIndexUnloadDone_within h, rfl⟩
  case indexCompact => exact ⟨_, execIndexCompact_within h, rfl⟩
  case search => exact ⟨_, execSearch_within h, rfl⟩
  case ingressStamp => exact ⟨_, execIngressStamp_within h, rfl⟩
  case boundaryMarker => exact ⟨_, execBoundaryMarker_within h, rfl⟩
  case probeSelectionDone => exact ⟨_, execProbeSelectionDone_within h, rfl⟩
  case setSeal => exact ⟨_, execSetSeal_within h, rfl⟩
  case setScanStart => exact ⟨_, execSetScanStart_within h, rfl⟩
  case setScanDone => exact ⟨_, execSetScanDone_within h, rfl⟩
  case setReportDone => exact ⟨_, execSetReportDone_within h, rfl⟩
  case queryRoundMerged => exact ⟨_, execQueryRoundMerged_within h, rfl⟩
  case rerankDone => exact ⟨_, execRerankDone_within h, rfl⟩
  case searchComplete => exact ⟨_, execSearchComplete_within h, rfl⟩
  case mutate => exact ⟨_, execMutate_within h, rfl⟩
  case mutateStaging => exact ⟨_, execMutateStaging_within h, rfl⟩
  case epochMark => exact ⟨_, execEpochMark_within h, rfl⟩
  case epochReport => exact ⟨_, execEpochReport_within h, rfl⟩
  case compactPassStart => exact ⟨_, execCompactPassStart_within h, rfl⟩
  case topk => exact ⟨_, execTopk_within h, rfl⟩
  case merge => exact ⟨_, execMerge_within h, rfl⟩
  case selectPieceDone => exact ⟨_, execSelectPieceDone_within h, rfl⟩
  case selectComplete => exact ⟨_, execSelectComplete_within h, rfl⟩
  case pageChoiceDone => exact ⟨_, execPageChoiceDone_within h, rfl⟩
  case recomputeDone => exact ⟨_, execRecomputeDone_within h, rfl⟩
  case attnSplitDone => exact ⟨_, execAttnSplitDone_within h, rfl⟩
  case attnMerge => exact ⟨_, execAttnMerge_within h, rfl⟩
  case kvAppend => exact ⟨_, execKvAppend_within h, rfl⟩
  case mirrorAck => exact ⟨_, execMirrorAck_within h, rfl⟩
  case attnBackward => exact ⟨_, execAttnBackward_within h, rfl⟩
  case spillDurable => exact ⟨_, execSpillDurable_within h, rfl⟩
  case t3PageReadDone => exact ⟨_, execT3PageReadDone_within h, rfl⟩
  case promotionDone => exact ⟨_, execPromotionDone_within h, rfl⟩
  case relocationCopyDone => exact ⟨_, execRelocationCopyDone_within h, rfl⟩
  case holdExpire => exact ⟨_, execHoldExpire_within h, rfl⟩
  case config => exact ⟨_, execConfig_within h, rfl⟩
  case prefetch => exact ⟨_, execPrefetch_within h, rfl⟩
  case spill => exact ⟨_, execSpill_within h, rfl⟩
  case modelLoad => exact ⟨_, execModelLoad_within h, rfl⟩
  case modelUnload => exact ⟨_, execModelUnload_within h, rfl⟩
  case seqOpen => exact ⟨_, execSeqOpen_within h, rfl⟩
  case seqClose => exact ⟨_, execSeqClose_within h, rfl⟩
  case step => exact ⟨_, execStep_within h, rfl⟩
  case weightTileLanded => exact ⟨_, execWeightTileLanded_within h, rfl⟩
  case swap => exact ⟨_, execSwap_within h, rfl⟩
  case handleReturn => exact ⟨_, execHandleReturn_within h, rfl⟩
  case taskDispatch => exact ⟨_, execTaskDispatch_within h, rfl⟩
  case taskAge => exact ⟨_, execTaskAge_within h, rfl⟩
  case taskEnd => exact ⟨_, execTaskEnd_within h, rfl⟩
  case stepCommit => exact ⟨_, execStepCommit_within h, rfl⟩
  case weightRepairDone => exact ⟨_, execWeightRepairDone_within h, rfl⟩
  case mcastAck => exact ⟨_, execMcastAck_within h, rfl⟩
  case alloc => exact ⟨_, execAlloc_within h, rfl⟩
  case allocZeroed => exact ⟨_, execAllocZeroed_within h, rfl⟩
  case free => exact ⟨_, execFree_within h, rfl⟩
  case move => exact ⟨_, execMove_within h, rfl⟩
  case moveCopyDone => exact ⟨_, execMoveCopyDone_within h, rfl⟩
  case promote => exact ⟨_, execPromote_within h, rfl⟩
  case evict => exact ⟨_, execEvict_within h, rfl⟩
  case share => exact ⟨_, execShare_within h, rfl⟩
  case unshare => exact ⟨_, execUnshare_within h, rfl⟩
  case parityDeltaAck => exact ⟨_, execParityDeltaAck_within h, rfl⟩
  case lineRebuild => exact ⟨_, execLineRebuild_within h, rfl⟩
  case parCfgWrite => exact ⟨_, execParCfgWrite_within h, rfl⟩
  case dramScrubRead => exact ⟨_, execDramScrubRead_within h, rfl⟩
  case granuleRetire => exact ⟨_, execGranuleRetire_within h, rfl⟩
  case stackThermalTick => exact ⟨_, execStackThermalTick_within h, rfl⟩
  case lateRead => exact ⟨_, execLateRead_within h, rfl⟩
  case ferryArm => exact ⟨_, execFerryArm_within h, rfl⟩
  case ferryGenerationStart => exact ⟨_, execFerryGenerationStart_within h, rfl⟩
  case ferryGenerationDone => exact ⟨_, execFerryGenerationDone_within h, rfl⟩
  case flashReadDone => exact ⟨_, execFlashReadDone_within h, rfl⟩
  case stripeRebuild => exact ⟨_, execStripeRebuild_within h, rfl⟩
  case flashWriteDurable => exact ⟨_, execFlashWriteDurable_within h, rfl⟩
  case stripeCloseTimeout => exact ⟨_, execStripeCloseTimeout_within h, rfl⟩
  case gcStep => exact ⟨_, execGcStep_within h, rfl⟩
  case wearLevelMove => exact ⟨_, execWearLevelMove_within h, rfl⟩
  case readDisturbRelocate => exact ⟨_, execReadDisturbRelocate_within h, rfl⟩
  case moveMapSwitch => exact ⟨_, execMoveMapSwitch_within h, rfl⟩
  case flashScrubRead => exact ⟨_, execFlashScrubRead_within h, rfl⟩
  case flashChannelFail => exact ⟨_, execFlashChannelFail_within h, rfl⟩
  case spillCfgWrite => exact ⟨_, execSpillCfgWrite_within h, rfl⟩
  case openCtx => exact ⟨_, execOpenCtx_within h, rfl⟩
  case admitCtx => exact ⟨_, execAdmitCtx_within h, rfl⟩
  case retire => exact ⟨_, execRetire_within h, rfl⟩
  case retireDone => exact ⟨_, execRetireDone_within h, rfl⟩
  case close => exact ⟨_, execClose_within h, rfl⟩
  case chOpen => exact ⟨_, execChOpen_within h, rfl⟩
  case chClose => exact ⟨_, execChClose_within h, rfl⟩
  case chCloseDone => exact ⟨_, execChCloseDone_within h, rfl⟩
  case funcCfgWrite => exact ⟨_, execFuncCfgWrite_within h, rfl⟩
  case funcReset => exact ⟨_, execFuncReset_within h, rfl⟩
  case partitionResetKillsDone => exact ⟨_, execPartitionResetKillsDone_within h, rfl⟩
  case partitionResetDone => exact ⟨_, execPartitionResetDone_within h, rfl⟩
  case preemptWaitExpire => exact ⟨_, execPreemptWaitExpire_within h, rfl⟩
  case taskKill => exact ⟨_, execTaskKill_within h, rfl⟩
  case slowSample => exact ⟨_, execSlowSample_within h, rfl⟩
  case energySample => exact ⟨_, execEnergySample_within h, rfl⟩
  case nop => exact ⟨_, execNop_within h, rfl⟩
  case abort => exact ⟨_, execAbort_within h, rfl⟩
  case data => exact ⟨_, execData_within h, rfl⟩
  case reservedPtypeDrop => exact ⟨_, execReservedPtypeDrop_within h, rfl⟩
  case busyHintExpire => exact ⟨_, execBusyHintExpire_within h, rfl⟩
  case regRd => exact ⟨_, execRegRd_within h, rfl⟩
  case regWr => exact ⟨_, execRegWr_within h, rfl⟩
  case regRsp => exact ⟨_, execRegRsp_within h, rfl⟩
  case bar2Access => exact ⟨_, execBar2Access_within h, rfl⟩
  case regwinTimeout => exact ⟨_, execRegwinTimeout_within h, rfl⟩
  case sqTailWrite => exact ⟨_, execSqTailWrite_within h, rfl⟩
  case sqFetch => exact ⟨_, execSqFetch_within h, rfl⟩
  case xferReady => exact ⟨_, execXferReady_within h, rfl⟩
  case busyRetry _ _ _ cause _ => exact ⟨_, execBusyRetry_within (_cause := cause) h, rfl⟩
  case busyResend => exact ⟨_, execBusyResend_within h, rfl⟩
  case cpl => exact ⟨_, execCpl_within h, rfl⟩
  case event => exact ⟨_, execEvent_within h, rfl⟩
  case cqHeadWrite => exact ⟨_, execCqHeadWrite_within h, rfl⟩
  case answerTimeout => exact ⟨_, execAnswerTimeout_within h, rfl⟩
  case pathClear => exact ⟨_, execPathClear_within h, rfl⟩
  case frame => exact ⟨_, execFrame_within h, rfl⟩
  case ack => exact ⟨_, execAck_within h, rfl⟩
  case nak => exact ⟨_, execNak_within h, rfl⟩
  case credit => exact ⟨_, execCredit_within h, rfl⟩
  case missedAck => exact ⟨_, execMissedAck_within h, rfl⟩
  case laneRetire => exact ⟨_, execLaneRetire_within h, rfl⟩
  case laneRejoin => exact ⟨_, execLaneRejoin_within h, rfl⟩
  case portTrainDone => exact ⟨_, execPortTrainDone_within h, rfl⟩
  case trainFail => exact ⟨_, execTrainFail_within h, rfl⟩
  case trainRetry => exact ⟨_, execTrainRetry_within h, rfl⟩
  case rekey => exact ⟨_, execRekey_within h, rfl⟩
  case keySpent => exact ⟨_, execKeySpent_within h, rfl⟩
  case portCfgWrite => exact ⟨_, execPortCfgWrite_within h, rfl⟩
  case gapHoldExpire => exact ⟨_, execGapHoldExpire_within h, rfl⟩
  case noRouteExpire => exact ⟨_, execNoRouteExpire_within h, rfl⟩
  case pathLost o _ c => exact ⟨_, execPathLost_within (_srcOrd := o) (_cause := c) h, rfl⟩
  case xwrite => exact ⟨_, execXwrite_within h, rfl⟩
  case xack => exact ⟨_, execXack_within h, rfl⟩
  case xread => exact ⟨_, execXread_within h, rfl⟩
  case xreadRsp => exact ⟨_, execXreadRsp_within h, rfl⟩
  case xresend => exact ⟨_, execXresend_within h, rfl⟩
  case wakePinChange => exact ⟨_, execWakePinChange_within h, rfl⟩
  case debounceExpire => exact ⟨_, execDebounceExpire_within h, rfl⟩
  case stuck => exact ⟨_, execStuck_within h, rfl⟩
  case rearm => exact ⟨_, execRearm_within h, rfl⟩
  case watchSample => exact ⟨_, execWatchSample_within h, rfl⟩
  case powerupChecksPassed => exact ⟨_, execPowerupChecksPassed_within h, rfl⟩
  case memRdy => exact ⟨_, execMemRdy_within h, rfl⟩
  case logicRdy => exact ⟨_, execLogicRdy_within h, rfl⟩
  case powerSample => exact ⟨_, execPowerSample_within h, rfl⟩
  case valveTick => exact ⟨_, execValveTick_within h, rfl⟩
  case coolHoldEnter => exact ⟨_, execCoolHoldEnter_within h, rfl⟩
  case coolHoldClear => exact ⟨_, execCoolHoldClear_within h, rfl⟩
  case enterHold => exact ⟨_, execEnterHold_within h, rfl⟩
  case leaveHold => exact ⟨_, execLeaveHold_within h, rfl⟩
  case enterWatch => exact ⟨_, execEnterWatch_within h, rfl⟩
  case sramScrubRead => exact ⟨_, execSramScrubRead_within h, rfl⟩
  case fenceEffect => exact ⟨_, execFenceEffect_within h, rfl⟩
  case fence => exact ⟨_, execFence_within h, rfl⟩
  case readmit => exact ⟨_, execReadmit_within h, rfl⟩
  case clearList => exact ⟨_, execClearList_within h, rfl⟩
  case selfTestDone => exact ⟨_, execSelfTestDone_within h, rfl⟩
  case stackFail => exact ⟨_, execStackFail_within h, rfl⟩
  case coreWatchdogExpire => exact ⟨_, execCoreWatchdogExpire_within h, rfl⟩
  case coreRestartDone => exact ⟨_, execCoreRestartDone_within h, rfl⟩
  case svnCommit => exact ⟨_, execSvnCommit_within h, rfl⟩
  case eraseAll => exact ⟨_, execEraseAll_within h, rfl⟩
  case unlockGo => exact ⟨_, execUnlockGo_within h, rfl⟩
  case getVersion => exact ⟨_, execGetVersion_within h, rfl⟩
  case getCapabilities => exact ⟨_, execGetCapabilities_within h, rfl⟩
  case negotiateAlgorithms => exact ⟨_, execNegotiateAlgorithms_within h, rfl⟩
  case getDigests => exact ⟨_, execGetDigests_within h, rfl⟩
  case getCertificate => exact ⟨_, execGetCertificate_within h, rfl⟩
  case challenge => exact ⟨_, execChallenge_within h, rfl⟩
  case getMeasurements => exact ⟨_, execGetMeasurements_within h, rfl⟩
  case spdmUnsupportedRequest => exact ⟨_, execSpdmUnsupportedRequest_within h, rfl⟩
  case registerMessageRead => exact ⟨_, execRegisterMessageRead_within h, rfl⟩
  case registerMessageWrite => exact ⟨_, execRegisterMessageWrite_within h, rfl⟩
  case mctpControl => exact ⟨_, execMctpControl_within h, rfl⟩
  case mctpDiscard => exact ⟨_, execMctpDiscard_within h, rfl⟩
  case pldmBaseRequest => exact ⟨_, execPldmBaseRequest_within h, rfl⟩
  case pldmSensorRead => exact ⟨_, execPldmSensorRead_within h, rfl⟩
  case setSensorThresholds => exact ⟨_, execSetSensorThresholds_within h, rfl⟩
  case setEventReceiver => exact ⟨_, execSetEventReceiver_within h, rfl⟩
  case pollForPlatformEventMessage => exact ⟨_, execPollForPlatformEventMessage_within h, rfl⟩
  case effecterWrite => exact ⟨_, execEffecterWrite_within h, rfl⟩
  case pldmUnsupported _ ty cmd => exact ⟨_, execPldmUnsupported_within (_ty := ty) (_cmd := cmd) h, rfl⟩
  case requestUpdate => exact ⟨_, execRequestUpdate_within h, rfl⟩
  case requestFirmwareData => exact ⟨_, execRequestFirmwareData_within h, rfl⟩
  case activateFirmware => exact ⟨_, execActivateFirmware_within h, rfl⟩
  case cancelUpdate => exact ⟨_, execCancelUpdate_within h, rfl⟩
  case keyExchangeDone => exact ⟨_, execKeyExchangeDone_within h, rfl⟩
  case rekeyRetry => exact ⟨_, execRekeyRetry_within h, rfl⟩
  case tideBoundary => exact ⟨_, execTideBoundary_within h, rfl⟩
  case alignLost => exact ⟨_, execAlignLost_within h, rfl⟩
  case stepBoundary => exact ⟨_, execStepBoundary_within h, rfl⟩
  case modelImageCopied => exact ⟨_, execModelImageCopied_within h, rfl⟩
  case mgmtPeriod => exact ⟨_, execMgmtPeriod_within h, rfl⟩
  case vuindigSystemReadDone => exact ⟨_, execVuindigSystemReadDone_within h, rfl⟩
  case mapJournalReplayed => exact ⟨_, execMapJournalReplayed_within h, rfl⟩
  case spillRegionReady => exact ⟨_, execSpillRegionReady_within h, rfl⟩
  case residencyStarved => exact ⟨_, execResidencyStarved_within h, rfl⟩
  case acctWindowClose => exact ⟨_, execAcctWindowClose_within h, rfl⟩
  case pcieLinkDown => exact ⟨_, execPcieLinkDown_within h, rfl⟩
  case functionLevelReset => exact ⟨_, execFunctionLevelReset_within h, rfl⟩
  case d3hotEntry => exact ⟨_, execD3hotEntry_within h, rfl⟩
  case wakeHoldExpire => exact ⟨_, execWakeHoldExpire_within h, rfl⟩
  case i3cAddressMatch => exact ⟨_, execI3cAddressMatch_within h, rfl⟩
  case inputGood => exact ⟨_, execInputGood_within h, rfl⟩
  case inputFail => exact ⟨_, execInputFail_within h, rfl⟩
  case auxLoss => exact ⟨_, execAuxLoss_within h, rfl⟩
  case auxReturn => exact ⟨_, execAuxReturn_within h, rfl⟩
  case regRdy => exact ⟨_, execRegRdy_within h, rfl⟩
  case oscRdy => exact ⟨_, execOscRdy_within h, rfl⟩
  case powerupStepTimeout => exact ⟨_, execPowerupStepTimeout_within h, rfl⟩
  case powerDownDone => exact ⟨_, execPowerDownDone_within h, rfl⟩
  case resetPinAssert => exact ⟨_, execResetPinAssert_within h, rfl⟩
  case resetPinRelease => exact ⟨_, execResetPinRelease_within h, rfl⟩
  case perstAssert => exact ⟨_, execPerstAssert_within h, rfl⟩
  case perstRelease => exact ⟨_, execPerstRelease_within h, rfl⟩
  case thermalTrip => exact ⟨_, execThermalTrip_within h, rfl⟩
  case brownout => exact ⟨_, execBrownout_within h, rfl⟩
  case capTick => exact ⟨_, execCapTick_within h, rfl⟩
  case quiesceDone => exact ⟨_, execQuiesceDone_within h, rfl⟩
  case bootVerifyDone => exact ⟨_, execBootVerifyDone_within h, rfl⟩
  case aliasCertIssued => exact ⟨_, execAliasCertIssued_within h, rfl⟩
  case unlockCheckDone => exact ⟨_, execUnlockCheckDone_within h, rfl⟩
  case verifyComplete => exact ⟨_, execVerifyComplete_within h, rfl⟩
  case applyComplete => exact ⟨_, execApplyComplete_within h, rfl⟩
  case updateTimeout => exact ⟨_, execUpdateTimeout_within h, rfl⟩
  case commandEngineReady => exact ⟨_, execCommandEngineReady_within h, rfl⟩
  case pcieLinkUp => exact ⟨_, execPcieLinkUp_within h, rfl⟩

/-- A part that the lists do not name a command for is as it was. -/
theorem exec_same {i : Instr} {s t : State} (h : exec i s = .next t) (p : Field) (hp : p.mayChangeBy i = false) : p.same s t := by
  obtain ⟨ps, hw, hps⟩ := exec_within h
  refine hw.same p fun hm => ?_
  rw [List.all_eq_true.1 hps p hm] at hp
  exact Bool.noConfusion hp

theorem exec_inv {i : Instr} {s t : State} (h : exec i s = .next t) (hs : Inv s) : Inv t :=
  (exec_within h).elim fun _ hw => hw.1.inv hs

theorem exec_clock_le {i : Instr} {s t : State} (h : exec i s = .next t) : s.clock ≤ t.clock :=
  (exec_within h).elim fun _ hw => hw.1.clockLe

theorem step_cons (c : Instr) (cs : List Instr) (s : State) : step { s with pending := c :: cs } = exec c { s with pending := cs } := rfl

theorem step_of_pending_nil {s : State} (h : s.pending = []) : step s = .next s.idle := by
  rw [step, h]

theorem step_of_pending_cons {s : State} {c : Instr} {cs : List Instr} (h : s.pending = c :: cs) :
    step s = exec c { s with pending := cs } := by
  rw [step, h]

/-- Settles O1: both branches of `step`; an idle tick leaves the queue (`State.idle_within`). -/
theorem stepRunsTheFrontCommand : Obligations.StepRunsTheFrontCommand := by
  unfold Obligations.StepRunsTheFrontCommand
  exact ⟨step_cons, fun s hs => ⟨s.idle, step_of_pending_nil hs, rfl, s.idle_within.pending.trans hs⟩⟩

/-- Settles O2: no list opens the queue. -/
theorem commandsKeepTheQueue : Obligations.CommandsKeepTheQueue := by
  unfold Obligations.CommandsKeepTheQueue
  exact fun i s t h => exec_same h .pending rfl

/-- Settles O4: `Inv` does not speak of the queue, every command keeps it (`exec_inv`), and so does an idle tick. -/
theorem stepKeepsInvariant : Obligations.StepKeepsInvariant := by
  unfold Obligations.StepKeepsInvariant
  intro s t hs h
  cases hp : s.pending with
  | nil =>
    rw [step_of_pending_nil hp] at h
    exact Host.Outcome.next.inj h ▸ s.idle_within.inv hs
  | cons c cs =>
    rw [step_of_pending_cons hp] at h
    exact exec_inv h ⟨hs.mem, hs.regs, hs.cap⟩

/-- Settles O8, by `exec_same`; at LOGIC_RDY the strap is the one read. -/
theorem strapsAreTakenAtLogicReady : Obligations.StrapsAreTakenAtLogicReady := by
  unfold Obligations.StrapsAreTakenAtLogicReady
  refine ⟨fun i s t hi h => exec_same h .fix ?_, fun b s hu => ?_⟩
  · cases i
    case logicRdy b => exact absurd rfl (hi b)
    all_goals rfl
  · refine ⟨_, congrArg Host.Outcome.next (if_neg (by simp [hu])), ?_⟩
    exact congrArg FixSt.bridge (Within.foldl Within.refl State.powerReq_within).fix

/-- Settles O9, by `exec_same`. -/
theorem otherCommandsLeaveMemory : Obligations.OtherCommandsLeaveMemory := by
  unfold Obligations.OtherCommandsLeaveMemory
  exact fun i s t hi h a => congrArg (mapGet 0 a) (exec_same h .mem hi)

/-- Settles O10, by `exec_same`. -/
theorem otherCommandsLeaveRegisters : Obligations.OtherCommandsLeaveRegisters := by
  unfold Obligations.OtherCommandsLeaveRegisters
  exact fun i s t hi h a => congrArg (fun m => (mapGet (resetWord a) a m).toNat) (exec_same h .regs hi)

/-- Settles O11, by `exec_same` and `exec_clock_le`. -/
theorem timeNeverGoesBack : Obligations.TimeNeverGoesBack := by
  unfold Obligations.TimeNeverGoesBack
  exact ⟨fun i s t hi h => ⟨exec_same h .clock hi, exec_same h .now hi⟩, fun i s t h => exec_clock_le h⟩

/-- Settles O12, by `exec_same`. -/
theorem otherCommandsLeavePower : Obligations.OtherCommandsLeavePower := by
  unfold Obligations.OtherCommandsLeavePower
  exact fun i s t hi h => exec_same h .pwr hi

/-- Settles O13, by `exec_same`. -/
theorem otherCommandsLeaveFaultsSecurityManagement : Obligations.OtherCommandsLeaveFaultsSecurityManagement := by
  unfold Obligations.OtherCommandsLeaveFaultsSecurityManagement
  exact fun i s t h => ⟨exec_same h .flt, exec_same h .sec, exec_same h .mgmt⟩

/-- Settles O14, by `exec_same`. -/
theorem otherCommandsLeaveUnitsTiersAndModel : Obligations.OtherCommandsLeaveUnitsTiersAndModel := by
  unfold Obligations.OtherCommandsLeaveUnitsTiersAndModel
  exact fun i s t h => ⟨exec_same h .ar, exec_same h .idx, exec_same h .kv, exec_same h .mm, exec_same h .fl, exec_same h .gen⟩

/-- Settles O15, by `exec_same`. -/
theorem otherCommandsLeaveQueuesAndLinks : Obligations.OtherCommandsLeaveQueuesAndLinks := by
  unfold Obligations.OtherCommandsLeaveQueuesAndLinks
  exact fun i s t h => ⟨exec_same h .sch, exec_same h .cmd, exec_same h .brg, exec_same h .zwx, exec_same h .outbox⟩

/-! ## Every command runs, and the state after reset -/

theorem exec_powerSample_of_rated {r : PowerReading} (hr : ¬ 7200 < r.centiVolt) (s : State) :
    exec (.powerSample r) s = .next (s.onPowerSample r) := if_neg hr

theorem exec_powerSample_of_excess {r : PowerReading} (hr : 7200 < r.centiVolt) (s : State) :
    exec (.powerSample r) s = .fault .outsideRatings := if_pos hr

/-- Settles O3: every command but a power sample is `.next` of something by its own definition. -/
theorem everyCommandRuns : Obligations.EveryCommandRuns := by
  unfold Obligations.EveryCommandRuns
  intro i s
  cases i
  case powerSample r =>
    by_cases hr : 7200 < r.centiVolt
    · exact .inr ⟨exec_powerSample_of_excess hr s, r, rfl, hr⟩
    · exact .inl ⟨_, exec_powerSample_of_rated hr s⟩
  all_goals exact .inl ⟨_, rfl⟩

/-- Settles O5: memory and registers are empty maps after reset, and the cap is 32. -/
theorem resetMeetsInvariant : Obligations.ResetMeetsInvariant := by
  unfold Obligations.ResetMeetsInvariant
  exact ⟨rfl, rfl, by decide⟩

theorem fstate_reset (f : Nat) : State.reset.fstate f = .disabled := by
  change (List.replicate 16 FState.disabled).getD f .disabled = .disabled
  rw [List.getD_eq_getElem?_getD, List.getElem?_replicate]
  split <;> rfl

/-- Settles O6: each part read off the state after reset, the functions' states by `fstate_reset`. -/
theorem resetLeavesTheDeviceEmpty : Obligations.ResetLeavesTheDeviceEmpty := by
  unfold Obligations.ResetLeavesTheDeviceEmpty
  exact ⟨rfl, rfl, rfl, rfl, rfl, rfl, rfl, fstate_reset, rfl, rfl, rfl, rfl, rfl, rfl, rfl, rfl, rfl, rfl, rfl, rfl, rfl, rfl, rfl,
    rfl, fun _ => rfl, fun _ => rfl⟩

end Sys2Proof.Machine
end

section
/-! The power states, the power-up and its failures, the pins, the cap and the coolant loop: the statements of chapter 15. -/

namespace Sys2Proof.Machine

/- The elaborator's threads each take a stack: one proof at a time keeps a text of this length within the memory limit. -/
set_option Elab.async false

/-! ## What the shared operations leave of byte memory and of the state -/

theorem Within.byte {ps : List Field} {s t : State} (h : Within ps s t) (hm : .mem ∉ ps := by decide) (a : Nat) : t.byte a = s.byte a :=
  congrArg (mapGet 0 a) (h.mem hm)

theorem Within.rd {ps : List Field} {s t : State} (h : Within ps s t) (hr : .regs ∉ ps := by decide) (a : Nat) : t.rd a = s.rd a :=
  congrArg (fun m => (mapGet (resetWord a) a m).toNat) (h.regs hr)

/-- Which entry a filter by keys leaves under a key. -/
theorem mapGet_filter {α : Type} (d : α) (p : Nat → Bool) (k : Nat) (m : List (Nat × α)) :
    mapGet d k (m.filter (fun e => p e.1)) = if p k = true then mapGet d k m else d := by
  induction m with
  | nil => simp [mapGet]
  | cons e m ih =>
    by_cases he : e.1 = k
    · subst he
      cases hp : p e.1 <;> simp_all [mapGet]
    · cases hp : p e.1 <;> simp_all [mapGet]

/-! ## Without the auxiliary input -/

/-- The module is off and neither comes up nor goes down. -/
structure PwrSt.IsOff (p : PwrSt) : Prop where
  st : p.st = .off
  upStep : p.upStep = 0
  downCause : p.downCause = none

theorem isOff_of_execWakePinChange {k : Nat} {level : Bool} {s t : State} (hs : s.pwr.IsOff) (h : execWakePinChange k level s = .next t) :
    t.pwr.IsOff := by
  unfold execWakePinChange at h
  obtain rfl := Host.Outcome.next.inj h
  split
  · exact hs
  · simpa [hs.st] using hs

namespace State
variable {s t : State} (hs : s.pwr.IsOff)
include hs

theorem not_powered_of_isOff : s.powered = false := by simp [powered, hs.st]

theorem not_mainOn_of_isOff : s.mainOn = false := by simp [mainOn, hs.st]

theorem wake_pwr_of_isOff (src : WakeSrc) : (s.wake src).pwr = s.pwr := by
  unfold wake
  simp [hs.downCause, hs.st]

theorem isOff_deliverWake : s.deliverWake.pwr.IsOff := by
  have hp : ({ s with pwr := { s.pwr with lastWake := some s.clock, heldWake := false } } : State).pwr.IsOff :=
    ⟨hs.st, hs.upStep, hs.downCause⟩
  have hc : (({ s with pwr := { s.pwr with lastWake := some s.clock, heldWake := false } } : State).count Reg.pwrWakeCnt).pwr.IsOff := by
    rwa [pwr_count]
  unfold deliverWake
  rw [if_neg (by simp [hs.st]), wake_pwr_of_isOff hc]
  exact hc

/-- The commands that may change the power state and act also while the main domains are off. -/
theorem isOff_of_power_command {i : Instr} (hi : (i.changesPower && !i.needsMainPower) = true) (ha : i ≠ .auxReturn)
    (h : exec i s = .next t) : t.pwr.IsOff := by
  have hp := not_powered_of_isOff hs
  have hm := not_mainOn_of_isOff hs
  have ends {u : State} (e : exec i s = .next u) (hu : u.pwr.IsOff) : t.pwr.IsOff :=
    Host.Outcome.next.inj (e.symm.trans h) ▸ hu
  have idle {u : State} (e : exec i s = .next u) (hu : u = s) : t.pwr.IsOff := ends e (hu ▸ hs)
  cases i
  case auxReturn => exact absurd rfl ha
  case wakePinChange => exact isOff_of_execWakePinChange hs h
  case debounceExpire =>
    refine ends rfl ?_
    split
    · exact hs
    · split
      · exact hs
      · rw [if_pos hs.st]
        exact hs
  case wakeHoldExpire =>
    refine ends rfl ?_
    split
    · exact isOff_deliverWake (by rwa [pwr_elapseClock])
    · exact hs
  case stuck =>
    refine ends rfl ?_
    split
    · exact hs
    · simpa [hs.st] using hs
  case i3cAddressMatch => exact idle rfl (if_neg (by simp [hs.st, hs.downCause]))
  case watchSample => exact idle rfl (if_pos (by simp [hs.st]))
  case inputGood => exact ends (congrArg Host.Outcome.next (if_neg (by simp [hs.st]))) ⟨hs.st, hs.upStep, hs.downCause⟩
  case powerupChecksPassed => exact idle rfl (by simp [hs.upStep])
  case regRdy => exact idle rfl (by simp [hs.upStep])
  case oscRdy => exact idle rfl (by simp [hs.upStep])
  case memRdy => exact idle rfl (by simp [hs.upStep])
  case logicRdy => exact idle rfl (by simp [hs.upStep])
  case powerupStepTimeout => exact idle rfl (by simp [hs.upStep])
  case powerDownDone => exact idle rfl (by simp [hs.downCause])
  case thermalTrip => exact idle rfl (by simp [hm])
  case coolHoldEnter => exact idle rfl (by simp [hs.st])
  case enterHold => exact idle rfl (reqWrite_of_not_powered hp hs.upStep ..)
  case leaveHold => exact idle rfl (reqWrite_of_not_powered hp hs.upStep ..)
  case enterWatch => exact idle rfl (reqWrite_of_not_powered hp hs.upStep ..)
  case brownout => exact idle rfl (if_pos (by simp [hs.st]))
  case powerSample => exact execPowerSample_of_not_powered hp h ▸ hs
  case auxLoss => exact ends rfl ⟨rfl, rfl, rfl⟩
  case perstRelease => exact ends rfl ⟨hs.st, hs.upStep, hs.downCause⟩
  case perstAssert => exact ends (congrArg Host.Outcome.next (if_pos (by simp [hp]))) ⟨hs.st, hs.upStep, hs.downCause⟩
  case inputFail => exact ends (congrArg Host.Outcome.next (if_neg (by simp [hm]))) ⟨hs.st, hs.upStep, hs.downCause⟩
  case resetPinAssert => exact ends (congrArg Host.Outcome.next (if_neg (by simp [hp]))) ⟨hs.st, hs.upStep, hs.downCause⟩
  case resetPinRelease => exact ends (congrArg Host.Outcome.next (if_neg (by simp [hs.st]))) ⟨hs.st, hs.upStep, hs.downCause⟩
  case pcieLinkDown =>
    refine ends rfl ?_
    split
    · have hd : s.hostDown.pwr.IsOff := by rwa [pwr_hostDown]
      exact ⟨hd.st, hd.upStep, hd.downCause⟩
    · exact hs
  case coolHoldClear =>
    refine ends rfl ?_
    split
    · rw [tryLeaveHold, if_neg (by simp [hs.st])]
      exact ⟨hs.st, hs.upStep, hs.downCause⟩
    · exact hs
  all_goals exact nomatch hi

theorem isOff_of_exec {i : Instr} (ha : i ≠ .auxReturn) (h : exec i s = .next t) : t.pwr.IsOff := by
  cases hc : i.changesPower
  case false => exact exec_pwr_of_not_changesPower hc h ▸ hs
  case true =>
    cases hn : i.needsMainPower
    case false => exact isOff_of_power_command hs (by simp [hc, hn]) ha h
    case true =>
      obtain rfl := Host.Outcome.next.inj ((exec_eq_self_of_not_powered (not_powered_of_isOff hs) hn).symm.trans h)
      exact hs

end State

/-- Settles O7, by the groups of commands of `State.isOff_of_exec`. -/
theorem withoutAuxiliaryInputTheModuleStaysOff : Obligations.WithoutAuxiliaryInputTheModuleStaysOff := by
  unfold Obligations.WithoutAuxiliaryInputTheModuleStaysOff
  intro i s t hst hu hd ha h
  obtain ⟨hst', hu', hd'⟩ := State.isOff_of_exec ⟨hst, hu, hd⟩ ha h
  exact ⟨hst', hu', hd'⟩


/-! ## Power-up, and the ways to lose power -/

/-- Settles O22: each step is one branch of its command. -/
theorem powerUpRunsInOrder : Obligations.PowerUpRunsInOrder := by
  unfold Obligations.PowerUpRunsInOrder
  refine ⟨fun s u r hst hu hc hs => ?_, fun s hu => ?_, fun s hu => ?_, fun s hu => ?_, fun s strap hu hr => ?_, fun s u h2 h5 hs => ?_⟩
  · subst hs
    exact congrArg Host.Outcome.next ((if_neg (by simp [hst, hu])).trans (if_pos hc))
  · exact congrArg Host.Outcome.next (if_pos hu)
  · exact congrArg Host.Outcome.next (if_pos hu)
  · exact congrArg Host.Outcome.next (if_pos hu)
  · refine ⟨_, congrArg Host.Outcome.next (if_neg (by simp [hu])), ?_⟩
    simp only [hr, List.foldl_nil, true_and]
    exact ⟨rfl, fun _ => rfl, fun _ => rfl⟩
  · subst hs
    exact congrArg Host.Outcome.next (if_pos ⟨h2, h5⟩)

namespace State

@[simp] theorem byte_wr (s : State) (a v x : Nat) : (s.wr a v).byte x = s.byte x := rfl

@[simp] theorem byte_setEvents (s : State) (m x : Nat) : (s.setEvents m).byte x = s.byte x := rfl

@[simp] theorem byte_lastDown (s : State) (cause k x : Nat) : (s.lastDown cause k).byte x = s.byte x := rfl

@[simp] theorem byte_startUp (s : State) (x : Nat) : s.startUp.byte x = s.byte x := rfl

/-- Of the bytes only those of flash below its spill region outlive the main domains (R412 Table 5). -/
theorem byte_darken (s : State) (a : Nat) : s.darken.byte a = if 0x400000000000 ≤ a ∧ a < 0x7C0000000000 then s.byte a else 0 := by
  have h := mapGet_filter 0 (fun k => decide (k ≥ 0x400000000000) && decide (k < 0x7C0000000000)) a s.mem
  simp only [Bool.and_eq_true, decide_eq_true_eq] at h
  exact h

/-- A state in which the main domains have lost power: no object and no command, and of memory only flash. -/
structure LostPower (s t : State) : Prop where
  objs : t.mm.objs = []
  live : t.cmd.live = []
  byte : ∀ a, t.byte a = if 0x400000000000 ≤ a ∧ a < 0x7C0000000000 then s.byte a else 0

theorem lostPower_of_same {s t u : State} (h : s.LostPower t) (hmm : u.mm = t.mm) (hcmd : u.cmd = t.cmd) (hmem : u.mem = t.mem) :
    s.LostPower u :=
  ⟨by rw [hmm, h.objs], by rw [hcmd, h.live], fun a => (congrArg (mapGet 0 a) hmem).trans (h.byte a)⟩

theorem lostPower_darken (s : State) : s.LostPower s.darken := ⟨rfl, rfl, s.byte_darken⟩

theorem lostPower_onAuxLoss (s : State) : s.LostPower s.onAuxLoss := lostPower_of_same s.lostPower_darken rfl rfl rfl

end State

theorem exec_powerDownDone {s : State} {c : Nat} (hd : s.pwr.downCause = some c) (hw : s.pwr.wakeNoted = false) :
    exec .powerDownDone s = .next (s.darken.lastDown c (if c = 4 then s.pwr.downStep else 0)) := by
  have hn : s.darken.pwr.wakeNoted = false := hw
  change execPowerDownDone s = _
  simp [execPowerDownDone, hd, hn]

theorem exec_inputFail_of_mainOn {s : State} (hm : s.mainOn = true) : ∃ t, exec .inputFail s = .next t ∧ t.pwr.st = .watch ∧
    t.pwr.inputGood = false ∧ s.LostPower t := by
  refine ⟨_, congrArg Host.Outcome.next (if_pos hm), ?_⟩
  have hl : s.LostPower ((({ s with pwr := { s.pwr with inputGood := false } } : State).darken.setEvents 0x04).lastDown 3 0) :=
    State.lostPower_of_same (State.lostPower_darken s) rfl rfl rfl
  dsimp only
  split
  · exact ⟨rfl, rfl, State.lostPower_of_same hl rfl rfl rfl⟩
  · exact ⟨rfl, rfl, hl⟩

theorem exec_thermalTrip_of_mainOn {s : State} (hm : s.mainOn = true) : ∃ t, exec .thermalTrip s = .next t ∧ t.pwr.st = .watch ∧
    s.LostPower t := by
  have hw := State.count_within ((s.darken.setEvents 0x01).lastDown 2 0) Reg.pwrTripCnt 1
  exact ⟨_, congrArg Host.Outcome.next (if_pos hm), congrArg PwrSt.st hw.pwr,
    State.lostPower_of_same s.lostPower_darken hw.mm hw.cmd hw.mem⟩

/-- Settles O23: each way ends in a state that `darken` left (`State.LostPower`). -/
theorem losingPowerKeepsOnlyFlash : Obligations.LosingPowerKeepsOnlyFlash := by
  unfold Obligations.LosingPowerKeepsOnlyFlash
  refine ⟨fun s c hd hw => ⟨_, exec_powerDownDone hd hw, rfl, rfl⟩, fun s hm => ⟨?_, ?_⟩, fun s => ?_⟩
  · obtain ⟨t, ht, hst, hin, hl⟩ := exec_inputFail_of_mainOn hm
    exact ⟨t, ht, hst, hin, hl.objs, hl.live, hl.byte⟩
  · obtain ⟨t, ht, hst, hl⟩ := exec_thermalTrip_of_mainOn hm
    exact ⟨t, ht, hst, hl.objs, hl.live, hl.byte⟩
  · have hl := s.lostPower_onAuxLoss
    exact ⟨_, rfl, rfl, rfl, hl.objs, hl.live, hl.byte⟩

/-! ## Supplies and pins of the watch domain -/

/-- A source that is answered starts the power-up of a module that rests in WATCH. -/
theorem State.wake_of_watch {s : State} {src : WakeSrc} (hst : s.pwr.st = .watch) (hu : s.pwr.upStep = 0)
    (hd : s.pwr.downCause = none) (hr : s.pwr.resetHeld = false) (ha : s.answers src = true) : s.wake src = s.startUp := by
  simp [State.wake, ha, hst, hu, hd, hr]

/-- Settles O24: each input is one branch of its command; the wakes by `State.wake_of_watch`. -/
theorem watchDomainInputs : Obligations.WatchDomainInputs := by
  unfold Obligations.WatchDomainInputs
  refine ⟨fun s hst => congrArg Host.Outcome.next (if_pos hst), fun s hst hu hd hr hf ht ha => ?_, fun s hst hu hd hr hm => ?_,
    fun s hp => congrArg Host.Outcome.next (if_pos hp), fun s hp => congrArg Host.Outcome.next (if_neg (by simp [hp])),
    fun s hr hw hst hd hu => congrArg Host.Outcome.next (if_pos (by simp [hr, hw, hst, hd, hu])), fun s hb => ⟨?_, ?_⟩,
    fun s hst hm hin => ?_⟩
  · refine congrArg Host.Outcome.next ((if_pos ⟨by simp [hst], ha⟩).trans ?_)
    have hans : ({ s with pwr := { s.pwr with inputGood := true } } : State).answers .auto = true := by
      have ht' : bit (({ s with pwr := { s.pwr with inputGood := true } } : State).rd Reg.pwrEvents) 0 = false := ht
      simp [State.answers, hf, ht']
    exact State.wake_of_watch hst hu hd hr hans
  · exact congrArg Host.Outcome.next ((if_pos ⟨.inl hst, hm⟩).trans (State.wake_of_watch hst hu hd hr rfl))
  · exact congrArg Host.Outcome.next (if_pos (by simp [hb]))
  · simp [exec, execPerstRelease, hb]
  · simp [exec, execBrownout, State.onBrownout, hst, hm, hin]

/-! ## Wake pins -/

namespace State

theorem pins_updPin_same (s : State) (k : Nat) (f : PinSt → PinSt) : (s.updPin k f).pwr.pins[k]? = (s.pwr.pins[k]?).map f :=
  getElem?_updAt_same k f s.pwr.pins

theorem pins_updPin_other (s : State) {k j : Nat} (f : PinSt → PinSt) (hj : j ≠ k) :
    (s.updPin k f).pwr.pins[j]? = s.pwr.pins[j]? :=
  getElem?_updAt_other f s.pwr.pins hj

/-- Re-arming treats each named pin once. -/
theorem pins_rearmPins {data k : Nat} (hk : k < 4) (hb : bit data k = true) (s : State) :
    (s.rearmPins data).pwr.pins[k]? = (s.pwr.pins[k]?).map PinSt.rearmed := by
  have fold : ∀ (l : List Nat) (u : State), l.Nodup →
      (l.foldl (fun s i => if !bit data i then s else s.updPin i PinSt.rearmed) u).pwr.pins[k]? =
        if k ∈ l then (u.pwr.pins[k]?).map PinSt.rearmed else u.pwr.pins[k]? := by
    intro l
    induction l with
    | nil => intro u _; rfl
    | cons i l ih =>
      intro u hn
      obtain ⟨hi, hl⟩ := List.nodup_cons.1 hn
      rw [List.foldl_cons, ih _ hl]
      by_cases hki : k = i
      · subst hki
        simp [hi, hb, pins_updPin_same]
      · simp only [List.mem_cons, hki, false_or]
        split_ifs <;> simp [pins_updPin_other _ _ hki]
  rw [rearmPins, fold _ s (List.nodup_range), if_pos (List.mem_range.2 hk)]

end State

section
variable {s : State} {k : Nat} {p : PinSt} (hp : s.pwr.pins[k]? = some p) (hst : s.pwr.st ≠ .off)
include hp hst

/-- A change of an enabled pin away from its accepted level waits its debounce time. -/
theorem exec_wakePinChange {level : Bool} (ha : (level == bit (s.rd (Reg.pwrWakeCfg k)) 1) ≠ p.active)
    (he : bit (s.rd (Reg.pwrWakeCfg k)) 0 = true) (hc : (level == bit (s.rd (Reg.pwrWakeCfg k)) 1) ≠ p.accepted) :
    exec (.wakePinChange k level) s = .next (s.updPin k (fun p =>
      { p with active := level == bit (s.rd (Reg.pwrWakeCfg k)) 1, changedAt := some s.clock })) := by
  change execWakePinChange k level s = _
  unfold execWakePinChange
  simp only [hp]
  rw [if_neg (by simp only [hst, ha, or_self, not_false_eq_true]), if_neg (by simp [he]), if_neg hc]

/-- An accepted level of an unmasked pin fires; the first wake is delivered at once. -/
theorem exec_debounceExpire {t : Nat} (hc : p.changedAt = some t) (ha : p.active = true) (hm : p.masked = false)
    (hs : p.stuck = false) (hw : s.pwr.lastWake = none) :
    exec (.debounceExpire k) s = .next ((s.elapseClock (t + s.debounceNs k)).updPin k (fun p =>
      { p with accepted := true, changedAt := none, masked := true
               acceptedAt := (s.elapseClock (t + s.debounceNs k)).clock })).deliverWake := by
  change execDebounceExpire k s = _
  simp [execDebounceExpire, hp, hc, hst, ha, hm, hs, State.updPin, hw]

theorem exec_stuck (hc : p.accepted = true) (ha : p.active = true) (hs : p.stuck = false) :
    exec (.stuck k) s = .next ((((s.elapseClock (s.stuckDue p.acceptedAt)).updPin k (fun p =>
      { p with stuck := true, masked := true })).setEvents 0x20).mgmtEvent (.oem 0xFB [0x11, k])) := by
  change execStuck k s = _
  simp [execStuck, hp, hst, hc, ha, hs]

end

theorem exec_rearm {s : State} {p : Path} (hp : s.powered = true) (hh : p ≠ .host) (data : Nat) :
    exec (.rearm p data) s = .next (s.rearmPins data) :=
  congrArg Host.Outcome.next ((if_neg (by simp [hp])).trans (if_neg hh))

/-- Settles O25, by one equation for each event of a pin. -/
theorem wakePinsDebounceAndFire : Obligations.WakePinsDebounceAndFire := by
  unfold Obligations.WakePinsDebounceAndFire
  refine ⟨fun s k p level hp hst ha he hc => exec_wakePinChange hp hst ha he hc, fun s u k t p hp hc hst ha hm hs hw hu => ?_,
    fun s w hh hw => exec_wakeHoldExpire hh hw, fun s k p hp hst hc ha hs => ⟨_, exec_stuck hp hst hc ha hs, ?_, fun x => ?_⟩,
    fun s k p data hpow hk hb hp hs hc => ⟨_, exec_rearm hpow (by decide) data, ?_⟩⟩
  · subst hu
    exact exec_debounceExpire hp hst hc ha hm hs hw
  · rw [State.pwr_mgmtEvent, State.pwr_setEvents, State.pins_updPin_same, State.pwr_elapseClock, hp]
    rfl
  · rw [(State.mgmtEvent_within _ _).byte]
    exact (s.elapseClock_within (s.stuckDue p.acceptedAt)).byte (by decide) x
  · rw [State.pins_rearmPins hk hb, hp]
    simp [PinSt.rearmed, hs, hc]

/-! ## Samples, cap and valve -/

namespace State

theorem byte_coolHold (s : State) (c : CoolCond) (x : Nat) : (s.coolHold c).byte x = s.byte x := (s.coolHold_within c).byte (by decide) x

theorem valve_enterHold (s : State) : s.enterHold.pwr.valve = s.pwr.valve := by
  unfold enterHold
  split
  · rw [pwr_count]
  · rfl

theorem valve_coolHold_sensorRange (s : State) : (s.coolHold .sensorRange).pwr.valve = 20000 := by
  rw [coolHold, valve_enterHold, pwr_setEvents, if_pos rfl]

theorem onPowerSample_of_powered {s : State} (hp : s.powered = true) (r : PowerReading) : s.onPowerSample r =
    ({ s.elapseTo (s.now + 10000) with pwr := { (s.elapseTo (s.now + 10000)).pwr with
      samples := (s.pwr.samples ++ [r.watt]).drop (s.pwr.samples.length + 1 - 100) } } : State).wr Reg.pwrInput
        (r.centiVolt % 65536 + ((s.pwr.samples ++ [r.watt]).drop (s.pwr.samples.length + 1 - 100)).sum /
          ((s.pwr.samples ++ [r.watt]).drop (s.pwr.samples.length + 1 - 100)).length % 65536 * 65536) := by
  simp [onPowerSample, hp]

@[simp] theorem pwr_elapseTo (s : State) (w : Nat) : (s.elapseTo w).pwr = s.pwr := (s.elapseTo_within w).pwr

end State

/-- A sensor out of range opens the valve fully and leaves every byte. -/
theorem exec_valveTick_of_not_inRange {s : State} {r : CoolReading} (hp : s.powered = true) (hr : r.inRange = false) :
    ∃ t, exec (.valveTick r) s = .next t ∧ t.pwr.valve = 20000 ∧ ∀ x, t.byte x = s.byte x := by
  have key : ∃ t, execValveTick r s = .next t := ⟨_, rfl⟩
  obtain ⟨t, ht⟩ := key
  refine ⟨t, ht, ?_, (execValveTick_within ht).byte (by decide)⟩
  unfold execValveTick at ht
  obtain rfl := Host.Outcome.next.inj ht
  simp only [hp, hr, Bool.not_true, Bool.false_eq_true, if_false, Bool.not_false, Bool.true_or, if_true, Bool.false_or]
  split_ifs <;> simp [State.valve_coolHold_sensorRange]

/-- Settles O26: the cap's branches, the sample's equation, and the valve. -/
theorem powerAndCoolingLoops : Obligations.PowerAndCoolingLoops := by
  unfold Obligations.PowerAndCoolingLoops
  refine ⟨fun s u r hp hr hu => ?_, fun s hp hst ha hb => ?_, fun s hp hst ha hb hc hn => ?_,
    fun s r hp hr => exec_valveTick_of_not_inRange hp hr, fun s u signal r hst hup hu hsig => ?_⟩
  · subst hu
    rw [exec_powerSample_of_rated (by omega), State.onPowerSample_of_powered hp]
  · obtain ⟨t, ht⟩ : ∃ t, execCapTick s = .next t := ⟨_, rfl⟩
    refine ⟨t, ht, ?_, ?_, (execCapTick_within ht).byte (by decide)⟩ <;>
    · unfold execCapTick at ht
      obtain rfl := Host.Outcome.next.inj ht
      simp only [hp, ha, hb, hst, State.pwr_elapseTo, Bool.not_true, Bool.false_eq_true, if_false, if_true]
      split_ifs <;> simp_all <;> omega
  · obtain ⟨t, ht⟩ : ∃ t, execCapTick s = .next t := ⟨_, rfl⟩
    refine ⟨t, ht, ?_, ?_, ?_, (execCapTick_within ht).byte (by decide)⟩ <;>
    · unfold execCapTick at ht
      obtain rfl := Host.Outcome.next.inj ht
      simp [hp, ha, hb, hst, hc, hn]
  · subst hu
    exact congrArg Host.Outcome.next ((if_neg (by simp [hst, hup])).trans (if_neg (by simpa using hsig)))

/-! ## HOLD and the way to WATCH -/

namespace State

theorem st_enterHold {s : State} (h : s.pwr.st = .run ∨ s.pwr.st = .cap) : s.enterHold.pwr.st = .hold := by
  rw [enterHold, if_pos h, pwr_count]

theorem conds_enterHold (s : State) : s.enterHold.pwr.conds = s.pwr.conds := by
  unfold enterHold
  split
  · rw [pwr_count]
  · rfl

theorem reqWrite_host {s : State} (hp : s.powered = true) (q : PReq) : s.reqWrite .host q = s.count Reg.mgmtHostDenyCnt := by
  simp [reqWrite, hp]

theorem reqWrite_powered {s : State} {p : Path} (hh : p ≠ .host) (hu : s.pwr.upStep = 0) (hp : s.powered = true) (q : PReq) :
    s.reqWrite p q = s.powerReq q := by
  simp [reqWrite, hh, hu, hp]

end State

theorem exec_coolHoldEnter {s : State} {c : CoolCond} (hst : s.pwr.st = .run ∨ s.pwr.st = .cap)
    (hv : c = .flowLow → 20000 ≤ s.pwr.valve) : exec (.coolHoldEnter c) s = .next (s.coolHold c) :=
  congrArg Host.Outcome.next (if_pos ⟨by tauto, hv⟩)

/-- Settles O27: the requests go through `reqWrite`; HOLD is entered and left by `enterHold` and `tryLeaveHold`. -/
theorem holdAndWatchRequests : Obligations.HoldAndWatchRequests := by
  unfold Obligations.HoldAndWatchRequests
  refine ⟨fun s c hst hv => ⟨_, exec_coolHoldEnter hst hv, ?_, ?_, s.byte_coolHold c⟩, fun s c hst hc hr hn => ?_,
    fun s p hh hu hp hst => ?_, fun s p hh hu hp hst hc hn => ?_, fun s p hh hu hp hst => ?_,
    fun s f hp => ⟨congrArg Host.Outcome.next (State.reqWrite_host hp _), congrArg Host.Outcome.next (State.reqWrite_host hp _),
      congrArg Host.Outcome.next (State.reqWrite_host hp _)⟩,
    fun s hst hp hl hf => congrArg Host.Outcome.next (if_pos (by
      simp only [hst, hp, hl, decide_true, Bool.true_and, List.isEmpty_nil]
      exact hf))⟩
  · exact State.st_enterHold (by rwa [State.pwr_setEvents])
  · rw [State.coolHold, State.conds_enterHold, State.pwr_setEvents]
    exact mem_addOnce_self c s.pwr.conds
  · simp [exec, execCoolHoldClear, State.tryLeaveHold, hst, hc, hr, hn]
  · change Host.Outcome.next (s.reqWrite p .hold) = _
    rw [State.reqWrite_powered hh hu hp]
    simp [State.powerReq, State.enterHold, hst]
  · change Host.Outcome.next (s.reqWrite p .leave) = _
    rw [State.reqWrite_powered hh hu hp]
    simp [State.powerReq, State.tryLeaveHold, hst, hc, hn]
  · change Host.Outcome.next (s.reqWrite p (.watch false)) = _
    rw [State.reqWrite_powered hh hu hp]
    simp [State.powerReq, hst]

end Sys2Proof.Machine
end

section
/-! Register accesses on the paths, local resets and interrupt bits, and the writes that act: the statements of chapter 18. -/

namespace Sys2Proof.Machine

/- The elaborator's threads each take a stack: one proof at a time keeps a text of this length within the memory limit. -/
set_option Elab.async false

/-! ## A register read after a write -/

namespace State

@[simp] theorem rd_unlatch (s : State) (a x : Nat) : (s.unlatch a).rd x = s.rd x := rfl

@[simp] theorem byte_unlatch (s : State) (a x : Nat) : (s.unlatch a).byte x = s.byte x := rfl

theorem rd_lt (s : State) (a : Nat) : s.rd a < 2 ^ 32 := BitVec.isLt _

theorem rd_congr {s t : State} (h : t.regs = s.regs) (a : Nat) : t.rd a = s.rd a :=
  congrArg (fun m => (mapGet (resetWord a) a m).toNat) h

end State

/-! ## A write that acts at once -/

namespace State
variable {s : State} {a : Nat}

theorem finishReset_of_free {b : Nat} (h : s.busy.contains b = false) : s.finishReset b = s := by
  rw [finishReset, if_neg (Bool.eq_false_iff.1 h)]

theorem writeWord_of_reachable (hr : s.reachable a) (p : Path) (v : Nat) : s.writeWord p a v = s.writeNow p a v := by
  unfold writeWord
  rw [finishReset_of_free hr.free]
  exact if_neg (Bool.eq_false_iff.1 hr.ready)

theorem writeOne_of_reachable (hr : s.reachable a) (p : Path) (data : Nat) : s.writeOne p a data = s.writeNow p a (data % 2 ^ 32) := by
  rw [writeOne, if_pos (by rw [hr.powered, hr.access]; rfl), writeWord_of_reachable hr]

theorem exec_registerWrite_of_reachable (hr : s.reachable a) (p : Path) (v : Nat) :
    exec (.registerWrite p a false v) s = .next (s.writeNow p a (v % 2 ^ 32)) := by
  have hacc : s.writeAccess p a false v = s.writeNow p a (v % 2 ^ 32) := by
    rw [writeAccess, writeWord_of_reachable hr]
    rfl
  exact congrArg Host.Outcome.next ((if_neg (by simp [hr.powered])).trans ((if_pos hr.access).trans hacc))

/-- A write of which its path may make every bit, with EXPERT where the host's range asks for it, reaches the register. -/
theorem writeNow_of_allowed {p : Path} {v i : Nat} {pg : PageRow} {r : RegRow} (hpg : pageOf a = some (pg, i)) (hrow : rowOf a = some r)
    (hm : s.refusedBits p pg a v = 0) (hx : p = .host → a % 0x1000 < 0x400 ∨ bit (s.rd (pageBase a + 0x0C)) 1 = true) :
    s.writeNow p a v = (s.writeReg p pg.typ i r a v 0).unlatch a := by
  have hexp : ¬ (p = .host ∧ 0x400 ≤ a % 0x1000 ∧ (!bit (s.rd (pageBase a + 0x0C)) 1) = true) := by
    rintro ⟨hh, hoff, hb⟩
    rcases hx hh with h | h
    · omega
    · simp [h] at hb
  unfold writeNow
  simp only [hpg, hrow, hm]
  rw [if_neg (by omega), if_neg hexp, if_neg (by simp)]

variable {p : Path} {typ i v : Nat} {r : RegRow}

/-- A plain RW register of a page without rules of its own takes the written bits, or records the write it ignores. -/
theorem writeReg_rw (hacc : r.acc = .rw) (hoff : 0x40 ≤ a % 0x1000) :
    s.writeReg p typ i r a v 0 =
      if rangesOk r v = true then s.writeRw typ i (a % 0x1000) a (s.rd a - (s.rd a &&& r.wmask) + (v &&& r.wmask))
      else s.regWriteErr a := by
  unfold writeReg
  dsimp only
  rw [if_neg (by omega), hacc, Nat.and_zero, Nat.sub_zero]

theorem writeReg_wo (hacc : r.acc = .wo) (hoff : a % 0x1000 ≠ 0x0C) :
    s.writeReg p typ i r a v 0 = s.writeWo p typ i (a % 0x1000) (v &&& r.wmask) := by
  unfold writeReg
  dsimp only
  rw [if_neg hoff, hacc, Nat.and_zero, Nat.sub_zero]

theorem writeWo_irqSet : s.writeWo p typ i 0x1C v = s.wr (basePage typ i + 0x14) (s.rd (basePage typ i + 0x14) ||| v) :=
  if_pos rfl

theorem writeRw_plain (ht : typ ∉ [0x03, 0x07, 0x0C, 0x0E, 0x0F, 0x10, 0x12, 0x13, 0x16, 0x18, 0x19]) (off new : Nat) :
    s.writeRw typ i off a new = s.wr a new := by
  unfold writeRw
  split <;> first | rfl | exact absurd (by decide) ht

end State

/-- Settles O16: such a write reaches `writeReg`, which stores the word or records the error. -/
theorem registerWriteSetsItsFields : Obligations.RegisterWriteSetsItsFields := by
  unfold Obligations.RegisterWriteSetsItsFields
  intro s p a v i pg r hwf hr hpg hrow hacc hoff ht hm hx
  have hw := State.writeNow_of_allowed hpg hrow hm hx
  rw [State.writeReg_rw hacc hoff] at hw
  rw [State.exec_registerWrite_of_reachable hr, hw]
  refine ⟨fun hok => ?_, fun hbad => by rw [if_neg (Bool.eq_false_iff.1 hbad)]⟩
  rw [if_pos hok, State.writeRw_plain ht]
  exact ⟨_, rfl, State.rd_wr_same hwf .., fun b hb => State.rd_wr_other s _ hb, fun _ => rfl⟩

/-! ## Local reset -/

theorem mapGet_mem {α : Type} (d : α) {k : Nat} {v : α} {m : List (Nat × α)} (hk : (m.map Prod.fst).Nodup) (h : (k, v) ∈ m) :
    mapGet d k m = v := by
  induction m with
  | nil => exact nomatch h
  | cons e m ih =>
    rw [List.map_cons, List.nodup_cons] at hk
    rcases List.mem_cons.1 h with rfl | h
    · exact if_pos rfl
    · have hne : e.1 ≠ k := fun he => hk.1 (he ▸ List.mem_map.2 ⟨_, h, rfl⟩)
      rw [mapGet, if_neg hne, ih hk.2 h]

theorem mapGet_not_mem {α : Type} (d : α) {k : Nat} {m : List (Nat × α)} (h : ∀ e ∈ m, e.1 ≠ k) : mapGet d k m = d := by
  induction m with
  | nil => rfl
  | cons e m ih => rw [mapGet, if_neg (h e (by simp)), ih fun f hf => h f (by simp [hf])]

theorem nodup_keys_of_mapWf {α : Type} [DecidableEq α] {d : Nat → α} {m : List (Nat × α)} (h : mapWf d m = true) :
    (m.map Prod.fst).Nodup := by
  induction m with
  | nil => simp
  | cons e m ih =>
    obtain ⟨-, habove, hm⟩ := (mapWf_cons d e m).1 h
    refine List.nodup_cons.2 ⟨fun hk => ?_, ih hm⟩
    obtain ⟨f, hf, hfe⟩ := List.mem_map.1 hk
    have := habove f hf
    omega

/-- A map rebuilt entry by entry reads, at a listed key, the new value of the last entry under it. -/
theorem mapGet_rebuilt {α : Type} [DecidableEq α] (d : Nat → α) (f : Nat → α → α) (k : Nat) (m acc : List (Nat × α))
    (hacc : mapWf d acc = true) (hm : (m.map Prod.fst).Nodup) :
    mapGet (d k) k (m.foldl (fun acc e => mapPut (d e.1) e.1 (f e.1 e.2) acc) acc) =
      if k ∈ m.map Prod.fst then f k (mapGet (d k) k m) else mapGet (d k) k acc := by
  induction m generalizing acc with
  | nil => rfl
  | cons e m ih =>
    rw [List.map_cons, List.nodup_cons] at hm
    rw [List.foldl_cons, ih _ (mapPut_wf d _ _ _ hacc) hm.2]
    by_cases hk : e.1 = k
    · subst hk
      rw [if_neg hm.1, List.map_cons, if_pos (by simp), mapGet_put_same d _ _ _ hacc, mapGet, if_pos rfl]
    · rw [mapGet_put_other _ _ _ _ _ _ (Ne.symm hk), mapGet, if_neg hk]
      simp only [List.map_cons, List.mem_cons, Ne.symm hk, false_or]

/-- A local reset leaves a register alone that holds its reset value. -/
theorem lresetWord_resetWord (a : Nat) : lresetWord a (resetWord a) = resetWord a := by
  unfold lresetWord
  split
  · rfl
  · ext i hi
    simp only [BitVec.getElem_or, BitVec.getElem_and, BitVec.getElem_not]
    cases (resetWord a)[i] <;> simp

theorem mapGet_lresetRegs {m : List (Nat × Word)} (h : Registers.wf m = true) (b a : Nat) :
    mapGet (resetWord a) a (lresetRegs b m) =
      if pageBase a = b then lresetWord a (mapGet (resetWord a) a m) else mapGet (resetWord a) a m := by
  rw [lresetRegs, mapGet_rebuilt resetWord (fun k w => if pageBase k = b then lresetWord k w else w) a m [] rfl (nodup_keys_of_mapWf h)]
  split
  · rfl
  · next hk =>
    have hm : mapGet (resetWord a) a m = resetWord a :=
      mapGet_not_mem _ fun e he hea => hk (List.mem_map.2 ⟨e, he, hea⟩)
    rw [hm, lresetWord_resetWord, ite_self]
    rfl

namespace State

theorem lresetActs_plain (s t : State) {b i : Nat} {pg : PageRow} (hpg : pageOf b = some (pg, i))
    (ht : pg.typ ∉ [0x07, 0x0E, 0x12, 0x13, 0x18, 0x19]) : s.lresetActs t b = t := by
  simp only [List.mem_cons, List.not_mem_nil, or_false, not_or] at ht
  obtain ⟨h07, h0E, h12, h13, h18, h19⟩ := ht
  simp [lresetActs, hpg, h07, h0E, h12, h13, h18, h19]

/-- What the end of a local reset of a page without rules of its own leaves (R437). -/
theorem finishReset_plain {s : State} {b i : Nat} {pg : PageRow} (hb : s.busy.contains b = true) (hpg : pageOf b = some (pg, i))
    (ht : pg.typ ∉ [0x07, 0x0E, 0x12, 0x13, 0x18, 0x19]) :
    (s.finishReset b).busy = s.busy.filter (fun x => x != b) ∧ (s.finishReset b).regs = lresetRegs b s.regs ∧
      (s.finishReset b).mem = s.mem := by
  unfold finishReset
  rw [if_pos hb]
  dsimp only
  rw [lresetActs_plain _ _ hpg ht]
  exact ⟨rfl, rfl, rfl⟩

end State

/-- BLK_CTL with LRESET = 1 puts the page under local reset. -/
theorem exec_localReset {s : State} {p : Path} {page i : Nat} {pg : PageRow} {r : RegRow} (hr : s.reachable (pageBase page + 0x0C))
    (hpg : pageOf (pageBase page + 0x0C) = some (pg, i)) (hrow : rowOf (pageBase page + 0x0C) = some r)
    (hoff : (pageBase page + 0x0C) % 0x1000 = 0x0C)
    (hm : s.refusedBits p pg (pageBase page + 0x0C) (s.rd (pageBase page + 0x0C) % 4 + 4) = 0) :
    ∃ n, exec (.localReset p page) s = .next ((s.writeCtl (pageBase page + 0x0C) (n % 4 + 4)).unlatch (pageBase page + 0x0C)) := by
  set a := pageBase page + 0x0C
  have hlt : (s.rd a % 4 + 4) % 2 ^ 32 = s.rd a % 4 + 4 := by omega
  have hbit : bit (s.rd a % 4 + 4) 2 = true := by simp only [bit, bits, beq_iff_eq]; omega
  have hctl : ∃ n, s.writeReg p pg.typ i r a (s.rd a % 4 + 4) 0 = s.writeCtl a (n % 4 + 4) := by
    unfold State.writeReg
    rw [if_pos hoff, if_pos ⟨hbit, by decide⟩]
    exact ⟨_, rfl⟩
  obtain ⟨n, hn⟩ := hctl
  refine ⟨n, congrArg Host.Outcome.next ((State.writeOne_of_reachable hr p _).trans ?_)⟩
  rw [hlt, State.writeNow_of_allowed hpg hrow hm (fun _ => .inl (by omega)), hn]

theorem exec_blkIrqSet {s : State} {p : Path} {page data i : Nat} {pg : PageRow} {r : RegRow} (hr : s.reachable (pageBase page + 0x1C))
    (hpg : pageOf (pageBase page + 0x1C) = some (pg, i)) (hrow : rowOf (pageBase page + 0x1C) = some r) (hacc : r.acc = .wo)
    (hoff : (pageBase page + 0x1C) % 0x1000 = 0x1C)
    (hm : s.refusedBits p pg (pageBase page + 0x1C) (data % 2 ^ 32) = 0) :
    exec (.blkIrqSet p page data) s = .next ((s.wr (basePage pg.typ i + 0x14)
      (s.rd (basePage pg.typ i + 0x14) ||| (data % 2 ^ 32 &&& r.wmask))).unlatch (pageBase page + 0x1C)) := by
  refine congrArg Host.Outcome.next ?_
  rw [State.writeOne_of_reachable hr, State.writeNow_of_allowed hpg hrow hm (fun _ => .inl (by omega)),
    State.writeReg_wo hacc (by omega), hoff, State.writeWo_irqSet]

/-- Settles O17: LRESET and IRQ_SET by their equations, the end of a local reset by what it leaves of the register map. -/
theorem blockControlWrites : Obligations.BlockControlWrites := by
  unfold Obligations.BlockControlWrites
  refine ⟨fun s p page i pg r hr hpg hrow _ hoff hm => ?_, fun s p page data i pg r hwf hr hpg hrow hacc hmask hoff hm => ?_,
    fun s page i pg hp hb hwf hpg ht => ?_⟩
  · obtain ⟨n, hn⟩ := exec_localReset hr hpg hrow hoff hm
    have hbit : bit (n % 4 + 4) 2 = true := by simp only [bit, bits, beq_iff_eq]; omega
    refine ⟨_, hn, ?_, fun x => ?_⟩
    · rw [State.writeCtl, if_pos hbit]
      exact mem_addOnce_self _ _
    · rw [State.writeCtl, if_pos hbit]
      rfl
  · refine ⟨_, exec_blkIrqSet hr hpg hrow hacc hoff hm, ?_, fun b hb => State.rd_wr_other s _ hb, fun _ => rfl⟩
    rw [State.rd_unlatch, State.rd_wr_same hwf, hmask]
  · obtain ⟨hbusy, hregs, hmem⟩ := State.finishReset_plain hb hpg ht
    refine ⟨s.finishReset (pageBase page), congrArg Host.Outcome.next (if_pos hp), ?_, fun a => ?_, fun x => congrArg (mapGet 0 x) hmem⟩
    · simp [hbusy]
    · simp only [State.rd, hregs, mapGet_lresetRegs hwf, BitVec.ofNat_toNat, BitVec.setWidth_eq]
      split <;> rfl

/-! ## EVENTS and device time -/

theorem State.readAccess_of_lo {s : State} {a : Nat} (hb : s.busy.contains (pageBase a) = false) (hlo : isLo a = true) :
    s.readAccess a false =
      (s.view a, { s with latches := s.latches.filter (fun e => e.1 != a + 4) ++ [(a + 4, s.view (a + 4))] }) := by
  have hread : s.readAccess a false = s.readWord a := by
    simp only [State.readAccess, State.finishReset_of_free hb, Bool.not_false, if_true]
  rw [hread, State.readWord, if_pos hlo]

theorem isLo_pwrDevtimeLo : isLo Reg.pwrDevtimeLo = true := by decide +kernel

theorem exec_devtimeLoRead {s : State} (hp : s.powered = true) (hb : s.busy.contains (pageBase Reg.pwrDevtimeLo) = false) (p : Path) :
    exec (.devtimeLoRead p) s = .next { s with
      latches := s.latches.filter (fun e => e.1 != Reg.pwrDevtimeLo + 4) ++ [(Reg.pwrDevtimeLo + 4, s.view (Reg.pwrDevtimeLo + 4))]
      outbox := s.outbox ++ [.regAnswer p Reg.pwrDevtimeLo false (s.view Reg.pwrDevtimeLo) false] } := by
  change execDevtimeLoRead p s = _
  rw [execDevtimeLoRead, if_pos hp, State.readAccess_of_lo hb isLo_pwrDevtimeLo]
  rfl

/-- What a read of a register of the PWR page shows, on a page that is ready. -/
theorem State.view_pwr {s : State} {a i off : Nat} {pg : PageRow} {r : RegRow} (hpg : pageOf a = some (pg, i)) (hrow : rowOf a = some r)
    (ht : pg.typ = 0x03) (hacc : r.acc ≠ .wo) (ha : a % 0x1000 = off) (hoff : 0x40 ≤ off) (hr : s.notReady.contains (pageBase a) = false) :
    s.view a = s.viewPwr off a % 2 ^ 32 := by
  subst ha
  unfold State.view
  simp only [hpg, hrow]
  rw [if_neg hacc, if_neg (Bool.eq_false_iff.1 hr), if_neg (by omega), if_neg (by omega), ht]
  rfl

theorem view_pwrDevtime {s : State} (hr : s.notReady.contains (pageBase Reg.pwrDevtimeLo) = false) :
    s.view Reg.pwrDevtimeLo = s.devTime % 2 ^ 32 ∧ s.view (Reg.pwrDevtimeLo + 4) = s.devTime / 2 ^ 32 % 2 ^ 32 := by
  have hlo : ∃ pg i r, pageOf Reg.pwrDevtimeLo = some (pg, i) ∧ rowOf Reg.pwrDevtimeLo = some r ∧ pg.typ = 0x03 ∧ r.acc = .ro :=
    ⟨_, _, _, rfl, rfl, rfl, rfl⟩
  have hhi : ∃ pg i r, pageOf (Reg.pwrDevtimeLo + 4) = some (pg, i) ∧ rowOf (Reg.pwrDevtimeLo + 4) = some r ∧ pg.typ = 0x03 ∧ r.acc = .ro :=
    ⟨_, _, _, rfl, rfl, rfl, rfl⟩
  obtain ⟨pg, i, r, hpg, hrow, ht, hacc⟩ := hlo
  obtain ⟨pg', i', r', hpg', hrow', ht', hacc'⟩ := hhi
  rw [State.view_pwr (off := 0x05C) hpg hrow ht (by simp [hacc]) rfl (by decide) hr,
    State.view_pwr (off := 0x060) hpg' hrow' ht' (by simp [hacc']) rfl (by decide) hr]
  exact ⟨by simp [State.viewPwr, wordOf], by simp [State.viewPwr, wordOf]⟩

/-- Settles O18. -/
theorem eventsClearAndDeviceTimeLatches : Obligations.EventsClearAndDeviceTimeLatches := by
  unfold Obligations.EventsClearAndDeviceTimeLatches
  refine ⟨⟨fun s p data hwf hp hh => ⟨s.clearEvents data, congrArg Host.Outcome.next ((if_neg (by simp [hp])).trans (if_neg hh)), ?_,
      fun a ha => State.rd_wr_other s _ ha, fun _ => rfl⟩,
    fun s data hp => congrArg Host.Outcome.next ((if_neg (by simp [hp])).trans (if_pos rfl)), fun s p data hp hh => exec_rearm hp hh data⟩,
    fun s p hp hb hr => ⟨exec_devtimeLoRead hp hb p, (view_pwrDevtime hr).1, (view_pwrDevtime hr).2, ?_⟩⟩
  · have hlt := s.rd_lt Reg.pwrEvents
    rw [State.clearEvents, State.rd_wr_same hwf]
    exact Nat.mod_eq_of_lt (by omega)
  · unfold State.devTime
    omega

end Sys2Proof.Machine
end

section
/-! Register packets and messages, the windows of the bridge, and the writes that act: the statements of chapters 13 and 18. -/

namespace Sys2Proof.Machine

/- The elaborator's threads each take a stack: one proof at a time keeps a text of this length within the memory limit. -/
set_option Elab.async false

/-! ## Register packets and messages -/

theorem State.taken_of_runs {s : State} {x : Transport} (hr : s.mctpRuns x = true) (f : State → State) :
    s.taken x f = f (s.count Reg.mgmtMctpRxCnt) := if_pos hr

/-- Settles O19: both packets and both messages are one branch of their commands. -/
theorem registerPacketsAreAnswered : Obligations.RegisterPacketsAreAnswered := by
  unfold Obligations.RegisterPacketsAreAnswered
  refine ⟨fun s r hp ha => ⟨?_, ?_⟩, fun s r hp ha => ⟨?_, ?_⟩, fun s u x wide addr data hx hu ha => ⟨?_, ?_⟩⟩
  · exact congrArg Host.Outcome.next ((if_neg (by simp [hp])).trans (if_neg (by simp [ha])))
  · exact congrArg Host.Outcome.next ((if_neg (by simp [hp])).trans (if_neg (by simp [ha])))
  · exact congrArg Host.Outcome.next ((if_neg (by simp [hp])).trans (if_pos (by simp [ha])))
  · exact congrArg Host.Outcome.next ((if_neg (by simp [hp])).trans (if_pos (by simp [ha])))
  · subst hu
    exact congrArg Host.Outcome.next ((State.taken_of_runs hx _).trans (if_pos ha))
  · subst hu
    exact congrArg Host.Outcome.next ((State.taken_of_runs hx _).trans (if_pos ha))

/-! ## The windows of the bridge (R350) -/

theorem exec_regRsp {s : State} {r : RegPkt} {w : WinAcc} (hp : s.powered = true)
    (hw : s.brg.wins.find? (fun w => w.rid == r.rid && w.ord == r.srcOrd) = some w) :
    exec (.regRsp r) s = .next (s.endWin w (if w.wide then r.data else r.data % 2 ^ 32) r.err) := by
  change execRegRsp r s = _
  simp [execRegRsp, hw, hp, Option.filter]

theorem exec_regwinTimeout {s : State} {rid : Nat} {w : WinAcc} (hp : s.powered = true)
    (hw : s.brg.wins.find? (fun w => w.rid == rid) = some w) :
    exec (.regwinTimeout rid) s =
      .next ((s.elapseTo (w.sentAt + bits (s.rd Reg.hostRegwinCfg) 9 0 * 1000)).endWin w 0 (!w.write)) := by
  change execRegwinTimeout rid s = _
  simp [execRegwinTimeout, hw, hp, Option.filter]

/-- Settles O20: a read of another device's window opens a window, and `endWin` closes it. -/
theorem registerWindowsOfTheBridge : Obligations.RegisterWindowsOfTheBridge := by
  unfold Obligations.RegisterWindowsOfTheBridge
  refine ⟨fun s off hp hb ho ha hd hpath => ?_, fun s r w hp hw => ⟨fun hwr he => ?_, fun hwr he => ?_, fun hwr he => ?_, fun hwr he => ?_⟩,
    fun s u rid w hp hw hwr hu => ?_⟩
  · refine congrArg Host.Outcome.next ((if_neg (by simp [hp, hb])).trans ((if_neg ho).trans (if_neg ?_)))
    rw [ha, hpath, decide_eq_false (Nat.not_le.2 hd)]
    decide
  · rw [exec_regRsp hp hw, State.endWin, hwr, he]
    rfl
  · rw [exec_regRsp hp hw, State.endWin, hwr, he]
    rfl
  · rw [exec_regRsp hp hw, State.endWin, hwr, he]
    rfl
  · rw [exec_regRsp hp hw, State.endWin, hwr, he]
    rfl
  · subst hu
    rw [exec_regwinTimeout hp hw, State.endWin, hwr]
    rfl

/-! ## Writes of one register that act -/

/-- Where each register stands whose write acts: its page, its row, and that no path rule but `refusedBits` speaks of it. -/
theorem pageOf_faultFenceCtl : ∃ pg r, pageOf Reg.faultFenceCtl = some (pg, 0) ∧ pg.typ = 0x04 ∧ rowOf Reg.faultFenceCtl = some r ∧
    r.acc = .wo ∧ r.wmask = 0xFFFF := ⟨_, _, rfl, rfl, rfl, rfl, rfl⟩

theorem pageOf_secCtl : ∃ pg r, pageOf Reg.secCtl = some (pg, 0) ∧ pg.typ = 0x05 ∧ rowOf Reg.secCtl = some r ∧
    r.acc = .wo ∧ r.wmask = 7 := ⟨_, _, rfl, rfl, rfl, rfl, rfl⟩

theorem pageOf_funcReset {f : Nat} (hf : f < 16) : ∃ pg r, pageOf (Reg.funcReset f) = some (pg, f) ∧ pg.typ = 0x11 ∧
    rowOf (Reg.funcReset f) = some r ∧ r.acc = .wo ∧ r.wmask = 1 ∧ Reg.funcReset f % 0x1000 = 0x40 := by
  interval_cases f <;> exact ⟨_, _, rfl, rfl, rfl, rfl, rfl, rfl⟩

/-- A write of a write-only register that its path may make. -/
theorem State.writeNow_wo {s : State} {p : Path} {a v i : Nat} {pg : PageRow} {r : RegRow} (hpg : pageOf a = some (pg, i))
    (hrow : rowOf a = some r) (hacc : r.acc = .wo) (hoff : 0x40 ≤ a % 0x1000) (hm : s.refusedBits p pg a v = 0)
    (hx : p = .host → a % 0x1000 < 0x400) :
    s.writeNow p a v = (s.writeWo p pg.typ i (a % 0x1000) (v &&& r.wmask)).unlatch a := by
  rw [State.writeNow_of_allowed hpg hrow hm fun hh => .inl (hx hh), State.writeReg_wo hacc (by omega)]

theorem refusedBits_of_plain {s : State} {p : Path} {pg : PageRow} {a v : Nat} (hh : p = .host → ownedReg a = false ∧ a % 0x1000 ≠ 0x0C)
    (hcfg : a ≠ Reg.secCfg) (hctl : a ≠ Reg.secCtl) : s.refusedBits p pg a v = 0 := by
  unfold State.refusedBits
  rw [if_neg fun h => by simp [(hh h.1).1] at h, if_neg hcfg, if_neg hctl, if_neg fun h => (hh h.1).2 h.2]

/-- The unit that a request of FENCE_CTL names (R401). -/
def fenceCtlUnit (v : Nat) : FenceUnit := { whole := bit v 13, island := bits v 8 0, islet := if bit v 13 then 0 else bits v 12 9 }

theorem fenceCtlUnit_fenceWord {op : Nat} {u : FenceUnit} (hop : op < 4) (hi : u.island < 512) (hj : u.islet < 16)
    (hw : u.whole = true → u.islet = 0) : fenceCtlUnit (fenceWord op u) = u ∧ bits (fenceWord op u) 15 14 = op ∧ fenceWord op u < 2 ^ 16 := by
  have hb : b2n u.whole < 2 := by cases u.whole <;> decide
  have hwhole : bit (fenceWord op u) 13 = u.whole := by
    have h13 : bits (fenceWord op u) 13 13 = b2n u.whole := by simp only [bits, fenceWord]; omega
    rw [bit, h13]
    cases u.whole <;> rfl
  have hislet : (if bit (fenceWord op u) 13 = true then 0 else bits (fenceWord op u) 12 9) = u.islet := by
    rw [hwhole]
    split
    · next h => exact (hw h).symm
    · simp only [bits, fenceWord]; omega
  refine ⟨?_, by simp only [bits, fenceWord]; omega, by simp only [fenceWord]; omega⟩
  have hisland : bits (fenceWord op u) 8 0 = u.island := by simp only [bits, fenceWord]; omega
  rw [fenceCtlUnit, hislet, hwhole, hisland]

namespace State
variable {s : State}

/-- A request of FENCE_CTL on the core path. -/
theorem writeOne_faultFenceCtl (hr : s.reachable Reg.faultFenceCtl) {v : Nat} (hv : v < 2 ^ 16) :
    s.writeOne .core Reg.faultFenceCtl v = (match bits v 15 14 with
      | 1 => s.askFence (fenceCtlUnit v)
      | 2 => s.askReadmit (fenceCtlUnit v)
      | 3 => s.emptyList
      | _ => s).unlatch Reg.faultFenceCtl := by
  obtain ⟨pg, r, hpg, ht, hrow, hacc, hmask⟩ := pageOf_faultFenceCtl
  have hcore : Path.core ≠ .host := by decide
  have hand : v &&& 0xFFFF = v := by
    rw [show (0xFFFF : Nat) = 2 ^ 16 - 1 by rfl, Nat.and_two_pow_sub_one_eq_mod, Nat.mod_eq_of_lt hv]
  rw [writeOne_of_reachable hr, Nat.mod_eq_of_lt (by omega), writeNow_wo hpg hrow hacc (by decide)
    (refusedBits_of_plain (fun h => absurd h hcore) (by decide) (by decide)) (fun h => absurd h hcore), ht, hmask, hand]
  rfl

theorem exec_fence (hr : s.reachable Reg.faultFenceCtl) {u : FenceUnit} (hi : u.island < 512) (hj : u.islet < 16)
    (hw : u.whole = true → u.islet = 0) : exec (.fence .core u) s = .next ((s.fenceCause u .request).unlatch Reg.faultFenceCtl) := by
  obtain ⟨hu, hop, hlt⟩ := fenceCtlUnit_fenceWord (op := 1) (by decide) hi hj hw
  refine congrArg Host.Outcome.next ((if_pos ⟨hi, hj⟩).trans ?_)
  rw [writeOne_faultFenceCtl hr hlt, hop, hu]
  rfl

theorem exec_readmit (hr : s.reachable Reg.faultFenceCtl) {u : FenceUnit} (hi : u.island < 512) (hj : u.islet < 16)
    (hw : u.whole = true → u.islet = 0) : exec (.readmit .core u) s = .next ((s.askReadmit u).unlatch Reg.faultFenceCtl) := by
  obtain ⟨hu, hop, hlt⟩ := fenceCtlUnit_fenceWord (op := 2) (by decide) hi hj hw
  refine congrArg Host.Outcome.next ((if_pos ⟨hi, hj⟩).trans ?_)
  rw [writeOne_faultFenceCtl hr hlt, hop, hu]
  rfl

theorem exec_clearList (hr : s.reachable Reg.faultFenceCtl) :
    exec (.clearList .core) s = .next (s.emptyList.unlatch Reg.faultFenceCtl) :=
  congrArg Host.Outcome.next (writeOne_faultFenceCtl hr (by decide))

/-- FUNC.RESET starts the partition reset, with the cause of its path. -/
theorem writeOne_funcReset {f : Nat} (hf : f < 16) (hr : s.reachable (Reg.funcReset f)) (p : Path) :
    s.writeOne p (Reg.funcReset f) 1 = (s.startReset f (match p with
      | .host => 1
      | _ => 2)).unlatch (Reg.funcReset f) := by
  obtain ⟨pg, r, hpg, ht, hrow, hacc, hmask, hoff⟩ := pageOf_funcReset hf
  have hplain : (p = .host → ownedReg (Reg.funcReset f) = false ∧ Reg.funcReset f % 0x1000 ≠ 0x0C) ∧
      Reg.funcReset f ≠ Reg.secCfg ∧ Reg.funcReset f ≠ Reg.secCtl := by
    interval_cases f <;> exact ⟨fun _ => by decide, by decide, by decide⟩
  rw [writeOne_of_reachable hr, writeNow_wo hpg hrow hacc (by omega)
    (refusedBits_of_plain hplain.1 hplain.2.1 hplain.2.2) (fun _ => by omega), ht, hoff, hmask]
  rfl

/-- SEC.CTL takes the requests that its path may make. -/
theorem writeOne_secCtl (hr : s.reachable Reg.secCtl) {p : Path} {v : Nat} (hv : v < 8)
    (hm : (p = .core ∧ v &&& 4 = 0) ∨ (p = .mgmt ∧ v &&& 2 = 0)) :
    s.writeOne p Reg.secCtl v = (s.writeWo p 0x05 0 0x404 v).unlatch Reg.secCtl := by
  obtain ⟨pg, r, hpg, ht, hrow, hacc, hmask⟩ := pageOf_secCtl
  have hand : v &&& 7 = v := by
    rw [show (7 : Nat) = 2 ^ 3 - 1 by rfl, Nat.and_two_pow_sub_one_eq_mod, Nat.mod_eq_of_lt hv]
  have hh : p ≠ .host := by
    rcases hm with ⟨rfl, -⟩ | ⟨rfl, -⟩ <;> decide
  have href : s.refusedBits p pg Reg.secCtl v = 0 := by
    unfold refusedBits
    rw [if_neg fun h => hh h.1, if_neg (by decide), if_pos rfl]
    rcases hm with ⟨rfl, h⟩ | ⟨rfl, h⟩ <;> exact h
  rw [writeOne_of_reachable hr, Nat.mod_eq_of_lt (by omega), writeNow_wo hpg hrow hacc (by decide) href (fun h => absurd h hh), ht,
    hmask, hand]
  rfl

end State

/-- Settles O21: every row is `writeOne` of its register, which acts at once; the acting registers by their own equations. -/
theorem oneRegisterWritesAct : Obligations.OneRegisterWritesAct := by
  unfold Obligations.OneRegisterWritesAct
  refine ⟨⟨fun s p data => ⟨fun hr => ?_, fun hi hr => ?_, fun die hd hr => ?_, fun func hf hr => ?_, fun port hp hr => ?_,
    fun ring hn hr => ?_⟩, fun s ring tail i pg r hwf hn hr hpg ht hrow hacc hrg hmask hoff hm => ?_⟩,
    fun s u hr hi hj hw => ⟨⟨_, State.exec_fence hr hi hj hw, rfl, mem_addOnce_self _ _⟩, _, State.exec_readmit hr hi hj hw, rfl, ?_⟩,
    fun s hr => State.exec_clearList hr, fun s f hf hr => ⟨?_, ?_⟩, fun s hr => ⟨?_, ?_, ?_⟩⟩
  · exact congrArg Host.Outcome.next (State.writeOne_of_reachable hr p data)
  · exact congrArg Host.Outcome.next (State.writeOne_of_reachable hr p data)
  · exact congrArg Host.Outcome.next ((if_pos hd).trans (State.writeOne_of_reachable hr p data))
  · exact congrArg Host.Outcome.next ((if_pos hf).trans (State.writeOne_of_reachable hr p data))
  · exact congrArg Host.Outcome.next ((if_pos hp).trans (State.writeOne_of_reachable hr p data))
  · exact congrArg Host.Outcome.next ((if_pos hn).trans (State.writeOne_of_reachable hr .host data))
  · have hw := State.writeNow_of_allowed hpg hrow hm (fun _ => .inl (by omega))
    have hrange : rangesOk r (tail % 2 ^ 32) = true := by rw [rangesOk, hrg]; rfl
    have hring (new : Nat) : s.writeRw 0x19 i 0x58 (Reg.hringSqTail ring) new = s.wr (Reg.hringSqTail ring) new := by
      simp [State.writeRw, State.writeRing]
    have hand : tail % 2 ^ 32 &&& 0xFFFF = tail % 65536 := by
      rw [show (0xFFFF : Nat) = 2 ^ 16 - 1 by rfl, Nat.and_two_pow_sub_one_eq_mod]
      omega
    rw [State.writeReg_rw hacc (by omega), if_pos hrange, ht, hoff, hring, hmask, hand] at hw
    refine ⟨_, congrArg Host.Outcome.next ((if_pos hn).trans ((State.writeOne_of_reachable hr .host tail).trans hw)),
      State.rd_wr_same hwf .., fun b hb => State.rd_wr_other s _ hb, fun _ => rfl⟩
  · intro hf
    rw [State.askReadmit, if_pos hf]
    exact mem_addOnce_self _ _
  · exact congrArg Host.Outcome.next ((if_pos hf).trans (State.writeOne_funcReset hf hr .host))
  · exact congrArg Host.Outcome.next ((if_pos hf).trans (State.writeOne_funcReset hf hr .core))
  · exact congrArg Host.Outcome.next (State.writeOne_secCtl hr (by decide) (.inl ⟨rfl, rfl⟩))
  · exact congrArg Host.Outcome.next (State.writeOne_secCtl hr (by decide) (.inl ⟨rfl, rfl⟩))
  · exact congrArg Host.Outcome.next (State.writeOne_secCtl hr (by decide) (.inr ⟨rfl, rfl⟩))

end Sys2Proof.Machine
end

section
/-! The lagoon atomics that add, and that keep the larger or smaller value, for the statements of chapter 2. -/

namespace Sys2Proof.Machine

/- The elaborator's threads each take a stack: one proof at a time keeps a text of this length within the memory limit. -/
set_option Elab.async false

theorem leNat_lt (bs : List Byte) : leNat bs < 256 ^ bs.length := by
  induction bs with
  | nil => simp [leNat]
  | cons b bs ih =>
    have hb : b.toNat < 256 := b.isLt
    rw [leNat, List.length_cons, Nat.pow_succ]
    omega

@[simp] theorem State.length_bytes (s : State) (a n : Nat) : (s.bytes a n).length = n := by simp [State.bytes]

theorem State.leNat_bytes_lt (s : State) (a n : Nat) : leNat (s.bytes a n) < 256 ^ n := by
  have h := leNat_lt (s.bytes a n)
  rwa [State.length_bytes] at h

/-- A refused atomic ends its task and stores nothing (R54). -/
theorem State.byte_atomic_refused {s : State} {r : AtomicReq} {n st : Nat} {f : Nat → Option Nat} (hp : s.powered = true)
    (hr : s.atomicRefusal r n = some st) (x : Nat) : (s.atomic r n f).byte x = s.byte x := by
  unfold State.atomic
  simp only [hp, hr, Bool.not_true, Bool.false_eq_true, if_false]
  rw [(State.complete_within ..).byte, State.byte_emit, State.byte_count]

/-- An atomic that is carried out and always stores: the word that stands there after it, the answer, and the bytes it leaves. -/
theorem State.atomic_stores {s : State} {r : AtomicReq} {n : Nat} (g : Nat → Nat) (hm : Memory.wf s.mem = true) (hp : s.powered = true)
    (hr : s.atomicRefusal r n = none) (hf : s.flt.islands.contains ((r.addr - 0x100000000000) / 2 ^ 21) = false) :
    leNat ((s.atomic r n (fun old => some (g old))).bytes r.addr n) = g (leNat (s.bytes r.addr n)) % 256 ^ n ∧
    (s.atomic r n (fun old => some (g old))).outbox = s.outbox ++ [.atomicOld r.islet (leNat (s.bytes r.addr n))] ∧
    ∀ a, a < r.addr ∨ r.addr + n ≤ a → (s.atomic r n (fun old => some (g old))).byte a = s.byte a :=
  ⟨State.leNat_bytes_atomic_carried hm hp hr hf rfl, State.outbox_atomic_carried hp hr hf,
    fun a ha => by rw [State.byte_atomic_carried hp hr hf, State.byte_atomicStore_outside ha]⟩

/-- The word that ATOMIC_ADD stores for the old contents (R55). -/
def addWord (ty : AddTy) (x old : Nat) : Nat :=
  match ty with
  | .int32 => (old + x) % 2 ^ 32
  | .int64 => (old + x) % 2 ^ 64
  | .fp32 => fAdd old (x % 2 ^ 32)

theorem exec_atomicAdd (r : AtomicReq) (ty : AddTy) (x : Nat) (s : State) :
    exec (.atomicAdd r ty x) s = .next (s.atomic r (addBytes ty) (fun old => some (addWord ty x old))) := rfl

theorem exec_atomicMax (r : AtomicReq) (ty : MaxTy) (v idx : Nat) (s : State) :
    exec (.atomicMax r ty v idx) s = .next (s.atomic r 8 (fun old => some (maxWord ty true v idx old))) := rfl

theorem exec_atomicMin (r : AtomicReq) (ty : MaxTy) (v idx : Nat) (s : State) :
    exec (.atomicMin r ty v idx) s = .next (s.atomic r 8 (fun old => some (maxWord ty false v idx old))) := rfl

theorem maxWord_lt (ty : MaxTy) (max : Bool) (v idx : Nat) {old : Nat} (h : old < 2 ^ 64) : maxWord ty max v idx old < 2 ^ 64 := by
  unfold maxWord
  dsimp only
  split
  · omega
  · exact h
  · split <;> omega

theorem maxWord_uint32_max {v idx old : Nat} (hv : v < 2 ^ 32) (hi : idx < 2 ^ 32) : maxWord .uint32 true v idx old =
    if old / 2 ^ 32 < v ∨ (old / 2 ^ 32 = v ∧ idx < old % 2 ^ 32) then v * 2 ^ 32 + idx else old := by
  unfold maxWord valueWins
  simp only [Nat.mod_eq_of_lt hv, Nat.mod_eq_of_lt hi, gt_iff_lt, decide_eq_true_eq, if_true]
  rcases Nat.lt_trichotomy (old / 4294967296) v with h | h | h
  · simp [h]
  · simp [h]
  · simp [Nat.lt_asymm h, h, Nat.ne_of_gt h]

theorem maxWord_uint32_min {v idx old : Nat} (hv : v < 2 ^ 32) (hi : idx < 2 ^ 32) : maxWord .uint32 false v idx old =
    if v < old / 2 ^ 32 ∨ (old / 2 ^ 32 = v ∧ idx < old % 2 ^ 32) then v * 2 ^ 32 + idx else old := by
  unfold maxWord valueWins
  simp only [Nat.mod_eq_of_lt hv, Nat.mod_eq_of_lt hi, gt_iff_lt, decide_eq_true_eq, Bool.false_eq_true, if_false]
  rcases Nat.lt_trichotomy (old / 4294967296) v with h | h | h
  · simp [Nat.lt_asymm h, h, Nat.ne_of_lt h]
  · simp [h]
  · simp [h]

/-- Settles O31: both kinds store one word for the old contents (`State.atomic_stores`), and a refused one none. -/
theorem atomicsReturnTheOldContents : Obligations.AtomicsReturnTheOldContents := by
  unfold Obligations.AtomicsReturnTheOldContents
  have wide (s : State) (r : AtomicReq) (ty : MaxTy) (max : Bool) (v idx : Nat) :
      maxWord ty max v idx (leNat (s.bytes r.addr 8)) % 256 ^ 8 = maxWord ty max v idx (leNat (s.bytes r.addr 8)) :=
    Nat.mod_eq_of_lt (maxWord_lt ty max v idx (s.leNat_bytes_lt r.addr 8))
  refine ⟨fun s r ty x n hn hp hr hf hm => ?_, fun s r ty v idx hp hr hf hm => ?_, fun s r v idx hp hr hf hm hv hi => ?_,
    fun s r ty x st hp hr => ⟨_, exec_atomicAdd r ty x s, State.byte_atomic_refused hp hr⟩,
    fun s r ty v idx st hp hr => ⟨_, _, exec_atomicMax r ty v idx s, exec_atomicMin r ty v idx s,
      fun a => ⟨State.byte_atomic_refused hp hr a, State.byte_atomic_refused hp hr a⟩⟩⟩
  · subst hn
    obtain ⟨hword, hout, hbyte⟩ := State.atomic_stores (addWord ty x) hm hp hr hf
    refine ⟨_, _, rfl, exec_atomicAdd r ty x s, hword.trans ?_, hout, hbyte⟩
    cases ty
    · exact Nat.mod_mod _ _
    · exact Nat.mod_mod _ _
    · rfl
  · obtain ⟨hmax, houtMax, hbyteMax⟩ := State.atomic_stores (maxWord ty true v idx) hm hp hr hf
    obtain ⟨hmin, houtMin, hbyteMin⟩ := State.atomic_stores (maxWord ty false v idx) hm hp hr hf
    exact ⟨_, _, _, rfl, exec_atomicMax r ty v idx s, exec_atomicMin r ty v idx s, hmax.trans (wide ..), hmin.trans (wide ..), houtMax, houtMin,
      fun a ha => ⟨hbyteMax a ha, hbyteMin a ha⟩⟩
  · obtain ⟨hmax, -, hbyteMax⟩ := State.atomic_stores (maxWord .uint32 true v idx) hm hp hr hf
    obtain ⟨hmin, -, hbyteMin⟩ := State.atomic_stores (maxWord .uint32 false v idx) hm hp hr hf
    exact ⟨_, _, _, rfl, exec_atomicMax r .uint32 v idx s, exec_atomicMin r .uint32 v idx s,
      (hmax.trans (wide ..)).trans (maxWord_uint32_max hv hi), (hmin.trans (wide ..)).trans (maxWord_uint32_min hv hi),
      fun a ha => ⟨hbyteMax a ha, hbyteMin a ha⟩⟩

end Sys2Proof.Machine
end

section
/-! The debug windows, matrix operations and straits, for the statements of chapter 2. -/

namespace Sys2Proof.Machine

/- The elaborator's threads each take a stack: one proof at a time keeps a text of this length within the memory limit. -/
set_option Elab.async false

theorem State.byte_putIslet (s : State) (x : IsletSt) (a : Nat) : (s.putIslet x).byte a = s.byte a := rfl

theorem State.rd_putIslet (s : State) (x : IsletSt) (a : Nat) : (s.putIslet x).rd a = s.rd a := rfl

/-- DBG_HALT by a core, while the domain is powered. -/
theorem exec_dbgHalt {s : State} (hp : s.powered = true) (die data : Nat) :
    exec (.dbgHalt .core die data) s = .next (s.haltIslet die data) := by
  refine congrArg Host.Outcome.next (if_neg ?_)
  simp [hp]

/-- Settles O32: a halt and its end write the selected islet's flags alone, and a read of DBG_DATA the invalid bit of DBG_SEL. -/
theorem debugHaltAndData : Obligations.DebugHaltAndData := by
  unfold Obligations.DebugHaltAndData
  refine ⟨fun s die data hp hb => ⟨_, exec_dbgHalt hp die data, ?_⟩, fun s die data hp hb => ⟨_, exec_dbgHalt hp die data, ?_⟩,
    fun s p die word hp => ?_⟩
  · rw [State.haltIslet, hb, if_pos rfl, State.islet_putIslet s (by exact State.islet_islet s _)]
    exact ⟨rfl, rfl, fun x => rfl⟩
  · rw [State.haltIslet, hb, if_neg Bool.false_ne_true, State.islet_putIslet s (by exact State.islet_islet s _)]
    exact ⟨rfl, rfl⟩
  · refine ⟨_, (s.dbgRead die word).1, congrArg Host.Outcome.next (if_neg (by simp [hp])), rfl, fun hno => ?_, fun hsc hh => ?_, fun x => rfl⟩
    · refine if_neg ?_
      rcases hno with h | h <;> simp [h]
    · refine if_pos ?_
      simp [hsc, hh]


/-! ## Straits and their queues: a read after a write -/

/-- In a list kept under `p`, the entry that replaced those of `p` is the one found under it. -/
theorem find?_replacedBy_same {α : Type} {p : α → Bool} {e : α} (he : p e = true) (l : List α) :
    (l.filter (fun y => !p y) ++ [e]).find? p = some e := by
  have hnone : (l.filter (fun y => !p y)).find? p = none := by simp
  rw [List.find?_append, hnone, List.find?_singleton, he]
  rfl

/-- Under a predicate that no replaced entry meets, nor the new one, the entry is found that stood there. -/
theorem find?_dropped_other {α : Type} {p q : α → Bool} (hpq : ∀ y, q y = true → p y = false) (l : List α) :
    (l.filter (fun y => !p y)).find? q = l.find? q := by
  rw [List.find?_filter]
  congr 1
  funext y
  cases hq : q y
  · simp
  · simp [hpq y hq]

theorem State.strait_key (s : State) (i : Nat) (d : Dir) : (s.strait i d).island = i ∧ (s.strait i d).dir = d := by
  unfold State.strait
  cases h : s.ar.straits.find? (fun x => x.island == i && x.dir == d) with
  | none => exact ⟨rfl, rfl⟩
  | some x => simpa using List.find?_some h

theorem State.strait_putStrait {s : State} {x : StraitSt} {i : Nat} {d : Dir} (hi : x.island = i) (hd : x.dir = d) :
    (s.putStrait x).strait i d = x := by
  subst hi hd
  have h : (s.putStrait x).ar.straits.find? (fun y => y.island == x.island && y.dir == x.dir) = some x :=
    find?_replacedBy_same (by simp) s.ar.straits
  rw [State.strait, h, Option.getD_some]

theorem State.inQueue_putInQueue_same {s : State} {i : Nat} {f : Option Dir} {q : List Transfer} (hq : q ≠ []) :
    (s.putInQueue i f q).inQueue i f = q := by
  have h : (s.putInQueue i f q).ar.inq.find? (fun x => x.island == i && x.from_ == f) = some { island := i, from_ := f, q := q } := by
    have hne : q.isEmpty = false := by simpa using hq
    simp only [State.putInQueue, hne, Bool.false_eq_true, if_false]
    exact find?_replacedBy_same (by simp) s.ar.inq
  rw [State.inQueue, h]
  rfl

theorem State.inQueue_putInQueue_other {s : State} {i j : Nat} {f g : Option Dir} {q : List Transfer} (hj : j ≠ i) :
    (s.putInQueue i f q).inQueue j g = s.inQueue j g := by
  have hdrop : (s.ar.inq.filter (fun x => !(x.island == i && x.from_ == f))).find? (fun x => x.island == j && x.from_ == g) =
      s.ar.inq.find? (fun x => x.island == j && x.from_ == g) :=
    find?_dropped_other (fun y hy => by simp_all) s.ar.inq
  rw [State.inQueue, State.inQueue, State.putInQueue]
  dsimp only
  split
  · rw [hdrop]
  · rw [List.find?_append, hdrop]
    simp [Ne.symm hj]

theorem State.inQueue_putStrait (s : State) (x : StraitSt) (i : Nat) (f : Option Dir) : (s.putStrait x).inQueue i f = s.inQueue i f := rfl

theorem State.strait_putInQueue (s : State) (j : Nat) (f : Option Dir) (q : List Transfer) (i : Nat) (d : Dir) :
    (s.putInQueue j f q).strait i d = s.strait i d := rfl

theorem gridIsland_ne_of_neighbour (m : Nat) :
    (gridRow m ≠ 0 → gridIsland (gridRow m - 1) (gridCol m) ≠ m) ∧ gridIsland (gridRow m + 1) (gridCol m) ≠ m ∧
      (gridCol m ≠ 0 → gridIsland (gridRow m) (gridCol m - 1) ≠ m) ∧ gridIsland (gridRow m) (gridCol m + 1) ≠ m := by
  unfold gridIsland gridRow gridCol
  omega

/-- A strait leads to another island (R16). -/
theorem neighbour_ne {here nb : Nat} {d : Dir} (h : neighbour here d = some nb) : nb ≠ here := by
  obtain ⟨hn, hs, hw, he⟩ := gridIsland_ne_of_neighbour (here % 128)
  unfold neighbour at h
  cases d <;> dsimp only at h <;> split at h <;> cases h <;> [have := hn ‹_›; have := hs; have := he; have := hw ‹_›] <;> omega

/-! ## One grant of a strait (R17, R400) -/

/-- Settles O33, along the branches of one grant. -/
theorem straitsMoveTransfers : Obligations.StraitsMoveTransfers := by
  unfold Obligations.StraitsMoveTransfers
  refine ⟨?_, ?_, ?_⟩
  · intro s u here i nb out fresh tr hp hu hnb hcut hg hfull
    obtain ⟨hi, hd⟩ := u.strait_key here out
    refine ⟨?_, fun hf => ?_⟩
    · have hrun : ∃ t, exec (.straitTransfer here out fresh true) s = .next t := ⟨_, rfl⟩
      obtain ⟨t, ht⟩ := hrun
      refine ⟨t, ht, ?_⟩
      have hfresh : Within [.ar] s u := hu ▸ State.takeFresh_within s here fresh
      have hst := State.strait_putStrait (s := u.putInQueue here (inputs.getD i none) ((u.inQueue here (inputs.getD i none)).drop 1))
        (x := { u.strait here out with fails := 0, last := i }) hi hd
      change execStraitTransfer here out fresh true s = _ at ht
      unfold execStraitTransfer at ht
      simp only [hp, Bool.not_true, Bool.false_eq_true, if_false, ← hu, hnb, if_neg (Bool.eq_false_iff.1 hcut), hg, hfull, Host.Outcome.next.injEq] at ht
      split at ht
      · next hdst =>
        subst ht
        exact ⟨by rw [if_pos hdst]; rfl, fun h => absurd hdst h, congrArg StraitSt.fails hst, congrArg StraitSt.last hst, fun a => hfresh.rd (by decide) a,
          fun x => hfresh.byte (by decide) x⟩
      · next hdst =>
        subst ht
        refine ⟨by rw [if_neg hdst]; rfl, fun _ => ?_, congrArg StraitSt.fails hst, congrArg StraitSt.last hst, fun a => hfresh.rd (by decide) a,
          fun x => hfresh.byte (by decide) x⟩
        rw [State.inQueue_putInQueue_same (by simp), State.inQueue_putStrait, State.inQueue_putInQueue_other (neighbour_ne hnb)]
    · change execStraitTransfer here out fresh false s = _
      unfold execStraitTransfer
      simp [hp, ← hu, hnb, hcut, hg, hfull, hf]
  · intro s u here i nb out fresh tr ok hp hu hnb hcut hg hfull
    change execStraitTransfer here out fresh ok s = _
    unfold execStraitTransfer
    simp [hp, ← hu, hnb, hcut, hg, hfull]
  · intro s u here out fresh ok hp hu h
    change execStraitTransfer here out fresh ok s = _
    unfold execStraitTransfer
    simp only [hp, Bool.not_true, Bool.false_eq_true, if_false, ← hu]
    rcases h with h | h | h
    · simp [h]
    · cases neighbour here out <;> simp [h]
    · cases neighbour here out <;> simp [h]

end Sys2Proof.Machine
end

section
/-! Matrix operations (R48, R49), for the statements of chapter 2. -/

namespace Sys2Proof.Machine

/- The elaborator's threads each take a stack: one proof at a time keeps a text of this length within the memory limit. -/
set_option Elab.async false

/-- A fold whose every step adds `k` bytes. -/
theorem length_foldl_fst {α β : Type} {f : List Byte × β → α → List Byte × β} {k : Nat}
    (hf : ∀ acc i, (f acc i).1.length = acc.1.length + k) (l : List α) (acc : List Byte × β) :
    (l.foldl f acc).1.length = acc.1.length + l.length * k := by
  induction l generalizing acc with
  | nil => simp
  | cons i l ih =>
    rw [List.foldl_cons, ih, hf, List.length_cons, Nat.add_mul]
    omega

theorem length_readoutBytesOf (op : MatOp) (vals : Nat → Fv) (gens : List Nat) (scale : Nat) :
    (readoutBytesOf op vals gens scale).length = op.m * op.n * readoutBytes op.readout + 4 := by
  unfold readoutBytesOf
  rw [List.length_append, length_leBytes, length_foldl_fst (k := readoutBytes op.readout)]
  · simp
  · intro acc i
    cases op.readRnd <;> simp

theorem readoutBytes_le (r : Readout) : readoutBytes r ≤ 8 := by cases r <;> decide

/-- The held vector-unit writes change the bytes of their ranges alone. -/
theorem State.byte_vectorWrites {s : State} {i a : Nat} (h : ∀ w ∈ (s.islet i).vwaits, a < t0Addr i w.1 ∨ t0Addr i w.1 + w.2.length ≤ a) :
    (s.vectorWrites i).byte a = s.byte a := by
  have hfold : ∀ (ws : List (Nat × List Byte)) (u : State), (∀ w ∈ ws, a < t0Addr i w.1 ∨ t0Addr i w.1 + w.2.length ≤ a) →
      (ws.foldl (fun (u : State) w => u.setBytes (t0Addr i w.1) w.2) u).byte a = u.byte a := by
    intro ws
    induction ws with
    | nil => intro u _; rfl
    | cons w ws ih =>
      intro u hw
      rw [List.foldl_cons, ih _ fun w' h' => hw w' (List.mem_cons_of_mem _ h'),
        State.byte_setBytes_outside u _ _ (hw w List.mem_cons_self)]
  exact (hfold _ _ fun w hw => h w (List.mem_of_mem_filter hw)).trans rfl

theorem State.ops_vectorWrites (s : State) (i : Nat) : ((s.vectorWrites i).islet i).ops = (s.islet i).ops := by
  unfold State.vectorWrites
  extract_lets x go
  have hfold : ∀ (ws : List (Nat × List Byte)) (u : State),
      Within [.mem] u (ws.foldl (fun (u : State) w => u.setBytes (t0Addr i w.1) w.2) u) := by
    intro ws u
    exact Within.foldl Within.refl fun u w => State.setBytes_within u _ _
  rw [State.islet_of_ar_eq ((hfold _ _).ar (by decide)), State.islet_putIslet s (by exact State.islet_islet s i)]

/-- An islet whose operations are none has none after its tiles were cleared for another context. -/
theorem IsletSt.ops_forCtx {x : IsletSt} (h : x.ops = []) (c : Option Nat) : (x.forCtx c).ops = [] := by
  unfold IsletSt.forCtx
  split
  · exact h
  · rfl

theorem IsletSt.halt_forCtx (x : IsletSt) (c : Option Nat) : (x.forCtx c).halt = x.halt := by
  unfold IsletSt.forCtx
  split <;> rfl

theorem IsletSt.ops_clearScale (x : IsletSt) (r : MatRun) : (x.clearScale r).ops = x.ops := by
  unfold IsletSt.clearScale
  split <;> rfl

theorem IsletSt.islet_clearScale (x : IsletSt) (r : MatRun) : (x.clearScale r).islet = x.islet := by
  unfold IsletSt.clearScale
  split <;> rfl

theorem IsletSt.ops_putTile (x : IsletSt) (k : Nat) (tile : List Nat) (r : MatRun) : (x.putTile k tile r).ops = x.ops.set k r := by
  unfold IsletSt.putTile
  split <;> rfl

theorem IsletSt.islet_putTile (x : IsletSt) (k : Nat) (tile : List Nat) (r : MatRun) : (x.putTile k tile r).islet = x.islet := by
  unfold IsletSt.putTile
  split <;> rfl

/-- A pass of a 32-bit tile that ends well moves its operation on by one pass, and stores nothing (R48). -/
theorem exec_matrixPassEnd_full {s : State} {i k : Nat} {r : MatRun} (hrun : runningOp (s.islet i).ops = some k)
    (hr : (s.islet i).ops[k]? = some r) (hm : r.mode = .full) (hh : (s.islet i).halted = false) :
    ∃ tile q, exec (.matrixPassEnd i true) s = .next (s.putIslet (((s.islet i).clearScale r).putTile k tile q)) ∧ q.pass = r.pass + 1 ∧
      q.op = r.op ∧ q.finished = decide (r.pass + 1 ≥ passCount r.op .full) := by
  change ∃ tile q, Host.Outcome.next (s.onMatrixPassEnd i true) = _ ∧ _
  unfold State.onMatrixPassEnd
  simp only [hrun, hr, hh, hm, Bool.not_true, Bool.false_eq_true, reduceCtorEq, false_and, and_false, if_false]
  exact ⟨_, _, rfl, rfl, rfl, rfl⟩

/-- The end of an operation: its readout, if it has one, and the vector-unit writes that its locks held (R33, R49). -/
theorem exec_matrixOpComplete {s : State} {i k : Nat} {r : MatRun} (hk : finishedOp (s.islet i).ops = some k)
    (hr : (s.islet i).ops[k]? = some r) : ∃ t x bs, exec (.matrixOpComplete i) s = .next t ∧ x.islet = i ∧
      x.ops = (s.islet i).ops.eraseIdx k ∧ x.vwaits = (s.islet i).vwaits ∧
      (bs ≠ [] → r.op.readout ≠ .none ∧ bs.length ≤ r.op.m * r.op.n * 8 + 4) ∧
      Within [.regs] (((s.putIslet x).setBytes (t0Addr i r.op.outOff) bs).vectorWrites i) t := by
  change ∃ t x bs, execMatrixOpComplete i s = _ ∧ _
  unfold execMatrixOpComplete
  simp -zeta only [hk]
  extract_lets x d raw ops
  simp -zeta only [show x.ops[k]? = some r from hr]
  extract_lets wide sc vals bytes x1 x2 s1 s2 n
  have hx1 : x1.islet = i ∧ x1.ops = ops ∧ x1.vwaits = (s.islet i).vwaits := by
    unfold x1
    split
    · exact ⟨State.islet_islet s i, rfl, rfl⟩
    · split <;> exact ⟨State.islet_islet s i, rfl, rfl⟩
  obtain ⟨hi, hops, hw⟩ := hx1
  have hs2 : Within [.regs] s1 s2 := Within.ite (fun _ => State.count_within ..) fun _ => Within.refl
  refine ⟨_, x2, bytes, rfl, hi, hops, hw, fun hne => ?_, ?_⟩
  · unfold bytes at hne ⊢
    have hread : r.op.readout ≠ .none := by
      intro h
      simp [h] at hne
    refine ⟨hread, ?_⟩
    rw [if_neg hread]
    split
    · simp [List.length_flatMap]
    · rw [length_readoutBytesOf]
      exact Nat.add_le_add_right (Nat.mul_le_mul_left _ (readoutBytes_le _)) 4
  · split
    · exact Within.andThen (State.count_within ..) (by decide) hs2
    · exact hs2

/-- Settles O28. -/
theorem matrixOperationsRunByPasses : Obligations.MatrixOperationsRunByPasses := by
  unfold Obligations.MatrixOperationsRunByPasses
  refine ⟨fun s i op hp hf hok hro hh hops => ?_, fun s i op hp hf hbad => ?_, fun s i k r hk hr hh => ?_, fun s i k r hk hr hm hh => ?_,
    fun s i k r hk hr => ?_⟩
  · change execMatrixOpIssue i op s = _
    unfold execMatrixOpIssue
    have hnew (q : MatRun) : heldAt [q] 0 = false := rfl
    simp [hp, hf, hok, hro, hh, IsletSt.halt_forCtx, IsletSt.ops_forCtx hops, hnew]
  · change execMatrixOpIssue i op s = _
    unfold execMatrixOpIssue
    simp [hp, hf, hbad]
  · change Host.Outcome.next (s.onMatrixPassEnd i false) = _
    unfold State.onMatrixPassEnd
    simp only [hk, hr, hh, Bool.not_false, Bool.false_eq_true, if_false, if_true]
  · obtain ⟨tile, q, hexec, hpass, hop, hfin⟩ := exec_matrixPassEnd_full hk hr hm hh
    have hi : (((s.islet i).clearScale r).putTile k tile q).islet = i := by
      rw [IsletSt.islet_putTile, IsletSt.islet_clearScale, State.islet_islet]
    obtain ⟨hlt, -⟩ := List.getElem?_eq_some_iff.1 hr
    refine ⟨_, q, hexec, ?_, hpass, hop, by simp [hfin], fun _ => rfl, fun _ => rfl⟩
    rw [State.islet_putIslet s hi, IsletSt.ops_putTile, IsletSt.ops_clearScale, List.getElem?_set_self hlt]
  · obtain ⟨t, x, bs, hexec, hi, hxops, hxw, hbs, ht⟩ := exec_matrixOpComplete hk hr
    have hx : ((s.putIslet x).setBytes (t0Addr i r.op.outOff) bs).islet i = x := by
      rw [State.islet_of_ar_eq ((State.setBytes_within ..).ar (by decide)), State.islet_putIslet s hi]
    refine ⟨t, hexec, ?_, fun a hout hw => ?_⟩
    · rw [State.islet_of_ar_eq (ht.ar (by decide)), State.ops_vectorWrites, hx, hxops]
    · rw [ht.byte (by decide), State.byte_vectorWrites (by rwa [hx, hxw])]
      by_cases hb : bs = []
      · subst hb
        rfl
      · obtain ⟨hread, hlen⟩ := hbs hb
        refine State.byte_setBytes_outside _ _ _ ?_
        rcases hout with h | h | h
        · exact .inl h
        · exact .inr (by omega)
        · exact absurd h hread

end Sys2Proof.Machine
end

section
/-! Secure boot, debug unlock and SPDM, for the statements of chapter 17. -/

namespace Sys2Proof.Machine

/- The elaborator's threads each take a stack: one proof at a time keeps a text of this length within the memory limit. -/
set_option Elab.async false

section
variable {s : State} {t : Transport}

/-- A message of the firmware is answered while a core serves. -/
theorem State.served_of_serves (f : State → State) (hr : s.mctpRuns t = true) (hs : (s.count Reg.mgmtMctpRxCnt).mgmtServes = true) :
    s.served t f = f (s.count Reg.mgmtMctpRxCnt) := by
  simp [State.served, hr, hs]

/-- It is only counted while none does. -/
theorem State.served_of_silent (f : State → State) (hr : s.mctpRuns t = true) (hs : (s.count Reg.mgmtMctpRxCnt).mgmtServes = false) :
    s.served t f = s.count Reg.mgmtMctpRxCnt := by
  simp [State.served, hr, hs]

theorem State.negotiated_of_algs (code : Nat) (f : State → State) (hr : s.mctpRuns t = true)
    (hs : (s.count Reg.mgmtMctpRxCnt).mgmtServes = true) (ha : (s.count Reg.mgmtMctpRxCnt).spdmOf t = .algs) :
    s.negotiated t code f = f (s.count Reg.mgmtMctpRxCnt) :=
  (State.served_of_serves _ hr hs).trans (if_pos ha)

theorem State.negotiated_of_not_algs (code : Nat) (f : State → State) (hr : s.mctpRuns t = true)
    (hs : (s.count Reg.mgmtMctpRxCnt).mgmtServes = true) (ha : (s.count Reg.mgmtMctpRxCnt).spdmOf t ≠ .algs) :
    s.negotiated t code f = (s.count Reg.mgmtMctpRxCnt).spdmErr t 0x04 code :=
  (State.served_of_serves _ hr hs).trans (if_neg ha)

end

theorem exec_unlockCheckDone {s : State} {k : List Byte} {nonce : Nat} (h : s.sec.token = some (k, nonce)) :
    exec .unlockCheckDone s = .next (if s.judge k nonce = 1 then
      { s with sec := { s.sec with token := none, lastUnlock := 1, scope := s.sec.scope ||| fld k 33 32 } }
    else ({ s with sec := { s.sec with token := none, lastUnlock := s.judge k nonce } } : State).count Reg.secUnlockFailCnt) := by
  change execUnlockCheckDone s = _
  unfold execUnlockCheckDone
  simp only [h]
  by_cases hj : s.judge k nonce = 1
  · simp only [hj, if_true]
  · simp only [hj, if_false]

/-- GET_MEASUREMENTS of one block: the block, a nonce of the responder, and the signature over them (R427). -/
theorem exec_getMeasurements_one {s : State} {t : Transport} {index : Nat} (nonce : Body) (h1 : 1 ≤ index) (h6 : index ≤ 6)
    (hr : s.mctpRuns t = true) (hs : (s.count Reg.mgmtMctpRxCnt).mgmtServes = true)
    (ha : (s.count Reg.mgmtMctpRxCnt).spdmOf t = .algs) :
    exec (.getMeasurements t index nonce) s = .next (({ s.count Reg.mgmtMctpRxCnt with fresh := (s.count Reg.mgmtMctpRxCnt).fresh + 1 } : State).spdmAns t 0x60
      ((BitVec.ofNat 8 index :: (s.count Reg.mgmtMctpRxCnt).measurement index) ++ leBytes 32 (Config.random (s.count Reg.mgmtMctpRxCnt).fresh) ++
        (s.count Reg.mgmtMctpRxCnt).aliasSign (nonce ++ ((BitVec.ofNat 8 index :: (s.count Reg.mgmtMctpRxCnt).measurement index) ++
          leBytes 32 (Config.random (s.count Reg.mgmtMctpRxCnt).fresh))))) := by
  have hff : index ≠ 0xFF := by omega
  have hlow : ¬ index > 6 := by omega
  have h0 : index ≠ 0 := by omega
  refine congrArg Host.Outcome.next ((State.negotiated_of_algs _ _ hr hs ha).trans ?_)
  simp [hff, hlow, h0, State.spdmNonce]

/-- Settles O58, row by row. -/
theorem securityRootBootsUnlocksAndAttests : Obligations.SecurityRootBootsUnlocksAndAttests := by
  unfold Obligations.SecurityRootBootsUnlocksAndAttests
  refine ⟨fun s hp hv => ?_, fun s hp hi => ?_, fun s k nonce h => exec_unlockCheckDone h, fun s u t hr hu => ?_⟩
  · change execBootVerifyDone s = _
    unfold execBootVerifyDone
    simp only [hp, hv, bne_self_eq_false, Bool.not_true, Bool.or_self, Bool.false_eq_true, if_false]
    cases s.fwVerifies (s.sec.slot s.bootSlot) s.sec.minSvn <;> rfl
  · refine congrArg Host.Outcome.next (if_neg ?_)
    simp [hp, hi]
  subst hu
  refine ⟨fun hs => ⟨congrArg Host.Outcome.next (State.served_of_silent _ hr hs), congrArg Host.Outcome.next (State.served_of_silent _ hr hs)⟩,
    fun hs => ?_⟩
  have answer (f : State → State) := State.served_of_serves f hr hs
  refine ⟨congrArg Host.Outcome.next (answer _), fun h => congrArg Host.Outcome.next ((answer _).trans (if_pos h)),
    fun h => congrArg Host.Outcome.next ((answer _).trans (if_neg (by rintro (h' | h') <;> exact absurd (h.symm.trans h') (by decide)))),
    fun h => congrArg Host.Outcome.next ((answer _).trans (if_pos h)),
    fun code => congrArg Host.Outcome.next (answer _),
    fun h => congrArg Host.Outcome.next (State.negotiated_of_not_algs _ _ hr hs h), fun ha => ?_⟩
  have signed (code : Nat) (f : State → State) := State.negotiated_of_algs code f hr hs ha
  refine ⟨congrArg Host.Outcome.next (signed _ _), fun off len => congrArg Host.Outcome.next ((signed _ _).trans ?_),
    fun slot off len hslot => congrArg Host.Outcome.next ((signed _ _).trans (if_pos (.inl hslot))),
    fun nonce => congrArg Host.Outcome.next ((signed _ _).trans (if_neg (by simp))),
    fun index nonce h1 h6 => exec_getMeasurements_one nonce h1 h6 hr hs ha,
    fun index nonce h6 hff => congrArg Host.Outcome.next ((signed _ _).trans (if_pos ⟨hff, h6⟩))⟩
  by_cases hoff : off < (s.count Reg.mgmtMctpRxCnt).chain.length
  · rw [if_pos hoff, if_neg (by simp [hoff])]
  · rw [if_neg hoff, if_pos (.inr (not_lt.1 hoff))]

end Sys2Proof.Machine
end

section
/-! The management plane and firmware updates, for the statements of chapter 18. -/

namespace Sys2Proof.Machine

/- The elaborator's threads each take a stack: one proof at a time keeps a text of this length within the memory limit. -/
set_option Elab.async false

/-! ## MCTP control while no core serves -/

/-- The device after reset: I3C runs, and no core was released (R419). -/
theorem reset_mctpRuns : State.reset.mctpRuns .i3c = true := by decide +kernel

theorem reset_silent : (State.reset.count Reg.mgmtMctpRxCnt).mgmtServes = false := by
  have h : (State.reset.count Reg.mgmtMctpRxCnt).sec = State.reset.sec := (State.count_within ..).sec (by decide)
  rw [State.mgmtServes, h]
  rfl

/-- Before a core serves, an endpoint ID is counted and not answered. -/
theorem exec_mctpControl_reset (eid : Nat) : exec (.mctpControl .i3c eid) State.reset = .next (State.reset.count Reg.mgmtMctpRxCnt) :=
  congrArg Host.Outcome.next (State.served_of_silent _ reset_mctpRuns reset_silent)

/-- Refutes O59: its first clause, that an endpoint ID is taken and answered, has no premise that a core serves; in the state after
reset none does, and the message is only counted. -/
theorem not_managementMessagesAreAnswered : ¬ Obligations.ManagementMessagesAreAnswered := by
  unfold Obligations.ManagementMessagesAreAnswered
  rintro ⟨h, -⟩
  obtain ⟨hassign, -⟩ := h State.reset _ .i3c reset_mctpRuns rfl
  obtain ⟨v, hv, -, hout⟩ := hassign 1 (by decide) (by decide)
  obtain rfl := Host.Outcome.next.inj ((exec_mctpControl_reset 1).symm.trans hv)
  simp at hout

/-! ## Firmware slots: a read after a write -/

theorem SecSt.slot_setOk (x : SecSt) (b ok c : Bool) : (x.setOk b ok).slot c = x.slot c := by
  cases b <;> rfl

theorem State.slot_putFw_same (s : State) (b : Bool) (img : List Byte) : (s.putFw b img).sec.slot b = img := by
  cases b <;> rfl

theorem State.slot_putFw_other (s : State) (b : Bool) (img : List Byte) : (s.putFw b img).sec.slot (!b) = s.sec.slot (!b) := by
  cases b <;> rfl

theorem State.sec_askChunk (s : State) (w : UpdateSt) : (s.askChunk w).sec = s.sec ∧ (s.askChunk w).mgmt = s.mgmt := by
  unfold State.askChunk
  split <;> exact ⟨rfl, rfl⟩

/-- A cancelled update leaves its slot empty and the other as it was, and there is no update (R448). -/
theorem State.slots_cancelUpd (s : State) (w : UpdateSt) : (s.cancelUpd w).mgmt.update = none ∧ (s.cancelUpd w).sec.slot w.slotB = [] ∧
    (s.cancelUpd w).sec.slot (!w.slotB) = s.sec.slot (!w.slotB) ∧ (s.cancelUpd w).regs = s.regs ∧ (s.cancelUpd w).now = s.now := by
  unfold State.cancelUpd
  dsimp only
  split <;> cases w.slotB <;> exact ⟨rfl, rfl, rfl, rfl, rfl⟩

theorem State.le_now_elapseTo {s : State} (hp : s.powered = true) (t : Nat) : t ≤ (s.elapseTo t).now := by
  have h : (s.elapseTo t).now = s.now + (t - s.now) := if_pos hp
  omega

/-! ## A message of an update while a core serves -/

section
variable {s : State} {t : Transport}

theorem State.updServed_of_serves (f : State → State) (hstep : s.sec.step ≠ .recovery) (hr : s.mctpRuns t = true)
    (hs : (s.count Reg.mgmtMctpRxCnt).mgmtServes = true) : s.updServed t f = f (s.count Reg.mgmtMctpRxCnt) :=
  (if_neg hstep).trans (State.served_of_serves f hr hs)

theorem State.sec_received : (s.count Reg.mgmtMctpRxCnt).sec = s.sec := (State.count_within ..).sec (by decide)

theorem State.mgmt_received : (s.count Reg.mgmtMctpRxCnt).mgmt = s.mgmt := (State.count_within ..).mgmt (by decide)

theorem State.now_received : (s.count Reg.mgmtMctpRxCnt).now = s.now := (State.count_within ..).now (by decide)

end

/-- A request for an update while none is under way empties the slot that does not run and asks for the first chunk (R447). -/
theorem exec_requestUpdate {s : State} {t : Transport} (len : Nat) (hstep : s.sec.step ≠ .recovery) (hr : s.mctpRuns t = true)
    (hs : (s.count Reg.mgmtMctpRxCnt).mgmtServes = true) (hno : s.mgmt.update = none) :
    ∃ v w, exec (.requestUpdate t len) s = .next v ∧ v.mgmt.update = some w ∧ w.t = t ∧
      w.slotB = (s.sec.running == some false) ∧ w.len = len ∧ w.got = [] ∧ v.sec.slot w.slotB = [] ∧
      v.sec.slot (!w.slotB) = s.sec.slot (!w.slotB) ∧
      (0 < len → v.outbox = (s.count Reg.mgmtMctpRxCnt).outbox ++ [.mgmt t (.pldm 0 []), .mgmt t (.needFirmware 0 (min 1024 len))]) := by
  refine ⟨_, { t := t, slotB := s.sec.running == some false, len := len, got := [], lastAnswer := s.now, verified := none, applied := false },
    congrArg Host.Outcome.next ((State.updServed_of_serves _ hstep hr hs).trans (if_neg ?_)), ?_, rfl, rfl, rfl, rfl, ?_, ?_, fun hlen => ?_⟩
  · simp [State.mgmt_received, hno]
  · rw [(State.sec_askChunk _ _).2, State.sec_received, State.now_received]
    rfl
  · rw [(State.sec_askChunk _ _).1, State.sec_received]
    exact (SecSt.slot_setOk ..).trans (State.slot_putFw_same ..)
  · rw [(State.sec_askChunk _ _).1, State.sec_received]
    refine (SecSt.slot_setOk ..).trans ((State.slot_putFw_other ..).trans ?_)
    rw [State.sec_received]
  · rw [State.sec_received, State.now_received, State.askChunk, if_pos (by exact hlen)]
    exact List.append_assoc _ [_] [_]

/-- The chunk that was asked for is stored behind the last (R447). -/
theorem exec_requestFirmwareData {s : State} {w : UpdateSt} {chunk : Body} (hstep : s.sec.step ≠ .recovery) (hw : s.mgmt.update = some w)
    (hr : s.mctpRuns w.t = true) (hs : (s.count Reg.mgmtMctpRxCnt).mgmtServes = true) (hne : chunk ≠ [])
    (hlen : chunk.length = min 1024 (w.len - w.got.length)) :
    ∃ v, exec (.requestFirmwareData w.got.length chunk) s = .next v ∧
      v.mgmt.update = some { w with got := w.got ++ chunk, lastAnswer := s.now } ∧ v.sec.slot w.slotB = w.got ++ chunk ∧
      v.sec.slot (!w.slotB) = s.sec.slot (!w.slotB) := by
  have hasked : ¬ (w.got.length ≠ w.got.length ∨ chunk.length ≠ min 1024 (w.len - w.got.length) ∨ chunk = []) := by
    simp [hlen, hne]
  change ∃ v, execRequestFirmwareData w.got.length chunk s = _ ∧ _
  unfold execRequestFirmwareData
  simp only [hw]
  refine ⟨_, congrArg Host.Outcome.next ((State.updServed_of_serves _ hstep hr hs).trans (if_neg hasked)), ?_, ?_, ?_⟩
  · rw [(State.sec_askChunk _ _).2, State.now_received]
    rfl
  · rw [(State.sec_askChunk _ _).1]
    exact State.slot_putFw_same ..
  · rw [(State.sec_askChunk _ _).1]
    refine (State.slot_putFw_other ..).trans ?_
    rw [State.sec_received]

/-- A complete image is verified as boot would verify it; a bad one ends the update (R447, R448). -/
theorem exec_verifyComplete {s : State} {w : UpdateSt} (hp : s.powered = true) (hw : s.mgmt.update = some w) (hlen : w.len ≤ w.got.length)
    (hver : w.verified = none) : ∃ v, exec .verifyComplete s = .next v ∧
      v.mgmt.update = (if s.fwVerifies (s.sec.slot w.slotB) s.sec.minSvn then some { w with verified := some true } else none) ∧
      v.sec.slot w.slotB = (if s.fwVerifies (s.sec.slot w.slotB) s.sec.minSvn then s.sec.slot w.slotB else []) ∧
      v.sec.slot (!w.slotB) = s.sec.slot (!w.slotB) := by
  change ∃ v, execVerifyComplete s = _ ∧ _
  unfold execVerifyComplete
  simp only [hw, hp, hver, not_lt.2 hlen, Bool.not_true, decide_false, Option.isSome_none, Bool.or_self, Bool.false_eq_true, if_false]
  refine ⟨_, rfl, ?_⟩
  by_cases hok : s.fwVerifies (s.sec.slot w.slotB) s.sec.minSvn = true
  · simp only [if_pos hok]
    exact ⟨rfl, SecSt.slot_setOk .., SecSt.slot_setOk ..⟩
  · simp only [if_neg hok]
    obtain ⟨hnone, hslot, hother, -, -⟩ := (s.pldmAns w.t 0 [0x17, 1]).slots_cancelUpd w
    exact ⟨hnone, hslot, hother⟩

theorem bit_setBits_zero (w : Nat) (b : Bool) (h : w < 2 ^ 32) : bit (setBits w 0 0 (b2n b) % 2 ^ 32) 0 = b := by
  have hw : setBits w 0 0 (b2n b) % 2 ^ 32 = w - w % 2 + b2n b := by
    cases b <;> simp [setBits, bits, b2n] <;> omega
  rw [hw, bit, bits]
  cases b <;> simp [b2n] <;> omega

/-- BOOT_PREF names the written slot (R447). -/
theorem exec_applyComplete {s : State} {w : UpdateSt} (hwf : Registers.wf s.regs = true) (hp : s.powered = true)
    (hw : s.mgmt.update = some w) (hver : w.verified = some true) (happ : w.applied = false) :
    ∃ v, exec .applyComplete s = .next v ∧ bit (v.rd Reg.secCfg) 0 = w.slotB ∧ v.mgmt.update = some { w with applied := true } := by
  change ∃ v, execApplyComplete s = _ ∧ _
  unfold execApplyComplete
  simp only [hw, hp, hver, happ, Bool.not_true, bne_self_eq_false, Bool.or_self, Bool.false_eq_true, if_false]
  refine ⟨_, rfl, ?_, rfl⟩
  change bit ((s.wr Reg.secCfg _).rd Reg.secCfg) 0 = _
  rw [State.rd_wr_same hwf]
  exact bit_setBits_zero _ _ (State.rd_lt s _)

/-- Settles O60, message by message. -/
theorem firmwareIsUpdatedInTheOtherSlot : Obligations.FirmwareIsUpdatedInTheOtherSlot := by
  unfold Obligations.FirmwareIsUpdatedInTheOtherSlot
  refine ⟨fun s u t len hstep hr hu hs => ?_, fun s u w chunk hstep hw hr hu hs hne hlen => ?_,
    fun s w hp hw hlen hver => exec_verifyComplete hp hw hlen hver, fun s w hwf hp hw hver happ => exec_applyComplete hwf hp hw hver happ,
    fun s u w hstep hr hu hs hw => ?_, fun s w hp hw hlen => ?_⟩
  · subst hu
    refine ⟨fun hno => exec_requestUpdate len hstep hr hs hno, fun hsome => ?_⟩
    refine congrArg Host.Outcome.next ((State.updServed_of_serves _ hstep hr hs).trans (if_pos ?_))
    rwa [State.mgmt_received]
  · subst hu
    exact exec_requestFirmwareData hstep hw hr hs hne hlen
  · subst hu
    have hw' : (s.count Reg.mgmtMctpRxCnt).mgmt.update = some w := by rw [State.mgmt_received, hw]
    have hstep' : (s.count Reg.mgmtMctpRxCnt).sec.step ≠ .recovery := by rwa [State.sec_received]
    have answer (f : State → State) := State.updServed_of_serves f hstep hr hs
    refine ⟨fun happ => congrArg Host.Outcome.next ((answer _).trans ?_), fun happ => congrArg Host.Outcome.next ((answer _).trans ?_),
      fun happ => ?_⟩
    · simp only [hw', happ, bne_self_eq_false, Bool.not_true, Bool.or_self, Bool.false_eq_true, if_false]
      exact if_neg hstep'
    · simp only [hw', happ, Bool.not_false, Bool.true_or, if_true]
    · obtain ⟨hnone, hslot, -, hregs, -⟩ := ((s.count Reg.mgmtMctpRxCnt).pldmAns w.t 0 []).slots_cancelUpd w
      refine ⟨_, congrArg Host.Outcome.next ((answer _).trans ?_), hnone, hslot, fun a => State.rd_congr hregs a⟩
      simp only [hw', happ, bne_self_eq_false, Bool.or_self, Bool.false_eq_true, if_false]
  · obtain ⟨hnone, hslot, -, -, hnow⟩ := (s.elapseTo (w.lastAnswer + 60000000000)).slots_cancelUpd w
    refine ⟨_, ?_, hnone, hslot, hnow ▸ State.le_now_elapseTo hp _⟩
    change execUpdateTimeout s = _
    unfold execUpdateTimeout
    simp only [hw, hp, not_le.2 hlen, Bool.not_true, decide_false, Bool.or_self, Bool.false_eq_true, if_false]

end Sys2Proof.Machine
end

section
/-! Errors, fences, self-tests, failed stacks and control cores, for the statements of chapter 16. -/

namespace Sys2Proof.Machine

/- The elaborator's threads each take a stack: one proof at a time keeps a text of this length within the memory limit. -/
set_option Elab.async false

/-- A fold of steps that each keep something of the state keeps it. -/
theorem foldl_keeps {α β : Type} {f : State → α → State} {g : State → β} (hf : ∀ s x, g (f s x) = g s) (l : List α) (s : State) :
    g (l.foldl f s) = g s := by
  induction l generalizing s with
  | nil => rfl
  | cons x l ih => rw [List.foldl_cons, ih, hf]

/-! ## What the shared operations leave of the fault state -/

/-- A fault-log entry changes the log and its sequence number alone of the fault state. -/
theorem State.flt_faultLog (s : State) (typ inst cls action func addr : Nat) : ∃ log seq,
    (s.faultLog typ inst cls action func addr).flt = { s.flt with log := log, logSeq := seq } := by
  unfold State.faultLog
  extract_lets e lost log f s1 s2 s3
  have h2 : s2.flt = s1.flt := by
    unfold s2
    split
    · exact (State.count_within ..).flt (by decide)
    · rfl
  have h3 : s3.flt = s1.flt := ((State.mgmtEvent_within ..).flt (by decide)).trans (((State.irq_within ..).flt (by decide)).trans h2)
  refine ⟨log, e.seq, ?_⟩
  split
  · exact h3
  · exact ((State.blkErr_within ..).flt (by decide)).trans h3

theorem State.flt_withdraw (s : State) (i : Nat) : (s.withdraw i).flt = s.flt := by
  unfold State.withdraw
  refine foldl_keeps (g := fun s => s.flt) (fun u w => ?_) _ s
  dsimp only
  split
  · rfl
  · rw [(State.runAgain_within ..).flt (by decide), (State.updPiece_within ..).flt (by decide)]

theorem State.flt_redoBlocks (s : State) (i : Nat) : (s.redoBlocks i).flt = s.flt := by
  unfold State.redoBlocks
  refine foldl_keeps (g := fun s => s.flt) (fun u k => foldl_keeps (g := fun s => s.flt) (fun v e => ?_) _ u) _ s
  dsimp only
  split
  · rfl
  · exact (State.runAgain_within ..).flt (by decide)

/-- A unit's fence stands in the lists of the fault state alone. -/
theorem State.unitFenced_congr {s t : State} (hi : t.flt.islands = s.flt.islands) (hj : t.flt.islets = s.flt.islets) (u : FenceUnit) :
    t.unitFenced u = s.unitFenced u := by
  rw [State.unitFenced, State.unitFenced, hi, hj]

/-! ## Fences (R402, R403) -/

/-- A fence that is recorded stands on the fence list. -/
theorem State.listed_listFence (s : State) (u : FenceUnit) : ∃ e ∈ (s.listFence u).flt.fenceList, e.unit = u ∧ e.fenced = true := by
  unfold State.listFence
  dsimp only
  split
  · next h =>
    obtain ⟨e, he, hu⟩ := List.any_eq_true.1 h
    refine ⟨{ e with count := e.count + 1, fenced := true }, ?_, by simpa using hu, rfl⟩
    exact List.mem_map.2 ⟨e, he, if_pos hu⟩
  · exact ⟨{ unit := u, count := 1, fenced := true }, by simp, rfl, rfl⟩

theorem State.islands_listFence (s : State) (u : FenceUnit) : (s.listFence u).flt.islands = s.flt.islands := rfl

theorem State.islets_listFence (s : State) (u : FenceUnit) : (s.listFence u).flt.islets = s.flt.islets := rfl

/-- What a recorded fence leaves: the unit is listed, and what is fenced is as it was. -/
theorem State.flt_recordFence (s : State) (u : FenceUnit) : (∃ e ∈ (s.recordFence u).flt.fenceList, e.unit = u ∧ e.fenced = true) ∧
    (s.recordFence u).flt.islands = s.flt.islands ∧ (s.recordFence u).flt.islets = s.flt.islets := by
  unfold State.recordFence
  extract_lets addr
  refine ⟨State.listed_listFence .., ?_⟩
  rw [State.islands_listFence, State.islets_listFence, (State.irq_within ..).flt (by decide)]
  obtain ⟨log, seq, h⟩ := State.flt_faultLog (s.count Reg.faultFenceCnt) 0x04 0 4 4 0 addr
  rw [h, (State.count_within ..).flt (by decide)]
  exact ⟨rfl, rfl⟩

/-- The state in which a unit's fence stands, before its work moves elsewhere. -/
def State.withFence (s : State) (u : FenceUnit) (c : FenceCause) : State :=
  { s with flt := { s.flt with
    causes := s.flt.causes.filter (fun e => e != (u, c))
    islands := if u.whole then s.flt.islands ++ [u.island] else s.flt.islands
    islets := if u.whole then s.flt.islets else s.flt.islets ++ [u.island * 16 + u.islet] } }

theorem State.unitFenced_withFence (s : State) (u : FenceUnit) (c : FenceCause) : (s.withFence u c).unitFenced u = true := by
  unfold State.unitFenced State.withFence
  cases u.whole <;> simp

/-- What a fence changes elsewhere. -/
def State.fenceWork (s : State) (u : FenceUnit) : State :=
  (if u.whole then (((s.abandon (fun x => x.island == u.island) .abandoned).withdraw u.island).redoBlocks u.island).moveRoles u.island
    else s).fenceTasks u

theorem State.flt_fenceWork (s : State) (u : FenceUnit) : (s.fenceWork u).flt = s.flt := by
  unfold State.fenceWork
  rw [(State.fenceTasks_within ..).flt (by decide)]
  split
  · rw [(State.moveRoles_within ..).flt (by decide), State.flt_redoBlocks, State.flt_withdraw, (State.abandon_within ..).flt (by decide)]
  · rfl

theorem State.fenceWork_within (s : State) (u : FenceUnit) : Within [.regs, .flt, .mm, .sch, .ar, .idx, .gen] s (s.fenceWork u) := by
  unfold State.fenceWork
  refine Within.andThen (State.fenceTasks_within ..) (by decide) (Within.ite (fun _ => ?_) fun _ => Within.refl)
  exact Within.andThen (State.moveRoles_within ..) (by decide) <| Within.andThen (State.redoBlocks_within ..) (by decide) <|
    Within.andThen (State.withdraw_within ..) (by decide) ((State.abandon_within ..).mono (by decide))

theorem exec_fenceEffect {s : State} {u : FenceUnit} {c : FenceCause} (hi : u.island < 512) (hj : u.islet < 16)
    (hc : s.causeStands u c = true) (hf : s.unitFenced u = false) : exec (.fenceEffect u c) s =
      .next ((if c = .selectParity then ((s.withFence u c).fenceWork u).count (Reg.selectStageErrCnt (u.island / 128))
        else (s.withFence u c).fenceWork u).recordFence u) := by
  have hrun : (decide (u.island ≥ 512) || decide (u.islet ≥ 16) || !s.causeStands u c) = false := by simp [hi, hj, hc]
  change execFenceEffect u c s = _
  unfold execFenceEffect
  rw [if_neg (Bool.eq_false_iff.1 hrun)]
  extract_lets f0 s0 f1 s1 s2 s3 s4
  have hf0 : s0.unitFenced u = false := hf
  have h1 : s1 = s.withFence u c := rfl
  have h3 : s3 = s1.fenceWork u := rfl
  rw [if_neg (Bool.eq_false_iff.1 hf0), ← h1, ← h3]

/-- A fence that takes effect: the unit is out and listed, and no byte changes. -/
theorem exec_fenceEffect_fences {s : State} {u : FenceUnit} {c : FenceCause} (hi : u.island < 512) (hj : u.islet < 16)
    (hc : s.causeStands u c = true) (hf : s.unitFenced u = false) : ∃ t, exec (.fenceEffect u c) s = .next t ∧ t.unitFenced u = true ∧
      (∃ e ∈ t.flt.fenceList, e.unit = u ∧ e.fenced = true) ∧ ∀ a, t.byte a = s.byte a := by
  set w := if c = .selectParity then ((s.withFence u c).fenceWork u).count (Reg.selectStageErrCnt (u.island / 128))
    else (s.withFence u c).fenceWork u with hw
  have hwithin : Within [.regs] ((s.withFence u c).fenceWork u) w := Within.ite (fun _ => State.count_within ..) fun _ => Within.refl
  have hflt : w.flt = (s.withFence u c).flt := (hwithin.flt (by decide)).trans (State.flt_fenceWork ..)
  obtain ⟨hlist, hisl, hjsl⟩ := w.flt_recordFence u
  refine ⟨_, exec_fenceEffect hi hj hc hf, ?_, hlist, fun a => ?_⟩
  · rw [State.unitFenced_congr hisl hjsl, State.unitFenced_congr (congrArg _ hflt) (congrArg _ hflt), State.unitFenced_withFence]
  · rw [(State.recordFence_within ..).byte (by decide), hwithin.byte (by decide), (State.fenceWork_within ..).byte (by decide)]
    rfl

/-! ## Self-tests (R403) -/

theorem State.flt_logReadmit (s : State) (u : FenceUnit) : (s.logReadmit u).flt.islands = s.flt.islands ∧
    (s.logReadmit u).flt.islets = s.flt.islets ∧ (s.logReadmit u).flt.selfTests = s.flt.selfTests := by
  unfold State.logReadmit
  obtain ⟨log, seq, h⟩ := State.flt_faultLog (s.count Reg.faultReadmitCnt) 0x04 0 5 0 0
    (if u.whole then t1Addr u.island 0 else t0Addr (u.island * 16 + u.islet) 0)
  rw [h, (State.count_within ..).flt (by decide)]
  exact ⟨rfl, rfl, rfl⟩

theorem State.unitFenced_admitUnit (s : State) (u : FenceUnit) : (s.admitUnit u).unitFenced u = false := by
  unfold State.unitFenced State.admitUnit
  cases u.whole <;> simp

theorem State.selfTests_admitUnit (s : State) (u : FenceUnit) : (s.admitUnit u).flt.selfTests = s.flt.selfTests := rfl

/-- The state after the self-test of a unit, before its outcome: the test is over and the unit's memory zero. -/
def State.tested (s : State) (u : FenceUnit) : State :=
  ({ s with flt := { s.flt with selfTests := s.flt.selfTests.filter (fun x => x != u) } } : State).clearUnit u

theorem State.not_mem_selfTests_tested (s : State) (u : FenceUnit) : u ∉ (s.tested u).flt.selfTests := by
  change u ∉ s.flt.selfTests.filter (fun x => x != u)
  simp

theorem State.fencedOut_tested (s : State) (u v : FenceUnit) : (s.tested u).fencedOut v = s.fencedOut v := rfl

theorem State.unitFenced_tested (s : State) (u v : FenceUnit) : (s.tested u).unitFenced v = s.unitFenced v := rfl

/-- A map without the keys of a range. -/
theorem mapGet_without_range (lo n k : Nat) (m : List (Nat × Byte)) :
    mapGet 0 k (m.filter (fun e => !(decide (lo ≤ e.1) && decide (e.1 < lo + n)))) = if lo ≤ k ∧ k < lo + n then 0 else mapGet 0 k m := by
  refine (mapGet_filter 0 (fun b => !(decide (lo ≤ b) && decide (b < lo + n))) k m).trans ?_
  by_cases h : lo ≤ k ∧ k < lo + n
  · rw [if_pos h, if_neg (by simp [h])]
  · rw [if_neg h, if_pos (by simp; omega)]

/-- The self-test of an islet clears its islet memory alone. -/
theorem State.byte_tested_islet {s : State} {u : FenceUnit} (hw : u.whole = false) (a : Nat) :
    (s.tested u).byte a = if t0Addr (u.island * 16 + u.islet) 0 ≤ a ∧ a < t0Addr (u.island * 16 + u.islet) 0 + 2 ^ 17 then 0 else s.byte a := by
  unfold State.tested State.clearUnit
  simp only [hw, Bool.false_eq_true, if_false, one_mul, Bool.false_and, Bool.or_false]
  exact mapGet_without_range ..

/-- The outcome of an islet's self-test. -/
theorem exec_selfTestDone_islet {s : State} {u : FenceUnit} (hu : u ∈ s.flt.selfTests) (hw : u.whole = false) (failed : List Nat) :
    exec (.selfTestDone u failed) s = .next (if failed.isEmpty && !s.fencedOut u then ((s.tested u).admitUnit u).logReadmit u else s.tested u) := by
  have hin : (!s.flt.selfTests.contains u) = false := by simp [hu]
  change execSelfTestDone u failed s = _
  unfold execSelfTestDone
  rw [if_neg (Bool.eq_false_iff.1 hin)]
  extract_lets f s0 s1
  rw [if_pos (by rw [hw]; rfl)]
  rfl

/-- A whole island of which nothing fails and nothing was fenced out is admitted. -/
theorem exec_selfTestDone_island {s : State} {u : FenceUnit} (hu : u ∈ s.flt.selfTests) (hw : u.whole = true) (hout : s.fencedOut u = false)
    (hin : ∀ j < 16, s.fencedOut { whole := false, island := u.island, islet := j } = false) : ∃ w : State, exec (.selfTestDone u []) s =
      .next ((w.admitUnit u).logReadmit u) ∧ w.flt.selfTests = (s.tested u).flt.selfTests := by
  have hmem : (!s.flt.selfTests.contains u) = false := by simp [hu]
  change ∃ w : State, execSelfTestDone u [] s = _ ∧ _
  unfold execSelfTestDone
  rw [if_neg (Bool.eq_false_iff.1 hmem)]
  extract_lets f s1 islet bad s2 stay pass
  rw [if_neg (by simp [hw])]
  have hbad : ∀ j ∈ List.range 16, bad j = false := fun j hj => hin j (List.mem_range.1 hj)
  have hstay : stay = [] := List.filter_eq_nil_iff.2 fun j hj => by simp [hbad j hj]
  have hout1 : s1.fencedOut u = false := hout
  rw [if_neg (by simp [hstay, hout1])]
  refine ⟨_, rfl, ?_⟩
  have hs2 : s2 = s1 := foldl_keeps (g := id) (fun v j => rfl) _ s1
  rw [foldl_keeps (g := fun v => v.flt.selfTests) (fun v j => State.selfTests_admitUnit v _), hs2]
  rfl

/-! ## Errors of T0 and T1 (R398, R399) -/

theorem mem_causes_fenceCause (s : State) (u : FenceUnit) (c : FenceCause) : (u, c) ∈ (s.fenceCause u c).flt.causes :=
  mem_addOnce_self ..

theorem exec_sramScrubRead_clean (s : State) (t1 : Bool) (unit : Nat) {line : Nat} (use : SramUse) (hl : line ≠ 0) :
    exec (.sramScrubRead t1 unit line .clean use) s = .next s := by
  change execSramScrubRead t1 unit line .clean use s = _
  unfold execSramScrubRead
  dsimp only
  rw [if_neg hl]

theorem exec_sramScrubRead_corrected (s : State) (t1 : Bool) (unit : Nat) {line : Nat} (use : SramUse) (hl : line ≠ 0) :
    exec (.sramScrubRead t1 unit line .corrected use) s = .next ((s.count (if t1 then Reg.faultT1CeCnt else Reg.faultT0CeCnt)).faultLog
      (if t1 then 0x17 else 0x13) (if t1 then unit / 128 else unit / 2048) 1 1 0
      (if t1 then t1Addr unit (line * 64) else t0Addr unit (line * 64))) := by
  change execSramScrubRead t1 unit line .corrected use s = _
  unfold execSramScrubRead
  dsimp only
  rw [if_neg hl]

/-- The first uncorrectable error of a line is noted, a second one calls for its unit's fence (R399, R401). -/
theorem exec_sramScrubRead_uncorrectable (s : State) (t1 : Bool) (unit : Nat) {line : Nat} (use : SramUse) (hl : line ≠ 0) :
    ∃ t, exec (.sramScrubRead t1 unit line .uncorrectable use) s = .next t ∧
      (s.flt.lineUe.contains (t1, unit, line) = false → t.flt.lineUe.contains (t1, unit, line) = true) ∧
      (s.flt.lineUe.contains (t1, unit, line) = true →
        (if t1 then ({ whole := true, island := unit, islet := 0 } : FenceUnit)
          else { whole := false, island := unit / 16, islet := unit % 16 }, FenceCause.secondUe) ∈ t.flt.causes) := by
  change ∃ t, execSramScrubRead t1 unit line .uncorrectable use s = _ ∧ _
  unfold execSramScrubRead
  simp -zeta only [if_neg hl]
  extract_lets s0 die typ addr func again s1 s2
  by_cases h : s0.flt.lineUe.contains (t1, unit, line) = true
  · rw [if_pos h]
    exact ⟨_, rfl, fun hn => absurd h (Bool.eq_false_iff.1 hn), fun _ => mem_causes_fenceCause ..⟩
  · rw [if_neg h]
    exact ⟨_, rfl, fun _ => by simp, fun hy => absurd hy h⟩

/-! ## Control cores (R406) -/

theorem exec_coreRestartDone {s : State} {core : Nat} {c : CoreSt} (hc : s.flt.cores[core]? = some c) (hr : c.restarting = true) :
    exec (.coreRestartDone core) s = .next { s with flt := { s.flt with
      cores := updAt core (fun x => { x with up := true, restarting := false }) s.flt.cores } } := by
  change execCoreRestartDone core s = _
  unfold execCoreRestartDone
  simp only [hc, Option.filter, hr, if_true]

/-- A core that does not serve management misses its watchdog: it restarts, or stays halted after three restarts in 10 minutes. -/
theorem exec_coreWatchdogExpire {s : State} {core : Nat} {c : CoreSt} {l : List Nat} (hc : s.flt.cores[core]? = some c) (hup : c.up = true)
    (hrel : s.sec.released = true) (hp : s.powered = true) (hserv : s.servingCore ≠ some core)
    (hl : l = c.restarts.filter (fun t => decide (s.clock < t + 600000000000))) :
    exec (.coreWatchdogExpire core) s = .next (if l.length ≥ 3 then { s with flt := { s.flt with
      cores := updAt core (fun _ => { up := false, restarting := false, restarts := l }) s.flt.cores } }
    else (({ s with flt := { s.flt with
      cores := updAt core (fun _ => { up := false, restarting := true, restarts := l ++ [s.clock] }) s.flt.cores } } : State).count
        Reg.faultCoreRestartCnt).faultLog 0x04 0 0x0A 0 0 0) := by
  subst hl
  change execCoreWatchdogExpire core s = _
  unfold execCoreWatchdogExpire
  simp only [hc, Option.filter, hup, hrel, hp, Bool.and_self, if_true, if_neg hserv]

/-! ## A stack (R404) -/

theorem State.bodiesOn_congr {s t : State} (h : t.cmd = s.cmd) (k : Nat) : t.bodiesOn k = s.bodiesOn k := by
  rw [State.bodiesOn, State.bodiesOn, h]

/-- A stack on which no body lies fails. -/
theorem exec_stackFail {s : State} {stack : Nat} (hp : s.powered = true) (hk : stack < 32)
    (hf : s.flt.failedStacks.contains stack = false) (hb : s.bodiesOn stack = []) : exec (.stackFail stack) s = .next
      (((({ s with flt := { s.flt with failedStacks := s.flt.failedStacks ++ [stack] } } : State).count
        Reg.faultStackFailCnt).faultLog 0x18 stack 7 5 0 (t2Addr stack 0)).moveIntake stack) := by
  have hrun : (!s.powered || decide (stack ≥ 32) || s.flt.failedStacks.contains stack) = false := by rw [hp, hf]; simp [hk]
  change execStackFail stack s = _
  unfold execStackFail
  rw [if_neg (Bool.eq_false_iff.1 hrun)]
  extract_lets f s1 s2
  have hcmd : s1.cmd = s.cmd := ((State.faultLog_within ..).cmd (by decide)).trans ((State.count_within ..).cmd (by decide))
  have h2 : s2 = s1 := by
    unfold s2
    rw [State.bodiesOn_congr hcmd, hb]
    rfl
  rw [h2]

/-- Settles O57, unit by unit. -/
theorem unitsAreFencedAndReadmitted : Obligations.UnitsAreFencedAndReadmitted := by
  unfold Obligations.UnitsAreFencedAndReadmitted
  refine ⟨fun s t1 unit line use hl => ?_, fun s u c hi hj hc hf => exec_fenceEffect_fences hi hj hc hf, fun s u hu hw => ?_,
    fun s u hu hw hout hin => ?_, fun s t stack hp hk hf hb ht => ht ▸ exec_stackFail hp hk hf hb,
    fun s core c l hc hup hrel hp hserv hl => ?_, fun s core c hc hr => exec_coreRestartDone hc hr⟩
  · obtain ⟨t, ht, hfirst, hsecond⟩ := exec_sramScrubRead_uncorrectable s t1 unit use hl
    exact ⟨exec_sramScrubRead_clean s t1 unit use hl, exec_sramScrubRead_corrected s t1 unit use hl, fun h => ⟨t, ht, hfirst h⟩,
      fun h => ⟨t, ht, hsecond h⟩⟩
  · refine ⟨fun hout => ?_, fun failed h => ?_⟩
    · obtain ⟨hisl, hjsl, htests⟩ := ((s.tested u).admitUnit u).flt_logReadmit u
      refine ⟨_, (exec_selfTestDone_islet hu hw []).trans (congrArg Host.Outcome.next (if_pos (by simp [hout]))), ?_, ?_, fun _ a => ?_⟩
      · rw [State.unitFenced_congr hisl hjsl, State.unitFenced_admitUnit]
      · rw [htests, State.selfTests_admitUnit]
        exact s.not_mem_selfTests_tested u
      · rw [(State.logReadmit_within ..).byte (by decide), (State.admitUnit_within ..).byte (by decide), State.byte_tested_islet hw]
    · refine ⟨_, (exec_selfTestDone_islet hu hw failed).trans (congrArg Host.Outcome.next (if_neg ?_)), s.unitFenced_tested u u,
        s.not_mem_selfTests_tested u⟩
      rcases h with h | h <;> simp [h]
  · obtain ⟨w, hexec, hw'⟩ := exec_selfTestDone_island hu hw hout hin
    obtain ⟨hisl, hjsl, htests⟩ := (w.admitUnit u).flt_logReadmit u
    refine ⟨_, hexec, ?_, ?_⟩
    · rw [State.unitFenced_congr hisl hjsl, State.unitFenced_admitUnit]
    · rw [htests, State.selfTests_admitUnit, hw']
      exact s.not_mem_selfTests_tested u
  · refine ⟨fun h3 => ?_, fun h3 => ?_⟩
    · rw [exec_coreWatchdogExpire hc hup hrel hp hserv hl, if_pos h3]
    · rw [exec_coreWatchdogExpire hc hup hrel hp hserv hl, if_neg (not_le.2 h3)]

end Sys2Proof.Machine
end

section
/-! The scheduler's own events, for the statements of chapter 12. -/

namespace Sys2Proof.Machine

/- The elaborator's threads each take a stack: one proof at a time keeps a text of this length within the memory limit. -/
set_option Elab.async false

/-! ## A pre-emption while the main domains are dark -/

/-- A task on the dispatch queue of island 0, for the counterexample. -/
def darkTask (id cls : Nat) (islet : Option Nat) : Task :=
  { id := id, island := 0, kind := .probe, func := 0, ctx := none, cls := cls, aged := false, entered := 0, ready := true, islet := islet
    started := 0, since := 0, killing := false, kills := 0, tiles := 0, save := none, ran := 0, cmd := none, homes := [] }

/-- The device in WATCH, with pre-emption enabled, island 0 fenced, a waiting task of class 1 and a running one of class 0. -/
def darkPreempt : State :=
  { State.reset with
    pwr := { State.reset.pwr with st := .watch }
    regs := [(Reg.schedPreemptCfg, BitVec.ofNat 32 (2 ^ 16))]
    flt := { State.reset.flt with islands := [0] }
    sch := { State.reset.sch with tasks := [darkTask 0 1 none, darkTask 1 0 (some 0)] } }

/-- In the dark no time passes, so a pre-emption there waits for none. -/
theorem now_preempt_darkPreempt {t : State} (h : exec (.preemptWaitExpire 0) darkPreempt = .next t) : t.now = 0 := by
  have hnow : (match exec (.preemptWaitExpire 0) darkPreempt with
    | .next u => u.now
    | _ => 1) = 0 := by decide +kernel
  rw [h] at hnow
  exact hnow

/-- Refutes O50: its first clause has no premise that the main domains are powered; in WATCH device time stands still, so the task
killed at `darkPreempt` is not killed after the wait. -/
theorem not_schedulerWatchesItsIslands : ¬ Obligations.SchedulerWatchesItsIslands := by
  unfold Obligations.SchedulerWatchesItsIslands
  rintro ⟨h, -⟩
  obtain ⟨t, x, hexec, -, -, -, -, hlate, -⟩ := h darkPreempt 0 (darkTask 0 1 none) (darkTask 1 0 (some 0)) (by decide +kernel)
    (by decide +kernel) (by decide +kernel) rfl rfl rfl (by decide +kernel) (by decide +kernel)
  rw [now_preempt_darkPreempt hexec] at hlate
  exact Nat.not_lt_zero _ hlate

end Sys2Proof.Machine
end

section
/-! Contexts and channels, for the statements of chapter 12. -/

namespace Sys2Proof.Machine

/- The elaborator's threads each take a stack: one proof at a time keeps a text of this length within the memory limit. -/
set_option Elab.async false

/-! ## A retirement named by a command of the context's own channel -/

/-- The header of a STEP command on channel 0. -/
def heldStepHdr : CmdHdr :=
  { opcode := Op.step, func := 0, fence := false, channel := 0, tag := 0, srcOrd := 0, dstOrd := 0, ring := 0, inlineLen := 64, xferLen := 0
    reserved := 0 }

/-- A held STEP command. -/
def heldStep : Live :=
  { h := heldStepHdr, body := [], got := [], handle := 0, intake := [], stage := .held, island := 512, stamp := 0, tide := 0, epoch := 0
    accepted := 0, order := 0, committed := false, came := 0 }

/-- A context that retires for that command. -/
def retiringCtx : Ctx :=
  { id := 0, func := 0, prio := 0, slices := 1, units := 1, seed := 0, st := .retiring, slot := 0, first := 0
    retire := some { func := 0, tag := 0 }, since := 0, done := 0 }

/-- Channel 0 of the context. -/
def stepChan : Chan :=
  { num := 0, func := 0, ctx := 0, island := 0, flow := false, ring := 0, closing := none, held := [], newIsland := none, src := 0 }

/-- A device at 1 ns whose context 0 retires for a command that its own channel holds. -/
def retiresForHeld : State :=
  { State.reset with
    now := 1
    sch := { State.reset.sch with ctxs := [retiringCtx], chans := [stepChan] }
    cmd := { State.reset.cmd with live := [heldStep] } }

/-- The end of that retirement completes the held command, which is an end of a command of the context: `done` becomes the time. -/
theorem done_retire_retiresForHeld {t : State} (h : exec (.retireDone 0) retiresForHeld = .next t) : (t.ctx? 0).map Ctx.done = some 1 := by
  have hdone : (match exec (.retireDone 0) retiresForHeld with
    | .next u => (u.ctx? 0).map Ctx.done
    | _ => none) = some 1 := by decide +kernel
  rw [h] at hdone
  exact hdone

/-- Refutes O48: a retirement is completed as the command that it names, and where that is a command of the context's own channel, as in
`retiresForHeld`, its completion also sets the time of the context's last completed command, which the statement keeps. -/
theorem not_contextsAndChannelsOpenAndClose : ¬ Obligations.ContextsAndChannelsOpenAndClose := by
  unfold Obligations.ContextsAndChannelsOpenAndClose
  rintro ⟨-, h, -⟩
  obtain ⟨t, hexec, hctx, -⟩ := h retiresForHeld 0 retiringCtx { func := 0, tag := 0 } (by decide +kernel) rfl rfl (by decide +kernel)
    (by decide +kernel)
  have hdone := done_retire_retiresForHeld hexec
  rw [hctx] at hdone
  exact absurd hdone (by decide +kernel)

end Sys2Proof.Machine
end

section
/-! The command protocol's shared operations: a command stamped at once, a completion, and what both leave. -/

namespace Sys2Proof.Machine

/- The elaborator's threads each take a stack: one proof at a time keeps a text of this length within the memory limit. -/
set_option Elab.async false

namespace State

/-! ## A command that passes its checks -/

/-- A command stamped at once runs its action (R338). -/
theorem command_of_stampsAtOnce {isRow : CmdHdr → Body → Bool} {chk : BodyCheck} {s t : State} {h : CmdHdr} {b : Body} {l : Live}
    (act : CmdAct) (hs : s.stampsAtOnce chk h b l t) (hrow : isRow h b = true) : s.command isRow chk act h b = act h.ref l t := by
  obtain ⟨-, htaken, hlive, hstamped, hrecord⟩ := hs
  rcases harr : s.arrive h b with ⟨u, o⟩
  rw [harr] at htaken hlive hstamped
  dsimp only at htaken hlive hstamped
  subst htaken
  obtain ⟨x, hx, hchk⟩ := (Option.any_eq_true _ _).1 hlive
  have hnone : chk u x.h x.body = none := by simpa using hchk
  unfold State.command
  rw [hrow, if_neg (by simp), harr]
  dsimp only
  unfold State.bodyEnter
  simp only [hx, hnone, hstamped, hrecord]

/-! ## Live commands by their headers -/

/-- Whether a reference names a live command depends on the headers alone. -/
theorem live?_eq_none_iff (s : State) (r : CmdRef) : s.live? r = none ↔ ∀ h ∈ s.cmd.live.map Live.h, ¬(h.func = r.func ∧ h.tag = r.tag) := by
  simp [State.live?]

theorem live?_eq_none_congr {s t : State} (h : t.cmd.live.map Live.h = s.cmd.live.map Live.h) {r : CmdRef} (hs : s.live? r = none) :
    t.live? r = none := by
  rw [live?_eq_none_iff] at hs ⊢
  rwa [h]

theorem heads_updLive (s : State) (r : CmdRef) {f : Live → Live} (hf : ∀ l, (f l).h = l.h) :
    (s.updLive r f).cmd.live.map Live.h = s.cmd.live.map Live.h := by
  change (updWhere _ f s.cmd.live).map Live.h = _
  rw [updWhere, List.map_map]
  refine List.map_congr_left fun l _ => ?_
  change Live.h (if _ then _ else _) = _
  split
  · exact hf l
  · rfl

theorem heads_deliver (s : State) (r : CmdRef) : (s.deliver r).cmd.live.map Live.h = s.cmd.live.map Live.h := by
  unfold State.deliver
  split
  · rfl
  · exact heads_updLive _ r fun _ => rfl

theorem heads_releaseHeld (s : State) : s.releaseHeld.cmd.live.map Live.h = s.cmd.live.map Live.h := by
  unfold State.releaseHeld
  refine foldl_keeps (g := fun s => s.cmd.live.map Live.h) (fun u l => ?_) _ s
  dsimp only
  rw [heads_deliver]
  split <;> rfl

/-! ## Completions -/

theorem live?_dropLive_self (s : State) (r : CmdRef) : (s.dropLive r).live? r = none := by
  unfold State.dropLive
  split
  · assumption
  · rw [live?_eq_none_iff]
    intro h hh
    obtain ⟨x, hx, rfl⟩ := List.mem_map.1 hh
    have hne := (List.mem_filter.1 hx).2
    rintro ⟨hfunc, htag⟩
    simp [hfunc, htag] at hne

/-- A completed command is no longer live (R334). -/
theorem live?_complete_self (s : State) (r : CmdRef) (status : Nat) (body : Body) : (s.complete r status body).live? r = none := by
  unfold State.complete
  split
  · assumption
  · refine live?_eq_none_congr (heads_releaseHeld _) ?_
    refine live?_eq_none_congr (congrArg (fun c : CmdSt => c.live.map Live.h) ?_) (s.live?_dropLive_self r)
    exact ((State.answer_within ..).cmd (by decide)).trans ((State.noteLoad_within ..).cmd (by decide))

theorem outbox_answer (s : State) (h : CmdHdr) (status : Nat) (dup : Bool) (body : Body) :
    (s.answer h status dup body).outbox = s.outbox ++ cplFrags h s.fix.ord s.devTime status dup 0 h.ring h.tag body :=
  (State.count_within ..).outbox (by decide)

/-- What a completion sends: its fragments (R334, R335). -/
theorem outbox_complete {s : State} {r : CmdRef} {l : Live} (hl : s.live? r = some l) (status : Nat) (body : Body) :
    (s.complete r status body).outbox = s.outbox ++ cplFrags l.h s.fix.ord s.devTime status false 0 l.h.ring l.h.tag body := by
  have hdrop : Within [.regs, .mm, .sch, .cmd] s ((s.dropLive r).noteLoad l.h.opcode status l.body) :=
    Within.andThen (State.noteLoad_within ..) (by decide) ((State.dropLive_within ..).mono (by decide))
  unfold State.complete
  simp only [hl]
  rw [(State.releaseHeld_within ..).outbox (by decide), outbox_answer, hdrop.outbox (by decide), hdrop.fix (by decide), State.devTime,
    hdrop.now (by decide), ← State.devTime]

end State

/-! ## The engine's own rows -/

/-- A DATA packet that brings bytes of a grant, but not the last, adds them to the body (R333). -/
theorem exec_data_part {s : State} {d : DataPkt} {l : Live} (hp : s.powered = true)
    (hl : s.live? { func := d.func, tag := d.tag } = some l) (ht : l.takes d = true)
    (hn : ((l.got ++ [(d.offset, d.bytes.length)]).map (fun g => g.2)).sum ≠ l.h.xferLen) :
    exec (.data d) s = .next (s.updLive { func := d.func, tag := d.tag } (fun x => { x with
      got := l.got ++ [(d.offset, d.bytes.length)], body := x.body.take d.offset ++ d.bytes ++ x.body.drop (d.offset + d.bytes.length) })) := by
  change execData d s = _
  unfold execData
  simp only [hp, hl, Option.filter, ht, Bool.not_true, Bool.false_eq_true, if_false, if_true, if_neg hn]

/-- Any other DATA packet is discarded and counted (R333). -/
theorem exec_data_dropped {s : State} {d : DataPkt} (hp : s.powered = true)
    (hno : ∀ l, s.live? { func := d.func, tag := d.tag } = some l → l.takes d = false) :
    exec (.data d) s = .next (s.count Reg.cmdDataDropCnt) := by
  have hnone : (s.live? { func := d.func, tag := d.tag }).filter (fun l => l.takes d) = none := by
    cases hl : s.live? { func := d.func, tag := d.tag } with
    | none => rfl
    | some l => simp [Option.filter, hno l hl]
  change execData d s = _
  unfold execData
  simp only [hp, hnone, Bool.not_true, Bool.false_eq_true, if_false]

/-- An ABORT whose body came with it is decided on arrival (R341). -/
theorem exec_abort_of_arrive {s t : State} {h : CmdHdr} {b : Body} (hop : h.opcode = Op.abort) (harr : s.arrive h b = (t, some h.ref)) :
    exec (.abort h b) s = .next (t.decideAbort h.ref) := by
  change Host.Outcome.next (s.onAbort h b) = _
  unfold State.onAbort
  rw [if_neg (by simp [hop]), harr]

theorem live?_updLive_same {s : State} {r : CmdRef} {l : Live} {f : Live → Live} (hf : ∀ l, (f l).h = l.h) (hl : s.live? r = some l) :
    (s.updLive r f).live? r = some (f l) := by
  have h := find?_updWhere_same (p := fun l : Live => l.h.func == r.func && l.h.tag == r.tag) (f := f) (fun x hx => by rw [hf]; exact hx) s.cmd.live
  exact h.trans (congrArg (Option.map f) hl)

/-- A command that arrives before the engine is ready is refused with the running hint, or with cause 3 (R332, R351). -/
theorem State.arrive_of_not_ready {s : State} (h : CmdHdr) (b : Body) (hp : s.powered = true) (hr : s.cmd.ready = false) :
    s.arrive h b = (match s.running? h with
      | some x => s.busyAgain h x
      | none => s.backOff h 3, none) := by
  unfold State.arrive
  simp only [hp, hr, Bool.not_true, Bool.not_false, Bool.false_eq_true, if_false, if_true] <;> cases s.running? h <;> rfl

/-- A page that becomes ready is no longer among those that are not. -/
theorem State.notReady_pageReady (s : State) (b : Nat) : (s.pageReady b).notReady = s.notReady.filter (fun x => x != b) := by
  unfold State.pageReady
  exact foldl_keeps (g := fun s => s.notReady) (fun u w => (State.writeNow_within ..).notReady (by decide)) _ _

/-- The start of the command engine (R351). -/
theorem exec_commandEngineReady {s : State} (hr : s.cmd.ready = false) (hs : s.mgmtServes = true) (hf : s.fl.sysRead = true)
    (ht : s.flt.selfTests = []) : ∃ t, exec .commandEngineReady s = .next t ∧ t.cmd.ready = true ∧ t.notReady.contains 0x5000 = false := by
  have hrun : (s.cmd.ready || !s.mgmtServes || !s.fl.sysRead || !s.flt.selfTests.isEmpty) = false := by simp [hr, hs, hf, ht]
  refine ⟨_, congrArg Host.Outcome.next (if_neg (Bool.eq_false_iff.1 hrun)), ?_, ?_⟩
  · rw [(State.pageReady_within ..).cmd (by decide)]
  · rw [State.notReady_pageReady]
    simp

/-- Settles O51, row by row. -/
theorem commandsArriveAndComplete : Obligations.CommandsArriveAndComplete := by
  unfold Obligations.CommandsArriveAndComplete
  refine ⟨fun s t h b l hs hrow => ?_, fun s t h b hop harr => ?_, fun s d l hp hl ht hn => ?_, fun s d hp hno => ?_, fun s p hp hk => ?_,
    fun s f q x hp hx => ?_, fun s h b hp hr hrow => ?_, fun s hr hs hf ht => exec_commandEngineReady hr hs hf ht⟩
  · exact ⟨_, _, congrArg Host.Outcome.next (State.command_of_stampsAtOnce actNop hs hrow), rfl, State.live?_complete_self ..,
      State.outbox_complete hs.record _ _, List.prefix_refl _⟩
  · exact exec_abort_of_arrive hop harr
  · exact ⟨_, _, exec_data_part hp hl ht hn, live?_updLive_same (fun _ => rfl) hl, rfl, rfl, fun _ => rfl⟩
  · exact exec_data_dropped hp hno
  · refine congrArg Host.Outcome.next (if_pos ?_)
    simp [hp, hk]
  · refine ⟨_, ?_, rfl, State.le_now_elapseTo hp _⟩
    change execBusyHintExpire f q s = _
    unfold execBusyHintExpire
    simp only [hx, Option.filter, hp, if_true]
  · change Host.Outcome.next (s.command isNop noCheck actNop h b) = _
    unfold State.command
    rw [hrow, if_neg (by simp), State.arrive_of_not_ready h b hp hr] <;> cases s.running? h <;> rfl

end Sys2Proof.Machine
end

section
/-! The bridge's rings, for the statements of chapter 13. -/

namespace Sys2Proof.Machine

/- The elaborator's threads each take a stack: one proof at a time keeps a text of this length within the memory limit. -/
set_option Elab.async false

/-! ## A resend while the main domains are dark -/

/-- A refused command that is due at 5 ns. -/
def refusedCmd : RingCmd :=
  { id := 0, ring := 0, ord := 0, h := heldStepHdr, body := [], respAddr := 0, respLen := 0, sent := false, answered := false, refused := true
    retried := true, sentAt := 0, resendAt := 5 }

/-- The bridge in WATCH at time 0, with that command. -/
def darkResend : State :=
  { State.reset with
    pwr := { State.reset.pwr with st := .watch }
    brg := { State.reset.brg with cmds := [refusedCmd] } }

/-- In the dark no time passes, so a resend there waits for none. -/
theorem now_resend_darkResend {t : State} (h : exec (.busyResend 0 0 0) darkResend = .next t) : t.now = 0 := by
  have hnow : (match exec (.busyResend 0 0 0) darkResend with
    | .next u => u.now
    | _ => 1) = 0 := by decide +kernel
  rw [h] at hnow
  exact hnow

/-- Refutes O52: its clause of the resend has no premise that the main domains are powered; in WATCH device time stands still, so at
`darkResend` the command is sent before its hint has run out. -/
theorem not_ringsCarryCommandsAndCompletions : ¬ Obligations.RingsCarryCommandsAndCompletions := by
  unfold Obligations.RingsCarryCommandsAndCompletions
  rintro ⟨-, -, -, h, -⟩
  obtain ⟨-, hsend⟩ := h darkResend 0 0 0 refusedCmd (by decide +kernel)
  obtain ⟨t, hexec, -, hlate, -⟩ := hsend (by decide +kernel)
  rw [now_resend_darkResend hexec] at hlate
  exact absurd hlate (by decide)

end Sys2Proof.Machine
end

section
/-! Transfers between devices, for the statements of chapter 14. -/

namespace Sys2Proof.Machine

/- The elaborator's threads each take a stack: one proof at a time keeps a text of this length within the memory limit. -/
set_option Elab.async false

/-! ## A resend while the main domains are dark -/

/-- A read of 16 bytes of device 1 that was sent at 1 ns. -/
def sentRead : XferOut :=
  { xid := 0, dst := 1, write := false, sentAt := 1, use := .weight
    x := { srcOrd := 0, func := 0, xid := 0, addr := 0, lenM1 := 15, replyAddr := 0, err := false, data := [], place := .memory } }

/-- The device in WATCH at time 0, with that transfer unanswered. -/
def darkXresend : State :=
  { State.reset with
    pwr := { State.reset.pwr with st := .watch }
    zwx := { State.reset.zwx with xfers := [sentRead] } }

/-- In the dark no time passes, so a resend there waits for none. -/
theorem now_xresend_darkXresend {t : State} (h : exec (.xresend 0) darkXresend = .next t) : t.now = 0 := by
  have hnow : (match exec (.xresend 0) darkXresend with
    | .next u => u.now
    | _ => 1) = 0 := by decide +kernel
  rw [h] at hnow
  exact hnow

/-- Refutes O55: its clause of the resend has no premise that the main domains are powered; in WATCH device time stands still, so at
`darkXresend` the transfer is sent again before HOLD_US has passed. -/
theorem not_transfersReadAndWrite : ¬ Obligations.TransfersReadAndWrite := by
  unfold Obligations.TransfersReadAndWrite
  rintro ⟨-, -, -, -, -, -, -, h⟩
  obtain ⟨t, hexec, hlate, -⟩ := h darkXresend 0 sentRead (by decide +kernel)
  have hsent : sentRead.sentAt ≤ t.now := (Nat.le_add_right _ _).trans hlate
  rw [now_xresend_darkXresend hexec] at hsent
  exact absurd hsent (by decide)

end Sys2Proof.Machine
end

section
/-! The flash tier, for the statements of chapter 11. -/

namespace Sys2Proof.Machine

/- The elaborator's threads each take a stack: one proof at a time keeps a text of this length within the memory limit. -/
set_option Elab.async false

/-! ## A stripe's time-out while the main domains are dark -/

/-- An open stripe of channel group 0, opened at 1 ns. -/
def openStripe : Stripe := { group := 0, no := 0, opened := 1, units := [], shut := false }

/-- The device in WATCH at time 0, with that stripe. -/
def darkStripe : State :=
  { State.reset with
    pwr := { State.reset.pwr with st := .watch }
    fl := { State.reset.fl with stripes := [openStripe] } }

/-- In the dark no time passes, so a stripe's time-out there waits for none. -/
theorem now_close_darkStripe {t : State} (h : exec (.stripeCloseTimeout 0) darkStripe = .next t) : t.now = 0 := by
  have hnow : (match exec (.stripeCloseTimeout 0) darkStripe with
    | .next u => u.now
    | _ => 1) = 0 := by decide +kernel
  rw [h] at hnow
  exact hnow

/-- Refutes O47: its clause of the stripe's time-out has no premise that the main domains are powered; in WATCH device time stands still, so
at `darkStripe` the stripe is closed before CLOSE_US has passed. -/
theorem not_flashKeepsItsUnits : ¬ Obligations.FlashKeepsItsUnits := by
  unfold Obligations.FlashKeepsItsUnits
  rintro ⟨-, -, -, -, h, -⟩
  obtain ⟨t, hexec, hlate, -⟩ := h darkStripe 0 openStripe (by decide +kernel)
  have hopened : openStripe.opened ≤ t.now := (Nat.le_add_right _ _).trans hlate
  rw [now_close_darkStripe hexec] at hopened
  exact absurd hopened (by decide)

end Sys2Proof.Machine
end

section
/-! Ports, for the statements of chapter 14. -/

namespace Sys2Proof.Machine

/- The elaborator's threads each take a stack: one proof at a time keeps a text of this length within the memory limit. -/
set_option Elab.async false

/-! ## A lane that comes back while the main domains are dark -/

/-- The device in WATCH at time 0, with port 0 up and lane 0 of it retired. -/
def darkRejoin : State :=
  { State.reset with
    pwr := { State.reset.pwr with st := .watch }
    zwx := { State.reset.zwx with ports := [{ Port.reset 0 with st := .up }] } }

/-- In the dark no time passes, so a lane there waits for none. -/
theorem now_rejoin_darkRejoin {t : State} (h : exec (.laneRejoin 0) darkRejoin = .next t) : t.now = 0 := by
  have hnow : (match exec (.laneRejoin 0) darkRejoin with
    | .next u => u.now
    | _ => 1) = 0 := by decide +kernel
  rw [h] at hnow
  exact hnow

/-- Refutes O53: its clause of a lane that comes back has no premise that the main domains are powered; in WATCH device time stands still, so
at `darkRejoin` the lane is back before its second has passed. -/
theorem not_portsCarryFrames : ¬ Obligations.PortsCarryFrames := by
  unfold Obligations.PortsCarryFrames
  rintro ⟨-, -, -, -, -, -, -, h, -⟩
  obtain ⟨t, hexec, -, hlate, -⟩ := h darkRejoin 0 (by decide) (by decide +kernel) (by decide +kernel)
  rw [now_rejoin_darkRejoin hexec] at hlate
  exact absurd hlate (by decide +kernel)

end Sys2Proof.Machine
end

section
/-! The host link and lost paths, for the statements of chapter 14. -/

namespace Sys2Proof.Machine

/- The elaborator's threads each take a stack: one proof at a time keeps a text of this length within the memory limit. -/
set_option Elab.async false

/-! ## A page copy to the lost device that frees a frame -/

/-- Page 5 of sequence 0, whose copy to device 1 is under way. -/
def copiedPage : PageRef := { seq := 0, layer := 0, group := 0, page := 5 }

/-- A KV cache of context 0 over the devices 0 and 1, one page after the other. -/
def sharedKv : KvCtx :=
  { ctx := 0, func := 0, pools := [(0, 1), (0, 1)], root := 1, ageq := 0, drop := false, layout := 2, mirror := true, devs := [0, 1], mirs := []
    span := 1, quota := 0, next := none, frames := [], leaves := [], dirSlots := [], chunks := [], age := [], ageTail := 0, spill := []
    spillNext := 0, key := none }

/-- A sequence of that context that waits for frames; its next row lies in page 1, which device 1 holds. -/
def waitingSeq : Seq :=
  { slot := 0, func := 0, ctx := 0, chan := 0, flow := false, cohort := 0, body := [], written := 64, last := 0, tokens := 0, level := 0
    readyAt := 0, began := false, wait := some 0, want := some (64, 1), heldAt := 0, noCand := 0, closeCmd := none, openCmd := none
    ended := false, keep := false }

/-- A spill that is complete and whose page is gone: its frame waits for the copy to device 1 alone. -/
def spilledPage : PageMove :=
  { p := copiedPage, ctx := 0, pool := 0, frame := 0, spill := 0, cmd := none, spare := none, done := true, gone := true }

/-- The transfer of that copy. -/
def copyXfer : XferOut :=
  { xid := 0, dst := 1, write := true, sentAt := 0, use := .mirror copiedPage
    x := { srcOrd := 0, func := 0, xid := 0, addr := 0, lenM1 := 15, replyAddr := 0, err := false, data := [], place := .memory } }

/-- Device 0 with all of these. -/
def copiesToLost : State :=
  { State.reset with
    kv := { State.reset.kv with ctxs := [sharedKv], mirroring := [copiedPage], spills := [spilledPage] }
    gen := { State.reset.gen with seqs := [waitingSeq] }
    zwx := { State.reset.zwx with xfers := [copyXfer], nextXid := 1 } }

/-- When the path to device 1 is lost, the sequence takes the freed frame and device 1 is sent its release: a new transfer to the lost
device. -/
theorem release_sent_to_lost {t : State} (h : exec (.pathLost 0 1 0) copiesToLost = .next t) : t.zwx.xfers.any (·.dst == 1) = true := by
  have hsent : (match exec (.pathLost 0 1 0) copiesToLost with
    | .next u => u.zwx.xfers.any (·.dst == 1)
    | _ => false) = true := by decide +kernel
  rw [h] at hsent
  exact hsent

/-- Refutes O54: the end of the page copies to a lost device frees frames, and a sequence that takes one has the other devices of its
cache told, the lost one with them: `copiesToLost` has no multicast, and yet keeps a transfer to the lost device. -/
theorem not_hostLinkAndLostPaths : ¬ Obligations.HostLinkAndLostPaths := by
  unfold Obligations.HostLinkAndLostPaths
  rintro ⟨-, -, -, h⟩
  obtain ⟨t, hexec, hall, -⟩ := h copiesToLost 0 1 0 (by decide +kernel) (by decide +kernel)
  obtain ⟨o, ho, hdst⟩ := List.any_eq_true.1 (release_sent_to_lost hexec)
  obtain ⟨y, hy, -, g, hg⟩ := hall o ho (beq_iff_eq.1 hdst)
  obtain rfl : y = copyXfer := List.mem_singleton.1 hy
  exact absurd hg (by simp [copyXfer])

end Sys2Proof.Machine
end

section
/-! `sortBy`, the model's sort by a number. -/

namespace Sys2Proof.Machine

/- The elaborator's threads each take a stack: one proof at a time keeps a text of this length within the memory limit. -/
set_option Elab.async false

variable {α : Type} {key : α → Nat}

theorem perm_insertBy (x : α) (l : List α) : (insertBy key x l).Perm (x :: l) := by
  induction l with
  | nil => exact .refl _
  | cons y l ih =>
    unfold insertBy
    split
    · exact .refl _
    · exact (ih.cons y).trans (.swap x y l)

/-- A sort keeps the elements. -/
theorem perm_sortBy (l : List α) : (sortBy key l).Perm l := by
  suffices h : ∀ acc : List α, (l.foldl (fun acc x => insertBy key x acc) acc).Perm (l ++ acc) by simpa [sortBy] using h []
  induction l with
  | nil => exact fun acc => .refl _
  | cons x l ih => exact fun acc => (ih _).trans ((List.Perm.append_left l (perm_insertBy x acc)).trans List.perm_middle)

theorem mem_sortBy {x : α} {l : List α} : x ∈ sortBy key l ↔ x ∈ l := (perm_sortBy l).mem_iff

theorem pairwise_insertBy (x : α) {l : List α} (h : l.Pairwise (key · ≤ key ·)) : (insertBy key x l).Pairwise (key · ≤ key ·) := by
  induction l with
  | nil => simp [insertBy]
  | cons y l ih =>
    obtain ⟨hy, hl⟩ := List.pairwise_cons.1 h
    unfold insertBy
    split
    next hlt =>
      refine List.pairwise_cons.2 ⟨fun z hz => ?_, h⟩
      rcases List.mem_cons.1 hz with rfl | hz
      · exact hlt.le
      · exact hlt.le.trans (hy z hz)
    next hle =>
      refine List.pairwise_cons.2 ⟨fun z hz => ?_, ih hl⟩
      rcases List.mem_cons.1 ((perm_insertBy x l).mem_iff.1 hz) with rfl | hz
      · exact Nat.le_of_not_lt hle
      · exact hy z hz

/-- A sort orders by the key. -/
theorem pairwise_sortBy (l : List α) : (sortBy key l).Pairwise (key · ≤ key ·) := by
  suffices h : ∀ acc : List α, acc.Pairwise (key · ≤ key ·) → (l.foldl (fun acc x => insertBy key x acc) acc).Pairwise (key · ≤ key ·) from
    h [] .nil
  induction l with
  | nil => exact fun _ h => h
  | cons x l ih => exact fun acc h => ih _ (pairwise_insertBy x h)

/-- A strict minimum is sorted to the front. -/
theorem head?_sortBy {x : α} {l : List α} (hx : x ∈ l) (hmin : ∀ y ∈ l, y = x ∨ key x < key y) : (sortBy key l).head? = some x := by
  have hmem := (mem_sortBy (key := key)).2 hx
  have hsorted := pairwise_sortBy (key := key) l
  have hsub : ∀ y ∈ sortBy key l, y ∈ l := fun y hy => mem_sortBy.1 hy
  cases hs : sortBy key l with
  | nil => simp [hs] at hmem
  | cons y ys =>
    rw [hs] at hmem hsorted hsub
    rcases List.mem_cons.1 hmem with rfl | hx
    · rfl
    · rcases hmin y (hsub y (by simp)) with rfl | hlt
      · rfl
      · exact absurd ((List.pairwise_cons.1 hsorted).1 x hx) (Nat.not_le.2 hlt)

/-- A fold that keeps the lesser of two finds a strict minimum. -/
theorem foldl_least {x : α} {l : List α} {b : α} (hx : x = b ∨ x ∈ l) (hb : b = x ∨ key x < key b) (hmin : ∀ y ∈ l, y = x ∨ key x < key y) :
    l.foldl (fun b y => if key y < key b then y else b) b = x := by
  induction l generalizing b with
  | nil => simpa [eq_comm] using hx
  | cons y l ih =>
    rw [List.foldl_cons]
    have hy := hmin y (by simp)
    refine ih ?_ ?_ fun z hz => hmin z (by simp [hz])
    · split
      next hlt =>
        rcases hx with rfl | hx
        · rcases hy with rfl | hy
          · exact .inl rfl
          · exact absurd hlt (Nat.not_lt.2 hy.le)
        · rcases List.mem_cons.1 hx with rfl | hx
          · exact .inl rfl
          · exact .inr hx
      next hle =>
        rcases hx with rfl | hx
        · exact .inl rfl
        · rcases List.mem_cons.1 hx with rfl | hx
          · rcases hb with rfl | hb
            · exact .inl rfl
            · exact absurd hb hle
          · exact .inr hx
    · split
      · exact hy
      · exact hb

end Sys2Proof.Machine
end

section
/-! The resident model and its sequences, for the statements of chapter 9. -/

namespace Sys2Proof.Machine

/- The elaborator's threads each take a stack: one proof at a time keeps a text of this length within the memory limit. -/
set_option Elab.async false

namespace State

/-! ## The record of a command stamped at once -/

theorem live?_congr {s t : State} (h : t.cmd = s.cmd) (r : CmdRef) : t.live? r = s.live? r := congrArg (fun c : CmdSt => c.live.find? _) h

theorem live?_stamp_same {s : State} {r : CmdRef} {l m : Live} {i : Nat} (hl : s.live? r = some l) (hm : (s.stamp r i).live? r = some m) :
    m.h = l.h ∧ m.body = l.body := by
  have hst := live?_updLive_same (s := { s with cmd := { s.cmd with
    counts := mapPut 0 i ((mapGet 0 i s.cmd.counts + 1) % 2 ^ 32) s.cmd.counts } }) (r := r)
    (f := fun l => { l with stage := .running, island := i, stamp := mapGet 0 i s.cmd.counts, tide := s.stampTide i, accepted := s.now })
    (fun _ => rfl) hl
  obtain rfl := Option.some.inj (hst.symm.trans hm)
  exact ⟨rfl, rfl⟩

/-- A body that is complete and stamped at once keeps its command's header and body. -/
theorem record_bodyDone {s t : State} {r : CmdRef} {l m : Live} (hl : s.live? r = some l) (hd : s.bodyDone r = (t, true))
    (hm : t.live? r = some m) : m.h = l.h ∧ m.body = l.body := by
  unfold State.bodyDone at hd
  extract_lets _ s0 at hd
  obtain ⟨l0, h0, hhdr, hbody⟩ : ∃ l0, s0.live? r = some l0 ∧ l0.h = l.h ∧ l0.body = l.body :=
    ⟨_, live?_updLive_same (fun _ => rfl) hl, rfl, rfl⟩
  rw [h0] at hd
  dsimp -zeta only at hd
  extract_lets heldBefore i waits at hd
  split at hd
  · exact absurd (congrArg Prod.snd hd) (by simp)
  · split at hd
    · exact absurd (congrArg Prod.snd hd) (by simp)
    · obtain rfl := congrArg Prod.fst hd
      have h1 := live?_updLive_same (f := fun l => { l with epoch := s.idx.epoch }) (fun _ => rfl) h0
      obtain ⟨hh, hb⟩ := live?_stamp_same h1 hm
      exact ⟨hh.trans hhdr, hb.trans hbody⟩

/-- The check that a command stamped at once passed, read on the record that its action is given. -/
theorem check_of_stampsAtOnce {chk : BodyCheck} {s t : State} {h : CmdHdr} {b : Body} {l : Live} (hs : s.stampsAtOnce chk h b l t) :
    chk (s.arrive h b).1 l.h l.body = none := by
  obtain ⟨x, hx, hchk⟩ := (Option.any_eq_true _ _).1 hs.live
  obtain ⟨hhdr, hbody⟩ := record_bodyDone hx hs.stamped hs.record
  rw [hhdr, hbody]
  simpa using hchk

/-- Its arrival and its stamp change what the protocol holds alone. -/
theorem within_of_stampsAtOnce {chk : BodyCheck} {s t : State} {h : CmdHdr} {b : Body} {l : Live} (hs : s.stampsAtOnce chk h b l t) :
    Within [.sch, .cmd] (s.arrive h b).1 t := by
  have hd := State.bodyDone_within (s.arrive h b).1 h.ref
  rwa [hs.stamped] at hd

end State

/-! ## A sequence that opens -/

namespace State

/-- The sequences are `xs` and then `q`, whose written positions alone may differ. -/
def EndsWithSeq (xs : List Seq) (q : Seq) (s : State) : Prop := ∃ w, s.gen.seqs = xs ++ [{ q with written := w }]

theorem EndsWithSeq.of_gen {xs : List Seq} {q : Seq} {s t : State} (hs : s.EndsWithSeq xs q) (hg : t.gen = s.gen) : t.EndsWithSeq xs q := by
  obtain ⟨w, hw⟩ := hs
  exact ⟨w, by rw [hg, hw]⟩

/-- Positions written in the sequence at the end leave the others alone, where no other has its slot. -/
theorem EndsWithSeq.updSeq {xs : List Seq} {q : Seq} {s : State} (hs : s.EndsWithSeq xs q) (hx : ∀ y ∈ xs, y.slot ≠ q.slot) (g : Nat → Nat) :
    (s.updSeq q.slot (fun y => { y with written := g y.written })).EndsWithSeq xs q := by
  obtain ⟨w, hw⟩ := hs
  refine ⟨g w, ?_⟩
  change updWhere _ _ s.gen.seqs = _
  have hxs : updWhere (fun y : Seq => y.slot == q.slot) (fun y => { y with written := g y.written }) xs = xs := by
    refine (List.map_congr_left fun y hy => ?_).trans (List.map_id xs)
    simp [hx y hy]
  rw [hw, updWhere, List.map_append]
  exact congrArg₂ (· ++ ·) hxs (by simp)

/-- A copy bound to the new sequence changes its written positions alone. -/
theorem EndsWithSeq.bindCopy {xs : List Seq} {q : Seq} {s : State} {m : PageCopy} (hs : s.EndsWithSeq xs q) (hx : ∀ y ∈ xs, y.slot ≠ q.slot)
    (hm : m.p.seq = q.slot) : (s.bindCopy m).EndsWithSeq xs q := by
  unfold State.bindCopy
  split
  · exact hs
  next y hy =>
    have hslot : y.slot = q.slot := by
      have h := List.find?_some hy
      rw [← hm]
      simpa using h
    split
    · exact hs
    · split
      · exact hs
      next s1 h1 =>
        split
        · exact hs
        next c hc =>
          have hgen : Within [.fresh, .regs, .mem, .mm, .sch, .fl, .kv] s (((s1.setPage c m.p (fun _ => m.frame + 2 * 2 ^ 40 + 64 * 2 ^ 42)).putMeta c
              m.p 0 m.md).hPut c.func (fld y.body 191 160) (256 * m.p.page) m.toks) :=
            Within.andThen (State.hPut_within ..) (by decide) (Within.andThen (State.putMeta_within ..) (by decide)
              (Within.andThen (State.setPage_within ..) (by decide) (State.makeLeaf_within h1)))
          extract_lets s2
          rw [hslot]
          exact (hs.of_gen (hgen.gen (by decide) : s2.gen = s.gen)).updSeq hx fun w => max w (64 * (m.p.page + 1))

theorem EndsWithSeq.bindCopies {xs : List Seq} {q : Seq} {s : State} (hs : s.EndsWithSeq xs q) (hx : ∀ y ∈ xs, y.slot ≠ q.slot) :
    (s.bindCopies q.slot).EndsWithSeq xs q := by
  unfold State.bindCopies
  generalize hl : sortBy _ _ = l
  have hmem : ∀ m ∈ l, m.p.seq = q.slot := by
    intro m hm
    rw [← hl] at hm
    have h := (List.mem_filter.1 (mem_sortBy.1 hm)).2
    simpa using h
  clear hl
  induction l generalizing s with
  | nil => exact hs
  | cons m l ih => exact ih (hs.bindCopy hx (hmem m (by simp))) fun y hy => hmem y (by simp [hy])

/-- Without a copy that waits for the slot nothing is bound. -/
theorem bindCopies_of_none {s : State} {slot : Nat} (h : ∀ m ∈ s.kv.copies, m.p.seq ≠ slot) : s.bindCopies slot = s := by
  unfold State.bindCopies
  rw [List.filter_eq_nil_iff.2 (fun m hm => by simpa using h m hm)]
  rfl

end State

/-! ## The rows of the model and its sequences -/

/-- What the image's copy leaves where it takes its lagoon share: the model, resident or none, and its load command completed. -/
theorem exec_modelImageCopied_taken {s : State} {o : Obj} {r : CmdRef} (hst : s.gen.model.st = 1)
    (ho : s.obj? s.gen.model.func s.gen.model.img = some o) (hr : s.gen.model.loadCmd = some r)
    (hshare : ((s.copyModel o).takeShare .model none (cdiv (2 * s.gen.model.winKib) 16)).2 = true) :
    ∃ t, exec .modelImageCopied s = .next t ∧ t.gen.model.st = (if s.imageBad o = none then 2 else 0) ∧ t.live? r = none := by
  refine ⟨_, rfl, ?_⟩
  rw [if_neg (by simp [hst])]
  simp only [ho]
  cases hbad : s.imageBad o with
  | some ty =>
    dsimp only
    rw [if_neg (by simp), State.modelFail]
    simp only [hr]
    refine ⟨?_, ?_⟩
    · rw [(State.blkErr_within ..).gen (by decide), (State.complete_within ..).gen (by decide)]
      rfl
    · rw [State.live?_congr ((State.blkErr_within ..).cmd (by decide))]
      exact State.live?_complete_self ..
  | none =>
    dsimp only
    rw [if_pos hshare, if_pos rfl]
    simp only [hr]
    exact ⟨congrArg (fun g : GenSt => g.model.st) ((State.complete_within ..).gen (by decide)), State.live?_complete_self ..⟩

/-- An image whose digest fails ends the load and stores nothing (R226). -/
theorem exec_modelImageCopied_bad {s : State} {o : Obj} {r : CmdRef} {ty : Nat} (hst : s.gen.model.st = 1)
    (ho : s.obj? s.gen.model.func s.gen.model.img = some o) (hbad : s.imageBad o = some ty) (hr : s.gen.model.loadCmd = some r) :
    ∃ t, exec .modelImageCopied s = .next t ∧ t.gen.model.st = 0 ∧ t.live? r = none ∧ ∀ a, t.byte a = s.byte a := by
  refine ⟨_, rfl, ?_⟩
  rw [if_neg (by simp [hst])]
  simp only [ho, hbad, State.modelFail, hr]
  refine ⟨?_, ?_, fun a => ?_⟩
  · rw [(State.blkErr_within ..).gen (by decide), (State.complete_within ..).gen (by decide)]
    rfl
  · rw [State.live?_congr ((State.blkErr_within ..).cmd (by decide))]
    exact State.live?_complete_self ..
  · rw [(State.blkErr_within ..).byte (by decide), (State.complete_within ..).byte (by decide)]
    rfl

theorem actModelLoad_started {r : CmdRef} {l : Live} {t : State} (h : t.modelCheck l.h.func l.body = none) :
    (actModelLoad r l t).gen.model.st = 1 ∧ (actModelLoad r l t).gen.model.func = l.h.func ∧
      (actModelLoad r l t).gen.model.loadCmd = some r := by
  unfold actModelLoad
  simp only [h]
  exact ⟨rfl, rfl, rfl⟩

/-- An unload completes its command; a model that nothing uses is gone. -/
theorem actModelUnload_ends (r : CmdRef) (l : Live) (t : State) : (actModelUnload r l t).live? r = none ∧
    (t.gen.model.st = 2 ∨ t.gen.model.st = 4 → t.gen.model.func = l.h.func → t.gen.seqs = [] → t.gen.cohorts = [] →
      actModelUnload r l t = t.dropModel.complete r Status.ok [] ∧ (actModelUnload r l t).gen.model.st = 0) := by
  refine ⟨?_, fun hst hf hq hc => ?_⟩
  · unfold actModelUnload
    dsimp only
    split
    · exact State.live?_complete_self ..
    · split <;> exact State.live?_complete_self ..
  · have heq : actModelUnload r l t = t.dropModel.complete r Status.ok [] := by
      unfold actModelUnload
      dsimp only
      rw [if_neg (by omega), if_neg (by simp [hq, hc]; omega)]
    refine ⟨heq, ?_⟩
    rw [heq, (State.complete_within ..).gen (by decide)]
    rfl

/-- A stamped SEQ_OPEN puts its sequence behind those that are open (R229). -/
theorem actSeqOpen_adds {s t : State} {h : CmdHdr} {b : Body} {l : Live} {c : Chan} (hs : s.stampsAtOnce chkSeqOpen h b l t)
    (hc : t.chan? l.h.channel = some c) :
    ∃ q, (actSeqOpen h.ref l t).gen.seqs = t.gen.seqs ++ [q] ∧ q.slot = fld l.body 13 0 ∧ q.func = l.h.func ∧ q.ctx = c.ctx ∧
      q.body = l.body ∧ ((∀ m ∈ t.kv.copies, m.p.seq ≠ fld l.body 13 0) → q.written = 0) := by
  have hfree : ∀ y ∈ t.gen.seqs, y.slot ≠ fld l.body 13 0 := by
    rw [(State.within_of_stampsAtOnce hs).gen (by decide)]
    have hchk := State.check_of_stampsAtOnce hs
    unfold chkSeqOpen at hchk
    have hnone : (s.arrive h b).1.seq? (fld l.body 13 0) = none := by
      by_contra hne
      rw [← Ne, Option.ne_none_iff_isSome] at hne
      simp [hne] at hchk
    simpa [State.seq?] using hnone
  unfold actSeqOpen
  simp -zeta only [hc]
  extract_lets slot n q _ s1 s2 s3
  obtain ⟨hgen2, hkv2⟩ : s2.gen = s1.gen ∧ s2.kv = t.kv := by
    simp only [s2]
    split
    · exact ⟨(State.hPut_within ..).gen (by decide), (State.hPut_within ..).kv (by decide)⟩
    · exact ⟨rfl, rfl⟩
  have hgen : (if c.flow = true then s3 else s3.complete h.ref Status.ok []).gen = s3.gen := by
    split
    · rfl
    · exact (State.complete_within ..).gen (by decide)
  rw [hgen]
  by_cases hcop : ∀ m ∈ t.kv.copies, m.p.seq ≠ slot
  · have h3 : s3 = s2 := State.bindCopies_of_none (by rwa [hkv2])
    exact ⟨q, by rw [h3, hgen2], rfl, rfl, rfl, rfl, fun _ => rfl⟩
  · have h1 : s1.EndsWithSeq t.gen.seqs q := ⟨0, rfl⟩
    obtain ⟨w, hw⟩ := (h1.of_gen hgen2).bindCopies hfree
    exact ⟨_, hw, rfl, rfl, rfl, rfl, fun h => absurd h hcop⟩

/-- Settles O41, row by row. -/
theorem modelsAndSequencesOpenAndClose : Obligations.ModelsAndSequencesOpenAndClose := by
  unfold Obligations.ModelsAndSequencesOpenAndClose
  refine ⟨fun s t h b l hs hrow => ?_, fun s o r hst ho hr hshare => exec_modelImageCopied_taken hst ho hr hshare,
    fun s o r ty hst ho hbad hr => exec_modelImageCopied_bad hst ho hbad hr, fun s t h b l hs hrow => ?_,
    fun s t h b l c hs hrow hc => ?_, fun s t h b l hs hrow => ?_, fun s t h b l hs hrow => ?_⟩
  · refine ⟨_, congrArg Host.Outcome.next (State.command_of_stampsAtOnce actModelLoad hs hrow), rfl, actModelLoad_started, fun st hst => ?_⟩
    unfold actModelLoad
    simp only [hst]
  · exact ⟨_, congrArg Host.Outcome.next (State.command_of_stampsAtOnce actModelUnload hs hrow), actModelUnload_ends _ _ _⟩
  · obtain ⟨q, hq⟩ := actSeqOpen_adds hs hc
    exact ⟨_, q, congrArg Host.Outcome.next (State.command_of_stampsAtOnce actSeqOpen hs hrow), rfl, hq⟩
  · exact congrArg Host.Outcome.next (State.command_of_stampsAtOnce actSeqClose hs hrow)
  · exact congrArg Host.Outcome.next (State.command_of_stampsAtOnce actStep hs hrow)

end Sys2Proof.Machine
end

section
/-! Stores to objects: the bytes that they may change, and the objects and cells that they leave. -/

namespace Sys2Proof.Machine

/- The elaborator's threads each take a stack: one proof at a time keeps a text of this length within the memory limit. -/
set_option Elab.async false

namespace State

/-! ## Stores to a stack and to an object -/

theorem t2Cells_congr {s t : State} (h : t.regs = s.regs) (stack off : Nat) : t.t2Cells stack off = s.t2Cells stack off := by
  unfold t2Cells isParityData parGran
  simp only [rd_congr h]

theorem objCells_congr {s t : State} (h : t.regs = s.regs) (o : Obj) (i : Nat) : t.objCells o i = s.objCells o i := by
  unfold objCells
  simp only [t2Cells_congr h]

/-- A T2 store changes its byte and its parity byte alone (R251). -/
theorem byte_t2Write_other (s : State) {stack off a : Nat} (v : Byte) (h : a ∉ s.t2Cells stack off) :
    (s.t2Write stack off v).byte a = s.byte a := by
  have ha : a ≠ t2Addr stack off := fun e => h (by simp [t2Cells, e])
  unfold t2Write
  by_cases hp : s.isParityData stack (off / 65536) = true
  · have hpar : a ≠ t2Addr (parityStack stack (off / 65536)) off := fun e => h (by simp [t2Cells, hp, e])
    simp only [hp, if_true]
    split
    · exact byte_setByte_other _ _ hpar
    · rw [byte_setByte_other _ _ ha, byte_setByte_other _ _ hpar]
  · simp only [hp, if_false, Bool.and_false, Bool.false_eq_true]
    exact byte_setByte_other _ _ ha

theorem byte_objPut_other (s : State) {o : Obj} {off a : Nat} (v : Byte) (h : a ∉ s.objCells o off) : (s.objPut o off v).byte a = s.byte a := by
  unfold objCells at h
  unfold objPut
  split
  next ht2 =>
    rw [if_pos ht2] at h
    split
    next g hg => exact byte_t2Write_other s v (by simpa [hg] using h)
    · rfl
  next ht2 =>
    rw [if_neg ht2] at h
    split
    next u hu => exact byte_setByte_other _ _ (by simpa [hu] using h)
    · rfl

/-- A store to an object changes cells of the bytes it covers alone. -/
theorem byte_objPuts_other (s : State) {o : Obj} {off a : Nat} (b : List Byte) (h : ∀ i, off ≤ i → i < off + b.length → a ∉ s.objCells o i) :
    (s.objPuts o off b).byte a = s.byte a := by
  induction b generalizing s off with
  | nil => rfl
  | cons v b ih =>
    unfold objPuts
    have hlen : (v :: b).length = b.length + 1 := rfl
    rw [ih (s.objPut o off v), byte_objPut_other s v (h off (by omega) (by omega))]
    intro i hlo hhi
    rw [objCells_congr ((objPut_within ..).regs (by decide))]
    exact h i (by omega) (by omega)

theorem byte_objStore_other (s : State) {by_ : Nat} {o : Obj} {off a : Nat} (b : List Byte)
    (h : ∀ i, off ≤ i → i < off + b.length → a ∉ s.objCells o i) : (s.objStore by_ o off b).byte a = s.byte a := by
  have h1 : ((s.objPuts o off b).objTraffic by_ o true off b.length).byte a = s.byte a := by
    rw [(objTraffic_within ..).byte (by decide), byte_objPuts_other s b h]
  unfold objStore
  split
  · exact h1
  · refine Eq.trans (foldl_keeps (g := fun s => s.byte a) (fun u p => ?_) _ _) h1
    split
    · exact (mapBytes_within ..).byte (by decide) a
    · rfl

/-! ## Objects -/

section

variable {β : Type} {g : MemSt → β} (hg : ∀ m k, g { m with stk := k } = g m)

include hg

/-- Traffic and stores change nothing of the memory tiers' state but the stacks' counters. -/
theorem mm_traffic (s : State) (stack f h by_ rd wr : Nat) : g (s.traffic stack f h by_ rd wr).mm = g s.mm := by
  unfold traffic
  rw [(charge_within ..).mm (by decide)]
  exact hg _ _

theorem mm_granTraffic (s : State) (by_ f h stack n rd wr : Nat) : g (s.granTraffic by_ f h stack n rd wr).mm = g s.mm := by
  unfold granTraffic
  split
  · rw [mm_traffic hg, mm_traffic hg]
  · exact mm_traffic hg ..

theorem mm_objTraffic (s : State) (by_ : Nat) (o : Obj) (write : Bool) (off n : Nat) : g (s.objTraffic by_ o write off n).mm = g s.mm := by
  unfold objTraffic
  split
  · exact foldl_keeps (g := fun s => g s.mm) (fun _ _ => mm_granTraffic hg ..) _ s
  · rw [(charge_within ..).mm (by decide)]

theorem mm_objStore (s : State) (by_ : Nat) (o : Obj) (off : Nat) (b : List Byte) : g (s.objStore by_ o off b).mm = g s.mm := by
  have h1 : g ((s.objPuts o off b).objTraffic by_ o true off b.length).mm = g s.mm := by
    rw [mm_objTraffic hg, (objPuts_within ..).mm (by decide)]
  unfold objStore
  split
  · exact h1
  · refine Eq.trans (foldl_keeps (g := fun s => g s.mm) (fun u p => ?_) _ _) h1
    split
    · rw [(mapBytes_within ..).mm (by decide)]
    · rfl

theorem mm_hPut (s : State) (f n off : Nat) (b : List Byte) : g (s.hPut f n off b).mm = g s.mm := by
  unfold hPut
  split
  · exact mm_objStore hg ..
  · rfl

end

theorem objs_objTraffic (s : State) (by_ : Nat) (o : Obj) (write : Bool) (off n : Nat) : (s.objTraffic by_ o write off n).mm.objs = s.mm.objs :=
  mm_objTraffic (g := MemSt.objs) (fun _ _ => rfl) ..

theorem objs_objStore (s : State) (by_ : Nat) (o : Obj) (off : Nat) (b : List Byte) : (s.objStore by_ o off b).mm.objs = s.mm.objs :=
  mm_objStore (g := MemSt.objs) (fun _ _ => rfl) ..

/-- A store to an object leaves where its own bytes lie. -/
theorem objCells_objStore (s : State) (by_ : Nat) (o : Obj) (off : Nat) (b : List Byte) (i : Nat) :
    (s.objStore by_ o off b).objCells o i = s.objCells o i := by
  cases ht2 : o.inT2 with
  | true =>
    refine objCells_congr ?_ o i
    unfold objStore
    rw [if_pos ht2, (objTraffic_within ..).regs (by decide), (objPuts_within ..).regs (by decide)]
  | false => simp [objCells, ht2]

theorem obj?_congr {s t : State} (h : t.mm.objs = s.mm.objs) (f n : Nat) : t.obj? f n = s.obj? f n := by
  unfold obj?
  rw [h]

/-- A store by a handle changes cells of the bytes it covers alone. -/
theorem byte_hPut_other {s : State} {f n off a : Nat} {o : Obj} {b : List Byte} (ho : s.obj? f n = some o)
    (h : ∀ i, off ≤ i → i < off + b.length → a ∉ s.objCells o i) : (s.hPut f n off b).byte a = s.byte a := by
  unfold hPut
  simp only [ho]
  exact byte_objStore_other s b h

/-- A store to an object of T2 counts at no register. -/
theorem regs_hPut_of_inT2 {s : State} {f n off : Nat} {o : Obj} {b : List Byte} (ho : s.obj? f n = some o) (ht2 : o.inT2 = true) :
    (s.hPut f n off b).regs = s.regs := by
  unfold hPut
  simp only [ho]
  unfold objStore
  rw [if_pos ht2, (objTraffic_within ..).regs (by decide), (objPuts_within ..).regs (by decide)]

/-- Byte `a` is no byte of the object that function `f` knows as `n`, nor its parity. -/
def Spares (s : State) (f n a : Nat) : Prop := ∀ o, s.obj? f n = some o → ∀ i, a ∉ s.objCells o i

theorem Spares.of_same {s t : State} {f n a : Nat} (h : s.Spares f n a) (hobjs : t.mm.objs = s.mm.objs) (hregs : t.regs = s.regs) :
    t.Spares f n a := by
  intro o ho i
  rw [obj?_congr hobjs] at ho
  rw [objCells_congr hregs]
  exact h o ho i

theorem Spares.byte_hPut {s : State} {f n a : Nat} (h : s.Spares f n a) (off : Nat) (b : List Byte) : (s.hPut f n off b).byte a = s.byte a := by
  unfold hPut
  split
  next o ho => exact byte_objStore_other s b fun i _ _ => h o ho i
  · rfl

theorem Spares.after_hPut {s : State} {f n a : Nat} (h : s.Spares f n a) (off : Nat) (b : List Byte) : (s.hPut f n off b).Spares f n a := by
  unfold hPut
  split
  next o ho =>
    intro p hp i
    rw [obj?_congr (objs_objStore ..), ho] at hp
    obtain rfl := Option.some.inj hp
    rw [objCells_objStore]
    exact h _ ho i
  · exact h

/-- Stores to one object by its handle change its cells alone. -/
theorem Spares.byte_foldl_hPut {α : Type} {s : State} {f n a : Nat} (h : s.Spares f n a) (off : α → Nat) (b : α → List Byte) (l : List α) :
    (l.foldl (fun s x => s.hPut f n (off x) (b x)) s).byte a = s.byte a := by
  induction l generalizing s with
  | nil => rfl
  | cons x l ih => rw [List.foldl_cons, ih (h.after_hPut _ _), h.byte_hPut]

end State

end Sys2Proof.Machine
end

section
/-! Selections, for the statements of chapter 6. -/

namespace Sys2Proof.Machine

/- The elaborator's threads each take a stack: one proof at a time keeps a text of this length within the memory limit. -/
set_option Elab.async false

namespace State

/-! ## Placing the tasks of a selection -/

theorem placed_rows (r : CmdRef) (l : Live) (ts : List (Nat × Nat)) (a : State × List PieceAt) :
    (ts.foldl (placePiece r l) a).2.map (fun p => (p.row, p.piece)) = a.2.map (fun p => (p.row, p.piece)) ++ ts := by
  induction ts generalizing a with
  | nil => simp
  | cons t ts ih =>
    rw [List.foldl_cons, ih, placePiece, List.map_append, List.append_assoc]
    rfl

theorem placed_within (r : CmdRef) (l : Live) (ts : List (Nat × Nat)) (a : State × List PieceAt) :
    Within [.sch] a.1 (ts.foldl (placePiece r l) a).1 :=
  Within.foldl_fst .refl fun _ _ => placePiece_within ..

/-- A stamped TOPK or MERGE joins the selections, with a task placed for each piece or list (R194, R195). -/
theorem actSelect_joins (r : CmdRef) (l : Live) (t : State) :
    ∃ x, (actSelect r l t).idx.sels = t.idx.sels ++ [x] ∧ x.r = r ∧ x.done = [] ∧ x.lists = [] ∧ x.bad = false ∧
      x.at_.map (fun p => (p.row, p.piece)) = selTasks l.body ∧ ∀ a, (actSelect r l t).byte a = t.byte a := by
  refine ⟨{ r := r, at_ := ((selTasks l.body).foldl (placePiece r l) (t, [])).2, done := [], lists := [], nans := [], bad := false }, ?_, rfl,
    rfl, rfl, rfl, placed_rows r l (selTasks l.body) (t, []), fun a => ?_⟩
  · exact congrArg (fun i : IdxSt => i.sels ++ _) ((placed_within r l (selTasks l.body) (t, [])).idx (by decide))
  · exact (placed_within r l (selTasks l.body) (t, [])).byte (by decide) a

/-! ## A piece that was read -/

theorem sel?_replaced {s : State} {q : CmdRef} {x y : SelRun} (hx : s.sel? q = some x) (hy : y.r = q) :
    (updWhere (fun z : SelRun => z.r == q) (fun _ => y) s.idx.sels).find? (fun z => z.r == q) = some y := by
  rw [find?_updWhere_same (fun _ _ => by simp [hy])]
  exact congrArg (Option.map _) hx

theorem r_of_sel? {s : State} {q : CmdRef} {x : SelRun} (hx : s.sel? q = some x) : x.r = q := by simpa using List.find?_some hx

/-- A piece is marked done, and whether all of it could be read is kept (R196). -/
theorem exec_selectPieceDone {s : State} {q : CmdRef} {row piece : Nat} {ok : Bool} {x : SelRun} {l : Live} {o : Obj} {p : PieceAt}
    (hx : s.sel? q = some x) (hl : s.live? q = some l) (ho : s.obj? l.h.func (fld l.body 159 128) = some o) (hop : selOp l.body = 0)
    (hp : x.at_.find? (fun p => p.row == row && p.piece == piece) = some p) (hdone : (row, piece) ∉ x.done) :
    ∃ t y, exec (.selectPieceDone q row piece ok) s = .next t ∧ t.sel? q = some y ∧ y.done = x.done ++ [(row, piece)] ∧
      (y.bad = false → x.bad = false ∧ ok = true) ∧ ∀ a, t.byte a = s.byte a := by
  have hbytes := (onSelectPieceDone_within s q row piece ok).byte (by decide)
  have hnot : ¬(selOp l.body ≠ 0 ∨ x.done.contains (row, piece) = true) := by simp [hop, hdone]
  suffices h : ∃ y, (s.onSelectPieceDone q row piece ok).sel? q = some y ∧ y.done = x.done ++ [(row, piece)] ∧
      (y.bad = false → x.bad = false ∧ ok = true) by
    obtain ⟨y, hy, hd, hb⟩ := h
    exact ⟨_, y, rfl, hy, hd, hb, hbytes⟩
  unfold onSelectPieceDone
  simp -zeta only [hx, hl]
  extract_lets b c0 n off isNan
  have hob : s.obj? l.h.func (fld b 159 128) = some o := ho
  simp -zeta only [hob, hp]
  rw [if_neg hnot]
  extract_lets readable runs sent die m d s0 s1 nan y s2
  have hidx : s2.idx = s.idx := by
    have h1 : s1.idx = s0.idx := by
      simp only [s1]
      split
      · exact (count_within ..).idx (by decide)
      · rfl
    rw [(hTraffic_within ..).idx (by decide), h1, (keepRuns_within ..).idx (by decide), (seqOver_within ..).idx (by decide)]
  refine ⟨y, ?_, rfl, fun hbad => ?_⟩
  · change (updWhere _ _ s2.idx.sels).find? _ = _
    rw [hidx]
    exact sel?_replaced hx (show y.r = q from (r_of_sel? hx : x.r = q))
  · obtain ⟨hx0, hok, -⟩ : x.bad = false ∧ ok = true ∧ _ := by simpa [y, readable] using hbad
    exact ⟨hx0, hok⟩

/-! ## The end of a selection -/

theorem sel?_selEnd (s : State) (x : SelRun) (status : Nat) (body : Body) : (s.selEnd x status body).sel? x.r = none := by
  unfold selEnd sel?
  extract_lets s1 _ s2
  rw [(complete_within ..).idx (by decide)]
  simp [s2]

theorem live?_selEnd (s : State) (x : SelRun) (status : Nat) (body : Body) : (s.selEnd x status body).live? x.r = none := live?_complete_self ..

/-- However a selection ends, its record and its command are gone, and only the destination object's bytes change. -/
theorem mergeComplete_ends (s : State) (x : SelRun) (l : Live) :
    ((s.mergeComplete x l).sel? x.r = none ∧ (s.mergeComplete x l).live? x.r = none) ∧
      ∀ a, s.Spares l.h.func (fld l.body 191 160) a → (s.mergeComplete x l).byte a = s.byte a := by
  have hend : ∀ st b, ((s.selEnd x st b).sel? x.r = none ∧ (s.selEnd x st b).live? x.r = none) ∧
      ∀ a, s.Spares l.h.func (fld l.body 191 160) a → (s.selEnd x st b).byte a = s.byte a := fun st b =>
    ⟨⟨sel?_selEnd .., live?_selEnd ..⟩, fun a _ => (selEnd_within ..).byte (by decide) a⟩
  unfold mergeComplete
  extract_lets b
  split
  · exact hend _ _
  next o ho =>
    extract_lets ls
    split
    · exact hend _ _
    · split
      · exact hend _ _
      · unfold mergeWrite
        extract_lets k rk fed top dup m n kth tie st orBit sum epoch level hdr body die nan s1 s2 s3 s4 s5
        refine ⟨⟨sel?_selEnd .., live?_selEnd ..⟩, fun a ha => ?_⟩
        have hread : (ls.foldl (fun s i => s.objTraffic l.h.func o false i.off i.len) s).Spares l.h.func (fld l.body 191 160) a :=
          ha.of_same (foldl_keeps (g := fun s => s.mm.objs) (fun _ _ => objs_objTraffic ..) _ _)
            (foldl_keeps (g := fun s => s.regs) (fun _ _ => (objTraffic_within ..).regs (by decide)) _ _)
        have hcount : ∀ (c : Prop) [Decidable c] (u : State) (r n : Nat), Within [.regs, .mm] s1 u →
            Within [.regs, .mm] s1 (if c then u.count r n else u) := fun c _ u r n hu =>
          Within.ite (fun _ => Within.andThen (count_within ..) (by decide) hu) fun _ => hu
        have hs5 : Within [.regs, .mm] s1 s5 := hcount _ _ _ _ (hcount _ _ _ _ (Within.andThen (countList_within ..) (by decide)
          (Within.foldl .refl fun _ _ => keepRuns_within ..)))
        rw [(selEnd_within ..).byte (by decide), hs5.byte (by decide), hread.byte_hPut]
        exact foldl_keeps (g := fun s => s.byte a) (fun _ _ => (objTraffic_within ..).byte (by decide) a) _ _

theorem topkComplete_ends (s : State) (x : SelRun) (l : Live) :
    ((s.topkComplete x l).sel? x.r = none ∧ (s.topkComplete x l).live? x.r = none) ∧
      ∀ a, s.Spares l.h.func (fld l.body 191 160) a → (s.topkComplete x l).byte a = s.byte a := by
  unfold topkComplete
  extract_lets b k rows s1 short ties nans s2 st
  split
  · exact ⟨⟨sel?_selEnd .., live?_selEnd ..⟩, fun a _ => (selEnd_within ..).byte (by decide) a⟩
  · refine ⟨⟨sel?_selEnd .., live?_selEnd ..⟩, fun a ha => ?_⟩
    have hs2 : s2.byte a = s1.byte a := foldl_keeps (g := fun s => s.byte a) (fun _ _ => (countList_within ..).byte (by decide) a) _ _
    rw [(selEnd_within ..).byte (by decide), hs2]
    exact ha.byte_foldl_hPut _ _ _

/-- The completion ends a selection all of whose tasks are done, by its operation (R194, R195, R197). -/
theorem exec_selectComplete {s : State} {q : CmdRef} {x : SelRun} {l : Live} (hx : s.sel? q = some x) (hl : s.live? q = some l)
    (hdone : selOp l.body = 1 ∨ selRows l.body * selPieces l.body ≤ x.done.length) :
    exec (.selectComplete q) s = .next (if selOp l.body = 1 then s.mergeComplete x l else s.topkComplete x l) := by
  change Host.Outcome.next (s.onSelectComplete q) = _
  unfold onSelectComplete
  simp only [hx, hl]
  by_cases hop : selOp l.body = 1
  · simp only [if_pos hop]
  · simp only [if_neg hop, if_neg (Nat.not_lt.2 (hdone.resolve_left hop))]

end State

/-- Settles O38: the stamped command's action, one piece, and the completion of either operation. -/
theorem selectionsRun : Obligations.SelectionsRun := by
  unfold Obligations.SelectionsRun
  refine ⟨fun s t h b l hs => ⟨fun hrow => ?_, fun hrow => ?_, State.actSelect_joins _ _ _⟩,
    fun s q row piece ok x l o p hx hl ho hop hp hdone => State.exec_selectPieceDone hx hl ho hop hp hdone, fun s q x l hx hl hdone => ?_⟩
  · exact congrArg Host.Outcome.next (State.command_of_stampsAtOnce actSelect hs hrow)
  · exact congrArg Host.Outcome.next (State.command_of_stampsAtOnce actSelect hs hrow)
  · refine ⟨_, State.exec_selectComplete hx hl hdone, ?_⟩
    rw [← State.r_of_sel? hx]
    by_cases hop : selOp l.body = 1
    · rw [if_pos hop]
      obtain ⟨⟨hsel, hlive⟩, hbytes⟩ := s.mergeComplete_ends x l
      exact ⟨hsel, hlive, fun _ => rfl, fun h => absurd hop h, hbytes⟩
    · rw [if_neg hop]
      obtain ⟨⟨hsel, hlive⟩, hbytes⟩ := s.topkComplete_ends x l
      exact ⟨hsel, hlive, fun h => absurd h hop, fun _ => rfl, hbytes⟩

end Sys2Proof.Machine
end

section
/-! Commands that take their place on a stream, and commands that an island stamps. -/

namespace Sys2Proof.Machine

/- The elaborator's threads each take a stack: one proof at a time keeps a text of this length within the memory limit. -/
set_option Elab.async false

namespace State

/-- A command that is held or waits on its stream changes nothing but its place (R304, R338). -/
theorem command_of_waitsForStamp {isRow : CmdHdr → Body → Bool} {chk : BodyCheck} {s t : State} {h : CmdHdr} {b : Body}
    (act : CmdAct) (hs : s.waitsForStamp chk h b t) (hrow : isRow h b = true) : s.command isRow chk act h b = t := by
  obtain ⟨-, htaken, hlive, hwaits⟩ := hs
  rcases harr : s.arrive h b with ⟨u, o⟩
  rw [harr] at htaken hlive hwaits
  dsimp only at htaken hlive hwaits
  subst htaken
  obtain ⟨x, hx, hchk⟩ := (Option.any_eq_true _ _).1 hlive
  have hnone : chk u x.h x.body = none := by simpa using hchk
  unfold State.command
  rw [hrow, if_neg (by simp), harr]
  dsimp only
  unfold State.bodyEnter
  simp only [hx, hnone, hwaits]

theorem ingressOf_congr {s t : State} {l m : Live} (hidx : t.idx = s.idx) (hsch : t.sch = s.sch) (hh : m.h = l.h) (hb : m.body = l.body) :
    t.ingressOf m = s.ingressOf l := by
  have hc : ∀ n, t.chan? n = s.chan? n := fun n => congrArg (fun i : SchedSt => i.chans.find? _) hsch
  unfold ingressOf idxIngress
  simp only [hidx, hc, hh, hb]

/-- A delivered command takes the last place of its ingress island's stream (R106, R338). -/
theorem deliver_places {s : State} {r : CmdRef} {l : Live} (hl : s.live? r = some l) :
    (s.deliver r).cmd.deliver = s.cmd.deliver ++ [(s.ingressOf l, Stream.cmd r)] ∧
      ∃ m, (s.deliver r).live? r = some m ∧ m.stage = .delivered ∧ m.h = l.h ∧ m.body = l.body ∧ m.island = s.ingressOf l ∧
        m.epoch = s.idx.epoch := by
  unfold State.deliver
  simp only [hl]
  exact ⟨rfl, _, live?_updLive_same (fun _ => rfl) hl, rfl, rfl, rfl, rfl, rfl⟩

theorem resident_congr {s t : State} (hsch : t.sch = s.sch) (h : CmdHdr) : t.resident h = s.resident h := by
  have hc : ∀ n, t.chanCtx n = s.chanCtx n := fun n => by unfold chanCtx chan? ctx?; rw [hsch]
  unfold resident
  simp only [hc]

/-- What a complete body does with a command of an index that nothing holds: it is delivered to its ingress island (R106, R338). -/
theorem bodyDone_delivers {s : State} {r : CmdRef} {l : Live} (hl : s.live? r = some l) (hres : s.resident l.h = true) (hf : l.h.fence = false)
    (hop : l.h.opcode = Op.search ∨ l.h.opcode = Op.mutate ∨ l.h.opcode = Op.indexCompact) :
    ∃ t m, s.bodyDone r = (t, false) ∧ Within [.sch, .cmd] s t ∧ t.cmd.deliver = s.cmd.deliver ++ [(s.ingressOf l, Stream.cmd r)] ∧
      t.live? r = some m ∧ m.stage = .delivered ∧ m.h = l.h ∧ m.body = l.body ∧ m.island = s.ingressOf l ∧ m.epoch = s.idx.epoch := by
  have hw := bodyDone_within s r
  suffices h : ∃ t m, s.bodyDone r = (t, false) ∧ t.cmd.deliver = s.cmd.deliver ++ [(s.ingressOf l, Stream.cmd r)] ∧
      t.live? r = some m ∧ m.stage = .delivered ∧ m.h = l.h ∧ m.body = l.body ∧ m.island = s.ingressOf l ∧ m.epoch = s.idx.epoch by
    obtain ⟨t, m, hd, h⟩ := h
    rw [hd] at hw
    exact ⟨t, m, hd, hw, h⟩
  unfold State.bodyDone
  extract_lets _ s0
  obtain ⟨l0, h0, hhdr, hbody⟩ : ∃ l0, s0.live? r = some l0 ∧ l0.h = l.h ∧ l0.body = l.body :=
    ⟨_, live?_updLive_same (fun _ => rfl) hl, rfl, rfl⟩
  have hing : s0.ingressOf l0 = s.ingressOf l := ingressOf_congr rfl rfl hhdr hbody
  have hres0 : s0.resident l0.h = true := by rw [hhdr]; exact (resident_congr (s := s) (t := s0) rfl l.h).trans hres
  have hfence : s0.fenceWaits l0 = false := by simp [fenceWaits, hhdr, hf]
  simp -zeta only [h0]
  extract_lets heldBefore i waits
  have hheld : heldBefore = false := by
    simp only [heldBefore]
    split
    · split
      · simp [hres0]
      · rfl
    · rfl
  rw [if_neg (by simp [hres0, hfence, hheld]), if_pos (by rw [hhdr]; tauto)]
  obtain ⟨hdel, m, hm, hst, hh, hb, hi, he⟩ := deliver_places h0
  exact ⟨_, m, rfl, by rw [hdel, hing]; rfl, hm, hst, hh.trans hhdr, hb.trans hbody, hi.trans hing, he⟩

/-- A command of an index that passes its checks and that nothing holds (R106, R338). -/
theorem command_of_entersStream {isRow : CmdHdr → Body → Bool} {chk : BodyCheck} {s u : State} {h : CmdHdr} {b : Body} {l : Live}
    (act : CmdAct) (hs : s.entersStream chk h b u l) (hrow : isRow h b = true)
    (hop : h.opcode = Op.search ∨ h.opcode = Op.mutate ∨ h.opcode = Op.indexCompact) :
    ∃ t m, s.command isRow chk act h b = t ∧ t.cmd.deliver = u.cmd.deliver ++ [(u.ingressOf l, Stream.cmd h.ref)] ∧
      t.live? h.ref = some m ∧ m.stage = .delivered ∧ m.h = h ∧ m.body = l.body ∧ m.island = u.ingressOf l ∧ m.epoch = u.idx.epoch ∧
      t.idx = u.idx ∧ (∀ a, t.rd a = u.rd a) ∧ ∀ a, t.byte a = u.byte a := by
  obtain ⟨-, htaken, hrecord, hnamed, hpasses, hres, hf⟩ := hs
  rw [← hnamed] at hres hf hop
  obtain ⟨t, m, hd, hw, hdel, hm, hst, hh, hrest⟩ := bodyDone_delivers hrecord hres hf hop
  obtain ⟨hb, hi, he⟩ := hrest
  refine ⟨t, m, ?_, hdel, hm, hst, hh.trans hnamed, hb, hi, he, hw.idx (by decide), fun a => hw.rd (by decide) a, hw.byte (by decide)⟩
  rw [← hnamed] at hpasses
  unfold State.command
  rw [hrow, if_neg (by simp), htaken]
  dsimp only
  unfold State.bodyEnter
  simp only [hrecord, hpasses, hd]

/-! ## Stamps -/

/-- An island stamps its next command, whose action starts then (R106, R108). -/
theorem exec_ingressStamp {s : State} {i : Nat} {r : CmdRef} {l0 l : Live} (hp : s.powered = true) (hh : s.streamHead i = some (.cmd r))
    (hw : ((s.live? r).map s.stampWaits).getD false = false) (hl0 : (s.popStream i).live? r = some l0)
    (hchk : checkOf l0.h.opcode (s.popStream i).asReady l0.h l0.body = none) (hl : ((s.popStream i).stamp r i).live? r = some l) :
    exec (.ingressStamp i) s = .next (actOf l.h.opcode r l ((s.popStream i).stamp r i)) := by
  refine congrArg Host.Outcome.next ?_
  rw [if_neg (by simp [hp])]
  simp only [hh, hw, hl0, hchk, hl, Bool.false_eq_true, if_false]

theorem stamped_within (s : State) (r : CmdRef) (i : Nat) : Within [.cmd] s ((s.popStream i).stamp r i) :=
  Within.andThen (stamp_within ..) (by decide) (popStream_within s i)

end State

end Sys2Proof.Machine
end

section
/-! Mutations and compaction, for the statements of chapter 5. -/

namespace Sys2Proof.Machine

/- The elaborator's threads each take a stack: one proof at a time keeps a text of this length within the memory limit. -/
set_option Elab.async false

namespace State

/-! ## Candidates of a compaction pass -/

/-- Shoal `h` of index `i` waits for a pass that command `r` asked for. -/
def Awaits (s : State) (i h : Nat) (r : CmdRef) : Prop := ∃ p ∈ s.idx.passes, p.idx = i ∧ p.shoal = h ∧ p.running = false ∧ r ∈ p.cmds

/-- A candidate waits, whether it is new or did before. -/
theorem candidate_waits (s : State) (i h : Nat) (c : Option CmdRef) :
    ∃ p ∈ (s.candidate i h c).idx.passes, p.idx = i ∧ p.shoal = h ∧ p.running = false := by
  unfold candidate
  extract_lets waits
  split
  next hany =>
    obtain ⟨p, hp, hw⟩ := List.any_eq_true.1 hany
    exact ⟨{ p with cmds := p.cmds ++ c.toList }, List.mem_map.2 ⟨p, hp, if_pos hw⟩, by simpa [waits, and_assoc] using hw⟩
  next => exact ⟨_, List.mem_append_right _ (List.mem_singleton.2 rfl), rfl, rfl, rfl⟩

/-- The shoal that a command names waits for its pass. -/
theorem awaits_candidate (s : State) (i h : Nat) (r : CmdRef) : (s.candidate i h (some r)).Awaits i h r := by
  unfold candidate
  extract_lets waits
  split
  next hany =>
    obtain ⟨p, hp, hw⟩ := List.any_eq_true.1 hany
    refine ⟨{ p with cmds := p.cmds ++ [r] }, List.mem_map.2 ⟨p, hp, if_pos hw⟩, ?_⟩
    simpa [waits, and_assoc] using hw
  next => exact ⟨_, List.mem_append_right _ (List.mem_singleton.2 rfl), rfl, rfl, rfl, List.mem_singleton.2 rfl⟩

/-- Another candidate keeps it waiting. -/
theorem Awaits.candidate {s : State} {i h j k : Nat} {r : CmdRef} {c : Option CmdRef} (hs : s.Awaits i h r) : (s.candidate j k c).Awaits i h r := by
  obtain ⟨p, hp, hrest⟩ := hs
  unfold State.candidate
  extract_lets waits
  split
  · refine ⟨if waits p then { p with cmds := p.cmds ++ c.toList } else p, List.mem_map.2 ⟨p, hp, rfl⟩, ?_⟩
    split
    · obtain ⟨hi, hh, hr, hc⟩ := hrest
      exact ⟨hi, hh, hr, List.mem_append_left _ hc⟩
    · exact hrest
  · exact ⟨p, List.mem_append_left _ hp, hrest⟩

theorem awaits_candidates (s : State) (i b : Nat) (r : CmdRef) {l : List Nat} {k : Nat} (hk : k ∈ l) :
    (l.foldl (fun s n => s.candidate i (b + n) (some r)) s).Awaits i (b + k) r := by
  induction l using List.reverseRecOn with
  | nil => simp at hk
  | append_singleton l n ih =>
    rw [List.foldl_append]
    rcases List.mem_append.1 hk with hk | hk
    · exact (ih hk).candidate
    · obtain rfl := List.mem_singleton.1 hk
      exact awaits_candidate ..

/-- A stamped INDEX_COMPACT makes each shoal that it names a candidate (R120). -/
theorem actIndexCompact_names {s : State} {r : CmdRef} {l : Live} {x : Index} (hx : s.heldIndex l.h.func (fld l.body 5 0) = some x) :
    (∀ k ≤ fld l.body 83 64, (actIndexCompact r l s).Awaits x.no (fld l.body 51 32 + k) r) ∧ ∀ a, (actIndexCompact r l s).byte a = s.byte a := by
  unfold actIndexCompact
  simp only [hx]
  refine ⟨fun k hk => awaits_candidates s x.no _ r (List.mem_range.2 (by omega)), fun a => ?_⟩
  exact foldl_keeps (g := fun s => s.byte a) (fun _ _ => (candidate_within ..).byte (by decide) a) _ _

/-- A stamped MUTATE waits to be staged (R109). -/
theorem actMutate_waits {s : State} {r : CmdRef} {l : Live} {x : Index} (hx : s.heldIndex l.h.func (fld l.body 5 0) = some x) :
    ∃ m, (actMutate r l s).idx.staged = s.idx.staged ++ [m] ∧ m.r = r ∧ m.idx = x.no ∧ m.commitAt = fld l.body 127 64 ∧
      m.count = fld l.body 27 16 + 1 ∧ m.recs = none ∧ ∀ a, (actMutate r l s).byte a = s.byte a := by
  unfold actMutate
  simp only [hx]
  exact ⟨_, rfl, rfl, rfl, rfl, rfl, rfl, fun _ => rfl⟩

/-! ## Staging -/

/-- What staging leaves of the indexes' state. -/
def searchParts (s : State) : List Index × List Query × List Bank × Nat × List Staged :=
  (s.idx.indexes, s.idx.queries, s.idx.banks, s.idx.epoch, s.idx.staged)

theorem searchParts_congr {s t : State} (h : t.idx = s.idx) : t.searchParts = s.searchParts := by
  unfold searchParts
  rw [h]

theorem searchParts_hPut (s : State) (f h off : Nat) (b : List Byte) : (s.hPut f h off b).searchParts = s.searchParts :=
  searchParts_congr ((hPut_within ..).idx (by decide))

theorem searchParts_stageLeaves (s : State) (f h i : Nat) (cs : List (Nat × Bool)) (blks : List Nat) :
    (s.stageLeaves f h i cs blks).searchParts = s.searchParts := by
  unfold stageLeaves
  refine foldl_keeps (g := searchParts) (fun u b => ?_) _ _
  dsimp only
  split
  · exact searchParts_hPut ..
  · exact searchParts_hPut ..
  · rfl

theorem searchParts_stageFilters (s : State) (x : Index) (fb : List (Nat × Nat × Bool)) (rs : List StRec) :
    (s.stageFilters x fb rs).searchParts = s.searchParts :=
  foldl_keeps (g := searchParts) (fun _ _ => searchParts_stageLeaves ..) _ _

/-- How the record of a mutation at `off` is answered: its own operation and ID, no place and no change where it is refused, and refused
where its ID is reserved (R112, R113). -/
structure Answers (b : Body) (off : Nat) (y : StRec) : Prop where
  id : y.id = fld (b.drop off) 47 0
  op : y.op = fld (b.drop off) 51 48
  refused : y.status ≠ 0 → y.places = [] ∧ y.removes = [] ∧ y.fbits = []
  reserved : y.id = padId → y.status = Status.itemIdReserved

theorem Answers.of_refused {b : Body} {off st : Nat} (hid : fld (b.drop off) 47 0 = padId → st = Status.itemIdReserved) :
    Answers b off { status := st, op := fld (b.drop off) 51 48, id := fld (b.drop off) 47 0, places := [], removes := [], fbits := [] } :=
  ⟨rfl, rfl, fun _ => ⟨rfl, rfl, rfl⟩, hid⟩

theorem stageRec_answers (s : State) (x : Index) (b : Body) (off : Nat) (done : List StRec) :
    Answers b off (s.stageRec x b off done).2 ∧ (s.stageRec x b off done).1.searchParts = s.searchParts := by
  have hread : (s.hTraffic x.func x.func x.hDir false (4096 * x.home (fld (b.drop off) 47 0)) 4096).searchParts = s.searchParts :=
    searchParts_congr ((hTraffic_within ..).idx (by decide))
  unfold stageRec
  extract_lets r op id rs bad live u fb4 y4 ha hs places pl slots fb raw v u1 y n
  split
  · exact ⟨.of_refused fun _ => rfl, rfl⟩
  next hid =>
    have hbad : ∀ st, Answers b off (bad st).2 ∧ (bad st).1.searchParts = s.searchParts := fun st => ⟨.of_refused fun h => absurd h hid, rfl⟩
    split
    · exact hbad _
    split
    · exact hbad _
    split
    next hop => exact ⟨⟨rfl, hop.symm, fun h => absurd rfl h, fun h => absurd h hid⟩, hread⟩
    split
    next hop =>
      split
      · exact hbad _
      · exact ⟨⟨rfl, hop.symm, fun h => absurd rfl h, fun h => absurd h hid⟩, (searchParts_stageFilters ..).trans hread⟩
    split
    · exact hbad _
    split
    · exact hbad _
    refine ⟨⟨rfl, rfl, fun h => absurd rfl h, fun h => absurd h hid⟩, (searchParts_stageFilters ..).trans ?_⟩
    have hrows : u1.searchParts = u.searchParts := by
      refine foldl_keeps (g := searchParts) (fun w p => ?_) _ _
      refine Eq.trans (b := (((w.writeRow x p.1.1 p.1.2 v).putId x (w.shBase x p.1.1 + p.1.2) id (p.2 == 1)).hPut x.func x.hVec
        ((w.shBase x p.1.1 + p.1.2) * raw.length) raw).searchParts) rfl ?_
      rw [searchParts_hPut, searchParts_congr ((putId_within ..).idx (by decide)), searchParts_congr ((writeRow_within ..).idx (by decide))]
    split
    · rw [searchParts_congr ((count_within ..).idx (by decide)), hrows, hread]
    · rw [hrows, hread]

/-- The answers of the records of one mutation, in order (R112). -/
theorem stageRecs_answer (s : State) (x : Index) (b : Body) (offs : List Nat) (done : List StRec) :
    ∃ rs, (offs.foldl (fun (a : State × List StRec) off => ((a.1.stageRec x b off a.2).1, a.2 ++ [(a.1.stageRec x b off a.2).2])) (s, done)).2 =
        done ++ rs ∧ List.Forall₂ (Answers b) offs rs ∧
      (offs.foldl (fun (a : State × List StRec) off => ((a.1.stageRec x b off a.2).1, a.2 ++ [(a.1.stageRec x b off a.2).2])) (s, done)).1.searchParts =
        s.searchParts := by
  induction offs generalizing s done with
  | nil => exact ⟨[], by simp, .nil, rfl⟩
  | cons off offs ih =>
    obtain ⟨hans, hkeep⟩ := s.stageRec_answers x b off done
    obtain ⟨rs, hrs, hall, hparts⟩ := ih (s.stageRec x b off done).1 (done ++ [(s.stageRec x b off done).2])
    refine ⟨(s.stageRec x b off done).2 :: rs, ?_, .cons hans hall, hparts.trans hkeep⟩
    rw [List.foldl_cons, hrs, List.append_assoc, List.singleton_append]

theorem answers_map {b : Body} {offs : List Nat} {rs : List StRec} (h : List.Forall₂ (Answers b) offs rs) :
    rs.map StRec.id = offs.map (fun off => fld (b.drop off) 47 0) ∧ rs.map StRec.op = offs.map (fun off => fld (b.drop off) 51 48) ∧
      (∀ y ∈ rs, y.status ≠ 0 → y.places = [] ∧ y.removes = [] ∧ y.fbits = []) ∧ ∀ y ∈ rs, y.id = padId → y.status = Status.itemIdReserved := by
  induction h with
  | nil => simp
  | cons h _ ih =>
    obtain ⟨hid, hop, href, hres⟩ := ih
    refine ⟨by rw [List.map_cons, List.map_cons, hid, h.id], by rw [List.map_cons, List.map_cons, hop, h.op], fun y hy => ?_, fun y hy => ?_⟩
    · rcases List.mem_cons.1 hy with rfl | hy
      · exact h.refused
      · exact href y hy
    · rcases List.mem_cons.1 hy with rfl | hy
      · exact h.reserved
      · exact hres y hy

/-- The staging of the oldest unstaged mutation of an index (R109, R112). -/
theorem exec_mutateStaging {s : State} {i : Nat} {m : Staged} {x : Index} (hm : s.idx.staged.find? (fun m => m.idx == i && m.recs.isNone) = some m)
    (hx : s.index? i = some x) :
    ∃ t rs, exec (.mutateStaging i) s = .next t ∧ { m with recs := some rs } ∈ t.idx.staged ∧
      (∀ y ∈ s.idx.staged, y.r ≠ m.r → y ∈ t.idx.staged) ∧
      rs.map StRec.id = (recOffs x (s.qBody m.r) m.count 64).1.map (fun off => fld ((s.qBody m.r).drop off) 47 0) ∧
      rs.map StRec.op = (recOffs x (s.qBody m.r) m.count 64).1.map (fun off => fld ((s.qBody m.r).drop off) 51 48) ∧
      (∀ y ∈ rs, y.status ≠ 0 → y.places = [] ∧ y.removes = [] ∧ y.fbits = []) ∧
      (∀ y ∈ rs, y.id = padId → y.status = Status.itemIdReserved) ∧ t.idx.indexes = s.idx.indexes ∧
      t.idx.queries = s.idx.queries ∧ t.idx.banks = s.idx.banks ∧ t.idx.epoch = s.idx.epoch := by
  obtain ⟨rs, hrs, hall, hparts⟩ := s.stageRecs_answer x (s.qBody m.r) (recOffs x (s.qBody m.r) m.count 64).1 []
  obtain ⟨hid, hop, href, hres⟩ := answers_map hall
  simp only [searchParts, Prod.mk.injEq] at hparts
  obtain ⟨hindexes, hqueries, hbanks, hepoch, hstaged⟩ := hparts
  refine ⟨_, rs, rfl, ?_⟩
  unfold onMutateStaging
  simp only [hm, hx]
  rw [List.nil_append] at hrs
  refine ⟨?_, fun y hy hne => ?_, hid, hop, href, hres, hindexes, hqueries, hbanks, hepoch⟩
  · rw [hrs, hstaged]
    exact List.mem_map.2 ⟨m, List.mem_of_find?_eq_some hm, if_pos (by simp)⟩
  · rw [hstaged]
    exact List.mem_map.2 ⟨y, hy, if_neg (by simpa using hne)⟩

/-! ## The start of a pass -/

/-- A stack without a pass starts its one candidate, marks that shoal in its table, and nothing else (R120). -/
theorem exec_compactPassStart {s : State} {stack a b h : Nat} {x : Index} {o : Obj} (hidle : ∀ p ∈ s.idx.passes, p.running = false)
    (hon : bits s.idx.compact 3 0 ≠ 0) (hc : s.passCandidates stack = [(x, h, a, b)]) (ho : s.obj? x.func x.hTab = some o) :
    ∃ t, exec (.compactPassStart stack) s = .next t ∧
      (t.idx.passes.any (fun p => p.running && p.idx == x.no && p.shoal == h)) = true ∧ (o.inT2 = true → ∀ r, t.rd r = s.rd r) ∧
      ∀ c, (∀ i, 32 * h ≤ i → i < 32 * h + 32 → c ∉ s.objCells o i) → t.byte c = s.byte c := by
  refine ⟨_, rfl, ?_⟩
  unfold onCompactPassStart
  extract_lets busy cs best
  have hbusy : busy = false := by
    rw [List.any_eq_false]
    exact fun p hp => by simp [hidle p hp]
  rw [hbusy, if_neg (by simpa using hon)]
  have hbest : best = some (x, h, a, b) := by simp [best, cs, hc]
  rw [hbest]
  dsimp -zeta only
  extract_lets s1 s2 waits cmds _ s3
  have hobj : s1.obj? x.func x.hTab = some o := (obj?_congr (by rw [(candidate_within s x.no h none).mm (by decide)]) ..).trans ho
  have hend : Within [.sch, .cmd] s3 ((cmds.foldl (fun (s : State) r => s.updLive r (fun l => { l with committed := true })) s3).moveTasks x h true) :=
    Within.andThen (moveTasks_within ..) (by decide) (Within.foldl .refl fun _ _ => (updLive_within ..).mono (by decide))
  refine ⟨?_, fun ht2 r => ?_, fun c hcell => ?_⟩
  · rw [hend.idx (by decide)]
    obtain ⟨p, hp, hw⟩ := s.candidate_waits x.no h none
    refine List.any_eq_true.2 ⟨{ p with running := true }, List.mem_map.2 ⟨p, ?_, if_pos ?_⟩, ?_⟩
    · rwa [(shSet_within ..).idx (by decide)]
    · simpa [waits, and_assoc] using hw
    · simpa using ⟨hw.1, hw.2.1⟩
  · rw [hend.rd (by decide)]
    exact (rd_congr (t := s3) (regs_hPut_of_inT2 hobj ht2) r).trans ((candidate_within ..).rd (by decide) r)
  · rw [hend.byte (by decide)]
    refine Eq.trans (byte_hPut_other hobj fun i hlo hhi => ?_) ((candidate_within s x.no h none).byte (by decide) c)
    rw [length_leBytes] at hhi
    rw [objCells_congr ((candidate_within s x.no h none).regs (by decide))]
    exact hcell i (by omega) (by omega)

end State

/-- Settles O37: places on the stream, stamps, staging record by record, and the start of a pass. -/
theorem mutationsStageAndPassesStart : Obligations.MutationsStageAndPassesStart := by
  unfold Obligations.MutationsStageAndPassesStart
  refine ⟨fun s t h b hs hrow => congrArg Host.Outcome.next (State.command_of_waitsForStamp actMutate hs hrow),
    fun s t h b hs hrow => congrArg Host.Outcome.next (State.command_of_waitsForStamp actIndexCompact hs hrow), fun s u h b l i hi => ?_,
    fun s t i r l0 l x hp hh hw hl0 hchk ht hl hx => ?_, fun s i m x hm hx => State.exec_mutateStaging hm hx, fun s i hno => ?_,
    fun s stack a b h x o hidle hon hc ho => State.exec_compactPassStart hidle hon hc ho⟩
  · rcases hi with ⟨rfl, hrow, hs⟩ | ⟨rfl, hrow, hs⟩
    · obtain ⟨t, m, hex, hrest⟩ := State.command_of_entersStream actMutate hs hrow (.inr (.inl (by simpa [isMutate] using hrow)))
      exact ⟨t, m, congrArg Host.Outcome.next hex, hrest⟩
    · obtain ⟨t, m, hex, hrest⟩ := State.command_of_entersStream actIndexCompact hs hrow (.inr (.inr (by simpa [isIndexCompact] using hrow)))
      exact ⟨t, m, congrArg Host.Outcome.next hex, hrest⟩
  · subst ht
    have hexec := State.exec_ingressStamp hp hh hw hl0 hchk hl
    obtain ⟨hhdr, -⟩ := State.live?_stamp_same hl0 hl
    have hstamp := s.stamped_within r i
    refine ⟨fun hop => ?_, fun hop => ?_⟩
    · rw [hhdr, hop] at hexec
      obtain ⟨m, hst, hr, hidx, hat, hcount, hrecs, hbytes⟩ := State.actMutate_waits (r := r) hx
      exact ⟨_, m, hexec, by rw [← hstamp.idx (by decide)]; exact hst, hr, hidx, hat, hcount, hrecs, fun a =>
        (hbytes a).trans (hstamp.byte (by decide) a)⟩
    · rw [hhdr, hop] at hexec
      obtain ⟨hnames, hbytes⟩ := State.actIndexCompact_names (r := r) hx
      exact ⟨_, hexec, hnames, fun a => (hbytes a).trans (hstamp.byte (by decide) a)⟩
  · refine congrArg Host.Outcome.next ?_
    unfold State.onMutateStaging
    rcases hno with hno | hno
    · simp only [hno]
    · cases s.idx.staged.find? (fun m => m.idx == i && m.recs.isNone) <;> simp only [hno]

end Sys2Proof.Machine
end

section
/-! Loading, saving and unloading an index, for the statements of chapter 3. -/

namespace Sys2Proof.Machine

/- The elaborator's threads each take a stack: one proof at a time keeps a text of this length within the memory limit. -/
set_option Elab.async false

namespace State

/-! ## Indexes by their number -/

theorem no_of_index? {s : State} {n : Nat} {x : Index} (h : s.index? n = some x) : x.no = n := by simpa using List.find?_some h

theorem index?_congr {s t : State} (h : t.idx = s.idx) (n : Nat) : t.index? n = s.index? n := congrArg (fun i : IdxSt => i.indexes.find? _) h

theorem index?_updIndex_same {s : State} {n : Nat} {x : Index} {f : Index → Index} (hf : ∀ y, (f y).no = y.no) (hx : s.index? n = some x) :
    (s.updIndex n f).index? n = some (f x) :=
  (find?_updWhere_same (fun y hy => by simpa [hf] using hy) s.idx.indexes).trans (congrArg (Option.map f) hx)

theorem index?_updIndex_other {s : State} {n m : Nat} {f : Index → Index} (hf : ∀ y, (f y).no = y.no) (hm : m ≠ n) :
    (s.updIndex n f).index? m = s.index? m :=
  find?_updWhere_other (fun y hy => by
    obtain rfl : y.no = n := by simpa using hy
    simp [hf, Ne.symm hm]) s.idx.indexes

theorem index?_dropIndex_self (s : State) (n : Nat) : (s.dropIndex n).index? n = none := by simp [dropIndex, index?]

theorem index?_dropIndex_other (s : State) {n m : Nat} (hm : m ≠ n) : (s.dropIndex n).index? m = s.index? m := by
  unfold dropIndex index?
  exact find?_dropped_other (fun y hy => by
    obtain rfl : y.no = m := by simpa using hy
    simp [hm]) _

/-- A new index is found by its number, where no other had it. -/
theorem find?_new_index {l : List Index} {x : Index} (hfree : l.find? (fun y => y.no == x.no) = none) :
    (l ++ [x]).find? (fun y => y.no == x.no) = some x ∧
      ∀ n, n ≠ x.no → (l ++ [x]).find? (fun y => y.no == n) = l.find? (fun y => y.no == n) := by
  refine ⟨by simp [List.find?_append, hfree], fun n hn => ?_⟩
  rw [List.find?_append]
  simp [Ne.symm hn]

/-! ## Loading -/

/-- A load that passes its checks adds its index behind the others (R93). -/
theorem indexes_actIndexLoad {r : CmdRef} {l : Live} {t : State} (hchk : t.loadCheck (t.loading r l) = none) :
    (actIndexLoad r l t).idx.indexes =
      t.idx.indexes ++ [{ t.loading r l with due := (t.loading r l).centUnits, imgDone := decide ((t.loading r l).img = 0) }] := by
  unfold actIndexLoad
  simp only [hchk]
  split
  next himg =>
    rw [(loadEmpty_within ..).idx (by decide)]
    simp only [himg, decide_true]
    rfl
  next himg =>
    have hdone : (t.loading r l).imgDone = decide ((t.loading r l).img = 0) := (decide_eq_false himg).symm
    rw [← hdone]
    split
    · rw [(queueObj_within ..).idx (by decide)]
      rfl
    · rfl

/-- With an image a load leaves every byte to the copy (R94). -/
theorem byte_actIndexLoad {r : CmdRef} {l : Live} {t : State} (hchk : t.loadCheck (t.loading r l) = none) (himg : (t.loading r l).img ≠ 0)
    (a : Nat) : (actIndexLoad r l t).byte a = t.byte a := by
  unfold actIndexLoad
  simp only [hchk, if_neg himg]
  split
  · exact (queueObj_within ..).byte (by decide) a
  · rfl

/-- A load that passes its checks names a number that no index has (R93). -/
theorem index?_of_loadCheck {s : State} {x : Index} (h : s.loadCheck x = none) : s.index? x.no = none := by
  unfold loadCheck at h
  by_contra hne
  rw [← Ne, Option.ne_none_iff_isSome] at hne
  rw [hne] at h
  split at h <;> simp at h

/-- The check's outcome decides a stamped INDEX_LOAD. -/
theorem actIndexLoad_loads {r : CmdRef} {l : Live} {t : State} {x : Index} (hx : x = t.loading r l) (hchk : t.loadCheck x = none) :
    (actIndexLoad r l t).index? x.no = some { x with due := x.centUnits, imgDone := decide (x.img = 0) } ∧
      (∀ n, n ≠ x.no → (actIndexLoad r l t).index? n = t.index? n) ∧ (x.img ≠ 0 → ∀ a, (actIndexLoad r l t).byte a = t.byte a) := by
  subst hx
  obtain ⟨hnew, hold⟩ := find?_new_index (x := { t.loading r l with
    due := (t.loading r l).centUnits, imgDone := decide ((t.loading r l).img = 0) }) (index?_of_loadCheck hchk)
  rw [← indexes_actIndexLoad hchk] at hnew hold
  exact ⟨hnew, hold, byte_actIndexLoad hchk⟩

/-! ## The copy of an image -/

/-- The copy of an image whose load a command waits for (R93, R94). -/
theorem exec_indexImageCopied_of_cmd {s : State} {idx : Nat} {x : Index} {o : Obj} {r : CmdRef} (hx : s.index? idx = some x) (hst : x.st = 1)
    (hdone : x.imgDone = false) (hr : x.loadCmd = some r) (ho : s.obj? x.func x.img = some o) (hwait : s.objWaits o = false) {v : State}
    (hv : v = (s.objTraffic x.func o false 0 o.size).copyImage x o) :
    exec (.indexImageCopied idx) s = .next (if s.imageHeaderOk o 1 = false then (s.dropIndex idx).loadFail r Status.indexImageBad 0
      else if s.imageBad o = none then (if v.tombBad x then (v.dropIndex idx).loadFail r Status.indexParam 6 else v)
      else (s.dropIndex idx).loadFail r Status.indexImageBad ((s.imageBad o).getD 0)) := by
  refine congrArg Host.Outcome.next ?_
  unfold onIndexImageCopied
  simp only [hx, hst, hdone, hr, ho, hwait, Option.filter, Option.map_some, Option.getD_some, decide_true, Bool.not_false, Bool.and_self,
    if_true, Bool.false_eq_true, if_false, Bool.not_eq_true']
  rw [← hv]
  split
  · rfl
  · cases s.imageBad o <;> simp only [Option.getD_some, reduceCtorEq, if_true, if_false]

/-- The copy of an image whose load no command waits for any more. -/
theorem exec_indexImageCopied_of_none {s : State} {idx : Nat} {x : Index} {o : Obj} (hx : s.index? idx = some x) (hst : x.st = 1)
    (hdone : x.imgDone = false) (hr : x.loadCmd = none) (ho : s.obj? x.func x.img = some o) (hwait : s.objWaits o = false)
    (hhdr : s.imageHeaderOk o 1 = true) {v : State} (hv : v = (s.objTraffic x.func o false 0 o.size).copyImage x o) :
    exec (.indexImageCopied idx) s =
      .next (if s.imageBad o = none ∧ v.tombBad x = false then v else if s.imageBad o = none then v.dropIndex idx else s.dropIndex idx) := by
  refine congrArg Host.Outcome.next ?_
  unfold onIndexImageCopied
  simp only [hx, hst, hdone, hr, ho, hwait, hhdr, Option.filter, Option.map_some, Option.getD_some, decide_true, Bool.not_false, Bool.and_self,
    if_true, Bool.false_eq_true, if_false, Bool.not_true]
  rw [← hv]
  cases s.imageBad o with
  | some ty => simp only [reduceCtorEq, false_and, if_false]
  | none => cases v.tombBad x <;> simp only [if_true, Bool.true_eq_false, Bool.false_eq_true, and_self, and_false, if_false]

theorem exec_indexImageCopied_of_waits {s : State} {idx : Nat} {x : Index} {o : Obj} (hx : s.index? idx = some x) (hst : x.st = 1)
    (hdone : x.imgDone = false) (ho : s.obj? x.func x.img = some o) (hwait : s.objWaits o = true) :
    exec (.indexImageCopied idx) s = .next s := by
  refine congrArg Host.Outcome.next ?_
  unfold onIndexImageCopied
  simp only [hx, hst, hdone, ho, hwait, Option.filter, Option.map_some, Option.getD_some, decide_true, Bool.not_false, Bool.and_self, if_true]

/-- A copy stores bytes, and then marks its index. -/
theorem copyImage_marks (s : State) (x : Index) (o : Obj) : ∃ (u : State) (f : Index → Index), s.copyImage x o = u.updIndex x.no f ∧
    u.idx = s.idx ∧ (∀ y, (f y).no = y.no) ∧ ∀ y, (f y).imgDone = true := by
  have hput : ∀ (u v : State) (f n off : Nat) (b : List Byte), u.idx = v.idx → (u.hPut f n off b).idx = v.idx := fun u v f n off b h =>
    ((hPut_within ..).idx (by decide)).trans h
  unfold copyImage
  extract_lets tab hdr s1 s2 codes ids r maps tomb s5 s6
  refine ⟨s6, _, rfl, ?_, fun _ => rfl, fun _ => rfl⟩
  have h1 : s1.idx = s.idx := foldl_keeps (g := fun s => s.idx) (fun u h => by
    rw [(shSet_within ..).idx (by decide), (shSet_within ..).idx (by decide), (shSet_within ..).idx (by decide), (shSet_within ..).idx (by decide)]) _ _
  have h2 : s2.idx = s.idx :=
    (foldl_keeps (g := fun s => s.idx) (fun u i => (putId_within ..).idx (by decide)) _ _).trans (hput _ _ _ _ _ _ h1)
  have hr : r.1.idx = s.idx := by
    have hw : Within [.fresh, .regs, .mem, .mm, .sch, .fl] s2 r.1 := Within.foldl_fst .refl fun u h =>
      Within.andThen (hPut_within ..) (by decide) (hPut_within ..)
    rw [hw.idx (by decide), h2]
  exact (foldl_keeps (g := fun s => s.idx) (fun u p => (hPut_within ..).idx (by decide)) _ _).trans (hput _ _ _ _ _ _ hr)

/-- A copied image is marked so. -/
theorem imgDone_copyImage {s : State} {idx : Nat} {x : Index} (o : Obj) (hx : s.index? idx = some x) :
    (((s.objTraffic x.func o false 0 o.size).copyImage x o).index? idx).map Index.imgDone = some true := by
  obtain ⟨u, f, hu, hidx, hno, hdone⟩ := (s.objTraffic x.func o false 0 o.size).copyImage_marks x o
  have hux : u.index? idx = some x := (index?_congr (hidx.trans ((objTraffic_within ..).idx (by decide))) idx).trans hx
  rw [hu, no_of_index? hx, index?_updIndex_same hno hux, Option.map_some, hdone]

/-- What a load that fails leaves: no index, no change of a byte (R93). -/
theorem loadFail_dropped (s : State) (idx : Nat) (r : CmdRef) (st sec : Nat) :
    ((s.dropIndex idx).loadFail r st sec).index? idx = none ∧ ∀ a, ((s.dropIndex idx).loadFail r st sec).byte a = s.byte a :=
  ⟨(index?_congr ((loadFail_within ..).idx (by decide)) idx).trans (index?_dropIndex_self s idx),
    fun a => ((loadFail_within ..).byte (by decide) a).trans ((dropIndex_within ..).byte (by decide) a)⟩

/-! ## The centroid copies -/

theorem index?_addMark (s : State) (i n : Nat) : (s.addMark i).index? n = s.index? n := by
  unfold addMark
  split <;> rfl

theorem shares_takeShare {s : State} {owner : ShareOwner} {die : Option Nat} {n : Nat} (h : (s.takeShare owner die n).2 = true) :
    ∃ e ∈ (s.takeShare owner die n).1.mm.shares, e.owner = owner := by
  unfold takeShare at h ⊢
  extract_lets dies due lack us x _ s1
  by_cases hl : lack.isEmpty = true
  · rw [if_pos hl]
    have hyield : (us.foldl (fun s e => s.yieldUnits e.1 e.2) s1).mm.shares = s1.mm.shares :=
      foldl_keeps (g := fun s => s.mm.shares) (fun u e => by
        unfold yieldUnits
        dsimp only
        split
        · rw [(count_within ..).mm (by decide)]
        · rfl) _ _
    exact ⟨x, by rw [hyield]; exact List.mem_append_right _ (List.mem_singleton.2 rfl), rfl⟩
  · exact absurd (h.symm.trans (congrArg Prod.snd (if_neg hl))) (by simp)

theorem mem_of_draw {s : State} {l : List Nat} (hl : l ≠ []) : ∃ i ∈ l, (s.draw l).1 = some i := by
  have hlt : Config.pick s.fresh % l.length < l.length := Nat.mod_lt _ (List.length_pos_of_ne_nil hl)
  exact ⟨l[Config.pick s.fresh % l.length], List.getElem_mem _, List.getElem?_eq_getElem hlt⟩

theorem islandsUp_lt {s : State} {i : Nat} (h : i ∈ s.islandsUp) : i < 512 := List.mem_range.1 (List.mem_filter.1 h).1

/-- An island that is drawn is one of those up, where there are any. -/
theorem draw_islandsUp (s : State) : (s.draw s.islandsUp).1.getD 0 < 512 ∧ (s.islandsUp ≠ [] → (s.draw s.islandsUp).1.getD 0 ∈ s.islandsUp) := by
  by_cases hl : s.islandsUp = []
  · refine ⟨?_, fun h => absurd hl h⟩
    rw [hl]
    simp [draw]
  · obtain ⟨i, hi, hd⟩ := mem_of_draw hl
    rw [hd]
    exact ⟨islandsUp_lt hi, fun _ => hi⟩

/-- The centroid copies take their lagoon share, and the index an unfenced ingress island (R96, R106). -/
theorem exec_centroidCopyBuilt_taken {s : State} {idx : Nat} {x : Index} (hx : s.index? idx = some x) (hst : x.st = 1)
    (himg : x.imgDone = true) (hb : x.built = false) (hshare : (s.takeShare (.index idx) (some x.centDie) x.centUnits).2 = true) :
    ∃ t i, exec (.centroidCopyBuilt idx) s = .next t ∧ i < 512 ∧ (s.islandsUp ≠ [] → i ∈ s.islandsUp) ∧
      (∃ e ∈ t.mm.shares, e.owner = .index idx) ∧ t.index? idx = some { x with
        built := true, due := 0, cents := (List.range x.nShoals).map (fun h => (s.centCopy x h).1), ingress := i } := by
  have hfilter : (s.index? idx).filter (fun x => decide (x.st = 1) && x.imgDone && !x.built) = some x := by
    simp [hx, Option.filter, hst, himg, hb]
  suffices h : ∃ i, i < 512 ∧ (s.islandsUp ≠ [] → i ∈ s.islandsUp) ∧
      (∃ e ∈ (s.onCentroidCopyBuilt idx).mm.shares, e.owner = .index idx) ∧ (s.onCentroidCopyBuilt idx).index? idx = some { x with
        built := true, due := 0, cents := (List.range x.nShoals).map (fun h => (s.centCopy x h).1), ingress := i } by
    obtain ⟨i, h⟩ := h
    exact ⟨_, i, rfl, h⟩
  unfold onCentroidCopyBuilt
  simp -zeta only [hfilter]
  extract_lets s0 cs sat s1 s2
  rw [show s0.2 = true from hshare, if_neg (by simp)]
  have h1 : Within [.regs] s0.1 s1 := Within.ite (fun _ => count_within ..) fun _ => .refl
  have h2 : Within [.fresh, .regs, .mem, .mm, .sch, .fl] s1 s2 := Within.foldl .refl fun u h => hPut_within ..
  have hshares : s2.mm.shares = s0.1.mm.shares := by
    rw [← h1.mm (by decide)]
    exact foldl_keeps (g := fun s => s.mm.shares) (fun u h => mm_hPut (g := MemSt.shares) (fun _ _ => rfl) ..) _ _
  have hidx : s2.idx = s.idx := by
    rw [h2.idx (by decide), h1.idx (by decide), (takeShare_within ..).idx (by decide)]
  have hup : s2.islandsUp = s.islandsUp := by
    unfold islandsUp
    rw [h2.flt (by decide), h1.flt (by decide), (takeShare_within ..).flt (by decide)]
  obtain ⟨hlt, hmem⟩ := s2.draw_islandsUp
  rw [hup] at hlt hmem
  have h3 : Within [.fresh] s2 (s2.draw s.islandsUp).2 := draw_within ..
  rw [hup]
  refine ⟨_, hlt, hmem, ?_, ?_⟩
  · obtain ⟨e, he, howner⟩ := shares_takeShare hshare
    refine ⟨e, ?_, howner⟩
    rw [(addMark_within ..).mm (by decide), (updIndex_within ..).mm (by decide), h3.mm (by decide), hshares]
    exact he
  · have hx3 : (s2.draw s.islandsUp).2.index? idx = some x := (index?_congr ((h3.idx (by decide)).trans hidx) idx).trans hx
    have hcents : (List.range x.nShoals).map (fun h => (s.centCopy x h).1) = cs.map (fun c => c.1) := by simp [cs, Function.comp_def]
    rw [hcents, index?_addMark]
    exact index?_updIndex_same (fun _ => rfl) hx3

/-- Without room for the share the load ends (R96). -/
theorem exec_centroidCopyBuilt_full {s : State} {idx : Nat} {x : Index} {r : CmdRef} (hx : s.index? idx = some x) (hst : x.st = 1)
    (himg : x.imgDone = true) (hb : x.built = false) (hr : x.loadCmd = some r)
    (hshare : (s.takeShare (.index idx) (some x.centDie) x.centUnits).2 = false) :
    exec (.centroidCopyBuilt idx) s =
      .next (((s.takeShare (.index idx) (some x.centDie) x.centUnits).1.dropIndex idx).loadFail r Status.lagoonFull 0) := by
  refine congrArg Host.Outcome.next ?_
  have hfilter : (s.index? idx).filter (fun x => decide (x.st = 1) && x.imgDone && !x.built) = some x := by
    simp [hx, Option.filter, hst, himg, hb]
  unfold onCentroidCopyBuilt
  simp only [hfilter, hshare, hr, Bool.not_false, if_true]

/-! ## Saving and unloading -/

/-- A stamped save queues its image (R100, R101). -/
theorem actIndexSave_queues {r : CmdRef} {l : Live} {t : State} {x : Index} {o : Obj} (hx : t.heldIndex l.h.func (fld l.body 5 0) = some x)
    (ho : t.obj? l.h.func (fld l.body 63 32) = some o) (hfit : t.imageFits x o = true) :
    (actIndexSave r l t).index? x.no = some { x with saves := x.saves ++ [{ r := r, target := fld l.body 63 32 }] } ∧
      (∀ n, n ≠ x.no → (actIndexSave r l t).index? n = t.index? n) ∧ ∀ a, (actIndexSave r l t).byte a = t.byte a := by
  have hidx : t.index? x.no = some x := by
    have h := (Option.filter_eq_some_iff.1 hx).1
    rwa [no_of_index? h]
  unfold actIndexSave
  simp only [hx, ho, Option.filter, hfit, if_true]
  refine ⟨?_, fun n hn => ?_, fun a => ?_⟩
  · rw [index?_congr ((queueBytes_within ..).idx (by decide))]
    exact index?_updIndex_same (s := t.updLive r _) (fun _ => rfl) hidx
  · rw [index?_congr ((queueBytes_within ..).idx (by decide))]
    exact index?_updIndex_other (s := t.updLive r _) (fun _ => rfl) hn
  · exact (queueBytes_within ..).byte (by decide) a

theorem actIndexUnload_marks {r : CmdRef} {l : Live} {t : State} {x : Index} (hx : t.readyIndex l.h.func (fld l.body 5 0) = some x) :
    (actIndexUnload r l t).index? x.no = some { x with st := 3, unloadCmd := some r } := by
  have hidx : t.index? x.no = some x := by
    have h := (Option.filter_eq_some_iff.1 hx).1
    rwa [no_of_index? h]
  unfold actIndexUnload
  simp only [hx]
  exact index?_updIndex_same (s := t.updLive r _) (fun _ => rfl) hidx

/-- A save completes once its object has no write outstanding (R100). -/
theorem exec_indexSaveDone {s : State} {idx : Nat} {x : Index} {v : SaveRun} {vs : List SaveRun} {o : Obj} (hx : s.index? idx = some x)
    (hv : x.saves = v :: vs) (ho : s.obj? x.func v.target = some o) (hr : s.fl.ready = true) :
    exec (.indexSaveDone idx) s = .next (if s.objUnwritten o then s
      else (s.updIndex idx (fun y => { y with saves := vs })).complete v.r Status.ok []) := by
  refine congrArg Host.Outcome.next ?_
  unfold onIndexSaveDone
  simp only [hx, hv, ho, hr, Bool.not_true, Bool.false_or, Option.any_some]

/-- The share list is not part of a completion. -/
theorem shares_complete (s : State) (r : CmdRef) (status : Nat) (body : Body) : (s.complete r status body).mm.shares = s.mm.shares := by
  unfold complete
  split
  · rfl
  next l hl =>
    rw [(releaseHeld_within ..).mm (by decide), (answer_within ..).mm (by decide), (noteLoad_within ..).mm (by decide)]
    unfold dropLive
    simp only [hl]
    split
    · split <;> rfl
    · rfl

/-- An unload whose last command has completed frees the index and its share (R102). -/
theorem exec_indexUnloadDone {s : State} {idx : Nat} {x : Index} {r : CmdRef} (hx : s.index? idx = some x) (hst : x.st = 3)
    (hbusy : s.indexBusy idx = false) (hr : x.unloadCmd = some r) :
    exec (.indexUnloadDone idx) s = .next ((s.dropIndex idx).complete r Status.ok []) := by
  refine congrArg Host.Outcome.next ?_
  have hfilter : (s.index? idx).filter (fun x => decide (x.st = 3)) = some x := by simp [hx, Option.filter, hst]
  unfold onIndexUnloadDone
  simp only [hfilter, hbusy, hr, Bool.false_eq_true, if_false]

theorem unloaded (s : State) (idx : Nat) (r : CmdRef) : ((s.dropIndex idx).complete r Status.ok []).index? idx = none ∧
    (∀ e ∈ ((s.dropIndex idx).complete r Status.ok []).mm.shares, e.owner ≠ .index idx) ∧
    (∀ n, n ≠ idx → ((s.dropIndex idx).complete r Status.ok []).index? n = s.index? n) ∧
    ∀ a, ((s.dropIndex idx).complete r Status.ok []).byte a = s.byte a := by
  have hidx := (complete_within (s.dropIndex idx) r Status.ok []).idx (by decide)
  refine ⟨?_, fun e he => ?_, fun n hn => ?_, fun a => ?_⟩
  · rw [index?_congr hidx, index?_dropIndex_self]
  · rw [shares_complete] at he
    simpa using (List.mem_filter.1 he).2
  · rw [index?_congr hidx, index?_dropIndex_other s hn]
  · rw [(complete_within ..).byte (by decide), (dropIndex_within ..).byte (by decide)]

end State

/-- Settles O34, row by row. -/
theorem indexesLoadSaveAndUnload : Obligations.IndexesLoadSaveAndUnload := by
  unfold Obligations.IndexesLoadSaveAndUnload
  refine ⟨fun s t h b l x hs hrow hx => ⟨fun st hchk => ?_, fun hchk => ?_⟩, fun s t h b l x o hs hrow hx ho hfit => ?_,
    fun s t h b l x hs hrow hx => ?_, fun s idx x o hx hst hdone ho => ?_, fun s v idx x o r hx hst hdone hr ho hwait hv => ?_,
    fun s idx x r hx hst himg hb hr => ?_, fun s idx x v vs o hx hv ho hr => ?_, fun s idx x r hx hst hbusy hr => ?_⟩
  · refine congrArg Host.Outcome.next ((State.command_of_stampsAtOnce actIndexLoad hs hrow).trans ?_)
    rw [hx] at hchk
    unfold actIndexLoad
    simp only [hchk]
  · exact ⟨_, congrArg Host.Outcome.next (State.command_of_stampsAtOnce actIndexLoad hs hrow), State.actIndexLoad_loads hx hchk⟩
  · exact ⟨_, congrArg Host.Outcome.next (State.command_of_stampsAtOnce actIndexSave hs hrow), State.actIndexSave_queues hx ho hfit⟩
  · exact ⟨_, congrArg Host.Outcome.next (State.command_of_stampsAtOnce actIndexUnload hs hrow), State.actIndexUnload_marks hx⟩
  · exact ⟨State.exec_indexImageCopied_of_waits hx hst hdone ho, fun v hwait hhdr hr hv =>
      State.exec_indexImageCopied_of_none hx hst hdone hr ho hwait hhdr hv⟩
  · have hexec := State.exec_indexImageCopied_of_cmd hx hst hdone hr ho hwait hv
    refine ⟨fun hhdr => ?_, fun ty hhdr hbad => ?_, fun hhdr hbad ht => ?_, fun hhdr hbad ht => ?_⟩
    · rw [hexec, if_pos hhdr]
    · rw [hexec, if_neg (by simp [hhdr]), hbad, if_neg (by simp)]
      obtain ⟨hnone, hbytes⟩ := State.loadFail_dropped s idx r Status.indexImageBad ty
      exact ⟨_, rfl, rfl, hnone, hbytes⟩
    · rw [hexec, if_neg (by simp [hhdr]), if_pos hbad, if_pos ht]
    · rw [hexec, if_neg (by simp [hhdr]), if_pos hbad, if_neg (by simp [ht])]
      exact ⟨rfl, by rw [hv]; exact State.imgDone_copyImage o hx⟩
  · exact ⟨State.exec_centroidCopyBuilt_taken hx hst himg hb, State.exec_centroidCopyBuilt_full hx hst himg hb hr⟩
  · have hexec := State.exec_indexSaveDone hx hv ho hr
    refine ⟨fun hun => ?_, fun hun => ⟨_, ?_, rfl, ?_, fun a => ?_⟩⟩
    · rw [hexec, if_pos hun]
    · rw [hexec, if_neg (by simp [hun])]
    · rw [State.index?_congr ((State.complete_within ..).idx (by decide))]
      exact State.index?_updIndex_same (fun _ => rfl) hx
    · exact (State.complete_within ..).byte (by decide) a
  · exact ⟨_, State.exec_indexUnloadDone hx hst hbusy hr, rfl, s.unloaded idx r⟩

end Sys2Proof.Machine
end

section
/-! Dispatch and end of tasks, for the statements of chapter 12. -/

namespace Sys2Proof.Machine

/- The elaborator's threads each take a stack: one proof at a time keeps a text of this length within the memory limit. -/
set_option Elab.async false

namespace State

/-! ## Accounting leaves the tasks -/

section

variable {β : Type} {g : SchedSt → β} (hcur : ∀ m a b, g { m with cur := a, slotCur := b } = g m) (hlate : ∀ m l, g { m with late := l } = g m)

include hcur hlate

/-- A charge changes the accounts alone (R318). -/
theorem sch_chargeSpan (s : State) (x : LateAcct) : g (s.chargeSpan x).sch = g s.sch := by
  unfold chargeSpan
  extract_lets e later
  split
  · exact hlate _ _
  split
  · exact hcur _ _ _
  · exact (hlate _ _).trans (hcur _ _ _)

theorem sch_chargeSlot (s : State) (k : Nat) (a : SlotAcct) : g (s.chargeSlot k a).sch = g s.sch := sch_chargeSpan hcur hlate ..

theorem sch_chargeWait (s : State) (t : Task) (u : Nat) : g (s.chargeWait t u).sch = g s.sch := sch_chargeSpan hcur hlate ..

end

/-- A switch of an islet leaves the tasks. -/
theorem tasks_switchTo (s : State) (t : Task) (i : Nat) : (s.switchTo t i).sch.tasks = s.sch.tasks := by
  have hland : ∀ (u : State) (c : Option Nat), (u.landing i c).2.sch = u.sch := fun u c => by
    unfold landing
    extract_lets
    split <;> rfl
  have hsave : ∀ (u : State) (e : Leave), (u.saveTiles e).sch = u.sch := fun u e => by
    unfold saveTiles
    split
    · rfl
    · exact foldl_keeps (g := fun s => s.sch) (fun _ _ => (setBytes_within ..).sch (by decide)) _ _
  unfold switchTo
  split
  · rfl
  next out hout =>
    extract_lets _ s1 b s2
    split
    · rfl
    · have h2 : s2.sch = s.sch := by
        rw [(count_within ..).sch (by decide), hland, hsave]
      split
      · rw [sch_chargeSlot (g := SchedSt.tasks) (fun _ _ _ => rfl) (fun _ _ => rfl), h2]
      · rw [h2]

/-- Without saved tiles to leave, a switch changes nothing. -/
theorem switchTo_of_settled {s : State} {i : Nat} (t : Task) (h : ∀ e ∈ s.gen.leaving, e.islet ≠ i) : s.switchTo t i = s := by
  have hnone : s.gen.leaving.find? (fun e => e.islet == i) = none := by simpa using h
  unfold switchTo
  rw [hnone]

/-! ## Dispatch -/

/-- The first startable task by rank, class and entry is the one that dispatch looks at first (R308). -/
theorem first_startable {f t0 : Task} {ts : List Task} (hf : f ∈ t0 :: ts) (hmin : ∀ y ∈ t0 :: ts, y = f ∨ f.key < y.key) :
    ts.foldl (fun b x => if x.key < b.key then x else b) t0 = f :=
  foldl_least (key := Task.key) (List.mem_cons.1 hf) (hmin t0 (by simp)) fun y hy => hmin y (by simp [hy])

/-- The dispatched task runs on its islet from now on (R308, R310). -/
theorem exec_taskDispatch {s : State} {island i : Nat} {f v : Task} (hhuge : s.hugeTask island = none) (hf : f ∈ s.startable island)
    (hmin : ∀ y ∈ s.startable island, y = f ∨ f.key < y.key)
    (hlate : (s.lateTask island f = none ∧ v = f) ∨ (∃ z, s.lateTask island f = some z ∧ v ∈ s.startable island ∧ v.rank = f.rank ∧
      ∀ y ∈ s.startable island, y.rank = f.rank → y = v ∨ switchRank z v * 2 ^ 90 + v.key < switchRank z y * 2 ^ 90 + y.key))
    (hislet : v.save = some i ∨ (v.save = none ∧ (s.freeIslets island).head? = some i)) :
    ∃ t x, exec (.taskDispatch island) s = .next t ∧ x ∈ t.sch.tasks ∧ x.id = v.id ∧ x.islet = some i ∧ x.started = s.now ∧
      x.island = island ∧ x.save = none ∧ x.tiles = 0 ∧ t.now = s.now ∧
      ((∀ e ∈ s.gen.leaving, e.islet ≠ i) → ∀ a, t.byte a = s.byte a) := by
  have hv : v ∈ s.startable island := by
    rcases hlate with ⟨-, rfl⟩ | ⟨z, -, hv, -⟩
    · exact hf
    · exact hv
  have hmem : v ∈ s.sch.tasks := (List.mem_filter.1 hv).1
  suffices h : ∃ u : State, exec (.taskDispatch island) s = .next (u.updTask v.id (fun t => { t with
      island := island, islet := some i, started := u.now, since := u.now, tiles := 0, save := none })) ∧ u.sch.tasks = s.sch.tasks ∧
      u.now = s.now ∧ ((∀ e ∈ s.gen.leaving, e.islet ≠ i) → ∀ a, u.byte a = s.byte a) by
    obtain ⟨u, hexec, htasks, hnow, hbytes⟩ := h
    refine ⟨_, _, hexec, List.mem_map.2 ⟨v, htasks ▸ hmem, if_pos (by simp)⟩, rfl, rfl, hnow, rfl, rfl, rfl, hnow, hbytes⟩
  change ∃ u : State, execTaskDispatch island s = _ ∧ _
  unfold execTaskDispatch
  simp -zeta only [hhuge]
  extract_lets w
  cases hl : s.startable island with
  | nil => simp [hl] at hf
  | cons t0 ts =>
    rw [hl] at hf hmin
    dsimp -zeta only
    extract_lets f' late t pick s1
    have hff : f' = f := first_startable hf hmin
    have ht : t = v := by
      rcases hlate with ⟨hnone, rfl⟩ | ⟨z, hz, -, hrank, hbest⟩
      · have hlt : late = none := by simp only [late, hff]; exact hnone
        simp only [t, hlt, hff]
      · have hlt : late = some z := by simp only [late, hff]; exact hz
        have hhead : (sortBy (fun x => switchRank z x * 2 ^ 90 + x.key) ((t0 :: ts).filter (fun x => x.rank == f.rank))).head? = some v := by
          refine head?_sortBy (List.mem_filter.2 ⟨by rw [← hl]; exact hv, by simp [hrank]⟩) fun y hy => ?_
          obtain ⟨hy, hyr⟩ := List.mem_filter.1 hy
          exact hbest y (by rw [hl]; exact hy) (by simpa using hyr)
        simp only [t, hlt, hff, List.headD_eq_head?_getD, hhead, Option.getD_some]
    have hpick : pick = some i := by
      rcases hislet with hs | ⟨hs, hfree⟩
      · simp only [pick, ht, hs]
      · simp only [pick, ht, hs]
        exact hfree
    rw [hpick]
    dsimp -zeta only
    extract_lets s2 _ s3 s4
    have h1 : Within [.regs] s s1 := Within.ite (fun _ => count_within ..) fun _ => .refl
    have h3 : Within [.idx] s2 s3 := by
      simp only [s3]
      split
      · exact Within.set_idx (by decide) .refl
      · exact .refl
    refine ⟨s4, by rw [← ht], ?_, ?_, fun hset a => ?_⟩
    · rw [sch_chargeWait (g := SchedSt.tasks) (fun _ _ _ => rfl) (fun _ _ => rfl), h3.sch (by decide), (restoreFor_within ..).sch (by decide),
        tasks_switchTo, h1.sch (by decide)]
    · rw [(chargeWait_within ..).now (by decide), h3.now (by decide), (restoreFor_within ..).now (by decide), (switchTo_within ..).now (by decide), h1.now (by decide)]
    · rw [(chargeWait_within ..).byte (by decide), h3.byte (by decide), (restoreFor_within ..).byte (by decide), switchTo_of_settled t (by rwa [h1.gen (by decide)]), h1.byte (by decide)]

/-! ## The end of a task -/

section

variable {s : State} {islet : Nat} {v : Task} (hv : s.sch.tasks.find? (fun t => t.islet == some islet && !t.killing) = some v)

include hv

/-- A task whose inputs are gone gives its islet up (R310). -/
theorem exec_taskEnd_of_gap (hgap : s.stageGap v = true) : exec (.taskEnd islet) s = .next (s.yieldTask v (s.taskReady v)) := by
  refine congrArg Host.Outcome.next ?_
  simp only [hv, hgap, if_true]

/-- What the end of a task goes on with is what its kind publishes (R176, R181, R226, R230). -/
theorem exec_taskEnd_of_split {a : AttnRef} {n rb : Nat} (hk : v.kind = .split a n rb) : exec (.taskEnd islet) s = .next (s.endSplit v a n rb) := by
  refine congrArg Host.Outcome.next ?_
  simp only [hv, stageGap, hk, Bool.false_eq_true, if_false]

theorem exec_taskEnd_of_sample {slot e : Nat} (hk : v.kind = .sample slot e) :
    exec (.taskEnd islet) s = .next ((s.taskOver v).sampleDone slot e) := by
  refine congrArg Host.Outcome.next ?_
  simp only [hv, stageGap, hk, Bool.false_eq_true, if_false]

theorem exec_taskEnd_of_merge {a : AttnRef} (hk : v.kind = .merge a) : exec (.taskEnd islet) s = .next ((s.taskOver v).mergeDone a) := by
  refine congrArg Host.Outcome.next ?_
  simp only [hv, stageGap, hk, Bool.false_eq_true, if_false]

theorem exec_taskEnd_of_stage {slot i st layer ch c : Nat} {p : Piece} (hk : v.kind = .stage slot i st layer ch c) (hgap : s.stageGap v = false)
    (hp : ((s.taskOver v).cohort? slot).bind (fun k => k.pieces[i]?) = some p) :
    exec (.taskEnd islet) s = .next (if p.again.contains (st, layer, ch, c) then (s.taskOver v).redone slot i st layer ch c
      else if p.st = st ∧ p.layer = layer then (s.taskOver v).stageDone slot i ch c else s.taskOver v) := by
  refine congrArg Host.Outcome.next ?_
  simp only [hv, hgap, hk, hp, Bool.false_eq_true, if_false]

/-- The other kinds publish nothing here. -/
theorem exec_taskEnd_of_quiet (hk : v.kind = .probe ∨ v.kind = .backward ∨ (∃ r n, v.kind = .piece r n) ∨ (∃ b g, v.kind = .scan b g) ∨
    (∃ x h, v.kind = .moves x h)) : exec (.taskEnd islet) s = .next (s.taskOver v) := by
  refine congrArg Host.Outcome.next ?_
  rcases hk with hk | hk | ⟨r, n, hk⟩ | ⟨b, g, hk⟩ | ⟨x, h, hk⟩ <;> simp only [hv, stageGap, hk, Bool.false_eq_true, if_false]

end

theorem ids_taskOver (s : State) (v : Task) : ∀ x ∈ (s.taskOver v).sch.tasks, x.id ≠ v.id := fun x hx => by
  simpa using (List.mem_filter.1 hx).2

/-! ## Multicasts -/

/-- A count depends on the registers alone. -/
theorem regs_count_congr {s t : State} (h : t.regs = s.regs) (a n : Nat) : (t.count a n).regs = (s.count a n).regs := by
  unfold count
  rw [rd_congr h, rd_congr h]
  split
  · exact congrArg (fun r => mapPut _ _ _ r) h
  · exact h

section

variable {s : State} {snd rcv n slowest : Nat} {m m1 : Mcast}
  (hm : s.sch.mcasts.find? (fun m => m.sender == snd && m.attached.any (fun r => r.1 == rcv)) = some m)
  (hslow : slowest = ((m.attached.filter (fun r => r.1 != rcv)).map (fun r => r.2)).foldl min m.total)
  (hm1 : m1 = { m with recv := m.recv.map (fun r => if r.1 = rcv then (r.1, min (min m.total (slowest + 65536)) (r.2 + n)) else r) })

include hm hslow hm1

/-- An acknowledgement while every receiver keeps up (R270). -/
theorem exec_mcastAck_of_even (heven : ∀ r ∈ m1.attached, m1.fastest < r.2 + 65536) :
    exec (.mcastAck snd rcv n) s = .next { s with sch := { s.sch with
      mcasts := s.sch.mcasts.filterMap (fun x => if x = m then (if m1.attached.all (fun r => decide (r.2 ≥ m1.total)) then none
        else some m1) else some x) } } := by
  have hnone : m1.attached.filter (fun r => decide (r.2 + 65536 ≤ m1.fastest)) = [] :=
    List.filter_eq_nil_iff.2 fun r hr => by simpa using heven r hr
  refine congrArg Host.Outcome.next ?_
  simp -zeta only [hm]
  extract_lets sl y slow put m2 s1 s2
  have hy : y = m1 := by rw [hm1, hslow]
  have h2 : m2 = m1 := by simp only [m2, slow, hy, hnone]
  have hdet : ¬ m2.detached.length > m.detached.length := by simp [h2, hm1]
  rw [if_neg hdet]
  exact congrArg (put s) (funext fun x => by rw [h2])

/-- One receiver that has fallen behind is let go and counted (R270). -/
theorem exec_mcastAck_of_slow {r : Nat × Nat} (hone : m1.attached.filter (fun r => decide (r.2 + 65536 ≤ m1.fastest)) = [r])
    (hmore : m1.fastest < m1.total) (hw : m.weight = false) :
    ∃ t, exec (.mcastAck snd rcv n) s = .next t ∧
      t.rd Reg.schedMcastDetachCnt = (s.count Reg.schedMcastDetachCnt).rd Reg.schedMcastDetachCnt ∧
      ∀ x ∈ t.sch.mcasts, x ∈ s.sch.mcasts ∨ x = { m1 with detached := m1.detached ++ [r.1] } := by
  refine ⟨_, rfl, ?_⟩
  simp -zeta only [hm]
  extract_lets sl y slow put m2 s1 s2
  have hy : y = m1 := by rw [hm1, hslow]
  have h2 : m2 = { m1 with detached := m1.detached ++ [r.1] } := by simp only [m2, slow, hy, hone, if_pos hmore]
  have hdet : m2.detached.length > m.detached.length := by simp [h2, hm1]
  rw [if_pos hdet, hw, if_neg (by simp)]
  refine ⟨?_, fun x hx => ?_⟩
  · exact rd_congr (regs_count_congr (s := s) (t := s1) rfl _ _) _
  · rw [(count_within ..).sch (by decide)] at hx
    obtain ⟨z, hz, hzx⟩ := List.mem_filterMap.1 hx
    split at hzx
    · split at hzx
      · simp at hzx
      · exact .inr (by rw [← Option.some.inj hzx, h2])
    · exact .inl (Option.some.inj hzx ▸ hz)

end

end State

/-- Settles O43: dispatch, ageing, the end of a task by its kind, and acknowledgements of multicasts. -/
theorem tasksAreDispatchedAndEnd : Obligations.TasksAreDispatchedAndEnd := by
  unfold Obligations.TasksAreDispatchedAndEnd
  refine ⟨fun s island i f v hhuge hf hmin hlate hislet => State.exec_taskDispatch hhuge hf hmin hlate hislet, fun s island id v hv => ?_,
    fun s islet v hv => ⟨State.exec_taskEnd_of_gap hv, fun a n rb => State.exec_taskEnd_of_split hv, fun slot e => State.exec_taskEnd_of_sample hv,
      fun a => State.exec_taskEnd_of_merge hv, fun slot i st layer ch c p hk hgap hp => ?_, State.exec_taskEnd_of_quiet hv, s.ids_taskOver v⟩,
    fun s snd rcv n slowest m m1 hm hslow hm1 => ⟨State.exec_mcastAck_of_even hm hslow hm1, fun r => State.exec_mcastAck_of_slow hm hslow hm1⟩⟩
  · refine congrArg Host.Outcome.next ?_
    simp only [hv]
  · have hexec := State.exec_taskEnd_of_stage hv hk hgap hp
    refine ⟨fun hagain => ?_, fun hagain hst hl => ?_⟩
    · rw [hexec, if_pos hagain]
    · rw [hexec, if_neg (Bool.eq_false_iff.1 hagain), if_pos ⟨hst, hl⟩]

end Sys2Proof.Machine
end

section
/-! Lines, granules and stacks of T2, for the statements of chapters 10 and 16. -/

namespace Sys2Proof.Machine

/- The elaborator's threads each take a stack: one proof at a time keeps a text of this length within the memory limit. -/
set_option Elab.async false

/-- What `mapPut` writes is read back, where it is not the default. -/
theorem mapGet_mapPut_of_ne {α : Type} [DecidableEq α] {d v : α} (hv : v ≠ d) (k : Nat) (m : List (Nat × α)) : mapGet d k (mapPut d k v m) = v := by
  induction m with
  | nil => simp [mapPut, mapGet, hv]
  | cons e m ih =>
    obtain ⟨a, w⟩ := e
    unfold mapPut
    split
    · simp [mapGet]
    split
    · simp [mapGet]
    · simpa [mapGet, Ne.symm ‹¬k = a›] using ih

namespace State

/-! ## Traffic and updates of a stack -/

/-- What traffic does to the state of its stack, `late` saying that the period is over. -/
def carry (late : Prop) [Decidable late] (now f h by_ rd wr : Nat) (x : StackSt) : StackSt :=
  let y := if late then { x with late := x.late ++ [(now, f, h, rd, wr)] } else x.addPeriod f h rd wr
  { y with fb := mapPut 0 by_ (mapGet 0 by_ y.fb + rd + wr) y.fb }

theorem carry_keeps (late : Prop) [Decidable late] (now f h by_ rd wr : Nat) (x : StackSt) :
    (carry late now f h by_ rd wr x).bad = x.bad ∧ (carry late now f h by_ rd wr x).ces = x.ces ∧
      (carry late now f h by_ rd wr x).ues = x.ues := by
  unfold carry StackSt.addPeriod
  dsimp only
  split <;> exact ⟨rfl, rfl, rfl⟩

/-- Traffic leaves what a stack knows of its errors. -/
theorem stk_traffic (s : State) (k f h by_ rd wr : Nat) : ∃ add : StackSt → StackSt,
    (s.traffic k f h by_ rd wr).mm.stk = updAt k add s.mm.stk ∧ ∀ x, (add x).bad = x.bad ∧ (add x).ces = x.ces ∧ (add x).ues = x.ues := by
  refine ⟨carry (s.now ≥ s.mgmt.period + 1000000) s.now f h by_ rd wr, ?_, fun x => carry_keeps ..⟩
  unfold traffic
  rw [(charge_within ..).mm (by decide)]
  rfl

theorem bad_traffic (s : State) (k f h by_ rd wr j : Nat) :
    ((s.traffic k f h by_ rd wr).mm.stk[j]?).map StackSt.bad = (s.mm.stk[j]?).map StackSt.bad := by
  obtain ⟨add, hstk, hadd⟩ := s.stk_traffic k f h by_ rd wr
  rw [hstk]
  by_cases hj : j = k
  · rw [hj, getElem?_updAt_same, Option.map_map]
    exact congrArg (fun g => Option.map g _) (funext fun x => (hadd x).1)
  · rw [getElem?_updAt_other _ _ hj]

/-- Whether a line is bad is what its stack and the list of failed stacks say. -/
theorem lineBad_congr {s t : State} {k line : Nat} (hf : t.flt.failedStacks = s.flt.failedStacks)
    (hb : (t.mm.stk[k]?).map StackSt.bad = (s.mm.stk[k]?).map StackSt.bad) : t.lineBad k line = s.lineBad k line := by
  have hmap : ∀ u : State, ((u.mm.stk[k]?).map (fun x => x.bad.contains line)) = ((u.mm.stk[k]?).map StackSt.bad).map (fun b => b.contains line) :=
    fun u => by rw [Option.map_map]; rfl
  unfold lineBad
  rw [hf, hmap, hmap, hb]

theorem failedStacks_faultLog (s : State) (typ inst cls action func addr : Nat) :
    (s.faultLog typ inst cls action func addr).flt.failedStacks = s.flt.failedStacks := by
  obtain ⟨log, seq, h⟩ := s.flt_faultLog typ inst cls action func addr
  rw [h]

/-! ## Rebuilds -/

/-- The state in which a rebuilt line is no longer among its stack's bad lines. -/
theorem exec_lineRebuild {s : State} {k line : Nat} (hbad : s.lineBad k line = true) (hreb : s.lineRebuilds k line = true)
    (hok : s.flt.failedStacks.contains k = false) :
    ∃ t, exec (.lineRebuild k line true) s = .next t ∧ t.lineBad k line = false ∧ (∀ j, j ≠ line → t.lineBad k j = s.lineBad k j) ∧
      ∀ a, t.byte a = s.byte a := by
  refine ⟨_, rfl, ?_⟩
  rw [if_neg (by simp [hbad]), if_pos (by simp [hreb])]
  extract_lets s0 s1
  have h1 : Within [.regs, .fresh] s1 (((s1.count (Reg.dramcRebuildCnt k)).count Reg.memRebuildEv).stallUs Reg.memRebuildUs) :=
    Within.andThen (stallUs_within ..) (by decide) (Within.andThen (count_within ..) (by decide) ((count_within ..).mono (by decide)))
  have hbads : (s1.mm.stk[k]?).map StackSt.bad = (s0.mm.stk[k]?).map StackSt.bad := by
    refine foldl_keeps (g := fun s => (s.mm.stk[k]?).map StackSt.bad) (fun u j => ?_) _ _
    dsimp only
    split <;> exact bad_traffic ..
  have hline : ∀ j, ((((s1.count (Reg.dramcRebuildCnt k)).count Reg.memRebuildEv).stallUs Reg.memRebuildUs).faultLog 0x18 k 0x03 3
      (s.granFunc k (line / 1024)) (t2Addr k (line * 64))).lineBad k j = s0.lineBad k j := fun j => by
    refine lineBad_congr ?_ ?_
    · rw [failedStacks_faultLog, h1.flt (by decide), (rebuildTraffic_within ..).flt (by decide)]
    · rw [(faultLog_within ..).mm (by decide), h1.mm (by decide), hbads]
  have hs0 : ∀ j, s0.lineBad k j = ((s.mm.stk[k]?).map (fun x => (x.bad.filter (fun l => l != line)).contains j)).getD false := fun j => by
    unfold lineBad
    change (s.flt.failedStacks.contains k || (((updAt k _ s.mm.stk)[k]?).map _).getD false) = _
    rw [hok, getElem?_updAt_same, Option.map_map]
    rfl
  refine ⟨?_, fun j hj => ?_, fun a => ?_⟩
  · rw [hline, hs0]
    cases s.mm.stk[k]? <;> simp
  · rw [hline, hs0]
    unfold lineBad
    rw [hok]
    cases s.mm.stk[k]? <;> simp [hj]
  · rw [(faultLog_within ..).byte (by decide), h1.byte (by decide), (rebuildTraffic_within ..).byte (by decide)]
    rfl

/-! ## Scrub reads -/

theorem exec_scrub_corrected {s : State} {k line : Nat} {x : StackSt} (hp : s.powered = true) (hok : s.flt.failedStacks.contains k = false)
    (hx : s.mm.stk[k]? = some x) (hl : line ≠ 0) :
    ∃ t y, exec (.dramScrubRead k line .corrected) s = .next t ∧ t.mm.stk[k]? = some y ∧
      mapGet 0 (line / 1024) y.ces = mapGet 0 (line / 1024) x.ces + 1 ∧ y.bad = x.bad ∧
      (bits (s.rd (Reg.dramcScrubCfg k)) 15 8 ≤ mapGet 0 (line / 1024) x.ces + 1 → line / 1024 ∈ y.ues) ∧ ∀ a, t.byte a = s.byte a := by
  obtain ⟨add, hstk, hadd⟩ := s.stk_traffic k 16 0 16 64 0
  obtain ⟨hbad, hces, hues⟩ := hadd x
  have hk : (s.traffic k 16 0 16 64 0).mm.stk[k]? = some (add x) := by rw [hstk, getElem?_updAt_same, hx]; rfl
  have hon : ¬((!s.powered || s.flt.failedStacks.contains k) = true) := by rw [hp, hok]; simp
  suffices h : ∃ y, (∃ t, exec (.dramScrubRead k line .corrected) s = .next t ∧ t.mm.stk[k]? = some y ∧ ∀ a, t.byte a = s.byte a) ∧
      mapGet 0 (line / 1024) y.ces = mapGet 0 (line / 1024) x.ces + 1 ∧ y.bad = x.bad ∧
      (bits (s.rd (Reg.dramcScrubCfg k)) 15 8 ≤ mapGet 0 (line / 1024) x.ces + 1 → line / 1024 ∈ y.ues) by
    obtain ⟨y, ⟨t, hexec, hy, hbytes⟩, hce, hb, hue⟩ := h
    exact ⟨t, y, hexec, hy, hce, hb, hue, hbytes⟩
  refine ⟨{ add x with
    ces := mapPut 0 (line / 1024) (mapGet 0 (line / 1024) x.ces + 1) x.ces
    ues := if mapGet 0 (line / 1024) x.ces + 1 ≥ bits (s.rd (Reg.dramcScrubCfg k)) 15 8 then addOnce (line / 1024) x.ues else x.ues },
    ⟨_, rfl, ?_, fun a => ?_⟩, mapGet_mapPut_of_ne (Nat.succ_ne_zero _) _ _, hbad, fun hn => ?_⟩
  · rw [if_neg hon, (faultLog_within ..).mm (by decide), (count_within ..).mm (by decide)]
    simp only [if_neg hl]
    refine (getElem?_updAt_same ..).trans ?_
    rw [hk, Option.map_some, Option.map_some, Option.getD_some, hces, hues]
  · rw [if_neg hon, (faultLog_within ..).byte (by decide), (count_within ..).byte (by decide), (updStack_within ..).byte (by decide), if_neg hl,
      (traffic_within ..).byte (by decide)]
  · exact (if_pos hn).symm ▸ mem_addOnce_self ..

theorem exec_scrub_uncorrectable {s : State} {k line : Nat} (hp : s.powered = true) (hok : s.flt.failedStacks.contains k = false)
    (hk : k < s.mm.stk.length) :
    ∃ t, exec (.dramScrubRead k line .uncorrectable) s = .next t ∧ t.lineBad k line = true ∧
      (∀ x, t.mm.stk[k]? = some x → line / 1024 ∈ x.ues) ∧ ∀ a, t.byte a = s.byte a := by
  have hon : ¬((!s.powered || s.flt.failedStacks.contains k) = true) := by rw [hp, hok]; simp
  refine ⟨_, rfl, ?_⟩
  rw [if_neg hon]
  dsimp -zeta only
  extract_lets g sc s0 s1
  obtain ⟨x, hx⟩ : ∃ x, s0.mm.stk[k]? = some x := by
    obtain ⟨add, hstk, -⟩ := s.stk_traffic k 16 0 16 64 0
    have hsc : sc.mm.stk[k]? = some (add s.mm.stk[k]) := by
      rw [show sc.mm.stk = _ from hstk, getElem?_updAt_same, List.getElem?_eq_getElem hk, Option.map_some]
    simp only [s0]
    split
    · exact ⟨_, (getElem?_updAt_same ..).trans (congrArg (Option.map _) hsc)⟩
    · exact ⟨_, hsc⟩
  have hs1 : s1.mm.stk[k]? = some { x with bad := addOnce line x.bad, ues := addOnce g x.ues } :=
    (getElem?_updAt_same ..).trans (congrArg (Option.map _) hx)
  have hmm : ((s1.count (Reg.dramcUeCnt k)).faultLog 0x18 k 0x02 5 (s.granFunc k g) (t2Addr k (line * 64))).mm = s1.mm := by
    rw [(faultLog_within ..).mm (by decide), (count_within ..).mm (by decide)]
  refine ⟨?_, fun y hy => ?_, fun a => ?_⟩
  · unfold lineBad
    rw [hmm, hs1]
    simp [mem_addOnce_self]
  · rw [hmm, hs1] at hy
    exact Option.some.inj hy ▸ mem_addOnce_self ..
  · have h0 : s0.byte a = s.byte a := by
      simp only [s0]
      split
      · rw [(updStack_within ..).byte (by decide), (traffic_within ..).byte (by decide)]
      · exact (traffic_within ..).byte (by decide) a
    rw [(faultLog_within ..).byte (by decide), (count_within ..).byte (by decide), (updStack_within ..).byte (by decide), h0]

/-! ## Retirement -/

theorem mem_retired_retireGran (s : State) (k g : Nat) : (k, g) ∈ (s.retireGran k g).mm.retired := by
  unfold retireGran
  rw [(faultLog_within ..).mm (by decide)]
  exact List.mem_append_right _ (List.mem_singleton.2 rfl)

section

variable {s : State} {k g : Nat} {x : StackSt} (hx : s.mm.stk[k]? = some x) (hue : g ∈ x.ues) (hnew : (k, g) ∉ s.mm.retired)
  (hclass : s.inClass k true g = true ∨ s.inClass k false g = true)

include hx hue hnew hclass

/-- A granule with a cause is retired at once where it is free, replaced where it is used, and otherwise put off (R253, R254). -/
theorem exec_granuleRetire : exec (.granuleRetire k g) s = .next (if s.granUsed k g = false then s.retireGran k g
    else match s.takeGrans k (s.inClass k true g) 1 with
      | some u => u.2.retireTo k g (u.1.headD 0)
      | none => (s.count (Reg.dramcRetireDeferCnt k)).updStack k (fun y => { y with deferred := addOnce g y.deferred })) := by
  refine congrArg Host.Outcome.next ?_
  have hcl : (s.inClass k true g || s.inClass k false g) = true := by simpa using hclass
  have hgo : (!((s.mm.stk[k]?).map (fun x => x.ues.contains g)).getD false || s.mm.retired.contains (k, g)) = false := by
    simp [hx, hue, hnew]
  unfold onGranuleRetire
  rw [hgo, if_neg (by simp), hcl]
  cases s.granUsed k g <;> rfl

end

/-! ## The thermal loop of a stack -/

/-- A stack's state after its thermal tick (R274). -/
def ticked (x : StackSt) (temp now cap : Nat) : StackSt :=
  let n := if temp ≥ 95 then max 8 (x.nTherm - 4) else if temp < 92 ∧ x.nTherm < cap then min cap (x.nTherm + 2) else x.nTherm
  { x with
    temp := temp, lastTick := now, nTherm := n
    refresh2x := if temp ≥ 85 then true else if temp < 82 then false else x.refresh2x
    throttle := decide (temp ≥ 95) || (x.throttle && decide (n < cap)) }

/-- The cap of a stack moves by its temperature: down by four from 95 °C on, up by two below 92 °C while it is under n_cap (R274). -/
theorem nTherm_ticked (x : StackSt) (temp now cap : Nat) :
    (95 ≤ temp → (ticked x temp now cap).nTherm = max 8 (x.nTherm - 4) ∧ (ticked x temp now cap).throttle = true) ∧
      (92 ≤ temp → temp < 95 → (ticked x temp now cap).nTherm = x.nTherm) ∧
      (temp < 92 → x.nTherm < cap → (ticked x temp now cap).nTherm = min cap (x.nTherm + 2)) ∧
      (temp < 92 → cap ≤ x.nTherm → (ticked x temp now cap).nTherm = x.nTherm) := by
  unfold ticked
  dsimp only
  refine ⟨fun h => ⟨if_pos h, by simp [h]⟩, fun h1 h2 => ?_, fun h1 h2 => ?_, fun h1 h2 => ?_⟩
  · rw [if_neg (by omega), if_neg (by omega)]
  · rw [if_neg (by omega), if_pos ⟨h1, h2⟩]
  · rw [if_neg (by omega), if_neg (by omega)]

/-- The refresh rate follows the temperature with a hysteresis (R274). -/
theorem refresh2x_ticked (x : StackSt) (temp now cap : Nat) :
    (85 ≤ temp → (ticked x temp now cap).refresh2x = true) ∧ (temp < 82 → (ticked x temp now cap).refresh2x = false) ∧
      (82 ≤ temp → temp < 85 → (ticked x temp now cap).refresh2x = x.refresh2x) := by
  unfold ticked
  dsimp only
  refine ⟨fun h => if_pos h, fun h => ?_, fun h1 h2 => ?_⟩
  · rw [if_neg (by omega), if_pos h]
  · rw [if_neg (by omega), if_neg (by omega)]

/-- A stack's thermal tick, its millisecond over. -/
def tickStack (s : State) (k temp cap : Nat) (x : StackSt) : State :=
  let t := s.updStack k (fun _ => ticked x temp s.now cap)
  if decide (temp ≥ 95) && !x.throttle then t.count (Reg.dramcThrottleCnt k) else t

theorem tickStack_sets {s : State} {k temp cap : Nat} {x : StackSt} (hx : s.mm.stk[k]? = some x) :
    (s.tickStack k temp cap x).mm.stk[k]? = some (ticked x temp (s.tickStack k temp cap x).now cap) ∧
      ∀ a, (s.tickStack k temp cap x).byte a = s.byte a := by
  have hw : Within [.regs] (s.updStack k (fun _ => ticked x temp s.now cap)) (s.tickStack k temp cap x) :=
    Within.ite (fun _ => count_within ..) fun _ => .refl
  refine ⟨?_, fun a => ?_⟩
  · rw [hw.mm (by decide), hw.now (by decide)]
    refine (getElem?_updAt_same ..).trans ?_
    rw [hx]
    rfl
  · rw [hw.byte (by decide), (updStack_within ..).byte (by decide)]

/-- A thermal tick waits for its millisecond and sets the stack's state. -/
theorem exec_stackThermalTick {s : State} {k temp : Nat} {x : StackSt} (hp : s.powered = true) (hx : s.mm.stk[k]? = some x) :
    ∃ t, exec (.stackThermalTick k temp) s = .next t ∧ t.mm.stk[k]? = some (ticked x temp t.now s.pwr.nCap) ∧ ∀ a, t.byte a = s.byte a := by
  have hexec : exec (.stackThermalTick k temp) s = .next ((s.elapseTo (x.lastTick + 1000000)).tickStack k temp s.pwr.nCap x) := by
    show execStackThermalTick k temp s = _
    unfold execStackThermalTick
    rw [hp, if_neg (by simp), hx]
    rfl
  obtain ⟨hstk, hbyte⟩ := tickStack_sets (temp := temp) (cap := s.pwr.nCap)
    (((congrArg (fun m => m.stk[k]?) ((elapseTo_within s (x.lastTick + 1000000)).mm (by decide))).trans hx))
  exact ⟨_, hexec, hstk, fun a => (hbyte a).trans ((elapseTo_within ..).byte (by decide) a)⟩

end State

/-- Settles O45, row by row. -/
theorem linesGranulesAndStacks : Obligations.LinesGranulesAndStacks := by
  unfold Obligations.LinesGranulesAndStacks
  refine ⟨fun s k line hbad hreb hok => State.exec_lineRebuild hbad hreb hok, fun s k line hbad => ?_, fun s k line hp hok hl => ?_,
    fun s k line x hp hok hx hl => State.exec_scrub_corrected hp hok hx hl, fun s k line hp hok hk => State.exec_scrub_uncorrectable hp hok hk,
    fun s k g x hx hue hnew hclass => ?_, fun s k temp x hp hx => ?_, fun s k line l x d hl hx hd => ⟨fun hsent => ?_, fun hsent hread => ?_⟩,
    fun s f tag l hlive hst => ?_⟩
  · refine congrArg Host.Outcome.next ?_
    rw [if_neg (by simp [hbad]), if_neg (by simp)]
  · refine congrArg Host.Outcome.next ?_
    rw [if_neg (by rw [hp, hok]; simp)]
    simp only [if_neg hl]
  · have hexec := State.exec_granuleRetire hx hue hnew hclass
    refine ⟨fun hused => ⟨?_, State.mem_retired_retireGran ..⟩, fun gs u hused htake => ⟨?_, State.mem_retired_retireGran ..⟩, fun hused htake => ?_⟩
    · rw [hexec, if_pos hused]
    · rw [hexec, if_neg (by simp [hused]), htake]
    · rw [hexec, if_neg (by simp [hused]), htake]
  · obtain ⟨t, hexec, hy, hbytes⟩ := State.exec_stackThermalTick (temp := temp) hp hx
    obtain ⟨h1, h2, h3, h4⟩ := State.nTherm_ticked x temp t.now s.pwr.nCap
    obtain ⟨h5, h6, h7⟩ := State.refresh2x_ticked x temp t.now s.pwr.nCap
    exact ⟨t, _, hexec, hy, rfl, rfl, h1, h2, h3, h4, h5, h6, h7, hbytes⟩
  · subst hl
    refine congrArg Host.Outcome.next ?_
    simp only [hx, hd, hsent, Bool.not_true, Bool.false_and, Bool.false_eq_true, if_false]
  · subst hl
    have hall : (!s.sentBefore x d && d.srcRows.all (fun (r : Nat × Nat) => s.devReadable r.1 r.2)) = true := by
      simpa [hsent] using fun a b h => hread (a, b) h
    refine ⟨_, rfl, ?_⟩
    simp only [hx, hd, hall, if_true]
    exact List.mem_append_right _ (List.mem_singleton.2 rfl)
  · refine congrArg Host.Outcome.next ?_
    simp only [hlive, hst, true_and]

end Sys2Proof.Machine
end

section
/-! Ferry slots and their generations, for the statements of chapter 10. -/

namespace Sys2Proof.Machine

/- The elaborator's threads each take a stack: one proof at a time keeps a text of this length within the memory limit. -/
set_option Elab.async false

namespace State

/-! ## Slots -/

theorem island_slot (s : State) (i k : Nat) : (s.slot i k).island = i ∧ (s.slot i k).slot = k := by
  unfold slot
  cases h : s.mm.slots.find? (fun x => x.island == i && x.slot == k) with
  | none => exact ⟨rfl, rfl⟩
  | some x => simpa using List.find?_some h

theorem slot_congr {s t : State} (h : t.mm.slots = s.mm.slots) (i k : Nat) : t.slot i k = s.slot i k := by
  unfold slot
  rw [h]

theorem slot_putSlot_same (s : State) (x : SlotSt) : (s.putSlot x).slot x.island x.slot = x := by
  unfold slot putSlot
  rw [List.find?_append, List.find?_eq_none.2 (by simp only [List.mem_filter]; rintro y ⟨-, hy⟩; simpa [imp_iff_not_or] using hy)]
  simp

theorem slot_putSlot_other (s : State) {x : SlotSt} {i k : Nat} (h : (i, k) ≠ (x.island, x.slot)) : (s.putSlot x).slot i k = s.slot i k := by
  have hx : (x.island == i && x.slot == k) = false := by
    rw [Bool.and_eq_false_iff, beq_eq_false_iff_ne, beq_eq_false_iff_ne, ← not_and_or]
    exact fun hh => h (by rw [hh.1, hh.2])
  unfold slot putSlot
  rw [List.find?_append, List.find?_filter]
  simp only [List.find?_cons, hx, List.find?_nil, Option.or_none]
  congr 2
  funext y
  by_cases hy : (y.island == i && y.slot == k) = true
  · obtain ⟨rfl, rfl⟩ : y.island = i ∧ y.slot = k := by simpa using hy
    have : (y.island == x.island && y.slot == x.slot) = false := by
      simpa [Prod.ext_iff, beq_eq_false_iff_ne, not_and] using h
    simp [this]
  · simp [Bool.eq_false_iff.2 hy]

theorem byte_putSlot (s : State) (x : SlotSt) (a : Nat) : (s.putSlot x).byte a = s.byte a := rfl

/-! ## Arming -/

/-- Writing a descriptor arms nothing. -/
theorem writeDesc_keeps (s : State) (i k : Nat) (d : FerryDesc) :
    (s.writeDesc i k d).mm.armSeq = s.mm.armSeq ∧
    (∀ a b, (a, b) ≠ (i, k) → (s.writeDesc i k d).slot a b = s.slot a b) ∧
    ∃ e, (s.writeDesc i k d).slot i k = { s.slot i k with desc := e } ∧ (k < 56 → e = d) := by
  obtain ⟨hi, hk⟩ := s.island_slot i k
  unfold writeDesc
  split
  next h56 =>
    have hmm : ∀ l : List Nat, (l.foldl (fun s k' =>
        let a := Reg.ferrySlotDesc i ((k - 56) * 16 + k')
        if k' = 4 ∧ (d.len = 0 ∨ d.len > 2 ^ 30) then s.regWriteErr a
        else s.wr a (bits d.word (32 * k' + 31) (32 * k') &&& descMask k')) s).mm = s.mm := fun l =>
      foldl_keeps (g := State.mm) (fun u k' => by
        dsimp only
        split
        · exact (regWriteErr_within ..).mm (by decide)
        · rfl) l s
    refine ⟨congrArg MemSt.armSeq (hmm _), fun a b _ => slot_congr (congrArg MemSt.slots (hmm _)) a b, (s.slot i k).desc, ?_, fun h => absurd h56 (by omega)⟩
    exact slot_congr (congrArg MemSt.slots (hmm _)) i k
  next =>
    refine ⟨rfl, fun a b hab => s.slot_putSlot_other (by rwa [hi, hk]), d, ?_, fun _ => rfl⟩
    have h := s.slot_putSlot_same { s.slot i k with desc := d }
    rwa [hi, hk] at h

/-- Reserving the frame of a relocation touches no slot. -/
theorem mm_setPage {β : Type} {g : MemSt → β} (hg : ∀ m k, g { m with stk := k } = g m) (s : State) (c : KvCtx) (p : PageRef) (f : Nat → Nat) :
    g (s.setPage c p f).mm = g s.mm := by
  unfold setPage
  split
  · exact mm_hPut hg ..
  · rfl

theorem relocArm_keeps {s u : State} {d : FerryDesc} (h : s.relocArm d = some u) :
    u.mm.armSeq = s.mm.armSeq ∧ u.mm.slots = s.mm.slots := by
  unfold relocArm at h
  split at h
  · obtain rfl := Option.some.inj h
    exact ⟨rfl, rfl⟩
  extract_lets w m s1 at h
  split at h
  · exact (Option.some_ne_none u h.symm).elim
  obtain rfl := Option.some.inj h
  have harm : s1.mm.armSeq = s.mm.armSeq := mm_setPage (g := MemSt.armSeq) (fun _ _ => rfl) (s.updKv _ _) _ _ _
  have hslots : s1.mm.slots = s.mm.slots := mm_setPage (g := MemSt.slots) (fun _ _ => rfl) (s.updKv _ _) _ _ _
  clear_value s1
  exact ⟨harm, hslots⟩

/-- Arming takes the next place in the order; an idle slot gets the descriptor as its work, a busy one as its pending one. -/
theorem armWith_keeps (s : State) (i k : Nat) (d : FerryDesc) :
    (s.armWith i k d).mm.armSeq = s.mm.armSeq + 1 ∧
    (∀ a b, (a, b) ≠ (i, k) → (s.armWith i k d).slot a b = s.slot a b) ∧
    ((s.slot i k).work = none → (s.armWith i k d).slot i k = { s.slot i k with
      work := some d, order := s.mm.armSeq + 1, gen := ((s.slot i k).gen + 1) % 65536, started := false, merged := false, waited := false, acked := [] }) ∧
    ((s.slot i k).work ≠ none → (s.armWith i k d).slot i k = { s.slot i k with pend := some d, pOrder := s.mm.armSeq + 1 }) := by
  obtain ⟨hi, hk⟩ := s.island_slot i k
  have hput : ∀ x : SlotSt, x.island = (s.slot i k).island → x.slot = (s.slot i k).slot →
      (∀ a b, (a, b) ≠ (i, k) → (({ s with mm := { s.mm with armSeq := s.mm.armSeq + 1 } } : State).putSlot x).slot a b = s.slot a b) ∧
      (({ s with mm := { s.mm with armSeq := s.mm.armSeq + 1 } } : State).putSlot x).slot i k = x := by
    intro x hx hy
    rw [hi] at hx
    rw [hk] at hy
    subst hx hy
    exact ⟨fun a b hab => slot_putSlot_other _ hab, slot_putSlot_same _ x⟩
  unfold armWith
  extract_lets x n _ s1 s2
  split
  next hw =>
    have hn : (s.slot i k).work = none := by simpa [x] using hw
    exact ⟨rfl, (hput { x with work := some d, order := n, gen := (x.gen + 1) % 65536, started := false, merged := false, waited := false, acked := [] }
      rfl rfl).1, fun _ => (hput { x with
      work := some d, order := n, gen := (x.gen + 1) % 65536, started := false, merged := false, waited := false, acked := [] } rfl rfl).2,
      fun h => absurd hn h⟩
  next hw =>
    have hn : (s.slot i k).work ≠ none := by simpa [x] using hw
    have hs2 : (∀ a b, (a, b) ≠ (i, k) → s2.slot a b = s.slot a b) ∧ s2.slot i k = { x with pend := some d, pOrder := n } :=
      hput { x with pend := some d, pOrder := n } rfl rfl
    have hif : (if x.pend.isSome = true then s2.count (Reg.ferryRearmOverwriteCnt i) else s2).mm = s2.mm := by
      split
      · exact (count_within ..).mm (by decide)
      · rfl
    refine ⟨by rw [hif]; rfl, fun a b hab => ?_, fun h => absurd h hn, fun _ => ?_⟩
    · rw [slot_congr (congrArg MemSt.slots hif)]
      exact hs2.1 a b hab
    · rw [slot_congr (congrArg MemSt.slots hif)]
      exact hs2.2

theorem slotDesc_writeDesc (s : State) {i k : Nat} (hk : k < 56) (d : FerryDesc) : (s.writeDesc i k d).slotDesc i k = d := by
  obtain ⟨-, -, e, he, hed⟩ := s.writeDesc_keeps i k d
  unfold slotDesc
  rw [if_neg (by omega), he]
  exact hed hk

/-- The arming of a slot of an island that serves. -/
theorem exec_ferryArm {s : State} {i k : Nat} {d : FerryDesc} (hp : s.powered = true) (hi : i < 512) (hk : k < 64)
    (hf : s.flt.islands.contains i = false) : exec (.ferryArm i k d) s = .next ((s.writeDesc i k d).arm i k) := by
  show execFerryArm i k d s = _
  unfold execFerryArm
  rw [hp, hf, decide_eq_true hi, decide_eq_true hk]
  rfl

/-! ## Ends of generations -/

theorem slot_pruneFwds (s : State) (i k : Nat) : s.pruneFwds.slot i k = s.slot i k := rfl

theorem slot_stopGen (s : State) (x : SlotSt) (c : FerryCode) :
    ((s.stopGen x c).slot x.island x.slot).code = c ∧ ((s.stopGen x c).slot x.island x.slot).err = true ∧
    ∀ a, (s.stopGen x c).byte a = s.byte a := by
  have h : ∀ u : State, u.mm = (s.endGen x (some c)).mm → (u.pruneFwds.slot x.island x.slot).code = c ∧ (u.pruneFwds.slot x.island x.slot).err = true := by
    intro u hu
    rw [slot_pruneFwds, slot_congr (congrArg MemSt.slots hu)]
    unfold endGen
    have hs := s.slot_putSlot_same { x with
      work := x.pend, pend := none, order := x.pOrder, started := false, sent := 0, merged := false, waited := false, acked := []
      gen := if x.pend.isSome then (x.gen + 1) % 65536 else x.gen
      code := (some c).getD x.code, err := (some c).isSome }
    rw [hs]
    exact ⟨rfl, rfl⟩
  have hc : (if c = .access then (s.endGen x (some c)).count (Reg.ferryAccessErrCnt x.island) else s.endGen x (some c)).mm =
      (s.endGen x (some c)).mm := by
    split
    · exact (count_within ..).mm (by decide)
    · rfl
  refine ⟨?_, ?_, fun a => (stopGen_within s x c).byte (by decide) a⟩
  all_goals
    unfold stopGen
    dsimp only
  · exact (h _ hc).1
  · exact (h _ hc).2

/-- A copy of rows of no bytes copies nothing, whatever its number. -/
theorem ferryCopy_of_len_zero (s : State) (i order : Nat) {d : FerryDesc} (h : d.len = 0) (n m : Nat) :
    s.ferryCopy i order d n = s.ferryCopy i order d m := by
  unfold ferryCopy
  simp only [h, Nat.zero_min]

/-- Arming an idle or a busy slot, once its descriptor is written and a relocation's frame is reserved. -/
theorem ferryArm_arms {s u : State} {i k : Nat} {d : FerryDesc} (hp : s.powered = true) (hi : i < 512) (hk : k < 64)
    (hf : s.flt.islands.contains i = false)
    (hu : (if 56 ≤ k then (s.writeDesc i k d).relocArm ((s.writeDesc i k d).slotDesc i k) else some (s.writeDesc i k d)) = some u) :
    exec (.ferryArm i k d) s = .next (u.armWith i k ((s.writeDesc i k d).slotDesc i k)) ∧
    u.mm.armSeq = s.mm.armSeq ∧ (∀ a b, (a, b) ≠ (i, k) → u.slot a b = s.slot a b) ∧
    ∃ e, u.slot i k = { s.slot i k with desc := e } ∧ (k < 56 → e = d) := by
  obtain ⟨hseq, hother, e, he, hed⟩ := s.writeDesc_keeps i k d
  have hkeeps : u.mm.armSeq = (s.writeDesc i k d).mm.armSeq ∧ u.mm.slots = (s.writeDesc i k d).mm.slots := by
    split at hu
    · exact relocArm_keeps hu
    · rw [Option.some.inj hu]
      exact ⟨rfl, rfl⟩
  refine ⟨?_, hkeeps.1.trans hseq, fun a b hab => (slot_congr hkeeps.2 a b).trans (hother a b hab), e, (slot_congr hkeeps.2 i k).trans he, hed⟩
  rw [exec_ferryArm hp hi hk hf]
  unfold arm
  dsimp only
  rw [show (if k ≥ 56 then (s.writeDesc i k d).relocArm ((s.writeDesc i k d).slotDesc i k) else some (s.writeDesc i k d)) = some u from hu]

/-- A generation of a slot ends where its rows could be copied: what `exec` does once no read of flash is under way. -/
theorem exec_ferryGenerationDone {s : State} {i k : Nat} {d : FerryDesc} {ok : Bool} (hw : (s.slot i k).work = some d)
    (hs : (s.slot i k).started = true) (hm : s.mergeWaits (s.slot i k) d = false) (hb : s.sentBefore (s.slot i k) d = false)
    (hr : ∀ n ∈ readUnits d, (∀ r ∈ s.fl.reads, r.unit ≠ n) ∧ n ∉ s.fl.rebuilding) :
    exec (.ferryGenerationDone i k ok) s = .next (
      if s.ferryLocked i d then s.lockWait (s.slot i k)
      else if !(ok && d.srcRows.all (fun (r : Nat × Nat) => s.devReadable r.1 r.2)) then
        (({ s with fresh := s.fresh + 1 } : State).ferryCopy i (s.slot i k).order d (Config.pick s.fresh % d.bytes)).stopGen (s.slot i k) .unreadable
      else if (s.ferryUnits i d).any (fun u => s.fl.writes.any (fun w => w.unit == u)) ||
          (s.parityLines i d).any (fun l => !(s.slot i k).acked.contains l) ||
          (d.mode == 1 && s.sch.mcasts.any (fun m => m.sender == i && !m.weight)) then s
      else
        let s0 := (s.forwardedUnits (s.slot i k) d).foldl (fun s u => s.mapUnit u.2 u.1)
          ((s.ferryCopy i (s.slot i k).order d d.bytes).ferryTraffic i d)
        let s1 := (s0.endGen (s.slot i k) none).ferryStall d
        let s2 := if d.irq then s1.irq (pageBase (Reg.ferryMergeCnt i)) 0 else s1
        (if d.chain then s2.arm i d.next else s2).pruneFwds) := by
  have hreads : (readUnits d).any (fun u => s.fl.reads.any (fun r => r.unit == u) || s.fl.rebuilding.contains u) = false := by
    rw [List.any_eq_false]
    intro n hn
    obtain ⟨h1, h2⟩ := hr n hn
    simpa [h2] using h1
  show execFerryGenerationDone i k ok s = _
  unfold execFerryGenerationDone
  dsimp only
  rw [hw]
  dsimp only
  rw [hs, hm, hb, hreads]
  rfl

end State

/-- Settles O46: what each event of a ferry slot leaves, from `writeDesc_keeps`, `armWith_keeps` and `slot_stopGen`. -/
theorem ferriesArmRunAndEnd : Obligations.FerriesArmRunAndEnd := by
  unfold Obligations.FerriesArmRunAndEnd
  refine ⟨?_, ?_, ?_, ?_⟩
  case refine_1 =>
    rintro s w u i k d e hp hi hk hf rfl rfl hu
    obtain ⟨hexec, hseq, hother, e, he, hed⟩ := State.ferryArm_arms hp hi hk hf hu
    obtain ⟨haseq, haother, hidle, hbusy⟩ := u.armWith_keeps i k ((s.writeDesc i k d).slotDesc i k)
    rw [he] at hidle hbusy
    rw [hseq] at haseq hidle hbusy
    refine ⟨_, hexec, haseq, (State.armWith_within ..).kv (by decide), fun h => s.slotDesc_writeDesc h d, fun h => ?_, fun h => ?_, fun h => ?_,
      fun a b hab => (haother a b hab).trans (hother a b hab), fun a => (State.armWith_within ..).byte (by decide) a⟩
    · rw [hidle h]
      exact ⟨rfl, rfl, rfl⟩
    · rw [hbusy h]
      exact ⟨rfl, rfl⟩
    · by_cases hwork : (s.slot i k).work = none
      · rw [hidle hwork]
        exact hed h
      · rw [hbusy hwork]
        exact hed h
  case refine_2 =>
    rintro s w i k d hp hi h56 hk hf rfl hnone
    rw [State.exec_ferryArm hp hi hk hf]
    unfold State.arm
    dsimp only
    rw [if_pos h56, hnone]
  case refine_3 =>
    intro s i x xs d hp harmed hw hfew hearly
    have hexec : exec (.ferryGenerationStart i) s = .next (match s.ferryStop x d with
        | some c => s.stopGen x c
        | none =>
          if s.ferryBlocked i d then s
          else if s.ferryLocked i d then s.lockWait x
          else State.mergeGens i 64 d d.len (s.runGen x d false)) := by
      show execFerryGenerationStart i s = _
      unfold execFerryGenerationStart
      rw [hp, harmed]
      rw [if_neg (by simp)]
      dsimp only
      rw [hw]
      dsimp only
      exact congrArg Host.Outcome.next (if_neg (by simp [hearly, hfew]))
    rw [hexec]
    refine ⟨fun c hc => ?_, fun hstop hb hl => ?_, fun hstop hb hl => ?_⟩
    · rw [hc]
      obtain ⟨hcode, herr, hbyte⟩ := s.slot_stopGen x c
      exact ⟨_, rfl, rfl, hcode, herr, hbyte⟩
    · rw [hstop, hb, hl]
      rfl
    · rw [hstop, hb, hl]
      rfl
  case refine_4 =>
    rintro s u i k x d rfl hw hs hm hb hr
    refine ⟨fun hl ok => ?_, fun hl => ?_, ?_⟩
    · rw [State.exec_ferryGenerationDone hw hs hm hb hr, hl]
      rfl
    · rw [State.exec_ferryGenerationDone hw hs hm hb hr, hl]
      by_cases hz : d.bytes = 0
      · have hlen : d.len = 0 := by
          unfold FerryDesc.bytes at hz
          exact (Nat.mul_eq_zero.1 hz).resolve_left (by omega)
        refine ⟨0, Nat.zero_le _, ?_⟩
        rw [State.ferryCopy_of_len_zero _ i _ hlen 0 (Config.pick s.fresh % d.bytes)]
        rfl
      · exact ⟨Config.pick s.fresh % d.bytes, (Nat.mod_lt _ (Nat.pos_of_ne_zero hz)).le, rfl⟩
    · intro hl hread hwr hack hmc hirq hchain hu
      have hu1 : (s.ferryUnits i d).any (fun u => s.fl.writes.any (fun w => w.unit == u)) = false := by
        rw [List.any_eq_false]
        intro n hn
        simpa using hwr n hn
      have hu2 : (s.parityLines i d).any (fun l => !(s.slot i k).acked.contains l) = false := by
        rw [List.any_eq_false]
        intro l hl
        simpa using hack l hl
      have hu3 : (d.mode == 1 && s.sch.mcasts.any (fun m => m.sender == i && !m.weight)) = false := by
        by_cases h1 : d.mode = 1
        · rw [h1, Bool.and_eq_false_iff]
          right
          rw [List.any_eq_false]
          intro m hm
          simpa using hmc h1 m hm
        · simp [h1]
      have hu4 : d.srcRows.all (fun (r : Nat × Nat) => s.devReadable r.1 r.2) = true := List.all_eq_true.2 hread
      rw [State.exec_ferryGenerationDone hw hs hm hb hr, hl, hu1, hu2, hu3, hu4, hirq, hchain, hu]
      rfl

end Sys2Proof.Machine

end

section
/-! Allocations in T2, for the statements of chapter 10. -/

namespace Sys2Proof.Machine

/- The elaborator's threads each take a stack: one proof at a time keeps a text of this length within the memory limit. -/
set_option Elab.async false

/-! ## A zeroed allocation in a failed stack -/

/-- The command that allocates one granule. -/
def allocLive : Live :=
  { h := { opcode := Op.mem, func := 0, fence := false, channel := 0, tag := 0, srcOrd := 0, dstOrd := 0, ring := 0, inlineLen := 0,
           xferLen := 0, reserved := 0 }
    body := [], got := [], handle := 0, intake := [], stage := .running, island := 0, stamp := 0, tide := 0, epoch := 0, accepted := 0,
    order := 0, committed := false, came := 0 }

/-- Its operation: granule 1 of stack 0. -/
def allocOp : MemOp :=
  { kind := .alloc, func := 0, tag := 0, owner := 0, handle := 1, dstStack := 0, dstGrans := [1], copied := false }

/-- The device where that allocation waits for its zeros, stack 0 having failed after its granule held a byte 1; granules 0 to 7 are under
parity. -/
def allocInFailedStack : State :=
  { State.reset.wr (Reg.dramcParCfg 0) 8 with
    mem := [(t2Addr 0 65536, 1)]
    flt := { State.reset.flt with failedStacks := [0] }
    mm := { State.reset.mm with ops := [allocOp] }
    cmd := { State.reset.cmd with live := [allocLive] } }

/-- A store to a failed stack reaches the parity byte alone, so its own byte stays. -/
theorem byte_allocZeroed_allocInFailedStack {t : State} (h : exec (.allocZeroed { func := 0, tag := 0 }) allocInFailedStack = .next t) :
    t.byte (t2Addr 0 (1 * 65536 + 0)) = 1 := by
  have hbyte : (match exec (.allocZeroed { func := 0, tag := 0 }) allocInFailedStack with
    | .next u => u.byte (t2Addr 0 (1 * 65536 + 0))
    | _ => 0) = 1 := by decide +kernel
  rw [h] at hbyte
  exact hbyte

/-- Refutes O44: its clause of the zeroed allocation speaks of the stored bytes of the granules and does not leave out a failed stack,
whose bytes are rebuilt from parity and no longer stored; at `allocInFailedStack` the byte stays 1. -/
theorem not_objectsAreAllocatedAndMoved : ¬ Obligations.ObjectsAreAllocatedAndMoved := by
  unfold Obligations.ObjectsAreAllocatedAndMoved
  rintro ⟨-, h, -⟩
  obtain ⟨t, -, hexec, -, -, -, -, -, -, -, -, hzero, -⟩ :=
    h allocInFailedStack { func := 0, tag := 0 } allocOp allocLive (by decide +kernel) (by decide +kernel) (by decide) (by decide +kernel)
      (by decide) (by decide)
  have hone : t.byte (t2Addr 0 (1 * 65536 + 0)) = 0 := hzero 1 (by decide) 0 (by decide)
  rw [byte_allocZeroed_allocInFailedStack hexec] at hone
  exact absurd hone (by decide)

end Sys2Proof.Machine

end

section
/-! Cohort steps, their weights and handles, for the statements of chapter 9. -/

namespace Sys2Proof.Machine

/- The elaborator's threads each take a stack: one proof at a time keeps a text of this length within the memory limit. -/
set_option Elab.async false

namespace State

/-! ## Cohorts -/

theorem cohort?_congr {s t : State} (h : t.gen.cohorts = s.gen.cohorts) (n : Nat) : t.cohort? n = s.cohort? n := by
  unfold cohort?
  rw [h]

theorem cohort?_updCohort_same (s : State) (n : Nat) {f : Cohort → Cohort} (hf : ∀ k, (f k).slot = k.slot) :
    (s.updCohort n f).cohort? n = (s.cohort? n).map f :=
  find?_updWhere_same (p := fun k : Cohort => k.slot == n) (fun k hk => by rw [hf]; exact hk) s.gen.cohorts

/-- What a settled spill frees lets sequences go on; it opens and ends no step. -/
theorem cohorts_settleSpills (s : State) : s.settleSpills.gen.cohorts = s.gen.cohorts := by
  have hserve : ∀ (u : State) (c : Nat), (u.serveWaiting c).gen.cohorts = u.gen.cohorts := by
    intro u c
    unfold serveWaiting
    refine foldl_keeps (g := fun u => u.gen.cohorts) (fun v q => ?_) _ u
    have hpages : ∀ ab : List PageRef, (v.makePages c ab ab.length).1.gen.cohorts = v.gen.cohorts := fun ab => by
      rw [(makePages_within ..).gen (by decide)]
    dsimp only
    split
    next =>
      split
      · rw [(sendHold_within ..).gen (by decide)]
        exact hpages _
      · exact hpages _
    · rfl
  unfold settleSpills
  refine foldl_keeps (g := fun u => u.gen.cohorts) (fun v m => ?_) _ s
  split
  · rfl
  · unfold spillEnd
    rw [hserve, (freeFrame_within ..).gen (by decide)]

theorem cohort?_clearCohort (s : State) (n : Nat) : (s.clearCohort n).cohort? n = none := by
  unfold clearCohort cohort?
  rw [(pruneReads_within ..).gen (by decide)]
  simp

theorem exec_stepCommit {s : State} {n : Nat} {k : Cohort} (hk : s.cohort? n = some k) (hs : k.sampled = true) :
    ∃ t, exec (.stepCommit n) s = .next t ∧ t.cohort? n = none := by
  refine ⟨_, rfl, ?_⟩
  unfold onStepCommit
  rw [hk]
  simp only [hs, Bool.not_true, Bool.false_eq_true, if_false]
  rw [cohort?_congr (cohorts_settleSpills _), cohort?_clearCohort]

/-! ## Step boundaries -/

/-- The candidate that became ready first opens. -/
theorem exec_stepBoundary {s : State} {c : Nat × Option (Nat × Nat)} (hfew : s.gen.cohorts.length < 2) (hst : s.boundaryWork.gen.model.st = 2)
    (hc : c ∈ s.boundaryWork.candidates) (hmin : ∀ d ∈ s.boundaryWork.candidates, d = c ∨ c.1 < d.1) :
    exec .stepBoundary s = .next (match c.2 with
      | some e => s.boundaryWork.openFlow e.1 e.2
      | none => match s.boundaryWork.gen.steps with
        | r :: _ => s.boundaryWork.openStepCmd r
        | [] => s.boundaryWork) := by
  show execStepBoundary s = _
  unfold execStepBoundary
  rw [if_neg (by omega)]
  dsimp only
  rw [if_neg (by omega)]
  cases hl : s.boundaryWork.candidates with
  | nil => rw [hl] at hc; cases hc
  | cons d ds =>
    rw [hl] at hc hmin
    have hfirst : ds.foldl (fun b x => if x.1 < b.1 then x else b) d = c :=
      foldl_least (key := fun x : Nat × Option (Nat × Nat) => x.1) (List.mem_cons.1 hc) (by
        rcases hmin d (by simp) with rfl | h
        · exact Or.inl rfl
        · exact Or.inr h) fun y hy => hmin y (List.mem_cons_of_mem _ hy)
    dsimp only
    subst hfirst
    rfl

theorem exec_stepBoundary_of_none {s : State} (hfew : s.gen.cohorts.length < 2)
    (h : s.boundaryWork.gen.model.st ≠ 2 ∨ s.boundaryWork.candidates = []) : exec .stepBoundary s = .next s.boundaryWork := by
  show execStepBoundary s = _
  unfold execStepBoundary
  rw [if_neg (by omega)]
  dsimp only
  by_cases hst : s.boundaryWork.gen.model.st = 2
  · rw [if_neg (by omega), h.resolve_left (by omega)]
  · rw [if_pos hst]

/-! ## Weight tiles -/

theorem window_after_land (k : Cohort) {w : Window} {i : Nat} (hw : w.island = i) :
    ({ k with wins := k.wins.filter (fun x => x.island != i) ++ [w] } : Cohort).window i = w := by
  unfold Cohort.window
  rw [List.find?_append, List.find?_eq_none.2 (by simp)]
  simp [hw]

theorem island_window (k : Cohort) (i : Nat) : (k.window i).island = i := by
  unfold Cohort.window
  cases h : k.wins.find? (fun w => w.island == i) with
  | none => rfl
  | some w => simpa using List.find?_some h

theorem exec_weightTileLanded {s : State} {i : Nat} {t : TileRef} {k : Cohort} (hk : s.cohort? t.slot = some k) (hst : s.gen.model.st = 2)
    (hnext : s.nextTile k i = some t)
    (hroom : ((k.window i).tiles.map (fun x => tileBytes (s.wFmtOf (decide (x.proj ≥ 5))))).sum + tileBytes (s.wFmtOf (decide (t.proj ≥ 5))) ≤
      s.gen.model.winKib * 1024) (hgood : s.weightBad (.tile t) = false) :
    ∃ u, exec (.weightTileLanded i t) s = .next u ∧
      (u.cohort? t.slot).map (fun k => (k.window i).tiles) = some ((k.window i).tiles ++ [t]) ∧ ∀ a, u.byte a = s.byte a := by
  refine ⟨_, rfl, ?_⟩
  rw [hk]
  dsimp only
  rw [if_neg (by
    rw [hnext, hst, hgood]
    simp only [ne_eq, not_true_eq_false, false_or, Bool.false_eq_true, or_false, not_or, not_lt, Nat.le_refl, and_true]
    exact hroom)]
  set w1 : Window := { k.window i with tiles := (k.window i).tiles ++ [t] } with hw1
  set f : Cohort → Cohort := fun k => { k with wins := k.wins.filter (fun x => x.island != i) ++ [w1] } with hf
  have hcohort : ∀ v : State, v.gen = (s.updCohort t.slot f).gen → v.mem = s.mem →
      (((v.measured s t.slot).readyTasks t.slot i).cohort? t.slot).map (fun k => (k.window i).tiles) = some ((k.window i).tiles ++ [t]) ∧
      ∀ a, ((v.measured s t.slot).readyTasks t.slot i).byte a = s.byte a := by
    intro v hgen hmem
    constructor
    · rw [cohort?_congr (congrArg GenSt.cohorts ((readyTasks_within ..).gen (by decide)))]
      have hmeasured : (v.measured s t.slot).cohort? t.slot = (v.cohort? t.slot).map (fun k => { k with bytes := k.bytes + (v.moved - s.moved) }) :=
        cohort?_updCohort_same v t.slot (fun _ => rfl)
      rw [hmeasured, cohort?_congr (congrArg GenSt.cohorts hgen), cohort?_updCohort_same s t.slot (f := f) (fun _ => rfl), hk]
      simp only [Option.map_some, Option.some.injEq]
      exact congrArg Window.tiles (window_after_land k (w := w1) (island_window k i))
    · intro a
      rw [(readyTasks_within ..).byte (by decide), (measured_within ..).byte (by decide)]
      unfold byte
      rw [hmem]
  split
  · exact hcohort _ ((weightTraffic_within ..).gen (by decide)) (by rw [(weightTraffic_within ..).mem (by decide)]; rfl)
  · exact hcohort _ rfl rfl

/-! ## Swaps and handles -/

theorem exec_swap {s : State} {n : Nat} {b : BufHandle} (hb : ∀ w ∈ s.gen.swaps, w.b ≠ b) :
    (∀ i, s.swapRes n b = .go i → exec (.swap n b) s = .next (s.pushHandle n b i)) ∧
    (s.swapRes n b = .wait → exec (.swap n b) s = .next { s.count Reg.genSwapWaitCnt with
      gen := { s.gen with swaps := s.gen.swaps ++ [{ consumer := n, b := b, full := false }] } }) ∧
    (s.swapRes n b = .queueFull → exec (.swap n b) s = .next { s.count Reg.genQueueFullCnt with
      gen := { s.gen with swaps := s.gen.swaps ++ [{ consumer := n, b := b, full := true }] } }) ∧
    (s.swapRes n b = .tooLarge → exec (.swap n b) s = .next (s.endTooLarge b.cohort)) := by
  have hexec : exec (.swap n b) s = .next (
      let waits (s : State) (full : Bool) : State := { s with gen := { s.gen with swaps := s.gen.swaps ++ [{ consumer := n, b := b, full := full }] } }
      match s.swapRes n b with
      | .none_ => s
      | .wait => waits (s.count Reg.genSwapWaitCnt) false
      | .queueFull => waits (s.count Reg.genQueueFullCnt) true
      | .tooLarge => s.endTooLarge b.cohort
      | .go i => s.pushHandle n b i) := by
    show execSwap n b s = _
    unfold execSwap
    exact congrArg Host.Outcome.next (if_neg (by simpa using hb))
  have hgen : ∀ c : Nat, (s.count c).gen = s.gen := fun c => (count_within ..).gen (by decide)
  refine ⟨fun i h => ?_, fun h => ?_, fun h => ?_, fun h => ?_⟩
  · rw [hexec, h]
  · rw [hexec, h]
    dsimp only
    rw [hgen]
  · rw [hexec, h]
    dsimp only
    rw [hgen]
  · rw [hexec, h]

theorem exec_handleReturn {s : State} {n st : Nat} {b : BufHandle} {q : HQueue} (hq : q ∈ s.gen.queues) (hn : q.island = n) (hs : q.stage = st)
    (hb : b ∈ q.q) (hr : s.halfRead st b = true) :
    exec (.handleReturn n st b) s = .next ({ s with gen := { s.gen with
      queues := s.gen.queues.map (fun q => if q.island = n ∧ q.stage = st then { q with q := q.q.erase b } else q) } } : State).retrySwaps := by
  have hany : s.gen.queues.any (fun q => q.island == n && q.stage == st && q.q.contains b) = true :=
    List.any_eq_true.2 ⟨q, hq, by simp [hn, hs, hb]⟩
  show execHandleReturn n st b s = _
  unfold execHandleReturn
  rw [hany, hr]
  rfl

/-! ## What a token of a step reads -/

/-- What a read of an object depends on: bytes, objects, failed stacks, keys, and the parity boundary of each stack. -/
structure SameReads (s t : State) : Prop where
  mem : t.mem = s.mem
  objs : t.mm.objs = s.mm.objs
  failed : t.flt.failedStacks = s.flt.failedStacks
  sec : t.sec = s.sec
  par : ∀ i, t.rd (Reg.dramcParCfg i) = s.rd (Reg.dramcParCfg i)

theorem SameReads.hBytes_eq {s t : State} (h : SameReads s t) (f n off len : Nat) : t.hBytes f n off len = s.hBytes f n off len := by
  have hbyte : t.byte = s.byte := funext fun a => by
    unfold byte
    rw [h.mem]
  have hbytes : ∀ a m, t.bytes a m = s.bytes a m := fun a m => by
    unfold bytes
    rw [hbyte]
  have ht2 : t.t2Byte = s.t2Byte := funext fun k => funext fun off => by
    unfold t2Byte isParityData parGran xorOthers
    rw [h.failed, h.par, hbyte]
  have ht3 : t.t3Byte = s.t3Byte := funext fun k => funext fun f => funext fun a => by
    unfold t3Byte atRestKey
    rw [h.sec, hbyte, hbytes]
  unfold hBytes objBytes objByte
  rw [obj?_congr h.objs, ht2, ht3]

theorem SameReads.hNat_eq {s t : State} (h : SameReads s t) (f n off len : Nat) : t.hNat f n off len = s.hNat f n off len := by
  have hb := h.hBytes_eq f n off len
  unfold hBytes at hb
  unfold hNat objNat
  rw [obj?_congr h.objs] at hb ⊢
  cases hobj : s.obj? f n with
  | none => rfl
  | some o =>
    rw [hobj] at hb
    exact congrArg leNat hb

theorem SameReads.of_within {s t : State} {ps : List Field} (h : Within ps s t) (hmem : .mem ∉ ps := by decide) (hmm : .mm ∉ ps := by decide)
    (hflt : .flt ∉ ps := by decide) (hsec : .sec ∉ ps := by decide) (hregs : .regs ∉ ps := by decide) : SameReads s t where
  mem := h.mem hmem
  objs := by rw [h.mm hmm]
  failed := by rw [h.flt hflt]
  sec := h.sec hsec
  par _ := rd_congr (h.regs hregs) _

theorem weightPast_congr {s t : State} (h : SameReads s t) (hdesc : t.gen.model.desc = s.gen.model.desc) (hseqs : t.gen.seqs = s.gen.seqs)
    (hcmd : t.cmd = s.cmd) (k : Cohort) (p : Piece) (w : WeightRef) : t.weightPast k p w = s.weightPast k p w := by
  have htok : t.inputToken k = s.inputToken k := funext fun e => funext fun r => by
    have hbody : t.stepBody k = s.stepBody k := by
      unfold stepBody live?
      rw [hcmd]
    unfold inputToken seq?
    simp only [h.hNat_eq, hbody, hseqs]
  unfold weightPast sepLow
  rw [hdesc, htok]

/-! ## A lost weight -/

/-- The state in which weight is lost: counted, the model in FAULT, and the event sent. -/
def lostWeight (s : State) : State :=
  ((s.count Reg.genWueLostCnt).setModel { s.gen.model with st := 4 }).event 3 s.gen.model.func false s.gen.model.ident

theorem rd_pushEvent (s : State) (t : Transport) (a : MctpAns) {x : Nat} (hx : x ≠ Reg.mgmtEventDropCnt) : (s.pushEvent t a).rd x = s.rd x := by
  unfold pushEvent
  split
  · rfl
  · dsimp only
    split
    · exact rd_count_other (s := { s with mgmt := _ }) 1 hx
    · rfl

theorem gen_lostWeight (s : State) : s.lostWeight.gen = { s.gen with model := { s.gen.model with st := 4 } } := by
  unfold lostWeight
  rw [(event_within ..).gen (by decide)]
  unfold setModel
  dsimp only
  rw [(count_within ..).gen (by decide)]

theorem within_lostWeight (s : State) : Within [.outbox, .regs, .mgmt, .gen] s s.lostWeight := by
  unfold lostWeight setModel
  refine Within.andThen (event_within ..) (by decide) ?_
  refine Within.set_gen (by decide) ?_
  exact (count_within ..).mono (by decide)

theorem sameReads_lostWeight (s : State) : SameReads s s.lostWeight where
  mem := (within_lostWeight s).mem (by decide)
  objs := by rw [(within_lostWeight s).mm (by decide)]
  failed := by rw [(within_lostWeight s).flt (by decide)]
  sec := (within_lostWeight s).sec (by decide)
  par i := by
    have hne : ∀ c, c % 0x1000 ≠ 0x400 → Reg.dramcParCfg i ≠ c := by
      intro c hc e
      apply hc
      rw [← e]
      unfold Reg.dramcParCfg
      omega
    unfold lostWeight event mgmtEvent
    rw [rd_pushEvent _ _ _ (hne _ (by decide)), rd_pushEvent _ _ _ (hne _ (by decide))]
    exact rd_count_other s 1 (hne _ (by decide))

/-- The device runs one step, that of `k`'s slot, whose entry `e`, where `lost` says so, is marked as having lost a weight. -/
def Runs (s : State) (k : Cohort) (e : Nat) (lost : Prop) : Prop :=
  ∃ y, s.gen.cohorts = [y] ∧ y.slot = k.slot ∧ y.entries.length = k.entries.length ∧
    (lost → (y.entries[e]?).map (fun x => x.status) = some Status.weightLost)

/-- An entry of a step that loses a weight. -/
def loseEntry (s : State) (slot e : Nat) : State := (s.leaveStep slot e).updEntry slot e (fun x => { x with status := Status.weightLost })

theorem cohorts_dropTasks (s : State) (p : Task → Bool) : (s.dropTasks p).gen.cohorts = s.gen.cohorts := by
  unfold dropTasks
  refine foldl_keeps (g := fun u => u.gen.cohorts) (fun u t => ?_) _ s
  have hleave : ∀ (v : State) (t : Task) (a : Nat), (v.leave t a).gen.cohorts = v.gen.cohorts := by
    intro v t a
    unfold leave
    split <;> rfl
  have hgone : (((u.chargeRun t true).count Reg.schedKillCnt).leave t 0).gen.cohorts = u.gen.cohorts := by
    rw [hleave, (count_within ..).gen (by decide), (chargeRun_within ..).gen (by decide)]
  unfold killRun
  dsimp only
  split
  · rw [(clearIslet_within ..).gen (by decide)]
    exact hgone
  · exact hgone

theorem updWhere_single {α : Type} {p : α → Bool} {x : α} (h : p x = true) (f : α → α) : updWhere p f [x] = [f x] := by
  simp [updWhere, h]

/-- What a lost entry leaves of the device's only step. -/
theorem cohorts_loseEntry {s : State} {y : Cohort} (hy : s.gen.cohorts = [y]) (e : Nat) :
    ∃ z, (s.loseEntry y.slot e).gen.cohorts = [z] ∧ z.slot = y.slot ∧
      z.entries = updAt e (fun x => { x with status := Status.weightLost }) (updAt e (fun x => { x with left := true }) y.entries) := by
  unfold loseEntry leaveStep attnFull updEntry updCohort
  dsimp only
  rw [(pruneReads_within ..).gen (by decide), cohorts_dropTasks]
  dsimp only
  rw [hy, updWhere_single (by simp), updWhere_single (by simp), updWhere_single (by simp)]
  exact ⟨_, rfl, rfl, rfl⟩

theorem Runs.loseEntry {s : State} {k : Cohort} {e : Nat} {lost : Prop} (h : s.Runs k e lost) (e' : Nat) :
    (s.loseEntry k.slot e').Runs k e (lost ∨ (e' = e ∧ e < k.entries.length)) := by
  obtain ⟨y, hy, hslot, hlen, hlost⟩ := h
  obtain ⟨z, hz, hzslot, hent⟩ := cohorts_loseEntry hy e'
  rw [hslot] at hz hzslot
  refine ⟨z, hz, hzslot, by rw [hent, length_updAt, length_updAt, hlen], fun h => ?_⟩
  rw [hent]
  by_cases hee : e' = e
  · subst hee
    have hin : e' < y.entries.length := by
      rcases h with h | ⟨-, h⟩
      · by_contra hge
        have := hlost h
        rw [List.getElem?_eq_none (by omega)] at this
        cases this
      · omega
    rw [getElem?_updAt_same, getElem?_updAt_same, List.getElem?_eq_getElem hin]
    rfl
  · rw [getElem?_updAt_other _ _ (Ne.symm hee), getElem?_updAt_other _ _ (Ne.symm hee)]
    exact hlost (h.resolve_right fun hh => hee hh.1)

/-- What a loss does to the entries of one step: each entry of which `c` says so loses the weight. -/
def loseEntries (c : Nat → Bool) (slot : Nat) (es : List Nat) (s : State) : State :=
  es.foldl (fun s e => if c e then s.loseEntry slot e else s) s

theorem Runs.loseEntries {s : State} {k : Cohort} {e : Nat} (c : Nat → Bool) (es : List Nat) {lost : Prop} (h : s.Runs k e lost) :
    (s.loseEntries c k.slot es).Runs k e (lost ∨ (e ∈ es ∧ c e = true ∧ e < k.entries.length)) := by
  unfold State.loseEntries
  induction es generalizing s lost with
  | nil => simpa using h
  | cons e' es ih =>
    rw [List.foldl_cons]
    by_cases hc : c e' = true
    · rw [if_pos hc]
      obtain ⟨y, hy, hslot, hlen, hlost⟩ := ih (h.loseEntry e')
      refine ⟨y, hy, hslot, hlen, fun hh => hlost ?_⟩
      rcases hh with hh | ⟨hmem, hce, hlt⟩
      · exact Or.inl (Or.inl hh)
      · rcases List.mem_cons.1 hmem with rfl | hmem
        · exact Or.inl (Or.inr ⟨rfl, hlt⟩)
        · exact Or.inr ⟨hmem, hce, hlt⟩
    · rw [if_neg hc]
      obtain ⟨y, hy, hslot, hlen, hlost⟩ := ih h
      refine ⟨y, hy, hslot, hlen, fun hh => hlost ?_⟩
      rcases hh with hh | ⟨hmem, hce, hlt⟩
      · exact Or.inl hh
      · rcases List.mem_cons.1 hmem with rfl | hmem
        · exact absurd hce hc
        · exact Or.inr ⟨hmem, hce, hlt⟩

/-! ## Bad weights -/

/-- The entries of step `k` that lose the weight `w`. -/
def losesWeight (s : State) (w : WeightRef) (k : Cohort) (e : Nat) : Bool :=
  ((k.entries[e]?).map (fun x => x.runs && x.token.isNone)).getD false && k.pieces.any (fun p => p.rows.any (fun x => x.1 == e) && !s.weightPast k p w)

/-- What is done about a bad weight of a model that serves. -/
theorem exec_weightRepairDone {s : State} {w : WeightRef} {h off n : Nat} (src : RepairSource) (hst : s.gen.model.st = 2)
    (hbad : s.weightBad w = true) (hat : s.weightAt w = (h, off, n)) :
    exec (.weightRepairDone ⟨w, src⟩) s = .next (match src with
      | .parity => if s.hReadable s.gen.model.func h off n then
          (s.mendWeight w (s.hBytes s.gen.model.func h off n)).count Reg.genWueParityCnt else s
      | .flash => if !s.hReadable s.gen.model.func h off n && s.imageGives w then
          ((s.weightFromImage w).mendWeight w (((s.weightImage w).map (fun e => s.objBytes e.1 e.2 n)).getD [])).count Reg.genWueFlashCnt else s
      | .replica => match s.replicas with
        | dev :: _ => if !s.hReadable s.gen.model.func h off n && !s.imageGives w && (s.weightAsked w).isEmpty then s.askWeight w dev else s
        | [] => s
      | .lost => if s.hReadable s.gen.model.func h off n || s.imageGives w || !(s.weightAsked w).isEmpty then s
        else s.lostWeight.gen.cohorts.foldl
          (fun v k => v.loseEntries (s.lostWeight.losesWeight w k) k.slot (List.range k.entries.length)) s.lostWeight) := by
  show execWeightRepairDone ⟨w, src⟩ s = _
  unfold execWeightRepairDone
  rw [if_neg (by simp [hst, hbad])]
  dsimp only
  rw [hat]
  cases src <;> rfl

theorem within_loseEntry (s : State) (slot e : Nat) : Within [.regs, .sch, .fl, .ar, .gen] s (s.loseEntry slot e) :=
  (leaveStep_within ..).trans ((updEntry_within ..).mono (by decide))

theorem within_loseEntries (s : State) (c : Nat → Bool) (slot : Nat) (es : List Nat) :
    Within [.regs, .sch, .fl, .ar, .gen] s (s.loseEntries c slot es) := by
  unfold loseEntries
  exact Within.foldl .refl fun v e => Within.ite (fun _ => within_loseEntry ..) fun _ => .refl

theorem model_loseEntry (s : State) (slot e : Nat) : (s.loseEntry slot e).gen.model = s.gen.model := by
  have hdrop : ∀ (v : State) (p : Task → Bool), (v.dropTasks p).gen.model = v.gen.model := by
    intro v p
    unfold dropTasks
    refine foldl_keeps (g := fun u => u.gen.model) (fun u t => ?_) _ v
    have hleave : ∀ (v : State) (t : Task) (a : Nat), (v.leave t a).gen.model = v.gen.model := by
      intro v t a
      unfold leave
      split <;> rfl
    have hgone : (((u.chargeRun t true).count Reg.schedKillCnt).leave t 0).gen.model = u.gen.model := by
      rw [hleave, (count_within ..).gen (by decide), (chargeRun_within ..).gen (by decide)]
    unfold killRun
    dsimp only
    split
    · rw [(clearIslet_within ..).gen (by decide)]
      exact hgone
    · exact hgone
  unfold loseEntry leaveStep attnFull updEntry updCohort
  dsimp only
  rw [(pruneReads_within ..).gen (by decide), hdrop]

/-- A weight of which nothing is left makes the model FAULT, and a row that still needed it ends with WEIGHT_LOST. -/
theorem exec_weightRepairDone_lost {s : State} {w : WeightRef} {h off n : Nat} (hst : s.gen.model.st = 2) (hbad : s.weightBad w = true)
    (hat : s.weightAt w = (h, off, n)) (hpar : s.hReadable s.gen.model.func h off n = false) (himg : s.imageGives w = false)
    (hasked : s.weightAsked w = []) :
    ∃ t, exec (.weightRepairDone ⟨w, .lost⟩) s = .next t ∧ t.gen.model.st = 4 ∧ (∀ a, t.byte a = s.byte a) ∧
      ∀ k e x p, s.gen.cohorts = [k] → k.entries[e]? = some x → x.runs = true → x.token = none → p ∈ k.pieces →
        (p.rows.any (fun r => r.1 == e)) = true → s.weightPast k p w = false →
        ∃ y ∈ t.gen.cohorts, (y.entries[e]?).map (fun x => x.status) = some Status.weightLost := by
  have hgen := s.gen_lostWeight
  have hpast : ∀ k p, s.lostWeight.weightPast k p w = s.weightPast k p w := fun k p =>
    weightPast_congr s.sameReads_lostWeight (by rw [hgen]) (by rw [hgen]) ((within_lostWeight s).cmd (by decide)) k p w
  refine ⟨_, exec_weightRepairDone .lost hst hbad hat, ?_⟩
  dsimp only
  rw [hpar, himg, hasked, if_neg (by simp)]
  refine ⟨?_, fun a => ?_, fun k e x p hk hx hruns htok hp hrow hwp => ?_⟩
  · refine (foldl_keeps (g := fun u : State => u.gen.model.st) (fun v k => ?_) _ _).trans (by rw [hgen])
    exact foldl_keeps (g := fun u : State => u.gen.model.st) (fun u e => by
      split
      · rw [model_loseEntry]
      · rfl) _ _
  · have hfold : Within [.regs, .sch, .fl, .ar, .gen] s.lostWeight (s.lostWeight.gen.cohorts.foldl
        (fun v k => v.loseEntries (s.lostWeight.losesWeight w k) k.slot (List.range k.entries.length)) s.lostWeight) :=
      Within.foldl .refl fun v k => within_loseEntries ..
    rw [hfold.byte (by decide), (within_lostWeight s).byte (by decide)]
  · have hcohorts : s.lostWeight.gen.cohorts = [k] := by rw [hgen, ← hk]
    have hlt : e < k.entries.length := (List.getElem?_eq_some_iff.1 hx).1
    have hloses : s.lostWeight.losesWeight w k e = true := by
      unfold losesWeight
      rw [hx, Bool.and_eq_true]
      exact ⟨by simp [hruns, htok], List.any_eq_true.2 ⟨p, hp, by rw [hrow, hpast, hwp]; rfl⟩⟩
    have hstart : s.lostWeight.Runs k e False := ⟨k, hcohorts, rfl, rfl, False.elim⟩
    obtain ⟨y, hy, -, -, hlost⟩ := hstart.loseEntries (s.lostWeight.losesWeight w k) (List.range k.entries.length)
    refine ⟨y, ?_, hlost (Or.inr ⟨List.mem_range.2 hlt, hloses, hlt⟩)⟩
    rw [hcohorts, List.foldl_cons, List.foldl_nil, hy]
    exact List.mem_singleton.2 rfl

end State

/-- Settles O42, row by row. -/
theorem cohortStepsOpenRunAndCommit : Obligations.CohortStepsOpenRunAndCommit := by
  unfold Obligations.CohortStepsOpenRunAndCommit
  refine ⟨?_, ?_, fun s i t k hk hst hnext hroom hgood => State.exec_weightTileLanded hk hst hnext hroom hgood, fun s n i b hb => ?_,
    fun s n st b q hq hn hs hb hr => State.exec_handleReturn hq hn hs hb hr, fun s slot k hk hs => State.exec_stepCommit hk hs, ?_⟩
  case refine_1 =>
    rintro s u c hfew rfl hst hc hmin
    have hexec := State.exec_stepBoundary hfew hst hc hmin
    refine ⟨fun e he => ?_, fun r rs he hsteps => ?_⟩
    · rw [hexec, he]
    · rw [hexec, he]
      dsimp only
      rw [hsteps]
  case refine_2 =>
    rintro s u hfew rfl h
    exact State.exec_stepBoundary_of_none hfew h
  case refine_3 =>
    obtain ⟨hgo, hwait, hfull, hlarge⟩ := State.exec_swap (n := n) hb
    exact ⟨hgo i, hwait, hfull, hlarge⟩
  case refine_4 =>
    rintro s w h off n par hst hbad hat rfl
    refine ⟨fun hpar => ?_, fun o at_ hpar himg hwi => ?_, fun dev ds hpar himg hasked hrep => ?_, fun hpar himg hasked =>
      State.exec_weightRepairDone_lost hst hbad hat hpar himg hasked⟩
    · rw [State.exec_weightRepairDone .parity hst hbad hat]
      dsimp only
      rw [if_pos hpar]
    · rw [State.exec_weightRepairDone .flash hst hbad hat]
      dsimp only
      rw [if_pos (by simp [hpar, himg]), hwi]
      rfl
    · rw [State.exec_weightRepairDone .replica hst hbad hat]
      dsimp only
      rw [hrep]
      exact congrArg Host.Outcome.next (if_pos (by simp [hpar, himg, hasked]))

end Sys2Proof.Machine

end

section
/-! Pages of the key-value cache, for the statements of chapter 8. -/

namespace Sys2Proof.Machine

/- The elaborator's threads each take a stack: one proof at a time keeps a text of this length within the memory limit. -/
set_option Elab.async false

namespace State

/-! ## What making and freeing pages leaves of the caches' state -/

section

variable {β : Type} {g : KvSt → β} (hg : ∀ k cs sp, g { k with ctxs := cs, spills := sp } = g k)

include hg

theorem kv_updKv (s : State) (x : Nat) (f : KvCtx → KvCtx) : g (s.updKv x f).kv = g s.kv := hg s.kv _ s.kv.spills

theorem kv_takeFrame {s t : State} {x i f : Nat} {p : PageRef} (h : s.takeFrame x p = some (i, f, t)) : g t.kv = g s.kv := by
  unfold takeFrame at h
  split at h
  · exact nomatch h
  split at h
  · exact nomatch h
  split at h
  next f' u hd =>
    obtain rfl := congrArg (fun r => r.2.2) (Option.some.inj h)
    have hu : u = (s.draw (s.freeFrames _ _)).2 := (congrArg Prod.snd hd).symm
    rw [kv_updKv hg, hu, (draw_within ..).kv (by decide)]
  · exact nomatch h

theorem kv_takeChunk {s t : State} {c : KvCtx} {i k : Nat} (h : s.takeChunk c i = some (k, t)) : g t.kv = g s.kv := by
  unfold takeChunk at h
  dsimp only at h
  split at h
  · obtain rfl := congrArg Prod.snd (Option.some.inj h)
    exact kv_updKv hg ..
  split at h
  · obtain rfl := congrArg Prod.snd (Option.some.inj h)
    exact kv_updKv hg ..
  · exact nomatch h

theorem kv_leafChunk {s t : State} {c : KvCtx} {p : PageRef} {q : Seq} {k : Nat} (h : s.leafChunk c p q = some (k, t)) : g t.kv = g s.kv := by
  unfold leafChunk at h
  dsimp only at h
  split at h
  · split at h
    · exact nomatch h
    next r hr =>
      obtain rfl := congrArg Prod.snd (Option.some.inj h)
      dsimp only
      rw [(hPut_within ..).kv (by decide), (hPut_within ..).kv (by decide), kv_takeChunk hg hr]
  · obtain rfl := congrArg Prod.snd (Option.some.inj h)
    rfl

theorem kv_newLeaf {s t : State} {x k : Nat} {c : KvCtx} {p : PageRef} (h : s.newLeaf x c p k = some t) : g t.kv = g s.kv := by
  unfold newLeaf at h
  dsimp only at h
  split at h
  · exact nomatch h
  split at h
  · exact nomatch h
  · obtain rfl := Option.some.inj h
    rw [(hPut_within ..).kv (by decide), (hPut_within ..).kv (by decide), kv_updKv hg]

theorem kv_makeLeaf {s t : State} {x : Nat} {p : PageRef} (h : s.makeLeaf x p = some t) : g t.kv = g s.kv := by
  unfold makeLeaf at h
  split at h
  · split at h
    · obtain rfl := Option.some.inj h
      rfl
    split at h
    · exact nomatch h
    next r hr => rw [kv_newLeaf hg h, kv_leafChunk hg hr]
  · exact nomatch h

theorem kv_freeFrame (s : State) (x i f : Nat) : g (s.freeFrame x i f).kv = g s.kv := kv_updKv hg ..

theorem kv_freeSpill (s : State) (x f : Nat) : g (s.freeSpill x f).kv = g s.kv := kv_updKv hg ..

theorem kv_ageDrop (s : State) (x : Nat) (p : PageRef) : g (s.ageDrop x p).kv = g s.kv := kv_updKv hg ..

theorem kv_ageAdd (s : State) (x : Nat) (p : PageRef) : g (s.ageAdd x p).kv = g s.kv := by
  unfold ageAdd
  split
  · rfl
  · dsimp only
    rw [(hPut_within ..).kv (by decide), kv_updKv hg]

theorem kv_dropPage (s : State) (c : KvCtx) (p : PageRef) : g (s.dropPage c p).kv = g s.kv := by
  unfold dropPage
  dsimp only
  rw [(count_within ..).kv (by decide), kv_ageDrop hg, kv_freeFrame hg, (setPage_within ..).kv (by decide)]

theorem kv_spillIssue (s : State) (c : KvCtx) (p : PageRef) (f : Nat) (cmd : Option CmdRef) (spare : Option Nat) :
    g (s.spillIssue c p f cmd spare).kv = g s.kv := by
  unfold spillIssue
  dsimp only
  rw [(queueWrite_within ..).kv (by decide)]
  refine (hg (updKv _ _ _).kv (updKv _ _ _).kv.ctxs _).trans ?_
  rw [kv_updKv hg, (setPage_within ..).kv (by decide)]

theorem kv_makeRoom (s : State) (x : Nat) (c : KvCtx) (p : PageRef) : g (s.makeRoom x c p).1.kv = g s.kv := by
  unfold makeRoom
  split
  · split
    · rfl
    split
    next r hr =>
      dsimp only
      rw [(bindFrame_within ..).kv (by decide), kv_takeFrame hg hr, kv_dropPage hg]
    · exact kv_dropPage hg ..
  split
  · rfl
  split
  · rfl
  · unfold spillOldest
    split
    · rfl
    · exact kv_spillIssue hg ..

theorem kv_makePage (s : State) (x : Nat) (p : PageRef) (issue : Bool) : g (s.makePage x p issue).1.kv = g s.kv := by
  unfold makePage
  split
  · rfl
  next s0 h0 =>
    have hs0 := kv_makeLeaf hg h0
    split
    · exact rfl
    split
    next r hr =>
      dsimp only
      rw [(bindFrame_within ..).kv (by decide), kv_takeFrame hg hr, hs0]
    · split
      · exact hs0
      · rw [kv_makeRoom hg, hs0]

theorem kv_makePages (s : State) (x : Nat) (ps : List PageRef) (n : Nat) : g (s.makePages x ps n).1.kv = g s.kv := by
  unfold makePages
  exact List.foldlRecOn (motive := fun r : State × List Made × Nat => g r.1.kv = g s.kv) ps _ rfl fun r hr p _ => (kv_makePage hg ..).trans hr

/-- A page made at last lets its sequence go on. -/
theorem kv_serveWaiting (s : State) (x : Nat) : g (s.serveWaiting x).kv = g s.kv := by
  unfold serveWaiting
  refine foldl_keeps (g := fun u : State => g u.kv) (fun u q => ?_) _ s
  dsimp only
  split
  next =>
    split
    · rw [(sendHold_within ..).kv (by decide), (updSeq_within ..).kv (by decide), kv_makePages hg]
    · exact kv_makePages hg ..
  · rfl

theorem kv_settleSpills (s : State) : g s.settleSpills.kv = g s.kv := by
  unfold settleSpills
  refine foldl_keeps (g := fun u : State => g u.kv) (fun u m => ?_) _ s
  split
  · rfl
  · unfold spillEnd
    rw [kv_serveWaiting hg, kv_freeFrame hg]
    exact hg u.kv u.kv.ctxs _

end

theorem kv_kvHandled {β : Type} {g : KvSt → β} (hg : ∀ k rs, g { k with runs := rs } = g k) (s : State) (cmd : Option CmdRef) (ok : Bool) :
    g (s.kvHandled cmd ok).kv = g s.kv := by
  unfold kvHandled
  split
  · rfl
  split
  · rfl
  dsimp only
  split
  · rw [(complete_within ..).kv (by decide)]
    exact hg _ _
  · exact hg _ _

/-! ## Spills -/

/-- A page found under way to flash, once its channel has come to it. -/
theorem exec_spillDurable {s : State} {p : PageRef} {m : PageMove} {c : KvCtx} (hm : s.kv.spills.find? (fun m => m.p == p && !m.done) = some m)
    (hc : s.kv? m.ctx = some c) (ok : Bool) :
    exec (.spillDurable p ok) s = .next (if !s.spillTurn m.spill then s
      else if ok then ((((((s.endSpillWrite m.spill).setBytes (spillAddr m.spill)
        (s.hBytes c.func (c.pools.getD m.pool (0, 0)).1 (m.frame * 16384) 16384)).mapSpill m.spill).hTraffic c.func c.func
          (c.pools.getD m.pool (0, 0)).1 false (m.frame * 16384) 16384).charge c.func (fun a => { a with t3wr := a.t3wr + 16384 })).spillDurable
            c m).settleSpills
      else s.spillFail c m) := by
  show execSpillDurable p ok s = _
  unfold execSpillDurable
  rw [hm]
  dsimp only
  rw [hc]

theorem spills_updKv (s : State) (x : Nat) (f : KvCtx → KvCtx) : (s.updKv x f).kv.spills = s.kv.spills := rfl

theorem spills_spillDurable (s : State) (c : KvCtx) (m : PageMove) :
    (s.spillDurable c m).kv.spills = updWhere (fun x => x == m) (fun x => { x with done := true }) s.kv.spills := by
  unfold spillDurable
  extract_lets _ s1 s2
  have hs2 : s2.kv.spills = s1.kv.spills := by
    simp only [s2]
    split
    · exact spills_updKv ..
    · unfold ageDrop
      rw [spills_updKv, (setPage_within ..).kv (by decide)]
  rw [kv_kvHandled (g := KvSt.spills) (fun _ _ => rfl), (count_within ..).kv (by decide), hs2]

/-! ## Pages read back -/

theorem attn?_updAttn {s : State} {a : AttnRef} {k : Cohort} {r : AttnRun} (hk : s.cohort? a.slot = some k) (hr : k.attn? a = some r)
    {f : AttnRun → AttnRun} (hf : ∀ x, (f x).entry = x.entry ∧ (f x).layer = x.layer ∧ (f x).group = x.group) :
    ((s.updAttn a f).cohort? a.slot).bind (fun k => k.attn? a) = some (f r) := by
  have hupd : (s.updAttn a f).cohort? a.slot = (s.cohort? a.slot).map (fun k => { k with
      attns := updWhere (fun x => x.entry == a.entry && x.layer == a.layer && x.group == a.group) f k.attns }) :=
    cohort?_updCohort_same s a.slot (fun _ => rfl)
  rw [hupd, hk, Option.map_some, Option.bind_some]
  have hfind := find?_updWhere_same (p := fun x : AttnRun => x.entry == a.entry && x.layer == a.layer && x.group == a.group) (f := f)
    (fun x hx => by rw [(hf x).1, (hf x).2.1, (hf x).2.2]; exact hx) k.attns
  exact hfind.trans (congrArg (Option.map f) hr)

/-- Counting the bytes moved changes no run of attention. -/
theorem attn?_measured (s s0 : State) (a : AttnRef) :
    ((s.measured s0 a.slot).cohort? a.slot).bind (fun k => k.attn? a) = (s.cohort? a.slot).bind (fun k => k.attn? a) := by
  have hupd : (s.measured s0 a.slot).cohort? a.slot = (s.cohort? a.slot).map (fun k => { k with bytes := k.bytes + (s.moved - s0.moved) }) :=
    cohort?_updCohort_same s a.slot (fun _ => rfl)
  rw [hupd]
  cases s.cohort? a.slot <;> rfl

/-- Notes that page `n` has landed in a split. -/
def landIn (n : Nat) (sp : Split) : Split := { sp with landed := addOnce n sp.landed }

/-- A page that can be read lands in the splits that wait for it. -/
theorem exec_t3PageReadDone {s : State} {a : AttnRef} {n : Nat} {k : Cohort} {r : AttnRun} {x : CEntry} {c : KvCtx} {sp : Split}
    (hk : s.cohort? a.slot = some k) (hr : k.attn? a = some r) (hx : k.entries[a.entry]? = some x) (hc : s.kv? k.ctx = some c)
    (hsp : sp ∈ r.splits) (ht3 : sp.t3 = true) (hpage : n ∈ sp.pages) (hnot : n ∉ sp.landed)
    (hread : s.pageReadable c { seq := x.seq, layer := a.layer, group := a.group, page := n } = true)
    (hserved : (s.pageServed c { seq := x.seq, layer := a.layer, group := a.group, page := n }).isSome = true) :
    ∃ t, exec (.t3PageReadDone a n true) s = .next t ∧ (t.cohort? a.slot).bind (fun k => k.attn? a) =
      some { r with splits := updWhere (fun sp => sp.t3 && sp.pages.contains n) (landIn n) r.splits } := by
  obtain ⟨sr, hsr⟩ := Option.isSome_iff_exists.1 hserved
  have hsrgen : sr.gen = s.gen := by
    unfold pageServed at hsr
    dsimp only at hsr
    split at hsr
    · exact (serveSpill_within hsr).gen (by decide)
    · rw [← Option.some.inj hsr]
  refine ⟨_, rfl, ?_⟩
  unfold onT3PageReadDone
  rw [hk]
  dsimp only
  rw [hr, hx, hc]
  dsimp only
  rw [if_neg (by simpa using ⟨sp, hsp, by simp [ht3, hpage, hnot]⟩), hsr]
  dsimp only
  rw [if_neg (by simp [hread]), attn?_measured]
  have hs0 : ((sr.count Reg.kvT3ReadCnt).count (Reg.attnT3PageCnt (r.merge / 128))).cohort? a.slot = some k := by
    rw [cohort?_congr (s := s) (by rw [(count_within ..).gen (by decide), (count_within ..).gen (by decide), hsrgen]), hk]
  have hland := attn?_updAttn hs0 hr
    (f := fun r => { r with splits := updWhere (fun sp => sp.t3 && sp.pages.contains n) (landIn n) r.splits }) (fun _ => ⟨rfl, rfl, rfl⟩)
  have hgen : ∀ v : State, v.gen = (((sr.count Reg.kvT3ReadCnt).count (Reg.attnT3PageCnt (r.merge / 128))).updAttn a
      (fun r => { r with splits := updWhere (fun sp => sp.t3 && sp.pages.contains n) (landIn n) r.splits })).gen →
      (((v.promote c { seq := x.seq, layer := a.layer, group := a.group, page := n } none).getD v).cohort? a.slot).bind (fun k => k.attn? a) =
        some { r with splits := updWhere (fun sp => sp.t3 && sp.pages.contains n) (landIn n) r.splits } := by
    intro v hv
    rw [cohort?_congr (s := v)]
    · rw [cohort?_congr (congrArg GenSt.cohorts hv)]
      exact hland
    · cases hp : v.promote c { seq := x.seq, layer := a.layer, group := a.group, page := n } none with
      | none => rfl
      | some t => exact congrArg GenSt.cohorts ((promote_within hp).gen (by decide))
  refine hgen _ ?_
  rw [(charge_within ..).gen (by decide)]
  split
  · rw [(stallUs_within ..).gen (by decide), (count_within ..).gen (by decide)]
    rfl
  · rfl

theorem mem_landed {n : Nat} {l : List Split} {y : Split} (hy : y ∈ updWhere (fun sp => sp.t3 && sp.pages.contains n) (landIn n) l)
    (ht3 : y.t3 = true) (hpage : n ∈ y.pages) : n ∈ y.landed := by
  unfold updWhere at hy
  obtain ⟨sp, -, rfl⟩ := List.mem_map.1 hy
  split
  · exact mem_addOnce_self ..
  next h =>
    rw [if_neg h] at ht3 hpage
    simp [ht3, hpage] at h

/-! ## Promotions, mirrors and reservations -/

/-- A promoted page is no longer under way, whether it could be read or not. -/
theorem exec_promotionDone {s : State} {p : PageRef} {m : PageMove} {c : KvCtx} (hm : s.kv.promos.find? (fun m => m.p == p) = some m)
    (hc : s.kv? m.ctx = some c) (hserved : m.cmd.isSome = true → (s.pageServed c p).isSome = true) :
    ∃ t, exec (.promotionDone p) s = .next t ∧ t.kv.promos = s.kv.promos.filter (fun x => x != m) := by
  obtain ⟨sr, hsr, hkv⟩ : ∃ sr, (if m.cmd.isSome then s.pageServed c p else some s) = some sr ∧ sr.kv = s.kv := by
    split
    next h =>
      obtain ⟨sr, hsr⟩ := Option.isSome_iff_exists.1 (hserved h)
      refine ⟨sr, hsr, ?_⟩
      unfold pageServed at hsr
      dsimp only at hsr
      split at hsr
      · exact (serveSpill_within hsr).kv (by decide)
      · rw [← Option.some.inj hsr]
    · exact ⟨s, rfl, rfl⟩
  refine ⟨_, rfl, ?_⟩
  rw [hm]
  dsimp -zeta only
  rw [hc]
  dsimp -zeta only
  rw [hsr]
  dsimp -zeta only
  extract_lets _ s0 s1 s2 s3
  have hs1 : s1.kv.promos = s.kv.promos.filter (fun x => x != m) := by
    simp only [s1]
    split
    · rw [(charge_within ..).kv (by decide), (count_within ..).kv (by decide)]
      exact congrArg (fun k => k.promos.filter (fun x => x != m)) hkv
    · exact congrArg (fun k => k.promos.filter (fun x => x != m)) hkv
  split
  · rw [kv_kvHandled (g := KvSt.promos) (fun _ _ => rfl), kv_freeFrame (g := KvSt.promos) (fun _ _ _ => rfl), (setPage_within ..).kv (by decide), hs1]
  · rw [kv_kvHandled (g := KvSt.promos) (fun _ _ => rfl), (pruneReads_within ..).kv (by decide), (count_within ..).kv (by decide),
      kv_ageAdd (g := KvSt.promos) (fun _ _ _ => rfl)]
    simp only [s3, s2]
    rw [kv_freeSpill (g := KvSt.promos) (fun _ _ _ => rfl), (setPage_within ..).kv (by decide), (putFrame_within ..).kv (by decide), hs1]

theorem mirroring_mirrorEnd {s : State} {p : PageRef} (h : s.kv.mirroring.contains p = true) (ok : Bool) :
    (s.mirrorEnd p ok).kv.mirroring.contains p = false := by
  unfold mirrorEnd
  rw [h, if_neg (by simp)]
  extract_lets _ _ s1 s2
  have hs2 : s2.kv = s1.kv := by
    simp only [s2]
    split
    · split
      · rw [(setPage_within ..).kv (by decide)]
      · rfl
    · rfl
  have hfilter : (s.kv.mirroring.filter (fun x => x != p)).contains p = false := by simp
  rw [kv_settleSpills (g := KvSt.mirroring) (fun _ _ _ => rfl)]
  split
  · rw [(count_within ..).kv (by decide), hs2]
    exact hfilter
  · rw [(count_within ..).kv (by decide), hs2]
    exact hfilter

/-- A sequence that waits for nothing is left alone by what others wait for. -/
theorem seq?_serveWaiting {s : State} {n : Nat} {q : Seq} (hq : s.seq? n = some q) (hall : ∀ y ∈ s.gen.seqs, y.slot = n → y.wait = none) (x : Nat) :
    (s.serveWaiting x).seq? n = some q := by
  unfold serveWaiting
  have hne : ∀ y ∈ sortBy (fun q => (q.wait.getD 0) * 2 ^ 14 + q.slot) (s.gen.seqs.filter (fun q => q.ctx == x && q.wait.isSome && !q.ended)),
      y.slot ≠ n := by
    intro y hy hslot
    rw [mem_sortBy, List.mem_filter] at hy
    simp [hall y hy.1 hslot] at hy
  refine List.foldlRecOn (motive := fun u : State => u.seq? n = some q) _ _ hq fun u hu y hy => ?_
  have hpages : ∀ (ab : List PageRef) (m : Nat), (u.makePages x ab m).1.seq? n = some q := fun ab m => by
    unfold seq?
    rw [(makePages_within ..).gen (by decide)]
    exact hu
  dsimp only
  split
  next =>
    split
    · unfold seq?
      rw [(sendHold_within ..).gen (by decide)]
      refine Eq.trans (find?_updWhere_other (p := fun q : Seq => q.slot == y.slot) (fun z hz => ?_) _) (hpages _ _)
      have hz' : z.slot = y.slot := by simpa using hz
      have := hne y hy
      exact ⟨by simpa [hz'] using this, by simpa [hz'] using this⟩
    · exact hpages _ _
  · exact hu

/-- A reservation that is too old is given up. -/
theorem exec_holdExpire {s : State} {n pos len : Nat} {q : Seq} {c : KvCtx} (hq : s.seq? n = some q) (hw : q.want = some (pos, len))
    (hc : s.kv? q.ctx = some c) (hflow : q.flow = false) (hold : q.heldAt + bits (s.genCfg 3) 7 0 ≤ s.gen.boundaries) :
    ∃ t, exec (.holdExpire n) s = .next t ∧ (t.seq? n).map (fun q => (q.wait, q.want)) = some (none, none) := by
  refine ⟨_, rfl, ?_⟩
  rw [hq]
  dsimp -zeta only
  rw [hw, hc]
  dsimp -zeta only
  extract_lets ps s1
  rw [hflow, if_neg (by simpa using hold)]
  have hs1 : s1.gen = s.gen := foldl_keeps (g := State.gen) (fun u p => by
    rw [(freeFrame_within ..).gen (by decide), (setPage_within ..).gen (by decide)]) ps s
  have hgen : ((((s1.updSeq n (fun q => { q with wait := none, want := none })).count Reg.kvHoldExpireCnt).sendHold c n false)).gen =
      (s.updSeq n (fun q => { q with wait := none, want := none })).gen := by
    rw [(sendHold_within ..).gen (by decide), (count_within ..).gen (by decide)]
    unfold updSeq
    rw [hs1]
  have hfind : ((((s1.updSeq n (fun q => { q with wait := none, want := none })).count Reg.kvHoldExpireCnt).sendHold c n false)).seq? n =
      some { q with wait := none, want := none } := by
    unfold seq?
    rw [hgen]
    refine (find?_updWhere_same (p := fun q : Seq => q.slot == n) (f := fun q => { q with wait := none, want := none }) (fun _ h => h)
      s.gen.seqs).trans ?_
    exact congrArg (Option.map _) hq
  rw [seq?_serveWaiting hfind]
  · rfl
  · rw [hgen]
    intro y hy hslot
    obtain ⟨z, -, rfl⟩ := List.mem_map.1 hy
    split
    · rfl
    next h =>
      rw [if_neg h] at hslot
      exact absurd (beq_iff_eq.2 hslot) h

/-! ## Recomputation -/

/-- What the recomputation of a page does once its token log can be read. -/
theorem exec_recomputeDone {s : State} {p : PageRef} {q : Seq} {c : KvCtx} (hp : s.kv.rebuild.contains p = true) (hq : s.seq? p.seq = some q)
    (hc : s.kv? q.ctx = some c)
    (hlog : ((s.obj? q.func (sqToklog q.body)).map (fun o => s.objReadable o (256 * p.page) 256)).getD false = true) :
    exec (.recomputeDone p) s = .next (match s.redoRows c q p (s.redoCount q p) with
      | (_, .needs y) => if s.kv.rebuild.contains y then s else { s with kv := { s.kv with rebuild := y :: s.kv.rebuild } }
      | (v, .rows rows) => match State.reframeAll q.ctx (s.lostPages c p) { s with
          kv := { s.kv with rebuild := s.kv.rebuild.filter (fun x => x != p), far := v.kv.far }, regs := v.regs, fresh := v.fresh
          mm := v.mm, sch := v.sch } with
        | none => s
        | some t =>
          let u := (s.lostPages c p).foldl (fun s x => s.recode c x rows) t
          if u.kv.rebuild.any (fun x => x.seq == p.seq) then u else u.restartEntries p.seq) := by
  show execRecomputeDone p s = _
  unfold execRecomputeDone onRecomputeDone
  rw [hp, if_neg (by simp)]
  dsimp only
  rw [hq]
  dsimp only
  rw [hc]
  refine (congrArg Host.Outcome.next (if_neg (by simp [hlog]))).trans ?_
  rcases s.redoRows c q p (s.redoCount q p) with ⟨v, y | rows⟩ <;> rfl

/-! ## KV commands -/

theorem kv_complete (s : State) (r : CmdRef) (st : Nat) (b : Body) : (s.complete r st b).kv = s.kv := (complete_within ..).kv (by decide)

/-- CONFIG gives a context a cache, or sets what its next step boundary takes (R215). -/
theorem actKv_config {t : State} {r : CmdRef} {l : Live} {x : Ctx} (hx : t.chanCtx l.h.channel = some x) (hop : kvOp l.body = 0) {n : KvCtx}
    (hn : n = kvConfig x.id l.h.func (t.atRestKey l.h.func) l.body) (hroom : n.quota + t.otherQuotas x.id ≤ t.spillFrames) :
    (t.kv? x.id = none → (actKv r l t).kv.ctxs = t.kv.ctxs ++ [n]) ∧
      ∀ c, t.kv? x.id = some c → c.pools = n.pools → c.root = n.root → c.ageq = n.ageq → c.layout = n.layout → c.mirror = n.mirror →
        c.devs = n.devs → c.mirs = n.mirs → c.span = n.span → (actKv r l t).kv? x.id = some { c with next := some (n.drop, n.quota) } := by
  have hact : actKv r l t = t.kvConfigure r x.id l.h.func l.body := by
    unfold actKv
    rw [hx]
    exact if_pos hop
  rw [hact]
  unfold kvConfigure
  dsimp only
  rw [← hn, if_neg (by omega)]
  refine ⟨fun hnone => ?_, fun c hsome h1 h2 h3 h4 h5 h6 h7 h8 => ?_⟩
  · rw [hnone]
    dsimp only
    rw [kv_complete]
  · rw [hsome]
    dsimp only
    rw [if_pos ⟨h1, h2, h3, h4, h5, h6, h7, h8⟩]
    unfold kv?
    rw [kv_complete]
    have hid : c.ctx = x.id := by simpa using List.find?_some hsome
    refine (find?_updWhere_same (p := fun c : KvCtx => c.ctx == x.id) (f := fun c => { c with next := some (n.drop, n.quota) }) (fun _ h => h)
      t.kv.ctxs).trans ?_
    exact congrArg (Option.map _) hsome

/-- PREFETCH and SPILL start each page that they name, or complete at once where they name none. -/
theorem actKv_pages {t : State} {r : CmdRef} {l : Live} {x : Ctx} (hx : t.chanCtx l.h.channel = some x) (hop : kvOp l.body ≠ 0) :
    (t.kvNamed l.body = [] → actKv r l t = t.complete r Status.ok (kvBody Status.ok 0 0)) ∧
      (t.kvNamed l.body ≠ [] → actKv r l t = (t.kvNamed l.body).foldl (fun s p => s.kvStart r x.id (kvOp l.body == 2) p)
        { t with kv := { t.kv with runs := t.kv.runs ++ [{ r := r, left := (t.kvNamed l.body).length, handled := 0, skipped := 0 }] } }) := by
  unfold actKv
  rw [hx]
  dsimp only
  rw [if_neg hop]
  refine ⟨fun h => ?_, fun h => ?_⟩
  · rw [h]
    rfl
  · exact if_neg (by simpa using h)

end State

/-- Settles O40, row by row. -/
theorem cachePagesMoveAndCommandsRun : Obligations.CachePagesMoveAndCommandsRun := by
  unfold Obligations.CachePagesMoveAndCommandsRun
  refine ⟨⟨?_, ?_, ?_, fun s p m c hm hc hserved => State.exec_promotionDone hm hc hserved, ?_,
      fun s p ok h => ⟨_, rfl, State.mirroring_mirrorEnd h ok⟩, ?_⟩, fun s t h b l hs => ⟨fun hrow => ?_, fun hrow => ?_, fun hrow => ?_,
      fun x n hx hop hn hroom => State.actKv_config hx hop hn hroom, fun x hx hop => State.actKv_pages hx hop⟩,
    fun s seq pos n q c hq hw hc hflow hold => State.exec_holdExpire hq hw hc hflow hold⟩
  case refine_1 =>
    rintro s u p m c hm hc hturn rfl
    refine ⟨?_, ?_⟩
    · rw [State.exec_spillDurable hm hc, hturn]
      rfl
    · rw [State.spills_spillDurable, (State.charge_within ..).kv (by decide), (State.hTraffic_within ..).kv (by decide),
        (State.mapSpill_within ..).kv (by decide), (State.setBytes_within ..).kv (by decide), (State.endSpillWrite_within ..).kv (by decide)]
  case refine_2 =>
    intro s p m c hm hc
    refine ⟨fun hturn ok => ?_, fun hturn hspare => ?_⟩
    · rw [State.exec_spillDurable hm hc, hturn]
      rfl
    · rw [State.exec_spillDurable hm hc, hturn]
      show Host.Outcome.next (s.spillFail c m) = _
      unfold State.spillFail
      rw [hspare]
  case refine_3 =>
    intro s a n k r x c sp hk hr hx hc hsp ht3 hpage hnot hread hserved
    obtain ⟨t, hexec, hq⟩ := State.exec_t3PageReadDone hk hr hx hc hsp ht3 hpage hnot hread hserved
    exact ⟨t, _, hexec, hq, fun y hy hyt hyp => State.mem_landed hy hyt hyp⟩
  case refine_4 =>
    rintro s u p m c hm hc rfl
    show execRelocationCopyDone p s = _
    unfold execRelocationCopyDone State.onRelocationCopyDone
    rw [hm]
    dsimp only
    rw [hc]
  case refine_5 =>
    intro s v p q c hp hq hc hlog
    have hexec := State.exec_recomputeDone hp hq hc hlog
    refine ⟨fun y hredo hy => ?_, fun t u rows hredo hframe hu hno => ?_⟩
    · rw [hexec, hredo]
      dsimp only
      rw [if_neg (Bool.eq_false_iff.1 hy)]
    · rw [hexec, hredo]
      dsimp only
      rw [hframe]
      dsimp only
      rw [← hu, if_neg (by simpa using hno)]
  case refine_6 => exact congrArg Host.Outcome.next (State.command_of_stampsAtOnce actKv hs hrow)
  case refine_7 => exact congrArg Host.Outcome.next (State.command_of_stampsAtOnce actKv hs hrow)
  case refine_8 => exact congrArg Host.Outcome.next (State.command_of_stampsAtOnce actKv hs hrow)

end Sys2Proof.Machine

end

section
/-! Attention in a step, for the statements of chapter 7. -/

namespace Sys2Proof.Machine

/- The elaborator's threads each take a stack: one proof at a time keeps a text of this length within the memory limit. -/
set_option Elab.async false

namespace State

/-! ## A run of attention in its cohort -/

/-- Cohort `k`'s run `r` at `a` stands in the state, with the entries and the context of `k`. -/
def HasRun (s : State) (a : AttnRef) (k : Cohort) (r : AttnRun) : Prop :=
  ∃ k1, s.cohort? a.slot = some k1 ∧ k1.attn? a = some r ∧ k1.entries = k.entries ∧ k1.ctx = k.ctx

section

variable {s t : State} {a : AttnRef} {k : Cohort} {r : AttnRun}

theorem HasRun.of_gen (h : s.HasRun a k r) (hg : t.gen = s.gen) : t.HasRun a k r := by
  obtain ⟨k1, hk1, hrest⟩ := h
  exact ⟨k1, (cohort?_congr (congrArg GenSt.cohorts hg) _).trans hk1, hrest⟩

theorem HasRun.run (h : s.HasRun a k r) : (s.cohort? a.slot).bind (fun k => k.attn? a) = some r := by
  obtain ⟨k1, hk1, hr, -, -⟩ := h
  rw [hk1]
  exact hr

/-- A change of the cohort that leaves its runs, entries and context. -/
theorem HasRun.updCohort (h : s.HasRun a k r) {f : Cohort → Cohort}
    (hf : ∀ k, (f k).slot = k.slot ∧ (f k).attns = k.attns ∧ (f k).entries = k.entries ∧ (f k).ctx = k.ctx) (n : Nat) :
    (s.updCohort n f).HasRun a k r := by
  obtain ⟨k1, hk1, hr, hents, hctx⟩ := h
  by_cases hn : n = a.slot
  · subst hn
    refine ⟨f k1, by rw [cohort?_updCohort_same s a.slot fun k => (hf k).1, hk1]; rfl, ?_, (hf k1).2.2.1.trans hents, (hf k1).2.2.2.trans hctx⟩
    unfold Cohort.attn?
    rw [(hf k1).2.1]
    exact hr
  · refine ⟨k1, Eq.trans (find?_updWhere_other (p := fun k : Cohort => k.slot == n) (fun y hy => ?_) _) hk1, hr, hents, hctx⟩
    have hy' : y.slot = n := by simpa using hy
    rw [(hf y).1, hy']
    exact ⟨by simpa using hn, by simpa using hn⟩

theorem HasRun.updAttn (h : s.HasRun a k r) {f : AttnRun → AttnRun}
    (hf : ∀ x, (f x).entry = x.entry ∧ (f x).layer = x.layer ∧ (f x).group = x.group) : (s.updAttn a f).HasRun a k (f r) := by
  obtain ⟨k1, hk1, hr, hents, hctx⟩ := h
  refine ⟨{ k1 with attns := updWhere (fun x => x.entry == a.entry && x.layer == a.layer && x.group == a.group) f k1.attns }, ?_, ?_, hents, hctx⟩
  · exact (cohort?_updCohort_same s a.slot (f := fun k => { k with
      attns := updWhere (fun x => x.entry == a.entry && x.layer == a.layer && x.group == a.group) f k.attns }) fun _ => rfl).trans
      (congrArg (Option.map _) hk1)
  · exact (find?_updWhere_same (p := fun x : AttnRun => x.entry == a.entry && x.layer == a.layer && x.group == a.group) (f := f)
      (fun x hx => by rw [(hf x).1, (hf x).2.1, (hf x).2.2]; exact hx) k1.attns).trans (congrArg (Option.map f) hr)

theorem HasRun.measured (h : s.HasRun a k r) (s0 : State) (n : Nat) : (s.measured s0 n).HasRun a k r :=
  h.updCohort (f := fun k => { k with bytes := k.bytes + (s.moved - s0.moved) }) (fun _ => ⟨rfl, rfl, rfl, rfl⟩) n

theorem HasRun.arrayBusy (h : s.HasRun a k r) (n i c : Nat) : (s.arrayBusy n i c).HasRun a k r :=
  h.updCohort (f := fun k => { k with busy := k.busy + c * 320 / (14 * max 1 (s.setClock i)) }) (fun _ => ⟨rfl, rfl, rfl, rfl⟩) n

theorem HasRun.putRows (h : s.HasRun a k r) (n e layer : Nat) (rows : List (List Nat)) : (s.putRows n e layer rows).HasRun a k r := by
  unfold State.putRows
  refine HasRun.updCohort h ?_ n
  exact fun _ => ⟨rfl, rfl, rfl, rfl⟩

theorem HasRun.attnFull (h : s.HasRun a k r) (n : Nat) : (s.attnFull n).HasRun a k r := by
  unfold State.attnFull
  refine HasRun.updCohort h ?_ n
  exact fun _ => ⟨rfl, rfl, rfl, rfl⟩

theorem hasRun_self (hk : s.cohort? a.slot = some k) (hr : k.attn? a = some r) : s.HasRun a k r := ⟨k, hk, hr, rfl, rfl⟩

end

/-! ## Choosing pages -/

theorem gen_addSplits_foldl (f : State → Split → State) (hf : ∀ s x, Within [.regs, .sch, .fl] s (f s x)) (l : List Split) (s : State) :
    (l.foldl f s).gen = s.gen := foldl_keeps (g := State.gen) (fun u x => (hf u x).gen (by decide)) l s

/-- New splits leave the choice of their run. -/
theorem hasRun_addSplits {s : State} {a : AttnRef} {k : Cohort} {r : AttnRun} (h : s.HasRun a k r) (pages : List Nat) :
    ∃ q, (s.addSplits a pages).HasRun a k q ∧ q.chosen = r.chosen ∧ q.retr = r.retr := by
  obtain ⟨k1, hk1, hr, -, -⟩ := id h
  unfold addSplits
  rw [hk1]
  dsimp -zeta only
  rw [hr]
  split
  next x c hr0 hx hc =>
    obtain rfl := Option.some.inj hr0
    extract_lets d die e cut s1 s2 cls
    have hs1 : s1.HasRun a k r := by
      simp only [s1]
      split
      · exact h.of_gen ((count_within ..).gen (by decide))
      · exact h
    have hs2 := hs1.updAttn (f := fun r => { r with splits := sortBy (fun (x : Split) => x.pages.headD 0) (r.splits ++ cut.1) })
      fun _ => ⟨rfl, rfl, rfl⟩
    refine ⟨_, HasRun.of_gen hs2 (gen_addSplits_foldl _ (fun u sp => ?_) _ _), rfl, rfl⟩
    refine Within.foldl ?_ fun v rb => (addRoam_within ..).mono (by decide)
    split
    · exact Within.foldl .refl fun v n => (queueSpill_within ..).mono (by decide)
    · exact .refl
  · exact ⟨r, h, rfl, rfl⟩

/-- On the device that merges the sequence, a check of a run only lets its merge begin. -/
theorem attnCheck_of_mergesHere {s : State} {a : AttnRef} {k : Cohort} {r : AttnRun} {x : CEntry} {c : KvCtx} (h : s.HasRun a k r)
    (hx : k.entries[a.entry]? = some x) (hc : s.kv? k.ctx = some c) (hm : s.mergesHere c x = true) : Within [.sch] s (s.attnCheck a) := by
  obtain ⟨k1, hk1, hr, hents, hctx⟩ := h
  rw [← hents] at hx
  rw [← hctx] at hc
  unfold attnCheck
  rw [hk1]
  dsimp only
  rw [hr, hx, hc]
  dsimp only
  rw [hm]
  refine Within.ite (fun _ => .refl) fun _ => ?_
  rw [if_neg (by simp)]
  exact Within.ite (fun _ => .refl) fun _ => addTask_within ..

theorem mergesHere_congr {s t : State} (h : t.fix = s.fix) (c : KvCtx) (x : CEntry) : t.mergesHere c x = s.mergesHere c x := by
  unfold mergesHere mergeDev
  rw [h]

theorem kv?_congr {s t : State} (h : t.kv.ctxs = s.kv.ctxs) (x : Nat) : t.kv? x = s.kv? x := by
  unfold kv?
  rw [h]

/-- The end of a choice keeps the pages chosen. -/
theorem choiceEnd_chosen {s : State} {a : AttnRef} {k : Cohort} {r : AttnRun} {x : CEntry} {c : KvCtx} (h : s.HasRun a k r)
    (hx : k.entries[a.entry]? = some x) (hc : s.kv? k.ctx = some c) (hm : s.mergesHere c x = true) (pick : List Nat) :
    ∃ q, ((s.choiceEnd a pick).cohort? a.slot).bind (fun k => k.attn? a) = some q ∧ q.chosen = true ∧ q.retr = pick ∧
      ∀ b, (s.choiceEnd a pick).byte b = s.byte b := by
  unfold choiceEnd
  have hchosen := h.updAttn (f := fun r => { r with chosen := true, retr := pick }) fun _ => ⟨rfl, rfl, rfl⟩
  obtain ⟨q, hq, hqc, hqr⟩ := hasRun_addSplits hchosen pick
  have hcheck := attnCheck_of_mergesHere hq hx
    ((kv?_congr (congrArg KvSt.ctxs (((addSplits_within ..).kv (by decide)).trans ((updAttn_within ..).kv (by decide)))) _).trans hc)
    ((mergesHere_congr (((addSplits_within ..).fix (by decide)).trans ((updAttn_within ..).fix (by decide))) _ _).trans hm)
  refine ⟨q, (hq.of_gen (hcheck.gen (by decide))).run, hqc, hqr, fun b => ?_⟩
  rw [hcheck.byte (by decide), (addSplits_within ..).byte (by decide), (updAttn_within ..).byte (by decide)]

/-- Counting a choice leaves the run. -/
theorem hasRun_countChoice {s : State} {a : AttnRef} {k : Cohort} {r : AttnRun} (h : s.HasRun a k r) (c : KvCtx) (k0 : Cohort) (d : Body)
    (x : CEntry) (m : Nat) (mine : List Nat) : (s.countChoice c k0 d a x m mine).HasRun a k r := by
  unfold countChoice
  dsimp only
  refine HasRun.measured (HasRun.arrayBusy (h.of_gen ?_) ..) ..
  rw [(countPageList_within ..).gen (by decide)]
  refine Eq.trans (foldl_keeps (g := State.gen) (fun u n => ?_) _ _) ?_
  · rw [(metaTraffic_within ..).gen (by decide), (metaTraffic_within ..).gen (by decide)]
  · rw [(tally_within ..).gen (by decide), (count_within ..).gen (by decide)]

section

variable {s : State} {a : AttnRef} {un : List Nat} {k : Cohort} {r : AttnRun} {x : CEntry} {c : KvCtx} (hk : s.cohort? a.slot = some k)
  (hr : k.attn? a = some r) (hx : k.entries[a.entry]? = some x) (hc : s.kv? k.ctx = some c) (hnew : r.chosen = false) (hnone : r.listed = false)

include hk hr hx hc hnew hnone

/-- A choice among all eligible pages, where there are no more of them than RETR_PAGES (R176). -/
theorem exec_pageChoiceDone_all (hall : (s.eligible (s.attnDesc a.layer) x).length ≤ adRetr (s.attnDesc a.layer))
    (hpick : ∀ n ∈ s.eligible (s.attnDesc a.layer) x, s.pageHere c { seq := x.seq, layer := a.layer, group := a.group, page := n } = true →
      n ∉ un ∧ pwState (s.pageWord c { seq := x.seq, layer := a.layer, group := a.group, page := n }) ≠ 3 ∧
      (pwState (s.pageWord c { seq := x.seq, layer := a.layer, group := a.group, page := n }) ≠ 2 →
        s.pageReadable c { seq := x.seq, layer := a.layer, group := a.group, page := n } = true)) :
    exec (.pageChoiceDone a un) s = .next ((s.count (Reg.attnRetrAllCnt (r.merge / 128))).choiceEnd a (s.eligible (s.attnDesc a.layer) x)) := by
  show execPageChoiceDone a un s = _
  unfold execPageChoiceDone
  rw [hk]
  dsimp only
  rw [hr, hx, hc]
  dsimp only
  rw [hnew, hnone, if_neg (by simp), decide_eq_true hall]
  simp only [if_true, Bool.not_true, Bool.false_and, Bool.false_eq_true, if_false, List.any_nil, and_false, Bool.true_or]
  rw [List.find?_eq_none.2 fun n hn hbad => ?_]
  simp only [Bool.and_eq_true, Bool.or_eq_true, List.contains_iff_mem, beq_iff_eq, bne_iff_ne, Bool.not_eq_true'] at hbad
  obtain ⟨hhere, hbad⟩ := hbad
  obtain ⟨h1, h2, h3⟩ := hpick n hn hhere
  rcases hbad with (hbad | hbad) | ⟨hst, hread⟩
  · exact h1 hbad
  · exact h2 hbad
  · rw [h3 hst] at hread
    cases hread

/-- A choice by score, where there are more eligible pages and this device's own can be read (R176). -/
theorem exec_pageChoiceDone_best {d : Body} {ref : Nat → PageRef} {mine : List Nat} {sc : List (Nat × Nat)} (hd : d = s.attnDesc a.layer)
    (href : ref = fun n => { seq := x.seq, layer := a.layer, group := a.group, page := n })
    (hmine : mine = (s.eligible d x).filter (fun n => s.pageHere c (ref n))) (hsc : sc = bestPages (adRetr d) (s.pageScores c k d a x mine))
    (hmany : adRetr d < (s.eligible d x).length) (hread : ∀ n ∈ mine, s.listReadable c (ref n) = true ∧ s.metaReadable c (ref n) = true) :
    exec (.pageChoiceDone a un) s = .next (
      if !s.mergesHere c x then
        ((s.countChoice c k d a x r.merge mine).updAttn a (fun r => { r with listed := true })).sendList c x (ref 0) false [s.mergeDev c x] sc
      else if c.layout = 2 ∧ ((s.others c).map (s.farList c x (ref 0))).any (fun l => l.isNone) then s
      else
        let best := if c.layout = 2 then bestPages (adRetr d) (sc ++ (((s.others c).map (s.farList c x (ref 0))).filterMap id).flatten) else sc
        match (sortBy id (best.map (fun e => e.1))).find? (fun n => s.pageHere c (ref n) && (un.contains n ||
            pwState (s.pageWord c (ref n)) == 3 || (pwState (s.pageWord c (ref n)) != 2 && !s.pageReadable c (ref n)))) with
        | some n => s.badPage c a.slot a.entry (ref n) (r.merge / 128)
        | none => (if c.layout ≠ 2 then s.countChoice c k d a x r.merge mine
            else ((s.countChoice c k d a x r.merge mine).takeFar (fun y => pktBelongs y c x a.layer a.group && (match y.place with
              | .pageList _ _ _ _ _ => true
              | _ => false))).sendList c x (ref 0) true (s.others c) best).choiceEnd a (sortBy id (best.map (fun e => e.1)))) := by
  subst hd href hsc
  have hfind : mine.find? (fun n => !s.listReadable c { seq := x.seq, layer := a.layer, group := a.group, page := n } ||
      !s.metaReadable c { seq := x.seq, layer := a.layer, group := a.group, page := n }) = none := by
    rw [List.find?_eq_none]
    intro n hn
    obtain ⟨h1, h2⟩ := hread n hn
    rw [h1, h2]
    decide
  subst hmine
  show execPageChoiceDone a un s = _
  unfold execPageChoiceDone
  rw [hk]
  dsimp only
  rw [hr, hx, hc]
  dsimp only
  rw [hnew, hnone, if_neg (by simp), decide_eq_false (by omega), if_neg (by simp), hfind]
  dsimp only
  simp only [Bool.false_eq_true, if_false, Bool.not_false, Bool.true_and, Bool.false_or, decide_eq_true_eq] <;> rfl

end

/-- A chosen page can be read where its split runs, unless it is on another device. -/
def PickOk (s : State) (c : KvCtx) (ref : Nat → PageRef) (un : List Nat) (n : Nat) : Prop :=
  s.pageHere c (ref n) = true → n ∉ un ∧ pwState (s.pageWord c (ref n)) ≠ 3 ∧
    (pwState (s.pageWord c (ref n)) ≠ 2 → s.pageReadable c (ref n) = true)

theorem find?_pick_none {s : State} {c : KvCtx} {ref : Nat → PageRef} {un pick : List Nat} (h : ∀ n ∈ pick, s.PickOk c ref un n) :
    pick.find? (fun n => s.pageHere c (ref n) && (un.contains n || pwState (s.pageWord c (ref n)) == 3 ||
      (pwState (s.pageWord c (ref n)) != 2 && !s.pageReadable c (ref n)))) = none := by
  rw [List.find?_eq_none]
  intro n hn hbad
  simp only [Bool.and_eq_true, Bool.or_eq_true, List.contains_iff_mem, beq_iff_eq, bne_iff_ne, Bool.not_eq_true'] at hbad
  obtain ⟨hhere, hbad⟩ := hbad
  obtain ⟨h1, h2, h3⟩ := h n hn hhere
  rcases hbad with (hbad | hbad) | ⟨hst, hread⟩
  · exact h1 hbad
  · exact h2 hbad
  · rw [h3 hst] at hread
    cases hread

section

variable {s : State} {a : AttnRef} {un : List Nat} {k : Cohort} {r : AttnRun} {x : CEntry} {c : KvCtx} (hk : s.cohort? a.slot = some k)
  (hr : k.attn? a = some r) (hx : k.entries[a.entry]? = some x) (hc : s.kv? k.ctx = some c) (hnew : r.chosen = false) (hnone : r.listed = false)
  {d : Body} {ref : Nat → PageRef} {mine : List Nat} {sc : List (Nat × Nat)} (hd : d = s.attnDesc a.layer)
  (href : ref = fun n => { seq := x.seq, layer := a.layer, group := a.group, page := n })
  (hmine : mine = (s.eligible d x).filter (fun n => s.pageHere c (ref n))) (hsc : sc = bestPages (adRetr d) (s.pageScores c k d a x mine))
  (hread : adRetr d < (s.eligible d x).length → ∀ n ∈ mine, s.listReadable c (ref n) = true ∧ s.metaReadable c (ref n) = true)

include hk hr hx hc hnew hnone hd href hmine hsc hread

/-- The device that merges the sequence keeps the pages chosen. -/
theorem exec_pageChoiceDone_here (hm : s.mergesHere c x = true)
    (hfar : adRetr d < (s.eligible d x).length → c.layout = 2 → ∀ l ∈ (s.others c).map (s.farList c x (ref 0)), l ≠ none) {pick : List Nat}
    (hp : pick = (if (s.eligible d x).length ≤ adRetr d then s.eligible d x
      else if c.layout = 2 then choosePages (adRetr d) (sc ++ (((s.others c).map (s.farList c x (ref 0))).filterMap id).flatten)
      else sortBy id (sc.map (fun e => e.1)))) (hok : ∀ n ∈ pick, s.PickOk c ref un n) :
    ∃ t q, exec (.pageChoiceDone a un) s = .next t ∧ (t.cohort? a.slot).bind (fun k => k.attn? a) = some q ∧ q.chosen = true ∧
      q.retr = pick ∧ ∀ b, t.byte b = s.byte b := by
  have hrun := hasRun_self hk hr
  by_cases hall : (s.eligible d x).length ≤ adRetr d
  · rw [if_pos hall] at hp
    subst hp hd href
    have hw := count_within s (Reg.attnRetrAllCnt (r.merge / 128)) 1
    obtain ⟨q, hq, hqc, hqr, hb⟩ := choiceEnd_chosen (hrun.of_gen (hw.gen (by decide))) hx
      ((kv?_congr (congrArg KvSt.ctxs (hw.kv (by decide))) _).trans hc) ((mergesHere_congr (hw.fix (by decide)) _ _).trans hm)
      (s.eligible (s.attnDesc a.layer) x)
    exact ⟨_, q, exec_pageChoiceDone_all hk hr hx hc hnew hnone hall hok, hq, hqc, hqr, fun b => (hb b).trans (hw.byte (by decide) b)⟩
  · have hmany : adRetr d < (s.eligible d x).length := by omega
    rw [if_neg hall] at hp
    have hexec := exec_pageChoiceDone_best (un := un) hk hr hx hc hnew hnone hd href hmine hsc hmany (hread hmany)
    set best := if c.layout = 2 then bestPages (adRetr d) (sc ++ (((s.others c).map (s.farList c x (ref 0))).filterMap id).flatten) else sc with hbest
    have hpick : sortBy id (best.map (fun e => e.1)) = pick := by
      rw [hp, hbest]
      split
      · rfl
      · rfl
    have hnofar : ¬(c.layout = 2 ∧ ((s.others c).map (s.farList c x (ref 0))).any (fun l => l.isNone) = true) := by
      rintro ⟨hl, hany⟩
      obtain ⟨l, hmem, hl2⟩ := List.any_eq_true.1 hany
      exact hfar hmany hl l hmem (Option.isNone_iff_eq_none.1 hl2)
    rw [hm, if_neg (by simp), if_neg hnofar] at hexec
    dsimp only at hexec
    rw [hpick, find?_pick_none hok] at hexec
    have hcount := hasRun_countChoice hrun c k d x r.merge mine
    have hstate : ∀ v : State, Within [.outbox, .zwx, .kv] (s.countChoice c k d a x r.merge mine) v → v.kv.ctxs = s.kv.ctxs →
        ∃ q, ((v.choiceEnd a pick).cohort? a.slot).bind (fun k => k.attn? a) = some q ∧ q.chosen = true ∧ q.retr = pick ∧
          ∀ b, (v.choiceEnd a pick).byte b = s.byte b := by
      intro v hv hctxs
      obtain ⟨q, hq, hqc, hqr, hb⟩ := choiceEnd_chosen (hcount.of_gen (hv.gen (by decide))) hx ((kv?_congr hctxs _).trans hc)
        ((mergesHere_congr ((hv.fix (by decide)).trans ((countChoice_within ..).fix (by decide))) _ _).trans hm) pick
      refine ⟨q, hq, hqc, hqr, fun b => ?_⟩
      rw [hb, hv.byte (by decide), (countChoice_within ..).byte (by decide)]
    have hkv : (s.countChoice c k d a x r.merge mine).kv = s.kv := (countChoice_within ..).kv (by decide)
    obtain ⟨q, hq, hqc, hqr, hb⟩ := hstate (if c.layout ≠ 2 then s.countChoice c k d a x r.merge mine
      else ((s.countChoice c k d a x r.merge mine).takeFar (fun y => pktBelongs y c x a.layer a.group && (match y.place with
        | .pageList _ _ _ _ _ => true
        | _ => false))).sendList c x (ref 0) true (s.others c) best)
      (Within.ite (fun _ => .refl) fun _ => Within.andThen (sendList_within ..) (by decide) ((takeFar_within ..).mono (by decide)))
      (by
        split
        · rw [hkv]
        · rw [(sendList_within ..).kv (by decide)]
          show (s.countChoice c k d a x r.merge mine).kv.ctxs = _
          rw [hkv])
    exact ⟨_, q, hexec, hq, hqc, hqr, hb⟩

/-- Another device sends its list and keeps waiting. -/
theorem exec_pageChoiceDone_there (hm : s.mergesHere c x = false) (hmany : adRetr d < (s.eligible d x).length) :
    ∃ t q, exec (.pageChoiceDone a un) s = .next t ∧ (t.cohort? a.slot).bind (fun k => k.attn? a) = some q ∧ q.listed = true ∧
      q.chosen = false ∧ ∀ b, t.byte b = s.byte b := by
  have hexec := exec_pageChoiceDone_best (un := un) hk hr hx hc hnew hnone hd href hmine hsc hmany (hread hmany)
  rw [hm, if_pos (by simp)] at hexec
  have hlisted := (hasRun_countChoice (hasRun_self hk hr) c k d x r.merge mine).updAttn (f := fun r => { r with listed := true })
    fun _ => ⟨rfl, rfl, rfl⟩
  refine ⟨_, _, hexec, (hlisted.of_gen ((sendList_within ..).gen (by decide))).run, rfl, hnew, fun b => ?_⟩
  rw [(sendList_within ..).byte (by decide), (updAttn_within ..).byte (by decide), (countChoice_within ..).byte (by decide)]

end

/-! ## Merging and appending -/

/-- The output of a run is kept, its parts are not (R183). -/
theorem hasRun_attnOut {s : State} {a : AttnRef} {k : Cohort} {r : AttnRun} (h : s.HasRun a k r) (rows : List (List Nat)) :
    (s.attnOut a rows).HasRun a k { r with out := some rows, parts := [] } := by
  have hout := h.updAttn (f := fun r => { r with out := some rows, parts := [] }) fun _ => ⟨rfl, rfl, rfl⟩
  have hsettled : ∀ {v : State}, v.HasRun a k { r with out := some rows, parts := [] } →
      v.settleSpills.HasRun a k { r with out := some rows, parts := [] } := by
    rintro v ⟨k1, hk1, hrest⟩
    exact ⟨k1, (cohort?_congr (cohorts_settleSpills v) _).trans hk1, hrest⟩
  unfold attnOut
  dsimp only
  split
  · exact hout
  split
  · exact hout
  · refine hsettled ?_
    split
    · exact ((hout.of_gen ((attnRows_within ..).gen (by decide))).putRows ..).attnFull ..
    · exact hout

theorem exec_attnMerge {s : State} {a : AttnRef} {v : Task} {k : Cohort} {r : AttnRun} {x : CEntry} {c : KvCtx}
    (hv : s.runningTask (.merge a) = some v) (hk : s.cohort? a.slot = some k) (hr : k.attn? a = some r) (hx : k.entries[a.entry]? = some x)
    (hc : s.kv? k.ctx = some c) :
    ∃ t q o, exec (.attnMerge a) s = .next t ∧ (t.cohort? a.slot).bind (fun k => k.attn? a) = some q ∧ q.out = some o ∧
      o.length = x.qlen * (adG (s.attnDesc a.layer) * adR (s.attnDesc a.layer)) ∧ q.parts = [] := by
  have hover := taskOver_within s v
  have hk' : (s.taskOver v).cohort? a.slot = some k := (cohort?_congr (congrArg GenSt.cohorts (hover.gen (by decide))) _).trans hk
  have hc' : (s.taskOver v).kv? k.ctx = some c := (kv?_congr (congrArg KvSt.ctxs (hover.kv (by decide))) _).trans hc
  have hd : (s.taskOver v).attnDesc a.layer = s.attnDesc a.layer := by
    unfold attnDesc mdl
    rw [(SameReads.of_within hover).hBytes_eq, hover.gen (by decide)]
  have hexec : exec (.attnMerge a) s = .next ((s.taskOver v).mergeDone a) := by
    show execAttnMerge a s = _
    unfold execAttnMerge
    rw [hv]
  unfold mergeDone at hexec
  rw [hk'] at hexec
  dsimp only at hexec
  rw [hr, hx, hc', hd] at hexec
  dsimp only at hexec
  refine ⟨_, _, _, hexec, (hasRun_attnOut (HasRun.measured ((hasRun_self hk' hr).of_gen ?_) ..) _).run, rfl, ?_, rfl⟩
  · rw [(saveStats_within ..).gen (by decide), (count_within ..).gen (by decide), (takeFar_within ..).gen (by decide)]
  · rw [List.length_map, List.length_map, List.length_range]
    rfl

/-- The fresh rows leave the step as they enter their pages (R182). -/
theorem exec_kvAppend {s : State} {slot entry layer : Nat} {k : Cohort} {x : CEntry} (hk : s.cohort? slot = some k)
    (hx : k.entries[entry]? = some x) (hleft : x.left = false) (hrun : ∃ r ∈ k.attns, r.entry = entry ∧ r.layer = layer)
    (hout : ∀ r ∈ k.attns, r.entry = entry → r.layer = layer → r.out ≠ none) :
    ∃ t q, exec (.kvAppend slot entry layer) s = .next t ∧ t.cohort? slot = some q ∧
      q.attns = k.attns.filter (fun r => !(r.entry == entry && r.layer == layer)) ∧
      q.fresh = k.fresh.filter (fun f => !(f.entry == entry && f.layer == layer)) ∧ q.entries = k.entries := by
  have hmine : ¬((x.left || (k.attns.filter (fun r => r.entry == entry && r.layer == layer)).isEmpty ||
      (k.attns.filter (fun r => r.entry == entry && r.layer == layer)).any (fun r => r.out.isNone)) = true) := by
    obtain ⟨r, hr, he, hl⟩ := hrun
    have hnonempty : k.attns.filter (fun r => r.entry == entry && r.layer == layer) ≠ [] :=
      List.ne_nil_of_mem (List.mem_filter.2 ⟨hr, by simp [he, hl]⟩)
    simp only [Bool.or_eq_true, List.isEmpty_iff, List.any_eq_true, List.mem_filter, Bool.and_eq_true, beq_iff_eq, Option.isNone_iff_eq_none]
    rintro ((h | h) | ⟨y, ⟨hy, hye, hyl⟩, hnone⟩)
    · rw [hleft] at h
      cases h
    · exact hnonempty h
    · exact hout y hy hye hyl hnone
  suffices h : ∃ t, exec (.kvAppend slot entry layer) s = .next t ∧ ∃ q, t.cohort? slot = some q ∧
      q.attns = k.attns.filter (fun r => !(r.entry == entry && r.layer == layer)) ∧
      q.fresh = k.fresh.filter (fun f => !(f.entry == entry && f.layer == layer)) ∧ q.entries = k.entries by
    obtain ⟨t, hexec, q, hq⟩ := h
    exact ⟨t, q, hexec, hq⟩
  refine ⟨_, rfl, ?_⟩
  rw [hk]
  dsimp -zeta only
  rw [hx]
  dsimp -zeta only
  extract_lets mine d fs s1 s2
  rw [if_neg hmine]
  have hs1 : s1.gen = s.gen := foldl_keeps (g := State.gen) (fun u f => (appendRow_within ..).gen (by decide)) _ s
  have hs2 : s2.gen = s.gen := by
    simp only [s2]
    split
    · rw [(logTokens_within ..).gen (by decide), hs1]
    · exact hs1
  have hk2 : s2.cohort? slot = some k := (cohort?_congr (congrArg GenSt.cohorts hs2) _).trans hk
  have hmeasured : (s2.measured s slot).cohort? slot = some { k with bytes := k.bytes + (s2.moved - s.moved) } :=
    (cohort?_updCohort_same s2 slot (f := fun k => { k with bytes := k.bytes + (s2.moved - s.moved) }) fun _ => rfl).trans
      (congrArg (Option.map _) hk2)
  exact ⟨_, (cohort?_updCohort_same (s2.measured s slot) slot (f := fun k => { k with
      attns := k.attns.filter (fun r => !(r.entry == entry && r.layer == layer))
      fresh := k.fresh.filter (fun f => !(f.entry == entry && f.layer == layer)) }) fun _ => rfl).trans (congrArg (Option.map _) hmeasured),
    rfl, rfl, rfl⟩

/-! ## The backward pass -/

theorem rd_tally_other (s : State) (die : Nat) (n : Tally) {x : Nat}
    (hx : x ∉ [Reg.arithReplayCnt die, Reg.arithPromoteCnt die, Reg.arithOvfCnt die, Reg.arithNanCnt die]) : (s.tally die n).rd x = s.rd x := by
  simp only [List.mem_cons, List.not_mem_nil, or_false, not_or] at hx
  obtain ⟨h1, h2, h3, h4⟩ := hx
  have hadd : ∀ (u : State) (c m : Nat), x ≠ c → (if m > 0 then u.count c m else u).rd x = u.rd x := by
    intro u c m hc
    split
    · exact rd_count_other u m hc
    · rfl
  unfold tally
  dsimp only
  rw [hadd _ _ _ h4, hadd _ _ _ h3, hadd _ _ _ h2, hadd _ _ _ h1]

/-- The backward pass counts, and writes its output object alone (R187). -/
theorem exec_attnBackward {s : State} {r : BwdReq} {e : BwdEntry} {q : Seq} {c : KvCtx} (hhead : r.table.head? = some e)
    (hq : s.seq? e.seq = some q) (hc : s.kv? q.ctx = some c) (hfunc : c.func = r.func) (hst : s.gen.model.st = 2) (hlayer : r.layer < s.mLayers)
    (hall : ∀ y ∈ r.table, (s.seq? y.seq).map (fun q => q.ctx) = some c.ctx) :
    ∃ t die, exec (.attnBackward r) s = .next t ∧ ((∀ o, s.obj? r.func r.outObj = some o → o.inT2 = true) →
        ∀ a, a ∉ [Reg.attnBwdCnt die, Reg.arithReplayCnt die, Reg.arithPromoteCnt die, Reg.arithOvfCnt die, Reg.arithNanCnt die] →
          t.rd a = s.rd a) ∧
      ∀ a, (∀ o, s.obj? r.func r.outObj = some o → ∀ i, a ∉ s.objCells o i) → t.byte a = s.byte a := by
  have hctx : (r.table.head?).bind (fun e => (s.seq? e.seq).bind (fun q => s.kv? q.ctx)) = some c := by
    rw [hhead, Option.bind_some, hq, Option.bind_some, hc]
  have hgo : ¬(c.func ≠ r.func ∨ s.gen.model.st ≠ 2 ∨ r.layer ≥ s.mLayers ∨
      r.table.any (fun e => (s.seq? e.seq).map (fun q => q.ctx) != some c.ctx) = true) := by
    rintro (h | h | h | h)
    · exact h hfunc
    · exact h hst
    · omega
    · obtain ⟨y, hy, hne⟩ := List.any_eq_true.1 h
      simp [hall y hy] at hne
  obtain ⟨b, die, n, hend⟩ : ∃ b die n, s.onAttnBackward r = ((s.hPut r.func r.outObj 0 b).count (Reg.attnBwdCnt die)).tally die n := by
    unfold onAttnBackward
    rw [hctx]
    dsimp only
    rw [if_neg hgo]
    exact ⟨_, _, _, rfl⟩
  refine ⟨_, die, congrArg Host.Outcome.next hend, fun ht2 a ha => ?_, fun a ha => ?_⟩
  · rw [List.mem_cons, not_or] at ha
    rw [rd_tally_other _ _ _ ha.2, rd_count_other _ _ ha.1]
    refine rd_congr ?_ a
    cases ho : s.obj? r.func r.outObj with
    | none =>
      unfold hPut
      rw [ho]
    | some o => exact regs_hPut_of_inT2 ho (ht2 o ho)
  · rw [(tally_within ..).byte (by decide), (count_within ..).byte (by decide)]
    exact Spares.byte_hPut ha _ _

end State

/-- Settles O39, row by row. -/
theorem attentionRunsInAStep : Obligations.AttentionRunsInAStep := by
  unfold Obligations.AttentionRunsInAStep
  refine ⟨?_, fun s a split rb t ht => ⟨fun hgap => ?_, fun g hgap => ?_⟩, fun s a v k r x c hv hk hr hx hc => State.exec_attnMerge hv hk hr hx hc,
    fun s slot entry layer k x hk hx hleft hrun hout => State.exec_kvAppend hk hx hleft hrun hout,
    fun s r e q c hhead hq hc hfunc hst hlayer hall => State.exec_attnBackward hhead hq hc hfunc hst hlayer hall⟩
  case refine_1 =>
    rintro s a un pick el mine sc far k r x c d ref hk hr hx hc hnew hnone hd rfl href hmine hsc rfl hread
    exact ⟨fun hm hfar hp hok => State.exec_pageChoiceDone_here hk hr hx hc hnew hnone hd href hmine hsc hread hm hfar hp hok,
      fun hm hmany => State.exec_pageChoiceDone_there hk hr hx hc hnew hnone hd href hmine hsc hread hm hmany⟩
  all_goals
    show execAttnSplitDone a split rb s = _
    unfold execAttnSplitDone
    rw [ht]
    dsimp only
    unfold State.endSplit
    rw [hgap]

end Sys2Proof.Machine

end

section
/-! The reset of a partition, for the statements of chapter 12: what ends a command adds no task and leaves the functions' states. -/

namespace Sys2Proof.Machine

/- The elaborator's threads each take a stack: one proof at a time keeps a text of this length within the memory limit. -/
set_option Elab.async false

/-! ## Changes that add no task -/

/-- From `s` to `t` no task was added, and each function is in its old state. -/
structure AddsNoTask (s t : State) : Prop where
  funcs : t.sch.funcs = s.sch.funcs
  tasks : ∀ x ∈ t.sch.tasks, ∃ y ∈ s.sch.tasks, y.func = x.func

namespace AddsNoTask

theorem of_sch {s t : State} (hf : t.sch.funcs = s.sch.funcs) (ht : t.sch.tasks = s.sch.tasks) : AddsNoTask s t :=
  ⟨hf, fun x hx => ⟨x, ht ▸ hx, rfl⟩⟩

theorem refl {s : State} : AddsNoTask s s := of_sch rfl rfl

theorem trans {s t u : State} (h : AddsNoTask s t) (k : AddsNoTask t u) : AddsNoTask s u where
  funcs := k.funcs.trans h.funcs
  tasks x hx := by
    obtain ⟨y, hy, hyx⟩ := k.tasks x hx
    obtain ⟨z, hz, hzy⟩ := h.tasks y hy
    exact ⟨z, hz, hzy.trans hyx⟩

/-- One more operation, which does not touch the scheduler. -/
theorem andThen {s t u : State} {ps : List Field} (k : Within ps t u) (hp : .sch ∉ ps) (h : AddsNoTask s t) : AddsNoTask s u :=
  h.trans (of_sch (congrArg SchedSt.funcs (k.sch hp)) (congrArg SchedSt.tasks (k.sch hp)))

theorem of_within {s t : State} {ps : List Field} (k : Within ps s t) (hp : .sch ∉ ps := by decide) : AddsNoTask s t := refl.andThen k hp

/-- What follows a change of other parts. -/
theorem after {s r t : State} (k : AddsNoTask r t) (h : r.sch = s.sch := by rfl) : AddsNoTask s t :=
  (of_sch (congrArg SchedSt.funcs h) (congrArg SchedSt.tasks h)).trans k

/-- A change of other parts follows. -/
theorem same {s t u : State} (h : AddsNoTask s t) (k : u.sch = t.sch := by rfl) : AddsNoTask s u :=
  h.trans (of_sch (congrArg SchedSt.funcs k) (congrArg SchedSt.tasks k))

theorem foldl {α : Type} {f : State → α → State} (hf : ∀ s x, AddsNoTask s (f s x)) (l : List α) (s : State) : AddsNoTask s (l.foldl f s) :=
  List.foldlRecOn (motive := fun t => AddsNoTask s t) l f refl fun t ht x _ => ht.trans (hf t x)

theorem ite {c : Prop} [Decidable c] {s t u : State} (ht : c → AddsNoTask s t) (hu : ¬c → AddsNoTask s u) : AddsNoTask s (if c then t else u) := by
  split
  · exact ht ‹_›
  · exact hu ‹_›

/-- Dropping tasks adds none. -/
theorem filter {s t : State} (h : AddsNoTask s t) (p : Task → Bool) :
    AddsNoTask s { t with sch := { t.sch with tasks := t.sch.tasks.filter p } } :=
  ⟨h.funcs, fun x hx => h.tasks x (List.mem_filter.1 hx).1⟩

/-! ## Accounting and traffic -/

theorem chargeSpan (s : State) (x : LateAcct) : AddsNoTask s (s.chargeSpan x) :=
  of_sch (State.sch_chargeSpan (g := SchedSt.funcs) (fun _ _ _ => rfl) (fun _ _ => rfl) s x)
    (State.sch_chargeSpan (g := SchedSt.tasks) (fun _ _ _ => rfl) (fun _ _ => rfl) s x)

theorem charge (s : State) (f : Nat) (g : Acct → Acct) : AddsNoTask s (s.charge f g) := chargeSpan ..

theorem chargeSince (s : State) (t : Task) (u : Nat) : AddsNoTask s (s.chargeSince t u) := (chargeSpan ..).trans (of_sch rfl rfl)

theorem chargeRun (s : State) (t : Task) (killed : Bool) : AddsNoTask s (s.chargeRun t killed) := by
  unfold State.chargeRun
  dsimp only
  split
  · exact (chargeSince ..).trans (chargeSpan ..)
  · exact chargeSince ..

theorem killRun (s : State) (t : Task) : AddsNoTask s (s.killRun t) := by
  have hleft : AddsNoTask s (((s.chargeRun t true).count Reg.schedKillCnt).leave t 0) :=
    andThen (State.leave_within ..) (by decide) (andThen (State.count_within ..) (by decide) (chargeRun ..))
  unfold State.killRun
  dsimp only
  split
  · exact andThen (State.clearIslet_within ..) (by decide) hleft
  · exact hleft

theorem dropTasks (s : State) (p : Task → Bool) : AddsNoTask s (s.dropTasks p) := (foldl killRun _ s).filter _

theorem seqOver (s : State) (p : Task → Bool) : AddsNoTask s (s.seqOver p) := (foldl (fun s t => chargeRun s t false) _ s).filter _

theorem traffic (s : State) (stack f h by_ rd wr : Nat) : AddsNoTask s (s.traffic stack f h by_ rd wr) := by
  unfold State.traffic
  extract_lets add
  exact after (charge ..)

theorem granTraffic (s : State) (by_ f h stack g rd wr : Nat) : AddsNoTask s (s.granTraffic by_ f h stack g rd wr) :=
  ite (fun _ => (traffic ..).trans (traffic ..)) fun _ => traffic ..

theorem objTraffic (s : State) (by_ : Nat) (o : Obj) (write : Bool) (off n : Nat) : AddsNoTask s (s.objTraffic by_ o write off n) :=
  ite (fun _ => foldl (fun _ _ => granTraffic ..) _ s) fun _ => charge ..

theorem objStore (s : State) (by_ : Nat) (o : Obj) (off : Nat) (b : List Byte) : AddsNoTask s (s.objStore by_ o off b) := by
  have h1 : AddsNoTask s ((s.objPuts o off b).objTraffic by_ o true off b.length) := (of_within (State.objPuts_within ..)).trans (objTraffic ..)
  refine ite (fun _ => h1) fun _ => h1.trans (foldl (fun u p => ?_) _ _)
  split
  · exact of_within (State.mapBytes_within ..)
  · exact refl

theorem hPut (s : State) (f n off : Nat) (b : List Byte) : AddsNoTask s (s.hPut f n off b) := by
  unfold State.hPut
  split
  · exact objStore ..
  · exact refl

theorem setPage (s : State) (c : KvCtx) (p : PageRef) (f : Nat → Nat) : AddsNoTask s (s.setPage c p f) := by
  unfold State.setPage
  split
  · exact hPut ..
  · exact refl

/-! ## Completion -/

theorem dropLive (s : State) (r : CmdRef) : AddsNoTask s (s.dropLive r) := by
  unfold State.dropLive
  split
  · exact refl
  · refine of_sch ?_ ?_
    all_goals
      dsimp only
      split
      · split <;> rfl
      · rfl

theorem releaseHeld (s : State) : AddsNoTask s s.releaseHeld := by
  refine foldl (fun u l => ?_) _ s
  refine andThen (State.deliver_within ..) (by decide) ?_
  split <;> exact of_sch rfl rfl

theorem complete (s : State) (r : CmdRef) (status : Nat) (body : Body) : AddsNoTask s (s.complete r status body) := by
  unfold State.complete
  split
  · exact refl
  · exact (andThen (State.answer_within ..) (by decide) (andThen (State.noteLoad_within ..) (by decide) (dropLive ..))).trans (releaseHeld _)

/-! ## Pages -/

theorem freeFrame (s : State) (x i f : Nat) : AddsNoTask s (s.freeFrame x i f) := of_sch rfl rfl

theorem leafChunk {s t : State} {c : KvCtx} {p : PageRef} {q : Seq} {k : Nat} (h : s.leafChunk c p q = some (k, t)) : AddsNoTask s t := by
  unfold State.leafChunk at h
  dsimp only at h
  split at h
  · split at h
    · exact nomatch h
    next r hr =>
      obtain rfl := congrArg Prod.snd (Option.some.inj h)
      exact ((of_within (State.takeChunk_within hr)).trans (hPut ..)).trans (hPut ..)
  · obtain rfl := congrArg Prod.snd (Option.some.inj h)
    exact refl

theorem newLeaf {s t : State} {x k : Nat} {c : KvCtx} {p : PageRef} (h : s.newLeaf x c p k = some t) : AddsNoTask s t := by
  unfold State.newLeaf at h
  dsimp only at h
  split at h
  · exact nomatch h
  split at h
  · exact nomatch h
  · obtain rfl := Option.some.inj h
    exact ((of_within (State.updKv_within ..)).trans (hPut ..)).trans (hPut ..)

theorem makeLeaf {s t : State} {x : Nat} {p : PageRef} (h : s.makeLeaf x p = some t) : AddsNoTask s t := by
  unfold State.makeLeaf at h
  split at h
  · split at h
    · obtain rfl := Option.some.inj h
      exact refl
    split at h
    · exact nomatch h
    next r hr => exact (leafChunk hr).trans (newLeaf h)
  · exact nomatch h

theorem bindFrame (s : State) (c : KvCtx) (p : PageRef) (i f : Nat) : AddsNoTask s (s.bindFrame c p i f) :=
  andThen (State.count_within ..) (by decide) (setPage ..)

theorem dropPage (s : State) (c : KvCtx) (p : PageRef) : AddsNoTask s (s.dropPage c p) :=
  andThen (State.count_within ..) (by decide) (andThen (State.ageDrop_within ..) (by decide)
    (andThen (State.freeFrame_within ..) (by decide) (setPage ..)))

theorem spillIssue (s : State) (c : KvCtx) (p : PageRef) (f : Nat) (cmd : Option CmdRef) (spare : Option Nat) :
    AddsNoTask s (s.spillIssue c p f cmd spare) :=
  andThen (State.queueWrite_within ..) (by decide) (same (setPage s c p (fun w => setBits w 49 49 1)))

theorem makeRoom (s : State) (x : Nat) (c : KvCtx) (p : PageRef) : AddsNoTask s (s.makeRoom x c p).1 := by
  unfold State.makeRoom
  split
  · split
    · exact refl
    split
    next r hr => exact ((dropPage ..).trans (of_within (State.takeFrame_within hr))).trans (bindFrame ..)
    · exact dropPage ..
  split
  · exact refl
  split
  · exact refl
  · unfold State.spillOldest
    split
    · exact refl
    · exact spillIssue ..

theorem makePage (s : State) (x : Nat) (p : PageRef) (issue : Bool) : AddsNoTask s (s.makePage x p issue).1 := by
  unfold State.makePage
  split
  · exact refl
  next s0 h0 =>
    have hs0 := makeLeaf h0
    split
    · exact refl
    split
    next r hr => exact (hs0.trans (of_within (State.takeFrame_within hr))).trans (bindFrame ..)
    · split
      · exact hs0
      · exact hs0.trans (makeRoom ..)

theorem makePages (s : State) (x : Nat) (ps : List PageRef) (n : Nat) : AddsNoTask s (s.makePages x ps n).1 := by
  unfold State.makePages
  exact List.foldlRecOn (motive := fun r : State × List Made × Nat => AddsNoTask s r.1) ps _ refl fun r hr p _ => hr.trans (makePage ..)

theorem serveWaiting (s : State) (x : Nat) : AddsNoTask s (s.serveWaiting x) := by
  refine foldl (fun u q => ?_) _ s
  dsimp only
  split
  next =>
    split
    · exact andThen (State.sendHold_within ..) (by decide) (andThen (State.updSeq_within ..) (by decide) (makePages ..))
    · exact makePages ..
  · exact refl

theorem settleSpills (s : State) : AddsNoTask s s.settleSpills :=
  foldl (fun u m => ite (fun _ => refl) fun _ => after (serveWaiting ..)) _ s

theorem undoSpill (s : State) (m : PageMove) : AddsNoTask s (s.undoSpill m) := by
  unfold State.undoSpill
  extract_lets _ s1 s2
  have h1 : AddsNoTask s s1 := after (of_within (State.cancelWrites_within ..))
  refine andThen (State.freeSpill_within ..) (by decide) (ite (fun _ => h1.trans (freeFrame ..)) fun _ => ?_)
  split
  · exact h1.trans (setPage ..)
  · exact h1

theorem undoPromo (s : State) (m : PageMove) : AddsNoTask s (s.undoPromo m) := by
  unfold State.undoPromo
  extract_lets _ s1
  have h1 : AddsNoTask s s1 := of_sch rfl rfl
  refine andThen (State.freeFrame_within ..) (by decide) ?_
  split
  · exact h1.trans (setPage ..)
  · exact h1

theorem dropMoves (s : State) (r : CmdRef) : AddsNoTask s (s.dropMoves r) :=
  andThen (State.pruneReads_within ..) (by decide) (same ((foldl undoSpill _ s).trans (foldl undoPromo _ _)))

theorem freeSeq (s : State) (n : Nat) : AddsNoTask s (s.freeSeq n) := by
  unfold State.freeSeq
  split
  · exact refl
  · exact (of_within (State.freePages_within ..)).trans (after (serveWaiting ..))

/-! ## Cohort steps -/

theorem leaveStep (s : State) (slot e : Nat) : AddsNoTask s (s.leaveStep slot e) :=
  andThen (State.attnFull_within ..) (by decide) (andThen (State.pruneReads_within ..) (by decide)
    ((of_within (State.updCohort_within ..)).trans (dropTasks ..)))

theorem rollPages (s : State) (x : Nat) (e : CEntry) : AddsNoTask s (s.rollPages x e) := by
  unfold State.rollPages
  split
  · refine foldl (fun u p => ?_) _ s
    extract_lets w f s1
    have h1 : AddsNoTask u s1 := andThen (State.ageDrop_within ..) (by decide) (setPage ..)
    exact ite (fun _ => h1.same) fun _ => refl
  · exact refl

theorem clearCohort (s : State) (slot : Nat) : AddsNoTask s (s.clearCohort slot) :=
  andThen (State.pruneReads_within ..) (by decide) (same (dropTasks s (fun t => match t.kind with
    | .stage x _ _ _ _ _ => x == slot
    | .split a _ _ => a.slot == slot
    | .merge a => a.slot == slot
    | .sample x _ => x == slot
    | _ => false)))

theorem discardStep (s : State) (slot : Nat) : AddsNoTask s (s.discardStep slot) := by
  unfold State.discardStep
  split
  · exact refl
  · exact ((clearCohort ..).trans (foldl (fun _ _ => rollPages ..) _ _)).trans (settleSpills _)

theorem dropSteps (s : State) (r : CmdRef) : AddsNoTask s (s.dropSteps r) :=
  after (foldl (fun _ _ => discardStep ..) _ _)

theorem undoSeqOpen (s : State) (n : Nat) : AddsNoTask s (s.undoSeqOpen n) := by
  refine (foldl (fun u k => foldl (fun v e => ?_) _ u) _ s).trans (freeSeq ..)
  exact ite (fun _ => (of_within (State.updEntry_within ..)).trans (leaveStep ..)) fun _ => refl

theorem dropOpens (s : State) (r : CmdRef) : AddsNoTask s (s.dropOpens r) := foldl (fun _ _ => undoSeqOpen ..) _ s

/-! ## Objects -/

theorem allocT3 (s : State) (r : CmdRef) (f : Nat) (b : Body) : AddsNoTask s (s.allocT3 r f b) := by
  have hnew : AddsNoTask s ((takeFree s.capUnits (fun u => !s.usedUnits.contains u) s.usedUnits.length (memGran b) [] s).2.newHandle f).2 :=
    (of_within (takeFree_within ..)).trans (of_within (State.newHandle_within ..))
  exact hnew.trans (after ((of_within (State.dropUnits_within ..)).trans (complete ..)))

theorem runAlloc (s : State) (r : CmdRef) (f : Nat) (b : Body) : AddsNoTask s (s.runAlloc r f b) := by
  unfold State.runAlloc
  dsimp only
  refine ite (fun _ => ite (fun _ => complete ..) fun _ => ite (fun _ => complete ..) fun _ => allocT3 ..) fun _ =>
    ite (fun _ => complete ..) fun _ => ?_
  split
  · exact complete ..
  next g hg =>
    exact ((of_within (State.takeGrans_within hg)).trans (of_within (State.newHandle_within ..))).trans (of_within (State.startMemOp_within ..))

theorem runFree (s : State) (r : CmdRef) (b : Body) (o : Obj) : AddsNoTask s (s.runFree r b o) := by
  unfold State.runFree
  dsimp only
  refine ite (fun _ => complete ..) fun _ => ite (fun _ => andThen (State.count_within ..) (by decide) (complete ..)) fun _ =>
    ite (fun _ => complete ..) fun _ => ?_
  exact after (((of_within (State.dropUnits_within ..)).trans (of_within (State.unforward_within ..))).trans (complete ..))

theorem startCopy (s : State) (k : MemOpKind) (r : CmdRef) (b : Body) (o : Obj) : AddsNoTask s (s.startCopy k r b o) := by
  unfold State.startCopy
  dsimp only
  refine ite (fun _ => complete ..) fun _ => ?_
  split
  · exact complete ..
  next gs s1 hg =>
    exact ((of_within (State.takeGrans_within hg)).trans (of_within (State.copyUnits_within ..))).trans (of_within (State.startMemOp_within ..))

theorem runPromote (s : State) (r : CmdRef) (b : Body) (o : Obj) : AddsNoTask s (s.runPromote r b o) := by
  unfold State.runPromote
  dsimp only
  refine ite (fun _ => complete ..) fun _ => ?_
  split
  · exact complete ..
  next s1 h1 => exact ite (fun _ => (of_within (State.addPin_within h1)).trans (complete ..)) fun _ => startCopy ..

theorem runEvict (s : State) (r : CmdRef) (b : Body) (o : Obj) : AddsNoTask s (s.runEvict r b o) := by
  have hpin : ∀ (f : Obj → Obj) (st : Nat) (body : Body), AddsNoTask s ((s.updObj o f).complete r st body) := fun f st body =>
    (of_within (State.updObj_within ..)).trans (complete ..)
  unfold State.runEvict
  dsimp only
  exact ite (fun _ => complete ..) fun _ => ite (fun _ => complete ..) fun _ => ite (fun _ => andThen (State.count_within ..) (by decide) (hpin ..))
    fun _ => ite (fun _ => hpin ..) fun _ => (of_within (State.copyUnits_within ..)).trans (of_within (State.startMemOp_within ..))

theorem runShare (s : State) (r : CmdRef) (b : Body) (o : Obj) : AddsNoTask s (s.runShare r b o) := by
  unfold State.runShare
  split
  · exact complete ..
  · exact ((of_within (State.newHandle_within s (memTgt b))).trans (of_within (State.updObj_within ..))).trans (complete ..)

theorem runMem (s : State) (r : CmdRef) (h : CmdHdr) (b : Body) : AddsNoTask s (s.runMem r h b) := by
  unfold State.runMem
  split
  · exact complete ..
  refine ite (fun _ => runAlloc ..) fun _ => ?_
  split
  · exact refl
  split
  · exact runFree ..
  · exact ite (fun _ => complete ..) fun _ => ite (fun _ => complete ..) fun _ => startCopy ..
  · exact runPromote ..
  · exact runEvict ..
  · exact runShare ..
  · exact (of_within (State.updObj_within ..)).trans (complete ..)

theorem runMemWaits (s : State) (owner n : Nat) : AddsNoTask s (s.runMemWaits owner n) :=
  foldl (fun u w => ite (fun _ => refl) fun _ => after (runMem ..)) _ s

theorem dropMem (s : State) (r : CmdRef) : AddsNoTask s (s.dropMem r) := by
  unfold State.dropMem
  extract_lets s1 _ s2
  have h2 : AddsNoTask s s2 := same (of_within (State.dropMemOp_within s r))
  split
  · exact h2.trans (runMemWaits ..)
  · exact h2

/-! ## Commands -/

theorem dropQuery (s : State) (q : CmdRef) : AddsNoTask s (s.dropQuery q) := by
  unfold State.dropQuery
  extract_lets s0 banks _ s1
  have h1 : AddsNoTask s s1 := same (seqOver s (fun t => t.kind == .probe && t.cmd == some q))
  split
  · exact andThen (State.bindWaiting_within ..) (by decide) h1
  · exact h1

theorem dropSel (s : State) (r : CmdRef) : AddsNoTask s (s.dropSel r) := by
  unfold State.dropSel
  split
  · exact andThen (State.dropRuns_within ..) (by decide) (after (seqOver ..))
  · exact refl

/-- What a command has under way is dropped. -/
theorem discard (s : State) (l : Live) : AddsNoTask s (s.discard l) := by
  have h0 : AddsNoTask s (s.dropTasks (fun t => t.cmd == some l.h.ref)) := dropTasks ..
  unfold State.discard
  dsimp only
  exact ite (fun _ => h0.trans (dropQuery ..)) fun _ => ite (fun _ => andThen (State.dropMutate_within ..) (by decide) h0) fun _ =>
    ite (fun _ => h0.trans (dropSel ..)) fun _ => ite (fun _ => h0.trans (dropSteps ..)) fun _ => ite (fun _ => h0.trans (dropOpens ..)) fun _ =>
    ite (fun _ => h0.same) fun _ => ite (fun _ => h0.trans (dropMoves ..)) fun _ => ite (fun _ => h0.trans (dropMem ..)) fun _ =>
    ite (fun _ => h0.same) fun _ => h0

end AddsNoTask

namespace State

/-! ## The end of a function's commands -/

theorem fstate_updAt {s : State} {f : Nat} {st : FState} {fs : List FState} (hfs : fs = s.sch.funcs) (h : s.fstate f ≠ .disabled) :
    (updAt f (fun _ => st) fs).getD f .disabled = st := by
  unfold fstate at h
  rw [List.getD_eq_getElem?_getD] at h ⊢
  rw [getElem?_updAt_same, hfs]
  cases hget : s.sch.funcs[f]? with
  | none => simp [hget] at h
  | some x => rfl

/-- Once no islet runs a task of the function, its commands end and no task of it is left. -/
theorem exec_partitionResetKillsDone {s : State} {f cause : Nat} (hf : s.fstate f = .resetting cause false)
    (hidle : ∀ x ∈ s.sch.tasks, x.func = f → x.islet = none) :
    ∃ t, exec (.partitionResetKillsDone f) s = .next t ∧ t.fstate f = .resetting cause true ∧ ∀ x ∈ t.sch.tasks, x.func ≠ f := by
  have hany : s.sch.tasks.any (fun t => t.func == f && t.islet.isSome) = false := by
    rw [List.any_eq_false]
    intro x hx
    by_cases hxf : x.func = f
    · simp [hidle x hx hxf]
    · simp [hxf]
  refine ⟨_, rfl, ?_⟩
  rw [hf]
  dsimp -zeta only
  rw [hany, if_neg (by simp)]
  extract_lets s1 ends s2
  have h1 : AddsNoTask s s1 := (AddsNoTask.dropTasks ..).same
  have hnone : ∀ x ∈ s1.sch.tasks, x.func ≠ f := by
    intro x hx hxf
    have hfilter : x ∈ ((s.sch.tasks.filter (fun t => t.func == f && t.islet.isSome)).foldl State.killRun s).sch.tasks.filter
        (fun t => !(t.func == f)) := hx
    have hne := (List.mem_filter.1 hfilter).2
    simp [hxf] at hne
  have h2 : AddsNoTask s1 s2 := AddsNoTask.foldl (fun u l => (AddsNoTask.discard u l).trans (AddsNoTask.complete ..)) ends s1
  refine ⟨fstate_updAt (h2.funcs.trans h1.funcs) (by rw [hf]; exact FState.noConfusion), fun x hx => ?_⟩
  obtain ⟨y, hy, hyx⟩ := h2.tasks x hx
  rw [← hyx]
  exact hnone y hy

/-! ## The end of what a function holds -/

theorem indexes_freeWork (s : State) (f : Nat) : ∀ x ∈ (s.freeWork f).idx.indexes, x.func ≠ f := by
  unfold freeWork
  extract_lets s1 s2 _ s3
  have hdrop : ∀ (l : List Index) (u : State) (x : Index), x ∈ (l.foldl (fun s x => s.dropIndex x.no) u).idx.indexes →
      x ∈ u.idx.indexes ∧ ∀ y ∈ l, y.no ≠ x.no := by
    intro l
    induction l with
    | nil => exact fun u x hx => ⟨hx, by simp⟩
    | cons y l ih =>
      intro u x hx
      obtain ⟨hmem, hno⟩ := ih _ x hx
      have hkept : x ∈ u.idx.indexes.filter (fun z => z.no != y.no) := hmem
      rw [List.mem_filter] at hkept
      refine ⟨hkept.1, fun z hz => ?_⟩
      rcases List.mem_cons.1 hz with rfl | hz
      · exact fun h => bne_iff_ne.1 hkept.2 h.symm
      · exact hno z hz
  intro x hx hxf
  obtain ⟨hmem, hno⟩ := hdrop _ _ x hx
  exact hno x (List.mem_filter.2 ⟨hmem, by simp [hxf]⟩) rfl

/-- A completion changes no object. -/
theorem objs_complete (s : State) (r : CmdRef) (st : Nat) (b : Body) : (s.complete r st b).mm.objs = s.mm.objs := by
  unfold complete
  split
  · rfl
  next l hl =>
    have hrel : ∀ u : State, u.releaseHeld.mm = u.mm := fun u => by
      refine foldl_keeps (g := State.mm) (fun v l => ?_) _ u
      rw [(deliver_within ..).mm (by decide)]
      split <;> rfl
    rw [hrel, (answer_within ..).mm (by decide), (noteLoad_within ..).mm (by decide)]
    unfold dropLive
    rw [hl]
    dsimp only
    split
    · split <;> rfl
    · rfl

theorem objs_freeObjects (s : State) (f : Nat) : ∀ o ∈ (s.freeObjects f).mm.objs, o.func ≠ f := by
  unfold freeObjects
  extract_lets mine us ops waits _ s1 s2 fin
  have hfin : ∀ (u : State) (r : CmdRef), (fin u r).mm.objs = u.mm.objs := by
    intro u r
    simp only [fin]
    split
    · exact objs_complete ..
    · rfl
  have hs2 : s2.mm.objs = s1.mm.objs := by
    simp only [s2]
    rw [(dropUnits_within ..).mm (by decide)]
    refine foldl_keeps (g := fun u : State => u.mm.objs) ?_ mine s1
    exact fun u o => rfl
  have hend : (waits.foldl (fun s w => fin s w.h.ref) (ops.foldl (fun s x => fin s { func := x.func, tag := x.tag }) s2)).mm.objs = s1.mm.objs := by
    refine (foldl_keeps (g := fun u : State => u.mm.objs) (fun u w => hfin u _) waits _).trans ?_
    exact (foldl_keeps (g := fun u : State => u.mm.objs) (fun u x => hfin u _) ops s2).trans hs2
  rw [hend]
  intro o ho
  obtain ⟨p, hp, rfl⟩ := List.mem_map.1 ho
  simpa using (List.mem_filter.1 hp).2

theorem sch_freeContexts (s : State) (f : Nat) : (∀ c ∈ (s.freeContexts f).sch.ctxs, c.func ≠ f) ∧ (∀ c ∈ (s.freeContexts f).sch.chans, c.func ≠ f) ∧
    ∀ x ∈ (s.freeContexts f).sch.tasks, x.func ≠ f := by
  unfold freeContexts
  exact ⟨fun c hc => by simpa using (List.mem_filter.1 hc).2, fun c hc => by simpa using (List.mem_filter.1 hc).2,
    fun c hc => by simpa using (List.mem_filter.1 hc).2⟩

theorem mm_freeContexts (s : State) (f : Nat) : (s.freeContexts f).mm.objs = s.mm.objs := by
  unfold freeContexts
  refine foldl_keeps (g := fun u : State => u.mm.objs) ?_ _ s
  exact fun u c => rfl

/-- What function `f` holds is freed, and its key drawn anew. -/
def freeFunc (s : State) (f : Nat) : State := ((((s.freeWork f).freeObjects f).freeContexts f).abandonFunc f).drawKey f

/-- Nothing in the state is the function's. -/
structure HoldsNothing (s : State) (f : Nat) : Prop where
  objs : ∀ o ∈ s.mm.objs, o.func ≠ f
  ctxs : ∀ c ∈ s.sch.ctxs, c.func ≠ f
  chans : ∀ c ∈ s.sch.chans, c.func ≠ f
  tasks : ∀ x ∈ s.sch.tasks, x.func ≠ f
  indexes : ∀ x ∈ s.idx.indexes, x.func ≠ f

theorem objs_abandonFunc (s : State) (f : Nat) : (s.abandonFunc f).mm.objs = s.mm.objs := rfl

theorem holdsNothing_freeFunc (s : State) (f : Nat) : (s.freeFunc f).HoldsNothing f := by
  have hmm : (s.freeFunc f).mm.objs = ((s.freeWork f).freeObjects f).mm.objs := by
    unfold freeFunc
    rw [(drawKey_within ..).mm (by decide), objs_abandonFunc, mm_freeContexts]
  have hsch : (s.freeFunc f).sch = (((s.freeWork f).freeObjects f).freeContexts f).sch := by
    unfold freeFunc
    rw [(drawKey_within ..).sch (by decide), (abandonFunc_within ..).sch (by decide)]
  have hidx : (s.freeFunc f).idx = (s.freeWork f).idx := by
    unfold freeFunc
    rw [(drawKey_within ..).idx (by decide), (abandonFunc_within ..).idx (by decide), (freeContexts_within ..).idx (by decide),
      (freeObjects_within ..).idx (by decide)]
  obtain ⟨hctxs, hchans, htasks⟩ := sch_freeContexts ((s.freeWork f).freeObjects f) f
  exact ⟨by rw [hmm]; exact objs_freeObjects _ f, by rw [hsch]; exact hctxs, by rw [hsch]; exact hchans, by rw [hsch]; exact htasks,
    by rw [hidx]; exact indexes_freeWork _ f⟩

theorem atRest_freeFunc (s : State) (f : Nat) : ∃ k, (f, k) ∈ (s.freeFunc f).sec.atRest :=
  ⟨_, List.mem_append_right _ (List.mem_singleton.2 rfl)⟩

/-- The end of a reset, what the function held being freed. -/
def endReset (s : State) (f cause : Nat) : State :=
  let t : State := { s with sch := { s.sch with funcs := updAt f (fun _ => if s.funcEn f then .active else .disabled) s.sch.funcs } }
  ((((t.count (Reg.funcResetCnt f)).wr (Reg.funcLastReset f) cause).irq (basePage 0x11 f) 0).faultLog 0x11 f 0x0B 0 f 0).event 2 f false cause

theorem getD_updAt {α : Type} (f : Nat) (x d : α) (l : List α) : (updAt f (fun _ => x) l).getD f d = x ∨ (updAt f (fun _ => x) l).getD f d = d := by
  rw [List.getD_eq_getElem?_getD, getElem?_updAt_same]
  cases l[f]? with
  | none => exact Or.inr rfl
  | some y => exact Or.inl rfl

theorem endReset_keeps (s : State) (f cause : Nat) : ((s.endReset f cause).fstate f = .active ∨ (s.endReset f cause).fstate f = .disabled) ∧
    (s.HoldsNothing f → (s.endReset f cause).HoldsNothing f) ∧ (s.endReset f cause).sec = s.sec := by
  set t : State := { s with sch := { s.sch with funcs := updAt f (fun _ => if s.funcEn f then .active else .disabled) s.sch.funcs } } with ht
  have hw : Within [.outbox, .regs, .flt, .mgmt] t (s.endReset f cause) :=
    Within.andThen (event_within ..) (by decide) (Within.andThen (faultLog_within ..) (by decide) (Within.andThen (irq_within ..) (by decide)
      (Within.andThen (wr_within ..) (by decide) ((count_within ..).mono (by decide)))))
  have hsch := hw.sch (by decide)
  have hmm := hw.mm (by decide)
  have hidx := hw.idx (by decide)
  refine ⟨?_, fun h => ?_, hw.sec (by decide)⟩
  · unfold fstate
    rw [hsch]
    rcases getD_updAt f (if s.funcEn f then FState.active else .disabled) .disabled s.sch.funcs with h | h
    · refine Or.imp h.trans h.trans ?_
      split
      · exact Or.inl rfl
      · exact Or.inr rfl
    · exact Or.inr h
  · exact ⟨by rw [hmm]; exact h.objs, by rw [hsch]; exact h.ctxs, by rw [hsch]; exact h.chans, by rw [hsch]; exact h.tasks,
      by rw [hidx]; exact h.indexes⟩

/-- Once its commands have completed, what the function holds is gone (R320). -/
theorem exec_partitionResetDone {s : State} {f cause : Nat} (hf : s.fstate f = .resetting cause true)
    (hdone : ∀ l ∈ s.cmd.live, l.h.func = f → l.flowOpen = true) (hidle : ∀ x ∈ s.sch.tasks, x.func = f → x.islet = none) :
    exec (.partitionResetDone f) s = .next ((s.freeFunc f).endReset f cause) := by
  have hlive : s.cmd.live.any (fun l => l.h.func == f && !l.flowOpen) = false := by
    rw [List.any_eq_false]
    intro l hl
    by_cases hlf : l.h.func = f
    · simp [hdone l hl hlf]
    · simp [hlf]
  have hany : s.sch.tasks.any (fun t => t.func == f && t.islet.isSome) = false := by
    rw [List.any_eq_false]
    intro x hx
    by_cases hxf : x.func = f
    · simp [hidle x hx hxf]
    · simp [hxf]
  show execPartitionResetDone f s = _
  unfold execPartitionResetDone
  rw [hf]
  refine congrArg Host.Outcome.next ((if_neg ?_).trans rfl)
  rw [hlive, hany]
  simp

end State

/-- Settles O49: the end of the commands by `AddsNoTask.discard`, the end of the rest part by part. -/
theorem partitionResetFreesItsFunction : Obligations.PartitionResetFreesItsFunction := by
  unfold Obligations.PartitionResetFreesItsFunction
  refine ⟨fun s f cause hf hidle => State.exec_partitionResetKillsDone hf hidle,
    fun s f cause hf hdone hidle => ?_⟩
  obtain ⟨k, hk⟩ := s.atRest_freeFunc f
  obtain ⟨hst, hfree, hsec⟩ := (s.freeFunc f).endReset_keeps f cause
  have h := hfree (s.holdsNothing_freeFunc f)
  exact ⟨_, k, State.exec_partitionResetDone hf hdone hidle, hst, h.objs, h.ctxs, h.chans, h.tasks, h.indexes, by rw [hsec]; exact hk⟩

end Sys2Proof.Machine

end

section
/-! The tides of chapter 4, for the statements of the boundary, the markers and the stamps: what a boundary commits keeps its number and the
markers on their way. -/

namespace Sys2Proof.Machine

/- The elaborator's threads each take a stack: one proof at a time keeps a text of this length within the memory limit. -/
set_option Elab.async false

/-! ## Changes within a tide -/

/-- From `s` to `t` no boundary was raised and no time passed: the number, the boundary and its time stand, and each marker is still on its
way. -/
structure KeepsTide (s t : State) : Prop where
  epoch : t.idx.epoch = s.idx.epoch
  bno : t.idx.bno = s.idx.bno
  lastBoundary : t.idx.lastBoundary = s.idx.lastBoundary
  now : t.now = s.now
  marks : ∀ i n b, (i, Stream.mark n b) ∈ s.cmd.deliver → (i, Stream.mark n b) ∈ t.cmd.deliver

namespace KeepsTide

theorem refl {s : State} : KeepsTide s s := ⟨rfl, rfl, rfl, rfl, fun _ _ _ h => h⟩

theorem trans {s t u : State} (h : KeepsTide s t) (k : KeepsTide t u) : KeepsTide s u :=
  ⟨k.epoch.trans h.epoch, k.bno.trans h.bno, k.lastBoundary.trans h.lastBoundary, k.now.trans h.now, fun i n b m => k.marks i n b (h.marks i n b m)⟩

/-- One more operation, which touches neither the index unit, nor the command engine, nor time. -/
theorem op {s t u : State} {ps : List Field} (k : Within ps t u) (h : KeepsTide s t)
    (hp : (.idx ∉ ps ∧ .cmd ∉ ps ∧ .now ∉ ps) := by decide) : KeepsTide s u :=
  h.trans (by
    have hi := k.idx hp.1
    exact ⟨congrArg IdxSt.epoch hi, congrArg IdxSt.bno hi, congrArg IdxSt.lastBoundary hi, k.now hp.2.2, fun _ _ _ m => k.cmd hp.2.1 ▸ m⟩)

/-- A change of other parts, or of other fields of the index unit, follows. -/
theorem set {s t u : State} (h : KeepsTide s t) (he : u.idx.epoch = t.idx.epoch := by rfl) (hb : u.idx.bno = t.idx.bno := by rfl)
    (hl : u.idx.lastBoundary = t.idx.lastBoundary := by rfl) (hn : u.now = t.now := by rfl)
    (hm : u.cmd.deliver = t.cmd.deliver := by rfl) : KeepsTide s u := h.trans ⟨he, hb, hl, hn, fun _ _ _ m => hm ▸ m⟩

theorem foldl {α : Type} {f : State → α → State} (hf : ∀ s x, KeepsTide s (f s x)) {s t : State} (h : KeepsTide s t) (l : List α) :
    KeepsTide s (l.foldl f t) :=
  List.foldlRecOn (motive := fun u => KeepsTide s u) l f h fun u hu x _ => hu.trans (hf u x)

theorem foldl_fst {α β : Type} {f : State × β → α → State × β} (hf : ∀ a x, KeepsTide a.1 (f a x).1) {s : State} {a : State × β}
    (h : KeepsTide s a.1) (l : List α) : KeepsTide s (l.foldl f a).1 :=
  List.foldlRecOn (motive := fun u => KeepsTide s u.1) l f h fun u hu x _ => hu.trans (hf u x)

theorem ite {c : Prop} [Decidable c] {s t u : State} (ht : c → KeepsTide s t) (hu : ¬c → KeepsTide s u) : KeepsTide s (if c then t else u) := by
  split
  · exact ht ‹_›
  · exact hu ‹_›

theorem ite_fst {c : Prop} [Decidable c] {β : Type} {s : State} {a b : State × β} (ha : KeepsTide s a.1) (hb : KeepsTide s b.1) :
    KeepsTide s (if c then a else b).1 := by
  split
  · exact ha
  · exact hb

variable {s t : State}

/-! ## Counters and completions -/

theorem count (h : KeepsTide s t) (a n : Nat) : KeepsTide s (t.count a n) := op (State.count_within ..) h

theorem countIf {c : Prop} [Decidable c] (h : KeepsTide s t) (a n : Nat) : KeepsTide s (if c then t.count a n else t) :=
  ite (fun _ => h.count a n) fun _ => h

theorem dropLive (h : KeepsTide s t) (r : CmdRef) : KeepsTide s (t.dropLive r) := by
  refine h.trans ?_
  unfold State.dropLive
  split
  · exact refl
  next l _ =>
    split
    · split
      · exact ⟨rfl, rfl, rfl, rfl, fun _ _ _ m => List.mem_filter.2 ⟨m, by simp⟩⟩
      · exact ⟨rfl, rfl, rfl, rfl, fun _ _ _ m => List.mem_filter.2 ⟨m, by simp⟩⟩
    · exact ⟨rfl, rfl, rfl, rfl, fun _ _ _ m => List.mem_filter.2 ⟨m, by simp⟩⟩

theorem deliver (h : KeepsTide s t) (r : CmdRef) : KeepsTide s (t.deliver r) := by
  refine h.trans ?_
  unfold State.deliver
  split
  · exact refl
  · exact ⟨rfl, rfl, rfl, rfl, fun _ _ _ m => List.mem_append_left _ m⟩

theorem releaseHeld (h : KeepsTide s t) : KeepsTide s t.releaseHeld := by
  refine foldl (fun u l => deliver ?_ _) h _
  split
  · exact set refl
  · exact refl

theorem complete (h : KeepsTide s t) (r : CmdRef) (status : Nat) (body : Body) : KeepsTide s (t.complete r status body) := by
  unfold State.complete
  split
  · exact h
  · exact releaseHeld (op (State.answer_within ..) (op (State.noteLoad_within ..) (h.dropLive r)))

/-! ## Queries and banks -/

theorem updIndex (h : KeepsTide s t) (n : Nat) (f : Index → Index) : KeepsTide s (t.updIndex n f) := set h

theorem updQuery (h : KeepsTide s t) (r : CmdRef) (f : Query → Query) : KeepsTide s (t.updQuery r f) := set h

theorem joinBank (h : KeepsTide s t) (k : Bank) (r : CmdRef) : KeepsTide s (t.joinBank k r) := set h

theorem openBank (h : KeepsTide s t) (x : Index) (n target : Nat) (r : CmdRef) : KeepsTide s (t.openBank x n target r) := set h

theorem bindProbe (h : KeepsTide s t) (x : Index) (n target : Nat) (r : CmdRef) (first : Bool) : KeepsTide s (t.bindProbe x n target r first) := by
  unfold State.bindProbe
  extract_lets ks die cnt wait later s1 s2
  have hcnt (a : Nat) : KeepsTide s (cnt a) := h.countIf a 1
  have hlate (u : State) (hu : KeepsTide s u) : KeepsTide s (wait u) := hu.updQuery ..
  clear_value later
  split
  · refine ite (fun _ => h.joinBank ..) fun _ => ?_
    split
    · exact (hcnt _).joinBank ..
    · exact ite (fun _ => (hcnt _).openBank ..) fun _ => hlate _ (hcnt _)
  · refine ite (fun _ => h.openBank ..) fun _ => ?_
    split
    · exact (hcnt _).joinBank ..
    · exact hlate _ (hcnt _)

theorem bindWaiting (h : KeepsTide s t) (x : Index) (p : Nat → Bool) (target : Nat) : KeepsTide s (t.bindWaiting x p target) :=
  foldl (fun _ _ => foldl (fun _ _ => refl.bindProbe ..) (refl.updQuery ..) _) h _

theorem halveProbes (h : KeepsTide s t) (q : Query) : KeepsTide s (t.halveProbes q) := set h

theorem monitorOne (h : KeepsTide s t) (q : Query) : KeepsTide s (t.monitorOne q) := by
  unfold State.monitorOne
  split
  · extract_lets b mx noRr s1
    have h1 : KeepsTide s s1 := ite (fun _ => (h.count ..).updQuery ..) fun _ => h
    split
    · exact ite (fun _ => ((h1.count ..).halveProbes _).bindWaiting ..) fun _ => h1
    · exact h1
  · exact h

theorem monitor (h : KeepsTide s t) : KeepsTide s t.monitor := by
  refine foldl (fun u q => ?_) h _
  split
  · exact refl.monitorOne _
  · exact refl

/-! ## Bitmaps and shoals -/

theorem putFilt (h : KeepsTide s t) (x : FiltSt) : KeepsTide s (t.putFilt x) := set h

theorem updFilt (h : KeepsTide s t) (f n i : Nat) (g : FiltSt → FiltSt) : KeepsTide s (t.updFilt f n i g) := putFilt h _

theorem putShoalSt (h : KeepsTide s t) (x : ShoalSt) : KeepsTide s (t.putShoalSt x) := set h

theorem hPut (h : KeepsTide s t) (f n off : Nat) (b : List Byte) : KeepsTide s (t.hPut f n off b) := op (State.hPut_within ..) h

theorem hSet (h : KeepsTide s t) (f n off hi lo v : Nat) : KeepsTide s (t.hSet f n off hi lo v) := op (State.hSet_within ..) h

theorem bmTake (h : KeepsTide s t) (f n i cw blk leaf : Nat) (bs : List Bool) : KeepsTide s (t.bmTake f n i cw blk leaf bs) :=
  updFilt (op (State.bmSetBlk_within ..) (h.hPut ..)) ..

theorem bmApply (h : KeepsTide s t) (f n i cr cw epoch : Nat) (inPlace : Bool) (blk : Nat) (cs : List (Nat × Bool)) :
    KeepsTide s (t.bmApply f n i cr cw epoch inPlace blk cs) := by
  unfold State.bmApply
  extract_lets -useContext bs old t1 free twins x t2
  have h1 : KeepsTide s t1 := h.countIf ..
  clear_value old
  have hfree (u : State) (hu : KeepsTide s u) : KeepsTide s (free u) := by
    dsimp only [free]
    split
    · exact hu.putFilt _
    · exact hu
  have h2 : KeepsTide s t2 := ite (fun _ => h1) fun _ => h1.putFilt _
  refine ite (fun _ => op (State.bmSetBlk_within ..) (hfree _ h2)) fun _ => ?_
  refine ite (fun _ => op (State.bmSetBlk_within ..) (hfree _ h2)) fun _ => ?_
  split
  · exact h2.hPut ..
  split
  · exact (hfree _ h2).bmTake ..
  · exact (hfree _ h2).bmTake ..
  split
  · exact h2.bmTake ..
  · exact ite (fun _ => h2.bmTake ..) fun _ => h2
  · exact h2

theorem tombCommit (h : KeepsTide s t) (x : Index) (epoch : Nat) (cs : List (Nat × Bool)) : KeepsTide s (t.tombCommit x epoch cs) :=
  hSet (foldl (fun _ _ => refl.bmApply ..) h _) ..

theorem filterCommit (h : KeepsTide s t) (f n i epoch : Nat) (cs : List (Nat × Bool)) : KeepsTide s (t.filterCommit f n i epoch cs) :=
  hSet (putFilt (hSet (hSet (foldl (fun _ _ => refl.bmApply ..) (op (State.bmCopy_within ..) h) _) ..) ..) _) ..

theorem stageLeaves (h : KeepsTide s t) (f n i : Nat) (cs : List (Nat × Bool)) (blks : List Nat) : KeepsTide s (t.stageLeaves f n i cs blks) := by
  refine foldl (fun u b => ?_) (h.updFilt ..) _
  dsimp only
  split
  · exact refl.hPut ..
  · exact (refl.hPut ..).updFilt ..
  · exact refl

theorem restage (h : KeepsTide s t) (i : Nat) : KeepsTide s (t.restage i) :=
  foldl (fun _ _ => stageLeaves (updFilt refl ..) ..) h _

theorem releaseQuar (h : KeepsTide s t) (x : Index) (n : Nat) : KeepsTide s (t.releaseQuar x n) := by
  refine ite (fun _ => h) fun _ => putShoalSt (foldl (fun u q => ?_) h _) _
  exact foldl (fun _ _ => op (State.putId_within ..) refl) (refl.tombCommit ..) _

theorem retireEpochs (h : KeepsTide s t) (x : Index) : KeepsTide s (t.retireEpochs x) := by
  refine foldl (fun u f => ?_) (foldl (fun _ _ => foldl (fun _ _ => refl.hPut ..) refl _) h _) _
  exact ite (fun _ => (refl.putFilt _).hSet ..) fun _ => refl.putFilt _

/-! ## Commits, compaction and the sweep of a boundary -/

theorem commitRec (h : KeepsTide s t) (x : Index) (m : Nat) (r : StRec) : KeepsTide s (t.commitRec x m r) := by
  refine ite (fun _ => h) fun _ => updIndex (op (State.dirAfter_within ..) ?_) ..
  refine foldl (fun _ _ => op (State.addLive_within ..) refl) (foldl (fun _ _ => op (State.addLive_within ..) (refl.putShoalSt _)) ?_ _) _
  exact tombCommit (foldl (fun _ _ => op (State.logAdd_within ..) refl) (foldl (fun _ _ => op (State.logAdd_within ..) refl) h _) _) ..

theorem commitCmd (h : KeepsTide s t) (x : Index) (m : Nat) (c : Commits) (y : Staged) : KeepsTide s (t.commitCmd x m c y).1 := by
  unfold State.commitCmd
  refine ite_fst h ?_
  extract_lets rs t0 defer t1 okN t2 b
  have h0 : KeepsTide s t0 := h.countIf ..
  have hdefer (u : State) (hu : KeepsTide s u) : KeepsTide s (defer u).1 :=
    (ite (fun _ => hu) fun _ => hu.count ..).set
  refine ite_fst (hdefer _ h0) (ite_fst (hdefer _ (h0.count ..)) (ite_fst (hdefer _ (h0.count ..)) (ite_fst (hdefer _ (h0.count ..)) ?_)))
  exact (countIf (foldl (fun _ _ => refl.commitRec ..) h0 _) ..).set

theorem settleRows (h : KeepsTide s t) (x : Index) (m n : Nat) : KeepsTide s (t.settleRows x m n) := by
  refine ite (fun _ => h) fun _ => putShoalSt (op (State.setRows_within ..) ?_) _
  exact ite (fun _ => h) fun _ => h.tombCommit ..

theorem passEnds (h : KeepsTide s t) (p : Pass) (status : Nat) : KeepsTide s (t.passEnds p status) :=
  foldl (fun _ _ => ite (fun _ => refl) fun _ => refl.complete ..) (op (State.seqOver_within ..) h).set _

theorem trim (h : KeepsTide s t) (x : Index) (p : Pass) : KeepsTide s (t.trim x p) := by
  unfold State.trim
  extract_lets n dels old top sh t1 t2 t3 t4
  have h1 : KeepsTide s t1 := op (State.shSet_within ..) (op (State.shSet_within ..) (op (State.setRows_within ..) h))
  have h2 : KeepsTide s t2 := ite (fun _ => h1.putShoalSt _) fun _ => h1
  have h4 : KeepsTide s t4 := (h2.count ..).countIf ..
  exact ite (fun _ => h) fun _ => (h4.passEnds ..).releaseQuar ..

theorem moveRow (h : KeepsTide s t) (x : Index) (m n from_ to_ : Nat) (ids : List Nat) (fch : List (Nat × Nat × Bool)) :
    KeepsTide s (t.moveRow x m n from_ to_ ids fch).1 := by
  unfold State.moveRow
  extract_lets -useContext base id n raw second bad fb sr t0 t1 t2 t3 t4
  have h2 : KeepsTide s t2 := hPut (op (State.putId_within ..) (op (State.writeRow_within ..) (countIf (op (State.hTraffic_within ..) h) ..))) ..
  have h3 : KeepsTide s t3 := tombCommit (op (State.logAdd_within ..) (op (State.logAdd_within ..) h2)) ..
  have h4 : KeepsTide s t4 := by
    dsimp only [t4]
    split
    · exact op (State.putDir_within ..) h3
    · exact h3
  exact ite_fst (h.count ..) (ite_fst (h.count ..) (h4.count ..))

theorem passStep (x : Index) (m : Nat) (ids : List Nat) (a : State × List (Nat × Nat × Bool)) (pl : Pass × List (Nat × Nat)) :
    KeepsTide a.1 (State.passStep x m ids a pl).1 := by
  obtain ⟨u, fb⟩ := a
  unfold State.passStep
  split
  · with_reducible exact trim refl ..
  extract_lets n r more left t0 _ t1
  have hr : KeepsTide u r.1 := by
    dsimp only [r]
    refine foldl_fst (a := (u, fb, [])) (fun b mv => ?_) refl _
    have hmv := (refl (s := b.1)).moveRow x m n mv.1 mv.2 ids b.2.1
    split
    next he =>
      rw [he] at hmv
      exact hmv
    next he =>
      rw [he] at hmv
      exact hmv
  have h1 : KeepsTide u t1 := hr.set
  with_reducible exact op (State.moveTasks_within ..) h1

theorem sweepIndex (h : KeepsTide s t) (i : Nat) : KeepsTide s (t.sweepIndex i) := by
  unfold State.sweepIndex State.sweepDir
  split
  · exact h
  · extract_lets pages room r t1
    have hr : KeepsTide s r.1 := foldl_fst (fun _ _ => op (State.sweepStep_within ..) refl) h _
    have h1 : KeepsTide s t1 := hr.updIndex ..
    exact ite (fun _ => h1.set) fun _ => h1

theorem indexBoundary (h : KeepsTide s t) (m : Nat) (plans : List (Pass × List (Nat × Nat))) (i : Nat) :
    KeepsTide s (t.indexBoundary m plans i) := by
  unfold State.indexBoundary
  split
  · exact h
  next x _ =>
    refine ite (fun _ => h) fun _ => ?_
    extract_lets c0 r t2 ids k t3 t4 t5 t6
    have h2 : KeepsTide s t2 := foldl (fun _ _ => refl.settleRows ..) (foldl_fst (fun _ _ => refl.commitCmd ..) h _) _
    have hk : KeepsTide s k.1 := foldl_fst (fun _ _ => passStep ..) h2 _
    have h3 : KeepsTide s t3 := restage (foldl (fun _ _ => refl.filterCommit ..) hk _) _
    have h6 : KeepsTide s t6 := retireEpochs (foldl (fun _ _ => refl.complete ..) (h3.sweepIndex i) _) _
    exact ite (fun _ => foldl (fun _ _ => passEnds (op (State.shSet_within ..) refl) ..) h6 _) fun _ => h6

theorem refreshCents (h : KeepsTide s t) (n : Nat) (all_ : Bool) : KeepsTide s (t.refreshCents n all_) := by
  unfold State.refreshCents
  split
  · exact h
  · exact (h.countIf ..).updIndex ..

theorem readyIndexes (h : KeepsTide s t) : KeepsTide s t.readyIndexes := by
  refine foldl (fun u x => ?_) h _
  dsimp only
  split
  · exact (refl.updIndex ..).complete ..
  · exact refl.updIndex ..

/-! ## Objects that switch at the boundary -/

theorem startMemOp (h : KeepsTide s t) (k : MemOpKind) (r : CmdRef) (o n stack : Nat) (gs : List Nat) : KeepsTide s (t.startMemOp k r o n stack gs) :=
  op (State.startMemOp_within ..) h

theorem newHandle (h : KeepsTide s t) (f : Nat) : KeepsTide s (t.newHandle f).2 := op (State.newHandle_within ..) h

theorem startCopy (h : KeepsTide s t) (k : MemOpKind) (r : CmdRef) (b : Body) (o : Obj) : KeepsTide s (t.startCopy k r b o) := by
  refine ite (fun _ => h.complete ..) fun _ => ?_
  split
  · exact h.complete ..
  next hg => exact startMemOp (op (State.copyUnits_within ..) (op (State.takeGrans_within hg) h)) ..

theorem allocT3 (h : KeepsTide s t) (r : CmdRef) (f : Nat) (b : Body) : KeepsTide s (t.allocT3 r f b) := by
  unfold State.allocT3
  extract_lets n
  split
  next hu =>
    split
    next hn =>
      extract_lets o mine _ t3
      have h1 := op (takeFree_within t.capUnits (fun u => !t.usedUnits.contains u) t.usedUnits.length n [] t) h
      rw [hu] at h1
      have h2 := h1.newHandle f
      rw [hn] at h2
      have h3 : KeepsTide s t3 := h2.set
      exact complete (op (State.dropUnits_within ..) h3) ..

theorem runAlloc (h : KeepsTide s t) (r : CmdRef) (f : Nat) (b : Body) : KeepsTide s (t.runAlloc r f b) := by
  refine ite (fun _ => ite (fun _ => h.complete ..) fun _ => ite (fun _ => h.complete ..) fun _ => h.allocT3 ..) fun _ =>
    ite (fun _ => h.complete ..) fun _ => ?_
  split
  · exact h.complete ..
  next hg => exact startMemOp ((op (State.takeGrans_within hg) h).newHandle f) ..

theorem runFree (h : KeepsTide s t) (r : CmdRef) (b : Body) (o : Obj) : KeepsTide s (t.runFree r b o) := by
  refine ite (fun _ => h.complete ..) fun _ => ite (fun _ => (h.complete ..).count ..) fun _ => ite (fun _ => h.complete ..) fun _ => ?_
  exact complete (op (State.unforward_within ..) (op (State.dropUnits_within ..) h.set)) ..

theorem runMove (h : KeepsTide s t) (r : CmdRef) (b : Body) (o : Obj) : KeepsTide s (t.runMove r b o) :=
  ite (fun _ => h.complete ..) fun _ => ite (fun _ => h.complete ..) fun _ => h.startCopy ..

theorem runPromote (h : KeepsTide s t) (r : CmdRef) (b : Body) (o : Obj) : KeepsTide s (t.runPromote r b o) := by
  refine ite (fun _ => h.complete ..) fun _ => ?_
  split
  · exact h.complete ..
  next hp =>
    have h1 := op (State.addPin_within hp) h
    exact ite (fun _ => h1.complete ..) fun _ => h.startCopy ..

theorem runEvict (h : KeepsTide s t) (r : CmdRef) (b : Body) (o : Obj) : KeepsTide s (t.runEvict r b o) := by
  refine ite (fun _ => h.complete ..) fun _ => ite (fun _ => h.complete ..) fun _ => ?_
  refine ite (fun _ => ((op (State.updObj_within ..) h).complete ..).count ..) fun _ => ?_
  exact ite (fun _ => (op (State.updObj_within ..) h).complete ..) fun _ => startMemOp (op (State.copyUnits_within ..) h) ..

theorem runShare (h : KeepsTide s t) (r : CmdRef) (b : Body) (o : Obj) : KeepsTide s (t.runShare r b o) := by
  unfold State.runShare
  split
  · exact h.complete ..
  · exact complete (op (State.updObj_within ..) (h.newHandle (memTgt b))) ..

theorem runUnshare (h : KeepsTide s t) (r : CmdRef) (b : Body) (o : Obj) : KeepsTide s (t.runUnshare r b o) :=
  (op (State.updObj_within ..) h).complete ..

theorem runMem (h : KeepsTide s t) (r : CmdRef) (c : CmdHdr) (b : Body) : KeepsTide s (t.runMem r c b) := by
  unfold State.runMem
  split
  · exact h.complete ..
  refine ite (fun _ => h.runAlloc ..) fun _ => ?_
  split
  · exact h
  split
  · exact h.runFree ..
  · exact h.runMove ..
  · exact h.runPromote ..
  · exact h.runEvict ..
  · exact h.runShare ..
  · exact h.runUnshare ..

theorem commitMemOp (h : KeepsTide s t) (x : MemOp) : KeepsTide s (t.commitMemOp x) := by
  unfold State.commitMemOp
  dsimp only
  split
  · refine foldl (fun u w => ite (fun _ => refl) fun _ => runMem refl.set ..) ?_ _
    have h1 : KeepsTide s (t.dropMemOp { func := x.func, tag := x.tag }) := op (State.dropMemOp_within ..) h
    exact ite (fun _ => complete (op (State.switchObj_within ..) h1) ..) fun _ => h1.complete ..
  · exact h

theorem switchMoves (h : KeepsTide s t) : KeepsTide s t.switchMoves := foldl (fun _ _ => refl.commitMemOp _) h _

end KeepsTide

namespace State

/-! ## The boundary -/

theorem tide_switchIngress (s : State) : KeepsTide s s.switchIngress := by
  unfold switchIngress
  extract_lets to_ _ _ s1 s2
  have h2 : KeepsTide s s2 := KeepsTide.foldl (fun _ _ => KeepsTide.ite (fun _ => .refl) fun _ => KeepsTide.refl.set) KeepsTide.refl.set _
  exact h2.set

theorem tide_countOverruns (s : State) (b : Nat) : KeepsTide s (s.countOverruns b) := by
  unfold countOverruns
  extract_lets late s1
  have h1 : KeepsTide s s1 := KeepsTide.foldl (fun _ _ => KeepsTide.refl.count ..) .refl _
  exact h1.set

theorem idx_countOverruns {β : Type} {g : IdxSt → β} (hg : ∀ x ks, g { x with banks := ks } = g x) (s : State) (b : Nat) :
    g (s.countOverruns b).idx = g s.idx := by
  unfold countOverruns
  extract_lets late s1
  have h1 : Within [.regs] s s1 := Within.foldl .refl fun _ _ => (count_within ..).mono (by decide)
  exact (hg ..).trans (congrArg g (h1.idx (by decide)))

theorem tide_swept (s : State) : KeepsTide s { s with idx := { s.idx with swept := 0 } } := KeepsTide.refl.set

/-- A boundary takes its number, sends a marker down every stream, and what it commits leaves both. -/
theorem exec_tideBoundary {s : State} (hp : s.powered = true) (hr : s.cmd.ready = true) :
    ∃ t, exec .tideBoundary s = .next t ∧ t.idx.epoch = s.nextNumber ∧ t.idx.bno = s.idx.bno + 1 ∧
      t.idx.lastBoundary = s.idx.lastBoundary + s.idx.period ∧ s.idx.lastBoundary + s.idx.period ≤ t.now ∧
      ∀ m ∈ s.idx.marks, (m.island, Stream.mark t.idx.epoch t.idx.bno) ∈ t.cmd.deliver := by
  suffices h : ∃ a b, exec .tideBoundary s = .next b ∧ KeepsTide a b ∧ a.idx.epoch = s.nextNumber ∧ a.idx.bno = s.idx.bno + 1 ∧
      a.idx.lastBoundary = s.idx.lastBoundary + s.idx.period ∧ s.idx.lastBoundary + s.idx.period ≤ a.now ∧
      ∀ m ∈ s.idx.marks, (m.island, Stream.mark s.nextNumber (s.idx.bno + 1)) ∈ a.cmd.deliver by
    obtain ⟨a, b, he, hk, hepoch, hbno, hlast, hnow, hmarks⟩ := h
    refine ⟨b, he, hk.epoch.trans hepoch, hk.bno.trans hbno, hk.lastBoundary.trans hlast, hk.now ▸ hnow, fun m hm => ?_⟩
    rw [hk.epoch, hepoch, hk.bno, hbno]
    exact hk.marks _ _ _ (hmarks m hm)
  have hexec : exec .tideBoundary s = execTideBoundary s := rfl
  rw [hexec]
  unfold execTideBoundary
  rw [if_neg (by simp [hp, hr])]
  extract_lets m s0 s1 s2 sr plans _ sw s3 s4
  have h0 : s0.idx = s.idx := (elapseTo_within ..).idx (by decide)
  have h1 : KeepsTide s0 (s1.countOverruns (s.idx.bno + 1)) := (KeepsTide.refl.countIf ..).trans (tide_countOverruns ..)
  have hs1 : Within [.regs] s0 s1 := Within.ite (fun _ => count_within ..) fun _ => .refl
  have h1i : s1.idx = s.idx := (hs1.idx (by decide)).trans h0
  have hmarks : (s1.countOverruns (s.idx.bno + 1)).idx.marks = s.idx.marks := (idx_countOverruns (fun _ _ => rfl) ..).trans (congrArg IdxSt.marks h1i)
  have hperiod : (s1.countOverruns (s.idx.bno + 1)).idx.period = s.idx.period :=
    (idx_countOverruns (fun _ _ => rfl) ..).trans (congrArg IdxSt.period h1i)
  obtain ⟨c, hc⟩ : ∃ c, c = s1.countOverruns (s.idx.bno + 1) := ⟨_, rfl⟩
  rw [← hc] at h1 hmarks hperiod
  refine ⟨c.openTide m, _, rfl, ?_, rfl, ?_, ?_, ?_, ?_⟩
  · have htell : KeepsTide (c.openTide m) ((c.openTide m).tellEpoch m) := KeepsTide.op (tellEpoch_within ..) .refl
    have h2 : KeepsTide (c.openTide m) s2 := by
      have h := htell.trans (tide_switchIngress _)
      rw [hc] at h ⊢
      exact h
    have hr : KeepsTide (c.openTide m) sr := h2.readyIndexes
    clear_value sr plans
    have hw : KeepsTide (c.openTide m) sw := hr.trans (tide_swept sr)
    clear_value sw
    have h4 : KeepsTide (c.openTide m) s4 := by
      refine KeepsTide.foldl (fun u h => ?_) (KeepsTide.foldl (fun _ _ => (KeepsTide.refl.indexBoundary ..).refreshCents ..) hw _) _
      split
      · exact KeepsTide.refl.releaseQuar ..
      · exact .refl
    exact h4.switchMoves.monitor
  · exact congrArg (· + 1) (h1.bno.trans (congrArg IdxSt.bno h0))
  · exact congrArg₂ (· + ·) (h1.lastBoundary.trans (congrArg IdxSt.lastBoundary h0)) hperiod
  · exact (le_now_elapseTo hp _).trans h1.now.ge
  · refine fun k hk => List.mem_append_right _ (List.mem_map.2 ⟨k, hmarks ▸ hk, ?_⟩)
    rw [h1.bno, h0]

/-! ## Markers, marks and alignment -/

theorem streamHead_popStream_other (s : State) {i j : Nat} (h : j ≠ i) : (s.popStream i).streamHead j = s.streamHead j := by
  refine congrArg (Option.map _) (?_ : (s.cmd.deliver.eraseP (fun d => d.1 == i)).find? (fun d => d.1 == j) = _)
  induction s.cmd.deliver with
  | nil => rfl
  | cons d ds ih =>
    by_cases hd : d.1 = i
    · have hj : (d.1 == j) = false := by simpa [hd] using h.symm
      simp [hd, h.symm]
    · simp only [List.eraseP_cons, beq_iff_eq, hd, if_false, List.find?_cons, cond_eq_ite, ih]

theorem length_popStream {s : State} {i : Nat} {d : Stream} (h : s.streamHead i = some d) :
    (s.popStream i).cmd.deliver.length + 1 = s.cmd.deliver.length := by
  obtain ⟨e, he, -⟩ := Option.map_eq_some_iff.1 h
  have hi : (e.1 == i) = true := by simpa using List.find?_some he
  have hlen := List.length_eraseP_of_mem (p := fun d : Nat × Stream => d.1 == i) (List.mem_of_find?_eq_some he) hi
  have hpos := List.length_pos_of_mem (List.mem_of_find?_eq_some he)
  exact (congrArg (· + 1) hlen).trans (Nat.succ_pred_eq_of_pos hpos)

theorem exec_boundaryMarker {s : State} {i n b : Nat} (hp : s.powered = true) (hh : s.streamHead i = some (.mark n b)) :
    exec (.boundaryMarker i) s = .next { s.popStream i with idx := { s.idx with
      marks := s.idx.marks.filter (fun x => x.island != i) ++ [{ island := i, number := n, bno := b, stamp := mapGet 0 i s.cmd.counts }] } } := by
  refine congrArg Host.Outcome.next ?_
  rw [if_neg (by simp [hp])]
  simp only [hh]
  rfl

theorem find?_replaced_mark (l : List Mark) (m : Mark) :
    (l.filter (fun x => x.island != m.island) ++ [m]).find? (fun x => x.island == m.island) = some m := by
  rw [List.find?_append, List.find?_eq_none.2 fun x hx => by simpa using (List.mem_filter.1 hx).2]
  simp

theorem counts_complete (s : State) (r : CmdRef) (status : Nat) (body : Body) : (s.complete r status body).cmd.counts = s.cmd.counts := by
  have hdeliver (u : State) (q : CmdRef) : (u.deliver q).cmd.counts = u.cmd.counts := by
    unfold deliver
    split <;> rfl
  have hrelease (u : State) : u.releaseHeld.cmd.counts = u.cmd.counts := by
    refine foldl_keeps (g := fun v => v.cmd.counts) (fun v l => ?_) _ u
    dsimp only
    split <;> exact hdeliver ..
  have hdrop : (s.dropLive r).cmd.counts = s.cmd.counts := by
    unfold dropLive
    split
    · rfl
    · dsimp only
      split
      · split <;> rfl
      · rfl
  unfold complete
  split
  · rfl
  · rw [hrelease, (answer_within ..).cmd (by decide), (noteLoad_within ..).cmd (by decide), hdrop]

theorem live?_stamp {s : State} {r : CmdRef} {l : Live} (i : Nat) (hl : s.live? r = some l) : (s.stamp r i).live? r =
    some { l with stage := .running, island := i, stamp := mapGet 0 i s.cmd.counts, tide := s.stampTide i, accepted := s.now } :=
  live?_updLive_same (s := { s with cmd := { s.cmd with counts := mapPut 0 i ((mapGet 0 i s.cmd.counts + 1) % 2 ^ 32) s.cmd.counts } })
    (f := fun l => { l with stage := .running, island := i, stamp := mapGet 0 i s.cmd.counts, tide := s.stampTide i, accepted := s.now })
    (fun _ => rfl) hl

theorem exec_epochMark_follows {s : State} {src e : Nat} (hp : s.powered = true) (ha : s.alone = false) (hb : s.fix.bridge = false)
    (hf : s.zwx.follow = none ∨ s.zwx.follow = some src) : exec (.epochMark src e) s = .next (s.takeMark src e false) := by
  refine congrArg Host.Outcome.next ?_
  unfold onEpochMark
  rcases hf with hf | hf <;> simp [hp, ha, hb, hf]

theorem exec_epochMark_conflicts {s : State} {src f e : Nat} (hp : s.powered = true) (ha : s.alone = false) (hb : s.fix.bridge = false)
    (hf : s.zwx.follow = some f) (hne : f ≠ src) :
    exec (.epochMark src e) s = .next (({ s with zwx := { s.zwx with conflict := true } } : State).takeMark (min f src) e false) := by
  refine congrArg Host.Outcome.next ?_
  unfold onEpochMark
  simp [hp, ha, hb, hf, hne]

theorem exec_alignLost {s : State} (hb : s.fix.bridge = false) (hl : s.idx.lost = false) (hs : s.idx.lostTides ≤ s.idx.sinceMark) :
    exec .alignLost s = .next ((({ s with idx := { s.idx with lost := true } } : State).count Reg.mutateAlignLostCnt).event 0x04 0 true s.idx.epoch) :=
  congrArg Host.Outcome.next (if_neg (by simp [hb, hl, hs]))

theorem exec_alignLost_of_lost {s : State} (hl : s.idx.lost = true) : exec .alignLost s = .next s :=
  congrArg Host.Outcome.next (if_pos (.inr (.inl hl)))

theorem rd_event (s : State) (code f : Nat) (wide : Bool) (data : Nat) {x : Nat} (hx : x ≠ Reg.mgmtEventDropCnt) :
    (s.event code f wide data).rd x = s.rd x :=
  (rd_pushEvent _ _ _ hx).trans (rd_pushEvent _ _ _ hx)

theorem lost_reported (s : State) :
    ((({ s with idx := { s.idx with lost := true } } : State).count Reg.mutateAlignLostCnt).event 0x04 0 true s.idx.epoch).idx.lost = true := by
  rw [(event_within ..).idx (by decide), (count_within ..).idx (by decide)]

theorem rd_reported (s : State) :
    ((({ s with idx := { s.idx with lost := true } } : State).count Reg.mutateAlignLostCnt).event 0x04 0 true s.idx.epoch).rd
      Reg.mutateAlignLostCnt = (s.count Reg.mutateAlignLostCnt).rd Reg.mutateAlignLostCnt :=
  (rd_event _ _ _ _ _ (by decide)).trans (rd_congr (regs_count_congr (s := s) (t := { s with idx := { s.idx with lost := true } }) rfl _ _) _)

end State

/-- Settles O35: a boundary takes its number before it commits anything (`exec_tideBoundary`), and every commit keeps the tide
(`KeepsTide`); the other events are each one step of the stream or of the marks. -/
theorem tidesNumberTheCommands : Obligations.TidesNumberTheCommands := by
  unfold Obligations.TidesNumberTheCommands
  refine ⟨fun s hp hr => State.exec_tideBoundary hp hr, ?_, ?_, ?_, ?_, ?_, ?_, ?_, ?_, ?_, ?_, ?_⟩
  · intro s i n b hp hh
    refine ⟨_, State.exec_boundaryMarker hp hh, ?_, State.length_popStream hh, ?_, fun j hj => State.streamHead_popStream_other s hj, fun a => rfl⟩
    · exact (congrArg (fun o : Option Mark => match o with
        | some m => (m.number, m.bno)
        | none => (s.idx.epoch, s.idx.bno)) (State.find?_replaced_mark s.idx.marks { island := i, number := n, bno := b, stamp := _ }))
    · exact ⟨_, List.mem_append_right _ (List.mem_singleton_self _), rfl, rfl, rfl, rfl⟩
  · intro s t i r l0 l hp hh hw hl0 hchk ht hl
    subst ht
    obtain rfl := Option.some.inj ((State.live?_stamp i hl0).symm.trans hl)
    exact ⟨State.exec_ingressStamp hp hh hw hl0 hchk hl, rfl, rfl, rfl, rfl, rfl⟩
  · intro s i r hp hh hw
    refine congrArg Host.Outcome.next ?_
    rw [if_neg (by simp [hp])]
    simp only [hh, hw, if_true]
  · intro s i st r l b hp hh hw hl hchk
    refine ⟨_, ?_, rfl, State.counts_complete ..⟩
    refine congrArg Host.Outcome.next ?_
    rw [if_neg (by simp [hp])]
    simp only [hh, hw, hl, hchk, Bool.false_eq_true, if_false]
  · intro s src e hp ha hb hf
    exact ⟨_, State.exec_epochMark_follows hp ha hb hf, rfl, rfl, rfl, rfl, rfl⟩
  · intro s src f e hp ha hb hf hne
    exact ⟨_, State.exec_epochMark_conflicts hp ha hb hf hne, rfl, rfl⟩
  · intro s src e hp ha
    refine congrArg Host.Outcome.next ?_
    simp [State.onEpochMark, hp, ha]
  · intro s src e hp ha hb ho
    refine congrArg Host.Outcome.next ?_
    simp [State.onEpochMark, hp, ha, hb, Nat.not_lt.2 ho]
  · intro s src e hp ha hb hf hne
    refine congrArg Host.Outcome.next ?_
    simp [State.onEpochReport, hp, ha, hb, hf, hne]
  · intro s src e hp h
    refine congrArg Host.Outcome.next ?_
    unfold State.onEpochReport
    rw [if_neg (by simp [hp]), if_pos (by simpa using h)]
  · intro s hb hl hs
    exact ⟨_, State.exec_alignLost hb hl hs, State.lost_reported s, State.rd_reported s,
      State.exec_alignLost_of_lost (State.lost_reported s)⟩

end Sys2Proof.Machine
end

section
/-! Queries, for the statements of chapter 4: what the stages keep of a list, what binding a probe leaves, and a query's steps. -/

namespace Sys2Proof.Machine

/- The elaborator's threads each take a stack: one proof at a time keeps a text of this length within the memory limit. -/
set_option Elab.async false

/-! ## Runs and lists -/

theorem rankF_le (small : Bool) (w : Nat) : rankF small w ≤ 0xFFFFFFFF := by
  unfold rankF orderKey
  dsimp only
  split
  · exact le_rfl
  · split
    · split <;> omega
    · exact Nat.sub_le ..

/-- A list cut into runs of 32 is the list. -/
theorem flatten_runs {α : Type} (l : List α) : ((List.range (cdiv l.length 32)).map (fun j => (l.drop (32 * j)).take 32)).flatten = l := by
  have h (k : Nat) : ((List.range k).map (fun j => (l.drop (32 * j)).take 32)).flatten = l.take (32 * k) := by
    induction k with
    | zero => simp
    | succ k ih => simp [List.range_succ, ih, Nat.mul_succ, List.take_add]
  rw [h]
  exact List.take_of_length_le (by unfold cdiv; omega)

/-- One run on its way to a stage: what meets the threshold joins the list, which gives the next threshold (R149). -/
def sendRun (rk : Nat → Nat) (n : Nat) (a : List Ent × Nat) (run : List Ent) : List Ent × Nat :=
  let l := a.1 ++ run.filter (fun e => decide (rk e.score ≤ a.2))
  (l, ((sortBy (fun e => rk e.score) l)[n]?.map (fun g => rk g.score)).getD 0xFFFFFFFF)

theorem sendRuns_eq (rk : Nat → Nat) (n : Nat) (runs : List (List Ent)) : sendRuns rk n runs = runs.foldl (sendRun rk n) ([], 0xFFFFFFFF) := rfl

/-- A stage has been sent part of what the island has seen, and all of it, with no threshold yet, unless it has more than its list holds. -/
structure Received (n : Nat) (seen : List Ent) (a : List Ent × Nat) : Prop where
  sub : a.1.Sublist seen
  all : a.1.length ≤ n → a.1 = seen ∧ a.2 = 0xFFFFFFFF

theorem Received.sendRun {rk : Nat → Nat} (hrk : ∀ w, rk w ≤ 0xFFFFFFFF) {n : Nat} {seen : List Ent} {a : List Ent × Nat} (h : Received n seen a)
    (run : List Ent) : Received n (seen ++ run) (sendRun rk n a run) := by
  refine ⟨h.sub.append List.filter_sublist, fun hlen => ?_⟩
  have hle : a.1.length ≤ n := le_trans (by simp [Machine.sendRun]) hlen
  obtain ⟨hall, hthr⟩ := h.all hle
  have hkept : run.filter (fun e => decide (rk e.score ≤ a.2)) = run := List.filter_eq_self.2 fun e _ => by simpa [hthr] using hrk e.score
  refine ⟨?_, ?_⟩
  · exact congrArg₂ (· ++ ·) hall hkept
  · have hnone : (sortBy (fun e => rk e.score) (Machine.sendRun rk n a run).1)[n]? = none := by
      rw [List.getElem?_eq_none_iff, (perm_sortBy _).length_eq]
      exact hlen
    exact congrArg (fun o : Option Ent => (o.map (fun g => rk g.score)).getD 0xFFFFFFFF) hnone

theorem received_sendRuns {rk : Nat → Nat} (hrk : ∀ w, rk w ≤ 0xFFFFFFFF) (n : Nat) (runs : List (List Ent)) :
    Received n runs.flatten (sendRuns rk n runs) := by
  suffices h : ∀ seen a, Received n seen a → Received n (seen ++ runs.flatten) (runs.foldl (sendRun rk n) a) from
    h [] _ ⟨.refl _, fun _ => ⟨rfl, rfl⟩⟩
  induction runs with
  | nil => exact fun seen a h => by simpa using h
  | cons run runs ih => exact fun seen a h => by simpa using ih _ _ (h.sendRun hrk run)

/-- Entries with different IDs merge to the best of them. -/
theorem mergeEnts_of_nodup {rk : Nat → Nat} (n : Nat) {es : List Ent} (h : (es.map Ent.id).Nodup) :
    (mergeEnts rk n es).1 = (sortBy (Ent.key rk) es).take n := by
  have hd : ∀ (l done : List Ent) (k : Nat), ((done ++ l).map Ent.id).Nodup →
      (l.foldl (fun (r : List Ent × Nat) e => if r.1.any (fun x => x.id == e.id) then (r.1, r.2 + 1) else (r.1 ++ [e], r.2)) (done, k)).1 =
        done ++ l := by
    intro l
    induction l with
    | nil => exact fun done k _ => (List.append_nil _).symm
    | cons e l ih =>
      intro done k hnd
      have hnew : done.any (fun x => x.id == e.id) = false := by
        rw [List.any_eq_false]
        intro x hx he
        rw [List.map_append, List.nodup_append'] at hnd
        exact hnd.2.2 (List.mem_map_of_mem hx) (by simp [beq_iff_eq.1 he])
      have happ : done ++ e :: l = (done ++ [e]) ++ l := by simp
      rw [List.foldl_cons]
      dsimp only
      rw [hnew, if_neg Bool.false_ne_true, ih (done ++ [e]) k (happ ▸ hnd), happ]
  have hs : ((sortBy (Ent.key rk) es).map Ent.id).Nodup := ((perm_sortBy es).map _).nodup_iff.2 h
  exact congrArg (List.take n) (hd _ [] 0 hs)

theorem length_mergeEnts {rk : Nat → Nat} {n : Nat} {es : List Ent} (h : (es.map Ent.id).Nodup) :
    (mergeEnts rk n es).1.length = min n es.length := by
  rw [mergeEnts_of_nodup n h, List.length_take, (perm_sortBy es).length_eq]

/-- A merged list is part of what it was merged from, and its IDs differ. -/
theorem mergeEnts_sub {rk : Nat → Nat} {n : Nat} {es : List Ent} (h : (es.map Ent.id).Nodup) :
    (∀ e ∈ (mergeEnts rk n es).1, e ∈ es) ∧ ((mergeEnts rk n es).1.map Ent.id).Nodup := by
  rw [mergeEnts_of_nodup n h]
  refine ⟨fun e he => mem_sortBy.1 (List.mem_of_mem_take he), ?_⟩
  exact (((perm_sortBy es).map Ent.id).nodup_iff.2 h).sublist ((List.take_sublist n _).map _)

/-! ## The lists of a probe selection -/

section

variable (x : Index) {ents : List Ent} (hents : (ents.map Ent.id).Nodup)

include hents

/-- An island's list is part of what it scored, and all of it unless it is longer than PROBE_MAX. -/
theorem probeList_keeps (i : Nat) : (∀ e ∈ (probeList x ents i).1, e ∈ ents ∧ e.id % 128 = i) ∧ ((probeList x ents i).1.map Ent.id).Nodup ∧
    ((probeList x ents i).1.length ≤ x.probeMax → ∀ e ∈ ents, e.id % 128 = i → e ∈ (probeList x ents i).1) := by
  unfold probeList
  extract_lets mine runs sent
  have hsent : Received x.probeMax mine (sendRuns (rankF x.small) x.probeMax runs) := flatten_runs mine ▸ received_sendRuns (rankF_le x.small) ..
  have hmine : (mine.map Ent.id).Nodup := hents.sublist (List.filter_sublist.map _)
  have hnd : (sent.map Ent.id).Nodup := hmine.sublist (hsent.sub.map _)
  obtain ⟨hsub, hids⟩ := mergeEnts_sub (rk := rankF x.small) (n := x.probeMax + 1) hnd
  refine ⟨fun e he => ?_, hids, fun hlen e he hi => ?_⟩
  · have h := List.mem_filter.1 (hsent.sub.subset (hsub e he))
    exact ⟨h.1, beq_iff_eq.1 h.2⟩
  · have hm := length_mergeEnts (rk := rankF x.small) (n := x.probeMax + 1) hnd
    dsimp only at hlen
    have hshort : sent.length ≤ x.probeMax := by omega
    rw [mergeEnts_of_nodup _ hnd, List.take_of_length_le (by rw [(perm_sortBy sent).length_eq]; omega), mem_sortBy]
    have hall : sent = mine := (hsent.all hshort).1
    exact hall ▸ List.mem_filter.2 ⟨he, beq_iff_eq.2 hi⟩

/-- The lists of all islands together: part of what was scored, and all of it or more than PROBE_MAX. -/
theorem probeLists_keep {k : Nat} (hall : ∀ e ∈ ents, e.id % 128 < k) {F : List Ent}
    (hF : F = (List.range k).flatMap (fun i => (probeList x ents i).1)) :
    (∀ e ∈ F, e ∈ ents) ∧ (F.map Ent.id).Nodup ∧ min x.probeMax F.length = min x.probeMax ents.length := by
  have hkeep := probeList_keeps x hents
  have hsub : ∀ e ∈ F, e ∈ ents := fun e he => by
    obtain ⟨i, -, hi⟩ := List.mem_flatMap.1 (hF ▸ he)
    exact ((hkeep i).1 e hi).1
  have hnd : (F.map Ent.id).Nodup := by
    rw [hF, List.map_flatMap, List.nodup_flatMap]
    refine ⟨fun i _ => (hkeep i).2.1, List.nodup_range.imp fun {i j} hij => ?_⟩
    intro n hi hj
    obtain ⟨e, he, rfl⟩ := List.mem_map.1 hi
    obtain ⟨e', he', hid⟩ := List.mem_map.1 hj
    exact hij (((hkeep i).1 e he).2.symm.trans (hid ▸ ((hkeep j).1 e' he').2))
  refine ⟨hsub, hnd, ?_⟩
  have hle {l m : List Ent} (hl : (l.map Ent.id).Nodup) (h : ∀ e ∈ l, e ∈ m) : l.length ≤ m.length := by
    have hs := (hl.subperm fun n hn => by
      obtain ⟨e, he, rfl⟩ := List.mem_map.1 hn
      exact List.mem_map_of_mem (h e he) : (l.map Ent.id).Subperm (m.map Ent.id))
    simpa using hs.length_le
  by_cases hshort : ∀ i ∈ List.range k, (probeList x ents i).1.length ≤ x.probeMax
  · have hcov : ∀ e ∈ ents, e ∈ F := fun e he => by
      have hi := List.mem_range.2 (hall e he)
      rw [hF]
      exact List.mem_flatMap.2 ⟨_, hi, (hkeep _).2.2 (hshort _ hi) e he rfl⟩
    rw [le_antisymm (hle hnd hsub) (hle hents hcov)]
  · push Not at hshort
    obtain ⟨i, hi, hlong⟩ := hshort
    have hFi : (probeList x ents i).1.length ≤ F.length := by
      rw [hF, List.flatMap_def]
      exact (List.sublist_flatten_of_mem (List.mem_map_of_mem (f := fun i => (probeList x ents i).1) hi)).length_le
    have := hle hnd hsub
    omega

end

/-- A completed probe selection: the best PROBE_MAX of all shoals, or all of them (R98). -/
theorem probeStages_order (s : State) (x : Index) (q : CmdRef) {ents : List Ent} (hents : ents.map Ent.id = List.range x.nShoals) :
    (s.probeStages x q ents).2.length = min x.probeMax x.nShoals ∧ (∀ e ∈ (s.probeStages x q ents).2, e.id < x.nShoals) ∧
      ((s.probeStages x q ents).2.map Ent.id).Nodup := by
  have hnd : (ents.map Ent.id).Nodup := hents ▸ List.nodup_range
  have hlen : ents.length = x.nShoals := by simpa using congrArg List.length hents
  have hid : ∀ e ∈ ents, e.id < x.nShoals := fun e he => List.mem_range.1 (hents ▸ List.mem_map_of_mem he)
  have hsnd : (s.probeIslands x).zipIdx.map Prod.snd = List.range (min 128 x.nShoals) := by
    simp [State.probeIslands, List.zipIdx_map_snd, List.range_eq_range']
  have horder : (s.probeStages x q ents).2 = (mergeEnts (rankF x.small) (x.probeMax + 1)
      ((List.range (min 128 x.nShoals)).flatMap (fun i => (probeList x ents i).1))).1.take x.probeMax := by
    rw [← hsnd, List.flatMap_map]
    rfl
  obtain ⟨hsub, hids, hmin⟩ := probeLists_keep x hnd (k := min 128 x.nShoals) (fun e he => by have := hid e he; omega) rfl
  obtain ⟨hmsub, hmids⟩ := mergeEnts_sub (rk := rankF x.small) (n := x.probeMax + 1) hids
  have hmlen := length_mergeEnts (rk := rankF x.small) (n := x.probeMax + 1) hids
  rw [horder]
  refine ⟨?_, fun e he => hid e (hsub e (hmsub e (List.mem_of_mem_take he))), hmids.sublist ((List.take_sublist ..).map _)⟩
  rw [List.length_take]
  omega

end Sys2Proof.Machine
end

section
/-! What binding a probe leaves: the queries' steps, and the boundaries of the banks. -/

namespace Sys2Proof.Machine

set_option Elab.async false

namespace State

/-! ## Queries -/

theorem query?_congr {s t : State} (h : t.idx.queries = s.idx.queries) (r : CmdRef) : t.query? r = s.query? r := by
  unfold query?
  rw [h]

theorem r_of_query? {s : State} {r : CmdRef} {y : Query} (h : s.query? r = some y) : y.r = r := by simpa using List.find?_some h

theorem query?_updQuery_same {s : State} {r : CmdRef} {y : Query} {f : Query → Query} (hf : ∀ y, y.r = r → (f y).r = r) (h : s.query? r = some y) :
    (s.updQuery r f).query? r = some (f y) := by
  refine (find?_updWhere_same (fun z hz => ?_) _).trans (congrArg (Option.map f) h)
  exact beq_iff_eq.2 (hf z (beq_iff_eq.1 hz))

theorem query?_updQuery_other {s : State} {r q : CmdRef} {f : Query → Query} (hf : ∀ y, (f y).r = y.r) (h : q ≠ r) :
    (s.updQuery r f).query? q = s.query? q := by
  refine find?_updWhere_other (fun z hz => ?_) _
  have hz' : z.r = r := beq_iff_eq.1 hz
  simp [hf, hz', h.symm]

end State

/-! ## Binding -/

/-- A query went on without a change of its own steps. -/
structure SameSteps (y z : Query) : Prop where
  st : z.st = y.st
  order : z.order = y.order
  rounds : z.rounds = y.rounds
  lists : z.lists = y.lists
  probesDone : z.probesDone = y.probesDone

/-- From `s` to `t` probes were bound at boundary `n` or later: every bank was there, with its boundary, or gathers for such a boundary, and
the queries went on. -/
structure Binds (n : Nat) (s t : State) : Prop where
  bno : t.idx.bno = s.idx.bno
  indexes : t.idx.indexes = s.idx.indexes
  banks : ∀ m ∈ t.idx.banks, (∃ k ∈ s.idx.banks, k.idx = m.idx ∧ k.st = m.st ∧ k.target = m.target ∧ (m.st = .report → k = m)) ∨
    m.st = .gather ∧ n ≤ m.target
  queries : ∀ r y, s.query? r = some y → ∃ z, t.query? r = some z ∧ SameSteps y z

namespace Binds

variable {n : Nat} {s t u : State}

theorem of_same (hbno : t.idx.bno = s.idx.bno) (hindexes : t.idx.indexes = s.idx.indexes) (hbanks : t.idx.banks = s.idx.banks)
    (hqueries : t.idx.queries = s.idx.queries) : Binds n s t where
  bno := hbno
  indexes := hindexes
  banks m hm := .inl ⟨m, hbanks ▸ hm, rfl, rfl, rfl, fun _ => rfl⟩
  queries r y hy := ⟨y, (State.query?_congr hqueries r).trans hy, ⟨rfl, rfl, rfl, rfl, rfl⟩⟩

theorem refl : Binds n s s := of_same rfl rfl rfl rfl

theorem trans (h : Binds n s t) (k : Binds n t u) : Binds n s u where
  bno := k.bno.trans h.bno
  indexes := k.indexes.trans h.indexes
  banks m hm := by
    rcases k.banks m hm with ⟨b, hb, hi, hst, ht, hsame⟩ | hnew
    · rcases h.banks b hb with ⟨c, hc, hci, hcst, hct, hcsame⟩ | ⟨hg, hn⟩
      · refine .inl ⟨c, hc, hci.trans hi, hcst.trans hst, hct.trans ht, fun hm => ?_⟩
        exact (hcsame (hst.trans hm)).trans (hsame hm)
      · exact .inr ⟨hst ▸ hg, ht ▸ hn⟩
    · exact .inr hnew
  queries r y hy := by
    obtain ⟨z, hz, hyz⟩ := h.queries r y hy
    obtain ⟨w, hw, hzw⟩ := k.queries r z hz
    exact ⟨w, hw, hzw.st.trans hyz.st, hzw.order.trans hyz.order, hzw.rounds.trans hyz.rounds, hzw.lists.trans hyz.lists,
      hzw.probesDone.trans hyz.probesDone⟩

/-- One more operation outside the index unit. -/
theorem op {ps : List Field} (k : Within ps t u) (h : Binds n s t) (hp : .idx ∉ ps := by decide) : Binds n s u :=
  h.trans (of_same (congrArg IdxSt.bno (k.idx hp)) (congrArg IdxSt.indexes (k.idx hp)) (congrArg IdxSt.banks (k.idx hp))
    (congrArg IdxSt.queries (k.idx hp)))

theorem ite {c : Prop} [Decidable c] (ht : c → Binds n s t) (hu : ¬c → Binds n s u) : Binds n s (if c then t else u) := by
  split
  · exact ht ‹_›
  · exact hu ‹_›

theorem updQuery (h : Binds n s t) (r : CmdRef) {f : Query → Query} (hf : ∀ y, (f y).r = y.r ∧ SameSteps y (f y)) : Binds n s (t.updQuery r f) := by
  refine h.trans ⟨rfl, rfl, fun m hm => .inl ⟨m, hm, rfl, rfl, rfl, fun _ => rfl⟩, fun q y hy => ?_⟩
  by_cases hq : q = r
  · subst hq
    exact ⟨f y, State.query?_updQuery_same (fun y hy => (hf y).1.trans hy) hy, (hf y).2⟩
  · exact ⟨y, (State.query?_updQuery_other (fun y => (hf y).1) hq).trans hy, ⟨rfl, rfl, rfl, rfl, rfl⟩⟩

/-- The banks are replaced one by one, each keeping its shoal's index, its state and its boundary, or new ones gather for `n` or later. -/
theorem setBanks (h : Binds n s t) {ks : List Bank}
    (hks : ∀ m ∈ ks, (∃ k ∈ t.idx.banks, k.idx = m.idx ∧ k.st = m.st ∧ k.target = m.target ∧ (m.st = .report → k = m)) ∨
      m.st = .gather ∧ n ≤ m.target) : Binds n s { t with idx := { t.idx with banks := ks } } :=
  h.trans ⟨rfl, rfl, hks, fun _ y hy => ⟨y, hy, ⟨rfl, rfl, rfl, rfl, rfl⟩⟩⟩

theorem joinBank (h : Binds n s t) {k : Bank} (hk : k.st = .gather) (r : CmdRef) : Binds n s (t.joinBank k r) := by
  refine updQuery (setBanks h fun m hm => ?_) r fun _ => ⟨rfl, rfl, rfl, rfl, rfl, rfl⟩
  obtain ⟨b, hb, rfl⟩ := List.mem_map.1 hm
  refine .inl ⟨b, hb, ?_⟩
  split
  next he =>
    obtain rfl := beq_iff_eq.1 he
    exact ⟨rfl, rfl, rfl, fun hr => (nomatch hk.symm.trans hr)⟩
  · exact ⟨rfl, rfl, rfl, fun _ => rfl⟩

theorem openBank (h : Binds n s t) (x : Index) (shoal : Nat) {target : Nat} (ht : n ≤ target) (r : CmdRef) :
    Binds n s (t.openBank x shoal target r) := by
  refine joinBank (setBanks h fun m hm => ?_) rfl r
  rcases List.mem_append.1 hm with hm | hm
  · exact .inl ⟨m, hm, rfl, rfl, rfl, fun _ => rfl⟩
  · obtain rfl := List.mem_singleton.1 hm
    exact .inr ⟨rfl, ht⟩

theorem bindProbe (h : Binds n s t) (x : Index) (shoal : Nat) {target : Nat} (ht : n ≤ target) (r : CmdRef) (first : Bool) :
    Binds n s (t.bindProbe x shoal target r first) := by
  unfold State.bindProbe
  extract_lets ks die cnt wait later s1 s2
  have hcnt (a : Nat) : Binds n s (cnt a) := ite (fun _ => op (State.count_within ..) h) fun _ => h
  have hwait (u : State) (hu : Binds n s u) : Binds n s (wait u) := hu.updQuery r fun _ => ⟨rfl, rfl, rfl, rfl, rfl, rfl⟩
  have hlater : ∀ m, later = some m → m.st = .gather := fun m hm => by
    have := List.find?_some hm
    simp at this
    exact this.1.1
  clear_value later
  split
  next k hk =>
    have hg : k.st = .gather := by
      have := List.find?_some hk
      simp at this
      exact this.1
    refine ite (fun _ => h.joinBank hg r) fun _ => ?_
    split
    · exact (hcnt _).joinBank (hlater _ rfl) r
    · exact ite (fun _ => (hcnt _).openBank x shoal (by omega) r) fun _ => hwait _ (hcnt _)
  · refine ite (fun _ => h.openBank x shoal ht r) fun _ => ?_
    split
    · exact (hcnt _).joinBank (hlater _ rfl) r
    · exact hwait _ (hcnt _)

theorem bindProbes (h : Binds n s t) (x : Index) {target : Nat} (ht : n ≤ target) (r : CmdRef) (first : Bool) (l : List Nat) :
    Binds n s (l.foldl (fun s h => s.bindProbe x h target r first) t) :=
  List.foldlRecOn (motive := fun u => Binds n s u) l _ h fun _ hu shoal _ => hu.bindProbe x shoal ht r first

theorem bindWaiting (h : Binds n s t) (x : Index) (p : Nat → Bool) {target : Nat} (ht : n ≤ target) : Binds n s (t.bindWaiting x p target) :=
  List.foldlRecOn (motive := fun u => Binds n s u) _ _ h fun _ hu q _ =>
    (hu.updQuery (f := fun y => { y with waiting := y.waiting.filter (fun h => !p h) }) q.r fun _ => ⟨rfl, rfl, rfl, rfl, rfl, rfl⟩).bindProbes x ht q.r
      false _

/-! ## The deadline monitor -/

theorem halveProbes (h : Binds n s t) (q : Query) : Binds n s (t.halveProbes q) := by
  refine updQuery (setBanks h fun m hm => .inl ?_) _ fun _ => ⟨rfl, rfl, rfl, rfl, rfl, rfl⟩
  obtain ⟨k, hk, hkm⟩ := List.mem_map.1 (List.mem_filter.1 hm).1
  refine ⟨k, hk, ?_⟩
  split at hkm
  next hc =>
    subst hkm
    refine ⟨rfl, rfl, rfl, fun hr => ?_⟩
    have hr' : k.st = .report := hr
    simp [hr'] at hc
  · subst hkm
    exact ⟨rfl, rfl, rfl, fun _ => rfl⟩

theorem monitorOne (h : Binds n s t) (hn : n ≤ t.idx.bno + 1) (q : Query) : Binds n s (t.monitorOne q) := by
  unfold State.monitorOne
  split
  · extract_lets b mx noRr t1
    have h1 : Binds n s t1 := ite (fun _ => (op (State.count_within ..) h).updQuery _ fun _ => ⟨rfl, rfl, rfl, rfl, rfl, rfl⟩) fun _ => h
    split
    · exact ite (fun _ => ((op (State.count_within ..) h1).halveProbes _).bindWaiting _ _ hn) fun _ => h1
    · exact h1
  · exact h

theorem monitor (h : Binds n s t) (hn : n ≤ s.idx.bno + 1) : Binds n s t.monitor := by
  refine List.foldlRecOn (motive := fun u => Binds n s u) _ _ h fun u hu q _ => ?_
  split
  · exact hu.monitorOne (hu.bno ▸ hn) _
  · exact hu

end Binds

end Sys2Proof.Machine
end

section
/-! The events of a query, from its stamp to its completion. -/

namespace Sys2Proof.Machine

set_option Elab.async false

namespace State

/-! ## Probe selection and rounds -/

/-- A stamped SEARCH begins probe selection with its vector and its epoch (R97). -/
theorem actSearch_begins {s : State} {r : CmdRef} {l : Live} {x : Index} (hx : s.heldIndex l.h.func (fld l.body 5 0) = some x)
    (hnew : s.query? r = none) : ∃ y, (actSearch r l s).query? r = some y ∧ y.idx = x.no ∧ y.st = .probing ∧ y.epoch = l.epoch ∧
      y.vec = vecF32 (fld l.body 7 6) x.dims (l.body.drop 32) ∧ y.rounds = 0 ∧ y.lists = [] ∧ ∀ a, (actSearch r l s).byte a = s.byte a := by
  unfold actSearch
  simp -zeta only [hx]
  extract_lets v e tt q s1 _ s2
  have h1 : Within [.regs] s s1 := Within.ite (fun _ => count_within ..) fun _ => .refl
  have htasks : Within [.sch] s2 ((s2.probeIslands x).foldl (fun s i => s.addSeqTask i .probe x.func (s.cmdClass r) (some r)) s2) :=
    Within.foldl .refl fun _ _ => addSeqTask_within ..
  refine ⟨q, ?_, rfl, rfl, rfl, rfl, rfl, rfl, fun a => (htasks.byte (by decide) a).trans (h1.byte (by decide) a)⟩
  rw [query?_congr (congrArg IdxSt.queries (htasks.idx (by decide)))]
  have hnew1 : s1.query? r = none := (query?_congr (congrArg IdxSt.queries (h1.idx (by decide))) r).trans hnew
  refine (List.find?_append ..).trans ?_
  rw [show List.find? _ s1.idx.queries = none from hnew1]
  simp [q]

/-- The round of a query binds its probes, and the query scans. -/
theorem startRound_scans {s : State} (x : Index) (y : Query) {y0 : Query} (n target : Nat) (hy : s.query? y.r = some y0) :
    ∃ z, (s.startRound x y n target).query? y.r = some z ∧ z.st = .scanning ∧ z.order = y0.order ∧ z.rounds = y0.rounds ∧ z.lists = y0.lists := by
  unfold startRound
  extract_lets b w seen bad s1 s2
  have h1 : s1.query? y.r = some y0 := by
    have hw : Within [.regs] s s1 := Within.ite (fun _ => count_within ..) fun _ => .refl
    exact (query?_congr (congrArg IdxSt.queries (hw.idx (by decide))) _).trans hy
  have h2 := query?_updQuery_same (f := fun q => { q with st := .scanning, pos := w.2, taken := y.taken + w.1.length }) (fun _ h => h) h1
  obtain ⟨z, hz, hst⟩ := (Binds.refl.bindProbes x le_rfl y.r true w.1).queries _ _ h2
  exact ⟨z, hz, hst.st, hst.order, hst.rounds, hst.lists⟩

theorem length_probeDots (x : Index) (codes : List Int) (scales : List Nat) : (x.probeDots codes scales).length = x.nShoals := by
  simp [Index.probeDots]

/-- The entries of a probe selection are the shoals in their order. -/
theorem ids_probeEnts (l : List Nat) (score : Nat → Nat → Nat) :
    (l.mapIdx (fun h d => ({ score := score h d, id := h, ord := 0, slot := d } : Ent))).map Ent.id = List.range l.length := by
  apply List.ext_getElem <;> simp

theorem exec_probeSelectionDone {s : State} {q : CmdRef} {y : Query} {x : Index} (hy : s.query? q = some y) (hst : y.st = .probing)
    (hx : s.index? y.idx = some x) : ∃ t z, exec (.probeSelectionDone q) s = .next t ∧ t.query? q = some z ∧ z.st = .scanning ∧
      z.order.length = min x.probeMax x.nShoals ∧ (∀ e ∈ z.order, e.1 < x.nShoals) ∧ (z.order.map Prod.fst).Nodup ∧
      ∀ a, t.byte a = s.byte a := by
  suffices h : ∃ z, (s.onProbeSelectionDone q).query? q = some z ∧ z.st = .scanning ∧
      z.order.length = min x.probeMax x.nShoals ∧ (∀ e ∈ z.order, e.1 < x.nShoals) ∧ (z.order.map Prod.fst).Nodup by
    obtain ⟨z, hz, hrest, hlen, hid, hnd⟩ := h
    exact ⟨_, z, rfl, hz, hrest, hlen, hid, hnd, (onProbeSelectionDone_within s q).byte (by decide)⟩
  have hf : (s.query? q).filter (fun y => y.st == .probing) = some y := by simp [hy, hst]
  unfold onProbeSelectionDone
  simp -zeta only [hf, hx]
  extract_lets dots ents m y1 s1
  have hids : ents.map Ent.id = List.range x.nShoals := (ids_probeEnts dots _).trans (congrArg List.range (length_probeDots ..))
  have hr : y1.r = q := (r_of_query? hy : y.r = q)
  have h1 : s1.query? y1.r = some y1 := by
    have hm : (m.1.seqOver (fun t => t.kind == .probe && t.cmd == some q)).idx = s.idx :=
      ((seqOver_within ..).idx (by decide)).trans ((probeStages_within ..).idx (by decide))
    rw [hr]
    exact query?_updQuery_same (fun _ _ => hr) ((query?_congr (congrArg IdxSt.queries hm) q).trans hy)
  obtain ⟨z, hz, hzst, hzo, -, -⟩ := startRound_scans x y1 (resolveProbes x (s.qBody q)) (y.bno + 1) h1
  obtain ⟨hlen, hlt, hnd⟩ := probeStages_order s x q hids
  refine ⟨z, hr ▸ hz, hzst, ?_⟩
  rw [hzo]
  refine ⟨(List.length_map ..).trans hlen, fun e he => ?_, ?_⟩
  · obtain ⟨e', he', rfl⟩ := List.mem_map.1 he
    exact hlt e' he'
  · exact (List.map_map ..).symm ▸ hnd

theorem exec_queryRoundMerged_merges {s : State} {q : CmdRef} {y : Query} {x : Index} (hy : s.query? q = some y) (hst : y.st = .scanning)
    (hb : y.nBound = 0) (hw : y.waiting = []) (hx : s.index? y.idx = some x)
    (hlast : (searchF1 (s.qBody q) = none ∧ searchF2 (s.qBody q) = none) ∨ searchK (s.qBody q) ≤ y.pass ∨ y.order.length ≤ y.pos ∨ 2 ≤ y.level) :
    ∃ z, (s.onQueryRoundMerged q).query? q = some z ∧ z.st = .merged ∧ z.lists = [] ∧
      z.merged = (mergeEnts (rankF x.small) (searchC x (s.qBody q) + 1) (y.lists.flatMap (fun e => e.2))).1 := by
  have hf : (s.query? q).filter (fun y => y.st == .scanning && y.nBound == 0 && y.waiting.isEmpty) = some y := by simp [hy, hst, hb, hw]
  unfold onQueryRoundMerged
  simp -zeta only [hf, hx]
  extract_lets b named s1w m s1
  rw [if_neg ?_]
  · have hs1 : Within [.regs] s s1 := Within.ite (fun _ => count_within ..) fun _ => .refl
    have h1 : s1.query? q = some y := (query?_congr (congrArg IdxSt.queries (hs1.idx (by decide))) q).trans hy
    exact ⟨_, query?_updQuery_same (fun _ h => h) h1, rfl, rfl, rfl⟩
  · rintro hmore
    simp only [Bool.and_eq_true, decide_eq_true_eq, named, b, Bool.or_eq_true, Option.isSome_iff_ne_none] at hmore
    obtain ⟨⟨⟨hnamed, hpass⟩, hpos⟩, hlevel⟩ := hmore
    rcases hlast with ⟨h1, h2⟩ | h | h | h
    · exact hnamed.elim (· h1) (· h2)
    all_goals omega

theorem exec_queryRoundMerged_widens {s : State} {q : CmdRef} {y : Query} {x : Index} (hy : s.query? q = some y) (hst : y.st = .scanning)
    (hb : y.nBound = 0) (hw : y.waiting = []) (hx : s.index? y.idx = some x) (hnamed : searchF1 (s.qBody q) ≠ none ∨ searchF2 (s.qBody q) ≠ none)
    (hpass : y.pass < searchK (s.qBody q)) (hpos : y.pos < y.order.length) (hlevel : y.level < 2) :
    ∃ z, (s.onQueryRoundMerged q).query? q = some z ∧ z.st = .scanning ∧ z.rounds = y.rounds + 1 ∧ z.lists = y.lists := by
  have hf : (s.query? q).filter (fun y => y.st == .scanning && y.nBound == 0 && y.waiting.isEmpty) = some y := by simp [hy, hst, hb, hw]
  unfold onQueryRoundMerged
  simp -zeta only [hf, hx]
  extract_lets b named s1 m s2
  rw [if_pos (by simpa [named, b, hpass, hpos, hlevel, Option.isSome_iff_ne_none] using hnamed)]
  have hr := r_of_query? hy
  have h1 : s1.query? q = some { y with rounds := y.rounds + 1 } := by
    have hc : (s.count (Reg.searchWidenCnt x.die)).query? q = some y := (query?_congr (congrArg IdxSt.queries ((count_within ..).idx (by decide))) q).trans hy
    have h := query?_updQuery_same (f := fun z => { z with rounds := z.rounds + 1 }) (fun _ h => h) hc
    exact h
  obtain ⟨z, hz, hzst, -, hrounds, hlists⟩ := startRound_scans x { y with rounds := y.rounds + 1 } y.taken (s.idx.bno + 1) (hr.symm ▸ h1)
  exact ⟨z, hr ▸ hz, hzst, hrounds, hlists⟩

/-! ## Sealing, scanning and reporting -/

theorem exec_setSeal {s : State} {i : Nat} {x : Index} (hx : s.index? i = some x) (hno : x.sealNo < s.idx.bno) (hst : 2 ≤ x.st)
    (hd : s.probesDone i = true) : ((s.onSetSeal i).index? i).map Index.sealNo = some s.idx.bno ∧
      ∀ m ∈ (s.onSetSeal i).idx.banks, m.idx = i → m.st = .gather → s.idx.bno < m.target := by
  have hf : (s.index? i).filter (fun x => decide (x.sealNo < s.idx.bno) && decide (x.st ≥ 2) && s.probesDone i) = some x := by
    simp [hx, hno, hst, hd]
  unfold onSetSeal
  simp -zeta only [hf]
  extract_lets _ s1 s2
  have hbinds : Binds (s.idx.bno + 1) s2 (s2.bindWaiting x (fun _ => true) (s.idx.bno + 1)).monitor :=
    (Binds.refl.bindWaiting x _ le_rfl).monitor le_rfl
  refine ⟨?_, fun m hm hmi hmst => ?_⟩
  · have h2 : s2.index? i = some { x with sealNo := s.idx.bno } := index?_updIndex_same (fun _ => rfl) hx
    unfold index?
    rw [hbinds.indexes]
    exact congrArg (Option.map Index.sealNo) h2
  · rcases hbinds.banks m hm with ⟨k, hk, hki, hkst, hkt, -⟩ | ⟨-, hnew⟩
    · obtain ⟨k0, hk0, rfl⟩ := List.mem_map.1 hk
      rw [← hkt]
      by_cases hc : (k0.idx == i && k0.st == .gather && decide (k0.target ≤ s.idx.bno)) = true
      · rw [if_pos hc] at hkst
        exact nomatch hkst.trans hmst
      · rw [if_neg hc] at hki hkst ⊢
        by_contra hle
        simp [hki.trans hmi, hkst.trans hmst, Nat.not_lt.1 hle] at hc
    · exact hnew

theorem exec_setScanStart {s : State} {die i : Nat} {k : Bank} (hk : (s.sealedOrder die).find? (fun k => (s.bankIsland k).isSome) = some k)
    (hi : s.bankIsland k = some i) : ∃ m ∈ (s.onSetScanStart die).idx.banks, m.st = .scan ∧ m.island = i ∧ m.idx = k.idx ∧ m.shoal = k.shoal ∧
      m.qs = k.qs ∧ m.rows = k.rows := by
  have hmem : k ∈ s.idx.banks := (List.mem_filter.1 (mem_sortBy.1 (List.mem_of_find?_eq_some hk))).1
  unfold onSetScanStart
  simp -zeta only [hk, hi, Option.getD_some]
  extract_lets i0 ovr s1 kib
  have hs1 : Within [.regs] s s1 := Within.ite (fun _ => count_within ..) fun _ => .refl
  have hbanks : s1.idx.banks = s.idx.banks := congrArg IdxSt.banks (hs1.idx (by decide))
  rw [(scanTasks_within ..).idx (by decide)]
  refine ⟨{ k with st := .scan, island := i, kib := kib, late := k.late || ovr }, ?_, rfl, rfl, rfl, rfl, rfl, rfl⟩
  exact List.mem_map.2 ⟨k, hbanks ▸ hmem, by simp [i0]⟩

/-- A set that is not overdue enters SCAN without a count. -/
theorem exec_setScanStart_onTime {s : State} {die i : Nat} {k : Bank} (hk : (s.sealedOrder die).find? (fun k => (s.bankIsland k).isSome) = some k)
    (hi : s.bankIsland k = some i) (hon : s.idx.bno ≤ k.target) :
    s.onSetScanStart die = (({ s with idx := { s.idx with
      banks := updWhere (fun y => y == k) (fun y => { y with
        st := .scan, island := i, kib := bits (s.rd (Reg.selectListCfg (i / 128))) 10 0, late := k.late }) s.idx.banks } } : State).scanTasks
          k i) := by
  unfold onSetScanStart
  simp [hk, hi, Nat.not_lt.2 hon]

theorem setQuery_of_query? {s : State} {p : SetQ} {y : Query} (hy : s.query? p.r = some y) (hout : p.out = false) (hord : y.ord = p.ord) :
    s.setQuery p = some y := by
  obtain ⟨hr, l, m, hl, hnone⟩ := List.find?_eq_some_iff_append.1 hy
  refine List.find?_eq_some_iff_append.2 ⟨?_, l, m, hl, fun z hz => ?_⟩
  · simp only [SetQ.of, hout, Bool.not_false, Bool.true_and, Bool.and_eq_true, beq_iff_eq]
    exact ⟨(beq_iff_eq.1 hr).symm, hord.symm⟩
  · have := hnone z hz
    simp only [SetQ.of, Bool.not_eq_true', Bool.and_eq_false_iff] at this ⊢
    refine .inl (.inr ?_)
    simpa [beq_eq_false_iff_ne, ne_comm] using this

/-- The banks stay as a set reports, and its query has one more probe done. -/
theorem banks_reportPart (x : Index) (die : Nat) (s : State) (p : SetQ) : (State.reportPart x die s p).idx.banks = s.idx.banks := by
  unfold reportPart
  split
  · rfl
  · extract_lets c m d dup s0 s1
    have h0 : Within [.mm, .sch] s s0 := Within.foldl .refl fun _ _ => hTraffic_within ..
    have h1 : Within [.regs] s0 s1 := Within.ite (fun _ => count_within ..) fun _ => .refl
    have hidx : s1.idx = s.idx := (h1.idx (by decide)).trans (h0.idx (by decide))
    exact (congrArg IdxSt.banks hidx : s1.idx.banks = s.idx.banks)

theorem probesDone_reportPart {x : Index} {die : Nat} {s : State} {p : SetQ} {y : Query} (hy : s.query? p.r = some y) (hout : p.out = false)
    (hord : y.ord = p.ord) : ∃ z, (State.reportPart x die s p).query? p.r = some z ∧ z.probesDone = y.probesDone + 1 := by
  unfold reportPart
  simp -zeta only [setQuery_of_query? hy hout hord]
  extract_lets c m d dup s0 s1
  have h0 : Within [.mm, .sch] s s0 := Within.foldl .refl fun _ _ => hTraffic_within ..
  have h1 : Within [.regs] s0 s1 := Within.ite (fun _ => count_within ..) fun _ => .refl
  have hy1 : s1.query? p.r = some y := (query?_congr (congrArg IdxSt.queries ((h1.idx (by decide)).trans (h0.idx (by decide)))) _).trans hy
  exact ⟨_, query?_updQuery_same (fun _ h => h) hy1, rfl⟩

theorem exec_setReportDone {s : State} {i : Nat} {k : Bank} {x : Index}
    (hk : s.idx.banks.find? (fun k => k.st == .report && k.island == i) = some k) (hx : s.index? k.idx = some x) :
    k ∉ (s.onSetReportDone i).idx.banks ∧ ∀ p y, k.qs = [p] → p.out = false → s.query? p.r = some y → y.ord = p.ord →
      ∃ z, (s.onSetReportDone i).query? p.r = some z ∧ z.probesDone = y.probesDone + 1 := by
  have hkst : k.st = .report := by
    have h := List.find?_some hk
    simp only [Bool.and_eq_true, beq_iff_eq] at h
    exact h.1
  unfold onSetReportDone
  simp -zeta only [hk, hx]
  extract_lets s1 s2 _ s3
  have hbinds : Binds (s.idx.bno + 1) s3 (s3.bindWaiting x (fun h => h == k.shoal) (s.idx.bno + 1)) := Binds.refl.bindWaiting x _ le_rfl
  refine ⟨fun hmem => ?_, fun p y hqs hout hy hord => ?_⟩
  · rcases hbinds.banks k hmem with ⟨m, hm, -, -, -, hsame⟩ | ⟨hg, -⟩
    · obtain rfl := hsame hkst
      simpa using (List.mem_filter.1 hm).2
    · exact nomatch hg.symm.trans hkst
  · obtain ⟨z, hz, hdone⟩ := probesDone_reportPart (x := x) (die := i / 128) hy hout hord
    have h3 : s3.query? p.r = some z := by
      have h1 : s1 = State.reportPart x (i / 128) s p := by rw [show s1 = k.qs.foldl (State.reportPart x (i / 128)) s from rfl, hqs]; rfl
      exact (congrArg (fun u : State => u.query? p.r) h1).trans hz
    obtain ⟨w, hw, hst⟩ := hbinds.queries _ _ h3
    exact ⟨w, hw, hst.probesDone.trans hdone⟩

/-! ## Re-rank and completion -/

theorem exec_rerankDone {s : State} {q : CmdRef} {un : List Nat} {y : Query} {x : Index} (hy : s.query? q = some y) (hst : y.st = .merged)
    (hx : s.index? y.idx = some x) (hr : s.reranks x y = true) : ∃ z, (s.onRerankDone q un).query? q = some z ∧ z.st = .final ∧
      z.result.length = min (searchK (s.qBody q)) (min (resolveRerank x (s.qBody q)) y.merged.length) := by
  have hf : (s.index? y.idx).filter (fun x => y.st == .merged && s.reranks x y) = some x := by simp [hx, hst, hr]
  unfold onRerankDone
  simp -zeta only [hy, hf]
  extract_lets b k cand scored bad sorted n sr s0 nans s1
  have hsr : Within [.mm, .sch] s sr := Within.foldl .refl fun _ _ => by
    split
    · exact hTraffic_within ..
    · exact .refl
  have h0 : Within [.regs] sr s0 := Within.ite (fun _ => count_within ..) fun _ => .refl
  have h1 : Within [.regs] s0 s1 := Within.ite (fun _ => count_within ..) fun _ => .refl
  have hy1 : s1.query? q = some y :=
    (query?_congr (congrArg IdxSt.queries ((h1.idx (by decide)).trans ((h0.idx (by decide)).trans (hsr.idx (by decide))))) q).trans hy
  refine ⟨_, query?_updQuery_same (fun _ h => h) hy1, rfl, ?_⟩
  have hlen : sorted.length = cand.length := ((perm_sortBy _).length_eq).trans (by simp [scored])
  exact (List.length_take ..).trans (by rw [hlen, List.length_take])

theorem queries_retireEpochs (s : State) (x : Index) : (s.retireEpochs x).idx.queries = s.idx.queries := by
  unfold retireEpochs
  extract_lets old s1
  have h1 : Within [.fresh, .regs, .mem, .mm, .sch, .fl] s s1 := Within.foldl .refl fun _ _ => Within.foldl .refl fun _ _ => hPut_within ..
  refine Eq.trans (foldl_keeps (g := fun u => u.idx.queries) (fun u f => ?_) _ s1) (congrArg IdxSt.queries (h1.idx (by decide)))
  dsimp only
  split
  · refine (congrArg IdxSt.queries ((hSet_within ..).idx (by decide))).trans ?_
    rfl
  · rfl

theorem cplFrags_ne_nil (h : CmdHdr) (ord now status : Nat) (dup : Bool) (kind ring tag : Nat) (body : Body) :
    cplFrags h ord now status dup kind ring tag body ≠ [] := by
  unfold cplFrags
  simp

/-- A completion adds to the outbox, and something where the command is live. -/
theorem outbox_grows (s : State) (q : CmdRef) (status : Nat) (body : Body) :
    ∃ os, (s.complete q status body).outbox = s.outbox ++ os ∧ (s.live? q ≠ none → os ≠ []) := by
  cases hl : s.live? q with
  | some l => exact ⟨_, outbox_complete hl status body, fun _ => cplFrags_ne_nil _ _ _ _ _ _ _ _ _⟩
  | none =>
    refine ⟨[], ?_, fun h => absurd rfl h⟩
    unfold complete
    simp [hl]

theorem exec_searchComplete {s : State} {q : CmdRef} {y : Query} {x : Index} (hy : s.query? q = some y) (hx : s.index? y.idx = some x)
    (hst : y.st = .final ∨ (y.st = .merged ∧ s.reranks x y = false)) : (s.onSearchComplete q).query? q = none ∧
      (s.onSearchComplete q).live? q = none ∧ ∃ os, (s.onSearchComplete q).outbox = s.outbox ++ os ∧ (s.live? q ≠ none → os ≠ []) := by
  have hf : (s.index? y.idx).filter (fun x => y.st == .final || (y.st == .merged && !s.reranks x y)) = some x := by
    rcases hst with h | ⟨h, hr⟩
    · simp [hx, h]
    · simp [hx, h, hr]
  unfold onSearchComplete
  simp -zeta only [hy, hf]
  extract_lets b k res tie short named status missed body s1 s4 _ s5
  have h1 : Within [.regs] s s1 := Within.ite (fun _ => count_within ..) fun _ => .refl
  have h4 : Within [.regs] s s4 := Within.andThen (countList_within ..) (by decide) h1
  have hret := retireEpochs_within (s5.complete q status body) x
  refine ⟨?_, ?_, ?_⟩
  · rw [query?_congr (queries_retireEpochs ..), query?_congr (congrArg IdxSt.queries ((complete_within ..).idx (by decide)))]
    refine List.find?_eq_none.2 fun z hz => ?_
    simpa using (List.mem_filter.1 hz).2
  · rw [live?_congr (hret.cmd (by decide))]
    exact live?_complete_self ..
  · obtain ⟨os, hos, hne⟩ := outbox_grows s5 q status body
    refine ⟨os, ?_, fun hl => hne ?_⟩
    · rw [hret.outbox (by decide), hos]
      exact congrArg (· ++ os) (h4.outbox (by decide))
    · rw [show s5.live? q = s.live? q from live?_congr (h4.cmd (by decide)) q]
      exact hl

end State

end Sys2Proof.Machine
end

section
/-! The bytes that a scan stores: rows of the tombstones and of the ID map that leave quarantine. -/

namespace Sys2Proof.Machine

set_option Elab.async false

namespace State

/-! ## Where stores leave the cells of objects -/

theorem Spares.of_parCfg {s t : State} {f n a : Nat} (h : s.Spares f n a) (hobjs : t.mm.objs = s.mm.objs)
    (hcfg : ∀ k, t.rd (Reg.dramcParCfg k) = s.rd (Reg.dramcParCfg k)) : t.Spares f n a := by
  intro o ho i
  rw [obj?_congr hobjs] at ho
  have hcells : t.objCells o i = s.objCells o i := by
    unfold objCells t2Cells isParityData parGran
    simp only [hcfg]
  rw [hcells]
  exact h o ho i

theorem rd_settle (s : State) (u place host : Nat) {a : Nat} (ha : a ≠ Reg.vuindigBlockRetireCnt) : (s.settle u place host).rd a = s.rd a := by
  unfold settle
  extract_lets bad s0
  split
  next p s1 hp =>
    extract_lets s2 en
    have h1 : s1.rd a = s.rd a := by
      split at hp
      · obtain rfl := congrArg Prod.snd hp
        exact rd_count_other _ 1 ha
      · obtain rfl := congrArg Prod.snd hp
        rfl
    have h2 : s2.rd a = s1.rd a := rd_congr ((Within.andThen (stripeDone_within ..) (by decide) (takeBlk_within ..) : Within [.fl] s1 s2).regs (by decide)) a
    exact h2.trans h1

theorem rd_mapUnit (s : State) (host u : Nat) {a : Nat} (ha : a ≠ Reg.vuindigBlockRetireCnt) : (s.mapUnit host u).rd a = s.rd a := by
  have hw := newPlace_within s u
  unfold mapUnit
  split
  next s1 h => exact rd_congr ((h ▸ hw).regs (by decide)) a
  next p s1 h => exact (rd_settle s1 u p host ha).trans (rd_congr ((h ▸ hw).regs (by decide)) a)

theorem rd_objStore (s : State) (by_ : Nat) (o : Obj) (off : Nat) (b : List Byte) {a : Nat} (ha : a ≠ Reg.vuindigBlockRetireCnt) :
    (s.objStore by_ o off b).rd a = s.rd a := by
  have h1 : ((s.objPuts o off b).objTraffic by_ o true off b.length).rd a = s.rd a :=
    rd_congr (((objTraffic_within ..).regs (by decide)).trans ((objPuts_within ..).regs (by decide))) a
  unfold objStore
  split
  · exact h1
  · refine Eq.trans (foldl_keeps (g := fun s => s.rd a) (fun u p => ?_) _ _) h1
    split
    · exact foldl_keeps (g := fun s => s.rd a) (fun v (q : Nat × Nat) => rd_mapUnit v q.2 q.1 ha) _ _
    · rfl

theorem rd_hPut (s : State) (f n off : Nat) (b : List Byte) {a : Nat} (ha : a ≠ Reg.vuindigBlockRetireCnt) : (s.hPut f n off b).rd a = s.rd a := by
  unfold hPut
  split
  · exact rd_objStore s f _ off b ha
  · rfl

theorem objs_hTraffic (s : State) (by_ f h : Nat) (write : Bool) (off n : Nat) : (s.hTraffic by_ f h write off n).mm.objs = s.mm.objs := by
  unfold hTraffic
  split
  · exact objs_objTraffic ..
  · rfl

theorem objs_scanTraffic (s : State) (x : Index) (k : Bank) (blocks : List Nat) : (s.scanTraffic x k blocks).mm.objs = s.mm.objs := by
  unfold scanTraffic
  extract_lets s1 s2 blks copies
  have h1 : s1.mm.objs = s.mm.objs := by
    dsimp only [s1]
    split
    · exact foldl_keeps (g := fun u => u.mm.objs) (fun _ _ => objs_objTraffic ..) _ _
    · rfl
  have h2 : s2.mm.objs = s.mm.objs := (objs_hTraffic ..).trans h1
  refine Eq.trans (foldl_keeps (g := fun u => u.mm.objs) (fun u c => ?_) _ _) h2
  refine foldl_keeps (g := fun u => u.mm.objs) (fun v b => ?_) _ _
  split
  · exact objs_hTraffic ..
  · rfl

end State

/-- From `s` to `t` bytes of the tombstones and of the ID map of an index were stored alone. -/
structure StoresRows (x : Index) (s t : State) : Prop where
  objs : t.mm.objs = s.mm.objs
  parCfg : ∀ k, t.rd (Reg.dramcParCfg k) = s.rd (Reg.dramcParCfg k)
  banks : t.idx.banks = s.idx.banks
  byte : ∀ a, s.Spares x.func x.hTomb a → s.Spares x.func x.hMap a → t.byte a = s.byte a

namespace StoresRows

variable {x : Index} {s t u : State}

theorem refl : StoresRows x s s := ⟨rfl, fun _ => rfl, rfl, fun _ _ _ => rfl⟩

theorem trans (h : StoresRows x s t) (k : StoresRows x t u) : StoresRows x s u where
  objs := k.objs.trans h.objs
  parCfg n := (k.parCfg n).trans (h.parCfg n)
  banks := k.banks.trans h.banks
  byte a ht hm := (k.byte a (ht.of_parCfg h.objs h.parCfg) (hm.of_parCfg h.objs h.parCfg)).trans (h.byte a ht hm)

theorem ite {c : Prop} [Decidable c] (ht : c → StoresRows x s t) (hu : ¬c → StoresRows x s u) : StoresRows x s (if c then t else u) := by
  split
  · exact ht ‹_›
  · exact hu ‹_›

theorem foldl {α : Type} {f : State → α → State} (hf : ∀ s y, StoresRows x s (f s y)) (h : StoresRows x s t) (l : List α) :
    StoresRows x s (l.foldl f t) :=
  List.foldlRecOn (motive := fun u => StoresRows x s u) l f h fun u hu y _ => hu.trans (hf u y)

theorem hPut (h : StoresRows x s t) {n : Nat} (hn : n = x.hTomb ∨ n = x.hMap) (off : Nat) (b : List Byte) :
    StoresRows x s (t.hPut x.func n off b) := by
  refine h.trans ⟨State.mm_hPut (g := MemSt.objs) (fun _ _ => rfl) .., fun k => State.rd_hPut _ _ _ _ _ ?_,
    congrArg IdxSt.banks ((State.hPut_within ..).idx (by decide)), fun a ht hm => ?_⟩
  · unfold Reg.dramcParCfg Reg.vuindigBlockRetireCnt
    omega
  · rcases hn with rfl | rfl
    · exact ht.byte_hPut off b
    · exact hm.byte_hPut off b

theorem count (h : StoresRows x s t) {a : Nat} (ha : a % 0x1000 ≠ 0x400) (n : Nat) : StoresRows x s (t.count a n) := by
  refine h.trans ⟨congrArg MemSt.objs ((State.count_within ..).mm (by decide)), fun k => State.rd_count_other _ n ?_,
    congrArg IdxSt.banks ((State.count_within ..).idx (by decide)), fun a _ _ => (State.count_within ..).byte (by decide) a⟩
  unfold Reg.dramcParCfg
  omega

theorem countIf {c : Prop} [Decidable c] (h : StoresRows x s t) {a : Nat} (ha : a % 0x1000 ≠ 0x400) (n : Nat) :
    StoresRows x s (if c then t.count a n else t) := ite (fun _ => h.count ha n) fun _ => h

/-- One more operation on other parts. -/
theorem op {ps : List Field} (k : Within ps t u) (h : StoresRows x s t)
    (hp : .mm ∉ ps ∧ .regs ∉ ps ∧ .idx ∉ ps ∧ .mem ∉ ps := by decide) : StoresRows x s u :=
  h.trans ⟨congrArg MemSt.objs (k.mm hp.1), fun _ => State.rd_congr (k.regs hp.2.1) _, congrArg IdxSt.banks (k.idx hp.2.2.1),
    fun a _ _ => k.byte hp.2.2.2 a⟩

theorem putFilt (h : StoresRows x s t) (y : FiltSt) : StoresRows x s (t.putFilt y) := h.trans ⟨rfl, fun _ => rfl, rfl, fun _ _ _ => rfl⟩

theorem putShoalSt (h : StoresRows x s t) (y : ShoalSt) : StoresRows x s (t.putShoalSt y) := h.trans ⟨rfl, fun _ => rfl, rfl, fun _ _ _ => rfl⟩

theorem bmSetBlk (h : StoresRows x s t) (c blk : Nat) (v : BmBlk) : StoresRows x s (t.bmSetBlk x.func x.hTomb c blk v) := by
  unfold State.bmSetBlk
  extract_lets so t1
  have h1 : StoresRows x s t1 := h.hPut (.inl rfl) ..
  split
  · exact h1
  · exact h1.hPut (.inl rfl) ..
  · exact h1.hPut (.inl rfl) ..
  · exact h1

theorem bmTake (h : StoresRows x s t) (i cw blk leaf : Nat) (bs : List Bool) : StoresRows x s (t.bmTake x.func x.hTomb i cw blk leaf bs) :=
  putFilt (bmSetBlk (h.hPut (.inl rfl) ..) ..) _

theorem bmApply (h : StoresRows x s t) (i cr cw epoch : Nat) (inPlace : Bool) (blk : Nat) (cs : List (Nat × Bool)) :
    StoresRows x s (t.bmApply x.func x.hTomb i cr cw epoch inPlace blk cs) := by
  unfold State.bmApply
  extract_lets -useContext bs old t1 free twins y t2
  have h1 : StoresRows x s t1 := h.countIf (by decide) _
  clear_value old
  have hfree (u : State) (hu : StoresRows x s u) : StoresRows x s (free u) := by
    dsimp only [free]
    split
    · exact hu.putFilt _
    · exact hu
  have h2 : StoresRows x s t2 := ite (fun _ => h1) fun _ => h1.putFilt _
  refine ite (fun _ => bmSetBlk (hfree _ h2) ..) fun _ => ite (fun _ => bmSetBlk (hfree _ h2) ..) fun _ => ?_
  split
  · exact h2.hPut (.inl rfl) ..
  split
  · exact bmTake (hfree _ h2) ..
  · exact bmTake (hfree _ h2) ..
  split
  · exact h2.bmTake ..
  · exact ite (fun _ => h2.bmTake ..) fun _ => h2
  · exact h2

theorem tombCommit (h : StoresRows x s t) (epoch : Nat) (cs : List (Nat × Bool)) : StoresRows x s (t.tombCommit x epoch cs) :=
  hPut (foldl (fun _ _ => bmApply refl ..) h _) (.inl rfl) ..

theorem releaseQuar (h : StoresRows x s t) (n : Nat) : StoresRows x s (t.releaseQuar x n) := by
  refine ite (fun _ => h) fun _ => putShoalSt (foldl (fun u q => ?_) h _) _
  exact foldl (fun _ _ => hPut refl (.inr rfl) ..) (tombCommit refl ..) _

theorem keepRuns (h : StoresRows x s t) (r : CmdRef) (key island k n kib : Nat) : StoresRows x s (t.keepRuns r key island k n kib) := by
  unfold State.keepRuns
  extract_lets runs mine used kept sys free us spill y _ t1
  have h1 : StoresRows x s t1 := h.trans ⟨rfl, fun _ => rfl, rfl, fun _ _ _ => rfl⟩
  exact ite (fun _ => h) fun _ => h1.countIf (by unfold Reg.selectSpillCnt; omega) _

theorem scanTraffic (h : StoresRows x s t) (k : Bank) (blocks : List Nat) : StoresRows x s (t.scanTraffic x k blocks) := by
  have hw := State.scanTraffic_within t x k blocks
  exact h.trans ⟨State.objs_scanTraffic .., fun _ => State.rd_congr (hw.regs (by decide)) _, congrArg IdxSt.banks (hw.idx (by decide)),
    fun a _ _ => hw.byte (by decide) a⟩

end StoresRows

namespace State

theorem exec_setScanDone {s : State} {i : Nat} {bad : List Nat} {k : Bank} {x : Index}
    (hk : s.idx.banks.find? (fun k => k.st == .scan && k.island == i) = some k) (hx : s.index? k.idx = some x) :
    (∃ m ∈ (s.onSetScanDone i bad).idx.banks, m.st = .report ∧ m.island = i ∧ m.idx = k.idx ∧ m.shoal = k.shoal ∧
      m.qs.map SetQ.r = k.qs.map SetQ.r) ∧
    ∀ a, s.Spares x.func x.hTomb a → s.Spares x.func x.hMap a → (s.onSetScanDone i bad).byte a = s.byte a := by
  have hki : k.island = i := by
    have h := List.find?_some hk
    simp only [Bool.and_eq_true, beq_iff_eq] at h
    exact h.2
  unfold onSetScanDone
  simp -zeta only [hk, hx]
  extract_lets die es qs first read lost outs drops nans badDir s0 s1 s2 s3 s4 s5 s6 s6a _ s7
  have h0 : StoresRows x s s0 := .op (seqOver_within ..) .refl
  have h1 : StoresRows x s s1 := h0.count (by unfold Reg.searchSetsCnt; omega) _
  have h2 : StoresRows x s s2 := .ite (fun _ => h1) fun _ => h1.count (by unfold Reg.searchScanSkipBlkCnt; omega) _
  have h5 : StoresRows x s s5 :=
    ((h2.countIf (by unfold Reg.selectTieTailDropCnt; omega) _).countIf (by decide) _).countIf (by unfold Reg.selectNanCnt; omega) _
  have h6 : StoresRows x s s6a := .scanTraffic (.foldl (fun _ _ => .keepRuns .refl ..) h5 _) ..
  have h7 : StoresRows x s7 (s7.releaseQuar x k.shoal) := .releaseQuar .refl _
  refine ⟨?_, fun a ht hm => ?_⟩
  · rw [h7.banks]
    refine ⟨_, List.mem_map.2 ⟨k, h6.banks ▸ List.mem_of_find?_eq_some hk, if_pos (beq_self_eq_true k)⟩, rfl, hki, rfl, rfl, ?_⟩
    refine List.ext_getElem (by simp [outs]) fun n hn hm => ?_
    simp only [outs, List.getElem_map, List.getElem_mapIdx]
    split <;> rfl
  · have hb := h7.byte a (ht.of_parCfg h6.objs h6.parCfg) (hm.of_parCfg h6.objs h6.parCfg)
    exact hb.trans (h6.byte a ht hm)

end State

end Sys2Proof.Machine
end

section
/-! A query's life. -/

namespace Sys2Proof.Machine

set_option Elab.async false

/-- Settles O36: each step of a query by its event; what binds probes leaves the queries' steps and the boundaries of the banks (`Binds`), and
a scan stores rows of its index's tombstones and ID map alone (`StoresRows`). -/
theorem queriesRunToCompletion : Obligations.QueriesRunToCompletion := by
  unfold Obligations.QueriesRunToCompletion
  refine ⟨fun s t h b hs hrow => congrArg Host.Outcome.next (State.command_of_waitsForStamp actSearch hs hrow), fun s u h b l hs hrow => ?_,
    fun s t i r l0 l x hp hh hw hl0 hop hchk ht hl hx hnew => ?_, fun s q y x hy hst hx => State.exec_probeSelectionDone hy hst hx,
    fun s i x hx hno hst hd => ?_, fun s die i k hk hi => ?_, fun s i bad k x hk hx => ?_, fun s i k x hk hx => ?_,
    fun s q y x hy hst hb hw hx => ⟨fun hlast => ?_, fun hnamed hpass hpos hlevel => ?_⟩, fun s q un y x hy hst hx hr => ?_,
    fun s q y x hy hx hst => ⟨_, rfl, State.exec_searchComplete hy hx hst⟩⟩
  · obtain ⟨t, m, hex, hrest⟩ := State.command_of_entersStream actSearch hs hrow (.inl (by simpa [isSearch] using hrow))
    exact ⟨t, m, congrArg Host.Outcome.next hex, hrest⟩
  · subst ht
    have hck : checkOf l0.h.opcode (s.popStream i).asReady l0.h l0.body = none := by
      rw [hop]
      exact hchk
    have hexec := State.exec_ingressStamp hp hh hw hl0 hck hl
    rw [(State.live?_stamp_same hl0 hl).1, hop] at hexec
    obtain ⟨y, hy, hidx, hst, he, hv, hrounds, hlists, hbytes⟩ := State.actSearch_begins hx hnew
    exact ⟨_, y, hexec, hy, hidx, hst, he, hv, hrounds, hlists, fun a => (hbytes a).trans ((s.stamped_within r i).byte (by decide) a)⟩
  · obtain ⟨hseal, hbanks⟩ := State.exec_setSeal hx hno hst hd
    exact ⟨_, rfl, hseal, hbanks, (State.onSetSeal_within s i).byte (by decide)⟩
  · refine ⟨fun hon => congrArg Host.Outcome.next (State.exec_setScanStart_onTime hk hi hon), ?_⟩
    · obtain ⟨m, hm, h1, h2, h3, h4, h5, h6⟩ := State.exec_setScanStart hk hi
      exact ⟨_, m, rfl, hm, h1, h2, h3, h4, h5, h6, (State.onSetScanStart_within s die).byte (by decide)⟩
  · obtain ⟨⟨m, hm, h1, h2, h3, h4, h5⟩, hbytes⟩ := State.exec_setScanDone (bad := bad) hk hx
    exact ⟨_, m, rfl, hm, h1, h2, h3, h4, h5, fun a ha => hbytes a (fun o ho => ha o (.inl ho)) (fun o ho => ha o (.inr ho))⟩
  · obtain ⟨hgone, hdone⟩ := State.exec_setReportDone hk hx
    exact ⟨_, rfl, hgone, hdone, (State.onSetReportDone_within s i).byte (by decide)⟩
  · obtain ⟨z, hz, h1, h2, h3⟩ := State.exec_queryRoundMerged_merges hy hst hb hw hx hlast
    exact ⟨_, z, rfl, hz, h1, h2, h3, (State.onQueryRoundMerged_within s q).byte (by decide)⟩
  · obtain ⟨z, hz, h1, h2, h3⟩ := State.exec_queryRoundMerged_widens hy hst hb hw hx hnamed hpass hpos hlevel
    exact ⟨_, z, rfl, hz, h1, h2, h3, (State.onQueryRoundMerged_within s q).byte (by decide)⟩
  · obtain ⟨z, hz, h1, h2⟩ := State.exec_rerankDone (un := un) hy hst hx hr
    exact ⟨_, z, rfl, hz, h1, h2, (State.onRerankDone_within s q un).byte (by decide)⟩

end Sys2Proof.Machine
end
